-- ==== Sys2Proof/Word.lean ====
section
/-! DEFINITION. The word types of the Ahneno A1 module: bytes, 32-bit and 64-bit register words, the 64-byte memory
line, the identifiers of R19, and a sparse table keyed by a number. -/

namespace Sys2Proof

abbrev Byte := BitVec 8
/-- A 32-bit register word (R13). -/
abbrev Word := BitVec 32
/-- A 64-bit register word (R13). -/
abbrev DWord := BitVec 64
/-- A 64-byte memory line; byte k of the line is bits [8k+7:8k] (R8). -/
abbrev Line := BitVec 512
/-- A composition number (R19). -/
abbrev Cid := BitVec 16
/-- A context number within one composition (R19). -/
abbrev Ctx := BitVec 12
/-- A module physical address (R16). -/
abbrev Mpa := BitVec 46

/-- A sparse table: (key, value) pairs in strictly rising key order. -/
abbrev Tab (α : Type) := List (Nat × α)

/-- The MESSAGE a unit of the module shows its surroundings is listed in State's outbox; a raw byte payload. -/
abbrev Bytes := List Byte

end Sys2Proof
end

