-- ==== Sys2Proof/Config.lean ====
section
/-! DEFINITION. What the spec leaves open: free values, as constants with no body, and the fixed choices the
assumption log names. -/

namespace Sys2Proof.Config

/-- A result of a special function before the bound of R99 is applied: function, variant, input (log entry 12). -/
opaque specialCandidate : Nat → Bool → Word → Word
/-- A value the spec leaves open, fresh at each use: the model's counter `State.fresh` applied (log entry 11). -/
opaque freeValue : Nat → BitVec 64
/-- The keyed signature of the RTP over bytes: scheme number, key material, message (log entry 13). -/
opaque sign : Nat → Bytes → Bytes → Bytes
/-- SHA-384 (log entry 13). -/
opaque digest : Bytes → BitVec 384
/-- A key derived from the unique device secret: the secret's life-cycle state, SERIAL and draw, the slot, whether under
the debug label (log entry 13). -/
opaque derive : Nat → Nat → Nat → Nat → Bool → BitVec 256
/-- The certificate chain of an identity in a power cycle (R518; log entry 13). -/
opaque certChain : Bytes → Nat → Bytes
/-- The transcript hash of DSP0274 that a signed response signs: the request's own data, SIG_ID, the RTP's draws (log
entry 13). -/
opaque transcript : Bytes → Nat → Nat → BitVec 384
/-- Measurement 1 of R521, the RTP ROM's (log entry 13). -/
opaque romDigest : BitVec 384
/-- The deterministic random bits of the RTP at its n-th draw (log entry 13). -/
opaque random : Nat → BitVec 256
/-- AES-256 on one block: key, block (R532; log entry 13). -/
opaque aes256 : BitVec 256 → BitVec 128 → BitVec 128
/-- GHASH of NIST SP 800-38D: its key, the blocks in order (R533; log entry 13). -/
opaque ghash : BitVec 128 → List (BitVec 128) → BitVec 128
/-- 64 bytes of an instruction's result that the spec leaves open: a function of the tile, the operation and its operands
(R113), and of the line's place in the result (log entry 11). -/
opaque freeResult : List Nat → Nat → Line
/-- The 11 check bits of an SRAM codeword over its 128 data bits and 5 metadata bits (R152; log entry 13). -/
opaque checkBits : BitVec 133 → BitVec 11
/-- HKDF-SHA-384 to 36 bytes: input keying material, salt, info (R546; log entry 13). -/
opaque hkdf : Bytes → Bytes → Bytes → Bytes
/-- AES-256-GCM under a session's key and salt: frame count, header, slot bytes; the sealed slots and the tag (R546; log
entry 13). -/
opaque gcmSeal : Bytes → Nat → Bytes → Bytes → Bytes
/-- The 32 parity symbols of a link codeword's 608 message symbols (R262; log entry 50). -/
opaque rsParity : List Nat → List Nat
/-- Symbol `i` of the link's scrambler on a stripe lane, from its state at a frame boundary (R260; log entry 50). -/
opaque prbs58 : Nat → Nat → Nat
/-- The training pattern of a spare position (R260; log entry 50). -/
opaque prbs13 : Nat → List Nat

/-- The code lengths that the weight coder chooses for a frame's symbols (log entry 29). -/
opaque codeLengths : Bytes → List Nat

/-- The voltage in mV that test burned for a half's clock step (R455, log entry 31). -/
opaque tableVoltage : Nat → Nat → Nat
/-- Whether a regulator's rail is a memory rail, rather than a compute one (R457, log entry 32). -/
opaque memoryRail : Nat → Bool
/-- The LFSR of a tile's ballast operands after some steps (R58, log entry 33). -/
opaque lfsrAfter : Nat → Word → Word

/-- The IANA enterprise number that INVENTORY reports (R404, log entry 36). -/
opaque vendorPen : Word

end Sys2Proof.Config
end

