-- ==== Sys2Proof/Machine/Tab.lean ====
section
/-! DEFINITION. The sparse tables that State is made of, and the bit-field helpers of R8: reading a field, placing a
field, saturating counts, bytes of a line. -/

namespace Sys2Proof.Machine

/-- What key `k` reads as: its entry, or `d k` where none is listed. -/
def Tab.get {α : Type} (d : Nat → α) : Tab α → Nat → α
  | [], k => d k
  | (j, v) :: t, k => if j = k then v else Tab.get d t k

/-- Remove the entry of key `k`. -/
def Tab.erase {α : Type} : Tab α → Nat → Tab α
  | [], _ => []
  | (j, v) :: t, k => if j = k then t else if k < j then (j, v) :: t else (j, v) :: Tab.erase t k

/-- List `v` under key `k`, keeping the keys rising. -/
def Tab.insert {α : Type} : Tab α → Nat → α → Tab α
  | [], k, v => [(k, v)]
  | (j, w) :: t, k, v =>
    if k < j then (k, v) :: (j, w) :: t
    else if k = j then (k, v) :: t
    else (j, w) :: Tab.insert t k v

/-- Write `v` at key `k`: the entry goes where `v` is what an unlisted key reads as (the canonical form). -/
def Tab.set {α : Type} [DecidableEq α] (d : Nat → α) (t : Tab α) (k : Nat) (v : α) : Tab α :=
  if v = d k then Tab.erase t k else Tab.insert t k v

/-- Every key of the table lies above `n`, keys rise strictly, and no entry equals the default. -/
def Tab.wfFrom {α : Type} [DecidableEq α] (d : Nat → α) : Nat → Tab α → Bool
  | _, [] => true
  | n, (j, v) :: t => decide (n ≤ j) && decide (v ≠ d j) && Tab.wfFrom d (j + 1) t

/-- The canonical form: keys strictly rising, no entry equal to what an unlisted key reads as. -/
def Tab.wf {α : Type} [DecidableEq α] (d : Nat → α) (t : Tab α) : Bool := Tab.wfFrom d 0 t

/-- The entries that satisfy `p`. -/
def Tab.keep {α : Type} (p : Nat → α → Bool) (t : Tab α) : Tab α := t.filter fun e => p e.1 e.2

/-- A table of optional entries: the entry of a key, if any. -/
def Tab.find {α : Type} (t : Tab α) (k : Nat) : Option α :=
  match t with
  | [] => none
  | (j, v) :: u => if j = k then some v else Tab.find u k

/-- The lowest key at or above `n`, below `n + fuel`, that the table does not list. -/
def Tab.free {α : Type} (t : Tab α) : Nat → Nat → Option Nat
  | 0, _ => none
  | fuel + 1, n => if (Tab.find t n).isNone then some n else Tab.free t fuel (n + 1)

/-- Bits [lo + w − 1 : lo] of `v` (R8). -/
def fld {n : Nat} (v : BitVec n) (lo w : Nat) : BitVec w := v.extractLsb' lo w
/-- Bits [lo + w − 1 : lo] of `v` as a number. -/
def fldN {n : Nat} (v : BitVec n) (lo w : Nat) : Nat := (v.extractLsb' lo w).toNat
/-- Bit `i` of `v`. -/
def bit {n : Nat} (v : BitVec n) (i : Nat) : Bool := v.getLsbD i
/-- A field value at bit `lo` of an `n`-bit word. -/
def put (n lo : Nat) {w : Nat} (f : BitVec w) : BitVec n := f.setWidth n <<< lo
/-- A flag at bit `i` of an `n`-bit word. -/
def putB (n i : Nat) (b : Bool) : BitVec n := if b then (1#n) <<< i else 0#n
/-- `v` with bit `i` set to `b`. -/
def setBit {n : Nat} (v : BitVec n) (i : Nat) (b : Bool) : BitVec n :=
  if b then v ||| ((1#n) <<< i) else v &&& ~~~((1#n) <<< i)

/-- A saturating count: one more, held at all ones. -/
def satInc {w : Nat} (v : BitVec w) : BitVec w := if v = BitVec.allOnes w then v else v + 1
/-- A saturating count: `k` more, held at all ones. -/
def satAdd {w : Nat} (v : BitVec w) (k : Nat) : BitVec w :=
  if v.toNat + k < 2 ^ w then BitVec.ofNat w (v.toNat + k) else BitVec.allOnes w

/-- Byte `i` of a line (R8). -/
def Line.byte (l : Line) (i : Nat) : Byte := l.extractLsb' (8 * i) 8
/-- The value of a byte list, the first byte lowest (R8). -/
def leNat : Bytes → Nat
  | [] => 0
  | b :: t => b.toNat + 256 * leNat t
/-- `n` bytes of the value `v`, lowest first (R8). -/
def toBytes : Nat → Nat → Bytes
  | 0, _ => []
  | n + 1, v => BitVec.ofNat 8 v :: toBytes n (v / 256)
/-- The bytes of a line, lowest first. -/
def Line.bytes (l : Line) : Bytes := toBytes 64 l.toNat
/-- The line whose bytes are given, lowest first. -/
def Line.ofBytes (b : Bytes) : Line := BitVec.ofNat 512 (leNat (b.take 64))
/-- `v` with its bytes chosen by the enables `be` taken from `w` (R140 BYTE_EN). -/
def Line.merge (old new : Line) (be : DWord) : Line :=
  (List.range 64).foldl (fun acc i =>
    if be.getLsbD i then (acc &&& ~~~((255#512) <<< (8 * i))) ||| (new &&& ((255#512) <<< (8 * i))) else acc) old
/-- The field of `n` bytes at byte offset `o` of a payload (absent bytes read zero). -/
def bytesAt (p : Bytes) (o n : Nat) : Nat := leNat ((p.drop o).take n)
/-- Bits [lo + w − 1 : lo] of the `n`-byte little-endian word at offset `o` of a payload. -/
def payF (p : Bytes) (o n lo w : Nat) : Nat := bytesAt p o n / 2 ^ lo % 2 ^ w

/-- The exclusive or of a list of lines. -/
def xorLines (ls : List Line) : Line := ls.foldl (· ^^^ ·) 0

end Sys2Proof.Machine
end

