-- ==== Sys2Proof/Machine/Arith.lean ====
section
/-! DEFINITION. Number formats and arithmetic (chapter 03): exact values, the eleven formats, the one rounding, the
conversions, vector arithmetic, special functions, block scaling, the exact groups of the matrix unit, KV trim, and the
reduction engine's addition. Nothing here reads State. -/

namespace Sys2Proof.Machine

/-! ### Exact values -/

/-- An exact dyadic number m × 2^e. -/
structure Dy where
  m : Int
  e : Int
deriving DecidableEq, Repr

/-- 2^k as a natural number for a non-negative `k`. -/
def pow2 (k : Int) : Nat := 2 ^ k.toNat

/-- The mantissa of `x` at exponent `e ≤ x.e`. -/
def Dy.at (x : Dy) (e : Int) : Int := x.m * (pow2 (x.e - e) : Int)
def Dy.add (x y : Dy) : Dy := let e := min x.e y.e; ⟨x.at e + y.at e, e⟩
def Dy.neg (x : Dy) : Dy := ⟨-x.m, x.e⟩
def Dy.mul (x y : Dy) : Dy := ⟨x.m * y.m, x.e + y.e⟩
def Dy.abs (x : Dy) : Dy := ⟨x.m.natAbs, x.e⟩
/-- The exact comparison. -/
def Dy.le (x y : Dy) : Bool := let e := min x.e y.e; decide (x.at e ≤ y.at e)
def Dy.lt (x y : Dy) : Bool := !(Dy.le y x)
def Dy.isZero (x : Dy) : Bool := x.m == 0
/-- floor(log2 |x|) of a non-zero value. -/
def Dy.log2 (x : Dy) : Int := (Nat.log2 x.m.natAbs : Int) + x.e

/-- What a format's bits read as: NaN, an infinity, or a finite value with its sign (zeros carry one, R79). -/
inductive Val
  | nan
  | inf (neg : Bool)
  | fin (neg : Bool) (mag : Nat) (e : Int)
deriving DecidableEq, Repr

def Val.isNan : Val → Bool
  | .nan => true
  | _ => false
def Val.neg? : Val → Bool
  | .nan => false
  | .inf n => n
  | .fin n _ _ => n
def Val.isZero : Val → Bool
  | .fin _ 0 _ => true
  | _ => false
/-- The exact number of a finite value. -/
def Val.dy : Val → Dy
  | .fin n m e => ⟨if n then -(m : Int) else m, e⟩
  | _ => ⟨0, 0⟩
/-- The finite value of an exact number; an exact zero takes the sign given. -/
def Val.ofDy (x : Dy) (zneg : Bool) : Val :=
  if x.m = 0 then .fin zneg 0 0 else .fin (decide (x.m < 0)) x.m.natAbs x.e
def Val.negate : Val → Val
  | .nan => .nan
  | .inf n => .inf (!n)
  | .fin n m e => .fin (!n) m e
def Val.absv : Val → Val
  | .nan => .nan
  | .inf _ => .inf false
  | .fin _ m e => .fin false m e

/-! ### Formats -/

/-- The number formats in code order (R79). -/
inductive Fmt
  | fp32 | fp16 | bf16 | e4m3 | e5m2 | e3m2 | e2m3 | e2m1 | int8 | int4 | tq2
deriving DecidableEq, Repr

/-- The format of a code (R79); none above 0xA. -/
def Fmt.ofCode : Nat → Option Fmt
  | 0 => some .fp32 | 1 => some .fp16 | 2 => some .bf16 | 3 => some .e4m3 | 4 => some .e5m2
  | 5 => some .e3m2 | 6 => some .e2m3 | 7 => some .e2m1 | 8 => some .int8 | 9 => some .int4
  | 10 => some .tq2 | _ => none

def Fmt.code : Fmt → Nat
  | .fp32 => 0 | .fp16 => 1 | .bf16 => 2 | .e4m3 => 3 | .e5m2 => 4
  | .e3m2 => 5 | .e2m3 => 6 | .e2m1 => 7 | .int8 => 8 | .int4 => 9 | .tq2 => 10

/-- Bits of one stored element; a TQ2 digit is counted apart (R80, R85). -/
def Fmt.bits : Fmt → Nat
  | .fp32 => 32 | .fp16 => 16 | .bf16 => 16 | .e4m3 => 8 | .e5m2 => 8
  | .e3m2 => 6 | .e2m3 => 6 | .e2m1 => 4 | .int8 => 8 | .int4 => 4 | .tq2 => 0

/-- Mantissa bits, bias and the magnitude pattern of the largest finite value of a floating-point format (R79). -/
def Fmt.shape : Fmt → Nat × Int × Nat
  | .fp32 => (23, 127, 0x7F7FFFFF)
  | .fp16 => (10, 15, 0x7BFF)
  | .bf16 => (7, 127, 0x7F7F)
  | .e4m3 => (3, 7, 0x7E)
  | .e5m2 => (2, 15, 0x7B)
  | .e3m2 => (2, 3, 0x1F)
  | .e2m3 => (3, 1, 0x1F)
  | .e2m1 => (1, 1, 0x7)
  | _ => (0, 0, 0)

def Fmt.isInt : Fmt → Bool
  | .int8 => true | .int4 => true | _ => false
def Fmt.hasNan : Fmt → Bool
  | .fp32 => true | .fp16 => true | .bf16 => true | .e4m3 => true | .e5m2 => true | _ => false
def Fmt.hasInf : Fmt → Bool
  | .fp32 => true | .fp16 => true | .bf16 => true | .e5m2 => true | _ => false

/-- The canonical NaN of a format (R87). -/
def Fmt.nanBits : Fmt → Nat
  | .fp32 => 0x7FC00000 | .fp16 => 0x7E00 | .bf16 => 0x7FC0 | .e4m3 => 0x7F | .e5m2 => 0x7E | _ => 0

/-- The value of a format's bit pattern (R79); integers read as themselves. -/
def Fmt.read (f : Fmt) (b : Nat) : Val :=
  match f with
  | .int8 => let i : Int := if b % 256 < 128 then b % 256 else (b % 256 : Int) - 256
             .fin (decide (i < 0)) i.natAbs 0
  | .int4 => let i : Int := if b % 16 < 8 then b % 16 else (b % 16 : Int) - 16
             .fin (decide (i < 0)) i.natAbs 0
  | .tq2 => if b = 1 then .fin false 1 0 else if b = 2 then .fin true 1 0 else .fin false 0 0
  | _ =>
    let (mb, bias, maxMag) := f.shape
    let w := f.bits
    let s := decide (b / 2 ^ (w - 1) % 2 = 1)
    let mag := b % 2 ^ (w - 1)
    if mag > maxMag then
      (if f.hasInf && decide (mag = maxMag + 1) then .inf s else .nan)
    else
      let ef := mag / 2 ^ mb
      let man := mag % 2 ^ mb
      if ef = 0 then .fin s man (1 - bias - mb)
      else .fin s (man + 2 ^ mb) ((ef : Int) - bias - mb)

/-- The sticky flags of R88 that one operation sets: NV, DZ, OF, UF, IC at bits 0 to 4. -/
abbrev AFlags := BitVec 5
def flNV : AFlags := 1#5
def flDZ : AFlags := 2#5
def flOF : AFlags := 4#5
def flUF : AFlags := 8#5
def flIC : AFlags := 16#5

/-- A rounding mode (R89), in code order. -/
inductive Rm
  | rne | rz | rd | ru
deriving DecidableEq, Repr

/-- The field value of a rounding mode (R89). -/
def Rm.code : Rm → Nat
  | .rne => 0 | .rz => 1 | .rd => 2 | .ru => 3

/-- The integer `q + r/d` (0 ≤ r < d) rounded by `rm` for a value of sign `neg` (R89). -/
def roundQuot (rm : Rm) (neg : Bool) (q r d : Nat) : Nat :=
  if r = 0 then q else
  match rm with
  | .rne => if 2 * r > d then q + 1 else if 2 * r < d then q else q + q % 2
  | .rz => q
  | .rd => if neg then q + 1 else q
  | .ru => if neg then q else q + 1

/-- A non-zero magnitude `m × 2^e` rounded once to `f` with the exponent unbounded above: the magnitude pattern
(exponent field then mantissa), and whether it is inexact. -/
def roundMag (f : Fmt) (rm : Rm) (neg : Bool) (m : Nat) (e : Int) : Nat × Bool :=
  let (mb, bias, _) := f.shape
  let top := (Nat.log2 m : Int) + e
  let emin := 1 - bias - mb
  let q := max (top - mb) emin
  if q ≤ e then
    let m' := m * pow2 (e - q)
    (m' + (q - emin).toNat * 2 ^ mb, false)
  else
    let d := pow2 (q - e)
    let m' := roundQuot rm neg (m / d) (m % d) d
    (m' + (q - emin).toNat * 2 ^ mb, decide (m % d ≠ 0))

/-- The sign bit of a format in place. -/
def Fmt.signed (f : Fmt) (neg : Bool) (mag : Nat) : Nat := if neg then 2 ^ (f.bits - 1) + mag else mag

/-- Whether a finite magnitude lies below the smallest normal of `f`. -/
def Fmt.tiny (f : Fmt) (m : Nat) (e : Int) : Bool :=
  let (_, bias, _) := f.shape
  decide ((Nat.log2 m : Int) + e < 1 - bias)

/-- A value converted to a floating-point format with one rounding (R89 to R91): bits and flags. `sat` is SAT; the
formats without an overflow to infinity always saturate, and set OF for every value beyond their largest (R91). -/
def toFloat (f : Fmt) (rm : Rm) (sat : Bool) (v : Val) : Nat × AFlags :=
  let (_, _, maxMag) := f.shape
  match v with
  | .nan => if f.hasNan then (f.nanBits, 0) else (0, flNV)
  | .inf n =>
    if f.hasInf && !sat then (f.signed n (maxMag + 1), 0) else (f.signed n maxMag, flOF)
  | .fin n 0 _ => (f.signed n 0, 0)
  | .fin n m e =>
    let (mag, inexact) := roundMag f rm n m e
    let uf : AFlags := if inexact && f.tiny m e then flUF else 0
    if f.hasInf then
      if mag > maxMag then
        let toMax := sat || (match rm with | .rz => true | .rd => !n | .ru => n | .rne => false)
        (if toMax then f.signed n maxMag else f.signed n (maxMag + 1), flOF)
      else (f.signed n mag, uf)
    else if Dy.lt (f.read maxMag).dy ⟨m, e⟩ then (f.signed n maxMag, flOF) else (f.signed n mag, uf)

/-- A finite value rounded into a float element of an MX block (R94 step 4): saturated under R91 in every format, so a
value beyond the largest finite one is the largest, with OF, however it would round. -/
def toMx (f : Fmt) (rm : Rm) (v : Val) : Nat × AFlags :=
  match v with
  | .fin n m e =>
    let maxMag := f.shape.2.2
    if Dy.lt (f.read maxMag).dy ⟨m, e⟩ then (f.signed n maxMag, flOF) else toFloat f rm true v
  | v => toFloat f rm true v

/-- A value rounded to an integer by `rm` and clamped to [lo, hi] (R92): the integer and flags. -/
def toInt (lo hi : Int) (rm : Rm) (v : Val) : Int × AFlags :=
  match v with
  | .nan => (0, flNV)
  | .inf n => (if n then lo else hi, flOF)
  | .fin n m e =>
    let a : Nat := if 0 ≤ e then m * pow2 e else
      let d := pow2 (-e)
      roundQuot rm n (m / d) (m % d) d
    let i : Int := if n then -(a : Int) else a
    if i < lo then (lo, flOF) else if hi < i then (hi, flOF) else (i, 0)

/-- An integer as a two's-complement pattern of `w` bits. -/
def intBits (w : Nat) (i : Int) : Nat := (i % (2 ^ w : Int)).toNat

/-- A value converted to an element of any format (R89 to R92). TQ2 elements come out as digits. -/
def convert (f : Fmt) (rm : Rm) (sat : Bool) (v : Val) : Nat × AFlags :=
  match f with
  | .int8 => let (i, g) := toInt (-128) 127 rm v; (intBits 8 i, g)
  | .int4 => let (i, g) := toInt (-8) 7 rm v; (intBits 4 i, g)
  | .tq2 => let (i, g) := toInt (-1) 1 rm v; (if i = 1 then 1 else if i = -1 then 2 else 0, g)
  | _ => toFloat f rm sat v

/-! ### IEEE 754 operations (R96) -/

/-- Exact addition of two values; an exact zero sum is −0 only when both are (R96, RNE). -/
def Val.add : Val → Val → Val × AFlags
  | .nan, _ => (.nan, 0)
  | _, .nan => (.nan, 0)
  | .inf a, .inf b => if a = b then (.inf a, 0) else (.nan, flNV)
  | .inf a, _ => (.inf a, 0)
  | _, .inf b => (.inf b, 0)
  | .fin a m e, .fin b m' e' =>
    (Val.ofDy (Dy.add (Val.fin a m e).dy (Val.fin b m' e').dy) (a && b), 0)

/-- Exact product of two values. -/
def Val.mul (x y : Val) : Val × AFlags :=
  match x, y with
  | .nan, _ => (.nan, 0)
  | _, .nan => (.nan, 0)
  | .inf a, y => if y.isZero then (.nan, flNV) else (.inf (a != y.neg?), 0)
  | x, .inf b => if x.isZero then (.nan, flNV) else (.inf (x.neg? != b), 0)
  | .fin a m e, .fin b m' e' => (.fin (a != b) (m * m') (e + e'), 0)

/-- One rounding by RNE to the operand format (R96). -/
def rne (f : Fmt) (r : Val × AFlags) : Nat × AFlags :=
  let (b, g) := toFloat f .rne false r.1
  (b, g ||| r.2)

def fAdd (f : Fmt) (a b : Nat) : Nat × AFlags := rne f (Val.add (f.read a) (f.read b))
def fSub (f : Fmt) (a b : Nat) : Nat × AFlags := rne f (Val.add (f.read a) (f.read b).negate)
def fMul (f : Fmt) (a b : Nat) : Nat × AFlags := rne f (Val.mul (f.read a) (f.read b))
/-- a × b + c with one rounding. -/
def fFma (f : Fmt) (a b c : Nat) : Nat × AFlags :=
  let (p, g) := Val.mul (f.read a) (f.read b)
  if (f.read c).isNan then (f.nanBits, 0) else
  let (s, h) := Val.add p (f.read c)
  rne f (s, g ||| h)

/-- The IEEE 754 order: none when a NaN is compared; −0 equals +0. -/
def Val.cmp (x y : Val) : Option Ordering :=
  match x, y with
  | .nan, _ => none
  | _, .nan => none
  | .inf a, .inf b => some (if a = b then .eq else if a then .lt else .gt)
  | .inf a, _ => some (if a then .lt else .gt)
  | _, .inf b => some (if b then .gt else .lt)
  | x, y => some (if Dy.lt x.dy y.dy then .lt else if Dy.lt y.dy x.dy then .gt else .eq)

/-- maximumNumber and minimumNumber (R96): a NaN yields the other operand, −0 is less than +0. -/
def fMax (f : Fmt) (a b : Nat) : Nat :=
  let x := f.read a; let y := f.read b
  if x.isNan && y.isNan then f.nanBits else if x.isNan then b else if y.isNan then a else
  match Val.cmp x y with
  | some .lt => b
  | some .gt => a
  | _ => if x.neg? then b else a
def fMin (f : Fmt) (a b : Nat) : Nat :=
  let x := f.read a; let y := f.read b
  if x.isNan && y.isNan then f.nanBits else if x.isNan then b else if y.isNan then a else
  match Val.cmp x y with
  | some .lt => a
  | some .gt => b
  | _ => if x.neg? then a else b

/-- A list folded pairwise: element i with element i + n for i < n (one level of R98). -/
def foldHalf (g : Nat → Nat → Nat × AFlags) (n : Nat) (xs : List Nat) : List Nat × AFlags :=
  (List.zip (xs.take n) (xs.drop n)).foldr
    (fun p acc => let (v, h) := g p.1 p.2; (v :: acc.1, h ||| acc.2)) ([], 0)

/-- The reduce-sum tree (R98) over `2^k` FP32 values. -/
def sumTree : Nat → List Nat → Nat × AFlags
  | 0, xs => (xs.headD 0, 0)
  | k + 1, xs =>
    let (ys, g) := foldHalf (fAdd .fp32) (2 ^ k) xs
    let (v, h) := sumTree k ys
    (v, g ||| h)

/-- A 16-bit value widened exactly to FP32. -/
def widen (f : Fmt) (b : Nat) : Nat := (toFloat .fp32 .rne false (f.read b)).1

/-- Reduce-sum of 128 FP32 lanes, or of 256 lanes of a 16-bit format (R98). -/
def reduceSum (f : Fmt) (xs : List Nat) : Nat × AFlags :=
  if f = .fp32 then sumTree 7 xs
  else
    let (ys, g) := foldHalf (fAdd .fp32) 128 (xs.map (widen f))
    let (v, h) := sumTree 7 ys
    (v, g ||| h)

/-! ### Special functions (R99, R100) -/

/-- exp2, reciprocal, rsqrt, log2 (R40), in this order. -/
inductive SpecialFn
  | exp2 | recip | rsqrt | log2
deriving DecidableEq, Repr

/-- y ≤ 2^x for y > 0 and x = k / 2^t exactly: y^(2^t) ≤ 2^k. -/
def leExp2 (y x : Dy) : Bool :=
  let t := (-x.e).toNat
  let k := x.m * (pow2 x.e : Int)
  let p : Dy := ⟨((y.m.natAbs ^ (2 ^ t) : Nat) : Int), y.e * (2 ^ t : Int)⟩
  Dy.le p ⟨1, k⟩
/-- y ≥ 2^x, as above. -/
def geExp2 (y x : Dy) : Bool :=
  let t := (-x.e).toNat
  let k := x.m * (pow2 x.e : Int)
  let p : Dy := ⟨((y.m.natAbs ^ (2 ^ t) : Nat) : Int), y.e * (2 ^ t : Int)⟩
  Dy.le ⟨1, k⟩ p

/-- y ≤ f(x), for x in the open case of R99 (x > 0 but for exp2 and reciprocal). -/
def SpecialFn.below (f : SpecialFn) (x y : Dy) : Bool :=
  match f with
  | .exp2 => decide (y.m ≤ 0) || leExp2 y x
  | .recip => if 0 < x.m then Dy.le (Dy.mul y x) ⟨1, 0⟩ else Dy.le ⟨1, 0⟩ (Dy.mul y x)
  | .rsqrt => decide (y.m ≤ 0) || Dy.le (Dy.mul (Dy.mul y y) x) ⟨1, 0⟩
  | .log2 => if Dy.lt ⟨1024, 0⟩ y then false else if Dy.lt y ⟨-1024, 0⟩ then true else geExp2 x y
/-- y ≥ f(x), as above. -/
def SpecialFn.above (f : SpecialFn) (x y : Dy) : Bool :=
  match f with
  | .exp2 => decide (0 < y.m) && geExp2 y x
  | .recip => if 0 < x.m then Dy.le ⟨1, 0⟩ (Dy.mul y x) else Dy.le (Dy.mul y x) ⟨1, 0⟩
  | .rsqrt => decide (0 < y.m) && Dy.le ⟨1, 0⟩ (Dy.mul (Dy.mul y y) x)
  | .log2 => if Dy.lt ⟨1024, 0⟩ y then true else if Dy.lt y ⟨-1024, 0⟩ then false else leExp2 x y

/-- floor(log2 |f(x)|): exact for every function of the table. -/
def SpecialFn.scale (f : SpecialFn) (x : Dy) : Int :=
  match f with
  | .exp2 => if 0 ≤ x.e then x.m * (pow2 x.e : Int) else x.m / (pow2 (-x.e) : Int)
  | .recip => if x.m.natAbs = 2 ^ Nat.log2 x.m.natAbs then -x.log2 else -x.log2 - 1
  | .rsqrt =>
    let l := x.log2
    let pow := decide (x.m.natAbs = 2 ^ Nat.log2 x.m.natAbs)
    if l % 2 = 0 then (if pow then -l / 2 else -l / 2 - 1) else -(l + 1) / 2
  | .log2 =>
    let lo : Int := if SpecialFn.below .log2 x ⟨1, 0⟩ then 0 else -1
    (List.range 8).foldl (fun (acc : Int) (k : Nat) =>
      let p : Dy := ⟨((2 ^ k : Nat) : Int), 0⟩
      if SpecialFn.below .log2 x p || SpecialFn.above .log2 x p.neg then (k : Int) else acc) lo

/-- The error allowed at input x (R99): FP32 variant (`bf` false) or BF16-precision variant. -/
def SpecialFn.bound (f : SpecialFn) (bf : Bool) (x : Dy) : Dy :=
  let p : Int := if bf then 8 else 24
  let near := Dy.le ⟨1, -1⟩ x && Dy.le x ⟨2, 0⟩
  if f = .log2 && near then ⟨1, if bf then -9 else -22⟩
  else
    let n : Int := if bf || f = .recip then 1 else 2
    ⟨n, max (f.scale x) (-126) - p + 1⟩

/-- Whether y lies within the bound of R99 of f(x). -/
def SpecialFn.within (f : SpecialFn) (bf : Bool) (x y : Dy) : Bool :=
  let u := f.bound bf x
  f.below x (Dy.add y u.neg) && f.above x (Dy.add y u)

/-- The largest pattern that adds bits below 2^n to `acc` and whose value does not pass |f(x)|. -/
def SpecialFn.floorBits (f : SpecialFn) (g : Fmt) (neg : Bool) (x : Dy) : Nat → Nat → Nat
  | 0, acc => acc
  | n + 1, acc =>
    let c := acc + 2 ^ n
    let v := (g.read c).dy
    SpecialFn.floorBits f g neg x n (if (if neg then f.above x v.neg else f.below x v) then c else acc)

/-- The largest j with j × 2^-24 not beyond |f(x)|, for |f(x)| ≤ 1. -/
def SpecialFn.floorFixed (f : SpecialFn) (neg : Bool) (x : Dy) : Nat → Nat → Nat
  | 0, acc => acc
  | n + 1, acc =>
    let v : Dy := ⟨((acc + 2 ^ n : Nat) : Int), -24⟩
    SpecialFn.floorFixed f neg x n (if (if neg then f.above x v.neg else f.below x v) then acc + 2 ^ n else acc)

/-- A magnitude pattern of `g` within the bound of R99 of |f(x)|: the representable value next below, or the one above
it where that lies closer than the bound asks. -/
def SpecialFn.nearMag (f : SpecialFn) (bf : Bool) (g : Fmt) (neg : Bool) (x : Dy) : Nat :=
  let (mb, bias, _) := g.shape
  let near := f = .log2 && Dy.le ⟨1, -1⟩ x && Dy.le x ⟨2, 0⟩
  let lo := if near then (toFloat g .rz false (.fin false (SpecialFn.floorFixed f neg x 25 0) (-24))).1
    else
      let start := f.scale x + bias
      SpecialFn.floorBits f g neg x mb (if 1 ≤ start then start.toNat * 2 ^ mb else 0)
  let sgn (d : Dy) : Dy := if neg then d.neg else d
  if f.within bf x (sgn (g.read lo).dy) then lo else lo + 1

/-- The sign of f(x) in the open case. -/
def SpecialFn.negAt (f : SpecialFn) (x : Dy) : Bool :=
  match f with
  | .recip => decide (x.m < 0)
  | .log2 => Dy.lt x ⟨1, 0⟩
  | _ => false

/-- A special function of one input (R99, R100): the exact results and flags of the table, and elsewhere the free
value where it lies within the bound, else the nearest representable value not beyond the exact one (log entry 12).
`bf` chooses the BF16-precision variant; the result is in `g`. An exact result sets no UF (R88). R100 asks 2^n of exp2
in both variants down to n = −149, which BF16 cannot hold below n = −133: there the BF16-precision variant gives R99's
bounded free value (DESIGN CHOICE, log entry 10). -/
def SpecialFn.eval (f : SpecialFn) (bf : Bool) (v : Val) (inBits : Word) : Nat × AFlags :=
  let g : Fmt := if bf then .bf16 else .fp32
  let inf (n : Bool) : Nat := (toFloat g .rne false (.inf n)).1
  let z (n : Bool) : Nat := g.signed n 0
  let free (x : Dy) : Nat × AFlags :=
    let neg := f.negAt x
    if 128 ≤ f.scale x then (inf neg, flOF) else
    let cand := (Config.specialCandidate (match f with | .exp2 => 0 | .recip => 1 | .rsqrt => 2 | .log2 => 3) bf
      inBits).toNat % 2 ^ g.bits
    let bounded := match g.read cand with
      | .fin n m e => f.within bf x (Val.fin n m e).dy
      | _ => false
    let r := if bounded then cand else g.signed neg (f.nearMag bf g neg x)
    let small := match g.read r with | .fin _ m e => decide (m = 0) || g.tiny m e | _ => false
    (r, if small then flUF else 0)
  match f, v with
  | _, .nan => (g.nanBits, 0)
  | .exp2, .inf n => (if n then z false else inf false, 0)
  | .recip, .inf n => (z n, 0)
  | .rsqrt, .inf n => if n then (g.nanBits, flNV) else (z false, 0)
  | .log2, .inf n => if n then (g.nanBits, flNV) else (inf false, 0)
  | .exp2, .fin n m e =>
    let x := (Val.fin n m e).dy
    if m = 0 then (toFloat g .rne false (.fin false 1 0))
    else if Dy.le ⟨128, 0⟩ x then (inf false, flOF)
    else if Dy.lt x ⟨-150, 0⟩ then (z false, flUF)
    else
      let k := f.scale x
      let exact := Dy.le x ⟨k, 0⟩
      let r := toFloat g .rne false (.fin false 1 k)
      if exact && decide ((g.read r.1).dy.isZero = false) then r else free x
  | .recip, .fin n m e =>
    if m = 0 then (inf n, flDZ)
    else if m = 2 ^ Nat.log2 m then
      toFloat g .rne false (.fin n 1 (-((Nat.log2 m : Int) + e)))
    else free (Val.fin n m e).dy
  | .rsqrt, .fin n m e =>
    if m = 0 then (inf n, flDZ)
    else if n then (g.nanBits, flNV)
    else
      let l := (Nat.log2 m : Int) + e
      if m = 2 ^ Nat.log2 m ∧ l % 2 = 0 then toFloat g .rne false (.fin false 1 (-l / 2))
      else free (Val.fin n m e).dy
  | .log2, .fin n m e =>
    if m = 0 then (inf true, flDZ)
    else if n then (g.nanBits, flNV)
    else if m = 2 ^ Nat.log2 m then
      let l := (Nat.log2 m : Int) + e
      toFloat g .rne false (.fin (decide (l < 0)) l.natAbs 0)
    else free (Val.fin n m e).dy

/-! ### Block scaling (R80 to R86) -/

/-- Element `i` of an array of packed elements starting at byte 0 of `get` (R80, R85): bits, and whether its TQ2 byte
is above 242. -/
def elemBits (f : Fmt) (get : Nat → Nat) (i : Nat) : Nat × Bool :=
  match f with
  | .tq2 =>
    let b := get (i / 5)
    if b > 242 then (0, true) else (b / 3 ^ (i % 5) % 3, false)
  | _ =>
    let w := f.bits
    let bo := i * w
    let raw := (List.range ((w + 7) / 8 + 1)).foldl (fun acc k => acc + get (bo / 8 + k) * 256 ^ k) 0
    (raw / 2 ^ (bo % 8) % 2 ^ w, false)

/-- Elements in a scaled block (R82, R84). -/
def Fmt.block : Fmt → Nat
  | .tq2 => 160
  | _ => 32

/-- The scale of a block from its stored bits: none is NaN (R82, R84). -/
def scaleOf (f : Fmt) (bits : Nat) : Option Dy :=
  match f with
  | .tq2 => match Fmt.bf16.read bits with
    | .fin n m e => some (Val.fin n m e).dy
    | _ => none
  | _ => if bits = 0xFF then none else some ⟨1, (bits : Int) - 127⟩

/-- An element as read before its scale (R83): scaled integers carry their fixed point. -/
def scaledRead (f : Fmt) (b : Nat) : Val :=
  match f with
  | .int8 => match Fmt.int8.read b with | .fin n m e => .fin n m (e - 6) | v => v
  | .int4 => match Fmt.int4.read b with | .fin n m e => .fin n m (e - 2) | v => v
  | _ => f.read b

/-- A value times a block scale, exactly, with its flags (R82 to R84, R88, R93): an infinity times a zero scale is the
IEEE product, NV. A BF16 scale of −0 is taken as +0, so a digit times it reads as a zero of the digit's sign: the spec
does not give that sign (DESIGN CHOICE, log entry 16). -/
def timesScale (v : Val) (s : Option Dy) : Val × AFlags :=
  match s with
  | none => (.nan, 0)
  | some d => Val.mul v (Val.ofDy d false)
/-- The value alone. -/
def applyScale (v : Val) (s : Option Dy) : Val := (timesScale v s).1

/-! ### Block quantize (R94, R95) -/

def emaxOf : Fmt → Int
  | .e4m3 => 8 | .e5m2 => 15 | .e3m2 => 4 | .e2m3 => 2 | .e2m1 => 2 | _ => 0

/-- The largest magnitude of a list of finite values. -/
def amaxOf (vs : List Val) : Dy := vs.foldl (fun a v => if Dy.lt a v.dy.abs then v.dy.abs else a) ⟨0, 0⟩

def anyNan (vs : List Val) : Bool := vs.any Val.isNan
def anyInf (vs : List Val) : Bool := vs.any fun v => match v with | .inf _ => true | _ => false

/-- Block quantize into an MX format (R94): scale byte, element bits, flags. -/
def quantizeMx (f : Fmt) (rm : Rm) (vs : List Val) : Nat × List Nat × AFlags :=
  if anyNan vs then (0xFF, vs.map fun _ => 0, flNV)
  else if anyInf vs then (0xFF, vs.map fun _ => 0, flOF)
  else
    let amax := amaxOf vs
    if amax.isZero then
      (0, vs.map fun v => if f.isInt then 0 else f.signed v.neg? 0, 0)
    else
      let s := max (amax.log2 - emaxOf f) (-127)
      let sh : Int := match f with | .int8 => 6 | .int4 => 2 | _ => 0
      let rs := vs.map fun v =>
        let w := match v with
          | .fin n m e => Val.fin n m (e - s + sh)
          | w => w
        if f.isInt then convert f rm true w else toMx f rm w
      ((s + 127).toNat, rs.map (·.1), rs.foldl (fun g r => g ||| r.2) 0)

/-- Block quantize into TQ2 (R95): BF16 scale bits, digits, flags. -/
def quantizeTq2 (vs : List Val) : Nat × List Nat × AFlags :=
  if anyNan vs then (Fmt.bf16.nanBits, vs.map fun _ => 0, flNV)
  else if anyInf vs then (Fmt.bf16.nanBits, vs.map fun _ => 0, flOF)
  else
    let sum := vs.foldl (fun a v => Dy.add a v.dy.abs) ⟨0, 0⟩
    let n := vs.length
    let mean : Nat × AFlags := if sum.isZero || n = 0 then (0, 0) else
      -- the exact mean sum / n, scaled up so that one rounding to BF16 sees every bit that matters
      let k : Nat := 64
      let num := sum.m.natAbs * 2 ^ k
      let q := num / n
      let sticky := if num % n = 0 then 0 else 1
      toFloat .bf16 .rne false (.fin false (2 * q + sticky) (sum.e - k - 1))
    let tb := mean.1
    let t := (Fmt.bf16.read tb).dy
    let half : Dy := ⟨t.m, t.e - 1⟩
    (tb, vs.map fun v =>
      if t.isZero then 0 else if Dy.lt half v.dy then 1 else if Dy.lt v.dy half.neg then 2 else 0, mean.2)

/-- Five digits packed in a TQ2 byte (R85). -/
def packDigits (ds : List Nat) : Nat := (ds.take 5).foldr (fun d acc => d + 3 * acc) 0

/-! ### The matrix unit (R101 to R105) -/

/-- The classes of R101: 0 float, 1 integer, 2 TQ2. -/
def Fmt.cls (f : Fmt) : Nat := if f = .tq2 then 2 else if f.isInt then 1 else 0
/-- Whether the array accepts the pair (R101). -/
def pairOk (a b : Fmt) : Bool :=
  match a.cls with
  | 0 => b.cls != 1
  | 1 => b.cls != 0
  | _ => true
/-- The rank of a format in the table of R36; the lower row governs. -/
def Fmt.rank : Fmt → Nat
  | .fp32 => 0
  | .fp16 => 1 | .bf16 => 1
  | .e2m1 => 3 | .int4 => 3 | .tq2 => 3
  | _ => 2
/-- The group size G of a pair (R103). -/
def groupSize (a b : Fmt) : Nat :=
  match min a.rank b.rank with
  | 0 => 1
  | 1 => 16
  | _ => 32

/-- The exact sum of a group's products (R103 step 2, R104): a NaN product or infinities of both signs make it NaN, the
latter with NV wherever they stand in K order; an exact zero sum is −0 only when every product is. -/
def groupSum (ps : List (Val × AFlags)) : Val × AFlags :=
  let g := ps.foldl (fun g p => g ||| p.2) (0 : AFlags)
  let both := ps.any (fun p => decide (p.1 = .inf false)) && ps.any fun p => decide (p.1 = .inf true)
  (ps.foldl (fun acc p => (Val.add acc p.1).1) (.fin true 0 0), if both then g ||| flNV else g)

/-- One group added to the accumulator value (R103 steps 2 to 4, R104): the products, the scales of A and B. -/
def groupStep (G : Nat) (acc : Nat) (ps : List (Val × AFlags)) (sa sb : Option Dy) : Nat × AFlags :=
  let (s, g1) := groupSum ps
  let x := timesScale s sa
  let y := timesScale x.1 sb
  let g := y.1
  let g2 := g1 ||| x.2 ||| y.2
  if G = 1 then
    let (v, h) := Val.add (Fmt.fp32.read acc) g
    let (b, k) := toFloat .fp32 .rne false v
    (b, (g2 ||| h ||| k) &&& (flNV ||| flOF))
  else
    let (r, h) := toFloat .fp32 .rne false g
    let (b, k) := fAdd .fp32 acc r
    (b, (g2 ||| h ||| k) &&& (flNV ||| flOF))

/-! ### KV trim (R108 to R110) -/

/-- x rounded by RNE to 3 significant bits: mantissa 4 to 7 and exponent of its lowest bit. -/
def q3 (m : Nat) (e : Int) : Nat × Int :=
  let sh := (Nat.log2 m : Int) - 2
  if sh ≤ 0 then (m * pow2 (-sh), e + sh)
  else
    let d := pow2 sh
    let q := roundQuot .rne false (m / d) (m % d) d
    if q = 8 then (4, e + sh + 1) else (q, e + sh)

/-- A trimmed block (R109): header byte, 32 six-bit elements, and whether the controller counts it (step 1, step 6). -/
def trimBlock (vs : List Val) : Nat × List Nat × Bool × Bool :=
  if anyNan vs || anyInf vs then (0xFF, vs.map fun _ => 0b011100, true, false)
  else
    let qs := vs.map fun v => match v with
      | .fin n m e => if m = 0 then (n, 0, 0) else let (q, x) := q3 m e; (n, q, x + 2)
      | _ => (false, 0, 0)
    if qs.all fun q => q.2.1 = 0 then
      (0, qs.map fun q => (if q.1 then 0b111100 else 0b011100), false, false)
    else
      let top := qs.foldl (fun (a : Option Int) q => if q.2.1 = 0 then a else
        some (match a with | none => q.2.2 | some b => max b q.2.2)) none
      let emax := max (top.getD 0) (-127)
      let clampB := decide (emax = 128)
      let em := if clampB then 127 else emax
      ((em + 127).toNat, qs.map fun q =>
        let s := if q.1 then 32 else 0
        if q.2.1 = 0 then s + 0b011100
        else if q.2.2 > em then s + 3
        else if q.2.2 ≥ em - 6 then s + (em - q.2.2).toNat * 4 + (q.2.1 - 4)
        else s + 0b011100, false, clampB)

/-- The value of a trimmed element under header `h` (R108). -/
def trimRead (h el : Nat) : Val :=
  if h = 0xFF then .nan else
  let s := decide (el / 32 % 2 = 1)
  let rel := el / 4 % 8
  if rel = 7 then .fin s 0 0 else .fin s (4 + el % 4) ((h : Int) - 127 - rel - 2)

end Sys2Proof.Machine
end

