-- ==== Sys2Proof/Operand.lean ====
section
/-! DEFINITION. What the commands carry: mesh and fabric packets, link frames and sideband words, decoded tile
instructions, Itlum requests and the paths they arrive on, bridle image entries, and the facts of the environment
(error outcomes, readings, verdicts) that an event row brings with it. -/

namespace Sys2Proof

open Sys2Proof.Machine (Fmt Rm SpecialFn)

/-- The part numbers of R1. -/
inductive Part
  | l1536 | l0768
deriving DecidableEq, Repr

/-! ### The packet mesh -/

/-- A mesh packet (R140): the header's fields, and the data flit of a write request or read response. -/
structure Packet where
  type : BitVec 8
  dest : BitVec 10
  src : BitVec 10
  tag : BitVec 8
  cid : Cid
  ctx : Ctx
  epoch : Word
  cls : BitVec 3
  deadline : BitVec 16
  rights : BitVec 3
  addr : BitVec 60
  byteEn : DWord
  status : BitVec 8
  operand : BitVec 128
  data : Line
deriving DecidableEq, Repr

/-- What the memory finds on the lines an access reads (R153, R154, R170): no error; an error corrected in `n`
codewords, then perhaps an ICV mismatch; an uncorrectable codeword; an ICV mismatch; in LPDDR5X, a read repeated after
link ECC, a MAC mismatch whose rebuilt line's MAC matches or does not, perhaps after such a repeat. -/
inductive Ecc
  | clean
  | corrected (n : Nat)
  | correctedIcv (n : Nat)
  | uncorrectable
  | icv
  | linkRetry
  | macRebuilt
  | macLost
  | retryRebuilt
  | retryLost
deriving DecidableEq, Repr

/-- Codewords that a read of an SRAM line corrects (R153). -/
def Ecc.corrections : Ecc → Option Nat
  | .corrected n | .correctedIcv n => some n
  | _ => none
/-- Whether the ICV does not match after correction (R154). -/
def Ecc.icvFails : Ecc → Bool
  | .icv | .correctedIcv _ => true
  | _ => false
/-- Whether the controller repeats the read after link ECC (R170 step 1). -/
def Ecc.retried : Ecc → Bool
  | .linkRetry | .retryRebuilt | .retryLost => true
  | _ => false
/-- Whether the MAC of a rebuilt line does not match, or nothing delivers the line (R170 step 5). -/
def Ecc.lost : Ecc → Bool
  | .macLost | .retryLost | .uncorrectable | .icv | .correctedIcv _ => true
  | _ => false
/-- Whether the line read is rebuilt with a matching MAC (R170 step 4). -/
def Ecc.rebuilds : Ecc → Bool
  | .macRebuilt | .retryRebuilt => true
  | _ => false

/-- What the check of a region finds at its last scrubbed line (R544): the accumulator matches RMAC; a line differs from
its rebuild and replacing it restores RMAC; nothing restores it. -/
inductive RmacFact
  | agrees
  | replaced (line : Fin 1024)
  | lost
deriving DecidableEq, Repr

/-- The operation of an atomic packet or scalar atomic (R117). -/
inductive AtomicOp
  | add | exchange | compareExchange
deriving DecidableEq, Repr

/-! ### Tile instructions -/

/-- A scalar register number. -/
abbrev SReg := Fin 32
/-- A vector register number. -/
abbrev VReg := Fin 32
/-- A predicate register number. -/
abbrev PReg := Fin 8

/-- Integer operations of the scalar class (R117); the spec names the classes and leaves the list to the encoding. -/
inductive ScalarAlu
  | add | sub | mul | and | or | xor | shl | shrl | shra
  | eq | ne | ltS | ltU | leS | leU
deriving DecidableEq, Repr

/-- A scalar instruction, decoded (R117). `illegal` stands for a word that R118 faults: an OPC not listed, a reserved
field non-zero, a register that does not exist. -/
inductive ScalarOp
  | alu (op : ScalarAlu) (dst a b : SReg)
  | aluImm (op : ScalarAlu) (dst a : SReg) (imm : BitVec 41)
  | movImm (dst : SReg) (imm : BitVec 41)
  | branch (cond : SReg) (onZero : Bool) (target : BitVec 25)
  | jump (target : BitVec 25)
  | call (link : SReg) (target : BitVec 25)
  | ret (link : SReg)
  | illegal
deriving DecidableEq, Repr

/-- A scalar memory instruction (R117): the address is the DVA in `base` plus the immediate; `log2` is 0 to 3. -/
inductive ScalarMem
  | load (log2 : Fin 4) (signed : Bool) (dst base : SReg) (imm : BitVec 41)
  | store (log2 : Fin 4) (src base : SReg) (imm : BitVec 41)
  | atomic (op : AtomicOp) (dst src cmp base : SReg) (imm : BitVec 41)
deriving DecidableEq, Repr

/-- A vector memory instruction (R117): a V register of 512 bytes or a P register of 16 bytes. -/
inductive VectorMem
  | load (dst : VReg) (base : SReg) (imm : BitVec 41)
  | store (src : VReg) (base : SReg) (imm : BitVec 41)
  | loadP (dst : PReg) (base : SReg) (imm : BitVec 41)
  | storeP (src : PReg) (base : SReg) (imm : BitVec 41)
deriving DecidableEq, Repr

/-- Vector comparisons (R40, R96). -/
inductive VCmp
  | eq | ne | lt | le | unordered
deriving DecidableEq, Repr

/-- Float operations of the vector unit (R40, R96). -/
inductive VFloat
  | add | sub | mul | min | max
deriving DecidableEq, Repr

/-- Integer, bitwise and shift operations of the vector unit (R40, R97). -/
inductive VInt
  | add | sub | mul | and | or | xor | shl | shrl | shra
deriving DecidableEq, Repr

/-- A vector arithmetic instruction (R40, R96 to R100). `fmt` is a format code; `wide` chooses 128 lanes of 32 bits. -/
inductive VectorOp
  | float (op : VFloat) (fmt : BitVec 5) (dst a b : VReg)
  | fma (fmt : BitVec 5) (dst a b c : VReg)
  | abs (fmt : BitVec 5) (dst a : VReg)
  | neg (fmt : BitVec 5) (dst a : VReg)
  | cmp (op : VCmp) (fmt : BitVec 5) (dst : PReg) (a b : VReg)
  | select (wide : Bool) (p : PReg) (dst a b : VReg)
  | int (op : VInt) (wide : Bool) (dst a b : VReg)
  | special (fn : SpecialFn) (bf : Bool) (fmt : BitVec 5) (dst a : VReg)
  | reduceSum (fmt : BitVec 5) (dst a : VReg)
  | reduceMax (fmt : BitVec 5) (dst a : VReg)
  | permute (wide : Bool) (dst a idx : VReg)
deriving DecidableEq, Repr

/-- A conversion instruction (R89 to R93): operand types of R81, the block scales of a scaled source in `scale`. -/
structure Conversion where
  dst : VReg
  src : VReg
  scale : VReg
  srcType : BitVec 5
  dstFmt : BitVec 5
  rm : Rm
  sat : Bool
deriving DecidableEq, Repr

/-- A block-quantize instruction (R94, R95): source values of format `srcFmt`, an MX or TQ2 block of `dstFmt` into
`dst`, its scale into scalar register `scale`. `count` is the number of present elements. -/
structure Quantize where
  dst : VReg
  src : VReg
  src2 : VReg
  scale : SReg
  srcFmt : BitVec 5
  dstFmt : BitVec 5
  count : Fin 161
  rm : Rm
deriving DecidableEq, Repr

/-- The fields of MMA.B and MMA.V (R120); `reserved` is bits 15:0. -/
structure Mma where
  acc : Fin 4
  m : BitVec 3
  sa : SReg
  sb : SReg
  k : BitVec 18
  ncol : BitVec 7
  reserved : BitVec 16
deriving DecidableEq, Repr

/-- The fields of the handle instructions (R123). -/
structure HandleOp where
  sd : SReg
  so : SReg
  sv : SReg
deriving DecidableEq, Repr

/-- A tile instruction that an access, a wait for pages or a wait for a reference has to try again (R199, R205, R360). -/
inductive TileOp
  | scalarMem (op : ScalarMem)
  | vectorMem (op : VectorMem)
  | streamStart (ch : Fin 8) (sd : SReg)
  | fenceSignal (op : HandleOp)
  | fenceWait (op : HandleOp)
  | semAcq (op : HandleOp)
  | semRel (op : HandleOp)
  | barArrive (sg sb : SReg)
  | barWait (sd sb sg : SReg) (hook : Bool) (timeout : BitVec 16)
deriving DecidableEq, Repr

/-- A neighbour port: N, E, S, W in code order (R126). -/
abbrev NPort := Fin 4

/-- What a neighbour port's sideband and data carry in a cycle (R131): a beat, a pairing word, returned credits. -/
inductive Sideband
  | beat (dch : Fin 8) (data : BitVec 1024)
  | pairing (dch : Fin 8) (cid : Cid) (ctx : Ctx) (credits : Nat)
  | credits (cch : Fin 8) (n : Nat)
deriving DecidableEq, Repr

/-! ### Itlum -/

/-- The path of an Itlum message (R384): a function's mailbox, an MCTP endpoint, a peer module, the site operator's
session. -/
inductive Path
  | mailbox (hport : Fin 2) (func : Fin 257)
  | mctp (eid : BitVec 8)
  | peer (module : BitVec 14)
  | site
deriving DecidableEq, Repr

/-- An Itlum request as received (R390): the raw header and payload are checked from `bytes`. -/
structure ItlMsg where
  bytes : Bytes
deriving DecidableEq, Repr

/-- A request that has passed checks 1 to 6 of R391 and waits to be executed: the fields its command reads. -/
structure ItlReq where
  path : Path
  op : BitVec 16
  reqId : Word
  cid : Cid
  part : Nat
  owner : DWord
  lease : Word
  payload : Bytes
deriving DecidableEq, Repr

/-- An entry of a bridle image (R228). -/
inductive ImgEntry
  | tiles (group : Nat) (banks : BitVec 4) (guar : Nat) (mask : BitVec 128)
  | sram (ltile gbase gcount : Nat) (ctx : Ctx) (scope : Bool)
  | pairs (off len baseGb guar : Nat) (mask : BitVec 192)
  | port (port guarTx guarRx : Nat)
  | host (hport func : Nat)
  | windows (n : Nat)
  | unitScope (unit units : Nat) (ctx : Ctx)
deriving DecidableEq, Repr

/-! ### Links and the fabric -/

/-- A 64-byte flit (R262). -/
abbrev Flit := Line

/-- A control message of a link (R276, R547). -/
inductive CtrlMsg
  | discovery (module : BitVec 14) (port : BitVec 6) (serial : DWord) (cadence : DWord) (stamp echo : Word)
  | substReq (llane : Fin 16) (spare : Fin 2)
  | substAck (llane : Fin 16) (spare : Fin 2) (switchSeq : BitVec 16)
  | substNak (llane : Fin 16) (spare : Fin 2) (cause : BitVec 8)
  | keyx (bytes : Bytes)
  | unknown (code : BitVec 8)
deriving DecidableEq, Repr

/-- A frame as it arrives at a port (R262 to R265): whether each of its two codewords decodes, whether the CRC-32C matches,
the header, the slots (virtual channel and flit) and control messages, corrected symbols per logical lane, and
whether the encryption tag verifies (R546). -/
structure Frame where
  first : Bool
  second : Bool
  crcOk : Bool
  ftype : BitVec 4
  replay : Bool
  nak : Bool
  seq : BitVec 16
  ack : BitVec 16
  credits : Word
  slots : List (Fin 4 × Flit)
  ctrl : List CtrlMsg
  corrected : List (Fin 16 × Nat)
  tagOk : Bool
deriving DecidableEq, Repr

/-- A fabric packet (R296): the header's fields, its data flit, the second of a chunk of 128 bytes (R312), and whether a
reserved bit is non-zero. -/
structure FabPacket where
  type : BitVec 8
  destMod : BitVec 14
  srcMod : BitVec 14
  hops : BitVec 5
  down : Bool
  status : BitVec 8
  ftag : BitVec 14
  ctx : Ctx
  cid : Cid
  cls : BitVec 3
  rights : BitVec 3
  deadline : BitVec 16
  gen : BitVec 16
  collId : BitVec 16
  addr : BitVec 46
  byteEn : DWord
  operand : BitVec 128
  data : Line
  data2 : Option Line
  reserved : Bool
deriving DecidableEq, Repr

/-- A fabric port number. -/
abbrev LPort := Fin 48
/-- A tile index (R59). -/
abbrev TileIx := Fin 544
/-- A bank number. -/
abbrev BankIx := Fin 4
/-- A stream channel number. -/
abbrev ChIx := Fin 8
/-- A half: 0 west, 1 east. -/
abbrev Half := Fin 2
/-- A physical pair. -/
abbrev PairIx := Fin 192
/-- A composition slot. -/
abbrev SlotIx := Fin 512
/-- A parser entry of the QUE block (R380). -/
abbrev QEntry := Fin 8704
/-- A host port. -/
abbrev HPortIx := Fin 2
/-- A function of a host port (R327). -/
abbrev FuncIx := Fin 257

/-- What a training step of a port finds (R272): per step, the positions that fail, the peer's lane order, the
polarity found. -/
structure TrainFact where
  failed : BitVec 18
  reversed : Bool
  polarity : BitVec 16
  peerFailed : BitVec 18
  /-- Flits of each virtual channel still in the peer's buffer (R269). -/
  peerHeld : List Nat
deriving DecidableEq, Repr

/-- The verdict of a host completion (R330): data, Unsupported Request or Completer Abort, poisoned. -/
inductive Completion
  | ok (data : Line)
  | refused
  | poisoned
  | translation (log2 : Fin 41) (target : DWord)
deriving DecidableEq, Repr

/-- Where a register or buffer access of the outside is made: the Zesin address space, or a function's BAR0. -/
inductive RegSpace
  | zesin (debug : Bool)
  | bar0 (hport : HPortIx) (func : FuncIx) (tbit : Bool)
deriving DecidableEq, Repr

/-- A resource of the module as composition sees it (R250): a bank or granule of a physical tile, a 256 MiB unit, a
physical pair, a window entry, a host function, a whole tile, a fabric port. -/
inductive Resource
  | bank (tile bank : Nat)
  | granule (tile g : Nat)
  | unit (u : Nat)
  | pair (p : Nat)
  | window (w : Nat)
  | func (hport func : Nat)
  | tile (t : Nat)
  | port (p : Nat)
deriving DecidableEq, Repr

/-- A resource that guarantees are admitted on (R244): a logical tile's mesh inbound, a logical pair, one direction of a
fabric port. -/
inductive GuarRes
  | tile (ltile : Nat)
  | pair (lpair : Nat)
  | port (p : Nat) (rx : Bool)
deriving DecidableEq, Repr

/-- A power reading (R446, R447): watts averaged over 10 µs, the 1 ms current in mA, input mV, domain watts. -/
structure PowerReading where
  watts : Nat
  currentMa : Nat
  inputMv : Nat
  mem : Nat
  link : Nat
  base : Nat
  comp : Nat
deriving DecidableEq, Repr

/-- A temperature sensor (R457). -/
inductive Sensor
  | tile (t : TileIx)
  | mcRouter (mc : Fin 48)
  | portRouter (p : LPort)
  | package (m : Fin 48)
  | regulator (r : Fin 256)
  | coolant
deriving DecidableEq, Repr

/-- The background items of R489 that have a deadline, in table order. -/
inductive BgItem
  | refresh | calibration | retrain | patrolScrub | sramScrub | checkWriteback | eye | voltage | logErase | telemetry
deriving DecidableEq, Repr

/-- The ERROR responses of the RTP (R517, R519, R520), by their names in DSP0274. -/
inductive SpdmErr
  | invalidRequest | busy | unexpectedRequest | responseNotReady
deriving DecidableEq, Repr

/-- The SPDM responses of the RTP (R519 to R521): signed ones carry their SIG_ID. -/
inductive SpdmRsp
  | version
  | capabilities
  | algorithms
  | digests (d : BitVec 384)
  | certificate (data : Bytes) (remainder : Nat)
  | challengeAuth (sigId : Nat) (sig : Bytes)
  | measurements (blocks : List (Nat × Bytes)) (sigId : Option Nat) (sig : Bytes)
  | keyExchange (session : Nat) (sigId : Nat) (sig : Bytes)
  | finish (session : Nat)
  | heartbeat (session : Nat)
  | keyUpdate (session : Nat)
  | endSession (session : Nat)
  | hssSignature (sig : Bytes)
  | error (e : SpdmErr)
deriving DecidableEq, Repr

/-- Which self-test ended (R581, R583, R585). -/
inductive TestKind
  | shell | bf16 | narrow
deriving DecidableEq, Repr

/-- What the RTP finds of a bank's two images in the hash and signature checks of R506 steps 2 to 4; the headers' fields
are read from the bank's bytes. -/
structure VerifyFact where
  rtpSig : Bool
  itlSig : Bool
deriving DecidableEq, Repr

/-- The registers of a function's configuration space that the module's behaviour reads (R206, R325, R327, R328,
R331, R332); every other configuration register is of the PCI Express specification. -/
inductive ConfigReg
  | vfEnable | numVfs | atsEnable | priEnable | priCapacity | priAllocation | busMaster | msixEnable | bar2Size | other
deriving DecidableEq, Repr

/-- What the RTP finds at power-up: the verdicts of R506 on the two firmware banks; the address straps (R600). -/
structure BootFact where
  bankA : VerifyFact
  bankB : VerifyFact
  straps : BitVec 3
deriving DecidableEq, Repr

end Sys2Proof
end

