-- ==== Sys2Proof/Syntax.lean ====
section
/-! DEFINITION. The commands of the Ahneno A1 block: one constructor for each row of the table of operations and events,
in its order, with the operands its rule gives it. -/

namespace Sys2Proof

/-- A command (a row of opcode_table.json). -/
inductive Instr
  /-- REGISTER_WRITE: R13. A write to a register field that has no row of its own, including reserved-field and bad-width handling. -/
  | registerWrite (space : RegSpace) (addr : Word) (log2 : Fin 4) (value : DWord)
  /-- CADENCE_TICK: R438. A cadence-tick boundary strobes every block of both halves. -/
  | cadenceTick (cycles : Nat)
  /-- CADENCE_PERIOD_WRAP: R438. CAD_TICK wraps to 0, the local epoch increments and the PLL sets the next period's rate. -/
  | cadencePeriodWrap (cycles : Nat)
  /-- TETHER_MARKER: R434. A high level on the tether is classed as marker, frame data or line fault, and a marker is accepted or rejected under the mode window. -/
  | tetherMarker (highNs intervalNs : Nat)
  /-- EPOCH_FRAME: R441. A complete epoch frame is checked and its EPOCH is compared with the local epoch. -/
  | epochFrame (frame : Bytes)
  /-- MARKER_TIMEOUT: R439. No marker is accepted within two intervals, and the PLL enters HOLDOVER. -/
  | markerTimeout
  /-- TETHER_REVERSAL: R591. The line idles high for 2 s with short lows, and the receiver inverts the pair. -/
  | tetherReversal
  /-- COMMIT_BOUNDARY: R399. Pending SH values of an accepted commit take effect together at the tick boundary. -/
  | commitBoundary
  /-- SRM_COMMIT_GO: R157. A write of SRM_COMMIT.GO checks the pending SRAM share and granule fields. -/
  | srmCommitGo (t : TileIx)
  /-- MEM_COMMIT_GO: R168. A write of MEM_COMMIT.GO checks the pending interleave groups and pair map. -/
  | memCommitGo
  /-- XLT_COMMIT_GO: R223. A write of XLT_COMMIT.GO checks the pending slot tables and owner table. -/
  | xltCommitGo
  /-- BRD_COMMIT_GO: R230. A write of BRD_COMMIT.GO checks the pending fields of every block for one commit. -/
  | brdCommitGo
  /-- LNK_COMMIT_GO: R283. A write of LNK_COMMIT.GO checks the pending LNK_EXPECT. -/
  | lnkCommitGo (p : LPort)
  /-- FAB_COMMIT_GO: R319. A write of FAB_COMMIT.GO checks the pending fabric fields. -/
  | fabCommitGo
  /-- QUE_COMMIT_GO: R380. A write of QUE_COMMIT.GO checks the pending resident table and queue entries. -/
  | queCommitGo
  /-- SEQ_COMMIT_GO: R413. A write of SEQ_COMMIT.GO checks the reel table that SEL would make active. -/
  | seqCommitGo
  /-- CAD_COMMIT_GO: R467. A write of CAD_COMMIT.GO checks the pending CAD_CFG. -/
  | cadCommitGo
  /-- PWR_COMMIT_GO: R470. A write of PWR_COMMIT.GO checks the pending power settings. -/
  | pwrCommitGo
  /-- CORE_CLAMP: R61. A TIL_CTRL write sets or clears CORE_CLAMP, subject to the ordering refusals. -/
  | coreClamp (t : TileIx) (v : Word)
  /-- CORE_GATE: R62. A TIL_CTRL write sets or clears CORE_GATE, subject to the ordering refusals. -/
  | coreGate (t : TileIx) (v : Word)
  /-- CORE_UNPOWERED: R61. The core rail falls after CORE_GATE, and CORE_POWERED becomes 0. -/
  | coreUnpowered (t : TileIx)
  /-- NARROW_EN: R56. A TIL_CTRL write enables or disables formats 0x3 to 0xA on a tile. -/
  | narrowEn (t : TileIx) (v : Word)
  /-- ISSUE_HOLD: R61. A TIL_CTRL write requests that issue stop from every bank. -/
  | issueHold (t : TileIx) (v : Word)
  /-- ISSUE_HELD: R63. Issue stops at the instruction boundary, and ISSUE_HELD is set. -/
  | issueHeld (t : TileIx)
  /-- TIL_CYCLE_WRAP: R65. The tile cycle counter wraps and sets OVF. -/
  | tilCycleWrap (h : Half)
  /-- BANK_HOLD: R69. A SEQ_BANK_CTRL write sets or clears HOLD on a bank. -/
  | bankHold (t : TileIx) (b : BankIx) (v : Word)
  /-- BANK_PURGE: R73. A write of SEQ_BANK_CTRL.PURGE puts the bank in PURGING and stops its channels. -/
  | bankPurge (t : TileIx) (b : BankIx) (v : Word)
  /-- PURGE_COMPLETE: R73. A purging bank's outstanding count reaches zero, and the bank is zeroed and becomes EMPTY. -/
  | purgeComplete (t : TileIx) (b : BankIx)
  /-- PURGE_TIMEOUT: R474. A purge misses its 50 ms timeout, and the context is lost with code 0x08. -/
  | purgeTimeout (t : TileIx) (b : BankIx)
  /-- ISOLATION_DRAIN_DONE: R74. The shell's outstanding core requests reach zero, and the core is gated. -/
  | isolationDrainDone (t : TileIx)
  /-- ISOLATION_DRAIN_TIMEOUT: R74. The isolation drain exceeds 1 ms, and Itlum escalates to half recovery. -/
  | isolationDrainTimeout (t : TileIx)
  /-- SHIFT_COPY_START: R75. The old-epoch count of the moving tiles reaches zero, and ISSUE_HOLD is set and the shift engines start. -/
  | shiftCopyStart (h : Half) (row : Fin 16)
  /-- SHIFT_COPY_DONE: R75. The shift copy ends, TIL_NBR is committed, the mappings are rewritten and issue resumes. -/
  | shiftCopyDone (h : Half) (row : Fin 16)
  /-- SHELL_FAILURE: R78. A tile shell fails: its contexts are lost with code 0x0A, the mesh routes around it and the row shifts. -/
  | shellFailure (t : TileIx) (element : Fin 3)
  /-- SCALAR_OP: R117. A scalar arithmetic, logic, compare, move, branch, call or return instruction retires. -/
  | scalarOp (t : TileIx) (b : BankIx) (op : ScalarOp)
  /-- SCALAR_MEMORY: R119. A scalar load, store or atomic is checked, translated and issued. -/
  | scalarMemory (t : TileIx) (b : BankIx) (op : ScalarMem) (ecc : Ecc)
  /-- VECTOR_OP: R40. A vector arithmetic instruction executes. -/
  | vectorOp (t : TileIx) (b : BankIx) (op : VectorOp)
  /-- VECTOR_MEMORY: R117. A vector register load or store executes. -/
  | vectorMemory (t : TileIx) (b : BankIx) (op : VectorMem) (ecc : Ecc)
  /-- CONVERSION: R89. A conversion instruction rounds once under RM and SAT. -/
  | conversion (t : TileIx) (b : BankIx) (op : Conversion)
  /-- BLOCK_QUANTIZE: R94. A block-quantize instruction makes an MX or TQ2 block with its scale. -/
  | blockQuantize (t : TileIx) (b : BankIx) (op : Quantize)
  /-- MMA_B: R36. A block-mode matrix instruction accumulates A·B. -/
  | mmaB (t : TileIx) (b : BankIx) (op : Mma) (found : List (Fin 393216 × Ecc))
  /-- MMA_V: R37. A vector-mode matrix instruction streams B from the share into the accumulator. -/
  | mmaV (t : TileIx) (b : BankIx) (op : Mma) (found : List (Fin 393216 × Ecc))
  /-- ACC_MOV: R106. Accumulator rows move exactly to vector registers. -/
  | accMov (t : TileIx) (b : BankIx) (acc : Fin 4) (row : Fin 32) (dst : VReg) (upper : Bool)
  /-- ACC_ZERO: R117. An accumulator is set to +0. -/
  | accZero (t : TileIx) (b : BankIx) (acc : Fin 4)
  /-- STREAM_START: R127. A stream channel reads its descriptor, checks it and starts a copy or a link channel. -/
  | streamStart (t : TileIx) (b : BankIx) (ch : ChIx) (sd : SReg) (ecc : Ecc)
  /-- STREAM_ARM: R134. A send channel adds armed beats, or a receive channel releases ring beats and returns credits. -/
  | streamArm (t : TileIx) (b : BankIx) (ch : ChIx) (sn : SReg)
  /-- STREAM_WAIT: R130. The bank waits until the channel is done. -/
  | streamWait (t : TileIx) (b : BankIx) (ch : ChIx)
  /-- STREAM_STOP: R130. A channel issues nothing more, writes back and enters done without signalling. -/
  | streamStop (t : TileIx) (b : BankIx) (ch : ChIx)
  /-- FENCE_SIGNAL: R371. A tile signals a fence through the sync unit. -/
  | fenceSignal (t : TileIx) (b : BankIx) (op : HandleOp)
  /-- FENCE_WAIT: R371. A tile registers a wait on a fence value. -/
  | fenceWait (t : TileIx) (b : BankIx) (op : HandleOp)
  /-- SEM_ACQ: R373. A tile takes semaphore units, or waits for them in first-come order. -/
  | semAcq (t : TileIx) (b : BankIx) (op : HandleOp)
  /-- SEM_REL: R373. A tile returns semaphore units and clears OVALID if it is the owner. -/
  | semRel (t : TileIx) (b : BankIx) (op : HandleOp)
  /-- BAR_ARRIVE: R145. A tile sends a barrier arrival to the home and receives GEN. -/
  | barArrive (t : TileIx) (b : BankIx) (sg sb : SReg)
  /-- BAR_WAIT: R147. A tile waits for the barrier generation to advance past SG. -/
  | barWait (t : TileIx) (b : BankIx) (sd sb sg : SReg) (hook : Bool) (timeout : BitVec 16)
  /-- FLAGS: R124. The arithmetic flags are read and the masked ones cleared. -/
  | flagsOp (t : TileIx) (b : BankIx) (sd : SReg) (clear : BitVec 5)
  /-- END: R115. A program ends, and the bank returns to LOADED. -/
  | endOp (t : TileIx) (b : BankIx)
  /-- NOP: R117. A tile no-operation instruction retires. -/
  | nopOp (t : TileIx) (b : BankIx)
  /-- WALK_COMPLETE: R199. A table walk's LPDDR5X reads return, and the translation is installed or faults. -/
  | walkComplete (t : TileIx) (b : BankIx) (ecc : Ecc)
  /-- FILL_DELAY_EXPIRY: R415. A granted bank has been not ready for FILL_DELAY ticks, so a fill bank may run. -/
  | fillDelayExpiry (t : TileIx)
  /-- LINK_SLOT: R135. A send channel decides a slot's beat 12 cycles ahead and sends it or leaves the slot empty. -/
  | linkSlot (t : TileIx) (ch : ChIx)
  /-- LINK_BEAT: R137. An arriving beat is written to the receive channel's ring, or discarded. -/
  | linkBeat (t : TileIx) (port : NPort) (dch : ChIx) (data : BitVec 1024)
  /-- PAIRING_WORD: R133. An arriving pairing word sets the peer port's pairing entry and initial credits. -/
  | pairingWord (t : TileIx) (port : NPort) (dch : ChIx) (cid : Cid) (ctx : Ctx) (credits : Nat)
  /-- LINK_CREDIT_RETURN: R134. A credit return on the sideband adds credits to a send channel. -/
  | linkCreditReturn (t : TileIx) (cch : ChIx) (n : Fin 8)
  /-- MESH_READ: R141. A read request reaches its target, is checked and is served. -/
  | meshRead (p : Packet) (ecc : Ecc)
  /-- MESH_WRITE: R141. A write request reaches its target, is checked and is served. -/
  | meshWrite (p : Packet) (ecc : Ecc)
  /-- MESH_ATOMIC: R176. An atomic request is served as one operation at its target. -/
  | meshAtomic (p : Packet) (op : AtomicOp) (ecc : Ecc)
  /-- MESH_UNKNOWN_TYPE: R141. A stop discards a packet of an unknown type, and it is counted. -/
  | meshUnknownType (p : Packet)
  /-- READ_RESPONSE: R129. A read response reaches its issuer, with data or a status. -/
  | readResponse (p : Packet)
  /-- WRITE_ACKNOWLEDGEMENT: R129. A write acknowledgement reaches its issuer. -/
  | writeAcknowledgement (p : Packet)
  /-- ATOMIC_RESPONSE: R129. An atomic response reaches its issuer. -/
  | atomicResponse (p : Packet)
  /-- BARRIER_ARRIVAL: R145. The barrier home receives an arrival from a member tile, or (true) from a
  child, with what the object's lines read as. -/
  | barrierArrival (p : Packet) (fact : Bool × Ecc)
  /-- BARRIER_RELEASE: R146. A barrier release reaches its members or a pending home. -/
  | barrierRelease (obj : Mpa) (gen : Word) (members : Line) (toHome : Bool)
  /-- BAR_WAIT_TIMEOUT: R147. BAR.WAIT's TIMEOUT passes, so it writes status 0x1. -/
  | barWaitTimeout (t : TileIx) (b : BankIx)
  /-- SRAM_CORRECTED_REWRITE: R153. A bank rewrites a corrected line at its next idle access. -/
  | sramCorrectedRewrite (t : TileIx) (line : Fin 393216)
  /-- SRAM_CLEAR: R158. A write of SRM_CLEAR.GO starts the shift engine clearing granules. -/
  | sramClear (t : TileIx) (v : Word)
  /-- SRAM_CLEAR_DONE: R158. A granule clear ends, and BUSY becomes 0. -/
  | sramClearDone (t : TileIx)
  /-- SRM_UE_VALID_CLEAR: R161. A W1C write clears SRM_UE.VALID so that the next uncorrectable line is recorded. -/
  | srmUeValidClear (t : TileIx) (v : Word)
  /-- SRAM_SCRUB: R177. SRAM patrol scrub reads one line per bank at its interval. -/
  | sramScrub (t : TileIx) (found : List (Fin 32 × Ecc))
  /-- LPDDR_PATROL_SCRUB: R177. LPDDR5X patrol scrub reads a pair line through the read path. -/
  | lpddrPatrolScrub (p : PairIx) (ecc : Ecc) (rmac : RmacFact)
  /-- REFRESH: R177. A per-bank refresh falls due. -/
  | refresh (ch : Fin 384)
  /-- CALIBRATION_WINDOW: R177. A channel's calibration window latches ZQ and reads the oscillator and on-die ECC counts. -/
  | calibrationWindow (ch : Fin 384) (odecc driftPs : Nat)
  /-- WRITE_DQ_RETRAIN: R177. Write DQ retraining runs in a window after oscillator drift exceeds 5 ps. -/
  | writeDqRetrain (ch : Fin 384)
  /-- BACKGROUND_DEADLINE: R488. A background item reaches its maximum deferral and takes its unit at the next boundary. -/
  | backgroundDeadline (item : BgItem) (unit : Nat)
  /-- CHECK_DELTA: R171. A delta arrives over the memory ring and is XORed into the check cache. -/
  | checkDelta (h : Half)
  /-- CHECK_LINE_WRITEBACK: R171. A dirty check line reaches its write-back deadline. -/
  | checkLineWriteback (p : PairIx) (line : Nat)
  /-- PAIR_REBUILD_DONE: R173. A rebuild ends: the map commit names the spare, and the failed pair is RETIRED; what the reads of its
  lines find stands beside it. -/
  | pairRebuildDone (p : PairIx × List (Nat × Ecc))
  /-- MR4_RATE_CHANGE: R178. MR4 reports a new refresh rate, and the deliverable figure changes. -/
  | mr4RateChange (p : PairIx) (rate : BitVec 2)
  /-- CODER_JOB_DONE: R180. A coder or trim job ends with a STATUS and signals its fence. -/
  | coderJobDone (mc : Fin 48) (ecc : Ecc) (far : List Completion)
  /-- REENCRYPT_DONE: R538. A region's re-encryption reaches CURSOR 1,024 and RE clears. -/
  | reencryptDone (p : PairIx) (region : Fin 122880)
  /-- KID_RETIRED: R541. A retiring memory key has no users and no cached work, so it becomes RETIRED. -/
  | kidRetired (k : Fin 64)
  /-- XLT_INV: R201. Look-aside entries that overlap the range and scope are dropped. -/
  | xltInv (e : QEntry) (index : Word)
  /-- XLT_SYNC: R202. A sync waits for earlier invalidations and for requests under dropped entries. -/
  | xltSync (e : QEntry) (index : Word)
  /-- XLT_SYNC_DONE: R202. The sync's conditions hold, and its fence is signalled. -/
  | xltSyncDone (e : QEntry) (index : Word)
  /-- PRG_RESPONSE: R205. A PRG Response arrives; on Success the access is checked again. -/
  | prgResponse (h : HPortIx) (f : FuncIx) (prgi : BitVec 9) (code : BitVec 4)
  /-- PAGE_REQUEST_TIMEOUT: R207. No PRG Response arrives within the timeout, so the context is lost. -/
  | pageRequestTimeout (h : HPortIx) (f : FuncIx) (prgi : BitVec 9)
  /-- PAGE_REQUEST_DEQUEUE: R206. A pending migration fault is sent once the allocation or list admits it. -/
  | pageRequestDequeue (h : HPortIx) (f : FuncIx)
  /-- EPOCH_FENCE_CLOSE: R233. The fence count reaches zero, and waiting new-epoch issue proceeds. -/
  | epochFenceClose (k : SlotIx)
  /-- FENCE_STALL_TIMEOUT: R235. An open fence passes its stall limit and raises bridle-fence-stalled. -/
  | fenceStallTimeout (k : SlotIx)
  /-- MOVE_COPY_DONE: R238. The move cursor reaches C0, and Itlum makes the switch commit; what the reads of the
  source's lines find stands beside the half. -/
  | moveCopyDone (h : Half × List (Nat × Ecc))
  /-- UNIT_CLEAR_DONE: R251. A resource's clear ends, and it becomes FREE. -/
  | unitClearDone (r : Resource)
  /-- LEASE_EXPIRY: R249. A HELD lease reaches EXPIRY, becomes ORPHANED and LEASE_ORPHANED is sent. -/
  | leaseExpiry (cid : Cid)
  /-- GRACE_EXPIRY: R249. An orphaned lease's grace ends: contexts are purged and STATE becomes NONE. -/
  | graceExpiry (cid : Cid)
  /-- LINK_FRAME_RECEIVE: R265. A frame is decoded, checked, accepted or discarded and acknowledged. -/
  | linkFrameReceive (p : LPort) (f : Frame)
  /-- LINK_FRAME_TRANSMIT: R424. A port fills and sends a frame, a replay or an idle frame. -/
  | linkFrameTransmit (p : LPort)
  /-- SIGNAL_DETECT: R272. Signal appears on at least 4 positions, and training begins. -/
  | signalDetect (p : LPort) (positions : BitVec 18)
  /-- LOSS_OF_SIGNAL: R272. Signal is lost on positions, which leads to a retrain or releases a held state. -/
  | lossOfSignal (p : LPort) (positions : BitVec 18)
  /-- TRAINING_STEP_COMPLETE: R272. A training step meets its condition, and the port moves to the next step. -/
  | trainingStepComplete (p : LPort) (fact : TrainFact)
  /-- TRAINING_STEP_TIMEOUT: R272. A training step exceeds its timeout, with the step's outcome. -/
  | trainingStepTimeout (p : LPort) (fact : TrainFact)
  /-- FAILED_PORT_RETRAIN: R273. A FAILED port starts a full training again after 256 periods. -/
  | failedPortRetrain (p : LPort)
  /-- RETRAIN: R282. A write of LNK_CTRL.RETRAIN starts a full training. -/
  | retrainPort (p : LPort) (v : Word)
  /-- FAST: R282. A write of LNK_CTRL.FAST starts a fast retrain. -/
  | fastRetrain (p : LPort) (v : Word)
  /-- DISABLE: R282. A write of LNK_CTRL.DISABLE quiets or re-enables a port. -/
  | disablePort (p : LPort) (v : Word)
  /-- CLR_CNT: R282. A write of LNK_CTRL.CLR_CNT zeroes the port's five counters. -/
  | clrCnt (p : LPort) (v : Word)
  /-- MAXW: R282. A write of LNK_CTRL.MAXW sets the widest width allowed, refusing 0b11. -/
  | maxWidth (p : LPort) (v : Word)
  /-- SUBST_EN: R282. A write of LNK_CTRL.SUBST_EN enables or disables lane substitution. -/
  | substEn (p : LPort) (v : Word)
  /-- DISCOVERY: R275. A received discovery message is compared with LNK_EXPECT and own identity. -/
  | discovery (p : LPort) (m : CtrlMsg)
  /-- SUBST_REQ: R278. A transmitter answers a substitution request with SUBST_ACK or SUBST_NAK. -/
  | substReq (p : LPort) (m : CtrlMsg)
  /-- SUBST_ACK: R278. The receiver learns SWITCH_SEQ for a substitution. -/
  | substAck (p : LPort) (m : CtrlMsg)
  /-- SUBST_NAK: R279. A refused substitution leads to the other spare or a fast retrain. -/
  | substNak (p : LPort) (m : CtrlMsg)
  /-- EYE_MEASUREMENT: R280. A position's eye is measured, which may raise a margin warning. -/
  | eyeMeasurement (p : LPort) (pos : Fin 18) (height width : BitVec 8)
  /-- KEYX: R547. A received KEYX sets up the next link session. -/
  | keyx (p : LPort) (m : CtrlMsg)
  /-- FABRIC_INGRESS: R293. An arriving fabric request is checked through its window and turned into a mesh request. -/
  | fabricIngress (port : Option LPort) (p : FabPacket) (ecc : Ecc)
  /-- FABRIC_ROUTE: R299. The router chooses a candidate port for a packet that arrived at a port, or ends it as
  unreachable. -/
  | fabricRoute (p : LPort × FabPacket)
  /-- FABRIC_EGRESS_RELEASE: R297. A request waiting at egress for a return entry, pool entry or credit leaves. -/
  | fabricEgressRelease (p : Packet)
  /-- FABRIC_RESPONSE: R301. A fabric response reaches its issuer, with the outcome of its STATUS; from this module itself it
  arrives at no port. -/
  | fabricResponse (p : Option LPort × FabPacket)
  /-- FABRIC_REQUEST_TIMEOUT: R302. A remote request times out with STATUS 0x05. -/
  | fabricRequestTimeout (ftag : BitVec 14)
  /-- COLLECTIVE_LOCAL_WRITE: R311. A local line write adds a contribution to a collective chunk. -/
  | collectiveLocalWrite (p : FabPacket)
  /-- COLLECTIVE_CONTRIBUTION: R312. A child's contribution is checked and summed, or waits for the next generation. -/
  | collectiveContribution (port : LPort) (p : FabPacket)
  /-- COLLECTIVE_RESULT: R313. A result is forwarded to the children and written locally. -/
  | collectiveResult (port : LPort) (p : FabPacket)
  /-- COLLECTIVE_TIMEOUT: R315. A generation makes no progress for FAB_TIMEOUT and fails. -/
  | collectiveTimeout (c : Fin 64)
  /-- DOORBELL: R333. A doorbell write gives a queue its new tail. -/
  | doorbell (h : HPortIx) (f : FuncIx) (q : BitVec 12) (offset : BitVec 12) (log2 : Fin 4) (value : Word) (tbit : Bool)
  /-- BAR2_READ: R336. A BAR2 read reaches MPA through the window, or is refused with all-ones. -/
  | bar2Read (h : HPortIx) (f : FuncIx) (offset : Nat) (bytes : Nat) (tbit : Bool) (tag : Nat)
  /-- BAR2_WRITE: R336. A BAR2 write reaches MPA through the window, or is discarded. -/
  | bar2Write (h : HPortIx) (f : FuncIx) (offset : Nat) (data : Bytes) (tbit : Bool)
  /-- DLOG_REARM: R350. A write of REARM clears OVF and the filters. -/
  | dlogRearm (h : HPortIx) (f : FuncIx) (v : Word)
  /-- DLOG_CONS_WRITE: R347. A CONS write frees ring entries, refused when it would overfill. -/
  | dlogConsWrite (h : HPortIx) (f : FuncIx) (v : Word)
  /-- FLR: R337. A Function Level Reset stops the function, ends its requests, purges contexts and resets registers. -/
  | flr (h : HPortIx) (f : FuncIx)
  /-- VF_ENABLE_CLEAR: R328. Clearing VF Enable acts as an FLR on each bound VF. -/
  | vfEnableClear (h : HPortIx)
  /-- HST_BAR2_WIN_WRITE: R340. A write of the BAR2 window takes effect and puts a locked TDI in ERROR. -/
  | hstBar2WinWrite (h : HPortIx) (f : FuncIx) (v : DWord) (tbit : Bool)
  /-- MSIX_TABLE_WRITE: R340. A write to the MSI-X table takes effect and puts a locked TDI in ERROR. -/
  | msixTableWrite (h : HPortIx) (f : FuncIx) (offset : BitVec 14) (v : Word) (tbit : Bool)
  /-- LOCK_INTERFACE: R339. A TDI moves to CONFIG_LOCKED if its conditions hold. -/
  | lockInterface (h : HPortIx) (f : FuncIx)
  /-- START_INTERFACE: R339. A TDI moves to RUN. -/
  | startInterface (h : HPortIx) (f : FuncIx)
  /-- STOP_INTERFACE: R339. A TDI returns to CONFIG_UNLOCKED with the FLR actions. -/
  | stopInterface (h : HPortIx) (f : FuncIx)
  /-- IDE_KM: R338. The RTP programs IDE keys into a host port over DOE. -/
  | ideKm (h : HPortIx) (session : Nat) (stream : Fin 65) (subStream : Nat) (lo hi : FuncIx)
  /-- IDE_INTEGRITY_FAILURE: R338. A TLP fails IDE integrity; it is discarded, and a locked TDI enters ERROR. -/
  | ideIntegrityFailure (h : HPortIx) (f : FuncIx)
  /-- HOST_DL_DOWN: R341. A port loses its data link, enters HOLD and ends its host requests. -/
  | hostDlDown (h : HPortIx)
  /-- HOST_HOLD_EXPIRY: R341. HOLD ends, and the bound functions of the port take the FLR actions. -/
  | hostHoldExpiry (h : HPortIx)
  /-- HOST_LINK_UP: R341. The link returns during HOLD, and the port retrains. -/
  | hostLinkUp (h : HPortIx)
  /-- HOST_COMPLETION: R330. A completion from the host ends a host request. -/
  | hostCompletion (h : HPortIx) (tag : BitVec 14) (c : Completion)
  /-- HOST_COMPLETION_TIMEOUT: R330. A host request times out with STATUS 0x06. -/
  | hostCompletionTimeout (h : HPortIx) (tag : BitVec 14)
  /-- ATS_INVALIDATION: R331. An ATS Invalidation Request is answered after requests under dropped entries complete. -/
  | atsInvalidation (h : HPortIx) (f : FuncIx) (itag : Fin 32) (pasid : BitVec 20) (page pages : Nat)
  /-- PERST_ASSERT: R589. PERST# asserted acts as DL_Down and resets the port's configuration space. -/
  | perstAssert (h : HPortIx)
  /-- PERST_DEASSERT: R589. PERST# deasserted starts training. -/
  | perstDeassert (h : HPortIx)
  /-- CONFIG_REQUEST: R589. A configuration request is served, or answered with Request Retry Status before step 5. -/
  | configRequest (h : HPortIx) (f : FuncIx) (write : Bool) (reg : ConfigReg) (value : Word) (tag : Nat)
  /-- RING_FETCH: R363. A queue's ring read returns packets for the parser, and the status line is written. -/
  | ringFetch (e : QEntry) (packets : List (BitVec 256)) (ok : Bool)
  /-- LAUNCH: R369. A LAUNCH command is checked and accepted. -/
  | launch (e : QEntry) (index : Word)
  /-- LAUNCH_TILE_START: R369. A launch starts on a tile once its bank is LOADED and earlier launches have ended. -/
  | launchTileStart (e : QEntry) (index : Word) (t : TileIx) (far : Completion)
  /-- SIGNAL: R369. A SIGNAL command signals its fence after earlier commands complete. -/
  | signalCmd (e : QEntry) (index : Word)
  /-- WAIT: R369. A WAIT command holds the queue until the fence reaches VALUE. -/
  | waitCmd (e : QEntry) (index : Word)
  /-- QUEUE_WAIT_TIMEOUT: R369. A queue WAIT times out with Q_TIMEOUT, and the queue is STOPPED. -/
  | queueWaitTimeout (e : QEntry) (index : Word)
  /-- CODER: R369. A CODER command starts a job on the named controller. -/
  | coder (e : QEntry) (index : Word) (far : List Completion)
  /-- FREE: R361. A FREE command sets an object entry FREEING. -/
  | freeObj (e : QEntry) (index : Word)
  /-- FAULT_ACK: R369. FAULT.ACK advances ACKED. -/
  | faultAck (e : QEntry) (index : Word)
  /-- QUEUE_NOP: R369. A queue NOP completes at once. -/
  | queueNop (e : QEntry) (index : Word)
  /-- WAIT_LIMIT_EXPIRY: R372. A tile wait reaches WAIT_LIMIT, so it ends with status 0x1. -/
  | waitLimitExpiry (t : TileIx) (b : BankIx)
  /-- SEMAPHORE_BORROW_START: R374. A waiter's count reaches HOLDOFF, and it borrows time for the owner. -/
  | semaphoreBorrowStart (t : TileIx) (b : BankIx)
  /-- BORROW_BUDGET_EXPIRY: R374. The borrowed budget is spent without a release, so the wait ends with status 0x1. -/
  | borrowBudgetExpiry (t : TileIx) (b : BankIx)
  /-- MAILBOX_GO: R392. A write of ITL_CTRL.GO submits the mailbox request. -/
  | mailboxGo (h : HPortIx) (f : FuncIx)
  /-- MAILBOX_DISCARD: R394. A write of ITL_CTRL.DISCARD drops staged parts. -/
  | mailboxDiscard (h : HPortIx) (f : FuncIx)
  /-- ITL_NTF_CONS_WRITE: R389. A CONS write frees notification slots, refused when out of range. -/
  | itlNtfConsWrite (h : HPortIx) (f : FuncIx) (v : Word)
  /-- MCTP_MESSAGE: R386. An Itlum message arrives over MCTP. -/
  | mctpMessage (eid : BitVec 8) (m : Bytes)
  /-- PEER_MESSAGE: R384. An Itlum message arrives from a peer module on virtual channel 3 of a port. -/
  | peerMessage (module : LPort × BitVec 14) (m : Bytes)
  /-- SITE_SESSION_MESSAGE: R384. An Itlum message arrives in the site operator's secured session. -/
  | siteSessionMessage (m : Bytes)
  /-- PART_STAGING_TIMEOUT: R394. No part arrives for 1 s, so staged parts are discarded. -/
  | partStagingTimeout (path : Path)
  /-- INVENTORY: R404. The module's inventory is returned. -/
  | inventory (path : Path)
  /-- TELEMETRY: R402. Counters are returned, coarsened for tenants. -/
  | telemetry (path : Path)
  /-- BRIDLE_QUERY: R402. The composition's current image is returned. -/
  | bridleQuery (path : Path)
  /-- LEASE_ACQUIRE: R247. A lease is acquired. -/
  | leaseAcquire (path : Path)
  /-- LEASE_RENEW: R247. A lease's expiry is extended. -/
  | leaseRenew (path : Path)
  /-- LEASE_TRANSFER: R247. A lease passes to a successor. -/
  | leaseTransfer (path : Path)
  /-- LEASE_RELEASE: R247. A lease is released to NONE or ORPHANED. -/
  | leaseRelease (path : Path)
  /-- LEASE_BREAK: R247. The site operator breaks a lease. -/
  | leaseBreak (path : Path)
  /-- LEASE_QUERY: R246. The lease record is returned. -/
  | leaseQuery (path : Path)
  /-- LEASE_GRACE: R246. GRACE is set for every lease. -/
  | leaseGrace (path : Path)
  /-- BRIDLE_IMAGE: R229. A bridle image is checked and committed as the composition's binding. -/
  | bridleImage (path : Path)
  /-- METER_RECORD: R254. A signed meter record is taken. -/
  | meterRecord (path : Path)
  /-- UNBIND: R402. A composition is unbound as by an empty image. -/
  | unbind (path : Path)
  /-- SPARE_HOLD: R243. A free pair is held as a spare. -/
  | spareHold (path : Path)
  /-- SPARE_FREE: R402. A spare pair is returned to service. -/
  | spareFree (path : Path)
  /-- PAIR_MOVE: R238. A forwarded move of a pair is requested. -/
  | pairMove (path : Path)
  /-- PAIR_MOVE_DONE: R240. The source's clear ends, it becomes SPARE_READY, and the move ends. -/
  | pairMoveDone (h : Half)
  /-- CTX_LOAD: R352. A context is made resident on its banks. -/
  | ctxLoad (path : Path)
  /-- CTX_EVICT: R354. A context eviction is requested, quiesced or forced. -/
  | ctxEvict (path : Path)
  /-- CTX_EVICT_DONE: R354. The evicted context's banks are EMPTY and its entry is invalid. -/
  | ctxEvictDone (cid : Cid) (ctx : Ctx)
  /-- OBJ_TABLE: R356. An object table placement is requested. -/
  | objTable (path : Path)
  /-- OBJ_TABLE_DONE: R356. Every entry of the new object table has been written. -/
  | objTableDone (cid : Cid)
  /-- Q_REGISTER: R362. A queue is registered. -/
  | qRegister (path : Path)
  /-- Q_UNREGISTER: R362. A queue is unregistered. -/
  | qUnregister (path : Path)
  /-- Q_RESUME: R364. A STOPPED or BROKEN queue resumes at a new HEAD. -/
  | qResume (path : Path)
  /-- FQ_SET: R376. A fault-queue ring is set. -/
  | fqSet (path : Path)
  /-- FQ_STATUS: R378. Fault-queue status is returned. -/
  | fqStatus (path : Path)
  /-- MODULE_NUMBER: R287. The module number is set in FAB_ID. -/
  | moduleNumber (path : Path)
  /-- ROUTE_SET: R298. Route entries are set. -/
  | routeSet (path : Path)
  /-- LINK_EXPECT: R283. A port's expected peer is set. -/
  | linkExpect (path : Path)
  /-- FAB_TIMEOUT: R320. The fabric timeout is set. -/
  | fabTimeout (path : Path)
  /-- WIN_SET: R292. A window entry is set. -/
  | winSet (path : Path)
  /-- WIN_CLEAR: R295. A window entry is cleared. -/
  | winClear (path : Path)
  /-- WIN_INVAL: R295. Window translations over a range are invalidated. -/
  | winInval (path : Path)
  /-- WINDOW_DRAIN_DONE: R295. Requests under the old window entries complete, and the long command ends. -/
  | windowDrainDone (w : Fin 16384)
  /-- COLL_SET: R311. A collective entry is set. -/
  | collSet (path : Path)
  /-- COLL_CLEAR: R402. A collective entry is cleared. -/
  | collClear (path : Path)
  /-- MEM_WRITE: R403. Composition memory is written with the composition's CID. -/
  | memWrite (path : Path)
  /-- MEM_READ: R403. Composition memory is read with the composition's CID. -/
  | memRead (path : Path) (ecc : Ecc)
  /-- PWR_SET: R464. Power settings are written and committed. -/
  | pwrSet (path : Path)
  /-- PWR_QUERY: R464. Power figures and episodes are returned. -/
  | pwrQuery (path : Path)
  /-- CAD_SET: R464. Cadence mode and nominal frequency are set. -/
  | cadSet (path : Path)
  /-- CAD_QUERY: R464. Cadence state is returned. -/
  | cadQuery (path : Path)
  /-- KEY_WRITE: R511. A key slot is written. -/
  | keyWrite (path : Path)
  /-- KEY_ERASE: R511. A key slot is erased. -/
  | keyErase (path : Path)
  /-- KEY_STATUS: R525. Key-slot status is returned, and the checks are verified; `bad` lists the slots whose check fails. -/
  | keyStatus (path : Path) (bad : BitVec 64)
  /-- LC_TRANSITION: R501. A life-cycle transition is made in two phases; `auth` says whether the token verifies under the pair
  that R501 names, `holdup` is the hold-up time in ms. -/
  | lcTransition (path : Path) (auth : Bool) (holdup : BitVec 16)
  /-- CHALLENGE: R509. A fresh nonce is returned. -/
  | challengeCmd (path : Path)
  /-- DEBUG_OPEN: R515. Debug is opened, with keys erased in PRODUCTION; `auth` says whether the token verifies under the pair in
  force. -/
  | debugOpen (path : Path) (auth : Bool)
  /-- ROOT_REVOKE: R498. Lower root slots are revoked; `auth` says whether the token verifies under ROOT[NEW_ACTIVE]. -/
  | rootRevoke (path : Path) (auth : Bool)
  /-- SITE_ROOT: R522. The next SITE slot is burned. -/
  | siteRoot (path : Path)
  /-- RECOVER_PURGE: R484. RECOVER purges a context. -/
  | recoverPurge (path : Path)
  /-- RECOVER_ISOLATE: R484. RECOVER isolates a tile. -/
  | recoverIsolate (path : Path)
  /-- RECOVER_HALF: R484. RECOVER starts a half recovery. -/
  | recoverHalf (path : Path)
  /-- RECOVER_MODULE: R484. RECOVER starts a module recovery or leaves HALTED. -/
  | recoverModule (path : Path)
  /-- RECOVER_HANG_LIMIT: R484. RECOVER sets HANG_LIMIT. -/
  | recoverHangLimit (path : Path)
  /-- RECOVERY_QUERY: R485. Recovery state is returned. -/
  | recoveryQuery (path : Path)
  /-- FW_BEGIN: R407. The unconfirmed bank is erased for an update. -/
  | fwBegin (path : Path)
  /-- FW_WRITE: R407. Image bytes are written. -/
  | fwWrite (path : Path)
  /-- FW_VERIFY: R407. The RTP is asked to verify the new bank. -/
  | fwVerify (path : Path)
  /-- FW_VERIFY_DONE: R506. Verification ends with IT_OK, IT_AUTH or IT_ROLLBACK. -/
  | fwVerifyDone (fact : VerifyFact)
  /-- FW_ACTIVATE: R408. Activation of the verified bank begins, with AVAIL 0. -/
  | fwActivate (path : Path)
  /-- FW_ACTIVATE_DONE: R408. The new firmware has rebuilt its state and AVAIL returns to 1. -/
  | fwActivateDone
  /-- FW_ACTIVATE_TIMEOUT: R408. Activation passes 2 s, so the RTP loads the confirmed bank. -/
  | fwActivateTimeout
  /-- FW_CONFIRM: R407. The trial bank becomes confirmed. -/
  | fwConfirm (path : Path)
  /-- FW_REVERT: R407. The confirmed bank is activated again. -/
  | fwRevert (path : Path)
  /-- FW_QUERY: R407. Update state is returned. -/
  | fwQuery (path : Path)
  /-- TRIAL_CONFIRM: R409. A trial bank runs 3,000 periods cleanly and is confirmed. -/
  | trialConfirm
  /-- LOG_READ: R572. Flight log records are returned. -/
  | logRead (path : Path)
  /-- SEQ_REEL_ENTRY_WRITE: R411. A write to a reel table entry, refused for the active table. -/
  | seqReelEntryWrite (table : Bool) (k : Fin 128) (v : DWord)
  /-- REGULATOR_REFILL: R422. Each regulator entry's level grows every 1 µs. -/
  | regulatorRefill
  /-- RESIDENT_SET_STALLED: R426. A composition's resident set has been stalled for RSS_HOLDOFF periods, and this is notified. -/
  | residentSetStalled (cid : Cid)
  /-- POWER_LOOP: R447. Every 10 µs the controller compares power with the limit and throttles, raises or sets ballast. -/
  | powerLoop (r : PowerReading)
  /-- PROTECTION_RELEASE: R448. A protective limit is released by one setting after 1 ms. -/
  | protectionRelease (currentAbsent peakAbsent : Bool)
  /-- DROGUE_STEP_POINT: R449. At a step point the controller sets CEIL and FLOOR from the interval's average. -/
  | drogueStepPoint (avgWatts : Nat) (allBelow : Bool)
  /-- VOLTAGE_SETTLED: R445. A raised voltage settles, and the clock steps up at the next tick. -/
  | voltageSettled (h : Half)
  /-- SENSOR_READING: R457. Sensors are read, and the warning, throttle or critical limits act. -/
  | sensorReading (w : Sensor) (eighths : Int)
  /-- THERMAL_THROTTLE_STEP: R458. A sensor above its throttle limit lowers its domain part one setting per 100 µs. -/
  | thermalThrottleStep (w : Sensor)
  /-- THERMAL_RELEASE_STEP: R458. A sensor 3 °C below its limit for 1 ms raises the setting per 1 ms. -/
  | thermalReleaseStep (w : Sensor)
  /-- TRIP_COOLDOWN: R459. Sensors stay below 85 °C for 1 s, and module recovery runs. -/
  | tripCooldown
  /-- VOLTAGE_MARGIN_ALARM: R456. A margin monitor alarms, the voltage rises and the clock throttles. -/
  | voltageMarginAlarm (h : Half)
  /-- VOLTAGE_TRIM_DOWN: R456. After 64 periods of margin, a half's voltage is trimmed down one step. -/
  | voltageTrimDown (h : Half)
  /-- HANG_SAMPLE: R471. Every 65,536 ticks Itlum samples bank progress and updates STILL. -/
  | hangSample
  /-- UNRESPONSIVE_BLOCK: R476. A block of a half does not answer within 1 ms, or the memory ring stalls, and a half recovery starts. -/
  | unresponsiveBlock (h : Half)
  /-- HALF_RECOVERY_START: R477. A half recovery is declared and ISSUE_HOLD is set on the half. -/
  | halfRecoveryStart (h : Half) (clean : Bool)
  /-- HALF_DRAIN_TIMEOUT: R477. The 10 ms drain ends, and tiles still waiting are taken as failed shells. -/
  | halfDrainTimeout (h : Half)
  /-- HALF_RECOVERY_END: R477. ISSUE_HOLD is cleared at a tick and held requests proceed. -/
  | halfRecoveryEnd (h : Half) (ms : Nat)
  /-- MODULE_RECOVERY_START: R479. A module recovery starts on both halves. -/
  | moduleRecoveryStart (cleanWest cleanEast : Bool)
  /-- RECOVERY_TIMEOUT: R473. A recovery step exceeds its timeout and escalates, or the module enters HALTED. -/
  | recoveryTimeout
  /-- DEBUG_GRANT_EXPIRY: R514. ROT_DEBUG.LEFT reaches zero, and the grant closes. -/
  | debugGrantExpiry
  /-- NONCE_EXPIRY: R509. A nonce expires after 30 s. -/
  | nonceExpiry
  /-- TREE_GENERATION_DONE: R516. A first-level signing tree is generated and signing becomes available. -/
  | treeGenerationDone
  /-- GET_VERSION: R519. An SPDM GET_VERSION request is answered. -/
  | getVersion (path : Path)
  /-- GET_CAPABILITIES: R519. An SPDM GET_CAPABILITIES request is answered. -/
  | getCapabilities (path : Path)
  /-- NEGOTIATE_ALGORITHMS: R519. An SPDM NEGOTIATE_ALGORITHMS request is answered. -/
  | negotiateAlgorithms (path : Path)
  /-- GET_DIGESTS: R519. An SPDM GET_DIGESTS request is answered. -/
  | getDigests (path : Path)
  /-- GET_CERTIFICATE: R519. An SPDM GET_CERTIFICATE request is answered. -/
  | getCertificate (path : Path) (slot offset length : Nat)
  /-- SPDM_CHALLENGE: R519. An SPDM CHALLENGE is answered with a signed CHALLENGE_AUTH. -/
  | spdmChallenge (path : Path) (slot : Nat) (nonce : Bytes)
  /-- GET_MEASUREMENTS: R521. SPDM measurements are returned, signed. -/
  | getMeasurements (path : Path) (index : Nat) (signed : Bool) (nonce : Bytes)
  /-- KEY_EXCHANGE: R519. An SPDM KEY_EXCHANGE opens a secured session, or is answered Busy. -/
  | keyExchange (path : Path) (slot : Nat) (data : Bytes)
  /-- FINISH: R519. An SPDM FINISH completes session set-up; `key` is the SHA-384 of the requester's public key under mutual
  authentication. -/
  | finishMsg (path : Path) (session : Nat) (ok : Bool) (key : Option (BitVec 384))
  /-- HEARTBEAT: R519. An SPDM HEARTBEAT keeps a session alive. -/
  | heartbeat (path : Path) (session : Nat)
  /-- KEY_UPDATE: R519. An SPDM KEY_UPDATE updates session keys. -/
  | keyUpdate (path : Path) (session : Nat)
  /-- END_SESSION: R519. An SPDM END_SESSION closes a session. -/
  | endSession (path : Path) (session : Nat)
  /-- VENDOR_DEFINED_REQUEST: R520. The HSS signature for a SIG_ID is returned. -/
  | vendorDefinedRequest (path : Path) (sigId : Word)
  /-- EVENT_SOURCE_EDGE: R557. A source's signal changes and sets PEND or MERGED under its MODE. -/
  | eventSourceEdge (k : Fin 1024) (level : Bool)
  /-- LATCH_TRANSFER: R558. A latched edge sets PEND once the controller clock runs. -/
  | latchTransfer (k : Fin 1024)
  /-- EVENT_CLAIM: R559. A core's claim read takes the best claimable source. -/
  | eventClaim (core : Fin 8)
  /-- EVENT_DONE: R560. A core's done write ends service of a source. -/
  | eventDone (core : Fin 8) (v : Word)
  /-- HOST_EVENT_CLAIM: R559. A PF's EVT_HCLAIM read takes the best claimable source. -/
  | hostEventClaim (h : HPortIx)
  /-- HOST_EVENT_DONE: R560. A PF's EVT_HDONE write ends service of a source. -/
  | hostEventDone (h : HPortIx) (v : Word)
  /-- HOLDOFF_EXPIRY: R561. A group's hold-off ends, and it may deliver again. -/
  | holdoffExpiry (g : Fin 64)
  /-- EVT_SRC_WRITE: R557. A write changing MODE or EN clears PEND and ALATCH. -/
  | evtSrcWrite (k : Fin 1024) (v : DWord)
  /-- EVT_HCFG_WRITE: R563. A write of EVT_HCFG sets the PF target; EN = 0 returns its in-service sources. -/
  | evtHcfgWrite (h : HPortIx) (v : Word)
  /-- LOG_FLASH_WRITE: R568. A buffered record is programmed to log flash. -/
  | logFlashWrite (ok : Bool)
  /-- LOG_IDLE_MARK: R568. 600 s without a record produces a MARK record. -/
  | logIdleMark
  /-- LOG_SECTOR_ERASE: R491. A log sector erase completes. -/
  | logSectorErase (sector : Fin 16) (ok : Bool)
  /-- INPUT_VALID: R578. The input has been valid for 10 ms and power-up begins. -/
  | inputValid (fact : BootFact)
  /-- EARLY_SERVICE_ENTRY: R583. The first ready half enters early service at a tick. -/
  | earlyServiceEntry
  /-- NARROW_SELFTEST_HOLD: R586. A narrow self-test unfinished after 50 ms holds issue briefly to complete. -/
  | narrowSelftestHold (t : TileIx)
  /-- FULL_SERVICE_COMMIT: R585. At one tick both halves go to 3.3 GHz with narrow formats and seam links. -/
  | fullServiceCommit
  /-- PAIR_TRAINING_TIMEOUT: R582. A pair not trained 2 s after starting becomes DEGRADED. -/
  | pairTrainingTimeout (p : PairIx)
  /-- BRINGUP_TIMEOUT: R582. A half not in full service 8 s after t = 0 leads to module recovery. -/
  | bringupTimeout
  /-- MRST_RELEASE: R588. MRST_N released after a 1–100 ms low resets the module, while other lows are ignored. -/
  | mrstRelease (lowUs : Nat) (fact : BootFact)
  /-- INPUT_FAULT: R591. Input below 38 V or above 60 V for 1 ms takes the trip actions. -/
  | inputFault (mv : Nat)
  /-- MATE_N_OPEN: R594. MATE_N opens, and the input stage trips and disconnects. -/
  | mateNOpen
  /-- SMBUS_TIMEOUT: R591. SMBus is held low for 35 ms and the lines are released. -/
  | smbusTimeout
  /-- PAIR_TRAINING_DONE: R164. An LPDDR5X pair finishes training and becomes active. -/
  | pairTrainingDone (p : PairIx) (ok : Bool)
  /-- TILE_SELFTEST_DONE: R581. A tile's shell, BF16 or narrow-format self-test passes or fails. -/
  | tileSelftestDone (t : TileIx) (kind : TestKind) (pass : Bool)
  /-- HOST_LINK_TRAINED: R325. A PCIe host port finishes training or Recovery and its state becomes UP at the settled rate and width. -/
  | hostLinkTrained (h : HPortIx) (rate : BitVec 4) (width : BitVec 3)
  /-- CHECK_RECOMPUTE_DONE: R178. The recompute of a half's stale check area ends and its stripes are protected again. -/
  | checkRecomputeDone (h : Half)
  /-- INPUT_RESTORED: R591. After an input fault the input has been valid for 100 ms, and a module recovery starts. -/
  | inputRestored
  /-- SMBUS_IDLE_RESUME: R592. After a bus timeout the SMBus has been idle for 1 ms and MCTP over SMBus resumes. -/
  | smbusIdleResume
  /-- SECOND_HALF_UNGATE: R580. After 50 ms waiting for the first half to enter early service, the second half's cores are ungated. -/
  | secondHalfUngate
deriving DecidableEq, Repr

end Sys2Proof
end

