-- ==== Sys2Proof/Decode.lean ====
section
/-! DEFINITION. The table gives its rows no bits, so no word spells a command. The words that do have bits are those of a
tile program (R116 to R118): the command that an instruction word stands for on a bank. -/

namespace Sys2Proof

/-- The command that a word spells by the table's bits: the table gives none to any row. -/
def decodeTableWord (_nbits _w : Nat) : Option Instr := none

/-! ### Instruction words (R116, R117) -/

/-- Bits [lo + n - 1 : lo] of an instruction word. -/
def wF (w : DWord) (lo n : Nat) : Nat := w.toNat / 2 ^ lo % 2 ^ n
/-- OPC, DST, SRCA, SRCB and IMM (R116). -/
def wOpc (w : DWord) : Nat := wF w 56 8
def wDst (w : DWord) : Fin 32 := Fin.ofNat 32 (wF w 51 5)
def wSrcA (w : DWord) : Fin 32 := Fin.ofNat 32 (wF w 46 5)
def wSrcB (w : DWord) : Fin 32 := Fin.ofNat 32 (wF w 41 5)
def wImm (w : DWord) : BitVec 41 := BitVec.ofNat 41 (wF w 0 41)

/-- The classes of R117 in its order. -/
inductive OpClass
  | scalar | scalarMem | vector | vectorMem | conversion | quantize | mmaB | mmaV | accMov | accZero
  | streamStart | streamArm | streamWait | streamStop | fenceSignal | fenceWait | semAcq | semRel
  | barArrive | barWait | flags | endProg | nop
deriving DecidableEq, Repr

/-- The class of an OPC; none that R117 does not list. -/
def opClass (opc : Nat) : Option OpClass :=
  if opc ≤ 0x0F then some .scalar
  else if 0x10 ≤ opc ∧ opc ≤ 0x13 then some .scalarMem
  else if 0x20 ≤ opc ∧ opc ≤ 0x2F then some .vector
  else if 0x30 ≤ opc ∧ opc ≤ 0x33 then some .vectorMem
  else match opc with
    | 0x34 => some .conversion
    | 0x35 => some .quantize
    | 0x40 => some .mmaB
    | 0x41 => some .mmaV
    | 0x42 => some .accMov
    | 0x43 => some .accZero
    | 0x50 => some .streamStart
    | 0x51 => some .streamArm
    | 0x52 => some .streamWait
    | 0x53 => some .streamStop
    | 0x58 => some .fenceSignal
    | 0x59 => some .fenceWait
    | 0x5A => some .semAcq
    | 0x5B => some .semRel
    | 0x5C => some .barArrive
    | 0x5D => some .barWait
    | 0x60 => some .flags
    | 0x61 => some .endProg
    | 0x62 => some .nop
    | _ => none

/-! What bits [55:0] say in the classes whose layout the spec leaves to the encoding: free functions of the word, none
where a reserved field is non-zero or a register does not exist (R118; log entry 47). -/

namespace Config
opaque scalarWord : DWord → Option ScalarOp
opaque scalarMemWord : DWord → Option ScalarMem
opaque vectorWord : DWord → Option VectorOp
opaque vectorMemWord : DWord → Option VectorMem
opaque conversionWord : DWord → Option Conversion
opaque quantizeWord : DWord → Option Quantize
/-- Accumulator, row, destination register, upper half. -/
opaque accMovWord : DWord → Option (Fin 4 × Fin 32 × VReg × Bool)
opaque accZeroWord : DWord → Option (Fin 4)
end Config

/-- The fields of MMA.B and MMA.V (R120). -/
def mmaWord (w : DWord) : Mma :=
  { acc := Fin.ofNat 4 (wF w 54 2), m := BitVec.ofNat 3 (wF w 51 3), sa := wSrcA w, sb := wSrcB w,
    k := BitVec.ofNat 18 (wF w 23 18), ncol := BitVec.ofNat 7 (wF w 16 7), reserved := BitVec.ofNat 16 (wF w 0 16) }
/-- The fields of the fence and semaphore instructions (R123). -/
def handleWord (w : DWord) : HandleOp := ⟨wDst w, wSrcA w, wSrcB w⟩
/-- CH of a stream instruction, and its register SD or SN (R123). -/
def wCh (w : DWord) : ChIx := Fin.ofNat 8 (wF w 53 3)
def wChReg (w : DWord) : SReg := Fin.ofNat 32 (wF w 48 5)

/-- Bits [55:0] that the layouts of R123 name, by class; END and NOP have none. -/
def namedBits : OpClass → Nat
  | .streamStart | .streamArm => 2 ^ 56 - 2 ^ 48
  | .streamWait | .streamStop => 2 ^ 56 - 2 ^ 53
  | .fenceSignal | .fenceWait | .semAcq | .semRel => 2 ^ 56 - 2 ^ 41
  | .barArrive => 2 ^ 56 - 2 ^ 46
  | .barWait => 2 ^ 56 - 2 ^ 24
  | .flags => (2 ^ 56 - 2 ^ 51) + 31
  | .endProg | .nop => 0
  | _ => 2 ^ 56 - 1
/-- Whether a word's reserved bits are zero (R118, R123). -/
def reservedOk (c : OpClass) (w : DWord) : Bool :=
  decide (w &&& BitVec.ofNat 64 (2 ^ 56 - 1 - namedBits c) = 0)

/-- The command an instruction word stands for on a bank (R116 to R118, R120, R123): an illegal word is the scalar
command that faults with code 0x01. `ecc` is what the memory finds on the lines it reads. -/
def wordCommand (t : TileIx) (b : BankIx) (w : DWord) (ecc : Ecc) : Instr :=
  let bad := Instr.scalarOp t b .illegal
  match opClass (wOpc w) with
  | none => bad
  | some c =>
    if !reservedOk c w then bad else
    match c with
    | .scalar => .scalarOp t b ((Config.scalarWord w).getD .illegal)
    | .scalarMem => match Config.scalarMemWord w with
      | some op => .scalarMemory t b op ecc
      | none => bad
    | .vector => match Config.vectorWord w with
      | some op => .vectorOp t b op
      | none => bad
    | .vectorMem => match Config.vectorMemWord w with
      | some op => .vectorMemory t b op ecc
      | none => bad
    | .conversion => match Config.conversionWord w with
      | some op => .conversion t b op
      | none => bad
    | .quantize => match Config.quantizeWord w with
      | some op => .blockQuantize t b op
      | none => bad
    | .mmaB => .mmaB t b (mmaWord w) []
    | .mmaV => .mmaV t b (mmaWord w) []
    | .accMov => match Config.accMovWord w with
      | some x => .accMov t b x.1 x.2.1 x.2.2.1 x.2.2.2
      | none => bad
    | .accZero => match Config.accZeroWord w with
      | some a => .accZero t b a
      | none => bad
    | .streamStart => .streamStart t b (wCh w) (wChReg w) ecc
    | .streamArm => .streamArm t b (wCh w) (wChReg w)
    | .streamWait => .streamWait t b (wCh w)
    | .streamStop => .streamStop t b (wCh w)
    | .fenceSignal => .fenceSignal t b (handleWord w)
    | .fenceWait => .fenceWait t b (handleWord w)
    | .semAcq => .semAcq t b (handleWord w)
    | .semRel => .semRel t b (handleWord w)
    | .barArrive => .barArrive t b (wDst w) (wSrcA w)
    | .barWait => .barWait t b (wDst w) (wSrcA w) (wSrcB w) (decide (wF w 40 1 = 1)) (BitVec.ofNat 16 (wF w 24 16))
    | .flags => .flagsOp t b (wDst w) (BitVec.ofNat 5 (wF w 0 5))
    | .endProg => .endOp t b
    | .nop => .nopOp t b

end Sys2Proof
end

