-- ==== Sys2Proof/Machine/State.lean ====
section
/-! DEFINITION. The state of the Ahneno A1 module as plain data: every register, table, buffer, counter, mode and pin
the spec names, block by block in the spec's chapter order, the queue of waiting commands and the outbox of what the
module has shown its surroundings; the reasons a step can stop; and the state after reset. -/

namespace Sys2Proof.Machine

/-! ### Shadow fields, commits, error registers -/

/-- A group of SH fields (R10, R12, R399): active values, pending values, the values of an accepted commit that waits
for its boundary, and a GO write that arrived while one waits. -/
structure Sh (α : Type) where
  act : α
  pend : α
  acc : Option α
  goLater : Bool
deriving DecidableEq, Repr

/-- SH fields whose pending value is the active one, no commit waiting. -/
def Sh.of {α : Type} (a : α) : Sh α := ⟨a, a, none, false⟩

/-- An ERR register with the layout of SRM_ERR (R160). -/
structure ErrReg where
  order : BitVec 8 := 0
  rsvd : BitVec 16 := 0
deriving DecidableEq, Repr

/-! ### The tile: chapters 02 and 04 -/

/-- The state of a context bank (R45), in code order. -/
inductive BankSt
  | empty | loaded | running | waiting | faulted | purging
deriving DecidableEq, Repr

/-- The state of a stream channel (R72), in code order. -/
inductive ChanSt
  | idle | active | paused | stalled | done | faulted
deriving DecidableEq, Repr

/-- What a bank waits on (R45, R125, R147, R205) or what a retiring instruction still awaits (R119). -/
inductive Wait
  /-- FENCE.WAIT registered at the fence line `key` until VALUE ≥ `target`; status register `sd`. -/
  | fence (key : Nat) (target : DWord) (sd : Nat)
  /-- SEM.ACQ of `n` units at the semaphore line `key`. -/
  | sem (key : Nat) (n : Word) (sd : Nat)
  /-- BAR.WAIT on the object line `key` for GEN to pass `sg`; `hook` of R149; `limit` ticks from its start. -/
  | bar (key : Nat) (sg : Word) (sd : Nat) (hook : Bool) (limit : Nat)
  /-- BAR.ARRIVE awaits the GEN that the home returns. -/
  | arrive (sg : Nat)
  /-- STREAM.WAIT on a channel. -/
  | chan (ch : Nat)
  /-- A reference would pass REFS 0xFF_FFFF (R360): the instruction stands and is tried again. -/
  | reference (op : TileOp)
  /-- The access of `op` awaits its table walks (R199). -/
  | walk (op : TileOp)
  /-- The access of `op` awaits a page (R205); the page, whether the read and write bits are carried. -/
  | migrate (op : TileOp) (page : Nat) (rd wr : Bool)
  /-- The line requests of `op` await `left` responses (R119); `buf` holds the bytes read so far. -/
  | access (op : TileOp) (left buf : Nat)
  /-- A stream descriptor is being read from a target off the module (R127). -/
  | descr (ch sd : Nat) (last : Option (Nat × Nat))
  /-- The bank's context is stalled at its fault (R378): the fault is held. -/
  | stalledFault (code : Nat) (detail : Nat)
deriving DecidableEq, Repr

/-- SEQ_BANK_FAULT (R70). -/
structure BankFault where
  valid : Bool := false
  code : BitVec 8 := 0
  detail : BitVec 16 := 0
deriving DecidableEq, Repr

/-- A context bank (R42, R69, R70, R88, R432): register keys are the register number, or register × 128 + lane for V
and accumulator × 2048 + row × 64 + column for ACC; unlisted registers read zero. -/
structure Bank where
  st : BankSt := .empty
  ctx : Ctx := 0
  cid : Cid := 0
  hold : Bool := false
  fault : BankFault := {}
  progress : Word := 0
  pc : BitVec 22 := 0
  sReg : Tab DWord := []
  vReg : Tab Word := []
  pReg : Tab (BitVec 128) := []
  acc : Tab Word := []
  /-- The matrix resume position (R39, R42): a matrix command runs all its K steps, so it stands at 0 between commands. -/
  resume : BitVec 18 := 0
  flags : BitVec 5 := 0
  wait : Option Wait := none
  since : Nat := 0
  inProg : Bool := false
  run : DWord := 0
  lent : DWord := 0
  /-- 0 while ready at the last boundary, else one more than the ticks since (R415). -/
  notReady : Nat := 0
  /-- The slot clock of the current run (R132), as far as link slots have been decided: the cycle of the last one. -/
  slotClock : Nat := 0
deriving DecidableEq, Repr

/-- A translated page kept by a look-aside structure (R198, R199) or by a running copy (R211): the CID and CTX it is
tagged with, first DVA page, log2 of its bytes, the leaf entry, and whether it was dropped since (R202). -/
structure XEntry where
  cid : Cid := 0
  ctx : Ctx := 0
  base : Nat := 0
  log2 : Nat := 0
  leaf : DWord := 0
deriving DecidableEq, Repr

/-- A stream channel (R72, R126, R128, R129, R134, R136): the descriptor in use and the working counts. -/
structure Chan where
  st : ChanSt := .idle
  bank : BitVec 2 := 0
  link : Bool := false
  lines : BitVec 24 := 0
  desc : BitVec 51 := 0
  d : Line := 0
  collisions : BitVec 16 := 0
  emptySlots : BitVec 16 := 0
  issued : Nat := 0
  acked : Nat := 0
  beats : Nat := 0
  armed : Nat := 0
  released : Nat := 0
  credits : Nat := 0
  /-- Credits released before a sending channel of the peer is paired (R131). -/
  owed : Nat := 0
  /-- The last slot decided in the current run, by its cycle (R132). -/
  decided : Option Nat := none
  stopping : Bool := false
  /-- A START of the channel reads its descriptor off the share (R127). -/
  starting : Bool := false
  /-- The channel is done, and its write-back and signal still await a tag (R129). -/
  due : Bool := false
  ring : Nat := 0
  fenceRef : Option Nat := none
  pages : List XEntry := []
  /-- The invalidations that cover its pages (R211). -/
  dropped : List (Nat × Word) := []
deriving DecidableEq, Repr

/-- A pairing entry of a neighbour port, one per receiving channel of the peer (R133). -/
structure Pairing where
  cid : Cid := 0
  ctx : Ctx := 0
  /-- Credits that no send channel has taken yet (R133). -/
  credits : Nat := 0
deriving DecidableEq, Repr

/-- TIL_NBR (R66). -/
structure Nbr where
  nSel : BitVec 2 := 1
  sSel : BitVec 2 := 1
  bypass : Bool := false
deriving DecidableEq, Repr

/-- An entry of the regulator of one resource (R432, R433): the SH fields. -/
structure RegSh where
  valid : Bool := false
  slot : BitVec 9 := 0
  dir : Bool := false
  guar : BitVec 16 := 0
deriving DecidableEq, Repr

/-- The pending and active SH fields of a tile block: TIL_NBR and the TIL_REG entries 0-3 (R67, R433). -/
structure TilSh where
  nbr : Nbr := {}
  regs : Tab RegSh := []
deriving DecidableEq, Repr

/-- SRM_GRAN of a granule, or XLT_OWN of a unit (R163, R222). -/
structure Owner where
  valid : Bool := false
  scope : Bool := false
  ctx : Ctx := 0
  cid : Cid := 0
deriving DecidableEq, Repr

/-- SRM_SHARE of a bank (R163). -/
structure Share where
  en : Bool := false
  count : BitVec 9 := 0
  base : BitVec 9 := 0
deriving DecidableEq, Repr

/-- The SH fields of a tile's SRM block (R163). -/
structure SrmSh where
  share : Tab Share := []
  gran : Tab Owner := []
deriving DecidableEq, Repr

/-- SRM_UE (R161). -/
structure SrmUe where
  valid : Bool := false
  icv : Bool := false
  bank : BitVec 5 := 0
  line : BitVec 14 := 0
deriving DecidableEq, Repr

/-- A tile's SRM block beside its SH fields (R160, R161, R162). `poison` and `rewrite` are keyed by the line number of
the tile (offset >> 6): poisoned lines (R155), corrected lines not yet rewritten (R153). -/
structure Srm where
  err : ErrReg := {}
  ce : Word := 0
  icvFail : BitVec 16 := 0
  ueCount : BitVec 16 := 0
  ue : SrmUe := {}
  clearBusy : Bool := false
  clearCount : BitVec 9 := 0
  clearBase : BitVec 9 := 0
  /-- The granules that the clear under way writes: first, count. -/
  clearRun : Nat × Nat := (0, 0)
  passes : BitVec 16 := 0
  pos : BitVec 14 := 0
  lastRefusal : BitVec 8 := 0
  sh : Sh SrmSh := .of {}
  poison : Tab Bool := []
  rewrite : Tab Bool := []
  /-- Lines whose ICV was made under a slot 0 key that is gone, with that ICV (R545). -/
  staleIcv : Tab (BitVec 16) := []
deriving DecidableEq, Repr

/-- TIL_ID.ROLE (R60), in code order. -/
inductive Role
  | grid | spare | retired | notProduced
deriving DecidableEq, Repr

/-- One tile (R34, R59 to R72, R133). `levels` are the regulator levels of TIL_REG (R433); `tempC` is in 0.125 °C. -/
structure Tile where
  role : Role := .grid
  lcol : BitVec 5 := 0
  clamp : Bool := true
  gate : Bool := true
  narrow : Bool := false
  issueHold : Bool := false
  /-- When CORE_GATE was last cleared (R62). -/
  gateAt : Option Nat := none
  powered : Bool := false
  clamped : Bool := true
  issueHeld : Bool := false
  shiftBusy : Bool := false
  err : ErrReg := {}
  ovf : Bool := false
  temp : BitVec 12 := 0
  nbr : Sh TilSh := .of {}
  levels : Tab Word := []
  balFmt : BitVec 4 := 3
  balDuty : BitVec 4 := 0
  balEn : Bool := false
  balSteps : DWord := 0
  /-- Sixteenths of a ballast step not yet taken. -/
  balRem : Nat := 0
  lfsr : Word := 1
  /-- The bank chosen at the last tick boundary (R415). -/
  run : Nat := 0
  banks : Tab Bank := []
  chans : Tab Chan := []
  pairings : Tab Pairing := []
  look : List XEntry := []
  srm : Srm := {}
  barIdle : Bool := false
  /-- Compositions whose banks raised the barrier-idle request in this tick (R253). -/
  raised : List Cid := []
  /-- ISSUE_HOLD is set while a narrow-format self-test completes (R586). -/
  testHold : Bool := false
  /-- Dead stops that this stop's routing table marks (R143). -/
  deadMarks : List Nat := []
  /-- A matrix step has issued since the last tick boundary (R149). -/
  matrix : Bool := false
  stopDead : Bool := false
deriving DecidableEq, Repr

/-- Who issued a mesh request that is outstanding, and what its response does (R129, R119). -/
inductive Issuer
  /-- A read of a scalar or vector load: bytes [off, off + size) of the line become bytes [pos, pos + size) of the value. -/
  | load (tile bank pos size off : Nat)
  | store (tile bank : Nat)
  | atomic (tile bank : Nat)
  /-- A copy's read of a source line, whose data go to the destination address (line number of the copy). -/
  | copyRead (tile ch line : Nat)
  | copyWrite (tile ch line : Nat)
  | descRead (tile ch : Nat)
  | barArrive (tile bank : Nat)
  | barRead (tile bank : Nat)
  /-- A fabric request turned into a mesh request at router stop `stop` (R293). -/
  | fabric (port : Nat) (key : Nat)
  /-- A BAR2 access of a host function (R336). -/
  | host (hport func tag : Nat) (pos size off : Nat)
  /-- A write of the queue parser or of a coder job through a window (R363, R370, R180): nothing waits for its response
  but XLT.SYNC. -/
  | unit
deriving DecidableEq, Repr

/-- An outstanding mesh request (R129, R233): its issuer, the packet as sent, whether its response is discarded
(R73), and whether an open fence counts it (R233). -/
structure MeshReq where
  who : Issuer
  pkt : Packet
  discard : Bool := false
  fence : Bool := false
  /-- The invalidations that dropped its page: queue entry and ring index (R202). -/
  dropped : List (Nat × Word) := []
  /-- The target class of R212. -/
  cls : Nat := 0
  /-- The page it was translated through, first DVA and log2 of its bytes (R202). -/
  via : Option (Nat × Nat) := none
deriving DecidableEq, Repr

/-- The mesh (R139 to R143, R145): outstanding requests keyed by source stop × 256 + tag; telemetry counts. -/
structure Mesh where
  reqs : Tab MeshReq := []
  held : List Packet := []
  unknownTypes : DWord := 0
  discardedBeats : DWord := 0
  repeatedArrivals : DWord := 0
  discardedResponses : DWord := 0
  /-- Requests that a target has refused, by the target's stop (R214). -/
  refused : Tab DWord := []
  /-- Arrivals that reached a barrier while PENDING was 1 (R146): the object's MPA, the logical tile or none for a child. -/
  early : List (Nat × Option Nat) := []
deriving DecidableEq, Repr

/-! ### LPDDR5X: chapter 05 -/

/-- MEM_PAIR_STATE.STATE (R189), in code order. -/
inductive PairSt
  | untrained | training | active | degraded | rebuilding | selfRefresh | retired | spareReady
deriving DecidableEq, Repr

/-- An interleave group (R188). -/
structure Igrp where
  valid : Bool := false
  baseGb : BitVec 16 := 0
  n : BitVec 8 := 0
  len : BitVec 5 := 0
  off : BitVec 5 := 0
  mask : BitVec 192 := 0
deriving DecidableEq, Repr

/-- SH fields of the memory controllers: MEM_IGRP, MEM_PAIR_MAP and the MEM_REG guarantees keyed by
physical pair × 64 + group (R188, R432). -/
structure MemSh where
  igrp : Tab Igrp := []
  pairMap : Tab (BitVec 8) := []
  regs : Tab RegSh := []
deriving DecidableEq, Repr

/-- A dirty line of a check cache (R171): the half's stripe die slot and line it checks, its write-back deadline. -/
structure CheckDirty where
  pair : Nat := 0
  line : Nat := 0
  due : Nat := 0
deriving DecidableEq, Repr

/-- A delta on the memory ring (R171): the stripe (half, die slot, line) and old ⊕ new. -/
structure Delta where
  half : Nat := 0
  slot : Nat := 0
  line : Nat := 0
  xor : Line := 0
deriving DecidableEq, Repr

/-- A running coder or trim job (R179, R180): issuer's tags, the descriptor, the queue command it belongs to. -/
structure Job where
  mc : Nat := 0
  cid : Cid := 0
  ctx : Ctx := 0
  desc : Line := 0
  descAt : Nat := 0
  /-- The entry of its fence, on which it holds a reference (R360). -/
  fenceRef : Nat := 0
  entry : Nat := 0
  index : Word := 0
  /-- The pages of its extents, and the invalidations that cover them (R202). -/
  pages : List XEntry := []
  dropped : List (Nat × Word) := []
deriving DecidableEq, Repr

/-- One physical pair (R189, R170, R172, R173, R175, R177): the state registers, the poisoned lines, the queues'
occupancy, lines rebuilt this period, the rebuild's spare and cursor, scrub position, per-channel background flags. -/
structure Pair where
  st : PairSt := .untrained
  before : PairSt := .untrained
  refRate : BitVec 2 := 0
  rebuildPct : BitVec 8 := 0
  ue : BitVec 16 := 0
  rebuilt : BitVec 16 := 0
  linkRetry : BitVec 16 := 0
  odecc : BitVec 16 := 0
  poison : Tab Bool := []
  rebuiltPeriod : Nat := 0
  rebuildTo : Option Nat := none
  cursor : Nat := 0
  scrubPos : Nat := 0
  /-- Per channel of the pair (R177): ZQ latched, the drift last read in ps, a retraining due. -/
  zqLatched : BitVec 2 := 0
  drift : Tab Nat := []
  retrainDue : BitVec 2 := 0
  /-- Ranges of lines whose data went with a die while their half's stripes were not protected (R178): first, end. -/
  gone : List (Nat × Nat) := []
  siteSpare : Bool := false
  clearing : Bool := false
deriving DecidableEq, Repr

/-- The LPDDR5X controllers as a whole (R171, R178, R187). -/
structure Mem where
  err : ErrReg := {}
  mcErr : Tab ErrReg := []
  lastRefusal : BitVec 8 := 0
  sh : Sh MemSh := .of {}
  pairs : Tab Pair := []
  deltas : List Delta := []
  dirty : List CheckDirty := []
  stale : Tab Bool := []
  jobs : List Job := []
  levels : Tab Word := []
  trimNan : DWord := 0
  trimClamp : DWord := 0
deriving DecidableEq, Repr

/-! ### Translation: chapter 06 -/

/-- XLT_CTAB (R222). -/
structure Ctab where
  valid : Bool := false
  cid : Cid := 0
  base : BitVec 30 := 0
deriving DecidableEq, Repr

structure XltSh where
  ctab : Tab Ctab := []
  own : Tab Owner := []
deriving DecidableEq, Repr

/-- An entry of a half's walk cache (R199, R200): a non-leaf entry at `level` for DVA bits from `prefix_` up, or at level
5 a context-table entry, its second word beside it. -/
structure WalkEntry where
  cid : Cid := 0
  ctx : Ctx := 0
  level : Nat := 0
  prefix_ : Nat := 0
  entry : DWord := 0
  second : DWord := 0
deriving DecidableEq, Repr

/-- A table walk in progress for an access of a bank (R199, R203). -/
structure Walk where
  tile : Nat := 0
  bank : Nat := 0
deriving DecidableEq, Repr

/-- A migration request (R205 to R207): the bank that waits, its context, page, direction bits; sent with its PRG index
at `sentAt`, or pending. `tries` counts consecutive Success responses that left the page a migration fault. -/
structure MigReq where
  tile : Nat := 0
  bank : Nat := 0
  cid : Cid := 0
  ctx : Ctx := 0
  page : Nat := 0
  rd : Bool := false
  wr : Bool := false
  hport : Nat := 0
  func : Nat := 0
  sent : Option Nat := none
  sentAt : Nat := 0
  tries : Nat := 0
  /-- Bytes 0x10 to 0x3F of the fault record it may end in, REASON still 0 (R216). -/
  body : Bytes := []
  /-- The queue command that waits where no bank does (tile 0x3FF). -/
  cmd : Option (Nat × Word) := none
deriving DecidableEq, Repr

structure Xlt where
  err : ErrReg := {}
  lastRefusal : BitVec 8 := 0
  priTimeout : BitVec 11 := 64
  sh : Sh XltSh := .of {}
  migCnt : Tab DWord := []
  look : Tab (List XEntry) := []
  /-- The halves' walk caches (R199). -/
  wcache : Tab (List WalkEntry) := []
  walks : List Walk := []
  mig : List MigReq := []
  retired : List (Nat × Nat × Nat) := []
  priStopped : Tab Bool := []
  late : DWord := 0
deriving DecidableEq, Repr

/-! ### Composition: chapter 07 -/

/-- BRD_MOVE_CTRL.STATE (R257), in code order. -/
inductive MoveSt
  | idle | copying | switching | clearing | done | aborted
deriving DecidableEq, Repr

/-- BRD_MOVE_CTRL and BRD_MOVE_CURSOR of a half (R257, R258), and the requester of a PAIR_MOVE. -/
structure Move where
  st : MoveSt := .idle
  rate : BitVec 4 := 1
  dst : BitVec 8 := 0
  src : BitVec 8 := 0
  cursor : BitVec 27 := 0
  /-- RATE, DST and SRC as BRD_MOVE_CTRL holds them: a move runs with those that its GO found. -/
  regRate : BitVec 4 := 1
  regDst : BitVec 8 := 0
  regSrc : BitVec 8 := 0
deriving DecidableEq, Repr

/-- The lease state (R246), in the code order of BRD_SLOT.LEASE (R258). -/
inductive LeaseSt
  | none | held | orphaned
deriving DecidableEq, Repr

/-- Where notifications of a composition go (R396, R403 NTO). -/
inductive Dest
  | boundFunction
  | mctp (eid : Nat)
  | peer (module : Nat)
deriving DecidableEq, Repr

/-- A lease record (R246). -/
structure Lease where
  st : LeaseSt := .none
  owner : DWord := 0
  epoch : Word := 0
  expiry : Nat := 0
  duration : Nat := 0
  orphanedAt : Nat := 0
  dest : Dest := .boundFunction
deriving DecidableEq, Repr

/-- The SH fields of BRD: slot VALID and CID keyed by slot, SRAM redirection keyed by slot of R150 (R258, R259). -/
structure BrdSh where
  slots : Tab (Bool × Cid) := []
  redir : Tab (BitVec 10) := []
deriving DecidableEq, Repr

/-- Why a resource cannot be bound yet (R250). -/
inductive ResSt
  | draining | clearing
deriving DecidableEq, Repr

/-- The image in force of a composition (R228). -/
structure Image where
  tenant : Word := 0
  gprio : BitVec 3 := 0
  ctabV : Bool := false
  ctab : BitVec 30 := 0
  entries : List ImgEntry := []
deriving DecidableEq, Repr

/-- An open epoch fence (R233): BRD_FENCE.COUNT, the moved set, when it opened, whether its stall was reported. -/
structure FenceSt where
  isOpen : Bool := false
  /-- Opened by a change of Itlum's own (R237, R486). -/
  itlum : Bool := false
  count : Word := 0
  moved : List Resource := []
  openedAt : Nat := 0
  reported : Bool := false
  atClose : List Resource := []
  /-- The tags that the moved granules and units had, for requests of the old epoch (R234). -/
  old : List (Resource × Owner) := []
deriving DecidableEq, Repr

/-- The four meters of a slot and the number of the last meter record (R252, R254). -/
structure Meter where
  bound : DWord := 0
  tiles : DWord := 0
  units : DWord := 0
  ballast : DWord := 0
  seq : Word := 0
deriving DecidableEq, Repr

structure Brd where
  err : ErrReg := {}
  lastRefusal : BitVec 8 := 0
  block : BitVec 4 := 0
  goLater : Bool := false
  waiting : Bool := false
  moves : Tab Move := []
  sh : Sh BrdSh := .of {}
  epochs : Tab Word := []
  leaseBits : Tab (BitVec 2) := []
  fences : Tab FenceSt := []
  meters : Tab Meter := []
  images : Tab Image := []
  leases : Tab Lease := []
  lastEpoch : Tab Word := []
  grace : BitVec 10 := 10
  /-- Resources between two bindings, with the composition that they left (R250). -/
  res : List (Resource × Cid × ResSt) := []
  /-- Final meter records with their signatures, taken when a slot is freed (R254): slot and bytes. -/
  finals : List (Nat × Bytes) := []
  /-- Guarantees in force below what was admitted (R245): composition, resource, figure. -/
  current : List (Cid × GuarRes × Nat) := []
  keptGroups : List (Nat × List Nat) := []
deriving DecidableEq, Repr

/-! ### Links: chapter 08 -/

/-- LNK_STATUS.STATE (R272, R282), in code order. -/
inductive PortSt
  | disabled | openCircuit | training | oneWay | laneOrder | miswired | looped | duplicate | active | retraining | failed
deriving DecidableEq, Repr

/-- A frame in a port's replay buffer (R264): as sent, its sealed slot bytes and tag, the packets whose last flit it
carries and how often it has been replayed. -/
structure SentFrame where
  seq : Nat := 0
  isCtrl : Bool := false
  nak : Bool := false
  ack : Nat := 0
  credits : Word := 0
  slots : List (Nat × Flit) := []
  ctrl : List CtrlMsg := []
  sealed : Bytes := []
  pkts : List FabPacket := []
  replays : Nat := 0
deriving DecidableEq, Repr

/-- A packet in a port's transmit queue (R424): its virtual channel, the flits still to send, whether it has begun. -/
structure TxPkt where
  vc : Nat := 0
  pkt : FabPacket
  left : List Flit := []
  begun : Bool := false
  since : Nat := 0
deriving DecidableEq, Repr

/-- LNK_EXPECT (R283). -/
structure LnkExpect where
  en : Bool := false
  module : BitVec 14 := 0
  port : BitVec 6 := 0
deriving DecidableEq, Repr

/-- LNK_EYE of a position (R286), with the run of low heights (R280). -/
structure Eye where
  valid : Bool := false
  height : BitVec 8 := 0
  width : BitVec 8 := 0
  age : BitVec 8 := 0
  lowRun : Nat := 0
deriving DecidableEq, Repr

/-- LNK_MAP of one direction (R284). -/
structure LaneMap where
  subB : BitVec 6 := 0x3F
  subA : BitVec 6 := 0x3F
  failed : BitVec 18 := 0
deriving DecidableEq, Repr

/-- A substitution under way (R278): logical lane, spare (0 A, 1 B), the frame number of the switch. -/
structure Subst where
  llane : Nat := 0
  spare : Nat := 0
  switchSeq : Option Nat := none
deriving DecidableEq, Repr

/-- One fabric port's link (R260 to R286) and its inline crypto (R546 to R549, R554). -/
structure LinkPort where
  err : ErrReg := {}
  disable : Bool := false
  maxw : BitVec 2 := 0
  substEn : Bool := true
  st : PortSt := .disabled
  rxw : BitVec 2 := 3
  txw : BitVec 2 := 3
  reversed : Bool := false
  sparesLeft : BitVec 2 := 0
  polarity : BitVec 16 := 0
  expect : Sh LnkExpect := .of {}
  peerValid : Bool := false
  peerModule : BitVec 14 := 0
  peerPort : BitVec 6 := 0
  /-- The peer's serial; LNK_PEER shows its low half. -/
  peerFull : DWord := 0
  rtt : BitVec 16 := 0
  mapRx : LaneMap := {}
  mapTx : LaneMap := {}
  cntCorr : Word := 0
  cntUncorr : Word := 0
  cntReplay : Word := 0
  cntRetrain : Word := 0
  cntLost : Word := 0
  eyes : Tab Eye := []
  /-- Positions with signal, the step of R272, whether it is of a fast retrain. -/
  signal : BitVec 18 := 0
  step : Nat := 0
  fast : Bool := false
  failedTrainings : Nat := 0
  /-- The period in which the port last became FAILED (R273). -/
  failedAt : Nat := 0
  replay : List SentFrame := []
  replayFrom : Option Nat := none
  /-- The ACK value whose NAK has been answered with a replay (R265). -/
  nakSeen : Option Nat := none
  awaiting : Bool := false
  /-- A full training has ended and no frame has been accepted since. -/
  resync : Bool := false
  badRun : Nat := 0
  nakDue : Bool := false
  dedicated : Tab Nat := []
  shared : Nat := 0
  /-- Flits of each virtual channel in the receive buffer, and credits not yet returned. -/
  rxHeld : Tab Nat := []
  creditDue : Tab Nat := []
  txQueue : List TxPkt := []
  ctrlQueue : List CtrlMsg := []
  /-- Slots since the last of virtual channel 3, frames since the last control frame, the slot last served (R424). -/
  slotsSince : Nat := 15
  framesSince : Nat := 1023
  lastSlot : Nat := 511
  laneCorr : Tab Nat := []
  substRx : Option Subst := none
  substTx : Option Subst := none
  stampEcho : Nat := 0
  unknownMsg : Nat := 0
  keySt : BitVec 4 := 0
  kidTx : BitVec 6 := 0
  kidRx : BitVec 6 := 0
  authFail : BitVec 16 := 0
  sessions : Word := 0
  /-- Frames sent and frames accepted, whose low 16 bits are the next SEQ (R263, R546). -/
  frameCount : DWord := 0
  rxFrames : DWord := 0
  /-- The frame count at which the transmit session began (R548). -/
  sessionAt : DWord := 0
  gcmRun : Nat := 0
  /-- The session that a direction moves to: KID and START_SEQ (R547). -/
  pendTx : Option (Nat × Nat) := none
  pendRx : Option (Nat × Nat) := none
  /-- The NONCE of the transmit session, and of the one it moves to (R546). -/
  nonceTx : BitVec 128 := 0
  nextTx : BitVec 128 := 0
  peerNew : DWord := 0
  peerOld : DWord := 0
deriving DecidableEq, Repr

/-! ### Fabric: chapter 09 -/

structure FabId where
  valid : Bool := false
  module : BitVec 14 := 0
deriving DecidableEq, Repr

/-- FAB_ROUTE of a module number (R322). -/
structure Route where
  valid : Bool := false
  cand : List (BitVec 7) := []
  /-- The candidate fields beyond N, which routing ignores. -/
  ignored : List (BitVec 7) := []
deriving DecidableEq, Repr

/-- FAB_WIN (R323). -/
structure Win where
  valid : Bool := false
  rights : BitVec 3 := 0
  scope : Bool := false
  ctx : Ctx := 0
  cid : Cid := 0
  size : BitVec 16 := 0
  root : BitVec 34 := 0
deriving DecidableEq, Repr

/-- FAB_COLL, its SH fields (R324). -/
structure CollSh where
  valid : Bool := false
  op : BitVec 2 := 0
  collId : BitVec 16 := 0
  cid : Cid := 0
  nlocal : BitVec 10 := 0
  childMask : BitVec 48 := 0
  pvalid : Bool := false
  parent : BitVec 6 := 0
  destWin : BitVec 8 := 0
  destOff : BitVec 36 := 0
  fence : Word := 0
  len : Word := 0
  fenceBase : DWord := 0
deriving DecidableEq, Repr

structure FabSh where
  id : FabId := {}
  poolLimit : Tab (BitVec 14) := []
  wbase : Tab (BitVec 9 × BitVec 14) := []
  route : Tab Route := []
  win : Tab Win := []
  coll : Tab CollSh := []
  regs : Tab RegSh := []
deriving DecidableEq, Repr

/-- The collective state FAB_COLL.STATE, GEN, DONE and the chunks in progress (R312 to R316, R324). -/
structure CollRun where
  st : BitVec 4 := 0
  gen : BitVec 16 := 0
  done : DWord := 0
  /-- The fence entry on which the entry holds a reference (R360). -/
  fenceRef : Option Nat := none
  /-- Chunks of the generation already sent to the parent, and already written locally. -/
  sent : List Nat := []
  written : List Nat := []
  /-- When a chunk last made progress (R315). -/
  since : Nat := 0
deriving DecidableEq, Repr

/-- A chunk accumulator (R312): the FP32 sums, local contributions counted, children counted. -/
structure ChunkAcc where
  coll : Nat := 0
  chunk : Nat := 0
  lanes : List Word := []
  count : Nat := 0
  children : List Nat := []
deriving DecidableEq, Repr

/-- A fabric request of this module awaiting its response (R297): the return-table entry, with the slot whose pool it
is drawn from and the mesh request it stands for. -/
structure FabReq where
  ftag : BitVec 14 := 0
  dstModule : BitVec 14 := 0
  slot : Option Nat := none
  sentAt : Nat := 0
  pkt : Packet
deriving DecidableEq, Repr

/-- A mesh request waiting at egress (R297, R304, R307, R309). -/
structure FabWait where
  pkt : Packet
  since : Nat := 0
deriving DecidableEq, Repr

/-- A contribution that waits at ingress for the next generation or for an accumulator (R314, R316): from a child's
port, or 64 for a local write, with the packet. -/
structure CollWait where
  coll : Nat := 0
  child : Nat := 0
  pkt : FabPacket
deriving DecidableEq, Repr

/-- An ingress request admitted under a window entry, until its response leaves (R293, R295). -/
structure WinReq where
  window : Nat := 0
  /-- Issuing module × 2^14 + FTAG. -/
  key : Nat := 0
  /-- The port it came from; 48 for a self-addressed one. -/
  port : Nat := 0
  /-- The page it was translated through, first offset and log2 of its bytes. -/
  via : Nat × Nat := (0, 0)
  old : Bool := false
deriving DecidableEq, Repr

/-- A window command whose old requests are still draining (R295): its composition, and the requester of a WIN_SET. -/
structure WinDrain where
  window : Nat := 0
  cid : Cid := 0
  path : Option Path := none
deriving DecidableEq, Repr

structure Fab where
  err : ErrReg := {}
  lastRefusal : BitVec 8 := 0
  sh : Sh FabSh := .of {}
  timeout : BitVec 10 := 64
  cntUnreach : Word := 0
  cntTimeout : Word := 0
  cntLate : Word := 0
  cntRefused : Word := 0
  poolUse : Tab Nat := []
  returns : List FabReq := []
  waiting : List FabWait := []
  /-- Packets that wait for a candidate with a credit (R299), and the port each came on; 48 for this module's. -/
  held : List (Nat × FabPacket) := []
  e2e : Tab Nat := []
  ingressUse : Tab Nat := []
  hallUse : Nat := 0
  colls : Tab CollRun := []
  accs : List ChunkAcc := []
  collWaits : List CollWait := []
  /-- Changes of entries whose generation still runs (R314). -/
  collLater : Tab CollSh := []
  winReqs : List WinReq := []
  drains : List WinDrain := []
  winLook : List XEntry := []
  levels : Tab Word := []
deriving DecidableEq, Repr

/-! ### Host interface: chapter 10 -/

/-- HST_TDI.STATE (R339, R348), in code order. -/
inductive TdiSt
  | unlocked | locked | run | error
deriving DecidableEq, Repr

/-- HST_PORT_STATUS.STATE (R349), in code order. -/
inductive HPortSt
  | down | training | up | recovery | hold
deriving DecidableEq, Repr

/-- An MSI-X table entry (R332): address, data, mask. -/
structure Msix where
  addr : DWord := 0
  data : Word := 0
  mask : Bool := true
  pend : Bool := false
deriving DecidableEq, Repr

/-- The dirty log of a function (R344 to R347, R350). -/
structure Dlog where
  base : DWord := 0
  en : Bool := false
  ovf : Bool := false
  hostEn : Bool := true
  devEn : Bool := true
  sizeLog2 : BitVec 5 := 8
  prod : Word := 0
  cons : Word := 0
  /-- 2 MiB regions logged since REARM (R345). -/
  devSeen : Tab Bool := []
deriving DecidableEq, Repr

/-- An Itlum mailbox (R387 to R389). -/
structure Mailbox where
  err : ErrReg := {}
  busy : Bool := false
  done : Bool := false
  nlost : Bool := false
  last : BitVec 16 := 0
  ven : Bool := false
  nven : Bool := false
  vector : BitVec 10 := 0
  prod : Word := 0
  cons : Word := 0
  drop : Word := 0
  req : Tab Byte := []
  rsp : Bytes := []
  notes : Tab Bytes := []
  flrWhileBusy : Bool := false
deriving DecidableEq, Repr

/-- One PCIe function (R327, R348, R350, R387): key port × 257 + function. -/
structure Func where
  err : ErrReg := {}
  enabled : Bool := false
  bar2Log2 : Nat := 38
  bound : Bool := false
  slot : BitVec 9 := 0
  cid : Cid := 0
  winEn : Bool := false
  winCtx : Ctx := 0
  winBase : BitVec 16 := 0
  tdi : TdiSt := .unlocked
  tdiCause : BitVec 4 := 0
  tdiSValid : Bool := false
  tdiStream : BitVec 6 := 0
  refused : Word := 0
  priEn : Bool := false
  priAlloc : Nat := 0
  atsEn : Bool := false
  busMaster : Bool := false
  msix : Tab Msix := []
  msixEn : Bool := false
  dlog : Dlog := {}
  mail : Mailbox := {}
  hcfgEn : Bool := false
  hcfgVec : BitVec 10 := 0
  hmask : BitVec 12 := 0
deriving DecidableEq, Repr

/-- A host port (R325, R341, R349). -/
structure HPort where
  st : HPortSt := .down
  rate : BitVec 4 := 0
  width : BitVec 3 := 0
  holdLeft : BitVec 8 := 0
  hold : BitVec 7 := 4
  cntLost : Word := 0
  numVfs : Nat := 0
  vfEnable : Bool := false
  perst : Bool := false
  /-- Streams keyed by IDE_KM: stream, sub-stream, first and last function (R338). -/
  ideKeys : List (Nat × Nat × Nat × Nat) := []
  /-- The filter of recent host pages of the dirty log: function and page (R345). -/
  seen : List (Nat × Nat) := []
deriving DecidableEq, Repr

/-- A read of host memory not yet completed (R330): the mesh stop and tag that issued it, its PASID, whether it was sent
as translated, the invalidations that wait for it (R331). -/
structure HostReq where
  hport : Nat := 0
  func : Nat := 0
  tag : Nat := 0
  stop : Nat := 0
  mtag : Nat := 0
  addr : DWord := 0
  pasid : BitVec 20 := 0
  translated : Bool := false
  inv : List Nat := []
deriving DecidableEq, Repr

/-- A BAR2 read of a host that awaits its lines (R336). -/
structure Bar2Read where
  hport : Nat := 0
  func : Nat := 0
  tag : Nat := 0
  bytes : Nat := 0
  left : Nat := 0
  buf : Nat := 0
  bad : Bool := false
deriving DecidableEq, Repr

/-- A host translation held by an ATC (R331). -/
structure AtcEntry where
  hport : Nat := 0
  func : Nat := 0
  pasid : BitVec 20 := 0
  page : Nat := 0
  log2 : Nat := 0
  /-- The translated address of the first page. -/
  target : DWord := 0
deriving DecidableEq, Repr

/-- A Translation Request not yet completed (R331). -/
structure Transl where
  hport : Nat := 0
  func : Nat := 0
  tag : Nat := 0
  pasid : BitVec 20 := 0
  page : Nat := 0
deriving DecidableEq, Repr

/-- An ATS Invalidation Request not yet answered (R331). -/
structure AtsInv where
  hport : Nat := 0
  func : Nat := 0
  itag : Nat := 0
deriving DecidableEq, Repr

structure Hst where
  ports : Tab HPort := []
  funcs : Tab Func := []
  reqs : List HostReq := []
  bar2 : List Bar2Read := []
  /-- Line requests of BAR2 accesses that wait for a tag of their stop (R140). -/
  waiting : List (Issuer × Packet) := []
  /-- Completions that arrived for no request (R337). -/
  late : DWord := 0
  atc : List AtcEntry := []
  atsInv : List AtsInv := []
  /-- Translation Requests outstanding (R331), and reads that wait while 2,048 requests of their port are (R325). -/
  transl : List Transl := []
  queued : List Packet := []
deriving DecidableEq, Repr

/-! ### Contexts, queues, objects: chapter 11 -/

/-- A fault held for a stalled context (R378): its record and what losing the context then does. -/
structure HeldFault where
  kind : Nat := 0
  code : Nat := 0
  body : Bytes := []
  bank : Option (Nat × Nat) := none
  order : Nat := 0
deriving DecidableEq, Repr

/-- QUE_RES, the SH fields (R381). -/
structure ResSh where
  valid : Bool := false
  ctx : Ctx := 0
  cid : Cid := 0
  waitLimit : BitVec 10 := 0
deriving DecidableEq, Repr

/-- QUE_RES, the RO fields (R381) and the held fault (R378); `banks` lists (tile, bank). -/
structure ResRo where
  lost : Bool := false
  stalled : Bool := false
  ovf : Bool := false
  banks : List (Nat × Nat) := []
  held : Option HeldFault := none
deriving DecidableEq, Repr

/-- QUE_FQ, the SH fields (R382). -/
structure FqSh where
  base : BitVec 52 := 0
  en : Bool := false
  ven : Bool := false
  vector : BitVec 10 := 0
deriving DecidableEq, Repr

/-- QUE_FQ, the RO fields (R382) and whether an FQ_SET has been accepted (R379). -/
structure FqRo where
  next : Word := 0
  acked : Word := 0
  dropped : Word := 0
  movf : Bool := false
  set : Bool := false
deriving DecidableEq, Repr

/-- QUE_Q, the SH fields (R383). -/
structure QSh where
  valid : Bool := false
  qctx : Ctx := 0
  qnum : BitVec 12 := 0
  slot : BitVec 9 := 0
  sizeLog2 : BitVec 5 := 0
  ven : Bool := false
  vector : BitVec 10 := 0
  hport : Bool := false
  func : BitVec 9 := 0
  ring : DWord := 0
  cpl : DWord := 0
  stat : DWord := 0
  lease : Word := 0
deriving DecidableEq, Repr

/-- QUE_Q_CFG.STATE (R383), in code order. -/
inductive QState
  | unregistered | running | stopped | broken
deriving DecidableEq, Repr

/-- Where an accepted command stands (R369). -/
inductive CmdSt
  | waiting
  | started
  | freeing
  | finished
deriving DecidableEq, Repr

/-- An accepted command of a queue (R366 to R369): ring index, packet, state, when it started, references it holds
(entry indices of the composition's object table), the tiles a launch has still to start and has running. -/
structure QCmd where
  index : Word := 0
  pkt : BitVec 256 := 0
  st : CmdSt := .waiting
  /-- Its own access faulted (R370). -/
  faulted : Bool := false
  /-- The page that faulted last for migration and the Success responses it has had (R207). -/
  mig : Nat × Nat := (0, 0)
  startedAt : Nat := 0
  refs : List Nat := []
  toStart : List (Nat × Nat) := []
  running : List (Nat × Nat) := []
deriving DecidableEq, Repr

/-- A parser entry (R363, R365, R383): RO fields, the doorbell's latest tail, accepted commands in ring order. -/
structure QRo where
  st : QState := .unregistered
  tail : Word := 0
  head : Word := 0
  bell : Option Word := none
  cmds : List QCmd := []
deriving DecidableEq, Repr

structure QueSh where
  res : Tab ResSh := []
  fq : Tab FqSh := []
  q : Tab QSh := []
deriving DecidableEq, Repr

/-- A placed object table (R356). -/
structure ObjTable where
  mpa : Mpa := 0
  log2 : Nat := 0
deriving DecidableEq, Repr

/-- Who waits in a sync unit (R360, R372). -/
inductive Waiter
  | bank (tile bank : Nat)
  | queue (entry : Nat) (index : Word)
deriving DecidableEq, Repr

/-- A wait entry of a sync unit (R371 to R373), in registration order: the line it waits on (memory key), the fence
target or the semaphore count, the object's entry index, and the borrowing of R374. -/
structure SyncEntry where
  half : Nat := 0
  who : Waiter
  cid : Cid := 0
  ctx : Ctx := 0
  key : Nat := 0
  isSem : Bool := false
  target : DWord := 0
  obj : Nat := 0
  startedAt : Nat := 0
  granted : Nat := 0
  borrowed : Nat := 0
  borrowing : Bool := false
  deadline : Option Nat := none
deriving DecidableEq, Repr

structure Que where
  err : ErrReg := {}
  lastRefusal : BitVec 8 := 0
  sh : Sh QueSh := .of {}
  res : Tab ResRo := []
  fq : Tab FqRo := []
  q : Tab QRo := []
  objs : Tab ObjTable := []
  waits : List SyncEntry := []
  heldOrder : Nat := 0
deriving DecidableEq, Repr

/-! ### Itlum: chapter 12 -/

/-- A long command that has answered IT_ACCEPTED (R392): its opcode, REQ_ID, CID, and what it acts on. -/
structure LongOp where
  op : Nat := 0
  reqId : Word := 0
  cid : Cid := 0
  key : Nat := 0
deriving DecidableEq, Repr

/-- The kept state of a requester (R392 to R394, R619). -/
structure Requester where
  path : Path
  keptId : Option Word := none
  kept : Bytes := []
  busy : Option ItlReq := none
  stageOp : Nat := 0
  stageCid : Cid := 0
  nextPart : Nat := 0
  staged : Bytes := []
  staging : Bool := false
  rspOp : Nat := 0
  rspCid : Cid := 0
  rspNext : Nat := 0
  rspRest : List Bytes := []
  longOp : Option LongOp := none
deriving DecidableEq, Repr

/-- A change that Itlum holds pending in the blocks until its boundary (R400), with what follows the boundary. -/
inductive Change
  | commitOnly
  | image (cid : Cid) (img : Image) (slot : Nat) (moved : List Resource) (first : Bool)
  | ctxLoad (cid : Cid) (ctx : Ctx) (res : Nat) (banks : List (Nat × Nat))
  | pairSwitch (half : Nat) (src dst : Nat) (cids : List Cid)
  | rowShift (half row : Nat) (failed : Nat) (cids : List Cid)
  | hole (half row : Nat) (failed : Nat) (cids : List Cid)
  | rebuilt (src dst : Nat) (cids : List Cid)
  | qRegister (entry : Nat)
  | qUnregister (entry : Nat)
  | fqSet (slot : Nat)
  | power
  | cadence
  | winSet (w : Nat)
  | winClear (w : Nat)
  | collSet (c : Nat)
  | collClear (c : Nat)
deriving DecidableEq, Repr

structure Held where
  path : Option Path := none
  req : Option ItlReq := none
  change : Change
  block : Nat := 0
deriving DecidableEq, Repr

/-- FW_QUERY state (R407), in code order. -/
inductive FwSt
  | idle | receiving | verified | trial | reverted
deriving DecidableEq, Repr

/-- A firmware image in a bank (R407, R574, R576): bytes written, its version and security version, whether its
signatures verify (a fact about the bytes that the RTP finds). -/
structure FwImage where
  present : Bool := false
  bytes : Tab Byte := []
  size : Nat := 0
  version : Word := 0
  rtpVersion : Word := 0
  svn : Nat := 0
  svnRtp : Nat := 0
  good : Bool := false
deriving DecidableEq, Repr

structure Itl where
  avail : Bool := false
  reqs : List Requester := []
  /-- The paths whose accepted request waits or runs, in the order accepted (R395). -/
  order : List Path := []
  held : Option Held := none
  fwSt : FwSt := .idle
  fwSize : Nat := 0
  fwUse : Bool := false
  fwConfirmed : Bool := false
  fwVerifying : Bool := false
  fwActivating : Bool := false
  trialPeriods : Nat := 0
  banks : Tab FwImage := []
  telDropped : DWord := 0
  internal : Word := 0
  /-- The tenants' figures at the last 100 ms boundary (R523, R524): per slot, and of power; readings since. -/
  tenant : Tab (List Nat) := []
  tenantPower : List Nat := []
  powerSum : List Nat := []
  powerCount : Nat := 0
deriving DecidableEq, Repr

/-! ### Scheduling: chapter 13 -/

/-- A reel entry (R431). -/
structure ReelEntry where
  valid : Bool := false
  lane : BitVec 2 := 0
  start : BitVec 20 := 0
deriving DecidableEq, Repr

structure SeqSh where
  sel : Bool := false
  fillDelay : BitVec 16 := 256
deriving DecidableEq, Repr

/-- A regulated queue (R421): a tile's mesh inbound, a pair's reads or writes, a port's receive side. -/
inductive RegQ
  | tile (t : Nat)
  | pairRead (p : Nat)
  | pairWrite (p : Nat)
  | port (p : Nat)
deriving DecidableEq, Repr

/-- A request that waits at its target's mesh stop (R175, R423, R478, R539): the queue, the packet, an atomic's
operation, what its line will read as, when it arrived. -/
structure RegWait where
  queue : RegQ
  pkt : Packet
  op : Option AtomicOp := none
  ecc : Ecc := .clean
  since : Nat := 0
deriving DecidableEq, Repr

structure Sched where
  err : ErrReg := {}
  lastRefusal : BitVec 8 := 0
  sh : Sh SeqSh := .of {}
  rssHoldoff : BitVec 8 := 4
  dlmiss : Tab Word := []
  reelA : Tab ReelEntry := [(0, ⟨true, 0, 0⟩)]
  reelB : Tab ReelEntry := []
  waits : List RegWait := []
  /-- The slot last admitted on a queue's shared path (R423). -/
  lastSlot : List (RegQ × Nat) := []
  /-- Of each resident entry (R426): its banks' PROGRESS at the last wrap, and the periods since one changed. -/
  rss : Tab (List Word × Nat) := []
  /-- Periods for which a composition's resident set has been stalled, and those already notified. -/
  rssHeld : Tab Nat := []
  rssSent : List Cid := []
  /-- The lanes occupied when Itlum last wrote the reel (R412). -/
  lanes : List Nat := []
  /-- Commands that ended with Q_NOT_RESIDENT (R426): composition, context, epoch. -/
  notRes : List (Cid × Ctx × Nat) := []
deriving DecidableEq, Repr

/-! ### Cadence and power: chapter 14 -/

/-- CAD_STATUS.STATE (R439, R466), in code order. -/
inductive CadSt
  | free | acquiring | locked | holdover | conflict
deriving DecidableEq, Repr

structure CadSh where
  mode : BitVec 2 := 0
  nominal : BitVec 20 := 50000
deriving DecidableEq, Repr

structure Cad where
  err : ErrReg := {}
  lastRefusal : BitVec 8 := 0
  sh : Sh CadSh := .of {}
  adoptLower : Bool := false
  st : CadSt := .free
  srcMains : Bool := false
  srcHold : Bool := false
  frameValid : Bool := false
  epoch : DWord := 0
  tick : BitVec 20 := 0
  periodNs : BitVec 30 := 20000000
  relock : BitVec 11 := 0
  phase : BitVec 21 := 0
  drift : Word := 0
  rejected : BitVec 16 := 0
  frameBad : BitVec 16 := 0
  steps : BitVec 16 := 0
  lockLosses : BitVec 16 := 0
  step : DWord := 0
  /-- Periods elapsed since power-up (R442). -/
  elapsed : Nat := 0
  /-- The last accepted marker interval in ns, 0 before the first (R438). -/
  interval : Nat := 0
  /-- Consecutive markers within 64 ticks, and beyond 1,024 (R439). -/
  good : Nat := 0
  far : Nat := 0
  /-- The phase error of a marker accepted in this period, for the correction at the wrap (R438). -/
  error : Option Int := none
  /-- The local epoch of the period that the last marker began (R441). -/
  markerEpoch : DWord := 0
  /-- A forward step for the next wrap; how far below the local epoch the last frame lay (R441). -/
  pendStep : Option Nat := none
  lower : Option Nat := none
  /-- A frame has set the epoch since the boundary last moved (R440). -/
  epochSet : Bool := false
  /-- Reference time of the last accepted frame (R466). -/
  frameAt : Nat := 0
deriving DecidableEq, Repr

/-- An actuator that a throttle limits (R447, R460). -/
inductive Actuator
  | clk | mem | link
deriving DecidableEq, Repr

/-- A limit on an actuator (R447, R448, R457, R461): reason, domain, location, the setting allowed. -/
structure Limit where
  act : Actuator
  reason : Nat := 0
  domain : Nat := 0
  location : Nat := 0
  setting : Nat := 0
deriving DecidableEq, Repr

/-- A throttle episode (R461). -/
structure Episode where
  number : Word := 0
  reason : Nat := 0
  domain : Nat := 0
  location : Nat := 0
  openEpoch : DWord := 0
  openTick : Nat := 0
  deepest : Nat := 0
  isOpen : Bool := false
  ticks : DWord := 0
deriving DecidableEq, Repr

structure PwrSh where
  ramp : Bool := true
  cap : BitVec 12 := 2800
  first : BitVec 2 := 0
  second : BitVec 2 := 1
  third : BitVec 2 := 2
  stagger : BitVec 16 := 0
  slew : BitVec 9 := 8
  balEn : Bool := true
  balFmt : BitVec 4 := 2
  vmode : Bool := false
deriving DecidableEq, Repr

/-- A half's compute rail (R445, R456): the clock step whose voltage it has or moves to, whether it has settled, trim
steps above the table after alarms, periods for which it is not trimmed down. -/
structure VoltSt where
  target : Nat := 16
  settled : Bool := true
  lift : Nat := 0
  noTrim : Nat := 0
deriving DecidableEq, Repr

/-- The power controller. Watts of PWR_ENV are held in sixteenths (R449). `parts`, `figs` and `span` are keyed 0 for the
tile clock, 1 + pair, 200 + port: settings in effect below the module's, settings that the deliverable figures count
(R463), settings held below unthrottled in this period, true where all of it. -/
structure Pwr where
  err : ErrReg := {}
  lastRefusal : BitVec 8 := 0
  sh : Sh PwrSh := .of {}
  vin : BitVec 16 := 0
  pin : BitVec 16 := 0
  pLink : BitVec 16 := 0
  pMem : BitVec 16 := 0
  pComp : BitVec 16 := 0
  pBase : BitVec 16 := 0
  clk : BitVec 5 := 16
  mem : BitVec 5 := 16
  link : BitVec 5 := 16
  parts : Tab Nat := []
  trimE : BitVec 5 := 0
  trimW : BitVec 5 := 0
  capEff : Nat := 44800
  ceil : Nat := 44800
  floor : Nat := 0
  ballastModule : DWord := 0
  epiNext : Word := 0
  limits : List Limit := []
  episodes : List Episode := []
  figs : Tab Nat := []
  span : Tab Bool := []
  volts : Tab VoltSt := []
  sensors : Tab Int := []
  /-- Sensors at or above their warning limit, and at or above their critical limit. -/
  warned : List Nat := []
  critical : List Nat := []
  /-- Picojoules not yet a whole microjoule, per slot, 512 for the module's account (R453). -/
  remainders : Tab Nat := []
  /-- The site operator has set STAGGER (R451). -/
  staggerSet : Bool := false
  /-- Cap unmet has been raised in this step interval (R447). -/
  unmet : Bool := false
  /-- The telemetry snapshot of power figures (R446): VIN, PIN, link, memory, compute, base. -/
  snap : List Nat := []
deriving DecidableEq, Repr

/-! ### Recovery: chapter 15 -/

/-- RECOVERY_QUERY state (R485), in code order. -/
inductive RecSt
  | normal | half | module | halted
deriving DecidableEq, Repr

/-- A row shift under way (R75, R77, R78). -/
structure RowShift where
  half : Nat := 0
  row : Nat := 0
  failed : Nat := 0
  skip : Nat := 0
  shellFailed : Bool := false
  opened : Bool := false
  copying : Bool := false
  /-- The copy has ended; the TIL_NBR commit is not prepared yet. -/
  copied : Bool := false
  cids : List Cid := []
deriving DecidableEq, Repr

/-- A tile under isolation (R74). -/
structure Isolation where
  tile : Nat := 0
  byRecover : Bool := false
  /-- REC_SEQ of the step (R483). -/
  seq : Word := 0
deriving DecidableEq, Repr

structure Rec where
  hangLimit : BitVec 11 := 16
  still : Tab Nat := []
  lastProgress : Tab Word := []
  lastRun : Tab DWord := []
  st : RecSt := .normal
  half : Nat := 0
  step : Nat := 0
  failedModule : Nat := 0
  /-- Half and module recoveries that have fallen due (R475), and whether RECOVER asked for them. -/
  pendingHalf : Option (Nat × Bool) := none
  pendingModule : Option Bool := none
  byRecover : Bool := false
  /-- Both halves have lost power since a trip (R459), and the contexts that held banks then: tile and bank. -/
  tripped : Bool := false
  tripCtxs : List (Cid × Ctx × Nat × Nat) := []
  seq : Word := 0
  stepSeq : Word := 0
  halfCount : BitVec 16 := 0
  moduleCount : BitVec 16 := 0
  lastMs : Word := 0
  lastEpoch : DWord := 0
  unavail : Tab DWord := []
  lostModule : Tab DWord := []
  isolations : List Isolation := []
  shifts : List RowShift := []
  /-- Holes whose bridle change of a composition Itlum has still to make (R77, R237). -/
  holes : List (Nat × Cid) := []
  /-- Compositions whose grace period has ended, their bridle change still to be made (R237, R249). -/
  expired : List Cid := []
  bgDeadlines : Tab DWord := []
  /-- Items that have reached a deadline in this period (R490). -/
  bgHit : List Nat := []
deriving DecidableEq, Repr

/-! ### Root of trust: chapter 16 -/

/-- A fuse array of OTP (R496). -/
structure Otp where
  serial : DWord := 0
  lc : BitVec 6 := 0
  /-- UDS_P is written, and at which draw of the DRBG. -/
  udsP : Bool := false
  udsDraw : Nat := 0
  udsKill : Bool := false
  roots : Tab (BitVec 384 × Bool) := []
  sites : Tab (BitVec 384) := []
  svnRtp : Nat := 0
  svnItl : Nat := 0
  trees : Nat := 0
deriving DecidableEq, Repr

/-- A key slot (R510). -/
structure KeySlot where
  valid : Bool := false
  bad : Bool := false
  usage : BitVec 4 := 0
  key : BitVec 256 := 0
deriving DecidableEq, Repr

/-- A secured SPDM session (R519). -/
structure Session where
  id : Nat := 0
  path : Path
  finished : Bool := false
  /-- The site operator's, with mutual authentication under the active SITE slot (R522). -/
  site : Bool := false
  updates : Nat := 0
  lastAt : Nat := 0
deriving DecidableEq, Repr

/-- An SPDM connection of a path (R519, R520): negotiation step reached, the next SIG_ID, kept signatures. -/
structure Conn where
  path : Path
  step : Nat := 0
  nextSig : Nat := 1
  sigs : List (Nat × Bytes) := []
deriving DecidableEq, Repr

structure Rot where
  err : ErrReg := {}
  otp : Otp := {}
  torn : Bool := false
  signReady : Bool := false
  pending : Bool := false
  exhausted : Bool := false
  holdupMs : BitVec 16 := 0
  slots : Tab KeySlot := []
  /-- SVNs of the running images, and FW_VERSION of the running RTP image (R528, R404). -/
  runRtp : BitVec 16 := 0
  runItl : BitVec 16 := 0
  rtpVersion : Word := 0
  /-- Measurements 2 and 3 of R521: the RTP and Itlum images that run. -/
  rtpMeas : BitVec 384 := 0
  itlMeas : BitVec 384 := 0
  tree : BitVec 12 := 0
  leaf : BitVec 20 := 0
  debugOpen : Bool := false
  debugRights : BitVec 3 := 0
  debugScope : BitVec 2 := 0
  debugLeft : BitVec 16 := 0
  nonce : Option (BitVec 256) := none
  draws : Nat := 0
  sessions : List Session := []
  conns : List Conn := []
  /-- A first-level tree is being generated, and one stands ready (R516). -/
  generating : Bool := false
  nextTree : Bool := false
  /-- The alias certificate of this power-up is still to be issued (R518). -/
  aliasDue : Bool := false
  /-- The life-cycle state decoded at power-up (R499). -/
  lcNow : BitVec 2 := 2
  testroot : Bool := false
  /-- A transition has completed since power-up (R503). -/
  transitioned : Bool := false
deriving DecidableEq, Repr

/-! ### Inline crypto: chapter 17 -/

/-- CRY_KID (R553). -/
structure Kid where
  st : BitVec 3 := 0
  usage : BitVec 4 := 0
  users : BitVec 25 := 0
deriving DecidableEq, Repr

/-- A region record of the crypto area (R536). -/
structure Region where
  wc : BitVec 46 := 0
  kid : BitVec 6 := 1
  re : Bool := false
  cursor : BitVec 11 := 0
  base : BitVec 46 := 0
  okid : BitVec 6 := 0
  obase : BitVec 46 := 0
  rmac : DWord := 0
  /-- Which derivation of KID 1 the region's keys are of (R515, R529). -/
  gen : Nat := 0
deriving DecidableEq, Repr

structure Cry where
  err : ErrReg := {}
  curMem : BitVec 6 := 1
  curLink : BitVec 6 := 0
  starved : Bool := false
  noKey : BitVec 16 := 0
  rmacFail : BitVec 16 := 0
  exhaust : BitVec 16 := 0
  waits : BitVec 16 := 0
  kids : Tab Kid := []
  regions : Tab Region := []
  prints : Tab DWord := []
  order : List Nat := []
  aged : Tab Bool := []
  /-- Slots whose key the engines of a half hold (R531): half × 64 + slot. -/
  loaded : Tab Bool := []
  gen1 : Nat := 0
  /-- Pairs whose region under scrub has re-encrypted during the pass (R544). -/
  scrubSkip : Tab Bool := []
deriving DecidableEq, Repr

/-! ### Events and the flight log: chapter 18 -/

/-- EVT_GRP and the group's delivery state (R561, R566). -/
structure Grp where
  cmask : BitVec 8 := 0
  prio : BitVec 3 := 4
  log : Bool := true
  holdoff : BitVec 16 := 0
  delivered : BitVec 16 := 0
  due : Bool := false
  running : Bool := false
deriving DecidableEq, Repr

/-- EVT_SRC (R566). -/
structure Src where
  seq : Word := 0
  pend : Bool := false
  inServ : Bool := false
  raw : Bool := false
  alatch : Bool := false
  claimer : BitVec 4 := 0
  mode : BitVec 2 := 0
  en : Bool := true
  merged : BitVec 12 := 0
deriving DecidableEq, Repr

structure Evt where
  err : ErrReg := {}
  seq : Word := 0
  grps : Tab Grp := []
  srcs : Tab Src := []
  coreReq : BitVec 8 := 0
  clockOn : Bool := false
deriving DecidableEq, Repr

/-- A sector of the flight log (R567, R571): `erased` while nothing has been written since its erasure. -/
structure Sector where
  erased : Bool := true
  failed : Bool := false
  slots : List Bytes := []
deriving DecidableEq, Repr

structure Flog where
  err : ErrReg := {}
  buffer : List Bytes := []
  sectors : Tab Sector := []
  writing : Nat := 0
  next : Word := 0
  dropped : Word := 0
  lossPending : Nat := 0
  pcycle : Word := 0
  opsec : BitVec 40 := 0
  sinceRecord : Nat := 0
  eraseFailed : Bool := false
deriving DecidableEq, Repr

/-! ### Bring-up: chapters 19 and 20 -/

/-- How far power-up has come (R578, R579). -/
inductive PowerSt
  | off | sequencing | early | full | tripped | inputFault | loader
deriving DecidableEq, Repr

/-- A settings-store copy (R575). -/
structure Settings where
  valid : Bool := false
  seq : Word := 0
  confirmed : Bool := false
  cad : CadSh := {}
  pwr : PwrSh := {}
deriving DecidableEq, Repr

/-- A tile's self-test results (R581, R583, R585): none, passed, failed for shell, BF16 and narrow formats. -/
structure SelfTest where
  shell : Option Bool := none
  bf16 : Option Bool := none
  narrow : Option Bool := none
deriving DecidableEq, Repr

/-- The module is an SKV-A1-1536-L (R1; DESIGN CHOICE, log entry 9): no command sets `part`. -/
structure Boot where
  part : Part := .l1536
  power : PowerSt := .off
  step : Nat := 0
  service : BitVec 2 := 0
  earlyHalf : Bool := false
  settings : Tab Settings := []
  /-- The settings store has been written in this period; a later write waits for the next (R491, R575). -/
  settingsDone : Bool := false
  settingsDue : Bool := false
  tests : Tab SelfTest := []
  tetherInv : Bool := false
  /-- The SMBus has timed out and has not been idle since (R591). -/
  smbusDown : Bool := false
  mrstShorts : Word := 0
  smbusTimeouts : Word := 0
  tetherReversals : Word := 0
  mateOpen : Bool := false
  strap : BitVec 3 := 0
  /-- Module reference time since power-up, in 2^−20 ns (R524). -/
  refTime : Nat := 0
deriving DecidableEq, Repr

/-! ### What the module shows its surroundings -/

/-- What a request to host memory carries: its PASID, whether its address was translated, the T bit (R340), Relaxed
Ordering (R325). -/
structure Tlp where
  pasid : Option (BitVec 20) := none
  translated : Bool := false
  tbit : Bool := false
  relaxed : Bool := false
deriving DecidableEq, Repr

/-- One thing the module emits; the outbox lists them in the order emitted. -/
inductive Msg
  /-- A mesh packet from its source stop (R140). -/
  | mesh (p : Packet)
  /-- A barrier release multicast from the home (R146). -/
  | release (home : Nat) (obj : Nat) (gen : Word) (members : Line)
  /-- A neighbour-link sideband word of a tile's port: pairing, credits, or a beat (R131). -/
  | sideband (tile port : Nat) (w : Sideband)
  /-- A fabric packet handed to a port's link (R296). -/
  | fabric (port : Nat) (p : FabPacket)
  /-- What an event of a source carries: CID, COLL_ID and GEN (R315); the cause of a refused BAR2 access, by its place in
  the list of R336; FLOOR and the interval's average, in W (R454). -/
  | event (source : Nat) (facts : List Nat)
  /-- A link frame sent (R262), and its message bytes. -/
  | frame (port : Nat) (replay nak : Bool) (seq ack : Nat) (credits : Word) (slots : List (Nat × Flit))
      (ctrl : List CtrlMsg) (message : Bytes)
  /-- A write to host memory on a function (R329, R376). -/
  | hostWrite (hport func : Nat) (attr : Tlp) (addr : DWord) (data : Bytes)
  /-- A read of host memory. -/
  | hostRead (hport func : Nat) (attr : Tlp) (tag : Nat) (addr : DWord)
  /-- A Translation Request for a page of a function's host (R331). -/
  | translate (hport func tag : Nat) (pasid : BitVec 20) (page : Nat)
  /-- An Uncorrectable Internal Error, non-fatal, of a port's PF (R343). -/
  | aer (hport : Nat)
  /-- An atomic on host memory. -/
  | hostAtomic (hport func : Nat) (tag : Nat) (addr : DWord) (operand : BitVec 128)
  /-- A completion of a host's read (R336, R589). -/
  | hostCompletion (hport func : Nat) (tag : Nat) (status : Nat) (data : Bytes)
  /-- An MSI-X message of a function (R332). -/
  | msix (hport func : Nat) (vector : Nat)
  /-- A PCIe Page Request (R205). -/
  | pageRequest (hport func : Nat) (pasid : BitVec 20) (page : Nat) (rd wr : Bool) (prgi : Nat)
  /-- An ATS message of a function (R331). -/
  | atsCompletion (hport func : Nat) (itag : Nat)
  /-- An Itlum response or notification on a path other than a mailbox (R384, R392). -/
  | itlum (path : Path) (m : Bytes)
  /-- A response of the RTP over SPDM (R519). -/
  | spdm (path : Path) (m : SpdmRsp)
  /-- A PCIe IDE_KM response over DOE (R338). -/
  | ideKm (hport : Nat) (m : Nat)
  /-- A core's interrupt request raised (R561). -/
  | coreIrq (core : Nat)
  /-- A claim read's answer (R559). -/
  | claim (target : Nat) (source : BitVec 10)
  /-- A TDISP response (R339). -/
  | tdisp (hport func : Nat) (ok : Bool)
deriving DecidableEq, Repr

/-! ### The state -/

/-- The whole module (block): `pending` is the queue of waiting commands, first in first out; `out` what the module
has emitted; `mem` the bytes of bonded SRAM and LPDDR5X by physical key (R150, R166), unlisted bytes zero; `fresh`
counts the free values the spec leaves open. -/
structure State where
  pending : List Instr
  out : List Msg
  mem : List Host.Cell
  fresh : Nat
  /-- Low words written to 64-bit registers whose high word is still to come (R13), by `holdKey`. -/
  lowHeld : Tab Word
  /-- High words latched by a read of the low word of a 64-bit register (R13), by `holdKey`. -/
  highLatch : Tab Word
  tiles : Tab Tile
  /-- TIL_CYCLE.COUNT of each half's clock (R65). -/
  cycles : Tab (BitVec 48)
  mesh : Mesh
  lp : Mem
  xlt : Xlt
  brd : Brd
  lnk : Tab LinkPort
  fab : Fab
  hst : Hst
  que : Que
  itl : Itl
  sched : Sched
  cad : Cad
  pwr : Pwr
  rcv : Rec
  rot : Rot
  cry : Cry
  evt : Evt
  flog : Flog
  boot : Boot
deriving DecidableEq, Repr

/-! ### Why a step stops -/

/-- The reasons a step can end in a fault. -/
inductive Fault
  /-- Raised by no command: every command the spec gives an effect has one (safe). -/
  | never
deriving DecidableEq, Repr

/-- The reasons a step can be refused. -/
inductive Refusal
  /-- A command that has no meaning yet; raised by a dispatch arm that rejects it by name (safe). -/
  | notModelled (mnemonic : String)
deriving DecidableEq, Repr

/-! ### Reading the tables: what an unlisted key holds after reset -/

/-- A tile after reset: its test spare is column 16 of each row (log entry 2), the other columns in the grid (R616). -/
def Tile.reset (k : Nat) : Tile :=
  if k % 17 = 16 then { role := .spare, lcol := 0x1F, nbr := .of { nbr := { bypass := true } } }
  else { lcol := BitVec.ofNat 5 (k % 17) }

def State.tile (s : State) (t : Nat) : Tile := Tab.get Tile.reset s.tiles t
def Tile.bank (t : Tile) (b : Nat) : Bank := Tab.get (fun _ => {}) t.banks b
def Tile.chan (t : Tile) (c : Nat) : Chan := Tab.get (fun _ => {}) t.chans c
def State.port (s : State) (p : Nat) : LinkPort := Tab.get (fun _ => {}) s.lnk p
def State.pair (s : State) (p : Nat) : Pair := Tab.get (fun _ => {}) s.lp.pairs p

/-- The default MODE of a source (R555). -/
def Src.reset (k : Nat) : Src := { mode := if 544 ≤ k && k < 928 then 1 else 0 }

/-- A firmware image of the release that a module ships with (R615; log entry 9). -/
def FwImage.shipped : FwImage :=
  { present := true, size := 0x200000, version := 1, rtpVersion := 1, svn := 0, svnRtp := 0, good := true }
/-- The fuses of a module as shipped (R615): PRODUCTION, one root pair, no SITE slot (log entry 9). -/
def Otp.shipped : Otp := { serial := 1, lc := 0x0F, udsP := true, roots := [(0, (1, false))] }

/-- The machine after reset: as shipped, no input yet (R578, R615), every register at its reset value. -/
def State.reset : State where
  pending := []
  out := []
  mem := []
  fresh := 0
  lowHeld := []
  highLatch := []
  tiles := []
  cycles := []
  mesh := {}
  lp := {}
  xlt := {}
  brd := {}
  lnk := []
  fab := {}
  hst := {}
  que := {}
  itl := { banks := [(0, FwImage.shipped), (1, FwImage.shipped)] }
  sched := {}
  cad := {}
  pwr := {}
  rcv := {}
  rot := { otp := Otp.shipped }
  cry := {}
  evt := {}
  flog := {}
  boot := {}

end Sys2Proof.Machine
end

