-- ==== Sys2Proof/Machine/Ops.lean ====
section
/-! DEFINITION. The named operations every family uses: reading and changing one block of State, the memory bytes and
lines, free values, cadence time, the outbox, the CRC-32C of messages and records, and who holds a composition. -/

namespace Sys2Proof.Machine

/-- What a meaning answers. -/
abbrev Out := Host.Outcome State Fault Refusal

/-! ### Changing one place of State -/

def State.emit (s : State) (m : Msg) : State := { s with out := s.out ++ [m] }
def State.modTile (s : State) (t : Nat) (f : Tile → Tile) : State :=
  { s with tiles := Tab.insert s.tiles t (f (s.tile t)) }
def Tile.modBank (t : Tile) (b : Nat) (f : Bank → Bank) : Tile := { t with banks := Tab.insert t.banks b (f (t.bank b)) }
def Tile.modChan (t : Tile) (c : Nat) (f : Chan → Chan) : Tile := { t with chans := Tab.insert t.chans c (f (t.chan c)) }
def State.bank (s : State) (t b : Nat) : Bank := (s.tile t).bank b
def State.chan (s : State) (t c : Nat) : Chan := (s.tile t).chan c
def State.modBank (s : State) (t b : Nat) (f : Bank → Bank) : State := s.modTile t fun x => x.modBank b f
def State.modChan (s : State) (t c : Nat) (f : Chan → Chan) : State := s.modTile t fun x => x.modChan c f
def State.modSrm (s : State) (t : Nat) (f : Srm → Srm) : State := s.modTile t fun x => { x with srm := f x.srm }
def State.modPort (s : State) (p : Nat) (f : LinkPort → LinkPort) : State :=
  { s with lnk := Tab.insert s.lnk p (f (s.port p)) }
def State.modPair (s : State) (p : Nat) (f : Pair → Pair) : State :=
  { s with lp := { s.lp with pairs := Tab.insert s.lp.pairs p (f (s.pair p)) } }
def State.modLp (s : State) (f : Mem → Mem) : State := { s with lp := f s.lp }
def State.modXlt (s : State) (f : Xlt → Xlt) : State := { s with xlt := f s.xlt }
def State.modBrd (s : State) (f : Brd → Brd) : State := { s with brd := f s.brd }
def State.modFab (s : State) (f : Fab → Fab) : State := { s with fab := f s.fab }
def State.modHst (s : State) (f : Hst → Hst) : State := { s with hst := f s.hst }
def State.modQue (s : State) (f : Que → Que) : State := { s with que := f s.que }
def State.modItl (s : State) (f : Itl → Itl) : State := { s with itl := f s.itl }
def State.modSched (s : State) (f : Sched → Sched) : State := { s with sched := f s.sched }
def State.modCad (s : State) (f : Cad → Cad) : State := { s with cad := f s.cad }
def State.modPwr (s : State) (f : Pwr → Pwr) : State := { s with pwr := f s.pwr }
def State.modRcv (s : State) (f : Rec → Rec) : State := { s with rcv := f s.rcv }
def State.modRot (s : State) (f : Rot → Rot) : State := { s with rot := f s.rot }
def State.modCry (s : State) (f : Cry → Cry) : State := { s with cry := f s.cry }
def State.modEvt (s : State) (f : Evt → Evt) : State := { s with evt := f s.evt }
def State.modFlog (s : State) (f : Flog → Flog) : State := { s with flog := f s.flog }
def State.modBoot (s : State) (f : Boot → Boot) : State := { s with boot := f s.boot }
def State.modMesh (s : State) (f : Mesh → Mesh) : State := { s with mesh := f s.mesh }

/-- The key of function `f` of host port `h` (R327). -/
def funcKey (h f : Nat) : Nat := h * 257 + f
def State.func (s : State) (h f : Nat) : Func := Tab.get (fun _ => {}) s.hst.funcs (funcKey h f)
def State.modFunc (s : State) (h f : Nat) (g : Func → Func) : State :=
  s.modHst fun x => { x with funcs := Tab.insert x.funcs (funcKey h f) (g (s.func h f)) }
def State.hport (s : State) (h : Nat) : HPort := Tab.get (fun _ => {}) s.hst.ports h
def State.modHPort (s : State) (h : Nat) (g : HPort → HPort) : State :=
  s.modHst fun x => { x with ports := Tab.insert x.ports h (g (s.hport h)) }

/-- A change made for each element of a list, in order. -/
def State.each {α : Type} (s : State) (l : List α) (f : State → α → State) : State := l.foldl f s
/-- A change made only where `c` holds. -/
def State.when (s : State) (c : Bool) (f : State → State) : State := if c then f s else s

/-- A free value, and the state whose counter has moved past it (log entry 11). -/
def State.freeWord (s : State) : DWord × State := (Config.freeValue s.fresh, { s with fresh := s.fresh + 1 })

/-! ### Entries of the tables, with what an unlisted key reads as -/

def State.gran (s : State) (t g : Nat) : Owner := Tab.get (fun _ => {}) (s.tile t).srm.sh.act.gran g
def State.share (s : State) (t b : Nat) : Share := Tab.get (fun _ => {}) (s.tile t).srm.sh.act.share b
def State.igrp (s : State) (i : Nat) : Igrp := Tab.get (fun _ => {}) s.lp.sh.act.igrp i
/-- MEM_PAIR_MAP (R188): a logical pair's physical pair; each names itself after reset. -/
def MemSh.phys (m : MemSh) (p : Nat) : BitVec 8 := Tab.get (fun k => BitVec.ofNat 8 k) m.pairMap p
def State.phys (s : State) (p : Nat) : Nat := (s.lp.sh.act.phys p).toNat
def State.unitOwner (s : State) (u : Nat) : Owner := Tab.get (fun _ => {}) s.xlt.sh.act.own u
def State.ctab (s : State) (slot : Nat) : Ctab := Tab.get (fun _ => {}) s.xlt.sh.act.ctab slot
def State.slotE (s : State) (slot : Nat) : Bool × Cid := Tab.get (fun _ => (false, 0)) s.brd.sh.act.slots slot
def State.fence (s : State) (slot : Nat) : FenceSt := Tab.get (fun _ => {}) s.brd.fences slot
def State.modFence (s : State) (slot : Nat) (f : FenceSt → FenceSt) : State :=
  s.modBrd fun b => { b with fences := Tab.insert b.fences slot (f (s.fence slot)) }
/-- BRD_SRAM_REDIR (R259): each tile names itself after reset. -/
def BrdSh.redirOf (b : BrdSh) (t : Nat) : Nat := (Tab.get (fun k => BitVec.ofNat 10 k) b.redir t).toNat
def State.epochOf (s : State) (slot : Nat) : Word := Tab.get (fun _ => 0) s.brd.epochs slot
def State.lease (s : State) (cid : Cid) : Lease := Tab.get (fun _ => {}) s.brd.leases cid.toNat
def State.modLease (s : State) (cid : Cid) (f : Lease → Lease) : State :=
  s.modBrd fun b => { b with leases := Tab.insert b.leases cid.toNat (f (s.lease cid)) }
def State.image (s : State) (cid : Cid) : Image := Tab.get (fun _ => {}) s.brd.images cid.toNat
def State.moveH (s : State) (h : Nat) : Move := Tab.get (fun _ => {}) s.brd.moves h
def State.modMove (s : State) (h : Nat) (f : Move → Move) : State :=
  s.modBrd fun b => { b with moves := Tab.insert b.moves h (f (s.moveH h)) }
def State.resSh (s : State) (r : Nat) : ResSh := Tab.get (fun _ => {}) s.que.sh.act.res r
def State.resRo (s : State) (r : Nat) : ResRo := Tab.get (fun _ => {}) s.que.res r
def State.modRes (s : State) (r : Nat) (f : ResRo → ResRo) : State :=
  s.modQue fun q => { q with res := Tab.insert q.res r (f (s.resRo r)) }
def State.fqSh (s : State) (slot : Nat) : FqSh := Tab.get (fun _ => {}) s.que.sh.act.fq slot
def State.fqRo (s : State) (slot : Nat) : FqRo := Tab.get (fun _ => {}) s.que.fq slot
def State.modFq (s : State) (slot : Nat) (f : FqRo → FqRo) : State :=
  s.modQue fun q => { q with fq := Tab.insert q.fq slot (f (s.fqRo slot)) }
def State.qSh (s : State) (e : Nat) : QSh := Tab.get (fun _ => {}) s.que.sh.act.q e
def State.qRo (s : State) (e : Nat) : QRo := Tab.get (fun _ => {}) s.que.q e
def State.modQ (s : State) (e : Nat) (f : QRo → QRo) : State :=
  s.modQue fun q => { q with q := Tab.insert q.q e (f (s.qRo e)) }
def State.win (s : State) (w : Nat) : Win := Tab.get (fun _ => {}) s.fab.sh.act.win w
def State.route (s : State) (m : Nat) : Route := Tab.get (fun _ => {}) s.fab.sh.act.route m
def State.collSh (s : State) (c : Nat) : CollSh := Tab.get (fun _ => {}) s.fab.sh.act.coll c
def State.collRun (s : State) (c : Nat) : CollRun := Tab.get (fun _ => {}) s.fab.colls c
def State.modColl (s : State) (c : Nat) (f : CollRun → CollRun) : State :=
  s.modFab fun x => { x with colls := Tab.insert x.colls c (f (s.collRun c)) }
def State.kid (s : State) (k : Nat) : Kid := Tab.get (fun _ => {}) s.cry.kids k
def State.modKid (s : State) (k : Nat) (f : Kid → Kid) : State :=
  s.modCry fun c => { c with kids := Tab.insert c.kids k (f (s.kid k)) }
def State.keySlot (s : State) (k : Nat) : KeySlot := Tab.get (fun _ => {}) s.rot.slots k

/-! ### Time -/

/-- Ticks elapsed since power-up (R7, R442): an epoch step changes none of the durations counted in them. -/
def State.now (s : State) : Nat := s.cad.elapsed * 2 ^ 20 + s.cad.tick.toNat
/-- The cadence epoch of a time given in elapsed ticks (R442): stored times move with a step. -/
def State.epochAt (s : State) (t : Nat) : Nat := s.cad.epoch.toNat + t / 2 ^ 20 - s.cad.elapsed
/-- Ticks of one cadence period (R7). -/
def period : Nat := 2 ^ 20
/-- The ticks that start within `ns` nanoseconds at the present rate, rounded up (R7). -/
def State.ticksOf (s : State) (ns : Nat) : Nat := (ns * period + s.cad.periodNs.toNat - 1) / max s.cad.periodNs.toNat 1

/-! ### Error registers -/

def ErrReg.refuse (e : ErrReg) : ErrReg := { e with order := satInc e.order }
def ErrReg.reserved (e : ErrReg) : ErrReg := { e with rsvd := satInc e.rsvd }
def ErrReg.word (e : ErrReg) : Word := put 32 24 e.order ||| put 32 0 e.rsvd

/-! ### Memory bytes (R8, R150, R166) -/

/-- What a byte that nothing has written reads as (log entry 1). -/
def memDefault : Nat → Byte := fun _ => 0
/-- The memory's canonical form: keys strictly rising, no byte that equals what an unlisted one reads as. -/
def Memory.wf (m : List Host.Cell) : Bool := Tab.wf memDefault m
def Memory.read (m : List Host.Cell) (a : Nat) : Byte := Tab.get memDefault m a
def Memory.write (m : List Host.Cell) (a : Nat) (b : Byte) : List Host.Cell := Tab.set memDefault m a b
def Memory.writes (m : List Host.Cell) (a : Nat) : Bytes → List Host.Cell
  | [] => m
  | b :: t => Memory.writes (Memory.write m a b) (a + 1) t
/-- Bytes [a, a + n) become what nothing has written. -/
def Memory.clear (m : List Host.Cell) (a n : Nat) : List Host.Cell := m.filter fun c => decide (c.1 < a ∨ a + n ≤ c.1)
/-- The listed bytes of [a, a + n). -/
def Memory.window (m : List Host.Cell) (a n : Nat) : List Host.Cell := m.filter fun c => decide (a ≤ c.1 ∧ c.1 < a + n)
/-- Bytes [b, b + n) become those of [a, a + n). -/
def Memory.copy (m : List Host.Cell) (a b n : Nat) : List Host.Cell :=
  (Memory.window m a n).foldl (fun acc c => Memory.write acc (b + (c.1 - a)) c.2) (Memory.clear m b n)

def State.byte (s : State) (a : Nat) : Byte := Memory.read s.mem a
def State.bytesAt (s : State) (a n : Nat) : Bytes := (List.range n).map fun i => s.byte (a + i)
def State.wordAt (s : State) (a n : Nat) : Nat := leNat (s.bytesAt a n)
def State.store (s : State) (a : Nat) (b : Bytes) : State := { s with mem := Memory.writes s.mem a b }
def State.clearMem (s : State) (a n : Nat) : State := { s with mem := Memory.clear s.mem a n }
def State.copyMem (s : State) (a b n : Nat) : State := { s with mem := Memory.copy s.mem a b n }
/-- The 64-byte line at byte key `a`. -/
def State.line (s : State) (a : Nat) : Line := Line.ofBytes (s.bytesAt a 64)
def State.storeLine (s : State) (a : Nat) (l : Line) : State := s.store a (Line.bytes l)

/-- The byte key of offset `o` in the SRAM of physical tile `t` (R150, log entry 3). -/
def sramKey (t o : Nat) : Nat := 0x3F0000000000 + t * 2 ^ 25 + o
/-- The byte key of byte `o` of a physical pair (R166, log entry 3). -/
def pairKey (p o : Nat) : Nat := p * 2 ^ 33 + o

/-! ### CRC-32C (R390, R569, R575) -/

def crcStep (c : Nat) : Nat := if c % 2 = 1 then Nat.xor (c / 2) 0x82F63B78 else c / 2
def crcByte (c : Nat) (b : Byte) : Nat :=
  crcStep (crcStep (crcStep (crcStep (crcStep (crcStep (crcStep (crcStep (Nat.xor c b.toNat))))))))
/-- The CRC-32C (Castagnoli, reflected, initial and final value all ones) of bytes. -/
def crc32c (bs : Bytes) : Nat := Nat.xor (bs.foldl crcByte 0xFFFFFFFF) 0xFFFFFFFF

/-! ### Whose composition, whose context -/

/-- The slot that holds a CID (R224, R258). -/
def State.slotOf (s : State) (cid : Cid) : Option Nat :=
  (s.brd.sh.act.slots.find? fun e => e.2.1 && decide (e.2.2 = cid)).map (·.1)
/-- The bridle epoch of a composition; 0 where no slot holds it. -/
def State.epochOfCid (s : State) (cid : Cid) : Word := match s.slotOf cid with | some k => s.epochOf k | none => 0
/-- The resident-table entry of a context (R351). -/
def State.resOf (s : State) (cid : Cid) (ctx : Ctx) : Option Nat :=
  (s.que.sh.act.res.find? fun e => e.2.valid && decide (e.2.cid = cid) && decide (e.2.ctx = ctx)).map (·.1)
/-- The function that a composition's host requests go out on: its first bound one (R329, log entry 20). -/
def State.boundFunc (s : State) (cid : Cid) : Option (Nat × Nat) :=
  (s.hst.funcs.find? fun e => e.2.bound && decide (e.2.cid = cid)).map fun e => (e.1 / 257, e.1 % 257)
/-- Whether a host port can carry a host request (R330, R341). -/
def State.portUp (s : State) (h : Nat) : Bool := decide ((s.hport h).st = .up)
/-- The module number of FAB_ID (R287). -/
def State.module (s : State) : BitVec 14 := s.fab.sh.act.id.module
/-- The tile that serves a logical column of a row of a half (R616), if one does. -/
def State.tileAt (s : State) (half row lcol : Nat) : Option Nat :=
  (List.range 17).findSome? fun c =>
    let k := half * 272 + row * 17 + c
    let t := s.tile k
    if t.role = .grid ∧ t.lcol.toNat = lcol then some k else none
/-- The physical tile of logical tile `l` = half × 256 + row × 16 + column (R226). -/
def State.physTile (s : State) (l : Nat) : Option Nat := s.tileAt (l / 256) (l % 256 / 16) (l % 16)
/-- The logical tile that a physical tile serves. -/
def State.logTile (s : State) (t : Nat) : Option Nat :=
  let x := s.tile t
  if x.role = .grid then some (t / 272 * 256 + t % 272 / 17 * 16 + x.lcol.toNat) else none
/-- All tile indices (R59). -/
def allTiles : List Nat := List.range 544
/-- The tiles of a half. -/
def halfTiles (h : Nat) : List Nat := (List.range 272).map (· + h * 272)

end Sys2Proof.Machine
end

