-- ==== Sys2Proof/Machine/Report.lean ====
section
/-! DEFINITION. How the module tells of what happened: the event controller (R555 to R564), the flight log
(R567 to R571), MSI-X messages (R332), Itlum notifications (R396, R397), and fault-queue records (R376 to R379,
R482, R483). -/

namespace Sys2Proof.Machine

/-! ### The flight log -/

/-- A flight-log record (R569), closed by its CRC. `data` is the 28 bytes of R570. -/
def State.logRecord (s : State) (seq : Word) (cls source : Nat) (cid : Cid) (data : Bytes) : Bytes :=
  let body := toBytes 4 seq.toNat ++ toBytes 1 cls ++ [0] ++ toBytes 2 source ++
    toBytes 8 (s.flog.opsec.toNat + s.cad.tick.toNat * 2 ^ 44) ++ toBytes 4 s.flog.pcycle.toNat ++ toBytes 2 cid.toNat ++
    toBytes 2 s.module.toNat ++ toBytes 8 s.cad.epoch.toNat ++ (data ++ List.replicate 28 0).take 28
  body ++ toBytes 4 (crc32c body)

/-- Append a record to the buffer (R568). -/
def State.logAppend (s : State) (cls source : Nat) (cid : Cid) (data : Bytes) : State :=
  s.modFlog fun l => { l with
    buffer := l.buffer ++ [s.logRecord l.next cls source cid data], next := l.next + 1, sinceRecord := 0 }

/-- Records enter the buffer of 256 (R491); one that finds it full is dropped and counted, and the next record written
is a LOG_LOSS record. Answers whether this one was dropped. -/
def State.logPush (s : State) (cls source : Nat) (cid : Cid) (data : Bytes) : State × Bool :=
  if 256 ≤ s.flog.buffer.length then
    (s.modFlog fun l => { l with dropped := satInc l.dropped, lossPending := l.lossPending + 1 }, true)
  else
    let s := if s.flog.lossPending = 0 then s else
      (s.logAppend 0x0D 0xFFFF 0 (toBytes 8 (s.flog.lossPending + (if s.flog.eraseFailed then 2 ^ 32 else 0)))).modFlog
        fun l => { l with lossPending := 0 }
    if 256 ≤ s.flog.buffer.length then
      (s.modFlog fun l => { l with dropped := satInc l.dropped, lossPending := l.lossPending + 1 }, true)
    else (s.logAppend cls source cid data, false)

/-! ### The event controller -/

/-- Whether the table of R555 assigns the source. -/
def assigned (src : Nat) : Bool :=
  decide (src < 832) || (832 ≤ src && src ≤ 843) || (848 ≤ src && src ≤ 856) || (864 ≤ src && src ≤ 870) ||
  (880 ≤ src && src ≤ 889) || (896 ≤ src && src ≤ 903) || (912 ≤ src && src ≤ 914)

def State.src (s : State) (k : Nat) : Src := Tab.get Src.reset s.evt.srcs k
def State.grp (s : State) (g : Nat) : Grp := Tab.get (fun _ => {}) s.evt.grps g
def State.modSrc (s : State) (k : Nat) (f : Src → Src) : State :=
  s.modEvt fun e => { e with srcs := Tab.insert e.srcs k (f (s.src k)) }
def State.modGrp (s : State) (g : Nat) (f : Grp → Grp) : State :=
  s.modEvt fun e => { e with grps := Tab.insert e.grps g (f (s.grp g)) }

/-- The MSI-X table size of a function (R325). -/
def msixSize (f : Nat) : Nat := if f = 0 then 1024 else 4

/-- Send an MSI-X message of a function (R332): masked vectors pend. -/
def State.msix (s : State) (h f v : Nat) : State :=
  let x := s.func h f
  let e := Tab.get (fun _ => ({} : Msix)) x.msix v
  if msixSize f ≤ v ∨ x.msixEn = false then s
  else if e.mask then s.modFunc h f fun x => { x with msix := Tab.insert x.msix v { e with pend := true } }
  else s.emit (.msix h f v)

/-- Whether group `g` lies in target `t`'s mask (R559): cores 0 to 7, PFs of port 0 and 1 as 8 and 9. -/
def State.inMask (s : State) (t g : Nat) : Bool :=
  if t < 8 then (s.grp g).cmask.getLsbD t
  else (s.func (t - 8) 0).hcfgEn && decide (52 ≤ g) && (s.func (t - 8) 0).hmask.getLsbD (g - 52)

/-- Whether target `t` can claim source `k` (R559). -/
def State.claimable (s : State) (t k : Nat) : Bool := (s.src k).pend && !(s.src k).inServ && s.inMask t (k / 16)

/-- Whether a group holds a source claimable by some target. -/
def State.grpClaimable (s : State) (g : Nat) : Bool :=
  (List.range 16).any fun i => (List.range 10).any fun t => s.claimable t (g * 16 + i)

/-- A group delivers when its conditions hold (R561). -/
def State.deliver (s : State) (g : Nat) : State :=
  let x := s.grp g
  if !(x.due && !x.running && s.grpClaimable g) then s else
    let s := s.modGrp g fun x => { x with due := false, delivered := x.delivered + 1, running := decide (x.holdoff ≠ 0) }
    let s := s.each ((List.range 8).filter fun c => x.cmask.getLsbD c) fun s c =>
      (s.modEvt fun e => { e with coreReq := setBit e.coreReq c true }).emit (.coreIrq c)
    s.each ((List.range 2).filter fun h => s.inMask (8 + h) g) fun s h => s.msix h 0 (s.func h 0).hcfgVec.toNat

/-- A source's PEND goes from 0 to 1 (R557, R561, R568): `log` writes the EVENT record. -/
def State.pendSet (s : State) (k : Nat) (log : State → State) : State :=
  let n := s.evt.seq + 1
  let s := s.modEvt fun e => { e with seq := n }
  let s := s.modSrc k fun x => { x with pend := true, seq := n }
  let s := s.modGrp (k / 16) fun g => { g with due := true }
  let s := s.when (s.grp (k / 16)).log log
  s.deliver (k / 16)

/-- A signal level reaches a source (R557, R558). -/
def State.edgeWith (s : State) (k : Nat) (level : Bool) (log : State → State) : State :=
  if !assigned k then s else
  let x := s.src k
  let active := (x.mode = 1 && !x.raw && level) || (x.mode = 2 && x.raw && !level) || (x.mode = 3 && x.raw != level)
  if !s.evt.clockOn then
    -- the latch catches the active edge; RAW holds its last synchronised value
    if !active || !x.en then s
    else if x.alatch then s.modSrc k fun x => { x with merged := satInc x.merged }
    else s.modSrc k fun x => { x with alatch := true }
  else
    let s := s.modSrc k fun x => { x with raw := level }
    if !x.en then s
    else if x.mode = 0 then
      if x.inServ then s
      else if level && !x.pend then s.pendSet k log
      else if !level then s.modSrc k fun x => { x with pend := false }
      else s
    else if active then
      if x.pend || x.inServ then s.modSrc k fun x => { x with merged := satInc x.merged } else s.pendSet k log
    else s

/-- The EVENT record of a pending transition (R570). -/
def State.eventData (s : State) (k : Nat) : Bytes := toBytes 4 (s.src k).seq.toNat ++ toBytes 2 (s.src k).merged.toNat

/-- Source 912 pends for a dropped record; its own EVENT record, dropped in turn, merges. -/
def State.pulse912 (s : State) : State :=
  let one (s : State) (level : Bool) : State := s.edgeWith 912 level fun s =>
    let r := s.logPush 0x03 912 0 (s.eventData 912)
    if r.2 then r.1.modSrc 912 fun x => { x with merged := satInc x.merged } else r.1
  one (one s true) false

/-- Write a flight-log record (R568). -/
def State.log (s : State) (cls source : Nat) (cid : Cid) (data : Bytes) : State :=
  let r := s.logPush cls source cid data
  if r.2 then r.1.pulse912 else r.1

/-- A signal level reaches a source, with its EVENT record where the group logs. -/
def State.edge (s : State) (k : Nat) (level : Bool) : State :=
  s.edgeWith k level fun s => s.log 0x03 k 0 (s.eventData k)

/-- A pulse of a source: high for one cycle (R555). -/
def State.pulse (s : State) (k : Nat) : State := (s.edge k true).edge k false

/-- The service of a source ends (R560): a level source whose signal is high pends again. -/
def State.endService (s : State) (k : Nat) : State :=
  let s := s.modSrc k fun x => { x with inServ := false }
  let x := s.src k
  let again := x.mode = 0 && x.raw && x.en && !x.pend
  let s := if again then s.pendSet k fun s => s.log 0x03 k 0 (s.eventData k) else s
  if s.grpClaimable (k / 16) then (s.modGrp (k / 16) fun g => { g with due := true }).deliver (k / 16) else s

/-- Every source in service to the targets that `f` names leaves service (R563). -/
def State.dropService (s : State) (f : Nat → Bool) : State :=
  s.each ((s.evt.srcs.filter fun e => e.2.inServ && f e.2.claimer.toNat).map (·.1)) fun s k => s.endService k

/-- The signal of a tile's source (R555): high while any bank is FAULTED. -/
def State.tileSignal (s : State) (t : Nat) : State :=
  let high := (s.tile t).banks.any fun e => decide (e.2.st = .faulted)
  if high = (s.src t).raw then s else s.edge t high

/-! ### Itlum messages -/

/-- The header and payload of a message (R390), its CRC taken over both. -/
def itlMessage (flags opcode : Nat) (reqId : Nat) (status : Nat) (cid : Nat) (origin part : Nat) (owner lease detail : Nat)
    (cadence tick block ref : Nat) (payload : Bytes) : Bytes :=
  let head := toBytes 1 1 ++ toBytes 1 flags ++ toBytes 2 opcode ++ toBytes 4 reqId ++ toBytes 2 payload.length ++
    toBytes 2 status ++ toBytes 2 cid ++ toBytes 1 origin ++ toBytes 1 part ++ toBytes 8 owner ++ toBytes 4 lease ++
    toBytes 4 detail ++ toBytes 8 cadence ++ toBytes 4 tick ++ toBytes 1 block ++ toBytes 3 0 ++ toBytes 4 ref ++ toBytes 8 0
  head ++ toBytes 4 (crc32c (head ++ toBytes 4 0 ++ payload)) ++ payload

/-- A notification written to a mailbox (R396): dropped, with NLOST, when its 64 slots are full. -/
def State.notifyMailbox (s : State) (h f code : Nat) (cid : Nat) (payload : Bytes) : State :=
  let m := (s.func h f).mail
  if m.prod - m.cons = 64 then
    s.modFunc h f fun x => { x with mail := { x.mail with nlost := true, drop := satInc x.mail.drop } }
  else
    let msg := itlMessage 2 code m.prod.toNat 0 cid 0 0 0 0 0 0 0 0 0 payload
    let s := s.modFunc h f fun x => { x with mail := { x.mail with
      notes := Tab.insert x.mail.notes (m.prod.toNat % 64) msg, prod := m.prod + 1 } }
    s.when m.nven fun s => s.msix h f m.vector.toNat

/-- A notification that finds no way (R396): counted, with a NOTIFY_DROP record and source 853. -/
def State.notifyDropped (s : State) (code : Nat) (cid : Cid) : State :=
  let s := s.modItl fun i => { i with telDropped := i.telDropped + 1 }
  (s.log 0x0B 0xFFFF cid (toBytes 2 code ++ toBytes 2 cid.toNat)).pulse 853

/-- A notification on a requester's own path (OP_DONE, R392). -/
def State.notifyPath (s : State) (p : Path) (code : Nat) (cid : Cid) (payload : Bytes) : State :=
  match p with
  | .mailbox h f => s.notifyMailbox h.val f.val code cid.toNat payload
  | _ => s.emit (.itlum p (itlMessage 2 code 0 0 cid.toNat 0 0 0 0 0 0 0 0 0 payload))

/-- A long command ends: OP_DONE goes back on the path that sent it (R392, R397). -/
def State.opDone (s : State) (op : Nat) (cid : Cid) (key status detail block : Nat) : State :=
  let mine := fun (r : Requester) => decide (r.longOp.map (fun l => (l.op, l.cid, l.key)) = some (op, cid, key))
  let off := fun (r : Requester) => if mine r then { r with longOp := none } else r
  let who := s.itl.reqs.filter mine
  let s := s.modItl fun i => { i with reqs := i.reqs.map off }
  s.each who fun s r =>
    let id := (r.longOp.map (·.reqId)).getD 0
    s.notifyPath r.path 0x8001 cid (toBytes 4 id.toNat ++ toBytes 4 status ++ toBytes 4 detail ++ toBytes 1 block)

/-- A notification for a composition, to the destination in force for its lease (R396). -/
def State.notifyCid (s : State) (cid : Cid) (code : Nat) (payload : Bytes) : State :=
  match (s.lease cid).dest with
  | .boundFunction =>
    match s.boundFunc cid with
    | some hf => s.notifyMailbox hf.1 hf.2 code cid.toNat payload
    | none => s.notifyDropped code cid
  | .mctp e => s.notifyPath (.mctp (BitVec.ofNat 8 e)) code cid payload
  | .peer m =>
    if (s.route m).valid then s.notifyPath (.peer (BitVec.ofNat 14 m)) code cid payload else s.notifyDropped code cid

/-- A notification without a CID, to the mailboxes of both PFs (R396). -/
def State.notifyPfs (s : State) (code : Nat) (payload : Bytes) : State :=
  (s.notifyMailbox 0 0 code 0 payload).notifyMailbox 1 0 code 0 payload

/-! ### Writes to host memory and the dirty log (R331, R344 to R347) -/

/-- What a function's address-translation cache holds of a page (R331). -/
def State.atcFind (s : State) (h f : Nat) (pasid : BitVec 20) (page : Nat) : Option AtcEntry :=
  if !(s.func h f).atsEn then none else
    s.hst.atc.find? fun e => decide (e.hport = h ∧ e.func = f ∧ e.pasid = pasid) &&
      decide (e.page ≤ page ∧ page < e.page + 2 ^ e.log2)

/-- A tag of a host port that no outstanding request of it uses. -/
def State.freeHostTag (s : State) (h : Nat) : Nat :=
  ((List.range 16384).find? fun g => !(s.hst.reqs.any fun r => decide (r.hport = h ∧ r.tag = g)) &&
    !(s.hst.transl.any fun r => decide (r.hport = h ∧ r.tag = g))).getD 0

/-- Non-posted requests outstanding on a port (R325). -/
def State.hostLoad (s : State) (h : Nat) : Nat :=
  (s.hst.reqs.filter fun r => decide (r.hport = h)).length + (s.hst.transl.filter fun r => decide (r.hport = h)).length

/-- A page that the cache lacks is asked for, once, where the port may send a request (R331). -/
def State.atsAsk (s : State) (h f : Nat) (pasid : BitVec 20) (page : Nat) : State :=
  let asked := s.hst.transl.any fun t => decide (t.hport = h ∧ t.func = f ∧ t.pasid = pasid ∧ t.page = page)
  if !(s.func h f).atsEn ∨ asked ∨ 2048 ≤ s.hostLoad h ∨ (s.atcFind h f pasid page).isSome then s else
    let g := s.freeHostTag h
    (s.modHst fun x => { x with transl := x.transl ++ [{ hport := h, func := f, tag := g, pasid := pasid, page := page }] }).emit
      (.translate h f g pasid page)

/-- An address as a function sends it, and what the request carries (R329, R331, R340). -/
def State.asSent (s : State) (h f : Nat) (pasid : Option (BitVec 20)) (relaxed : Bool) (a : DWord) : DWord × Tlp :=
  let t := decide ((s.func h f).tdi = .locked ∨ (s.func h f).tdi = .run)
  match (match pasid with
    | some p => s.atcFind h f p (a.toNat / 4096)
    | none => none) with
  | some e => (e.target + (a - BitVec.ofNat 64 (e.page * 4096)), { pasid := pasid, translated := true, tbit := t, relaxed := relaxed })
  | none => (a, { pasid := pasid, tbit := t, relaxed := relaxed })

/-- One entry of a function's dirty-log ring (R346, R347), given all but its SEQ. -/
def State.dlogPut (s : State) (h f : Nat) (w0 w1 : Nat) : State :=
  let d := (s.func h f).dlog
  if d.ovf then s
  else if (d.prod - d.cons).toNat = 2 ^ d.sizeLog2.toNat then
    (s.modFunc h f fun x => { x with dlog := { x.dlog with ovf := true } }).pulse (888 + h)
  else
    let at_ := d.base + BitVec.ofNat 64 (16 * (d.prod.toNat % 2 ^ d.sizeLog2.toNat))
    let s := s.emit (.hostWrite h 0 {} at_ (toBytes 8 w0 ++ toBytes 8 (w1 + d.prod.toNat * 2 ^ 32)))
    s.modFunc h f fun x => { x with dlog := { x.dlog with prod := x.dlog.prod + 1 } }

/-- A composition's write of an MPA of LPDDR5X is logged once per 2 MiB region (R344, R345). -/
def State.dlogDevice (s : State) (cid : Cid) (mpa : Nat) : State :=
  let r := mpa / 2 ^ 21
  let due := fun (e : Nat × Func) => e.2.bound && decide (e.2.cid = cid) && e.2.dlog.en && e.2.dlog.devEn &&
    !e.2.dlog.ovf && (Tab.find e.2.dlog.devSeen r).isNone
  s.each (s.hst.funcs.filter due) fun s e =>
    let h := e.1 / 257
    let f := e.1 % 257
    (s.modFunc h f fun x => { x with dlog := { x.dlog with devSeen := Tab.insert x.dlog.devSeen r true } }).dlogPut
      h f (r * 2 ^ 21 + 1) 0

/-- A write to host memory on a function, with the dirty-log entry of its page as sent ahead of it (R344, R345). Relaxed
Ordering is set on those of stream channels (R325). -/
def State.hostWriteAs (s : State) (h f : Nat) (pasid : Option (BitVec 20)) (relaxed : Bool) (a : DWord) (b : Bytes) : State :=
  let d := (s.func h f).dlog
  let s := match pasid with
    | some p => s.atsAsk h f p (a.toNat / 4096)
    | none => s
  let out := s.asSent h f pasid relaxed a
  let page := out.1.toNat / 4096
  let s :=
    if d.en && d.hostEn && !d.ovf && !(s.hport h).seen.contains (f, page) then
      let w0 := page * 4096 + (if out.2.translated then 4 else 0) + (if pasid.isSome then 2 else 0)
      (s.modHPort h fun x => { x with seen := ((f, page) :: x.seen).take 4096 }).dlogPut h f w0 (pasid.getD 0).toNat
    else s
  s.emit (.hostWrite h f out.2 out.1 b)
def State.hostWrite (s : State) (h f : Nat) (pasid : Option (BitVec 20)) (a : DWord) (b : Bytes) : State :=
  s.hostWriteAs h f pasid false a b

/-! ### Fault-queue records -/

/-- The common header of a record (R377). -/
def State.recHead (s : State) (seq : Word) (kind code : Nat) (ctx : Ctx) (cid : Cid) : Bytes :=
  toBytes 4 seq.toNat ++ toBytes 1 kind ++ toBytes 1 code ++ toBytes 2 ctx.toNat ++ toBytes 2 cid.toNat ++
  toBytes 2 s.module.toNat ++ toBytes 4 (s.epochOfCid cid).toNat

/-- Pad a record to 64 bytes. -/
def pad64 (b : Bytes) : Bytes := (b ++ List.replicate 64 0).take 64

/-- The function whose fault queue takes a composition's records, if one is available (R379). -/
def State.fqTarget (s : State) (cid : Cid) (slot : Nat) : Option (Nat × Nat) :=
  match s.boundFunc cid with
  | some hf =>
    let st := (s.hport hf.1).st
    if (s.fqSh slot).en && (s.fqRo slot).set && decide (st ≠ .down ∧ st ≠ .hold) then some hf else none
  | none => none

/-- Free places of the ring of 4,096 records (R378). -/
def State.fqFree (s : State) (slot : Nat) : Nat := 4096 - ((s.fqRo slot).next - (s.fqRo slot).acked).toNat

/-- Count a record that has nowhere to go. -/
def State.fqDrop (s : State) (slot : Nat) : State := s.modFq slot fun x => { x with dropped := satInc x.dropped }

/-- Write a record into the ring (R376): one 64-byte write without PASID, and its vector. -/
def State.fqWrite (s : State) (slot : Nat) (hf : Nat × Nat) (kind code : Nat) (ctx : Ctx) (cid : Cid) (body : Bytes) : State :=
  let r := s.fqRo slot
  let q := s.fqSh slot
  let bytes := pad64 (s.recHead r.next kind code ctx cid ++ body)
  let at_ := q.base.toNat * 4096 + 64 * (r.next.toNat % 4096)
  let s := s.hostWrite hf.1 hf.2 none (BitVec.ofNat 64 at_) bytes
  let s := s.modFq slot fun x => { x with next := x.next + 1 }
  s.when q.ven fun s => s.msix hf.1 hf.2 q.vector.toNat

/-- A module-level record for one composition (R378, R379, R482). -/
def State.moduleRecord (s : State) (cid : Cid) (cls : Nat) (resource : Nat) : State :=
  match s.slotOf cid with
  | none => s
  | some slot =>
    let drop := fun (s : State) =>
      let s := (s.fqDrop slot).modFq slot fun x => { x with movf := true }
      s.pulse 856
    match s.fqTarget cid slot with
    | none => drop s
    | some hf => if s.fqFree slot = 0 then drop s else s.fqWrite slot hf 4 cls 0 cid (toBytes 8 resource)

/-- A module-level record for each composition concerned, with its event (R483). -/
def State.moduleRecords (s : State) (cids : List Cid) (cls resource : Nat) : State :=
  (s.each cids fun s c => s.moduleRecord c cls resource).pulse (863 + cls)

end Sys2Proof.Machine
end

