-- ==== Sys2Proof/Machine/Guarantee.lean ====
section
/-! DEFINITION. Guarantees (R244, R245): the deliverable figure of a resource, its capacity, what each composition was
admitted for, and the reckoning when the figure changes. -/

namespace Sys2Proof.Machine

/-- Whether a half has a rebuild running (R244). -/
def State.rebuilding (s : State) (half : Nat) : Bool :=
  (List.range 96).any fun i => decide ((s.pair (half * 96 + i)).st = .rebuilding)

/-- The setting that the figures count of the tile clock (key 0), a pair (1 + pair), a port (200 + port) (R463). -/
def State.figStep (s : State) (key : Nat) : Nat := Tab.get (fun _ => 16) s.pwr.figs key

/-- The deliverable figure of a pair in 10 MB/s (R185, R244). -/
def State.pairFigure (s : State) (phys : Nat) : Nat :=
  let p := s.pair phys
  if p.st = .degraded ∨ p.st = .rebuilding then 0 else
    let d := (if p.refRate = 0 then 3958 else 3750) * s.figStep (1 + phys)
    if s.rebuilding (phys / 96) then d * 7 / 128 else d / 16

/-- The admission figure of a width code of LNK_STATUS (R261). -/
def widthFigure (w : BitVec 2) : Nat := if w = 0 then 2354 else if w = 1 then 1177 else if w = 2 then 588 else 0

/-- The deliverable figure D of a resource in its guarantee unit (R244). -/
def State.figure (s : State) : GuarRes → Nat
  | .tile _ => 1056 * s.figStep 0 / 16
  | .pair l => s.pairFigure (s.phys l)
  | .port p rx => widthFigure (if rx then (s.port p).rxw else (s.port p).txw) * s.figStep (200 + p) / 16

/-- The capacity C = floor(0.85 × D) (R244). -/
def State.capacity (s : State) (r : GuarRes) : Nat := s.figure r * 85 / 100

/-- What an entry of an image guarantees on a resource (R228). -/
def guarOn (e : ImgEntry) (r : GuarRes) : Nat :=
  match e, r with
  | .tiles g _ guar mask, .tile l => if l / 128 = g ∧ mask.getLsbD (l % 128) then guar else 0
  | .pairs _ _ _ guar mask, .pair l => if mask.getLsbD l then guar else 0
  | .port p tx rxg, .port q rx => if p = q then (if rx then rxg else tx) else 0
  | _, _ => 0

/-- A composition's admitted guarantee on a resource (R244): its entries' add up. -/
def Image.admitted (i : Image) (r : GuarRes) : Nat := (i.entries.map fun e => guarOn e r).sum

/-- The compositions that hold a slot, with their slots. -/
def State.boundCids (s : State) : List (Nat × Cid) :=
  (s.brd.sh.act.slots.filter fun e => e.2.1).map fun e => (e.1, e.2.2)

/-- The guarantee of a composition in force on a resource. -/
def State.current (s : State) (cid : Cid) (r : GuarRes) : Nat :=
  match s.brd.current.find? fun e => decide (e.1 = cid) && decide (e.2.1 = r) with
  | some e => e.2.2
  | none => (s.image cid).admitted r

/-- One priority's share of the reckoning of R245. -/
def reckonPrio (gs : List (Cid × Nat)) (remaining : Nat) : List (Cid × Nat) × Nat :=
  let sum := (gs.map (·.2)).sum
  if sum ≤ remaining then (gs, remaining - sum)
  else (gs.map fun g => (g.1, g.2 * remaining / sum), 0)

/-- The reckoning of R245: each composition's guarantee on a resource of capacity `cap`. -/
def reckon (gs : List (Cid × Nat × Nat)) (cap : Nat) : List (Cid × Nat) :=
  ((List.range 8).foldl (fun acc p =>
    let r := reckonPrio ((gs.filter fun g => decide (g.2.1 = p)).map fun g => (g.1, g.2.2)) acc.2
    (acc.1 ++ r.1, r.2)) (([] : List (Cid × Nat)), cap)).1

/-- The kind and index of a resource in GUARANTEE_DEGRADED (R397). -/
def guarKind : GuarRes → Nat × Nat × Nat
  | .tile l => (1, 0, l)
  | .pair l => (2, 0, l)
  | .port p rx => (3, if rx then 1 else 0, p)

/-- Set GUAR of the entry of a slot in a regulator's entries (R432). -/
def setGuar (rs : Tab RegSh) (lo n slot : Nat) (dir : Option Bool) (g : Nat) : Tab RegSh :=
  rs.map fun e =>
    if lo ≤ e.1 ∧ e.1 < lo + n ∧ e.2.valid ∧ e.2.slot.toNat = slot ∧ (dir = none ∨ dir = some e.2.dir)
    then (e.1, { e.2 with guar := BitVec.ofNat 16 g }) else e

def Sh.both {α : Type} (x : Sh α) (f : α → α) : Sh α := { x with act := f x.act, pend := f x.pend, acc := x.acc.map f }

/-- The guarantee in force reaches the resource's regulator entry (R432, R433). -/
def State.setRegGuar (s : State) (slot : Nat) (r : GuarRes) (g : Nat) : State :=
  match r with
  | .tile l => match s.physTile l with
    | some t => s.modTile t fun x => { x with nbr := x.nbr.both fun n => { n with regs := setGuar n.regs 0 4 slot none g } }
    | none => s
  | .pair l => s.modLp fun m => { m with sh := m.sh.both fun n =>
      { n with regs := setGuar n.regs (s.phys l * 64) 64 slot none g } }
  | .port p rx => s.modFab fun f => { f with sh := f.sh.both fun n =>
      { n with regs := setGuar n.regs (p * 32) 32 slot (some rx) g } }

/-- One composition's guarantee on a resource changes (R245, R397). -/
def State.setCurrent (s : State) (slot : Nat) (cid : Cid) (r : GuarRes) (g : Nat) : State :=
  let adm := (s.image cid).admitted r
  if s.current cid r = g then s else
    let rest := s.brd.current.filter fun e => !(decide (e.1 = cid) && decide (e.2.1 = r))
    let s := s.modBrd fun b => { b with current := if g = adm then rest else rest ++ [(cid, r, g)] }
    let s := s.setRegGuar slot r g
    let k := guarKind r
    let body := toBytes 1 k.1 ++ toBytes 1 k.2.1 ++ toBytes 2 k.2.2 ++ toBytes 4 adm ++ toBytes 4 g
    if g = adm then (s.notifyCid cid 0x8004 body).pulse 849 else (s.notifyCid cid 0x8003 body).pulse 848

/-- Reckon a resource again after its figure has changed (R245). -/
def State.regauge (s : State) (r : GuarRes) : State :=
  let cs := s.boundCids.filter fun e => decide (0 < (s.image e.2).admitted r)
  let gs := cs.map fun e => (e.2, (s.image e.2).gprio.toNat, (s.image e.2).admitted r)
  let total := (gs.map fun g => g.2.2).sum
  let cap := s.capacity r
  let out := if total ≤ cap then gs.map fun g => (g.1, g.2.2) else reckon gs cap
  s.each out fun s g =>
    match s.slotOf g.1 with
    | some slot => s.setCurrent slot g.1 r g.2
    | none => s

/-- The logical pairs that a physical pair serves (R167). -/
def State.logPairs (s : State) (phys : Nat) : List Nat := (List.range 192).filter fun l => decide (s.phys l = phys)

/-- Reckon every logical pair of a half again. -/
def State.regaugeHalf (s : State) (half : Nat) : State :=
  s.each ((List.range 192).filter fun l => decide (s.phys l / 96 = half)) fun s l => s.regauge (.pair l)

/-- Reckon every tile again, after a change of the clock step. -/
def State.regaugeTiles (s : State) : State :=
  let used := s.boundCids.flatMap fun e => (s.image e.2).entries.flatMap fun x =>
    match x with
    | .tiles g _ _ mask => ((List.range 128).filter fun j => mask.getLsbD j).map fun j => 128 * g + j
    | _ => []
  s.each used.eraseDups fun s l => s.regauge (.tile l)

end Sys2Proof.Machine
end

