-- ==== Sys2Proof/Machine/Cipher.lean ====
section
/-! DEFINITION. The ciphers of lines: counter blocks and the stored form (R532), MAC and tag (R533), the SRAM check
(R545), places in the crypto area and the bytes of a region record (R535, R536). -/

namespace Sys2Proof.Machine

/-- Bits [45:6] of an MPA, at bits [127:88] of a counter block (R532, R545). -/
def addressBlock (mpa : Nat) : BitVec 128 := put 128 88 (BitVec.ofNat 40 (mpa / 64))
/-- Counter block `j` of a line at an MPA under a stamp (R532). -/
def counterBlock (mpa stamp j : Nat) : BitVec 128 :=
  addressBlock mpa ||| put 128 42 (BitVec.ofNat 46 stamp) ||| put 128 0 (BitVec.ofNat 3 j)

/-- Bytes 16j to 16j + 15 of a line. -/
def Line.block (l : Line) (j : Nat) : BitVec 128 := l.extractLsb' (128 * j) 128
/-- Stored block `j` of a line (R532). -/
def storedBlock (key : BitVec 256) (mpa stamp : Nat) (l : Line) (j : Nat) : BitVec 128 :=
  Line.block l j ^^^ Config.aes256 key (counterBlock mpa stamp j)
/-- The stored form of a line (R532). -/
def storedLine (key : BitVec 256) (mpa stamp : Nat) (l : Line) : Line :=
  storedBlock key mpa stamp l 3 ++ storedBlock key mpa stamp l 2 ++ storedBlock key mpa stamp l 1 ++ storedBlock key mpa stamp l 0

/-- The key of GHASH under a key (R533, R545). -/
def hashKey (key : BitVec 256) : BitVec 128 := Config.aes256 key 0
/-- The MAC of a data line (R533). -/
def lineMac (key : BitVec 256) (mpa stamp : Nat) (l : Line) : DWord :=
  let c := storedBlock key mpa stamp l
  (Config.ghash (hashKey key) [c 0, c 1, c 2, c 3, counterBlock mpa stamp 0] ^^^
    Config.aes256 key (counterBlock mpa stamp 4)).setWidth 64
/-- The tag of a data line (R533). -/
def lineTag (key : BitVec 256) (mpa stamp : Nat) (l : Line) : Byte := (lineMac key mpa stamp l).setWidth 8

/-- The ICV of a line of bonded SRAM at a slot MPA (R545). -/
def sramIcv (key : BitVec 256) (mpa : Nat) (l : Line) : BitVec 16 :=
  let b := addressBlock mpa
  (Config.ghash (hashKey key) [Line.block l 0, Line.block l 1, Line.block l 2, Line.block l 3, b] ^^^
    Config.aes256 key b).setWidth 16

/-! ### The crypto area (R535, R536) -/

/-- The pair line and the byte of a data line's tag: the area begins at `lines`, the count of data lines. -/
def tagPlace (lines line : Nat) : Nat × Nat := (lines + line / 64, line % 64)
/-- The pair line and the first byte of a region's record, after the tags. -/
def recordPlace (lines region : Nat) : Nat × Nat := (lines + lines / 64 + region / 2, 32 * (region % 2))
/-- The pair line and the first byte of an entry of the poison table, after the records. -/
def poisonPlace (lines i : Nat) : Nat × Nat := (lines + lines / 64 + lines / 2048 + i / 8, 8 * (i % 8))

/-- A region record (R536). -/
def Region.bytes (r : Region) : Bytes :=
  toBytes 8 (r.wc.toNat + r.kid.toNat * 2 ^ 46 + (if r.re then 2 ^ 52 else 0) + r.cursor.toNat * 2 ^ 53) ++
  toBytes 8 (r.base.toNat + r.okid.toNat * 2 ^ 46) ++ toBytes 8 r.obase.toNat ++ toBytes 8 r.rmac.toNat

end Sys2Proof.Machine
end

