-- ==== Sys2Proof/Machine/Lines.lean ====
section
/-! DEFINITION. A line of memory at its target: where an MPA leads (R150, R166, R167, R227), the checks of R212 to R215,
bonded SRAM reads and writes (R152 to R155), LPDDR5X reads and writes with the stripe code (R169 to R174), the write
counters of inline encryption (R537 to R542). -/

namespace Sys2Proof.Machine

/-! ### Where a line lies on its channels (R166) -/

/-- Bank group, bank, burst column and row of line `L` of a pair, on both channels. -/
def lineGroup (L : Nat) : Nat := L % 4
def lineBank (L : Nat) : Nat := L / 4 % 4
def lineColumn (L : Nat) : Nat := L / 16 % 64
def lineRow (L : Nat) : Nat := L / 1024
/-- The channel of pair `p` on which byte `i` of a line lies: bytes [31:0] on CH(2p), bytes [63:32] on CH(2p + 1). -/
def lineChannel (p i : Nat) : Nat := 2 * p + i % 64 / 32

/-! ### Where an MPA leads -/

/-- What backs an MPA: a slot's SRAM on a physical tile, a line of a physical pair in unit `unit`, or nothing. -/
inductive Place
  | sram (tile off : Nat)
  | dram (unit phys line byte : Nat)
  | unbacked
deriving DecidableEq, Repr

/-- Whether the module is SKV-A1-1536-L (R1). -/
def State.big (s : State) : Bool := decide (s.boot.part = .l1536)
/-- The first MPA above data MPA (R16). -/
def State.dataEnd (s : State) : Nat := if s.big then 0x16800000000 else 0xB400000000
/-- Data lines of a pair (R166). -/
def State.dataLines (s : State) : Nat := if s.big then 125829120 else 62914560
/-- C0, the first line of the check area (R169). -/
def State.c0 (s : State) : Nat := if s.big then 127926272 else 63963136
/-- 256 MiB units of each pair's data rows (R168). -/
def State.pairUnits (s : State) : Nat := if s.big then 30 else 15

/-- The set bits of a mask, lowest first. -/
def maskBits {n : Nat} (m : BitVec n) : List Nat := (List.range n).filter fun i => m.getLsbD i

/-- Decode a data MPA through a group (R167): logical pair, pair line, byte. -/
def Igrp.decode (g : Igrp) (mpa : Nat) : Option (Nat × Nat × Nat) :=
  let base := g.baseGb.toNat * 2 ^ 30
  let n := g.n.toNat
  if g.valid ∧ 0 < n ∧ base ≤ mpa ∧ mpa < base + n * g.len.toNat * 2 ^ 28 then
    let a := mpa - base
    match (maskBits g.mask)[a / 256 % n]? with
    | some p => some (p, g.off.toNat * 2 ^ 22 + a / 256 / n * 4 + a / 64 % 4, a % 64)
    | none => none
  else none

/-- The pair that serves a line of physical pair `p`: during a move, lines below the cursor are the destination's
(R239, R240). -/
def State.serving (s : State) (p line : Nat) : Nat :=
  let m := s.moveH (p / 96)
  if (m.st = .copying ∨ m.st = .switching) ∧ m.src.toNat = p ∧ line < m.cursor.toNat then m.dst.toNat
  else match (s.pair p).st, (s.pair p).rebuildTo with
    | .rebuilding, some d => if line < (s.pair p).cursor then d else p
    | _, _ => p

/-- The physical tile that holds a slot of R150 (R227). -/
def State.slotTile (s : State) (slot : Nat) : Nat := s.brd.sh.act.redirOf slot

/-- Where an MPA leads (R16, R17, R150, R167). -/
def State.place (s : State) (mpa : Nat) : Place :=
  if 0x3F0000000000 ≤ mpa then
    let slot := (mpa - 0x3F0000000000) / 2 ^ 25
    let off := (mpa - 0x3F0000000000) % 2 ^ 25
    if 544 ≤ slot ∨ 0x1800000 ≤ off then .unbacked else
      let t := s.slotTile slot
      if (s.tile t).role = .retired ∨ (s.tile t).role = .notProduced ∨ (s.tile t).stopDead then .unbacked else .sram t off
  else if mpa < s.dataEnd then
    match s.lp.sh.act.igrp.findSome? fun e => e.2.decode mpa with
    | some (l, line, b) => .dram (mpa / 2 ^ 28) (s.serving (s.phys l) line) line b
    | none => .unbacked
  else .unbacked

/-! ### The checks at the target -/

/-- The stop that serves a place (R139); an unbacked MPA ends at the issuer's own stop. -/
def stopOf (own : Nat) : Place → Nat
  | .sram t _ => t
  | .dram _ p _ _ => 0x220 + p / 4
  | .unbacked => own

/-- What an operation does to its line. -/
inductive Acc
  | rd | wr | atomic
deriving DecidableEq, Repr

/-- Who asks (R212, R213, R215): the tags a request carries, the rights of a privileged master, whether it carries no
CID and passes every check, and whether it is one that the boot pairs serve in early service (R584). -/
structure Who where
  cid : Cid
  ctx : Ctx
  rights : BitVec 3
  free : Bool
  boot : Bool
deriving DecidableEq, Repr

/-- The Zesin complex, shift engine, scrub (R213). -/
def Who.zesin : Who := ⟨0, 0, 0, true, true⟩
/-- A unit that carries a context's tags and no rights. -/
def Who.of (cid : Cid) (ctx : Ctx) : Who := ⟨cid, ctx, 0, false, false⟩
/-- A table walk (R193): admitted at any scope. -/
def Who.walk (cid : Cid) : Who := ⟨cid, 0, 0, false, true⟩

/-- The tag check of R156 and R213. -/
def Owner.admits (o : Owner) (cid : Cid) (ctx : Ctx) : Bool :=
  o.valid && decide (o.cid = cid) && (o.scope || decide (o.ctx = ctx))

/-- The bit of RIGHTS that an operation needs (R215): read 0, write 1, atomic 2 (log entry 15). -/
def Acc.bit : Acc → Nat
  | .rd => 0
  | .wr => 1
  | .atomic => 2

/-- Whether RIGHTS forbids the operation (R215). -/
def Who.lacks (w : Who) (a : Acc) : Bool := w.rights != 0 && !w.rights.getLsbD a.bit

/-- Whether early service is on (R583). -/
def State.early (s : State) : Bool := decide (s.boot.service = 1)

/-- Whether a pair can serve a line at all. -/
def Pair.serves (p : Pair) : Bool :=
  decide (p.st = .active ∨ p.st = .degraded ∨ p.st = .rebuilding ∨ p.st = .spareReady ∨ p.st = .retired)

/-- The check of a request at its target: the STATUS it earns without touching the line (R17, R156, R213, R214, R584). -/
def State.targetCheck (s : State) (w : Who) (a : Acc) (pl : Place) (scopeAny : Bool) : Nat :=
  match pl with
  | .unbacked => 2
  | .sram t off =>
    if w.free then 0
    else if (s.gran t (off / 65536)).admits w.cid w.ctx && !w.lacks a then 0 else 1
  | .dram u p _ _ =>
    if !(s.pair p).serves || (s.early && !w.boot) then 2
    else if w.free then 0
    else
      let o := s.unitOwner u
      let ok := if scopeAny then o.valid && decide (o.cid = w.cid) else o.admits w.cid w.ctx
      if ok && !w.lacks a then 0 else 1

/-- The target class of R212 for the DETAIL of a refusal. R212 lists none for an MPA that nothing backs: class 1, the
memory controller, stands for it (DESIGN CHOICE, log entry 4). -/
def Place.cls : Place → Nat
  | .sram _ _ => 0
  | _ => 1

/-! ### Bonded SRAM lines -/

/-- SRM_UE takes the first uncorrectable line (R161). -/
def Srm.recordUe (x : Srm) (icv : Bool) (off : Nat) : Srm :=
  if x.ue.valid then x else { x with ue := ⟨true, icv, BitVec.ofNat 5 (off / 64), BitVec.ofNat 14 (off / 2048)⟩ }

def Srm.poisoned (x : Srm) (off : Nat) : Bool := (Tab.find x.poison (off / 64)).isSome

/-- Poison a line (R153): zero data, POISON set, the counts and the record. -/
def State.sramPoison (s : State) (t off : Nat) (icv : Bool) : State :=
  let s := s.clearMem (sramKey t (off / 64 * 64)) 64
  s.modSrm t fun x =>
    let x := { x with poison := Tab.insert x.poison (off / 64) true, rewrite := Tab.erase x.rewrite (off / 64),
                      staleIcv := Tab.erase x.staleIcv (off / 64),
                      ueCount := satInc x.ueCount, icvFail := if icv then satInc x.icvFail else x.icvFail }
    x.recordUe icv off

/-- What a read of a line's check bits finds (R153 to R155): the STATUS, and the state it leaves. -/
def State.sramCheck (s : State) (t off : Nat) (ecc : Ecc) : Nat × State :=
  if (s.tile t).srm.poisoned off then (3, s) else
  let stale := (Tab.find (s.tile t).srm.staleIcv (off / 64)).isSome
  let s := match ecc.corrections with
    | some n => s.modSrm t fun x => { x with ce := satAdd x.ce n, rewrite := Tab.insert x.rewrite (off / 64) true }
    | none => s
  if ecc = .uncorrectable then (3, s.sramPoison t off false)
  else if stale || ecc.icvFails then (3, s.sramPoison t off true)
  else (0, s)

/-! ### The stored row of a line (R152, R154, R545) -/

/-- The slot MPA of a line of a physical tile, before the redirection of R227. -/
def State.slotMpa (s : State) (t off : Nat) : Nat :=
  let slot := ((List.range 544).find? fun k => decide (s.slotTile k = t)).getD t
  0x3F0000000000 + slot * 2 ^ 25 + off / 64 * 64

/-- The ICV that a line holds (R154): made at its last write; a line of zeros holds 0, which passes (R545). -/
def State.lineIcv (s : State) (t off : Nat) : BitVec 16 :=
  let l := s.line (sramKey t (off / 64 * 64))
  match Tab.find (s.tile t).srm.staleIcv (off / 64) with
  | some v => v
  | none => if l = 0 then 0 else sramIcv (s.keySlot 0).key (s.slotMpa t off) l

/-- The 20 metadata bits of a line (R152): bits 19:17 zero, POISON, ICV. -/
def State.sramMeta (s : State) (t off : Nat) : BitVec 20 :=
  BitVec.ofNat 20 ((if (s.tile t).srm.poisoned off then 2 ^ 16 else 0) + (s.lineIcv t off).toNat)

/-- Codeword `w` of a line (R152): its 128 data bits, its 5 metadata bits and 11 check bits. -/
def State.sramCodeword (s : State) (t off w : Nat) : BitVec 144 :=
  let d : BitVec 128 := BitVec.ofNat 128 ((s.line (sramKey t (off / 64 * 64))).toNat / 2 ^ (128 * w))
  let m : BitVec 5 := BitVec.ofNat 5 ((s.sramMeta t off).toNat / 2 ^ (5 * w))
  Config.checkBits (m ++ d) ++ (m ++ d)

/-- Bit `i` of the stored row of 576 bits belongs to codeword i mod 4 (R152). -/
def State.sramRowBit (s : State) (t off i : Nat) : Bool := (s.sramCodeword t off (i % 4)).getLsbD (i / 4)

/-- Read the line that holds offset `off` of a tile's SRAM. -/
def State.sramRead (s : State) (t off : Nat) (ecc : Ecc) : Nat × Line × State :=
  let r := s.sramCheck t off ecc
  (r.1, if r.1 = 0 then s.line (sramKey t (off / 64 * 64)) else 0, r.2)

/-- Write bytes of a line (R46, R154, R155): a full write clears poison; a partial one reads the line first. -/
def State.sramWrite (s : State) (t off : Nat) (data : Line) (be : DWord) (ecc : Ecc) : Nat × State :=
  let key := sramKey t (off / 64 * 64)
  if be = BitVec.allOnes 64 then
    (0, (s.storeLine key data).modSrm t fun x =>
      { x with poison := Tab.erase x.poison (off / 64), rewrite := Tab.erase x.rewrite (off / 64),
               staleIcv := Tab.erase x.staleIcv (off / 64) })
  else
    let r := s.sramCheck t off ecc
    if r.1 = 0 then (0, r.2.storeLine key (Line.merge (s.line key) data be)) else r

/-! ### LPDDR5X lines: the stripe code -/

/-- Where the check line of stripe (d, L) of a pair's half lies (R169): pair and pair line. -/
def State.checkPlace (s : State) (phys line : Nat) : Nat × Nat :=
  (phys / 96 * 96 + line % 24 * 4 + (phys % 4 + 1) % 4, s.c0 + line / 24)

/-- The other members of a pair's stripe (R169). -/
def stripeOthers (phys : Nat) : List Nat :=
  ((List.range 24).map fun k => phys / 96 * 96 + k * 4 + phys % 4).filter fun p => p != phys

/-- Deltas of a stripe still on the memory ring (R171). -/
def State.queuedDelta (s : State) (half slot line : Nat) : Line :=
  xorLines ((s.lp.deltas.filter fun d => decide (d.half = half ∧ d.slot = slot ∧ d.line = line)).map (·.xor))

/-- The line rebuilt from its stripe (R170 step 3), the queued deltas of the stripe applied first (R171). -/
def State.rebuildLine (s : State) (phys line : Nat) : Line :=
  let c := s.checkPlace phys line
  xorLines ((stripeOthers phys).map fun p => s.line (pairKey p (line * 64))) ^^^ s.line (pairKey c.1 (c.2 * 64)) ^^^
    s.queuedDelta (phys / 96) (phys % 4) line

/-- A rebuild waits until no delta of its stripe is queued or cached (R171): those queued reach the check line, the cache
writes it back. -/
def State.settleStripe (s : State) (phys line : Nat) : State :=
  let mine := fun (d : Delta) => decide (d.half = phys / 96 ∧ d.slot = phys % 4 ∧ d.line = line)
  let x := s.queuedDelta (phys / 96) (phys % 4) line
  let c := s.checkPlace phys line
  let s := s.modLp fun m => { m with
    deltas := m.deltas.filter fun d => !mine d, dirty := m.dirty.filter fun d => decide (¬ (d.pair = c.1 ∧ d.line = c.2)) }
  if x = 0 ∨ decide ((s.pair c.1).st = .degraded ∨ (s.pair c.1).st = .rebuilding) then s
  else s.storeLine (pairKey c.1 (c.2 * 64)) (s.line (pairKey c.1 (c.2 * 64)) ^^^ x)

/-- Whether a pair is failed (R172). -/
def Pair.failed (p : Pair) : Bool := decide (p.st = .degraded ∨ p.st = .rebuilding)

/-- Whether all four dies of a pair's package have failed (R174). -/
def State.packageLost (s : State) (phys : Nat) : Bool :=
  (List.range 4).all fun i => (s.pair (phys / 4 * 4 + i)).failed

/-- Whether a line of a pair is protected by its stripe: the check area is not stale (R178), the check line's die and
every other member are sound (R172), the package has not failed as a whole (R174). -/
def State.protected (s : State) (phys line : Nat) : Bool :=
  decide (line < s.c0) && !s.packageLost phys && !(Tab.get (fun _ => false) s.lp.stale (phys / 96)) &&
  !(s.pair (s.checkPlace phys line).1).failed && decide ((s.pair (s.checkPlace phys line).1).st ≠ .retired) &&
  !((stripeOthers phys).any fun p => (s.pair p).failed)

/-- Compositions with a group that names a logical pair of physical pair `phys` (R483). -/
def State.pairCids (s : State) (phys : Nat) : List Cid :=
  let ls := s.logPairs phys
  (s.boundCids.filter fun e => (s.image e.2).entries.any fun x =>
    match x with
    | .pairs _ _ _ _ mask => ls.any fun l => mask.getLsbD l
    | _ => false).map (·.2)

/-- A pair's state changes (R189): its event, and a PAIR_STATE record for DEGRADED, REBUILDING and RETIRED (R482). -/
def State.setPairSt (s : State) (phys : Nat) (st : PairSt) : State :=
  if (s.pair phys).st = st then s else
  let s := (s.modPair phys fun p => { p with st := st }).pulse (640 + phys)
  let code := match st with
    | .degraded => 3
    | .rebuilding => 4
    | .retired => 6
    | _ => 0
  if code = 0 then s else
    let l := match s.logPairs phys with
      | l :: _ => l
      | [] => phys
    s.moduleRecords (s.pairCids phys) 6 (l + code * 256)

/-- Whether a pair is the destination of a move or a rebuild of its half. -/
def State.taken (s : State) (p : Nat) : Bool :=
  let m := s.moveH (p / 96)
  decide ((m.st = .copying ∨ m.st = .switching ∨ m.st = .clearing) ∧ m.dst.toNat = p) ||
  s.lp.pairs.any fun e => decide (e.2.rebuildTo = some p)

/-- A spare of the half in SPARE_READY that the site operator holds and nothing uses (R173, R243). -/
def State.spareOf (s : State) (half : Nat) : Option Nat :=
  ((List.range 96).map (· + half * 96)).find? fun p => decide ((s.pair p).st = .spareReady) && !s.taken p

/-! ### Lines that the module's own units write (R171, R173, R238) -/

/-- A line's contribution to its check line changes by `x` (R169, R171): one on a failed die is lost. -/
def State.xorCheck (s : State) (p line : Nat) (x : Line) : State :=
  let c := s.checkPlace p line
  if x = 0 ∨ (s.pair c.1).failed ∨ s.c0 ≤ line then s else
    let key := pairKey c.1 (c.2 * 64)
    s.storeLine key (s.line key ^^^ x)

/-- The lines below C0 of a pair that hold a byte other than zero. -/
def State.linesOf (s : State) (p : Nat) : List Nat :=
  (((s.mem.filter fun c => decide (c.1 / 2 ^ 33 = p)).map fun c => c.1 / 64 % 2 ^ 27).filter fun l => decide (l < s.c0)).eraseDups

/-- A line is written with its stripe updated at once, as the units of the module itself write it. -/
def State.putLine (s : State) (p line : Nat) (l : Line) : State :=
  let key := pairKey p (line * 64)
  let old := s.line key
  (s.storeLine key l).xorCheck p line (old ^^^ l)

/-- Lines that a rebuild of pair `p` may find other than zero: lines of its stripes' members, of their check lines, of
deltas still on the ring. -/
def State.stripeLines (s : State) (p : Nat) : List Nat :=
  let h := p / 96
  let cells := (s.mem.map fun c => (c.1 / 2 ^ 33, c.1 / 64 % 2 ^ 27)).eraseDups
  let data := cells.filterMap fun x => if x.1 / 96 = h ∧ x.1 % 4 = p % 4 ∧ x.2 < s.c0 then some x.2 else none
  let chk := cells.filterMap fun x =>
    if x.1 / 96 = h ∧ x.1 % 4 = (p % 4 + 1) % 4 ∧ s.c0 ≤ x.2 then some ((x.2 - s.c0) * 24 + x.1 % 96 / 4) else none
  let ring := s.lp.deltas.filterMap fun d => if d.half = h ∧ d.slot = p % 4 then some d.line else none
  ((data ++ chk ++ ring).filter fun l => decide (l < s.c0)).eraseDups

/-- The region records of two pairs, for the regions of lines [lo, hi), change places (R535: the crypto area moves with
the pair's lines). -/
def State.swapRegions (s : State) (a b lo hi : Nat) : State :=
  let mine := fun (k : Nat) => decide (lo ≤ k % 2 ^ 17 * 1024 ∧ k % 2 ^ 17 * 1024 < hi)
  let key := fun (k : Nat) =>
    if mine k && decide (k / 2 ^ 17 = a) then b * 2 ^ 17 + k % 2 ^ 17
    else if mine k && decide (k / 2 ^ 17 = b) then a * 2 ^ 17 + k % 2 ^ 17 else k
  s.modCry fun c => { c with
    regions := c.regions.foldl (fun t e => Tab.insert t (key e.1) e.2) [],
    scrubSkip := Tab.insert (Tab.insert c.scrubSkip a true) b true }

/-- Lines [lo, hi) taken out of ranges of lines. -/
def cutRange (lo hi : Nat) (rs : List (Nat × Nat)) : List (Nat × Nat) :=
  rs.flatMap fun r => [(r.1, min r.2 lo), (max r.1 hi, r.2)].filter fun x => decide (x.1 < x.2)
/-- Lines [lo, hi) of ranges of lines. -/
def keepRange (lo hi : Nat) (rs : List (Nat × Nat)) : List (Nat × Nat) :=
  (rs.map fun r => (max r.1 lo, min r.2 hi)).filter fun x => decide (x.1 < x.2)
/-- Whether a line's data went with a die (R178). -/
def Pair.goneAt (p : Pair) (line : Nat) : Bool := p.gone.any fun r => decide (r.1 ≤ line ∧ line < r.2)
/-- A line is written whole: its poison and its loss end (R155). -/
def Pair.fresh (p : Pair) (line : Nat) : Pair :=
  { p with poison := Tab.erase p.poison line, gone := cutRange line (line + 1) p.gone }
/-- The marks of lines [lo, hi) of pair `a` pass to pair `b`, with `more` of them poisoned. -/
def State.passMarks (s : State) (a b lo hi : Nat) (more : List Nat) : State :=
  let inside := fun (l : Nat) => decide (lo ≤ l ∧ l < hi)
  let x := s.pair a
  let bad := more.foldl (fun t l => Tab.insert t l true) (x.poison.filter fun e => inside e.1)
  s.modPair b fun y => { y with
    poison := (y.poison.filter fun e => !inside e.1).foldl (fun t e => Tab.insert t e.1 e.2) bad,
    gone := keepRange lo hi x.gone ++ cutRange lo hi y.gone }

/-- Lines [lo, hi) of pair `a` are copied to pair `b` through the write path, poison with them (R238, R241): `found` names
lines that the copy's reads find beyond their own codes. A failed die is read through its stripe. -/
def State.copyRange (s : State) (a b lo hi : Nat) (found : List (Nat × Ecc)) : State :=
  let lost := (s.pair a).failed
  let ls := (((if lost then s.stripeLines a else s.linesOf a) ++ s.linesOf b ++ found.map (·.1)).filter
    fun l => decide (lo ≤ l ∧ l < hi)).eraseDups
  let fact := fun (l : Nat) => ((found.find? fun f => decide (f.1 = l)).map (·.2)).getD .clean
  let via := fun (l : Nat) => lost || (fact l).rebuilds || (fact l).lost
  let poor := ls.filter fun l => via l && ((fact l).lost || !s.protected a l)
  let s := s.each ls fun s l => s.putLine b l (if via l then s.rebuildLine a l else s.line (pairKey a (l * 64)))
  (s.passMarks a b lo hi poor).swapRegions a b lo hi

/-- Step 3 of R173: lines [lo, hi) of a failed die count as zero in their stripes. -/
def State.zeroShare (s : State) (p lo hi : Nat) : State :=
  s.each ((s.stripeLines p).filter fun l => decide (lo ≤ l ∧ l < hi)) fun s l =>
    let s := s.settleStripe p l
    if s.protected p l then s.xorCheck p l (s.rebuildLine p l) else s

/-- R173 steps 1 to 3 for lines [lo, hi) of failed pair `p` onto spare `d`. -/
def State.rebuildRange (s : State) (p d lo hi : Nat) (found : List (Nat × Ecc)) : State :=
  (s.copyRange p d lo hi found).zeroShare p lo hi

/-! ### A pair fails -/

/-- Two physical pairs change places in MEM_PAIR_MAP, the regulator entries with them (R173, R238). -/
def MemSh.swapPairs (m : MemSh) (a b : Nat) : MemSh :=
  let key := fun (k : Nat) => if k / 64 = a then b * 64 + k % 64 else if k / 64 = b then a * 64 + k % 64 else k
  let one := fun (t : Tab (BitVec 8)) (l : Nat) =>
    let x := (m.phys l).toNat
    if x = a then Tab.insert t l (BitVec.ofNat 8 b) else if x = b then Tab.insert t l (BitVec.ofNat 8 a) else t
  { m with pairMap := (List.range 192).foldl one m.pairMap, regs := m.regs.foldl (fun t e => Tab.insert t (key e.1) e.2) [] }

/-- A rebuild starts for a DEGRADED pair of a half, onto a spare that is held (R173), one rebuild at a time. -/
def State.spareUp (s : State) (half : Nat) : State :=
  if s.rebuilding half then s else
    let m := s.moveH half
    let moves := decide (m.st = .copying ∨ m.st = .switching ∨ m.st = .clearing)
    let free := fun (p : Nat) => decide ((s.pair p).st = .degraded) && !(moves && decide (m.src.toNat = p))
    match ((List.range 96).map (· + half * 96)).find? free, s.spareOf half with
    | some p, some d => (s.setPairSt p .rebuilding).modPair p fun x => { x with rebuildTo := some d, cursor := 0, rebuildPct := 0 }
    | _, _ => s

/-- A move ends aborted (R241): every line goes on being served by its source, those that the destination had taken over
with what was written to them there. A map commit that Itlum holds for it is dropped. -/
def State.moveAborts (s : State) (half : Nat) : State :=
  let m := s.moveH half
  let s := s.copyRange m.dst.toNat m.src.toNat 0 m.cursor.toNat []
  let heldIt := match s.itl.held with
    | some h => match h.change with
      | .pairSwitch g _ _ _ => decide (g = half)
      | _ => false
    | none => false
  let s := s.when heldIt fun s =>
    (s.modItl fun i => { i with held := none }).modLp fun x => { x with
      sh := { x.sh with pend := x.sh.pend.swapPairs m.src.toNat m.dst.toNat, acc := none } }
  (s.modMove half fun m => { m with st := .aborted }).opDone 0x0306 0 half 0 5 0

/-- Itlum declares a pair failed (R172): DEGRADED, then onto a held spare under R173; a move it takes part in becomes a
rebuild or aborts (R241); guarantees are reckoned again (R245). A switch whose commit has taken place runs on. -/
def State.pairFailed (s : State) (phys : Nat) : State :=
  if (s.pair phys).failed then s else
  let half := phys / 96
  let m := s.moveH half
  let switching := decide (m.st = .switching) && s.itl.held.any fun h => match h.change with
    | .pairSwitch g _ _ _ => decide (g = half)
    | _ => false
  let s := s.setPairSt phys .degraded
  let s :=
    if m.st = .copying ∧ m.src.toNat = phys then
      let s := (s.modMove half fun m => { m with st := .aborted }).opDone 0x0306 0 half 0 5 0
      ((s.setPairSt phys .rebuilding).modPair phys fun p =>
        { p with rebuildTo := some m.dst.toNat, cursor := m.cursor.toNat }).zeroShare phys 0 m.cursor.toNat
    else if (m.st = .copying ∨ switching) ∧ m.dst.toNat = phys then s.moveAborts half
    else s
  (s.spareUp half).regaugeHalf half

/-- Poison a line of a pair (R170 step 5): counted, its event; a full poison table fails the pair (R172). -/
def State.dramPoison (s : State) (phys line : Nat) : State :=
  let s := s.modPair phys fun p => { p with poison := Tab.insert p.poison line true, ue := satInc p.ue }
  let s := s.pulse (544 + phys / 4)
  if 1024 ≤ (s.pair phys).poison.length then s.pairFailed phys else s

/-- A line rebuilt (R170 step 4): counted, its event; more than 64 within a period fail the pair (R172). -/
def State.dramRebuilt (s : State) (phys : Nat) : State :=
  let s := s.modPair phys fun p => { p with rebuilt := satInc p.rebuilt, rebuiltPeriod := p.rebuiltPeriod + 1 }
  let s := s.pulse (544 + phys / 4)
  if 64 < (s.pair phys).rebuiltPeriod then s.pairFailed phys else s

/-- A read repeated after link ECC is counted (R170 step 1). -/
def State.linkRetried (s : State) (phys : Nat) (ecc : Ecc) : State :=
  if ecc.retried && !(s.pair phys).failed then s.modPair phys fun p => { p with linkRetry := satInc p.linkRetry } else s

/-- The read of a line through R170: the STATUS, the data, the state. Crypto-area and check lines take the same path. -/
def State.dramFetch (s : State) (phys line : Nat) (ecc : Ecc) : Nat × Line × State :=
  let p := s.pair phys
  let key := pairKey phys (line * 64)
  if (Tab.find p.poison line).isSome then (3, 0, s) else
  let s := s.linkRetried phys ecc
  if p.goneAt line then (3, 0, s.dramPoison phys line)
  else if p.failed || ecc.rebuilds || ecc.lost then
    if s.protected phys line && !ecc.lost then
      let l := s.rebuildLine phys line
      let s := s.settleStripe phys line
      (0, l, (if p.failed then s else s.storeLine key l).dramRebuilt phys)
    else (3, 0, s.dramPoison phys line)
  else (0, s.line key, s)

/-- Send the delta of a line write over the half's memory ring (R171). -/
def State.pushDelta (s : State) (phys line : Nat) (x : Line) : State :=
  if s.c0 ≤ line then s else s.modLp fun m => { m with deltas := m.deltas ++ [⟨phys / 96, phys % 4, line, x⟩] }

/-- Store a line whose old contents are `old` (R171, R172): a failed die is not written. -/
def State.dramStore (s : State) (phys line : Nat) (old new : Line) : State :=
  let s := if (s.pair phys).failed then s else s.storeLine (pairKey phys (line * 64)) new
  s.pushDelta phys line (old ^^^ new)

/-- The old line of a write of all 64 bytes (R171 step 1), read under R170: where nothing delivers it, what its stripe
still counts of it. -/
def State.oldLine (s : State) (phys line : Nat) (ecc : Ecc) : Line × State :=
  let p := s.pair phys
  let marked := (Tab.find p.poison line).isSome || p.goneAt line
  let s := s.linkRetried phys ecc
  if p.failed || (ecc.rebuilds && s.protected phys line) then
    let l := s.rebuildLine phys line
    let s := s.settleStripe phys line
    (l, if !marked && !ecc.lost && s.protected phys line then s.dramRebuilt phys else s)
  else (s.line (pairKey phys (line * 64)), s)

/-! ### Inline encryption of data lines -/

/-- The key of a region in `cry.regions`: pair × 2^17 + region (R536). -/
def regionKey (phys line : Nat) : Nat := phys * 2 ^ 17 + line / 1024
def State.region (s : State) (k : Nat) : Region := Tab.get (fun _ => {}) s.cry.regions k
def State.modRegion (s : State) (k : Nat) (f : Region → Region) : State :=
  s.modCry fun c => { c with regions := Tab.insert c.regions k (f (s.region k)) }

/-- Whether the engines of a half hold a key under a KID (R529, R531): the built-in key counts by its derivation. -/
def State.kidLoaded (s : State) (half : Nat) (k : BitVec 6) (gen : Nat) : Bool :=
  if k = 1 then decide (gen = s.cry.gen1) else Tab.get (fun _ => false) s.cry.loaded (half * 64 + k.toNat)

/-- Whether a region is keyless (R542). -/
def State.keyless (s : State) (k : Nat) : Bool :=
  let r := s.region k
  let h := k / 2 ^ 17 / 96
  !(s.kidLoaded h r.kid r.gen) || (r.re && !(s.kidLoaded h r.okid r.gen))

/-- The key bits of a KID. -/
def State.kidKey (s : State) (k : BitVec 6) : BitVec 256 := (s.keySlot k.toNat).key

/-- The key and the stamp that apply to a line of a region (R532). -/
def State.lineKey (s : State) (r : Region) (line : Nat) : BitVec 256 × Nat :=
  if !r.re || decide (line % 1024 < r.cursor.toNat) then (s.kidKey r.kid, r.base.toNat) else (s.kidKey r.okid, r.obase.toNat)
/-- The MAC of a line under the key and stamp that apply to it (R533). -/
def State.lineMac (s : State) (r : Region) (mpa line : Nat) (l : Line) : DWord :=
  Sys2Proof.Machine.lineMac (s.lineKey r line).1 mpa (s.lineKey r line).2 l

/-- USERS of a KID, counted up or down (R540, R553). -/
def State.kidUsers (s : State) (k : BitVec 6) (up : Bool) : State :=
  s.modKid k.toNat fun x => { x with users := if up then x.users + 1 else x.users - 1 }

/-- A region moves onto the current KID (R540). -/
def State.regionMove (s : State) (k : Nat) : State :=
  let cur := s.cry.curMem
  let s := s.modRegion k fun r =>
    { r with okid := r.kid, obase := r.base, kid := cur, wc := 0, base := 0, cursor := 0, re := true, gen := s.cry.gen1 }
  s.kidUsers cur true

/-- The effects of a data-line write on its region (R537 to R539): WC, RMAC, refresh, move, aging. -/
def State.regionWrite (s : State) (phys line mpa : Nat) (old new : Line) : State :=
  let k := regionKey phys line
  let r := s.region k
  let s := s.modRegion k fun r =>
    { r with wc := r.wc + 1, rmac := r.rmac ^^^ s.lineMac r mpa line old ^^^ s.lineMac r mpa line new }
  let wc := r.wc.toNat + 1
  let s :=
    if wc = 2 ^ 45 ∧ r.kid = s.cry.curMem ∧ (Tab.find s.cry.aged r.kid.toNat).isNone then
      (s.modCry fun c => { c with aged := Tab.insert c.aged r.kid.toNat true }).pulse 897
    else s
  if r.re then s
  else if 2 ^ 46 - 2 ^ 24 ≤ wc then
    if r.kid = s.cry.curMem then
      if wc = 2 ^ 46 - 2 ^ 24 then
        (s.modCry fun c => { c with starved := true }).pulse 898
      else s
    else (s.regionMove k).modCry fun c => { c with exhaust := satInc c.exhaust }
  else if 2 ^ 20 ≤ wc - r.base.toNat then
    s.modRegion k fun r => { r with okid := r.kid, obase := r.base, base := r.wc, cursor := 0, re := true }
  else s

/-- Whether writes of a line wait under exhaustion (R539). -/
def State.writesWait (s : State) (phys line : Nat) : Bool :=
  let r := s.region (regionKey phys line)
  decide (line < s.dataLines) && decide (r.wc.toNat = 2 ^ 46 - 1) && decide (r.kid = s.cry.curMem)

/-- Count an access to a keyless region (R542). -/
def State.noKey (s : State) : State := s.modCry fun c => { c with noKey := satInc c.noKey }

/-- An access to a keyless region is answered with STATUS 0x03 (R542), which UE counts (R189). -/
def State.keyUe (s : State) (phys : Nat) : State := s.noKey.modPair phys fun p => { p with ue := satInc p.ue }

/-- Read a pair line (R170, R542). -/
def State.dramRead (s : State) (phys line : Nat) (ecc : Ecc) : Nat × Line × State :=
  if line < s.dataLines ∧ s.keyless (regionKey phys line) then (3, 0, s.keyUe phys)
  else s.dramFetch phys line ecc

/-- Write bytes of a pair line at MPA `mpa` (R155, R171, R537, R542). -/
def State.dramWrite (s : State) (phys line mpa : Nat) (data : Line) (be : DWord) (ecc : Ecc) : Nat × State :=
  if line < s.dataLines ∧ s.keyless (regionKey phys line) then (3, s.keyUe phys) else
  let poisoned := (Tab.find (s.pair phys).poison line).isSome
  if be = BitVec.allOnes 64 then
    let r := s.oldLine phys line ecc
    let s := r.2.modPair phys fun p => p.fresh line
    let s := s.dramStore phys line r.1 data
    (0, if line < s.dataLines then s.regionWrite phys line mpa r.1 data else s)
  else if poisoned then (3, s)
  else
    let r := s.dramFetch phys line ecc
    if r.1 ≠ 0 then (r.1, r.2.2) else
      let new := Line.merge r.2.1 data be
      let s := r.2.2.dramStore phys line r.2.1 new
      (0, if line < s.dataLines then s.regionWrite phys line mpa r.2.1 new else s)

/-! ### A line by MPA -/

/-- Read the line that holds MPA `mpa` at its place. -/
def State.placeRead (s : State) (pl : Place) (ecc : Ecc) : Nat × Line × State :=
  match pl with
  | .sram t off => s.sramRead t off ecc
  | .dram _ p line _ => s.dramRead p line ecc
  | .unbacked => (2, 0, s)

def State.placeWrite (s : State) (pl : Place) (mpa : Nat) (data : Line) (be : DWord) (ecc : Ecc) : Nat × State :=
  match pl with
  | .sram t off => s.sramWrite t off data be ecc
  | .dram _ p line _ => s.dramWrite p line (mpa / 64 * 64) data be ecc
  | .unbacked => (2, s)

/-- A refusal is counted at its target (R214). -/
def State.countRefused (s : State) (pl : Place) : State :=
  match pl with
  | .unbacked => s
  | _ =>
    let k := stopOf 0 pl
    s.modMesh fun m => { m with refused := Tab.insert m.refused k (Tab.get (fun _ => 0) m.refused k + 1) }

/-- A checked read of a line: STATUS, data, state (R212 to R214). -/
def State.readMpa (s : State) (w : Who) (scopeAny : Bool) (mpa : Nat) (ecc : Ecc) : Nat × Line × State :=
  let pl := s.place mpa
  let c := s.targetCheck w .rd pl scopeAny
  if c = 0 then s.placeRead pl ecc else (c, 0, s.countRefused pl)

/-- A checked write of bytes of a line. -/
def State.writeMpa (s : State) (w : Who) (mpa : Nat) (data : Line) (be : DWord) (ecc : Ecc) : Nat × State :=
  let pl := s.place mpa
  let c := s.targetCheck w .wr pl false
  if c ≠ 0 then (c, s.countRefused pl) else
    let s := match pl with
      | .dram _ _ _ _ => if w.free then s else s.dlogDevice w.cid mpa
      | _ => s
    s.placeWrite pl mpa data be ecc

end Sys2Proof.Machine
end

