-- ==== Sys2Proof/Machine/Xlat.lean ====
section
/-! DEFINITION. Address translation: the walk (R191 to R197), runs, the walk cache and look-aside entries (R194, R198, R199), the whole-access
check (R208, R209), and what a leaf leads to (R196). -/

namespace Sys2Proof.Machine

/-- What a walk ends in: a look-aside entry, a migration fault for the page of `log2` bytes at `base`, or a fault of
R217 with the level (7 for none) and the entry found. -/
inductive XRes
  | hit (e : XEntry)
  | mig (base log2 : Nat) (entry : DWord)
  | bad (reason level : Nat) (entry : DWord)
deriving DecidableEq, Repr

/-- An 8-byte table read (R193): STATUS and value. -/
def State.tableRead (s : State) (cid : Cid) (mpa : Nat) : Nat × DWord :=
  match s.place mpa with
  | .dram u p line b =>
    let c := s.targetCheck (Who.walk cid) .rd (.dram u p line b) true
    if c ≠ 0 then (1, 0)
    else if (Tab.find (s.pair p).poison line).isSome ∨ s.keyless (regionKey p line) then (3, 0)
    else if (s.pair p).failed then
      if s.protected p line then (0, BitVec.ofNat 64 ((s.rebuildLine p line).toNat / 2 ^ (8 * b))) else (3, 0)
    else (0, BitVec.ofNat 64 (s.wordAt (pairKey p (line * 64) + b) 8))
  | _ => (1, 0)

/-- log2 of the bytes one entry of a level maps (R191). -/
def levelLog2 (l : Nat) : Nat := 12 + 9 * l

/-- Whether an entry with V = 1 is a leaf at its level (R191, R195). -/
def isLeaf (l : Nat) (e : DWord) : Bool := decide (l = 0) || e.getLsbD 7

/-- OA of an entry, as an address (R195). -/
def entryOa (e : DWord) : Nat := fldN e 12 48 * 4096
/-- KIND of an entry (R196). -/
def entryKind (e : DWord) : Nat := fldN e 60 2
def entryRun (e : DWord) : Nat := fldN e 8 3

/-- Whether an entry with V = 1 is malformed (R197). -/
def State.malformed (s : State) (l : Nat) (e : DWord) (dva : Nat) : Bool :=
  let oa := entryOa e
  let p := 2 ^ levelLog2 l
  e.getLsbD 11 || decide (fldN e 0 4 ≠ 0) || decide (entryKind e = 3) ||
  (if isLeaf l e then
    decide (2 < l) || decide (oa % p ≠ 0) || decide (4 < entryRun e) ||
    decide (oa / p % 2 ^ entryRun e ≠ dva / p % 2 ^ entryRun e) || (decide (entryKind e = 0) && decide (2 ^ 46 ≤ oa))
  else decide (entryKind e ≠ 0) || decide (entryRun e ≠ 0) || decide (s.dataEnd ≤ oa))

/-- The look-aside entry a leaf builds, run included (R198). -/
def leafEntry (cid : Cid) (ctx : Ctx) (l : Nat) (e : DWord) (dva : Nat) : XEntry :=
  let size := levelLog2 l + entryRun e
  let oaBase := entryOa e / 2 ^ size * 2 ^ size
  { cid, ctx, base := dva / 2 ^ size * 2 ^ size, log2 := size,
    leaf := (e &&& ~~~(put 64 12 (BitVec.allOnes 48))) ||| put 64 12 (BitVec.ofNat 48 (oaBase / 4096)) }

/-- How a walk reads a table entry: STATUS and value, by level and MPA. -/
abbrev TableRd := Nat → Nat → Nat × DWord

/-- A walk from the table at `table` of level `l` (R191), its entries read by `rd`; fuel counts the levels left. -/
def State.walkBy (s : State) (rd : TableRd) (cid : Cid) (ctx : Ctx) (dva : Nat) (hostEn : Bool) : Nat → Nat → XRes
  | 0, _ => .bad 2 7 0
  | l + 1, table =>
    let r := rd l (table + 8 * (dva / 2 ^ levelLog2 l % 512))
    if r.1 = 1 then .bad 0x0B l 0
    else if r.1 ≠ 0 then .bad 0x0A l 0
    else
      let e := r.2
      if !e.getLsbD 63 then
        if !e.getLsbD 62 then .bad 0x01 l e
        else if l = 0 ∨ (l ≤ 2 ∧ e.getLsbD 7) then .mig (dva / 2 ^ levelLog2 l * 2 ^ levelLog2 l) (levelLog2 l) e
        else .bad 0x02 l e
      else if s.malformed l e dva then .bad 0x02 l e
      else if isLeaf l e then
        if entryKind e = 2 ∧ hostEn = false then .bad 0x09 l e else .hit (leafEntry cid ctx l e dva)
      else s.walkBy rd cid ctx dva hostEn l (entryOa e)

/-- A walk that reads every entry from memory. -/
def State.walkFrom (s : State) (cid : Cid) (ctx : Ctx) (dva : Nat) (hostEn : Bool) (l table : Nat) : XRes :=
  s.walkBy (fun _ a => s.tableRead cid a) cid ctx dva hostEn l table

/-- The context-table entry of a context (R192): its two words, where they read. -/
def State.ctxEntry (s : State) (cid : Cid) (ctx : Ctx) : Nat × DWord × DWord :=
  match s.slotOf cid with
  | none => (2, 0, 0)
  | some slot =>
    let c := s.ctab slot
    if !c.valid then (2, 0, 0) else
      let at_ := c.base.toNat * 65536 + 16 * ctx.toNat
      let a := s.tableRead cid at_
      let b := s.tableRead cid (at_ + 8)
      (if a.1 ≠ 0 then (if a.1 = 1 then 1 else 3) else 0, a.2, b.2)

/-- PASID of a context (R192). -/
def State.pasidOf (s : State) (cid : Cid) (ctx : Ctx) : BitVec 20 := fld (s.ctxEntry cid ctx).2.2 0 20

/-- Whether a context-table entry with V = 1 is malformed (R197). -/
def State.ctxMalformed (s : State) (w0 w1 : DWord) : Bool :=
  decide (fldN w0 46 15 ≠ 0) || decide (fldN w0 0 12 ≠ 0) || decide (fldN w1 20 44 ≠ 0) ||
  decide (s.dataEnd ≤ fldN w0 12 34 * 4096)

/-- A walk of a DVA from context-table entry `c` (R15, R191, R192). -/
def State.walkWith (s : State) (rd : TableRd) (c : Nat × DWord × DWord) (cid : Cid) (ctx : Ctx) (dva : Nat) : XRes :=
  if 2 ^ 57 ≤ dva then .bad 0x04 7 0
  else if c.1 = 1 then .bad 0x0B 7 0
  else if c.1 = 3 then .bad 0x0A 7 0
  else if c.1 = 2 ∨ !c.2.1.getLsbD 63 then .bad 0x05 7 c.2.1
  else if s.ctxMalformed c.2.1 c.2.2 then .bad 0x02 7 c.2.1
  else s.walkBy rd cid ctx dva (c.2.1.getLsbD 61) 5 (fldN c.2.1 12 34 * 4096)

/-- A walk of a DVA with nothing cached. -/
def State.walk (s : State) (cid : Cid) (ctx : Ctx) (dva : Nat) : XRes :=
  s.walkWith (fun _ a => s.tableRead cid a) (s.ctxEntry cid ctx) cid ctx dva

/-! ### The walk cache (R199) -/

def State.walkCache (s : State) (h : Nat) : List WalkEntry := Tab.get (fun _ => []) s.xlt.wcache h

/-- A cached entry of a half for level `l` of a DVA's walk; level 5 is the context-table entry. -/
def State.cached (s : State) (h : Nat) (cid : Cid) (ctx : Ctx) (dva l : Nat) : Option WalkEntry :=
  (s.walkCache h).find? fun e =>
    decide (e.cid = cid ∧ e.ctx = ctx ∧ e.level = l ∧ (l = 5 ∨ e.prefix_ = dva / 2 ^ levelLog2 l))

/-- The reads of a half's walker: a level found in its walk cache costs no read. -/
def State.cachedRd (s : State) (h : Nat) (cid : Cid) (ctx : Ctx) (dva : Nat) : TableRd := fun l a =>
  match s.cached h cid ctx dva l with
  | some e => (0, e.entry)
  | none => s.tableRead cid a

/-- The context-table entry that a half's walker sees. -/
def State.cachedCtx (s : State) (h : Nat) (cid : Cid) (ctx : Ctx) : Nat × DWord × DWord :=
  match s.cached h cid ctx 0 5 with
  | some e => (0, e.entry, e.second)
  | none => s.ctxEntry cid ctx

/-- A walk by a half's walker. -/
def State.walkHalf (s : State) (h : Nat) (cid : Cid) (ctx : Ctx) (dva : Nat) : XRes :=
  s.walkWith (s.cachedRd h cid ctx dva) (s.cachedCtx h cid ctx) cid ctx dva

/-- The table reads of a walk, level and MPA, down to its leaf or its fault. -/
def State.walkReads (s : State) (rd : TableRd) (dva : Nat) : Nat → Nat → List (Nat × Nat)
  | 0, _ => []
  | l + 1, table =>
    let a := table + 8 * (dva / 2 ^ levelLog2 l % 512)
    let r := rd l a
    (l, a) :: (if r.1 = 0 ∧ r.2.getLsbD 63 ∧ !(isLeaf l r.2) ∧ !(s.malformed l r.2 dva) then s.walkReads rd dva l (entryOa r.2) else [])

/-- The MPA of the context-table entry of a context (R192). -/
def State.ctxAt (s : State) (cid : Cid) (ctx : Ctx) : Option Nat :=
  (s.slotOf cid).map fun slot => (s.ctab slot).base.toNat * 65536 + 16 * ctx.toNat

/-- What a walk of a half leaves in its walk cache: the context-table entry and each non-leaf entry on the way to a leaf,
1,024 in all, the newest kept. -/
def State.cacheWalk (s : State) (h : Nat) (cid : Cid) (ctx : Ctx) (dva : Nat) : State :=
  let c := s.cachedCtx h cid ctx
  let rd := s.cachedRd h cid ctx dva
  match s.walkHalf h cid ctx dva with
  | .hit _ =>
    let steps := (s.walkReads rd dva 5 (fldN c.2.1 12 34 * 4096)).dropLast
    let new := { cid, ctx, level := 5, entry := c.2.1, second := c.2.2 } ::
      steps.map fun x => ({ cid, ctx, level := x.1, prefix_ := dva / 2 ^ levelLog2 x.1, entry := (rd x.1 x.2).2 } : WalkEntry)
    let old := s.walkCache h
    let all := (new.filter fun e => !old.contains e) ++ old
    s.modXlt fun x => { x with wcache := Tab.insert x.wcache h (all.take 1024) }
  | _ => s

/-- A walk whose table read is refused (reason 0x0B) is counted at the target that refused it (R214). -/
def State.countWalk (s : State) (h : Nat) (cid : Cid) (ctx : Ctx) (dva reason level : Nat) : State :=
  if reason ≠ 0x0B then s else
    let a := if level = 7 then s.ctxAt cid ctx
      else ((s.walkReads (s.cachedRd h cid ctx dva) dva 5 (fldN (s.cachedCtx h cid ctx).2.1 12 34 * 4096)).getLast?).map (·.2)
    match a with
    | some a => s.countRefused (s.place a)
    | none => s

/-! ### Look-aside structures -/

def XEntry.covers (e : XEntry) (cid : Cid) (ctx : Ctx) (dva : Nat) : Bool :=
  decide (e.cid = cid) && decide (e.ctx = ctx) && decide (dva / 2 ^ e.log2 * 2 ^ e.log2 = e.base)

def State.halfLook (s : State) (h : Nat) : List XEntry := Tab.get (fun _ => []) s.xlt.look h

/-- A translation held by a tile's or its half's look-aside (R199). -/
def State.lookup (s : State) (t : Nat) (cid : Cid) (ctx : Ctx) (dva : Nat) : Option XEntry :=
  match (s.tile t).look.find? fun e => e.covers cid ctx dva with
  | some e => some e
  | none => (s.halfLook (t / 272)).find? fun e => e.covers cid ctx dva

/-- Keep the newest `n` entries, `e` the newest of all (R199: any entry may be dropped). -/
def keepNewest (n : Nat) (es : List XEntry) (e : XEntry) : List XEntry := (e :: es.filter fun x => x != e).take n

/-- Install a translation in the half's and the tile's look-aside (R199). -/
def State.install (s : State) (t : Nat) (e : XEntry) : State :=
  let h := t / 272
  let s := s.modXlt fun x => { x with look := Tab.insert x.look h (keepNewest 8192 (s.halfLook h) e) }
  s.modTile t fun x => { x with look := keepNewest 64 x.look e }

/-- A tile's look-aside entries and those of the halves' structures for a composition are dropped (R194): a bridle change
moves what its pages lead to. -/
def State.dropLook (s : State) (cid : Cid) : State :=
  let keep := fun (es : List XEntry) => es.filter fun e => decide (e.cid ≠ cid)
  let s := s.modXlt fun x => { x with look := x.look.map fun (e : Nat × List XEntry) => (e.1, keep e.2) }
  { s with tiles := s.tiles.map fun (t : Nat × Tile) => (t.1, { t.2 with look := keep t.2.look }) }

/-- A walk with a look-aside in front: the translation of a DVA that starts now. -/
def State.translate (s : State) (t : Nat) (cid : Cid) (ctx : Ctx) (dva : Nat) : XRes :=
  if 2 ^ 57 ≤ dva then .bad 0x04 7 0 else
  match s.lookup t cid ctx dva with
  | some e => .hit e
  | none => s.walkHalf (t / 272) cid ctx dva

/-! ### The whole-access check -/

/-- A span of one access: first DVA, bytes, whether it reads and writes, whether its master is privileged, its row. -/
structure Span where
  at_ : Nat
  len : Nat
  acc : Acc
  priv : Bool
  row : Nat
deriving DecidableEq, Repr

/-- A translation fault as its record tells it (R216). -/
structure XFault where
  dva : Nat
  reason : Nat
  level : Nat
  entry : DWord
  acc : Acc
  priv : Bool
  row : Nat
  extent : Nat
deriving DecidableEq, Repr

/-- What the check has found so far (R209): entries, the first fault other than migration, the first migration fault
(first byte and log2 of the page, its entry), whether a walk is still needed. -/
structure Check where
  entries : List XEntry := []
  fault : Option XFault := none
  mig : Option (Nat × Nat × DWord) := none
  miss : Bool := false
deriving DecidableEq, Repr

/-- Whether a privileged master lacks the right on a page (R215). -/
def rightLacking (sp : Span) (leaf : DWord) : Bool :=
  sp.priv && (match sp.acc with
    | .rd => !leaf.getLsbD 4
    | .wr => !leaf.getLsbD 5
    | .atomic => !leaf.getLsbD 6)

/-- Visit the pages of a span in ascending DVA (R209). `tr` answers none where a walk has still to run. -/
def visitSpan (tr : Nat → Option XRes) (sp : Span) : Nat → Nat → Check → Check
  | 0, _, c => c
  | fuel + 1, a, c =>
    if sp.at_ + sp.len ≤ a then c else
    let f := fun (reason level : Nat) (entry : DWord) (c : Check) =>
      if c.fault.isSome then c else
        { c with fault := some ⟨a, reason, level, entry, sp.acc, sp.priv, sp.row, sp.at_⟩ }
    match tr a with
    | none => { c with miss := true }
    | some (.hit e) =>
      let c := if rightLacking sp e.leaf then f 0x03 ((e.log2 - 12) / 9) e.leaf c else c
      let c := if c.entries.contains e then c else { c with entries := c.entries ++ [e] }
      visitSpan tr sp fuel (e.base + 2 ^ e.log2) c
    | some (.mig base log2 entry) =>
      let c := if c.mig.isSome then c else { c with mig := some (base, log2, entry) }
      visitSpan tr sp fuel (base + 2 ^ log2) c
    | some (.bad reason level entry) =>
      visitSpan tr sp fuel (a / 4096 * 4096 + 4096) (f reason level entry c)

/-- Check a list of spans in order. -/
def visitSpans (tr : Nat → Option XRes) (spans : List Span) : Check :=
  spans.foldl (fun c sp => visitSpan tr sp (sp.len / 4096 + 2) sp.at_ c) {}

/-- Where a translated address leads (R196). -/
inductive Target
  | localMpa (mpa : Nat)
  | window (fa : Nat)
  | host (addr : Nat)
deriving DecidableEq, Repr

def XEntry.target (e : XEntry) (dva : Nat) : Target :=
  let a := entryOa e.leaf + (dva - e.base)
  match entryKind e.leaf with
  | 1 => .window a
  | 2 => .host a
  | _ => .localMpa a

/-- The target of a DVA under the entries a check kept. -/
def targetOf (es : List XEntry) (dva : Nat) : Option Target :=
  (es.find? fun e => decide (dva / 2 ^ e.log2 * 2 ^ e.log2 = e.base)).map fun e => e.target dva

/-- The bits R, W, A of the page of a DVA in RIGHTS order (R215). -/
def rightsOf (es : List XEntry) (dva : Nat) : BitVec 3 :=
  match es.find? fun e => decide (dva / 2 ^ e.log2 * 2 ^ e.log2 = e.base) with
  | some e => fld e.leaf 4 3
  | none => 0

/-- ACCESS bits of a fault record (R216): read 0, write 1, atomic 2 (log entry 15). -/
def Acc.bits : Acc → Nat
  | .rd => 1
  | .wr => 2
  | .atomic => 4

end Sys2Proof.Machine
end

