-- ==== Sys2Proof/Machine/Objects.lean ====
section
/-! DEFINITION. Memory objects: the object table's entries (R356, R357), handles (R359), references (R360); lines read
and written by the queue parser and the sync units through translation. -/

namespace Sys2Proof.Machine

/-! ### Bytes at an MPA, for the module's own units -/

/-- Read `n` bytes (within one line) at an MPA: STATUS and value. -/
def State.mpaWord (s : State) (w : Who) (mpa n : Nat) : Nat × Nat :=
  let r := s.readMpa w false mpa .clean
  (r.1, if r.1 = 0 then r.2.1.toNat / 2 ^ (8 * (mpa % 64)) % 2 ^ (8 * n) else 0)

/-- The byte enables of `n` bytes from offset `o` of a line. -/
def enables (o n : Nat) : DWord := BitVec.ofNat 64 ((2 ^ n - 1) * 2 ^ o)
/-- A line that holds a value at byte offset `o`. -/
def lineAt (o v : Nat) : Line := BitVec.ofNat 512 (v * 2 ^ (8 * o))

/-- Write `n` bytes (within one line) at an MPA. -/
def State.mpaStore (s : State) (w : Who) (mpa n v : Nat) : Nat × State :=
  s.writeMpa w mpa (lineAt (mpa % 64) v) (enables (mpa % 64) n) .clean

/-! ### Objects -/

/-- An object-table entry (R357). -/
structure ObjEntry where
  st : Nat
  gen : Nat
  kind : Nat
  refs : Nat
  dva : Nat
  size : Nat
  xctx : Ctx
deriving DecidableEq, Repr

def State.objTab (s : State) (cid : Cid) : Option ObjTable := Tab.find s.que.objs cid.toNat

/-- The MPA of entry `i` of a composition's table. -/
def objAt (t : ObjTable) (i : Nat) : Nat := t.mpa.toNat + 32 * i

/-- Read entry `i`: none where the table is absent, the index lies beyond it, or the line does not read. -/
def State.objEntry (s : State) (cid : Cid) (i : Nat) : Option ObjEntry :=
  match s.objTab cid with
  | none => none
  | some t =>
    if 2 ^ t.log2 ≤ i then none else
    let r := s.mpaWord Who.zesin (objAt t i) 32
    if r.1 ≠ 0 then none else
    let v := r.2
    some { st := v % 256, gen := v / 2 ^ 8 % 256, kind := v / 2 ^ 16 % 16,
           refs := v / 2 ^ 32 % 2 ^ 24, dva := v / 2 ^ 64 % 2 ^ 64, size := v / 2 ^ 128 % 2 ^ 64,
           xctx := BitVec.ofNat 12 (v / 2 ^ 192) }

/-- Write the word at offset 0x00 of an entry: STATE, GEN. -/
def State.objSetState (s : State) (cid : Cid) (i st gen : Nat) : State :=
  match s.objTab cid with
  | none => s
  | some t => (s.mpaStore Who.zesin (objAt t i) 2 (st + gen * 256)).2

/-- Write REFS of an entry (R358). -/
def State.objSetRefs (s : State) (cid : Cid) (i refs : Nat) : State :=
  match s.objTab cid with
  | none => s
  | some t => (s.mpaStore Who.zesin (objAt t i + 4) 3 refs).2

/-- How a handle resolves (R359). -/
inductive Resolved
  | ok (i : Nat) (e : ObjEntry)
  | stale
  | bad
deriving DecidableEq, Repr

/-- Where the line of a FENCE or SEMAPHORE lies: the MPA its DVA translates to, a LOCAL leaf, 64-byte aligned. -/
def State.objLine (s : State) (cid : Cid) (e : ObjEntry) : Option Nat :=
  match s.walk cid e.xctx e.dva with
  | .hit x =>
    match x.target e.dva with
    | .localMpa m => if m % 64 = 0 then some m else none
    | _ => none
  | _ => none

/-- Resolve a handle for an operation that needs kind `kind`; 0 takes any kind (R359). -/
def State.resolve (s : State) (cid : Cid) (handle : Word) (kind : Nat) : Resolved :=
  let i := fldN handle 0 24
  match s.objEntry cid i with
  | none => .bad
  | some e =>
    if 2 < e.st ∨ e.gen = 0 ∨ e.kind = 0 ∨ 3 < e.kind then .bad
    else if e.st ≠ 1 ∨ e.gen ≠ fldN handle 24 8 then .stale
    else if kind ≠ 0 ∧ e.kind ≠ kind then .bad
    else if (e.kind = 2 ∨ e.kind = 3) ∧ (e.size ≠ 64 ∨ (s.objLine cid e).isNone) then .bad
    else .ok i e

/-- Whether one more reference fits (R360). -/
def State.refFits (s : State) (cid : Cid) (i : Nat) : Bool :=
  match s.objEntry cid i with
  | some e => decide (e.refs < 0xFFFFFF)
  | none => true

/-- Take a reference (R360). -/
def State.takeRef (s : State) (cid : Cid) (i : Nat) : State :=
  match s.objEntry cid i with
  | some e => s.objSetRefs cid i (e.refs + 1)
  | none => s

/-- A packet with every field zero. -/
def zeroPacket : Packet := ⟨0, 0, 0, 0, 0, 0, 0, 0, 0, 0, 0, 0, 0, 0, 0⟩

/-! ### Requests of the module's own units -/

/-- The key of an outstanding request. -/
def reqKey (stop tag : Nat) : Nat := stop * 256 + tag
/-- A tag of a stop that no outstanding request uses (R129). -/
def State.freeTag (s : State) (stop : Nat) : Option Nat :=
  (List.range 256).find? fun g => (Tab.find s.mesh.reqs (reqKey stop g)).isNone

/-- A unit's write through a window leaves its stop under a free tag, its page kept for XLT.SYNC (R129, R202); where all
are in use it leaves under tag 0 and its response is discarded. -/
def State.unitSend (s : State) (stop : Nat) (p : Packet) (via : Nat × Nat) : State :=
  match s.freeTag stop with
  | none => s.emit (.mesh p)
  | some g =>
    let p := { p with tag := BitVec.ofNat 8 g }
    let m : MeshReq := { who := .unit, pkt := p, cls := 2, via := some via }
    (s.modMesh fun x => { x with reqs := Tab.insert x.reqs (reqKey stop g) m }).emit (.mesh p)

/-! ### The queue parser's accesses -/

/-- Whether a composition's host requests can go out on a function (R329, R330): the port, if so. -/
def State.hostWay (s : State) (cid : Cid) : Option (Nat × Nat) :=
  match s.boundFunc cid with
  | some hf =>
    if s.portUp hf.1 && decide ((s.func hf.1 hf.2).tdi ≠ .error) then some hf else none
  | none => none

/-- A write of bytes at a DVA of a context by the queue parser of tile `home`, within one line (R363, R370); answers
whether it was served. -/
def State.parserWrite (s : State) (home : Nat) (cid : Cid) (ctx : Ctx) (dva n v : Nat) : Bool × State :=
  match s.walk cid ctx dva with
  | .hit e =>
    match e.target dva with
    | .localMpa m =>
      let r := s.mpaStore { Who.of cid ctx with boot := true } m n v
      (decide (r.1 = 0), r.2)
    | .host a =>
      match s.hostWay cid with
      | some hf => (true, s.hostWrite hf.1 hf.2 (some (s.pasidOf cid ctx)) (BitVec.ofNat 64 a) (toBytes n v))
      | none => (false, s)
    | .window fa =>
      let p := { zeroPacket with
        type := 2, dest := 0x250, src := BitVec.ofNat 10 home, cid := cid, ctx := ctx, cls := 7,
        epoch := s.epochOfCid cid, addr := BitVec.ofNat 60 (fa / 64 * 64), byteEn := enables (fa % 64) n,
        data := lineAt (fa % 64) v }
      (true, s.unitSend home p (e.base, e.log2))
  | _ => (false, s)

end Sys2Proof.Machine
end

