-- ==== Sys2Proof/Machine/Queues.lean ====
section
/-! DEFINITION. Command queues from the inside: status lines, completion entries (R363, R364, R370), the release of
references and the end of FREE (R360, R361). -/

namespace Sys2Proof.Machine

/-! ### Fields of a packet (R366, R368) -/

def pktF (p : BitVec 256) (byte lo w : Nat) : Nat := p.toNat / 2 ^ (8 * byte + lo) % 2 ^ w
def pktOpc (p : BitVec 256) : Nat := pktF p 0 0 8
def pktCpl (p : BitVec 256) : Bool := p.getLsbD 8
def pktAfter (p : BitVec 256) : Bool := p.getLsbD 9
def pktIrq (p : BitVec 256) : Bool := p.getLsbD 10
def pktCtx (p : BitVec 256) : Ctx := BitVec.ofNat 12 (pktF p 2 0 12)
def pktTag (p : BitVec 256) : Nat := pktF p 4 0 32

/-- The composition a queue belongs to: its slot's (R383). -/
def State.qCid (s : State) (e : Nat) : Cid := (s.slotE (s.qSh e).slot.toNat).2

/-- A queue fault's record (R377 kind 0x03). -/
def queueBody (qnum index tag info : Nat) (pkt : BitVec 256) : Bytes :=
  toBytes 4 qnum ++ toBytes 4 index ++ toBytes 4 tag ++ toBytes 4 info ++ toBytes 32 pkt.toNat

/-- A queue fault that loses no context (R364, R365, R369): recorded where there is room, else dropped. -/
def State.queueRecord (s : State) (e code : Nat) (index tag info : Nat) (pkt : BitVec 256) (ctx : Ctx) : State :=
  let q := s.qSh e
  let cid := s.qCid e
  let slot := q.slot.toNat
  match s.fqTarget cid slot with
  | some hf =>
    if 64 < s.fqFree slot then s.fqWrite slot hf 3 code ctx cid (queueBody q.qnum.toNat index tag info pkt) else s.fqDrop slot
  | none => s.fqDrop slot

/-- The record of a queue whose registration `q` has ended with its home tile (R365, R377). -/
def State.queueRecordOf (s : State) (q : QSh) (cid : Cid) (code : Nat) : State :=
  match s.fqTarget cid q.slot.toNat with
  | some hf =>
    if 64 < s.fqFree q.slot.toNat then s.fqWrite q.slot.toNat hf 3 code q.qctx cid (queueBody q.qnum.toNat 0 0 0 0)
    else s.fqDrop q.slot.toNat
  | none => s.fqDrop q.slot.toNat

/-- Write a queue's status line (R363). -/
def State.statusWrite (s : State) (e : Nat) : Bool × State :=
  let q := s.qSh e
  let r := s.qRo e
  let code := match r.st with
    | .unregistered => 0
    | .running => 1
    | .stopped => 2
    | .broken => 3
  s.parserWrite (e / 16) (s.qCid e) q.qctx q.stat.toNat 64 (r.head.toNat + code * 2 ^ 32 + q.lease.toNat * 2 ^ 64)

/-- A queue enters BROKEN (R364). -/
def State.breakQueue (s : State) (e : Nat) (index : Nat) : State :=
  if (s.qRo e).st = .broken then s else
  let s := s.modQ e fun r => { r with st := .broken }
  let s := (s.statusWrite e).2
  s.queueRecord e 0x0A index 0 0 0 (s.qSh e).qctx

/-- A queue changes state, with its status line (R363). -/
def State.setQueue (s : State) (e : Nat) (st : QState) : State :=
  let s := s.modQ e fun r => { r with st := st }
  let w := s.statusWrite e
  if w.1 then w.2 else w.2.breakQueue e (s.qRo e).head.toNat

/-- Write the completion entry of a command (R370). -/
def State.completionWrite (s : State) (e : Nat) (index : Word) (tag status info : Nat) (irq : Bool) : State :=
  let q := s.qSh e
  let n := q.sizeLog2.toNat
  let phase := 1 - index.toNat / 2 ^ n % 2
  let at_ := q.cpl.toNat + 16 * (index.toNat % 2 ^ n)
  let w := s.parserWrite (e / 16) (s.qCid e) q.qctx at_ 16 (tag + status * 2 ^ 32 + phase * 2 ^ 40 + info * 2 ^ 64)
  if !w.1 then w.2.breakQueue e index.toNat
  else w.2.when (irq && q.ven) fun s => s.msix (if q.hport then 1 else 0) q.func.toNat q.vector.toNat

/-- The accepted command of a queue with a ring index. -/
def State.cmd (s : State) (e : Nat) (index : Word) : Option QCmd := (s.qRo e).cmds.find? fun c => decide (c.index = index)

def State.modCmd (s : State) (e : Nat) (index : Word) (f : QCmd → QCmd) : State :=
  s.modQ e fun r => { r with cmds := r.cmds.map fun c => if c.index = index then f c else c }

/-- End a command that holds no references (R370). -/
def State.endCmd (s : State) (e : Nat) (index : Word) (status info : Nat) (write : Bool) : State :=
  match s.cmd e index with
  | none => s
  | some c =>
    let s := s.modQ e fun r => { r with cmds := r.cmds.filter fun c => decide (c.index ≠ index) }
    let s := s.modQue fun q => { q with waits := q.waits.filter fun w => decide (w.who ≠ .queue e index) }
    if write && (decide (status ≠ 0) || pktCpl c.pkt) then
      s.completionWrite e index (pktTag c.pkt) status info (pktIrq c.pkt)
    else s

/-- The FREE command that has set an entry FREEING, if one stands (R361). -/
def State.freeOf (s : State) (cid : Cid) (i : Nat) : Option (Nat × Word) :=
  s.que.q.findSome? fun q =>
    if s.qCid q.1 = cid then
      (q.2.cmds.find? fun c => decide (c.st = .freeing) && decide (pktF c.pkt 8 0 24 = i)).map fun c => (q.1, c.index)
    else none

/-- A FREEING entry without references becomes FREE, its GEN one higher, and the FREE command completes (R361). -/
def State.freeDone (s : State) (cid : Cid) (i : Nat) : State :=
  match s.objEntry cid i with
  | some e =>
    if e.st = 2 ∧ e.refs = 0 then
      let s := s.objSetState cid i 0 (if e.gen = 255 then 1 else e.gen + 1)
      match s.freeOf cid i with
      | some c => s.endCmd c.1 c.2 0 0 true
      | none => s
    else s
  | none => s

/-- Banks whose instruction waits for a reference go on when REFS falls (R360): the instruction stands and is issued
again. -/
def State.wakeRefs (s : State) (cid : Cid) : State :=
  s.each s.tiles fun s t => s.each [0, 1, 2, 3] fun s b =>
    let k := s.bank t.1 b
    match k.wait with
    | some (.reference _) =>
      if k.cid = cid ∧ k.st = .waiting then
        s.modBank t.1 b fun x => { x with wait := none, st := if (s.tile t.1).run = b then .running else .loaded }
      else s
    | _ => s

/-- Release a reference (R360). -/
def State.dropRef (s : State) (cid : Cid) (i : Nat) : State :=
  match s.objEntry cid i with
  | some e =>
    let s := s.objSetRefs cid i (e.refs - 1)
    (s.freeDone cid i).wakeRefs cid
  | none => s

/-- Complete a command (R370): its references are released whatever its status. -/
def State.complete (s : State) (e : Nat) (index : Word) (status info : Nat) (write : Bool) : State :=
  match s.cmd e index with
  | none => s
  | some c =>
    let cid := s.qCid e
    let held := (s.que.waits.filter fun w => decide (w.who = .queue e index)).map (·.obj)
    let s := s.endCmd e index status info write
    s.each (c.refs ++ held) fun s i => s.dropRef cid i

end Sys2Proof.Machine
end

