-- ==== Sys2Proof/Machine/Operands.lean ====
section
/-! DEFINITION. The operand forms of tile instructions: registers of a bank (R42), lanes and elements of a vector
register (R40), accumulator elements (R34), and the retirement of an instruction (R44, R70, R119). -/

namespace Sys2Proof.Machine

def Bank.s (b : Bank) (r : Nat) : DWord := Tab.get (fun _ => 0) b.sReg r
def Bank.setS (b : Bank) (r : Nat) (v : DWord) : Bank := { b with sReg := Tab.insert b.sReg r v }
/-- Lane `i` of 128 32-bit lanes of vector register `r`. -/
def Bank.v32 (b : Bank) (r i : Nat) : Nat := (Tab.get (fun _ => (0 : Word)) b.vReg (r * 128 + i)).toNat
/-- Lane `i` of 256 16-bit lanes. -/
def Bank.v16 (b : Bank) (r i : Nat) : Nat := b.v32 r (i / 2) / 2 ^ (16 * (i % 2)) % 2 ^ 16
def Bank.setV32 (b : Bank) (r i v : Nat) : Bank := { b with vReg := Tab.insert b.vReg (r * 128 + i) (BitVec.ofNat 32 v) }
/-- A vector register from 128 lane values. -/
def Bank.setV (b : Bank) (r : Nat) (vs : List Nat) : Bank :=
  (vs.zipIdx).foldl (fun b x => if x.2 < 128 then b.setV32 r x.2 x.1 else b) b
/-- 256 16-bit values as 128 32-bit lanes. -/
def pairUp : List Nat → List Nat
  | a :: b :: t => (a % 2 ^ 16 + b % 2 ^ 16 * 2 ^ 16) :: pairUp t
  | [a] => [a % 2 ^ 16]
  | [] => []
/-- A vector register as one number of 512 bytes, byte 0 lowest. -/
def Bank.vNat (b : Bank) (r : Nat) : Nat := (List.range 128).foldl (fun acc i => acc + b.v32 r i * 2 ^ (32 * i)) 0
/-- Byte `k` of a vector register. -/
def Bank.vByte (b : Bank) (r k : Nat) : Nat := b.v32 r (k / 4) / 2 ^ (8 * (k % 4)) % 256
/-- A vector register from 512 bytes. -/
def Bank.setVBytes (b : Bank) (r : Nat) (bs : Bytes) : Bank :=
  b.setV r ((List.range 128).map fun i => leNat ((bs.drop (4 * i)).take 4))
def Bank.p (b : Bank) (r : Nat) : BitVec 128 := Tab.get (fun _ => 0) b.pReg r
def Bank.setP (b : Bank) (r : Nat) (v : BitVec 128) : Bank := { b with pReg := Tab.insert b.pReg r v }
/-- Element (row, col) of accumulator `a`, FP32 bits. -/
def accKey (a row col : Nat) : Nat := a * 2048 + row * 64 + col
def Bank.accAt (b : Bank) (a row col : Nat) : Nat := (Tab.get (fun _ => (0 : Word)) b.acc (accKey a row col)).toNat
def Bank.setAcc (b : Bank) (a row col v : Nat) : Bank :=
  { b with acc := Tab.insert b.acc (accKey a row col) (BitVec.ofNat 32 v) }

/-- The instruction retires: the PC goes to the next one and PROGRESS counts it (R70). -/
def Bank.retire (b : Bank) : Bank := { b with pc := b.pc + 1, progress := b.progress + 1 }
/-- A bank that no longer waits: RUNNING where its tile has it chosen, else LOADED (R415). -/
def Tile.wake (x : Tile) (b : Nat) (bk : Bank) : Bank :=
  { bk with wait := none, st := if x.run = b then .running else .loaded }

/-- Whether a bank waits under BAR.WAIT with HOOK 1 (R149). -/
def Bank.hooked (k : Bank) : Bool :=
  decide (k.st = .waiting) && match k.wait with
    | some (.bar _ _ _ h _) => h
    | _ => false
/-- Whether a tile's barrier-idle request is raised (R149): a hooked bank waits, and no bank issues a matrix step. -/
def Tile.idleNow (x : Tile) : Bool := !x.matrix && x.banks.any fun b => b.2.hooked

/-- A waiting instruction ends with a status in SD (R125): it retires and its bank goes on; a barrier-idle request that no
other bank keeps up drops (R149). -/
def State.endWait (s : State) (t b sd status : Nat) : State :=
  s.modTile t fun x =>
    let y := x.modBank b fun k => ((x.wake b k).setS sd (BitVec.ofNat 64 status)).retire
    { y with barIdle := y.barIdle && y.idleNow }

/-- Bytes of bank `b`'s share on a tile (R156). -/
def State.shareBytes (s : State) (t b : Nat) : Nat :=
  let h := s.share t b
  if h.en then h.count.toNat * 65536 else 0
/-- The SRAM offset of a share offset. -/
def State.shareOff (s : State) (t b o : Nat) : Nat := (s.share t b).base.toNat * 65536 + o

/-- Whether half `h` is under half or module recovery (R475, R477, R479). -/
def State.recovering (s : State) (h : Nat) : Bool :=
  decide ((s.rcv.st = .half ∧ s.rcv.half = h) ∨ s.rcv.st = .module ∨ s.rcv.st = .halted)

/-- Whether an image entry holds something of a half (R22 to R24, R167): tiles, SRAM, pairs, ports, host functions. -/
def State.entryHalf (s : State) (e : ImgEntry) (h : Nat) : Bool :=
  match e with
  | .tiles g _ _ mask => decide (g / 2 = h) && decide (mask ≠ 0)
  | .sram t _ _ _ _ => decide (t / 256 = h)
  | .pairs _ _ _ _ mask => (maskBits mask).any fun l => decide (s.phys l / 96 = h)
  | .port p _ _ => decide (p / 24 = h)
  | .host p _ => decide (p = h)
  | _ => false

/-- The compositions that hold something of a half. -/
def State.halfCids (s : State) (h : Nat) : List Cid :=
  (s.boundCids.filter fun e => (s.image e.2).entries.any fun x => s.entryHalf x h).map (·.2)

/-- Whether a composition stalls for a half recovery (R32): it holds a tile, SRAM, pair, port or host function in the
recovering half, wherever its other resources lie. -/
def State.cidStalled (s : State) (cid : Cid) : Bool :=
  decide (s.rcv.st = .half) && (s.image cid).entries.any fun e => s.entryHalf e s.rcv.half

/-- Whether the core of a tile may put out requests and beats for bank `b` (R32, R35): powered, not clamped, its half not
recovering, its composition not stalled. -/
def State.coreOn (s : State) (t b : Nat) : Bool :=
  let x := s.tile t
  x.powered && !x.clamped && !s.recovering (t / 272) && !s.cidStalled (x.bank b).cid

/-- Whether a bank issues (R32, R45, R61, R69, R378): its tile's core is on, nothing holds it, and it is the running
bank. -/
def State.issues (s : State) (t b : Nat) : Bool :=
  let x := s.tile t
  let k := x.bank b
  decide (k.st = .running) && k.wait.isNone && !k.hold && !x.issueHold && s.coreOn t b &&
  !(match s.resOf k.cid k.ctx with
    | some r => (s.resRo r).stalled
    | none => false)

end Sys2Proof.Machine
end

