-- ==== Sys2Proof/Machine/Sync.lean ====
section
/-! DEFINITION. The sync units (R371 to R373): fence signals, wait entries and their release, semaphores. -/

namespace Sys2Proof.Machine

/-- A fence or semaphore line read by its sync unit: none where it cannot be reached or does not read (R372). -/
def State.syncLine (s : State) (cid : Cid) (e : ObjEntry) : Option (Nat × Line) :=
  match s.objLine cid e with
  | none => none
  | some m =>
    let r := s.readMpa { Who.of cid e.xctx with boot := true } false m .clean
    if r.1 = 0 then some (m, r.2.1) else none

/-- Write a whole sync line back. -/
def State.syncStore (s : State) (cid : Cid) (e : ObjEntry) (mpa : Nat) (l : Line) : State :=
  (s.writeMpa { Who.of cid e.xctx with boot := true } mpa l (BitVec.allOnes 64) .clean).2

/-- `l` with `n` bytes at offset `o` replaced. -/
def lineSet (l : Line) (o n v : Nat) : Line := Line.merge l (lineAt o (v % 2 ^ (8 * n))) (enables o n)
def lineGet (l : Line) (o n : Nat) : Nat := l.toNat / 2 ^ (8 * o) % 2 ^ (8 * n)

/-- A wait ends, satisfied or not (R125, R360, R372): its entry goes, its reference is released, the bank goes on or the
queue's WAIT completes. -/
def State.waitEnds (s : State) (w : SyncEntry) (status : Nat) : State :=
  let s := s.modQue fun q => { q with waits := q.waits.filter fun x => decide (x.who ≠ w.who) }
  match w.who with
  | .bank t b =>
    let s := match (s.bank t b).wait with
      | some (.fence _ _ sd) => s.endWait t b sd status
      | some (.sem _ _ sd) => s.endWait t b sd status
      | _ => s
    s.dropRef w.cid w.obj
  | .queue e index =>
    let s := s.dropRef w.cid w.obj
    s.complete e index (if status = 0 then 0 else 7) 0 true

/-- What the wait entries of a line are held under (R372): its MPA, which a shift or a pair switch leaves as it is. -/
def State.syncKey (_s : State) (mpa : Nat) : Nat := mpa / 64 * 64

/-- A signal of value `v` reaches a fence's line (R371): 0 accepted, 2 refused; none where the line is out of reach. -/
def State.signalFence (s : State) (cid : Cid) (e : ObjEntry) (v : Nat) : Option (Nat × State) :=
  match s.syncLine cid e with
  | none => none
  | some (m, l) =>
    let old := lineGet l 0 8
    if v < old then
      let n := lineGet l 0x10 4
      some (2, s.syncStore cid e m (lineSet l 0x10 4 (if n = 2 ^ 32 - 1 then n else n + 1)))
    else
      let l := lineSet l 0 8 v
      let notify := lineGet l 8 8
      let hit := decide (notify ≠ 0 ∧ notify ≤ v ∧ old < v)
      let l := if hit then lineSet l 8 8 0 else l
      let s := s.syncStore cid e m l
      let vec := lineGet l 0x14 2
      let s := if hit && decide (vec / 2 ^ 15 = 1) then
          match s.boundFunc cid with
          | some hf => s.msix hf.1 hf.2 (vec % 2 ^ 10)
          | none => s
        else s
      let key := s.syncKey m
      let ready := s.que.waits.filter fun w => decide (w.key = key) && !w.isSem && decide (w.target.toNat ≤ v)
      some (0, s.each ready fun s w => s.waitEnds w 0)

/-- A signal by handle: resolved as it acts. -/
def State.signalHandle (s : State) (cid : Cid) (handle : Word) (v : Nat) : Option (Nat × State) :=
  match s.resolve cid handle 2 with
  | .ok _ e => s.signalFence cid e v
  | _ => none

/-- A signal through a reference already held (R360, R361): the entry may be FREEING. -/
def State.signalRef (s : State) (cid : Cid) (i : Nat) (v : Nat) : Option (Nat × State) :=
  match s.objEntry cid i with
  | some e => s.signalFence cid e v
  | none => none

/-- Grant semaphore waiters in first-come order while units last (R373): fuel counts the waiters. -/
def State.semGrant (s : State) (cid : Cid) (e : ObjEntry) (m : Nat) : Nat → State
  | 0 => s
  | fuel + 1 =>
    match s.que.waits.find? fun w => decide (w.key = s.syncKey m) && w.isSem with
    | none => s
    | some w =>
      match s.syncLine cid e with
      | none => s
      | some (m', l) =>
        let count := lineGet l 0 4
        if count < w.target.toNat then s else
          let l := lineSet l 0 4 (count - w.target.toNat)
          let l := lineSet l 4 2 (w.ctx.toNat + 2 ^ 15)
          let s := s.syncStore cid e m' l
          (s.waitEnds w 0).semGrant cid e m fuel

/-- A release of `n` units by `ctx` (R373), then the waiters that can go. -/
def State.semRelease (s : State) (cid : Cid) (e : ObjEntry) (ctx : Ctx) (n : Nat) : Option State :=
  match s.syncLine cid e with
  | none => none
  | some (m, l) =>
    let sum := lineGet l 0 4 + n
    let excess := lineGet l 0x0C 4
    let l := lineSet l 0 4 (min sum (2 ^ 32 - 1))
    let l := if 2 ^ 32 ≤ sum then lineSet l 0x0C 4 (min (excess + 1) (2 ^ 32 - 1)) else l
    let own := lineGet l 4 2
    let l := if own / 2 ^ 15 = 1 ∧ own % 2 ^ 12 = ctx.toNat then lineSet l 4 2 (own % 2 ^ 15) else l
    let s := s.syncStore cid e m l
    some (s.semGrant cid e m s.que.waits.length)

/-- Drop the wait entries of a bank, their references released (R354, R355, R360). -/
def State.dropBankWaits (s : State) (t b : Nat) : State :=
  let mine := s.que.waits.filter fun w => decide (w.who = .bank t b)
  let s := s.modQue fun q => { q with waits := q.waits.filter fun w => decide (w.who ≠ .bank t b) }
  s.each mine fun s w => s.dropRef w.cid w.obj

end Sys2Proof.Machine
end

