-- ==== Sys2Proof/Machine/Context.lean ====
section
/-! DEFINITION. Purging a bank (R73), losing a context (R355), tile and translation faults with their records
(R71, R216, R376 to R379), and the end of a queue (R362). -/

namespace Sys2Proof.Machine

/-! ### What a bank has outstanding -/

/-- The tile and bank on whose account a mesh request was issued (R73, R129). -/
def State.issuerBank (s : State) : Issuer → Option (Nat × Nat)
  | .load t b _ _ _ | .store t b | .atomic t b | .barArrive t b | .barRead t b => some (t, b)
  | .copyRead t c _ | .copyWrite t c _ | .descRead t c => some (t, (s.chan t c).bank.toNat)
  | _ => none

/-- Whether a bank has requests outstanding (R73). -/
def State.outstanding (s : State) (t b : Nat) : Bool := s.mesh.reqs.any fun e => decide (s.issuerBank e.2.who = some (t, b))

/-- Whether a tile's core has requests outstanding (R74). -/
def State.coreOutstanding (s : State) (t : Nat) : Bool :=
  s.mesh.reqs.any fun e => match s.issuerBank e.2.who with
    | some x => decide (x.1 = t)
    | none => false

/-! ### Purge -/

/-- Drop a bank's page requests and walks (R354, R355): one already sent keeps its index until its response (R207). -/
def State.dropMigration (s : State) (t b : Nat) : State :=
  let mine := s.xlt.mig.filter fun m => decide (m.tile = t ∧ m.bank = b)
  s.modXlt fun x => { x with
    mig := x.mig.filter fun m => decide (¬ (m.tile = t ∧ m.bank = b)),
    walks := x.walks.filter fun w => decide (¬ (w.tile = t ∧ w.bank = b)),
    retired := x.retired ++ mine.filterMap fun m => m.sent.map fun g => (m.hport, m.func, g) }

/-- The channels a bank holds (R50), those whose START reads its descriptor among them. -/
def State.chansOf (s : State) (t b : Nat) : List Nat :=
  (List.range 8).filter fun c => decide ((s.chan t c).bank.toNat = b) && (decide ((s.chan t c).st ≠ .idle) || (s.chan t c).starting)

/-- A channel issues nothing more and lets its fence go (R73, R360). -/
def State.haltChan (s : State) (t c : Nat) (cid : Cid) : State :=
  let r := (s.chan t c).fenceRef
  let s := s.modChan t c fun x => { x with stopping := true, starting := false, due := false, fenceRef := none, decided := none }
  match r with
  | some i => s.dropRef cid i
  | none => s

/-- A write of PURGE to a bank (R73 steps 1 and 2). -/
def State.purgeBank (s : State) (t b : Nat) : State :=
  let k := s.bank t b
  if k.st = .empty ∨ k.st = .purging then s else
    let at0 := s.now
    let s := s.modBank t b fun x => { x with st := .purging, wait := none, inProg := false, since := at0 }
    let s := s.each (s.chansOf t b) fun s c => s.haltChan t c k.cid
    let s := (s.dropBankWaits t b).dropMigration t b
    let mark := fun (e : Nat × MeshReq) =>
      if s.issuerBank e.2.who = some (t, b) then (e.1, { e.2 with discard := true }) else e
    let s := s.modMesh fun m => { m with reqs := m.reqs.map mark }
    s.tileSignal t

/-- A purging bank reaches EMPTY (R45, R73 step 3): registers, accumulators and PROGRESS zero, HOLD clear, channels
freed. A freed channel keeps LINES and DESC, which no rule clears (DESIGN CHOICE, log entry 43); the meters of R432 are
no state of the context and stand. -/
def State.emptyBank (s : State) (t b : Nat) : State :=
  let s := s.each (s.chansOf t b) fun s c => s.modChan t c fun x => { st := .idle, desc := x.desc, lines := x.lines }
  let s := s.modBank t b fun x => { run := x.run, lent := x.lent }
  s.tileSignal t

/-! ### Losing a context -/

/-- The banks a context holds: every non-empty bank tagged with it. -/
def State.ctxBanks (s : State) (cid : Cid) (ctx : Ctx) : List (Nat × Nat) :=
  s.tiles.flatMap fun t => ((List.range 4).filter fun b =>
    let k := t.2.bank b
    decide (k.st ≠ .empty) && decide (k.cid = cid) && decide (k.ctx = ctx)).map fun b => (t.1, b)

/-- The accepted commands of a context: queue entry and ring index. -/
def State.ctxCmds (s : State) (cid : Cid) (ctx : Ctx) : List (Nat × QCmd) :=
  s.que.q.flatMap fun q => if s.qCid q.1 = cid then
    (q.2.cmds.filter fun c => decide (pktCtx c.pkt = ctx)).map fun c => (q.1, c) else []

/-- A context is lost (R355 steps 1 to 4), once its record has been placed or dropped. `at_` is the faulting bank, `seq`
the SEQ of its record. -/
def State.loseContext (s : State) (cid : Cid) (ctx : Ctx) (at_ : Option (Nat × Nat)) (seq : Nat) : State :=
  match s.resOf cid ctx with
  | none => s
  | some r =>
    if (s.resRo r).lost then s else
    let s := s.modRes r fun x => { x with lost := true, stalled := false, held := none }
    let banks := s.ctxBanks cid ctx
    let s := s.each (banks.filter fun x => decide (some x ≠ at_)) fun s x => s.purgeBank x.1 x.2
    let s := s.each (s.ctxCmds cid ctx) fun s c =>
      if c.2.st = .freeing then s else
        let mine := match at_ with
          | some x => c.2.running.contains x
          | none => false
        s.complete c.1 c.2.index 2 (if mine || c.2.faulted then seq else 0) true
    match at_ with
    | some x => (s.dropBankWaits x.1 x.2).dropMigration x.1 x.2
    | none => s

/-- Place a context's fault record and lose the context, or stall it (R376 to R379). -/
def State.ctxFault (s : State) (cid : Cid) (ctx : Ctx) (kind code : Nat) (body : Bytes) (at_ : Option (Nat × Nat)) : State :=
  match s.resOf cid ctx, s.slotOf cid with
  | some r, some slot =>
    let x := s.resRo r
    if x.lost then s
    else if x.stalled then s.fqDrop slot
    else match s.fqTarget cid slot with
      | none => (s.fqDrop slot).loseContext cid ctx at_ 0
      | some hf =>
        if 64 < s.fqFree slot then
          let seq := (s.fqRo slot).next.toNat
          (s.fqWrite slot hf kind code ctx cid body).loseContext cid ctx at_ seq
        else
          let n := s.que.heldOrder
          let s := s.modQue fun q => { q with heldOrder := n + 1 }
          (s.modRes r fun x => { x with
            stalled := true, ovf := true, held := some ⟨kind, code, body, at_, n⟩ }).pulse 856
  | _, _ => s

/-- LOST_MODULE of a slot (R486). -/
def State.countLost (s : State) (cid : Cid) : State :=
  match s.slotOf cid with
  | some slot => s.modRcv fun r => { r with lostModule := Tab.insert r.lostModule slot (Tab.get (fun _ => 0) r.lostModule slot + 1) }
  | none => s

/-- The body of a tile fault's record (R377 kind 0x01). -/
def State.tileBody (s : State) (t b detail : Nat) : Bytes :=
  let k := s.bank t b
  toBytes 2 detail ++ toBytes 2 (t + b * 1024) ++ toBytes 4 (k.pc.toNat * 8) ++ toBytes 4 k.progress.toNat

/-- The bank takes a fault of R71: FAULTED, its register, its tile's event; its channels issue nothing more. -/
def State.faultBank (s : State) (t b code detail : Nat) : State :=
  let k := s.bank t b
  let s := s.modBank t b fun x => { x with
    st := .faulted, wait := none, inProg := false, fault := ⟨true, BitVec.ofNat 8 code, BitVec.ofNat 16 detail⟩ }
  let s := s.each (s.chansOf t b) fun s c => (s.haltChan t c k.cid).modChan t c fun x => { x with st := if x.st = .idle then .idle else .faulted }
  s.tileSignal t

/-- A tile fault (R71). -/
def State.tileFault (s : State) (t b code detail : Nat) : State :=
  let k := s.bank t b
  if k.st = .empty ∨ k.st = .purging ∨ k.st = .faulted then s else
  let body := s.tileBody t b detail
  let s := s.faultBank t b code detail
  let s := if code = 5 ∨ code = 8 ∨ code = 9 ∨ code = 0x0A then s.countLost k.cid else s
  s.ctxFault k.cid k.ctx 1 code body (some (t, b))

/-- A bank's context is lost with a code whatever the bank does (R71, R73, R77, R78): also a bank that is PURGING, whose
context may be lost already and then takes no second record. The bank stays FAULTED until it is purged (R45). -/
def State.bankLost (s : State) (t b code detail : Nat) : State :=
  let k := s.bank t b
  if k.st = .empty ∨ k.st = .faulted then s else
  let body := s.tileBody t b detail
  let lost := match s.resOf k.cid k.ctx with
    | some r => (s.resRo r).lost
    | none => true
  let s := s.faultBank t b code detail
  if lost then s else (s.countLost k.cid).ctxFault k.cid k.ctx 1 code body (some (t, b))

/-- Bytes 0x10 to 0x3F of a translation fault's record (R216). -/
def xlatBody (f : XFault) (unit ch tile bank : Nat) : Bytes :=
  toBytes 8 f.dva ++
  toBytes 4 (f.reason + f.level * 2 ^ 8 + f.acc.bits * 2 ^ 12 + (if f.priv then 2 ^ 15 else 0) + unit * 2 ^ 16 + ch * 2 ^ 20) ++
  toBytes 4 f.row ++ toBytes 8 f.entry.toNat ++ toBytes 8 f.extent ++ toBytes 8 (tile + bank * 1024) ++ toBytes 8 0

/-- A translation fault of a tile's access (R216, R217): fault code 0x07, with bytes 0x10 to 0x3F of its record. -/
def State.xlatFaultBody (s : State) (t b : Nat) (body : Bytes) : State :=
  let k := s.bank t b
  if k.st = .empty ∨ k.st = .purging ∨ k.st = .faulted then s else
  let s := s.faultBank t b 7 0
  s.ctxFault k.cid k.ctx 2 7 body (some (t, b))

def State.xlatFault (s : State) (t b unit ch : Nat) (f : XFault) : State := s.xlatFaultBody t b (xlatBody f unit ch t b)

/-- The record's bytes with REASON set. -/
def withReason (body : Bytes) (reason : Nat) : Bytes := body.set 8 (BitVec.ofNat 8 reason)

/-- A translation fault of a job or of the queue parser (R218). -/
def State.xlatFaultUnit (s : State) (cid : Cid) (ctx : Ctx) (unit : Nat) (f : XFault) : State :=
  s.ctxFault cid ctx 2 7 (xlatBody f unit 0 0x3FF 0) none

/-- A queue fault that loses its context (R355, R377). -/
def State.queueFault (s : State) (e code : Nat) (c : QCmd) (info : Nat) : State :=
  let q := s.qSh e
  s.ctxFault (s.qCid e) (pktCtx c.pkt) 3 code (queueBody q.qnum.toNat c.index.toNat (pktTag c.pkt) info c.pkt) none

/-- Room returns to a fault queue (R378): held faults are written in the order they were held, and R355 takes its
course. Fuel counts the held faults. -/
def State.drainHeld (s : State) (slot : Nat) (cid : Cid) : Nat → State
  | 0 => s
  | fuel + 1 =>
    match s.fqTarget cid slot with
    | none => s
    | some hf =>
      if s.fqFree slot ≤ 64 then s else
      let held := s.que.res.filterMap fun e =>
        if (s.resSh e.1).valid ∧ (s.resSh e.1).cid = cid then e.2.held.map fun h => (e.1, h) else none
      match held.foldl (fun m h => match m with
          | none => some h
          | some g => if h.2.order < g.2.order then some h else some g) (none : Option (Nat × HeldFault)) with
      | none => s
      | some (r, h) =>
        let ctx := (s.resSh r).ctx
        let seq := (s.fqRo slot).next.toNat
        let s := s.fqWrite slot hf h.kind h.code ctx cid h.body
        let s := s.modRes r fun x => { x with stalled := false, held := none }
        (s.loseContext cid ctx h.bank seq).drainHeld slot cid fuel

/-! ### The end of a queue -/

/-- A registration ends (R362): accepted commands complete with Q_PURGED; `write` says whether completion entries and the
status line are written (R363). -/
def State.endQueue (s : State) (e : Nat) (write : Bool) : State :=
  let s := s.each ((s.qRo e).cmds) fun s c => s.complete e c.index 9 0 write
  let s := s.when write fun s => ((s.modQ e fun r => { r with st := .unregistered }).statusWrite e).2
  let s := s.modQue fun q => { q with sh := q.sh.both fun n => { n with q := Tab.erase n.q e } }
  s.modQue fun q => { q with q := Tab.erase q.q e }

/-- The queues of a composition. -/
def State.queuesOf (s : State) (cid : Cid) : List Nat :=
  (s.que.sh.act.q.filter fun e => e.2.valid && decide (s.qCid e.1 = cid)).map (·.1)

/-- A context's accesses end in a refusal or an uncorrectable line at a target (R129, R153, R301, R330): the tile fault
a STATUS stands for. `own` gives the bank where the line lies in the requester's own tile. -/
def statusFault (status cls : Nat) (own : Option Nat) : Nat × Nat :=
  if status = 3 then (5, match own with
    | some b => b
    | none => 0xFFFF)
  else (6, cls)

end Sys2Proof.Machine
end

