-- ==== Sys2Proof/Machine/Commit.lean ====
section
/-! DEFINITION. Shadow and commit (R12, R399): the refusal tables of every block (R67, R157, R168, R223, R258, R259,
R283, R319, R380, R413, R433, R467, R470), the GO writes. -/

namespace Sys2Proof.Machine

/-- The pending values change; the active ones, and those of an accepted commit, stand (R12). -/
def Sh.setPend {α : Type} (x : Sh α) (f : α → α) : Sh α := { x with pend := f x.pend }
/-- No field changes and the pending values return to the active ones (R399 step 3). -/
def Sh.refuse {α : Type} (x : Sh α) : Sh α := { x with pend := x.act }
/-- The pending values wait for the boundary. -/
def Sh.accept {α : Type} (x : Sh α) : Sh α := { x with acc := some x.pend }
/-- The accepted values become active. -/
def Sh.boundary {α : Type} (x : Sh α) : Sh α :=
  match x.acc with
  | some a => { x with act := a, acc := none }
  | none => x

/-- The first code that a list of tests raises. -/
def firstCode (tests : List (Bool × Nat)) : Option Nat := (tests.find? fun t => t.1).map (·.2)

/-! ### Refusal tables -/

/-- The pending share of bank `b`, the pending owner of granule `g`. -/
def SrmSh.shareOf (p : SrmSh) (b : Nat) : Share := Tab.get (fun _ => {}) p.share b
def SrmSh.granOf (p : SrmSh) (g : Nat) : Owner := Tab.get (fun _ => {}) p.gran g

/-- Whether enabled share `h` covers granule `g`. -/
def Share.covers (h : Share) (g : Nat) : Bool :=
  h.en && decide (h.base.toNat ≤ g ∧ g < h.base.toNat + h.count.toNat)

/-- R157 in the order of R399: the shares (0x40) first, then the granules (0x400), where the conditions between a share
and a granule are found. -/
def srmCheck (p : SrmSh) (bankCid : Nat → Cid) : Option Nat :=
  let shares := (List.range 4).findSome? fun b =>
    let h := p.shareOf b
    if h.en ∧ (384 < h.base.toNat + h.count.toNat ∨ h.count = 0) then some 1 else none
  match shares with
  | some c => some c
  | none => (List.range 384).findSome? fun g =>
    let o := p.granOf g
    let bs := (List.range 4).filter fun b => (p.shareOf b).covers g
    firstCode [
      (!bs.isEmpty && !o.valid, 2),
      (bs.any fun b => decide (o.cid ≠ bankCid b), 3),
      (decide (1 < bs.length) && !o.scope, 4)]

def MemSh.group (m : MemSh) (i : Nat) : Igrp := Tab.get (fun _ => {}) m.igrp i
def Igrp.end_ (g : Igrp) : Nat := g.baseGb.toNat * 2 ^ 30 + g.n.toNat * g.len.toNat * 2 ^ 28
def Igrp.overlapMpa (a b : Igrp) : Bool :=
  decide (a.baseGb.toNat * 2 ^ 30 < b.end_ ∧ b.baseGb.toNat * 2 ^ 30 < a.end_)
def Igrp.overlapUnits (a b : Igrp) : Bool :=
  decide (a.mask &&& b.mask ≠ 0) &&
  decide (a.off.toNat < b.off.toNat + b.len.toNat ∧ b.off.toNat < a.off.toNat + a.len.toNat)

/-- Regulator entries [lo, lo + n) of a table (R433): a valid entry names a slot that is not bound, or two valid ones
name one slot and direction. -/
def regsBad (rs : Tab RegSh) (lo n : Nat) (bound : Nat → Bool) : Bool :=
  let es := (rs.filter fun e => decide (lo ≤ e.1 ∧ e.1 < lo + n) && e.2.valid)
  es.any fun e => !(bound e.2.slot.toNat) || es.any fun f => decide (f.1 ≠ e.1 ∧ f.2.slot = e.2.slot ∧ f.2.dir = e.2.dir)

/-- MEM (R168, R433). -/
def State.memCheck (s : State) (m : MemSh) (bound : Nat → Bool) : Option Nat :=
  let maps := (List.range 192).findSome? fun p =>
    let x := (m.phys p).toNat
    if x / 96 ≠ p / 96 ∨ (List.range p).any (fun q => decide ((m.phys q).toNat = x)) then some 6 else none
  match maps with
  | some c => some c
  | none =>
    let groups := (List.range 64).findSome? fun i =>
      let g := m.group i
      if !g.valid then none else
        let before := (List.range i).filter fun j => (m.group j).valid
        firstCode [
          (decide (s.dataEnd < g.end_) || before.any fun j => (m.group j).overlapMpa g, 1),
          (before.any fun j => (m.group j).overlapUnits g, 2),
          (decide (s.pairUnits < g.off.toNat + g.len.toNat ∨ g.len = 0), 3),
          (decide (g.n.toNat ≠ (maskBits g.mask).length ∨ g.n = 0), 4),
          ((maskBits g.mask).any fun p => decide ((s.pair (m.phys p).toNat).st = .retired), 5)]
    match groups with
    | some c => some c
    | none => if (List.range 192).any fun p => regsBad m.regs (p * 64) 64 bound then some 0x10 else none

/-- The unit that a context table of 64 KiB lies in. -/
def Ctab.unit (c : Ctab) : Nat := c.base.toNat * 65536 / 2 ^ 28

/-- XLT (R223), against the groups `m` that will hold, in the order of R399: code 0x02, a condition between a slot and an
owner entry, is found at the owner entry (XLT_OWN lies behind XLT_CTAB). A table beyond the last owner entry is found
after them. -/
def State.xltCheck (s : State) (x : XltSh) (m : MemSh) : Option Nat :=
  let own := fun u => Tab.get (fun _ => ({} : Owner)) x.own u
  let ct := (x.ctab.filter fun e => e.2.valid)
  if ct.any (fun e => ct.any fun f => decide (f.1 < e.1 ∧ f.2.cid = e.2.cid)) then some 1 else
    let units := if s.big then 5760 else 2880
    let outside := fun (u : Nat) => ct.any fun e => decide (e.2.unit = u) && !((own u).valid && decide ((own u).cid = e.2.cid))
    let us := (List.range 5760).filter fun u => (own u).valid || ct.any fun e => decide (e.2.unit = u)
    let owners := us.findSome? fun u =>
      let o := own u
      firstCode [
        (outside u, 2),
        (o.valid && decide (units ≤ u), 3),
        (o.valid && !(m.igrp.any fun g => (g.2.decode (u * 2 ^ 28)).isSome), 4),
        (o.valid && (s.unitOwner u).valid && decide ((s.unitOwner u).cid ≠ o.cid), 5)]
    owners.orElse fun _ => if ct.any fun e => decide (5760 ≤ e.2.unit) then some 2 else none

/-- The tile that a port of a tile selects in a neighbouring row (R66): none beyond the grid. -/
def selTile (half row col : Nat) (sel : BitVec 2) : Option Nat :=
  let c := if sel = 0 then col + 16 else if sel = 1 then col + 17 else col + 18
  if 17 ≤ c ∧ c - 17 ≤ 16 then some (half * 272 + row * 17 + (c - 17)) else none

/-- TIL (R67, R433) for one half, over the values `sh` of each tile: the code and the first tile found at fault. A pair
of ports that do not select each other is found at the later of the two rows (R399); an S port that selects no tile is
found with the last tile of the row it looks at. -/
def State.tilCheck (s : State) (sh : Nat → TilSh) (half : Nat) (bound : Nat → Bool) : Option (Nat × Nat) :=
  (halfTiles half).findSome? fun t =>
    let row := t % 272 / 17
    let col := t % 17
    let n := (sh t).nbr
    let rowTiles := (List.range 17).map fun c => half * 272 + row * 17 + c
    let retired := rowTiles.any fun k => decide ((s.tile k).role = .retired)
    let mine := if row = 0 ∨ n.bypass then none else selTile half (row - 1) col n.nSel
    let theirs := fun (u : Nat) => selTile half row (u % 17) (sh u).nbr.sSel
    let meets := decide (row = 0) || n.bypass || n.nSel == 3 || mine.any fun u => decide (theirs u = some t)
    let north := if row = 0 then [] else (List.range 17).map fun c => half * 272 + (row - 1) * 17 + c
    let claimed := north.any fun u => !(sh u).nbr.bypass && (sh u).nbr.sSel != 3 && decide (theirs u = some t) &&
      decide (mine ≠ some u)
    let astray := north.any fun u => decide (col = 16) && !(sh u).nbr.bypass && (sh u).nbr.sSel != 3 && (theirs u).isNone
    (firstCode [
      (!meets || claimed || astray, 1),
      (decide (col = 16) && !retired && decide ((rowTiles.filter fun k => !(sh k).nbr.bypass).length ≠ 16), 2),
      (n.nSel == 3 || n.sSel == 3, 3),
      (regsBad (sh t).regs 0 4 bound, 0x10)]).map fun c => (c, t)

/-- BRD (R258, R259). -/
def brdCheck (b : BrdSh) : Option Nat :=
  let vs := b.slots.filter fun e => e.2.1
  let dup := vs.any fun e => vs.any fun f => decide (f.1 ≠ e.1 ∧ f.2.2 = e.2.2)
  let rows := (List.range 32).any fun r =>
    let ks := (List.range 17).map fun c => r * 17 + c
    let ps := ks.map b.redirOf
    ps.any fun p => decide (543 < p) || !(ks.contains p) || decide (1 < (ps.filter fun q => decide (q = p)).length)
  firstCode [(dup, 1), (rows, 2)]

def FabSh.pool (f : FabSh) (k : Nat) : BitVec 14 := Tab.get (fun _ => 0) f.poolLimit k
def FabSh.wb (f : FabSh) (k : Nat) : BitVec 9 × BitVec 14 := Tab.get (fun _ => (0, 0)) f.wbase k

/-- FAB (R319, R433): `nwin` is each slot's window count, `bound` the slots bound. -/
def State.fabCheck (s : State) (f : FabSh) (nwin : Nat → Nat) (bound : Nat → Bool) (cidBound : Cid → Bool) : Option Nat :=
  let anyBound := s.brd.sh.act.slots.any fun e => e.2.1
  if f.id ≠ s.fab.sh.act.id ∧ anyBound then some 1 else
  let wb := (List.range 512).findSome? fun k =>
    let w := f.wb k
    let c := w.1.toNat
    let b := w.2.toNat
    let clash := f.wbase.any fun e =>
      let v := f.wb e.1
      decide (e.1 < k ∧ b < v.2.toNat + v.1.toNat ∧ v.2.toNat < b + c)
    if clash ∨ 16384 < b + c ∨ c ≠ nwin k then some 2 else none
  match wb with
  | some c => some c
  | none =>
    let vc := f.coll.filter fun e => e.2.valid
    let slotN := fun (cid : Cid) => match s.slotOf cid with
      | some k => (f.wb k).1.toNat
      | none => 0
    let coll := vc.findSome? fun e =>
      let c := e.2
      if c.len = 0 ∨ c.len.toNat % 64 ≠ 0 ∨ slotN c.cid ≤ c.destWin.toNat ∨ !(cidBound c.cid) ∨ 512 < c.nlocal.toNat ∨
          vc.any (fun g => decide (g.1 < e.1 ∧ g.2.cid = c.cid ∧ g.2.collId = c.collId)) then some 6 else none
    match coll with
    | some c => some c
    | none =>
      let routes := f.route.findSome? fun e =>
        if e.2.valid ∧ e.2.cand.any (fun c => decide (47 < c.toNat % 64)) then some 5 else none
      match routes with
      | some c => some c
      | none =>
        let wins := f.win.findSome? fun e =>
          if e.2.valid ∧ (e.2.size = 0 ∨ 32768 < e.2.size.toNat ∨ s.dataEnd ≤ e.2.root.toNat * 4096) then some 4 else none
        match wins with
        | some c => some c
        | none =>
          if (List.range 48).any fun p => regsBad f.regs (p * 32) 32 bound then some 0x10
          else if 15360 < ((List.range 512).map fun k => (f.pool k).toNat).sum then some 3 else none

/-- QUE (R380). -/
def queCheck (q : QueSh) : Option Nat :=
  let vs := q.res.filter fun e => e.2.valid
  vs.findSome? fun e => firstCode [
    (vs.any fun f => decide (f.1 < e.1 ∧ f.2.cid = e.2.cid ∧ f.2.ctx = e.2.ctx), 1),
    (decide (e.2.waitLimit = 0), 2)]

def reelAt (t : Tab ReelEntry) (k : Nat) : ReelEntry := Tab.get (fun _ => {}) t k
/-- The valid entries of a reel table up to the first with VALID 0. -/
def reelEntries (t : Tab ReelEntry) : List (Nat × ReelEntry) :=
  ((List.range 128).map fun k => (k, reelAt t k)).takeWhile fun e => e.2.valid

/-- SEQ (R413). -/
def State.seqCheck (s : State) (q : SeqSh) : Option Nat :=
  let t := if q.sel then s.sched.reelB else s.sched.reelA
  let e0 := reelAt t 0
  let es := reelEntries t
  let starts := es.map fun e => e.2.start.toNat
  let gaps := (List.range starts.length).map fun i =>
    (if i + 1 < starts.length then starts.getD (i + 1) 0 else period) - starts.getD i 0
  firstCode [
    (!e0.valid || decide (e0.start ≠ 0), 1),
    ((List.range 128).any (fun k => (reelAt t k).valid && decide (es.length ≤ k)) ||
      (List.range starts.length).any (fun i => decide (i + 1 < starts.length ∧ starts.getD (i + 1) 0 ≤ starts.getD i 0)), 2),
    (gaps.any fun g => decide (g < 256), 3),
    (decide (s.sched.rssHoldoff = 0), 4)]

/-- CAD (R467). -/
def cadCheck (c : CadSh) : Option Nat :=
  firstCode [(decide (c.mode = 3), 1), (decide (c.nominal.toNat < 1000 ∨ 1000000 < c.nominal.toNat), 2)]

/-- PWR (R470). -/
def pwrCheck (p : PwrSh) : Option Nat :=
  let o := [p.first.toNat, p.second.toNat, p.third.toNat]
  firstCode [
    (decide (p.cap.toNat < 1000 ∨ 2800 < p.cap.toNat), 1),
    (!((List.range 3).all fun d => o.contains d), 2),
    (decide (p.slew = 0 ∨ 400 < p.slew.toNat), 3),
    (decide (p.balFmt ≠ 2 ∧ p.balFmt ≠ 3 ∧ p.balFmt ≠ 7), 4)]

/-! ### GO writes of one block (R399) -/

/-- SRM_COMMIT.GO of a tile. -/
def State.srmGo (s : State) (t : Nat) : State :=
  let x := (s.tile t).srm
  if x.sh.acc.isSome then s.modSrm t fun x => { x with sh := { x.sh with goLater := true } } else
  match srmCheck x.sh.pend fun b => (s.bank t b).cid with
  | some c => s.modSrm t fun x =>
      { x with sh := x.sh.refuse, err := x.err.refuse, lastRefusal := BitVec.ofNat 8 c }
  | none => s.modSrm t fun x => { x with sh := x.sh.accept, lastRefusal := 0 }

/-- Whether slot `k` is bound under `b`. -/
def BrdSh.bound (b : BrdSh) (k : Nat) : Bool := (Tab.get (fun _ => (false, (0 : Cid))) b.slots k).1
def BrdSh.cidBound (b : BrdSh) (c : Cid) : Bool := b.slots.any fun e => e.2.1 && decide (e.2.2 = c)

def State.memGo (s : State) : State :=
  if s.lp.sh.acc.isSome then s.modLp fun x => { x with sh := { x.sh with goLater := true } } else
  match s.memCheck s.lp.sh.pend s.brd.sh.act.bound with
  | some c => s.modLp fun x => { x with sh := x.sh.refuse, err := x.err.refuse, lastRefusal := BitVec.ofNat 8 c }
  | none => s.modLp fun x => { x with sh := x.sh.accept, lastRefusal := 0 }

def State.xltGo (s : State) : State :=
  if s.xlt.sh.acc.isSome then s.modXlt fun x => { x with sh := { x.sh with goLater := true } } else
  match s.xltCheck s.xlt.sh.pend s.lp.sh.act with
  | some c => s.modXlt fun x => { x with sh := x.sh.refuse, err := x.err.refuse, lastRefusal := BitVec.ofNat 8 c }
  | none => s.modXlt fun x => { x with sh := x.sh.accept, lastRefusal := 0 }

/-- NWIN of a slot: its image's WINDOWS entry (R228). -/
def Image.nwin (i : Image) : Nat := (i.entries.findSome? fun e => match e with
  | .windows n => some n
  | _ => none).getD 0
def State.slotNwin (s : State) (k : Nat) : Nat :=
  let e := s.slotE k
  if e.1 then (s.image e.2).nwin else 0

def State.fabGo (s : State) : State :=
  if s.fab.sh.acc.isSome then s.modFab fun x => { x with sh := { x.sh with goLater := true } } else
  match s.fabCheck s.fab.sh.pend s.slotNwin s.brd.sh.act.bound s.brd.sh.act.cidBound with
  | some c => s.modFab fun x => { x with sh := x.sh.refuse, err := x.err.refuse, lastRefusal := BitVec.ofNat 8 c }
  | none => s.modFab fun x => { x with sh := x.sh.accept, lastRefusal := 0 }

/-- LNK_COMMIT.GO of a port (R283). -/
def State.lnkGo (s : State) (p : Nat) : State :=
  let x := s.port p
  if x.expect.acc.isSome then s.modPort p fun x => { x with expect := { x.expect with goLater := true } }
  else if 47 < x.expect.pend.port.toNat ∨ (s.fab.sh.act.id.valid ∧ x.expect.pend.module = s.module) then
    s.modPort p fun x => { x with expect := x.expect.refuse, err := x.err.refuse }
  else s.modPort p fun x => { x with expect := x.expect.accept }

def State.queGo (s : State) : State :=
  if s.que.sh.acc.isSome then s.modQue fun x => { x with sh := { x.sh with goLater := true } } else
  match queCheck s.que.sh.pend with
  | some c => s.modQue fun x => { x with sh := x.sh.refuse, err := x.err.refuse, lastRefusal := BitVec.ofNat 8 c }
  | none => s.modQue fun x => { x with sh := x.sh.accept, lastRefusal := 0 }

def State.seqGo (s : State) : State :=
  if s.sched.sh.acc.isSome then s.modSched fun x => { x with sh := { x.sh with goLater := true } } else
  match s.seqCheck s.sched.sh.pend with
  | some c => s.modSched fun x => { x with sh := x.sh.refuse, err := x.err.refuse, lastRefusal := BitVec.ofNat 8 c }
  | none => s.modSched fun x => { x with sh := x.sh.accept, lastRefusal := 0 }

def State.cadGo (s : State) : State :=
  if s.cad.sh.acc.isSome then s.modCad fun x => { x with sh := { x.sh with goLater := true } } else
  match cadCheck s.cad.sh.pend with
  | some c => s.modCad fun x => { x with sh := x.sh.refuse, err := x.err.refuse, lastRefusal := BitVec.ofNat 8 c }
  | none => s.modCad fun x => { x with sh := x.sh.accept, lastRefusal := 0 }

def State.pwrGo (s : State) : State :=
  if s.pwr.sh.acc.isSome then s.modPwr fun x => { x with sh := { x.sh with goLater := true } } else
  match pwrCheck s.pwr.sh.pend with
  | some c => s.modPwr fun x => { x with sh := x.sh.refuse, err := x.err.refuse, lastRefusal := BitVec.ofNat 8 c }
  | none => s.modPwr fun x => { x with sh := x.sh.accept, lastRefusal := 0 }

/-! ### BRD_COMMIT.GO: one commit of every block (R230) -/

/-- The first refusal over all blocks: BLOCK and code, and the tile at fault for TIL. `nwin` is each slot's window
count after the change, `bankCid` the CID each bank will hold. -/
def State.allCheck (s : State) (nwin : Nat → Nat) (bankCid : Nat → Nat → Cid) : Option (Nat × Nat × Nat) :=
  let b := s.brd.sh.pend
  match s.xltCheck s.xlt.sh.pend s.lp.sh.pend with
  | some c => some (1, c, 0)
  | none =>
    match s.memCheck s.lp.sh.pend b.bound with
    | some c => some (2, c, 0)
    | none =>
      match s.tiles.findSome? fun t => (srmCheck t.2.srm.sh.pend (bankCid t.1)).map fun c => (c, t.1) with
      | some c => some (3, c.1, c.2)
      | none =>
        let sh := fun t => (s.tile t).nbr.pend
        match (List.range 2).findSome? fun h => s.tilCheck sh h b.bound with
        | some c => some (4, c.1, c.2)
        | none =>
          match brdCheck b with
          | some c => some (5, c, 0)
          | none => (s.fabCheck s.fab.sh.pend nwin b.bound b.cidBound).map fun c => (6, c, 0)

/-- Every block's pending values return to the active ones. -/
def State.allRefuse (s : State) : State :=
  let s := { s with tiles := s.tiles.map fun (t : Nat × Tile) =>
    (t.1, { t.2 with nbr := t.2.nbr.refuse, srm := { t.2.srm with sh := t.2.srm.sh.refuse } }) }
  let s := s.modXlt fun x => { x with sh := x.sh.refuse }
  let s := s.modLp fun x => { x with sh := x.sh.refuse }
  let s := s.modFab fun x => { x with sh := x.sh.refuse }
  s.modBrd fun x => { x with sh := x.sh.refuse }

/-- Every block's pending values wait for the boundary; LAST_REFUSAL of every block reads 0x00, last commit accepted
(R162, R188, R221, R319). -/
def State.allAccept (s : State) : State :=
  let s := { s with tiles := s.tiles.map fun (t : Nat × Tile) =>
    (t.1, { t.2 with nbr := t.2.nbr.accept, srm := { t.2.srm with sh := t.2.srm.sh.accept, lastRefusal := 0 } }) }
  let s := s.modXlt fun x => { x with sh := x.sh.accept, lastRefusal := 0 }
  let s := s.modLp fun x => { x with sh := x.sh.accept, lastRefusal := 0 }
  let s := s.modFab fun x => { x with sh := x.sh.accept, lastRefusal := 0 }
  s.modBrd fun x => { x with sh := x.sh.accept, waiting := true, lastRefusal := 0, block := 0 }

/-- A refused BRD commit: BLOCK and LAST_REFUSAL name the first refusal (R230); the refusing block counts it. -/
def State.brdRefused (s : State) (r : Nat × Nat × Nat) : State :=
  let s := s.allRefuse
  let s := s.modBrd fun x => { x with
    block := BitVec.ofNat 4 r.1, lastRefusal := BitVec.ofNat 8 r.2.1, err := x.err.refuse }
  if r.1 = 1 then s.modXlt fun x => { x with err := x.err.refuse, lastRefusal := BitVec.ofNat 8 r.2.1 }
  else if r.1 = 2 then s.modLp fun x => { x with err := x.err.refuse, lastRefusal := BitVec.ofNat 8 r.2.1 }
  else if r.1 = 3 then s.modSrm r.2.2 fun x => { x with err := x.err.refuse, lastRefusal := BitVec.ofNat 8 r.2.1 }
  else if r.1 = 4 then s.modTile r.2.2 fun x => { x with err := x.err.refuse }
  else if r.1 = 6 then s.modFab fun x => { x with err := x.err.refuse, lastRefusal := BitVec.ofNat 8 r.2.1 }
  else s

/-- Whether a block that BRD_COMMIT.GO commits has an accepted commit that waits for its boundary (R12, R399). -/
def State.compWaits (s : State) : Bool :=
  s.brd.waiting || s.lp.sh.acc.isSome || s.xlt.sh.acc.isSome || s.fab.sh.acc.isSome ||
  s.tiles.any fun t => t.2.srm.sh.acc.isSome || t.2.nbr.acc.isSome

/-- BRD_COMMIT.GO (R230, R257). -/
def State.brdGo (s : State) : State :=
  if s.compWaits then s.modBrd fun x => { x with goLater := true } else
  match s.allCheck s.slotNwin fun t b => (s.bank t b).cid with
  | some r => s.brdRefused r
  | none => s.allAccept

/-! ### The rows -/

def execSrmCommitGo (t : TileIx) (s : State) : Out := .next (s.srmGo t.val)
def execMemCommitGo (s : State) : Out := .next s.memGo
def execXltCommitGo (s : State) : Out := .next s.xltGo
def execBrdCommitGo (s : State) : Out := .next s.brdGo
def execLnkCommitGo (p : LPort) (s : State) : Out := .next (s.lnkGo p.val)
def execFabCommitGo (s : State) : Out := .next s.fabGo
def execQueCommitGo (s : State) : Out := .next s.queGo
def execSeqCommitGo (s : State) : Out := .next s.seqGo
def execCadCommitGo (s : State) : Out := .next s.cadGo
def execPwrCommitGo (s : State) : Out := .next s.pwrGo

end Sys2Proof.Machine
end

