-- ==== Sys2Proof/Machine/Change.lean ====
section
/-! DEFINITION. Bridle changes: epochs (R231), moved sets and epoch fences (R232 to R236), BRIDLE_CHANGED (R237), the
states of a resource between two bindings (R250). -/

namespace Sys2Proof.Machine

/-! ### What a request touches -/

/-- Whether a resource holds a place. -/
def hitsPlace : Resource → Place → Bool
  | .tile t, .sram u _ => decide (t = u)
  | .granule t g, .sram u off => decide (t = u ∧ off / 65536 = g)
  | .unit u, .dram v _ _ _ => decide (u = v)
  | .pair p, .dram _ q _ _ => decide (p = q)
  | _, _ => false

/-- Whether a resource is one that a request was issued from (R233). -/
def State.hitsIssuer (s : State) (r : Resource) (i : Issuer) : Bool :=
  match r, s.issuerBank i, i with
  | .tile t, some x, _ => decide (t = x.1)
  | .bank t b, some x, _ => decide ((t, b) = x)
  | .func h f, _, .host p g _ _ _ _ => decide (h = p ∧ f = g)
  | .window w, _, .fabric port ftag => s.fab.winReqs.any fun q => decide (q.window = w ∧ q.port = port ∧ q.key = ftag)
  | _, _, _ => false

/-- Whether a request's target is a host function of its composition (R212, R233): it goes to that host port's stop. -/
def hitsFunc (r : Resource) (p : Packet) : Bool :=
  match r with
  | .func h _ => decide (p.dest.toNat = 0x280 + h)
  | _ => false

/-- Whether a request's issuer or target lies in a moved set (R233). -/
def State.touches (s : State) (moved : List Resource) (r : MeshReq) : Bool :=
  let pl := s.place (r.pkt.addr.toNat)
  moved.any fun m => s.hitsIssuer m r.who || hitsFunc m r.pkt || hitsPlace m pl

/-- Whether a new request of a composition waits at its stop (R234): its fence is open and its target lies in the moved
set. -/
def State.fenceHolds (s : State) (cid : Cid) (pl : Place) : Bool :=
  match s.slotOf cid with
  | some slot => (s.fence slot).isOpen && (s.fence slot).moved.any fun m => hitsPlace m pl
  | none => false

/-- The tag that a granule or unit has for a request of epoch `epoch` (R234): the old one while the fence is open. -/
def State.oldTag (s : State) (cid : Cid) (epoch : Word) (pl : Place) : Option Owner :=
  match s.slotOf cid with
  | some slot =>
    if (s.fence slot).isOpen ∧ epoch ≠ s.epochOf slot then
      ((s.fence slot).old.find? fun e => hitsPlace e.1 pl).map (·.2)
    else none
  | none => none

/-! ### The change itself -/

/-- The epoch after `e` (R231). -/
def nextEpoch (e : Word) : Word := if e = BitVec.allOnes 32 then 1 else e + 1

/-- A commit of a change with moved set `moved` (R231 to R233): the epoch steps and, for a non-empty moved set, the
fence opens over the requests outstanding. `old` gives the tags that granules and units of the set had. -/
def State.bridleChange (s : State) (slot : Nat) (cid : Cid) (moved : List Resource) (old : List (Resource × Owner)) : State :=
  let s := s.modBrd fun b => { b with epochs := Tab.insert b.epochs slot (nextEpoch (s.epochOf slot)) }
  if moved.isEmpty then s else
    let s := s.dropLook cid
    let hit := fun (r : MeshReq) => !r.fence && decide (r.pkt.cid = cid) && s.touches moved r
    let n := (s.mesh.reqs.filter fun e => hit e.2).length
    let at0 := s.now
    let mark := fun (e : Nat × MeshReq) => if hit e.2 then (e.1, { e.2 with fence := true }) else e
    let s := s.modMesh fun m => { m with reqs := m.reqs.map mark }
    s.modFence slot fun f =>
      if f.isOpen then { f with count := f.count + BitVec.ofNat 32 n, moved := f.moved ++ moved, old := f.old ++ old }
      else { isOpen := true, count := BitVec.ofNat 32 n, moved := moved, openedAt := at0, old := old }

/-- A request ends at its issuer: a fence that counts it counts one fewer (R233, R236). -/
def State.fenceDown (s : State) (r : MeshReq) : State :=
  if !r.fence then s else
    match s.slotOf r.pkt.cid with
    | some slot => s.modFence slot fun f => { f with count := f.count - 1 }
    | none => s

/-- BRIDLE_CHANGED (R237, R397): the owner learns of a change of Itlum's own. Records are kind, old, new index. -/
def State.bridleChanged (s : State) (cid : Cid) (cause : Nat) (old new : Word) (recs : List (Nat × Nat × Nat)) : State :=
  let rs := recs.take 16
  s.notifyCid cid 0x8002 (toBytes 4 cause ++ toBytes 4 old.toNat ++ toBytes 4 new.toNat ++ toBytes 4 rs.length ++
    rs.flatMap fun r => toBytes 2 r.1 ++ toBytes 2 r.2.1 ++ toBytes 2 r.2.2 ++ toBytes 2 0)

/-- A change of Itlum's own for one composition: the change and its notification (R237). -/
def State.itlumChange (s : State) (cid : Cid) (moved : List Resource) (cause : Nat) (recs : List (Nat × Nat × Nat)) : State :=
  match s.slotOf cid with
  | none => s
  | some slot =>
    let e := s.epochOf slot
    let s := s.bridleChange slot cid moved []
    let s := s.when (!moved.isEmpty) fun s => s.modFence slot fun f => { f with itlum := true }
    s.bridleChanged cid cause e (nextEpoch e) recs

/-- Whether Itlum can prepare a change of its own now (R237, R400): it holds no pending values, no fence of the
compositions is open. -/
def State.canChange (s : State) (cids : List Cid) : Bool :=
  s.itl.held.isNone && !s.compWaits && cids.all fun c => match s.slotOf c with
    | some k => !(s.fence k).isOpen
    | none => true

/-! ### Resources between two bindings (R250) -/

/-- Whether a resource is still DRAINING or CLEARING. -/
def State.notFree (s : State) (r : Resource) : Bool := s.brd.res.any fun e => decide (e.1 = r)
/-- A resource leaves a composition: DRAINING until the fence of its change closes. -/
def State.drain (s : State) (cid : Cid) (rs : List Resource) : State :=
  s.modBrd fun b => { b with res := b.res.filter (fun e => !(rs.contains e.1)) ++ rs.map fun r => (r, cid, .draining) }
/-- Its clear starts (R251). -/
def State.startClear (s : State) (rs : List Resource) : State :=
  s.modBrd fun b => { b with res := b.res.map fun e => if rs.contains e.1 then (e.1, e.2.1, .clearing) else e }
/-- It is FREE again. -/
def State.setFree (s : State) (r : Resource) : State := s.modBrd fun b => { b with res := b.res.filter fun e => decide (e.1 ≠ r) }

/-! ### The fence closes -/

/-- The response to a request (R140, R141): type 4, 5 or 6 after type 1, 2 or 3; a barrier arrival is answered with
type 6, GEN in OPERAND (log entry 21). -/
def reply (p : Packet) (status : Nat) (data : Line) (operand : BitVec 128) : Packet :=
  { p with type := if p.type = 7 then 6 else p.type + 3, dest := p.src, src := p.dest, status := BitVec.ofNat 8 status,
           data := data, operand := operand }

/-- A host request's status counts in HST_PORT_CNT_LOST (R330). -/
def State.hostLost (s : State) (h : Nat) : State := s.modHPort h fun p => { p with cntLost := satInc p.cntLost }

/-- A request for a page of KIND HOST leaves on the composition's function, or ends at its issuer (R329, R330). -/
def State.hostIssue (s : State) (p : Packet) : State :=
  let c := s.ctxEntry p.cid p.ctx
  if p.type = 3 ∨ c.1 ≠ 0 ∨ !c.2.1.getLsbD 63 then s.emit (.mesh (reply p 1 0 0)) else
  match s.boundFunc p.cid with
  | none => s.emit (.mesh (reply p 7 0 0))
  | some hf =>
    if (s.hostWay p.cid).isNone then (s.hostLost hf.1).emit (.mesh (reply p 7 0 0)) else
    let a : DWord := p.addr.setWidth 64
    let stream := match (Tab.find s.mesh.reqs (reqKey p.src.toNat p.tag.toNat)).map (·.who) with
      | some (.copyWrite _ _ _) => true
      | _ => false
    if p.type = 2 then
      let bytes := (List.range 64).filterMap fun i => if p.byteEn.getLsbD i then some (Line.byte p.data i) else none
      let first := ((List.range 64).find? fun i => p.byteEn.getLsbD i).getD 0
      (s.hostWriteAs hf.1 hf.2 (some (s.pasidOf p.cid p.ctx)) stream (a + BitVec.ofNat 64 first) bytes).emit (.mesh (reply p 0 0 0))
    else if 2048 ≤ s.hostLoad hf.1 then s.modHst fun h => { h with queued := h.queued ++ [p] }
    else
      let pasid := s.pasidOf p.cid p.ctx
      let s := s.atsAsk hf.1 hf.2 pasid (a.toNat / 4096)
      let g := s.freeHostTag hf.1
      let out := s.asSent hf.1 hf.2 (some pasid) false a
      let r : HostReq := { hport := hf.1, func := hf.2, tag := g, stop := p.src.toNat, mtag := p.tag.toNat, addr := a,
                           pasid := pasid, translated := out.2.translated }
      (s.modHst fun h => { h with reqs := h.reqs ++ [r] }).emit (.hostRead hf.1 hf.2 out.2 g out.1)

/-- Reads that waited for a port's requests to end are sent (R325). -/
def State.hostNext (s : State) : State :=
  let qs := s.hst.queued
  (s.modHst fun h => { h with queued := [] }).each qs fun s p => s.hostIssue p

/-- Whether a new host request of a composition waits at its stop (R234): its fence is open and the change took a host
function of it. -/
def State.fenceHoldsHost (s : State) (cid : Cid) : Bool :=
  match s.slotOf cid with
  | some slot => (s.fence slot).isOpen && (s.fence slot).moved.any fun m => match m with
    | .func _ _ => true
    | _ => false
  | none => false

/-- Requests that waited at their stops leave, under the epoch in force (R234). -/
def State.releaseHeld (s : State) (cid : Cid) : State :=
  let host := fun (p : Packet) => decide (p.dest.toNat = 0x280 ∨ p.dest.toNat = 0x281)
  let waits := fun (p : Packet) => if host p then s.fenceHoldsHost cid else s.fenceHolds cid (s.place p.addr.toNat)
  let go := s.mesh.held.filter fun p => decide (p.cid = cid) && !waits p
  let s := s.modMesh fun m => { m with held := m.held.filter fun p => !(go.contains p) }
  s.each go fun s p =>
    let q := { p with epoch := s.epochOfCid cid }
    if host p then s.hostIssue q else s.emit (.mesh q)

/-- A pair switch that has committed and whose fences have all closed (R240): the source is cleared. -/
def State.moveClears (s : State) (h : Nat) : State :=
  let m := s.moveH h
  let src := m.src.toNat
  let isOpen := s.brd.fences.any fun e => e.2.isOpen && e.2.moved.contains (.pair src)
  let waits := s.itl.held.any fun x => match x.change with
    | .pairSwitch g _ _ _ => decide (g = h)
    | _ => false
  if m.st = .switching ∧ !isOpen ∧ !waits then
    (s.modMove h fun m => { m with st := .clearing }).modPair src fun p => { p with clearing := true }
  else s

/-- The regulator shares of a composition on a port are returned (R251). -/
def State.returnShares (s : State) (cid : Cid) (p : Nat) : State :=
  match s.slotOf cid with
  | none => s
  | some slot =>
    let keep := fun (n : FabSh) => { n with
      regs := n.regs.filter fun e => !(decide (p * 32 ≤ e.1 ∧ e.1 < p * 32 + 32 ∧ e.2.slot.toNat = slot)) }
    s.modFab fun f => { f with sh := f.sh.both keep }

/-- A port that leaves a composition needs no clear: its regulator shares are returned as the fence closes (R251). -/
def State.closePorts (s : State) (cid : Cid) (rs : List Resource) : State :=
  s.each rs fun s r => match r with
    | .port p => (s.returnShares cid p).setFree r
    | _ => s

/-- A fence closes (R233, R234, R240, R250, R251). -/
def State.fenceClose (s : State) (slot : Nat) : State :=
  let f := s.fence slot
  let s := (s.startClear f.atClose).closePorts (s.slotE slot).2 f.atClose
  let s := s.modFence slot fun _ => {}
  let s := s.releaseHeld (s.slotE slot).2
  (s.moveClears 0).moveClears 1

/-! ### Who holds what (R483, R486) -/

/-- Whether an image entry holds something of logical tile `l`. -/
def entryTile (e : ImgEntry) (l : Nat) : Bool :=
  match e with
  | .tiles g _ _ mask => decide (l / 128 = g) && mask.getLsbD (l % 128)
  | .sram t _ _ _ _ => decide (t = l)
  | _ => false

/-- The compositions that hold something of physical tile `t`. -/
def State.tileCids (s : State) (t : Nat) : List Cid :=
  match s.logTile t with
  | some l => (s.boundCids.filter fun e => (s.image e.2).entries.any fun x => entryTile x l).map (·.2)
  | none => []

end Sys2Proof.Machine
end

