-- ==== Sys2Proof/Machine/Ladder.lean ====
section
/-! DEFINITION. The recovery ladder's first two steps and sparing inside a row: records of a step (R475, R482, R570),
tile isolation (R74), row shifts (R75, R76), holes (R77), failed shells (R78). -/

namespace Sys2Proof.Machine

/-! ### Records of a step -/

/-- RESOURCE of RECOVERY_BEGIN and RECOVERY_END (R482). -/
def recResource (level half tile : Nat) (escalated : Bool) (seq : Word) : Nat :=
  level + half * 4 + tile * 8 + (if escalated then 2 ^ 13 else 0) + seq.toNat * 2 ^ 32

/-- A step from isolation upward begins: REC_SEQ, the flight log, the records of the compositions concerned (R475, R483). -/
def State.recBegin (s : State) (level half tile : Nat) (cids : List Cid) : State :=
  let s := s.modRcv fun r => { r with seq := r.seq + 1 }
  let res := recResource level half tile false s.rcv.seq
  (s.log 0x04 0xFFFF 0 (toBytes 8 res)).moduleRecords cids 2 res

/-- A step ends, escalated or not. -/
def State.recEnd (s : State) (level half tile : Nat) (escalated : Bool) (seq : Word) (ms : Nat) (cids : List Cid) : State :=
  let res := recResource level half tile escalated seq
  (s.log 0x04 0xFFFF 0 (toBytes 8 res ++ toBytes 4 ms)).moduleRecords cids 3 res

/-- Itlum clamps a tile's core to isolate it (R74 step 1). -/
def State.isolate (s : State) (t : Nat) (byRecover : Bool) : State :=
  if s.recovering (t / 272) ∨ s.rcv.isolations.any (fun i => decide (i.tile = t)) ∨ (s.tile t).role ≠ .grid then s else
    let s := s.modTile t fun x => { x with clamp := true, clamped := true }
    let s := s.recBegin 1 (t / 272) t (s.tileCids t)
    let q := s.rcv.seq
    s.modRcv fun r => { r with isolations := r.isolations ++ [⟨t, byRecover, q⟩] }

/-! ### The row -/

/-- The healthy skipped tile of a row, if one is left (R22, R77). -/
def State.rowSpare (s : State) (half row : Nat) : Option Nat :=
  ((List.range 17).map fun c => half * 272 + row * 17 + c).find? fun k => decide ((s.tile k).role = .spare) && !(s.tile k).stopDead

/-- The tiles that a shift of failed tile `f` toward skip `k` moves, each with the tile it moves to, the one beside the
skip first (R75). -/
def shiftPairs (f k : Nat) : List (Nat × Nat) :=
  if f < k then (List.range (k - f)).map fun i => (k - 1 - i, k - i)
  else (List.range (f - k)).map fun i => (k + 1 + i, k + i)

/-- The physical column, among those of a row, that serves a logical column. -/
def State.colOf (s : State) (half row lcol : Nat) : Option Nat := (s.tileAt half row lcol).map fun k => k % 17

/-- N_SEL or S_SEL of a tile toward the neighbouring row (R66): the tile of its logical column there. -/
def State.selToward (s : State) (half row lcol col : Nat) : BitVec 2 :=
  match s.colOf half row lcol with
  | some c => if c < col then 0 else if col < c then 2 else 1
  | none => 1

/-- The TIL_NBR values that the tiles' logical columns call for (R75, R616). -/
def State.nbrOf (s : State) (k : Nat) : Nbr :=
  let x := s.tile k
  let half := k / 272
  let row := k % 272 / 17
  if x.role ≠ .grid then { x.nbr.act.nbr with bypass := true } else
    { nSel := if row = 0 then 1 else s.selToward half (row - 1) x.lcol.toNat (k % 17),
      sSel := if row = 15 then 1 else s.selToward half (row + 1) x.lcol.toNat (k % 17),
      bypass := false }

/-- The TIL_NBR values of a row and of the rows above and below, by tile. -/
def State.nbrVals (s : State) (half row : Nat) : List (Nat × Nbr) :=
  let rows := [row - 1, row, min (row + 1) 15].eraseDups
  (rows.flatMap fun r => (List.range 17).map fun c => half * 272 + r * 17 + c).map fun k => (k, s.nbrOf k)

/-- TIL_NBR of a row and of the rows above and below takes those values at once (R77, R581). -/
def State.rowNbr (s : State) (half row : Nat) : State :=
  s.each (s.nbrVals half row) fun s v => s.modTile v.1 fun x => { x with nbr := x.nbr.both fun n => { n with nbr := v.2 } }

/-- The SH fields of a moving tile on the tile that takes its column: its TIL_REG entries move with it, TIL_NBR belongs to
the physical tile (R66, R75). -/
def Sh.moveRegs (src dst : Sh TilSh) : Sh TilSh :=
  { src with act := { src.act with nbr := dst.act.nbr }, pend := { src.pend with nbr := dst.pend.nbr }, acc := none,
             goLater := dst.goLater }

/-- A failed tile leaves the grid (R76, R77): its role, its column, its share. -/
def Tile.leave (x : Tile) : Tile :=
  { x with role := .retired, lcol := 0x1F, pairings := [], look := [], issueHold := false,
           issueHeld := false, testHold := false, shiftBusy := false, barIdle := false, raised := [], levels := [],
           nbr := Sh.moveRegs (.of {}) x.nbr,
           srm := { x.srm with sh := .of {}, poison := [], rewrite := [], staleIcv := [], clearBusy := false } }
/-- A failed tile whose banks have moved away (R76). -/
def Tile.retire (x : Tile) : Tile := { x.leave with banks := [], chans := [] }

/-- A tile takes what another held (R75): its column, bindings, share contents' marks and state array. The spec does not
say when the former spare's core is powered and un-clamped nor what NARROW_EN it takes: it stands with power on, clamp off
and the NARROW_EN of the tile it takes over from when the shift commits, with no wait of 10 µs (DESIGN CHOICE, log
entry 44). A receiving tile that is itself isolated or failed (`off`) keeps its clamp, gate and rail. -/
def Tile.take (dst src : Tile) (shellFailed off : Bool) : Tile :=
  { dst with role := .grid, lcol := src.lcol, nbr := Sh.moveRegs src.nbr dst.nbr, levels := src.levels, run := src.run,
             issueHold := false, issueHeld := false, shiftBusy := false, clamp := off && dst.clamp, gate := off && dst.gate,
             powered := !off || dst.powered, clamped := off && dst.clamped, narrow := src.narrow,
             banks := if shellFailed then [] else src.banks, chans := if shellFailed then [] else src.chans,
             pairings := if shellFailed then [] else src.pairings, look := src.look,
             barIdle := src.barIdle, raised := src.raised, testHold := false,
             srm := { dst.srm with sh := src.srm.sh, poison := if shellFailed then [] else src.srm.poison,
                                   rewrite := if shellFailed then [] else src.srm.rewrite,
                                   staleIcv := if shellFailed then [] else src.srm.staleIcv } }

/-- A table keyed by parser entry, its keys renamed (R365). -/
def Tab.rekey {α : Type} (f : Nat → Nat) (t : Tab α) : Tab α := t.foldl (fun acc e => Tab.insert acc (f e.1) e.2) []

/-- The queues of a tile whose parser is lost end, each with its record (R365). -/
def State.loseQueues (s : State) (t : Nat) : State :=
  s.each (((s.que.q.map (·.1)) ++ s.que.sh.act.q.map (·.1)).eraseDups.filter fun e => decide (e / 16 = t)) fun s e =>
    if !(s.qSh e).valid then s else
      (s.endQueue e true).queueRecordOf (s.qSh e) (s.qCid e) 9

/-- The issuer of a request after its tile's contents have moved; the request keeps the stop and tag it left under. -/
def Issuer.rename (mv : Nat → Nat) : Issuer → Issuer
  | .load t b p n o => .load (mv t) b p n o
  | .store t b => .store (mv t) b
  | .atomic t b => .atomic (mv t) b
  | .copyRead t c l => .copyRead (mv t) c l
  | .copyWrite t c l => .copyWrite (mv t) c l
  | .descRead t c => .descRead (mv t) c
  | .barArrive t b => .barArrive (mv t) b
  | .barRead t b => .barRead (mv t) b
  | i => i

/-- Who names a tile by its index is renamed when the tile's contents move: queues, waits, walks, requests still out,
resources between two bindings and the moved sets of open fences (R250, R365). -/
def State.renameTiles (s : State) (mv : Nat → Nat) : State :=
  let pr := fun (x : Nat × Nat) => (mv x.1, x.2)
  let qe := fun (e : Nat) => mv (e / 16) * 16 + e % 16
  let who := fun (w : Waiter) => match w with
    | .bank t b => Waiter.bank (mv t) b
    | .queue e i => .queue (qe e) i
  let cmd := fun (c : QCmd) => { c with toStart := c.toStart.map pr, running := c.running.map pr }
  let ro := fun (e : Nat × ResRo) =>
    (e.1, { e.2 with banks := e.2.banks.map pr, held := e.2.held.map fun h => { h with bank := h.bank.map pr } })
  let q := fun (e : Nat × QRo) => (e.1, { e.2 with cmds := e.2.cmds.map cmd })
  let wt := fun (w : SyncEntry) => { w with who := who w.who }
  let qk := fun (n : QueSh) => { n with q := Tab.rekey qe n.q }
  let s := s.modQue fun x => { x with
    waits := x.waits.map wt, res := x.res.map ro, q := Tab.rekey qe (x.q.map q), sh := x.sh.both qk }
  let s := s.modLp fun m => { m with jobs := m.jobs.map fun j => { j with entry := qe j.entry } }
  let mg := fun (m : MigReq) => { m with tile := mv m.tile, cmd := m.cmd.map fun c => (qe c.1, c.2) }
  let s := s.modXlt fun x => { x with
    walks := x.walks.map fun w => { w with tile := mv w.tile }, mig := x.mig.map mg }
  let rs := fun (r : Resource) => match r with
    | .tile t => Resource.tile (mv t)
    | .bank t b => .bank (mv t) b
    | .granule t g => .granule (mv t) g
    | r => r
  let fn := fun (f : FenceSt) => { f with
    moved := f.moved.map rs, atClose := f.atClose.map rs, old := f.old.map fun o => (rs o.1, o.2) }
  let s := s.modBrd fun b => { b with
    res := b.res.map fun e => (rs e.1, e.2), fences := b.fences.map fun e => (e.1, fn e.2) }
  let bk := fun (k : Nat) => mv (k / 4) * 4 + k % 4
  let s := s.modRcv fun r => { r with
    still := Tab.rekey bk r.still, lastProgress := Tab.rekey bk r.lastProgress, lastRun := Tab.rekey bk r.lastRun }
  s.modMesh fun m => { m with reqs := m.reqs.map fun e => (e.1, { e.2 with who := e.2.who.rename mv }) }

/-- BRD_SRAM_REDIR of a row after a shift (R227): each slot follows its data, the former skip's takes the failed tile. -/
def State.redirRow (s : State) (half row : Nat) (mv : Nat → Nat) : State :=
  let slots := (List.range 17).map fun c => half * 272 + row * 17 + c
  let one := fun (x : BrdSh) (v : Nat × Nat) => { x with redir := Tab.insert x.redir v.1 (BitVec.ofNat 10 v.2) }
  let all := fun (x : BrdSh) => (slots.map fun k => (k, mv (x.redirOf k))).foldl one x
  s.modBrd fun b => { b with sh := b.sh.both all }

/-- The bridle changes of holes that their compositions let Itlum make (R237): each waits while the composition's fence is
open or Itlum holds another change. -/
def State.holeChanges (s : State) : State :=
  s.each s.rcv.holes fun s h =>
    if !s.canChange [h.2] then s
    else (s.modRcv fun r => { r with holes := r.holes.filter fun x => decide (x ≠ h) }).itlumChange h.2 [.tile h.1] 2
      [(1, h.1, 0xFFFF)]

/-- A tile becomes a hole (R77): its contexts are lost with code 0x09 and its banks stay FAULTED until they are purged
(R45), the owners learn of it. -/
def State.makeHole (s : State) (t : Nat) : State :=
  let s := s.each [0, 1, 2, 3] fun s b => s.bankLost t b 9 0
  let cids := s.tileCids t
  let s := s.modRcv fun r => { r with holes := r.holes ++ cids.map fun c => (t, c) }
  let s := s.holeChanges
  let s := s.each [0, 1, 2, 3] fun s b => s.dropBankWaits t b
  let s := s.loseQueues t
  let s := s.modTile t fun x => { x.leave with nbr := x.nbr.both fun n => { n with nbr := { n.nbr with bypass := true } } }
  s.tileSignal t

/-- A failed tile starts to leave its row (R75, R77): a shift where a healthy skip is left and no shift runs there, a hole
where none is left. -/
def State.leaveRow (s : State) (t : Nat) (shell : Bool) : State :=
  let half := t / 272
  let row := t % 272 / 17
  let busy := s.rcv.shifts.any fun x => decide (x.half = half ∧ x.row = row)
  match s.rowSpare half row with
  | some k =>
    let moving := (shiftPairs t k).map (·.1)
    let cids := if busy then [] else (moving.flatMap fun u => s.tileCids u).eraseDups
    s.modRcv fun r => { r with
      shifts := r.shifts ++ [{ half := half, row := row, failed := t, skip := k, shellFailed := shell, cids := cids }] }
  | none => s.makeHole t

/-- The commit of a shift's bridle change (R75 step 1): the fences of its compositions open. -/
def State.openShift (s : State) (x : RowShift) : State :=
  let ps := shiftPairs x.failed x.skip
  let moved := ps.map fun p => Resource.tile p.1
  let recs := ps.map fun p => (1, p.1, p.2)
  s.each x.cids fun s c => s.itlumChange c moved 1 recs

/-- The isolation of a tile ends (R475). -/
def State.endIsolation (s : State) (t : Nat) (escalated : Bool) (cids : List Cid) : State :=
  match s.rcv.isolations.find? fun i => decide (i.tile = t) with
  | none => s
  | some i =>
    let s := s.modRcv fun r => { r with isolations := r.isolations.filter fun i => decide (i.tile ≠ t) }
    let s := s.recEnd 1 (t / 272) t escalated i.seq 0 cids
    s.when (!escalated) fun s => s.opDone 0x0901 0 (0x20000 + t) 0 1 0

/-- Where each tile's contents go in a shift: one column toward the skip; the old skip's place is the failed tile. -/
def RowShift.moves (x : RowShift) (u : Nat) : Nat :=
  match (shiftPairs x.failed x.skip).find? fun p => decide (p.1 = u) with
  | some p => p.2
  | none => if u = x.skip then x.failed else u

/-- The roles and logical columns of a row after a shift (R76, R616), for the TIL_NBR values it calls for. -/
def State.rolesAfter (s : State) (x : RowShift) : State :=
  let s' := s.each (shiftPairs x.failed x.skip) fun r p =>
    r.modTile p.2 fun d => { d with role := .grid, lcol := (s.tile p.1).lcol }
  s'.modTile x.failed fun d => { d with role := .retired, lcol := 0x1F }

/-- Itlum writes the new TIL_NBR values of the row and of the rows beside it (R75 step 2): they wait for its commit. -/
def State.shiftNbr (s : State) (x : RowShift) : State :=
  s.each ((s.rolesAfter x).nbrVals x.half x.row) fun s v =>
    s.modTile v.1 fun d => { d with nbr := d.nbr.setPend fun n => { n with nbr := v.2 } }

/-- A shift whose copy has ended commits TIL_NBR (R75 step 3) once Itlum holds no other pending values (R400). -/
def State.commitShift (s : State) (x : RowShift) : State :=
  if !x.copied ∨ s.itl.held.isSome ∨ s.compWaits then s else
    let s := s.each (((s.rolesAfter x).nbrVals x.half x.row).map (·.1)) fun s t =>
      s.modTile t fun d => { d with nbr := d.nbr.accept }
    s.modItl fun i => { i with held := some { change := .rowShift x.half x.row x.failed x.cids, block := 4 } }

/-- Failed tiles of a row that wait behind a shift become holes when it has taken the row's skip (R77). -/
def State.rowHoles (s : State) (half row : Nat) : State :=
  let later := s.rcv.shifts.filter fun y => decide (y.half = half ∧ y.row = row)
  let s := s.modRcv fun r => { r with shifts := r.shifts.filter fun y => !decide (y.half = half ∧ y.row = row) }
  s.each later fun s y =>
    let cids := s.tileCids y.failed
    ((s.makeHole y.failed).rowNbr half row).endIsolation y.failed false cids

/-- A shift commits (R75 step 3, R76, R227): contents, names and redirection move together, and issue resumes. A shell
that failed since sends nothing (R78), and its tile becomes a hole. -/
def State.finishShift (s : State) (x : RowShift) : State :=
  let ps := shiftPairs x.failed x.skip
  let row := s.rcv.shifts.filter fun y => decide (y ≠ x ∧ y.half = x.half ∧ y.row = x.row)
  let s := s.modRcv fun r => { r with shifts := r.shifts.filter fun y => decide (y ≠ x) }
  let off := fun t => s.rcv.isolations.any (fun i => decide (i.tile = t)) || row.any fun y => decide (y.failed = t)
  let s := s.each ps fun s p =>
    let lost := (x.shellFailed && decide (p.1 = x.failed)) || row.any fun y => y.shellFailed && decide (y.failed = p.1)
    let src := s.tile p.1
    let s := if lost then s.clearMem (sramKey p.2 0) 0x1800000 else s.copyMem (sramKey p.1 0) (sramKey p.2 0) 0x1800000
    s.modTile p.2 fun d => Tile.take d src lost (off p.2)
  let s := s.modTile x.failed Tile.retire
  let s := (s.renameTiles x.moves).redirRow x.half x.row x.moves
  let s := s.each (x.failed :: ps.map (·.2)) fun s t => s.tileSignal t
  let s := s.each (x.cids.filterMap s.slotOf) fun s k => s.fenceClose k
  let s := s.endIsolation x.failed false x.cids
  s.rowHoles x.half x.row

/-- A shift cannot go on, its skip having failed (R77, R78): the moving tiles issue again, and the failed tile becomes a
hole. -/
def State.cancelShift (s : State) (x : RowShift) : State :=
  let s := s.modRcv fun r => { r with shifts := r.shifts.filter fun y => decide (y ≠ x) }
  let s := s.when x.copying fun s => s.each ((shiftPairs x.failed x.skip).map (·.1)) fun s t =>
    s.modTile t fun d => { d with issueHold := false, shiftBusy := false }
  let s := s.each (if x.opened then x.cids.filterMap s.slotOf else []) fun s k => s.fenceClose k
  ((s.makeHole x.failed).rowNbr x.half x.row).endIsolation x.failed false x.cids

/-! ### A failed shell -/

/-- Itlum marks a dead stop in the routing tables of every stop in its row and its column (R143). -/
def State.markDead (s : State) (t : Nat) : State :=
  let near := fun (u : Nat) => decide (u ≠ t) && (decide (u % 272 / 17 = t % 272 / 17) || decide (u / 272 = t / 272 ∧ u % 17 = t % 17))
  s.each ((s.tiles.map (·.1)).filter near) fun s u =>
    s.modTile u fun x => { x with deadMarks := if x.deadMarks.contains t then x.deadMarks else x.deadMarks ++ [t] }

/-- Contexts whose data lie in a tile's share: the contexts that own granules, and those resident of compositions that
hold granules of scope 1 (R78). -/
def State.shareCtxs (s : State) (t : Nat) : List (Cid × Ctx) :=
  (((s.tile t).srm.sh.act.gran.filter fun e => e.2.valid).flatMap fun e =>
    if e.2.scope then (s.que.sh.act.res.filter fun r => r.2.valid && decide (r.2.cid = e.2.cid)).map fun r => (r.2.cid, r.2.ctx)
    else [(e.2.cid, e.2.ctx)]).eraseDups

/-- The shell of a tile outside the logical grid fails (R78): a skipped tile is healthy no more, its dead stop is marked,
and a shift toward it cannot go on. -/
def State.spareShellFail (s : State) (t element : Nat) : State :=
  let s := s.modTile t fun x => { x with
    role := if x.role = .spare then .retired else x.role, stopDead := x.stopDead || decide (element = 0) }
  let s := s.when (decide (element = 0)) fun s => s.markDead t
  s.each (s.rcv.shifts.filter fun y => decide (y.skip = t)) fun s y => s.cancelShift y

/-- A tile's shell fails (R78). -/
def State.shellFail (s : State) (t element : Nat) : State :=
  let s := s.each [0, 1, 2, 3] fun s b => s.bankLost t b 0x0A element
  let body := toBytes 2 element ++ toBytes 2 t ++ toBytes 4 0 ++ toBytes 4 0
  let s := s.each (s.shareCtxs t) fun s c =>
    match s.resOf c.1 c.2 with
    | some r => if (s.resRo r).lost then s else (s.countLost c.1).ctxFault c.1 c.2 1 0x0A body none
    | none => s
  let s := s.loseQueues t
  let mine := s.mesh.reqs.filter fun e => match s.issuerBank e.2.who with
    | some x => decide (x.1 = t)
    | none => false
  let s := s.each mine fun s e => s.fenceDown e.2
  let s := s.modMesh fun m => { m with reqs := m.reqs.filter fun e => !(mine.contains e) }
  let s := s.modTile t fun x => { x with
    clamp := true, clamped := true, gate := true, stopDead := x.stopDead || decide (element = 0) }
  let s := s.when (decide (element = 0)) fun s => s.markDead t
  s.leaveRow t true

end Sys2Proof.Machine
end

