-- ==== Sys2Proof/Machine/Access.lean ====
section
/-! DEFINITION. Accesses: a unit's request to its target (R129, R139, R140, R234, R329), the whole-access check with
its walks (R199, R208, R209) and migration faults (R205 to R207). -/

namespace Sys2Proof.Machine

/-! ### Requests -/

/-- The target class of R212: the collective aperture (R288) is the reduction engine's. -/
def Target.cls (s : State) : Target → Nat
  | .localMpa m => (s.place m).cls
  | .window fa => if 0x300000000000 ≤ fa % 2 ^ 46 ∧ fa % 2 ^ 46 < 0x310000000000 then 6 else 2
  | .host _ => 3

/-- Flits of a packet (R140, R141): a header; a write request, a read response and a barrier release carry 512 bits more. -/
def flitsOf (p : Packet) : Nat := if p.type = 2 ∨ p.type = 4 ∨ p.type = 8 then 2 else 1
/-- Flits that wait in the injection queue of a stop's request plane: requests held by a fence (R54, R234). A packet
that nothing holds leaves at once. -/
def State.injFlits (s : State) (stop : Nat) : Nat :=
  ((s.mesh.held.filter fun p => decide (p.src.toNat = stop)).map flitsOf).sum
/-- Whether a request that must wait finds room there: a tile stop's queue holds 16 flits (R54). -/
def State.injRoom (s : State) (stop : Nat) (p : Packet) (tgt : Target) : Bool :=
  match tgt with
  | .localMpa m => decide (544 ≤ stop) || !s.fenceHolds p.cid (s.place m) || decide (s.injFlits stop + flitsOf p ≤ 16)
  | .host _ => decide (544 ≤ stop) || !s.fenceHoldsHost p.cid || decide (s.injFlits stop + flitsOf p ≤ 16)
  | .window _ => true

/-- Send a request to its target under a free tag: none where all tags are in use, or where it would have to wait and the
stop's injection queue is full. A request whose target lies in the
moved set of an open fence waits at its stop (R234); one for a window goes to the fabric router (log entry 22). -/
def State.issue (s : State) (who : Issuer) (stop : Nat) (p : Packet) (tgt : Target) (via : Option (Nat × Nat)) : Option State :=
  (if s.injRoom stop p tgt then s.freeTag stop else none).map fun g =>
    let addr := match tgt with
      | .localMpa m => m
      | .window fa => fa
      | .host a => a
    let dest := match tgt with
      | .localMpa m => stopOf stop (s.place m)
      | .window _ => 0x250
      | .host _ => match s.boundFunc p.cid with
        | some hf => 0x280 + hf.1
        | none => 0x280
    let p := { p with dest := BitVec.ofNat 10 dest, src := BitVec.ofNat 10 stop, tag := BitVec.ofNat 8 g,
                      epoch := s.epochOfCid p.cid, addr := BitVec.ofNat 60 addr }
    let m : MeshReq := { who := who, pkt := p, cls := if p.type = 7 then 5 else tgt.cls s, via := via }
    let s := s.modMesh fun x => { x with reqs := Tab.insert x.reqs (reqKey stop g) m }
    match tgt with
    | .localMpa a =>
      if s.fenceHolds p.cid (s.place a) then s.modMesh fun x => { x with held := x.held ++ [p] } else s.emit (.mesh p)
    | .window _ => s.emit (.mesh p)
    | .host _ => if s.fenceHoldsHost p.cid then s.modMesh fun x => { x with held := x.held ++ [p] } else s.hostIssue p

/-! ### Migration faults -/

/-- Whether a migration fault of a context can ask for its page (R207), and on which function. -/
def State.migWay (s : State) (cid : Cid) (ctx : Ctx) : Option (Nat × Nat) :=
  match s.boundFunc cid with
  | none => none
  | some hf =>
    let c := s.ctxEntry cid ctx
    if c.2.1.getLsbD 62 && (s.func hf.1 hf.2).priEn && !(Tab.get (fun _ => false) s.xlt.priStopped (funcKey hf.1 hf.2))
    then some hf else none

/-- Page requests of a function that have no response yet (R206, R207). -/
def State.prgInUse (s : State) (h f : Nat) : List Nat :=
  (s.xlt.mig.filterMap fun m => if m.hport = h ∧ m.func = f then m.sent else none) ++
  s.xlt.retired.filterMap fun r => if r.1 = h ∧ r.2.1 = f then some r.2.2 else none

/-- Send the first page request of a function's pending list that its allocation and its context allow (R206): the list
holds 256 entries in fault order, and one behind them enters it as an entry frees. -/
def State.sendPage (s : State) (h f : Nat) : State :=
  let used := s.prgInUse h f
  let cap := min 256 (s.func h f).priAlloc
  let sentCtx := fun (m : MigReq) => s.xlt.mig.any fun n => decide (n.sent ≠ none ∧ n.cid = m.cid ∧ n.ctx = m.ctx)
  if cap ≤ used.length then s else
  let pending := (s.xlt.mig.filter fun m => decide (m.hport = h ∧ m.func = f ∧ m.sent = none)).take 256
  match pending.find? fun m => !sentCtx m with
  | none => s
  | some m =>
    let g := ((List.range 512).find? fun i => !(used.contains i)).getD 0
    let at0 := s.now
    let pasid := fld (s.ctxEntry m.cid m.ctx).2.2 0 20
    let upd := fun (n : MigReq) => if n = m then { n with sent := some g, sentAt := at0 } else n
    (s.modXlt fun x => { x with mig := x.mig.map upd }).emit (.pageRequest h f pasid m.page m.rd m.wr g)

/-- A migration fault of a tile's access (R205, R207): the bank waits, or the context is lost, with reason 0x0C after 8
Success responses. -/
def State.migFault (s : State) (t b unit ch : Nat) (op : TileOp) (spans : List Span) (page log2 : Nat) (entry : DWord)
    (tries : Nat) : State :=
  let k := s.bank t b
  let hit := spans.filter fun sp => decide (sp.at_ < page + 2 ^ log2 ∧ page < sp.at_ + sp.len)
  let sp := hit.headD { at_ := page, len := 1, acc := .rd, priv := false, row := 0 }
  let f : XFault := ⟨max page sp.at_, 0, (log2 - 12) / 9, entry, sp.acc, sp.priv, sp.row, sp.at_⟩
  let body := xlatBody f unit ch t b
  let rd := hit.any fun x => decide (x.acc ≠ .wr)
  let wr := hit.any fun x => decide (x.acc ≠ .rd)
  if 8 ≤ tries then s.xlatFaultBody t b (withReason body 0x0C) else
  match s.migWay k.cid k.ctx with
  | none => s.xlatFaultBody t b (withReason body 8)
  | some hf =>
    let at0 := s.now
    let s := s.modBank t b fun x => { x with st := .waiting, wait := some (.migrate op page rd wr), since := at0 }
    let m : MigReq := { tile := t, bank := b, cid := k.cid, ctx := k.ctx, page := page, rd := rd, wr := wr,
                        hport := hf.1, func := hf.2, tries := tries, body := body }
    (s.modXlt fun x => { x with mig := x.mig ++ [m] }).sendPage hf.1 hf.2

/-! ### The whole-access check -/

/-- The translation that a bank's access sees (R199): by walks once they have completed, else by its look-aside. -/
def State.tileTranslate (s : State) (t b : Nat) (walked : Bool) (dva : Nat) : Option XRes :=
  let k := s.bank t b
  if walked then some (s.translate t k.cid k.ctx dva)
  else if 2 ^ 57 ≤ dva then some (.bad 0x04 7 0)
  else (s.lookup t k.cid k.ctx dva).map .hit

/-- Check an access (R208, R209) and carry it out with the entries found. Without `walked`, a look-aside miss suspends
the bank until its walks complete (R199); `last` is the page that faulted last and the Success responses it has had
(R207), and XLT_MIG_CNT counts the access once it passes (R205), unless more of it is still to be checked (`more`). -/
def State.tileAccess (s : State) (t b unit ch : Nat) (op : TileOp) (spans : List Span) (walked : Bool)
    (last : Option (Nat × Nat)) (more : Bool) (go : List XEntry → State → State) : State :=
  let k := s.bank t b
  let c := visitSpans (s.tileTranslate t b walked) spans
  if c.miss then
    let s := s.modBank t b fun x => { x with wait := some (.walk op) }
    s.modXlt fun x => { x with walks := x.walks ++ [{ tile := t, bank := b }] }
  else
    let new := fun (e : XEntry) => walked && (s.lookup t k.cid k.ctx e.base).isNone
    let s := s.each (c.entries.filter new) fun s e => s.cacheWalk (t / 272) k.cid k.ctx e.base
    let s := s.each c.entries fun s e => s.install t e
    match c.fault with
    | some f => (s.countWalk (t / 272) k.cid k.ctx f.dva f.reason f.level).xlatFault t b unit ch f
    | none =>
      match c.mig with
      | some m =>
        let tries := match last with
          | some l => if l.1 = m.1 then l.2 else 0
          | none => 0
        s.migFault t b unit ch op spans m.1 m.2.1 m.2.2 tries
      | none =>
        let s := if last.isSome && !more then
            match s.slotOf k.cid with
            | some slot => s.modXlt fun x => { x with migCnt := Tab.insert x.migCnt slot (Tab.get (fun _ => 0) x.migCnt slot + 1) }
            | none => s
          else s
        go c.entries s

/-- The page of `es` that covers a DVA, as (base, log2). -/
def viaOf (es : List XEntry) (dva : Nat) : Option (Nat × Nat) :=
  (es.find? fun e => decide (dva / 2 ^ e.log2 * 2 ^ e.log2 = e.base)).map fun e => (e.base, e.log2)

/-- Whether a place lies in bank `b`'s own share on tile `t` (R119). -/
def State.inShare (s : State) (t b : Nat) (pl : Place) : Bool :=
  match pl with
  | .sram u off =>
    let h := s.share t b
    decide (u = t) && h.en && decide (h.base.toNat * 65536 ≤ off ∧ off < (h.base.toNat + h.count.toNat) * 65536)
  | _ => false

/-- Cut `len` bytes at `dva` at line boundaries: (dva, bytes, position in the value). -/
def linePieces (dva len : Nat) : Nat → Nat → List (Nat × Nat × Nat)
  | 0, _ => []
  | fuel + 1, pos =>
    if len ≤ pos then [] else
      let n := min (64 - (dva + pos) % 64) (len - pos)
      (dva + pos, n, pos) :: linePieces dva len fuel (pos + n)

/-- The header fields of a tile's request (R140, R419). -/
def State.tilePacket (s : State) (t b : Nat) (type : BitVec 8) : Packet :=
  let k := s.bank t b
  { zeroPacket with type := type, cid := k.cid, ctx := k.ctx }

end Sys2Proof.Machine
end

