-- ==== Sys2Proof/Machine/Scalar.lean ====
section
/-! DEFINITION. Scalar instructions, loads, stores and atomics of the scalar and vector classes, FLAGS, END, NOP
(R114 to R119, R124, R44, R71), and the end of an access whose responses have come (R119, R129). -/

namespace Sys2Proof.Machine

/-! ### Issue -/

/-- Run an instruction of bank `b`: nothing where the bank does not issue; a fetch beyond the share faults (R114). -/
def State.run (s : State) (t b : Nat) (f : Bank → State → State) : State :=
  if !s.issues t b then s else
    let k := s.bank t b
    if s.shareBytes t b < k.pc.toNat * 8 + 8 then s.tileFault t b 1 (k.pc.toNat % 65536) else f k s

/-- An illegal instruction (R118). -/
def State.illegal (s : State) (t b : Nat) : State := s.tileFault t b 1 ((s.bank t b).pc.toNat % 65536)

/-- Change a bank's registers and retire its instruction. -/
def State.done (s : State) (t b : Nat) (f : Bank → Bank) : State := s.modBank t b fun k => (f k).retire

/-! ### Scalar arithmetic and control flow -/

def bool64 (b : Bool) : DWord := if b then 1 else 0

/-- The integer operations (R97, R117) on 64-bit registers. -/
def aluEval (op : ScalarAlu) (a b : DWord) : DWord :=
  match op with
  | .add => a + b
  | .sub => a - b
  | .mul => a * b
  | .and => a &&& b
  | .or => a ||| b
  | .xor => a ^^^ b
  | .shl => if 64 ≤ b.toNat then 0 else a <<< b.toNat
  | .shrl => if 64 ≤ b.toNat then 0 else a >>> b.toNat
  | .shra => a.sshiftRight b.toNat
  | .eq => bool64 (decide (a = b))
  | .ne => bool64 (decide (a ≠ b))
  | .ltS => bool64 (decide (a.toInt < b.toInt))
  | .ltU => bool64 (decide (a < b))
  | .leS => bool64 (decide (a.toInt ≤ b.toInt))
  | .leU => bool64 (decide (a ≤ b))

/-- Control passes to a byte offset of the share; one that is no instruction's faults (R114, R118). -/
def State.goto (s : State) (t b : Nat) (target : Nat) (f : Bank → Bank) : State :=
  if target % 8 ≠ 0 ∨ 2 ^ 25 ≤ target then s.illegal t b
  else s.modBank t b fun k => { (f k).retire with pc := BitVec.ofNat 22 (target / 8) }

/-- A scalar instruction (R117, R118); an immediate is sign-extended (log entry 23). -/
def State.scalarRun (s : State) (t b : Nat) (op : ScalarOp) : State :=
  s.run t b fun k s =>
    match op with
    | .alu op d x y => s.done t b fun k => k.setS d (aluEval op (k.s x) (k.s y))
    | .aluImm op d x imm => s.done t b fun k => k.setS d (aluEval op (k.s x) (imm.signExtend 64))
    | .movImm d imm => s.done t b fun k => k.setS d (imm.signExtend 64)
    | .branch c onZero target =>
      if decide (k.s c = 0) = onZero then s.goto t b target.toNat id else s.done t b id
    | .jump target => s.goto t b target.toNat id
    | .call l target => s.goto t b target.toNat fun k => k.setS l (BitVec.ofNat 64 (k.pc.toNat * 8 + 8))
    | .ret l => s.goto t b (k.s l).toNat id
    | .illegal => s.illegal t b

def execScalarOp (t : TileIx) (b : BankIx) (op : ScalarOp) (s : State) : Out := .next (s.scalarRun t.val b.val op)

/-! ### Loads, stores, atomics -/

/-- What an access of an instruction needs: DVA, bytes, kind. -/
def memSpan (k : Bank) : TileOp → Option (Nat × Nat × Acc)
  | .scalarMem (.load l _ _ base imm) => some ((k.s base + imm.signExtend 64).toNat, 2 ^ l.val, .rd)
  | .scalarMem (.store l _ base imm) => some ((k.s base + imm.signExtend 64).toNat, 2 ^ l.val, .wr)
  | .scalarMem (.atomic _ _ _ _ base imm) => some ((k.s base + imm.signExtend 64).toNat / 8 * 8, 8, .atomic)
  | .vectorMem (.load _ base imm) => some ((k.s base + imm.signExtend 64).toNat, 512, .rd)
  | .vectorMem (.store _ base imm) => some ((k.s base + imm.signExtend 64).toNat, 512, .wr)
  | .vectorMem (.loadP _ base imm) => some ((k.s base + imm.signExtend 64).toNat, 16, .rd)
  | .vectorMem (.storeP _ base imm) => some ((k.s base + imm.signExtend 64).toNat, 16, .wr)
  | _ => none

/-- The value a store writes, byte 0 lowest. -/
def memValue (k : Bank) : TileOp → Nat
  | .scalarMem (.store _ src _ _) => (k.s src).toNat
  | .vectorMem (.store src _ _) => k.vNat src
  | .vectorMem (.storeP src _ _) => (k.p src).toNat
  | _ => 0

/-- The register effect of an access whose bytes (or old value) are `v`. -/
def memResult (v : Nat) (k : Bank) : TileOp → Bank
  | .scalarMem (.load l signed dst _ _) =>
    let w := 8 * 2 ^ l.val
    let x : DWord := if signed then (BitVec.ofNat w v).signExtend 64 else BitVec.ofNat 64 (v % 2 ^ w)
    k.setS dst x
  | .scalarMem (.atomic _ dst _ _ _ _) => k.setS dst (BitVec.ofNat 64 v)
  | .vectorMem (.load dst _ _) => k.setVBytes dst (toBytes 512 v)
  | .vectorMem (.loadP dst _ _) => k.setP dst (BitVec.ofNat 128 v)
  | _ => k

/-- The value an atomic leaves (R117). -/
def atomicNew (op : AtomicOp) (old src cmp : Nat) : Nat :=
  match op with
  | .add => (old + src) % 2 ^ 64
  | .exchange => src
  | .compareExchange => if old = cmp then src else old

/-- The access of an instruction ends: its registers are written and it retires (R119). -/
def State.memEnd (s : State) (t b : Nat) (op : TileOp) (v : Nat) : State :=
  s.modTile t fun x => x.modBank b fun k => (memResult v (x.wake b k) op).retire

/-- One line of an access in the bank's own share: what it read, or the fault it ends in (R49, R153, R155). -/
def State.ownLine (s : State) (t b : Nat) (op : TileOp) (acc : Acc) (off n pos val : Nat) (ecc : Ecc) :
    (Nat × Option (Nat × Nat)) × State :=
  let k := s.bank t b
  let pl : Place := .sram t off
  if s.targetCheck (Who.of k.cid k.ctx) acc pl false ≠ 0 then ((0, some (6, 0)), s.countRefused pl) else
  let bad : Nat × Nat := (5, off / 64 % 32)
  match acc with
  | .rd =>
    let r := s.sramRead t off ecc
    if r.1 ≠ 0 then ((0, some bad), r.2.2) else ((r.2.1.toNat / 2 ^ (8 * (off % 64)) % 2 ^ (8 * n), none), r.2.2)
  | .wr =>
    let r := s.sramWrite t off (lineAt (off % 64) (val / 2 ^ (8 * pos) % 2 ^ (8 * n))) (enables (off % 64) n) ecc
    ((0, if r.1 ≠ 0 then some bad else none), r.2)
  | .atomic =>
    let r := s.sramRead t off ecc
    if r.1 ≠ 0 then ((0, some bad), r.2.2) else
      let old := r.2.1.toNat / 2 ^ (8 * (off % 64)) % 2 ^ 64
      let new := match op with
        | .scalarMem (.atomic o _ src cmp _ _) => atomicNew o old (k.s src).toNat (k.s cmp).toNat
        | _ => old
      let w := r.2.2.sramWrite t off (lineAt (off % 64) new) (enables (off % 64) 8) .clean
      ((old, none), w.2)

/-- The request for one line of an access outside the bank's own share (R119, R419). -/
def State.farLine (s : State) (t b : Nat) (op : TileOp) (acc : Acc) (es : List XEntry) (dva n pos val : Nat) : Option State :=
  let k := s.bank t b
  match targetOf es dva with
  | none => some s
  | some tgt =>
    let o := dva % 64
    let lineTgt := match tgt with
      | .localMpa m => Target.localMpa (m - m % 64)
      | .window fa => Target.window (fa - fa % 64)
      | .host a => Target.host (a - a % 64)
    match acc with
    | .rd => s.issue (.load t b pos n o) t (s.tilePacket t b 1) lineTgt (viaOf es dva)
    | .wr =>
      let p := { s.tilePacket t b 2 with
        byteEn := enables o n, data := lineAt o (val / 2 ^ (8 * pos) % 2 ^ (8 * n)) }
      s.issue (.store t b) t p lineTgt (viaOf es dva)
    | .atomic =>
      let opnd : BitVec 128 := match op with
        | .scalarMem (.atomic _ _ src cmp _ _) => BitVec.ofNat 128 ((k.s src).toNat + (k.s cmp).toNat * 2 ^ 64)
        | _ => 0
      s.issue (.atomic t b) t { s.tilePacket t b 3 with byteEn := enables o 8, operand := opnd } tgt (viaOf es dva)

/-- How far a fold over an access's lines has come. -/
structure Prog where
  s : State
  buf : Nat
  left : Nat
  fault : Option (Nat × Nat)
  full : Bool

/-- One line of an access (R119). -/
def Prog.line (t b : Nat) (op : TileOp) (acc : Acc) (es : List XEntry) (val : Nat) (ecc : Ecc) (p : Prog)
    (x : Nat × Nat × Nat) : Prog :=
  if p.fault.isSome || p.full then p else
  let own := match targetOf es x.1 with
    | some (.localMpa m) => if p.s.inShare t b (p.s.place m) then some (p.s.place m) else none
    | _ => none
  match own with
  | some (.sram _ off) =>
    let r := p.s.ownLine t b op acc off x.2.1 x.2.2 val (if x.2.2 = 0 then ecc else .clean)
    { p with s := r.2, buf := p.buf + r.1.1 * 2 ^ (8 * x.2.2), fault := r.1.2 }
  | _ =>
    match p.s.farLine t b op acc es x.1 x.2.1 x.2.2 val with
    | some s => { p with s := s, left := p.left + 1 }
    | none => { p with full := true }

/-- Carry out a checked access (R119): at once in the bank's own share, by line requests elsewhere. With no tag free
nothing is issued and the instruction stands. -/
def State.lineGo (s : State) (t b : Nat) (op : TileOp) (dva len : Nat) (acc : Acc) (ecc : Ecc) (es : List XEntry) : State :=
  let s := s.modTile t fun x => x.modBank b fun k => x.wake b k
  let p := (linePieces dva len 16 0).foldl (Prog.line t b op acc es (memValue (s.bank t b) op) ecc) ⟨s, 0, 0, none, false⟩
  if p.full then s
  else match p.fault with
    | some f => p.s.tileFault t b f.1 f.2
    | none =>
      if p.left = 0 then p.s.memEnd t b op p.buf
      else p.s.modBank t b fun k => { k with wait := some (.access op p.left p.buf) }

/-- An access of the scalar and vector classes, checked as a whole (R208, R209). -/
def State.memRun (s : State) (t b : Nat) (op : TileOp) (ecc : Ecc) (walked : Bool) (last : Option (Nat × Nat)) : State :=
  match memSpan (s.bank t b) op with
  | none => s
  | some (dva, len, acc) =>
    s.tileAccess t b 0 0 op [{ at_ := dva, len := len, acc := acc, priv := false, row := 0 }] walked last false fun es s =>
      s.lineGo t b op dva len acc ecc es

def execScalarMemory (t : TileIx) (b : BankIx) (op : ScalarMem) (ecc : Ecc) (s : State) : Out :=
  .next (s.run t.val b.val fun _ s => s.memRun t.val b.val (.scalarMem op) ecc false none)
def execVectorMemory (t : TileIx) (b : BankIx) (op : VectorMem) (ecc : Ecc) (s : State) : Out :=
  .next (s.run t.val b.val fun _ s => s.memRun t.val b.val (.vectorMem op) ecc false none)

/-- A line of an access comes back done (R119): the last one ends it. -/
def State.accessDone (s : State) (t b : Nat) (add : Nat) : State :=
  match (s.bank t b).wait with
  | some (.access op left buf) =>
    if left ≤ 1 then s.memEnd t b op (buf + add)
    else s.modBank t b fun k => { k with wait := some (.access op (left - 1) (buf + add)) }
  | _ => s

/-! ### FLAGS, END, NOP -/

/-- R124. -/
def execFlagsOp (t : TileIx) (b : BankIx) (sd : SReg) (clear : BitVec 5) (s : State) : Out :=
  .next (s.run t.val b.val fun _ s => s.done t.val b.val fun k =>
    { k.setS sd (k.flags.setWidth 64) with flags := k.flags &&& ~~~clear })

/-- A program ends on a tile: a LAUNCH with nothing left to start or run completes (R369). -/
def State.launchEnded (s : State) (t b : Nat) : State :=
  let mine := s.que.q.flatMap fun q => (q.2.cmds.filter fun c => c.running.contains (t, b)).map fun c => (q.1, c.index)
  s.each mine fun s x =>
    let s := s.modCmd x.1 x.2 fun c => { c with running := c.running.filter fun y => decide (y ≠ (t, b)) }
    match s.cmd x.1 x.2 with
    | some c => if c.toStart.isEmpty && c.running.isEmpty then s.complete x.1 x.2 0 0 true else s
    | none => s

/-- R115: the bank returns to LOADED. -/
def execEndOp (t : TileIx) (b : BankIx) (s : State) : Out :=
  .next (s.run t.val b.val fun _ s =>
    (s.done t.val b.val fun k => { k with st := .loaded, inProg := false }).launchEnded t.val b.val)

def execNopOp (t : TileIx) (b : BankIx) (s : State) : Out := .next (s.run t.val b.val fun _ s => s.done t.val b.val id)

end Sys2Proof.Machine
end

