-- ==== Sys2Proof/Machine/Vector.lean ====
section
/-! DEFINITION. Vector arithmetic, conversions, block quantize (R40, R41, R56, R81, R88 to R100), and the matrix
instructions with their operand descriptors (R36, R37, R101 to R106, R120 to R122). -/

namespace Sys2Proof.Machine

/-! ### Formats, flags, free results -/

/-- The format an instruction names, or the fault it earns: code 0x02 above 0xA, or from 0x3 to 0xA while NARROW_EN is 0
(R41, R56). -/
def State.fmtOf (s : State) (t : Nat) (code : Nat) : Except (Nat × Nat) Fmt :=
  match Fmt.ofCode code with
  | none => .error (2, code)
  | some f => if 3 ≤ code ∧ !(s.tile t).narrow then .error (2, code) else .ok f

/-- The format of an operand type (R81): SCALED needs a narrow format, TQ2 needs SCALED. `d` is the DETAIL of 0x03. -/
def State.optype (s : State) (t d : Nat) (ty : BitVec 5) : Except (Nat × Nat) (Fmt × Bool) :=
  let code := fldN ty 0 4
  let scaled := bit ty 4
  match s.fmtOf t code with
  | .error e => .error e
  | .ok f => if (scaled && decide (code ≤ 2)) || (!scaled && f == .tq2) then .error (3, d) else .ok (f, scaled)

/-- `n` bytes of a result that the spec leaves open (log entry 11): a free function of the tile, the operation and its
operands, so that one instruction on the same operands gives the same bits every time within a tile (R113). -/
def freeBytes (key : List Nat) (n : Nat) : Bytes :=
  ((List.range ((n + 63) / 64)).flatMap fun i => Line.bytes (Config.freeResult key i)).take n

/-- The result bytes of an instruction followed by free bytes up to the register's 512 (log entry 24). -/
def padFree (key : List Nat) (bs : Bytes) : Bytes := bs ++ freeBytes key (512 - bs.length)

/-- Set flags and registers of a bank and retire. -/
def State.vecEnd (s : State) (t b : Nat) (g : AFlags) (f : Bank → Bank) : State :=
  s.done t b fun k => let k := f k; { k with flags := k.flags ||| g }

/-! ### Vector arithmetic -/

/-- The lanes of a register as a float format reads them (R40). -/
def Bank.lanes (k : Bank) (f : Fmt) (r : Nat) : List Nat :=
  if f = .fp32 then (List.range 128).map (k.v32 r) else (List.range 256).map (k.v16 r)
/-- A register from lanes of a float format. -/
def Bank.setLanes (k : Bank) (f : Fmt) (r : Nat) (vs : List Nat) : Bank :=
  if f = .fp32 then k.setV r vs else k.setV r (pairUp vs)
/-- The lanes of a register at 32 or 16 bits. -/
def Bank.ints (k : Bank) (wide : Bool) (r : Nat) : List Nat :=
  if wide then (List.range 128).map (k.v32 r) else (List.range 256).map (k.v16 r)
def Bank.setInts (k : Bank) (wide : Bool) (r : Nat) (vs : List Nat) : Bank :=
  if wide then k.setV r vs else k.setV r (pairUp vs)

/-- One float operation of R96. -/
def vfloat (op : VFloat) (f : Fmt) (a b : Nat) : Nat × AFlags :=
  match op with
  | .add => fAdd f a b
  | .sub => fSub f a b
  | .mul => fMul f a b
  | .min => (fMin f a b, 0)
  | .max => (fMax f a b, 0)

/-- The comparisons of R96; a NaN is unordered. -/
def vcmp (op : VCmp) (f : Fmt) (a b : Nat) : Bool :=
  match op, Val.cmp (f.read a) (f.read b) with
  | .eq, o => decide (o = some .eq)
  | .ne, o => decide (o ≠ some .eq)
  | .lt, o => decide (o = some .lt)
  | .le, o => decide (o = some .lt ∨ o = some .eq)
  | .unordered, o => decide (o = none)

/-- One integer operation of R97 on `w`-bit lanes. -/
def vint (op : VInt) (w a b : Nat) : Nat :=
  match op with
  | .add => (a + b) % 2 ^ w
  | .sub => (a + 2 ^ w - b) % 2 ^ w
  | .mul => a * b % 2 ^ w
  | .and => Nat.land a b
  | .or => Nat.lor a b
  | .xor => Nat.xor a b
  | .shl => if w ≤ b then 0 else a * 2 ^ b % 2 ^ w
  | .shrl => if w ≤ b then 0 else a / 2 ^ b
  | .shra => ((BitVec.ofNat w a).sshiftRight b).toNat

def orFlags (rs : List (Nat × AFlags)) : AFlags := rs.foldl (fun g r => g ||| r.2) 0

/-- An IEEE sign operation keeps a NaN's canonical form (R87). -/
def signOp (f : Fmt) (g : Val → Val) (a : Nat) : Nat :=
  if (f.read a).isNan then f.nanBits else (toFloat f .rne false (g (f.read a))).1

/-- Bits as a number, the first lowest. -/
def boolsNat (bs : List Bool) : Nat := (bs.zipIdx).foldl (fun acc e => if e.1 then acc + 2 ^ e.2 else acc) 0

/-- Whether a format has vector arithmetic (R40, R96). -/
def isLane (f : Fmt) : Bool := f == .fp32 || f == .fp16 || f == .bf16

/-- A comparison at 16 bits makes 256 results and a predicate register holds 128 bits: each bit is the result of one of
the lanes, which one the spec does not say (log entry 24). -/
def cmpBits (key : List Nat) (rs : List Bool) : List Bool :=
  (freeBytes key 128).map fun i => rs.getD i.toNat false
/-- A select at 16 bits: each lane is that lane of one of the two sources, as some bit of the predicate register has it
(log entry 24). -/
def selectLanes (key : List Nat) (p : BitVec 128) (xs ys : List Nat) : List Nat :=
  (List.zip (freeBytes key 256) (List.zip xs ys)).map fun e => if p.getLsbD (e.1.toNat % 128) then e.2.1 else e.2.2

/-- A vector arithmetic instruction (R40, R81, R96 to R100). Lanes that an instruction's rule gives no value take free
values (log entry 24). The spec names no fault for an operand type without lanes (0x3 to 0xA, NARROW_EN 1), nor for an
FP32-variant special function on a 16-bit format: both fault with 0x03 DETAIL 1 (DESIGN CHOICE, log entries 7 and 8). -/
def State.vecOp (s : State) (t b : Nat) (k : Bank) (op : VectorOp) : State :=
  let float (ty : BitVec 5) (go : Fmt → State) : State :=
    match s.optype t 1 ty with
    | .error e => s.tileFault t b e.1 e.2
    | .ok f => if isLane f.1 then go f.1 else s.tileFault t b 3 1
  match op with
  | .float op fmt d x y => float fmt fun f =>
    let rs := List.zipWith (vfloat op f) (k.lanes f x) (k.lanes f y)
    s.vecEnd t b (orFlags rs) fun k => k.setLanes f d (rs.map (·.1))
  | .fma fmt d x y z => float fmt fun f =>
    let rs := (List.zip (k.lanes f x) (List.zip (k.lanes f y) (k.lanes f z))).map fun p => fFma f p.1 p.2.1 p.2.2
    s.vecEnd t b (orFlags rs) fun k => k.setLanes f d (rs.map (·.1))
  | .abs fmt d x => float fmt fun f =>
    s.vecEnd t b 0 fun k => k.setLanes f d ((k.lanes f x).map (signOp f Val.absv))
  | .neg fmt d x => float fmt fun f =>
    s.vecEnd t b 0 fun k => k.setLanes f d ((k.lanes f x).map (signOp f Val.negate))
  | .cmp op fmt d x y => float fmt fun f =>
    if f = .fp32 then
      let bs := List.zipWith (vcmp op f) (k.lanes f x) (k.lanes f y)
      s.vecEnd t b 0 fun k => k.setP d (BitVec.ofNat 128 (boolsNat bs))
    else
      let xs := k.lanes f x
      let ys := k.lanes f y
      let bs := cmpBits (t :: 1 :: f.code :: (xs ++ ys)) (List.zipWith (vcmp op f) xs ys)
      s.vecEnd t b 0 fun k => k.setP d (BitVec.ofNat 128 (boolsNat bs))
  | .select wide p d x y =>
    if wide then
      s.vecEnd t b 0 fun k => k.setV d ((List.range 128).map fun i => if (k.p p).getLsbD i then k.v32 x i else k.v32 y i)
    else
      let xs := k.ints false x
      let ys := k.ints false y
      let rs := selectLanes (t :: 2 :: (k.p p).toNat :: (xs ++ ys)) (k.p p) xs ys
      s.vecEnd t b 0 fun k => k.setInts false d rs
  | .int op wide d x y =>
    s.vecEnd t b 0 fun k => k.setInts wide d (List.zipWith (vint op (if wide then 32 else 16)) (k.ints wide x) (k.ints wide y))
  | .special fn bf fmt d x => float fmt fun f =>
    if !bf && f != .fp32 then s.tileFault t b 3 1 else
      let rs := (k.lanes f x).map fun a => fn.eval bf (f.read a) (BitVec.ofNat 32 a)
      let up := fun v => if bf && f == .fp32 then v * 65536 else v
      s.vecEnd t b (orFlags rs) fun k => k.setLanes f d (rs.map fun r => up r.1)
  | .reduceSum fmt d x => float fmt fun f =>
    let r := reduceSum f (k.lanes f x)
    let p := padFree (t :: 3 :: f.code :: k.lanes f x) (toBytes 4 r.1)
    s.vecEnd t b r.2 fun k => k.setVBytes d p
  | .reduceMax fmt d x => float fmt fun f =>
    let m := match k.lanes f x with
      | a :: l => l.foldl (fMax f) a
      | [] => 0
    let p := padFree (t :: 4 :: f.code :: k.lanes f x) (toBytes (f.bits / 8) m)
    s.vecEnd t b 0 fun k => k.setVBytes d p
  | .permute wide d x idx =>
    let src := k.ints wide x
    let n := src.length
    let r := freeBytes (t :: 5 :: (src ++ k.ints wide idx)) 512
    let fr : List Nat := (List.range n).map fun i => leNat ((r.drop (i * (512 / n))).take (512 / n))
    s.vecEnd t b 0 fun k => k.setInts wide d (((k.ints wide idx).zip fr).map fun e => src.getD e.1 e.2)

def execVectorOp (t : TileIx) (b : BankIx) (op : VectorOp) (s : State) : Out :=
  .next (s.run t.val b.val fun k s => s.vecOp t.val b.val k op)

/-! ### Elements packed in registers -/

/-- Pack `n`-bit elements, least significant first, into bytes (R80). -/
def packBits (w : Nat) (es : List Nat) : Bytes :=
  toBytes (if w = 6 then (es.length + 3) / 4 * 3 else (es.length * w + 7) / 8)
    ((es.zipIdx).foldl (fun acc e => acc + e.1 % 2 ^ w * 2 ^ (w * e.2)) 0)
/-- Five TQ2 digits a byte (R85): fuel counts the bytes. -/
def packTq2 : Nat → List Nat → Bytes
  | 0, _ => []
  | n + 1, ds => BitVec.ofNat 8 (packDigits ds) :: packTq2 n (ds.drop 5)
def packElems (f : Fmt) (es : List Nat) : Bytes :=
  if f = .tq2 then packTq2 ((es.length + 4) / 5) es else packBits f.bits es

/-- Element `i` of an operand in register bytes: its value, its scale applied, and whether IC is set. -/
def readElem (f : Fmt) (scaled : Bool) (el sc : Nat → Nat) (i : Nat) : Val × Bool :=
  let r := elemBits f el i
  if scaled then
    let bk := i / f.block
    let bits := if f = .tq2 then sc (2 * bk) + sc (2 * bk + 1) * 256 else sc bk
    (applyScale (scaledRead f r.1) (scaleOf f bits), r.2)
  else (f.read r.1, r.2)

/-- A conversion of 128 elements (R40, R81, R89 to R93). The destination is an operand type too; its elements carry no
scale whatever SCALED says (R93). -/
def State.convRun (s : State) (t b : Nat) (k : Bank) (c : Conversion) : State :=
  match s.optype t 1 c.srcType, s.optype t 1 c.dstFmt with
  | .error e, _ => s.tileFault t b e.1 e.2
  | _, .error e => s.tileFault t b e.1 e.2
  | .ok (f, scaled), .ok (g, _) =>
    let vs := (List.range 128).map fun i => readElem f scaled (k.vByte c.src) (k.vByte c.scale) i
    let rs := vs.map fun v => convert g c.rm c.sat v.1
    let ic : AFlags := if vs.any (·.2) then flIC else 0
    let key := t :: 6 :: c.srcType.toNat :: c.dstFmt.toNat :: c.rm.code :: (k.ints true c.src ++ k.ints true c.scale)
    let p := padFree key (packElems g (rs.map (·.1)))
    s.vecEnd t b (orFlags rs ||| ic) fun k => k.setVBytes c.dst p

def execConversion (t : TileIx) (b : BankIx) (op : Conversion) (s : State) : Out :=
  .next (s.run t.val b.val fun k s => s.convRun t.val b.val k op)

/-- A block quantize (R81, R86, R94, R95): the elements packed in `dst`, those of a partial block beyond the count as
zeros, the scale in scalar register `scale`. The spec names no fault for a count of 0 or above the block, for a scaled
source (TQ2 among them) or for a destination of FP32, FP16 or BF16: all fault with 0x03 DETAIL 1 (DESIGN CHOICE, log
entry 14). -/
def State.quantRun (s : State) (t b : Nat) (k : Bank) (q : Quantize) : State :=
  match s.optype t 1 q.srcFmt, s.optype t 1 q.dstFmt with
  | .error e, _ => s.tileFault t b e.1 e.2
  | _, .error e => s.tileFault t b e.1 e.2
  | .ok (f, scaled), .ok (g, _) =>
    let n := q.count.val
    if isLane g ∨ scaled ∨ n = 0 ∨ g.block < n then s.tileFault t b 3 1 else
      let get := fun i => if i < 512 then k.vByte q.src i else k.vByte q.src2 (i - 512)
      let vs := (List.range n).map fun i => f.read (elemBits f get i).1
      let r := if g = .tq2 then quantizeTq2 vs else quantizeMx g q.rm vs
      let key := t :: 7 :: q.srcFmt.toNat :: q.dstFmt.toNat :: q.rm.code :: n :: (k.ints true q.src ++ k.ints true q.src2)
      let p := padFree key (packElems g (r.2.1 ++ List.replicate (g.block - n) 0))
      s.vecEnd t b r.2.2 fun k => (k.setVBytes q.dst p).setS q.scale (BitVec.ofNat 64 r.1)

def execBlockQuantize (t : TileIx) (b : BankIx) (op : Quantize) (s : State) : Out :=
  .next (s.run t.val b.val fun k s => s.quantRun t.val b.val k op)

/-! ### The matrix unit -/

/-- An operand descriptor (R121). -/
structure Opnd where
  strided : Bool
  fmt : Fmt
  scaled : Bool
  elem : Nat
  scale : Nat
  stride : Nat
  sstride : Nat
deriving DecidableEq, Repr

/-- Bytes that `n` packed elements take (R80, R85). -/
def packedLen (f : Fmt) (n : Nat) : Nat :=
  match f with
  | .tq2 => (n + 4) / 5
  | .e3m2 | .e2m3 => (n + 3) / 4 * 3
  | _ => (n * f.bits + 7) / 8

/-- Bytes of one block's scale. -/
def scaleLen (f : Fmt) : Nat := if f = .tq2 then 2 else 1

/-- The elements of the reduction length that an operand's arrays hold (R86): whole blocks where it is scaled. -/
def Opnd.whole (o : Opnd) (n : Nat) : Nat := if o.scaled then (n + o.fmt.block - 1) / o.fmt.block * o.fmt.block else n

/-- The ranges of the share that an operand of `rows` rows and reduction length `n` takes: (offset, bytes). -/
def Opnd.ranges (o : Opnd) (rows n : Nat) : List (Nat × Nat) :=
  let el := if o.strided then (o.elem, (n - 1) * o.stride + packedLen o.fmt rows)
    else (o.elem, (rows - 1) * o.stride + packedLen o.fmt n)
  if o.scaled then [el, (o.scale, (rows - 1) * o.sstride + (n + o.fmt.block - 1) / o.fmt.block * scaleLen o.fmt)] else [el]

/-- Byte `o` of bank `b`'s share. -/
def State.shareByte (s : State) (t b o : Nat) : Nat := (s.byte (sramKey t (s.shareOff t b o))).toNat

/-- Why the bank cannot read a range of its share: refused by a granule's tag (R49), or a poisoned line (R153). -/
def State.rangeFault (s : State) (t b : Nat) (r : Nat × Nat) : Option (Nat × Nat) :=
  let k := s.bank t b
  let lo := s.shareOff t b r.1
  let hi := lo + r.2
  let gs := (List.range (hi / 65536 + 1 - lo / 65536)).map (· + lo / 65536)
  if r.2 = 0 then none
  else if gs.any fun g => decide (g * 65536 < hi) && !(s.gran t g).admits k.cid k.ctx then some (6, 0)
  else ((s.tile t).srm.poison.find? fun e => decide (lo < (e.1 + 1) * 64 ∧ e.1 * 64 < hi)).map fun e => (5, e.1 % 32)

/-- The lines that operand feeds read in ranges of the share (R153, R154): `found` names, by line of the tile, those
whose check does not come out clean; the first that cannot be read ends the instruction. -/
def State.linesCheck (s : State) (t b : Nat) (rs : List (Nat × Nat)) (found : List (Fin 393216 × Ecc)) : Option Nat × State :=
  let read := fun (l : Nat) => rs.any fun r => decide (s.shareOff t b r.1 < (l + 1) * 64 ∧ l * 64 < s.shareOff t b r.1 + r.2)
  let ls := ((found.map (·.1.val) ++ (s.tile t).srm.staleIcv.map (·.1)).eraseDups).filter read
  ls.foldl (fun acc l =>
    if acc.1.isSome then acc else
      let e := ((found.find? fun f => decide (f.1.val = l)).map (·.2)).getD .clean
      let r := acc.2.sramCheck t (l * 64) e
      if r.1 = 0 then (none, r.2) else (some l, r.2)) ((none : Option Nat), s)

/-- Read and check an operand descriptor (R81, R121, R122). -/
def State.opnd (s : State) (t b at_ rows n : Nat) : Except (Nat × Nat) Opnd :=
  let size := s.shareBytes t b
  if at_ % 16 ≠ 0 ∨ size < at_ + 16 then .error (3, 0) else
  match s.rangeFault t b (at_, 16) with
  | some e => .error e
  | none =>
    let v := leNat (s.bytesAt (sramKey t (s.shareOff t b at_)) 16)
    match s.optype t 0 (BitVec.ofNat 5 (v / 2 ^ 25)) with
    | .error e => .error e
    | .ok (f, scaled) =>
      let o : Opnd := ⟨decide (v / 2 ^ 30 % 4 = 1), f, scaled, v % 2 ^ 25, v / 2 ^ 32 % 2 ^ 25, v / 2 ^ 64 % 2 ^ 32, v / 2 ^ 96 % 2 ^ 32⟩
      if 2 ≤ v / 2 ^ 30 % 4 ∨ o.elem % 64 ≠ 0 ∨ o.stride % 64 ≠ 0 ∨ o.scale % 2 ≠ 0 ∨
          (o.ranges rows (o.whole n)).any (fun r => decide (size < r.1 + r.2)) then .error (3, 0)
      else match (o.ranges rows n).findSome? (s.rangeFault t b) with
        | some e => .error e
        | none => .ok o

/-- Element (row, k) of an operand before its scale (R83, R102), and whether IC is set. -/
def State.opElem (s : State) (t b : Nat) (o : Opnd) (row k : Nat) : Val × Bool :=
  let base := if o.strided then o.elem + k * o.stride else o.elem + row * o.stride
  let r := elemBits o.fmt (fun i => s.shareByte t b (base + i)) (if o.strided then row else k)
  (if o.scaled then scaledRead o.fmt r.1 else o.fmt.read r.1, r.2)

/-- The scale that governs (row, k) (R82, R84); an unscaled operand's is 1. -/
def State.opScale (s : State) (t b : Nat) (o : Opnd) (row k : Nat) : Option Dy :=
  if !o.scaled then some ⟨1, 0⟩ else
    let at_ := o.scale + row * o.sstride + k / o.fmt.block * scaleLen o.fmt
    let bits := s.shareByte t b at_ + (if o.fmt = .tq2 then s.shareByte t b (at_ + 1) * 256 else 0)
    scaleOf o.fmt bits

/-- One accumulator element (R103): groups of G in ascending K order. Fuel counts the groups. -/
def State.mmaElem (s : State) (t b : Nat) (oa ob : Opnd) (G n row col : Nat) : Nat → Nat → Nat × AFlags → Nat × AFlags
  | 0, _, acc => acc
  | fuel + 1, k0, acc =>
    let ks := (List.range (min G (n - k0))).map (· + k0)
    let xs := ks.map fun k => (s.opElem t b oa row k, s.opElem t b ob col k)
    let ps := xs.map fun x => Val.mul x.1.1 x.2.1
    let ic : AFlags := if xs.any (fun x => x.1.2 || x.2.2) then flIC else 0
    let r := groupStep G acc.1 ps (s.opScale t b oa row k0) (s.opScale t b ob col k0)
    s.mmaElem t b oa ob G n row col fuel (k0 + G) (r.1, acc.2 ||| r.2 ||| ic)

/-- A matrix instruction over `rows` rows (R36, R37, R39, R101 to R105, R120). -/
def State.mmaRun (s : State) (t b : Nat) (k : Bank) (op : Mma) (rows : Nat)
    (found : List (Fin 393216 × Ecc)) : State :=
  let n := op.k.toNat
  let cols := op.ncol.toNat
  if n = 0 ∨ cols = 0 ∨ 64 < cols then s.tileFault t b 3 0 else
  match s.opnd t b (k.s op.sa).toNat rows n with
  | .error e => s.tileFault t b e.1 e.2
  | .ok oa =>
    match s.opnd t b (k.s op.sb).toNat cols n with
    | .error e => s.tileFault t b e.1 e.2
    | .ok ob =>
      if !pairOk oa.fmt ob.fmt then s.tileFault t b 3 0 else
        let rs := ((k.s op.sa).toNat, 16) :: ((k.s op.sb).toNat, 16) :: oa.ranges rows n ++ ob.ranges cols n
        let r := s.linesCheck t b rs found
        match r.1 with
        | some l => r.2.tileFault t b 5 (l % 32)
        | none =>
          let G := groupSize oa.fmt ob.fmt
          let cells := (List.range rows).flatMap fun i => (List.range cols).map fun j => (i, j)
          let out := cells.map fun c =>
            (c, s.mmaElem t b oa ob G n c.1 c.2 ((n + G - 1) / G) 0 (k.accAt op.acc c.1 c.2, 0))
          let s := r.2.modTile t fun x => { x with matrix := true, barIdle := false }
          s.vecEnd t b (out.foldl (fun g o => g ||| o.2.2) 0) fun k =>
            out.foldl (fun k o => k.setAcc op.acc o.1.1 o.1.2 o.2.1) k

/-- Non-zero bits 15:0 of a matrix instruction are reserved bits of its word: code 0x01 (R118), where R120's sentence on
ranges could be read as 0x03 (DESIGN CHOICE, log entry 18). -/
def execMmaB (t : TileIx) (b : BankIx) (op : Mma) (found : List (Fin 393216 × Ecc)) (s : State) : Out :=
  .next (s.run t.val b.val fun k s =>
    if op.reserved ≠ 0 then s.illegal t.val b.val
    else if op.m ≠ 0 then s.tileFault t.val b.val 3 0
    else s.mmaRun t.val b.val k op 32 found)
def execMmaV (t : TileIx) (b : BankIx) (op : Mma) (found : List (Fin 393216 × Ecc)) (s : State) : Out :=
  .next (s.run t.val b.val fun k s =>
    if op.reserved ≠ 0 then s.illegal t.val b.val
    else if op.m = 0 ∨ 4 < op.m then s.tileFault t.val b.val 3 0
    else s.mmaRun t.val b.val k op op.m.toNat found)

/-- R106: the 64 columns of a row go to the lower or upper half of a vector register (log entry 25). -/
def execAccMov (t : TileIx) (b : BankIx) (acc : Fin 4) (row : Fin 32) (dst : VReg) (upper : Bool) (s : State) : Out :=
  .next (s.run t.val b.val fun _ s => s.done t.val b.val fun k =>
    (List.range 64).foldl (fun x j => x.setV32 dst (j + if upper then 64 else 0) (k.accAt acc row j)) k)

/-- R117: every element of the accumulator becomes +0. -/
def execAccZero (t : TileIx) (b : BankIx) (acc : Fin 4) (s : State) : Out :=
  .next (s.run t.val b.val fun _ s => s.done t.val b.val fun k =>
    { k with acc := k.acc.filter fun e => decide (e.1 < acc.val * 2048 ∨ acc.val * 2048 + 2048 ≤ e.1) })

end Sys2Proof.Machine
end

