-- ==== Sys2Proof/Machine/Stream.lean ====
section
/-! DEFINITION. Stream channels: copies (R50, R126 to R130, R211), neighbour-link channels (R52, R53, R131 to R138), and
what the responses to a tile's requests do (R119, R129). -/

namespace Sys2Proof.Machine

/-! ### The descriptor (R126) -/

/-- The field of `w` bits at bit `lo` of byte `o` of a descriptor. -/
def dF (d : Line) (o lo w : Nat) : Nat := d.toNat / 2 ^ (8 * o + lo) % 2 ^ w

def dKind (d : Line) : Nat := dF d 0 0 4
def dPort (d : Line) : Nat := dF d 0 4 2
def dPeer (d : Line) : Nat := dF d 1 3 3
def dCount (d : Line) : Nat := dF d 4 0 32
def dSrc (d : Line) : Nat := dF d 8 0 64
def dDst (d : Line) : Nat := dF d 0x10 0 64
def dRow (d : Line) : Nat := dF d 0x18 0 24
def dRing (d : Line) : Nat := 2 ^ dF d 0x18 24 5
def dPeriod (d : Line) : Nat := dF d 0x28 0 16
def dOffset (d : Line) : Nat := dF d 0x28 16 16
def dBurst (d : Line) : Nat := dF d 0x2C 0 16
def dSignal (d : Line) : Bool := dF d 0 7 1 == 1

/-- Whether a field lies outside its range or a reserved field is non-zero (R126, R127). -/
def dBad (d : Line) : Bool :=
  let kind := dKind d
  decide (2 < kind) || decide (dF d 1 6 2 ≠ 0) || decide (dF d 0x18 29 3 ≠ 0) || decide (dF d 0x2C 16 16 ≠ 0) ||
  decide (dF d 0x34 0 32 ≠ 0) || decide (dCount d = 0) ||
  (if kind = 0 then
    decide (dPort d ≠ 0) || decide (dPeer d ≠ 0) || decide (dRow d = 0) || decide (dRow d % 64 ≠ 0) ||
    decide (dF d 0x20 0 32 % 64 ≠ 0) || decide (dF d 0x24 0 32 % 64 ≠ 0)
  else
    let n := dF d 0x18 24 5
    decide (n < 7) || decide (24 < n) || decide (dPeriod d = 0) || decide (dPeriod d ≤ dOffset d) ||
    decide (dBurst d = 0) || decide (dPeriod d < dBurst d) || (kind == 2 && decide (dPeer d ≠ 0)))

/-- Lines of a copy. -/
def dLines (d : Line) : Nat := dCount d * (dRow d / 64)
/-- Source and destination DVA of line `n` of a copy; the engine moves whole lines (log entry 26). -/
def dLineSrc (d : Line) (n : Nat) : Nat :=
  (dSrc d + n / (dRow d / 64) * dF d 0x20 0 32 + n % (dRow d / 64) * 64) % 2 ^ 64 / 64 * 64
def dLineDst (d : Line) (n : Nat) : Nat :=
  (dDst d + n / (dRow d / 64) * dF d 0x24 0 32 + n % (dRow d / 64) * 64) % 2 ^ 64 / 64 * 64
/-- The spans of a copy in check order (R209). -/
def dSpans (d : Line) : List Span :=
  (List.range (dCount d)).flatMap fun r =>
    [{ at_ := (dSrc d + r * dF d 0x20 0 32) % 2 ^ 64, len := dRow d, acc := .rd, priv := true, row := r },
     { at_ := (dDst d + r * dF d 0x24 0 32) % 2 ^ 64, len := dRow d, acc := .wr, priv := true, row := r }]

/-! ### Neighbours (R52, R53, R56) -/

/-- The nearest tile of a row from column `c` outward (`up`) or inward that is not skipped. -/
def State.rowNext (s : State) (half row : Nat) : Nat → Nat → Bool → Option Nat
  | 0, _, _ => none
  | fuel + 1, c, up =>
    if (up && decide (16 ≤ c)) || (!up && decide (c = 0)) then none else
      let c := if up then c + 1 else c - 1
      let k := half * 272 + row * 17 + c
      if (s.tile k).nbr.act.nbr.bypass then s.rowNext half row fuel c up else some k

/-- The tile at the other end of a port: 0 N, 1 E, 2 S, 3 W. -/
def State.neighbour (s : State) (t port : Nat) : Option Nat :=
  let half := t / 272
  let row := t % 272 / 17
  let col := t % 17
  let x := s.tile t
  match port with
  | 0 => if row = 0 then none else selTile half (row - 1) col x.nbr.act.nbr.nSel
  | 2 => if row = 15 then none else selTile half (row + 1) col x.nbr.act.nbr.sSel
  | p =>
    let toSeam := decide ((p = 1) = (half = 0))
    if toSeam then
      match s.rowNext half row 17 col false with
      | some k => some k
      | none =>
        if s.boot.service ≠ 2 then none else
          let k := (1 - half) * 272 + row * 17
          if (s.tile k).nbr.act.nbr.bypass then s.rowNext (1 - half) row 17 0 true else some k
    else s.rowNext half row 17 col true

/-! ### A channel ends (R129, R130, R137) -/

/-- A line of a channel is completed: LINES, and PROGRESS of its bank (R70, R72). -/
def State.countLines (s : State) (t ch n : Nat) : State :=
  let b := (s.chan t ch).bank.toNat
  let s := s.modChan t ch fun c => { c with lines := c.lines + BitVec.ofNat 24 n }
  s.modBank t b fun k => { k with progress := k.progress + BitVec.ofNat 32 n }

/-- The tags and page rights with which a channel reaches an address of its own share (R51, R215). -/
def State.chanWho (s : State) (t b : Nat) (pages : List XEntry) (dva : Nat) : Who :=
  let k := s.bank t b
  { Who.of k.cid k.ctx with rights := rightsOf pages dva }

/-- The MPA of an address of a channel that lies in its bank's own share. -/
def State.chanOwn (s : State) (t b : Nat) (pages : List XEntry) (dva : Nat) : Option Nat :=
  match targetOf pages dva with
  | some (.localMpa m) => if s.inShare t b (s.place m) then some m else none
  | _ => none

/-- A channel's request packet: page rights, CLASS and DEADLINE of its descriptor (R126, R215). -/
def State.chanPacket (s : State) (t b : Nat) (type : BitVec 8) (d : Line) (pages : List XEntry) (dva : Nat) : Packet :=
  { s.tilePacket t b type with
    rights := rightsOf pages dva, cls := BitVec.ofNat 3 (dF d 1 0 3), deadline := BitVec.ofNat 16 (dF d 2 0 16) }

/-- Offset 0x1C of the descriptor is written back (R126): none where no tag is free. A refused or unreadable line faults
the context as any line of the channel (R129, R153). -/
def State.writeBack (s : State) (t ch : Nat) : Option State :=
  let c := s.chan t ch
  let b := c.bank.toNat
  let dva := c.desc.toNat * 64
  let v := c.emptySlots.toNat + c.collisions.toNat * 2 ^ 16
  match s.chanOwn t b c.pages dva, targetOf c.pages dva with
  | some m, _ =>
    let r := s.writeMpa (s.chanWho t b c.pages dva) m (lineAt 0x1C v) (enables 0x1C 4) .clean
    let f := statusFault r.1 0 (some (m / 64 % 32))
    some (if r.1 = 0 then r.2 else r.2.tileFault t b f.1 f.2)
  | none, some tgt =>
    let p := { s.chanPacket t b 2 c.d c.pages dva with byteEn := enables 0x1C 4, data := lineAt 0x1C v }
    s.issue (.copyWrite t ch (dLines c.d)) t p tgt (viaOf c.pages dva)
  | none, none => some s

/-- A bank that waits on the channel goes on (R130). -/
def State.wakeChan (s : State) (t ch : Nat) : State :=
  s.each [0, 1, 2, 3] fun s b =>
    match (s.bank t b).wait with
    | some (.chan c) => if c = ch then s.modTile t fun x => x.modBank b fun k => (x.wake b k).retire else s
    | _ => s

/-- What follows done: the write-back, then the fence if the channel was not stopped (R129, R130, R360). Where no tag is
free for the write-back both wait for one. -/
def State.settleDone (s : State) (t ch : Nat) : State :=
  let c := s.chan t ch
  let b := c.bank.toNat
  let cid := (s.bank t b).cid
  match s.writeBack t ch with
  | none => s
  | some s =>
    let s := s.modChan t ch fun c => { c with due := false, fenceRef := none, stopping := false }
    match c.fenceRef with
    | none => s
    | some i =>
      let s := if c.stopping then s else
        match s.signalRef cid i (dF c.d 0x38 0 64) with
        | some r => r.2
        | none => s.tileFault t b 6 7
      s.dropRef cid i

/-- A channel reaches done (R129, R130). -/
def State.finishChan (s : State) (t ch : Nat) : State :=
  ((s.modChan t ch fun c => { c with st := .done, due := true }).settleDone t ch).wakeChan t ch

/-! ### Copies (R129) -/

/-- A copy's line is stored or its write is issued: none where no tag is free. -/
def State.copyPut (s : State) (t ch n : Nat) (data : Line) : Option State :=
  let c := s.chan t ch
  let b := c.bank.toNat
  let dva := dLineDst c.d n
  match s.chanOwn t b c.pages dva, targetOf c.pages dva with
  | some m, _ =>
    let r := s.writeMpa (s.chanWho t b c.pages dva) m data (BitVec.allOnes 64) .clean
    if r.1 ≠ 0 then some (r.2.tileFault t b 6 0)
    else some ((r.2.modChan t ch fun c => { c with acked := c.acked + 1 }).countLines t ch 1)
  | none, some tgt =>
    let p := { s.chanPacket t b 2 c.d c.pages dva with byteEn := BitVec.allOnes 64, data := data }
    s.issue (.copyWrite t ch n) t p tgt (viaOf c.pages dva)
  | none, none => some s

/-- The line that an address of a channel leads to. -/
def chanLine (pages : List XEntry) (dva : Nat) : Option Target :=
  (targetOf pages dva).map fun x => match x with
    | .localMpa m => .localMpa (m / 64 * 64)
    | .window a => .window (a / 64 * 64)
    | .host a => .host (a / 64 * 64)

/-- Whether line `n` of a copy must wait for an earlier one still out: one of its two lines is a line that the earlier one
reads or writes, and one of the two accesses is a write (R129: requests to one line complete in issue order). -/
def State.lineWaits (s : State) (t ch n : Nat) : Bool :=
  let c := s.chan t ch
  let src := fun k => chanLine c.pages (dLineSrc c.d k)
  let dst := fun k => chanLine c.pages (dLineDst c.d k)
  s.mesh.reqs.any fun e => match e.2.who with
    | .copyRead u h k | .copyWrite u h k =>
      decide (u = t ∧ h = ch) && !e.2.discard &&
      (decide (dst k = src n ∨ dst k = dst n) || decide (src k = dst n))
    | _ => false

/-- The next line of a copy is read, from the share at once or by a request: none where no tag is free. -/
def State.copyGet (s : State) (t ch : Nat) (ecc : Ecc) : Option State :=
  let c := s.chan t ch
  let b := c.bank.toNat
  let n := c.issued
  let dva := dLineSrc c.d n
  let up := fun (s : State) => s.modChan t ch fun c => { c with issued := n + 1 }
  if s.lineWaits t ch n then none else
  match s.chanOwn t b c.pages dva, targetOf c.pages dva with
  | some m, _ =>
    let r := s.readMpa (s.chanWho t b c.pages dva) false m ecc
    if r.1 = 0 then (up r.2.2).copyPut t ch n r.2.1
    else
      let f := statusFault r.1 0 (some (m / 64 % 32))
      some ((up r.2.2).tileFault t b f.1 f.2)
  | none, some tgt =>
    (s.issue (.copyRead t ch n) t (s.chanPacket t b 1 c.d c.pages dva) tgt (viaOf c.pages dva)).map up
  | none, none => some (up s)

/-- A copy issues lines while fewer than 64 are outstanding, its bank runs, its core is on and tags are free (R35, R50,
R129). Fuel counts lines. -/
def State.copyPump (s : State) (t ch : Nat) (ecc : Ecc) : Nat → State
  | 0 => s
  | fuel + 1 =>
    let c := s.chan t ch
    if c.st ≠ .active ∨ c.stopping ∨ c.link ∨ !s.coreOn t c.bank.toNat then s
    else if dLines c.d ≤ c.issued then s
    else if c.issued < c.acked + 64 then
      match s.copyGet t ch ecc with
      | some s => s.copyPump t ch .clean fuel
      | none => s
    else s

/-- A copy whose lines have all completed is done; so is a stopped one with nothing outstanding (R129, R130). -/
def State.copySettle (s : State) (t ch : Nat) : State :=
  let c := s.chan t ch
  if (c.st = .active ∨ c.st = .paused) ∧ !c.link ∧ (c.acked = dLines c.d ∨ (c.stopping ∧ c.acked = c.issued)) then
    s.finishChan t ch
  else s

/-- Pump and settle. -/
def State.copyRun (s : State) (t ch : Nat) (ecc : Ecc) : State :=
  let c := s.chan t ch
  (s.copyPump t ch ecc (dLines c.d - c.issued)).copySettle t ch

/-- A tag of a tile has come free, or its core is on again: what waited for it goes on, lower channels first (R129). -/
def State.pumpTile (s : State) (t : Nat) : State :=
  s.each (List.range 8) fun s ch =>
    let c := s.chan t ch
    if c.due then s.settleDone t ch else if c.st = .active ∧ !c.link then s.copyRun t ch .clean else s

/-- What waits in every tile's channels goes on: cores are un-clamped, a half's hold or a shift has ended (R32, R35, R75). -/
def State.pumpAll (s : State) : State := s.each (s.tiles.map (·.1)) State.pumpTile

/-- STATE of a link send channel (R72, R134): stalled while it lacks a credit or an armed beat. -/
def Chan.stall (c : Chan) : Chan :=
  if c.link ∧ dKind c.d = 1 ∧ (c.st = .active ∨ c.st = .stalled) then
    { c with st := if c.credits = 0 ∨ c.armed = 0 then .stalled else .active }
  else c

/-! ### STREAM.START -/

/-- The reference that SIGNAL takes (R360): its entry, none for SIGNAL 0; an error where the handle does not resolve. -/
def State.startFence (s : State) (cid : Cid) (d : Line) : Except Unit (Option Nat) :=
  if !dSignal d then .ok none else
    match s.resolve cid (BitVec.ofNat 32 (dF d 0x30 0 32)) 2 with
    | .ok i _ => .ok (some i)
    | _ => .error ()

/-- The channel starts with its descriptor `d` at `dva` (R126, R127, R133): `es` are the pages it holds. LINES starts again
at 0 (DESIGN CHOICE, log entry 43: the spec says only "lines moved, modulo 2^24"). -/
def State.startChan (s : State) (t b ch dva : Nat) (d : Line) (es : List XEntry) (ring : Nat) (op : TileOp) (ecc : Ecc) : State :=
  let k := s.bank t b
  match s.startFence k.cid d with
  | .error _ => s.tileFault t b 6 7
  | .ok ref =>
    let fits := match ref with
      | some i => s.refFits k.cid i
      | none => true
    if !fits then s.modBank t b fun k => { k with st := .waiting, wait := some (.reference op) } else
    let s := match ref with
      | some i => s.takeRef k.cid i
      | none => s
    let link := decide (dKind d ≠ 0)
    let key := dPort d * 8 + dPeer d
    let pr := Tab.find (s.tile t).pairings key
    let beats := dRing d / 128
    -- a copy whose bank was switched out while START waited is paused (R50, R72)
    let st : ChanSt := if link ∨ (s.tile t).run = b then .active else .paused
    let s := s.modChan t ch fun _ => Chan.stall
      { st := st, bank := BitVec.ofNat 2 b, link := link, desc := BitVec.ofNat 51 (dva / 64), d := d, pages := es,
        ring := ring, fenceRef := ref, armed := if dF d 0 6 1 = 1 then 0 else dCount d,
        credits := if dKind d = 1 then (pr.map (·.credits)).getD 0 else 0 }
    let s := s.modTile t fun x => x.modBank b fun k => (x.wake b k).retire
    if dKind d = 0 then s.copyRun t ch ecc
    else if dKind d = 2 then s.emit (.sideband t (dPort d) (.pairing (Fin.ofNat 8 ch) k.cid k.ctx (min beats (dCount d))))
    else match pr with
      | none => s
      | some e =>
        if e.cid ≠ k.cid ∨ e.ctx ≠ k.ctx then s.tileFault t b 6 4
        else s.modTile t fun x => { x with pairings := Tab.insert x.pairings key { e with credits := 0 } }

/-- The descriptor has been read: checks of R127, then the extents of a copy or the ring of a link channel. -/
def State.startWith (s : State) (t b ch dva : Nat) (d : Line) (es0 : List XEntry) (op : TileOp) (walked : Bool)
    (last : Option (Nat × Nat)) (ecc : Ecc) : State :=
  if dBad d then s.illegal t b
  else if dKind d = 0 then
    s.tileAccess t b 1 ch op (dSpans d) walked last false fun es s => s.startChan t b ch dva d (es0 ++ es) 0 op ecc
  else if (s.neighbour t (dPort d)).isNone then s.tileFault t b 4 (dPort d)
  else
    let base := if dKind d = 1 then dSrc d else dDst d
    let size := dRing d
    let acc : Acc := if dKind d = 1 then .rd else .wr
    let spans : List Span := [{ at_ := base, len := size, acc := acc, priv := true, row := 0 }]
    -- a ring that does not translate is an illegal instruction, not a translation fault (R127)
    if base % size ≠ 0 ∨ (visitSpans (s.tileTranslate t b walked) spans).fault.isSome then s.illegal t b else
    s.tileAccess t b 1 ch op spans walked last false fun es s =>
      let ok := (List.range (size / 64)).all fun i =>
        match targetOf es (base + 64 * i), targetOf es base with
        | some (.localMpa m), some (.localMpa m0) => s.inShare t b (s.place m) && decide (m = m0 + 64 * i)
        | _, _ => false
      let ring := match targetOf es base with
        | some (.localMpa m) => match s.place m with
          | .sram _ off => off
          | _ => 0
        | _ => 0
      if ok then s.startChan t b ch dva d (es0 ++ es) ring op ecc else s.illegal t b

/-- The span of a descriptor at `dva`. -/
def descSpan (dva : Nat) : List Span := [{ at_ := dva, len := 64, acc := .rd, priv := true, row := 0 }]

/-- STREAM.START (R127): the channel's own checks, the descriptor's translation and read. A channel whose START still
reads its descriptor is not idle; one whose last write-back waits for a tag lets START wait with it (R129). -/
def State.startRun (s : State) (t b ch sd : Nat) (op : TileOp) (walked : Bool) (last : Option (Nat × Nat)) (ecc : Ecc) : State :=
  let c := s.chan t ch
  let k := s.bank t b
  let dva := (k.s sd).toNat
  let again := fun (s : State) => s.modTile t fun x => x.modBank b fun k => x.wake b k
  if c.starting ∨ (c.st ≠ .idle ∧ c.st ≠ .done) ∨ (c.st ≠ .idle ∧ c.bank.toNat ≠ b) ∨ dva % 64 ≠ 0 then s.illegal t b else
  if c.due then again s else
  s.tileAccess t b 1 ch op (descSpan dva) walked last true fun es s =>
    match s.chanOwn t b es dva, targetOf es dva with
    | some m, _ =>
      let r := s.readMpa (s.chanWho t b es dva) false m ecc
      if r.1 = 0 then r.2.2.startWith t b ch dva r.2.1 es op walked last .clean
      else
        let f := statusFault r.1 0 (some (m / 64 % 32))
        r.2.2.tileFault t b f.1 f.2
    | none, some tgt =>
      match s.issue (.descRead t ch) t (s.chanPacket t b 1 0 es dva) tgt (viaOf es dva) with
      | some s =>
        let s := s.modChan t ch fun c => { c with starting := true, bank := BitVec.ofNat 2 b }
        s.modBank t b fun k => { k with wait := some (.descr ch sd last) }
      | none => again s
    | none, none => s

/-- The descriptor has come from off the share (R127): its page is translated afresh (R203), and START goes on. -/
def State.descArrives (s : State) (t b ch sd : Nat) (d : Line) (last : Option (Nat × Nat)) : State :=
  let dva := ((s.bank t b).s sd).toNat
  let op : TileOp := .streamStart (Fin.ofNat 8 ch) (Fin.ofNat 32 sd)
  let s := s.modChan t ch fun c => { c with starting := false }
  let s := s.modTile t fun x => x.modBank b fun k => x.wake b k
  s.tileAccess t b 1 ch op (descSpan dva) true last true fun es s => s.startWith t b ch dva d es op true last .clean

def execStreamStart (t : TileIx) (b : BankIx) (ch : ChIx) (sd : SReg) (ecc : Ecc) (s : State) : Out :=
  .next (s.run t.val b.val fun _ s => s.startRun t.val b.val ch.val sd.val (.streamStart ch sd) false none ecc)

/-! ### STREAM.ARM, WAIT, STOP -/

/-- The port at the other end of a hop: N and S, E and W face each other, across the seam too (R53). -/
def facing (port : Nat) : Nat := (port + 2) % 4

/-- The sending channel that a receive channel is paired with (R131, R133): the peer tile's send channel on the facing port
whose PEER_CH names it. -/
def State.sender (s : State) (t port ch : Nat) : Option Nat :=
  (s.neighbour t port).bind fun u => (List.range 8).find? fun j =>
    let c := s.chan u j
    c.link && decide (c.st = .active ∨ c.st = .stalled) && decide (dKind c.d = 1) && decide (dPort c.d = facing port) &&
      decide (dPeer c.d = ch)

/-- `n` credits for sending channel `cch` go to the peer in words of at most 8 (R131, R134). -/
def State.creditWords (s : State) (t port cch : Nat) : Nat → Nat → State
  | 0, _ => s
  | fuel + 1, n =>
    if n = 0 then s else
      let k := min n 8
      (s.emit (.sideband t port (.credits (Fin.ofNat 8 cch) k))).creditWords t port cch fuel (n - k)

/-- Returned credits go to the sending channel (R131); where none is paired yet they wait at the receiver and go with the
next arm (log entry 45). -/
def State.returnCredits (s : State) (t port ch n : Nat) : State :=
  let m := (s.chan t ch).owed + n
  match s.sender t port ch with
  | some j => (s.modChan t ch fun c => { c with owed := 0 }).creditWords t port j m m
  | none => s.modChan t ch fun c => { c with owed := m }

/-- R134; on a channel that is no active link channel of the bank the instruction only retires (log entry 27). -/
def State.armRun (s : State) (t b ch n : Nat) : State :=
  let c := s.chan t ch
  if !(c.link && decide (c.bank.toNat = b) && decide (c.st = .active ∨ c.st = .stalled)) then s.done t b id
  else if dKind c.d = 1 then
    if dCount c.d < c.armed + c.beats + n then s.illegal t b
    else (s.modChan t ch fun c => { c with armed := c.armed + n }.stall).done t b id
  else if dCount c.d < c.released + n then s.illegal t b
  else ((s.modChan t ch fun c => { c with released := c.released + n }).returnCredits t (dPort c.d) ch n).done t b id

def execStreamArm (t : TileIx) (b : BankIx) (ch : ChIx) (sn : SReg) (s : State) : Out :=
  .next (s.run t.val b.val fun k s => s.armRun t.val b.val ch.val (k.s sn).toNat)

/-- R130. -/
def execStreamWait (t : TileIx) (b : BankIx) (ch : ChIx) (s : State) : Out :=
  .next (s.run t.val b.val fun _ s =>
    let c := s.chan t.val ch.val
    if c.st = .idle ∨ c.st = .done then s.done t.val b.val id
    else s.modBank t.val b.val fun k => { k with wait := some (.chan ch.val) })

/-- R130: nothing further is issued; done once what was issued has completed. -/
def State.stopChan (s : State) (t ch : Nat) : State :=
  let c := s.chan t ch
  if c.st = .idle ∨ c.st = .done ∨ c.st = .faulted then s
  else
    let s := s.modChan t ch fun c => { c with stopping := true, decided := none }
    if c.link then s.finishChan t ch else s.copySettle t ch

def execStreamStop (t : TileIx) (b : BankIx) (ch : ChIx) (s : State) : Out :=
  .next (s.run t.val b.val fun _ s =>
    if (s.chan t.val ch.val).bank.toNat = b.val then (s.stopChan t.val ch.val).done t.val b.val id else s.done t.val b.val id)

/-! ### Neighbour links -/

/-- Whether cycle `c` of a run is a slot of a descriptor (R132). -/
def isSlot (d : Line) (c : Nat) : Bool :=
  decide ((c + (2 ^ 16 * dPeriod d - dOffset d)) % dPeriod d < dBurst d)
/-- The first slot at or after cycle `c`: fuel covers one period. -/
def slotFrom (d : Line) : Nat → Nat → Nat
  | 0, c => c
  | fuel + 1, c => if isSlot d c then c else slotFrom d fuel (c + 1)

/-- Whether a lower-numbered send channel of the tile has a slot on the same port in cycle `c` (R136). -/
def State.slotTaken (s : State) (t ch c : Nat) : Bool :=
  let x := s.chan t ch
  (List.range ch).any fun j =>
    let y := s.chan t j
    y.link && decide (y.st = .active ∨ y.st = .stalled) && decide (dKind y.d = 1) && decide (y.bank = x.bank) &&
      decide (dPort y.d = dPort x.d) && isSlot y.d c

/-- Whether a link channel reaches offset `off` of its tile's SRAM for an access (R49): its context's tags at the granule. -/
def State.ringChecks (s : State) (t b off : Nat) (a : Acc) : Bool :=
  let k := s.bank t b
  decide (s.targetCheck (Who.of k.cid k.ctx) a (.sram t off) false = 0)

/-- One slot of a send channel (R132, R134 to R136, R138): the next one of the slot clock of its bank's run, which goes on
while the bank waits. -/
def State.slotRun (s : State) (t ch : Nat) : State :=
  let c := s.chan t ch
  let b := c.bank.toNat
  let k := s.bank t b
  let live := c.link && decide (c.st = .active ∨ c.st = .stalled) && !c.stopping && decide (dKind c.d = 1) &&
    decide ((s.tile t).run = b) && s.coreOn t b
  if !live then s else
    let from_ := max (dOffset c.d) (max k.slotClock (match c.decided with | some x => x + 1 | none => 0))
    let cyc := slotFrom c.d (dPeriod c.d) from_
    let s := s.modChan t ch fun c => { c with decided := some cyc }
    let s := s.modBank t b fun k => { k with slotClock := cyc }
    if s.slotTaken t ch cyc then s.modChan t ch fun c => { c with collisions := satInc c.collisions }
    else if c.credits = 0 ∨ c.armed = 0 then
      s.modChan t ch fun c => { c with emptySlots := satInc c.emptySlots }
    else
      let off := c.ring + c.beats * 128 % dRing c.d
      let r1 := s.sramRead t off .clean
      let r2 := r1.2.2.sramRead t (off + 64) .clean
      if !s.ringChecks t b off .rd then s.tileFault t b 6 0
      else if r1.1 ≠ 0 then r1.2.2.tileFault t b 5 (off / 64 % 32)
      else if r2.1 ≠ 0 then r2.2.2.tileFault t b 5 ((off + 64) / 64 % 32)
      else
        let data : BitVec 1024 := BitVec.ofNat 1024 (r1.2.1.toNat + r2.2.1.toNat * 2 ^ 512)
        let s := s.emit (.sideband t (dPort c.d) (.beat (Fin.ofNat 8 (dPeer c.d)) data))
        let s := s.modChan t ch fun c => { c with
          beats := c.beats + 1, credits := c.credits - 1, armed := c.armed - 1 }.stall
        let s := s.countLines t ch 2
        if c.beats + 1 = dCount c.d then s.finishChan t ch else s

def execLinkSlot (t : TileIx) (ch : ChIx) (s : State) : Out := .next (s.slotRun t.val ch.val)

/-- R137, R49: a beat for a channel that a purge or a STOP has ended is discarded and counted. -/
def State.beatRun (s : State) (t port dch : Nat) (data : BitVec 1024) : State :=
  let c := s.chan t dch
  let live := c.link && decide (c.st = .active ∨ c.st = .stalled) && !c.stopping && decide (dKind c.d = 2) && decide (dPort c.d = port)
  let off := c.ring + c.beats * 128 % dRing c.d
  if !live then s.modMesh fun m => { m with discardedBeats := m.discardedBeats + 1 }
  else if !s.ringChecks t c.bank.toNat off .wr then s.tileFault t c.bank.toNat 6 0 else
    let s := (s.sramWrite t off (data.extractLsb' 0 512) (BitVec.allOnes 64) .clean).2
    let s := (s.sramWrite t (off + 64) (data.extractLsb' 512 512) (BitVec.allOnes 64) .clean).2
    let s := (s.modChan t dch fun c => { c with beats := c.beats + 1 }).countLines t dch 2
    if c.beats + 1 = dCount c.d then s.finishChan t dch else s

def execLinkBeat (t : TileIx) (port : NPort) (dch : ChIx) (data : BitVec 1024) (s : State) : Out :=
  .next (s.beatRun t.val port.val dch.val data)

/-- R133. -/
def State.pairRun (s : State) (t port dch : Nat) (cid : Cid) (ctx : Ctx) (credits : Nat) : State :=
  let key := port * 8 + dch
  let sender := (List.range 8).find? fun ch =>
    let c := s.chan t ch
    c.link && decide (c.st = .active ∨ c.st = .stalled) && decide (dKind c.d = 1) && decide (dPort c.d = port) &&
      decide (dPeer c.d = dch)
  let e : Pairing := ⟨cid, ctx, if sender.isSome then 0 else credits⟩
  let s := s.modTile t fun x => { x with pairings := Tab.insert x.pairings key e }
  match sender with
  | none => s
  | some ch =>
    let b := (s.chan t ch).bank.toNat
    let k := s.bank t b
    if k.cid = cid ∧ k.ctx = ctx then s.modChan t ch fun c => { c with credits := c.credits + credits }.stall
    else s.tileFault t b 6 4

def execPairingWord (t : TileIx) (port : NPort) (dch : ChIx) (cid : Cid) (ctx : Ctx) (credits : Nat) (s : State) : Out :=
  .next (s.pairRun t.val port.val dch.val cid ctx credits)

/-- R131, R134: CCNT is the number of beats less 1. -/
def execLinkCreditReturn (t : TileIx) (cch : ChIx) (n : Fin 8) (s : State) : Out :=
  let c := s.chan t.val cch.val
  if c.link ∧ dKind c.d = 1 ∧ (c.st = .active ∨ c.st = .stalled) then
    .next (s.modChan t.val cch.val fun c => { c with credits := c.credits + n.val + 1 }.stall)
  else .next s

/-! ### Responses to a tile's requests (R119, R129, R153, R301, R330) -/

/-- The fault that a status makes of a tile's request. -/
def State.reqFault (s : State) (t : Nat) (r : MeshReq) (status : Nat) : Nat × Nat :=
  let own := match r.cls, s.place r.pkt.addr.toNat with
    | 0, .sram u off => if u = t then some (off / 64 % 32) else none
    | _, _ => none
  statusFault status r.cls own

/-- A response reaches a tile: what its request was for goes on, or its bank faults. A line read for a copy that has been
stopped since goes no further (R130). -/
def State.tileResponse (s : State) (r : MeshReq) (p : Packet) : State :=
  let fail := fun (s : State) (t b : Nat) =>
    let f := s.reqFault t r p.status.toNat
    s.tileFault t b f.1 f.2
  match r.who with
  | .load t b pos size off =>
    if p.status ≠ 0 then fail s t b
    else s.accessDone t b (p.data.toNat / 2 ^ (8 * off) % 2 ^ (8 * size) * 2 ^ (8 * pos))
  | .store t b => if p.status ≠ 0 then fail s t b else s.accessDone t b 0
  | .atomic t b => if p.status ≠ 0 then fail s t b else s.accessDone t b (p.operand.toNat % 2 ^ 64)
  | .copyRead t ch n =>
    let c := s.chan t ch
    if p.status ≠ 0 then fail s t c.bank.toNat
    else if c.stopping then (s.modChan t ch fun c => { c with acked := c.acked + 1 }).copySettle t ch
    else ((s.copyPut t ch n p.data).getD s).copyRun t ch .clean
  | .copyWrite t ch n =>
    let c := s.chan t ch
    if p.status ≠ 0 then fail s t c.bank.toNat
    else if dLines c.d ≤ n then s
    else ((s.modChan t ch fun c => { c with acked := c.acked + 1 }).countLines t ch 1).copyRun t ch .clean
  | .descRead t ch =>
    let c := s.chan t ch
    let b := c.bank.toNat
    if p.status ≠ 0 then fail s t b else
      match (s.bank t b).wait with
      | some (.descr _ sd last) => s.descArrives t b ch sd p.data last
      | _ => s
  | _ => s

end Sys2Proof.Machine
end

