-- ==== Sys2Proof/Machine/Tile.lean ====
section
/-! DEFINITION. The tile's register writes and its part in recovery (R56, R61 to R78, R474): core clamp and gate, issue
hold, purge, isolation, row shift, shell failure. -/

namespace Sys2Proof.Machine

/-- A write of TIL_CTRL (R61, R62): refused whole, or every field written; reserved bits counted (R9). -/
def State.tilCtrl (s : State) (t : Nat) (v : Word) : State :=
  let x := s.tile t
  let clamp := bit v 7
  let gate := bit v 6
  let settling := match x.gateAt with
    | some a => decide (s.now < a + s.ticksOf 10000)
    | none => false
  let s := s.when (decide (v &&& 0xFFFFFF0F ≠ 0)) fun s => s.modTile t fun x => { x with err := x.err.reserved }
  let bad := (gate && !x.gate && !x.clamp) || (!clamp && x.clamp && (x.gate || settling)) ||
    (clamp != x.clamp && gate != x.gate)
  if bad then s.modTile t fun x => { x with err := x.err.refuse } else
    let at0 := s.now
    let s := s.modTile t fun x => { x with
      clamp := clamp, gate := gate, narrow := bit v 5, issueHold := bit v 4,
      clamped := clamp, powered := x.powered || (x.gate && !gate),
      gateAt := if x.gate && !gate then some at0 else x.gateAt,
      issueHeld := x.issueHeld && bit v 4, testHold := x.testHold && bit v 4 }
    s.pumpTile t

def execCoreClamp (t : TileIx) (v : Word) (s : State) : Out := .next (s.tilCtrl t.val v)
def execCoreGate (t : TileIx) (v : Word) (s : State) : Out := .next (s.tilCtrl t.val v)
def execNarrowEn (t : TileIx) (v : Word) (s : State) : Out := .next (s.tilCtrl t.val v)
def execIssueHold (t : TileIx) (v : Word) (s : State) : Out := .next (s.tilCtrl t.val v)

/-- R61, R63: the rail falls after CORE_GATE. -/
def execCoreUnpowered (t : TileIx) (s : State) : Out :=
  if (s.tile t.val).gate then .next (s.modTile t.val fun x => { x with powered := false }) else .next s

/-- R63: all issue has stopped. -/
def execIssueHeld (t : TileIx) (s : State) : Out :=
  if (s.tile t.val).issueHold then .next (s.modTile t.val fun x => { x with issueHeld := true }) else .next s

/-- R65: COUNT of the half's tiles wraps to 0 and sets OVF. -/
def execTilCycleWrap (h : Half) (s : State) : Out :=
  let s := { s with cycles := Tab.insert s.cycles h.val 0 }
  .next (s.each (halfTiles h.val) fun s t => s.modTile t fun x => { x with ovf := true })

/-- A write of SEQ_BANK_CTRL (R69): HOLD; PURGE, ignored and counted in EMPTY or PURGING. -/
def State.bankCtrl (s : State) (t b : Nat) (v : Word) : State :=
  let s := s.when (decide (v &&& 0xFFFFFFFC ≠ 0)) fun s => s.modTile t fun x => { x with err := x.err.reserved }
  let s := s.modBank t b fun k => { k with hold := bit v 0 }
  if !bit v 1 then s
  else
    let st := (s.bank t b).st
    if st = .empty ∨ st = .purging then s.modTile t fun x => { x with err := x.err.refuse } else s.purgeBank t b

def execBankHold (t : TileIx) (b : BankIx) (v : Word) (s : State) : Out := .next (s.bankCtrl t.val b.val v)
def execBankPurge (t : TileIx) (b : BankIx) (v : Word) (s : State) : Out := .next (s.bankCtrl t.val b.val v)

/-- The purges that RECOVER asked for end when no bank of the context is left to purge (R484). -/
def State.recoverPurged (s : State) (cid : Cid) (ctx : Ctx) : State :=
  if (s.ctxBanks cid ctx).isEmpty then s.opDone 0x0901 cid (0x10000 + ctx.toNat) 0 0 0 else s

/-- R73 step 3: nothing of the bank is outstanding any more. -/
def execPurgeComplete (t : TileIx) (b : BankIx) (s : State) : Out :=
  let k := s.bank t.val b.val
  if k.st = .purging ∧ !(s.outstanding t.val b.val) then
    .next ((s.emptyBank t.val b.val).recoverPurged k.cid k.ctx)
  else .next s

/-- R71, R73, R74, R473 to R475: the context is lost with code 0x08, its bank stays FAULTED with it, and the tile is
isolated. -/
def execPurgeTimeout (t : TileIx) (b : BankIx) (s : State) : Out :=
  let k := s.bank t.val b.val
  if k.st ≠ .purging ∨ s.recovering (t.val / 272) then .next s else
    let s := s.bankLost t.val b.val 8 0
    let s := s.opDone 0x0901 k.cid (0x10000 + k.ctx.toNat) 0 1 0
    .next (s.isolate t.val false)

/-- R74 steps 2 to 4: the core is gated, and the row shifts (after a shift that already runs there) or the tile becomes a
hole. -/
def execIsolationDrainDone (t : TileIx) (s : State) : Out :=
  let x := s.tile t.val
  let due := s.rcv.isolations.any (fun i => decide (i.tile = t.val)) && !x.gate && !(s.coreOutstanding t.val)
  if !due then .next s else
    let s := s.modTile t.val fun x => { x with gate := true }
    match s.rowSpare (t.val / 272) (t.val % 272 / 17) with
    | some _ => .next (s.leaveRow t.val false)
    | none =>
      let cids := s.tileCids t.val
      .next (((s.makeHole t.val).rowNbr (t.val / 272) (t.val % 272 / 17)).endIsolation t.val false cids)

/-- R75 step 2: nothing of the old epoch is in flight; the moving tiles hold issue and the copy starts. -/
def execShiftCopyStart (h : Half) (row : Fin 16) (s : State) : Out :=
  match s.rcv.shifts.find? fun x => decide (x.half = h.val ∧ x.row = row.val) with
  | none => .next s
  | some x =>
    let quiet := (x.cids.filterMap s.slotOf).all fun k => decide ((s.fence k).count = 0)
    if !(x.opened && !x.copying && quiet) then .next s else
      let s := s.modRcv fun r => { r with
        shifts := r.shifts.map fun y => if y = x then { y with copying := true } else y }
      let s := s.each ((shiftPairs x.failed x.skip).map (·.1)) fun s t =>
        s.modTile t fun k => { k with issueHold := true, shiftBusy := true }
      .next (s.shiftNbr x)

/-- R75 step 3: the copy has ended; its commit takes effect at the next tick boundary (COMMIT_BOUNDARY), as soon as Itlum
holds no other pending values. -/
def execShiftCopyDone (h : Half) (row : Fin 16) (s : State) : Out :=
  match s.rcv.shifts.find? fun x => decide (x.half = h.val ∧ x.row = row.val) with
  | none => .next s
  | some x =>
    if !x.copying ∨ x.copied then .next s else
      let y := { x with copied := true }
      let s := s.modRcv fun r => { r with shifts := r.shifts.map fun z => if z = x then y else z }
      let s := s.each ((shiftPairs x.failed x.skip).map (·.1)) fun s t => s.modTile t fun k => { k with shiftBusy := false }
      .next (s.commitShift y)

/-- R78: element 0 mesh stop, 1 state array, 2 bank group. -/
def execShellFailure (t : TileIx) (element : Fin 3) (s : State) : Out :=
  if (s.tile t.val).role = .grid then .next (s.shellFail t.val element.val) else .next (s.spareShellFail t.val element.val)

end Sys2Proof.Machine
end

