-- ==== Sys2Proof/Machine/Handles.lean ====
section
/-! DEFINITION. Fence and semaphore instructions (R125, R371 to R374), barriers (R144 to R147), the end of a table walk
(R199), page requests and their responses (R205 to R207). -/

namespace Sys2Proof.Machine

/-! ### Fences and semaphores -/

/-- The half whose sync unit serves a line. -/
def Place.half : Place → Nat
  | .sram t _ => t / 272
  | .dram _ p _ _ => p / 96
  | .unbacked => 0

/-- An instruction whose handle does not resolve, or whose line is out of reach (R372). -/
def State.handleFault (s : State) (t b : Nat) : State := s.tileFault t b 6 7

/-- Retire with a status in SD (R125). -/
def State.status (s : State) (t b : Nat) (sd : SReg) (v : Nat) : State :=
  s.done t b fun k => k.setS sd (BitVec.ofNat 64 v)

def execFenceSignal (t : TileIx) (b : BankIx) (op : HandleOp) (s : State) : Out :=
  .next (s.run t.val b.val fun k s =>
    match s.resolve k.cid ((k.s op.so).setWidth 32) 2 with
    | .ok _ e =>
      match s.signalFence k.cid e (k.s op.sv).toNat with
      | some r => r.2.status t.val b.val op.sd r.1
      | none => s.handleFault t.val b.val
    | _ => s.handleFault t.val b.val)

/-- Register a wait (R360, R372): its reference is taken, or the bank stands until one is free. -/
def State.waitOn (s : State) (t b : Nat) (i : Nat) (m : Nat) (isSem : Bool) (target : Nat) (w : Wait) (op : TileOp) : State :=
  let k := s.bank t b
  if !s.refFits k.cid i then s.modBank t b fun k => { k with st := .waiting, wait := some (.reference op) } else
    let at0 := s.now
    let s := s.takeRef k.cid i
    let e : SyncEntry := { half := (s.place m).half, who := .bank t b, cid := k.cid, ctx := k.ctx, key := s.syncKey m,
                           isSem := isSem, target := BitVec.ofNat 64 target, obj := i, startedAt := at0 }
    let s := s.modQue fun q => { q with waits := q.waits ++ [e] }
    s.modBank t b fun k => { k with st := .waiting, wait := some w, since := at0 }

def execFenceWait (t : TileIx) (b : BankIx) (op : HandleOp) (s : State) : Out :=
  .next (s.run t.val b.val fun k s =>
    match s.resolve k.cid ((k.s op.so).setWidth 32) 2 with
    | .ok i e =>
      match s.syncLine k.cid e with
      | none => s.handleFault t.val b.val
      | some (m, l) =>
        let target := (k.s op.sv).toNat
        if target ≤ lineGet l 0 8 then s.status t.val b.val op.sd 0
        else s.waitOn t.val b.val i m false target (.fence (s.syncKey m) (BitVec.ofNat 64 target) op.sd) (.fenceWait op)
    | _ => s.handleFault t.val b.val)

def execSemAcq (t : TileIx) (b : BankIx) (op : HandleOp) (s : State) : Out :=
  .next (s.run t.val b.val fun k s =>
    match s.resolve k.cid ((k.s op.so).setWidth 32) 3 with
    | .ok i e =>
      match s.syncLine k.cid e with
      | none => s.handleFault t.val b.val
      | some (m, l) =>
        let n := (k.s op.sv).toNat
        let queued := s.que.waits.any fun w => decide (w.key = s.syncKey m) && w.isSem
        if n = 0 then s.status t.val b.val op.sd 0
        else if !queued && decide (n ≤ lineGet l 0 4) then
          let l := lineSet (lineSet l 0 4 (lineGet l 0 4 - n)) 4 2 (k.ctx.toNat + 2 ^ 15)
          (s.syncStore k.cid e m l).status t.val b.val op.sd 0
        else s.waitOn t.val b.val i m true n (.sem (s.syncKey m) (BitVec.ofNat 32 n) op.sd) (.semAcq op)
    | _ => s.handleFault t.val b.val)

def execSemRel (t : TileIx) (b : BankIx) (op : HandleOp) (s : State) : Out :=
  .next (s.run t.val b.val fun k s =>
    match s.resolve k.cid ((k.s op.so).setWidth 32) 3 with
    | .ok _ e =>
      let n := (k.s op.sv).toNat
      if n = 0 then s.status t.val b.val op.sd 0 else
        match s.semRelease k.cid e k.ctx n with
        | some s => s.status t.val b.val op.sd 0
        | none => s.handleFault t.val b.val
    | _ => s.handleFault t.val b.val)

/-! ### Barrier instructions -/

/-- The object's MPA where its DVA leads into bonded SRAM, 64-byte aligned (R144). -/
def barObjOf (es : List XEntry) (dva : Nat) : Option Nat :=
  match targetOf es dva with
  | some (.localMpa m) => if 0x3F0000000000 ≤ m ∧ m % 64 = 0 then some m else none
  | _ => none

/-- BAR.ARRIVE (R145): one barrier arrival to the home. -/
def State.arriveRun (s : State) (t b : Nat) (sg sb : SReg) (walked : Bool) (last : Option (Nat × Nat)) : State :=
  let dva := ((s.bank t b).s sb).toNat
  s.tileAccess t b 2 0 (.barArrive sg sb) [{ at_ := dva, len := 256, acc := .atomic, priv := false, row := 0 }] walked last false
    fun es s =>
      match barObjOf es dva with
      | none => s.illegal t b
      | some m =>
        let s := s.modTile t fun x => x.modBank b fun k => x.wake b k
        let p := { s.tilePacket t b 7 with operand := BitVec.ofNat 128 ((s.logTile t).getD 0) }
        match s.issue (.barArrive t b) t p (.localMpa m) (viaOf es dva) with
        | some s => s.modBank t b fun k => { k with wait := some (.arrive sg) }
        | none => s

def execBarArrive (t : TileIx) (b : BankIx) (sg sb : SReg) (s : State) : Out :=
  .next (s.run t.val b.val fun _ s => s.arriveRun t.val b.val sg sb false none)

/-- Whether a generation has passed SG (R147). -/
def barPassed (gen sg : Word) : Bool := decide (1 ≤ (gen - sg).toNat ∧ (gen - sg).toNat ≤ 2 ^ 31)

/-- BAR.WAIT (R147): GEN is read from the home; TIMEOUT in units of 1,024 ticks, 0 for 1,024 units (R123). -/
def State.barWaitRun (s : State) (t b : Nat) (sd sb sg : SReg) (hook : Bool) (timeout : BitVec 16) (walked : Bool)
    (last : Option (Nat × Nat)) : State :=
  let k := s.bank t b
  let dva := (k.s sb).toNat
  let op : TileOp := .barWait sd sb sg hook timeout
  s.tileAccess t b 2 0 op [{ at_ := dva, len := 256, acc := .rd, priv := false, row := 0 }] walked last false
    fun es s =>
      match barObjOf es dva with
      | none => s.illegal t b
      | some m =>
        let s := s.modTile t fun x => x.modBank b fun k => x.wake b k
        match s.issue (.barRead t b) t (s.tilePacket t b 1) (.localMpa (m + 64)) (viaOf es dva) with
        | none => s
        | some s =>
          let units := if timeout = 0 then 1024 else timeout.toNat
          let w : Wait := .bar (s.syncKey m) ((k.s sg).setWidth 32) sd hook (units * 1024)
          let at0 := s.now
          let s := s.modTile t fun x => { x with
            raised := if hook && !x.matrix && !(x.raised.contains k.cid) then x.raised ++ [k.cid] else x.raised }
          s.modBank t b fun k => { k with st := .waiting, wait := some w, since := at0 }

def execBarWait (t : TileIx) (b : BankIx) (sd sb sg : SReg) (hook : Bool) (timeout : BitVec 16) (s : State) : Out :=
  .next (s.run t.val b.val fun _ s => s.barWaitRun t.val b.val sd sb sg hook timeout false none)

/-- A GEN value of the barrier `obj` reaches a bank that waits on it: its wait ends where the generation has passed
(R147). -/
def State.barSees (s : State) (t b obj : Nat) (gen : Word) : State :=
  match (s.bank t b).wait with
  | some (.bar key sg sd _ _) => if barPassed gen sg ∧ obj = key then s.endWait t b sd 0 else s
  | _ => s

/-- Responses to barrier requests. -/
def State.barResponse (s : State) (r : MeshReq) (p : Packet) : State :=
  match r.who with
  | .barArrive t b =>
    if p.status ≠ 0 then
      let f := s.reqFault t r p.status.toNat
      s.tileFault t b f.1 f.2
    else match (s.bank t b).wait with
      | some (.arrive sg) =>
        s.modTile t fun x => x.modBank b fun k => ((x.wake b k).setS sg (p.operand.setWidth 64)).retire
      | _ => s
  | .barRead t b =>
    if p.status ≠ 0 then
      let f := s.reqFault t r p.status.toNat
      s.tileFault t b f.1 f.2
    else s.barSees t b (s.syncKey (r.pkt.addr.toNat - 64)) (p.data.setWidth 32)
  | _ => s

/-- R147: TIMEOUT passes. -/
def execBarWaitTimeout (t : TileIx) (b : BankIx) (s : State) : Out :=
  match (s.bank t.val b.val).wait with
  | some (.bar _ _ sd _ limit) =>
    if s.now < (s.bank t.val b.val).since + limit then .next s else .next (s.endWait t.val b.val sd 1)
  | _ => .next s

/-! ### The barrier home -/

/-- A barrier's first three lines (R144), where the home can read them for a requester. -/
def State.barLines (s : State) (w : Who) (obj : Nat) : Option (Line × Line × Line × State) :=
  let a := s.readMpa w false obj .clean
  let b := a.2.2.readMpa w false (obj + 64) .clean
  let c := b.2.2.readMpa w false (obj + 128) .clean
  if a.1 = 0 ∧ b.1 = 0 ∧ c.1 = 0 then some (a.2.1, b.2.1, c.2.1, c.2.2) else none

/-- What the home's reads of a barrier's first three lines find (R49, R153): the first STATUS that is not 0. -/
def State.barStatus (s : State) (w : Who) (obj : Nat) (ecc : Ecc) : Nat × State :=
  let a := s.readMpa w false obj .clean
  let b := a.2.2.readMpa w false (obj + 64) ecc
  let c := b.2.2.readMpa w false (obj + 128) .clean
  (if a.1 ≠ 0 then a.1 else if b.1 ≠ 0 then b.1 else c.1, c.2.2)

def State.barStore (s : State) (w : Who) (obj : Nat) (l1 l2 : Line) : State :=
  let s := (s.writeMpa w (obj + 64) l1 (BitVec.allOnes 64) .clean).2
  (s.writeMpa w (obj + 128) l2 (BitVec.allOnes 64) .clean).2

/-- The stop of a barrier's home: the tile whose bank holds line 1. -/
def State.barHome (s : State) (obj : Nat) : Nat := stopOf 0 (s.place (obj + 64))

/-- A packet to a parent or child object named by a DVA through a window (R146, R317). A DVA that does not translate
loses the context (R216); a page to be migrated does too, with reason 0x08, since no bank is there to wait for it (log
entry 48). -/
def State.barFar (s : State) (cid : Cid) (ctx : Ctx) (home type dva : Nat) (gen : Word) : State :=
  let acc : Acc := if type = 7 then .atomic else .wr
  match s.walk cid ctx dva with
  | .hit e =>
    match e.target dva with
    | .window fa =>
      let p := { zeroPacket with
        type := BitVec.ofNat 8 type, dest := 0x250, src := BitVec.ofNat 10 home, cid := cid, ctx := ctx,
        epoch := s.epochOfCid cid, addr := BitVec.ofNat 60 fa, operand := gen.setWidth 128 }
      s.emit (.mesh p)
    | _ => s
  | .bad reason level entry =>
    (s.countWalk (home / 272) cid ctx dva reason level).xlatFaultUnit cid ctx 2 ⟨dva, reason, level, entry, acc, false, 0, dva⟩
  | .mig _ log2 entry => s.xlatFaultUnit cid ctx 2 ⟨dva, 8, (log2 - 12) / 9, entry, acc, false, 0, dva⟩

/-- Step 2 and 3 of R146: GEN goes on, the counts clear, members and children are released. -/
def State.barRelease (s : State) (w : Who) (obj : Nat) (members l1 : Line) : State :=
  let gen : Word := BitVec.ofNat 32 (lineGet l1 0 4) + 1
  let n := lineGet l1 4 1
  let l1 := lineSet (lineSet (lineSet l1 0 4 gen.toNat) 5 1 0) 6 1 (lineGet l1 6 1 / 2 * 2)
  let s := s.barStore w obj l1 0
  let home := s.barHome obj
  let s := s.emit (.release home obj gen members)
  let kids := (List.range (min n 64)).map fun j =>
    let at_ := obj + 0xC0 + 8 * j
    (s.readMpa w false at_ .clean).2.1.toNat / 2 ^ (8 * (at_ % 64)) % 2 ^ 64
  s.each kids fun s dva => s.barFar w.cid w.ctx home 8 dva gen

/-- Complete a barrier whose members and children have all arrived (R146). -/
def State.barCheck (s : State) (w : Who) (obj : Nat) : State :=
  match s.barLines w obj with
  | none => s
  | some (members, l1, l2, s) =>
    let pending := lineGet l1 6 1 % 2
    if pending = 1 ∨ l2 ≠ members ∨ lineGet l1 5 1 ≠ lineGet l1 4 1 then s
    else
      let parent := lineGet l1 8 8
      if parent ≠ 0 then
        let s := s.barStore w obj (lineSet l1 6 1 (lineGet l1 6 1 + 1)) l2
        s.barFar w.cid w.ctx (s.barHome obj) 7 parent 0
      else s.barRelease w obj members l1

/-- Count one arrival in the current generation (R145): a repeated one is counted apart. -/
def State.barCount (s : State) (w : Who) (obj : Nat) (who : Option Nat) : State :=
  match s.barLines w obj with
  | none => s
  | some (_, l1, l2, s) =>
    match who with
    | none => s.barStore w obj (lineSet l1 5 1 (lineGet l1 5 1 + 1)) l2
    | some i =>
      if l2.getLsbD i then s.modMesh fun m => { m with repeatedArrivals := m.repeatedArrivals + 1 }
      else s.barStore w obj l1 (setBit l2 i true)

/-- Arrivals kept while PENDING was 1 count in the generation that has begun (R146). -/
def State.barEarly (s : State) (w : Who) (obj : Nat) : State :=
  let mine := s.mesh.early.filter fun e => decide (e.1 = obj)
  let s := s.modMesh fun m => { m with early := m.early.filter fun e => decide (e.1 ≠ obj) }
  (s.each mine fun s e => s.barCount w obj e.2).barCheck w obj

/-- R145: an arrival at the home, from a tile by its logical number or from a child object; a line that the home cannot
read answers with its STATUS (R153). -/
def execBarrierArrival (p : Packet) (fact : Bool × Ecc) (s : State) : Out :=
  let child := fact.1
  let ecc := fact.2
  let w := Who.of p.cid p.ctx
  let obj := p.addr.toNat
  let i := p.operand.toNat % 512
  let answer := fun (s : State) (status : Nat) (gen : Nat) =>
    if child then s else s.emit (.mesh (reply p status 0 (BitVec.ofNat 128 gen)))
  let r := s.barStatus w obj ecc
  match r.2.barLines w obj with
  | none => .next (answer r.2 (if r.1 = 0 then 1 else r.1) 0)
  | some (members, l1, _, s) =>
    if r.1 ≠ 0 then .next (answer s r.1 0) else
    if !child ∧ !members.getLsbD i then .next (answer s 1 0) else
      let gen := lineGet l1 0 4
      let who := if child then none else some i
      if lineGet l1 6 1 % 2 = 1 then
        .next (answer (s.modMesh fun m => { m with early := m.early ++ [(obj, who)] }) 0 ((gen + 1) % 2 ^ 32))
      else .next (((answer (s.barCount w obj who) 0 gen)).barCheck w obj)

/-- R146, R147: a release reaches the waiting banks of the members it names, or a home that waits for its parent. The
home acts under the tag of its object's granule. -/
def execBarrierRelease (obj : Mpa) (gen : Word) (members : Line) (toHome : Bool) (s : State) : Out :=
  if toHome then
    let w := match s.place obj.toNat with
      | .sram t off => Who.of (s.gran t (off / 65536)).cid (s.gran t (off / 65536)).ctx
      | _ => Who.of 0 0
    match s.barLines w obj.toNat with
    | none => .next s
    | some (m, l1, _, s) =>
      if lineGet l1 6 1 % 2 = 1 then .next ((s.barRelease w obj.toNat m l1).barEarly w obj.toNat) else .next s
  else
    let ts := s.tiles.filter fun t => match s.logTile t.1 with
      | some l => members.getLsbD l
      | none => false
    .next (s.each ts fun s t => s.each [0, 1, 2, 3] fun s b => s.barSees t.1 b (s.syncKey obj.toNat) gen)

/-! ### Walks and page requests -/

/-- Try an access again, its walks complete (R199, R205). -/
def State.rerun (s : State) (t b : Nat) (op : TileOp) (last : Option (Nat × Nat)) (ecc : Ecc) : State :=
  match op with
  | .scalarMem _ | .vectorMem _ => s.memRun t b op ecc true last
  | .streamStart ch sd => s.startRun t b ch.val sd.val op true last ecc
  | .barArrive sg sb => s.arriveRun t b sg sb true last
  | .barWait sd sb sg hook timeout => s.barWaitRun t b sd sb sg hook timeout true last
  | _ => s

/-- The DVA and access a suspended instruction starts with. -/
def State.opStart (k : Bank) : TileOp → Nat × Acc
  | .streamStart _ sd => ((k.s sd).toNat, .rd)
  | .barArrive _ sb => ((k.s sb).toNat, .atomic)
  | .barWait _ sb _ _ _ => ((k.s sb).toNat, .rd)
  | op => match memSpan k op with
    | some x => (x.1, x.2.2)
    | none => (0, .rd)

/-- Whether a bank's walks are among the 32 that the walkers of its half run at once (R199): the first that asked. -/
def State.walking (s : State) (t b : Nat) : Bool :=
  ((s.xlt.walks.filter fun w => decide (w.tile / 272 = t / 272)).take 32).any fun w => decide (w.tile = t ∧ w.bank = b)

/-- The first address of an access that a walk is still needed for, in the order of R209. -/
def State.firstMiss (s : State) (t : Nat) (k : Bank) (op : TileOp) : Nat :=
  let x := State.opStart k op
  let len := match memSpan k op with
    | some y => y.2.1
    | none => 64
  let missing := fun (a : Nat) => (s.lookup t k.cid k.ctx a).isNone
  if missing x.1 then x.1 else
    ((List.range (len / 4096 + 1)).map fun i => (x.1 / 4096 + 1 + i) * 4096).find? missing |>.getD x.1

/-- R199: the table reads of a bank's walks return; one beyond repair ends them with reason 0x0A (R217). -/
def execWalkComplete (t : TileIx) (b : BankIx) (ecc : Ecc) (s : State) : Out :=
  let k := s.bank t.val b.val
  match k.wait with
  | some (.walk op) =>
    if !s.walking t.val b.val then .next s else
    let miss := s.firstMiss t.val k op
    let s := s.modXlt fun x => { x with walks := x.walks.filter fun w => decide (¬ (w.tile = t.val ∧ w.bank = b.val)) }
    let s := s.modTile t.val fun x => x.modBank b.val fun k => x.wake b.val k
    if ecc.lost then
      let x := State.opStart k op
      let level := match s.walkHalf (t.val / 272) k.cid k.ctx miss with
        | .bad _ l _ => l
        | .mig _ log2 _ => (log2 - 12) / 9
        | .hit e => (e.log2 - 12) / 9
      let unit := match op with
        | .streamStart _ _ => 1
        | .barArrive _ _ | .barWait _ _ _ _ _ => 2
        | _ => 0
      let ch := match op with
        | .streamStart ch _ => ch.val
        | _ => 0
      .next (s.xlatFault t.val b.val unit ch ⟨miss, 0x0A, level, 0, x.2, decide (unit = 1), 0, x.1⟩)
    else .next (s.rerun t.val b.val op none .clean)
  | _ => .next s

/-- A waiting migration ends in a fault (R207). -/
def State.migLost (s : State) (m : MigReq) (reason : Nat) : State :=
  let s := s.modXlt fun x => { x with mig := x.mig.filter fun n => decide (n ≠ m) }
  match m.cmd with
  | none => s.xlatFaultBody m.tile m.bank (withReason m.body reason)
  | some c => (s.modCmd c.1 c.2 fun x => { x with faulted := true }).ctxFault m.cid m.ctx 2 7 (withReason m.body reason) none

/-- R205, R207: Success tries the access again, Invalid Request loses the context, any other code stops PRI on the
function and loses every context that waits on it. -/
def execPrgResponse (h : HPortIx) (f : FuncIx) (prgi : BitVec 9) (code : BitVec 4) (s : State) : Out :=
  match s.xlt.mig.find? fun m => decide (m.hport = h.val ∧ m.func = f.val ∧ m.sent = some prgi.toNat) with
  | none =>
    let mine := fun (r : Nat × Nat × Nat) => decide (r = (h.val, f.val, prgi.toNat))
    if s.xlt.retired.any mine then
      .next ((s.modXlt fun x => { x with retired := x.retired.filter fun r => !mine r, late := x.late + 1 }).sendPage h.val f.val)
    else .next s
  | some m =>
    if code = 0 then
      let s := s.modXlt fun x => { x with mig := x.mig.filter fun n => decide (n ≠ m) }
      match m.cmd with
      | some c => .next ((s.modCmd c.1 c.2 fun x => { x with mig := (m.page, m.tries + 1) }).sendPage h.val f.val)
      | none =>
      match (s.bank m.tile m.bank).wait with
      | some (.migrate op _ _ _) =>
        let s := s.modTile m.tile fun x => x.modBank m.bank fun k => x.wake m.bank k
        .next ((s.rerun m.tile m.bank op (some (m.page, m.tries + 1)) .clean).sendPage h.val f.val)
      | _ => .next (s.sendPage h.val f.val)
    else if code = 1 then .next ((s.migLost m 6).sendPage h.val f.val)
    else
      let s := s.modXlt fun x => { x with priStopped := Tab.insert x.priStopped (funcKey h.val f.val) true }
      .next (s.each (s.xlt.mig.filter fun n => decide (n.hport = h.val ∧ n.func = f.val)) fun s n => s.migLost n 8)

/-- R207: the index stays in use until its response arrives. -/
def execPageRequestTimeout (h : HPortIx) (f : FuncIx) (prgi : BitVec 9) (s : State) : Out :=
  match s.xlt.mig.find? fun m => decide (m.hport = h.val ∧ m.func = f.val ∧ m.sent = some prgi.toNat) with
  | none => .next s
  | some m =>
    if s.now < m.sentAt + s.xlt.priTimeout.toNat * period then .next s else
    let s := s.modXlt fun x => { x with retired := x.retired ++ [(m.hport, m.func, m.sent.getD 0)] }
    .next (s.migLost m 7)

/-- R206: what waits unsent goes on, or ends where PRI has been disabled. -/
def State.dequeuePages (s : State) (h f : Nat) : State :=
  let off := s.xlt.mig.filter fun m => decide (m.hport = h ∧ m.func = f ∧ m.sent = none) && (s.migWay m.cid m.ctx).isNone
  (s.each off fun s m => s.migLost m 8).sendPage h f

def execPageRequestDequeue (h : HPortIx) (f : FuncIx) (s : State) : Out := .next (s.dequeuePages h.val f.val)

end Sys2Proof.Machine
end

