-- ==== Sys2Proof/Machine/Regulate.lean ====
section
/-! DEFINITION. Bandwidth regulators (R421 to R425, R432, R433): the entry that regulates a request, its level, the
order in which waiting requests are admitted, deadlines missed (R420, R430). -/

namespace Sys2Proof.Machine

/-- Bytes that one unit of guarantee refills per µs (R421). -/
def RegQ.refill : RegQ → Nat
  | .pairRead _ | .pairWrite _ => 10
  | _ => 100

/-- Whether a packet carries no CID (R213): it comes from the Zesin complex's stop (R139). The field's 16 bits are all
CIDs (R19), so the source tells (DESIGN CHOICE, log entry 28). Scrub, rebuild, shift and ring act on their lines here
without a packet. -/
def noCid (p : Packet) : Bool := decide (p.src.toNat = 0x282)

/-- DEPTH of an entry (R422). -/
def regDepth (guar refill : Nat) : Nat := max (4 * guar * refill) 256

/-- The group that decodes a data MPA (R167). -/
def State.groupOf (s : State) (mpa : Nat) : Nat :=
  ((s.lp.sh.act.igrp.find? fun e => (e.2.decode mpa).isSome).map (·.1)).getD 64

/-- The regulator entry of a slot for a request of queue `q`, with the key of its level (R432, R433). -/
def State.regEntry (s : State) (q : RegQ) (slot mpa : Nat) : Option (Nat × RegSh) :=
  let mine := fun (lo n : Nat) (dir : Option Bool) (e : Nat × RegSh) =>
    decide (lo ≤ e.1 ∧ e.1 < lo + n) && e.2.valid && decide (e.2.slot.toNat = slot) && decide (dir = none ∨ dir = some e.2.dir)
  match q with
  | .tile t => (s.tile t).nbr.act.regs.find? (mine 0 4 none)
  | .pairRead p | .pairWrite p => s.lp.sh.act.regs.find? (mine (p * 64 + s.groupOf mpa) 1 none)
  | .port p => s.fab.sh.act.regs.find? (mine (p * 32) 32 (some true))

/-- LEVEL of an entry (R433). -/
def State.level (s : State) (q : RegQ) (k : Nat) : Int :=
  match q with
  | .tile t => (Tab.get (fun _ => (0 : Word)) (s.tile t).levels k).toInt
  | .pairRead _ | .pairWrite _ => (Tab.get (fun _ => (0 : Word)) s.lp.levels k).toInt
  | .port _ => (Tab.get (fun _ => (0 : Word)) s.fab.levels k).toInt

def State.setLevel (s : State) (q : RegQ) (k : Nat) (v : Int) : State :=
  let w := BitVec.ofInt 32 v
  match q with
  | .tile t => s.modTile t fun x => { x with levels := Tab.insert x.levels k w }
  | .pairRead _ | .pairWrite _ => s.modLp fun x => { x with levels := Tab.insert x.levels k w }
  | .port _ => s.modFab fun x => { x with levels := Tab.insert x.levels k w }

/-- Whether a request is in guarantee (R422): a level of 64 or more, or a deadline within 2,048 ticks and debt left. -/
def inGuarantee (level : Int) (depth left : Nat) (hasDeadline : Bool) : Bool :=
  decide (64 ≤ level) || (hasDeadline && decide (left < 2048) && decide (-(depth : Int) < level))

/-- Ticks left to a waiting request's deadline. -/
def State.ticksLeft (s : State) (w : RegWait) : Nat := w.since + w.pkt.deadline.toNat - s.now

/-- The entry a request is in guarantee under, if one. -/
def State.guaranteed (s : State) (w : RegWait) : Option (Nat × RegSh) :=
  match s.slotOf w.pkt.cid with
  | none => none
  | some slot =>
    match s.regEntry w.queue slot w.pkt.addr.toNat with
    | none => none
    | some e =>
      if inGuarantee (s.level w.queue e.1) (regDepth e.2.guar.toNat w.queue.refill) (s.ticksLeft w)
          (decide (w.pkt.deadline ≠ 0)) then some e else none

/-- The rank of a request within its composition (R420): deadlines earliest first, then classes, then arrival. -/
def headRank (w : RegWait) : Nat :=
  if w.pkt.deadline ≠ 0 then w.since + w.pkt.deadline.toNat else 2 ^ 128 + (7 - w.pkt.cls.toNat)

/-- The request of the lowest rank, the earliest of equals. -/
def bestOf (rank : RegWait → Nat) : List RegWait → Option RegWait
  | [] => none
  | w :: t => match bestOf rank t with
    | none => some w
    | some v => if rank v < rank w then some v else some w

/-- The head request of each composition that waits. -/
def headsOf (ws : List RegWait) : List RegWait :=
  (ws.map (·.pkt.cid)).eraseDups.filterMap fun c => bestOf headRank (ws.filter fun w => decide (w.pkt.cid = c))

/-- The next request that queue `q` admits of those of `ws` (R423): one without CID, a head in guarantee, else the next
composition's head in slot order. -/
def State.pick (s : State) (q : RegQ) (ws : List RegWait) : Option RegWait :=
  match ws.find? fun w => noCid w.pkt with
  | some w => some w
  | none =>
    let heads := headsOf ws
    match bestOf (·.since) (heads.filter fun w => (s.guaranteed w).isSome) with
    | some w => some w
    | none =>
      let last := ((s.sched.lastSlot.find? fun e => decide (e.1 = q)).map (·.2)).getD 511
      bestOf (fun w => ((s.slotOf w.pkt.cid).getD 511 + 511 - last) % 512) heads

/-- Count a request that takes its entry after its deadline (R420, R430). -/
def State.missed (s : State) (w : RegWait) : State :=
  if w.pkt.deadline ≠ 0 ∧ w.since + w.pkt.deadline.toNat < s.now then
    match s.slotOf w.pkt.cid with
    | some slot => s.modSched fun x => { x with dlmiss := Tab.insert x.dlmiss slot (satInc (Tab.get (fun _ => 0) x.dlmiss slot)) }
    | none => s
  else s

/-- A request takes its queue entry (R422, R423): `flits` of 64 bytes are charged on the guaranteed path. -/
def State.letIn (s : State) (w : RegWait) (flits : Nat) : State :=
  let s := s.modSched fun x => { x with waits := x.waits.filter fun v => decide (v ≠ w) }
  let s := s.missed w
  if noCid w.pkt then s else
  match s.guaranteed w with
  | some e => s.setLevel w.queue e.1 (s.level w.queue e.1 - 64 * (flits : Int))
  | none =>
    match s.slotOf w.pkt.cid with
    | some slot => s.modSched fun x => { x with
        lastSlot := (w.queue, slot) :: x.lastSlot.filter fun e => decide (e.1 ≠ w.queue) }
    | none => s

/-- The regulated queue of a place (R421). -/
def regQueue (pl : Place) (a : Acc) (own : Nat) : RegQ :=
  match pl with
  | .sram t _ => .tile t
  | .dram _ p _ _ => if a = .rd then .pairRead p else .pairWrite p
  | .unbacked => .tile own

/-- The tokens that a request takes (R421, R422): flits at a tile, a line at a pair. -/
def regFlits (q : RegQ) (a : Acc) : Nat :=
  match q with
  | .tile _ => if a = .wr then 2 else 1
  | _ => 1

/-- A unit's own access takes its queue entry (R184): the regulator of its target is charged as for any requester. -/
def State.charge (s : State) (stop : Nat) (cid : Cid) (mpa : Nat) (a : Acc) : State :=
  let p := { zeroPacket with src := BitVec.ofNat 10 stop, cid := cid, addr := BitVec.ofNat 60 mpa }
  let q := regQueue (s.place mpa) a stop
  let at0 := s.now
  s.letIn { queue := q, pkt := p, since := at0 } (regFlits q a)

/-- One µs of refill of an entry (R422). -/
def refillLevel (level : Int) (guar refill : Nat) : Int := min (level + (guar * refill : Nat)) (regDepth guar refill)

/-- The keys of a table, each once. -/
def Tab.keys {α : Type} (t : Tab α) : List Nat := (t.map (·.1)).eraseDups

/-- R422: every valid entry's level grows. -/
def State.refillAll (s : State) : State :=
  let one := fun (q : RegQ) (refill : Nat) (s : State) (k : Nat) (e : RegSh) =>
    if e.valid then s.setLevel q k (refillLevel (s.level q k) e.guar.toNat refill) else s
  let s := s.each (Tab.keys s.tiles) fun s t => s.each (Tab.keys (s.tile t).nbr.act.regs) fun s k =>
    one (.tile t) 100 s k (Tab.get (fun _ => {}) (s.tile t).nbr.act.regs k)
  let s := s.each (Tab.keys s.lp.sh.act.regs) fun s k =>
    one (.pairRead 0) 10 s k (Tab.get (fun _ => {}) s.lp.sh.act.regs k)
  s.each (Tab.keys s.fab.sh.act.regs) fun s k =>
    one (.port 0) 100 s k (Tab.get (fun _ => {}) s.fab.sh.act.regs k)

def execRegulatorRefill (s : State) : Out := .next s.refillAll

end Sys2Proof.Machine
end

