-- ==== Sys2Proof/Machine/Memory.lean ====
section
/-! DEFINITION. Bonded SRAM and LPDDR5X from the inside: clears and scrub of SRAM (R153, R158, R161, R177), patrol scrub
and background windows of the pairs (R177, R178, R488 to R490), check lines (R171), re-encryption and the retirement of
keys (R538 to R541, R544). -/

namespace Sys2Proof.Machine

/-! ### Bonded SRAM -/

/-- R153: the bank rewrites a corrected line. -/
def execSramCorrectedRewrite (t : TileIx) (line : Fin 393216) (s : State) : Out :=
  .next (s.modSrm t.val fun x => { x with rewrite := Tab.erase x.rewrite line.val })

/-- R158, R162: a write of SRM_CLEAR. -/
def State.sramClear (s : State) (t : Nat) (v : Word) : State :=
  let s := s.when (decide (fldN v 18 12 ≠ 0)) fun s => s.modSrm t fun x => { x with err := x.err.reserved }
  let s := s.modSrm t fun x => { x with clearCount := fld v 9 9, clearBase := fld v 0 9 }
  if !bit v 30 then s else
    let n := fldN v 9 9
    let base := fldN v 0 9
    let bad := decide (n = 0) || decide (384 < base + n) || (s.tile t).srm.clearBusy || (s.tile t).shiftBusy ||
      (List.range n).any fun i => (s.gran t (base + i)).valid
    if bad then s.modSrm t fun x => { x with err := x.err.refuse }
    else s.modSrm t fun x => { x with clearBusy := true, clearRun := (base, n) }

def execSramClear (t : TileIx) (v : Word) (s : State) : Out := .next (s.sramClear t.val v)

/-- Granules [base, base + n) of a tile are zero, their poison gone (R155, R158). -/
def State.clearGranules (s : State) (t base n : Nat) : State :=
  let inside := fun (k : Nat) => decide (base * 1024 ≤ k ∧ k < (base + n) * 1024)
  let s := s.clearMem (sramKey t (base * 65536)) (n * 65536)
  s.modSrm t fun x => { x with
    poison := x.poison.filter (fun e => !inside e.1), rewrite := x.rewrite.filter (fun e => !inside e.1),
    staleIcv := x.staleIcv.filter (fun e => !inside e.1) }

def execSramClearDone (t : TileIx) (s : State) : Out :=
  let x := (s.tile t.val).srm
  if x.clearBusy then
    .next ((s.clearGranules t.val x.clearRun.1 x.clearRun.2).modSrm t.val fun x => { x with clearBusy := false })
  else .next s

/-- R161: W1C of SRM_UE. -/
def State.srmUeWrite (s : State) (t : Nat) (v : Word) : State :=
  let s := s.when (decide (fldN v 19 11 ≠ 0)) fun s => s.modSrm t fun x => { x with err := x.err.reserved }
  s.when (bit v 31) fun s => s.modSrm t fun x => { x with ue := { x.ue with valid := false } }
def execSrmUeValidClear (t : TileIx) (v : Word) (s : State) : Out := .next (s.srmUeWrite t.val v)

/-- R177: line POS of each bank is read; `found` names the banks where the read is not clean. -/
def execSramScrub (t : TileIx) (found : List (Fin 32 × Ecc)) (s : State) : Out :=
  let pos := (s.tile t.val).srm.pos.toNat
  let s := s.each found fun s f => (s.sramCheck t.val (pos * 2048 + f.1.val * 64) f.2).2
  .next (s.modSrm t.val fun x =>
    if pos + 1 = 12288 then { x with pos := 0, passes := x.passes + 1 } else { x with pos := x.pos + 1 })

/-! ### Re-encryption (R538 to R541) -/

/-- Regions of a pair (R536). -/
def State.regionCount (s : State) : Nat := if s.big then 122880 else 61440

/-- The MPA of a data line of a physical pair, where a group decodes it (R167, R534). -/
def State.mpaOf (s : State) (p line : Nat) : Option Nat :=
  (s.logPairs p).findSome? fun l => s.lp.sh.act.igrp.findSome? fun e =>
    let g := e.2
    let i := (maskBits g.mask).findIdx (fun q => decide (q = l))
    let u := line / 2 ^ 22
    if g.valid ∧ i < (maskBits g.mask).length ∧ g.off.toNat ≤ u ∧ u < g.off.toNat + g.len.toNat then
      let row := line - g.off.toNat * 2 ^ 22
      some (g.baseGb.toNat * 2 ^ 30 + (row / 4 * g.n.toNat + i) * 256 + row % 4 * 64)
    else none

/-- RMAC of a region (R536): the MACs of its lines. -/
def State.regionMac (s : State) (p region : Nat) : DWord :=
  (List.range 1024).foldl (fun acc i =>
    let line := region * 1024 + i
    match s.mpaOf p line with
    | some m => acc ^^^ s.lineMac (s.region (p * 2 ^ 17 + region)) m line (s.line (pairKey p (line * 64)))
    | none => acc) 0

/-- A line of a pair as its dies hold it (R532, R534): one that lies in no group has no MPA and is not encrypted. -/
def State.storedForm (s : State) (p line : Nat) : Line :=
  let l := s.line (pairKey p (line * 64))
  match s.mpaOf p line with
  | some m => let k := s.lineKey (s.region (regionKey p line)) line; storedLine k.1 m k.2 l
  | none => l
/-- The tag of a data line (R533, R535). -/
def State.tagOf (s : State) (p line : Nat) : Byte :=
  match s.mpaOf p line with
  | some m => (s.lineMac (s.region (regionKey p line)) m line (s.line (pairKey p (line * 64)))).setWidth 8
  | none => 0

/-- A region of a pair starts to re-encrypt under its own key (R538). -/
def State.regionRefresh (s : State) (k : Nat) : State :=
  s.modRegion k fun r => { r with okid := r.kid, obase := r.base, base := r.wc, cursor := 0, re := true }

/-- Retirement goes on with the pair's next region (R541): none while a move runs there. -/
def State.nextMove (s : State) (p : Nat) : State :=
  let busy := s.cry.regions.any fun e => decide (e.1 / 2 ^ 17 = p) && e.2.re && decide (e.2.okid ≠ e.2.kid)
  if busy ∨ !(s.pair p).serves then s else
    match (List.range s.regionCount).find? fun r =>
      let x := s.region (p * 2 ^ 17 + r)
      decide (x.kid ≠ s.cry.curMem) && !x.re && !(s.keyless (p * 2 ^ 17 + r)) with
    | some r => s.regionMove (p * 2 ^ 17 + r)
    | none => s

/-- R538, R540: CURSOR reaches 1,024; what fell due meanwhile starts. -/
def State.reencrypted (s : State) (p region : Nat) : State :=
  let k := p * 2 ^ 17 + region
  let r := s.region k
  if !r.re then s else
    let moved := decide (r.okid ≠ r.kid)
    let s := s.modRegion k fun r => { r with cursor := 1024, re := false }
    let mac := s.regionMac p region
    let s := s.modRegion k fun r => { r with rmac := mac }
    let s := s.when moved fun s => s.kidUsers r.okid false
    let s := s.when (decide ((s.pair p).scrubPos / 1024 = region ∧ (s.pair p).scrubPos % 1024 ≠ 0)) fun s =>
      s.modCry fun c => { c with scrubSkip := Tab.insert c.scrubSkip p true }
    if r.kid ≠ s.cry.curMem ∧ 2 ^ 46 - 2 ^ 24 ≤ r.wc.toNat then
      (s.regionMove k).modCry fun c => { c with exhaust := satInc c.exhaust }
    else if r.wc.toNat < 2 ^ 46 - 2 ^ 24 ∧ 2 ^ 20 ≤ r.wc.toNat - r.base.toNat then s.regionRefresh k
    else s.nextMove p

def execReencryptDone (p : PairIx) (region : Fin 122880) (s : State) : Out := .next (s.reencrypted p.val region.val)

/-- R541: no region uses a retiring key any more. -/
def execKidRetired (k : Fin 64) (s : State) : Out :=
  let x := s.kid k.val
  if x.st = 2 ∧ x.users = 0 then .next ((s.modKid k.val fun x => { x with st := 3 }).log 9 0xFFFF 0 (toBytes 4 (k.val + 256)))
  else .next s

/-! ### Patrol scrub -/

/-- A line of a composition's memory found beyond repair (R482, R483). -/
def State.linePoisoned (s : State) (p line : Nat) : State :=
  match s.mpaOf p line with
  | none => s
  | some m =>
    let o := s.unitOwner (m / 2 ^ 28)
    if o.valid then s.moduleRecords [o.cid] 5 m else s

/-- The check of a region at its last line (R544). -/
def State.regionCheck (s : State) (p region : Nat) (rmac : RmacFact) : State :=
  let k := p * 2 ^ 17 + region
  let skip := Tab.get (fun _ => false) s.cry.scrubSkip p || (s.region k).re || s.keyless k
  let s := s.modCry fun c => { c with scrubSkip := Tab.erase c.scrubSkip p }
  if skip then s else
  match rmac with
  | .agrees => s
  | .replaced l =>
    let line := region * 1024 + l.val
    if s.protected p line then s.storeLine (pairKey p (line * 64)) (s.rebuildLine p line) else s
  | .lost =>
    let s := (s.modCry fun c => { c with rmacFail := satInc c.rmacFail }).pulse 903
    s.each ((List.range 1024).map (· + region * 1024)) fun s l => (s.dramPoison p l).linePoisoned p l

/-- R177, R544: the next line of a pair goes through the read path. -/
def State.patrol (s : State) (p : Nat) (ecc : Ecc) (rmac : RmacFact) : State :=
  let x := s.pair p
  if !x.serves then s else
    let line := x.scrubPos
    let total := if s.big then 2 ^ 27 else 2 ^ 26
    let had := (Tab.find x.poison line).isSome
    let s := (s.dramRead p line ecc).2.2
    let s := s.when (!had && (Tab.find (s.pair p).poison line).isSome) fun s => s.linePoisoned p line
    let s := s.when ((s.region (regionKey p line)).re && decide (line < s.dataLines)) fun s =>
      s.modCry fun c => { c with scrubSkip := Tab.insert c.scrubSkip p true }
    let s := s.when (decide (line < s.dataLines ∧ line % 1024 = 1023)) fun s => s.regionCheck p (line / 1024) rmac
    s.modPair p fun x => { x with scrubPos := (line + 1) % total }

def execLpddrPatrolScrub (p : PairIx) (ecc : Ecc) (rmac : RmacFact) (s : State) : Out := .next (s.patrol p.val ecc rmac)

/-! ### Background windows -/

/-- R177, R178: a refresh takes a cycle its bank leaves idle; it leaves every register and line as it is. -/
def execRefresh (_ch : Fin 384) (s : State) : Out := .next s

/-- R177: ZQ latched, the oscillator and the on-die ECC count read. -/
def execCalibrationWindow (ch : Fin 384) (odecc driftPs : Nat) (s : State) : Out :=
  .next (s.modPair (ch.val / 2) fun p => { p with
    zqLatched := setBit p.zqLatched (ch.val % 2) true, drift := Tab.insert p.drift (ch.val % 2) driftPs,
    odecc := satAdd p.odecc odecc,
    retrainDue := if 5 < driftPs then setBit p.retrainDue (ch.val % 2) true else p.retrainDue })

/-- R177. -/
def execWriteDqRetrain (ch : Fin 384) (s : State) : Out :=
  if (s.pair (ch.val / 2)).retrainDue.getLsbD (ch.val % 2) then
    .next (s.modPair (ch.val / 2) fun p => { p with
      retrainDue := setBit p.retrainDue (ch.val % 2) false, drift := Tab.insert p.drift (ch.val % 2) 0 })
  else .next s

/-- The place of a background item in the table of R489. -/
def bgIndex : BgItem → Nat
  | .refresh => 0
  | .calibration => 1
  | .retrain => 2
  | .patrolScrub => 3
  | .sramScrub => 4
  | .checkWriteback => 5
  | .eye => 8
  | .voltage => 9
  | .logErase => 10
  | .telemetry => 11

/-- R488, R490: an item that reaches its deadline is counted once per period; the item's own row does its work. -/
def execBackgroundDeadline (item : BgItem) (_unit : Nat) (s : State) : Out :=
  let k := bgIndex item
  if s.rcv.bgHit.contains k then .next s else
    .next (s.modRcv fun r => { r with
      bgHit := r.bgHit ++ [k], bgDeadlines := Tab.insert r.bgDeadlines k (Tab.get (fun _ => 0) r.bgDeadlines k + 1) })

/-! ### Check lines (R171) -/

/-- A line of the check cache is dirty: 1,024 of a controller's at most, the oldest written back first. -/
def checkDirty (now p line : Nat) (ds : List CheckDirty) : List CheckDirty :=
  if ds.any fun d => decide (d.pair = p ∧ d.line = line) then ds else
    let mine := ds.filter fun d => decide (d.pair / 4 = p / 4)
    let ds := if 1024 ≤ mine.length then ds.filter fun d => decide (some d ≠ mine.head?) else ds
    ds ++ [⟨p, line, now + 4096⟩]

/-- R171, R172: the oldest delta of a half reaches its check line; one whose check line lies on a failed die is lost. -/
def State.checkDelta (s : State) (h : Nat) : State :=
  match s.lp.deltas.find? fun d => decide (d.half = h) with
  | none => s
  | some d =>
    let rest := fun (ds : List Delta) => ds.eraseP fun x => decide (x.half = h)
    let s := s.modLp fun m => { m with deltas := rest m.deltas }
    let c := s.checkPlace (d.half * 96 + d.slot) d.line
    if (s.pair c.1).failed then s else
      let key := pairKey c.1 (c.2 * 64)
      let at0 := s.now
      (s.storeLine key (s.line key ^^^ d.xor)).modLp fun m => { m with dirty := checkDirty at0 c.1 c.2 m.dirty }

def execCheckLineWriteback (p : PairIx) (line : Nat) (s : State) : Out :=
  .next (s.modLp fun m => { m with dirty := m.dirty.filter fun d => decide (¬ (d.pair = p.val ∧ d.line = line)) })

/-- R178: the check lines of a half are computed again; its stripes are protected from here on. A failed die counts as
zero in them, and what its lines held is lost. -/
def State.recompute (s : State) (h : Nat) : State :=
  let inHalf := fun (k : Nat) => decide (h * 96 * 2 ^ 33 ≤ k ∧ k < (h + 1) * 96 * 2 ^ 33)
  let listed := (s.mem.filter fun c => inHalf c.1 && decide (c.1 / 64 % 2 ^ 27 < s.c0)).map fun c => (c.1 / 2 ^ 33, c.1 / 64 % 2 ^ 27)
  let stripes := (listed.map fun x => (x.1 % 4, x.2)).eraseDups
  let s := s.each (List.range 96) fun s i =>
    s.clearMem (pairKey (h * 96 + i) (s.c0 * 64)) ((if s.big then 2 ^ 33 else 2 ^ 32) - s.c0 * 64)
  let s := s.modLp fun m => { m with
    deltas := m.deltas.filter fun d => decide (d.half ≠ h), dirty := m.dirty.filter fun d => decide (d.pair / 96 ≠ h) }
  let s := s.each stripes fun s x =>
    let p0 := h * 96 + x.1
    let c := s.checkPlace p0 x.2
    let members := ((List.range 24).map fun k => h * 96 + k * 4 + x.1).filter fun p => !(s.pair p).failed
    s.storeLine (pairKey c.1 (c.2 * 64)) (xorLines (members.map fun p => s.line (pairKey p (x.2 * 64))))
  let c0 := s.c0
  let s := s.each (((List.range 96).map (· + h * 96)).filter fun p => (s.pair p).failed) fun s p =>
    s.modPair p fun x => { x with gone := [(0, c0)] }
  s.modLp fun m => { m with stale := Tab.erase m.stale h }

def execCheckRecomputeDone (h : Half) (s : State) : Out :=
  if Tab.get (fun _ => false) s.lp.stale h.val then .next (s.recompute h.val) else .next s

/-- R178, R189, R245: MR4 reports a rate; 3 is no rate. -/
def execMr4RateChange (p : PairIx) (rate : BitVec 2) (s : State) : Out :=
  if rate = 3 ∨ (s.pair p.val).refRate = rate then .next s else
    let s := s.modPair p.val fun x => { x with refRate := rate }
    .next (s.each (s.logPairs p.val) fun s l => s.regauge (.pair l))

end Sys2Proof.Machine
end

