-- ==== Sys2Proof/Machine/Parser.lean ====
section
/-! DEFINITION. The queue parser: ring reads and the acceptance of packets (R363 to R368), the start and the end of
LAUNCH, SIGNAL, WAIT, FREE, FAULT.ACK, NOP (R369 to R371), and the ends of waits by limit and by borrowed time (R372,
R374). -/

namespace Sys2Proof.Machine

/-! ### The form of a packet (R200, R366, R368) -/

/-- Whether a packet is malformed (step 2 of R367). -/
def pktBad (p : BitVec 256) : Bool :=
  let f := pktF p
  let z := fun (byte lo w : Nat) => decide (f byte lo w ≠ 0)
  let dva := fun (byte al : Nat) => decide (2 ^ 57 ≤ f byte 0 64) || decide (f byte 0 64 % al ≠ 0)
  let fence := z 0x0C 0 32 || z 0x18 0 64
  z 1 3 5 || z 2 12 4 ||
  match pktOpc p with
  | 0x01 =>
    dva 8 64 || z 0x10 9 7 || z 0x12 10 6 || decide (f 0x12 0 10 = 0) || decide (512 < f 0x10 0 9 + f 0x12 0 10) ||
    decide (f 0x14 0 32 % 8 ≠ 0) || decide (8 < f 0x18 0 4) || z 0x18 4 28
  | 0x02 => fence
  | 0x03 => z 0x0E 0 16 || z 0x18 0 64
  | 0x04 => dva 8 64 || decide (47 < f 0x10 0 6) || z 0x10 6 26 || z 0x1C 0 32
  | 0x05 => z 0x0C 0 32 || z 0x10 0 128
  | 0x06 => z 0x0C 0 32 || z 0x10 0 128
  | 0x07 => z 0x08 0 192
  | 0x10 =>
    z 8 57 7 || z 8 0 12 || decide (f 0x10 0 32 = 0) || z 0x14 28 4 || z 0x14 4 12 || z 0x14 0 1 ||
    decide (f 0x14 2 2 = 3) || z 0x18 0 64
  | 0x11 => fence
  | _ => true

/-- The handles of a packet that take a reference: handle and kind (R360, R368). -/
def pktHandles (p : BitVec 256) : List (Nat × Nat) :=
  let hold := fun (byte : Nat) => if pktF p byte 0 32 = 0 then [] else [(pktF p byte 0 32, 1)]
  match pktOpc p with
  | 0x01 => hold 0x1C
  | 0x02 | 0x03 | 0x11 => [(pktF p 8 0 32, 2)]
  | 0x04 => hold 0x14 ++ hold 0x18
  | _ => []

/-! ### Accepting a packet (R367) -/

/-- A packet ends without having been accepted. -/
def State.endPacket (s : State) (e : Nat) (index : Word) (p : BitVec 256) (status info : Nat) : State :=
  s.completionWrite e index (pktTag p) status info (pktIrq p)

/-- The first handle of a list that does not resolve: status and handle. -/
def State.badHandle (s : State) (cid : Cid) (hs : List (Nat × Nat)) : Option (Nat × Nat) :=
  hs.findSome? fun h =>
    match s.resolve cid (BitVec.ofNat 32 h.1) h.2 with
    | .ok _ _ => none
    | .stale => some (5, h.1)
    | .bad => some (6, h.1)

/-- Whether a context's fault is held (R378). -/
def State.stalledCtx (s : State) (cid : Cid) (ctx : Ctx) : Bool :=
  match s.resOf cid ctx with
  | some r => (s.resRo r).stalled
  | none => false

/-- The steps of R367 for one packet: none where a reference has to wait (R360). A FREE without AFTER sets FREEING as it
is fetched (R361). -/
def State.fetchOne (s : State) (e : Nat) (index : Word) (p : BitVec 256) : Option State :=
  let q := s.qSh e
  let cid := s.qCid e
  let ctx := pktCtx p
  let l := s.lease cid
  let opc := pktOpc p
  if l.st ≠ .held ∨ l.epoch ≠ q.lease then some (s.endPacket e index p 3 l.epoch.toNat)
  else if pktBad p then some (s.endPacket e index p 1 0)
  else
    let res := s.resOf cid ctx
    let lost := match res with
      | some r => (s.resRo r).lost
      | none => false
    if lost then some (s.endPacket e index p 2 0)
    else if res.isNone ∧ opc ≠ 6 ∧ opc ≠ 7 then
      let at0 := s.cad.elapsed
      some ((s.endPacket e index p 4 0).modSched fun x => { x with notRes := x.notRes ++ [(cid, ctx, at0)] })
    else
      let free := if opc = 5 then [(pktF p 8 0 32, 0)] else []
      match s.badHandle cid (pktHandles p ++ free) with
      | some (st, h) => some ((s.endPacket e index p st h).queueFault e st { index := index, pkt := p } h)
      | none =>
        let refs := (pktHandles p).map fun h => h.1 % 2 ^ 24
        let fits := refs.all fun i => match s.objEntry cid i with
          | some x => decide (x.refs + (refs.filter fun j => decide (j = i)).length ≤ 0xFFFFFF)
          | none => true
        if !fits then none else
          let s := s.each refs fun s i => s.takeRef cid i
          let now := opc = 5 ∧ !(pktAfter p)
          let i := pktF p 8 0 24
          let s := if now then
              match s.objEntry cid i with
              | some x => s.objSetState cid i 2 x.gen
              | none => s
            else s
          let c : QCmd := { index := index, pkt := p, refs := refs, st := if now then .freeing else .waiting }
          some (s.modQ e fun r => { r with cmds := r.cmds ++ [c] })

/-- Packets in ring order until one has to wait or the queue leaves RUNNING: how many were taken. -/
def State.fetchAll (s : State) (e : Nat) : Word → List (BitVec 256) → Nat × State
  | _, [] => (0, s)
  | index, p :: t =>
    if (s.qRo e).st ≠ .running then (0, s) else
      match s.fetchOne e index p with
      | none => (0, s)
      | some s' =>
        let r := s'.fetchAll e (index + 1) t
        (r.1 + 1, r.2)

/-- One packet of the ring, read through QCTX: none where the read faults. `far` is what a host or another module
returns for it. -/
def State.ringPacket (s : State) (e : Nat) (index : Word) (far : Option (BitVec 256)) : Option (BitVec 256) :=
  let q := s.qSh e
  let cid := s.qCid e
  let dva := q.ring.toNat + 32 * (index.toNat % 2 ^ q.sizeLog2.toNat)
  match s.walk cid q.qctx dva with
  | .hit x =>
    match x.target dva with
    | .localMpa m =>
      let r := s.mpaWord { Who.of cid q.qctx with boot := true } m 32
      if r.1 = 0 then some (BitVec.ofNat 256 r.2) else none
    | .host _ => if (s.hostWay cid).isSome then far else none
    | .window _ => far
  | _ => none

/-- R363, R364: one read of at most 8 packets, the packets handled, the status line written. `packets` is what the ring
holds where it does not lie in the module's own memory, `ok` whether that read was answered. -/
def execRingFetch (e : QEntry) (packets : List (BitVec 256)) (ok : Bool) (s : State) : Out :=
  let r := s.qRo e.val
  let n := min packets.length (min 8 (r.tail - r.head).toNat)
  if r.st ≠ .running ∨ n = 0 ∨ s.recovering (e.val / 16 / 272) ∨ s.cidStalled (s.qCid e.val) then .next s else
    let got := (List.range n).map fun k =>
      s.ringPacket e.val (r.head + BitVec.ofNat 32 k) (if ok then packets[k]? else none)
    if got.any Option.isNone then .next (s.breakQueue e.val r.head.toNat) else
      let x := s.fetchAll e.val r.head (got.filterMap id)
      let s := x.2.modQ e.val fun r => { r with head := r.head + BitVec.ofNat 32 x.1 }
      let w := s.statusWrite e.val
      .next (if w.1 then w.2 else w.2.breakQueue e.val (s.qRo e.val).head.toNat)

/-! ### Starting in ring order (R369) -/

/-- The command of a queue, where it may start now. -/
def State.startDue (s : State) (e : Nat) (index : Word) (opc : Nat) : Option QCmd :=
  match s.cmd e index with
  | none => none
  | some c =>
    let before := (s.qRo e).cmds.takeWhile fun d => decide (d.index ≠ index)
    if c.st = .waiting ∧ pktOpc c.pkt = opc ∧ before.all (fun d => decide (d.st ≠ .waiting)) ∧
        !before.any (fun d => decide (pktOpc d.pkt = 3)) ∧ (pktAfter c.pkt → before = []) ∧
        !s.recovering (e / 16 / 272) ∧ !s.cidStalled (s.qCid e) ∧ !s.stalledCtx (s.qCid e) (pktCtx c.pkt) then some c
    else none

/-- A command has started. -/
def State.started (s : State) (e : Nat) (index : Word) : State :=
  let at0 := s.now
  s.modCmd e index fun c => { c with st := .started, startedAt := at0 }

/-! ### Accesses of commands and jobs (R208, R218) -/

/-- A fault of a command's own access. -/
def State.cmdFault (s : State) (e : Nat) (index : Word) (unit : Nat) (f : XFault) : State :=
  match s.cmd e index with
  | some c => (s.modCmd e index fun c => { c with faulted := true }).xlatFaultUnit (s.qCid e) (pktCtx c.pkt) unit f
  | none => s

/-- A target refuses a command's or job's access, or its line is lost (R129, R153, R214). -/
def State.cmdRefused (s : State) (e : Nat) (index : Word) (status cls : Nat) : State :=
  match s.cmd e index with
  | none => s
  | some c =>
    let f := statusFault status cls none
    let s := s.modCmd e index fun c => { c with faulted := true }
    let s := if f.1 = 5 then s.countLost (s.qCid e) else s
    s.ctxFault (s.qCid e) (pktCtx c.pkt) 1 f.1 (toBytes 2 f.2 ++ toBytes 2 0x3FF ++ toBytes 4 0 ++ toBytes 4 0) none

/-- The whole-access check of a command or job: its pages where it may go on; else the state after its fault, or with a
page request out, after whose answer the command is tried again (R205, R207). -/
def State.cmdAccess (s : State) (e : Nat) (c : QCmd) (unit : Nat) (spans : List Span) : Option (List XEntry) × State :=
  let cid := s.qCid e
  let ctx := pktCtx c.pkt
  let k := visitSpans (fun dva => some (s.walk cid ctx dva)) spans
  match k.fault with
  | some f => (none, (s.countWalk (e / 16 / 272) cid ctx f.dva f.reason f.level).cmdFault e c.index unit f)
  | none =>
    match k.mig with
    | none =>
      -- counted once, by the access that the page held up (R205)
      let mine := k.entries.any fun x => decide (x.base ≤ c.mig.1 ∧ c.mig.1 < x.base + 2 ^ x.log2)
      (some k.entries, if c.mig.2 = 0 ∨ !mine then s else
        let s := s.modCmd e c.index fun c => { c with mig := (0, 0) }
        match s.slotOf cid with
        | some slot => s.modXlt fun x => { x with migCnt := Tab.insert x.migCnt slot (Tab.get (fun _ => 0) x.migCnt slot + 1) }
        | none => s)
    | some m =>
      if s.xlt.mig.any fun r => decide (r.cmd = some (e, c.index)) then (none, s) else
      let hit := spans.filter fun sp => decide (sp.at_ < m.1 + 2 ^ m.2.1 ∧ m.1 < sp.at_ + sp.len)
      let sp := hit.headD { at_ := m.1, len := 1, acc := .rd, priv := false, row := 0 }
      let f := fun (reason : Nat) => (⟨max m.1 sp.at_, reason, (m.2.1 - 12) / 9, m.2.2, sp.acc, sp.priv, sp.row, sp.at_⟩ : XFault)
      let tries := if c.mig.1 = m.1 then c.mig.2 else 0
      if 8 ≤ tries then (none, s.cmdFault e c.index unit (f 0x0C)) else
      match s.migWay cid ctx with
      | none => (none, s.cmdFault e c.index unit (f 8))
      | some hf =>
        let r : MigReq := { tile := 0x3FF, cid := cid, ctx := ctx, page := m.1, rd := hit.any fun x => decide (x.acc ≠ .wr),
                            wr := hit.any fun x => decide (x.acc ≠ .rd), hport := hf.1, func := hf.2, tries := tries,
                            body := xlatBody (f 0) unit 0 0x3FF 0, cmd := some (e, c.index) }
        (none, (s.modXlt fun x => { x with mig := x.mig ++ [r] }).sendPage hf.1 hf.2)

/-- A host request of the module's own units goes out on the composition's function. -/
def State.unitHostRead (s : State) (cid : Cid) (ctx : Ctx) (a : Nat) : State :=
  match s.boundFunc cid with
  | some hf => 
    let s := s.atsAsk hf.1 hf.2 (s.pasidOf cid ctx) (a / 4096)
    let out := s.asSent hf.1 hf.2 (some (s.pasidOf cid ctx)) false (BitVec.ofNat 64 a)
    s.emit (.hostRead hf.1 hf.2 out.2 (s.freeHostTag hf.1) out.1)
  | none => s

/-- The line that holds a DVA: STATUS, line, state. `far` is what the host or the other module returns. -/
def State.unitLine (s : State) (cid : Cid) (ctx : Ctx) (es : List XEntry) (dva : Nat) (ecc : Ecc) (far : Completion) :
    Nat × Line × State :=
  let ans : Nat × Line := match far with
    | .ok l => (0, l)
    | .refused | .translation _ _ => (1, 0)
    | .poisoned => (3, 0)
  match targetOf es dva with
  | none => (2, 0, s)
  | some (.localMpa m) => s.readMpa { Who.of cid ctx with boot := true } false m ecc
  | some (.window _) => (ans.1, ans.2, s)
  | some (.host a) =>
    if (s.hostWay cid).isNone then (7, 0, s) else (ans.1, ans.2, s.unitHostRead cid ctx (a / 64 * 64))

/-- The class of R212 of a DVA's target. -/
def State.clsOf (s : State) (es : List XEntry) (dva : Nat) : Nat :=
  match targetOf es dva with
  | some t => t.cls s
  | none => 1

/-! ### LAUNCH -/

/-- The bank of a context on a tile. -/
def State.bankOf (s : State) (t : Nat) (cid : Cid) (ctx : Ctx) : Option Nat :=
  [0, 1, 2, 3].find? fun b =>
    let k := s.bank t b
    decide (k.st ≠ .empty ∧ k.st ≠ .purging) && decide (k.cid = cid) && decide (k.ctx = ctx)

/-- R369: every named tile holds a bank of the context, or the launch ends. -/
def execLaunch (e : QEntry) (index : Word) (s : State) : Out :=
  match s.startDue e.val index 1 with
  | none => .next s
  | some c =>
    let ctx := pktCtx c.pkt
    let tiles := (List.range (pktF c.pkt 0x12 0 10)).map fun i =>
      match s.physTile (pktF c.pkt 0x10 0 9 + i) with
      | some t => (s.bankOf t (s.qCid e.val) ctx).map fun b => (t, b)
      | none => none
    if tiles.any Option.isNone then
      let cid := s.qCid e.val
      let at0 := s.cad.elapsed
      .next ((s.complete e.val index 4 0 true).modSched fun x => { x with notRes := x.notRes ++ [(cid, ctx, at0)] })
    else .next ((s.started e.val index).modCmd e.val index fun c => { c with toStart := tiles.filterMap id })

/-- A bank starts a program: its argument words, its entry (R115). -/
def Bank.begin (k : Bank) (entry : Nat) (args : List Nat) : Bank :=
  let k := (List.range 8).foldl (fun k i => k.setS i (BitVec.ofNat 64 (args.getD i 0))) k
  { k with pc := BitVec.ofNat 22 (entry / 8), inProg := true }

/-- R369: a launch starts on one tile. `far` is the argument line where it does not lie in the module. -/
def State.launchStart (s : State) (e : Nat) (index : Word) (t : Nat) (far : Completion) : State :=
  match s.cmd e index with
  | none => s
  | some c =>
    let before := (s.qRo e).cmds.takeWhile fun d => decide (d.index ≠ index)
    match c.toStart.find? fun x => decide (x.1 = t) with
    | none => s
    | some x =>
      let k := s.bank t x.2
      let busy := before.any fun d => d.toStart.contains x || d.running.contains x
      if k.st ≠ .loaded ∨ k.inProg ∨ busy ∨ s.recovering (t / 272) ∨ s.cidStalled k.cid ∨ s.stalledCtx k.cid k.ctx then s else
      let n := pktF c.pkt 0x18 0 4
      let dva := pktF c.pkt 8 0 64 + 64 * ((s.logTile t).getD 0 - pktF c.pkt 0x10 0 9)
      let go := fun (s : State) (args : List Nat) =>
        let s := s.modBank t x.2 fun k => k.begin (pktF c.pkt 0x14 0 32) args
        s.modCmd e index fun c => { c with toStart := c.toStart.filter fun y => decide (y ≠ x), running := c.running ++ [x] }
      if n = 0 then go s [] else
      let r := s.cmdAccess e c 4 [{ at_ := dva, len := 8 * n, acc := .rd, priv := false, row := 0 }]
      match r.1 with
      | none => r.2
      | some es =>
        let l := r.2.unitLine k.cid k.ctx es dva .clean far
        if l.1 ≠ 0 then l.2.2.cmdRefused e index l.1 (s.clsOf es dva)
        else go l.2.2 ((List.range n).map fun i => lineGet l.2.1 (8 * i) 8)

def execLaunchTileStart (e : QEntry) (index : Word) (t : TileIx) (far : Completion) (s : State) : Out :=
  .next (s.launchStart e.val index t.val far)

/-! ### SIGNAL, WAIT, FREE, FAULT.ACK, NOP -/

/-- A queue command whose fence is out of reach ends with Q_BAD_HANDLE and loses its context (R372). -/
def State.cmdBadHandle (s : State) (e : Nat) (c : QCmd) : State :=
  (s.complete e c.index 6 (pktF c.pkt 8 0 32) true).queueFault e 6 c (pktF c.pkt 8 0 32)

/-- R369, R371: the signal acts when every earlier command of the queue has completed. -/
def execSignalCmd (e : QEntry) (index : Word) (s : State) : Out :=
  match s.startDue e.val index 2 with
  | none => .next s
  | some c =>
    if ((s.qRo e.val).cmds.takeWhile fun d => decide (d.index ≠ index)) ≠ [] then .next s else
    match s.signalRef (s.qCid e.val) (pktF c.pkt 8 0 24) (pktF c.pkt 0x10 0 64) with
    | some (0, s) => .next (s.complete e.val index 0 0 true)
    | some (_, s) => .next (s.complete e.val index 8 0 true)
    | none => .next (s.cmdBadHandle e.val c)

/-- R369, R372. -/
def execWaitCmd (e : QEntry) (index : Word) (s : State) : Out :=
  match s.startDue e.val index 3 with
  | none => .next s
  | some c =>
    let cid := s.qCid e.val
    let i := pktF c.pkt 8 0 24
    let target := pktF c.pkt 0x10 0 64
    match s.objEntry cid i with
    | none => .next (s.cmdBadHandle e.val c)
    | some x =>
      match s.syncLine cid x with
      | none => .next (s.cmdBadHandle e.val c)
      | some (m, l) =>
        if target ≤ lineGet l 0 8 then .next ((s.started e.val index).complete e.val index 0 0 true)
        else if !s.refFits cid i then .next s
        else
          let s := (s.started e.val index).takeRef cid i
          let w : SyncEntry := { half := (s.place m).half, who := .queue e.val index, cid := cid, ctx := pktCtx c.pkt,
                                 key := s.syncKey m, target := BitVec.ofNat 64 target, obj := i, startedAt := s.now }
          .next (s.modQue fun q => { q with waits := q.waits ++ [w] })

/-- R369: TIMEOUT passes: the command ends with Q_TIMEOUT, recorded, and the queue is STOPPED. -/
def execQueueWaitTimeout (e : QEntry) (index : Word) (s : State) : Out :=
  match s.cmd e.val index with
  | none => .next s
  | some c =>
    if pktOpc c.pkt ≠ 3 ∨ c.st ≠ .started ∨ pktF c.pkt 0x0C 0 16 = 0 ∨
        s.now < c.startedAt + pktF c.pkt 0x0C 0 16 * period then .next s else
      let s := s.complete e.val index 7 0 true
      let s := s.queueRecord e.val 7 index.toNat (pktTag c.pkt) 0 c.pkt (pktCtx c.pkt)
      .next (s.setQueue e.val .stopped)

/-- R361: the object is FREEING; with no reference left it is FREE. -/
def execFreeObj (e : QEntry) (index : Word) (s : State) : Out :=
  let cid := s.qCid e.val
  match s.startDue e.val index 5 with
  | some c =>
    let i := pktF c.pkt 8 0 24
    match s.resolve cid (BitVec.ofNat 32 (pktF c.pkt 8 0 32)) 0 with
    | .ok _ x =>
      let s := s.modCmd e.val index fun c => { c with st := .freeing }
      .next ((s.objSetState cid i 2 x.gen).freeDone cid i)
    | .stale => .next ((s.complete e.val index 5 (pktF c.pkt 8 0 32) true).queueFault e.val 5 c (pktF c.pkt 8 0 32))
    | .bad => .next (s.cmdBadHandle e.val c)
  | none =>
    match s.cmd e.val index with
    | some c => if c.st = .freeing then .next (s.freeDone cid (pktF c.pkt 8 0 24)) else .next s
    | none => .next s

/-- R369, R378: records before SEQ are consumed; room that returns lets held faults out. -/
def State.faultAck (s : State) (e : Nat) (c : QCmd) : State :=
  let slot := (s.qSh e).slot.toNat
  let cid := s.qCid e
  let f := s.fqRo slot
  let seq := BitVec.ofNat 32 (pktF c.pkt 8 0 32)
  let s := s.started e c.index
  if (f.next - f.acked).toNat < (seq - f.acked).toNat then s.complete e c.index 1 0 true
  else
    let s := s.modFq slot fun x => { x with acked := seq }
    let freed := decide (seq ≠ f.acked)
    let mine := fun (r : Nat) => (s.resSh r).valid && decide ((s.resSh r).cid = cid)
    let s := s.when freed fun s => (s.modFq slot fun x => { x with movf := false }).modQue fun q =>
      { q with res := q.res.map fun (x : Nat × ResRo) => if mine x.1 then (x.1, { x.2 with ovf := false }) else x }
    let s := s.complete e c.index 0 0 true
    s.drainHeld slot cid s.que.res.length

def execFaultAck (e : QEntry) (index : Word) (s : State) : Out :=
  match s.startDue e.val index 6 with
  | none => .next s
  | some c => .next (s.faultAck e.val c)

def execQueueNop (e : QEntry) (index : Word) (s : State) : Out :=
  match s.startDue e.val index 7 with
  | none => .next s
  | some _ => .next ((s.started e.val index).complete e.val index 0 0 true)

/-! ### Waits that end by time (R372, R374) -/

/-- The wait entry of a bank. -/
def State.bankWait (s : State) (t b : Nat) : Option SyncEntry := s.que.waits.find? fun w => decide (w.who = .bank t b)

/-- R372. -/
def execWaitLimitExpiry (t : TileIx) (b : BankIx) (s : State) : Out :=
  match s.bankWait t.val b.val with
  | some w =>
    let limit := match s.resOf w.cid w.ctx with
      | some r => (s.resSh r).waitLimit.toNat
      | none => 0
    if s.now < w.startedAt + limit * period then .next s else .next (s.waitEnds w 1)
  | none => .next s

/-- HOLDOFF and BUDGET of the semaphore a wait entry is on, and its owner, where it has one (R373). -/
def State.semOwner (s : State) (w : SyncEntry) : Option (Nat × Nat × Ctx) :=
  match s.objEntry w.cid w.obj with
  | none => none
  | some x =>
    match s.syncLine w.cid x with
    | none => none
    | some (_, l) =>
      let own := lineGet l 4 2
      if own / 2 ^ 15 = 1 then some (lineGet l 6 2, lineGet l 8 2, BitVec.ofNat 12 own) else none

/-- R374 items 1 and 6: the count has reached HOLDOFF. -/
def execSemaphoreBorrowStart (t : TileIx) (b : BankIx) (s : State) : Out :=
  match s.bankWait t.val b.val with
  | none => .next s
  | some w =>
    match s.semOwner w with
    | none => .next s
    | some (holdoff, budget, _) =>
      if w.isSem ∧ holdoff ≠ 0 ∧ budget ≠ 0 ∧ holdoff ≤ w.granted ∧ !w.borrowing then
        .next (s.modQue fun q => { q with waits := q.waits.map fun x => if x = w then { x with borrowing := true } else x })
      else .next s

/-- R374 item 5: the budget is spent. -/
def execBorrowBudgetExpiry (t : TileIx) (b : BankIx) (s : State) : Out :=
  match s.bankWait t.val b.val with
  | none => .next s
  | some w =>
    match s.semOwner w with
    | none => .next s
    | some (_, budget, _) => if w.borrowing ∧ budget ≤ w.borrowed then .next (s.waitEnds w 1) else .next s

end Sys2Proof.Machine
end

