-- ==== Sys2Proof/Machine/Translate.lean ====
section
/-! DEFINITION. Translation commands (R200 to R203, R211): XLT.INV, XLT.SYNC and its end. -/

namespace Sys2Proof.Machine

/-- What an XLT.INV covers (R200): composition, context, scope, first byte and end of its range. -/
structure InvRange where
  cid : Cid
  ctx : Ctx
  scope : Nat
  lo : Nat
  hi : Nat
  walk : Bool
deriving DecidableEq, Repr

/-- The range of a packet of a composition's queue. -/
def invRange (cid : Cid) (p : BitVec 256) : InvRange :=
  let lo := pktF p 8 0 57
  { cid := cid, ctx := BitVec.ofNat 12 (pktF p 0x14 16 12), scope := pktF p 0x14 2 2, lo := lo, hi := lo + pktF p 0x10 0 32 * 4096,
    walk := decide (pktF p 0x14 1 1 = 1) }

/-- Whether an invalidation covers `len` bytes at `dva` of a context (R201). -/
def InvRange.hits (r : InvRange) (cid : Cid) (ctx : Ctx) (dva len : Nat) : Bool :=
  decide (cid = r.cid) && (decide (r.scope = 2) || (decide (ctx = r.ctx) &&
    (decide (r.scope = 1) || decide (dva < r.hi ∧ r.lo < dva + len))))

/-- Whether it drops a look-aside entry: any page of a run drops the run. -/
def InvRange.drops (r : InvRange) (e : XEntry) : Bool := r.hits e.cid e.ctx e.base (2 ^ e.log2)

/-- Whether it drops a walk-cache entry (R200): WALK set, the entry in its scope, its DVA range over the range; the
context-table entry of the context goes whatever the range. -/
def InvRange.dropsWalk (r : InvRange) (e : WalkEntry) : Bool :=
  r.walk && (if e.level = 5 then decide (e.cid = r.cid) && (decide (r.scope = 2) || decide (e.ctx = r.ctx))
    else r.hits e.cid e.ctx (e.prefix_ * 2 ^ levelLog2 e.level) (2 ^ levelLog2 e.level))

/-- R201, R202, R211: entries are dropped from both halves and every tile; requests translated through them, running
copies and jobs over them are marked for the SYNC of the same queue. -/
def State.invalidate (s : State) (r : InvRange) (mark : Nat × Word) : State :=
  let keep := fun (es : List XEntry) => es.filter fun e => !r.drops e
  let s := s.modXlt fun x => { x with
    look := x.look.map fun (e : Nat × List XEntry) => (e.1, keep e.2),
    wcache := x.wcache.map fun (e : Nat × List WalkEntry) => (e.1, e.2.filter fun w => !r.dropsWalk w) }
  let chan := fun (c : Nat × Chan) =>
    if !c.2.link && decide (c.2.st = .active ∨ c.2.st = .paused) && c.2.pages.any r.drops
    then (c.1, { c.2 with dropped := c.2.dropped ++ [mark] }) else c
  let tile := fun (t : Nat × Tile) => (t.1, { t.2 with look := keep t.2.look, chans := t.2.chans.map chan })
  let s := { s with tiles := s.tiles.map tile }
  let req := fun (e : Nat × MeshReq) =>
    match e.2.via with
    | some v => if r.hits e.2.pkt.cid e.2.pkt.ctx v.1 (2 ^ v.2) then (e.1, { e.2 with dropped := e.2.dropped ++ [mark] }) else e
    | none => e
  let s := s.modMesh fun m => { m with reqs := m.reqs.map req }
  let job := fun (j : Job) => if j.pages.any r.drops then { j with dropped := j.dropped ++ [mark] } else j
  s.modLp fun m => { m with jobs := m.jobs.map job }

def execXltInv (e : QEntry) (index : Word) (s : State) : Out :=
  match s.startDue e.val index 0x10 with
  | none => .next s
  | some c => .next ((s.invalidate (invRange (s.qCid e.val) c.pkt) (e.val, index)).complete e.val index 0 0 true)

/-- R202: the SYNC starts; the invalidations before it in its queue have been processed (R369). -/
def execXltSync (e : QEntry) (index : Word) (s : State) : Out :=
  match s.startDue e.val index 0x11 with
  | none => .next s
  | some _ => .next (s.started e.val index)

/-- Whether a mark belongs to an invalidation before ring index `index` of queue `e`. -/
def earlierMark (e : Nat) (index : Word) (m : Nat × Word) : Bool :=
  decide (m.1 = e) && decide (m.2 ≠ index) && decide ((index - m.2).toNat < 2 ^ 31)

/-- Whether something that a SYNC waits for is still under way. -/
def State.syncHeld (s : State) (e : Nat) (index : Word) : Bool :=
  s.mesh.reqs.any (fun r => r.2.dropped.any (earlierMark e index)) ||
  s.tiles.any (fun t => t.2.chans.any fun c => decide (c.2.st = .active ∨ c.2.st = .paused) && c.2.dropped.any (earlierMark e index)) ||
  s.lp.jobs.any (fun j => j.dropped.any (earlierMark e index))

/-- R202: the conditions hold, and the fence is signalled. -/
def execXltSyncDone (e : QEntry) (index : Word) (s : State) : Out :=
  match s.cmd e.val index with
  | none => .next s
  | some c =>
    if pktOpc c.pkt ≠ 0x11 ∨ c.st ≠ .started ∨ s.syncHeld e.val index then .next s else
    match s.signalRef (s.qCid e.val) (pktF c.pkt 8 0 24) (pktF c.pkt 0x10 0 64) with
    | some (_, s) => .next (s.complete e.val index 0 0 true)
    | none => .next (s.cmdBadHandle e.val c)

end Sys2Proof.Machine
end

