-- ==== Sys2Proof/Machine/Coder.lean ====
section
/-! DEFINITION. Coder and trim jobs (R179 to R183, R108, R109, R111): the start of a job, the coded region, the end of
the job. -/

namespace Sys2Proof.Machine

/-! ### The descriptor (R179) -/

def jOp (d : Line) : Nat := dF d 0 0 8
def jFmt (d : Line) : Nat := dF d 1 0 4
def jSrc (d : Line) : Nat := dF d 8 0 64
def jDst (d : Line) : Nat := dF d 0x10 0 64
def jLen (d : Line) : Nat := dF d 0x18 0 64
def jFirst (d : Line) : Nat := dF d 0x20 0 32

/-- Whether a descriptor is refused (R180, STATUS 0x1). -/
def jBad (d : Line) : Bool :=
  let op := jOp d
  decide (op = 0 ∨ 4 < op) || decide (dF d 1 4 4 ≠ 0) || decide (dF d 2 0 16 ≠ 0) || decide (dF d 0x30 0 128 ≠ 0) ||
  decide (op ≠ 2 ∧ jFirst d ≠ 0) || decide (jSrc d % 64 ≠ 0 ∨ jDst d % 64 ≠ 0) ||
  decide (op = 1 ∧ 0xA < jFmt d) || decide (op = 3 ∧ 4 < jFmt d) || decide (op = 4 ∧ 2 < jFmt d)

/-- `n` rounded up to a multiple of `k`, in units of `k`. -/
def ceilDiv (n k : Nat) : Nat := (n + k - 1) / k

/-- Frames of raw bytes (R182). -/
def framesOf (raw : Nat) : Nat := ceilDiv raw 4096
/-- Raw bytes of frame `i` of a region of `raw` bytes. -/
def frameLen (raw i : Nat) : Nat := min 4096 (raw - 4096 * i)
/-- Lines of the header and the index (R181). -/
def headLines (frames : Nat) : Nat := 1 + ceilDiv (8 * frames) 64
/-- Bytes of an element of formats 0x0 to 0x4. -/
def elemBytes (fmt : Nat) : Nat := match Fmt.ofCode fmt with
  | some f => f.bits / 8
  | none => 1
/-- Trimmed bytes of `n` elements (R183). -/
def trimBytes (n : Nat) : Nat := 128 * ceilDiv (ceilDiv n 32) 5

/-- Bits of a coding symbol; 0 for a format that is stored raw (R182). -/
def symBits (fmt : Nat) : Nat :=
  if fmt = 7 ∨ fmt = 9 then 4 else if fmt = 5 ∨ fmt = 6 then 6 else if fmt = 3 ∨ fmt = 4 ∨ fmt = 8 then 8 else 0

/-! ### Frames (R182) -/

/-- The table's Kraft sum in units of 2^-15 over the present symbols. -/
def kraft (lens : List Nat) : Nat := (lens.map fun l => if l = 0 then 0 else 2 ^ (15 - l)).sum
/-- Whether a table of code lengths is valid. -/
def tableOk (lens : List Nat) : Bool :=
  decide (kraft lens = 2 ^ 15) || decide (lens.filter (· ≠ 0) = [1])

/-- Canonical codes: (symbol, length, code), shorter first, within a length by ascending symbol. -/
def canonLen (lens : List Nat) (l : Nat) (code : Nat) : List (Nat × Nat × Nat) × Nat :=
  let syms := (lens.zipIdx.filter fun x => decide (x.1 = l)).map (·.2)
  ((syms.zipIdx.map fun x => (x.1, l, code + x.2)), (code + syms.length) * 2)
def canon (lens : List Nat) : List (Nat × Nat × Nat) :=
  ((List.range 15).foldl (fun acc i =>
    let r := canonLen lens (i + 1) acc.2
    (acc.1 ++ r.1, r.2)) (([] : List (Nat × Nat × Nat)), 0)).1

/-- The bits of a code, the most significant first. -/
def codeBits (len code : Nat) : List Bool := (List.range len).map fun i => (code / 2 ^ (len - 1 - i)) % 2 = 1
/-- Bits from bit 0 of the first byte upward, as bytes padded with zeros. -/
def bitsNat : List Bool → Nat
  | [] => 0
  | b :: t => (if b then 1 else 0) + 2 * bitsNat t

/-- The symbols of a frame, `w` bits each, the last one padded with zeros. -/
def frameSyms (w : Nat) (raw : Bytes) : List Nat :=
  let n := leNat raw
  (List.range (ceilDiv (8 * raw.length) w)).map fun i => n / 2 ^ (w * i) % 2 ^ w

/-- The code lengths of a frame: the encoder's free choice where it is a valid table for the frame's symbols, else every
symbol at its own width (log entry 29). -/
def frameLens (w : Nat) (raw : Bytes) : List Nat :=
  let c := ((Config.codeLengths raw).take (2 ^ w)).map (· % 16)
  if c.length = 2 ^ w ∧ tableOk c ∧ (frameSyms w raw).all (fun x => decide (c.getD x 0 ≠ 0)) then c
  else List.replicate (2 ^ w) w

/-- The table of 4-bit lengths and the bit stream of a frame. -/
def frameCoded (w : Nat) (raw : Bytes) : Bytes :=
  let lens := frameLens w raw
  let cs := canon lens
  let bits := (frameSyms w raw).flatMap fun x =>
    match cs.find? fun c => decide (c.1 = x) with
    | some c => codeBits c.2.1 c.2.2
    | none => []
  toBytes (2 ^ w / 2) ((lens.zipIdx.map fun x => x.1 * 16 ^ x.2).sum) ++ toBytes (ceilDiv bits.length 8) (bitsNat bits)

/-- One stored frame: whether raw, its bytes (R111, R182). A frame whose coded lines are no fewer than its raw lines does
not shrink and is stored raw: 64 lines or more of a whole frame, fewer of a short last one. -/
def frameStore (fmt : Nat) (raw : Bytes) : Bool × Bytes :=
  let w := symBits fmt
  if w = 0 then (true, raw) else
    let c := frameCoded w raw
    if ceilDiv raw.length 64 ≤ ceilDiv c.length 64 then (true, raw) else (false, c)

/-- Bytes padded with zeros to whole lines. -/
def padLines (b : Bytes) : Bytes := b ++ List.replicate (ceilDiv b.length 64 * 64 - b.length) 0

/-- A coded region of raw bytes (R181): header, index, frames. -/
def encodeRegion (fmt : Nat) (raw : Bytes) : Bytes :=
  let n := framesOf raw.length
  let stored := (List.range n).map fun i => frameStore fmt ((raw.drop (4096 * i)).take 4096)
  let idx := stored.foldl (fun (acc : List Nat × Nat) f =>
    let lines := ceilDiv f.2.length 64
    (acc.1 ++ [(if f.1 then 2 ^ 51 else 0) + lines % 128 * 2 ^ 44 + acc.2], acc.2 + lines)) (([] : List Nat), 0)
  let head := toBytes 1 1 ++ toBytes 1 fmt ++ [0, 0] ++ toBytes 4 n ++ toBytes 8 raw.length ++ toBytes 8 (headLines n)
  padLines head ++ padLines (idx.1.flatMap (toBytes 8)) ++ stored.flatMap fun f => padLines f.2

/-- Decode symbols from a bit stream: none where it runs out or no code fits. Fuel counts the symbols left. -/
def decodeSyms (cs : List (Nat × Nat × Nat)) : Nat → List Bool → Option (List Nat)
  | 0, _ => some []
  | fuel + 1, bits =>
    match cs.find? fun c => decide (c.2.1 ≤ bits.length) && decide (bits.take c.2.1 = codeBits c.2.1 c.2.2) with
    | none => none
    | some c => (decodeSyms cs fuel (bits.drop c.2.1)).map (c.1 :: ·)

/-- The raw bytes of a stored frame, `len` of them. -/
def frameLoad (fmt : Nat) (isRaw : Bool) (stored : Bytes) (len : Nat) : Option Bytes :=
  if isRaw then (if len ≤ stored.length then some (stored.take len) else none) else
  let w := symBits fmt
  if w = 0 then none else
    let tn := 2 ^ w / 2
    let t := leNat (stored.take tn)
    let lens := (List.range (2 ^ w)).map fun i => t / 16 ^ i % 16
    if stored.length < tn ∨ !(tableOk lens) then none else
      let body := stored.drop tn
      let v := leNat body
      let bits := (List.range (8 * body.length)).map fun i => decide (v / 2 ^ i % 2 = 1)
      (decodeSyms (canon lens) (ceilDiv (8 * len) w) bits).map fun syms =>
        toBytes len ((syms.zipIdx.map fun x => x.1 * 2 ^ (w * x.2)).sum)

/-! ### Trim and expand (R108, R109, R183) -/

/-- Element `i` of packed elements of `n` bytes each. -/
def elemAt (fmt : Nat) (b : Bytes) (i : Nat) : Val :=
  match Fmt.ofCode fmt with
  | some f => f.read (leNat ((b.drop (i * elemBytes fmt)).take (elemBytes fmt)))
  | none => .fin false 0 0

/-- A trimmed block: header, 24 bytes of elements, whether it was NaN, whether it was clamped. -/
def trimOne (vs : List Val) : Nat × Bytes × Bool × Bool :=
  let r := trimBlock vs
  (r.1, toBytes 24 ((r.2.1.zipIdx.map fun x => x.1 * 64 ^ x.2).sum), r.2.2.1, r.2.2.2)

/-- The trimmed units of `n` elements: bytes up to the last block's unit, blocks counted NaN and clamped. -/
def trimRun (fmt : Nat) (src : Bytes) (n : Nat) : Bytes × Nat × Nat :=
  let blocks := (List.range (ceilDiv n 32)).map fun j =>
    trimOne ((List.range 32).map fun i => if 32 * j + i < n then elemAt fmt src (32 * j + i) else elemAt 0 [0, 0, 0, 0] 0)
  let units := (List.range (ceilDiv blocks.length 5)).flatMap fun u =>
    let bs := (blocks.drop (5 * u)).take 5
    let hs := bs.map fun b => BitVec.ofNat 8 b.1
    let pad := List.replicate (5 - bs.length)
    (hs ++ pad (0 : Byte)) ++ bs.flatMap (fun b => b.2.1) ++ List.replicate (24 * (5 - bs.length)) 0 ++ [0, 0, 0]
  (units, (blocks.filter fun b => b.2.2.1).length, (blocks.filter fun b => b.2.2.2).length)

/-- The expanded bytes of `n` elements of trimmed units. A value out of the output format's range is converted under R90
with RNE and SAT 0: the descriptor has no field for either (DESIGN CHOICE, log entry 17). -/
def expandRun (fmt : Nat) (src : Bytes) (n : Nat) : Bytes :=
  (List.range n).flatMap fun i =>
    let j := i / 32
    let unit := (src.drop (128 * (j / 5))).take 128
    let h := (unit.getD (j % 5) 0).toNat
    let group := leNat ((unit.drop (5 + 24 * (j % 5))).take 24)
    let el := group / 64 ^ (i % 32) % 64
    match Fmt.ofCode fmt with
    | some f => toBytes (elemBytes fmt) (convert f .rne false (trimRead h el)).1
    | none => []

/-! ### Reading and writing extents -/

/-- One line of a job's extents: STATUS, line, state, what is left of the answers from outside. -/
def State.jobLine (s : State) (mc : Nat) (cid : Cid) (ctx : Ctx) (es : List XEntry) (far : List Completion) (ecc : Ecc)
    (dva : Nat) : Nat × Line × State × List Completion :=
  match targetOf es dva with
  | some (.localMpa m) =>
    let l := (s.charge (0x220 + mc) cid m .rd).unitLine cid ctx es dva ecc (.ok 0)
    (l.1, l.2.1, l.2.2, far)
  | _ =>
    let l := s.unitLine cid ctx es dva ecc (far.headD (.ok 0))
    (l.1, l.2.1, l.2.2, far.tail)

/-- Read `n` lines from `dva`: bytes up to the first line that does not read, its STATUS (0 where all do), the state,
what is left of the answers from outside. -/
def State.jobLines (s : State) (mc : Nat) (cid : Cid) (ctx : Ctx) (es : List XEntry) (far : List Completion) (ecc : Ecc) :
    Nat → Nat → Bytes × Nat × State × List Completion
  | 0, _ => ([], 0, s, far)
  | n + 1, dva =>
    let l := s.jobLine mc cid ctx es far ecc dva
    if l.1 ≠ 0 then ([], l.1, l.2.2.1, l.2.2.2) else
      let r := l.2.2.1.jobLines mc cid ctx es l.2.2.2 .clean n (dva + 64)
      (Line.bytes l.2.1 ++ r.1, r.2.1, r.2.2.1, r.2.2.2)

/-- A write of bytes at a DVA within a line by a job's controller: 0, or the STATUS that refused it. -/
def State.jobWrite (s : State) (mc : Nat) (cid : Cid) (ctx : Ctx) (es : List XEntry) (dva : Nat) (b : Bytes) : Nat × State :=
  let o := dva % 64
  let data := lineAt o (leNat b)
  let be := enables o b.length
  match targetOf es dva, viaOf es dva with
  | some (.localMpa m), _ =>
    (s.charge (0x220 + mc) cid m .wr).writeMpa { Who.of cid ctx with boot := true } (m / 64 * 64) data be .clean
  | some (.window fa), some via =>
    let p := { zeroPacket with
      type := 2, dest := 0x250, src := BitVec.ofNat 10 (0x220 + mc), cid := cid, ctx := ctx,
      epoch := s.epochOfCid cid, addr := BitVec.ofNat 60 (fa / 64 * 64), byteEn := be, data := data }
    (0, s.unitSend (0x220 + mc) p via)
  | some (.host a), _ =>
    match s.hostWay cid with
    | some hf => (0, s.hostWrite hf.1 hf.2 (some (s.pasidOf cid ctx)) (BitVec.ofNat 64 a) b)
    | none => (7, s)
  | _, _ => (2, s)

/-- Write bytes from `dva`, line by line: 0, or the STATUS and target class (R212) that refused a line. -/
def State.jobPut (s : State) (mc : Nat) (cid : Cid) (ctx : Ctx) (es : List XEntry) : Nat → Nat → Bytes → (Nat × Nat) × State
  | 0, _, _ => ((0, 0), s)
  | fuel + 1, dva, b =>
    if b.isEmpty then ((0, 0), s) else
      let n := min 64 b.length
      let r := s.jobWrite mc cid ctx es dva (b.take n)
      if r.1 ≠ 0 then ((r.1, s.clsOf es dva), r.2) else r.2.jobPut mc cid ctx es fuel (dva + 64) (b.drop n)

/-! ### CODER -/

/-- The spans of a job whose extents its descriptor gives: source, destination (R208). Of a decode, the destination
and the header line; its other source lines are those the header and the index name. -/
def jSpans (d : Line) : List Span :=
  let rd := fun (n : Nat) => ({ at_ := jSrc d, len := n, acc := .rd, priv := false, row := 0 } : Span)
  let wr := fun (n : Nat) => ({ at_ := jDst d, len := n, acc := .wr, priv := false, row := 0 } : Span)
  match jOp d with
  | 1 => [rd (jLen d), wr (64 * headLines (framesOf (jLen d)) + ceilDiv (jLen d) 64 * 64)]
  | 2 => [rd 64, wr (jLen d)]
  | 3 => [rd (jLen d * elemBytes (jFmt d)), wr (trimBytes (jLen d))]
  | _ => [rd (trimBytes (jLen d)), wr (jLen d * elemBytes (jFmt d))]

/-- The source lines of a decode beyond its header: the index, then each frame (R181). -/
def decodeSpans (d head : Line) (index : Bytes) : List Span :=
  let n := dF head 4 0 32
  let data := jSrc d + 64 * dF head 0x10 0 64
  { at_ := jSrc d + 64, len := 8 * n, acc := .rd, priv := false, row := 0 } ::
  (List.range (framesOf (jLen d))).filterMap fun i =>
    let x := leNat ((index.drop (8 * (jFirst d + i))).take 8)
    if jFirst d + i < n then
      some { at_ := data + 64 * (x % 2 ^ 36), len := 64 * (x / 2 ^ 44 % 128), acc := .rd, priv := false, row := 0 }
    else none

/-- Whether a region's header line is sound (R181). -/
def headOk (h : Line) : Bool :=
  decide (dF h 0 0 8 = 1) && decide (dF h 1 0 8 ≤ 0xA) && decide (dF h 2 0 16 = 0) &&
  decide (dF h 4 0 32 = framesOf (dF h 8 0 64)) && decide (dF h 0x18 0 320 = 0)

/-- The spans a job checks before any byte moves (R208): a decode reads its header and index for them; `far` is what the
host or another module returns for those lines. -/
def State.jobSpans (s : State) (mc : Nat) (cid : Cid) (ctx : Ctx) (d : Line) (far : List Completion) : List Span :=
  if jOp d ≠ 2 then jSpans d else
    let look := fun (dva n : Nat) => visitSpans (fun a => some (s.walk cid ctx a)) [{ at_ := dva, len := n, acc := .rd, priv := false, row := 0 }]
    let h := s.jobLine mc cid ctx (look (jSrc d) 64).entries far .clean (jSrc d)
    if h.1 ≠ 0 ∨ !(headOk h.2.1) then jSpans d else
      let n := dF h.2.1 4 0 32
      let idx := s.jobLines mc cid ctx (look (jSrc d + 64) (8 * n)).entries h.2.2.2 .clean (ceilDiv (8 * n) 64) (jSrc d + 64)
      jSpans d ++ decodeSpans d h.2.1 idx.1

/-- R179, R180, R218, R360: the descriptor is read, the extents checked, the fence taken, and the job runs. `far` is what
the host or another module returns, the descriptor first. -/
def State.coderStart (s : State) (e : Nat) (c : QCmd) (far : List Completion) : State :=
  let cid := s.qCid e
  let ctx := pktCtx c.pkt
  let mc := pktF c.pkt 0x10 0 6
  let at_ := pktF c.pkt 8 0 64
  let r := s.cmdAccess e c 3 [{ at_ := at_, len := 64, acc := .rd, priv := false, row := 0 }]
  match r.1 with
  | none => r.2
  | some es0 =>
    let l := r.2.jobLine mc cid ctx es0 far .clean at_
    if l.1 ≠ 0 then l.2.2.1.cmdRefused e c.index l.1 (s.clsOf es0 at_) else
    let d := l.2.1
    let c := (l.2.2.1.cmd e c.index).getD c
    let r := if jBad d then (some [], l.2.2.1) else l.2.2.1.cmdAccess e c 3 (l.2.2.1.jobSpans mc cid ctx d l.2.2.2)
    match r.1 with
    | none => r.2
    | some es =>
      match r.2.resolve cid (BitVec.ofNat 32 (dF d 0x24 0 32)) 2 with
      | .ok i _ =>
        if !r.2.refFits cid i then r.2 else
          let s := (r.2.started e c.index).takeRef cid i
          let j : Job := { mc := mc, cid := cid, ctx := ctx, desc := d, descAt := at_, fenceRef := i,
                           entry := e, index := c.index, pages := es0 ++ es }
          s.modLp fun m => { m with jobs := m.jobs ++ [j] }
      | _ =>
        let s := r.2.modCmd e c.index fun c => { c with faulted := true }
        s.ctxFault cid ctx 1 6 (toBytes 2 7 ++ toBytes 2 0x3FF ++ toBytes 4 0 ++ toBytes 4 0) none

def execCoder (e : QEntry) (index : Word) (far : List Completion) (s : State) : Out :=
  match s.startDue e.val index 4 with
  | none => .next s
  | some c => .next (s.coderStart e.val c far)

/-! ### The end of a job -/

/-- What a job ends with: STATUS of R180, the target's STATUS and class (R212) where one refused it, the state. -/
abbrev JobEnd := Nat × (Nat × Nat) × State

/-- The end of a job whose source reads up to STATUS `rd` at `dva` and whose destination is answered with `w`. -/
def State.jobEnd (s : State) (j : Job) (rd dva : Nat) (w : (Nat × Nat) × State) : JobEnd :=
  if rd ≠ 0 ∧ rd ≠ 3 then (4, (rd, s.clsOf j.pages dva), w.2)
  else if w.1.1 ≠ 0 then (4, w.1, w.2) else (if rd = 3 then 3 else 0, (0, 0), w.2)

/-- Write a job's output, unless a target refused its source. -/
def State.jobOut (s : State) (j : Job) (rd : Nat) (out : Bytes) : (Nat × Nat) × State :=
  if rd ≠ 0 ∧ rd ≠ 3 then ((0, 0), s) else s.jobPut j.mc j.cid j.ctx j.pages (out.length / 64 + 1) (jDst j.desc) out

def State.encodeJob (s : State) (j : Job) (ecc : Ecc) (far : List Completion) : JobEnd :=
  let d := j.desc
  let r := s.jobLines j.mc j.cid j.ctx j.pages far ecc (ceilDiv (jLen d) 64) (jSrc d)
  -- frames before the first line that does not read are written
  let got := if r.2.1 = 0 then jLen d else r.1.length / 4096 * 4096
  s.jobEnd j r.2.1 (jSrc d + r.1.length) (r.2.2.1.jobOut j r.2.1 (encodeRegion (jFmt d) (r.1.take got)))

/-- The frames of a decode, in order, until one is bad: raw bytes, STATUS, state, refusing STATUS and class. -/
def State.decodeFrames (s : State) (j : Job) (head : Line) (index : Bytes) :
    Nat → Nat → List Completion → Bytes × Nat × State × Nat × Nat
  | 0, _, _ => ([], 0, s, 0, 0)
  | fuel + 1, i, far =>
    let raw := dF head 8 0 64
    let x := leNat ((index.drop (8 * i)).take 8)
    let n := x / 2 ^ 44 % 128
    if dF head 4 0 32 ≤ i ∨ n = 0 ∨ 64 < n ∨ x / 2 ^ 52 ≠ 0 ∨ x / 2 ^ 36 % 256 ≠ 0 then ([], 2, s, 0, 0) else
      let at_ := jSrc j.desc + 64 * (dF head 0x10 0 64 + x % 2 ^ 36)
      let r := s.jobLines j.mc j.cid j.ctx j.pages far .clean n at_
      if r.2.1 = 3 then ([], 3, r.2.2.1, 0, 0)
      else if r.2.1 ≠ 0 then ([], 4, r.2.2.1, r.2.1, s.clsOf j.pages (at_ + r.1.length))
      else match frameLoad (dF head 1 0 8) (x / 2 ^ 51 % 2 = 1) r.1 (frameLen raw i) with
        | none => ([], 2, r.2.2.1, 0, 0)
        | some b =>
          let t := r.2.2.1.decodeFrames j head index fuel (i + 1) r.2.2.2
          (b ++ t.1, t.2)

def State.decodeJob (s : State) (j : Job) (ecc : Ecc) (far : List Completion) : JobEnd :=
  let d := j.desc
  let ends := fun (st at_ : Nat) (t : State) => (if st = 3 then (3, (0, 0), t) else (4, (st, s.clsOf j.pages at_), t) : JobEnd)
  let h := s.jobLines j.mc j.cid j.ctx j.pages far ecc 1 (jSrc d)
  if h.2.1 ≠ 0 then ends h.2.1 (jSrc d) h.2.2.1
  else
    let head := Line.ofBytes h.1
    if !(headOk head) then (2, (0, 0), h.2.2.1) else
      let x := h.2.2.1.jobLines j.mc j.cid j.ctx j.pages h.2.2.2 .clean (ceilDiv (8 * dF head 4 0 32) 64) (jSrc d + 64)
      if x.2.1 ≠ 0 then ends x.2.1 (jSrc d + 64 + x.1.length) x.2.2.1
      else
        let f := x.2.2.1.decodeFrames j head x.1 (framesOf (jLen d)) (jFirst d) x.2.2.2
        let out := f.1.take (jLen d)
        let w := f.2.2.1.jobPut j.mc j.cid j.ctx j.pages (out.length / 64 + 1) (jDst d) out
        if w.1.1 ≠ 0 then (4, w.1, w.2) else (f.2.1, (f.2.2.2.1, f.2.2.2.2), w.2)

def State.trimJob (s : State) (j : Job) (ecc : Ecc) (far : List Completion) : JobEnd :=
  let d := j.desc
  let size := elemBytes (jFmt d)
  let r := s.jobLines j.mc j.cid j.ctx j.pages far ecc (ceilDiv (jLen d * size) 64) (jSrc d)
  let n := if r.2.1 = 0 then jLen d else r.1.length / (32 * size) * 32
  let out := trimRun (jFmt d) r.1 n
  let t := r.2.2.1.modLp fun m => { m with
    trimNan := m.trimNan + BitVec.ofNat 64 out.2.1, trimClamp := m.trimClamp + BitVec.ofNat 64 out.2.2 }
  s.jobEnd j r.2.1 (jSrc d + r.1.length) (t.jobOut j r.2.1 out.1)

/-- Elements of the whole blocks in the first `len` bytes of trimmed units (R180, R183): five to a unit of 128 bytes,
block j of a unit ends at byte 29 + 24·j. -/
def wholeBlocks (len : Nat) : Nat := len / 128 * 160 + min 5 ((len % 128 - 5) / 24) * 32

def State.expandJob (s : State) (j : Job) (ecc : Ecc) (far : List Completion) : JobEnd :=
  let d := j.desc
  let r := s.jobLines j.mc j.cid j.ctx j.pages far ecc (trimBytes (jLen d) / 64) (jSrc d)
  let n := if r.2.1 = 0 then jLen d else min (jLen d) (wholeBlocks r.1.length)
  s.jobEnd j r.2.1 (jSrc d + r.1.length) (r.2.2.1.jobOut j r.2.1 (expandRun (jFmt d) r.1 n))

/-- A job runs to its STATUS (R180, R187). -/
def State.jobRun (s : State) (j : Job) (ecc : Ecc) (far : List Completion) : JobEnd :=
  if s.early then (1, (0, 0), s)
  else if jBad j.desc then
    let e := (Tab.get (fun _ => ({} : ErrReg)) s.lp.mcErr j.mc).refuse
    (1, (0, 0), s.modLp fun m => { m with mcErr := Tab.insert m.mcErr j.mc e })
  else match jOp j.desc with
    | 1 => s.encodeJob j ecc far
    | 2 => s.decodeJob j ecc far
    | 3 => s.trimJob j ecc far
    | _ => s.expandJob j ecc far

/-- R180, R360, R369: STATUS is written back, the fence signalled, the command ends. A job whose command is gone (its
context was lost) ends without either (R355). A refusal of the job, or of its STATUS write, loses the context (R180). -/
def State.jobDone (s : State) (j : Job) (ecc : Ecc) (far : List Completion) : State :=
  let s := s.modLp fun m => { m with jobs := m.jobs.filter fun k => decide (k ≠ j) }
  if (s.cmd j.entry j.index).isNone then s.dropRef j.cid j.fenceRef else
    let r := s.jobRun j ecc far
    let w := r.2.2.jobWrite j.mc j.cid j.ctx j.pages (j.descAt + 4) (toBytes 4 r.1)
    let refused := if r.1 = 4 then r.2.1 else if w.1 ≠ 0 then (w.1, s.clsOf j.pages j.descAt) else (0, 0)
    match w.2.signalRef j.cid j.fenceRef (dF j.desc 0x28 0 64) with
    | none =>
      let s := w.2.modCmd j.entry j.index fun c => { c with faulted := true }
      let s := s.dropRef j.cid j.fenceRef
      s.ctxFault j.cid j.ctx 1 6 (toBytes 2 7 ++ toBytes 2 0x3FF ++ toBytes 4 0 ++ toBytes 4 0) none
    | some (_, s) =>
      let s := s.dropRef j.cid j.fenceRef
      if refused.1 ≠ 0 then s.cmdRefused j.entry j.index refused.1 refused.2 else s.complete j.entry j.index 0 0 true

def execCoderJobDone (mc : Fin 48) (ecc : Ecc) (far : List Completion) (s : State) : Out :=
  match s.lp.jobs.find? fun j => decide (j.mc = mc.val) with
  | none => .next s
  | some j => .next (s.jobDone j ecc far)

end Sys2Proof.Machine
end

