-- ==== Sys2Proof/Machine/Route.lean ====
section
/-! DEFINITION. The fabric router: packets and their flits (R267, R296), the return table, pools and end-to-end credits
(R297, R304, R307 to R310), the choice of a port (R298 to R300), responses and timeouts (R301, R302). -/

namespace Sys2Proof.Machine

/-! ### Packets -/

/-- A fabric packet with every field zero. -/
def zeroFab : FabPacket := ⟨0, 0, 0, 0, false, 0, 0, 0, 0, 0, 0, 0, 0, 0, 0, 0, 0, 0, none, false⟩

/-- The virtual channel of a packet (R267, R317). -/
def vcOf (p : FabPacket) : Nat :=
  let t := p.type.toNat
  if t = 1 ∨ t = 2 ∨ t = 3 then 0
  else if t = 4 ∨ t = 5 ∨ t = 6 then 1
  else if t = 0x0B then 3
  else 2

/-- Data flits of a packet (R141, R296): 64 bytes after a write or a read response, a chunk of 64 or 128 bytes after a
contribution or a result, a message after a management header. -/
def dataFlits (p : FabPacket) : List Flit :=
  let t := p.type.toNat
  if t = 2 ∨ t = 4 ∨ t = 0x0B then [p.data]
  else if t = 9 ∨ t = 0x0A then p.data :: p.data2.toList
  else []

/-- The header flit (R296). -/
def fabHeader (p : FabPacket) : Flit :=
  put 512 0 p.type ||| put 512 16 p.destMod ||| put 512 32 p.srcMod ||| put 512 48 p.hops ||| putB 512 53 p.down |||
  put 512 56 p.status ||| put 512 64 p.ftag ||| put 512 84 p.ctx ||| put 512 96 p.cid ||| put 512 112 p.cls |||
  put 512 115 p.rights ||| put 512 128 p.deadline ||| put 512 144 p.gen ||| put 512 160 p.collId ||| put 512 192 p.addr |||
  put 512 256 p.byteEn ||| put 512 320 p.operand

/-- Whether a packet is a request that a response answers. -/
def isRequest (p : FabPacket) : Bool := decide (p.type = 1 ∨ p.type = 2 ∨ p.type = 3)

/-- The response to a fabric request (R296, R301). -/
def fabReply (own : BitVec 14) (p : FabPacket) (status : Nat) (data : Line) (operand : BitVec 128) : FabPacket :=
  { zeroFab with
    type := p.type + 3, destMod := p.srcMod, srcMod := own, status := BitVec.ofNat 8 status, ftag := p.ftag, ctx := p.ctx,
    cid := p.cid, cls := p.cls, data := data, operand := operand }

/-- Flits leave a port's receive buffer; their credits are due (R268). -/
def LinkPort.drained (x : LinkPort) (v n : Nat) : LinkPort :=
  let h := Tab.get (fun _ => 0) x.rxHeld v
  let k := min h n
  { x with rxHeld := Tab.insert x.rxHeld v (h - k), creditDue := Tab.insert x.creditDue v (Tab.get (fun _ => 0) x.creditDue v + k) }

/-- A packet leaves the receive buffer of the port it came on. -/
def State.drainPacket (s : State) (p : Nat) (q : FabPacket) : State :=
  if 48 ≤ p then s else s.modPort p fun x => x.drained (vcOf q) (1 + (dataFlits q).length)

/-! ### Requests of this module end -/

/-- Modules of one rack group (R290). -/
def sameRack (a b : BitVec 14) : Bool := decide (a.toNat / 64 = b.toNat / 64)

def State.e2eUse (s : State) (m : Nat) : Nat := Tab.get (fun _ => 0) s.fab.e2e m
def State.poolUse (s : State) (k : Nat) : Nat := Tab.get (fun _ => 0) s.fab.poolUse k

/-- A return-table entry is freed with its pool entry and its end-to-end credit (R297, R307 to R309). -/
def State.fabFree (s : State) (r : FabReq) : State :=
  let s := s.modFab fun f => { f with returns := f.returns.filter fun x => decide (x.ftag ≠ r.ftag) }
  let s := match r.slot with
    | some k => s.modFab fun f => { f with poolUse := Tab.insert f.poolUse k (s.poolUse k - 1) }
    | none => s
  let m := r.dstModule.toNat % 64
  if sameRack r.dstModule s.module ∧ r.dstModule ≠ s.module then
    s.modFab fun f => { f with e2e := Tab.insert f.e2e m (s.e2eUse m - 1) }
  else s

/-- A request of this module ends at its issuer with a STATUS (R301, R302). -/
def State.fabEnd (s : State) (r : FabReq) (status : Nat) (data : Line) (operand : BitVec 128) : State :=
  (s.fabFree r).emit (.mesh (reply r.pkt status data operand))

def State.fabReq (s : State) (ftag : BitVec 14) : Option FabReq := s.fab.returns.find? fun r => decide (r.ftag = ftag)

/-- A packet of a port that can no longer carry it ends at its issuer with the timeout status (R274): at this module's
own requests; one in transit ends by its issuer's timeout. -/
def State.fabLost (s : State) (p : FabPacket) : State :=
  if p.srcMod = s.module ∧ isRequest p then
    match s.fabReq p.ftag with
    | some r => s.fabEnd r 5 0 0
    | none => s
  else s

/-! ### The choice of a port (R298 to R300) -/

/-- Whether a port is held under R275 or counts as such (R549). -/
def LinkPort.heldPort (x : LinkPort) : Bool :=
  decide (x.st = .miswired ∨ x.st = .looped ∨ x.st = .duplicate) || decide (x.keySt = 3)
/-- Whether a port counts as gone for R300. -/
def LinkPort.gone (x : LinkPort) : Bool :=
  decide (x.st = .disabled ∨ x.st = .failed ∨ x.st = .openCircuit) || x.heldPort
/-- Whether a port holds a link credit for a virtual channel (R268). -/
def LinkPort.credit (x : LinkPort) (vc : Nat) : Bool := decide (0 < Tab.get (fun _ => 0) x.dedicated vc ∨ 0 < x.shared)
/-- Flits queued for transmit. -/
def LinkPort.queued (x : LinkPort) : Nat := (x.txQueue.map fun t => t.left.length).sum

/-- The candidate that a packet takes: the fewest flits queued, the lower index of equals. -/
def State.bestPort (s : State) : List (BitVec 7) → Option (BitVec 7)
  | [] => none
  | c :: t => match s.bestPort t with
    | none => some c
    | some d => if (s.port (d.toNat % 64)).queued < (s.port (c.toNat % 64)).queued then some d else some c

/-- What the router does with a packet. -/
inductive Routed
  | port (c : BitVec 7)
  | wait
  | unreachable
deriving DecidableEq, Repr

/-- An answer this module gives: it leaves though no module number is assigned (R287). -/
def State.ownAnswer (s : State) (p : FabPacket) : Bool :=
  decide (p.srcMod = s.module) && decide (p.type = 4 ∨ p.type = 5 ∨ p.type = 6)

/-- R298 to R300: a candidate, a wait for one, or none that could carry the packet. -/
def State.routeOf (s : State) (p : FabPacket) : Routed :=
  let r := s.route p.destMod.toNat
  let vc := vcOf p
  if !r.valid then .unreachable
  else if !s.fab.sh.act.id.valid ∧ vc ≠ 3 ∧ !s.ownAnswer p then .unreachable
  else
    let cands := (if vc = 3 then r.cand.take 1 else r.cand).filter fun c => !p.down || c.getLsbD 6
    let live := cands.filter fun c => !(s.port (c.toNat % 64)).gone
    if live.isEmpty then .unreachable
    else match s.bestPort (live.filter fun c =>
        decide ((s.port (c.toNat % 64)).st = .active) && (s.port (c.toNat % 64)).credit vc) with
      | some c => .port c
      | none => .wait

/-- A packet enters the transmit queue of a candidate. -/
def State.sendOn (s : State) (c : BitVec 7) (p : FabPacket) : State :=
  let p := { p with down := p.down || c.getLsbD 6 }
  let at0 := s.now
  let t : TxPkt := { vc := vcOf p, pkt := p, left := fabHeader p :: dataFlits p, since := at0 }
  (s.modPort (c.toNat % 64) fun x => { x with txQueue := x.txQueue ++ [t] }).emit (.fabric (c.toNat % 64) p)

/-- Route a packet of a port's receive buffer, or of this module (48), once: none where nothing can carry it. One that
waits stays in its buffer. -/
def State.routeOnce (s : State) (from_ : Nat) (p : FabPacket) : Option State :=
  if p.destMod = s.module ∧ s.fab.sh.act.id.valid then some ((s.drainPacket from_ p).emit (.fabric 48 p)) else
  match s.routeOf p with
  | .port c => some ((s.drainPacket from_ p).sendOn c p)
  | .wait => some (s.modFab fun f => { f with held := f.held ++ [(from_, p)] })
  | .unreachable => none

/-- A packet ends as unreachable (R300): counted, its issuer receives STATUS 0x04; an answer that cannot be routed is
discarded and counted. -/
def State.unreachable (s : State) (from_ : Nat) (p : FabPacket) : State :=
  let s := (s.drainPacket from_ p).modFab fun f => { f with cntUnreach := satInc f.cntUnreach }
  if !isRequest p then s
  else if p.srcMod = s.module ∧ from_ = 48 then
    match s.fabReq p.ftag with
    | some r => s.fabEnd r 4 0 0
    | none => s
  else match s.routeOnce 48 (fabReply s.module p 4 0 0) with
    | some s => s
    | none => s.modFab fun f => { f with cntUnreach := satInc f.cntUnreach }

/-- Send a packet, or end it as unreachable (R300). -/
def State.routeFrom (s : State) (from_ : Nat) (p : FabPacket) : State :=
  match s.routeOnce from_ p with
  | some s => s
  | none => s.unreachable from_ p

/-- A packet of this module is sent. -/
def State.routePacket (s : State) (p : FabPacket) : State := s.routeFrom 48 p

/-- Packets that waited for a credit are routed anew (R299). -/
def State.routeHeld (s : State) : State :=
  let ps := s.fab.held
  (s.modFab fun f => { f with held := [] }).each ps fun s e => s.routeFrom e.1 e.2

/-- R298 to R300: a packet in transit that arrived at a port, one router further. -/
def execFabricRoute (p : LPort × FabPacket) (s : State) : Out :=
  .next (if p.2.hops = 31 then s.unreachable p.1.val p.2 else s.routeFrom p.1.val { p.2 with hops := p.2.hops + 1 })

/-! ### Egress (R297, R304, R307, R309) -/

/-- The issuing unit of a request (R304): a bank's scalar and vector path, or a stream channel. -/
def issuerUnit : Issuer → Option (Nat × Nat × Bool)
  | .load t b _ _ _ | .store t b | .atomic t b => some (t, b, false)
  | .copyRead t c _ | .copyWrite t c _ | .descRead t c => some (t, c, true)
  | _ => none

def State.unitOf (s : State) (p : Packet) : Option (Nat × Nat × Bool) :=
  match Tab.find s.mesh.reqs (reqKey p.src.toNat p.tag.toNat) with
  | some r => issuerUnit r.who
  | none => none

/-- Whether a request may leave: return-table entry, pool entry, end-to-end credit, no earlier request of its unit to
the same line. -/
def State.fabReady (s : State) (p : Packet) : Bool :=
  let m : BitVec 14 := fld p.addr 46 14
  let same := fun (q : Packet) => decide (q ≠ p) && decide (q.addr.toNat / 64 = p.addr.toNat / 64) &&
    (match s.unitOf p, s.unitOf q with
      | some a, some b => decide (a = b)
      | _, _ => false)
  let earlier := (s.fab.waiting.takeWhile fun w => decide (w.pkt ≠ p)).any fun w => same w.pkt
  let pool := match s.slotOf p.cid with
    | some k => decide (s.poolUse k < (s.fab.sh.act.pool k).toNat)
    | none => decide ((s.fab.returns.filter fun r => decide (r.slot = none)).length < 1024)
  decide (s.fab.returns.length < 16384) && pool && !s.fab.returns.any (fun r => same r.pkt) && !earlier &&
  (decide (m = s.module) || !sameRack m s.module || decide (s.e2eUse (m.toNat % 64) < 128))

/-- The FTAG of the lowest free return-table entry. -/
def State.freeFtag (s : State) : Nat :=
  ((List.range 16384).find? fun g => !(s.fab.returns.any fun r => decide (r.ftag.toNat = g))).getD 0

/-- DEADLINE less the ticks elapsed (R297). -/
def deadlineLeft (d elapsed : Nat) : Nat := if d = 0 then 0 else max (d - elapsed) 1

/-- The fabric packet of a mesh request. -/
def State.fabPacketOf (s : State) (p : Packet) (ftag elapsed : Nat) : FabPacket :=
  { zeroFab with
    type := p.type, destMod := fld p.addr 46 14, srcMod := s.module, ftag := BitVec.ofNat 14 ftag, ctx := p.ctx, cid := p.cid,
    cls := p.cls, rights := p.rights, deadline := BitVec.ofNat 16 (deadlineLeft p.deadline.toNat elapsed),
    addr := p.addr.setWidth 46, byteEn := p.byteEn, operand := p.operand, data := p.data }

/-- A request leaves egress. -/
def State.fabLeave (s : State) (w : FabWait) : State :=
  let p := w.pkt
  let m : BitVec 14 := fld p.addr 46 14
  let at0 := s.now
  let f := s.fabPacketOf p s.freeFtag (at0 - w.since)
  let r : FabReq := { ftag := f.ftag, dstModule := m, slot := s.slotOf p.cid, sentAt := at0, pkt := p }
  let s := s.modFab fun x => { x with returns := x.returns ++ [r], waiting := x.waiting.filter fun v => decide (v.pkt ≠ p) }
  let s := match r.slot with
    | some k => s.modFab fun x => { x with poolUse := Tab.insert x.poolUse k (s.poolUse k + 1) }
    | none => s
  let i := m.toNat % 64
  let s := if sameRack m s.module ∧ m ≠ s.module then
      s.modFab fun x => { x with e2e := Tab.insert x.e2e i (s.e2eUse i + 1) }
    else s
  s.routePacket f

/-- A mesh request for another module, or for a window of this one, reaches the router (R287, R289, R297). Arrivals at
and releases from a barrier of another module are answered by no response (R317). -/
def State.fabEgress (s : State) (p : Packet) : State :=
  if !s.fab.sh.act.id.valid then (if p.type = 7 ∨ p.type = 8 then s else s.emit (.mesh (reply p 4 0 0)))
  else if p.type = 7 ∨ p.type = 8 then s.routePacket (s.fabPacketOf p 0 0)
  else
    let w : FabWait := ⟨p, s.now⟩
    if s.fabReady p then s.fabLeave w else s.modFab fun f => { f with waiting := f.waiting ++ [w] }

/-- R297: a waiting request leaves once nothing holds it. -/
def execFabricEgressRelease (p : Packet) (s : State) : Out :=
  match s.fab.waiting.find? fun w => decide (w.pkt = p) with
  | some w => .next (if s.fabReady p then s.fabLeave w else s)
  | none => .next s

/-- R301, R302: a response of the fabric. One with reserved bits set counts as refused (R296). -/
def execFabricResponse (arrival : Option LPort × FabPacket) (s : State) : Out :=
  let p := arrival.2
  let s := s.drainPacket (match arrival.1 with
    | some q => q.val
    | none => 48) p
  let s := s.when p.reserved fun s => s.modFab fun f => { f with cntRefused := satInc f.cntRefused }
  match s.fabReq p.ftag with
  | some r =>
    if p.reserved then .next (s.fabEnd r 1 0 0)
    else if r.dstModule = p.srcMod ∨ p.status = 4 then .next (s.fabEnd r p.status.toNat p.data p.operand)
    else .next (s.modFab fun f => { f with cntLate := satInc f.cntLate })
  | none => .next (s.modFab fun f => { f with cntLate := satInc f.cntLate })

/-- R302. -/
def execFabricRequestTimeout (ftag : BitVec 14) (s : State) : Out :=
  match s.fabReq ftag with
  | some r =>
    if s.now < r.sentAt + s.fab.timeout.toNat * (period / 64) then .next s
    else .next ((s.fabEnd r 5 0 0).modFab fun f => { f with cntTimeout := satInc f.cntTimeout })
  | none => .next s

end Sys2Proof.Machine
end

