-- ==== Sys2Proof/Machine/Wire.lean ====
section
/-! DEFINITION. What a frame is on the wire: its message bytes (R262, R263, R276), its codewords and the lanes that carry
them (R260 to R262), the seal of a link session (R546). -/

namespace Sys2Proof.Machine

/-- The frame header (R263): slot i is valid for each virtual channel listed. -/
def frameHeader (ftype : Nat) (replay nak : Bool) (seq ack : Nat) (credits : Word) (vcs : List Nat) : Bytes :=
  [BitVec.ofNat 8 (ftype + (if nak then 16 else 0) + (if replay then 32 else 0)), 0] ++
  toBytes 2 seq ++ toBytes 2 ack ++ toBytes 2 0 ++ toBytes 4 credits.toNat ++ toBytes 4 (2 ^ vcs.length - 1) ++
  toBytes 8 (vcs.foldr (fun v n => v + 4 * n) 0)

/-- The fields of a control message from byte 0x00 on (R276, R547). -/
def ctrlFields : CtrlMsg → Bytes
  | .discovery m port serial cadence stamp echo =>
    [1, 0] ++ toBytes 2 m.toNat ++ toBytes 4 port.toNat ++ toBytes 8 serial.toNat ++ toBytes 8 cadence.toNat ++
    toBytes 4 stamp.toNat ++ toBytes 4 echo.toNat
  | .substReq l i => [2, 0, BitVec.ofNat 8 l.val, BitVec.ofNat 8 i.val]
  | .substAck l i seq => [3, 0, BitVec.ofNat 8 l.val, BitVec.ofNat 8 i.val] ++ toBytes 2 seq.toNat
  | .substNak l i cause => [4, 0, BitVec.ofNat 8 l.val, BitVec.ofNat 8 i.val, cause]
  | .keyx b => b
  | .unknown code => [code]

/-- Bytes filled with zeros up to a length, and cut there. -/
def padTo (n : Nat) (b : Bytes) : Bytes := (b ++ List.replicate (n - b.length) 0).take n

/-- The 1,472 slot bytes: flits, or control messages one a slot. -/
def slotBytes (slots : List (Nat × Flit)) (ctrl : List CtrlMsg) : Bytes :=
  padTo 1472 (if ctrl.isEmpty then slots.flatMap fun t => toBytes 64 t.2.toNat
    else ctrl.flatMap fun m => padTo 64 (ctrlFields m))

/-- The virtual channels of a frame's slots; 0b11 for control messages (R276). -/
def slotVcs (slots : List (Nat × Flit)) (ctrl : List CtrlMsg) : List Nat :=
  if ctrl.isEmpty then slots.map (·.1) else ctrl.map fun _ => 3

/-- The 1,520 message bytes from the header and the sealed slots with their tag (R262). -/
def messageBytes (header sealed : Bytes) : Bytes :=
  header ++ sealed ++ toBytes 4 (crc32c (header ++ sealed)) ++ toBytes 4 0

/-- The key and salt of a link session that this module transmits on a port (R546). -/
def State.sessionKey (s : State) (p : Nat) : Bytes :=
  let x := s.port p
  let info := [0x53, 0x4B, 0x56, 0x2D, 0x55, 0x4C, 0x44] ++ toBytes 8 s.rot.otp.serial.toNat ++ toBytes 1 p ++
    toBytes 8 x.peerFull.toNat ++ toBytes 1 x.peerPort.toNat
  Config.hkdf (toBytes 32 (s.keySlot x.kidTx.toNat).key.toNat) (toBytes 16 x.nonceTx.toNat) info

/-- The slot bytes and the tag as sent: plain with a zero tag, or sealed under the session (R262, R546). -/
def State.sealFrame (s : State) (p count : Nat) (header slots : Bytes) : Bytes :=
  if (s.port p).kidTx = 0 then slots ++ toBytes 16 0 else Config.gcmSeal (s.sessionKey p) count header slots

/-- The 10-bit symbols of bytes, the first in the lowest bits. -/
def symbolsOf (n : Nat) (b : Bytes) : List Nat := (List.range n).map fun i => leNat b / 2 ^ (10 * i) % 1024

/-- Every second element. -/
def alternate (odd : Bool) (l : List Nat) : List Nat := (l.zipIdx.filter fun e => decide (e.2 % 2 = 1) == odd).map (·.1)

/-- The two codewords of a frame: 608 message symbols of alternate places and 32 of parity each (R262). -/
def codewords (message : Bytes) : List Nat × List Nat :=
  let syms := symbolsOf 1216 message
  let a := alternate false syms
  let b := alternate true syms
  (a ++ Config.rsParity a, b ++ Config.rsParity b)

/-- The 1,280 symbols of the interleaved frame: codewords alternate symbol by symbol (R262). -/
def interleaved (message : Bytes) : List Nat :=
  let c := codewords message
  (c.1.zip c.2).flatMap fun e => [e.1, e.2]

/-- The symbols that stripe lane `k` of `w` carries, scrambled afresh in each frame (R260, R262). -/
def stripe (message : Bytes) (w k : Nat) : List Nat :=
  ((interleaved message).zipIdx.filter fun e => decide (e.2 % w = k)).map fun e => Nat.xor e.1 (Config.prbs58 k (e.2 / w))

/-- The logical lanes of a width code, of the lanes without a healthy position (R261). -/
def lanesFor (code : BitVec 2) (bad : List Nat) : List Nat :=
  let free := fun (lo n : Nat) => !(bad.any fun l => decide (lo ≤ l ∧ l < lo + n))
  let run := fun (lo n : Nat) => (List.range n).map (lo + ·)
  if code = 0 then run 0 16
  else if code = 1 then if free 0 8 then run 0 8 else run 8 8
  else if code = 2 then
    match [0, 4, 8, 12].find? fun lo => free lo 4 with
    | some lo => run lo 4
    | none => []
  else []

/-- What a transmit position carries during a frame (R260, R262): a stripe lane of it, or, for a spare that stands unused,
the training pattern; nothing where its lane is not in use. -/
inductive OnLane
  | symbols (l : List Nat)
  | pattern (l : List Nat)
  | quiet
deriving DecidableEq, Repr

/-- Logical lanes without a position of a transmit map: those failed and on no spare. -/
def LaneMap.lacking (m : LaneMap) : List Nat :=
  (List.range 16).filter fun l => m.failed.getLsbD l && decide (m.subA.toNat ≠ l ∧ m.subB.toNat ≠ l)

/-- What position `pos` of a port carries while a message is sent. -/
def LinkPort.onLane (x : LinkPort) (message : Bytes) (pos : Nat) : OnLane :=
  let lanes := lanesFor x.txw x.mapTx.lacking
  let lane := if pos = 16 then x.mapTx.subA.toNat else if pos = 17 then x.mapTx.subB.toNat
    else if x.mapTx.subA.toNat = pos ∨ x.mapTx.subB.toNat = pos then 0x3F else pos
  if 16 ≤ pos ∧ lane = 0x3F then .pattern (Config.prbs13 pos)
  else match lanes.findIdx? (· = lane) with
    | some k => .symbols (stripe message lanes.length k)
    | none => .quiet

end Sys2Proof.Machine
end

