-- ==== Sys2Proof/Machine/Link.lean ====
section
/-! DEFINITION. Fabric links: states and widths (R261, R272 to R275), training and retrains (R272, R273), frames, replay
and credits (R262 to R269, R424), discovery (R275), lane substitution (R277 to R279), eyes (R280), LNK_CTRL (R282), link
sessions (R546 to R549). -/

namespace Sys2Proof.Machine

/-! ### Widths and lane maps (R261, R272 step 6) -/

/-- The logical lane of a position, in the identity or the reversed order (R272 step 4). -/
def laneOf (reversed : Bool) (pos : Nat) : Nat := if reversed then 15 - pos else pos

/-- The spare positions that are healthy: 0 for position 16, 1 for 17. -/
def goodSpares (failed : BitVec 18) : List Nat := [0, 1].filter fun i => !failed.getLsbD (16 + i)

/-- Logical lanes 0 to 15 whose own position failed. -/
def badLanes (failed : BitVec 18) (reversed : Bool) : List Nat :=
  (List.range 16).filter fun l => failed.getLsbD (laneOf reversed l)

/-- The sender's number of a receiver's spare, and the reverse: a reversed cable swaps 16 and 17 (R272 step 4). -/
def spareOver (reversed : Bool) (i : Nat) : Nat := if reversed then 1 - i else i

/-- A lane is put on spare `i` of a map. -/
def LaneMap.place (m : LaneMap) (i lane : Nat) : LaneMap :=
  if i = 0 then { m with subA := BitVec.ofNat 6 lane } else { m with subB := BitVec.ofNat 6 lane }

/-- The map of a direction: failed lanes take the healthy spares, both in ascending order of the sender's numbers, so
that the two ends derive one map (R262, R272 step 6). -/
def mapFor (failed : BitVec 18) (reversed : Bool) : LaneMap :=
  let spares := (if reversed then (goodSpares failed).reverse else goodSpares failed)
  (spares.zip (badLanes failed reversed)).foldl (fun m e => m.place e.1 e.2) { failed := failed }

/-- The width code that a map allows, at most `maxw` (R261, R282). -/
def widthFor (m : LaneMap) (reversed : Bool) (maxw : BitVec 2) : BitVec 2 :=
  let bad := (badLanes m.failed reversed).filter fun l => decide (m.subA.toNat ≠ l ∧ m.subB.toNat ≠ l)
  let free := fun (lo n : Nat) => !(bad.any fun l => decide (lo ≤ l ∧ l < lo + n))
  if free 0 16 ∧ maxw = 0 then 0
  else if (free 0 8 || free 8 8) ∧ maxw.toNat ≤ 1 then 1
  else if free 0 4 || free 4 4 || free 8 4 || free 12 4 then 2
  else 3

/-- Healthy unused receive spares (R282). -/
def LinkPort.sparesOf (x : LinkPort) : Nat :=
  ((goodSpares x.mapRx.failed).filter fun i => decide ((if i = 0 then x.mapRx.subA else x.mapRx.subB) = 0x3F)).length

/-! ### The state of a port -/

/-- A LINK record of the flight log (R570). -/
def State.linkLog (s : State) (p llane : Nat) (subst failure : Bool) : State :=
  s.log 0x05 0xFFFF 0 (toBytes 4 (p + (match (s.port p).st with
    | .disabled => 0
    | .openCircuit => 1
    | .training => 2
    | .oneWay => 3
    | .laneOrder => 4
    | .miswired => 5
    | .looped => 6
    | .duplicate => 7
    | .active => 8
    | .retraining => 9
    | .failed => 10) * 2 ^ 8 + llane * 2 ^ 12 + (if subst then 2 ^ 16 else 0) + (if failure then 2 ^ 17 else 0)))

/-- Packets in a port's replay buffer and transmit queue end (R274). -/
def State.portDrop (s : State) (p : Nat) : State :=
  let x := s.port p
  let ps := (x.replay.flatMap fun f => f.pkts) ++ x.txQueue.map fun t => t.pkt
  let s := s.modPort p fun x => { x with
    replay := [], txQueue := [], replayFrom := none, cntLost := satAdd x.cntLost ps.length }
  s.each ps fun s q => s.fabLost q

/-- LNK_STATUS.STATE changes (R272 to R275, R555). -/
def State.setPortSt (s : State) (p : Nat) (st : PortSt) : State :=
  let s := if (s.port p).st = st then s else
    (s.modPort p fun x => { x with st := st, failedAt := if st = .failed then s.cad.elapsed else x.failedAt }).pulse (592 + p)
  if st = .failed ∨ st = .openCircuit ∨ st = .disabled then s.portDrop p else s

/-- The widths of a port change; guarantees on it are reckoned again (R245, R261). -/
def State.setWidths (s : State) (p : Nat) (rx tx : BitVec 2) : State :=
  let x := s.port p
  let s := s.modPort p fun x => { x with rxw := rx, txw := tx }
  let s := s.when (decide (x.rxw ≠ rx)) fun s => s.regauge (.port p true)
  s.when (decide (x.txw ≠ tx)) fun s => s.regauge (.port p false)

/-- Signal is present on enough positions (R272 step 1). -/
def enough (signal : BitVec 18) : Bool := decide (4 ≤ (maskBits signal).length)

/-- A full training starts: step 1, and step 2 at once where signal stands (R272). -/
def State.fullTraining (s : State) (p : Nat) : State :=
  let x := s.port p
  if x.disable then s else
    let s := s.modPort p fun x => { x with
      cntRetrain := satInc x.cntRetrain, step := if enough x.signal then 2 else 1, fast := false, substRx := none,
      substTx := none, mapRx := { x.mapRx with failed := 0 }, mapTx := { x.mapTx with failed := 0 } }
    if enough x.signal then (s.setPortSt p .training).linkLog p 0 false false
    else ((s.setWidths p 3 3).setPortSt p .openCircuit).linkLog p 0 false false

/-- A fast retrain of an ACTIVE port starts (R273). -/
def State.fastTraining (s : State) (p : Nat) : State :=
  let x := s.port p
  if x.disable ∨ x.st ≠ .active then s
  else
    let s := s.modPort p fun x => { x with
      cntRetrain := satInc x.cntRetrain, step := 2, fast := true, substRx := none, substTx := none, badRun := 0,
      mapRx := { x.mapRx with failed := 0 }, mapTx := { x.mapTx with failed := 0 } }
    (s.setPortSt p .retraining).linkLog p 0 false false

/-- A training fails (R273): a fast one becomes a full one; the third full one in a row puts the port in FAILED. -/
def State.trainingFailed (s : State) (p : Nat) : State :=
  if (s.port p).fast then s.fullTraining p else
    let n := (s.port p).failedTrainings + 1
    if 3 ≤ n then
      let s := s.modPort p fun x => { x with failedTrainings := 0, step := 0 }
      ((s.setWidths p 3 3).setPortSt p .failed).linkLog p 0 false true
    else
      let s := s.modPort p fun x => { x with
        failedTrainings := n, step := 2, cntRetrain := satInc x.cntRetrain,
        mapRx := { x.mapRx with failed := 0 }, mapTx := { x.mapTx with failed := 0 } }
      (s.setPortSt p .training).linkLog p 0 false true

/-! ### Link keys and sessions (R546 to R549) -/

/-- The fingerprint of a key (R542). -/
def keyPrint (k : BitVec 256) : DWord :=
  (Config.digest ([0x53, 0x4B, 0x56, 0x2D, 0x4B, 0x45, 0x59, 0x2D, 0x46, 0x50] ++ toBytes 32 k.toNat)).setWidth 64

/-- The fingerprint of a slot's key; 0 for no slot. -/
def State.kidPrint (s : State) (k : BitVec 6) : DWord := if k = 0 then 0 else keyPrint (s.keySlot k.toNat).key

/-- The previous link key still held: a link slot that is retiring (R548). -/
def State.oldLink (s : State) : BitVec 6 :=
  match s.cry.kids.find? fun e => decide (e.2.usage = 2 ∧ e.2.st = 2) && s.cry.loaded.any fun x => decide (x.1 % 64 = e.1) with
  | some e => BitVec.ofNat 6 e.1
  | none => 0

/-- The link KID whose key has a fingerprint, among the two held; 0 for none. -/
def State.kidOfPrint (s : State) (f : DWord) : BitVec 6 :=
  if f = 0 then 0
  else if s.cry.curLink ≠ 0 ∧ s.kidPrint s.cry.curLink = f then s.cry.curLink
  else if s.oldLink ≠ 0 ∧ s.kidPrint s.oldLink = f then s.oldLink
  else 0

/-- The newest key that both ends hold, as the peer's last KEYX shows (R548). -/
def State.commonKid (s : State) (p : Nat) : BitVec 6 :=
  let x := s.port p
  let has := fun (k : BitVec 6) => decide (k ≠ 0) && (decide (s.kidPrint k = x.peerNew) || decide (s.kidPrint k = x.peerOld))
  if has s.cry.curLink then s.cry.curLink else if has s.oldLink then s.oldLink else 0

/-- A KEYX message (R547), START_SEQ still 0. -/
def keyxBytes (new old use : DWord) (nonce : BitVec 128) : Bytes :=
  [5, 0] ++ toBytes 2 0 ++ toBytes 4 0 ++ toBytes 8 new.toNat ++ toBytes 8 old.toNat ++ toBytes 8 use.toNat ++
  toBytes 16 nonce.toNat

/-- A transmitter queues a KEYX (R548). -/
def State.sendKeyx (s : State) (p : Nat) : State :=
  let use := s.commonKid p
  let nonce := (Config.random s.rot.draws).setWidth 128
  let s := s.modRot fun r => { r with draws := r.draws + 1 }
  let m := CtrlMsg.keyx (keyxBytes (s.kidPrint s.cry.curLink) (s.kidPrint s.oldLink) (s.kidPrint use) nonce)
  s.modPort p fun x => { x with ctrlQueue := x.ctrlQueue ++ [m], keySt := if x.keySt = 3 then 3 else x.keySt }

/-- A port enters KEYLESS (R549). -/
def State.keylessPort (s : State) (p : Nat) : State :=
  if (s.port p).keySt = 3 then s else
    (s.modPort p fun x => { x with keySt := 3, gcmRun := 0, pendRx := none }).pulse 899

/-- The session state of a port once nothing is pending. -/
def LinkPort.keyed (x : LinkPort) : BitVec 4 :=
  if x.pendTx.isSome ∨ x.pendRx.isSome then 2 else if x.kidTx = 0 ∧ x.kidRx = 0 then 0 else 1

/-- A link KID with no session left is RETIRED (R548). -/
def State.linkUsers (s : State) (k : BitVec 6) (up : Bool) : State :=
  if k = 0 then s else
    let s := s.kidUsers k up
    let x := s.kid k.toNat
    if x.st = 2 ∧ x.users = 0 then
      (s.modKid k.toNat fun x => { x with st := 3 }).log 9 0xFFFF 0 (toBytes 4 (k.toNat + 256))
    else s

/-- The transmit direction moves to its new session at START_SEQ (R548). -/
def State.switchTx (s : State) (p seq : Nat) : State :=
  match (s.port p).pendTx with
  | some (k, at_) =>
    if at_ ≠ seq then s else
      let old := (s.port p).kidTx
      let kid := BitVec.ofNat 6 k
      let s := s.modPort p fun x => { x with
        pendTx := none, kidTx := kid, nonceTx := x.nextTx, sessions := satInc x.sessions, sessionAt := x.frameCount }
      let s := s.modPort p fun x => { x with keySt := if x.keySt = 3 then 3 else x.keyed }
      (s.linkUsers kid true).linkUsers old false
  | none => s

def State.switchRx (s : State) (p seq : Nat) : State :=
  match (s.port p).pendRx with
  | some (k, at_) =>
    if at_ ≠ seq then s else
      let old := (s.port p).kidRx
      let kid := BitVec.ofNat 6 k
      let s := s.modPort p fun x => { x with pendRx := none, kidRx := kid, sessions := satInc x.sessions, gcmRun := 0 }
      let s := s.modPort p fun x => { x with keySt := x.keyed }
      (s.linkUsers kid true).linkUsers old false
  | none => s

/-- R547 to R549: a received KEYX; the answer goes out where the newest common key changes. -/
def execKeyx (p : LPort) (m : CtrlMsg) (s : State) : Out :=
  match m with
  | .keyx b =>
    let start := payF b 2 2 0 16
    let use : DWord := BitVec.ofNat 64 (bytesAt b 0x18 8)
    let before := s.commonKid p.val
    let s := s.modPort p.val fun x => { x with
      peerNew := BitVec.ofNat 64 (bytesAt b 8 8), peerOld := BitVec.ofNat 64 (bytesAt b 0x10 8) }
    let kid := s.kidOfPrint use
    let s :=
      if (use ≠ 0 ∧ kid = 0) ∨ (use = 0 ∧ s.cry.curLink ≠ 0) then s.keylessPort p.val
      else s.modPort p.val fun x => { x with pendRx := some (kid.toNat, start), keySt := 2 }
    .next (if s.commonKid p.val ≠ before then s.sendKeyx p.val else s)
  | _ => .next s

/-! ### Discovery (R275) -/

/-- The outcome of R275 for the peer's record. -/
def State.outcome (s : State) (p : Nat) (m : BitVec 14) (port : BitVec 6) (serial : DWord) : PortSt :=
  let e := (s.port p).expect.act
  let own := decide (m = s.module) && (s.fab.sh.act.id.valid || decide (serial = s.rot.otp.serial))
  if own ∧ serial = s.rot.otp.serial then .looped
  else if own then .duplicate
  else if e.en ∧ (m ≠ e.module ∨ port ≠ e.port) then .miswired
  else .active

/-- A port's discovery message. -/
def State.discoveryOf (s : State) (p : Nat) : CtrlMsg :=
  let n : BitVec 48 := Tab.get (fun _ => 0) s.cycles (p / 24)
  .discovery s.module (BitVec.ofNat 6 p) s.rot.otp.serial s.cad.epoch (n.setWidth 32) (BitVec.ofNat 32 (s.port p).stampEcho)

/-- A port enters ACTIVE (R269, R272 step 9, R548). -/
def State.enterActive (s : State) (p : Nat) (held : List Nat) : State :=
  let h := fun (v : Nat) => held.getD v 0
  let spill := ([0, 1, 2, 3].map fun v => h v - 64).sum
  let s := s.modPort p fun x => { x with
    dedicated := [0, 1, 2, 3].map (fun v => (v, 64 - h v)), shared := 768 - spill, step := 0, fast := false,
    failedTrainings := 0, badRun := 0, sparesLeft := BitVec.ofNat 2 x.sparesOf, resync := !x.fast,
    replayFrom := x.replay.head?.map (·.seq), nakSeen := none }
  ((s.setPortSt p .active).sendKeyx p).routeHeld

/-- R275: a discovery message in step 8 or while ACTIVE. -/
def execDiscovery (p : LPort) (m : CtrlMsg) (s : State) : Out :=
  match m with
  | .discovery module port serial cadence stamp echo =>
    let n : BitVec 48 := Tab.get (fun _ => 0) s.cycles (p.val / 24)
    let cyc := (n.setWidth 32 - echo).toNat
    let ns := min (cyc * 160 / (33 * max s.pwr.clk.toNat 1)) 0xFFFF
    let s := s.modPort p.val fun x => { x with
      peerValid := true, peerModule := module, peerPort := port, peerFull := serial,
      stampEcho := stamp.toNat, rtt := if echo = 0 then x.rtt else BitVec.ofNat 16 ns }
    let gap := if cadence ≤ s.cad.epoch then s.cad.epoch - cadence else cadence - s.cad.epoch
    let s := s.when (decide (1 < gap)) fun s => s.pulse 835
    let o := s.outcome p.val module port serial
    if (s.port p.val).st = .active ∧ o ≠ .active then .next (s.setPortSt p.val o)
    else if (s.port p.val).step = 8 then .next (s.modPort p.val fun x => { x with ctrlQueue := x.ctrlQueue ++ [s.discoveryOf p.val] })
    else .next s
  | .unknown _ => .next (s.modPort p.val fun x => { x with unknownMsg := x.unknownMsg + 1 })
  | _ => .next s

/-- A port in a state held under R275 whose peer a committed LNK_EXPECT admits goes to ACTIVE (R275). No flit has moved
since it was held: credits counted before stand (R269). -/
def State.admitPeer (s : State) (p : Nat) : State :=
  let x := s.port p
  if x.st = .miswired ∧ x.peerValid then
    let e := x.expect.act
    if e.en ∧ (x.peerModule ≠ e.module ∨ x.peerPort ≠ e.port) then s else
      let u := s.enterActive p []
      if x.dedicated = [] then u else u.modPort p fun y => { y with dedicated := x.dedicated, shared := x.shared }
  else s

/-! ### Training (R272, R273) -/

/-- Step 6: the maps and widths that the failed positions leave. -/
def State.settle (s : State) (p : Nat) (fact : TrainFact) : State :=
  let x := s.port p
  let rx := mapFor (x.mapRx.failed ||| fact.failed) x.reversed
  let tx := mapFor (x.mapTx.failed ||| fact.peerFailed) false
  let wr := widthFor rx x.reversed x.maxw
  let wt := widthFor tx false x.maxw
  let s := s.modPort p fun x => { x with mapRx := rx, mapTx := tx }
  if (wr = 3 ∨ wt = 3) ∧ x.fast then s.trainingFailed p
  else if wr = 3 ∨ wt = 3 then
    let s := (s.setWidths p 3 3).modPort p fun x => { x with step := 0, failedTrainings := 0 }
    (s.setPortSt p .failed).linkLog p 0 false true
  else
    let s := s.setWidths p wr wt
    s.modPort p fun x => { x with step := 7, sparesLeft := BitVec.ofNat 2 x.sparesOf }

/-- Positions that a step finds failed. -/
def LinkPort.fail (x : LinkPort) (fact : TrainFact) : LinkPort :=
  { x with mapRx := { x.mapRx with failed := x.mapRx.failed ||| fact.failed },
           mapTx := { x.mapTx with failed := x.mapTx.failed ||| fact.peerFailed } }

/-- A step of R272 meets its condition. -/
def execTrainingStepComplete (p : LPort) (fact : TrainFact) (s : State) : Out :=
  let x := s.port p.val
  match x.step with
  | 2 => .next (s.modPort p.val fun x => { x.fail fact with step := 3, polarity := fact.polarity })
  | 3 => .next ((s.modPort p.val fun x => { x with step := if x.fast then 6 else 4 }).setPortSt p.val
      (if x.fast then .retraining else .training))
  | 4 => .next (s.modPort p.val fun x => { x with step := 5, reversed := fact.reversed })
  | 5 => .next (s.modPort p.val fun x => { x.fail fact with step := 6 })
  | 6 => .next (s.settle p.val fact)
  | 7 =>
    if x.fast then .next (s.enterActive p.val fact.peerHeld)
    else .next (s.modPort p.val fun x => { x with step := 8, ctrlQueue := x.ctrlQueue ++ [s.discoveryOf p.val] })
  | 8 =>
    if !x.peerValid then .next s else
      match s.outcome p.val x.peerModule x.peerPort x.peerFull with
      | .active => .next (s.enterActive p.val fact.peerHeld)
      | o => .next ((s.modPort p.val fun x => { x with step := 0 }).setPortSt p.val o)
  | _ => .next s

/-- A step of R272 exceeds its timeout. -/
def execTrainingStepTimeout (p : LPort) (fact : TrainFact) (s : State) : Out :=
  let x := s.port p.val
  match x.step with
  | 2 => .next (s.modPort p.val fun x => { x.fail fact with step := 3, polarity := fact.polarity })
  | 3 => if x.fast then .next (s.trainingFailed p.val) else .next (s.setPortSt p.val .oneWay)
  | 4 => .next ((s.modPort p.val fun x => { x with step := 0 }).setPortSt p.val .laneOrder)
  | 5 => .next (s.modPort p.val fun x => { x.fail fact with step := 6 })
  | 7 => .next (s.trainingFailed p.val)
  | 8 => .next (s.trainingFailed p.val)
  | _ => .next s

/-- R272 step 1. -/
def execSignalDetect (p : LPort) (positions : BitVec 18) (s : State) : Out :=
  let s := s.modPort p.val fun x => { x with signal := x.signal ||| positions }
  let x := s.port p.val
  if x.st = .openCircuit ∧ enough x.signal ∧ !x.disable then
    .next ((s.modPort p.val fun x => { x with step := 2, fast := false }).setPortSt p.val .training)
  else .next s

/-- R272, R275: signal is lost on positions. -/
def execLossOfSignal (p : LPort) (positions : BitVec 18) (s : State) : Out :=
  let before := (s.port p.val).signal
  let now := (maskBits (before &&& positions)).length
  let s := s.modPort p.val fun x => { x with signal := x.signal &&& ~~~positions }
  let x := s.port p.val
  let heldSt := decide (x.st = .miswired ∨ x.st = .looped ∨ x.st = .duplicate ∨ x.st = .laneOrder)
  -- positions in service that have no signal
  let dark := (maskBits (~~~x.signal &&& ~~~x.mapRx.failed)).length
  let lost := if (x.st = .active ∨ x.st = .retraining) ∧ 0 < now then max now dark else now
  if x.disable ∨ now = 0 then .next s
  else if heldSt then
    if x.signal = 0 then .next ((s.modPort p.val fun x => { x with peerValid := false }).fullTraining p.val) else .next s
  else if 4 ≤ lost then .next ((s.modPort p.val fun x => { x with peerValid := false }).fullTraining p.val)
  else .next s

/-- R273: 256 cadence periods after a port failed. -/
def execFailedPortRetrain (p : LPort) (s : State) : Out :=
  if (s.port p.val).st = .failed ∧ (s.port p.val).failedAt + 256 ≤ s.cad.elapsed then .next (s.fullTraining p.val)
  else .next s

/-! ### LNK_CTRL (R282) -/

/-- A write of LNK_CTRL. FAST acts on an ACTIVE port only; a port in LANE_ORDER is held until its cable is replaced
(R272). -/
def State.lnkCtrl (s : State) (p : Nat) (v : Word) : State :=
  let x := s.port p
  let s := s.when (decide (v &&& 0xFFFFFF10 ≠ 0)) fun s => s.modPort p fun x => { x with err := x.err.reserved }
  if fld v 2 2 = 3 then s.modPort p fun x => { x with err := x.err.refuse } else
    let dis := bit v 5
    let s := s.modPort p fun x => { x with disable := dis, maxw := fld v 2 2, substEn := bit v 1 }
    let s := s.when (bit v 0) fun s => s.modPort p fun x => { x with
      cntCorr := 0, cntUncorr := 0, cntReplay := 0, cntRetrain := 0, cntLost := 0 }
    if dis then
      if x.disable then s else
        ((s.modPort p fun x => { x with step := 0, peerValid := false }).setWidths p 3 3).setPortSt p .disabled
    else if x.disable ∨ (bit v 7 ∧ x.st ≠ .laneOrder) then s.fullTraining p
    else if bit v 6 then s.fastTraining p
    else s

def execRetrainPort (p : LPort) (v : Word) (s : State) : Out := .next (s.lnkCtrl p.val v)
def execFastRetrain (p : LPort) (v : Word) (s : State) : Out := .next (s.lnkCtrl p.val v)
def execDisablePort (p : LPort) (v : Word) (s : State) : Out := .next (s.lnkCtrl p.val v)
def execClrCnt (p : LPort) (v : Word) (s : State) : Out := .next (s.lnkCtrl p.val v)
def execMaxWidth (p : LPort) (v : Word) (s : State) : Out := .next (s.lnkCtrl p.val v)
def execSubstEn (p : LPort) (v : Word) (s : State) : Out := .next (s.lnkCtrl p.val v)

/-! ### Lane substitution (R277 to R280) -/

/-- The spare a receiver asks for: the lowest-numbered healthy unused one by the sender's numbers, `skip` left out. -/
def LinkPort.spareFor (x : LinkPort) (skip : Option Nat) : Option Nat :=
  (if x.reversed then (goodSpares x.mapRx.failed).reverse else goodSpares x.mapRx.failed).find? fun i =>
    decide ((if i = 0 then x.mapRx.subA else x.mapRx.subB) = 0x3F) && decide (some i ≠ skip)

/-- A receiver judges a logical lane failing (R277, R279). -/
def State.laneFailing (s : State) (p lane : Nat) (skip : Option Nat) : State :=
  let x := s.port p
  if x.st ≠ .active ∨ !x.substEn then s
  else match x.substRx, x.spareFor skip with
    | some b, _ => if b.llane = lane then s else s.fastTraining p
    | none, none => s.fastTraining p
    | none, some i =>
      s.modPort p fun x => { x with
        substRx := some { llane := lane, spare := i },
        ctrlQueue := x.ctrlQueue ++ [.substReq (Fin.ofNat 16 lane) (Fin.ofNat 2 (spareOver x.reversed i))] }

/-- R278, R279: the transmitting end answers. -/
def execSubstReq (p : LPort) (m : CtrlMsg) (s : State) : Out :=
  match m with
  | .substReq l i =>
    let x := s.port p.val
    let nak := fun (c : Nat) => s.modPort p.val fun x => { x with ctrlQueue := x.ctrlQueue ++ [.substNak l i (BitVec.ofNat 8 c)] }
    let used := if i.val = 0 then x.mapTx.subA else x.mapTx.subB
    let mine := x.substTx.any fun b => decide (b.spare = i.val)
    if x.st ≠ .active then .next (nak 3)
    else if used ≠ 0x3F ∨ mine then .next (nak 1)
    else if x.mapTx.failed.getLsbD (16 + i.val) then .next (nak 2)
    else .next (s.modPort p.val fun x => { x with
      substTx := some { llane := l.val, spare := i.val }, ctrlQueue := x.ctrlQueue ++ [.substAck l i 0] })
  | _ => .next s

/-- R278. -/
def execSubstAck (p : LPort) (m : CtrlMsg) (s : State) : Out :=
  match m with
  | .substAck _ _ seq =>
    .next (s.modPort p.val fun x => { x with substRx := x.substRx.map fun b => { b with switchSeq := some seq.toNat } })
  | _ => .next s

/-- R279. -/
def execSubstNak (p : LPort) (m : CtrlMsg) (s : State) : Out :=
  match m with
  | .substNak l i cause =>
    let s := s.modPort p.val fun x => { x with substRx := none }
    if cause = 3 then .next s else .next (s.laneFailing p.val l.val (some (spareOver (s.port p.val).reversed i.val)))
  | _ => .next s

/-- The map of a direction once a lane travels on a spare. -/
def LaneMap.substitute (m : LaneMap) (b : Subst) (reversed : Bool) : LaneMap :=
  ({ m with failed := setBit m.failed (laneOf reversed b.llane) true } : LaneMap).place b.spare b.llane

/-- The receiver switches at SWITCH_SEQ (R278): an event, and a record in the log. -/
def State.laneSwitchRx (s : State) (p seq : Nat) : State :=
  match (s.port p).substRx with
  | some b =>
    if b.switchSeq ≠ some seq then s else
      let s := s.modPort p fun x => { x with mapRx := x.mapRx.substitute b x.reversed, substRx := none }
      ((s.modPort p fun x => { x with sparesLeft := BitVec.ofNat 2 x.sparesOf }).pulse (592 + p)).linkLog p b.llane true false
  | none => s

def State.laneSwitchTx (s : State) (p seq : Nat) : State :=
  match (s.port p).substTx with
  | some b =>
    if b.switchSeq ≠ some seq then s else
      ((s.modPort p fun x => { x with mapTx := x.mapTx.substitute b false, substTx := none }).pulse (592 + p)).linkLog
        p b.llane true false
  | none => s

/-- R280: a position's eye. -/
def execEyeMeasurement (p : LPort) (pos : Fin 18) (height width : BitVec 8) (s : State) : Out :=
  let x := s.port p.val
  let old := Tab.get (fun _ => ({} : Eye)) x.eyes pos.val
  let low := if height < 12 then old.lowRun + 1 else 0
  let e : Eye := { valid := true, height := height, width := width, age := 0, lowRun := low }
  let s := s.modPort p.val fun x => { x with eyes := Tab.insert x.eyes pos.val e }
  let s := s.when (decide (height < 20)) fun s => s.pulse (592 + p.val)
  let lane := if pos.val < 16 then laneOf x.reversed pos.val
    else if pos.val = 16 then x.mapRx.subA.toNat else x.mapRx.subB.toNat
  .next (if 4 ≤ low ∧ lane < 16 then s.laneFailing p.val lane none else s)

/-- At the end of a cadence period, lanes above 2^-10 corrected symbols are failing (R277); the eyes age (R286). Each of
the lanes in use carries 12.8 × 10^9 symbols a second. -/
def State.linkPeriod (s : State) (p : Nat) : State :=
  let x := s.port p
  let limit := 128 * s.cad.periodNs.toNat / 10 / 1024
  let bad := (x.laneCorr.filter fun e => decide (limit < e.2)).map (·.1)
  let age := fun (e : Nat × Eye) => (e.1, { e.2 with age := satInc e.2.age })
  let s := s.modPort p fun x => { x with laneCorr := [], eyes := x.eyes.map age }
  let s := s.each bad fun s l => s.laneFailing p l none
  if (s.port p).st = .active then s.modPort p fun x => { x with ctrlQueue := x.ctrlQueue ++ [s.discoveryOf p] } else s

/-! ### Receiving (R264, R265, R268) -/

/-- Credits returned for a channel (R268): up to 64 dedicated first, the rest shared. -/
def LinkPort.credited (x : LinkPort) (v n : Nat) : LinkPort :=
  let d := Tab.get (fun _ => 0) x.dedicated v
  { x with dedicated := Tab.insert x.dedicated v (min (d + n) 64), shared := x.shared + (d + n - 64) }

/-- A cumulative ACK frees the frames before it; a first NAK for its value asks for a replay (R264, R265). -/
def LinkPort.acked (x : LinkPort) (nak : Bool) (ack : Nat) : LinkPort :=
  let rest := x.replay.dropWhile fun f => decide ((ack + 2 ^ 16 - f.seq) % 2 ^ 16 < 2 ^ 15)
  let x := { x with replay := rest }
  if nak ∧ x.nakSeen ≠ some ack then { x with nakSeen := some ack, replayFrom := rest.head?.map (·.seq) } else x

/-- The run of codewords that fail to decode after a frame's two codewords, and the longest it was in it (R266). -/
def Frame.badAfter (f : Frame) (run : Nat) : Nat × Nat :=
  let a := if f.first then 0 else run + 1
  let b := if f.second then 0 else a + 1
  (b, max a b)

/-- Both codewords of a frame decode and its CRC-32C matches (R265). -/
def Frame.whole (f : Frame) : Bool := f.first && f.second && f.crcOk

/-- A frame is discarded (R265, R266, R549). -/
def State.discardFrame (s : State) (p : Nat) (f : Frame) (nak : Bool) : State :=
  let r := Frame.badAfter f (s.port p).badRun
  let s := s.modPort p fun x => { x with
    cntUncorr := satInc x.cntUncorr, awaiting := x.awaiting || nak, nakDue := x.nakDue || nak, badRun := r.1 }
  if 16 ≤ r.2 then s.fastTraining p else s

/-- The frame that the receiver expects after a full training of a link whose sender dropped what it held (R274): a new
frame names its own SEQ; its count follows by R546. -/
def LinkPort.resynced (x : LinkPort) (f : Frame) : LinkPort :=
  if x.resync ∧ Frame.whole f ∧ !f.replay ∧ (f.ftype = 1 ∨ f.ftype = 2) ∧ (f.seq - x.rxFrames.setWidth 16).toNat < 2 ^ 15 then
    { x with rxFrames := x.rxFrames + (f.seq - x.rxFrames.setWidth 16).setWidth 64, awaiting := false, resync := false }
  else x

/-- R265: a frame arrives. Known control messages have rows of their own; unknown ones are counted (R276). The ACK and
NAK of a whole frame count even where its SEQ is not the expected one. -/
def State.frameIn (s : State) (p : Nat) (f : Frame) : State :=
  let x := s.port p
  if x.st ≠ .active ∧ x.step < 7 then s else
  let n := (f.corrected.map (·.2)).sum
  let corr := f.corrected.foldl (fun t c => Tab.insert t c.1.val (Tab.get (fun _ => 0) t c.1.val + c.2)) x.laneCorr
  let s := s.modPort p fun x => LinkPort.resynced { x with cntCorr := satAdd x.cntCorr n, laneCorr := corr } f
  let x := s.port p
  if !Frame.whole f ∨ (f.ftype ≠ 1 ∧ f.ftype ≠ 2) then s.discardFrame p f true
  else if f.seq.toNat ≠ x.rxFrames.toNat % 2 ^ 16 ∨ (x.awaiting ∧ !f.replay) then
    (s.when (decide (x.kidRx = 0) || f.tagOk) fun s => s.modPort p fun x => x.acked f.nak f.ack.toNat).discardFrame p f false
  else
    let seq := f.seq.toNat
    -- the session of the frame (R548): the pending one from START_SEQ on
    let s := (s.laneSwitchRx p seq).switchRx p seq
    if (s.port p).kidRx ≠ 0 ∧ !f.tagOk then
      let s := s.modPort p fun x => { x with authFail := satInc x.authFail, gcmRun := x.gcmRun + 1 }
      let s := s.discardFrame p f true
      if 16 ≤ (s.port p).gcmRun then s.keylessPort p else s
    else
      let held := f.slots.foldl (fun t c => Tab.insert t c.1.val (Tab.get (fun _ => 0) t c.1.val + 1)) x.rxHeld
      let s := s.modPort p fun x => { x with
        rxFrames := x.rxFrames + 1, awaiting := false, resync := false, badRun := 0, gcmRun := 0, rxHeld := held,
        unknownMsg := x.unknownMsg + (f.ctrl.filter fun m => match m with
          | .unknown _ => true
          | _ => false).length }
      let s := s.modPort p fun x => x.acked f.nak f.ack.toNat
      let s := s.modPort p fun x => [0, 1, 2, 3].foldl (fun x v => x.credited v (fldN f.credits (8 * v) 8)) x
      s.routeHeld

def execLinkFrameReceive (p : LPort) (f : Frame) (s : State) : Out := .next (s.frameIn p.val f)

/-! ### Transmitting (R264, R276, R424) -/

/-- A transmit entry of the regulator (DIR 0) that the packet's composition is in guarantee under (R422, R424). -/
def State.txGuarantee (s : State) (p : Nat) (t : TxPkt) : Option Nat :=
  match s.slotOf t.pkt.cid with
  | none => none
  | some slot =>
    match s.fab.sh.act.regs.find? fun e => decide (p * 32 ≤ e.1 ∧ e.1 < p * 32 + 32) && e.2.valid &&
        decide (e.2.slot.toNat = slot) && !e.2.dir with
    | none => none
    | some e =>
      let left := t.since + t.pkt.deadline.toNat - s.now
      if inGuarantee (s.level (.port p) e.1) (regDepth e.2.guar.toNat 100) left (decide (t.pkt.deadline ≠ 0)) then some e.1
      else none

/-- The packets that may give the next flit: the one begun on each channel, else those waiting, where a credit is held;
none of a KEYLESS port (R549). -/
def LinkPort.ready (x : LinkPort) : List TxPkt :=
  x.txQueue.filter fun t =>
    x.credit t.vc && (t.begun || !(x.txQueue.any fun u => decide (u.vc = t.vc) && u.begun)) && decide (x.keySt ≠ 3)

/-- The participant a packet of channel 0 or 2 belongs to: its composition's slot, or 512 for transit. -/
def State.txSlot (s : State) (t : TxPkt) : Nat := (s.slotOf t.pkt.cid).getD 512

/-- The least of a list by a rank, the earliest of equals. -/
def leastBy {α : Type} (rank : α → Nat) : List α → Option α
  | [] => none
  | a :: t => match leastBy rank t with
    | none => some a
    | some b => if rank b < rank a then some b else some a

/-- The slots of a frame that a port's setting leaves open to virtual channels 0 and 2 (R444). -/
def State.openSlots (s : State) (p : Nat) : Nat := 23 * min s.pwr.link.toNat (Tab.get (fun _ => 16) s.pwr.parts (200 + p)) / 16

/-- The packet that fills the next slot, and the regulator entry charged (R424). `free` is false once the slots open to
virtual channels 0 and 2 are used. -/
def State.nextFlit (s : State) (p : Nat) (free : Bool) : Option (TxPkt × Option Nat) :=
  let x := s.port p
  let rs := x.ready
  match rs.find? fun t => decide (t.vc = 3) && decide (15 ≤ x.slotsSince) with
  | some t => some (t, none)
  | none =>
    match rs.find? fun t => decide (t.vc = 1) with
    | some t => some (t, none)
    | none =>
      let reg := rs.filter fun t => free && decide (t.vc = 0 ∨ t.vc = 2)
      match reg.find? fun t => t.begun with
      | some t => some (t, none)
      | none =>
        match reg.find? fun t => (s.txGuarantee p t).isSome with
        | some t => some (t, s.txGuarantee p t)
        | none => (leastBy (fun t => (s.txSlot t + 512 - x.lastSlot) % 513) reg).map fun t => (t, none)

/-- One flit leaves: a credit is used, a token charged on the guaranteed path, the turn taken on the shared one. -/
def State.takeFlit (s : State) (p : Nat) (t : TxPkt) (entry : Option Nat) : State :=
  let d := Tab.get (fun _ => 0) (s.port p).dedicated t.vc
  let turn := s.txSlot t
  let s := match entry with
    | some k => s.setLevel (.port p) k (s.level (.port p) k - 64 * (t.left.length : Int))
    | none => s.when (!t.begun && decide (t.vc = 0 ∨ t.vc = 2)) fun s => s.modPort p fun x => { x with lastSlot := turn }
  let step := fun (u : TxPkt) => if u = t then { u with left := u.left.drop 1, begun := true } else u
  s.modPort p fun x => { x with
    dedicated := Tab.insert x.dedicated t.vc (d - 1), shared := if d = 0 then x.shared - 1 else x.shared,
    slotsSince := if t.vc = 3 then 0 else x.slotsSince + 1,
    txQueue := (x.txQueue.map step).filter fun u => !u.left.isEmpty }

/-- Fill up to 23 slots: the slots, and the packets whose last flit goes in them. -/
def State.fillSlots (s : State) (p : Nat) (left : Nat) : Nat → List (Nat × Flit) × List FabPacket × State
  | 0 => ([], [], s)
  | fuel + 1 =>
    match s.nextFlit p (decide (left ≠ 0)) with
    | none => ([], [], s)
    | some (t, entry) =>
      match t.left with
      | [] => ([], [], s)
      | fl :: _ =>
        let r := (s.takeFlit p t entry).fillSlots p (if t.vc = 0 ∨ t.vc = 2 then left - 1 else left) fuel
        ((t.vc, fl) :: r.1, if t.left.length = 1 then t.pkt :: r.2.1 else r.2.1, r.2.2)

/-- The control messages of a frame, START_SEQ and SWITCH_SEQ set to its SEQ plus 16 (R278, R547). -/
def ctrlAt (seq : Nat) : CtrlMsg → CtrlMsg
  | .substAck l i _ => .substAck l i (BitVec.ofNat 16 (seq + 16))
  | .keyx b => .keyx (b.take 2 ++ toBytes 2 ((seq + 16) % 2 ^ 16) ++ b.drop 4)
  | m => m

/-- What sending a control message settles at the sender. -/
def State.ctrlSent (s : State) (p seq : Nat) (m : CtrlMsg) : State :=
  match m with
  | .substAck _ _ _ => s.modPort p fun x => { x with
      substTx := x.substTx.map fun b => { b with switchSeq := some ((seq + 16) % 2 ^ 16) } }
  | .keyx b =>
    let kid := s.kidOfPrint (BitVec.ofNat 64 (payF b 0x18 8 0 64))
    s.modPort p fun x => { x with
      pendTx := some (kid.toNat, (seq + 16) % 2 ^ 16), nextTx := BitVec.ofNat 128 (leNat ((b.drop 0x20).take 16)), keySt := if x.keySt = 3 then 3 else 2 }
  | _ => s

/-- Whether a control frame may go now (R276). -/
def LinkPort.ctrlDue (x : LinkPort) : Bool :=
  !x.ctrlQueue.isEmpty && (decide (x.st ≠ .active) || decide (1023 ≤ x.framesSince) ||
    x.substTx.isSome || x.substRx.isSome || x.ctrlQueue.any fun m => match m with
      | .substNak _ _ _ => true
      | _ => false)

/-- CREDITS of the next frame: up to 255 of each channel (R263). -/
def LinkPort.creditField (x : LinkPort) : Word :=
  [0, 1, 2, 3].foldl (fun w v => w ||| put 32 (8 * v) (BitVec.ofNat 8 (min (Tab.get (fun _ => 0) x.creditDue v) 255))) 0

/-- A stored frame's header (R263). -/
def SentFrame.header (f : SentFrame) (replay : Bool) : Bytes :=
  frameHeader (if f.isCtrl then 2 else 1) replay f.nak f.seq f.ack f.credits (slotVcs f.slots f.ctrl)

/-- Send a stored frame again (R264, R266). -/
def State.resend (s : State) (p seq : Nat) : State :=
  let x := s.port p
  match x.replay.find? fun f => decide (f.seq = seq) with
  | none => s.modPort p fun x => { x with replayFrom := none }
  | some f =>
    let next := (x.replay.dropWhile fun g => decide (g.seq ≠ seq)).drop 1
    let up := fun (g : SentFrame) => if g.seq = seq then { g with replays := g.replays + 1 } else g
    let s := s.modPort p fun x => { x with
      cntReplay := satInc x.cntReplay, replay := x.replay.map up, replayFrom := next.head?.map (·.seq) }
    let s := s.emit (.frame p true f.nak f.seq f.ack f.credits f.slots f.ctrl (messageBytes (f.header true) f.sealed))
    if 8 ≤ f.replays + 1 then s.fastTraining p else s

/-- R264, R276, R424: the next frame of a port: a replay where one is due, a control frame, else traffic or idle. -/
def State.frameOut (s : State) (p : Nat) : State :=
  let x := s.port p
  if x.st ≠ .active ∧ x.step ≠ 8 then s else
  match x.replayFrom with
  | some seq => s.resend p seq
  | none =>
    let full := decide (256 ≤ x.replay.length)
    let seq := if full then (x.frameCount.toNat + 2 ^ 16 - 1) % 2 ^ 16 else x.frameCount.toNat % 2 ^ 16
    let ack := (x.rxFrames.toNat + 2 ^ 16 - 1) % 2 ^ 16
    if full then
      let h := frameHeader 1 false x.nakDue seq ack 0 []
      s.emit (.frame p false x.nakDue seq ack 0 [] []
        (messageBytes h (s.sealFrame p (x.frameCount.toNat - 1) h (slotBytes [] []))))
    else
    let s := (s.laneSwitchTx p seq).switchTx p seq
    let x := s.port p
    let isCtrl := x.ctrlDue
    let msgs := if isCtrl then (x.ctrlQueue.take 23).map (ctrlAt seq) else []
    let fill := if isCtrl ∨ x.st ≠ .active then ([], [], s) else s.fillSlots p (s.openSlots p) 23
    let credits := x.creditField
    let s := fill.2.2
    let f : SentFrame := { seq := seq, isCtrl := isCtrl, nak := x.nakDue, ack := ack, credits := credits, slots := fill.1,
                           ctrl := msgs, pkts := fill.2.1 }
    let f := { f with sealed := s.sealFrame p x.frameCount.toNat (f.header false) (slotBytes f.slots f.ctrl) }
    let due := fun (t : Tab Nat) => [0, 1, 2, 3].foldl (fun t v =>
      Tab.insert t v (Tab.get (fun _ => 0) t v - min (Tab.get (fun _ => 0) t v) 255)) t
    let s := s.modPort p fun x => { x with
      frameCount := x.frameCount + 1, replay := x.replay ++ [f], nakDue := false, creditDue := due x.creditDue,
      ctrlQueue := if isCtrl then x.ctrlQueue.drop 23 else x.ctrlQueue,
      framesSince := if isCtrl then 0 else x.framesSince + 1 }
    let s := s.each msgs fun s m => s.ctrlSent p seq m
    let s := s.emit (.frame p false f.nak seq ack credits f.slots msgs (messageBytes (f.header false) f.sealed))
    -- a session of 2^36 frames is followed by the next (R548)
    let y := s.port p
    if y.kidTx ≠ 0 ∧ (y.frameCount - y.sessionAt).toNat = 2 ^ 36 then s.sendKeyx p else s

def execLinkFrameTransmit (p : LPort) (s : State) : Out := .next (s.frameOut p.val)

end Sys2Proof.Machine
end

