-- ==== Sys2Proof/Machine/Fabric.lean ====
section
/-! DEFINITION. Fabric ingress through windows (R288, R291 to R294, R297, R309) and the answers that leave, barrier
traffic between modules (R317), collectives (R311 to R316). -/

namespace Sys2Proof.Machine

/-! ### Windows -/

/-- Window `w` of a slot: its entry's number, where W lies below NWIN (R291). -/
def State.winEntry (s : State) (slot w : Nat) : Option Nat :=
  let wb := s.fab.sh.act.wb slot
  if w < wb.1.toNat then some (wb.2.toNat + w) else none

/-- What steps 1 to 6 of R293 find: the entry, the MPA and the page; or the STATUS of the first failure. -/
inductive WinRes
  | ok (entry mpa : Nat) (page : XEntry)
  | bad (status : Nat)
deriving DecidableEq, Repr

/-- The walk of an offset (R294): LOCAL leaves only; none where a table read finds an unreadable line. -/
def State.winWalk (s : State) (cid : Cid) (w off : Nat) (e : Win) (readable : Bool) : Option XEntry :=
  let tag : Ctx := BitVec.ofNat 12 w
  match s.fab.winLook.find? fun x => x.covers cid tag off with
  | some x => some x
  | none => if !readable then none else
    match s.walkFrom cid tag off false 3 (e.root.toNat * 4096) with
    | .hit x => if entryKind x.leaf = 0 then some x else none
    | _ => none

/-- R293 steps 1 to 6 for an operation on window `w` at `off`. -/
def State.winResolve (s : State) (cid : Cid) (ctx : Option Ctx) (w off : Nat) (a : Acc) (readable : Bool) : WinRes :=
  match s.slotOf cid with
  | none => .bad 1
  | some slot =>
    match s.winEntry slot w with
    | none => .bad 1
    | some i =>
      let e := s.win i
      let ctxOk := e.scope || (match ctx with
        | some c => decide (c = e.ctx)
        | none => true)
      if !e.valid ∨ !ctxOk ∨ !e.rights.getLsbD a.bit then .bad 1
      else if e.size.toNat * 2 ^ 21 ≤ off then .bad 2
      else match s.winWalk cid w off e readable with
        | none => .bad 1
        | some x =>
          if x.leaf.getLsbD (4 + a.bit) then .ok i (entryOa x.leaf + (off - x.base)) x else .bad 1

/-- The operation of a packet (R215, R293); an arrival acts as an atomic, a release as a write (log entry 30). -/
def accOf (type : BitVec 8) : Acc := if type = 1 then .rd else if type = 2 ∨ type = 8 then .wr else .atomic

/-- The router stop of a port; the router's own turn-back uses the first (R139, R289). -/
def portStop (p : Nat) : Nat := if p < 48 then 0x250 + p else 0x250

/-- A refusal at ingress (R293): counted, answered. -/
def State.fabRefuse (s : State) (port : Nat) (p : FabPacket) (status : Nat) : State :=
  let s := (s.drainPacket port p).modFab fun f => { f with cntRefused := satInc f.cntRefused }
  if isRequest p then s.routePacket (fabReply s.module p status 0 0) else s

/-- The key of a fabric request at its target. -/
def fabKey (p : FabPacket) : Nat := p.srcMod.toNat * 2 ^ 14 + p.ftag.toNat

/-- Entries of the ingress queue in use (R309): by member of the rack group, or by the hall. -/
def State.ingressCount (s : State) (m : BitVec 14) (up : Bool) : State :=
  let k := m.toNat % 64
  let n := Tab.get (fun _ => 0) s.fab.ingressUse k
  if m = s.module then s
  else if sameRack m s.module then
    s.modFab fun f => { f with ingressUse := Tab.insert f.ingressUse k (if up then n + 1 else n - 1) }
  else s.modFab fun f => { f with hallUse := if up then f.hallUse + 1 else f.hallUse - 1 }

/-- Keep a window's translation. -/
def State.winInstall (s : State) (x : XEntry) : State :=
  s.modFab fun f => { f with winLook := keepNewest 8192 f.winLook x }

/-- A request in the window aperture (R293, R297). -/
def State.windowIn (s : State) (port : Nat) (p : FabPacket) (ecc : Ecc) : State :=
  let w := fldN p.addr 36 8
  let off := fldN p.addr 0 36
  let full := !sameRack p.srcMod s.module && decide (4224 ≤ s.fab.hallUse)
  match s.winResolve p.cid (some p.ctx) w off (accOf p.type) (!ecc.lost) with
  | .bad st => s.fabRefuse port p st
  | .ok i mpa x =>
    let q := { zeroPacket with
      type := p.type, cid := p.cid, ctx := p.ctx, cls := p.cls, deadline := p.deadline, rights := p.rights, byteEn := p.byteEn,
      operand := p.operand, data := p.data }
    if p.type = 7 ∨ p.type = 8 then
      let q := { q with dest := BitVec.ofNat 10 (s.barHome mpa), src := BitVec.ofNat 10 (portStop port),
                        epoch := s.epochOfCid p.cid, addr := BitVec.ofNat 60 mpa }
      ((s.winInstall x).drainPacket port p).emit (.mesh q)
    else if full then s
    else match (s.winInstall x).issue (.fabric port (fabKey p)) (portStop port) q (.localMpa mpa) none with
      | none => s
      | some s =>
        let r : WinReq := { window := i, key := fabKey p, port := port, via := (x.base, x.log2) }
        let w : RegWait := { queue := .port port, pkt := q, since := s.now }
        let s := s.letIn w (if p.type = 2 then 2 else 1)
        ((s.modFab fun f => { f with winReqs := f.winReqs ++ [r] }).drainPacket port p).ingressCount p.srcMod true

/-- The answer of a target leaves on the fabric (R293, R301). -/
def State.fabricAnswer (s : State) (port key : Nat) (r : MeshReq) (p : Packet) : State :=
  let m : BitVec 14 := BitVec.ofNat 14 (key / 2 ^ 14)
  let s := s.modFab fun f => { f with winReqs := f.winReqs.filter fun w => !(decide (w.key = key) && decide (w.port = port)) }
  let s := s.ingressCount m false
  s.routePacket { zeroFab with
    type := p.type, destMod := m, srcMod := s.module, status := p.status, ftag := BitVec.ofNat 14 key, ctx := r.pkt.ctx,
    cid := r.pkt.cid, cls := r.pkt.cls, data := p.data, operand := p.operand }

/-! ### Collectives -/

/-- Whether the input, the output of OP is BF16 (R324). -/
def opInBf (op : BitVec 2) : Bool := decide (op = 1 ∨ op = 2)
def opOutBf (op : BitVec 2) : Bool := decide (op = 2 ∨ op = 3)
/-- Elements of a 64-byte input chunk. -/
def opLanes (op : BitVec 2) : Nat := if opInBf op then 32 else 16

/-- The FP32 values of a local chunk (R312). -/
def chunkIn (op : BitVec 2) (d : Line) : List Word :=
  if opInBf op then (List.range 32).map fun i => BitVec.ofNat 32 (widen .bf16 (fldN d (16 * i) 16))
  else (List.range 16).map fun i => fld d (32 * i) 32

/-- The FP32 partial sums of a packet. -/
def chunkSums (op : BitVec 2) (p : FabPacket) : List Word :=
  let lo := (List.range 16).map fun i => (fld p.data (32 * i) 32 : Word)
  if opInBf op then lo ++ (List.range 16).map fun i => (fld (p.data2.getD 0) (32 * i) 32 : Word) else lo

/-- FP32 lanes as bytes. -/
def sumBytes (ls : List Word) : Bytes := ls.flatMap fun l => toBytes 4 l.toNat

/-- The result of a chunk in the output format (R112, R313). -/
def chunkOut (op : BitVec 2) (ls : List Word) : Bytes :=
  if opOutBf op then ls.flatMap fun l => toBytes 2 (toFloat .bf16 .rne false (Fmt.fp32.read l.toNat)).1 else sumBytes ls

/-- Lane-wise sums in arrival order (R112). -/
def addLanes (a b : List Word) : List Word := List.zipWith (fun x y => BitVec.ofNat 32 (fAdd .fp32 x.toNat y.toNat).1) a b

/-- The entry of a collective by CID and COLL_ID. -/
def State.collOf (s : State) (cid : Cid) (id : BitVec 16) : Option Nat :=
  (s.fab.sh.act.coll.find? fun e => e.2.valid && decide (e.2.cid = cid) && decide (e.2.collId = id)).map (·.1)

/-- A packet of a collective with payload `b`. -/
def State.collPacket (s : State) (c : Nat) (type : BitVec 8) (chunk : Nat) (b : Bytes) : FabPacket :=
  let e := s.collSh c
  { zeroFab with
    type := type, srcMod := s.module, cid := e.cid, collId := e.collId, gen := (s.collRun c).gen,
    addr := BitVec.ofNat 46 (0x300000000000 + c * 2 ^ 32 + chunk * 64), data := Line.ofBytes b,
    data2 := if 64 < b.length then some (Line.ofBytes (b.drop 64)) else none }

/-- Send a collective packet to a neighbour of the tree. -/
def State.collSend (s : State) (port : Nat) (p : FabPacket) : State :=
  let x := s.port port
  if x.gone then s.modFab fun f => { f with cntUnreach := satInc f.cntUnreach }
  else s.sendOn (BitVec.ofNat 7 port) { p with destMod := x.peerModule }

/-- Write bytes of a result through window DEST_WIN (R313, R215): whether every piece was accepted. -/
def State.collStore (s : State) (cid : Cid) (w : Nat) : Nat → Nat → Bytes → Bool × State
  | 0, _, _ => (true, s)
  | fuel + 1, off, b =>
    if b.isEmpty then (true, s) else
      let n := min (64 - off % 64) b.length
      match s.winResolve cid none w off .wr true with
      | .bad _ => (false, s)
      | .ok i mpa x =>
        let e := s.win i
        let who : Who := { Who.of cid e.ctx with rights := e.rights }
        let r := (s.winInstall x).writeMpa who mpa (lineAt (mpa % 64) (leNat (b.take n))) (enables (mpa % 64) n) .clean
        if r.1 = 0 then r.2.collStore cid w fuel (off + n) (b.drop n) else (false, r.2)

/-- A commit sets or clears an entry (R311, R313, R360): its reference moves to the new fence, GEN and DONE start at 0. -/
def State.collApply (s : State) (c : Nat) (e : CollSh) : State :=
  let old := s.collSh c
  let s := match (s.collRun c).fenceRef with
    | some i => s.dropRef old.cid i
    | none => s
  let ref := match s.resolve e.cid e.fence 2 with
    | .ok i _ => if e.valid ∧ s.refFits e.cid i then some i else none
    | _ => none
  let s := match ref with
    | some i => s.takeRef e.cid i
    | none => s
  let put_ := fun (n : FabSh) => { n with coll := if e.valid then Tab.insert n.coll c e else Tab.erase n.coll c }
  let s := s.modFab fun f => { f with
    collLater := Tab.erase f.collLater c, accs := f.accs.filter (fun a => decide (a.coll ≠ c)), sh := f.sh.both put_ }
  s.modColl c fun _ => { st := if e.valid then 1 else 0, fenceRef := ref }

/-- A change of an entry that waited for its generation (R314). -/
def State.collSettle (s : State) (c : Nat) : State :=
  match Tab.find s.fab.collLater c with
  | none => s
  | some e => s.collApply c e

/-- Answer a local contribution. -/
def State.collAnswer (s : State) (child : Nat) (p : FabPacket) (status : Nat) : State :=
  if child = 64 then s.routePacket (fabReply s.module p status 0 0) else s

/-- A contribution is refused (R311, R314). -/
def State.collRefuse (s : State) (child : Nat) (p : FabPacket) : State :=
  (s.modFab fun f => { f with cntRefused := satInc f.cntRefused }).collAnswer child p 1

/-- A generation fails (R315). -/
def State.collFail (s : State) (c : Nat) : State :=
  let waits := s.fab.collWaits.filter fun w => decide (w.coll = c)
  let s := s.modFab fun f => { f with
    accs := f.accs.filter (fun a => decide (a.coll ≠ c)), collWaits := f.collWaits.filter fun w => decide (w.coll ≠ c) }
  let e := s.collSh c
  let s := ((s.modColl c fun r => { r with st := 3, sent := [], written := [] }).pulse 852).emit
    (.event 852 [e.cid.toNat, e.collId.toNat, (s.collRun c).gen.toNat])
  (s.each waits fun s w => s.collRefuse w.child w.pkt).collSettle c

/-- Every chunk is written: GEN and DONE go on, the fence is signalled (R313). -/
def State.collDone (s : State) (c : Nat) : State :=
  let e := s.collSh c
  if (s.collRun c).written.length * 64 < e.len.toNat then s else
    let d := (s.collRun c).done + 1
    let s := s.modColl c fun r => { r with st := 1, gen := r.gen + 1, done := d, sent := [], written := [] }
    let s := match (s.collRun c).fenceRef with
      | some i => match s.signalRef e.cid i (e.fenceBase + d).toNat with
        | some r => r.2
        | none => s
      | none => s
    s.collSettle c

/-- A chunk's result reaches this member (R313): on to the children, and written locally. -/
def State.collResult (s : State) (c chunk : Nat) (b : Bytes) : State :=
  let e := s.collSh c
  let p := s.collPacket c 0x0A chunk b
  let s := s.each (maskBits e.childMask) fun s n => s.collSend n p
  let size := if opOutBf e.op then 2 else 4
  let r := s.collStore e.cid e.destWin.toNat 4 (e.destOff.toNat + chunk * opLanes e.op * size) b
  if !r.1 then (r.2.modFab fun f => { f with cntRefused := satInc f.cntRefused }).collFail c
  else (r.2.modColl c fun x => { x with since := s.now, written := chunk :: x.written.filter fun k => decide (k ≠ chunk) }).collDone c

/-- A chunk is complete (R312, R313): to the parent, or the root's result. -/
def State.collComplete (s : State) (c : Nat) (a : ChunkAcc) : State :=
  let e := s.collSh c
  let s := s.modFab fun f => { f with accs := f.accs.filter fun x => !(decide (x.coll = c) && decide (x.chunk = a.chunk)) }
  let s := s.modColl c fun x => { x with sent := a.chunk :: x.sent }
  if e.pvalid then s.collSend e.parent.toNat (s.collPacket c 9 a.chunk (sumBytes a.lanes))
  else s.collResult c a.chunk (chunkOut e.op a.lanes)

/-- How a contribution of the current generation stands: summed, to wait, or to be refused. -/
inductive Fits
  | sum
  | wait
  | refuse
deriving DecidableEq, Repr

/-- R311, R314, R316: `child` is the port, or 64 for a local write, which belongs to the next generation once its
chunk has all its local contributions. -/
def State.collFits (s : State) (c child : Nat) (p : FabPacket) : Fits :=
  let e := s.collSh c
  let r := s.collRun c
  let off := fldN p.addr 0 32
  let chunk := off / 64
  let acc := s.fab.accs.find? fun a => decide (a.coll = c) && decide (a.chunk = chunk)
  if !e.valid ∨ e.cid ≠ p.cid ∨ (r.st ≠ 1 ∧ r.st ≠ 2) ∨ e.len.toNat ≤ off then .refuse
  else if child = 64 then
    if e.nlocal = 0 then .refuse
    else if r.sent.contains chunk then .wait
    else match acc with
      | some a => if a.count < e.nlocal.toNat then .sum else .wait
      | none => if s.fab.accs.length < 4096 then .sum else .wait
  else if 48 ≤ child ∨ !e.childMask.getLsbD child then .refuse
  else if p.gen = r.gen + 1 then .wait
  else if p.gen ≠ r.gen ∨ r.sent.contains chunk then .refuse
  else match acc with
    | some a => if a.children.contains child then .refuse else .sum
    | none => if s.fab.accs.length < 4096 then .sum else .wait

/-- Sum a contribution into its accumulator (R312). -/
def State.collSum (s : State) (c child : Nat) (p : FabPacket) : State :=
  let e := s.collSh c
  let chunk := fldN p.addr 0 32 / 64
  let ls := if child = 64 then chunkIn e.op p.data else chunkSums e.op p
  let a : ChunkAcc := match s.fab.accs.find? fun a => decide (a.coll = c) && decide (a.chunk = chunk) with
    | some a => { a with lanes := addLanes a.lanes ls }
    | none => { coll := c, chunk := chunk, lanes := ls }
  let a := if child = 64 then { a with count := a.count + 1 } else { a with children := child :: a.children }
  let s := s.modFab fun f => { f with
    accs := f.accs.filter (fun x => !(decide (x.coll = c) && decide (x.chunk = chunk))) ++ [a] }
  let s := s.modColl c fun x => { x with st := 2, since := s.now }
  let s := s.collAnswer child p 0
  if a.count = e.nlocal.toNat ∧ (maskBits e.childMask).all a.children.contains then s.collComplete c a else s

/-- A contribution reaches the engine. -/
def State.collTake (s : State) (c child : Nat) (p : FabPacket) : State :=
  match s.collFits c child p with
  | .sum => s.collSum c child p
  | .wait => s.modFab fun f => { f with collWaits := f.collWaits ++ [⟨c, child, p⟩] }
  | .refuse => s.collRefuse child p

/-- Contributions that waited and now fit, in arrival order; fuel counts them. -/
def State.collRetry (s : State) (c : Nat) : Nat → State
  | 0 => s
  | fuel + 1 =>
    match s.fab.collWaits.find? fun w => decide (s.collFits w.coll w.child w.pkt ≠ .wait) with
    | none => s
    | some w =>
      let s := s.modFab fun f => { f with collWaits := f.collWaits.filter fun x => decide (x ≠ w) }
      (s.collTake w.coll w.child w.pkt).collRetry c fuel

/-- Take a contribution, then those that waited. -/
def State.collIn (s : State) (c child : Nat) (p : FabPacket) : State :=
  let s := s.collTake c child p
  s.collRetry c s.fab.collWaits.length

/-- A local line write to collective entry c (R288, R311). -/
def State.collLocal (s : State) (p : FabPacket) : State :=
  if p.type ≠ 2 ∨ p.srcMod ≠ s.module then s.collRefuse 64 p
  else s.collIn (fldN p.addr 32 8) 64 p

def execCollectiveLocalWrite (p : FabPacket) (s : State) : Out := .next (s.collLocal p)

/-- R312: a child's contribution. -/
def execCollectiveContribution (port : LPort) (p : FabPacket) (s : State) : Out :=
  let s := s.drainPacket port.val p
  if !s.fab.sh.act.id.valid then .next s else
  match (if p.reserved then none else s.collOf p.cid p.collId) with
  | some c => .next (s.collIn c port.val p)
  | none => .next (s.collRefuse port.val p)

/-- R313: a result comes down from the parent. -/
def execCollectiveResult (port : LPort) (p : FabPacket) (s : State) : Out :=
  let s := s.drainPacket port.val p
  if !s.fab.sh.act.id.valid then .next s else
  match (if p.reserved then none else s.collOf p.cid p.collId) with
  | none => .next (s.collRefuse port.val p)
  | some c =>
    let e := s.collSh c
    let r := s.collRun c
    let chunk := fldN p.addr 0 32 / 64
    if !e.pvalid ∨ e.parent.toNat ≠ port.val ∨ r.gen ≠ p.gen ∨ r.st ≠ 2 ∨ e.len.toNat ≤ chunk * 64 then
      .next (s.collRefuse port.val p)
    else
      let n := opLanes e.op * (if opOutBf e.op then 2 else 4)
      let s := s.collResult c chunk ((Line.bytes p.data ++ Line.bytes (p.data2.getD 0)).take n)
      .next (s.collRetry c s.fab.collWaits.length)

/-- R315: no chunk progress for FAB_TIMEOUT. -/
def execCollectiveTimeout (c : Fin 64) (s : State) : Out :=
  if (s.collRun c.val).st = 2 ∧ (s.collRun c.val).since + s.fab.timeout.toNat * (period / 64) ≤ s.now then
    .next (s.collFail c.val)
  else .next s

/-! ### Ingress -/

/-- R287, R288, R293, R296: a fabric request arrives from a port, or self-addressed. -/
def State.ingress (s : State) (port : Nat) (p : FabPacket) (ecc : Ecc) : State :=
  let known := decide (p.type = 1 ∨ p.type = 2 ∨ p.type = 3 ∨ p.type = 7 ∨ p.type = 8)
  if p.reserved ∨ !known then s.fabRefuse port p 1
  else if !s.fab.sh.act.id.valid then
    let s := s.drainPacket port p
    if isRequest p then s.routePacket (fabReply s.module p 4 0 0) else s
  else
    let a := p.addr.toNat
    if 0x200000000000 ≤ a ∧ a < 0x300000000000 then s.windowIn port p ecc
    else if 0x300000000000 ≤ a ∧ a < 0x310000000000 then
      (if port = 48 then s.collLocal p else s.fabRefuse port p 1)
    else s.fabRefuse port p 2

def execFabricIngress (port : Option LPort) (p : FabPacket) (ecc : Ecc) (s : State) : Out :=
  .next (s.ingress (match port with
    | some q => q.val
    | none => 48) p ecc)

end Sys2Proof.Machine
end

