-- ==== Sys2Proof/Machine/Residency.lean ====
section
/-! DEFINITION. A context that leaves the module without being lost (R249, R251, R337, R354): its banks are purged, its
commands end, its residency ends; a composition's queues on a function are dropped; a TDI enters ERROR (R340). -/

namespace Sys2Proof.Machine

/-- The share of a bank ends (R354). -/
def State.shareOff0 (s : State) (t b : Nat) : State :=
  s.modSrm t fun x => { x with sh := x.sh.both fun n => { n with share := Tab.insert n.share b { n.shareOf b with en := false } } }

/-- Every bank of a context is purged (R73), its commands end with Q_PURGED, its waits and page requests go (R354). -/
def State.purgeCtxWork (s : State) (cid : Cid) (ctx : Ctx) (write : Bool) : State :=
  let banks := s.ctxBanks cid ctx
  let s := s.each banks fun s x => (s.purgeBank x.1 x.2).shareOff0 x.1 x.2
  s.each (s.ctxCmds cid ctx) fun s c => s.complete c.1 c.2.index 9 0 write

/-- A context of a composition is loaded or evicted: what R426 counted of it starts again. -/
def State.rssEnds (s : State) (cid : Cid) (r : Nat) : State :=
  s.modSched fun x => { x with
    rss := Tab.erase x.rss r, rssHeld := Tab.erase x.rssHeld cid.toNat, rssSent := x.rssSent.filter fun c => decide (c ≠ cid) }

/-- The resident-table entry becomes invalid; a held fault record is discarded and counted (R354). -/
def State.endResidency (s : State) (cid : Cid) (ctx : Ctx) : State :=
  match s.resOf cid ctx with
  | none => s
  | some r =>
    let s := match (s.resRo r).held, s.slotOf cid with
      | some _, some slot => s.fqDrop slot
      | _, _ => s
    (s.modQue fun q => { q with res := Tab.erase q.res r, sh := q.sh.both fun n => { n with res := Tab.erase n.res r } }).rssEnds
      cid r

/-- The resident contexts of a composition. -/
def State.residents (s : State) (cid : Cid) : List Ctx :=
  (s.que.sh.act.res.filter fun e => e.2.valid && decide (e.2.cid = cid)).map fun e => e.2.ctx

/-- Every context of a composition is purged and leaves the module (R249, R337). -/
def State.purgeAll (s : State) (cid : Cid) : State :=
  s.each (s.residents cid) fun s c => (s.purgeCtxWork cid c false).endResidency cid c

/-- The queue registrations on a function are dropped (R337). -/
def State.dropQueues (s : State) (h f : Nat) (write : Bool) : State :=
  let es := (s.que.sh.act.q.filter fun e => e.2.valid && decide ((if e.2.hport then 1 else 0) = h) && decide (e.2.func.toNat = f)).map (·.1)
  s.each es fun s e => s.endQueue e write

/-- A TDI in CONFIG_LOCKED or RUN enters ERROR (R339, R340, R556). -/
def State.tdiError (s : State) (h f cause : Nat) : State :=
  let x := s.func h f
  if x.tdi = .locked ∨ x.tdi = .run then
    (s.modFunc h f fun x => { x with tdi := .error, tdiCause := BitVec.ofNat 4 cause }).pulse (886 + h)
  else s

/-- The functions bound to a composition: (port, function). -/
def State.cidFuncs (s : State) (cid : Cid) : List (Nat × Nat) :=
  (s.hst.funcs.filter fun e => e.2.bound && decide (e.2.cid = cid)).map fun e => (e.1 / 257, e.1 % 257)

/-- A read of host memory ends with a STATUS (R330); statuses 0x06 and 0x07 are counted; an invalidation with nothing
left to wait for is answered (R331). -/
def State.hostEnd (s : State) (r : HostReq) (status : Nat) (data : Line) : State :=
  let s := (s.modHst fun h => { h with reqs := h.reqs.filter fun x => decide (x ≠ r) }).hostNext
  let s := if status = 6 ∨ status = 7 then s.hostLost r.hport else s
  let s := match Tab.find s.mesh.reqs (reqKey r.stop r.mtag) with
    | some m => s.emit (.mesh (reply m.pkt status data 0))
    | none => s
  let left := fun (i : AtsInv) => s.hst.reqs.any fun x => decide (x.hport = i.hport ∧ x.func = i.func) && x.inv.contains i.itag
  let done := s.hst.atsInv.filter fun i => !left i
  let s := s.modHst fun h => { h with atsInv := h.atsInv.filter left }
  s.each done fun s i => s.emit (.atsCompletion i.hport i.func i.itag)

/-- Every host request of a function ends with STATUS 0x07 (R337, R341). -/
def State.hostEndAll (s : State) (h f : Nat) : State :=
  let mine := s.hst.queued.filter fun p => decide (s.boundFunc p.cid = some (h, f))
  let s := s.modHst fun x => { x with queued := x.queued.filter fun p => !mine.contains p }
  let s := s.each mine fun s p => (s.hostLost h).emit (.mesh (reply p 7 0 0))
  s.each (s.hst.reqs.filter fun r => decide (r.hport = h ∧ r.func = f)) fun s r => s.hostEnd r 7 0

/-- The HST_ registers of a function return to reset, its translations go, its vectors are masked (R337 steps 4 and 5).
The binding, and what configuration space holds, stay. -/
def State.funcReset (s : State) (h f : Nat) : State :=
  let s := s.modHst fun x => { x with
    atc := x.atc.filter (fun e => decide (¬ (e.hport = h ∧ e.func = f))),
    transl := x.transl.filter fun e => decide (¬ (e.hport = h ∧ e.func = f)) }
  -- the dirty-log registers are the PF's (R350)
  let s := s.when (decide (f = 0)) fun s => s.modHst fun x => { x with
    funcs := x.funcs.map fun e => if e.1 / 257 = h then (e.1, { e.2 with dlog := {} }) else e }
  let s := s.modXlt fun x => { x with
    retired := x.retired.filter (fun r => decide (¬ (r.1 = h ∧ r.2.1 = f))), priStopped := Tab.erase x.priStopped (funcKey h f) }
  s.modFunc h f fun x =>
    { enabled := x.enabled, bar2Log2 := x.bar2Log2, bound := x.bound, slot := x.slot, cid := x.cid,
      dlog := x.dlog, tdiSValid := x.tdiSValid, tdiStream := x.tdiStream, priEn := false, priAlloc := 0, atsEn := false, busMaster := false,
      mail := { err := x.mail.err, flrWhileBusy := x.mail.busy || x.mail.flrWhileBusy, drop := x.mail.drop } }

/-- The actions of R337 on one function. -/
def State.flrOne (s : State) (h f : Nat) : State :=
  let x := s.func h f
  let s := s.when (decide (f = 0)) fun s => s.dropService fun c => decide (c = 8 + h)
  let s := s.hostEndAll h f
  let s := s.modHst fun y => { y with
    bar2 := y.bar2.filter fun r => decide (¬ (r.hport = h ∧ r.func = f)) }
  let s := if x.bound then s.purgeAll x.cid else s
  (s.dropQueues h f false).funcReset h f

/-- The functions of a port that are bound. -/
def State.portFuncs (s : State) (h : Nat) : List Nat :=
  (s.hst.funcs.filter fun e => decide (e.1 / 257 = h) && e.2.bound).map fun e => e.1 % 257

/-- VF Enable is cleared: an FLR of each bound VF, which stays bound (R328). -/
def State.vfOff (s : State) (h : Nat) : State :=
  let s := s.each ((s.portFuncs h).filter fun f => decide (f ≠ 0)) fun s f => s.flrOne h f
  let s := s.modHPort h fun p => { p with vfEnable := false }
  s.modHst fun x => { x with funcs := x.funcs.map fun e =>
    if e.1 / 257 = h ∧ e.1 % 257 ≠ 0 then (e.1, { e.2 with enabled := false }) else e }

/-- A Function Level Reset (R337); a PF's clears VF Enable. -/
def State.flr (s : State) (h f : Nat) : State :=
  if f = 0 then (s.vfOff h).flrOne h 0 else s.flrOne h f

end Sys2Proof.Machine
end

