-- ==== Sys2Proof/Machine/Host.lean ====
section
/-! DEFINITION. Host ports and functions (R325 to R350, R589): doorbells, BAR2, FLR, IDE and TDISP, completions, the loss
of a port, the dirty log's registers, configuration space. -/

namespace Sys2Proof.Machine

/-! ### TEE ranges (R340) -/

/-- Whether a TLP to a TEE range is refused: in ERROR always, in CONFIG_LOCKED or RUN without the stream and its T bit. -/
def Func.teeRefuses (x : Func) (tbit : Bool) : Bool :=
  decide (x.tdi = .error) || (decide (x.tdi = .locked ∨ x.tdi = .run) && !tbit)

/-- Whether a function presents its composition: it is bound, and a VF enabled (R328). -/
def Func.presents (x : Func) (f : Nat) : Bool := x.bound && (decide (f = 0) || x.enabled)

/-- Whether a port's link has settled below 16 GT/s or x4 (R326). -/
def HPort.weak (p : HPort) : Bool := decide (p.st = .up) && decide (p.rate = 0 ∨ p.width = 0)

/-- HST_CNT_REFUSED (R348). -/
def State.hostRefused (s : State) (h f : Nat) : State := s.modFunc h f fun x => { x with refused := satInc x.refused }

/-- A BAR2 access is refused (R336): 0 EN is 0, 1 unbound, 2 by its target, 3 unbacked, 4 a half under recovery. -/
def State.bar2Refused (s : State) (h f cause : Nat) : State :=
  ((s.hostRefused h f).pulse (882 + h)).emit (.event (882 + h) [cause])

/-! ### Doorbells (R333, R334, R363) -/

/-- Whether the function has BAR2 writes that no target has accepted yet (R334). -/
def State.bar2Pending (s : State) (h f : Nat) : Bool :=
  let mine := fun (i : Issuer) => match i with
    | .host p g _ _ _ _ => decide (p = h ∧ g = f)
    | _ => false
  s.mesh.reqs.any (fun e => mine e.2.who && decide (e.2.pkt.type = 2)) ||
  s.hst.waiting.any fun w => mine w.1 && decide (w.2.type = 2)

/-- The parser takes a doorbell's tail. -/
def State.takeBell (s : State) (e : Nat) (v : Word) : State :=
  let n := (s.qSh e).sizeLog2.toNat
  if 2 ^ n < (v - (s.qRo e).head).toNat then
    (s.hostRefused (if (s.qSh e).hport then 1 else 0) (s.qSh e).func.toNat).modQ e fun r => { r with bell := none }
  else s.modQ e fun r => { r with tail := v, bell := none }

/-- Doorbells that waited for earlier BAR2 writes of their function (R334). -/
def State.takeBells (s : State) (h f : Nat) : State :=
  if s.bar2Pending h f then s else
    let es := s.que.q.filterMap fun e => match e.2.bell with
      | some v => if (if (s.qSh e.1).hport then 1 else 0) = h ∧ (s.qSh e.1).func.toNat = f then some (e.1, v) else none
      | none => none
    s.each es fun s e => s.takeBell e.1 e.2

/-- The parser entry of queue `q` of a function. -/
def State.queueOn (s : State) (h f q : Nat) : Option Nat :=
  (s.que.sh.act.q.find? fun e => e.2.valid && decide ((if e.2.hport then 1 else 0) = h) && decide (e.2.func.toNat = f) &&
    decide (e.2.qnum.toNat = q)).map (·.1)

/-- A write of `2 ^ log2` bytes at an offset of a doorbell page (R333). -/
def State.doorbellWrite (s : State) (h f q offset log2 : Nat) (value : Word) (tbit : Bool) : State :=
  let x := s.func h f
  if offset ≠ 0 ∨ log2 ≠ 2 ∨ !x.presents f ∨ x.teeRefuses tbit then s.hostRefused h f
  else match s.queueOn h f q with
    | none => s.hostRefused h f
    | some e => if s.bar2Pending h f then s.modQ e fun r => { r with bell := some value } else s.takeBell e value

def execDoorbell (h : HPortIx) (f : FuncIx) (q offset : BitVec 12) (log2 : Fin 4) (value : Word) (tbit : Bool) (s : State) : Out :=
  .next (s.doorbellWrite h.val f.val q.toNat offset.toNat log2.val value tbit)

/-! ### BAR2 (R335, R336) -/

/-- Line requests of the port's stop leave while tags last; the others wait. -/
def State.hostPump (s : State) : Nat → State
  | 0 => s
  | fuel + 1 =>
    match s.hst.waiting with
    | [] => s
    | w :: t =>
      match s.issue w.1 w.2.src.toNat w.2 (.localMpa w.2.addr.toNat) none with
      | none => s
      | some s => (s.modHst fun x => { x with waiting := t }).hostPump fuel

/-- The MPA of a BAR2 offset. -/
def Func.bar2Mpa (x : Func) (offset : Nat) : Nat := x.winBase.toNat * 2 ^ 30 + offset

/-- Whether the half that holds an MPA is in recovery (R336). -/
def State.mpaRecovering (s : State) (mpa : Nat) : Bool :=
  match s.place mpa with
  | .unbacked => false
  | pl => s.recovering pl.half

/-- Whether BAR2 takes an access of `n` bytes at `offset`. -/
def State.bar2Takes (s : State) (h f offset n : Nat) : Bool :=
  let x := s.func h f
  x.presents f && !(s.hport h).weak && x.winEn && decide (offset + n ≤ 2 ^ x.bar2Log2) && !s.mpaRecovering (x.bar2Mpa offset) &&
  !s.mpaRecovering (x.bar2Mpa (offset + n - 1)) && decide (x.bar2Mpa (offset + n) ≤ 2 ^ 46)

/-- The cause of a refusal of `n` bytes at an offset before any line is sent: a function that presents no composition
counts as unbound; an access beyond the BAR or the address space as unbacked. -/
def State.bar2Cause (s : State) (h f offset n : Nat) : Nat :=
  let x := s.func h f
  if !(x.presents f) || (s.hport h).weak then 1
  else if !x.winEn then 0
  else if s.mpaRecovering (x.bar2Mpa offset) || s.mpaRecovering (x.bar2Mpa (offset + n - 1)) then 4
  else 3

/-- The line packet of a BAR2 access. -/
def State.bar2Packet (s : State) (h f : Nat) (type : BitVec 8) (mpa : Nat) : Packet :=
  let x := s.func h f
  { zeroPacket with type := type, src := BitVec.ofNat 10 (0x280 + h), cid := x.cid, ctx := x.winCtx, addr := BitVec.ofNat 60 mpa }

def execBar2Read (h : HPortIx) (f : FuncIx) (offset bytes : Nat) (tbit : Bool) (tag : Nat) (s : State) : Out :=
  let x := s.func h.val f.val
  if x.teeRefuses tbit then .next ((s.hostRefused h.val f.val).emit (.hostCompletion h.val f.val tag 1 []))
  else if bytes = 0 then .next (s.emit (.hostCompletion h.val f.val tag 0 []))
  else if !s.bar2Takes h.val f.val offset bytes then
    .next ((s.bar2Refused h.val f.val (s.bar2Cause h.val f.val offset bytes)).emit (.hostCompletion h.val f.val tag 0 (List.replicate bytes 0xFF)))
  else
    let mpa := x.bar2Mpa offset
    let ps := linePieces mpa bytes (bytes / 64 + 2) 0
    let r : Bar2Read := { hport := h.val, func := f.val, tag := tag, bytes := bytes, left := ps.length }
    let w := ps.map fun p => (Issuer.host h.val f.val tag p.2.2 p.2.1 (p.1 % 64), s.bar2Packet h.val f.val 1 (p.1 / 64 * 64))
    .next ((s.modHst fun y => { y with bar2 := y.bar2 ++ [r], waiting := y.waiting ++ w }).hostPump (s.hst.waiting.length + w.length))

def execBar2Write (h : HPortIx) (f : FuncIx) (offset : Nat) (data : Bytes) (tbit : Bool) (s : State) : Out :=
  let x := s.func h.val f.val
  if x.teeRefuses tbit then .next (s.hostRefused h.val f.val)
  else if data.isEmpty then .next s
  else if !s.bar2Takes h.val f.val offset data.length then .next (s.bar2Refused h.val f.val (s.bar2Cause h.val f.val offset data.length))
  else
    let mpa := x.bar2Mpa offset
    let ps := linePieces mpa data.length (data.length / 64 + 2) 0
    let w := ps.map fun p =>
      let b := leNat ((data.drop p.2.2).take p.2.1)
      (Issuer.host h.val f.val 0 p.2.2 p.2.1 (p.1 % 64),
        { s.bar2Packet h.val f.val 2 (p.1 / 64 * 64) with byteEn := enables (p.1 % 64) p.2.1, data := lineAt (p.1 % 64) b })
    .next ((s.modHst fun y => { y with waiting := y.waiting ++ w }).hostPump (s.hst.waiting.length + w.length))

/-- A response to a line request of BAR2 (R336): a read's bytes, all ones where it is refused. -/
def State.bar2Response (s : State) (r : MeshReq) (p : Packet) : State :=
  match r.who with
  | .host h f tag pos size off =>
    let bad := decide (p.status ≠ 0)
    let s :=
      if r.pkt.type = 2 then (if bad then s.bar2Refused h f 2 else s).takeBells h f
      else
        let v := p.data.toNat / 2 ^ (8 * off) % 2 ^ (8 * size)
        let mine := fun (x : Bar2Read) => decide (x.hport = h ∧ x.func = f ∧ x.tag = tag)
        let up := fun (x : Bar2Read) =>
          if mine x then { x with left := x.left - 1, buf := x.buf + v * 2 ^ (8 * pos), bad := x.bad || bad } else x
        let s := s.modHst fun y => { y with bar2 := y.bar2.map up }
        match s.hst.bar2.find? mine with
        | some x =>
          if x.left ≠ 0 then s else
            let s := s.modHst fun y => { y with bar2 := y.bar2.filter fun z => !mine z }
            let s := if x.bad then s.bar2Refused h f 2 else s
            s.emit (.hostCompletion h f tag 0 (if x.bad then List.replicate x.bytes 0xFF else toBytes x.bytes x.buf))
        | none => s
    s.hostPump s.hst.waiting.length
  | _ => s

/-! ### Function resets -/

def execFlr (h : HPortIx) (f : FuncIx) (s : State) : Out := .next (s.flr h.val f.val)
def execVfEnableClear (h : HPortIx) (s : State) : Out := .next (s.vfOff h.val)

/-! ### Function registers -/

/-- R340, R348: a write of HST_BAR2_WIN. -/
def State.bar2WinWrite (s : State) (h f : Nat) (v : DWord) (tbit : Bool) : State :=
  if (s.func h f).teeRefuses tbit then s.hostRefused h f else
  let s := s.when (decide (v &&& 0x7000FFFF0000FFFF ≠ 0)) fun s => s.modFunc h f fun x => { x with err := x.err.reserved }
  let s := s.modFunc h f fun x => { x with winEn := bit v 63, winCtx := fld v 48 12, winBase := fld v 16 16 }
  s.tdiError h f 2
def execHstBar2WinWrite (h : HPortIx) (f : FuncIx) (v : DWord) (tbit : Bool) (s : State) : Out :=
  .next (s.bar2WinWrite h.val f.val v tbit)

/-- R332, R340: a 32-bit write to the MSI-X table. -/
def State.msixWrite (s : State) (h f offset : Nat) (v : Word) (tbit : Bool) : State :=
  if (s.func h f).teeRefuses tbit then s.hostRefused h f else
  let k := offset / 16
  if msixSize f ≤ k then s.modFunc h f fun x => { x with err := x.err.reserved } else
  let e := Tab.get (fun _ => ({} : Msix)) (s.func h f).msix k
  let e := match offset % 16 / 4 with
    | 0 => { e with addr := put 64 32 (fld e.addr 32 32) ||| v.setWidth 64 }
    | 1 => { e with addr := put 64 32 v ||| (fld e.addr 0 32).setWidth 64 }
    | 2 => { e with data := v }
    | _ => { e with mask := bit v 0 }
  let fire := e.pend && !e.mask && (s.func h f).msixEn
  let e := if fire then { e with pend := false } else e
  let s := s.modFunc h f fun x => { x with msix := Tab.insert x.msix k e }
  (s.tdiError h f 2).when fire fun s => s.emit (.msix h f k)
def execMsixTableWrite (h : HPortIx) (f : FuncIx) (offset : BitVec 14) (v : Word) (tbit : Bool) (s : State) : Out :=
  .next (s.msixWrite h.val f.val offset.toNat v tbit)

/-! ### The dirty log's registers (R347, R350) -/

/-- A write of HST_DLOG_CTRL. -/
def State.dlogCtrl (s : State) (h f : Nat) (v : Word) : State :=
  let d := (s.func h f).dlog
  let size := fld v 0 5
  let s := s.when (decide (v &&& 0x07FFFFE0 ≠ 0)) fun s => s.modFunc h 0 fun x => { x with err := x.err.reserved }
  if size.toNat < 8 ∨ 20 < size.toNat ∨ (d.en ∧ size ≠ d.sizeLog2) then
    s.modFunc h 0 fun x => { x with err := x.err.refuse }
  else
    let s := s.modFunc h f fun x => { x with
      dlog := { x.dlog with en := bit v 31, hostEn := bit v 28, devEn := bit v 27, sizeLog2 := size } }
    s.when (bit v 29) fun s =>
      (s.modFunc h f fun x => { x with dlog := { x.dlog with ovf := false, devSeen := [] } }).modHPort h
        fun p => { p with seen := [] }
def execDlogRearm (h : HPortIx) (f : FuncIx) (v : Word) (s : State) : Out := .next (s.dlogCtrl h.val f.val v)

/-- R347: a write of CONS. -/
def State.dlogCons (s : State) (h f : Nat) (v : Word) : State :=
  let d := (s.func h f).dlog
  if 2 ^ d.sizeLog2.toNat < (d.prod - v).toNat then s.modFunc h 0 fun x => { x with err := x.err.refuse }
  else s.modFunc h f fun x => { x with dlog := { x.dlog with cons := v } }
def execDlogConsWrite (h : HPortIx) (f : FuncIx) (v : Word) (s : State) : Out := .next (s.dlogCons h.val f.val v)

/-! ### IDE and TDISP (R338, R339) -/

/-- Whether a selective stream associates a function. -/
def HPort.streamOf (p : HPort) (f : Nat) : Option Nat :=
  (p.ideKeys.find? fun k => decide (k.1 < 64 ∧ k.2.2.1 ≤ f ∧ f ≤ k.2.2.2)).map (·.1)

/-- R338: keys come from the RTP, within a secured session over the port's own DOE mailbox. -/
def execIdeKm (h : HPortIx) (session : Nat) (stream : Fin 65) (subStream : Nat) (lo hi : FuncIx) (s : State) : Out :=
  let ok := s.rot.sessions.any fun x => decide (x.id = session) && x.finished && decide (x.path = .mailbox h 0)
  if !ok then .next s else
    let p := s.hport h.val
    let ranges := (p.ideKeys.filter fun k => decide (k.1 = stream.val ∧ k.2.2 ≠ (lo.val, hi.val))).map (fun k => k.2.2)
    if stream.val < 64 ∧ 8 ≤ ranges.eraseDups.length then .next s else
    let keep := p.ideKeys.filter fun k => decide (k ≠ (stream.val, subStream, lo.val, hi.val))
    let s := s.modHPort h.val fun p => { p with ideKeys := keep ++ [(stream.val, subStream, lo.val, hi.val)] }
    let fs := if stream.val < 64 then (List.range (hi.val - lo.val + 1)).map (· + lo.val) else []
    let s := s.each fs fun s f => s.modFunc h.val f fun x => { x with tdiSValid := true, tdiStream := BitVec.ofNat 6 stream.val }
    .next (s.emit (.ideKm h.val stream.val))

/-- R338. -/
def execIdeIntegrityFailure (h : HPortIx) (f : FuncIx) (s : State) : Out :=
  let s := (s.modFunc h.val f.val fun x => { x with err := x.err.refuse }).pulse (884 + h.val)
  .next (s.tdiError h.val f.val 3)

/-- R339. -/
def execLockInterface (h : HPortIx) (f : FuncIx) (s : State) : Out :=
  let x := s.func h.val f.val
  if x.tdi = .unlocked ∧ x.bound ∧ x.winEn ∧ ((s.hport h.val).streamOf f.val).isSome then
    .next ((s.modFunc h.val f.val fun x => { x with tdi := .locked }).emit (.tdisp h.val f.val true))
  else .next (s.emit (.tdisp h.val f.val false))

def execStartInterface (h : HPortIx) (f : FuncIx) (s : State) : Out :=
  if (s.func h.val f.val).tdi = .locked then
    .next ((s.modFunc h.val f.val fun x => { x with tdi := .run }).emit (.tdisp h.val f.val true))
  else .next (s.emit (.tdisp h.val f.val false))

def execStopInterface (h : HPortIx) (f : FuncIx) (s : State) : Out :=
  .next ((s.flrOne h.val f.val).emit (.tdisp h.val f.val true))

/-! ### Completions (R330, R331) -/

def State.hostReq (s : State) (h tag : Nat) : Option HostReq := s.hst.reqs.find? fun r => decide (r.hport = h ∧ r.tag = tag)

/-- A Translation Completion fills the cache of 4,096 entries (R331); a completion for nothing outstanding is counted. -/
def State.translated (s : State) (h tag : Nat) (c : Completion) : State :=
  match s.hst.transl.find? fun t => decide (t.hport = h ∧ t.tag = tag) with
  | none => s.modHst fun x => { x with late := x.late + 1 }
  | some t =>
    let s := s.modHst fun x => { x with transl := x.transl.filter fun y => decide (y ≠ t) }
    match c with
    | .translation log2 target =>
      let e : AtcEntry := { hport := h, func := t.func, pasid := t.pasid, page := t.page / 2 ^ log2.val * 2 ^ log2.val,
                            log2 := log2.val, target := target }
      (s.modHst fun x => { x with atc := (x.atc ++ [e]).drop ((x.atc.filter fun y => decide (y.hport = h)).length + 1 - 4096) }).hostNext
    | _ => s.hostNext

def execHostCompletion (h : HPortIx) (tag : BitVec 14) (c : Completion) (s : State) : Out :=
  match s.hostReq h.val tag.toNat with
  | none => .next (s.translated h.val tag.toNat c)
  | some r => match c with
    | .ok l => .next (s.hostEnd r 0 l)
    | .refused | .translation _ _ => .next (s.hostEnd r 7 0)
    | .poisoned => .next (s.hostEnd r 3 0)

def execHostCompletionTimeout (h : HPortIx) (tag : BitVec 14) (s : State) : Out :=
  match s.hostReq h.val tag.toNat with
  | none => .next ((s.modHst fun x => { x with
      transl := x.transl.filter fun t => decide (¬ (t.hport = h.val ∧ t.tag = tag.toNat)) }).hostNext)
  | some r => .next (s.hostEnd r 6 0)

/-- R331: entries over the range are dropped; the answer waits for requests sent under them. -/
def execAtsInvalidation (h : HPortIx) (f : FuncIx) (itag : Fin 32) (pasid : BitVec 20) (page pages : Nat) (s : State) : Out :=
  let hit := fun (e : AtcEntry) => decide (e.hport = h.val ∧ e.func = f.val ∧ e.pasid = pasid) &&
    decide (e.page < page + pages ∧ page < e.page + 2 ^ e.log2)
  let under := fun (r : HostReq) => decide (r.hport = h.val ∧ r.func = f.val ∧ r.pasid = pasid) && r.translated &&
    decide (page ≤ r.addr.toNat / 4096 ∧ r.addr.toNat / 4096 < page + pages)
  let busy := s.hst.reqs.any under
  let s := s.modHst fun x => { x with
    atc := x.atc.filter (fun e => !hit e),
    transl := x.transl.filter (fun t => !(decide (t.hport = h.val ∧ t.func = f.val ∧ t.pasid = pasid) &&
      decide (page ≤ t.page ∧ t.page < page + pages))), reqs := x.reqs.map fun r => if under r then { r with inv := r.inv ++ [itag.val] } else r }
  if busy then .next (s.modHst fun x => { x with atsInv := x.atsInv ++ [{ hport := h.val, func := f.val, itag := itag.val }] })
  else .next (s.emit (.atsCompletion h.val f.val itag.val))

/-! ### A port fails and returns (R341, R589) -/

/-- DL_Down (R341 steps 1 to 3). -/
def State.dlDown (s : State) (h : Nat) : State :=
  if (s.hport h).st ≠ .up ∧ (s.hport h).st ≠ .recovery then s else
  let s := s.modHPort h fun p => { p with st := .hold, rate := 0, width := 0, holdLeft := p.hold.setWidth 8 }
  let s := s.each (s.hst.reqs.filter fun r => decide (r.hport = h)) fun s r => s.hostEnd r 7 0
  let s := s.each ((List.range 257).filter fun f => decide ((s.func h f).tdi = .locked ∨ (s.func h f).tdi = .run)) fun s f =>
    s.tdiError h f 4
  let s := s.dropService fun c => decide (c = 8 + h)
  s.pulse (880 + h)

/-- HOLD ends, or the link returns (R341 step 4). -/
def State.holdEnds (s : State) (h : Nat) : State :=
  if (s.hport h).st ≠ .hold then s else
    let s := s.each (s.portFuncs h) fun s f => s.flrOne h f
    s.modHPort h fun p => { p with st := if p.perst then .down else .training, holdLeft := 0 }

def execHostDlDown (h : HPortIx) (s : State) : Out := .next (s.dlDown h.val)
def execHostHoldExpiry (h : HPortIx) (s : State) : Out :=
  if (s.hport h.val).holdLeft = 0 then .next (s.holdEnds h.val) else .next s
def execHostLinkUp (h : HPortIx) (s : State) : Out := .next (s.holdEnds h.val)

/-- R325: training ends, at a rate and a width. -/
def execHostLinkTrained (h : HPortIx) (rate : BitVec 4) (width : BitVec 3) (s : State) : Out :=
  let st := (s.hport h.val).st
  if st = .training ∨ st = .recovery ∨ st = .up then
    .next (s.modHPort h.val fun p => { p with st := .up, rate := rate, width := width })
  else .next s

/-- Configuration space of a port at its reset values (R589). -/
def State.configReset (s : State) (h : Nat) : State :=
  let s := s.modHst fun x => { x with funcs := x.funcs.map fun e =>
    if e.1 / 257 = h then
      (e.1, { e.2 with enabled := decide (e.1 % 257 = 0), bar2Log2 := 38, priEn := false, priAlloc := 0, atsEn := false,
                       busMaster := false, msixEn := false })
    else e }
  s.modHPort h fun p => { p with vfEnable := false, numVfs := 0 }

def execPerstAssert (h : HPortIx) (s : State) : Out :=
  .next (((s.dlDown h.val).configReset h.val).modHPort h.val fun p => { p with perst := true })

/-- R589: deassertion starts training. -/
def execPerstDeassert (h : HPortIx) (s : State) : Out :=
  let s := s.modHPort h.val fun p => { p with perst := false }
  if (s.hport h.val).st = .hold then .next (s.holdEnds h.val)
  else .next (s.modHPort h.val fun p => { p with st := .training })

/-! ### Configuration requests (R327, R589) -/

/-- A configuration register's value. -/
def State.configValue (s : State) (h f : Nat) (r : ConfigReg) : Nat :=
  let x := s.func h f
  let p := s.hport h
  match r with
  | .vfEnable => if p.vfEnable then 1 else 0
  | .numVfs => p.numVfs
  | .atsEnable => if x.atsEn then 1 else 0
  | .priEnable => if x.priEn then 1 else 0
  | .priCapacity => 256
  | .priAllocation => x.priAlloc
  | .busMaster => if x.busMaster then 1 else 0
  | .msixEnable => if x.msixEn then 1 else 0
  | .bar2Size => x.bar2Log2
  | .other => 0

/-- A write of a configuration register. -/
def State.configWrite (s : State) (h f : Nat) (r : ConfigReg) (v : Word) : State :=
  let on := bit v 0
  match r with
  | .vfEnable =>
    if !on then (if (s.hport h).vfEnable then s.vfOff h else s)
    else
      let n := (s.hport h).numVfs
      let s := s.modHPort h fun p => { p with vfEnable := true }
      s.each ((List.range n).map (· + 1)) fun s f => s.modFunc h f fun x => { x with enabled := true }
  | .numVfs => if (s.hport h).vfEnable then s else s.modHPort h fun p => { p with numVfs := min v.toNat 256 }
  | .atsEnable => (s.modFunc h f fun x => { x with atsEn := on }).when (!on) fun s => s.modHst fun x => { x with
      atc := x.atc.filter fun e => decide (¬ (e.hport = h ∧ e.func = f)) }
  | .priEnable =>
    let s := s.modFunc h f fun x => { x with priEn := on }
    if on then s.modXlt fun x => { x with priStopped := Tab.erase x.priStopped (funcKey h f) }
    else s.each (s.xlt.mig.filter fun m => decide (m.hport = h ∧ m.func = f ∧ m.sent = none)) fun s m => s.migLost m 8
  | .priAllocation => s.modFunc h f fun x => { x with priAlloc := v.toNat }
  | .busMaster => s.modFunc h f fun x => { x with busMaster := on }
  | .msixEnable => s.modFunc h f fun x => { x with msixEn := on }
  | .bar2Size => if 30 ≤ v.toNat ∧ v.toNat ≤ 38 then s.modFunc h f fun x => { x with bar2Log2 := v.toNat } else s
  | .priCapacity | .other => s

/-- A configuration request: Request Retry Status (2) before step 5 of R579; unsupported (1) for a VF not enabled. -/
def execConfigRequest (h : HPortIx) (f : FuncIx) (write : Bool) (reg : ConfigReg) (value : Word) (tag : Nat) (s : State) : Out :=
  if s.boot.step < 5 then .next (s.emit (.hostCompletion h.val f.val tag 2 []))
  else if f.val ≠ 0 ∧ !(s.func h.val f.val).enabled then .next (s.emit (.hostCompletion h.val f.val tag 1 []))
  else if write then
    .next ((s.configWrite h.val f.val reg value).emit (.hostCompletion h.val f.val tag 0 []))
  else .next (s.emit (.hostCompletion h.val f.val tag 0 (toBytes 4 (s.configValue h.val f.val reg))))

end Sys2Proof.Machine
end

