-- ==== Sys2Proof/Machine/Mesh.lean ====
section
/-! DEFINITION. Mesh requests at their targets (R141, R175, R176, R212 to R215, R234, R421 to R423) and responses at their
issuers (R129, R233, R236). -/

namespace Sys2Proof.Machine

/-! ### A request at its target -/

def waitAcc (w : RegWait) : Acc := if w.op.isSome then .atomic else if w.pkt.type = 1 then .rd else .wr

/-- Whether a place's half is under recovery (R478): its requests wait at their stops. -/
def State.halfWaits (s : State) (pl : Place) : Bool :=
  match pl with
  | .unbacked => false
  | _ => s.recovering pl.half

/-- Whether writes to a place wait for a key (R539). -/
def State.keyWaits (s : State) (pl : Place) (a : Acc) : Bool :=
  match pl with
  | .dram _ p line _ => decide (a ≠ .rd) && s.writesWait p line
  | _ => false

/-- Whether a request lies within the 32 flits of its tile stop's ejection queue (R54); one behind them waits in the
mesh. Endpoint ports have no such bound (R139). -/
def State.ejected (s : State) (w : RegWait) : Bool :=
  let before := (s.sched.waits.takeWhile fun v => decide (v ≠ w)).filter fun v => decide (v.pkt.dest = w.pkt.dest)
  decide (544 ≤ w.pkt.dest.toNat) || decide ((before.map fun v => flitsOf v.pkt).sum + flitsOf w.pkt ≤ 32)

/-- Whether a write to a pair's line finds the delta queue of its check line's controller full (R175): 64 entries. -/
def State.deltaWaits (s : State) (pl : Place) (a : Acc) : Bool :=
  match pl with
  | .dram _ p line _ =>
    decide (a ≠ .rd) && decide (line < s.c0) &&
    decide (64 ≤ (s.lp.deltas.filter fun d => decide (d.half = p / 96 ∧ d.line % 24 = line % 24)).length)
  | _ => false

/-- Whether a request to a place waits at its stop. -/
def State.mustWait (s : State) (w : RegWait) : Bool :=
  let pl := s.place w.pkt.addr.toNat
  let a := waitAcc w
  s.halfWaits pl || s.keyWaits pl a || s.deltaWaits pl a || !s.ejected w ||
  (s.sched.waits.takeWhile fun v => decide (v ≠ w)).any fun v => decide (v.pkt.addr.toNat / 64 = w.pkt.addr.toNat / 64)

/-- Who a packet's issuer is to its target (R212, R213, R215): one without CID passes every check; the boot pairs serve
those, and BAR2 (R584). -/
def whoOf (p : Packet) : Who :=
  ⟨p.cid, p.ctx, p.rights, noCid p, noCid p || decide (p.src.toNat = 0x280 ∨ p.src.toNat = 0x281)⟩

/-- The STATUS that the target's check earns a request (R213, R214): a request of an older epoch meets the old tag (R234). -/
def State.requestCheck (s : State) (p : Packet) (a : Acc) (pl : Place) : Nat :=
  let w := whoOf p
  match s.oldTag p.cid p.epoch pl with
  | some o =>
    let c := s.targetCheck { w with free := true } a pl false
    if c ≠ 0 then c else if o.admits p.cid p.ctx && !w.lacks a then 0 else 1
  | none => s.targetCheck w a pl false

/-- The word an atomic acts on: the byte offset of its 8 bytes in the line. -/
def atomicOff (addr : Nat) : Nat := addr % 64 / 8 * 8

/-- A request that holds its queue entry is checked, served and answered. -/
def State.act (s : State) (w : RegWait) : State :=
  let p := w.pkt
  let mpa := p.addr.toNat
  let pl := s.place mpa
  let a := waitAcc w
  let c := s.requestCheck p a pl
  if c ≠ 0 then
    let k := p.dest.toNat
    let s := s.modMesh fun m => { m with refused := Tab.insert m.refused k (Tab.get (fun _ => 0) m.refused k + 1) }
    s.emit (.mesh (reply p c 0 0))
  else
    let logged := fun (s : State) => match pl with
      | .dram _ _ _ _ => if noCid p then s else s.dlogDevice p.cid mpa
      | _ => s
    match w.op with
    | none =>
      if p.type = 1 then
        let r := s.placeRead pl w.ecc
        r.2.2.emit (.mesh (reply p r.1 r.2.1 0))
      else
        let r := (logged s).placeWrite pl mpa p.data p.byteEn w.ecc
        r.2.emit (.mesh (reply p r.1 0 0))
    | some op =>
      let r := s.placeRead pl w.ecc
      if r.1 ≠ 0 then r.2.2.emit (.mesh (reply p r.1 0 0)) else
        let o := atomicOff mpa
        let old := lineGet r.2.1 o 8
        let new := atomicNew op old (fldN p.operand 0 64) (fldN p.operand 64 64)
        let r2 := (logged r.2.2).placeWrite pl mpa (lineAt o new) (enables o 8) .clean
        r2.2.emit (.mesh (reply p r2.1 0 (BitVec.ofNat 128 old)))

/-- A request takes its queue entry and is served. -/
def State.serve (s : State) (w : RegWait) : State := (s.letIn w (regFlits w.queue (waitAcc w))).act w

/-- A request arrives at its target's stop: a fabric stop takes it to the router; elsewhere it is served or waits. -/
def State.arrive (s : State) (p : Packet) (op : Option AtomicOp) (ecc : Ecc) : State :=
  if 0x250 ≤ p.dest.toNat ∧ p.dest.toNat < 0x280 then s.fabEgress p else
    let at0 := s.now
    let pl := s.place p.addr.toNat
    let w0 : RegWait := { queue := .tile 0, pkt := p, op := op, ecc := ecc, since := at0 }
    let a := waitAcc w0
    let w := { w0 with queue := regQueue pl a p.dest.toNat }
    if s.mustWait w then
      let s := s.when (s.keyWaits pl a) fun s => s.modCry fun c => { c with waits := satInc c.waits }
      s.modSched fun x => { x with waits := x.waits ++ [w] }
    else s.serve w

/-! ### A pair's controller (R175) -/

/-- The pair of a regulated queue. -/
def RegQ.pairOf : RegQ → Option Nat
  | .pairRead p | .pairWrite p => some p
  | _ => none

/-- What the controller of a pair picks by: reads and writes that hold entries, oldest first, the row each bank has open,
how often a row hit has passed the oldest request, whether writes drain. -/
structure ColQ where
  reads : List RegWait := []
  writes : List RegWait := []
  open_ : Tab Nat := []
  passes : Nat := 0
  drain : Bool := false
deriving DecidableEq, Repr

/-- Bank (with its group) and row of a waiting request's line (R166). -/
def State.cellOf (s : State) (w : RegWait) : Nat × Nat :=
  match s.place w.pkt.addr.toNat with
  | .dram _ _ line _ => (lineGroup line + 4 * lineBank line, lineRow line)
  | _ => (0, 0)

/-- Whether writes drain now: from 24 entries, or with no read waiting, down to 8. -/
def ColQ.drains (q : ColQ) : Bool :=
  !q.writes.isEmpty && (q.reads.isEmpty || decide (24 ≤ q.writes.length) || (q.drain && decide (8 < q.writes.length)))

/-- The next column command of a pair: a read whose DEADLINE falls within 2,048 ticks, the earliest first; a row hit, while
fewer than 4 have passed the oldest request; the oldest. Refresh and calibration are timing (R177). -/
def State.nextColumn (s : State) (q : ColQ) : Option (RegWait × ColQ) :=
  let take := fun (w : RegWait) (passes : Nat) (drain : Bool) =>
    let c := s.cellOf w
    (w, ({ reads := q.reads.filter fun v => decide (v ≠ w), writes := q.writes.filter fun v => decide (v ≠ w),
           open_ := Tab.insert q.open_ c.1 c.2, passes := passes, drain := drain } : ColQ))
  let soon := fun (w : RegWait) => decide (w.pkt.deadline ≠ 0) && decide (s.ticksLeft w < 2048)
  let hit := fun (w : RegWait) => decide (Tab.find q.open_ (s.cellOf w).1 = some (s.cellOf w).2)
  match bestOf s.ticksLeft (q.reads.filter soon) with
  | some w => some (take w q.passes q.drain)
  | none =>
    let pool := if q.drains then q.writes else q.reads
    match pool with
    | [] => none
    | oldest :: rest =>
      let drain := q.drains
      if hit oldest then some (take oldest 0 drain) else
        match (if q.passes < 4 then rest.find? hit else none) with
        | some w => some (take w (q.passes + 1) drain)
        | none => some (take oldest 0 drain)

/-- The requests that hold entries of a pair are served in that order: fuel counts them. -/
def State.columns (s : State) (q : ColQ) : Nat → State
  | 0 => s
  | fuel + 1 =>
    match s.nextColumn q with
    | none => s
    | some r => (s.act r.1).columns r.2 fuel

/-- Up to `n` waiting requests of a queue take entries, in the order of R423. -/
def State.admitUp (s : State) (q : RegQ) (ready : List RegWait) : Nat → List RegWait × State
  | 0 => ([], s)
  | n + 1 =>
    match s.pick q ready with
    | none => ([], s)
    | some w =>
      let r := (s.letIn w (regFlits q (waitAcc w))).admitUp q (ready.filter fun v => decide (v ≠ w)) n
      (w :: r.1, r.2)

/-- The ready requests of a pair take the 48 entries of its read queue and the 32 of its write queue, and are served. -/
def State.servePair (s : State) (p : Nat) (ready : List RegWait) : State :=
  let of_ := fun (q : RegQ) => ready.filter fun w => decide (w.queue = q)
  let r := s.admitUp (.pairRead p) (of_ (.pairRead p)) 48
  let w := r.2.admitUp (.pairWrite p) (of_ (.pairWrite p)) 32
  w.2.columns { reads := r.1, writes := w.1 } (r.1.length + w.1.length)

/-- Requests that waited at their stops and need wait no longer are admitted in the order of R423 and served, those of a
pair in the order of R175. Fuel counts them. -/
def State.serveWaits (s : State) : Nat → State
  | 0 => s
  | fuel + 1 =>
    let ready := s.sched.waits.filter fun w => !s.mustWait w
    match ready with
    | [] => s
    | w :: _ =>
      match w.queue.pairOf with
      | some p => (s.servePair p ready).serveWaits fuel
      | none =>
        match s.pick w.queue (ready.filter fun v => decide (v.queue = w.queue)) with
        | none => s
        | some v => (s.serve v).serveWaits fuel

def State.serveAll (s : State) : State := s.serveWaits s.sched.waits.length

/-- R171: the delta leaves its queue; writes that waited for room there go on (R175). -/
def execCheckDelta (h : Half) (s : State) : Out := .next (s.checkDelta h.val).serveAll

def execMeshRead (p : Packet) (ecc : Ecc) (s : State) : Out := .next (s.arrive { p with type := 1 } none ecc)
def execMeshWrite (p : Packet) (ecc : Ecc) (s : State) : Out := .next (s.arrive { p with type := 2 } none ecc)
def execMeshAtomic (p : Packet) (op : AtomicOp) (ecc : Ecc) (s : State) : Out :=
  .next (s.arrive { p with type := 3 } (some op) ecc)

/-- R141: discarded and counted. -/
def execMeshUnknownType (_p : Packet) (s : State) : Out :=
  .next (s.modMesh fun m => { m with unknownTypes := m.unknownTypes + 1 })

/-! ### A response at its issuer -/

/-- A response reaches its issuer (R73, R129, R233): the request ends; a fence that counts it counts one fewer; the
response of a purged bank is discarded and counted. -/
def State.response (s : State) (p : Packet) : State :=
  let k := reqKey p.dest.toNat p.tag.toNat
  let dropped := fun (s : State) => s.modMesh fun m => { m with discardedResponses := m.discardedResponses + 1 }
  match Tab.find s.mesh.reqs k with
  | none => dropped s
  | some r =>
    if (reply r.pkt 0 0 0).type ≠ p.type then dropped s else
    let s := s.modMesh fun m => { m with reqs := Tab.erase m.reqs k }
    let s := s.fenceDown r
    if r.discard then dropped s else
    match r.who with
    | .barArrive _ _ | .barRead _ _ => s.barResponse r p
    | .fabric port key => s.fabricAnswer port key r p
    | .host _ _ _ _ _ _ => s.bar2Response r p
    | _ => s.tileResponse r p

def execReadResponse (p : Packet) (s : State) : Out := .next (s.response { p with type := 4 })
def execWriteAcknowledgement (p : Packet) (s : State) : Out := .next (s.response { p with type := 5 })
def execAtomicResponse (p : Packet) (s : State) : Out := .next (s.response { p with type := 6 })

end Sys2Proof.Machine
end

