-- ==== Sys2Proof/Machine/Sign.lean ====
section
/-! DEFINITION. The module's signing key (R507, R516, R517): leaves and first-level trees, dual signatures; meter records
(R254). -/

namespace Sys2Proof.Machine

/-- Bytes cut or filled with zeros to length `n`. -/
def fitTo (n : Nat) (b : Bytes) : Bytes := (b ++ List.replicate n 0).take n

/-- The identity that signs (R500, R515, R518): the module's, or the debug one. -/
def State.identity (s : State) : Bytes := toBytes 8 s.rot.otp.serial.toNat ++ [if s.rot.testroot then 1 else 0]

/-- One leaf is used (R516): the next tree is generated in the background when 65,536 remain; a tree used up gives way to
the next, its fuse blown first. -/
def State.takeLeaf (s : State) : State :=
  let r := s.rot
  let n := r.leaf.toNat + 1
  if n < 2 ^ 20 then
    s.modRot fun r => { r with
      leaf := BitVec.ofNat 20 n,
      generating := r.generating || (decide (n = 2 ^ 20 - 65536 ∧ r.otp.trees < 4096) && !r.nextTree) }
  else if r.otp.trees < 4096 then
    let s := s.modRot fun r => { r with
      otp := { r.otp with trees := r.otp.trees + 1 }, tree := BitVec.ofNat 12 r.otp.trees, leaf := 0,
      signReady := r.nextTree, generating := r.generating || !r.nextTree, nextTree := false }
    s.when (!r.nextTree) fun s => s.pulse 900
  else (s.modRot fun r => { r with signReady := false, exhausted := true }).pulse 900

/-- Both signatures over a message, ECDSA then HSS (R507, R517): none while the RTP cannot sign. -/
def State.signDual (s : State) (msg : Bytes) : Option ((Bytes × Bytes) × State) :=
  if !s.rot.signReady then none else
    let r := s.rot
    let e := fitTo 96 (Config.sign 0 (s.identity ++ toBytes 8 r.draws) msg)
    let h := fitTo 3532 (Config.sign 1 (s.identity ++ toBytes 2 r.tree.toNat ++ toBytes 4 r.leaf.toNat) msg)
    some ((e, h), (s.modRot fun r => { r with draws := r.draws + 1 }).takeLeaf)

/-- Final meter records that the RTP could not sign as their slots were freed are signed (R254). -/
def State.signFinals (s : State) : State :=
  let one := fun (acc : List (Nat × Bytes) × State) (e : Nat × Bytes) =>
    if e.2.length ≠ 64 then (acc.1 ++ [e], acc.2) else
      match acc.2.signDual e.2 with
      | some r => (acc.1 ++ [(e.1, e.2 ++ r.1.1 ++ r.1.2)], r.2)
      | none => (acc.1 ++ [e], acc.2)
  let r := s.brd.finals.foldl one (([] : List (Nat × Bytes)), s)
  r.2.modBrd fun b => { b with finals := r.1 }

/-- R516, R518: a first-level tree is ready. The first of a power-up signs the alias certificate. -/
def execTreeGenerationDone (s : State) : Out :=
  if !s.rot.generating then .next s
  else if s.rot.signReady then .next (s.modRot fun r => { r with generating := false, nextTree := true })
  else
    let due := s.rot.aliasDue
    let s := s.modRot fun r => { r with generating := false, signReady := true, aliasDue := false }
    .next (s.when due fun s => (s.modRot fun r => { r with draws := r.draws + 1 }).takeLeaf).signFinals

/-! ### Meter records -/

def State.meter (s : State) (slot : Nat) : Meter := Tab.get (fun _ => {}) s.brd.meters slot
def State.modMeter (s : State) (slot : Nat) (f : Meter → Meter) : State :=
  s.modBrd fun b => { b with meters := Tab.insert b.meters slot (f (s.meter slot)) }

/-- The 64 bytes of a meter record (R254). -/
def State.meterBytes (s : State) (slot kind : Nat) : Bytes :=
  let cid := (s.slotE slot).2
  let m := s.meter slot
  let l := s.lease cid
  toBytes 2 cid.toNat ++ toBytes 2 (s.module.toNat + kind * 2 ^ 14) ++ toBytes 4 (m.seq.toNat + 1) ++
  toBytes 8 s.cad.epoch.toNat ++ toBytes 8 m.bound.toNat ++ toBytes 8 m.tiles.toNat ++ toBytes 8 m.units.toNat ++
  toBytes 8 m.ballast.toNat ++ toBytes 4 (s.epochOf slot).toNat ++ toBytes 4 (s.image cid).tenant.toNat ++
  toBytes 8 (if l.st = .none then 0 else l.owner.toNat)

/-- Take a signed meter record (R254): the record and both signatures; none while the RTP cannot sign. -/
def State.takeMeter (s : State) (slot kind : Nat) : Option (Bytes × State) :=
  let b := s.meterBytes slot kind
  (s.signDual b).map fun r =>
    (b ++ r.1.1 ++ r.1.2, r.2.modMeter slot fun m => { m with seq := m.seq + 1 })

end Sys2Proof.Machine
end

