-- ==== Sys2Proof/Machine/Compose.lean ====
section
/-! DEFINITION. Composition over time: stalled fences (R235), rebuilds onto a spare and forwarded moves (R173, R238 to
R241), clears (R250, R251), the freeing of a slot (R224), leases (R246 to R249). -/

namespace Sys2Proof.Machine

/-! ### Contexts lost by the ladder (R472, R475, R484) -/

/-- A context is lost with a CTX_PURGED record (R482): `cause` 0 hang, 1 fence stall, 2 RECOVER. -/
def State.purgeLost (s : State) (cid : Cid) (ctx : Ctx) (tile bank cause : Nat) : State :=
  match s.resOf cid ctx with
  | none => s
  | some r =>
    if (s.resRo r).lost then s else
    let s := s.moduleRecords [cid] 1 (ctx.toNat + tile * 2 ^ 12 + bank * 2 ^ 22 + cause * 2 ^ 24)
    let s := s.when (decide (cause ≠ 2)) fun s => s.countLost cid
    s.loseContext cid ctx none 0

/-! ### The epoch fence -/

/-- Whether a row shift of a composition is still to finish (R75): its fence closes with the shift. -/
def State.shiftOf (s : State) (cid : Cid) : Bool := s.rcv.shifts.any fun x => x.opened && x.cids.contains cid

/-! ### Rebuilds and forwarded moves -/

/-- Itlum prepares the switch of two pairs: the map commits at the next boundary. -/
def State.prepareSwitch (s : State) (c : Change) (a b : Nat) : State :=
  let s := s.modLp fun m => { m with sh := (m.sh.setPend fun p => p.swapPairs a b).accept }
  s.modItl fun i => { i with held := some { change := c } }

/-- Lines that a period of a copy or rebuild moves at `eighths` of `fig` · 10 MB/s, over `part` reads of each (R173,
R238): whole regions. -/
def State.linesPerPeriod (s : State) (fig eighths part : Nat) : Nat :=
  max 1024 (fig * eighths * s.cad.periodNs.toNat / (51200 * part) / 1024 * 1024)

/-- Itlum's REBUILD_PCT of a rebuild at line `cursor` (R189). -/
def State.rebuildShare (s : State) (cursor : Nat) : BitVec 8 := BitVec.ofNat 8 (100 * cursor / s.c0)

/-- A rebuild goes on to line `hi` (R173). -/
def State.rebuildTo (s : State) (p d hi : Nat) (found : List (Nat × Ecc)) : State :=
  let had := fun (l : Nat) => (Tab.find (s.pair d).poison l).isSome || (Tab.find (s.pair p).poison l).isSome
  let s := s.rebuildRange p d (s.pair p).cursor hi found
  let s := s.each (((s.pair d).poison.map (·.1)).filter fun l => !had l) fun s l => s.linePoisoned p l
  let pct := s.rebuildShare hi
  s.modPair p fun x => { x with cursor := hi, rebuildPct := pct }

/-- A copy goes on to line `hi` (R238 step 1). -/
def State.copyTo (s : State) (h hi : Nat) (found : List (Nat × Ecc)) : State :=
  let m := s.moveH h
  let s := s.copyRange m.src.toNat m.dst.toNat m.cursor.toNat hi found
  s.modMove h fun m => { m with cursor := BitVec.ofNat 27 hi }

/-- What a period of the rebuilds and copies of both halves moves, short of their last line: the end is an event of its
own. -/
def State.memoryPeriod (s : State) : State :=
  let s := s.each (List.range 192) fun s p =>
    match (s.pair p).st, (s.pair p).rebuildTo with
    | .rebuilding, some d =>
      let hi := min ((s.pair p).cursor + s.linesPerPeriod ((if (s.pair d).refRate = 0 then 3958 else 3750)) 1 1) ((s.c0 - 1) / 1024 * 1024)
      if (s.pair p).cursor < hi then s.rebuildTo p d hi [] else s
    | _, _ => s
  s.each [0, 1] fun s h =>
    let m := s.moveH h
    let hi := min (m.cursor.toNat + s.linesPerPeriod (s.pairFigure m.dst.toNat) m.rate.toNat 4) ((s.c0 - 1) / 1024 * 1024)
    if m.st = .copying ∧ m.cursor.toNat < hi ∧ (s.pair m.src.toNat).serves then s.copyTo h hi [] else s

/-- R173: the rebuild ends: every line is on the spare, the failed die counts as zero, and the map commit is prepared. -/
def State.rebuildEnds (s : State) (p d : Nat) (found : List (Nat × Ecc)) : State :=
  let cids := s.pairCids p
  let s := s.rebuildTo p d s.c0 found
  let s := s.clearMem (pairKey p 0) (s.c0 * 64)
  s.prepareSwitch (.rebuilt p d cids) p d

def execPairRebuildDone (p : PairIx × List (Nat × Ecc)) (s : State) : Out :=
  match (s.pair p.1.val).st, (s.pair p.1.val).rebuildTo with
  | .rebuilding, some d =>
    if !(s.canChange (s.pairCids p.1.val)) ∨ (s.pair p.1.val).rebuildPct = 100 then .next s
    else .next (s.rebuildEnds p.1.val d p.2)
  | _, _ => .next s

/-- R238 step 2: the copy reaches C0: the destination holds every line, poison with it, and the switch is prepared. -/
def State.copyEnds (s : State) (h : Nat) (found : List (Nat × Ecc)) : State :=
  let m := s.moveH h
  let a := m.src.toNat
  let b := m.dst.toNat
  let cids := s.pairCids a
  let s := s.copyTo h s.c0 found
  let s := s.modMove h fun m => { m with st := .switching }
  s.prepareSwitch (.pairSwitch h a b cids) a b

def execMoveCopyDone (h : Half × List (Nat × Ecc)) (s : State) : Out :=
  let m := s.moveH h.1.val
  if m.st = .copying ∧ s.canChange (s.pairCids m.src.toNat) then .next (s.copyEnds h.1.val h.2) else .next s

/-! ### Clears -/

/-- A keyless region is written as zero under the current KID (R542). -/
def State.regionReset (s : State) (k : Nat) : State :=
  let p := k / 2 ^ 17
  let r := s.region k
  let ls := (s.linesOf p).filter fun l => decide (l / 1024 = k % 2 ^ 17)
  let s := s.each ls fun s l => s.putLine p l 0
  let s := s.kidUsers r.kid false
  let s := s.when r.re fun s => s.kidUsers r.okid false
  let cur := s.cry.curMem
  let gen := s.cry.gen1
  let s := s.kidUsers cur true
  let s := s.modRegion k fun _ => { kid := cur, gen := gen }
  let mac := s.regionMac p (k % 2 ^ 17)
  s.modRegion k fun r => { r with rmac := mac }

/-- A clear writes a data line as zero (R251): its stripe, its poison mark, its region (R537). -/
def State.clearLine (s : State) (p line mpa : Nat) : State :=
  let k := regionKey p line
  if line < s.dataLines ∧ s.keyless k then (s.regionReset k).modPair p fun x => x.fresh line
  else
    let old := if (s.pair p).failed then s.rebuildLine p line else s.line (pairKey p (line * 64))
    let s := s.modPair p fun x => x.fresh line
    let s := (s.clearMem (pairKey p (line * 64)) 64).xorCheck p line old
    if line < s.dataLines then s.regionWrite p line mpa old 0 else s

/-- `n` writes of zero over zero lines of one region: only its counts move (R537, R538, R539). -/
def State.blankWrites (s : State) (p line n : Nat) : State :=
  let k := regionKey p line
  let r := s.region k
  if r.wc.toNat + n < 2 ^ 45 ∧ (r.re ∨ r.wc.toNat + n - r.base.toNat < 2 ^ 20) then
    s.modRegion k fun r => { r with wc := r.wc + BitVec.ofNat 46 n }
  else s.each (List.range n) fun s _ => s.regionWrite p line 0 0 0

/-- Lines [lo, hi) of a pair are written as zero, `mpa` giving the address of each: one by one where a line may hold
other than zero or is poisoned, the others as writes that only count. -/
def State.clearRun (s : State) (p lo hi : Nat) (mpa : Nat → Nat) : State :=
  let stripes := if (s.pair p).failed then s.stripeLines p else []
  let found := ((s.linesOf p ++ stripes ++ (s.pair p).poison.map (·.1)).filter fun l => decide (lo ≤ l ∧ l < hi)).eraseDups
  let s := s.each found fun s l => s.clearLine p l (mpa l)
  let s := s.modPair p fun x => { x with gone := cutRange lo hi x.gone }
  let top := min hi s.dataLines
  s.each ((List.range ((top + 1023) / 1024 - lo / 1024)).map (· + lo / 1024)) fun s r =>
    let a := max lo (r * 1024)
    let n := min top (r * 1024 + 1024) - a - (found.filter fun l => decide (l / 1024 = r)).length
    if n = 0 then s
    else if s.keyless (regionKey p a) then (s.clearLine p a (mpa a)).blankWrites p a (n - 1)
    else s.blankWrites p a n

/-- The lines that a group's decode gives a 256 MiB unit: a run on each member pair (R167). -/
def Igrp.runs (g : Igrp) (u : Nat) : List (Nat × Nat × Nat) :=
  let n := g.n.toNat
  let c := (u - 4 * g.baseGb.toNat) * 2 ^ 20
  if g.valid ∧ 0 < n ∧ 4 * g.baseGb.toNat ≤ u ∧ u < 4 * g.baseGb.toNat + n * g.len.toNat then
    let row := fun (x i : Nat) => g.off.toNat * 2 ^ 22 + (x + n - 1 - i) / n * 4
    ((maskBits g.mask).take n).zipIdx.map fun m => (m.1, row c m.2, row (c + 2 ^ 20) m.2)
  else []

/-- A 256 MiB unit is cleared through the lines its group decodes it to. -/
def State.clearUnit (s : State) (u : Nat) : State :=
  s.each (s.lp.sh.act.igrp.flatMap fun e => e.2.runs u) fun s m =>
    let p := s.phys m.1
    let at_ := fun (l : Nat) => (s.mpaOf p l).getD 0
    s.clearRun (s.serving p m.2.1) m.2.1 m.2.2 at_

/-- A whole pair is cleared, lines 0 to C0 − 1. -/
def State.clearPair (s : State) (p : Nat) : State := s.clearRun p 0 s.c0 fun l => (s.mpaOf p l).getD 0

/-- A group entry kept for the clear of its units is freed with the last of them (R251). -/
def State.freeGroups (s : State) (u : Nat) : State :=
  let kept := s.brd.keptGroups.map fun g => (g.1, g.2.filter fun v => decide (v ≠ u))
  let gone := (kept.filter fun g => g.2.isEmpty).map (·.1)
  let s := s.modBrd fun b => { b with keptGroups := kept.filter fun g => !g.2.isEmpty }
  -- a group that an image in force still names was kept at its old length
  let len := fun (g : Igrp) => (s.brd.images.flatMap fun i => i.2.entries).findSome? fun x => match x with
    | .pairs o l b _ m => if b = g.baseGb.toNat ∧ o = g.off.toNat ∧ m = g.mask then some l else none
    | _ => none
  let one := fun (e : Nat × Igrp) =>
    if gone.contains e.1 then (len e.2).map fun l => (e.1, { e.2 with len := BitVec.ofNat 5 l }) else some e
  let drop := fun (n : MemSh) => { n with igrp := n.igrp.filterMap one }
  s.modLp fun m => { m with sh := m.sh.both drop }

/-- The clear of a resource that has left its composition (R251). -/
def State.clearRes (s : State) (r : Resource) : State :=
  match r with
  | .granule t g => s.clearGranules t g 1
  | .unit u => (s.clearUnit u).freeGroups u
  | .pair p => ((s.clearPair p).setPairSt p .spareReady).spareUp (p / 96)
  | .window w =>
    let keep := fun (n : FabSh) => { n with win := Tab.erase n.win w }
    s.modFab fun f => { f with sh := f.sh.both keep }
  | .func h f => s.flrOne h f
  | .port _ | .bank _ _ | .tile _ => s

/-- Whether the clear of a resource can have completed: a bank has reached EMPTY. -/
def State.clearable (s : State) (r : Resource) : Bool :=
  match r with
  | .bank t b => decide ((s.bank t b).st = .empty)
  | _ => true

/-! ### The end of a slot (R224, R246, R252) -/

/-- A composition's slot is freed once nothing is bound or between two bindings: the final meter record is taken. -/
def State.freeSlot (s : State) (slot : Nat) : State :=
  let cid := (s.slotE slot).2
  let s := match s.takeMeter slot 1 with
    | some r => r.2.modBrd fun b => { b with finals := b.finals ++ [(slot, r.1)] }
    | none =>
      let m := s.meterBytes slot 1
      s.modBrd fun b => { b with finals := b.finals ++ [(slot, m)] }
  let ended := decide ((s.lease cid).st = .none)
  -- R319 code 0x06: no valid collective entry names a CID that is not bound
  let mine := (s.fab.sh.act.coll.filter fun e => decide (e.2.cid = cid)).map (·.1)
  let s := s.each mine fun s c => s.collApply c {}
  let off := fun (n : BrdSh) => { n with slots := Tab.erase n.slots slot }
  let s := s.modBrd fun b => { b with
    sh := b.sh.both off, epochs := Tab.erase b.epochs slot, leaseBits := Tab.erase b.leaseBits slot,
    fences := Tab.erase b.fences slot, meters := Tab.erase b.meters slot, images := Tab.erase b.images cid.toNat,
    current := b.current.filter (fun e => decide (e.1 ≠ cid)),
    leases := if ended then Tab.erase b.leases cid.toNat else b.leases }
  let fab := fun (n : FabSh) => { n with poolLimit := Tab.erase n.poolLimit slot, wbase := Tab.erase n.wbase slot }
  let s := s.modFab fun f => { f with sh := f.sh.both fab, poolUse := Tab.erase f.poolUse slot }
  let ct := fun (n : XltSh) => { n with ctab := Tab.erase n.ctab slot }
  let s := s.modXlt fun x => { x with sh := x.sh.both ct }
  let fq := fun (n : QueSh) => { n with fq := Tab.erase n.fq slot }
  let s := s.modQue fun q => { q with
    objs := Tab.erase q.objs cid.toNat, fq := Tab.erase q.fq slot, sh := q.sh.both fq }
  let s := s.modXlt fun x => { x with migCnt := Tab.erase x.migCnt slot }
  let s := s.modSched fun x => { x with dlmiss := Tab.erase x.dlmiss slot }
  s.modRcv fun r => { r with unavail := Tab.erase r.unavail slot, lostModule := Tab.erase r.lostModule slot }

/-- Free the slot of a composition that has nothing left. -/
def State.settleSlot (s : State) (cid : Cid) : State :=
  match s.slotOf cid with
  | none => s
  | some slot =>
    if (s.image cid).entries.isEmpty && !(s.fence slot).isOpen && !(s.brd.res.any fun e => decide (e.2.1 = cid)) &&
        decide (s.epochOf slot ≠ 0) && !(s.itl.held.any fun h => match h.change with
          | .image c _ _ _ _ => decide (c = cid)
          | _ => false)
    then s.freeSlot slot else s

/-- R251: a resource is FREE. -/
def execUnitClearDone (r : Resource) (s : State) : Out :=
  match s.brd.res.find? fun e => decide (e.1 = r) && decide (e.2.2 = .clearing) with
  | none => .next s
  | some e => if s.clearable r then .next (((s.clearRes r).setFree r).settleSlot e.2.1) else .next s

/-- R233, R234, R250: nothing of the old epoch is outstanding. The fence of a row shift closes with the shift. -/
def execEpochFenceClose (k : SlotIx) (s : State) : Out :=
  let f := s.fence k.val
  let cid := (s.slotE k.val).2
  if f.isOpen ∧ f.count = 0 ∧ !(s.shiftOf cid) then .next ((s.fenceClose k.val).settleSlot cid) else .next s

/-- The contexts whose banks issued requests that a fence still counts (R475). -/
def State.fenceCtxs (s : State) (cid : Cid) : List Ctx :=
  ((s.mesh.reqs.filter fun e => e.2.fence && decide (e.2.pkt.cid = cid) && (s.issuerBank e.2.who).isSome).map
    fun e => e.2.pkt.ctx).eraseDups

/-- R235, R475: a fence open past 16 periods and 500 ms is recorded, and its issuers' contexts are lost. -/
def execFenceStallTimeout (k : SlotIx) (s : State) : Out :=
  let f := s.fence k.val
  let cid := (s.slotE k.val).2
  let limit := max (16 * period) (s.ticksOf 500000000)
  if !f.isOpen ∨ f.reported ∨ s.now < f.openedAt + limit then .next s else
    let s := s.modFence k.val fun f => { f with reported := true }
    let s := s.moduleRecords [cid] 4 (f.count.toNat + (s.epochOf k.val).toNat * 2 ^ 32)
    .next (s.each (s.fenceCtxs cid) fun s c => s.purgeLost cid c 0x3FF 0 1)

/-- R240: the source's clear ends; a source that has failed meanwhile serves no more. -/
def execPairMoveDone (h : Half) (s : State) : Out :=
  let m := s.moveH h.val
  if m.st ≠ .clearing then .next s else
    let a := m.src.toNat
    let s := (s.clearPair a).modPair a fun p => { p with clearing := false, poison := [] }
    let s := if (s.pair a).failed then s.setPairSt a .retired else (s.setPairSt a .spareReady).spareUp (a / 96)
    .next ((s.modMove h.val fun m => { m with st := .done }).opDone 0x0306 0 h.val 0 4 0)

/-! ### Leases -/

/-- The code of BRD_SLOT.LEASE (R258). -/
def leaseCode : LeaseSt → BitVec 2
  | .none => 0
  | .held => 1
  | .orphaned => 2

/-- Write a lease record; its state appears in BRD_SLOT.LEASE (R246). -/
def State.setLease (s : State) (cid : Cid) (l : Lease) : State :=
  let s := s.modBrd fun b => { b with
    leases := Tab.insert b.leases cid.toNat l, lastEpoch := Tab.insert b.lastEpoch cid.toNat l.epoch }
  match s.slotOf cid with
  | some k => s.modBrd fun b => { b with leaseBits := Tab.insert b.leaseBits k (leaseCode l.st) }
  | none => s

/-- A lease becomes ORPHANED at cadence time `at_` (R249). -/
def State.orphan (s : State) (cid : Cid) (at_ : Nat) : State :=
  let l := s.lease cid
  let s := s.setLease cid { l with st := .orphaned, orphanedAt := at_ }
  let ends := s.epochAt at_ + s.brd.grace.toNat
  (s.notifyCid cid 0x8006 (toBytes 4 l.epoch.toNat ++ toBytes 4 0 ++ toBytes 8 ends)).pulse 851

/-- The queues of a composition are emptied (R249): accepted commands complete with Q_PURGED, nothing waits in the ring. -/
def State.emptyQueues (s : State) (cid : Cid) : State :=
  s.each (s.queuesOf cid) fun s e =>
    let s := s.each ((s.qRo e).cmds) fun s c => s.complete e c.index 9 0 true
    s.modQ e fun q => { q with head := q.tail, bell := none }

/-- The changes of ended grace periods that their compositions let Itlum make (R237, R249). -/
def State.expiryChanges (s : State) : State :=
  s.each s.rcv.expired fun s c =>
    if !s.canChange [c] then s
    else ((s.each (s.cidFuncs c) fun s f => s.tdiError f.1 f.2 1).modRcv fun r => { r with
      expired := r.expired.filter fun x => decide (x ≠ c) }).itlumChange c [] 5 []

/-- The grace period ends (R249): the contexts go, the lease is NONE; without a slot its record ends. -/
def State.graceEnds (s : State) (cid : Cid) : State :=
  let l := s.lease cid
  match s.slotOf cid with
  | none => s.modBrd fun b => { b with leases := Tab.erase b.leases cid.toNat }
  | some _ =>
    let s := (s.emptyQueues cid).purgeAll cid
    let s := s.setLease cid { l with st := .none }
    (s.modRcv fun r => { r with expired := r.expired ++ [cid] }).expiryChanges

/-- R249: EXPIRY has come. It is acted on once Itlum serves (R408). -/
def execLeaseExpiry (cid : Cid) (s : State) : Out :=
  let l := s.lease cid
  if l.st = .held ∧ l.expiry ≤ s.now ∧ s.itl.avail then .next (s.orphan cid l.expiry) else .next s

def execGraceExpiry (cid : Cid) (s : State) : Out :=
  let l := s.lease cid
  if l.st = .orphaned ∧ l.orphanedAt + s.brd.grace.toNat * period ≤ s.now ∧ s.itl.avail then .next (s.graceEnds cid)
  else .next s

end Sys2Proof.Machine
end

