-- ==== Sys2Proof/Machine/Recover.lean ====
section
/-! DEFINITION. Failures and the upper steps of the recovery ladder (R471 to R481): hang detection, half recovery, module
recovery, HALTED. -/

namespace Sys2Proof.Machine

/-! ### Hang detection -/

/-- Whether a standstill of a bank counts (R471). -/
def State.hangQualifies (s : State) (t b : Nat) : Bool :=
  let k := s.bank t b
  let stalled := match s.resOf k.cid k.ctx with
    | some r => (s.resRo r).stalled
    | none => false
  decide (k.st = .running ∨ k.st = .loaded) && !k.hold && !(s.tile t).issueHold && !stalled

/-- One bank's sample: STILL, and the figures kept for the next. -/
def State.hangBank (s : State) (t b : Nat) : State :=
  let k := s.bank t b
  let key := t * 4 + b
  let grown := (k.run - Tab.get (fun _ => 0) s.rcv.lastRun key).toNat
  let still :=
    if Tab.find s.rcv.lastProgress key ≠ some k.progress then 0
    else Tab.get (fun _ => 0) s.rcv.still key + (if s.hangQualifies t b then grown else 0)
  s.modRcv fun r => { r with
    still := Tab.insert r.still key still, lastProgress := Tab.insert r.lastProgress key k.progress,
    lastRun := Tab.insert r.lastRun key k.run }

/-- R471, R472: every bank that is not EMPTY, in halves that are not under recovery; a bank whose composition stalls for
the other half's recovery is no more sampled than one of that half (R32). -/
def State.hangSample (s : State) : State :=
  let banks := s.tiles.flatMap fun t => ((List.range 4).filter fun b =>
    decide ((t.2.bank b).st ≠ .empty) && !s.recovering (t.1 / 272) && !s.cidStalled (t.2.bank b).cid).map fun b => (t.1, b)
  let s := s.modRcv fun r => { r with
    still := r.still.filter (fun e => banks.contains (e.1 / 4, e.1 % 4)),
    lastProgress := r.lastProgress.filter (fun e => banks.contains (e.1 / 4, e.1 % 4)),
    lastRun := r.lastRun.filter fun e => banks.contains (e.1 / 4, e.1 % 4) }
  let s := s.each banks fun s x => s.hangBank x.1 x.2
  let hung := banks.filter fun x =>
    decide (s.rcv.hangLimit.toNat * 65536 ≤ Tab.get (fun _ => 0) s.rcv.still (x.1 * 4 + x.2))
  s.each hung fun s x =>
    let k := s.bank x.1 x.2
    s.purgeLost k.cid k.ctx x.1 x.2 0

def execHangSample (s : State) : Out :=
  if s.cad.tick.toNat % 65536 = 0 ∧ s.itl.avail then .next s.hangSample else .next s

/-! ### A recovery falls due -/

/-- A half recovery falls due (R475): covered by a module recovery, or with the other half's it becomes one. -/
def State.dueHalf (s : State) (h : Nat) (by_ : Bool) : State :=
  if s.rcv.st = .module ∨ s.rcv.st = .halted ∨ s.rcv.pendingModule.isSome ∨ (s.rcv.st = .half ∧ s.rcv.half = h) then s
  else match s.rcv.pendingHalf with
    | some (g, b) =>
      if g = h then s else s.modRcv fun r => { r with pendingHalf := none, pendingModule := some (by_ && b) }
    | none => s.modRcv fun r => { r with pendingHalf := some (h, by_) }

/-- A module recovery falls due. -/
def State.dueModule (s : State) (by_ : Bool) : State :=
  if s.rcv.st = .module ∨ s.rcv.pendingModule.isSome ∨ (s.rcv.st = .halted ∧ !by_) then s
  else s.modRcv fun r => { r with pendingHalf := none, pendingModule := some by_ }

/-- The RECOVER commands that a step of level `level` ends (R484), `status` IT_OK or IT_TIMEOUT. -/
def State.recoverOps (s : State) (level status : Nat) (mine : Nat → Bool) : State :=
  let keys := (s.itl.reqs.filterMap fun r => match r.longOp with
    | some l => if l.op = 0x0901 && mine l.key then some (l.cid, l.key) else none
    | none => none).eraseDups
  s.each keys fun s k => s.opDone 0x0901 k.1 k.2 status level 0

/-- Keys of RECOVER commands: 0x10000 + CTX, 0x20000 + tile, 0x30000 + half, 0x40000. -/
def halfKey (h k : Nat) : Bool :=
  decide (k = 0x30000 + h) || (decide (0x20000 ≤ k ∧ k < 0x30000) && decide ((k - 0x20000) / 272 = h))

/-- R74, R473: a drain that takes longer than 1 ms goes on to a half recovery. -/
def execIsolationDrainTimeout (t : TileIx) (s : State) : Out :=
  match s.rcv.isolations.find? fun i => decide (i.tile = t.val) with
  | none => .next s
  | some i =>
    if (s.tile t.val).gate then .next s
    else .next ((s.endIsolation t.val true (s.tileCids t.val)).dueHalf (t.val / 272) i.byRecover)

/-- R476. -/
def execUnresponsiveBlock (h : Half) (s : State) : Out := .next (s.dueHalf h.val false)

/-! ### Half recovery (R477, R478) -/

/-- The controllers of a half complete their writes and deltas and enter self-refresh, or its check area is stale (R178). -/
def State.sleepHalf (s : State) (h : Nat) (clean : Bool) : State :=
  let s :=
    if clean then s.each (s.lp.deltas.filter fun d => decide (d.half = h)) fun s _ => s.checkDelta h
    else s.modLp fun m => { m with
      deltas := m.deltas.filter fun d => decide (d.half ≠ h), stale := Tab.insert m.stale h true }
  s.each ((List.range 96).map (· + h * 96)) fun s p =>
    let st := (s.pair p).st
    if st = .untrained ∨ st = .training ∨ st = .retired ∨ st = .selfRefresh then s
    else (s.modPair p fun x => { x with before := st }).setPairSt p .selfRefresh

/-- ISSUE_HOLD on every tile of a half. -/
def State.holdHalf (s : State) (h : Nat) : State :=
  s.each ((halfTiles h).filter fun t => decide ((s.tile t).role = .grid)) fun s t =>
    s.modTile t fun x => { x with issueHold := true }

/-- Isolations of a half end in a wider step (R475). -/
def State.dropIsolations (s : State) (h : Nat) : State :=
  s.each ((s.rcv.isolations.map (·.tile)).filter fun t => decide (t / 272 = h)) fun s t => s.endIsolation t true (s.tileCids t)

def State.startHalf (s : State) (h : Nat) (by_ clean : Bool) : State :=
  let s := (s.dropIsolations h).recBegin 2 h 0 (s.halfCids h)
  let q := s.rcv.seq
  let s := s.modRcv fun r => { r with
    st := .half, half := h, step := 1, pendingHalf := none, byRecover := by_, stepSeq := q }
  (s.holdHalf h).sleepHalf h clean

def execHalfRecoveryStart (h : Half) (clean : Bool) (s : State) : Out :=
  match s.rcv.pendingHalf with
  | some (g, b) => if g = h.val ∧ s.rcv.st = .normal ∧ s.itl.avail then .next (s.startHalf g b clean) else .next s
  | none => .next s

/-- The requests that the half's fabric ports hold in the module end with the reset of the ports. -/
def State.dropIngress (s : State) (h : Nat) : State :=
  let mine := fun (e : Nat × MeshReq) => match e.2.who with
    | .fabric p _ => decide (p / 24 = h ∧ p < 48)
    | _ => false
  let s := s.each (s.mesh.reqs.filter mine) fun s e => s.fenceDown e.2
  let s := s.modMesh fun m => { m with reqs := m.reqs.filter fun e => !mine e }
  s.modFab fun f => { f with winReqs := f.winReqs.filter fun w => decide (¬ (w.port / 24 = h ∧ w.port < 48)) }

/-- The engines of a half load their keys again after a reset (R531): not those of a slot that is BAD (R512). -/
def State.reloadKeys (s : State) (h : Nat) : State :=
  s.modCry fun c => { c with loaded := c.loaded.filter fun e => decide (e.1 / 64 ≠ h) || !(s.keySlot (e.1 % 64)).bad }

/-- The end of the drain (R477 steps 2 to 6): tiles that still wait are failed shells; ports and controllers are reset
and train. -/
def State.drained (s : State) (h : Nat) : State :=
  let late := (halfTiles h).filter fun t => s.coreOutstanding t && decide ((s.tile t).role = .grid)
  let s := s.each late fun s t => s.shellFail t 0
  let s := (s.dropIngress h).reloadKeys h
  s.each ((List.range 24).map (· + h * 24)) fun s p => if (s.port p).disable then s else s.fullTraining p

def execHalfDrainTimeout (h : Half) (s : State) : Out :=
  if s.rcv.st = .half ∧ s.rcv.half = h.val ∧ s.rcv.step = 1 then
    .next ((s.drained h.val).modRcv fun r => { r with step := 2 })
  else if s.rcv.st = .module ∧ (s.rcv.step = 1 ∨ s.rcv.step = 2 + (1 - h.val)) then
    -- steps 2 and 3 of a module recovery: the west half drained, the east half drained; 4: both
    .next ((s.drained h.val).modRcv fun r => { r with step := if r.step = 1 then 2 + h.val else 4 })
  else .next s

/-- Whether every pair of a half has left self-refresh. -/
def State.pairsAwake (s : State) (h : Nat) : Bool :=
  (List.range 96).all fun i => decide ((s.pair (h * 96 + i)).st ≠ .selfRefresh)

/-- Hang detection starts afresh in a half (R475). -/
def State.freshHang (s : State) (h : Nat) : State :=
  let keep := fun {α : Type} (t : Tab α) => t.filter fun e => decide (e.1 / 4 / 272 ≠ h)
  s.modRcv fun r => { r with still := keep r.still, lastProgress := keep r.lastProgress, lastRun := keep r.lastRun }

/-- ISSUE_HOLD is cleared on a half. -/
def State.releaseHalf (s : State) (h : Nat) : State :=
  (s.each (halfTiles h) fun s t => s.modTile t fun x => { x with issueHold := false, issueHeld := false }).freshHang h

/-- The figures of RECOVERY_QUERY at the end of a recovery (R485). -/
def State.recoveryDone (s : State) (ms : Nat) : State :=
  let e := s.cad.epoch
  s.modRcv fun r => { r with st := .normal, step := 0, byRecover := false, lastMs := BitVec.ofNat 32 ms, lastEpoch := e }

/-- Contexts that a trip took (R479): each that held a bank is lost with code 0x0A, DETAIL 1. -/
def State.tripLosses (s : State) : State :=
  let cs := s.rcv.tripCtxs
  let s := s.modRcv fun r => { r with tripCtxs := [], tripped := false }
  s.each cs fun s c =>
    let body := toBytes 2 1 ++ toBytes 2 (c.2.2.1 + c.2.2.2 * 1024) ++ toBytes 4 0 ++ toBytes 4 0
    match s.resOf c.1 c.2.1 with
    | some r => if (s.resRo r).lost then s else (s.countLost c.1).ctxFault c.1 c.2.1 1 0x0A body none
    | none => s

/-- R477 step 8: the recovery ends at a tick boundary; held requests proceed. -/
def State.endHalf (s : State) (h ms : Nat) : State :=
  let q := s.rcv.stepSeq
  let s := (s.releaseHalf h).recEnd 2 h 0 false q ms (s.halfCids h)
  let s := (s.modRcv fun r => { r with halfCount := satInc r.halfCount }).recoveryDone ms
  (s.recoverOps 2 0 (halfKey h)).serveAll.pumpAll

def State.endModule (s : State) (ms : Nat) : State :=
  let q := s.rcv.stepSeq
  let s := s.when s.rcv.tripped fun s =>
    (s.each allTiles fun s t => s.modTile t fun x => { x with powered := !x.gate, clamped := x.clamp }).tripLosses
  let s := ((s.releaseHalf 0).releaseHalf 1).recEnd 3 0 0 false q ms (s.boundCids.map (·.2))
  let s := (s.modRcv fun r => { r with moduleCount := satInc r.moduleCount, failedModule := 0 }).recoveryDone ms
  let s := s.modItl fun i => { i with trialPeriods := 0 }
  (s.recoverOps 3 0 fun _ => true).serveAll.pumpAll

def execHalfRecoveryEnd (h : Half) (ms : Nat) (s : State) : Out :=
  if s.rcv.st = .half ∧ s.rcv.half = h.val ∧ s.rcv.step = 2 ∧ s.pairsAwake h.val then .next (s.endHalf h.val ms)
  else if s.rcv.st = .module ∧ s.rcv.step = 4 ∧ s.pairsAwake 0 ∧ s.pairsAwake 1 then .next (s.endModule ms)
  else .next s

/-! ### Module recovery and HALTED (R479, R480) -/

/-- A running half recovery ends in the module's. -/
def State.halfEscalates (s : State) : State :=
  if s.rcv.st = .half then s.recEnd 2 s.rcv.half 0 true s.rcv.stepSeq 0 (s.halfCids s.rcv.half) else s

def State.startModule (s : State) (by_ cleanW cleanE : Bool) : State :=
  let s := ((s.dropIsolations 0).dropIsolations 1).halfEscalates
  let s := s.recBegin 3 0 0 (s.boundCids.map (·.2))
  let q := s.rcv.seq
  let s := s.modRcv fun r => { r with
    st := .module, step := 1, pendingHalf := none, pendingModule := none, byRecover := by_, stepSeq := q }
  let fs := s.hst.funcs.map fun e => (e.1 / 257, e.1 % 257)
  let s := ((s.each fs fun s f => s.tdiError f.1 f.2 5).emit (.aer 0)).emit (.aer 1)
  (((s.holdHalf 0).holdHalf 1).sleepHalf 0 cleanW).sleepHalf 1 cleanE

def execModuleRecoveryStart (cleanWest cleanEast : Bool) (s : State) : Out :=
  match s.rcv.pendingModule with
  | some b =>
    if s.rcv.st = .module ∨ !s.itl.avail then .next s
    -- out of HALTED the ladder starts at its step 4 (R480): no module recovery has failed yet
    else .next ((if s.rcv.st = .halted then s.modRcv fun r => { r with failedModule := 0 } else s).startModule b cleanWest cleanEast)
  | none => .next s

/-- Both halves lose power (R459, R479, R480): banks, state arrays and bonded SRAM are lost, pairs are in self-refresh;
the contexts that held a bank are lost at the recovery that follows (log entry 52). -/
def State.unpowerHalves (s : State) : State :=
  let ctxs := s.tiles.flatMap fun t => ((List.range 4).filter fun b => decide ((t.2.bank b).st ≠ .empty)).map fun b =>
    ((t.2.bank b).cid, (t.2.bank b).ctx, t.1, b)
  let s := s.each (s.tiles.map (·.1)) fun s t =>
    let s := s.clearMem (sramKey t 0) 0x1800000
    let s := s.each [0, 1, 2, 3] fun s b => (s.dropBankWaits t b).dropMigration t b
    let s := s.modTile t fun x => { x with
      powered := false, clamped := true, banks := [], chans := [], pairings := [], look := [], barIdle := false, raised := [],
      srm := { x.srm with poison := [], rewrite := [], staleIcv := [], clearBusy := false } }
    s.tileSignal t
  let reqs := s.mesh.reqs.filter fun e => (s.issuerBank e.2.who).isSome
  let s := s.each reqs fun s e => s.fenceDown e.2
  let s := s.modMesh fun m => { m with reqs := m.reqs.filter (fun e => !reqs.contains e), early := [] }
  let s := s.modXlt fun x => { x with look := [] }
  let s := s.each [0, 1] fun s h => (s.sleepHalf h true).dropIsolations h
  s.modRcv fun r => { r with tripped := true, tripCtxs := r.tripCtxs ++ ctxs }

/-- The module halts (R480): every bound composition learns of it. -/
def State.halt (s : State) : State :=
  let s := s.recEnd 3 0 0 false s.rcv.stepSeq 0 (s.boundCids.map (·.2))
  let s := s.unpowerHalves.modRcv fun r => { r with st := .halted, step := 0 }
  (s.moduleRecords (s.boundCids.map (·.2)) 7 0).recoverOps 3 0x0400 fun _ => true

/-- R473: a half recovery goes on to the module; a failed module recovery is tried once more, then the module halts. -/
def execRecoveryTimeout (s : State) : Out :=
  match s.rcv.st with
  | .half =>
    .next (s.dueModule s.rcv.byRecover)
  | .module =>
    if 1 ≤ s.rcv.failedModule then .next ((s.modRcv fun r => { r with failedModule := 2 }).halt)
    else
      let s := s.recEnd 3 0 0 true s.rcv.stepSeq 0 (s.boundCids.map (·.2))
      let b := s.rcv.byRecover
      .next ((s.modRcv fun r => { r with failedModule := 1 }).startModule b true true)
  | _ => .next s

/-- What a trip does to the halves (R459, R475): they lose power, and a recovery step under way ends. -/
def State.loseHalves (s : State) : State :=
  let s := if s.rcv.st = .module then s.recEnd 3 0 0 true s.rcv.stepSeq 0 (s.boundCids.map (·.2)) else s
  let s := s.unpowerHalves.halfEscalates
  s.modRcv fun r => { r with
    st := if r.st = .half ∨ r.st = .module then .normal else r.st, step := 0, pendingHalf := none }

end Sys2Proof.Machine
end

