-- ==== Sys2Proof/Machine/Sched.lean ====
section
/-! DEFINITION. Scheduling (R410 to R418, R426 to R431): the reel in force, the choice of a tile's running bank and the
switch, the reel's rewriting, resident sets that have stalled. -/

namespace Sys2Proof.Machine

/-! ### The reel -/

/-- The entry of a table whose slot covers a tick (R411). -/
def slotAt (t : Tab ReelEntry) (tick : Nat) : Nat × ReelEntry :=
  (((reelEntries t).filter fun e => decide (e.2.start.toNat ≤ tick)).getLast?).getD (0, {})
/-- The table in force. -/
def State.reel (s : State) : Tab ReelEntry := if s.sched.sh.act.sel then s.sched.reelB else s.sched.reelA
/-- The slot in force: SEQ_REEL_NOW (R430). -/
def State.slotNow (s : State) : Nat × ReelEntry := slotAt s.reel s.cad.tick.toNat
/-- The granted lane. -/
def State.lane (s : State) : Nat := s.slotNow.2.lane.toNat

/-- Start of round `k` of 20 (R412). -/
def roundStart (k : Nat) : Nat := k * 2 ^ 20 / 20
/-- The table that R412 writes for the occupied lanes `ls`. -/
def reelFor (ls : List Nat) : Tab ReelEntry :=
  if ls.isEmpty then [(0, ⟨true, 0, 0⟩)] else
    let n := ls.length
    (List.range (20 * n)).map fun i =>
      let k := i / n
      let j := i % n
      let a := roundStart k
      (i, ⟨true, BitVec.ofNat 2 (ls.getD j 0), BitVec.ofNat 20 (a + j * (roundStart (k + 1) - a) / n)⟩)

/-- The occupied lanes (R410). -/
def State.occupied (s : State) : List Nat :=
  (List.range 4).filter fun b => s.tiles.any fun t => decide ((t.2.bank b).st ≠ .empty)

/-- Itlum rewrites the standby table and commits SEL where the occupied lanes have changed and no commit of its own
waits (R400, R412). -/
def State.reelRewrite (s : State) : State :=
  let ls := s.occupied
  if ls = s.sched.lanes ∨ !s.itl.avail ∨ s.itl.held.isSome ∨ s.sched.sh.acc.isSome then s else
    let sel := !s.sched.sh.act.sel
    let t := reelFor ls
    let s := s.modSched fun x => { x with
      reelA := if sel then x.reelA else t, reelB := if sel then t else x.reelB, lanes := ls,
      sh := { x.sh with pend := { x.sh.pend with sel := sel } } }
    let s := s.seqGo
    s.when s.sched.sh.acc.isSome fun s => s.modItl fun i => { i with held := some { change := .commitOnly, block := 0xB } }

/-- R411, R431: a write of a table entry; the active table refuses it, reserved bits are counted (R9). -/
def State.reelWrite (s : State) (table : Bool) (k : Nat) (v : DWord) : State :=
  if s.sched.sh.act.sel = table then s.modSched fun x => { x with err := x.err.refuse } else
    let e : ReelEntry := ⟨bit v 63, fld v 20 2, fld v 0 20⟩
    let s := s.when (decide (fldN v 22 41 ≠ 0)) fun s => s.modSched fun x => { x with err := x.err.reserved }
    s.modSched fun x => { x with
      reelA := if table then x.reelA else Tab.insert x.reelA k e,
      reelB := if table then Tab.insert x.reelB k e else x.reelB }
def execSeqReelEntryWrite (table : Bool) (k : Fin 128) (v : DWord) (s : State) : Out := .next (s.reelWrite table k.val v)

/-! ### The running bank -/

/-- Whether a bank is ready (R414). -/
def Tile.ready (x : Tile) (b : Nat) : Bool :=
  let k := x.bank b
  (decide (k.st = .running) || (decide (k.st = .loaded) && k.inProg)) && !k.hold && !x.issueHold

/-- The first ready bank after bank `g` (R415). -/
def Tile.fill (x : Tile) (g : Nat) : Nat := ([(g + 1) % 4, (g + 2) % 4, (g + 3) % 4].find? x.ready).getD g

/-- Whether the granted bank has nothing to wait for: a fill bank may run at once (R415). -/
def Tile.vacant (x : Tile) (g : Nat) : Bool :=
  let k := x.bank g
  decide (k.st = .empty ∨ k.st = .faulted ∨ k.st = .purging) || (decide (k.st = .loaded) && !k.inProg)

/-- The candidate of R415, before borrowing. -/
def Tile.cand (x : Tile) (g fillDelay : Nat) : Nat :=
  if x.vacant g then x.fill g
  else if !x.ready g && decide (fillDelay < (x.bank g).notReady) then x.fill g
  else g

/-- The owner's bank that bank `g` of a tile lends its slot to (R374, R415). -/
def State.borrower (s : State) (t g : Nat) : Option Nat :=
  match s.bankWait t g with
  | none => none
  | some w =>
    if !(w.isSem && w.borrowing) then none else
    match s.semOwner w with
    | none => none
    | some (_, _, own) => (List.range 4).find? fun b =>
        let k := s.bank t b
        decide (k.st = .loaded ∨ k.st = .running) && decide (k.cid = w.cid ∧ k.ctx = own)

/-- The bank that a tile chooses (R415). -/
def State.choice (s : State) (t : Nat) : Nat :=
  let g := s.lane
  match s.borrower t g with
  | some b => b
  | none => (s.tile t).cand g s.sched.sh.act.fillDelay.toNat

/-- How long the granted bank has not been ready (R415), brought up to date at a boundary. -/
def Tile.countReady (x : Tile) (g : Nat) (slotStart : Bool) : Tile :=
  let one := fun (e : Nat × Bank) =>
    if e.1 ≠ g ∨ x.vacant g ∨ x.ready g then (e.1, { e.2 with notReady := 0 })
    else (e.1, { e.2 with notReady := if slotStart then 1 else e.2.notReady + 1 })
  { x with banks := x.banks.map one }

/-- The channels of a bank whose run ends: a copy pauses, a link channel decides no further slot (R50, R138). -/
def Chan.runEnds (c : Chan) : Chan :=
  if c.link then { c with decided := none } else if c.st = .active then { c with st := .paused } else c

/-- A bank's run ends (R43). -/
def State.stopBank (s : State) (t b : Nat) : State :=
  s.modTile t fun x =>
    let k := x.bank b
    let x := if k.st = .running then x.modBank b fun k => { k with st := .loaded } else x
    { x with chans := x.chans.map fun c => if c.2.bank.toNat = b then (c.1, c.2.runEnds) else c }

/-- A bank's run begins: its slot clock starts at 0, and its copies go on (R43, R50, R132, R138). -/
def State.startBank (s : State) (t b : Nat) : State :=
  let s := (s.modTile t fun x => { x with run := b }).modBank t b fun k => { k with slotClock := 0 }
  let chs := (s.tile t).chans.filter fun c => decide (c.2.bank.toNat = b ∧ c.2.st = .paused) && !c.2.link
  s.each chs fun s c => (s.modChan t c.1 fun x => { x with st := .active }).copyRun t c.1 .clean

/-- The chosen bank runs (R43): a program in progress makes it RUNNING. -/
def State.runBank (s : State) (t b : Nat) : State :=
  let s := if (s.tile t).run = b then s else (s.stopBank t (s.tile t).run).startBank t b
  let k := s.bank t b
  if k.st = .loaded ∧ k.inProg then s.modBank t b fun k => { k with st := .running } else s

/-- A tile chooses its running bank. -/
def State.choose (s : State) (t : Nat) : State := s.runBank t (s.choice t)

/-- R415: the granted bank has not been ready for FILL_DELAY ticks. -/
def execFillDelayExpiry (t : TileIx) (s : State) : Out :=
  let x := s.tile t.val
  let g := s.lane
  if !x.vacant g ∧ !x.ready g ∧ s.sched.sh.act.fillDelay.toNat < (x.bank g).notReady then .next (s.choose t.val) else .next s

/-- The tick that ends counts for the waits of the granted lane on a semaphore (R374). -/
def State.countTick (s : State) : State :=
  let g := s.lane
  s.modQue fun q => { q with waits := q.waits.map fun w => match w.who with
    | .bank _ b =>
      if w.isSem ∧ b = g then
        { w with granted := w.granted + 1, borrowed := if w.borrowing then w.borrowed + 1 else w.borrowed }
      else w
    | _ => w }

/-- The tick that begins counts in SEQ_BANK_RUN of a running bank that is ready, and in SEQ_BANK_LENT of the bank whose
slot it borrows (R417, R432). -/
def State.countRun (s : State) (t g : Nat) : State :=
  let x := s.tile t
  if !x.ready x.run then s else
    let lends := decide (x.run ≠ g) && decide (s.borrower t g = some x.run)
    let s := s.modBank t x.run fun k => { k with run := k.run + 1 }
    s.when lends fun s => s.modBank t g fun k => { k with lent := k.lent + 1 }

/-- Every tile chooses at the boundary. -/
def State.chooseAll (s : State) : State :=
  let e := s.slotNow
  let g := e.2.lane.toNat
  let start := decide (e.2.start.toNat = s.cad.tick.toNat)
  s.each ((s.tiles.filter fun t => !t.2.banks.isEmpty).map (·.1)) fun s t =>
    ((s.modTile t fun x => x.countReady g start).choose t).countRun t g

/-! ### Resident sets that have stalled (R426, R427) -/

/-- PROGRESS of each bank of a resident context. -/
def State.progressOf (s : State) (r : Nat) : List Word := (s.resRo r).banks.map fun b => (s.bank b.1 b.2).progress

/-- The accepted, incomplete commands of a context. -/
def State.cmdsOf (s : State) (cid : Cid) (ctx : Ctx) : List QCmd :=
  (s.queuesOf cid).flatMap fun e => (s.qRo e).cmds.filter fun c => decide (c.st ≠ .finished ∧ pktCtx c.pkt = ctx)

/-- Whether a resident context is blocked (R426). -/
def State.blocked (s : State) (r : Nat) (e : ResSh) : Bool :=
  !(s.cmdsOf e.cid e.ctx).isEmpty && decide (s.sched.rssHoldoff.toNat ≤ (Tab.get (fun _ => ([], 0)) s.sched.rss r).2)

/-- The resident contexts of a composition with their entries. -/
def State.resEntries (s : State) (cid : Cid) : List (Nat × ResSh) :=
  s.que.sh.act.res.filter fun e => e.2.valid && decide (e.2.cid = cid)

/-- The first two conditions of R426. -/
def State.rssStands (s : State) (cid : Cid) : Bool :=
  let busy := (s.resEntries cid).filter fun e => !(s.cmdsOf cid e.2.ctx).isEmpty
  !busy.isEmpty && busy.all fun e => s.blocked e.1 e.2

/-- Commands that ended with Q_NOT_RESIDENT within RSS_HOLDOFF periods (R426): the contexts, first completion first. -/
def State.rssAbsent (s : State) (cid : Cid) : List Ctx :=
  ((s.sched.notRes.filter fun e => decide (e.1 = cid) && decide (s.cad.elapsed ≤ e.2.2 + s.sched.rssHoldoff.toNat)).map
    fun e => e.2.1).eraseDups

/-- At a wrap: standstills of resident contexts and of resident sets are counted. -/
def State.rssSample (s : State) : State :=
  let one := fun (s : State) (e : Nat × ResSh) =>
    let p := s.progressOf e.1
    let old := Tab.get (fun _ => (p, 0)) s.sched.rss e.1
    let moved := decide (old.1 ≠ p)
    s.modSched fun x => { x with
      rss := Tab.insert x.rss e.1 (p, if moved then 0 else old.2 + 1),
      rssSent := if moved then x.rssSent.filter fun c => decide (c ≠ e.2.cid) else x.rssSent }
  let s := s.each (s.que.sh.act.res.filter fun e => e.2.valid) one
  let cids := s.boundCids.map (·.2)
  let held := cids.filterMap fun c =>
    if s.rssStands c then some (c.toNat, Tab.get (fun _ => 0) s.sched.rssHeld c.toNat + 1) else none
  let epoch := s.cad.elapsed
  s.modSched fun x => { x with
    rssHeld := held.foldl (fun t e => Tab.insert t e.1 e.2) [],
    notRes := x.notRes.filter fun e => decide (epoch ≤ e.2.2 + 256) }

/-- WHY of a blocked context (R427). -/
def State.rssWhy (s : State) (r : Nat) (e : ResSh) : Nat :=
  let banks := (s.resRo r).banks
  let of := fun (b : Nat × Nat) =>
    let k := s.bank b.1 b.2
    match k.wait with
    | some (.fence _ _ _) => 1
    | some (.sem _ _ _) => 2
    | some (.bar _ _ _ _ _) => 3
    | some (.arrive _) => 3
    | some (.migrate _ _ _ _) => 4
    | some (.stalledFault _ _) => 5
    | _ => if k.hold ∨ (s.tile b.1).issueHold then 6 else 0
  let w := ((banks.map of).find? fun n => decide (n ≠ 0)).getD 0
  if (s.resRo r).stalled then 5
  else if w ≠ 0 then w
  else if (s.cmdsOf e.cid e.ctx).any fun c => decide (c.st = .started ∧ pktOpc c.pkt = 3) then 1
  else 7

/-- The payload of RESIDENT_SET_STALLED (R427). -/
def State.rssPayload (s : State) (cid : Cid) : Bytes :=
  let bs := (s.resEntries cid).filter fun e => s.blocked e.1 e.2
  let sorted := (bs.foldl (fun (t : Tab (Nat × ResSh)) e => Tab.insert t e.2.ctx.toNat e) []).map (·.2)
  let ns := s.rssAbsent cid
  toBytes 1 (min bs.length 64) ++ toBytes 1 (min ns.length 24) ++
    toBytes 2 ((if 64 < bs.length then 1 else 0) + (if 24 < ns.length then 2 else 0)) ++
    toBytes 4 (Tab.get (fun _ => 0) s.sched.rssHeld cid.toNat) ++ toBytes 8 s.cad.epoch.toNat ++
    padTo 128 ((sorted.take 64).flatMap fun e => toBytes 2 (e.2.ctx.toNat + s.rssWhy e.1 e.2 * 0x1000)) ++
    padTo 48 ((ns.take 24).flatMap fun c => toBytes 2 c.toNat)

/-- R426: all three conditions have held for RSS_HOLDOFF periods; sent once until the condition ends. -/
def execResidentSetStalled (cid : Cid) (s : State) : Out :=
  let due := s.itl.avail && decide (s.sched.rssHoldoff.toNat ≤ Tab.get (fun _ => 0) s.sched.rssHeld cid.toNat) &&
    s.rssStands cid && !(s.rssAbsent cid).isEmpty && !s.sched.rssSent.contains cid
  if !due then .next s else
    let s := s.modSched fun x => { x with rssSent := x.rssSent ++ [cid] }
    .next ((s.notifyCid cid 0x8005 (s.rssPayload cid)).pulse 850)

end Sys2Proof.Machine
end

