-- ==== Sys2Proof/Machine/Power.lean ====
section
/-! DEFINITION. Power and thermal control (R444 to R463): limits on the actuators and their episodes, the 10 µs loop, the
protections, the drogue, ballast and its energy, voltage, temperatures, the trip. -/

namespace Sys2Proof.Machine

/-! ### Settings (R444, R460, R461) -/

/-- Domain code of an actuator (R444). -/
def Actuator.domain : Actuator → Nat
  | .link => 0
  | .mem => 1
  | .clk => 2
def actuatorOf (d : Nat) : Actuator := if d = 0 then .link else if d = 1 then .mem else .clk

/-- The unthrottled setting of an actuator (R444). -/
def State.fullSetting (s : State) (a : Actuator) : Nat := if a = .clk ∧ s.boot.service ≠ 2 then 8 else 16

/-- The pairs or ports that a location of R460 covers, as keys of `Pwr.parts`; none where it covers the whole domain. -/
def coveredBy (location : Nat) : Option (List Nat) :=
  if 0x400 ≤ location ∧ location < 0x440 then some ((List.range 4).map fun i => 1 + (location - 0x400) * 4 + i)
  else if 0x440 ≤ location ∧ location < 0x480 then some [200 + (location - 0x440)]
  else if 0x480 ≤ location ∧ location < 0x500 then some ((List.range 4).map fun i => 1 + (location - 0x480) * 4 + i)
  else none
/-- Whether a limit covers only a part of its domain. -/
def Limit.keys (l : Limit) : Option (List Nat) := if l.act = .clk then none else coveredBy l.location

def least (d : Nat) (l : List Nat) : Nat := l.foldl min d

/-- The setting of an actuator as a whole: the lowest of its limits (R461). -/
def State.setting (s : State) (a : Actuator) : Nat :=
  least (s.fullSetting a) ((s.pwr.limits.filter fun l => decide (l.act = a) && l.keys.isNone).map (·.setting))
/-- The setting of one pair or port. -/
def State.partSetting (s : State) (a : Actuator) (k : Nat) : Nat :=
  least (s.setting a) ((s.pwr.limits.filter fun l => decide (l.act = a) && (l.keys.any fun ks => ks.contains k)).map (·.setting))

/-- Whether a limit holds its actuator (R461). -/
def State.holds (s : State) (l : Limit) : Bool :=
  decide (l.setting < s.fullSetting l.act) &&
    match l.keys with
    | none => decide (l.setting = s.setting l.act)
    | some ks => ks.any fun k => decide (l.setting = s.partSetting l.act k)

/-! ### Episodes (R461, R462) -/

def Episode.is (e : Episode) (l : Limit) : Bool :=
  decide (e.reason = l.reason ∧ e.domain = l.domain ∧ e.location = l.location)

/-- The record of an episode (R461). -/
def Episode.bytes (e : Episode) : Bytes :=
  toBytes 1 e.reason ++ toBytes 1 e.domain ++ toBytes 2 e.location ++ toBytes 4 e.number.toNat ++
  toBytes 8 e.openEpoch.toNat ++ toBytes 4 (e.openTick + e.deepest * 2 ^ 20) ++ toBytes 4 0 ++
  toBytes 8 (e.ticks.toNat % 2 ^ 48 + (if e.isOpen then 2 ^ 63 else 0))

/-- Episodes open, deepen and close as the limits that hold change. -/
def State.episodes (s : State) : State :=
  let held := s.pwr.limits.filter s.holds
  let ending := s.pwr.episodes.filter fun e => e.isOpen && !held.any e.is
  let close := fun (e : Episode) => if ending.contains e then { e with isOpen := false } else e
  let s := s.modPwr fun p => { p with episodes := p.episodes.map close }
  let s := s.each ending fun s e =>
    s.when (decide (2 ^ 20 ≤ e.ticks.toNat) || [3, 4, 6, 8].contains e.reason) fun s =>
      s.log 0x06 0xFFFF 0 ({ e with isOpen := false }.bytes.take 28)
  s.each held fun s l =>
    let now := fun (e : Episode) => e.isOpen && e.is l
    if s.pwr.episodes.any now then
      s.modPwr fun p => { p with episodes := p.episodes.map fun e => if now e then { e with deepest := min e.deepest l.setting } else e }
    else
      let e : Episode := { number := s.pwr.epiNext, reason := l.reason, domain := l.domain, location := l.location,
                           openEpoch := s.cad.epoch, openTick := s.cad.tick.toNat, deepest := l.setting, isOpen := true }
      (s.modPwr fun p => { p with
        epiNext := p.epiNext + 1, episodes := (p.episodes ++ [e]).drop (p.episodes.length - 1023) }).pulse 838

/-- A reason's limit on an actuator at a location takes a setting; at the unthrottled one it goes. -/
def State.setLimit (s : State) (a : Actuator) (reason location setting : Nat) : State :=
  let other := fun (l : Limit) => !(decide (l.act = a ∧ l.reason = reason ∧ l.location = location))
  let rest := s.pwr.limits.filter other
  let new := if s.fullSetting a ≤ setting then [] else [Limit.mk a reason a.domain location setting]
  (s.modPwr fun p => { p with limits := rest ++ new }).episodes
def State.limitAt (s : State) (a : Actuator) (reason location : Nat) : Option Nat :=
  (s.pwr.limits.find? fun l => decide (l.act = a ∧ l.reason = reason ∧ l.location = location)).map (·.setting)

/-- Settings take effect at the tick boundary (R445, R447): a step down at once, a step up of the clock once the voltage
of both halves has settled. -/
def State.volt (s : State) (h : Nat) : VoltSt := Tab.get (fun _ => {}) s.pwr.volts h
def State.modVolt (s : State) (h : Nat) (f : VoltSt → VoltSt) : State :=
  s.modPwr fun p => { p with volts := Tab.insert p.volts h (f (s.volt h)) }

def State.applyClock (s : State) : State :=
  let want := s.setting .clk
  let have_ := s.pwr.clk.toNat
  let down := fun (v : VoltSt) => { v with target := want, settled := true }
  let up := fun (v : VoltSt) => { v with target := want, settled := false }
  let go := fun (s : State) => s.modPwr fun p => { p with clk := BitVec.ofNat 5 want }
  if want = have_ then s
  else if want < have_ then (((go s).modVolt 0 down).modVolt 1 down)
  else if (s.volt 0).target = want ∧ (s.volt 1).target = want then
    if (s.volt 0).settled ∧ (s.volt 1).settled then go s else s
  else (s.modVolt 0 up).modVolt 1 up

def State.applyPower (s : State) : State :=
  let s := s.applyClock
  let keys := (s.pwr.limits.flatMap fun l => (l.keys.getD []).map fun k => (l.act, k)).eraseDups
  let parts := keys.foldl (fun (t : Tab Nat) k => Tab.insert t k.2 (s.partSetting k.1 k.2)) []
  let m := s.setting .mem
  let l := s.setting .link
  let s := s.modPwr fun p => { p with mem := BitVec.ofNat 5 m, link := BitVec.ofNat 5 l, parts := parts }
  -- settings below unthrottled in this period, for R463
  let low := (if s.pwr.clk.toNat < s.fullSetting .clk then [0] else []) ++
    (if m < 16 then (List.range 192).map (· + 1) else []) ++ (if l < 16 then (List.range 48).map (· + 200) else []) ++
    parts.map (·.1)
  let span := s.pwr.span.map fun e => if low.contains e.1 then e else (e.1, false)
  let span := (low.filter fun k => (Tab.find span k).isNone).foldl (fun t k => Tab.insert t k false) span
  s.modPwr fun p => { p with span := span }

/-- The setting in effect of a key of `Pwr.parts`. -/
def State.inEffect (s : State) (k : Nat) : Nat :=
  if k = 0 then s.pwr.clk.toNat
  else min (if k < 200 then s.pwr.mem.toNat else s.pwr.link.toNat) (Tab.get (fun _ => 16) s.pwr.parts k)
def State.fullOf (s : State) (k : Nat) : Nat := if k = 0 then s.fullSetting .clk else 16

/-- Reckon again what a figure of R463 covers. -/
def State.regaugeKey (s : State) (k : Nat) : State :=
  if k = 0 then s.regaugeTiles
  else if k < 200 then s.each (s.logPairs (k - 1)) fun s l => s.regauge (.pair l)
  else (s.regauge (.port (k - 200) false)).regauge (.port (k - 200) true)

/-- EPISODE_RECKONING at the end of a period (R463). -/
def State.reckonPeriod (s : State) : State :=
  let whole := (s.pwr.span.filter fun e => e.2).map fun e => (e.1, s.inEffect e.1)
  let back := (s.pwr.figs.filter fun e => (Tab.find s.pwr.span e.1).isNone).map fun e => (e.1, s.fullOf e.1)
  let changed := (whole ++ back).filter fun e => decide (s.figStep e.1 ≠ e.2)
  let figs := changed.foldl (fun t e => if e.2 = 16 then Tab.erase t e.1 else Tab.insert t e.1 e.2) s.pwr.figs
  let s := s.modPwr fun p => { p with figs := figs }
  let s := s.each changed fun s e => s.regaugeKey e.1
  let low := s.pwr.span.filterMap fun e => if s.inEffect e.1 < s.fullOf e.1 then some (e.1, true) else none
  s.modPwr fun p => { p with span := low }

/-! ### Ballast (R58, R149, R452, R453) -/

/-- The sample of a tile's barrier-idle request at the end of a tick (R149); the next tick begins with no matrix step issued
and the request of the banks that still wait. -/
def Tile.sampleIdle (x : Tile) : Tile :=
  { x with barIdle := x.idleNow, matrix := false, raised := (x.banks.filter fun b => b.2.hooked).map fun b => b.2.cid }

/-- The format that ballast runs in (R58). -/
def Tile.ballastFmt (x : Tile) : Nat := if x.narrow then x.balFmt.toNat else 2
/-- Picojoules of one ballast step at the voltage of clock step 16 (R453). -/
def stepPj (fmt : Nat) : Nat := if fmt = 3 then 1250 else if fmt = 7 then 950 else 1450
/-- Trim steps of a half. -/
def State.trim (s : State) (h : Nat) : Nat := if h = 0 then s.pwr.trimW.toNat else s.pwr.trimE.toNat
/-- Picojoules of one ballast step of a half at its present voltage (R453, R455, R456), in tenths of mV squared. -/
def State.stepEnergy (s : State) (h fmt : Nat) : Nat :=
  let e := stepPj fmt
  if s.pwr.clk = 16 ∧ s.trim h = 0 ∧ (s.volt h).lift = 0 then e else
    let v := Config.tableVoltage h s.pwr.clk.toNat * 10 + 25 * (s.volt h).lift - 25 * s.trim h
    let v16 := Config.tableVoltage h 16 * 10
    e * v * v / max (v16 * v16) 1
/-- Microwatts of one DUTY level of a tile (R453). -/
def State.levelUw (s : State) (h fmt : Nat) : Nat := s.stepEnergy h fmt * 3300 * s.pwr.clk.toNat / 256

/-- Warning limit of a tile in eighths of a degree (R457). -/
def tileWarn : Int := 720
/-- Whether a tile is eligible for ballast (R452). -/
def Tile.eligible (x : Tile) : Bool := decide (x.role = .grid) && x.powered && decide (x.temp.toInt < tileWarn)

/-- Ballast in force in microwatts, and its DUTY levels. -/
def State.ballastNow (s : State) : Nat × Nat :=
  s.tiles.foldl (fun a t =>
    if t.2.balEn ∧ t.2.powered then
      (a.1 + t.2.balDuty.toNat * s.levelUw (t.1 / 272) t.2.ballastFmt, a.2 + t.2.balDuty.toNat)
    else a) (0, 0)

/-- `total` levels over the tiles of a list, DUTY values differing by at most 1. -/
def State.spread (s : State) (ts : List Nat) (total : Nat) : State :=
  let n := max ts.length 1
  let fmt := s.pwr.sh.act.balFmt
  let put_ := fun (s : State) (e : Nat × Nat) =>
    let d := total / n + (if e.1 < total % n then 1 else 0)
    let x := s.tile e.2
    if (!x.balEn && decide (d = 0)) || (x.balEn && decide (x.balDuty.toNat = d) && decide (x.balFmt = fmt)) then s
    else s.modTile e.2 fun x => { x with balEn := decide (d ≠ 0), balFmt := fmt, balDuty := BitVec.ofNat 4 d }
  s.each ((List.range ts.length).zip ts) put_

/-- BALLAST_SET: `total` DUTY levels, tiles that raise barrier-idle first (R452). -/
def State.setBallast (s : State) (total : Nat) : State :=
  let ok := allTiles.filter fun t => (s.tile t).eligible
  let hooks := ok.filter fun t => (s.tile t).barIdle
  let others := ok.filter fun t => !(s.tile t).barIdle
  let a := min total (15 * hooks.length)
  (s.spread hooks a).spread others (min (total - a) (15 * others.length))

/-- The levels that the deficit calls for, P being `watts` (R452). -/
def State.ballastWanted (s : State) (watts : Nat) : Nat :=
  let now := s.ballastNow.1
  let idle : Int := (watts * 1000000 : Nat) - now
  let need := (s.pwr.floor * 62500 : Nat) - idle
  let x := (s.pwr.sh.act.balFmt).toNat
  let level := max ((s.levelUw 0 x + s.levelUw 1 x) / 2) 1
  if need ≤ 0 then 0 else (need.toNat + level - 1) / level

/-- Ballast energy enters an account: whole microjoules, the remainder carried (R253, R453). -/
def State.account (s : State) (slot pj : Nat) : State :=
  let sum := Tab.get (fun _ => 0) s.pwr.remainders slot + pj
  let uj := BitVec.ofNat 64 (sum / 1000000)
  let s := s.modPwr fun p => { p with remainders := Tab.insert p.remainders slot (sum % 1000000) }
  if slot = 512 then s.modPwr fun p => { p with ballastModule := p.ballastModule + uj }
  else s.modMeter slot fun m => { m with ballast := m.ballast + uj }

/-- The slots whose banks raised a tile's barrier-idle request in the tick, lowest first (R253). -/
def State.idleSlots (s : State) (x : Tile) : List Nat :=
  ((x.raised.filterMap s.slotOf).foldl (fun (t : Tab Bool) k => Tab.insert t k true) []).map (·.1)

/-- One tick of ballast on a tile: steps, their energy, the accounts (R58, R253, R453). -/
def State.ballastTick (s : State) (t cycles : Nat) : State :=
  let x := s.tile t
  if !(x.balEn && x.powered && !x.matrix) then s else
    let sum := cycles * x.balDuty.toNat + x.balRem
    let steps := sum / 16
    let s := s.modTile t fun x => { x with
      balRem := sum % 16, balSteps := x.balSteps + BitVec.ofNat 64 steps, lfsr := Config.lfsrAfter steps x.lfsr }
    let pj := steps * s.stepEnergy (t / 272) x.ballastFmt
    match s.idleSlots x with
    | [] => s.account 512 pj
    | k :: ks =>
      let n := ks.length + 1
      (s.account k (pj / n + pj % n)).each ks fun s j => s.account j (pj / n)

/-! ### The 10 µs loop (R447, R448) -/

/-- The domains in the order of PWR_ORDER. -/
def State.order (s : State) : List Actuator :=
  [s.pwr.sh.act.first, s.pwr.sh.act.second, s.pwr.sh.act.third].map fun d => actuatorOf d.toNat

/-- Limits that hold an actuator as a whole. -/
def State.holding (s : State) (a : Actuator) : List Limit :=
  s.pwr.limits.filter fun l => decide (l.act = a) && l.keys.isNone && s.holds l
def loopReason (l : Limit) : Bool := decide (l.reason = 1 ∨ l.reason = 2)

/-- Lower by one setting the last domain that may be lowered; none where every domain is at its floor. -/
def State.lowerOne (s : State) : Option State :=
  let may := fun a => decide (4 < s.setting a) && (s.holding a).all loopReason
  match s.order.reverse.find? may with
  | none => none
  | some a => some (s.setLimit a (if s.pwr.capEff ≤ s.pwr.ceil then 1 else 2) 0xFFFF (s.setting a - 1))

/-- Raise by one setting the first domain that CAP or DROGUE alone holds. -/
def State.raiseOne (s : State) : State :=
  let may := fun a => !(s.holding a).isEmpty && (s.holding a).all loopReason
  match s.order.find? may with
  | none => s
  | some a => s.each (s.holding a) fun s l => s.setLimit a l.reason l.location (l.setting + 1)

/-- PEAK and CURRENT (R448). -/
def State.protect (s : State) (r : PowerReading) : State :=
  let s := if 3300 < r.watts then
      (s.setLimit .clk 3 0xFFFF (max 4 (s.setting .clk - 2))).pulse 839
    else s
  if 72000 < r.currentMa then (s.setLimit .clk 4 0xFFFF (max 4 (s.setting .clk - 1))).pulse 839 else s

/-- The loop against L = min(CAP_EFF, CEIL). -/
def State.loopStep (s : State) (p : Nat) : State :=
  let l := min s.pwr.capEff s.pwr.ceil
  let levels := s.ballastNow.2
  if l < 16 * p then
    if levels ≠ 0 then s.setBallast (min (s.ballastWanted p) (levels - 1))
    else match s.lowerOne with
      | some s => s
      | none => if s.pwr.unmet then s else (s.modPwr fun p => { p with unmet := true }).pulse 836
  else
    let s := s.when s.pwr.sh.act.balEn fun s => s.setBallast (s.ballastWanted p)
    if 100 * 16 * p < 100 * l - 2 * s.pwr.capEff then s.raiseOne else s

/-- Watts saturate at 0xFFFF (R469). -/
def sat16 (n : Nat) : BitVec 16 := BitVec.ofNat 16 (min n 0xFFFF)

def execPowerLoop (r : PowerReading) (s : State) : Out :=
  let s := s.modPwr fun p => { p with
    vin := sat16 r.inputMv, pin := sat16 (r.inputMv * r.currentMa / 1000000), pLink := sat16 r.link, pMem := sat16 r.mem,
    pComp := sat16 r.comp, pBase := sat16 r.base }
  let p := s.pwr
  let now := [0, p.pin.toNat, p.pLink.toNat, p.pMem.toNat, p.pComp.toNat, p.pBase.toNat]
  let sum := (List.range 6).map fun i => s.itl.powerSum.getD i 0 + now.getD i 0
  let s := s.modItl fun i => { i with powerSum := sum, powerCount := i.powerCount + 1 }
  .next ((s.protect r).loopStep r.watts)

/-- One setting of a protective limit is given back. -/
def State.giveBack (s : State) (a : Actuator) (reason location : Nat) : State :=
  match s.limitAt a reason location with
  | some n => s.setLimit a reason location (n + 1)
  | none => s

def execProtectionRelease (currentAbsent peakAbsent : Bool) (s : State) : Out :=
  let s := s.when peakAbsent fun s => s.giveBack .clk 3 0xFFFF
  .next (s.when currentAbsent fun s => s.giveBack .clk 4 0xFFFF)

/-! ### The drogue (R449, R450, R454) -/

/-- Whether a tick is a step point. -/
def State.stepPoint (s : State) : Bool := decide (s.cad.tick.toNat % 65536 = s.pwr.sh.act.stagger.toNat)

/-- The telemetry snapshot at the first step point of a period (R446). -/
def State.snapPower (s : State) : State :=
  let p := s.pwr
  let l := [p.vin, p.pin, p.pLink, p.pMem, p.pComp, p.pBase].map (·.toNat)
  s.modPwr fun p => { p with snap := l }

def execDrogueStepPoint (avgWatts : Nat) (allBelow : Bool) (s : State) : Out :=
  if !s.stepPoint then .next s else
    let full := (allTiles.filter fun t => (s.tile t).eligible).all fun t => (s.tile t).balEn && decide ((s.tile t).balDuty = 15)
    let s := s.when (decide (s.cad.tick.toNat < 65536)) fun s => s.snapPower
    let s := s.when (full && allBelow && decide (s.pwr.floor ≠ 0)) fun s =>
      (s.pulse 837).emit (.event 837 [s.pwr.floor / 16, avgWatts])
    let n := 7 * s.pwr.sh.act.slew.toNat
    let cap := 16 * s.pwr.sh.act.cap.toNat
    let eff := if cap < s.pwr.capEff then max cap (s.pwr.capEff - n) else s.pwr.capEff
    .next (s.modPwr fun p => { p with
      capEff := eff, ceil := min eff (16 * avgWatts + n), floor := 16 * avgWatts - n, unmet := false })

/-- What a commit of PWR_ values brings (R450, R456). -/
def State.powerCommitted (s : State) (old : PwrSh) : State :=
  let new := s.pwr.sh.act
  let cap := 16 * new.cap.toNat
  let s := s.modPwr fun p => { p with capEff := if p.capEff ≤ cap ∨ !new.ramp then cap else p.capEff }
  let s := if old.vmode ∧ !new.vmode then
      let flat := fun (v : VoltSt) => { v with lift := 0, noTrim := 0 }
      ((s.modPwr fun p => { p with trimE := 0, trimW := 0 }).modVolt 0 flat).modVolt 1 flat
    else s
  s.when (!new.balEn && decide (s.ballastNow.2 ≠ 0)) fun s => s.setBallast 0

/-! ### Voltage (R445, R456) -/

def vmarginAt (h : Nat) : Nat := 0x700 + h

/-- R445: the half's voltage has settled; a limit that an alarm set goes. -/
def execVoltageSettled (h : Half) (s : State) : Out :=
  let s := s.modVolt h.val fun v => { v with settled := true }
  .next (s.setLimit .clk 7 (vmarginAt h.val) 16)

def State.setTrim (s : State) (h n : Nat) : State :=
  s.modPwr fun p => if h = 0 then { p with trimW := BitVec.ofNat 5 n } else { p with trimE := BitVec.ofNat 5 n }

def execVoltageMarginAlarm (h : Half) (s : State) : Out :=
  if !s.pwr.sh.act.vmode then .next s else
    let t := s.trim h.val
    let s := (s.setTrim h.val (t - 4)).modVolt h.val fun v => { v with
      lift := v.lift + (4 - t), noTrim := 4096, settled := false }
    .next ((s.setLimit .clk 7 (vmarginAt h.val) (max 4 (s.setting .clk - 1))).pulse 843)

def execVoltageTrimDown (h : Half) (s : State) : Out :=
  let v := s.volt h.val
  if !s.pwr.sh.act.vmode ∨ v.noTrim ≠ 0 then .next s
  else if v.lift ≠ 0 then .next (s.modVolt h.val fun v => { v with lift := v.lift - 1 })
  else if s.trim h.val < 20 then .next (s.setTrim h.val (s.trim h.val + 1))
  else .next s

/-- A period passes for the halves that are not trimmed down (R456). -/
def State.voltPeriod (s : State) : State :=
  s.modPwr fun p => { p with volts := p.volts.map fun (v : Nat × VoltSt) => (v.1, { v.2 with noTrim := v.2.noTrim - 1 }) }

/-! ### Temperatures (R457 to R459) -/

/-- LOCATION of a sensor (R460). -/
def sensorLoc : Sensor → Nat
  | .tile t => t.val
  | .mcRouter m => 0x400 + m.val
  | .portRouter p => 0x440 + p.val
  | .package m => 0x480 + m.val
  | .regulator r => 0x500 + r.val
  | .coolant => 0x600
/-- The actuator a sensor acts on (R457, log entry 32). -/
def sensorAct : Sensor → Actuator
  | .tile _ => .clk
  | .mcRouter _ => .mem
  | .portRouter _ => .link
  | .package _ => .mem
  | .regulator r => if Config.memoryRail r.val then .mem else .clk
  | .coolant => .clk
/-- Warning, throttle, critical and trip limits in eighths of a degree (R457). -/
def sensorLimits : Sensor → Int × Int × Int × Option Int
  | .tile _ | .mcRouter _ | .portRouter _ => (720, 760, 840, some 920)
  | .package _ => (680, 760, 840, none)
  | .regulator _ => (880, 960, 1000, none)
  | .coolant => (440, 480, 520, none)

/-- The setting of the part of the domain that a sensor covers. -/
def State.sensorSetting (s : State) (x : Sensor) : Nat :=
  let a := sensorAct x
  match (Limit.mk a 5 a.domain (sensorLoc x) 0).keys with
  | none => s.setting a
  | some ks => least 16 (ks.map fun k => s.partSetting a k)

/-- R459: the trip. -/
def State.trip (s : State) (loc : Nat) (eighths : Int) : State :=
  let s := (s.log 0x07 0xFFFF 0 (toBytes 2 loc ++ toBytes 2 (BitVec.ofInt 16 eighths).toNat)).pulse 842
  (s.modBoot fun b => { b with power := .tripped }).loseHalves

def execSensorReading (x : Sensor) (eighths : Int) (s : State) : Out :=
  let loc := sensorLoc x
  let l := sensorLimits x
  let s := s.modPwr fun p => { p with sensors := Tab.insert p.sensors loc eighths }
  let s := match x with
    | .tile t => s.modTile t.val fun y => { y with temp := BitVec.ofInt 12 eighths }
    | _ => s
  let warm := decide (l.1 ≤ eighths)
  let hot := decide (l.2.2.1 ≤ eighths)
  let s := s.when (warm && !s.pwr.warned.contains loc) fun s => s.pulse 840
  let s := s.when (hot && !s.pwr.critical.contains loc) fun s => s.pulse 841
  let off := fun (b : Bool) (k : List Nat) => (if b then [loc] else []) ++ k.filter fun n => decide (n ≠ loc)
  let s := s.modPwr fun p => { p with warned := off warm p.warned, critical := off hot p.critical }
  let s := match x with
    | .tile t => s.when (warm && (s.tile t.val).balEn) fun s => s.modTile t.val fun y => { y with balEn := false, balDuty := 0 }
    | _ => s
  let s := s.when hot fun s => s.setLimit (sensorAct x) 6 loc 4
  match l.2.2.2 with
  | some t => if t ≤ eighths ∧ s.boot.power ≠ .tripped then .next (s.trip loc eighths) else .next s
  | none => .next s

def State.sensed (s : State) (x : Sensor) : Int := Tab.get (fun _ => 0) s.pwr.sensors (sensorLoc x)

/-- R458: one setting down while the sensor is above its throttle limit. -/
def execThermalThrottleStep (x : Sensor) (s : State) : Out :=
  if s.sensed x ≤ (sensorLimits x).2.1 then .next s
  else .next (s.setLimit (sensorAct x) 5 (sensorLoc x) (max 4 (s.sensorSetting x - 1)))

/-- R458: one setting up once it has stayed 3 °C below. -/
def execThermalReleaseStep (x : Sensor) (s : State) : Out :=
  if (sensorLimits x).2.1 - 24 < s.sensed x then .next s
  else .next ((s.giveBack (sensorAct x) 5 (sensorLoc x)).giveBack (sensorAct x) 6 (sensorLoc x))

/-- What power state a SERVICE goes with. -/
def servicePower (v : BitVec 2) : PowerSt := if v = 0 then .sequencing else if v = 1 then .early else .full
/-- R459: every sensor has stayed below 85 °C. -/
def execTripCooldown (s : State) : Out :=
  if s.boot.power = .tripped ∧ s.pwr.sensors.all fun e => decide (e.2 < 680) then
    .next ((s.modBoot fun b => { b with power := servicePower b.service }).dueModule false)
  else .next s

end Sys2Proof.Machine
end

