-- ==== Sys2Proof/Machine/Msg.lean ====
section
/-! DEFINITION. Itlum messages (R384 to R396, R401, R402, R617 to R619): the catalogue, checks 1 to 8 of R391, repeats,
parts, responses, the order of handling, long commands. -/

namespace Sys2Proof.Machine

/-- The `n`-byte field at offset `o` of a message. -/
def hdF (m : Bytes) (o n : Nat) : Nat := bytesAt m o n

/-! ### The catalogue (R385, R402) -/

/-- The class of a command (R385). -/
inductive Cls
  | q | w | f | s | u
deriving DecidableEq, Repr

/-- Its parts (R402): one message, a multi-part command, a response in parts. -/
inductive Multi
  | one | parts | response
deriving DecidableEq, Repr

structure OpInfo where
  cls : Cls
  long : Bool := false
  multi : Multi := .one
deriving DecidableEq, Repr

/-- R402. -/
def opInfo (op : Nat) : Option OpInfo :=
  if op = 0x0101 then some { cls := .q }
  else if op = 0x0102 ∨ op = 0x0103 then some { cls := .q, multi := .response }
  else if op = 0x0201 ∨ op = 0x0206 then some { cls := .q }
  else if op = 0x0202 ∨ op = 0x0203 ∨ op = 0x0204 then some { cls := .w }
  else if op = 0x0205 ∨ op = 0x0207 then some { cls := .s }
  else if op = 0x0301 then some { cls := .w, multi := .parts }
  else if op = 0x0302 then some { cls := .w }
  else if op = 0x0303 ∨ op = 0x0304 ∨ op = 0x0305 then some { cls := .s }
  else if op = 0x0306 then some { cls := .s, long := true }
  else if op = 0x0401 then some { cls := .w }
  else if op = 0x0402 ∨ op = 0x0403 then some { cls := .w, long := true }
  else if op = 0x0404 ∨ op = 0x0405 ∨ op = 0x0406 then some { cls := .f }
  else if op = 0x0407 ∨ op = 0x0408 then some { cls := .w }
  else if op = 0x0501 ∨ op = 0x0503 ∨ op = 0x0504 then some { cls := .s }
  else if op = 0x0502 then some { cls := .s, multi := .parts }
  else if op = 0x0505 ∨ op = 0x0508 ∨ op = 0x0509 ∨ op = 0x050A ∨ op = 0x050B then some { cls := .w }
  else if op = 0x0506 ∨ op = 0x0507 then some { cls := .w, long := true }
  else if op = 0x0601 ∨ op = 0x0701 then some { cls := .s }
  else if op = 0x0602 then some { cls := .q, multi := .response }
  else if op = 0x0702 then some { cls := .q }
  else if op = 0x0801 then some { cls := .s, long := true, multi := .parts }
  else if op = 0x0901 then some { cls := .s, long := true }
  else if op = 0x0902 then some { cls := .q }
  else if op = 0x0A01 ∨ op = 0x0A02 ∨ op = 0x0A05 ∨ op = 0x0A07 then some { cls := .u }
  else if op = 0x0A03 ∨ op = 0x0A04 ∨ op = 0x0A06 then some { cls := .u, long := true }
  else if op = 0x0B01 then some { cls := .q, multi := .response }
  else none

/-- Commands that address no composition (R617). -/
def noComposition (op : Nat) (cid : Cid) (payload : Bytes) : Bool :=
  [0x0101, 0x0207, 0x0304, 0x0305, 0x0306, 0x0501, 0x0502, 0x0503, 0x0504, 0x0601, 0x0602, 0x0701, 0x0702, 0x0801,
   0x0A01, 0x0A02, 0x0A03, 0x0A04, 0x0A05, 0x0A06, 0x0A07, 0x0B01].contains op ||
  (decide (op = 0x0901) && decide (hdF payload 0 1 ≠ 1)) ||
  (decide (op = 0x0102 ∨ op = 0x0902) && decide (cid = 0))

/-- Payload length of a SEC subcommand (R509, R525, R618); a DEBUG_OPEN may carry no token. -/
def secLen (p : Bytes) : Nat :=
  let sub := hdF p 0 1
  if sub = 0x01 then 0x28 else if sub = 0x02 then 5
  else if sub = 0x10 ∨ sub = 0x30 ∨ (sub = 0x21 ∧ 8 < p.length) then 4148
  else if sub = 0x31 then 0x38 else 1

/-- An opcode's payload length (R618); log entry 34 gives those whose layout no rule states. -/
def payLen (op : Nat) (p : Bytes) : Nat :=
  if op = 0x0201 then 6
  else if op = 0x0202 ∨ op = 0x0207 then 2
  else if op = 0x0203 then 12
  else if op = 0x0301 then 64 + 32 * hdF p 2 2
  else if op = 0x0304 ∨ op = 0x0305 then 1
  else if op = 0x0306 then 3
  else if op = 0x0401 then 8 + 4 * payF p 4 2 0 10
  else if op = 0x0402 then 3
  else if op = 0x0403 then 9
  else if op = 0x0404 then 0x28
  else if op = 0x0405 then 2
  else if op = 0x0406 then 8
  else if op = 0x0407 then 12
  else if op = 0x0501 then 4
  else if op = 0x0502 then 16
  else if op = 0x0503 then 8
  else if op = 0x0504 then 2
  else if op = 0x0505 then 14
  else if op = 0x0506 then 1
  else if op = 0x0507 then 0x18
  else if op = 0x0508 then 0x28
  else if op = 0x0509 then 2
  else if op = 0x050A then 0x40 + hdF p 0x0C 2
  else if op = 0x050B then 14
  else if op = 0x0601 then 0x18
  else if op = 0x0602 then 4
  else if op = 0x0701 then 7
  else if op = 0x0801 then secLen p
  else if op = 0x0901 then 10
  else if op = 0x0A01 then 4
  else if op = 0x0A02 then 5
  else if op = 0x0B01 then 8
  else 0

/-- A mask of fields, each (byte offset, low bit, bits). -/
def fieldMask (fs : List (Nat × Nat × Nat)) : Nat :=
  fs.foldl (fun m f => Nat.lor m ((2 ^ f.2.2 - 1) * 2 ^ (8 * f.1 + f.2.1))) 0
/-- Whether every bit of a payload outside the fields is zero (R391 step 7, R618). -/
def reservedOk (p : Bytes) (fs : List (Nat × Nat × Nat)) : Bool :=
  decide (Nat.land (leNat p) (fieldMask fs) = leNat p)

/-! ### Requesters (R386, R392, R393) -/

/-- ORIGIN of a path (R384). -/
def originOf : Path → Nat
  | .mailbox _ f => if f.val = 0 then 1 else 0
  | .mctp _ => 2
  | .peer _ => 3
  | .site => 4

def State.requester (s : State) (p : Path) : Requester :=
  (s.itl.reqs.find? fun r => decide (r.path = p)).getD { path := p }
def State.modReq (s : State) (p : Path) (f : Requester → Requester) : State :=
  if s.itl.reqs.any fun r => decide (r.path = p) then
    s.modItl fun i => { i with reqs := i.reqs.map fun r => if r.path = p then f r else r }
  else s.modItl fun i => { i with reqs := i.reqs ++ [f { path := p }] }

/-- Whether a requester keeps its last response (R393). -/
def keeps : Path → Bool
  | .mailbox _ _ | .mctp _ => true
  | _ => false

/-- Whether an MCTP requester is served now (R386): a request, parts, a response in parts or a long command. -/
def Requester.active (r : Requester) : Bool := r.busy.isSome || r.staging || !r.rspRest.isEmpty || r.longOp.isSome
def State.mctpActive (s : State) : List Path := (s.itl.reqs.filter fun r => r.active && match r.path with
  | .mctp _ => true
  | _ => false).map (·.path)

/-- Staged parts and the rest of a response in parts are dropped (R394, R619). -/
def Requester.unstage (r : Requester) : Requester := { r with staging := false, staged := [], nextPart := 0, rspRest := [] }

/-! ### Responses -/

/-- A message reaches its requester (R392, R389). -/
def State.deliverRsp (s : State) (p : Path) (m : Bytes) : State :=
  match p with
  | .mailbox h f =>
    let x := (s.func h.val f.val).mail
    if x.flrWhileBusy then
      s.modFunc h.val f.val fun y => { y with mail := { y.mail with busy := false, flrWhileBusy := false } }
    else
      let s := s.modFunc h.val f.val fun y => { y with mail := { y.mail with
        rsp := m, last := BitVec.ofNat 16 (hdF m 0x0A 2), busy := false, done := true } }
      s.when x.ven fun s => s.msix h.val f.val x.vector.toNat
  | _ => s.emit (.itlum p m)

/-- REF of a response (R390, R617). The LEASE_EPOCH of a record that has ended is the one kept for its CID (R246). -/
def State.refOf (s : State) (op status : Nat) (cid : Cid) (payload : Bytes) : Nat :=
  let lease := (Tab.get (fun _ => (0 : Word)) s.brd.lastEpoch cid.toNat).toNat
  if status = 0x0200 then lease
  else if (opInfo op).isNone || noComposition op cid payload then 0
  else if 0x0201 ≤ op ∧ op ≤ 0x0206 then lease
  else (s.epochOfCid cid).toNat

/-- The bytes of a response (R390). -/
def State.rspBytes (s : State) (p : Path) (op : Nat) (reqId : Word) (cid : Cid) (part status detail block : Nat) (more : Bool)
    (req payload : Bytes) : Bytes :=
  itlMessage (1 + (if more then 4 else 0)) op reqId.toNat status cid.toNat (originOf p) part 0 0 detail s.cad.epoch.toNat
    s.cad.tick.toNat block (s.refOf op status cid req) payload

/-- The response of a request that was executed, in parts (R393, R395, R619): it is kept, and the next request may run. -/
def State.respondParts (s : State) (r : ItlReq) (status detail block : Nat) (parts : List Bytes) : State :=
  let p := r.path
  let op := r.op.toNat
  let m := s.rspBytes p op r.reqId r.cid r.part status detail block (decide (1 < parts.length)) r.payload (parts.headD [])
  let s := s.modReq p fun x => { x with
    busy := none, keptId := if keeps p then some r.reqId else none, kept := if keeps p then m else [],
    rspOp := op, rspCid := r.cid, rspNext := 1, rspRest := parts.drop 1 }
  let s := s.modItl fun i => { i with order := i.order.filter fun q => decide (q ≠ p) }
  s.deliverRsp p m

/-- A payload cut into parts of `n` bytes. -/
def cutParts (n : Nat) (b : Bytes) : List Bytes := (List.range ((b.length + n - 1) / n)).map fun i => (b.drop (i * n)).take n

/-- A response with a payload of any length. -/
def State.respond (s : State) (r : ItlReq) (status detail block : Nat) (payload : Bytes) : State :=
  s.respondParts r status detail block (cutParts 4032 payload)
/-- IT_OK with a payload. -/
def State.answer (s : State) (r : ItlReq) (payload : Bytes) : State := s.respond r 0 0 0 payload
/-- An error status. -/
def State.fail (s : State) (r : ItlReq) (status : Nat) : State := s.respond r status 0 0 []
/-- IT_REFUSED with the command's own code (R406). -/
def State.refuse (s : State) (r : ItlReq) (code index : Nat) : State := s.respond r 0x0201 (code * 2 ^ 24 + index) 0 []
/-- IT_REFUSED by a block commit (R406). -/
def State.refuseBlock (s : State) (r : ItlReq) (code last block : Nat) : State :=
  s.respond r 0x0201 (code * 2 ^ 24 + last * 2 ^ 16 + 0xFFFF) block []

/-- A long command starts (R392); one that addresses no composition is kept under CID 0 (R617). -/
def State.accepted (s : State) (r : ItlReq) (key : Nat) : State :=
  let cid := if noComposition r.op.toNat r.cid r.payload then 0 else r.cid
  let s := s.modReq r.path fun x => { x with longOp := some ⟨r.op.toNat, r.reqId, cid, key⟩ }
  s.respond r 1 0 0 []
/-- Whether a long operation that satisfies `f` is under way on any path (R395). -/
def State.longOn (s : State) (f : LongOp → Bool) : Bool := s.itl.reqs.any fun r => r.longOp.any f

/-! ### Checks 1 to 6 (R391) -/

/-- Step 2: the header's fields. `info` is the opcode's entry, if it has one. -/
def headerBad (m : Bytes) (info : Option OpInfo) : Bool :=
  let flags := hdF m 1 1
  let part := hdF m 0x0F 1
  decide (hdF m 0 1 ≠ 1) || decide (flags % 4 ≠ 0) || decide (16 ≤ flags) || decide (hdF m 0x0A 2 ≠ 0) ||
  decide (hdF m 0x1C 4 ≠ 0) || decide (hdF m 0x20 8 ≠ 0) || decide (hdF m 0x28 8 ≠ 0) ||
  decide (hdF m 0x30 12 ≠ 0) || decide (15 < part) ||
  match info with
  | some i => (decide (part ≠ 0) && decide (i.multi = .one)) || (decide (flags / 4 % 2 = 1) && decide (i.multi ≠ .parts))
  | none => false

/-- Step 1: the CRC over the header with CRC zero and the payload. -/
def crcBad (m : Bytes) : Bool :=
  decide (crc32c (m.take 0x3C ++ toBytes 4 0 ++ (m.drop 0x40).take (hdF m 8 2)) ≠ hdF m 0x3C 4)

/-- Step 5 (R384, R385, R617). -/
def State.originBad (s : State) (p : Path) (op : Nat) (i : OpInfo) (cid : Cid) (payload : Bytes) : Option Nat :=
  let o := originOf p
  let admits := match i.cls with
    | .q | .w => true
    | .f => decide (o = 0 ∨ o = 1)
    | .s => decide (o = 4)
    | .u => decide (o = 1 ∨ o = 2 ∨ o = 4)
  -- SITE_ROOT is accepted from origin 0x2 or a PF mailbox while no SITE slot is valid (R522)
  let first := decide (op = 0x0801 ∧ hdF payload 0 1 = 0x31 ∧ (o = 1 ∨ o = 2)) && s.rot.otp.sites.isEmpty
  if !admits ∧ !first then some 0x0106 else
    match p with
    | .mailbox h f =>
      let x := s.func h.val f.val
      let mine := x.bound && decide (x.cid = cid)
      let free := decide (op = 0x0101 ∨ op = 0x0206)
      if f.val ≠ 0 ∧ !free ∧ (!x.bound ∨ (!mine ∧ !(noComposition op cid payload))) then some 0x0107
      else if i.cls = .f ∧ !mine then some 0x0107
      else none
    | _ => none

/-- Answer a request that failed checks 1 to 6: the kept state stays as it was (R393). -/
def State.reject (s : State) (p : Path) (m : Bytes) (status : Nat) : State :=
  let op := hdF m 2 2
  let cid := BitVec.ofNat 16 (hdF m 0x0C 2)
  s.deliverRsp p (s.rspBytes p op (BitVec.ofNat 32 (hdF m 4 4)) cid (hdF m 0x0F 1) status 0 0 false
    (m.drop 64) [])

/-- A part of a response that was taken at PART 0 (R619). -/
def State.nextRsp (s : State) (p : Path) (op : Nat) (reqId : Word) (cid : Cid) (part : Nat) (payload : Bytes) : State :=
  let r := s.requester p
  match r.rspRest with
  | b :: rest =>
    let m := s.rspBytes p op reqId cid part 0 0 0 (!rest.isEmpty) payload b
    let s := s.modReq p fun x => { x with
      rspNext := x.rspNext + 1, rspRest := rest,
      keptId := if keeps p then some reqId else none, kept := if keeps p then m else [] }
    s.deliverRsp p m
  | [] => s

/-- A request that has passed checks 1 to 6 waits to be run by its command (R395). -/
def State.enqueue (s : State) (p : Path) (m : Bytes) (payload : Bytes) : State :=
  let r : ItlReq := { path := p, op := BitVec.ofNat 16 (hdF m 2 2), reqId := BitVec.ofNat 32 (hdF m 4 4),
                      cid := BitVec.ofNat 16 (hdF m 0x0C 2), part := hdF m 0x0F 1,
                      owner := BitVec.ofNat 64 (hdF m 0x10 8), lease := BitVec.ofNat 32 (hdF m 0x18 4),
                      payload := payload }
  let s := s.modReq p fun x => { x.unstage with busy := some r }
  s.modItl fun i => { i with order := i.order ++ [p] }

/-- IT_PART: a part is staged (R394). -/
def State.stage (s : State) (p : Path) (reqId : Word) (cid : Cid) (op part : Nat) (payload : Bytes) : State :=
  let rsp := s.rspBytes p op reqId cid part 2 0 0 false payload []
  let s := s.modReq p fun x => { x with
    staging := true, staged := (if part = 0 then [] else x.staged) ++ payload, nextPart := part + 1, stageOp := op,
    stageCid := cid, rspRest := [], keptId := if keeps p then some reqId else none, kept := if keeps p then rsp else [] }
  s.deliverRsp p rsp

/-- Step 6 (R393, R394, R619), after which the request is taken. -/
def State.sequence (s : State) (p : Path) (m : Bytes) (i : OpInfo) (payload : Bytes) : State :=
  let r := s.requester p
  let op := hdF m 2 2
  let cid : Cid := BitVec.ofNat 16 (hdF m 0x0C 2)
  let reqId : Word := BitVec.ofNat 32 (hdF m 4 4)
  let part := hdF m 0x0F 1
  let more := hdF m 1 1 / 4 % 2 = 1
  let retry := decide (hdF m 1 1 / 8 % 2 = 1)
  let same := keeps p && decide (r.keptId = some reqId)
  if same ∧ retry then s.deliverRsp p r.kept
  else if same then s.reject p m 0x0105
  else
    -- another opcode or CID drops what was staged
    let other := decide ((r.staging ∧ (r.stageOp ≠ op ∨ r.stageCid ≠ cid)) ∨
      (!r.rspRest.isEmpty ∧ (r.rspOp ≠ op ∨ r.rspCid ≠ cid)))
    let s := if other then s.modReq p Requester.unstage else s
    let r := s.requester p
    match i.multi with
    | .one => s.enqueue p m payload
    | .response =>
      if part = 0 then s.enqueue p m payload
      else if !r.rspRest.isEmpty ∧ r.rspNext = part then s.nextRsp p op reqId cid part payload
      else (s.modReq p Requester.unstage).reject p m 0x0105
    | .parts =>
      let expected := if r.staging then r.nextPart else 0
      if part ≠ expected then (s.modReq p Requester.unstage).reject p m 0x0105
      else if more then s.stage p reqId cid op part payload
      else
        let whole := (if part = 0 then [] else r.staged) ++ payload
        if whole.length < payLen op whole then (s.modReq p Requester.unstage).reject p m 0x0102
        else s.enqueue p m whole

/-- Step 3: the length. Parts that are not the last, and those of a multi-part command, are checked when joined (R618). -/
def lengthBad (m : Bytes) (info : Option OpInfo) : Bool :=
  let len := hdF m 8 2
  let more := hdF m 1 1 / 4 % 2 = 1
  decide (4032 < len) || decide (m.length - 64 < len) ||
  match info with
  | none => false
  | some i =>
    if i.multi = .parts then (decide more && decide (len = 0))
    else decide (len < payLen (hdF m 2 2) ((m.drop 64).take len))

/-- A message arrives on a path (R391): answered where it fails a check, else taken. -/
def State.receive (s : State) (p : Path) (m : Bytes) : State :=
  let op := hdF m 2 2
  let info := opInfo op
  let payload := (m.drop 64).take (hdF m 8 2)
  let cid : Cid := BitVec.ofNat 16 (hdF m 0x0C 2)
  if crcBad m then s.reject p m 0x0101
  else if headerBad m info then s.reject p m 0x0100
  else if lengthBad m info then s.reject p m 0x0102
  else match info with
    | none => s.reject p m 0x0103
    | some i =>
      match s.originBad p op i cid payload with
      | some st => s.reject p m st
      | none => s.sequence p m i payload

/-! ### The paths -/

/-- The request that ITL_REQ holds. -/
def Mailbox.request (x : Mailbox) : Bytes :=
  let get := fun i => Tab.get (fun _ => (0 : Byte)) x.req i
  let len := leNat [get 8, get 9]
  (List.range (64 + min len 4032)).map get

/-- ITL_CTRL.GO (R388, R389, R392). -/
def State.mailGo (s : State) (h : HPortIx) (f : FuncIx) : State :=
  let x := (s.func h.val f.val).mail
  if x.busy ∨ !s.itl.avail then s.modFunc h.val f.val fun y => { y with mail := { y.mail with err := y.mail.err.refuse } }
  else
    let s := s.modFunc h.val f.val fun y => { y with mail := { y.mail with busy := true, done := false } }
    s.receive (.mailbox h f) x.request
/-- ITL_CTRL.DISCARD (R388, R394). -/
def State.mailDiscard (s : State) (h : HPortIx) (f : FuncIx) : State := s.modReq (.mailbox h f) Requester.unstage
/-- ITL_NTF_CONS (R389). -/
def State.mailCons (s : State) (h : HPortIx) (f : FuncIx) (v : Word) : State :=
  s.modFunc h.val f.val fun y =>
    if 64 < (y.mail.prod - v).toNat then { y with mail := { y.mail with err := y.mail.err.refuse } }
    else { y with mail := { y.mail with cons := v } }

def execMailboxGo (h : HPortIx) (f : FuncIx) (s : State) : Out := .next (s.mailGo h f)
def execMailboxDiscard (h : HPortIx) (f : FuncIx) (s : State) : Out := .next (s.mailDiscard h f)
def execItlNtfConsWrite (h : HPortIx) (f : FuncIx) (v : Word) (s : State) : Out := .next (s.mailCons h f v)

/-- Whether a message with an opcode is served on a path: by Itlum while it is available, by the RTP's ROM in the loader
state (R577). -/
def State.serves (s : State) (p : Path) (op : Nat) : Bool :=
  s.itl.avail || (decide (s.boot.power = .loader) && [0x0101, 0x0A01, 0x0A02, 0x0A03, 0x0A04, 0x0A07].contains op && match p with
    | .mctp _ => true
    | _ => false)

/-- A message on a path that is no mailbox (R386, R392, R408): one request outstanding. -/
def State.offMailbox (s : State) (p : Path) (m : Bytes) : State :=
  if !s.serves p (hdF m 2 2) then s.reject p m 0x0203
  else if (s.requester p).busy.isSome then s.reject p m 0x0202
  else s.receive p m

/-- R386: at most four MCTP requesters at once. -/
def execMctpMessage (eid : BitVec 8) (m : Bytes) (s : State) : Out :=
  let others := s.mctpActive.filter fun p => decide (p ≠ .mctp eid)
  if 4 ≤ others.length then .next (s.reject (.mctp eid) m 0x0202) else .next (s.offMailbox (.mctp eid) m)
/-- R384: a peer module's message: a header flit and its bytes leave the port's receive buffer on virtual channel 3. -/
def execPeerMessage (module : LPort × BitVec 14) (m : Bytes) (s : State) : Out :=
  .next ((s.modPort module.1.val fun x => x.drained 3 (1 + (m.length + 63) / 64)).offMailbox (.peer module.2) m)

/-- Twice the heartbeat period (R519), after which a session that sends none ends, in 2^−20 ns. -/
def sessionLife : Nat := 120000000000 * 1048576
/-- The secured sessions that still live. -/
def State.liveSessions (s : State) : List Session := s.rot.sessions.filter fun x => decide (s.boot.refTime < x.lastAt + sessionLife)
/-- A message of the site operator comes within its session (R384, R522). -/
def execSiteSessionMessage (m : Bytes) (s : State) : Out :=
  if s.liveSessions.any fun x => x.finished && x.site then .next (s.offMailbox .site m) else .next s

/-- R394: staged parts are discarded after 1 s without a part. -/
def execPartStagingTimeout (p : Path) (s : State) : Out := .next (s.modReq p Requester.unstage)

/-! ### Running a command (R391 steps 7 and 8, R395) -/

/-- Whether two requests are handled one after the other (R395, R617). -/
def sameLine (a b : ItlReq) : Bool :=
  let x := noComposition a.op.toNat a.cid a.payload
  let y := noComposition b.op.toNat b.cid b.payload
  (x && y) || (!x && !y && decide (a.cid = b.cid))

/-- The request of a path that its command may run now: the earliest of its composition, with the command's opcode, while
Itlum serves and no commit or drain of its own waits. -/
def State.due (s : State) (p : Path) (op : Nat) : Option ItlReq :=
  match (s.requester p).busy with
  | none => none
  | some r =>
    let earlier := (s.itl.order.takeWhile fun q => decide (q ≠ p)).filterMap fun q => (s.requester q).busy
    let held := match s.itl.held with
      | some h => decide (h.path = some p)
      | none => false
    let drains := s.fab.drains.any fun d => decide (d.path = some p)
    if r.op.toNat = op ∧ s.serves p op ∧ !held ∧ !drains ∧ !(earlier.any fun q => sameLine q r) then some r else none

/-- Step 8: the lease (R248). -/
def State.leaseBad (s : State) (r : ItlReq) : Bool :=
  let l := s.lease r.cid
  decide (l.st ≠ .held ∨ l.owner ≠ r.owner ∨ l.epoch ≠ r.lease)

/-- Run a command: step 7 by `ok`, step 8 by its class, the one long command of a requester (R392), then `f`. -/
def State.command (s : State) (p : Path) (op : Nat) (ok : Bytes → Bool) (f : ItlReq → State → State) : State :=
  match s.due p op, opInfo op with
  | some r, some i =>
    -- R480
    if s.rcv.st = .halted ∧ i.cls ≠ .q ∧ op ≠ 0x0901 then s.fail r 0x0203
    else if !ok r.payload then s.fail r 0x0104
    else if (i.cls = .w ∨ i.cls = .f) ∧ s.leaseBad r then s.fail r 0x0200
    else if i.long ∧ (s.requester p).longOp.isSome then s.fail r 0x0202
    else f r s
  | _, _ => s

/-- Whether an accepted commit of some block waits for its boundary (R399). -/
def State.commitWaits (s : State) : Bool :=
  s.compWaits || s.que.sh.acc.isSome || s.cad.sh.acc.isSome || s.pwr.sh.acc.isSome ||
  s.lnk.any fun p => p.2.expect.acc.isSome

/-- As `command`, for one that commits: it waits while Itlum holds another change (R400), and its GO is checked after the
boundary of a commit that waits (R399). -/
def State.commitCommand (s : State) (p : Path) (op : Nat) (ok : Bytes → Bool) (f : ItlReq → State → State) : State :=
  if s.itl.held.isSome ∨ s.commitWaits then s else s.command p op ok f

/-- A change is committed and waits for its boundary; the response follows it (R400). -/
def State.hold (s : State) (r : ItlReq) (c : Change) (block : Nat) : State :=
  s.modItl fun i => { i with held := some { path := some r.path, req := some r, change := c, block := block } }

end Sys2Proof.Machine
end

