-- ==== Sys2Proof/Machine/Lease.lean ====
section
/-! DEFINITION. Commands on leases and queries of class Q: LEASE_ (R246 to R249, R403), METER_RECORD (R254), INVENTORY
(R404), BRIDLE_QUERY (R228, R402), TELEMETRY (R523, log entry 35). -/

namespace Sys2Proof.Machine

/-- Whether compositions are refused in the present life-cycle state (R500, R503). -/
def State.composeOff (s : State) : Bool :=
  decide (s.rot.lcNow = 0 ∨ s.rot.lcNow = 3) || (decide (s.rot.lcNow = 2) && s.rot.testroot) || s.rot.transitioned

/-! ### Leases -/

/-- The response of the lease commands (R403). -/
def State.leaseBytes (s : State) (cid : Cid) : Bytes :=
  let l := s.lease cid
  if l.st = .none then List.replicate 32 0
  else toBytes 8 (leaseCode l.st).toNat ++ toBytes 8 l.owner.toNat ++ toBytes 8 (s.epochAt l.expiry) ++ toBytes 8 (l.expiry % period)

/-- A DURATION at offset 0 (R403). -/
def durationOk (p : Bytes) : Bool := decide (1 ≤ hdF p 0 2 ∧ hdF p 0 2 ≤ 3000)
/-- NTO and NADDR at offset `o` (R403). -/
def State.destOk (s : State) (p : Bytes) (o : Nat) (keep : Bool) : Bool :=
  let nto := payF p o 1 0 2
  let a := hdF p (o + 2) 2
  if nto = 0 then decide (a = 0)
  else if nto = 1 then decide (8 ≤ a ∧ a ≤ 254)
  else if nto = 2 then decide (a ≤ 16383 ∧ a ≠ s.module.toNat)
  else keep && decide (a = 0)
def destOf (p : Bytes) (o : Nat) (old : Dest) : Dest :=
  let nto := payF p o 1 0 2
  let a := hdF p (o + 2) 2
  if nto = 0 then .boundFunction else if nto = 1 then .mctp a else if nto = 2 then .peer a else old

/-- The next LEASE_EPOCH of a CID (R246). -/
def State.nextLease (s : State) (cid : Cid) : Word :=
  let e := Tab.get (fun _ => 0) s.brd.lastEpoch cid.toNat
  if e = BitVec.allOnes 32 then 1 else e + 1

def execLeaseAcquire (path : Path) (s : State) : Out :=
  .next (s.command path 0x0201 (fun p => reservedOk p [(0, 0, 16), (2, 0, 2), (4, 0, 16)] && durationOk p && s.destOk p 2 false)
    fun r s =>
      let l := s.lease r.cid
      if s.composeOff then s.fail r 0x0204
      else if l.st = .held then s.fail r 0x0200
      else if (Tab.find s.brd.leases r.cid.toNat).isNone ∧ 512 ≤ s.brd.leases.length then s.fail r 0x0202
      else
        let d := hdF r.payload 0 2
        let e := s.nextLease r.cid
        let at_ := s.now + d * period
        let s := s.setLease r.cid { l with
          st := .held, owner := r.owner, epoch := e, expiry := at_, duration := d, dest := destOf r.payload 2 .boundFunction }
        s.answer r (s.leaseBytes r.cid))

def execLeaseRenew (path : Path) (s : State) : Out :=
  .next (s.command path 0x0202 (fun p => reservedOk p [(0, 0, 16)] && durationOk p) fun r s =>
    let d := hdF r.payload 0 2
    let at_ := s.now + d * period
    let s := s.setLease r.cid { s.lease r.cid with expiry := at_, duration := d }
    s.answer r (s.leaseBytes r.cid))

def execLeaseTransfer (path : Path) (s : State) : Out :=
  .next (s.command path 0x0203 (fun p => reservedOk p [(0, 0, 64), (8, 0, 2), (10, 0, 16)] && s.destOk p 8 true) fun r s =>
    let l := s.lease r.cid
    let e := s.nextLease r.cid
    let s := s.setLease r.cid { l with
      owner := BitVec.ofNat 64 (hdF r.payload 0 8), epoch := e, dest := destOf r.payload 8 l.dest }
    s.answer r (s.leaseBytes r.cid))

/-- A lease ends: its record too where the composition holds no slot (R246). -/
def State.leaseNone (s : State) (cid : Cid) : State :=
  if (s.slotOf cid).isSome then s.setLease cid { s.lease cid with st := .none }
  else s.modBrd fun b => { b with leases := Tab.erase b.leases cid.toNat }

def execLeaseRelease (path : Path) (s : State) : Out :=
  .next (s.command path 0x0204 (fun p => reservedOk p []) fun r s =>
    let s := if (s.residents r.cid).isEmpty then s.leaseNone r.cid else s.orphan r.cid s.now
    s.answer r (s.leaseBytes r.cid))

/-- BREAK (R247): as expiry, or as the end of grace, at once. -/
def execLeaseBreak (path : Path) (s : State) : Out :=
  .next (s.command path 0x0205 (fun p => reservedOk p []) fun r s =>
    let s := match (s.lease r.cid).st with
      | .held => s.orphan r.cid s.now
      | .orphaned => s.graceEnds r.cid
      | .none => s
    s.answer r (s.leaseBytes r.cid))

def execLeaseQuery (path : Path) (s : State) : Out :=
  .next (s.command path 0x0206 (fun p => reservedOk p []) fun r s => s.answer r (s.leaseBytes r.cid))

/-- GRACE (R246): a running grace period that has reached the new value ends. -/
def execLeaseGrace (path : Path) (s : State) : Out :=
  .next (s.command path 0x0207 (fun p => reservedOk p [(0, 0, 10)] && decide (1 ≤ payF p 0 2 0 10 ∧ payF p 0 2 0 10 ≤ 1000))
    fun r s =>
      let g := payF r.payload 0 2 0 10
      let s := s.modBrd fun b => { b with grace := BitVec.ofNat 10 g }
      let at0 := s.now
      let over_ := s.brd.leases.filter fun e => decide (e.2.st = .orphaned ∧ e.2.orphanedAt + g * period ≤ at0)
      let s := s.each over_ fun s e => s.graceEnds (BitVec.ofNat 16 e.1)
      s.answer r [])

/-- R254, R517: a signed record; a composition without a slot has none (log entry 37). -/
def execMeterRecord (path : Path) (s : State) : Out :=
  .next (s.command path 0x0302 (fun p => reservedOk p []) fun r s =>
    match s.slotOf r.cid with
    | none => s.fail r 0x0107
    | some slot =>
      match s.takeMeter slot 0 with
      | none => s.fail r 0x0203
      | some m => m.2.answer r m.1)

/-! ### INVENTORY (R404) -/

/-- The part number in ASCII. -/
def partName (p : Part) : Bytes :=
  let text := match p with
    | .l1536 => "SKV-A1-1536-L"
    | .l0768 => "SKV-A1-0768-L"
  padTo 16 (text.toList.map fun c => BitVec.ofNat 8 c.toNat)

/-- The skipped tiles of a row, by physical column. -/
def State.skips (s : State) (row : Nat) : List Nat := (List.range 17).filter fun c => decide ((s.tile (row * 17 + c)).role ≠ .grid)

/-- Firmware versions: of the bank in use and of the confirmed bank. -/
def State.fwBank (s : State) (b : Bool) : FwImage := Tab.get (fun _ => {}) s.itl.banks (if b then 1 else 0)

/-- SERVICE (R404). -/
def State.serviceCode (s : State) : Nat :=
  if s.boot.service = 1 then 1 + (if s.boot.earlyHalf then 4 else 0) else s.boot.service.toNat

def State.inventory (s : State) : Bytes :=
  let rows := List.range 32
  let spares := (List.range 192).filter fun p => (s.pair p).siteSpare
  let retired := (List.range 192).filter fun p => decide ((s.pair p).st = .retired)
  let mask := fun (l : List Nat) => (l.map fun p => 2 ^ p).sum
  let irregular := rows.filter fun r => let k := s.skips r; k.any fun c => k.contains (c + 1)
  let bindable := (rows.map fun r => 17 - (s.skips r).length).sum
  let big := s.big
  let net := (if big then 15 * (192 - spares.length) / 2 else 15 * (192 - spares.length) / 4)
  partName s.boot.part ++ toBytes 8 s.rot.otp.serial.toNat ++ toBytes 4 Config.vendorPen.toNat ++
  toBytes 4 (s.module.toNat + (if s.fab.sh.act.id.valid then 2 ^ 15 else 0)) ++
  toBytes 4 (if big then 1536 else 768) ++ toBytes 4 net ++ toBytes 2 bindable ++ toBytes 2 (512 - bindable) ++
  toBytes 4 (mask irregular) ++
  toBytes 32 ((rows.map fun r => ((s.skips r).head?.getD 0x1F) * 2 ^ (5 * r)).sum) ++
  toBytes 24 (mask spares) ++ toBytes 24 (mask retired) ++ toBytes 4 (s.fwBank s.itl.fwUse).version.toNat ++
  toBytes 4 (s.fwBank s.itl.fwConfirmed).version.toNat ++ toBytes 4 s.rot.rtpVersion.toNat ++
  toBytes 2 s.rot.lcNow.toNat ++ toBytes 2 s.serviceCode

def execInventory (path : Path) (s : State) : Out :=
  .next (s.command path 0x0101 (fun p => reservedOk p []) fun r s => s.answer r s.inventory)

/-! ### BRIDLE_QUERY (R228, R402) -/

/-- An image entry's 32 bytes (R228). -/
def entryBytes : ImgEntry → Bytes
  | .tiles g b q m => toBytes 1 1 ++ toBytes 1 (g + b.toNat * 4) ++ toBytes 2 q ++ toBytes 12 0 ++ toBytes 16 m.toNat
  | .sram t b n c sc =>
    toBytes 2 2 ++ toBytes 2 t ++ toBytes 2 b ++ toBytes 2 n ++ toBytes 2 (c.toNat + if sc then 4096 else 0) ++ toBytes 22 0
  | .pairs o l b q m => toBytes 1 3 ++ toBytes 1 o ++ toBytes 2 l ++ toBytes 2 b ++ toBytes 2 q ++ toBytes 24 m.toNat
  | .port p t q => toBytes 1 4 ++ toBytes 1 p ++ toBytes 2 t ++ toBytes 2 q ++ toBytes 26 0
  | .host p f => toBytes 1 5 ++ toBytes 1 p ++ toBytes 2 f ++ toBytes 28 0
  | .windows n => toBytes 2 6 ++ toBytes 2 n ++ toBytes 28 0
  | .unitScope u n c => toBytes 2 7 ++ toBytes 2 u ++ toBytes 2 n ++ toBytes 2 c.toNat ++ toBytes 24 0

/-- The image in force, with the lease holder's identity (R402). -/
def State.imageBytes (s : State) (cid : Cid) : Bytes :=
  let i := s.image cid
  let l := s.lease cid
  let held := decide (l.st ≠ .none)
  let head := toBytes 2 cid.toNat ++ toBytes 2 i.entries.length ++ toBytes 4 (s.epochOfCid cid).toNat ++
    toBytes 8 (if held then l.owner.toNat else 0) ++ toBytes 4 (if held then l.epoch.toNat else 0) ++
    toBytes 4 i.tenant.toNat ++ toBytes 8 i.gprio.toNat ++
    toBytes 8 (i.ctab.toNat * 2 ^ 16 + if i.ctabV then 2 ^ 63 else 0) ++ toBytes 24 0
  head ++ i.entries.flatMap entryBytes

def execBridleQuery (path : Path) (s : State) : Out :=
  .next (s.command path 0x0103 (fun p => reservedOk p []) fun r s => s.answer r (s.imageBytes r.cid))

/-! ### TELEMETRY (R33, R402, R523) -/

/-- The counters of a composition: R252, SEQ_DLMISS, MIGRATIONS, UNAVAIL_TICKS, LOST_MODULE. -/
def State.slotCounts (s : State) (slot : Nat) : List Nat :=
  let m := s.meter slot
  [m.bound.toNat, m.tiles.toNat, m.units.toNat, m.ballast.toNat, (Tab.get (fun _ => (0 : Word)) s.sched.dlmiss slot).toNat,
   (Tab.get (fun _ => (0 : DWord)) s.xlt.migCnt slot).toNat, (Tab.get (fun _ => (0 : DWord)) s.rcv.unavail slot).toNat,
   (Tab.get (fun _ => (0 : DWord)) s.rcv.lostModule slot).toNat]

/-- Counts that a rule sends to telemetry. -/
def State.moduleCounts (s : State) : List Nat :=
  [s.mesh.unknownTypes, s.mesh.discardedBeats, s.mesh.repeatedArrivals, s.mesh.discardedResponses, s.lp.trimNan, s.lp.trimClamp,
   s.xlt.late, s.hst.late, s.itl.telDropped].map (·.toNat) ++
  [s.boot.mrstShorts, s.boot.smbusTimeouts, s.boot.tetherReversals, s.itl.internal].map (·.toNat) ++
  [(s.lnk.map fun p => p.2.unknownMsg).sum, (s.mesh.refused.map fun e => e.2.toNat).sum] ++
  (List.range 10).map fun i => (Tab.get (fun _ => (0 : DWord)) s.rcv.bgDeadlines i).toNat

/-- Figures of one tile: temperature, ballast, RUN and LENT of each bank, SRAM error counters. -/
def State.tileCounts (s : State) (t : Nat) : List Nat :=
  let x := s.tile t
  [x.temp.toNat, x.balSteps.toNat] ++ [0, 1, 2, 3].flatMap (fun b => [(x.bank b).run.toNat, (x.bank b).lent.toNat]) ++
  [x.srm.ce.toNat + x.srm.ueCount.toNat * 2 ^ 32 + x.srm.icvFail.toNat * 2 ^ 48]

/-- Error counters of one pair and of one port. -/
def State.pairCounts (s : State) (p : Nat) : Nat :=
  let x := s.pair p
  x.ue.toNat + x.rebuilt.toNat * 2 ^ 16 + x.linkRetry.toNat * 2 ^ 32 + x.odecc.toNat * 2 ^ 48
def State.portCounts (s : State) (p : Nat) : List Nat :=
  let x := s.port p
  [x.cntCorr, x.cntUncorr, x.cntReplay, x.cntRetrain, x.cntLost].map (·.toNat)

def words8 (l : List Nat) : Bytes := l.flatMap (toBytes 8)

/-- The whole response: a tenant sees its composition and the power of the last 100 ms (R523). -/
def State.telemetry (s : State) (tenant : Bool) (cid : Cid) : Bytes :=
  let none_ := List.replicate 8 0
  if tenant then
    let own := match s.slotOf cid with
      | some k => Tab.get (fun _ => none_) s.itl.tenant k
      | none => none_
    words8 own ++ words8 (padNats 6 s.itl.tenantPower)
  else
    let own := match s.slotOf cid with
      | some k => s.slotCounts k
      | none => none_
    words8 own ++ words8 (padNats 6 s.pwr.snap) ++ words8 s.moduleCounts ++ words8 (allTiles.flatMap s.tileCounts) ++
    words8 ((List.range 192).map s.pairCounts) ++ words8 ((List.range 48).flatMap s.portCounts)
where
  /-- A list cut or filled with zeros. -/
  padNats (n : Nat) (l : List Nat) : List Nat := (l ++ List.replicate n 0).take n

def execTelemetry (path : Path) (s : State) : Out :=
  .next (s.command path 0x0102 (fun p => reservedOk p []) fun r s =>
    s.answer r (s.telemetry (decide (originOf r.path = 0)) r.cid))

end Sys2Proof.Machine
end

