-- ==== Sys2Proof/Machine/Bridle.lean ====
section
/-! DEFINITION. BRIDLE_IMAGE and UNBIND (R224 to R234, R244, R291, R307): the image and its entries, the refusals of R229,
the pending values of a change and what its commit brings. -/

namespace Sys2Proof.Machine

/-! ### Entries (R228) -/

/-- An entry of 32 bytes; none where it is malformed. -/
def decodeEntry (b : Bytes) : Option ImgEntry :=
  let kind := hdF b 0 1
  if kind = 1 then
    let banks := payF b 1 1 2 4
    if reservedOk b [(0, 0, 8), (1, 0, 6), (2, 0, 16), (16, 0, 128)] ∧ banks ≠ 0 then
      some (.tiles (payF b 1 1 0 2) (BitVec.ofNat 4 banks) (hdF b 2 2) (BitVec.ofNat 128 (hdF b 16 16)))
    else none
  else if kind = 2 then
    let g := payF b 4 2 0 9
    let n := payF b 6 2 0 9
    if reservedOk b [(0, 0, 8), (2, 0, 9), (4, 0, 9), (6, 0, 9), (8, 0, 13)] ∧ 1 ≤ n ∧ g + n ≤ 384 then
      some (.sram (payF b 2 2 0 9) g n (BitVec.ofNat 12 (payF b 8 2 0 12)) (decide (payF b 8 2 12 1 = 1)))
    else none
  else if kind = 3 then
    if reservedOk b [(0, 0, 8), (1, 0, 5), (2, 0, 5), (4, 0, 16), (6, 0, 16), (8, 0, 192)] then
      some (.pairs (payF b 1 1 0 5) (payF b 2 1 0 5) (hdF b 4 2) (hdF b 6 2) (BitVec.ofNat 192 (hdF b 8 24)))
    else none
  else if kind = 4 then
    if reservedOk b [(0, 0, 8), (1, 0, 6), (2, 0, 16), (4, 0, 16)] ∧ payF b 1 1 0 6 < 48 then
      some (.port (payF b 1 1 0 6) (hdF b 2 2) (hdF b 4 2))
    else none
  else if kind = 5 then
    if reservedOk b [(0, 0, 8), (1, 0, 1), (2, 0, 9)] ∧ payF b 2 2 0 9 ≤ 256 then
      some (.host (payF b 1 1 0 1) (payF b 2 2 0 9))
    else none
  else if kind = 6 then
    if reservedOk b [(0, 0, 8), (2, 0, 16)] ∧ hdF b 2 2 ≤ 256 then some (.windows (hdF b 2 2)) else none
  else if kind = 7 then
    if reservedOk b [(0, 0, 8), (2, 0, 13), (4, 0, 13), (6, 0, 12)] ∧ 1 ≤ payF b 4 2 0 13 then
      some (.unitScope (payF b 2 2 0 13) (payF b 4 2 0 13) (BitVec.ofNat 12 (payF b 6 2 0 12)))
    else none
  else none

/-- The banks an entry binds: logical tile and bank. -/
def entryBanks : ImgEntry → List (Nat × Nat)
  | .tiles g b _ m => (maskBits m).flatMap fun j => (maskBits b).map fun k => (128 * g + j, k)
  | _ => []
/-- The granules an entry binds: logical tile and granule. -/
def entryGrans : ImgEntry → List (Nat × Nat)
  | .sram t b n _ _ => (List.range n).map fun i => (t, b + i)
  | _ => []
/-- The 256 MiB units an entry covers (R167, R213). -/
def entryUnits : ImgEntry → List Nat
  | .pairs _ l b _ m => (List.range ((maskBits m).length * l)).map (· + 4 * b)
  | _ => []
def entryPorts : ImgEntry → List Nat
  | .port p _ _ => [p]
  | _ => []
def entryFuncs : ImgEntry → List (Nat × Nat)
  | .host p f => [(p, f)]
  | _ => []
def entryTiles : ImgEntry → List Nat
  | .tiles g _ _ m => (maskBits m).map (· + 128 * g)
  | .sram t _ _ _ _ => [t]
  | _ => []
def Image.banks (i : Image) : List (Nat × Nat) := i.entries.flatMap entryBanks
def Image.grans (i : Image) : List (Nat × Nat) := i.entries.flatMap entryGrans
def Image.units (i : Image) : List Nat := i.entries.flatMap entryUnits
def Image.ports (i : Image) : List Nat := i.entries.flatMap entryPorts
def Image.funcs (i : Image) : List (Nat × Nat) := i.entries.flatMap entryFuncs
def Image.ltiles (i : Image) : List Nat := (i.entries.flatMap entryTiles).eraseDups

/-- Whether an entry repeats what an earlier one names (R228). -/
def clashes (a b : ImgEntry) : Bool :=
  match a, b with
  | .tiles g _ _ m, .tiles h _ _ n => decide (g = h ∧ m &&& n ≠ 0)
  | .sram t b n _ _, .sram u c k _ _ => decide (t = u ∧ b < c + k ∧ c < b + n)
  | .port p _ _, .port q _ _ => decide (p = q)
  | .host _ _, .host _ _ => true
  | .windows _, .windows _ => true
  | .unitScope u n _, .unitScope v k _ => decide (u < v + k ∧ v < u + n)
  | x, y => decide (x = y)

/-! ### The image (R228) -/

/-- The header's fields beyond the entries. -/
def headImage (p : Bytes) (entries : List ImgEntry) : Image where
  tenant := BitVec.ofNat 32 (hdF p 0x14 4)
  gprio := BitVec.ofNat 3 (payF p 0x18 1 0 3)
  ctabV := decide (payF p 0x20 8 63 1 = 1)
  ctab := BitVec.ofNat 30 (payF p 0x20 8 16 30)
  entries := entries

/-- A decoded image, or the index of what is malformed (R228, R229 code 0x03). -/
def decodeImage (p : Bytes) (cid : Cid) : Except Nat Image :=
  let n := hdF p 2 2
  let raw := (List.range n).map fun i => decodeEntry ((p.drop (64 + 32 * i)).take 32)
  let head := (p.take 64)
  let okHead := reservedOk head
    [(0, 0, 16), (2, 0, 16), (4, 0, 32), (8, 0, 64), (16, 0, 32), (20, 0, 32), (24, 0, 3), (32, 16, 30), (32, 63, 1)]
  let img := headImage p (raw.filterMap id)
  if !okHead ∨ 1024 < n ∨ hdF p 0 2 ≠ cid.toNat ∨ (!img.ctabV ∧ img.ctab ≠ 0) then .error 0xFFFF
  else
    match (List.range n).find? fun i => (raw.getD i none).isNone with
    | some i => .error i
    | none =>
      let es := img.entries
      let units := img.units
      let dup := fun i => (List.range i).any fun j => clashes (es.getD i (.windows 0)) (es.getD j (.windows 1))
      let bare := fun i => match es.getD i (.windows 0) with
        | .unitScope u k _ => (List.range k).any fun x => !units.contains (u + x)
        | _ => false
      match (List.range n).find? fun i => dup i || bare i with
      | some i => .error i
      | none => .ok img

/-! ### What a change takes away -/

/-- The window run of a slot: base and count (R291). -/
def State.winRun (s : State) (slot : Nat) : Nat × Nat :=
  let w := s.fab.sh.act.wb slot
  (w.2.toNat, w.1.toNat)

/-- The resources that go from image `o` to image `n`, by physical part (R232). -/
def State.removed (s : State) (slot : Option Nat) (o n : Image) : List Resource :=
  let nb := n.banks
  let ng := n.grans
  let nu := n.units
  let banks := (o.banks.filter fun x => !nb.contains x).filterMap fun x => (s.physTile x.1).map fun t => Resource.bank t x.2
  let grans := (o.grans.filter fun x => !ng.contains x).filterMap fun x => (s.physTile x.1).map fun t => Resource.granule t x.2
  let units := (o.units.filter fun u => !nu.contains u).map Resource.unit
  let ports := (o.ports.filter fun p => !n.ports.contains p).map Resource.port
  let funcs := (o.funcs.filter fun f => !n.funcs.contains f).map fun f => Resource.func f.1 f.2
  let wins := match slot with
    | some k =>
      let r := s.winRun k
      if n.nwin < r.2 then (List.range (r.2 - n.nwin)).map fun i => Resource.window (r.1 + n.nwin + i) else []
    | none => []
  banks ++ grans ++ units ++ ports ++ funcs ++ wins

/-- The present owners of the granules and units of a list (R234). -/
def State.oldOwners (s : State) (rs : List Resource) : List (Resource × Owner) :=
  rs.filterMap fun r => match r with
    | .granule t g => some (r, s.gran t g)
    | .unit u => some (r, s.unitOwner u)
    | _ => none

/-! ### The refusals of R229 -/

/-- The first entry, by index, that satisfies a test. -/
def firstEntry (es : List ImgEntry) (f : ImgEntry → Bool) : Option Nat :=
  (List.range es.length).find? fun i => f (es.getD i (.windows 0))

/-- 0x04: bound to another composition. -/
def State.takenBy (s : State) (cid : Cid) (e : ImgEntry) : Bool :=
  s.boundCids.any fun x => decide (x.2 ≠ cid) && (s.image x.2).entries.any fun y =>
    match e, y with
    | .tiles g b _ m, .tiles h c _ n => decide (g = h ∧ b &&& c ≠ 0 ∧ m &&& n ≠ 0)
    | .sram t b n _ _, .sram u c k _ _ => decide (t = u ∧ b < c + k ∧ c < b + n)
    | .pairs _ _ _ _ _, .pairs _ _ _ _ _ => (entryUnits e).any fun u => (entryUnits y).contains u
    | .host p f, .host q g => decide (p = q ∧ f = g)
    | _, _ => false

/-- 0x05: still draining or clearing. -/
def State.busyEntry (s : State) (e : ImgEntry) : Bool :=
  !s.brd.res.isEmpty && (
    (entryBanks e).any (fun x => (s.physTile x.1).any fun t => s.notFree (.bank t x.2)) ||
    (entryGrans e).any (fun x => (s.physTile x.1).any fun t => s.notFree (.granule t x.2)) ||
    (entryUnits e).any (fun u => s.notFree (.unit u)) || (entryPorts e).any (fun p => s.notFree (.port p)) ||
    (entryFuncs e).any fun f => s.notFree (.func f.1 f.2))

/-- Whether a port is up (R282). -/
def State.portReady (s : State) (p : Nat) : Bool := decide ((s.port p).st = .active ∨ (s.port p).st = .retraining)

/-- The half that serves in early service (R583). -/
def State.servingHalf (s : State) : Nat := if s.boot.earlyHalf then 1 else 0
/-- The boot pairs of a half (R583). -/
def bootPairs (h : Nat) : List Nat := (List.range 4).map (· + 96 * h)

/-- What early service does not serve (R584). -/
def State.notEarly (s : State) (e : ImgEntry) : Bool :=
  match e with
  | .tiles _ _ _ _ | .sram _ _ _ _ _ => (entryTiles e).any fun l => (s.physTile l).any fun t => decide (t / 272 ≠ s.servingHalf)
  | .pairs _ _ _ _ m => (maskBits m).any fun l => !(bootPairs s.servingHalf).contains (s.phys l)
  | .port _ _ _ => true
  | .windows n => decide (n ≠ 0)
  | _ => false

/-- 0x06: absent, or not served in early service. -/
def State.absent (s : State) (e : ImgEntry) : Bool :=
  (s.early && s.notEarly e) || match e with
  | .tiles _ _ _ _ | .sram _ _ _ _ _ => (entryTiles e).any fun l => (s.physTile l).isNone
  | .pairs _ _ _ _ m => (maskBits m).any fun l => decide ((s.pair (s.phys l)).st = .retired)
  | .port p _ _ => !s.portReady p
  | .host p f => (decide (f ≠ 0) && !(s.func p f).enabled) || decide ((s.hport p).st = .down) || (s.hport p).weak
  | _ => false

/-- A resource not yet trained (R579). -/
def State.untrained (s : State) (e : ImgEntry) : Bool :=
  match e with
  | .tiles _ _ _ _ | .sram _ _ _ _ _ => decide (s.boot.service = 0)
  | .pairs _ _ _ _ m => !s.early && (maskBits m).any fun l =>
      let st := (s.pair (s.phys l)).st
      decide (st = .untrained ∨ st = .training)
  | _ => false

/-- The guarantee resources that an entry names. -/
def entryGuars : ImgEntry → List GuarRes
  | .tiles g _ _ m => (maskBits m).map fun j => .tile (128 * g + j)
  | .pairs _ _ _ _ m => (maskBits m).map .pair
  | .port p _ _ => [.port p false, .port p true]
  | _ => []

/-- 0x07: a guarantee that is raised or added breaches the figure, or the resource runs degraded (R244). -/
def State.breaches (s : State) (cid : Cid) (o n : Image) (r : GuarRes) : Bool :=
  let mine := n.admitted r
  if mine ≤ o.admitted r then false else
    let others := ((s.boundCids.filter fun x => decide (x.2 ≠ cid)).map fun x => (s.image x.2).admitted r).sum
    decide (s.capacity r < others + mine) || s.brd.current.any fun e => decide (e.2.1 = r)

/-- 0x0D: a unit held before and after decodes to other lines. -/
def remapped (o : Image) (e : ImgEntry) : Bool :=
  match e with
  | .pairs off _ b _ m => o.entries.any fun x => match x with
    | .pairs off' _ b' _ m' => !(decide (off = off' ∧ b = b' ∧ m = m')) && (entryUnits x).any fun u => (entryUnits e).contains u
    | _ => false
  | _ => false

/-- Whether Itlum holds a change of its own for a composition at its boundary (R237). -/
def State.itlumHolds (s : State) (cid : Cid) : Bool :=
  match s.itl.held with
  | some h => match h.change with
    | .pairSwitch _ _ _ cids | .rebuilt _ _ cids | .rowShift _ _ _ cids => cids.contains cid
    | _ => false
  | none => false

/-- 0x0B: a change of this composition is still open, or Itlum has prepared one (R237). -/
def State.changeOpen (s : State) (cid : Cid) (slot : Option Nat) : Bool :=
  (match slot with
    | some k => (s.fence k).isOpen
    | none => false) || s.rcv.shifts.any (fun x => x.cids.contains cid) || s.itlumHolds cid ||
  s.rcv.holes.any (fun x => decide (x.2 = cid)) || s.rcv.expired.contains cid

/-- As `commitCommand`, for an image: one for a composition whose change Itlum holds does not wait for its boundary, it is
refused (R237). -/
def State.imageCommand (s : State) (p : Path) (op : Nat) (ok : Bytes → Bool) (f : ItlReq → State → State) : State :=
  match s.due p op with
  | some r => if s.itlumHolds r.cid then s.command p op ok f else s.commitCommand p op ok f
  | none => s

/-- 0x0A: what the change unbinds is in use. -/
def State.inUse (s : State) (cid : Cid) (o n : Image) (gone : List Resource) : Bool :=
  (o.ctabV && gone.contains (.unit (o.ctab.toNat * 65536 / 2 ^ 28))) ||
  (!n.ctabV && !(s.residents cid).isEmpty) ||
  gone.any fun r => match r with
    | .bank t b => decide ((s.bank t b).st ≠ .empty)
    | .window w => (s.win w).valid
    | _ => false

/-! ### Pending values (R230) -/

/-- A regulator entry of a slot takes a guarantee in [lo, lo + n): none where no entry is free. -/
def setReg (rs : Tab RegSh) (lo n slot : Nat) (dir : Bool) (g : Nat) : Option (Tab RegSh) :=
  let mine := rs.find? fun e => decide (lo ≤ e.1 ∧ e.1 < lo + n) && e.2.valid && decide (e.2.slot.toNat = slot ∧ e.2.dir = dir)
  let e : RegSh := ⟨true, BitVec.ofNat 9 slot, dir, BitVec.ofNat 16 g⟩
  match mine with
  | some x => some (if g = 0 then Tab.erase rs x.1 else Tab.insert rs x.1 e)
  | none =>
    if g = 0 then some rs else
      match (List.range n).find? fun i => !(Tab.get (fun _ => ({} : RegSh)) rs (lo + i)).valid with
      | some i => some (Tab.insert rs (lo + i) e)
      | none => none

/-- The group of a PAIRS entry among those in force (R167): the one with its decode. -/
def groupLike (t : Tab Igrp) (o b : Nat) (m : BitVec 192) : Option Nat :=
  (t.find? fun e => e.2.valid && decide (e.2.baseGb.toNat = b ∧ e.2.off.toNat = o ∧ e.2.mask = m)).map (·.1)

/-- The groups for the entries of an image, each its own: none where no group is free. `kept` names the groups whose old
decode a clear still needs, `taken` those that earlier entries of the image use. -/
def assignGroups (t : Tab Igrp) (kept taken : List Nat) : List ImgEntry → Option (Tab Igrp)
  | [] => some t
  | .pairs o l b _ m :: es =>
    let e : Igrp := { valid := true, baseGb := BitVec.ofNat 16 b, n := BitVec.ofNat 8 (maskBits m).length,
                      len := BitVec.ofNat 5 l, off := BitVec.ofNat 5 o, mask := m }
    match groupLike (t.filter fun e => !taken.contains e.1) o b m with
    | some i =>
      let old := (Tab.get (fun _ => ({} : Igrp)) t i).len
      assignGroups (Tab.insert t i (if kept.contains i ∧ e.len < old then { e with len := old } else e)) kept (i :: taken) es
    | none =>
      match (List.range 64).find? fun i => !(Tab.get (fun _ => ({} : Igrp)) t i).valid with
      | some i => assignGroups (Tab.insert t i e) kept (i :: taken) es
      | none => none
  | _ :: es => assignGroups t kept taken es

/-- The groups that an image's entries decode through now. -/
def State.groupsOf (s : State) (i : Image) : List (Nat × ImgEntry) :=
  i.entries.filterMap fun e => match e with
    | .pairs o _ b _ m => (groupLike s.lp.sh.pend.igrp o b m).map fun k => (k, e)
    | _ => none

/-- The old groups that the clears of a change need, with the units of each (R251). -/
def State.keepsFor (s : State) (o : Image) (gone : List Resource) : List (Nat × List Nat) :=
  ((s.groupsOf o).map fun g => (g.1, (entryUnits g.2).filter fun u => gone.contains (.unit u))).filter fun g => !g.2.isEmpty

/-- MEM_IGRP after the change; none where all 64 groups are in use. -/
def State.newGroups (s : State) (o n : Image) (gone : List Resource) : Option (Tab Igrp) :=
  let kept := (s.keepsFor o gone).map (·.1) ++ s.brd.keptGroups.map (·.1)
  let mine := (s.groupsOf o).map (·.1)
  let still := n.entries.filterMap fun e => match e with
    | .pairs off _ b _ m => groupLike s.lp.sh.pend.igrp off b m
    | _ => none
  let t := s.lp.sh.pend.igrp.filter fun e => !(mine.contains e.1 && !still.contains e.1 && !kept.contains e.1)
  assignGroups t kept [] n.entries

/-- MEM_REG after the change (R244, R432): a pair's sum, in the lowest group of the composition that names it. -/
def State.newMemRegs (s : State) (slot : Nat) (groups : Tab Igrp) (n : Image) : Tab RegSh :=
  let rest := s.lp.sh.pend.regs.filter fun e => !(e.2.valid && decide (e.2.slot.toNat = slot))
  let pairs := (n.entries.flatMap fun e => match e with
    | .pairs _ _ _ _ m => maskBits m
    | _ => []).eraseDups
  pairs.foldl (fun t l =>
    let g := n.admitted (.pair l)
    let ks := n.entries.filterMap fun e => match e with
      | .pairs o _ b _ m => if m.getLsbD l then groupLike groups o b m else none
      | _ => none
    match ks with
    | [] => t
    | k :: rest =>
      if g = 0 then t else
        Tab.insert t (s.phys l * 64 + least k rest) ⟨true, BitVec.ofNat 9 slot, false, BitVec.ofNat 16 g⟩) rest

/-- FAB_REG after the change: none where a port would need a 33rd entry; a removed port's shares stay until the fence has
closed (R251). -/
def State.newFabRegs (s : State) (slot : Nat) (n : Image) : Option (Tab RegSh) :=
  n.ports.foldl (fun t p => t.bind fun t =>
    (setReg t (p * 32) 32 slot false (n.admitted (.port p false))).bind fun t =>
      setReg t (p * 32) 32 slot true (n.admitted (.port p true))) (some s.fab.sh.pend.regs)

/-- The ports whose regulators cannot hold the image's guarantees. -/
def State.portFull (s : State) (slot : Nat) (n : Image) (e : ImgEntry) : Bool :=
  match e with
  | .port p _ _ =>
    ((setReg s.fab.sh.pend.regs (p * 32) 32 slot false (n.admitted (.port p false))).bind fun t =>
      setReg t (p * 32) 32 slot true (n.admitted (.port p true))).isNone
  | _ => false

/-- The lowest free window run of `n` entries for a slot (R291), its own run first where it can grow there. -/
def State.findRun (s : State) (slot n : Nat) : Option Nat :=
  let own := s.winRun slot
  let used := (s.fab.sh.pend.wbase.filter fun e => decide (e.1 ≠ slot ∧ 0 < e.2.1.toNat)).map fun e => (e.2.2.toNat, e.2.1.toNat)
  let draining := s.brd.res.filterMap fun e => match e.1 with
    | .window w => some (w, 1)
    | _ => none
  let all := used ++ draining
  let free := fun b => decide (b + n ≤ 16384) && !(all.any fun u => decide (b < u.1 + u.2 ∧ u.1 < b + n))
  if n = 0 then some 0
  else if own.2 ≠ 0 ∧ free own.1 then some own.1
  else (((0 :: all.map fun u => u.1 + u.2).filter free).foldl (fun (b : Option Nat) x => match b with
    | none => some x
    | some y => some (min x y)) none)

/-- FAB_POOL.LIMIT of an image (R307). -/
def Image.pool (n : Image) : Nat :=
  let g := (n.ports.map fun p => n.admitted (.port p false)).sum
  64 + (200 * g + 63) / 64

/-- XLT_OWN of a unit under an image (R213, R228). -/
def Image.unitOwner (n : Image) (cid : Cid) (u : Nat) : Owner :=
  match n.entries.findSome? fun e => match e with
    | .unitScope v k c => if v ≤ u ∧ u < v + k then some c else none
    | _ => none with
  | some c => ⟨true, false, c, cid⟩
  | none => ⟨true, true, 0, cid⟩

/-- A tile's granules and its regulator entry under an image (R163, R433). -/
def Tile.bindImage (x : Tile) (l slot : Nat) (cid : Cid) (n : Image) : Tile :=
  let rest := x.srm.sh.pend.gran.filter fun e => !(e.2.valid && decide (e.2.cid = cid))
  let gran := n.entries.foldl (fun t e => match e with
    | .sram u b k c sc => if u = l then (List.range k).foldl (fun t i => Tab.insert t (b + i) ⟨true, sc, c, cid⟩) t else t
    | _ => t) rest
  let regs := (setReg x.nbr.pend.regs 0 4 slot false (n.admitted (.tile l))).getD x.nbr.pend.regs
  { x with srm := { x.srm with sh := x.srm.sh.setPend fun p => { p with gran := gran } },
           nbr := x.nbr.setPend fun p => { p with regs := regs } }

/-- Windows whose run moves keep their entries. -/
def moveWins (t : Tab Win) (a b n : Nat) : Tab Win :=
  if a = b then t else
    let mine := t.filter fun e => decide (a ≤ e.1 ∧ e.1 < a + n)
    mine.foldl (fun t e => Tab.insert t (b + (e.1 - a)) e.2) (t.filter fun e => !(decide (a ≤ e.1 ∧ e.1 < a + n)))

/-- Every block's pending values for the change from `o` to `n` of a composition in `slot`. -/
def State.preparePending (s : State) (slot : Nat) (cid : Cid) (o n : Image) (groups : Tab Igrp) (base : Nat) : State :=
  let tiles := (o.ltiles ++ n.ltiles).eraseDups.filterMap fun l => (s.physTile l).map fun t => (l, t)
  let s := s.each tiles fun s x => s.modTile x.2 fun t => t.bindImage x.1 slot cid n
  let own := n.units.foldl (fun t u => Tab.insert t u (n.unitOwner cid u))
    (s.xlt.sh.pend.own.filter fun e => !(e.2.valid && decide (e.2.cid = cid)))
  let ct : Ctab := { valid := n.ctabV, cid := cid, base := n.ctab }
  let s := s.modXlt fun x => { x with
    sh := x.sh.setPend fun p => { ctab := Tab.insert p.ctab slot ct, own := own } }
  let regs := s.newMemRegs slot groups n
  let s := s.modLp fun m => { m with sh := m.sh.setPend fun p => { p with igrp := groups, regs := regs } }
  let fr := (s.newFabRegs slot n).getD s.fab.sh.pend.regs
  let run := s.winRun slot
  let s := s.modFab fun f => { f with sh := f.sh.setPend fun p => { p with
    regs := fr, wbase := Tab.insert p.wbase slot (BitVec.ofNat 9 n.nwin, BitVec.ofNat 14 base),
    poolLimit := Tab.insert p.poolLimit slot (BitVec.ofNat 14 n.pool),
    win := moveWins p.win run.1 base (min run.2 n.nwin) } }
  s.modBrd fun b => { b with sh := b.sh.setPend fun p => { p with slots := Tab.insert p.slots slot (true, cid) } }

/-- The sum of FAB_POOL.LIMIT with an image in force (R307). -/
def State.poolSum (s : State) (slot : Nat) (n : Image) : Nat :=
  (Tab.insert s.fab.sh.pend.poolLimit slot (BitVec.ofNat 14 n.pool)).foldl (fun a e => a + e.2.toNat) 0

/-- Whether the change touches a half under recovery (R401). -/
def State.recoveringFor (s : State) (i : Image) : Bool :=
  [0, 1].any fun h => s.recovering h && i.entries.any fun e => s.entryHalf e h

/-! ### The change -/

/-- Codes 0x04 to 0x0D of R229, in order; none where the image stands. -/
def State.imageRefusal (s : State) (cid : Cid) (slot : Option Nat) (new : Option Nat) (o n : Image) (gone : List Resource) :
    Option (Nat × Nat) :=
  let es := n.entries
  let at_ := fun (code : Nat) (i : Option Nat) => i.map fun i => (code, i)
  let k := (slot.orElse fun _ => new).getD 0
  let first := fun (l : List (Option (Nat × Nat))) => l.findSome? id
  first [
    at_ 4 (firstEntry es (s.takenBy cid)),
    at_ 5 (firstEntry es s.busyEntry),
    at_ 6 (firstEntry es s.absent),
    if (s.newGroups o n gone).isNone then some (6, 0xFFFF) else none,
    if (s.findRun k n.nwin).isNone then some (6, 0xFFFF) else none,
    at_ 7 (firstEntry es fun e => (entryGuars e).any (s.breaches cid o n) || s.portFull k n e),
    if 15360 < s.poolSum k n then some (7, 0xFFFF) else none,
    if slot.isNone && new.isNone then some (8, 0xFFFF) else none,
    if s.inUse cid o n gone then some (0x0A, 0xFFFF) else none,
    if s.changeOpen cid slot then some (0x0B, 0xFFFF) else none,
    at_ 0x0C (firstEntry es fun e => match e with
      | .pairs _ _ _ _ m => (maskBits m).any fun l => (s.pair (s.phys l)).siteSpare
      | _ => false),
    at_ 0x0D (firstEntry es (remapped o))]

/-- The lowest free slot (R224). -/
def State.freeSlotNo (s : State) : Option Nat := (List.range 512).find? fun k => !(s.slotE k).1

/-- Write the pending values, commit, and wait for the boundary (R229 code 0x09, R230, R400). -/
def State.commitImage (s : State) (r : ItlReq) (cid : Cid) (slot : Nat) (first : Bool) (o n : Image) (gone : List Resource) : State :=
  match s.newGroups o n gone, s.findRun slot n.nwin with
  | some groups, some base =>
    let p := s.preparePending slot cid o n groups base
    let nwin := fun k => if k = slot then n.nwin else s.slotNwin k
    match p.allCheck nwin fun t b => (s.bank t b).cid with
    | some x => (p.brdRefused x).refuseBlock r 9 x.2.1 x.1
    | none => p.allAccept.hold r (.image cid n slot gone first) 5
  | _, _ => s.refuse r 6 0xFFFF

/-- An image passes every check of R229 or is refused at the first. -/
def State.tryImage (s : State) (r : ItlReq) (cid : Cid) (n : Image) : State :=
  let slot := s.slotOf cid
  let o := s.image cid
  let gone := s.removed slot o n
  let new := s.freeSlotNo
  if s.recoveringFor n ∨ s.recoveringFor o then s.fail r 0x0203
  else if n.entries.any s.untrained then s.fail r 0x0203
  else match s.imageRefusal cid slot new o n gone with
    | some x => s.refuse r x.1 x.2
    | none => s.commitImage r cid ((slot.orElse fun _ => new).getD 0) slot.isNone o n gone

/-- R229: the sender is the lease holder; EXPECT, then the image. -/
def execBridleImage (path : Path) (s : State) : Out :=
  .next (s.imageCommand path 0x0301 (fun p => (p.drop (64 + 32 * hdF p 2 2)).all fun b => decide (b = 0)) fun r s =>
    let p := r.payload
    if s.composeOff then s.fail r 0x0204
    else if hdF p 8 8 ≠ r.owner.toNat ∨ hdF p 0x10 4 ≠ r.lease.toNat then s.fail r 0x0200
    else if hdF p 4 4 ≠ (s.epochOfCid r.cid).toNat then s.refuse r 1 0xFFFF
    else match decodeImage p r.cid with
      | .error i => s.refuse r 3 i
      | .ok n => s.tryImage r r.cid n)

/-- UNBIND (R402): as an image with COUNT 0. -/
def execUnbind (path : Path) (s : State) : Out :=
  .next (s.imageCommand path 0x0303 (fun p => reservedOk p []) fun r s =>
    match s.slotOf r.cid with
    | none => s.answer r []
    | some _ => s.tryImage r r.cid { s.image r.cid with ctabV := false, ctab := 0, entries := [] })

/-- What the boundary brings to an image, its blocks' values already active (R230 to R234, R250, R252). -/
def State.imageCommitted (s : State) (cid : Cid) (n : Image) (slot : Nat) (gone : List Resource)
    (old : List (Resource × Owner)) (keeps : List (Nat × List Nat)) (before : Image) : State :=
  let s := s.modBrd fun b => { b with
    images := Tab.insert b.images cid.toNat n, leaseBits := Tab.insert b.leaseBits slot (leaseCode (s.lease cid).st),
    keptGroups := b.keptGroups ++ keeps }
  -- R340: a change that the owner makes is an error to a locked interface
  let s := s.each before.funcs fun s f => s.tdiError f.1 f.2 1
  let s := s.each (before.funcs.filter fun f => !n.funcs.contains f) fun s f =>
    s.modFunc f.1 f.2 fun x => { x with bound := false, slot := 0, cid := 0 }
  let s := s.each (n.funcs.filter fun f => !before.funcs.contains f) fun s f =>
    s.modFunc f.1 f.2 fun x => { x with bound := true, slot := BitVec.ofNat 9 slot, cid := cid }
  let s := s.drain cid gone
  let s := s.bridleChange slot cid gone old
  let s := s.modFence slot fun f => if gone.isEmpty then f else { f with atClose := f.atClose ++ gone }
  -- guarantees in force: those admitted, then the reckoning where a figure has fallen (R244, R245)
  let kept := fun (r : GuarRes) => decide (n.admitted r = before.admitted r)
  let s := s.modBrd fun b => { b with current := b.current.filter fun e => decide (e.1 ≠ cid) || kept e.2.1 }
  let s := s.each (s.brd.current.filter fun e => decide (e.1 = cid)) fun s e => s.setRegGuar slot e.2.1 e.2.2
  let rs := ((before.entries ++ n.entries).flatMap entryGuars).eraseDups
  let s := s.each rs fun s r => s.regauge r
  s.settleSlot cid

end Sys2Proof.Machine
end

