-- ==== Sys2Proof/Machine/Spare.lean ====
section
/-! DEFINITION. Pairs held as spares and forwarded moves: SPARE_HOLD, SPARE_FREE, PAIR_MOVE (R238, R243, R403, R406;
log entry 34 for the payloads). -/

namespace Sys2Proof.Machine

/-- Whether a logical pair that a physical pair serves lies in an interleave group (R243). -/
def State.pairBound (s : State) (p : Nat) : Bool :=
  let ls := s.logPairs p
  s.lp.sh.act.igrp.any fun g => g.2.valid && ls.any fun l => g.2.mask.getLsbD l

/-- Whether Itlum has an operation of a physical pair under way (R395): its clear, its move, its rebuild. -/
def State.pairBusy (s : State) (p : Nat) : Bool :=
  s.longOn fun o => decide (o.op = 0x0306 ∧ o.key = p / 96) &&
    decide ((s.moveH (p / 96)).src.toNat = p ∨ (s.moveH (p / 96)).dst.toNat = p)

/-- A byte that names a physical pair. -/
def pairByte (p : Bytes) (o : Nat) : Bool := decide (hdF p o 1 < 192)

/-- R243: the pair lies in no group; it becomes SPARE_READY once cleared. -/
def execSpareHold (path : Path) (s : State) : Out :=
  .next (s.command path 0x0304 (fun p => reservedOk p [(0, 0, 8)] && pairByte p 0) fun r s =>
    let p := hdF r.payload 0 1
    let st := (s.pair p).st
    if s.recovering (p / 96) then s.fail r 0x0203
    else if st = .untrained ∨ st = .training then s.fail r 0x0203
    else if s.pairBusy p then s.fail r 0x0202
    else if s.pairBound p ∨ st ≠ .active ∨ (s.pair p).siteSpare ∨ s.notFree (.pair p) then s.refuse r 1 0
    else
      let s := s.modPair p fun x => { x with siteSpare := true }
      let s := s.modBrd fun b => { b with res := b.res ++ [(.pair p, 0, .clearing)] }
      s.answer r [])

/-- A held spare that nothing uses is given back. -/
def execSpareFree (path : Path) (s : State) : Out :=
  .next (s.command path 0x0305 (fun p => reservedOk p [(0, 0, 8)] && pairByte p 0) fun r s =>
    let p := hdF r.payload 0 1
    if s.recovering (p / 96) then s.fail r 0x0203
    else if s.pairBusy p then s.fail r 0x0202
    else if !(s.pair p).siteSpare ∨ (s.pair p).st ≠ .spareReady ∨ s.taken p ∨ s.pairBound p then s.refuse r 1 0
    else ((s.modPair p fun x => { x with siteSpare := false }).setPairSt p .active).answer r [])

/-- BRD_MOVE_CTRL.GO (R238, R257): none where the move is refused. -/
def State.moveGo (s : State) (h : Nat) : Option State :=
  let m := s.moveH h
  let a := m.src.toNat
  let b := m.dst.toNat
  let running := decide (m.st = .copying ∨ m.st = .switching ∨ m.st = .clearing)
  let src := decide ((s.pair a).st = .active ∨ (s.pair a).st = .degraded) && !(s.notFree (.pair a))
  if 192 ≤ a ∨ 192 ≤ b ∨ a / 96 ≠ h ∨ b / 96 ≠ h ∨ !src ∨ (s.pair b).st ≠ .spareReady ∨ s.taken b ∨ running then none
  else some (s.modMove h fun m => { m with st := .copying, cursor := 0 })

/-- GO with the values that BRD_MOVE_CTRL holds: a move that runs keeps its own. -/
def State.moveStart (s : State) (h : Nat) : Option State :=
  let m := s.moveH h
  if m.st = .copying ∨ m.st = .switching ∨ m.st = .clearing then none else
    (s.modMove h fun m => { m with src := m.regSrc, dst := m.regDst, rate := m.regRate }).moveGo h

/-- A refused move is counted (R238). -/
def State.moveRefused (s : State) : State := s.modBrd fun b => { b with err := b.err.refuse }

/-- PAIR_MOVE (R238): the copy starts; the end comes with OP_DONE. -/
def execPairMove (path : Path) (s : State) : Out :=
  .next (s.command path 0x0306 (fun p => reservedOk p [(0, 0, 8), (1, 0, 8), (2, 0, 4)] && pairByte p 0 && pairByte p 1 &&
      decide (1 ≤ hdF p 2 1 ∧ hdF p 2 1 ≤ 8)) fun r s =>
    let a := hdF r.payload 0 1
    let b := hdF r.payload 1 1
    let h := a / 96
    let m := s.moveH h
    let running := decide (m.st = .copying ∨ m.st = .switching ∨ m.st = .clearing)
    if s.recovering h ∨ s.recovering (b / 96) then s.fail r 0x0203
    else if s.pairBusy a ∨ s.pairBusy b then s.fail r 0x0202
    else if running then s.moveRefused.refuse r 1 0
    else
      let t := s.modMove h fun m => { m with
        regSrc := BitVec.ofNat 8 a, regDst := BitVec.ofNat 8 b, regRate := BitVec.ofNat 4 (hdF r.payload 2 1) }
      match t.moveStart h with
      | some u => u.accepted r h
      | none => s.moveRefused.refuse r 1 0)

end Sys2Proof.Machine
end

