-- ==== Sys2Proof/Machine/Load.lean ====
section
/-! DEFINITION. Contexts, object tables and queues as messages set them up: CTX_LOAD, CTX_EVICT, OBJ_TABLE, Q_REGISTER,
Q_UNREGISTER, Q_RESUME, FQ_SET, FQ_STATUS (R351 to R354, R356, R362, R364, R376, R378, R403, R406). -/

namespace Sys2Proof.Machine

/-- Whether an operation on a context is under way (R395): its eviction, or its purge by RECOVER. -/
def State.ctxBusy (s : State) (cid : Cid) (ctx : Ctx) : Bool :=
  s.longOn fun o => decide (o.cid = cid) && decide ((o.op = 0x0402 ∧ o.key = ctx.toNat) ∨ (o.op = 0x0901 ∧ o.key = 0x10000 + ctx.toNat))

/-! ### CTX_LOAD -/

/-- A bank entry of a load (R352). -/
structure LoadEntry where
  rsvd : Nat
  count : Nat
  base : Nat
  bank : Nat
  ltile : Nat
deriving DecidableEq, Repr

def loadEntries (p : Bytes) : List LoadEntry :=
  (List.range (payF p 4 2 0 10)).map fun i =>
    let v := BitVec.ofNat 32 (hdF p (8 + 4 * i) 4)
    { rsvd := fldN v 29 3, count := fldN v 20 9, base := fldN v 11 9, bank := fldN v 9 2, ltile := fldN v 0 9 }

/-- The first entry, by index, that satisfies a test. -/
def firstLoad (es : List LoadEntry) (f : Nat → LoadEntry → Bool) : Option Nat :=
  (es.zipIdx.find? fun x => f x.2 x.1).map (·.2)

/-- 0x04: malformed, or a tile named by an earlier entry. -/
def loadMalformed (es : List LoadEntry) (i : Nat) (e : LoadEntry) : Bool :=
  decide (e.rsvd ≠ 0 ∨ e.count = 0 ∨ 384 < e.count ∨ 383 < e.base) || (es.take i).any fun x => decide (x.ltile = e.ltile)

/-- Whether an image binds a bank of a logical tile. -/
def Image.binds (n : Image) (l b : Nat) : Bool :=
  n.entries.any fun e => match e with
    | .tiles g banks _ mask => decide (g = l / 128) && mask.getLsbD (l % 128) && banks.getLsbD b
    | _ => false

/-- SRM values with a share for the bank of an entry. -/
def SrmSh.withShare (n : SrmSh) (e : LoadEntry) : SrmSh :=
  { n with share := Tab.insert n.share e.bank ⟨true, BitVec.ofNat 9 e.count, BitVec.ofNat 9 e.base⟩ }

/-- 0x07: the share would be refused under R157, beside the shares of the entries before it. -/
def State.shareBad (s : State) (cid : Cid) (es : List LoadEntry) (i : Nat) (e : LoadEntry) : Bool :=
  match s.physTile e.ltile with
  | none => true
  | some t =>
    let here := (es.take (i + 1)).filter fun x => decide (x.ltile = e.ltile)
    let n := here.foldl SrmSh.withShare (s.tile t).srm.sh.pend
    (srmCheck n fun b => if here.any fun x => decide (x.bank = b) then cid else (s.bank t b).cid).isSome

/-- The refusals of R353 from 0x02 on: code and entry. -/
def State.loadRefusal (s : State) (cid : Cid) (ctx : Ctx) (limit : Nat) (es : List LoadEntry) : Option (Nat × Nat) :=
  let at_ := fun (code : Nat) (i : Option Nat) => i.map fun i => (code, i)
  let whole := fun (code : Nat) (c : Bool) => if c then some (code, 0xFFFF) else none
  let ent := s.ctxEntry cid ctx
  [whole 2 (s.resOf cid ctx).isSome,
   whole 3 (decide (256 ≤ (s.que.sh.act.res.filter fun e => e.2.valid).length)),
   whole 4 (decide (limit = 0)), at_ 4 (firstLoad es (loadMalformed es)),
   at_ 5 (firstLoad es fun _ e => !((s.image cid).binds e.ltile e.bank) || (s.physTile e.ltile).isNone),
   at_ 6 (firstLoad es fun _ e => (s.physTile e.ltile).any fun t => decide ((s.bank t e.bank).st ≠ .empty)),
   at_ 7 (firstLoad es (s.shareBad cid es)),
   whole 8 (decide (ent.1 ≠ 0) || !ent.2.1.getLsbD 63)].findSome? id

/-- The lowest free resident-table entry. -/
def State.freeRes (s : State) : Nat := ((List.range 256).find? fun r => !(s.resSh r).valid).getD 0

/-- Commit a change of QUE values with what another block commits beside it (R399, R400): one refused leaves BLOCK 0x7. -/
def State.commitQueWith (s : State) (r : ItlReq) (n : QueSh) (c : Change) (beside : State → State) : State :=
  match queCheck n with
  | some k => (s.modQue fun x => { x with
      sh := x.sh.refuse, err := x.err.refuse, lastRefusal := BitVec.ofNat 8 k }).refuseBlock r 9 k 7
  | none => ((beside s).modQue fun x => { x with sh := { x.sh with pend := n, acc := some n }, lastRefusal := 0 }).hold r c 7
/-- Commit a change of QUE values alone. -/
def State.commitQue (s : State) (r : ItlReq) (n : QueSh) (c : Change) : State := s.commitQueWith r n c fun s => s

/-- The entries' banks, shares and the resident-table entry take effect at one commit (R352). -/
def State.commitLoad (s : State) (q : ItlReq) (ctx : Ctx) (limit : Nat) (es : List LoadEntry) : State :=
  let r := s.freeRes
  let banks := es.filterMap fun e => (s.physTile e.ltile).map fun t => (t, e.bank)
  let n := { s.que.sh.pend with res := Tab.insert s.que.sh.pend.res r ⟨true, ctx, q.cid, BitVec.ofNat 10 limit⟩ }
  s.commitQueWith q n (.ctxLoad q.cid ctx r banks) fun s => s.each es fun s e => match s.physTile e.ltile with
    | some t => s.modSrm t fun x => { x with sh := (x.sh.setPend fun n => n.withShare e).accept, lastRefusal := 0 }
    | none => s

def execCtxLoad (path : Path) (s : State) : Out :=
  .next (s.commitCommand path 0x0401 (fun p =>
      reservedOk p [(0, 0, 12), (2, 0, 10), (4, 0, 10), (8, 0, 32 * payF p 4 2 0 10)] &&
      decide (1 ≤ payF p 4 2 0 10 ∧ payF p 4 2 0 10 ≤ 512)) fun r s =>
    let p := r.payload
    let ctx : Ctx := BitVec.ofNat 12 (payF p 0 2 0 12)
    let limit := payF p 2 2 0 10
    let es := loadEntries p
    if s.composeOff then s.fail r 0x0204
    else if es.any fun e => s.recovering (e.ltile / 256) then s.fail r 0x0203
    else if s.ctxBusy r.cid ctx then s.fail r 0x0202
    else match s.loadRefusal r.cid ctx limit es with
      | some x => s.refuse r x.1 x.2
      | none => s.commitLoad r ctx limit es)

/-- What the boundary brings to a load (R352): its banks are LOADED, every register zero. -/
def State.loadCommitted (s : State) (cid : Cid) (ctx : Ctx) (r : Nat) (banks : List (Nat × Nat)) : State :=
  let s := s.each banks fun s x => s.modBank x.1 x.2 fun k =>
    { st := .loaded, cid := cid, ctx := ctx, progress := k.progress, run := k.run, lent := k.lent }
  (s.modRes r fun _ => { banks := banks }).rssEnds cid r

/-! ### CTX_EVICT -/

/-- Whether a context is busy for QUIESCED (R354). -/
def State.ctxActive (s : State) (cid : Cid) (ctx : Ctx) : Bool :=
  !(s.ctxCmds cid ctx).isEmpty || (s.ctxBanks cid ctx).any fun x =>
    let k := s.bank x.1 x.2
    decide (k.st = .running ∨ k.st = .waiting) || (s.chansOf x.1 x.2).any fun c =>
      let st := (s.chan x.1 c).st
      decide (st = .active ∨ st = .paused ∨ st = .stalled)

def execCtxEvict (path : Path) (s : State) : Out :=
  .next (s.command path 0x0402 (fun p => reservedOk p [(0, 0, 12), (2, 0, 1)]) fun r s =>
    let ctx : Ctx := BitVec.ofNat 12 (payF r.payload 0 2 0 12)
    let force := payF r.payload 2 1 0 1 = 1
    if (s.ctxBanks r.cid ctx).any fun x => s.recovering (x.1 / 272) then s.fail r 0x0203
    else if s.ctxBusy r.cid ctx then s.fail r 0x0202
    else if (s.resOf r.cid ctx).isNone then s.refuse r 1 0xFFFF
    else if !force ∧ s.ctxActive r.cid ctx then s.refuse r 2 0xFFFF
    else (s.purgeCtxWork r.cid ctx true).accepted r ctx.toNat)

/-- R354: the banks have reached EMPTY and residency ends. -/
def execCtxEvictDone (cid : Cid) (ctx : Ctx) (s : State) : Out :=
  let open_ := s.longOn fun o => decide (o.op = 0x0402 ∧ o.cid = cid ∧ o.key = ctx.toNat)
  if open_ ∧ (s.ctxBanks cid ctx).isEmpty then .next ((s.endResidency cid ctx).opDone 0x0402 cid ctx.toNat 0 0 0)
  else .next s

/-! ### OBJ_TABLE -/

/-- Whether a reference is held on a composition's present table (R356). -/
def State.tableHeld (s : State) (cid : Cid) : Bool :=
  match s.objTab cid with
  | none => false
  | some t => (List.range (2 ^ t.log2)).any fun i => match s.objEntry cid i with
    | some e => decide (e.refs ≠ 0)
    | none => false

/-- Whether a table fits (R356): LPDDR5X data MPA admitted to the composition, aligned to its size. -/
def State.tableFits (s : State) (cid : Cid) (mpa log2 : Nat) : Bool :=
  let size := 2 ^ (log2 + 5)
  decide (mpa % size = 0) && decide (mpa + size ≤ s.dataEnd) &&
  ((List.range (size / 2 ^ 28 + 1)).all fun i =>
    let a := mpa + i * 2 ^ 28
    decide (mpa + size ≤ a) || match s.place a with
      | .dram u _ _ _ => (s.unitOwner u).valid && decide ((s.unitOwner u).cid = cid)
      | _ => false)

/-- The open OBJ_TABLE of a composition: the table it places, in its key. -/
def State.tableOp (s : State) (cid : Cid) : Option LongOp :=
  s.itl.reqs.findSome? fun r => match r.longOp with
    | some o => if o.op = 0x0403 ∧ o.cid = cid then some o else none
    | none => none

def execObjTable (path : Path) (s : State) : Out :=
  .next (s.command path 0x0403 (fun p => reservedOk p [(0, 0, 46), (8, 0, 5)] && decide (10 ≤ payF p 8 1 0 5 ∧ payF p 8 1 0 5 ≤ 24))
    fun r s =>
      let mpa := payF r.payload 0 8 0 46
      let n := payF r.payload 8 1 0 5
      if (s.slotOf r.cid).isNone then s.fail r 0x0107
      else if s.recovering 0 ∨ s.recovering 1 then s.fail r 0x0203
      else if (s.tableOp r.cid).isSome then s.fail r 0x0202
      else if s.tableHeld r.cid then s.refuse r 1 0xFFFF
      else if !s.tableFits r.cid mpa n then s.refuse r 2 0xFFFF
      else s.accepted r (mpa + n * 2 ^ 46))

/-- Every entry FREE with GEN 0x01 (R356): two entries to a line. -/
def freshEntries : Line := lineAt 1 1 ||| lineAt 33 1

/-- The table is written and placed; one that still has references is not abandoned (R356). -/
def execObjTableDone (cid : Cid) (s : State) : Out :=
  match s.tableOp cid with
  | none => .next s
  | some o =>
    if (s.slotOf cid).isNone then .next (s.opDone 0x0403 cid o.key 0 0 0)
    else if s.tableHeld cid then .next s
    else
      let mpa := o.key % 2 ^ 46
      let n := o.key / 2 ^ 46
      let s := s.each (List.range (2 ^ (n - 1))) fun s i =>
        (s.writeMpa Who.zesin (mpa + 64 * i) freshEntries (BitVec.allOnes 64) .clean).2
      let s := s.modQue fun q => { q with objs := Tab.insert q.objs cid.toNat ⟨BitVec.ofNat 46 mpa, n⟩ }
      .next (s.opDone 0x0403 cid o.key 0 0 0)

/-! ### Queues -/

/-- The entry under which a composition's queue number is registered. -/
def State.queueNamed (s : State) (cid : Cid) (q : Nat) : Option Nat :=
  (s.queuesOf cid).find? fun e => decide ((s.qSh e).qnum.toNat = q)

/-- The parser entry that a registration takes: its old one where the home tile is the same, else the lowest free. -/
def State.parserEntry (s : State) (home : Nat) (old : Option Nat) : Option Nat :=
  match old with
  | some e => if e / 16 = home then some e else ((List.range 16).map (· + home * 16)).find? fun e => !(s.qSh e).valid
  | none => ((List.range 16).map (· + home * 16)).find? fun e => !(s.qSh e).valid

/-- The conditions of R362 in their order; the entry where none holds. -/
def State.registerEntry (s : State) (cid : Cid) (p : Bytes) : Nat ⊕ Nat :=
  let q := payF p 0 2 0 12
  let home := payF p 4 2 0 9
  let n := payF p 6 1 0 5
  let old := s.queueNamed cid q
  let current := old.any fun e => decide ((s.qSh e).lease = (s.lease cid).epoch)
  if current then .inl 1
  else if !((s.image cid).ltiles.contains home) then .inl 2
  else match s.parserEntry home old with
    | none => .inl 2
    | some e =>
      if (s.resOf cid (BitVec.ofNat 12 (payF p 2 2 0 12))).isNone then .inl 3
      else if n < 6 ∨ 16 < n then .inl 4
      else if hdF p 0x10 8 % 2 ^ (n + 5) ≠ 0 ∨ hdF p 0x18 8 % 2 ^ (n + 4) ≠ 0 ∨ hdF p 0x20 8 % 64 ≠ 0 then .inl 5
      else .inr e

def execQRegister (path : Path) (s : State) : Out :=
  .next (s.commitCommand path 0x0404 (fun p => reservedOk p
      [(0, 0, 12), (2, 0, 12), (4, 0, 9), (6, 0, 6), (8, 0, 10), (0x10, 0, 64), (0x18, 0, 64), (0x20, 0, 64)]) fun r s =>
    let p := r.payload
    let ctx : Ctx := BitVec.ofNat 12 (payF p 2 2 0 12)
    if s.recovering (payF p 4 2 0 9 / 256) then s.fail r 0x0203
    else if s.ctxBusy r.cid ctx then s.fail r 0x0202
    else match s.registerEntry r.cid p, path, s.slotOf r.cid with
      | .inl code, _, _ => s.refuse r code 0xFFFF
      | .inr e, .mailbox h f, some slot =>
        let q : QSh := {
          valid := true, qctx := ctx, qnum := BitVec.ofNat 12 (payF p 0 2 0 12), slot := BitVec.ofNat 9 slot,
          sizeLog2 := BitVec.ofNat 5 (payF p 6 1 0 5), ven := decide (payF p 6 1 5 1 = 1),
          vector := BitVec.ofNat 10 (payF p 8 2 0 10), hport := decide (h.val = 1), func := BitVec.ofNat 9 f.val,
          ring := BitVec.ofNat 64 (hdF p 0x10 8), cpl := BitVec.ofNat 64 (hdF p 0x18 8),
          stat := BitVec.ofNat 64 (hdF p 0x20 8), lease := (s.lease r.cid).epoch }
        s.commitQue r { s.que.sh.pend with q := Tab.insert s.que.sh.pend.q e q } (.qRegister e)
      | .inr _, _, _ => s.fail r 0x0107)

/-- Before the boundary: a registration of the same queue number under an older lease epoch ends (R362). -/
def State.replaceQueue (s : State) (e : Nat) : State :=
  match s.que.sh.acc with
  | none => s
  | some n =>
    let q := Tab.get (fun _ => ({} : QSh)) n.q e
    match s.queueNamed (s.slotE q.slot.toNat).2 q.qnum.toNat with
    | none => s
    | some o =>
      let s := s.endQueue o true
      s.modQue fun x => { x with sh := { x.sh with acc := x.sh.acc.map fun n => { n with q := Tab.insert n.q e q } } }

/-- After it: the queue runs, and its status line says so (R363). -/
def State.registered (s : State) (e : Nat) : State := (s.modQ e fun _ => {}).setQueue e .running

def execQUnregister (path : Path) (s : State) : Out :=
  .next (s.commitCommand path 0x0405 (fun p => reservedOk p [(0, 0, 12)]) fun r s =>
    match s.queueNamed r.cid (payF r.payload 0 2 0 12) with
    | none => s.refuse r 1 0xFFFF
    | some e =>
      if s.recovering (e / 16 / 256) then s.fail r 0x0203
      else s.commitQue r { s.que.sh.pend with q := Tab.erase s.que.sh.pend.q e } (.qUnregister e))

/-- R364: HEAD moves between the old HEAD and TAIL, and the queue runs again. -/
def execQResume (path : Path) (s : State) : Out :=
  .next (s.command path 0x0406 (fun p => reservedOk p [(0, 0, 12), (4, 0, 32)]) fun r s =>
    let head : Word := BitVec.ofNat 32 (hdF r.payload 4 4)
    match s.queueNamed r.cid (payF r.payload 0 2 0 12) with
    | none => s.refuse r 1 0xFFFF
    | some e =>
      let q := s.qRo e
      if s.recovering (e / 16 / 256) then s.fail r 0x0203
      else if q.st ≠ .stopped ∧ q.st ≠ .broken then s.refuse r 1 0xFFFF
      else if (q.tail - q.head).toNat < (head - q.head).toNat then s.refuse r 2 0xFFFF
      else ((s.modQ e fun x => { x with head := head }).setQueue e .running).answer r [])

/-! ### The fault queue -/

def execFqSet (path : Path) (s : State) : Out :=
  .next (s.commitCommand path 0x0407 (fun p => reservedOk p [(0, 12, 52), (8, 0, 2), (0x0A, 0, 10)]) fun r s =>
    match s.slotOf r.cid with
    | none => s.fail r 0x0107
    | some slot =>
      let p := r.payload
      let f : FqSh := {
        base := BitVec.ofNat 52 (hdF p 0 8 / 4096), en := decide (payF p 8 1 0 1 = 1), ven := decide (payF p 8 1 1 1 = 1),
        vector := BitVec.ofNat 10 (payF p 0x0A 2 0 10) }
      s.commitQue r { s.que.sh.pend with fq := Tab.insert s.que.sh.pend.fq slot f } (.fqSet slot))

/-- The contexts of a composition with OVF set (R378). -/
def State.ovfCtxs (s : State) (cid : Cid) : List Ctx :=
  (s.que.sh.act.res.filter fun e => e.2.valid && decide (e.2.cid = cid) && (s.resRo e.1).ovf).map fun e => e.2.ctx

def execFqStatus (path : Path) (s : State) : Out :=
  .next (s.command path 0x0408 (fun p => reservedOk p []) fun r s =>
    match s.slotOf r.cid with
    | none => s.fail r 0x0107
    | some slot =>
      let f := s.fqRo slot
      let cs := s.ovfCtxs r.cid
      s.answer r (toBytes 4 f.next.toNat ++ toBytes 4 f.acked.toNat ++ toBytes 4 f.dropped.toNat ++
        toBytes 2 (if f.movf then 1 else 0) ++ toBytes 2 cs.length ++ cs.flatMap fun c => toBytes 2 c.toNat))

end Sys2Proof.Machine
end

