-- ==== Sys2Proof/Machine/FabCmd.lean ====
section
/-! DEFINITION. Fabric and memory commands: MODULE_NUMBER, ROUTE_SET, LINK_EXPECT, FAB_TIMEOUT (R283, R287, R298, R320,
R322), windows (R291, R292, R295, R323), collectives (R311, R314, R324), MEM_WRITE and MEM_READ (R403). -/

namespace Sys2Proof.Machine

/-- Whether a half or the module recovers (R401, for a block that is the module's). -/
def State.anyRecovering (s : State) : Bool := s.recovering 0 || s.recovering 1

/-- Commit a change of FAB values (R399, R400): one refused leaves BLOCK 0x6. -/
def State.commitFab (s : State) (r : ItlReq) (n : FabSh) (c : Change) : State :=
  match s.fabCheck n s.slotNwin s.brd.sh.act.bound s.brd.sh.act.cidBound with
  | some k =>
    (s.modFab fun x => { x with sh := x.sh.refuse, err := x.err.refuse, lastRefusal := BitVec.ofNat 8 k }).refuseBlock r 9 k 6
  | none => (s.modFab fun x => { x with sh := { x.sh with pend := n, acc := some n }, lastRefusal := 0 }).hold r c 6

/-! ### The module's number, its routes, its links -/

def execModuleNumber (path : Path) (s : State) : Out :=
  .next (s.commitCommand path 0x0501 (fun p => reservedOk p [(0, 0, 14), (0, 31, 1)]) fun r s =>
    let id : FabId := ⟨decide (payF r.payload 0 4 31 1 = 1), BitVec.ofNat 14 (payF r.payload 0 4 0 14)⟩
    if s.anyRecovering then s.fail r 0x0203
    else s.commitFab r { s.fab.sh.pend with id := id } .commitOnly)

/-- FAB_ROUTE (R322): the candidates up to N, and those beyond it. -/
def Route.ofWord (v : Word) : Route :=
  let c := (List.range 4).map fun k => (fld v (7 * k) 7 : BitVec 7)
  ⟨bit v 31, c.take (fldN v 29 2 + 1), c.drop (fldN v 29 2 + 1)⟩

/-- An entry of ROUTE_SET at offset `o`: the module number, the FAB_ROUTE word (R322). -/
def routeEntry (p : Bytes) (o : Nat) : Nat × Route :=
  (payF p o 4 0 14, Route.ofWord (BitVec.ofNat 32 (hdF p (o + 4) 4)))

/-- The fields of `n` entries of ROUTE_SET. -/
def routeFields (n : Nat) : List (Nat × Nat × Nat) :=
  (List.range n).flatMap fun i => [(16 * i, 0, 14), (16 * i + 4, 0, 28), (16 * i + 4, 29, 3)]

def execRouteSet (path : Path) (s : State) : Out :=
  .next (s.commitCommand path 0x0502 (fun p => decide (p.length % 16 = 0) && reservedOk p (routeFields (p.length / 16)))
    fun r s =>
      let es := (List.range (r.payload.length / 16)).map fun i => routeEntry r.payload (16 * i)
      if s.anyRecovering then s.fail r 0x0203
      else
        let t := es.foldl (fun t e => Tab.insert t e.1 e.2) s.fab.sh.pend.route
        s.commitFab r { s.fab.sh.pend with route := t } .commitOnly)

/-- LNK_EXPECT of a port: the port, then its word. -/
def execLinkExpect (path : Path) (s : State) : Out :=
  .next (s.commitCommand path 0x0503 (fun p => reservedOk p [(0, 0, 8), (4, 0, 20), (4, 31, 1)] && decide (hdF p 0 1 < 48))
    fun r s =>
      let k := hdF r.payload 0 1
      let e : LnkExpect := {
        en := decide (payF r.payload 4 4 31 1 = 1), module := BitVec.ofNat 14 (payF r.payload 4 4 6 14),
        port := BitVec.ofNat 6 (payF r.payload 4 4 0 6) }
      if s.recovering (k / 24) then s.fail r 0x0203
      else if 47 < e.port.toNat ∨ (s.fab.sh.act.id.valid ∧ e.module = s.module) then
        (s.modPort k fun x => { x with err := x.err.refuse }).refuseBlock r 9 0 8
      else (s.modPort k fun x => { x with expect := { x.expect with pend := e, acc := some e } }).hold r .commitOnly 8)

def execFabTimeout (path : Path) (s : State) : Out :=
  .next (s.command path 0x0504 (fun p => reservedOk p [(0, 0, 10)] && decide (1 ≤ payF p 0 2 0 10 ∧ payF p 0 2 0 10 ≤ 512))
    fun r s =>
      let u := payF r.payload 0 2 0 10
      if s.anyRecovering then s.fail r 0x0203
      else (s.modFab fun f => { f with timeout := BitVec.ofNat 10 u }).answer r [])

/-! ### Windows -/

/-- The entry that a window command names, where W lies below NWIN. -/
def State.winNamed (s : State) (cid : Cid) (w : Nat) : Option Nat :=
  match s.slotOf cid with
  | some slot => s.winEntry slot w
  | none => none

/-- Whether a command on a window entry is under way (R395). -/
def State.winBusy (s : State) (i : Nat) : Bool := s.fab.drains.any fun d => decide (d.window = i)

def execWinSet (path : Path) (s : State) : Out :=
  .next (s.commitCommand path 0x0505 (fun p =>
      reservedOk p [(0, 0, 8), (1, 0, 4), (2, 0, 12), (4, 0, 32), (8, 12, 34)] &&
      decide (1 ≤ hdF p 4 4 ∧ hdF p 4 4 ≤ 32768)) fun r s =>
    let p := r.payload
    match s.winNamed r.cid (hdF p 0 1) with
    | none => s.refuse r 1 0xFFFF
    | some i =>
      if s.anyRecovering then s.fail r 0x0203
      else if s.winBusy i then s.fail r 0x0202
      else
        let w : Win := {
          valid := true, rights := BitVec.ofNat 3 (payF p 1 1 0 3), scope := decide (payF p 1 1 3 1 = 1),
          ctx := BitVec.ofNat 12 (payF p 2 2 0 12), cid := r.cid, size := BitVec.ofNat 16 (hdF p 4 4),
          root := BitVec.ofNat 34 (payF p 8 8 12 34) }
        s.commitFab r { s.fab.sh.pend with win := Tab.insert s.fab.sh.pend.win i w } (.winSet i))

def execWinClear (path : Path) (s : State) : Out :=
  .next (s.commitCommand path 0x0506 (fun p => reservedOk p [(0, 0, 8)]) fun r s =>
    match s.winNamed r.cid (hdF r.payload 0 1) with
    | none => s.refuse r 1 0xFFFF
    | some i =>
      if s.anyRecovering then s.fail r 0x0203
      else if s.winBusy i then s.fail r 0x0202
      else s.commitFab r { s.fab.sh.pend with win := Tab.erase s.fab.sh.pend.win i } (.winClear i))

/-- Requests admitted under an entry become old ones, where they satisfy `f` (R295). -/
def State.winOld (s : State) (i : Nat) (f : WinReq → Bool) : State :=
  s.modFab fun x => { x with winReqs := x.winReqs.map fun r => if r.window = i ∧ f r then { r with old := true } else r }

/-- The window number that an entry has for its composition. -/
def State.winNumber (s : State) (cid : Cid) (i : Nat) : Nat :=
  match s.slotOf cid with
  | some slot => i - (s.fab.sh.act.wb slot).2.toNat
  | none => 0

/-- The boundary brings a set or a clear (R295): translations under the old entry go, and its requests are awaited. -/
def State.winCommitted (s : State) (r : ItlReq) (i : Nat) (clear : Bool) : State :=
  let w := s.winNumber r.cid i
  let s := s.modFab fun f => { f with winLook := f.winLook.filter fun x => !(decide (x.cid = r.cid ∧ x.ctx = BitVec.ofNat 12 w)) }
  let s := s.winOld i fun _ => true
  if clear then (s.accepted r i).modFab fun f => { f with drains := f.drains ++ [⟨i, r.cid, none⟩] }
  else if s.fab.winReqs.any fun q => decide (q.window = i) && q.old then
    s.modFab fun f => { f with drains := f.drains ++ [⟨i, r.cid, some r.path⟩] }
  else s.answer r []

/-- R295: translations of a range go; the requests that used them are awaited. -/
def execWinInval (path : Path) (s : State) : Out :=
  .next (s.command path 0x0507 (fun p => reservedOk p [(0, 0, 8), (8, 0, 36), (0x10, 0, 64)] && decide (1 ≤ hdF p 0x10 8)) fun r s =>
    let p := r.payload
    match s.winNamed r.cid (hdF p 0 1) with
    | none => s.refuse r 1 0xFFFF
    | some i =>
      let lo := payF p 8 8 0 36
      let n := hdF p 0x10 8
      let hits := fun (base log2 : Nat) => decide (base < lo + n ∧ lo < base + 2 ^ log2)
      if s.anyRecovering then s.fail r 0x0203
      else if s.winBusy i then s.fail r 0x0202
      else
        let s := s.modFab fun f => { f with winLook := f.winLook.filter fun x =>
          !(decide (x.cid = r.cid ∧ x.ctx = BitVec.ofNat 12 (hdF p 0 1)) && hits x.base x.log2) }
        let s := s.winOld i fun q => hits q.via.1 q.via.2
        (s.accepted r i).modFab fun f => { f with drains := f.drains ++ [⟨i, r.cid, none⟩] })

/-- R295: every old request of the entry has completed. -/
def execWindowDrainDone (w : Fin 16384) (s : State) : Out :=
  let i := w.val
  let mine := s.fab.drains.filter fun d => decide (d.window = i)
  if mine.isEmpty ∨ s.fab.winReqs.any (fun q => decide (q.window = i) && q.old) then .next s
  else
    let s := s.modFab fun f => { f with drains := f.drains.filter fun d => decide (d.window ≠ i) }
    .next (s.each mine fun s d => match d.path with
      | some p => match (s.requester p).busy with
        | some r => s.answer r []
        | none => s
      | none => (s.opDone 0x0506 d.cid i 0 0 0).opDone 0x0507 d.cid i 0 0 0)

/-! ### Collectives -/

/-- The SH fields of FAB_COLL in a COLL_SET (R324). -/
def collOfBytes (cid : Cid) (p : Bytes) : CollSh :=
  let f := fun (word lo w : Nat) => payF p (8 * word) 8 lo w
  { valid := decide (f 0 63 1 = 1), op := BitVec.ofNat 2 (f 0 58 2), collId := BitVec.ofNat 16 (f 0 16 16), cid := cid,
    nlocal := BitVec.ofNat 10 (f 1 48 10), childMask := BitVec.ofNat 48 (f 1 0 48), pvalid := decide (f 2 55 1 = 1),
    parent := BitVec.ofNat 6 (f 2 48 6), destWin := BitVec.ofNat 8 (f 2 40 8), destOff := BitVec.ofNat 36 (f 2 0 36),
    fence := BitVec.ofNat 32 (f 3 32 32), len := BitVec.ofNat 32 (f 3 0 32), fenceBase := BitVec.ofNat 64 (f 4 0 64) }

/-- The entry that a collective takes: its own, or the lowest free. -/
def State.collSlot (s : State) (cid : Cid) (id : BitVec 16) : Option Nat :=
  match s.collOf cid id with
  | some c => some c
  | none => (List.range 64).find? fun c => !(s.collSh c).valid && (Tab.find s.fab.collLater c).isNone

/-- Whether the fence of an entry takes its reference now (R360). -/
def State.collFenceFits (s : State) (e : CollSh) : Bool :=
  match s.resolve e.cid e.fence 2 with
  | .ok i _ => s.refFits e.cid i
  | _ => true

def execCollSet (path : Path) (s : State) : Out :=
  .next (s.commitCommand path 0x0508 (fun p => reservedOk p
      [(0, 0, 32), (0, 58, 2), (0, 63, 1), (8, 0, 58), (0x10, 0, 36), (0x10, 40, 14), (0x10, 55, 1), (0x18, 0, 64), (0x20, 0, 64)])
    fun r s =>
      let e := collOfBytes r.cid r.payload
      if s.anyRecovering then s.fail r 0x0203
      else match s.collSlot r.cid e.collId with
        | none => s.fail r 0x0202
        | some c =>
          if (Tab.find s.fab.collLater c).isSome then s.fail r 0x0202
          else if !s.collFenceFits e then s
          else s.commitFab r { s.fab.sh.pend with coll := Tab.insert s.fab.sh.pend.coll c e } (.collSet c))

def execCollClear (path : Path) (s : State) : Out :=
  .next (s.commitCommand path 0x0509 (fun p => reservedOk p [(0, 0, 16)]) fun r s =>
    match s.collOf r.cid (BitVec.ofNat 16 (hdF r.payload 0 2)) with
    | none => s.refuse r 1 0xFFFF
    | some c =>
      if s.anyRecovering then s.fail r 0x0203
      else if (Tab.find s.fab.collLater c).isSome then s.fail r 0x0202
      else s.commitFab r { s.fab.sh.pend with coll := Tab.erase s.fab.sh.pend.coll c } (.collClear c))

/-- Entries whose values a FAB commit changes, or that it sets again: at once, or after the running generation (R314).
`old` is the table before the boundary, whose entries stand until then. -/
def State.collsCommitted (s : State) (old : Tab CollSh) (forced : Option Nat) : State :=
  let new := s.fab.sh.act.coll
  let get := fun (t : Tab CollSh) (c : Nat) => Tab.get (fun _ => ({} : CollSh)) t c
  let cs := (List.range 64).filter fun c => decide (get old c ≠ get new c ∨ forced = some c)
  s.each cs fun s c =>
    let e := get new c
    let back := fun (n : FabSh) => { n with coll := if (get old c).valid then Tab.insert n.coll c (get old c) else Tab.erase n.coll c }
    let s := s.modFab fun f => { f with sh := f.sh.both back }
    if (s.collRun c).st = 2 then s.modFab fun f => { f with collLater := Tab.insert f.collLater c e } else s.collApply c e

/-! ### Memory -/

/-- MPA, CTX and BYTES of a memory command (R403). -/
def memOk (limit : Nat) (p : Bytes) : Bool :=
  decide (payF p 0 8 0 46 % 64 = 0) && decide (hdF p 0x0C 2 % 64 = 0) &&
  decide (64 ≤ hdF p 0x0C 2 ∧ hdF p 0x0C 2 ≤ limit)

/-- The first line refused at its target under R212: its index and the STATUS. -/
def State.firstRefused (s : State) (w : Who) (a : Acc) (mpa n : Nat) : Option (Nat × Nat) :=
  (List.range n).findSome? fun i =>
    let c := s.targetCheck w a (s.place (mpa + 64 * i)) false
    if c = 0 then none else some (i, c)

/-- Whether a target of the lines lies in a half under recovery (R401). -/
def State.linesRecover (s : State) (mpa n : Nat) : Bool :=
  s.anyRecovering && (List.range n).any fun i => match s.place (mpa + 64 * i) with
    | .sram t _ => s.recovering (t / 272)
    | .dram _ p _ _ => s.recovering (p / 96)
    | .unbacked => false

/-- Write lines one by one: the index and STATUS of the first that fails, if one does, and the state. -/
def State.writeLines (s : State) (w : Who) (mpa : Nat) (b : Bytes) : Nat → Nat → Option (Nat × Nat) × State
  | _, 0 => (none, s)
  | i, n + 1 =>
    let r := s.writeMpa w (mpa + 64 * i) (Line.ofBytes ((b.drop (64 * i)).take 64)) (BitVec.allOnes 64) .clean
    if r.1 = 0 then r.2.writeLines w mpa b (i + 1) n else (some (i, r.1), r.2)

/-- Read lines one by one; `ecc` is what the first reads as. -/
def State.readLines (s : State) (w : Who) (mpa : Nat) (ecc : Ecc) : Nat → Nat → Option (Nat × Nat) × Bytes × State
  | _, 0 => (none, [], s)
  | i, n + 1 =>
    let r := s.readMpa w false (mpa + 64 * i) (if i = 0 then ecc else .clean)
    if r.1 ≠ 0 then (some (i, r.1), [], r.2.2) else
      let t := r.2.2.readLines w mpa ecc (i + 1) n
      (t.1, Line.bytes r.2.1 ++ t.2.1, t.2.2)

/-- A refusal of a memory command's line is counted at its target (R214). -/
def State.refusedAt (s : State) (mpa : Nat) (x : Nat × Nat) : State := s.countRefused (s.place (mpa + 64 * x.1))

def execMemWrite (path : Path) (s : State) : Out :=
  .next (s.command path 0x050A (fun p =>
      reservedOk p [(0, 0, 46), (8, 0, 12), (0x0C, 0, 16), (0x40, 0, 8 * hdF p 0x0C 2)] && memOk 3968 p) fun r s =>
    let p := r.payload
    let mpa := payF p 0 8 0 46
    let n := hdF p 0x0C 2 / 64
    let w := Who.of r.cid (BitVec.ofNat 12 (payF p 8 2 0 12))
    if s.linesRecover mpa n then s.fail r 0x0203
    else match s.firstRefused w .wr mpa n with
      | some x => (s.refusedAt mpa x).refuse r x.2 x.1
      | none =>
        let t := s.writeLines w mpa (p.drop 0x40) 0 n
        match t.1 with
        | some x => t.2.refuse r x.2 x.1
        | none => t.2.answer r [])

def execMemRead (path : Path) (ecc : Ecc) (s : State) : Out :=
  .next (s.command path 0x050B (fun p => reservedOk p [(0, 0, 46), (8, 0, 12), (0x0C, 0, 16)] && memOk 4032 p) fun r s =>
    let p := r.payload
    let mpa := payF p 0 8 0 46
    let n := hdF p 0x0C 2 / 64
    let w := Who.of r.cid (BitVec.ofNat 12 (payF p 8 2 0 12))
    if s.linesRecover mpa n then s.fail r 0x0203
    else match s.firstRefused w .rd mpa n with
      | some x => (s.refusedAt mpa x).refuse r x.2 x.1
      | none =>
        let t := s.readLines w mpa ecc 0 n
        match t.1 with
        | some x => t.2.2.refuse r x.2 x.1
        | none => t.2.2.answer r t.2.1)

end Sys2Proof.Machine
end

