-- ==== Sys2Proof/Machine/PwrCmd.lean ====
section
/-! DEFINITION. Cadence and power commands: CAD_SET, CAD_QUERY, PWR_SET, PWR_QUERY (R464, R466, R469, R523). -/

namespace Sys2Proof.Machine

/-- Whether the sender sees a tenant view (R523). -/
def tenantReq (r : ItlReq) : Bool := decide (originOf r.path = 0)

/-- Whether the module recovers, so that its own blocks take no commit (R401). -/
def State.moduleRecovering (s : State) : Bool := s.recovering 0 && s.recovering 1

/-! ### Cadence -/

/-- R464: CAD_CFG's fields commit; ADOPT_LOWER is refused unless STATE is CONFLICT and no slot is bound (R466). -/
def execCadSet (path : Path) (s : State) : Out :=
  .next (s.commitCommand path 0x0701 (fun p => reservedOk p [(0, 0, 3), (4, 0, 20)]) fun r s =>
    let p := r.payload
    let c : CadSh := ⟨BitVec.ofNat 2 (payF p 0 1 0 2), BitVec.ofNat 20 (payF p 4 3 0 20)⟩
    let adopt := decide (payF p 0 1 2 1 = 1)
    let bound := s.brd.sh.act.slots.any fun e => e.2.1
    let refused := fun (k : Nat) =>
      (s.modCad fun x => { x with sh := x.sh.refuse, err := x.err.refuse, lastRefusal := BitVec.ofNat 8 k }).refuseBlock r 0 k 9
    if s.moduleRecovering then s.fail r 0x0203
    else match cadCheck c with
      | some k => refused k
      | none =>
        if adopt ∧ (bound ∨ s.cad.st ≠ .conflict) then
          (s.modCad fun x => { x with err := x.err.refuse }).refuseBlock r 0 0 9
        else
          (s.modCad fun x => { x with
            sh := { x.sh with pend := c, acc := some c }, lastRefusal := 0, adoptLower := adopt || x.adoptLower }).hold r .cadence 9)

/-- CAD_STATUS.STATE. -/
def cadCode : CadSt → Nat
  | .free => 0
  | .acquiring => 1
  | .locked => 2
  | .holdover => 3
  | .conflict => 4

/-- CAD_CFG to CAD_STEP (R464, R466); a tenant sees STATE and EPOCH only (R523). -/
def State.cadBytes (s : State) (tenant : Bool) : Bytes :=
  let c := s.cad
  let status := cadCode c.st * 2 ^ 28
  if tenant then toBytes 4 0 ++ toBytes 4 status ++ toBytes 8 c.epoch.toNat ++ List.replicate 32 0
  else
    let bit_ := fun (b : Bool) (k : Nat) => if b then 2 ^ k else 0
    toBytes 4 (c.sh.act.mode.toNat * 2 ^ 30 + c.sh.act.nominal.toNat) ++
    toBytes 4 (status + bit_ c.srcMains 27 + bit_ c.srcHold 26 + bit_ c.frameValid 25) ++
    toBytes 8 c.epoch.toNat ++ toBytes 4 c.tick.toNat ++ toBytes 4 c.periodNs.toNat ++
    toBytes 4 (c.relock.toNat * 2 ^ 21 + c.phase.toNat) ++ toBytes 4 c.drift.toNat ++
    toBytes 8 (c.rejected.toNat * 2 ^ 48 + c.frameBad.toNat * 2 ^ 32 + c.steps.toNat * 2 ^ 16 + c.lockLosses.toNat) ++
    toBytes 8 c.step.toNat

def execCadQuery (path : Path) (s : State) : Out :=
  .next (s.command path 0x0702 (fun p => reservedOk p []) fun r s => s.answer r (s.cadBytes (tenantReq r)))

/-! ### Power -/

/-- The words that a PWR_SET writes. -/
def pwrSetOf (o : PwrSh) (p : Bytes) : PwrSh :=
  let on := fun k => payF p 0 4 k 1 = 1
  let f := fun k lo w => payF p (4 + 4 * k) 4 lo w
  let o := if on 0 then { o with ramp := decide (f 0 31 1 = 1), cap := BitVec.ofNat 12 (f 0 0 12) } else o
  let o := if on 1 then { o with first := BitVec.ofNat 2 (f 1 4 2), second := BitVec.ofNat 2 (f 1 2 2), third := BitVec.ofNat 2 (f 1 0 2) } else o
  let o := if on 2 then { o with stagger := BitVec.ofNat 16 (f 2 16 16), slew := BitVec.ofNat 9 (f 2 0 9) } else o
  let o := if on 3 then { o with balEn := decide (f 3 31 1 = 1), balFmt := BitVec.ofNat 4 (f 3 12 4) } else o
  if on 4 then { o with vmode := decide (f 4 31 1 = 1) } else o

/-- Bits of PWR_SET that carry fields: MASK, then the words of R469; TRIM_E and TRIM_W are read-only and ignored. -/
def pwrFields : List (Nat × Nat × Nat) :=
  [(0, 0, 5), (4, 0, 12), (4, 31, 1), (8, 0, 6), (12, 0, 9), (12, 16, 16), (16, 12, 4), (16, 31, 1), (20, 0, 5), (20, 8, 5),
   (20, 31, 1)]

def execPwrSet (path : Path) (s : State) : Out :=
  .next (s.commitCommand path 0x0601 (fun p => reservedOk p pwrFields) fun r s =>
    let n := pwrSetOf s.pwr.sh.pend r.payload
    if s.moduleRecovering then s.fail r 0x0203
    else match pwrCheck n with
      | some k => (s.modPwr fun x => { x with
          sh := x.sh.refuse, err := x.err.refuse, lastRefusal := BitVec.ofNat 8 k }).refuseBlock r 0 k 0xA
      | none =>
        let set := decide (payF r.payload 0 4 2 1 = 1)
        (s.modPwr fun x => { x with
          sh := { x.sh with pend := n, acc := some n }, lastRefusal := 0, staggerSet := set || x.staggerSet }).hold r .power 0xA)

/-- PWR_INPUT to PWR_EPI_NEXT, then 28 reserved bytes (R464, R469). -/
def State.pwrFigures (s : State) (tenant : Bool) : Bytes :=
  let p := s.pwr
  let f := fun (l : List Nat) k => l.getD k 0
  if tenant then
    let t := s.itl.tenantPower
    toBytes 2 (f t 1) ++ toBytes 2 0 ++ toBytes 2 (f t 2) ++ toBytes 2 (f t 3) ++ toBytes 2 (f t 4) ++ toBytes 2 (f t 5) ++
    List.replicate 52 0
  else
    toBytes 2 p.pin.toNat ++ toBytes 2 p.vin.toNat ++ toBytes 2 p.pLink.toNat ++ toBytes 2 p.pMem.toNat ++
    toBytes 2 p.pComp.toNat ++ toBytes 2 p.pBase.toNat ++
    toBytes 4 (p.clk.toNat * 2 ^ 16 + p.mem.toNat * 2 ^ 8 + p.link.toNat) ++
    toBytes 2 (p.floor / 16) ++ toBytes 2 (p.ceil / 16) ++ toBytes 2 (p.capEff / 16) ++ toBytes 2 0 ++
    toBytes 8 p.ballastModule.toNat ++ toBytes 4 p.epiNext.toNat ++ List.replicate 28 0

/-- A tenant's view of an episode (R523): REASON, DOMAIN, START rounded down and DURATION rounded up to 100 ms. -/
def State.coarse (s : State) (e : Episode) : Bytes :=
  let q := max 1 (s.ticksOf 100000000)
  let start := (e.openEpoch.toNat * period + e.openTick) / q * q
  let long := (e.ticks.toNat + q - 1) / q * q
  toBytes 1 e.reason ++ toBytes 1 e.domain ++ toBytes 2 0xFFFF ++ toBytes 4 0 ++ toBytes 8 (start / period) ++
  toBytes 4 (start % period) ++ toBytes 4 0 ++ toBytes 8 long

/-- PWR_QUERY: each part carries the figures and up to 124 episodes from FROM onward (R464). -/
def execPwrQuery (path : Path) (s : State) : Out :=
  .next (s.command path 0x0602 (fun p => reservedOk p [(0, 0, 32)]) fun r s =>
    let from_ : Word := BitVec.ofNat 32 (hdF r.payload 0 4)
    let es := s.pwr.episodes.filter fun e => decide ((e.number - from_).toNat < 2 ^ 31)
    let head := s.pwrFigures (tenantReq r)
    let b := es.flatMap fun e => if (tenantReq r) then s.coarse e else e.bytes
    let parts := if b.isEmpty then [head] else (cutParts 3968 b).map fun x => head ++ x
    s.respondParts r 0 0 0 parts)

end Sys2Proof.Machine
end

