-- ==== Sys2Proof/Machine/RecCmd.lean ====
section
/-! DEFINITION. Recovery commands: RECOVER by its ACTION (R484), RECOVERY_QUERY (R485). -/

namespace Sys2Proof.Machine

/-- RECOVER's payload (R484): its reserved bits, its ACTION, the ranges of the fields that the ACTION uses. -/
def recoverOk (p : Bytes) : Bool :=
  let a := hdF p 0 1
  reservedOk p [(0, 0, 8), (2, 0, 12), (4, 0, 10), (6, 0, 1), (8, 0, 11)] && decide (1 ≤ a ∧ a ≤ 5) &&
  decide (a = 2 → payF p 4 2 0 10 < 544) && decide (a = 5 → 1 ≤ payF p 8 2 0 11 ∧ payF p 8 2 0 11 ≤ 1024)

/-- Run a RECOVER of one ACTION; one of another ACTION is left to its own command. -/
def State.recoverCmd (s : State) (path : Path) (action : Nat) (f : ItlReq → State → State) : State :=
  match s.due path 0x0901 with
  | none => s
  | some r =>
    let a := hdF r.payload 0 1
    if 1 ≤ a ∧ a ≤ 5 ∧ a ≠ action then s else s.command path 0x0901 recoverOk f

/-- The other half of code 0x02: a recovery that covers half `h` runs or has fallen due. -/
def State.covered (s : State) (h : Nat) : Bool :=
  s.recovering h || s.rcv.pendingModule.isSome || (match s.rcv.pendingHalf with
    | some x => decide (x.1 = h)
    | none => false)

/-- Every bank of a context is purged: a context that is not yet lost is lost with a record of cause 2 (R484). -/
def State.recoverCtx (s : State) (cid : Cid) (ctx : Ctx) : State :=
  let s := s.purgeLost cid ctx 0x3FF 0 2
  s.each ((s.ctxBanks cid ctx).filter fun x => decide ((s.bank x.1 x.2).st ≠ .purging)) fun s x => s.purgeBank x.1 x.2

def execRecoverPurge (path : Path) (s : State) : Out :=
  .next (s.recoverCmd path 1 fun r s =>
    let ctx : Ctx := BitVec.ofNat 12 (payF r.payload 2 2 0 12)
    let banks := s.ctxBanks r.cid ctx
    let wider := banks.any fun x =>
      s.covered (x.1 / 272) || s.rcv.isolations.any fun i => decide (i.tile = x.1)
    let purging := banks.any fun x => decide ((s.bank x.1 x.2).st = .purging)
    if (s.resOf r.cid ctx).isNone then s.refuse r 1 0xFFFF
    else if wider ∨ purging ∨ s.ctxBusy r.cid ctx then s.refuse r 2 0xFFFF
    else
      let s := (s.recoverCtx r.cid ctx).accepted r (0x10000 + ctx.toNat)
      if (s.ctxBanks r.cid ctx).isEmpty then s.opDone 0x0901 r.cid (0x10000 + ctx.toNat) 0 0 0 else s)

def execRecoverIsolate (path : Path) (s : State) : Out :=
  .next (s.recoverCmd path 2 fun r s =>
    let t := payF r.payload 4 2 0 10
    if (s.tile t).role ≠ .grid then s.refuse r 1 0xFFFF
    else if s.covered (t / 272) ∨ s.rcv.isolations.any (fun i => decide (i.tile = t)) then s.refuse r 2 0xFFFF
    else (s.isolate t true).accepted r (0x20000 + t))

def execRecoverHalf (path : Path) (s : State) : Out :=
  .next (s.recoverCmd path 3 fun r s =>
    let h := payF r.payload 6 1 0 1
    if s.covered h then s.refuse r 2 0xFFFF else (s.dueHalf h true).accepted r (0x30000 + h))

/-- ACTION 0x04: module recovery, and the exit from HALTED (R480). -/
def execRecoverModule (path : Path) (s : State) : Out :=
  .next (s.recoverCmd path 4 fun r s =>
    if s.rcv.st = .module ∨ s.rcv.pendingModule.isSome then s.refuse r 2 0xFFFF
    else (s.dueModule true).accepted r 0x40000)

def execRecoverHangLimit (path : Path) (s : State) : Out :=
  .next (s.recoverCmd path 5 fun r s =>
    let n := payF r.payload 8 2 0 11
    let s := s.modRcv fun x => { x with hangLimit := BitVec.ofNat 11 n }
    (s.accepted r 0x50000).opDone 0x0901 0 0x50000 0 0 0)

/-- The payload of RECOVERY_QUERY (R485); a tenant sees its own two counters at the last 100 ms boundary (R523). -/
def State.recoveryBytes (s : State) (tenant : Bool) (cid : Cid) : Bytes :=
  if tenant then
    let own := match s.slotOf cid with
      | some k => Tab.get (fun _ => []) s.itl.tenant k
      | none => []
    List.replicate 24 0 ++ toBytes 8 (own.getD 6 0) ++ toBytes 8 (own.getD 7 0)
  else
  let r := s.rcv
  let st := match r.st with
    | .normal => 0
    | .half => 1 + r.half * 4
    | .module => 2
    | .halted => 3
  let of := fun (t : Tab DWord) => if cid = 0 then 0 else match s.slotOf cid with
    | some k => (Tab.get (fun _ => (0 : DWord)) t k).toNat
    | none => 0
  toBytes 2 st ++ toBytes 2 r.hangLimit.toNat ++ toBytes 4 r.seq.toNat ++ toBytes 2 r.halfCount.toNat ++
  toBytes 2 r.moduleCount.toNat ++ toBytes 4 r.lastMs.toNat ++ toBytes 8 r.lastEpoch.toNat ++ toBytes 8 (of r.unavail) ++
  toBytes 8 (of r.lostModule)

def execRecoveryQuery (path : Path) (s : State) : Out :=
  .next (s.command path 0x0902 (fun p => reservedOk p []) fun r s => s.answer r (s.recoveryBytes (tenantReq r) r.cid))

end Sys2Proof.Machine
end

