-- ==== Sys2Proof/Machine/Rtp.lean ====
section
/-! DEFINITION. The SEC command (R493 to R504, R509 to R515, R522, R525, R526): key slots, life cycle, debug, roots; the
current keys of the engines (R529 to R531, R541, R542). -/

namespace Sys2Proof.Machine

/-! ### Keys in the engines -/

def State.modSlot (s : State) (k : Nat) (f : KeySlot → KeySlot) : State :=
  s.modRot fun r => { r with slots := Tab.insert r.slots k (f (s.keySlot k)) }

/-- The slot of a usage most recently written that still holds a key (R530); 0 for none. -/
def State.newest (s : State) (usage : BitVec 4) : Nat :=
  ((s.cry.order.reverse.find? fun k => (s.keySlot k).valid && !(s.keySlot k).bad && decide ((s.keySlot k).usage = usage))).getD 0

/-- STATE of a KID beside the current one (R541, R553). -/
def State.kidState (s : State) (cur k : Nat) : BitVec 3 :=
  if k = cur then 1 else if (s.kid k).users ≠ 0 then 2 else if (s.keySlot k).valid then 3 else 0

/-- Regions whose counters have run out move at once; then each pair's lowest region that is not under the current KID
(R539 to R541). -/
def State.movesStart (s : State) : State :=
  let worn := s.cry.regions.filter fun e =>
    decide (e.2.kid ≠ s.cry.curMem ∧ 2 ^ 46 - 2 ^ 24 ≤ e.2.wc.toNat) && !e.2.re && !s.keyless e.1
  let s := s.each worn fun s e => (s.regionMove e.1).modCry fun c => { c with exhaust := satInc c.exhaust }
  let s := s.each (List.range 192) fun s p => s.nextMove p
  let starved := s.cry.regions.any fun e => decide (e.2.kid = s.cry.curMem ∧ 2 ^ 46 - 2 ^ 24 ≤ e.2.wc.toNat)
  s.modCry fun c => { c with starved := starved }

/-- The current memory KID and the states of the others, reckoned again. -/
def State.reckonMem (s : State) : State :=
  let n := s.newest 1
  let cur := if n = 0 then 1 else n
  let changed := decide (BitVec.ofNat 6 cur ≠ s.cry.curMem)
  let s := s.modCry fun c => { c with curMem := BitVec.ofNat 6 cur }
  let ks := (1 :: (s.cry.kids.filter fun e => decide (e.2.usage = 1)).map (·.1)).eraseDups
  let s := s.each ks fun s k => s.modKid k fun x => { x with usage := 1, st := s.kidState cur k }
  if changed then s.movesStart.serveAll else s

/-- The current link key; a change is told on every active port (R548). -/
def State.reckonLink (s : State) : State :=
  let cur := s.newest 2
  let changed := decide (BitVec.ofNat 6 cur ≠ s.cry.curLink)
  let s := s.modCry fun c => { c with curLink := BitVec.ofNat 6 cur }
  let ks := (s.cry.kids.filter fun e => decide (e.2.usage = 2)).map (·.1)
  let s := s.each ks fun s k => s.modKid k fun x => { x with st := s.kidState cur k }
  let ports := (s.lnk.filter fun p => decide (p.2.st = .active)).map (·.1)
  if changed then s.each ports fun s p => s.sendKeyx p else s

/-- Whether an engine uses a slot now (R511). -/
def State.slotUsed (s : State) (k : Nat) : Bool :=
  decide ((s.kid k).st = 1 ∨ (s.kid k).st = 2 ∨ (s.kid k).users ≠ 0)

/-- Slots are erased and the engines drop their keys (R501, R511, R515, R542). -/
def State.eraseSlots (s : State) (ks : List Nat) : State :=
  let ks := ks.filter fun k => (Tab.find s.rot.slots k).isSome
  let s := s.modRot fun r => { r with slots := r.slots.filter fun e => !ks.contains e.1 }
  let s := s.modCry fun c => { c with
    loaded := c.loaded.filter (fun e => !ks.contains (e.1 % 64)), order := c.order.filter fun k => !ks.contains k }
  let s := s.each ks fun s k => s.modKid k fun x => { x with st := s.kidState 0 k }
  s.reckonMem.reckonLink

/-- A key is written (R511, R530, R531); one with the fingerprint last held restores the slot (R542). -/
def State.writeKey (s : State) (k : Nat) (usage : BitVec 4) (key : BitVec 256) : State :=
  let f := keyPrint key
  let restore := decide (Tab.find s.cry.prints k = some f)
  let s := s.modSlot k fun _ => { valid := true, usage := usage, key := key }
  let s := s.modCry fun c => { c with
    loaded := Tab.insert (Tab.insert c.loaded k true) (64 + k) true, prints := Tab.insert c.prints k f,
    order := if restore then (if c.order.contains k then c.order else k :: c.order)
      else c.order.filter (fun x => decide (x ≠ k)) ++ [k],
    aged := if restore then c.aged else Tab.erase c.aged k }
  let s := s.modKid k fun x => { x with usage := usage }
  if usage = 1 then s.reckonMem.serveAll else s.reckonLink

/-! ### The roots (R497, R498) -/

/-- The active production pair: the lowest valid slot that is not revoked. -/
def State.activeRoot (s : State) : Option Nat := (s.rot.otp.roots.find? fun e => !e.2.2).map (·.1)
/-- Whether the test root is in force. -/
def State.testRootOn (s : State) : Bool := decide (s.rot.lcNow ≠ 2) || s.rot.testroot
/-- The pair in force, as an image's ROOT names it: none where there is none. -/
def State.rootInForce (s : State) : Option Nat := if s.testRootOn then some 0xFF else s.activeRoot
/-- The active SITE slot (R496). -/
def State.activeSite (s : State) : Option Nat := (s.rot.otp.sites.map (·.1)).getLast?

/-! ### SEC -/

/-- Fields of a token at offset 8 of the payload (R509), by the KIND that the subcommand calls for. -/
def tokenFields (kind : Nat) : List (Nat × Nat × Nat) :=
  [(8, 0, 16), (0x10, 0, 64), (0x18, 0, 256), (0x138, 0, 1184), (0x208, 0, 768), (0x268, 0, 28256)] ++
  (if kind = 1 then [(0x38, 0, 2), (0x39, 0, 3), (0x48, 0, 1536)]
   else if kind = 2 then [(0x38, 0, 5), (0x3A, 0, 16)] else [(0x38, 0, 2)])

/-- Whether a DEBUG_OPEN carries a token. -/
def hasToken (p : Bytes) : Bool := decide (8 < p.length)

/-- A SEC payload (R525): its reserved bits and the ranges of its fields. -/
def secOk (p : Bytes) : Bool :=
  let sub := hdF p 0 1
  let fields := fun (l : List (Nat × Nat × Nat)) => reservedOk p ((0, 0, 8) :: l)
  if sub = 1 then fields [(4, 0, 6), (5, 0, 4), (8, 0, 256)]
  else if sub = 2 then fields [(4, 0, 6)]
  else if sub = 3 ∨ sub = 0x20 then fields []
  else if sub = 0x10 then
    fields (tokenFields 1) && decide (payF p 0x38 1 0 2 ≠ 2 ∨ (1 ≤ payF p 0x39 1 0 3 ∧ payF p 0x39 1 0 3 ≤ 4))
  else if sub = 0x21 then
    if hasToken p then fields (tokenFields 2) && decide (payF p 0x38 1 3 2 ≠ 3 ∧ hdF p 0x3A 2 ≠ 0) else fields []
  else if sub = 0x30 then fields (tokenFields 3)
  else if sub = 0x31 then fields [(8, 0, 384)]
  else false

/-- Run a SEC of one subcommand; one of another is left to its own command. -/
def State.secCmd (s : State) (path : Path) (sub : Nat) (f : ItlReq → State → State) : State :=
  match s.due path 0x0801 with
  | none => s
  | some r =>
    let a := hdF r.payload 0 1
    if [0x01, 0x02, 0x03, 0x10, 0x20, 0x21, 0x30, 0x31].contains a ∧ a ≠ sub then s
    else s.command path 0x0801 secOk fun r s =>
      -- R503: after a transition only KEY_STATUS is answered
      if s.rot.transitioned ∧ sub ≠ 3 then s.fail r 0x0204 else f r s

/-- A refusal of the RTP: counted (R526, R527). -/
def State.secRefuse (s : State) (r : ItlReq) (code : Nat) : State :=
  (s.modRot fun x => { x with err := x.err.refuse }).refuse r code 0xFFFF

/-- A subcommand without a response payload ends: IT_ACCEPTED, then OP_DONE (R392). -/
def State.secDone (s : State) (r : ItlReq) : State := (s.accepted r 0).opDone 0x0801 0 0 0 0 0

/-- The first failure of a token (R509, R525, R526); none where it authorises. -/
def State.tokenFails (s : State) (r : ItlReq) (kind : Nat) (auth : Bool) : Option State :=
  let p := r.payload
  let nonce : BitVec 256 := BitVec.ofNat 256 (hdF p 0x18 32)
  if hdF p 8 2 ≠ kind ∨ !auth then some (s.fail r 0x0300)
  else if s.rot.nonce ≠ some nonce then some (s.secRefuse r 3)
  else if hdF p 0x10 8 ≠ s.rot.otp.serial.toNat then some (s.secRefuse r 4)
  else none

/-- Whether a composition slot is bound. -/
def State.anyBound (s : State) : Bool := s.brd.sh.act.slots.any fun e => e.2.1

/-- The next draw of the DRBG (R493). -/
def State.draw (s : State) : BitVec 256 × State := (Config.random s.rot.draws, s.modRot fun r => { r with draws := r.draws + 1 })

/-! ### Key slots -/

def execKeyWrite (path : Path) (s : State) : Out :=
  .next (s.secCmd path 1 fun r s =>
    let k := payF r.payload 4 1 0 6
    let u : BitVec 4 := BitVec.ofNat 4 (payF r.payload 5 1 0 4)
    let key : BitVec 256 := BitVec.ofNat 256 (hdF r.payload 8 32)
    let restore := decide (Tab.find s.cry.prints k = some (keyPrint key) ∧ (s.kid k).usage = u)
    if s.rot.lcNow = 0 ∨ s.rot.lcNow = 3 then s.fail r 0x0204
    else if k < 8 ∨ (u ≠ 1 ∧ u ≠ 2) then s.secRefuse r 5
    else if s.rot.testroot then s.secRefuse r 7
    else if s.slotUsed k ∧ !restore then s.secRefuse r 8
    else (s.writeKey k u key).secDone r)

def execKeyErase (path : Path) (s : State) : Out :=
  .next (s.secCmd path 2 fun r s =>
    let k := payF r.payload 4 1 0 6
    let ks := if k = 63 then (List.range 56).map (· + 8) else [k]
    if s.rot.lcNow = 0 ∨ s.rot.lcNow = 3 then s.fail r 0x0204
    else if k < 8 then s.secRefuse r 5
    else if ks.any s.slotUsed then s.secRefuse r 8
    else (s.eraseSlots ks).secDone r)

/-- Slots whose check fails (R512): 8 to 63 become BAD, 0 and 1 are derived again; each is recorded. -/
def State.badSlots (s : State) (bad : BitVec 64) : State :=
  let ks := (List.range 64).filter fun k => bad.getLsbD k && (s.keySlot k).valid && !(s.keySlot k).bad
  s.each ks fun s k =>
    let s := if 8 ≤ k then s.modSlot k fun x => { x with bad := true } else s
    (s.log 9 0xFFFF 0 (toBytes 4 k)).pulse 896

/-- KEY_STATUS's response (R525). -/
def State.slotBytes (s : State) : Bytes :=
  let mask := fun (f : KeySlot → Bool) => ((List.range 64).map fun k => if f (s.keySlot k) then 2 ^ k else 0).sum
  toBytes 8 (mask (·.valid)) ++ toBytes 8 (mask (·.bad)) ++ (List.range 64).map fun k => (s.keySlot k).usage.setWidth 8

def execKeyStatus (path : Path) (bad : BitVec 64) (s : State) : Out :=
  .next (s.secCmd path 3 fun r s =>
    let s := s.badSlots bad
    s.answer r s.slotBytes)

/-! ### Life cycle -/

/-- The last phase of a transition (R501): it governs from the next power-up (R503). -/
def State.transit (s : State) (target : Nat) (fuses : BitVec 6) : State :=
  let s := s.modRot fun x => { x with
    otp := { x.otp with lc := x.otp.lc ||| fuses }, transitioned := true, pending := true, nonce := none }
  (s.log 0x0A 0xFFFF 0 (toBytes 1 (target + 16))).pulse 902

/-- R501, R502: the checks, phase 1, what lies between, phase 2. -/
def execLcTransition (path : Path) (auth : Bool) (holdup : BitVec 16) (s : State) : Out :=
  .next (s.secCmd path 0x10 fun r s =>
    let p := r.payload
    let target := payF p 0x38 1 0 2
    let n := payF p 0x39 1 0 3
    let s := s.modRot fun x => { x with holdupMs := holdup }
    let ok := decide ((target = 1 ∧ s.rot.lcNow = 0) ∨ (target = 2 ∧ s.rot.lcNow = 1) ∨ (target = 3 ∧ s.rot.lcNow = 2))
    match s.tokenFails r 1 auth with
    | some t => t
    | none =>
      if !ok then s.secRefuse r 9
      else if target ≠ 1 ∧ s.anyBound then s.secRefuse r 2
      else if holdup.toNat < 40 ∨ s.pwr.vin.toNat < 40000 ∨ 60000 < s.pwr.vin.toNat then s.secRefuse r 1
      else if target = 1 then (s.transit 1 0x03).secDone r
      else
        let s := s.eraseSlots ((List.range 56).map (· + 8))
        if target = 2 then
          let roots := (List.range n).map fun i => (i, (BitVec.ofNat 384 (hdF p (0x48 + 48 * i) 48), false))
          let d := s.rot.draws
          let s := (s.draw.2).modRot fun x => { x with otp := { x.otp with roots := roots, udsP := true, udsDraw := d } }
          (s.transit 2 0x0C).secDone r
        else ((s.modRot fun x => { x with otp := { x.otp with udsKill := true } }).transit 3 0x30).secDone r)

/-! ### Nonces and debug -/

/-- R509: a fresh nonce; the one before expires. -/
def execChallengeCmd (path : Path) (s : State) : Out :=
  .next (s.secCmd path 0x20 fun r s =>
    let d := s.draw
    (d.2.modRot fun x => { x with nonce := some d.1 }).answer r (toBytes 32 d.1.toNat))

def execNonceExpiry (s : State) : Out := .next (s.modRot fun x => { x with nonce := none })

/-- The keys of slots 0 and 1 under a label (R510, R515). -/
def State.deriveBuiltIn (s : State) (debug : Bool) : State :=
  let o := s.rot.otp
  let key := fun n => Config.derive s.rot.lcNow.toNat o.serial.toNat o.udsDraw n debug
  (s.modSlot 0 fun _ => { valid := true, usage := 4, key := key 0 }).modSlot 1 fun _ => { valid := true, usage := 1, key := key 1 }

/-- Every SRAM line that is not zero reads as uncorrectable under the slot 0 key that comes (R545): its ICV is of the
one that goes. -/
def State.staleSram (s : State) : State :=
  let base := sramKey 0 0
  let ls := ((s.mem.filter fun c => decide (base ≤ c.1)).map fun c => (c.1 - base) / 64).eraseDups
  s.each ls fun s l =>
    let v := s.lineIcv (l / 2 ^ 19) (l % 2 ^ 19 * 64)
    s.modSrm (l / 2 ^ 19) fun x => { x with staleIcv := Tab.insert x.staleIcv (l % 2 ^ 19) v }

/-- R515 steps 2 and 3: production keys are gone before debug opens. -/
def State.debugErase (s : State) : State :=
  let s := s.eraseSlots ((List.range 56).map (· + 8))
  let s := s.modCry fun c => { c with gen1 := c.gen1 + 1 }
  let s := s.staleSram.deriveBuiltIn true
  s.modRot fun x => { x with testroot := true }

/-- A grant opens (R514). -/
def State.grant (s : State) (rights : BitVec 3) (scope : BitVec 2) (left : BitVec 16) : State :=
  let s := s.modRot fun x => { x with debugOpen := true, debugRights := rights, debugScope := scope, debugLeft := left, nonce := none }
  (s.log 0x0A 0xFFFF 0 (toBytes 1 0xF)).pulse 901

def execDebugOpen (path : Path) (auth : Bool) (s : State) : Out :=
  .next (s.secCmd path 0x21 fun r s =>
    let p := r.payload
    if s.rot.lcNow = 0 ∨ s.rot.lcNow = 3 then (s.grant 7 2 0xFFFF).secDone r
    else if !hasToken p then s.fail r 0x0300
    else match s.tokenFails r 2 auth with
      | some t => t
      | none =>
        let open_ := fun (s : State) =>
          (s.grant (BitVec.ofNat 3 (payF p 0x38 1 0 3)) (BitVec.ofNat 2 (payF p 0x38 1 3 2)) (BitVec.ofNat 16 (hdF p 0x3A 2))).secDone r
        if s.rot.lcNow = 1 then open_ s
        else if s.anyBound then s.secRefuse r 2
        else open_ s.debugErase)

/-- R514: LEFT has reached zero. -/
def execDebugGrantExpiry (s : State) : Out :=
  let r := s.rot
  if r.debugOpen ∧ r.debugLeft = 0 then .next (s.modRot fun x => { x with debugOpen := false, debugRights := 0 })
  else .next s

/-! ### Roots -/

/-- R498. -/
def execRootRevoke (path : Path) (auth : Bool) (s : State) : Out :=
  .next (s.secCmd path 0x30 fun r s =>
    let n := payF r.payload 0x38 1 0 2
    let ok := match Tab.find s.rot.otp.roots n, s.activeRoot with
      | some e, some a => decide (a < n) && !e.2
      | _, _ => false
    match s.tokenFails r 3 auth with
    | some t => t
    | none =>
      if !ok then s.secRefuse r 9
      else
        let roots := s.rot.otp.roots.map fun e => if e.1 < n then (e.1, (e.2.1, true)) else e
        (s.modRot fun x => { x with otp := { x.otp with roots := roots }, nonce := none }).secDone r)

/-- R522: the next SITE slot is burned. -/
def execSiteRoot (path : Path) (s : State) : Out :=
  .next (s.secCmd path 0x31 fun r s =>
    let h : BitVec 384 := BitVec.ofNat 384 (hdF r.payload 8 48)
    let n := s.rot.otp.sites.length
    if 8 ≤ n then s.secRefuse r 6
    else (s.modRot fun x => { x with otp := { x.otp with sites := x.otp.sites ++ [(n, h)] } }).secDone r)

end Sys2Proof.Machine
end

