-- ==== Sys2Proof/Machine/Spdm.lean ====
section
/-! DEFINITION. SPDM at the root of trust (R517 to R522): negotiation, certificates, signed responses and their HSS
signatures, measurements, secured sessions. -/

namespace Sys2Proof.Machine

/-- Whether SPDM reaches the RTP on a path (R519): DOE of a physical function, MCTP. -/
def spdmPath : Path → Bool
  | .mailbox _ f => decide (f.val = 0)
  | .mctp _ => true
  | _ => false

def State.conn (s : State) (p : Path) : Conn := (s.rot.conns.find? fun c => decide (c.path = p)).getD { path := p }
def State.setConn (s : State) (c : Conn) : State :=
  s.modRot fun r => { r with conns := (r.conns.filter fun x => decide (x.path ≠ c.path)) ++ [c] }

/-- Whether the RTP runs and answers. -/
def State.rtpUp (s : State) : Bool := decide (s.boot.power ≠ .off)

/-- Answer a request on a path; `step` is the negotiation step that it calls for (DSP0274; log entry 38). -/
def State.spdm (s : State) (p : Path) (step : Nat) (f : Conn → State → SpdmRsp × State) : State :=
  if !s.rtpUp || !spdmPath p then s
  else
    let c := s.conn p
    if c.step < step then s.emit (.spdm p (.error .unexpectedRequest))
    else
      let r := f c s
      r.2.emit (.spdm p r.1)

/-- A negotiation request moves the connection on. -/
def State.negotiate (s : State) (p : Path) (step : Nat) (rsp : SpdmRsp) : State :=
  s.spdm p step fun c s => (rsp, s.setConn { c with step := max c.step (step + 1) })

/-- GET_VERSION resets the connection: its HSS signatures and its sessions go. -/
def execGetVersion (p : Path) (s : State) : Out :=
  .next (s.spdm p 0 fun _ s =>
    let s := s.setConn { path := p, step := 1 }
    (.version, s.modRot fun r => { r with sessions := r.sessions.filter fun x => decide (x.path ≠ p) }))
def execGetCapabilities (p : Path) (s : State) : Out := .next (s.negotiate p 1 .capabilities)
def execNegotiateAlgorithms (p : Path) (s : State) : Out := .next (s.negotiate p 2 .algorithms)

/-! ### Certificates -/

/-- Whether the life-cycle state has an identity (R500). -/
def State.hasIdentity (s : State) : Bool := decide (s.rot.lcNow = 1 ∨ s.rot.lcNow = 2)
/-- The certificate chain of slot 0 (R518). -/
def State.chain (s : State) : Bytes := Config.certChain s.identity s.flog.pcycle.toNat

def execGetDigests (p : Path) (s : State) : Out :=
  .next (s.spdm p 3 fun _ s => if s.hasIdentity then (.digests (Config.digest s.chain), s) else (.error .invalidRequest, s))
def execGetCertificate (p : Path) (slot offset length : Nat) (s : State) : Out :=
  .next (s.spdm p 3 fun _ s =>
    let b := s.chain
    if slot ≠ 0 ∨ !s.hasIdentity ∨ b.length ≤ offset then (.error .invalidRequest, s)
    else
      let part := (b.drop offset).take length
      (.certificate part (b.length - offset - part.length), s))

/-! ### Signed responses (R517, R520) -/

/-- A signed response: the next SIG_ID of the connection, whose HSS signature is kept among the last 16. -/
def State.spdmSigned (s : State) (c : Conn) (data : Bytes) (k : Nat → Bytes → State → SpdmRsp × State) : SpdmRsp × State :=
  let id := c.nextSig
  match s.signDual (toBytes 48 (Config.transcript data id s.rot.draws).toNat) with
  | none => (.error .responseNotReady, s)
  | some r =>
    let kept := c.sigs ++ [(id, r.1.2)]
    let s := r.2.setConn { c with nextSig := (id + 1) % 2 ^ 32, sigs := kept.drop (kept.length - 16) }
    k id r.1.1 s

def execSpdmChallenge (p : Path) (slot : Nat) (nonce : Bytes) (s : State) : Out :=
  .next (s.spdm p 3 fun c s =>
    if slot ≠ 0 then (.error .invalidRequest, s)
    else s.spdmSigned c nonce fun id sig s => (.challengeAuth id sig, s))

/-- A slot number in measurement 4; 0xFF where none is active. -/
def slotByte (n : Option Nat) : Byte := BitVec.ofNat 8 (n.getD 0xFF)

/-- The measurement of an index (R521). -/
def State.measurement (s : State) (i : Nat) : Bytes :=
  let r := s.rot
  if i = 1 then toBytes 48 Config.romDigest.toNat
  else if i = 2 then toBytes 48 r.rtpMeas.toNat
  else if i = 3 then toBytes 48 r.itlMeas.toNat
  else if i = 4 then
    fitTo 16 [r.lcNow.setWidth 8, if r.torn then 1 else 0, if r.testroot then 1 else 0, if r.debugOpen then 1 else 0,
      slotByte s.activeRoot, slotByte s.activeSite]
  else toBytes 48 (Config.digest (toBytes 4 r.otp.svnRtp ++ toBytes 4 r.otp.svnItl ++ toBytes 4 r.otp.trees)).toNat

def execGetMeasurements (p : Path) (index : Nat) (signed : Bool) (nonce : Bytes) (s : State) : Out :=
  .next (s.spdm p 3 fun c s =>
    let all := [1, 2, 3, 4, 5]
    let blocks := fun (l : List Nat) => l.map fun i => (i, s.measurement i)
    let go := fun (b : List (Nat × Bytes)) =>
      if signed then s.spdmSigned c (nonce ++ b.flatMap (·.2)) fun id sig s => (.measurements b (some id) sig, s)
      else (.measurements b none [], s)
    if index = 0 then go [(0, [5])]
    else if index = 0xFF then go (blocks all)
    else if all.contains index then go (blocks [index])
    else (.error .invalidRequest, s))

/-- R520: the kept HSS signature of a SIG_ID. -/
def execVendorDefinedRequest (p : Path) (sigId : Word) (s : State) : Out :=
  .next (s.spdm p 3 fun c s =>
    match c.sigs.find? fun x => decide (x.1 = sigId.toNat) with
    | some x => (.hssSignature x.2, s)
    | none => (.error .invalidRequest, s))

/-! ### Secured sessions (R519, R522) -/

/-- Sessions that sent no heartbeat are gone. -/
def State.expireSessions (s : State) : State := let l := s.liveSessions; s.modRot fun r => { r with sessions := l }
def State.session (s : State) (p : Path) (id : Nat) : Option Session :=
  s.rot.sessions.find? fun x => decide (x.path = p ∧ x.id = id)
def State.modSession (s : State) (p : Path) (id : Nat) (f : Session → Session) : State :=
  s.modRot fun r => { r with sessions := r.sessions.map fun x => if x.path = p ∧ x.id = id then f x else x }
def State.dropSession (s : State) (p : Path) (id : Nat) : State :=
  s.modRot fun r => { r with sessions := r.sessions.filter fun x => !decide (x.path = p ∧ x.id = id) }

/-- A ninth KEY_EXCHANGE is answered Busy. -/
def execKeyExchange (p : Path) (slot : Nat) (data : Bytes) (s : State) : Out :=
  .next (s.spdm p 3 fun c s =>
    let s := s.expireSessions
    if slot ≠ 0 then (.error .invalidRequest, s)
    else if 8 ≤ s.rot.sessions.length then (.error .busy, s)
    else s.spdmSigned c data fun id sig s =>
      let n := ((List.range 9).find? fun i => decide (i ≠ 0) && s.rot.sessions.all fun x => decide (x.id ≠ i)).getD 1
      let x : Session := { id := n, path := p, lastAt := s.boot.refTime }
      (.keyExchange n id sig, s.modRot fun r => { r with sessions := r.sessions ++ [x] }))

/-- FINISH: with mutual authentication under the active SITE slot the session is the site operator's. -/
def execFinishMsg (p : Path) (id : Nat) (ok : Bool) (key : Option (BitVec 384)) (s : State) : Out :=
  .next (s.spdm p 3 fun _ s =>
    let s := s.expireSessions
    match s.session p id with
    | none => (.error .invalidRequest, s)
    | some x =>
      if x.finished then (.error .unexpectedRequest, s)
      else if !ok then (.error .invalidRequest, s.dropSession p id)
      else
        let root := s.activeSite.bind fun n => Tab.find s.rot.otp.sites n
        let site := key.isSome && decide (key = root)
        let at_ := s.boot.refTime
        (.finish id, s.modSession p id fun x => { x with finished := true, site := site, lastAt := at_ }))

/-- A request within a finished session. -/
def State.inSession (s : State) (p : Path) (id : Nat) (f : State → SpdmRsp × State) : State :=
  s.spdm p 3 fun _ s =>
    let s := s.expireSessions
    if (s.session p id).any (·.finished) then f s else (.error .invalidRequest, s)

def execHeartbeat (p : Path) (id : Nat) (s : State) : Out :=
  .next (s.inSession p id fun s =>
    let at_ := s.boot.refTime
    (.heartbeat id, s.modSession p id fun x => { x with lastAt := at_ }))
def execKeyUpdate (p : Path) (id : Nat) (s : State) : Out :=
  .next (s.inSession p id fun s => (.keyUpdate id, s.modSession p id fun x => { x with updates := x.updates + 1 }))
def execEndSession (p : Path) (id : Nat) (s : State) : Out :=
  .next (s.inSession p id fun s => (.endSession id, s.dropSession p id))

end Sys2Proof.Machine
end

