-- ==== Sys2Proof/Machine/Bringup.lean ====
section
/-! DEFINITION. Firmware images (R505 to R508, R574), the settings store (R575, R576), and power-up from the first image
to the training of the halves (R571, R577 to R582). -/

namespace Sys2Proof.Machine

/-! ### Firmware images (R505, R506) -/

def State.modFwBank (s : State) (b : Bool) (f : FwImage → FwImage) : State :=
  s.modItl fun i => { i with banks := Tab.insert i.banks (if b then 1 else 0) (f (s.fwBank b)) }

/-- The `n`-byte field at an offset of a bank; an erased byte reads 0xFF. -/
def FwImage.f (x : FwImage) (o n : Nat) : Nat := leNat ((List.range n).map fun i => Tab.get (fun _ => (0xFF : Byte)) x.bytes (o + i))

/-- What a header says: ROOT, FW_VERSION, SVN, BODY_LENGTH. -/
structure FwHeader where
  root : Nat
  version : Nat
  svn : Nat
  body : Nat
deriving DecidableEq, Repr

/-- Step 1 of R506 on the image at an offset. -/
def FwImage.header (x : FwImage) (o kind : Nat) : Option FwHeader :=
  if x.f o 4 = 0x57464841 ∧ x.f (o + 4) 2 = 1 ∧ x.f (o + 6) 1 = kind ∧ x.f (o + 0xC) 4 ≤ 255 ∧
      x.f (o + 0xDC) 36 = 0 ∧ x.f (o + 0xF2C) 212 = 0 then
    some ⟨x.f (o + 7) 1, x.f (o + 8) 4, x.f (o + 0xC) 4, x.f (o + 0x10) 8⟩
  else none

/-- The headers of a bank's RTP image and its Itlum image, at the next 64 KiB boundary (R505). The bytes of the shipped
release are not written out; its fields are recorded. -/
def FwImage.headers (x : FwImage) (root : Nat) : Option (FwHeader × FwHeader) :=
  if x.bytes.isEmpty then
    if x.present then some (⟨root, x.rtpVersion.toNat, x.svnRtp, 0⟩, ⟨root, x.version.toNat, x.svn, 0⟩) else none
  else
    match x.header 0 1 with
    | none => none
    | some r =>
      let o := (0x1000 + r.body + 0xFFFF) / 65536 * 65536
      (x.header o 2).map fun i => (r, i)

/-- R506 on a bank: IT_OK, IT_AUTH or IT_ROLLBACK, and the bank with what its headers say. -/
def State.verifyBank (s : State) (b : Bool) (v : VerifyFact) : Nat × FwImage :=
  let x := s.fwBank b
  match s.rootInForce with
  | none => (0x300, x)
  | some root =>
    match x.headers root with
    | none => (0x300, x)
    | some (r, i) =>
      if r.root ≠ root ∨ i.root ≠ root ∨ !v.rtpSig ∨ !v.itlSig then (0x300, x)
      else if !s.testRootOn ∧ (r.svn < s.rot.otp.svnRtp ∨ i.svn < s.rot.otp.svnItl) then (0x301, x)
      else (0, { x with version := BitVec.ofNat 32 i.version, rtpVersion := BitVec.ofNat 32 r.version, svn := i.svn,
                        svnRtp := r.svn, good := true })

/-- A measurement of a bank's image: what its header says and its bytes (R521; log entry 13). -/
def FwImage.measure (x : FwImage) (itl bank : Bool) : BitVec 384 :=
  Config.digest ([if itl then 2 else 1, if bank then 1 else 0] ++ toBytes 4 x.version.toNat ++ toBytes 4 x.rtpVersion.toNat ++
    x.bytes.map (·.2))

/-- The Itlum image of a bank runs (R404, R521, R528). -/
def State.runItlum (s : State) (b : Bool) : State :=
  let x := s.fwBank b
  (s.modItl fun i => { i with fwUse := b }).modRot fun r => { r with runItl := BitVec.ofNat 16 x.svn, itlMeas := x.measure true b }

/-- The floors advance to the confirmed bank's versions; a floor never falls (R508). -/
def State.raiseFloors (s : State) : State :=
  if s.testRootOn then s else
    let x := s.fwBank s.itl.fwConfirmed
    s.modRot fun r => { r with otp := { r.otp with svnRtp := max r.otp.svnRtp x.svnRtp, svnItl := max r.otp.svnItl x.svn } }

/-! ### The settings store (R575) -/

def State.settingsCopy (s : State) (k : Nat) : Settings := Tab.get (fun _ => {}) s.boot.settings k

/-- The copy that holds the newer valid record. -/
def State.newerCopy (s : State) : Option Nat :=
  let a := s.settingsCopy 0
  let b := s.settingsCopy 1
  if a.valid ∧ b.valid then
    let d := (b.seq - a.seq).toNat
    some (if 1 ≤ d ∧ d ≤ 2 ^ 31 then 1 else 0)
  else if a.valid then some 0
  else if b.valid then some 1
  else none

/-- A new record in the copy that does not hold the newer one; the floors then follow the bank it names (R508). -/
def State.writeSettings (s : State) : State :=
  let k := if s.newerCopy = some 0 then 1 else 0
  let seq := match s.newerCopy with
    | some c => (s.settingsCopy c).seq + 1
    | none => 0
  let x : Settings := { valid := true, seq := seq, confirmed := s.itl.fwConfirmed, cad := s.cad.sh.act, pwr := s.pwr.sh.act }
  (s.modBoot fun b => { b with settings := Tab.insert b.settings k x, settingsDone := true, settingsDue := false }).raiseFloors

/-- Settings are kept: at most one write in a cadence period (R491). -/
def State.storeSettings (s : State) : State :=
  if s.boot.settingsDone then s.modBoot fun b => { b with settingsDue := true } else s.writeSettings

/-- A period ends: a write that waited is made. -/
def State.settingsPeriod (s : State) : State :=
  let s := s.modBoot fun b => { b with settingsDone := false }
  s.when s.boot.settingsDue fun s => s.writeSettings

/-! ### What power-up keeps -/

/-- The log's sectors at power-up: one whose program or erase failed may be used again (R571). -/
def logSectors (l : Flog) : Tab Sector := l.sectors.map fun e => (e.1, { e.2 with failed := false })

/-- Everything at reset but what lives in fuses and flash, and what is no part of the module (R587): the queue, the
outbox, the count of free values, the levels of PERST#. -/
def State.dark (s : State) : State :=
  { State.reset with
    pending := s.pending, out := s.out, fresh := s.fresh,
    hst := { State.reset.hst with ports := s.hst.ports.map fun p => (p.1, ({ perst := p.2.perst } : HPort)) },
    itl := { State.reset.itl with banks := s.itl.banks, fwSt := if s.itl.fwSt = .trial then .trial else .idle },
    rot := { State.reset.rot with otp := s.rot.otp },
    flog := { State.reset.flog with sectors := logSectors s.flog },
    boot := { State.reset.boot with part := s.boot.part, settings := s.boot.settings } }

/-! ### The life cycle and the log at power-up -/

/-- The state and TORN that the LC fuses spell (R499). -/
def lifeCycle (lc : BitVec 6) : BitVec 2 × Bool :=
  if bit lc 4 ∧ bit lc 5 then (3, false)
  else if bit lc 4 then (3, true)
  else if bit lc 2 ∧ !bit lc 3 then (3, true)
  else if bit lc 3 then (2, false)
  else if bit lc 1 then (1, false)
  else (0, false)

/-- Steps 2 and 3 of R579 at the RTP: the life cycle, slots 0 and 1, a signing tree begun (R499, R510, R516, R529). -/
def State.rtpBoot (s : State) : State :=
  let l := lifeCycle s.rot.otp.lc
  let signs := decide (l.1 = 1 ∨ l.1 = 2)
  let s := s.modRot fun r => { r with
    lcNow := l.1, torn := l.2, exhausted := decide (4096 ≤ r.otp.trees), aliasDue := signs,
    generating := signs && decide (r.otp.trees < 4096), tree := BitVec.ofNat 12 r.otp.trees,
    otp := { r.otp with trees := if signs ∧ r.otp.trees < 4096 then r.otp.trees + 1 else r.otp.trees } }
  let s := s.deriveBuiltIn false
  s.modCry fun c => { c with kids := [(1, { st := 1, usage := 1, users := BitVec.ofNat 25 (192 * s.regionCount) })] }

/-- A record whose CRC is right (R569, R571). -/
def recordGood (b : Bytes) : Bool := decide (b.length = 64 ∧ crc32c (b.take 60) = hdF b 60 4)

/-- R571: SEQ, PCYCLE and OPSEC go on from the records in flash. Answers the last valid SEQ. -/
def State.scanLog (s : State) : Nat × State :=
  let rs := (s.flog.sectors.flatMap fun e => e.2.slots).filter recordGood
  let top := fun (f : Bytes → Nat) => rs.foldl (fun m b => max m (f b)) 0
  let last := top fun b => hdF b 0 4
  let newest := fun (x : Sector) => x.slots.foldl (fun m b => if recordGood b then max m (hdF b 0 4 + 1) else m) 0
  let later := fun (a : Nat × Nat) (e : Nat × Sector) => if e.1 ≠ 0 ∧ a.2 < newest e.2 then (e.1, newest e.2) else a
  (last, s.modFlog fun l => { l with
    writing := (l.sectors.foldl later (0, 0)).1,
    next := if rs.isEmpty then 0 else BitVec.ofNat 32 (last + 1),
    pcycle := BitVec.ofNat 32 (top (fun b => hdF b 0x10 4) + 1), opsec := BitVec.ofNat 40 (top fun b => hdF b 8 5) })

/-- A FIRMWARE record and its event (R409, R570). -/
def State.fwRecord (s : State) (kind : Nat) (b : Bool) : State :=
  (s.log 8 0xFFFF 0 (toBytes 4 kind ++ toBytes 4 (s.fwBank b).version.toNat)).pulse 855

/-! ### Power-up (R579) -/

/-- The bank that passes first (R576); none where neither does. -/
def State.chooseBank (s : State) (fact : BootFact) : Option (Bool × FwImage × Bool) :=
  let c := match s.newerCopy with
    | some k => (s.settingsCopy k).confirmed
    | none => false
  let try_ := fun (b : Bool) => s.verifyBank b (if b then fact.bankB else fact.bankA)
  if (try_ c).1 = 0 then some (c, (try_ c).2, false)
  else if (try_ !c).1 = 0 then some (!c, (try_ !c).2, true)
  else none

/-- Step 5: the settings of the newer record, or the reset values, commit. -/
def State.bootSettings (s : State) : State :=
  let x : Settings := match s.newerCopy with
    | some k => s.settingsCopy k
    | none => {}
  let cap := 16 * x.pwr.cap.toNat
  let s := s.modCad fun c => { c with
    sh := .of x.cad, periodNs := BitVec.ofNat 30 (1000000000000 / max x.cad.nominal.toNat 1) }
  s.modPwr fun p => { p with sh := .of x.pwr, capEff := cap, ceil := cap }

/-- Every group that holds an assigned source keeps Zesin core 0 in its CMASK (R564; log entry 39). -/
def bootGroups : Tab Grp :=
  ((List.range 64).filter fun g => (List.range 16).any fun i => assigned (g * 16 + i)).map fun g => (g, { cmask := 1 })

/-- A tile after step 6: shell powered, core clamped and gated. The cores of `half` are ungated at step 8. -/
def bootTile (half : Nat) (t : Nat) : Tile :=
  let x := Tile.reset t
  if t / 272 = half ∧ x.role = .grid then { x with gate := false, clamp := false, powered := true, clamped := false } else x

/-- Steps 6 to 8: rails at the voltage of 1.65 GHz, pairs, fabric ports and host ports begin training, the west half's
cores are ungated. Both check areas are stale until their recompute (R178, R584). -/
def State.bootHalves (s : State) : State :=
  let s := { s with tiles := allTiles.map fun t => (t, bootTile 0 t) }
  let s := s.modLp fun m => { m with
    pairs := (List.range 192).map fun p => (p, ({ st := .training } : Pair)), stale := [(0, true), (1, true)] }
  let s := { s with lnk := (List.range 48).map fun p => (p, ({ st := .openCircuit, step := 1 } : LinkPort)) }
  let s := s.modPwr fun p => { p with clk := 8, figs := [(0, 8)], volts := [(0, { target := 8 }), (1, { target := 8 })] }
  s.modBoot fun b => { b with power := .sequencing, step := 8 }

/-- PCIe ports train (R325, R577). -/
def State.bootHost (s : State) : State :=
  s.each [0, 1] fun s h => s.modHPort h fun p => { p with st := if p.perst then .down else .training }

/-- R577: the loader state. -/
def State.loaderState (s : State) : State := (s.bootHost).modBoot fun b => { b with power := .loader, step := 5 }

/-- The POWER_UP record (R570). -/
def State.powerUpRecord (s : State) (last : Nat) : State :=
  let r := s.rot
  let bits := r.lcNow.toNat + (if r.torn then 4 else 0) + (if s.itl.fwUse then 8 else 0)
  s.log 1 0xFFFF 0 (toBytes 4 bits ++ toBytes 4 (s.fwBank s.itl.fwUse).version.toNat ++ toBytes 4 r.rtpVersion.toNat ++ toBytes 4 last)

/-- Steps 4 and 5 with the bank that passed: its images run, the log is scanned, Itlum serves. -/
def State.bootItlum (s : State) (b : Bool) (x : FwImage) (other trial : Bool) : State :=
  let s := s.modFwBank b fun _ => x
  let s := s.modItl fun i => { i with fwConfirmed := b, fwSt := if trial then .reverted else .idle, avail := true }
  let s := s.runItlum b
  let s := s.modRot fun r => { r with rtpVersion := x.rtpVersion, runRtp := BitVec.ofNat 16 x.svnRtp, rtpMeas := x.measure false b }
  let s := s.raiseFloors
  let s := s.modEvt fun e => { e with clockOn := true, grps := bootGroups }
  let l := s.scanLog
  let s := l.2.bootSettings.powerUpRecord l.1
  let s := s.when (other || trial) fun s => s.fwRecord 2 b
  s.when other fun s => s.writeSettings

/-- Power-up from step 2 of R579 on. -/
def State.powerUp (s : State) (fact : BootFact) : State :=
  let trial := decide (s.itl.fwSt = .trial)
  let s := (s.dark.modBoot fun b => { b with strap := fact.straps }).rtpBoot
  let s := s.modItl fun i => { i with fwSt := .idle }
  match s.chooseBank fact with
  | none => s.loaderState
  | some c => (s.bootItlum c.1 c.2.1 c.2.2 trial).bootHost.bootHalves

/-- R578: the input has been valid for 10 ms, with MATE_N low. -/
def execInputValid (fact : BootFact) (s : State) : Out :=
  if s.boot.power = .off then .next (s.powerUp fact) else .next s

/-- R588: a release of MRST_N. A low longer than 100 ms counts as a short. -/
def execMrstRelease (lowUs : Nat) (fact : BootFact) (s : State) : Out :=
  if s.boot.power = .off ∨ lowUs < 1000 then .next s
  else if 100000 < lowUs then .next (s.modBoot fun b => { b with mrstShorts := b.mrstShorts + 1 })
  else .next (s.powerUp fact)

/-! ### Self-test and training -/

def State.selfTest (s : State) (t : Nat) : SelfTest := Tab.get (fun _ => {}) s.boot.tests t
def State.modTest (s : State) (t : Nat) (f : SelfTest → SelfTest) : State :=
  s.modBoot fun b => { b with tests := Tab.insert b.tests t (f (s.selfTest t)) }

/-- Whether a half's cores are ungated. -/
def State.coresOn (s : State) (h : Nat) : Bool := (halfTiles h).any fun t => decide ((s.tile t).role = .grid) && !(s.tile t).gate

/-- Whether a self-test runs on a tile (R56, R579, R581, R586). -/
def State.testDue (s : State) (t : Nat) (k : TestKind) : Bool :=
  let x := s.tile t
  let r := s.selfTest t
  let up := decide (s.boot.power = .sequencing ∨ s.boot.power = .early)
  up && match k with
    | .shell => decide (x.role ≠ .retired ∧ x.role ≠ .notProduced) && r.shell.isNone
    | .bf16 => decide (x.role = .grid) && !x.gate && decide (r.shell = some true) && r.bf16.isNone
    | .narrow => decide (x.role = .grid) && !x.gate && decide (r.bf16 = some true) && r.narrow.isNone

/-- The bare TIL_NBR commit of bring-up (R22, R581): the row's skip `k` moves to the failed tile `t`, with no copy and no
change of BRD_SRAM_REDIR. The former skip's core takes the power, clamp and gate of the core that leaves. -/
def State.moveSkip (s : State) (t k : Nat) : State :=
  let x : RowShift := { half := t / 272, row := t % 272 / 17, failed := t, skip := k }
  let left := s.tile t
  let s := (s.rolesAfter x).modTile t Tile.retire
  let s := s.modTile k fun d => { d with
    clamp := left.clamp, gate := left.gate, powered := left.powered, clamped := left.clamped, narrow := left.narrow }
  (s.rowNbr x.half x.row).each (t :: (shiftPairs t k).map (·.2)) fun s u => s.tileSignal u

/-- A tile fails its self-test (R22, R242, R581). During bring-up, before any composition can be bound, it is retired and
the row's skip moves to it, or it is a hole where the skip is taken. Once the module serves, only a bridle change may
bind a spare: the tile is isolated (R74); one whose core is gated still leaves its row at once. -/
def State.testFail (s : State) (t : Nat) : State :=
  let half := t / 272
  let row := t % 272 / 17
  if (s.tile t).role = .spare then s.modTile t Tile.retire
  else if s.boot.power ≠ .sequencing then
    if (s.tile t).gate then s.leaveRow t false else s.isolate t false
  else match s.rowSpare half row with
    | none => (s.makeHole t).rowNbr half row
    | some k => s.moveSkip t k

/-- A test ends: the core's issue is no longer held for it (R586). -/
def execTileSelftestDone (t : TileIx) (k : TestKind) (pass : Bool) (s : State) : Out :=
  if !s.testDue t.val k then .next s else
    let s := s.modTest t.val fun x => match k with
      | .shell => { x with shell := some pass }
      | .bf16 => { x with bf16 := some pass }
      | .narrow => { x with narrow := some pass }
    let s := s.when (decide (k = .narrow) && (s.tile t.val).testHold) fun s =>
      (s.modTile t.val fun x => { x with issueHold := false, issueHeld := false, testHold := false }).pumpTile t.val
    .next (if pass then s else s.testFail t.val)

/-- R586: on the serving half a narrow test that has not ended holds issue while it completes. -/
def execNarrowSelftestHold (t : TileIx) (s : State) : Out :=
  if s.early ∧ t.val / 272 = s.servingHalf ∧ s.testDue t.val .narrow then
    .next (s.modTile t.val fun x => { x with issueHold := true, issueHeld := true, testHold := true })
  else .next s

/-- What a pair is once trained: what it was before a self-refresh, else active. -/
def Pair.trained (x : Pair) : PairSt :=
  match x.before with
  | .untrained | .training | .selfRefresh => .active
  | b => b

/-- R164, R477: a pair ends its training; one that fails goes on trying until its time is up. -/
def execPairTrainingDone (p : PairIx) (ok : Bool) (s : State) : Out :=
  if (s.pair p.val).st = .training ∧ ok then .next ((s.setPairSt p.val (s.pair p.val).trained).serveAll) else .next s

/-- R582. -/
def execPairTrainingTimeout (p : PairIx) (s : State) : Out :=
  if (s.pair p.val).st = .training then .next ((s.pairFailed p.val).serveAll) else .next s

/-! ### Early and full service -/

/-- The tiles of a half's logical grid. -/
def State.gridTiles (s : State) (h : Nat) : List Nat := (halfTiles h).filter fun t => decide ((s.tile t).role = .grid)

/-- R583. -/
def State.halfReady (s : State) (h : Nat) : Bool :=
  (s.gridTiles h).all (fun t => decide ((s.selfTest t).bf16 = some true)) &&
  (bootPairs h).all fun p => decide ((s.pair p).st = .active)

/-- The cores of a half are ungated (R580). -/
def State.ungateHalf (s : State) (h : Nat) : State :=
  s.each ((s.gridTiles h).filter fun t => (s.tile t).gate) fun s t => s.modTile t fun x => { x with
    gate := false, clamp := false, powered := true, clamped := false }

/-- R580, R583. -/
def execEarlyServiceEntry (s : State) : Out :=
  if s.boot.power ≠ .sequencing then .next s
  else match [0, 1].find? s.halfReady with
    | none => .next s
    | some h =>
      let s := s.modBoot fun b => { b with power := .early, service := 1, earlyHalf := decide (h = 1) }
      .next ((s.ungateHalf (1 - h)).regaugeTiles)

/-- R580: 50 ms have been spent waiting. -/
def execSecondHalfUngate (s : State) : Out :=
  if s.boot.power = .sequencing then .next ((s.ungateHalf 0).ungateHalf 1) else .next s

/-- The conditions of R585. -/
def State.fullReady (s : State) : Bool :=
  decide (s.boot.power = .sequencing ∨ s.boot.power = .early) &&
  (s.gridTiles 0 ++ s.gridTiles 1).all (fun t =>
    decide ((s.selfTest t).bf16 = some true ∧ (s.selfTest t).narrow = some true)) &&
  (List.range 192).all (fun p => decide ((s.pair p).st ≠ .training ∧ (s.pair p).st ≠ .untrained)) &&
  (List.range 48).all fun p => decide ((s.port p).st ≠ .training)

/-- R57, R585. -/
def execFullServiceCommit (s : State) : Out :=
  if !s.fullReady then .next s else
    let s := s.modBoot fun b => { b with power := .full, service := 2 }
    let s := s.each (s.gridTiles 0 ++ s.gridTiles 1) fun s t => s.modTile t fun x => { x with narrow := true }
    let v := s.setting .clk
    let s := s.modPwr fun p => { p with
      clk := BitVec.ofNat 5 v, figs := Tab.erase p.figs 0, volts := [(0, { target := v }), (1, { target := v })] }
    .next s.regaugeTiles

/-- R582: a half not in full service after 8 s; should its recovery fail, the module halts. -/
def execBringupTimeout (s : State) : Out :=
  if s.boot.power = .sequencing ∨ s.boot.power = .early then
    .next ((s.modRcv fun r => { r with failedModule := 1 }).dueModule false)
  else .next s

/-! ### The input and the pins (R591 to R594) -/

/-- R591: input out of 38 to 60 V for 1 ms takes the trip actions; below 30 V power is lost. -/
def execInputFault (mv : Nat) (s : State) : Out :=
  if s.boot.power = .off then .next s
  else if mv < 30000 then .next s.dark
  else if (mv < 38000 ∨ 60000 < mv) ∧ s.boot.power ≠ .inputFault then
    if s.boot.power = .loader then .next s
    else .next ((s.trip 0x5FF 0).modBoot fun b => { b with power := .inputFault })
  else .next s

/-- R591: the input has been valid for 100 ms. -/
def execInputRestored (s : State) : Out :=
  if s.boot.power = .inputFault then
    .next ((s.modBoot fun b => { b with power := servicePower b.service }).dueModule false)
  else .next s

/-- R594: MATE_N opens; everything downstream is disconnected. -/
def execMateNOpen (s : State) : Out := .next (s.dark.modBoot fun b => { b with mateOpen := true })

/-- R591, R592: the SMBus. -/
def execSmbusTimeout (s : State) : Out :=
  if s.boot.power = .off then .next s
  else .next (s.modBoot fun b => { b with smbusDown := true, smbusTimeouts := b.smbusTimeouts + 1 })
def execSmbusIdleResume (s : State) : Out := .next (s.modBoot fun b => { b with smbusDown := false })

end Sys2Proof.Machine
end

