-- ==== Sys2Proof/Machine/Firmware.lean ====
section
/-! DEFINITION. Updating Itlum firmware: FW_ (R407 to R409), the loader state's update (R577). -/

namespace Sys2Proof.Machine

/-- Bytes of a firmware bank. -/
def bankSize : Nat := 0x2000000

/-- Whether an update is open (R407). -/
def State.fwOpen (s : State) : Bool :=
  decide (s.itl.fwSt = .receiving ∨ s.itl.fwSt = .verified ∨ s.itl.fwSt = .trial) || s.itl.fwVerifying || s.itl.fwActivating
/-- Whether a step of it is under way (R395). -/
def State.fwBusy (s : State) : Bool := s.itl.fwVerifying || s.itl.fwActivating

/-- The bank that is not confirmed is erased. -/
def execFwBegin (path : Path) (s : State) : Out :=
  .next (s.command path 0x0A01 (fun p => reservedOk p [(0, 0, 32)] && decide (hdF p 0 4 ≤ bankSize)) fun r s =>
    if s.fwOpen then s.fail r 0x0202
    else
      let b := !s.itl.fwConfirmed
      let n := hdF r.payload 0 4
      let s := s.modFwBank b fun _ => { size := n }
      (s.modItl fun i => { i with fwSt := .receiving, fwSize := n }).respond r 0 (if b then 1 else 0) 0 [])

/-- R407: image bytes. -/
def execFwWrite (path : Path) (s : State) : Out :=
  .next (s.command path 0x0A02 (fun p => decide (hdF p 0 4 % 4 = 0)) fun r s =>
    let o := hdF r.payload 0 4
    let b := r.payload.drop 4
    if s.fwBusy then s.fail r 0x0202
    else if s.itl.fwSt ≠ .receiving then s.refuse r 0 0xFFFF
    else if s.itl.fwSize < o + b.length then s.fail r 0x0104
    else
      let put_ := fun (t : Tab Byte) (e : Nat × Byte) => Tab.insert t (o + e.1) e.2
      (s.modFwBank (!s.itl.fwConfirmed) fun x => { x with
        bytes := ((List.range b.length).zip b).foldl put_ x.bytes }).answer r [])

def execFwVerify (path : Path) (s : State) : Out :=
  .next (s.command path 0x0A03 (fun p => reservedOk p []) fun r s =>
    if s.fwBusy then s.fail r 0x0202
    else if s.itl.fwSt ≠ .receiving then s.refuse r 0 0xFFFF
    else (s.modItl fun i => { i with fwVerifying := true }).accepted r 0)

/-- R506: the RTP answers the first failure; an image that fails is not kept for activation. -/
def execFwVerifyDone (fact : VerifyFact) (s : State) : Out :=
  if !s.itl.fwVerifying then .next s else
    let b := !s.itl.fwConfirmed
    let v := s.verifyBank b fact
    let s := s.modFwBank b fun _ => v.2
    let s := s.modItl fun i => { i with fwVerifying := false, fwSt := if v.1 = 0 then .verified else .idle }
    .next (s.opDone 0x0A03 0 0 v.1 0 0)

/-- An activation or a reversion begins (R408 step 1): AVAIL falls on every mailbox. -/
def State.fwStart (s : State) (r : ItlReq) : State :=
  let s := s.accepted r 0
  s.modItl fun i => { i with avail := false, fwActivating := true }

/-- R577: what the ROM's FW_ACTIVATE accepts is confirmed at once, and the module restarts from step 2 of R579. -/
def State.loaderActivate (s : State) (r : ItlReq) : State :=
  let s := s.accepted r 0
  let b := !s.itl.fwConfirmed
  let s := (s.modItl fun i => { i with fwConfirmed := b }).bootSettings.writeSettings
  s.powerUp ⟨⟨true, true⟩, ⟨true, true⟩, s.boot.strap⟩

/-- R408: only after FW_VERIFY ended with IT_OK; messages already running finish first. -/
def execFwActivate (path : Path) (s : State) : Out :=
  if s.itl.held.isSome then .next s else
  .next (s.command path 0x0A04 (fun p => reservedOk p []) fun r s =>
    if s.fwBusy then s.fail r 0x0202
    else if s.itl.fwSt ≠ .verified then s.refuse r 0 0xFFFF
    else if s.boot.power = .loader then s.loaderActivate r
    else s.fwStart r)

/-- The opcode of the activation under way: FW_REVERT's or FW_ACTIVATE's. -/
def State.fwReverting (s : State) : Bool := s.itl.fwSt = .trial

/-- The firmware that an activation has brought in serves. -/
def State.fwServe (s : State) (b : Bool) (st : FwSt) : State :=
  let s := (s.runItlum b).modItl fun i => { i with avail := true, fwActivating := false, fwSt := st, trialPeriods := 0 }
  s.dropService fun c => decide (c < 8)

/-- R408 step 3. -/
def execFwActivateDone (s : State) : Out :=
  if !s.itl.fwActivating then .next s
  else if s.fwReverting then
    let b := s.itl.fwConfirmed
    .next (((s.fwServe b .reverted).fwRecord 2 b).opDone 0x0A06 0 0 0 0 0)
  else
    let b := !s.itl.fwConfirmed
    .next (((s.fwServe b .trial).fwRecord 0 b).opDone 0x0A04 0 0 0 0 0)

/-- R408 step 4: the RTP loads the confirmed bank instead. -/
def execFwActivateTimeout (s : State) : Out :=
  if !s.itl.fwActivating then .next s else
    let op := if s.fwReverting then 0x0A06 else 0x0A04
    let b := s.itl.fwConfirmed
    .next (((s.fwServe b .reverted).fwRecord 2 b).opDone op 0 0 0x0400 0 0)

/-- The trial bank becomes confirmed (R407 to R409, R508, R575). -/
def State.fwConfirm (s : State) : State :=
  let b := s.itl.fwUse
  let s := s.modItl fun i => { i with fwConfirmed := b, fwSt := .idle, trialPeriods := 0 }
  (s.storeSettings).fwRecord 1 b

def execFwConfirm (path : Path) (s : State) : Out :=
  .next (s.command path 0x0A05 (fun p => reservedOk p []) fun r s =>
    if s.fwBusy then s.fail r 0x0202
    else if s.itl.fwSt ≠ .trial then s.refuse r 0 0xFFFF
    else (s.fwConfirm).answer r [])

def execFwRevert (path : Path) (s : State) : Out :=
  if s.itl.held.isSome then .next s else
  .next (s.command path 0x0A06 (fun p => reservedOk p []) fun r s =>
    if s.fwBusy then s.fail r 0x0202
    else if s.itl.fwSt ≠ .trial then s.refuse r 0 0xFFFF
    else s.fwStart r)

def fwCode : FwSt → Nat
  | .idle => 0
  | .receiving => 1
  | .verified => 2
  | .trial => 3
  | .reverted => 4

/-- R407: the version of a bank, 0 where none has been verified. -/
def State.fwVersion (s : State) (b : Bool) : Nat := if (s.fwBank b).good then (s.fwBank b).version.toNat else 0

def execFwQuery (path : Path) (s : State) : Out :=
  .next (s.command path 0x0A07 (fun p => reservedOk p []) fun r s =>
    s.answer r (toBytes 4 (fwCode s.itl.fwSt) ++ toBytes 4 (if s.itl.fwUse then 1 else 0) ++ toBytes 4 (s.fwVersion false) ++
      toBytes 4 (s.fwVersion true)))

/-- R409: 3,000 periods without a module recovery or an IT_INTERNAL. -/
def execTrialConfirm (s : State) : Out :=
  if s.itl.fwSt = .trial ∧ !s.fwBusy ∧ 3000 ≤ s.itl.trialPeriods then .next s.fwConfirm else .next s

end Sys2Proof.Machine
end

