-- ==== Sys2Proof/Machine/Events.lean ====
section
/-! DEFINITION. The event controller's registers and claims (R557 to R566) and the flight log in flash (R491, R567 to
R573). -/

namespace Sys2Proof.Machine

/-! ### Signals and claims -/

def execEventSourceEdge (k : Fin 1024) (level : Bool) (s : State) : Out := .next (s.edge k.val level)

/-- R558: the latch sets PEND once the controller clock runs. -/
def execLatchTransfer (k : Fin 1024) (s : State) : Out :=
  let x := s.src k.val
  if !s.evt.clockOn ∨ !x.alatch then .next s else
    let s := s.modSrc k.val fun x => { x with alatch := false }
    if !x.en ∨ x.mode = 0 then .next s
    else if x.pend ∨ x.inServ then .next (s.modSrc k.val fun x => { x with merged := satInc x.merged })
    else .next (s.pendSet k.val fun s => s.log 0x03 k.val 0 (s.eventData k.val))

/-- The better of two claimable sources: the lower PRIO, then the lower number (R559). -/
def State.betterSrc (s : State) (best : Option Nat) (k : Nat) : Option Nat :=
  match best with
  | none => some k
  | some b => if (s.grp (k / 16)).prio < (s.grp (b / 16)).prio then some k else some b
/-- The source that a claim of target `t` takes. -/
def State.bestSrc (s : State) (t : Nat) : Option Nat :=
  ((s.evt.srcs.map (·.1)).filter fun k => s.claimable t k).foldl s.betterSrc none

/-- R559, R561: a claim read of a target. -/
def State.claimSrc (s : State) (t : Nat) : State :=
  match s.bestSrc t with
  | none => s.emit (.claim t 0x3FF)
  | some k =>
    let s := s.modSrc k fun x => { x with pend := false, inServ := true, claimer := BitVec.ofNat 4 t, merged := 0 }
    let g := k / 16
    let s := if s.grpClaimable g then (s.modGrp g fun x => { x with due := true }).deliver g else s
    s.emit (.claim t (BitVec.ofNat 10 k))

/-- A core's read of its claim register drops its request (R561). -/
def State.coreClaim (s : State) (c : Nat) : State := (s.modEvt fun e => { e with coreReq := setBit e.coreReq c false }).claimSrc c
def execEventClaim (core : Fin 8) (s : State) : Out :=
  .next (s.coreClaim core.val)
def execHostEventClaim (h : HPortIx) (s : State) : Out := .next (s.claimSrc (8 + h.val))

/-- R560: a done write; reserved bits and sources not in service to the target are counted. -/
def State.doneSrc (s : State) (t : Nat) (v : Word) : State :=
  let k := fldN v 0 10
  let s := s.when (decide (fldN v 10 22 ≠ 0)) fun s => s.modEvt fun e => { e with err := e.err.reserved }
  let x := s.src k
  if x.inServ ∧ x.claimer.toNat = t then s.endService k else s.modEvt fun e => { e with err := e.err.refuse }
def execEventDone (core : Fin 8) (v : Word) (s : State) : Out := .next (s.doneSrc core.val v)
def execHostEventDone (h : HPortIx) (v : Word) (s : State) : Out := .next (s.doneSrc (8 + h.val) v)

/-- R561. -/
def execHoldoffExpiry (g : Fin 64) (s : State) : Out :=
  .next ((s.modGrp g.val fun x => { x with running := false }).deliver g.val)

/-! ### Registers (R557, R566) -/

/-- A write of EVT_SRC: MODE and EN; a change clears PEND and ALATCH, after which a level source follows RAW. -/
def State.srcWrite (s : State) (k : Nat) (v : DWord) : State :=
  let rsvd := fldN v 22 6 ≠ 0 ∨ fldN v 12 3 ≠ 0 ∨ (!assigned k ∧ v ≠ 0)
  let s := s.when (decide rsvd) fun s => s.modEvt fun e => { e with err := e.err.reserved }
  if !assigned k then s else
    let x := s.src k
    let mode : BitVec 2 := fld v 16 2
    let en := bit v 15
    if mode = x.mode ∧ en = x.en then s else
      let s := s.modSrc k fun x => { x with mode := mode, en := en, pend := false, alatch := false }
      if mode = 0 ∧ en ∧ x.raw ∧ !x.inServ then s.pendSet k fun s => s.log 0x03 k 0 (s.eventData k) else s
def execEvtSrcWrite (k : Fin 1024) (v : DWord) (s : State) : Out := .next (s.srcWrite k.val v)

/-- A write of a PF's EVT_HCFG; EN = 0 returns its sources (R563). A VECTOR of ten bits lies within the table of 1,024. -/
def State.hcfgWrite (s : State) (h : Nat) (v : Word) : State :=
  let s := s.when (decide (fldN v 10 21 ≠ 0)) fun s => s.modEvt fun e => { e with err := e.err.reserved }
  let s := s.modFunc h 0 fun x => { x with hcfgEn := bit v 31, hcfgVec := fld v 0 10 }
  if bit v 31 then s.each ((List.range 12).map (· + 52)) fun s g => s.deliver g
  else s.dropService fun c => decide (c = 8 + h)
def execEvtHcfgWrite (h : HPortIx) (v : Word) (s : State) : Out := .next (s.hcfgWrite h.val v)

/-! ### The flight log in flash -/

def State.sector (s : State) (k : Nat) : Sector := Tab.get (fun _ => {}) s.flog.sectors k
def State.modSector (s : State) (k : Nat) (f : Sector → Sector) : State :=
  s.modFlog fun l => { l with sectors := Tab.insert l.sectors k (f (s.sector k)) }

/-- The circulating sectors after `w`, in ring order (R567). -/
def ringAfter (w : Nat) : List Nat := (List.range 15).map fun i => (w + i) % 15 + 1
/-- The sector being written: the one last written, or the first of the ring. -/
def State.logSector (s : State) : Nat := max s.flog.writing 1

/-- Where the next record goes (R567): the permanent area while it has a slot for it, else the circulating sector that
is being written, else the next erased one; none where the record waits for an erase. -/
def State.logPlace (s : State) (seq : Nat) : Option Nat :=
  let p := s.sector 0
  if seq < 1024 ∧ p.slots.length < 1024 ∧ !p.failed then some 0 else
    let w := s.logSector
    let x := s.sector w
    if x.slots.length < 1024 ∧ !x.failed then some w
    else (ringAfter w).find? fun k => (s.sector k).erased && !(s.sector k).failed

/-- R568, R571: the oldest buffered record is programmed; a sector whose program fails is left unused. -/
def execLogFlashWrite (ok : Bool) (s : State) : Out :=
  match s.flog.buffer with
  | [] => .next s
  | b :: rest =>
    match s.logPlace (hdF b 0 4) with
    | none => .next s
    | some k =>
      let s := s.when (decide (k ≠ 0)) fun s => s.modFlog fun l => { l with writing := k }
      if ok then
        .next ((s.modSector k fun x => { x with erased := false, slots := x.slots ++ [b] }).modFlog fun l => { l with buffer := rest })
      else
        .next (((s.modSector k fun x => { x with failed := true, erased := false }).modFlog fun l =>
          { l with eraseFailed := true }).pulse 913)

/-- Erased circulating sectors. -/
def State.erasedSectors (s : State) : Nat :=
  ((List.range 15).filter fun i => (s.sector (i + 1)).erased && !(s.sector (i + 1)).failed).length
/-- The sector that Itlum erases next (R491): the first of the ring after the erased ones. -/
def State.eraseNext (s : State) : Option Nat :=
  if 2 ≤ s.erasedSectors then none
  else (ringAfter s.logSector).find? fun k => decide (k ≠ s.logSector) && !(s.sector k).erased && !(s.sector k).failed

def execLogSectorErase (k : Fin 16) (ok : Bool) (s : State) : Out :=
  if s.eraseNext ≠ some k.val then .next s
  else if ok then .next (s.modSector k.val fun x => { x with erased := true, slots := [] })
  else .next (((s.modSector k.val fun x => { x with failed := true }).modFlog fun l => { l with eraseFailed := true }).pulse 913)

/-- R568: 600 s have passed without a record. -/
def execLogIdleMark (s : State) : Out := if 600 ≤ s.flog.sinceRecord then .next (s.log 2 0xFFFF 0 []) else .next s

/-! ### LOG_READ (R572) -/

/-- The records of an area in SEQ order, buffered ones included: those of an area that LOG_READ returns (R567). -/
def State.logRecords (s : State) (circulating : Bool) : List Bytes :=
  let all := (s.flog.sectors.flatMap fun e => e.2.slots).filter recordGood ++ s.flog.buffer
  let age := fun (b : Bytes) => (s.flog.next - BitVec.ofNat 32 (hdF b 0 4)).toNat
  let mine := all.filter fun b =>
    if circulating then decide (1024 ≤ hdF b 0 4 ∧ age b ≤ 8192) else decide (hdF b 0 4 < 1024)
  (mine.foldl (fun (t : Tab Bytes) b => Tab.insert t (2 ^ 32 - age b) b) []).map (·.2)

/-- A part of LOG_READ's response: up to 62 records. -/
def State.logPart (s : State) (first : Nat) (rs : List Bytes) : Bytes :=
  toBytes 4 first ++ toBytes 4 s.flog.next.toNat ++ toBytes 4 rs.length ++ toBytes 4 s.flog.dropped.toNat ++
  List.replicate 48 0 ++ rs.flatMap id

def execLogRead (path : Path) (s : State) : Out :=
  .next (s.command path 0x0B01 (fun p => reservedOk p [(0, 0, 1), (4, 0, 32)]) fun r s =>
    let circ := decide (payF r.payload 0 1 0 1 = 1)
    let rs := s.logRecords circ
    let first := match rs.head? with
      | some b => hdF b 0 4
      | none => s.flog.next.toNat
    let from_ : Word := BitVec.ofNat 32 (hdF r.payload 4 4)
    let before := decide ((BitVec.ofNat 32 first - from_).toNat < 2 ^ 31)
    let rs := if before then rs else rs.filter fun b => decide ((BitVec.ofNat 32 (hdF b 0 4) - from_).toNat < 2 ^ 31)
    let rs := if tenantReq r then [] else rs.take 992
    let n := max ((rs.length + 61) / 62) 1
    s.respondParts r 0 0 0 ((List.range n).map fun i => s.logPart first ((rs.drop (62 * i)).take 62)))

end Sys2Proof.Machine
end

