-- ==== Sys2Proof/Machine/Boundary.lean ====
section
/-! DEFINITION. The tick boundary of a commit (R12, R399, R400): accepted values take effect together, what follows them
in the blocks and in Itlum, GO writes that arrived while a commit waited. -/

namespace Sys2Proof.Machine

/-! ### Regulator levels (R422) -/

/-- The entries of a regulator table that become valid: key and entry. -/
def newRegs (old new : Tab RegSh) : List (Nat × RegSh) :=
  new.filter fun e => e.2.valid && !(Tab.get (fun _ => ({} : RegSh)) old e.1).valid
/-- Their levels start at DEPTH. -/
def fillLevels (refill : Nat) (es : List (Nat × RegSh)) (t : Tab Word) : Tab Word :=
  es.foldl (fun t e => Tab.insert t e.1 (BitVec.ofNat 32 (regDepth e.2.guar.toNat refill))) t

/-! ### The blocks -/

def Tile.boundary (x : Tile) : Tile :=
  let nbr := x.nbr.boundary
  { x with nbr := nbr, levels := fillLevels (RegQ.tile 0).refill (newRegs x.nbr.act.regs nbr.act.regs) x.levels,
           srm := { x.srm with sh := x.srm.sh.boundary } }

/-- BRD, TIL, SRM, XLT and MEM. -/
def State.compBoundary (s : State) : State :=
  let s := { s with tiles := s.tiles.map fun (t : Nat × Tile) => (t.1, t.2.boundary) }
  let s := s.modXlt fun x => { x with sh := x.sh.boundary }
  let old := s.lp.sh.act.regs
  let s := s.modLp fun m => { m with
    sh := m.sh.boundary, levels := fillLevels (RegQ.pairRead 0).refill (newRegs old m.sh.boundary.act.regs) m.levels }
  s.modBrd fun b => { b with sh := b.sh.boundary, waiting := false }

/-- R451: STAGGER follows each commit of FAB_ID, unless the site operator has set it. -/
def State.staggerPlan (s : State) : State :=
  if s.pwr.staggerSet then s else
    let m := s.module.toNat
    let v : BitVec 16 := BitVec.ofNat 16 (m % 64 * 1024 + m / 64 * 4)
    s.modPwr fun p => { p with sh := p.sh.both fun x => { x with stagger := v } }

/-- FAB: collective entries stand until their own change (R314). -/
def State.fabBoundary (s : State) (forced : Option Nat) : State :=
  if s.fab.sh.acc.isNone then s else
    let old := s.fab.sh.act
    let s := s.modFab fun f => { f with
      sh := f.sh.boundary, levels := fillLevels (RegQ.port 0).refill (newRegs old.regs f.sh.boundary.act.regs) f.levels }
    let s := s.when (decide (s.fab.sh.act.id ≠ old.id)) State.staggerPlan
    s.collsCommitted old.coll forced

/-- LNK_EXPECT of each port, which may let its peer in (R275). -/
def State.lnkBoundary (s : State) : State :=
  let ps := (s.lnk.filter fun p => p.2.expect.acc.isSome).map (·.1)
  s.each ps fun s p => (s.modPort p fun x => { x with expect := x.expect.boundary }).admitPeer p

/-- A cadence state, with its event; an exit from LOCKED is counted (R439, R466). -/
def State.setCad (s : State) (st : CadSt) : State :=
  if s.cad.st = st then s else
    let s := s.modCad fun c => { c with
      st := st, good := 0, far := 0, lockLosses := if c.st = .locked then satInc c.lockLosses else c.lockLosses }
    s.pulse 832

/-- CAD: MODE 0b00 is FREE (R439). The settings are kept (R464). -/
def State.cadBoundary (s : State) : State :=
  if s.cad.sh.acc.isNone then s else
    let s := s.modCad fun c => { c with sh := c.sh.boundary }
    let s := if s.cad.sh.act.mode = 0 then
        (s.setCad .free).modCad fun c => { c with pendStep := none, lower := none, error := none, epochSet := false }
      else s
    s.storeSettings

/-- PWR (R450, R456, R464). -/
def State.pwrBoundary (s : State) : State :=
  if s.pwr.sh.acc.isNone then s else
    let old := s.pwr.sh.act
    let s := s.modPwr fun p => { p with sh := p.sh.boundary }
    (s.powerCommitted old).storeSettings

/-- Every accepted value takes effect. -/
def State.blocksBoundary (s : State) (forced : Option Nat) : State :=
  let s := s.compBoundary.fabBoundary forced
  let s := s.modQue fun q => { q with sh := q.sh.boundary }
  let s := s.modSched fun x => { x with sh := x.sh.boundary }
  s.lnkBoundary.cadBoundary.pwrBoundary

/-! ### GO writes that waited (R399) -/

def State.goTile (s : State) (t : Nat) : State :=
  if !(s.tile t).srm.sh.goLater then s
  else (s.modSrm t fun x => { x with sh := { x.sh with goLater := false } }).srmGo t
def State.goPort (s : State) (p : Nat) : State :=
  if !(s.port p).expect.goLater then s
  else (s.modPort p fun x => { x with expect := { x.expect with goLater := false } }).lnkGo p

def State.goMem (s : State) : State :=
  if s.lp.sh.goLater then (s.modLp fun x => { x with sh := { x.sh with goLater := false } }).memGo else s
def State.goXlt (s : State) : State :=
  if s.xlt.sh.goLater then (s.modXlt fun x => { x with sh := { x.sh with goLater := false } }).xltGo else s
def State.goFab (s : State) : State :=
  if s.fab.sh.goLater then (s.modFab fun x => { x with sh := { x.sh with goLater := false } }).fabGo else s
def State.goQue (s : State) : State :=
  if s.que.sh.goLater then (s.modQue fun x => { x with sh := { x.sh with goLater := false } }).queGo else s
def State.goSeq (s : State) : State :=
  if s.sched.sh.goLater then (s.modSched fun x => { x with sh := { x.sh with goLater := false } }).seqGo else s
def State.goCad (s : State) : State :=
  if s.cad.sh.goLater then (s.modCad fun x => { x with sh := { x.sh with goLater := false } }).cadGo else s
def State.goPwr (s : State) : State :=
  if s.pwr.sh.goLater then (s.modPwr fun x => { x with sh := { x.sh with goLater := false } }).pwrGo else s
def State.goBrd (s : State) : State :=
  if s.brd.goLater then (s.modBrd fun x => { x with goLater := false }).brdGo else s

def State.laterGos (s : State) : State :=
  let s := s.each (s.tiles.map (·.1)) State.goTile
  let s := s.each (s.lnk.map (·.1)) State.goPort
  (((((((s.goMem).goXlt).goFab).goQue).goSeq).goCad).goPwr).goBrd

/-! ### What Itlum does at the boundary of its change (R400) -/

/-- IT_OK to the sender of the committing message. -/
def State.heldAnswer (s : State) (h : Held) : State :=
  match h.req with
  | some r => s.answer r []
  | none => s

/-- R240: the switch of a pair; the fences of the compositions open. -/
def State.switched (s : State) (h src dst : Nat) (cids : List Cid) : State :=
  let site := (s.pair dst).siteSpare
  let s := s.each cids fun s c => s.itlumChange c [.pair src, .pair dst] 4 [(2, src, dst)]
  let s := s.regaugeHalf h
  let s := (s.modPair src fun x => { x with siteSpare := site }).modPair dst fun x => { x with siteSpare := false }
  s.moveClears h

/-- R173: a rebuilt pair: the spare serves, the failed pair is retired. -/
def State.rebuiltSwitch (s : State) (src dst : Nat) (cids : List Cid) : State :=
  let s := s.each cids fun s c => s.itlumChange c [.pair src, .pair dst] 3 [(2, src, dst)]
  let s := (s.setPairSt src .retired).setPairSt dst .active
  let s := s.modPair dst fun x => { x with siteSpare := false, rebuildTo := none }
  let s := s.modPair src fun x => { x with rebuildTo := none, gone := [], poison := [] }
  (s.spareUp (src / 96)).regaugeHalf (src / 96)

/-- The change that Itlum holds, at its boundary. -/
def State.heldBoundary (s : State) (h : Held) : State :=
  let forced := match h.change with
    | .collSet c | .collClear c => some c
    | _ => none
  match h.change with
  | .image cid n slot gone _ =>
    let old := s.oldOwners gone
    let before := s.image cid
    let keeps := s.keepsFor before gone
    let s := s.blocksBoundary none
    (s.imageCommitted cid n slot gone old keeps before).heldAnswer h
  | .qRegister e => (((s.replaceQueue e).blocksBoundary none).registered e).heldAnswer h
  | .qUnregister e => ((s.endQueue e true).blocksBoundary none).heldAnswer h
  | c =>
    let s := s.blocksBoundary forced
    match c with
    | .ctxLoad cid ctx r banks => (s.loadCommitted cid ctx r banks).heldAnswer h
    | .fqSet k => (s.modFq k fun x => { x with set := true }).heldAnswer h
    | .winSet i => match h.req with
      | some r => s.winCommitted r i false
      | none => s
    | .winClear i => match h.req with
      | some r => s.winCommitted r i true
      | none => s
    | .collSet k => match h.req with
      | some r => s.respond r 0 k 0 []
      | none => s
    | .pairSwitch half src dst cids => s.switched half src dst cids
    | .rebuilt src dst cids => s.rebuiltSwitch src dst cids
    | .rowShift half row failed _ =>
      match s.rcv.shifts.find? fun x => decide (x.half = half ∧ x.row = row ∧ x.failed = failed) && x.copied with
      | some x => s.finishShift x
      | none => s
    | _ => s.heldAnswer h

/-- Row shifts whose bridle change can commit open their fences (R75 step 1, R237). -/
def State.openShifts (s : State) : State :=
  let first := fun (x : RowShift) => (s.rcv.shifts.find? fun y => decide (y.half = x.half ∧ y.row = x.row)) = some x
  let one := fun (s : State) (x : RowShift) =>
    if x.opened ∨ !first x ∨ !s.canChange x.cids then s else
      let mark := fun (y : RowShift) => if y = x then { y with opened := true } else y
      (s.modRcv fun r => { r with shifts := r.shifts.map mark }).openShift x
  s.each s.rcv.shifts one

/-- Row shifts whose copy has ended prepare their TIL_NBR commit (R75 step 3), one at a time (R400). -/
def State.commitShifts (s : State) : State := s.each s.rcv.shifts State.commitShift

/-- COMMIT_BOUNDARY. No commit takes place while Itlum firmware is exchanged (R408). -/
def execCommitBoundary (s : State) : Out :=
  if s.itl.fwActivating then .next s else
    let s := match s.itl.held with
      | some h => (s.modItl fun i => { i with held := none }).heldBoundary h
      | none => s.blocksBoundary none
    .next s.laterGos.openShifts.holeChanges.expiryChanges.commitShifts.pumpAll

end Sys2Proof.Machine
end

