-- ==== Sys2Proof/Machine/Cadence.lean ====
section
/-! DEFINITION. The cadence (R434 to R443, R466): what elapses with each tick, the tick boundary and the period wrap, the
PLL's steering, markers and epoch frames of the tether. -/

namespace Sys2Proof.Machine

/-! ### What a tick counts -/

/-- TIL_CYCLE of both halves (R65). -/
def State.countCycles (s : State) (cycles : Nat) : State :=
  s.each [0, 1] fun s h =>
    let n := (Tab.get (fun _ => (0 : BitVec 48)) s.cycles h).toNat + cycles
    let s := { s with cycles := Tab.insert s.cycles h (BitVec.ofNat 48 n) }
    s.when (decide (2 ^ 48 ≤ n)) fun s => s.each (halfTiles h) fun s t => s.modTile t fun x => { x with ovf := true }

/-- Logical tiles of a composition on which an entry of its image binds at least one bank (R252). -/
def Image.tileCount (i : Image) : Nat :=
  (i.entries.map fun e => match e with
    | .tiles _ banks _ mask => if banks = 0 then 0 else (maskBits mask).length
    | _ => 0).sum
/-- Units that a composition owns (R222). -/
def State.unitCount (s : State) (cid : Cid) : Nat :=
  (s.xlt.sh.act.own.filter fun e => e.2.valid && decide (e.2.cid = cid)).length

/-- METERING (R252): the tick that ends; tiles and units each 1,024 ticks. -/
def State.metering (s : State) : State :=
  let sample := decide ((s.cad.tick.toNat + 1) % 1024 = 0)
  s.each s.boundCids fun s e =>
    let tiles := if sample then (s.image e.2).tileCount else 0
    let units := if sample then s.unitCount e.2 else 0
    s.modMeter e.1 fun m => { m with
      bound := m.bound + 1, tiles := m.tiles + BitVec.ofNat 64 tiles, units := m.units + BitVec.ofNat 64 units }

/-- Whether RECOVER asked for the shift that holds a composition (R483, R486). -/
def State.shiftByRecover (s : State) (cid : Cid) : Bool :=
  s.rcv.shifts.any fun x => x.cids.contains cid && s.rcv.isolations.any fun i => i.byRecover && decide (i.tile = x.failed)

/-- Whether ISSUE_HOLD holds a bank of a composition for a row shift that RECOVER did not ask for (R75), or while a
narrow-format self-test completes (R586). -/
def State.bankHeld (s : State) (cid : Cid) : Bool :=
  let asked := fun (x : RowShift) => s.rcv.isolations.any fun i => i.byRecover && decide (i.tile = x.failed)
  let shifting := fun (t : Nat) => s.rcv.shifts.any fun x =>
    x.copying && !asked x && (shiftPairs x.failed x.skip).any fun p => decide (p.1 = t)
  s.tiles.any fun (t : Nat × Tile) => t.2.issueHold && (t.2.testHold || shifting t.1) &&
    t.2.banks.any fun b => decide (b.2.st ≠ .empty ∧ b.2.cid = cid)

/-- Whether the tick counts in UNAVAIL_TICKS of a composition in a slot (R486). -/
def State.unavailable (s : State) (slot : Nat) (cid : Cid) : Bool :=
  let r := s.rcv
  let half := decide (r.st = .half) && (s.halfCids r.half).contains cid
  let module := decide (r.st = .module ∨ r.st = .halted)
  let f := s.fence slot
  ((half || module) && !r.byRecover) || s.bankHeld cid || (f.isOpen && f.itlum && !s.shiftByRecover cid)

def State.countUnavailable (s : State) : State :=
  s.each (s.boundCids.filter fun e => s.unavailable e.1 e.2) fun s e =>
    s.modRcv fun r => { r with unavail := Tab.insert r.unavail e.1 (Tab.get (fun _ => (0 : DWord)) r.unavail e.1 + 1) }

/-- Ballast of every tile in the tick that ends, and the sample of its barrier-idle request (R58, R149). -/
def State.ballastTicks (s : State) (cycles : Nat) : State :=
  let s := s.each (s.tiles.map (·.1)) fun s t => s.ballastTick t cycles
  { s with tiles := s.tiles.map fun (t : Nat × Tile) => (t.1, t.2.sampleIdle) }

/-- The figures that tenants see, taken at a 100 ms boundary of reference time (R523, R524). -/
def State.tenantSnapshot (s : State) : State :=
  let now := [0, s.pwr.pin.toNat, s.pwr.pLink.toNat, s.pwr.pMem.toNat, s.pwr.pComp.toNat, s.pwr.pBase.toNat]
  let n := s.itl.powerCount
  let avg := if n = 0 then now else s.itl.powerSum.map (· / n)
  let own := s.boundCids.foldl (fun (t : Tab (List Nat)) e => Tab.insert t e.1 (s.slotCounts e.1)) []
  s.modItl fun i => { i with tenant := own, tenantPower := avg.map fun w => w / 5 * 5, powerSum := [], powerCount := 0 }

/-- Nanoseconds × 2^20 of one second. -/
def second : Nat := 1000000000 * 2 ^ 20

/-- Module reference time advances by one tick of the present period (R524, R569). -/
def State.countTime (s : State) : State :=
  let a := s.boot.refTime
  let b := a + s.cad.periodNs.toNat
  let secs := b / second - a / second
  let s := s.modBoot fun x => { x with refTime := b }
  let s := s.modFlog fun l => { l with opsec := l.opsec + BitVec.ofNat 40 secs, sinceRecord := l.sinceRecord + secs }
  let s := s.modCad fun c => { c with frameValid := c.frameValid && decide (b < c.frameAt + 2 * second) }
  s.when (decide (a / (second / 10) < b / (second / 10))) State.tenantSnapshot

/-- Everything that one tick of `cycles` tile-clock cycles counts. -/
def State.tickElapsed (s : State) (cycles : Nat) : State :=
  let s := (s.countTick.countCycles cycles).metering
  let s := (s.ballastTicks cycles).countUnavailable
  let count := fun (e : Episode) => if e.isOpen then { e with ticks := e.ticks + 1 } else e
  let s := s.modPwr fun p => { p with episodes := p.episodes.map count }
  s.countTime

/-- What every block does at the strobe (R12, R43, R55, R415). -/
def State.strobe (s : State) : State := (s.applyPower.chooseAll.serveAll).reelRewrite

/-- CADENCE_TICK: the boundary inside a period (R438). -/
def execCadenceTick (cycles : Nat) (s : State) : Out :=
  if s.boot.power = .off ∨ s.cad.tick = 0xFFFFF then .next s
  else .next ((s.tickElapsed cycles).modCad fun c => { c with tick := c.tick + 1 }).strobe

/-! ### The wrap -/

/-- The nominal period in ns: 10^12 over mHz (R439). -/
def Cad.nominalNs (c : Cad) : Nat := 1000000000000 / max c.sh.act.nominal.toNat 1

/-- A free value's phase correction toward the marker, at most 1,024 ticks and never past it (R438; log entry 11). -/
def correction (err : Int) (w : DWord) : Int :=
  let n : Int := (w.toNat % (min err.natAbs 1024 + 1) : Nat)
  if err < 0 then -n else n

/-- The length of the coming period (R438, R439). -/
def State.nextPeriod (s : State) : State :=
  let c := s.cad
  let set := fun (s : State) (ns : Nat) => s.modCad fun c => { c with periodNs := BitVec.ofNat 30 ns, error := none }
  match c.st, c.error with
  | .free, _ => set s c.nominalNs
  | .holdover, _ | _, none => set s (if c.interval = 0 then c.nominalNs else c.interval)
  | _, some e =>
    let w := s.freeWord
    set w.2 ((c.interval * 2 ^ 20 : Nat) / (2 ^ 20 - correction e w.1)).toNat

/-- The local epoch of the period that begins (R438, R440, R441): a pending step, an adopted lower epoch, or one more. -/
def State.nextEpoch (s : State) : State :=
  let c := s.cad
  let next := fun (s : State) (d : DWord) => s.modCad fun c => { c with epoch := d, elapsed := c.elapsed + 1, tick := 0, drift := satInc c.drift }
  match c.pendStep, c.adoptLower, c.lower with
  | some d, _, _ =>
    let s := next s (c.epoch + 1 + BitVec.ofNat 64 d)
    (s.modCad fun c => { c with pendStep := none, step := BitVec.ofNat 64 d, steps := satInc c.steps }).pulse 833
  | none, true, some d =>
    let s := (next s (c.epoch + 1 - BitVec.ofNat 64 d)).modCad fun c => { c with adoptLower := false, lower := none }
    s.setCad .acquiring
  | _, _, _ => next s (c.epoch + 1)

/-- What a period's end counts in the blocks and in Itlum. -/
def State.periodElapsed (s : State) : State :=
  let s := ((s.reckonPeriod.rssSample).voltPeriod).memoryPeriod
  let s := s.modRcv fun r => { r with bgHit := [] }
  let s := s.modLp fun m => { m with pairs := m.pairs.map fun (p : Nat × Pair) => (p.1, { p.2 with rebuiltPeriod := 0 }) }
  let s := s.each (s.lnk.map (·.1)) State.linkPeriod
  let s := s.modHst fun h => { h with ports := h.ports.map fun (p : Nat × HPort) => (p.1, { p.2 with holdLeft := p.2.holdLeft - (if p.2.holdLeft = 0 then 0 else 1) }) }
  let s := s.when (decide (s.itl.fwSt = .trial) && s.itl.avail) fun s => s.modItl fun i => { i with trialPeriods := i.trialPeriods + 1 }
  let s := s.when (s.rot.debugOpen && decide (s.rot.debugLeft ≠ 0xFFFF ∧ s.rot.debugLeft ≠ 0)) fun s =>
    s.modRot fun r => { r with debugLeft := r.debugLeft - 1 }
  s.settingsPeriod

/-- CADENCE_PERIOD_WRAP: the boundary that begins a period (R438). -/
def execCadencePeriodWrap (cycles : Nat) (s : State) : Out :=
  if s.boot.power = .off ∨ s.cad.tick ≠ 0xFFFFF then .next s
  else .next ((s.tickElapsed cycles).nextPeriod.nextEpoch.strobe).periodElapsed

/-! ### Markers (R434, R437 to R440) -/

/-- Whether `x` lies within ±`parts` per thousand of `y`. -/
def within (x y parts : Nat) : Bool := decide (y * (1000 - parts) ≤ x * 1000 ∧ x * 1000 ≤ y * (1000 + parts))

/-- Whether a marker lies in its mode's window (R437). -/
def Cad.accepts (c : Cad) (ns : Nat) : Bool :=
  if c.sh.act.mode = 1 then
    decide (15380000 ≤ ns ∧ ns ≤ 22220000) && (decide (c.st ≠ .locked) || within ns c.interval 20)
  else within ns c.nominalNs 1

/-- CAD_TICK as a signed phase (R438). -/
def Cad.error20 (c : Cad) : Int := c.tick.toInt
/-- The epoch of the period that a marker begins: the coming one where it leads the wrap (R441). -/
def Cad.markedEpoch (c : Cad) : DWord := if c.error20 < 0 then c.epoch + 1 else c.epoch

/-- The period boundary moves to the marker (R440). -/
def State.snap (s : State) : State :=
  s.modCad fun c => { c with
    tick := 0, epoch := c.epoch + 1, elapsed := c.elapsed + 1, markerEpoch := c.epoch + 1, epochSet := false, error := none }

/-- The state after an accepted marker (R439). -/
def State.afterMarker (s : State) (e : Int) : State :=
  let near := decide (e.natAbs ≤ 64)
  let far := decide (1024 < e.natAbs)
  match s.cad.st with
  | .acquiring =>
    let s := s.modCad fun c => { c with good := if near then c.good + 1 else 0 }
    if 8 ≤ s.cad.good then s.setCad .locked else s
  | .locked =>
    let s := s.modCad fun c => { c with far := if far then c.far + 1 else 0 }
    if 2 ≤ s.cad.far then s.setCad .acquiring else s
  | _ => s

/-- A marker in its window. -/
def State.acceptMarker (s : State) (ns : Nat) : State :=
  let e := s.cad.error20
  let idle := decide (s.cad.st = .free ∨ s.cad.st = .holdover)
  let s := s.modCad fun c => { c with interval := ns, drift := 0, phase := BitVec.ofInt 21 e, error := some e }
  if idle then
    let s := (s.modCad fun c => { c with relock := BitVec.ofInt 11 (e / 1024) }).setCad .acquiring
    if s.anyBound then s else s.snap
  else s.afterMarker e

/-- TETHER_MARKER: a high level of `highNs`, `intervalNs` after the last marker's rising edge. -/
def execTetherMarker (highNs intervalNs : Nat) (s : State) : Out :=
  let reject := fun (s : State) => s.modCad fun c => { c with rejected := satInc c.rejected }
  if s.cad.sh.act.mode = 0 ∨ highNs < 1500 then .next s
  else if highNs < 3000 ∨ 5000 < highNs then .next (reject s)
  else
    let s := s.modCad fun c => { c with markerEpoch := c.markedEpoch }
    if s.cad.accepts intervalNs then .next (s.acceptMarker intervalNs) else .next (reject s)

/-! ### Epoch frames (R435, R441) -/

/-- Whether the receiver accepts a frame (R435). -/
def frameGood (f : Bytes) (mains : Bool) : Bool :=
  decide (crc32c ((f.drop 2).take 14) = hdF f 0x10 4) && decide (hdF f 2 1 = 1) && decide (hdF f 3 1 / 4 = 0) &&
    decide ((hdF f 3 1 % 2 = 1) ↔ mains = true)

/-- An accepted frame's epoch against that of the period its marker began (R440, R441). -/
def State.compareEpoch (s : State) (frame : DWord) : State :=
  let c := s.cad
  if !s.anyBound ∧ !c.epochSet then
    s.modCad fun c => { c with epoch := frame + (c.epoch - c.markerEpoch), markerEpoch := frame, epochSet := true }
  else if frame = c.markerEpoch then
    let s := s.modCad fun c => { c with lower := none }
    if c.st = .conflict then s.setCad .acquiring else s
  else if c.markerEpoch.toNat < frame.toNat then
    s.modCad fun c => { c with pendStep := some (frame.toNat - c.markerEpoch.toNat) }
  else
    let s := s.modCad fun c => { c with lower := some (c.markerEpoch.toNat - frame.toNat) }
    (s.setCad .conflict).pulse 834

def execEpochFrame (f : Bytes) (s : State) : Out :=
  if s.cad.sh.act.mode = 0 then .next s
  else if !frameGood f (decide (s.cad.sh.act.mode = 1)) then .next (s.modCad fun c => { c with frameBad := satInc c.frameBad })
  else
    let s := s.modCad fun c => { c with
      srcMains := decide (hdF f 3 1 % 2 = 1), srcHold := decide (hdF f 3 1 / 2 % 2 = 1), frameValid := true, frameAt := s.boot.refTime }
    .next (s.compareEpoch (BitVec.ofNat 64 (hdF f 4 8)))

/-! ### The tether lost or reversed -/

/-- R439: no marker within 2 intervals of the last. -/
def execMarkerTimeout (s : State) : Out :=
  if s.cad.st = .acquiring ∨ s.cad.st = .locked then .next (s.setCad .holdover) else .next s

/-- R591: the pair is reversed; the receiver inverts it. -/
def execTetherReversal (s : State) : Out :=
  .next (s.modBoot fun b => { b with tetherInv := !b.tetherInv, tetherReversals := satInc b.tetherReversals })

end Sys2Proof.Machine
end

