-- ==== Sys2Proof/Machine/Register.lean ====
section
/-! DEFINITION. Register accesses (R9 to R14): every register map of the Zesin address space and of BAR0, decoded from
the address, with what each register reads as and what a write of it does; reserved bits, access sizes, and 64-bit
registers accessed as two words. -/

namespace Sys2Proof.Machine

/-! ### One register -/

/-- A register: whether it is 64 bits wide, its reserved bits, what its RW and SH fields hold for a high-word write
(R13), what it reads as (R10), what a read changes (R559), and what a write of a value does. -/
structure RegW where
  wide : Bool := false
  rsvd : DWord := 0
  cur : DWord := 0
  read : State → DWord := fun _ => 0
  after : State → State := id
  write : DWord → State → State := fun _ s => s

/-- Bits [hi : lo] of each pair. -/
def bitsOf (l : List (Nat × Nat)) : DWord :=
  l.foldl (fun a p => a ||| ((BitVec.allOnes 64 >>> (63 - (p.1 - p.2))) <<< p.2)) 0

/-- A register whose fields are all RO: its reserved bits, what it reads as. -/
def roW (l : List (Nat × Nat)) (f : State → DWord) : RegW := { rsvd := bitsOf l, read := f }
def roD (l : List (Nat × Nat)) (f : State → DWord) : RegW := { wide := true, rsvd := bitsOf l, read := f }
/-- A 32-bit register: its reserved bits, what it reads as, what a write does. -/
def rwW (l : List (Nat × Nat)) (r : State → DWord) (f : Word → State → State) : RegW :=
  { rsvd := bitsOf l, read := r, write := fun v s => f (v.setWidth 32) s }
/-- A 64-bit register, `cur` what its RW and SH fields hold. -/
def rwD (l : List (Nat × Nat)) (cur : DWord) (r : State → DWord) (f : DWord → State → State) : RegW :=
  { wide := true, rsvd := bitsOf l, cur := cur, read := r, write := f }
/-- A 32-bit count. -/
def cntW (f : State → Word) : RegW := roW [] fun s => (f s).setWidth 64
/-- A 64-bit count. -/
def cntD (f : State → DWord) : RegW := roD [] f
/-- An ERR register (R160). -/
def errW (f : State → ErrReg) : RegW := roW [(23, 16)] fun s => (f s).word.setWidth 64
/-- A COMMIT register with the layout of XLT_COMMIT (R221): LAST_REFUSAL, what GO does. -/
def goW (code : State → BitVec 8) (f : State → State) : RegW :=
  rwW [(31, 16), (7, 1)] (fun s => put 64 8 (code s)) fun v s => s.when (bit v 0) f

/-- A register of a map, with its offset in the block. -/
abbrev RegAt := Option (Nat × RegW)

/-- The register at `a`, if `off` is one of its words. -/
def regAt (off a : Nat) (r : RegW) : RegAt := if off = a ∨ (r.wide ∧ off = a + 4) then some (a, r) else none
/-- The element of an array of `n` at `base`, one every `stride` bytes, that `off` lies in. -/
def regArr (off base stride n : Nat) (f : Nat → Nat → RegAt) : RegAt :=
  if base ≤ off ∧ off < base + stride * n then
    let i := (off - base) / stride
    (f i ((off - base) % stride)).map fun r => (base + i * stride + r.1, r.2)
  else none
/-- An array of single registers. -/
def regEach (off base stride n : Nat) (f : Nat → RegW) : RegAt := regArr off base stride n fun i o => regAt o 0 (f i)
/-- The first of several. -/
def regFirst : List (Unit → RegAt) → RegAt
  | [] => none
  | f :: t => match f () with
    | some r => some r
    | none => regFirst t

/-! ### Fields that several blocks share -/

/-- SRM_GRAN and XLT_OWN (R163, R222). -/
def Owner.ofWord (v : Word) : Owner := ⟨bit v 31, bit v 30, fld v 16 12, fld v 0 16⟩
def Owner.word (o : Owner) : DWord := putB 64 31 o.valid ||| putB 64 30 o.scope ||| put 64 16 o.ctx ||| put 64 0 o.cid
/-- TIL_REG, MEM_REG and FAB_REG (R433). -/
def RegSh.ofDWord (v : DWord) (dir : Bool) : RegSh := ⟨bit v 63, fld v 54 9, dir && bit v 53, fld v 32 16⟩
def RegSh.word (r : RegSh) : DWord := putB 64 63 r.valid ||| put 64 54 r.slot ||| putB 64 53 r.dir ||| put 64 32 r.guar
def regRsvd (dir : Bool) : List (Nat × Nat) := if dir then [(52, 48)] else [(53, 48)]
/-- A regulator entry of a table of them, with its LEVEL. -/
def regWord (regs : Tab RegSh) (levels : Tab Word) (k : Nat) : DWord :=
  RegSh.word (Tab.get (fun _ => {}) regs k) ||| put 64 0 (Tab.get (fun _ => (0 : Word)) levels k)

/-! ### The tile's block (R59 to R72, R128, R432) -/

/-- TIL_BALLAST (R68): another FMT code is refused and counted. -/
def State.ballastWrite (s : State) (t : Nat) (v : Word) : State :=
  let f : BitVec 4 := fld v 12 4
  if f ≠ 2 ∧ f ≠ 3 ∧ f ≠ 7 then s.modTile t fun x => { x with err := x.err.reserved }
  else s.modTile t fun x => { x with balFmt := f, balDuty := fld v 4 4, balEn := bit v 0 }

/-- TIL_ID (R60): TEST_SPARE is column 16 (log entry 2). -/
def Tile.idWord (x : Tile) (t : Nat) : DWord :=
  let role : BitVec 2 := match x.role with
    | .grid => 0
    | .spare => 1
    | .retired => 2
    | .notProduced => 3
  putB 64 31 (decide (272 ≤ t)) ||| putB 64 30 (decide (t % 17 = 16)) ||| put 64 28 role |||
  put 64 16 (if x.role = .grid then x.lcol else 0x1F) ||| put 64 4 (BitVec.ofNat 5 (t % 17)) |||
  put 64 0 (BitVec.ofNat 4 (t % 272 / 17))
/-- TIL_CTRL (R61). -/
def Tile.ctrlWord (x : Tile) : DWord :=
  putB 64 7 x.clamp ||| putB 64 6 x.gate ||| putB 64 5 x.narrow ||| putB 64 4 (x.issueHold || x.testHold)
/-- TIL_STATUS (R63). -/
def Tile.statusWord (x : Tile) : DWord :=
  (List.range 4).foldl (fun a b => a ||| putB 64 (8 + b) (decide ((x.bank b).st ≠ .empty)) |||
      putB 64 (4 + b) (decide ((x.bank b).st = .running)))
    (putB 64 15 x.powered ||| putB 64 14 x.clamped ||| putB 64 13 x.issueHeld ||| putB 64 12 x.shiftBusy)

/-- The code of a bank's state (R45). -/
def bankCode : BankSt → BitVec 4
  | .empty => 0
  | .loaded => 1
  | .running => 2
  | .waiting => 3
  | .faulted => 4
  | .purging => 5
/-- STR_CH_STATUS.STATE (R72). -/
def chanCode : ChanSt → BitVec 4
  | .idle => 0
  | .active => 1
  | .paused => 2
  | .stalled => 3
  | .done => 4
  | .faulted => 5

def bankRegs (t b off : Nat) : RegAt :=
  regFirst [
    fun _ => regAt off 0x00 (roW [] fun s =>
      let x := s.bank t b
      put 64 28 (bankCode x.st) ||| put 64 16 x.ctx ||| put 64 0 x.cid),
    fun _ => regAt off 0x04 (rwW [] (fun s => putB 64 0 (s.bank t b).hold) fun v s => s.bankCtrl t b v),
    fun _ => regAt off 0x08 (roW [(30, 24)] fun s =>
      let f := (s.bank t b).fault
      putB 64 31 f.valid ||| put 64 16 f.code ||| put 64 0 f.detail),
    fun _ => regAt off 0x0C (cntW fun s => (s.bank t b).progress),
    fun _ => regAt off 0x10 (roW [(31, 25), (2, 0)] fun s => put 64 3 (s.bank t b).pc),
    fun _ => regAt off 0x18 (cntD fun s => (s.bank t b).run),
    fun _ => regAt off 0x20 (cntD fun s => (s.bank t b).lent)]

def State.tilRegs (s : State) (t off : Nat) : RegAt :=
  let pend := (s.tile t).nbr.pend
  let setNbr := fun (v : Word) (s : State) => s.modTile t fun x => { x with
    nbr := x.nbr.setPend fun n => { n with nbr := ⟨fld v 6 2, fld v 4 2, bit v 3⟩ } }
  let setReg := fun (k : Nat) (v : DWord) (s : State) => s.modTile t fun x => { x with
    nbr := x.nbr.setPend fun n => { n with regs := Tab.insert n.regs k (RegSh.ofDWord v false) } }
  regFirst [
    fun _ => regAt off 0x000 (roW [(27, 21), (15, 9)] fun s => (s.tile t).idWord t),
    fun _ => regAt off 0x004 (rwW [] (fun s => (s.tile t).ctrlWord) fun v s => s.tilCtrl t v),
    fun _ => regAt off 0x008 (roW [(31, 16), (3, 0)] fun s => (s.tile t).statusWord),
    fun _ => regAt off 0x00C (errW fun s => (s.tile t).err),
    fun _ => regAt off 0x010 (rwD [(62, 48)] 0
      (fun s => putB 64 63 (s.tile t).ovf ||| put 64 0 (Tab.get (fun _ => (0 : BitVec 48)) s.cycles (t / 272)))
      fun v s => s.when (bit v 63) fun s => s.modTile t fun x => { x with ovf := false }),
    fun _ => regAt off 0x018 (roW [(31, 12)] fun s => put 64 0 (s.tile t).temp),
    fun _ => regAt off 0x01C (rwW [(31, 8), (2, 0)]
      (fun s =>
        let n := (s.tile t).nbr.act.nbr
        put 64 6 n.nSel ||| put 64 4 n.sSel ||| putB 64 3 n.bypass) setNbr),
    fun _ => regAt off 0x020 (rwW [(31, 16), (11, 8), (3, 1)]
      (fun s =>
        let x := s.tile t
        put 64 12 x.balFmt ||| put 64 4 x.balDuty ||| putB 64 0 x.balEn) fun v s => s.ballastWrite t v),
    fun _ => regAt off 0x028 (cntD fun s => (s.tile t).balSteps),
    fun _ => regArr off 0x100 0x40 4 (bankRegs t),
    fun _ => regArr off 0x200 0x20 8 fun n o => regFirst [
      fun _ => regAt o 0x00 (roW [(24, 24)] fun s =>
        let c := s.chan t n
        put 64 28 (chanCode c.st) ||| put 64 26 c.bank ||| putB 64 25 c.link ||| put 64 0 c.lines),
      fun _ => regAt o 0x08 (roD [(63, 57), (5, 0)] fun s => put 64 6 (s.chan t n).desc)],
    fun _ => regEach off 0x300 8 4 fun k =>
      rwD (regRsvd false) (RegSh.word (Tab.get (fun _ => {}) pend.regs k))
        (fun s => regWord (s.tile t).nbr.act.regs (s.tile t).levels k) (setReg k)]

/-! ### SRM (R159 to R163) -/

def srmRegs (t off : Nat) : RegAt :=
  let setShare := fun (b : Nat) (v : Word) (s : State) => s.modSrm t fun x => { x with
    sh := x.sh.setPend fun p => { p with share := Tab.insert p.share b ⟨bit v 31, fld v 18 9, fld v 0 9⟩ } }
  let setGran := fun (g : Nat) (v : Word) (s : State) => s.modSrm t fun x => { x with
    sh := x.sh.setPend fun p => { p with gran := Tab.insert p.gran g (Owner.ofWord v) } }
  regFirst [
    fun _ => regAt off 0x000 (errW fun s => (s.tile t).srm.err),
    fun _ => regAt off 0x004 (cntW fun s => (s.tile t).srm.ce),
    fun _ => regAt off 0x008 (roW [] fun s =>
      let x := (s.tile t).srm
      put 64 16 x.icvFail ||| put 64 0 x.ueCount),
    fun _ => regAt off 0x00C (rwW []
      (fun s =>
        let u := (s.tile t).srm.ue
        putB 64 31 u.valid ||| putB 64 30 u.icv ||| put 64 14 u.bank ||| put 64 0 u.line) fun v s => s.srmUeWrite t v),
    fun _ => regAt off 0x010 (rwW []
      (fun s =>
        let x := (s.tile t).srm
        putB 64 31 x.clearBusy ||| put 64 9 x.clearCount ||| put 64 0 x.clearBase) fun v s => s.sramClear t v),
    fun _ => regAt off 0x014 (roW [(15, 14)] fun s =>
      let x := (s.tile t).srm
      put 64 16 x.passes ||| put 64 0 x.pos),
    fun _ => regAt off 0x018 (goW (fun s => (s.tile t).srm.lastRefusal) fun s => s.srmGo t),
    fun _ => regEach off 0x040 8 4 fun b => rwW [(30, 27), (17, 9)]
      (fun s =>
        let h := s.share t b
        putB 64 31 h.en ||| put 64 18 h.count ||| put 64 0 h.base) (setShare b),
    fun _ => regEach off 0x400 4 384 fun g => rwW [(29, 28)] (fun s => (s.gran t g).word) (setGran g)]

/-! ### MEM (R186 to R189, R432) -/

def Igrp.cfg (g : Igrp) : DWord :=
  putB 64 63 g.valid ||| put 64 32 g.baseGb ||| put 64 24 g.n ||| put 64 8 g.len ||| put 64 0 g.off
def State.pendIgrp (s : State) (i : Nat) : Igrp := Tab.get (fun _ => {}) s.lp.sh.pend.igrp i
def State.setIgrp (s : State) (i : Nat) (f : Igrp → Igrp) : State :=
  s.modLp fun m => { m with sh := m.sh.setPend fun p => { p with igrp := Tab.insert p.igrp i (f (s.pendIgrp i)) } }

/-- MEM_PAIR_STATE.STATE (R189). -/
def pairCode : PairSt → BitVec 4
  | .untrained => 0
  | .training => 1
  | .active => 2
  | .degraded => 3
  | .rebuilding => 4
  | .selfRefresh => 5
  | .retired => 6
  | .spareReady => 7

def State.memRegs (s : State) (off : Nat) : RegAt :=
  let setMap := fun (p : Nat) (v : Word) (s : State) => s.modLp fun m => { m with
    sh := m.sh.setPend fun x => { x with pairMap := Tab.insert x.pairMap p (fld v 0 8) } }
  let setCfg := fun (i : Nat) (v : DWord) (s : State) => s.setIgrp i fun g => { g with
    valid := bit v 63, baseGb := fld v 32 16, n := fld v 24 8, len := fld v 8 5, off := fld v 0 5 }
  let setMask := fun (i k : Nat) (v : DWord) (s : State) => s.setIgrp i fun g => { g with
    mask := (g.mask &&& ~~~((BitVec.allOnes 64).setWidth 192 <<< (64 * k))) ||| (v.setWidth 192 <<< (64 * k)) }
  regFirst [
    fun _ => regAt off 0x0000 (errW fun s => s.lp.err),
    fun _ => regAt off 0x0004 (goW (fun s => s.lp.lastRefusal) State.memGo),
    fun _ => regEach off 0x0100 4 192 fun p => rwW [(31, 8)] (fun s => put 64 0 (s.lp.sh.act.phys p)) (setMap p),
    fun _ => regArr off 0x1000 0x20 64 fun i o => regFirst [
      fun _ => regAt o 0 (rwD [(62, 48), (23, 13), (7, 5)] (s.pendIgrp i).cfg (fun s => (s.igrp i).cfg) (setCfg i)),
      fun _ => regEach o 8 8 3 fun k =>
        rwD [] (fld (s.pendIgrp i).mask (64 * k) 64) (fun s => fld (s.igrp i).mask (64 * k) 64) (setMask i k)]]

def State.mcRegs (s : State) (nn off : Nat) : RegAt :=
  let key := fun (j i : Nat) => (4 * nn + j) * 64 + i
  let setReg := fun (j i : Nat) (v : DWord) (s : State) => s.modLp fun m => { m with
    sh := m.sh.setPend fun x => { x with regs := Tab.insert x.regs (key j i) (RegSh.ofDWord v false) } }
  regFirst [
    fun _ => regAt off 0x000 (errW fun s => Tab.get (fun _ => {}) s.lp.mcErr nn),
    fun _ => regEach off 0x010 8 4 fun j => roW [(25, 16), (7, 0)] fun s =>
      let x := s.pair (4 * nn + j)
      put 64 28 (pairCode x.st) ||| put 64 26 x.refRate ||| put 64 8 x.rebuildPct,
    fun _ => regEach off 0x040 8 4 fun j => roD [] fun s =>
      let x := s.pair (4 * nn + j)
      put 64 48 x.ue ||| put 64 32 x.rebuilt ||| put 64 16 x.linkRetry ||| put 64 0 x.odecc,
    fun _ => regArr off 0x800 0x200 4 fun j o => regEach o 0 8 64 fun i =>
      rwD (regRsvd false) (RegSh.word (Tab.get (fun _ => {}) s.lp.sh.pend.regs (key j i)))
        (fun s => regWord s.lp.sh.act.regs s.lp.levels (key j i)) (setReg j i)]

/-! ### XLT (R219 to R222) -/

/-- XLT_PRI_CFG (R221). -/
def State.priCfg (s : State) (v : Word) : State :=
  let n : BitVec 11 := fld v 0 11
  if n = 0 ∨ 1024 < n.toNat then s.modXlt fun x => { x with err := x.err.refuse } else s.modXlt fun x => { x with priTimeout := n }

/-- XLT_CTAB (R222). -/
def Ctab.word (c : Ctab) : DWord := putB 64 63 c.valid ||| put 64 47 c.cid ||| put 64 16 c.base

def State.xltRegs (s : State) (off : Nat) : RegAt :=
  let setCtab := fun (k : Nat) (v : DWord) (s : State) => s.modXlt fun x => { x with
    sh := x.sh.setPend fun p => { p with ctab := Tab.insert p.ctab k ⟨bit v 63, fld v 47 16, fld v 16 30⟩ } }
  let setOwn := fun (u : Nat) (v : Word) (s : State) => s.modXlt fun x => { x with
    sh := x.sh.setPend fun p => { p with own := Tab.insert p.own u (Owner.ofWord v) } }
  regFirst [
    fun _ => regAt off 0x0000 (errW fun s => s.xlt.err),
    fun _ => regAt off 0x0004 (goW (fun s => s.xlt.lastRefusal) State.xltGo),
    fun _ => regAt off 0x0008 (rwW [(31, 11)] (fun s => put 64 0 s.xlt.priTimeout) fun v s => s.priCfg v),
    fun _ => regEach off 0x1000 8 512 fun k =>
      rwD [(46, 46), (15, 0)] (Tab.get (fun _ => ({} : Ctab)) s.xlt.sh.pend.ctab k).word (fun s => (s.ctab k).word) (setCtab k),
    fun _ => regEach off 0x2000 8 512 fun k => cntD fun s => Tab.get (fun _ => 0) s.xlt.migCnt k,
    fun _ => regEach off 0x4000 4 5760 fun u => rwW [(29, 28)] (fun s => (s.unitOwner u).word) (setOwn u)]

/-! ### BRD (R255 to R259) -/

/-- BRD_MOVE_CTRL (R238, R256, R257). -/
def State.moveCtrl (s : State) (h : Nat) (v : Word) : State :=
  if fld v 24 4 = (0 : BitVec 4) then s.moveRefused else
    let s := s.modMove h fun m => { m with regRate := fld v 24 4, regDst := fld v 16 8, regSrc := fld v 8 8 }
    if bit v 0 then (s.moveStart h).getD s.moveRefused else s

/-- BRD_MOVE_CTRL.STATE (R257). -/
def moveCode : MoveSt → BitVec 4
  | .idle => 0
  | .copying => 1
  | .switching => 2
  | .clearing => 3
  | .done => 4
  | .aborted => 5

/-- BRD_SLOT (R258): LEASE 0b11 reads as NONE. -/
def State.slotWord (s : State) (e : Bool × Cid) (k : Nat) : DWord :=
  putB 64 63 e.1 ||| put 64 61 (Tab.get (fun _ => (0 : BitVec 2)) s.brd.leaseBits k) ||| put 64 32 e.2

def State.brdRegs (s : State) (off : Nat) : RegAt :=
  let setSlot := fun (k : Nat) (v : DWord) (s : State) => s.modBrd fun b => { b with
    leaseBits := Tab.insert b.leaseBits k (if fld v 61 2 = (3 : BitVec 2) then 0 else fld v 61 2),
    sh := b.sh.setPend fun p => { p with slots := Tab.insert p.slots k (bit v 63, fld v 32 16) } }
  let setRedir := fun (t : Nat) (v : Word) (s : State) => s.modBrd fun b => { b with
    sh := b.sh.setPend fun p => { p with redir := Tab.insert p.redir t (fld v 0 10) } }
  regFirst [
    fun _ => regAt off 0x0000 (errW fun s => s.brd.err),
    fun _ => regAt off 0x0004 (rwW [(31, 16), (3, 1)] (fun s => put 64 8 s.brd.lastRefusal ||| put 64 4 s.brd.block)
      fun v s => s.when (bit v 0) State.brdGo),
    fun _ => regArr off 0x0008 0x10 2 fun h o => regFirst [
      fun _ => regAt o 0 (rwW [(7, 1)]
        (fun s =>
          let m := s.moveH h
          put 64 28 (moveCode m.st) ||| put 64 24 m.regRate ||| put 64 16 m.regDst ||| put 64 8 m.regSrc)
        fun v s => s.moveCtrl h v),
      fun _ => regAt o 8 (roD [(63, 27)] fun s => put 64 0 (s.moveH h).cursor)],
    fun _ => regArr off 0x1000 0x10 512 fun k o => regFirst [
      fun _ => regAt o 0 (rwD [(60, 48)] (s.slotWord (Tab.get (fun _ => (false, (0 : Cid))) s.brd.sh.pend.slots k) k)
        (fun s => s.slotWord (s.slotE k) k ||| put 64 0 (s.epochOf k)) (setSlot k)),
      fun _ => regAt o 8 (roD [(62, 32)] fun s => putB 64 63 (s.fence k).isOpen ||| put 64 0 (s.fence k).count)],
    fun _ => regEach off 0x3000 4 544 fun t =>
      rwW [(31, 10)] (fun s => put 64 0 (BitVec.ofNat 10 (s.brd.sh.act.redirOf t))) (setRedir t),
    fun _ => regEach off 0x4000 8 2048 fun i => cntD fun s =>
      let m : Meter := Tab.get (fun _ => {}) s.brd.meters (i / 4)
      match i % 4 with
      | 0 => m.bound
      | 1 => m.tiles
      | 2 => m.units
      | _ => m.ballast]

/-! ### FAB (R318 to R324, R432) -/

/-- FAB_TIMEOUT (R320). -/
def State.fabTimeoutWrite (s : State) (v : Word) : State :=
  let n : BitVec 10 := fld v 0 10
  if n = 0 ∨ 512 < n.toNat then s.modFab fun x => { x with err := x.err.refuse } else s.modFab fun x => { x with timeout := n }

/-- FAB_ROUTE (R322). -/
def Route.word (r : Route) : DWord :=
  (r.cand ++ r.ignored).zipIdx.foldl (fun a e => a ||| put 64 (7 * e.2) e.1)
    (putB 64 31 r.valid ||| put 64 29 (BitVec.ofNat 2 (r.cand.length - 1)))

def Win.word0 (w : Win) : DWord :=
  putB 64 63 w.valid ||| put 64 60 w.rights ||| putB 64 59 w.scope ||| put 64 47 w.ctx ||| put 64 31 w.cid ||| put 64 0 w.size

/-- Words +0x00 to +0x20 of a collective entry, its SH fields (R324). -/
def CollSh.word (c : CollSh) : Nat → DWord
  | 0 => putB 64 63 c.valid ||| put 64 58 c.op ||| put 64 16 c.collId ||| put 64 0 c.cid
  | 1 => put 64 48 c.nlocal ||| put 64 0 c.childMask
  | 2 => putB 64 55 c.pvalid ||| put 64 48 c.parent ||| put 64 40 c.destWin ||| put 64 0 c.destOff
  | 3 => put 64 32 c.fence ||| put 64 0 c.len
  | 4 => c.fenceBase
  | _ => 0
def CollSh.setWord (c : CollSh) (v : DWord) : Nat → CollSh
  | 0 => { c with valid := bit v 63, op := fld v 58 2, collId := fld v 16 16, cid := fld v 0 16 }
  | 1 => { c with nlocal := fld v 48 10, childMask := fld v 0 48 }
  | 2 => { c with pvalid := bit v 55, parent := fld v 48 6, destWin := fld v 40 8, destOff := fld v 0 36 }
  | 3 => { c with fence := fld v 32 32, len := fld v 0 32 }
  | 4 => { c with fenceBase := v }
  | _ => c
/-- The RO fields of a collective entry's words: STATE, GEN and DONE (R324). -/
def CollRun.word (c : CollRun) : Nat → DWord
  | 0 => put 64 52 c.st ||| put 64 32 c.gen
  | 5 => c.done
  | _ => 0
def collRsvd : Nat → List (Nat × Nat)
  | 0 => [(62, 60), (57, 56), (51, 48)]
  | 1 => [(63, 58)]
  | 2 => [(63, 56), (54, 54), (39, 36)]
  | _ => []

def State.fabPend (s : State) (f : FabSh → FabSh) : State := s.modFab fun x => { x with sh := x.sh.setPend f }

/-- The four counters of R320, in their order. -/
def Fab.count (f : Fab) : Nat → Word
  | 0 => f.cntUnreach
  | 1 => f.cntTimeout
  | 2 => f.cntLate
  | _ => f.cntRefused

def State.fabRegs (s : State) (off : Nat) : RegAt :=
  let p := s.fab.sh.pend
  let win := fun (w : Nat) => (Tab.get (fun _ => {}) p.win w : Win)
  let coll := fun (c : Nat) => (Tab.get (fun _ => {}) p.coll c : CollSh)
  let setW0 := fun (w : Nat) (v : DWord) (s : State) => s.fabPend fun p => { p with
    win := Tab.insert p.win w { win w with valid := bit v 63, rights := fld v 60 3, scope := bit v 59, ctx := fld v 47 12, cid := fld v 31 16, size := fld v 0 16 } }
  let setW1 := fun (w : Nat) (v : DWord) (s : State) => s.fabPend fun p => { p with win := Tab.insert p.win w { win w with root := fld v 12 34 } }
  let setColl := fun (c k : Nat) (v : DWord) (s : State) => s.fabPend fun p => { p with coll := Tab.insert p.coll c ((coll c).setWord v k) }
  let setReg := fun (k : Nat) (v : DWord) (s : State) => s.fabPend fun p => { p with regs := Tab.insert p.regs k (RegSh.ofDWord v true) }
  regFirst [
    fun _ => regAt off 0x0000 (errW fun s => s.fab.err),
    fun _ => regAt off 0x0004 (goW (fun s => s.fab.lastRefusal) State.fabGo),
    fun _ => regAt off 0x0008 (rwW [(30, 14)] (fun s => putB 64 31 s.fab.sh.act.id.valid ||| put 64 0 s.fab.sh.act.id.module)
      fun v s => s.fabPend fun p => { p with id := ⟨bit v 31, fld v 0 14⟩ }),
    fun _ => regAt off 0x000C (rwW [(31, 10)] (fun s => put 64 0 s.fab.timeout) fun v s => s.fabTimeoutWrite v),
    fun _ => regEach off 0x0010 4 4 fun k => cntW fun s => s.fab.count k,
    fun _ => regEach off 0x1000 4 512 fun k => rwW [(31, 30), (15, 14)]
      (fun s => put 64 16 (BitVec.ofNat 14 (s.poolUse k)) ||| put 64 0 (s.fab.sh.act.pool k))
      fun v s => s.fabPend fun p => { p with poolLimit := Tab.insert p.poolLimit k (fld v 0 14) },
    fun _ => regEach off 0x2000 4 512 fun k => rwW [(31, 25), (15, 14)]
      (fun s => put 64 16 (s.fab.sh.act.wb k).1 ||| put 64 0 (s.fab.sh.act.wb k).2)
      fun v s => s.fabPend fun p => { p with wbase := Tab.insert p.wbase k (fld v 16 9, fld v 0 14) },
    fun _ => regArr off 0x4000 0x40 64 fun c o => regEach o 0 8 6 fun k =>
      rwD (collRsvd k) ((coll c).word k) (fun s => (s.collSh c).word k ||| (s.collRun c).word k) (setColl c k),
    fun _ => regEach off 0x10000 4 16384 fun m => rwW [(28, 28)] (fun s => (s.route m).word) fun v s =>
      s.fabPend fun p => { p with route := Tab.insert p.route m (Route.ofWord v) },
    fun _ => regArr off 0x20000 0x20 16384 fun w o => regFirst [
      fun _ => regAt o 0 (rwD [(30, 16)] (win w).word0 (fun s => (s.win w).word0) (setW0 w)),
      fun _ => regAt o 8 (rwD [(63, 46), (11, 0)] (put 64 12 (win w).root) (fun s => put 64 12 (s.win w).root) (setW1 w))],
    fun _ => regArr off 0xA0000 0x100 48 fun n o => regEach o 0 8 32 fun k =>
      rwD (regRsvd true) (RegSh.word (Tab.get (fun _ => {}) p.regs (n * 32 + k)))
        (fun s => regWord s.fab.sh.act.regs s.fab.levels (n * 32 + k)) (setReg (n * 32 + k))]

/-! ### LNK (R281 to R286) -/

/-- LNK_STATUS.STATE (R282). -/
def portCode : PortSt → BitVec 4
  | .disabled => 0
  | .openCircuit => 1
  | .training => 2
  | .oneWay => 3
  | .laneOrder => 4
  | .miswired => 5
  | .looped => 6
  | .duplicate => 7
  | .active => 8
  | .retraining => 9
  | .failed => 10

/-- A half of LNK_MAP (R284). -/
def LaneMap.word (m : LaneMap) : Word := put 32 26 m.subB ||| put 32 20 m.subA ||| put 32 0 m.failed

/-- The five counters of R285, in their order. -/
def LinkPort.count (x : LinkPort) : Nat → Word
  | 0 => x.cntCorr
  | 1 => x.cntUncorr
  | 2 => x.cntReplay
  | 3 => x.cntRetrain
  | _ => x.cntLost

def lnkRegs (p off : Nat) : RegAt :=
  let setExpect := fun (v : Word) (s : State) => s.modPort p fun x => { x with
    expect := x.expect.setPend fun _ => ⟨bit v 31, fld v 6 14, fld v 0 6⟩ }
  regFirst [
    fun _ => regAt off 0x000 (errW fun s => (s.port p).err),
    fun _ => regAt off 0x004 (rwW []
      (fun s =>
        let x := s.port p
        putB 64 5 x.disable ||| put 64 2 x.maxw ||| putB 64 1 x.substEn) fun v s => s.lnkCtrl p v),
    fun _ => regAt off 0x008 (roW [(20, 16)] fun s =>
      let x := s.port p
      put 64 28 (portCode x.st) ||| put 64 26 x.rxw ||| put 64 24 x.txw ||| putB 64 23 x.reversed |||
      put 64 21 x.sparesLeft ||| put 64 0 x.polarity),
    fun _ => regAt off 0x00C (rwW [(31, 1)] (fun _ => 0) fun v s => s.when (bit v 0) fun s => s.lnkGo p),
    fun _ => regAt off 0x010 (rwW [(30, 20)]
      (fun s =>
        let e := (s.port p).expect.act
        putB 64 31 e.en ||| put 64 6 e.module ||| put 64 0 e.port) setExpect),
    fun _ => regAt off 0x018 (roD [(62, 56), (35, 32)] fun s =>
      let x := s.port p
      putB 64 63 x.peerValid ||| put 64 42 x.peerModule ||| put 64 36 x.peerPort ||| put 64 0 (x.peerFull.setWidth 32 : Word)),
    fun _ => regAt off 0x020 (roD [(51, 50), (19, 18)] fun s =>
      put 64 32 (s.port p).mapTx.word ||| put 64 0 (s.port p).mapRx.word),
    fun _ => regAt off 0x028 (roW [(31, 16)] fun s => put 64 0 (s.port p).rtt),
    fun _ => regEach off 0x030 4 5 fun k => cntW fun s => (s.port p).count k,
    fun _ => regEach off 0x100 4 18 fun k => roW [(30, 24)] fun s =>
      let e : Eye := Tab.get (fun _ => {}) (s.port p).eyes k
      putB 64 31 e.valid ||| put 64 16 e.height ||| put 64 8 e.width ||| put 64 0 e.age]

/-! ### QUE (R380 to R383) -/

def QSh.cfg (q : QSh) : DWord :=
  putB 64 63 q.valid ||| put 64 48 q.qctx ||| put 64 36 q.qnum ||| put 64 27 q.slot ||| put 64 22 q.sizeLog2 |||
  putB 64 21 q.ven ||| put 64 11 q.vector ||| putB 64 10 q.hport ||| put 64 0 q.func
def QSh.setCfg (q : QSh) (v : DWord) : QSh :=
  { q with valid := bit v 63, qctx := fld v 48 12, qnum := fld v 36 12, slot := fld v 27 9, sizeLog2 := fld v 22 5,
           ven := bit v 21, vector := fld v 11 10, hport := bit v 10, func := fld v 0 9 }
def FqSh.word0 (f : FqSh) : DWord := put 64 12 f.base ||| putB 64 0 f.en
def FqSh.word2 (f : FqSh) : DWord := putB 64 30 f.ven ||| put 64 20 f.vector
/-- The SH fields of QUE_RES, and its RO fields (R381). -/
def ResSh.word (e : ResSh) : DWord := putB 64 63 e.valid ||| put 64 48 e.ctx ||| put 64 32 e.cid ||| put 64 16 e.waitLimit
def ResRo.word (e : ResRo) : DWord :=
  putB 64 62 e.lost ||| putB 64 61 e.stalled ||| putB 64 60 e.ovf ||| put 64 0 (BitVec.ofNat 10 e.banks.length)
/-- QUE_Q_CFG.STATE (R383). -/
def queueCode : QState → BitVec 3
  | .unregistered => 0
  | .running => 1
  | .stopped => 2
  | .broken => 3

def State.quePend (s : State) (f : QueSh → QueSh) : State := s.modQue fun x => { x with sh := x.sh.setPend f }

def State.queRegs (s : State) (off : Nat) : RegAt :=
  let p := s.que.sh.pend
  let setRes := fun (r : Nat) (v : DWord) (s : State) => s.quePend fun p => { p with
    res := Tab.insert p.res r ⟨bit v 63, fld v 48 12, fld v 32 16, fld v 16 10⟩ }
  let fq := fun (k : Nat) => (Tab.get (fun _ => {}) p.fq k : FqSh)
  let setFq := fun (k : Nat) (f : FqSh) (s : State) => s.quePend fun p => { p with fq := Tab.insert p.fq k f }
  let q := fun (e : Nat) => (Tab.get (fun _ => {}) p.q e : QSh)
  let setQ := fun (e : Nat) (x : QSh) (s : State) => s.quePend fun p => { p with q := Tab.insert p.q e x }
  regFirst [
    fun _ => regAt off 0x0000 (errW fun s => s.que.err),
    fun _ => regAt off 0x0004 (goW (fun s => s.que.lastRefusal) State.queGo),
    fun _ => regEach off 0x1000 8 256 fun r => rwD [(31, 26), (15, 10)] (Tab.get (fun _ => ({} : ResSh)) p.res r).word
      (fun s => (s.resSh r).word ||| (s.resRo r).word) (setRes r),
    fun _ => regArr off 0x4000 0x20 512 fun k o => regFirst [
      fun _ => regAt o 0x00 (rwD [(11, 1)] (fq k).word0 (fun s => (s.fqSh k).word0)
        fun v => setFq k { fq k with base := fld v 12 52, en := bit v 0 }),
      fun _ => regAt o 0x08 (roD [] fun s => put 64 32 (s.fqRo k).next ||| put 64 0 (s.fqRo k).acked),
      fun _ => regAt o 0x10 (rwD [(19, 0)] (fq k).word2
        (fun s => put 64 32 (s.fqRo k).dropped ||| putB 64 31 (s.fqRo k).movf ||| (s.fqSh k).word2)
        fun v => setFq k { fq k with ven := bit v 30, vector := fld v 20 10 })],
    fun _ => regArr off 0x10000 0x40 8704 fun e o => regFirst [
      fun _ => regAt o 0x00 (rwD [(9, 9)] (q e).cfg (fun s => (s.qSh e).cfg ||| put 64 60 (queueCode (s.qRo e).st))
        fun v => setQ e ((q e).setCfg v)),
      fun _ => regAt o 0x08 (rwD [] (q e).ring (fun s => (s.qSh e).ring) fun v => setQ e { q e with ring := v }),
      fun _ => regAt o 0x10 (rwD [] (q e).cpl (fun s => (s.qSh e).cpl) fun v => setQ e { q e with cpl := v }),
      fun _ => regAt o 0x18 (rwD [] (q e).stat (fun s => (s.qSh e).stat) fun v => setQ e { q e with stat := v }),
      fun _ => regAt o 0x20 (roD [] fun s => put 64 32 (s.qRo e).tail ||| put 64 0 (s.qRo e).head),
      fun _ => regAt o 0x28 (rwD [(63, 32)] ((q e).lease.setWidth 64) (fun s => put 64 0 (s.qSh e).lease)
        fun v => setQ e { q e with lease := v.setWidth 32 })]]

/-! ### SEQ, CAD, PWR (R429 to R431, R465, R466, R468, R469) -/

/-- SEQ_REEL_CFG (R430). -/
def State.reelCfg (s : State) (v : Word) : State :=
  if fld v 16 8 = (0 : BitVec 8) then s.modSched fun x => { x with err := x.err.refuse }
  else s.modSched fun x => { x with
    rssHoldoff := fld v 16 8, sh := x.sh.setPend fun p => { p with sel := bit v 31, fillDelay := fld v 0 16 } }

def ReelEntry.word (e : ReelEntry) : DWord := putB 64 63 e.valid ||| put 64 20 e.lane ||| put 64 0 e.start

def State.seqRegs (s : State) (off : Nat) : RegAt :=
  let entry := fun (t : Tab ReelEntry) (k : Nat) => ReelEntry.word (Tab.get (fun _ => {}) t k)
  regFirst [
    fun _ => regAt off 0x0000 (errW fun s => s.sched.err),
    fun _ => regAt off 0x0004 (goW (fun s => s.sched.lastRefusal) State.seqGo),
    fun _ => regAt off 0x0008 (rwW [(30, 24)]
      (fun s => putB 64 31 s.sched.sh.act.sel ||| put 64 16 s.sched.rssHoldoff ||| put 64 0 s.sched.sh.act.fillDelay)
      fun v s => s.reelCfg v),
    fun _ => regAt off 0x000C (roW [(29, 27)] fun s =>
      put 64 30 s.slotNow.2.lane ||| put 64 20 (BitVec.ofNat 7 s.slotNow.1) ||| put 64 0 s.cad.tick),
    fun _ => regEach off 0x1000 4 512 fun k => cntW fun s => Tab.get (fun _ => 0) s.sched.dlmiss k,
    fun _ => regEach off 0x2000 8 128 fun k =>
      rwD [] (entry s.sched.reelA k) (fun s => entry s.sched.reelA k) fun v s => s.reelWrite false k v,
    fun _ => regEach off 0x3000 8 128 fun k =>
      rwD [] (entry s.sched.reelB k) (fun s => entry s.sched.reelB k) fun v s => s.reelWrite true k v]

/-- CAD_CFG (R466): ADOPT_LOWER is refused unless STATE is CONFLICT and no slot is bound. -/
def State.cadCfg (s : State) (v : Word) : State :=
  if bit v 29 ∧ (s.anyBound ∨ s.cad.st ≠ .conflict) then s.modCad fun c => { c with err := c.err.refuse }
  else s.modCad fun c => { c with
    adoptLower := bit v 29 || c.adoptLower, sh := c.sh.setPend fun _ => ⟨fld v 30 2, fld v 0 20⟩ }

/-- `n` bytes of CAD_CFG to CAD_STEP from offset `o` of the block (R464). -/
def State.cadWord (s : State) (o n : Nat) : DWord := BitVec.ofNat 64 (hdF (s.cadBytes false) (o - 8) n)

def cadRegs (off : Nat) : RegAt :=
  regFirst [
    fun _ => regAt off 0x000 (errW fun s => s.cad.err),
    fun _ => regAt off 0x004 (goW (fun s => s.cad.lastRefusal) State.cadGo),
    fun _ => regAt off 0x008 (rwW [(28, 20)] (fun s => s.cadWord 0x008 4) fun v s => s.cadCfg v),
    fun _ => regAt off 0x00C (roW [(24, 0)] fun s => s.cadWord 0x00C 4),
    fun _ => regAt off 0x010 (roD [] fun s => s.cadWord 0x010 8),
    fun _ => regAt off 0x018 (roW [(31, 20)] fun s => s.cadWord 0x018 4),
    fun _ => regAt off 0x01C (roW [(31, 30)] fun s => s.cadWord 0x01C 4),
    fun _ => regAt off 0x020 (roW [] fun s => s.cadWord 0x020 4),
    fun _ => regAt off 0x024 (roW [] fun s => s.cadWord 0x024 4),
    fun _ => regAt off 0x028 (roD [] fun s => s.cadWord 0x028 8),
    fun _ => regAt off 0x030 (roD [] fun s => s.cadWord 0x030 8)]

def State.pwrPend (s : State) (f : PwrSh → PwrSh) : State := s.modPwr fun x => { x with sh := x.sh.setPend f }

/-- PWR_CAP to PWR_VOLT (R469), by word. -/
def Pwr.setting (p : Pwr) : Nat → DWord
  | 0 => putB 64 31 p.sh.act.ramp ||| put 64 0 p.sh.act.cap
  | 1 => put 64 4 p.sh.act.first ||| put 64 2 p.sh.act.second ||| put 64 0 p.sh.act.third
  | 2 => put 64 16 p.sh.act.stagger ||| put 64 0 p.sh.act.slew
  | 3 => putB 64 31 p.sh.act.balEn ||| put 64 12 p.sh.act.balFmt
  | _ => putB 64 31 p.sh.act.vmode ||| put 64 8 p.trimE ||| put 64 0 p.trimW
/-- `n` bytes of PWR_INPUT to PWR_EPI_NEXT from offset `o` of the block (R464). -/
def State.pwrWord (s : State) (o n : Nat) : DWord := BitVec.ofNat 64 (hdF (s.pwrFigures false) (o - 0x20) n)

def pwrRegs (off : Nat) : RegAt :=
  regFirst [
    fun _ => regAt off 0x000 (errW fun s => s.pwr.err),
    fun _ => regAt off 0x004 (goW (fun s => s.pwr.lastRefusal) State.pwrGo),
    fun _ => regAt off 0x008 (rwW [(30, 12)] (fun s => s.pwr.setting 0) fun v s =>
      s.pwrPend fun p => { p with ramp := bit v 31, cap := fld v 0 12 }),
    fun _ => regAt off 0x00C (rwW [(31, 6)] (fun s => s.pwr.setting 1) fun v s =>
      s.pwrPend fun p => { p with first := fld v 4 2, second := fld v 2 2, third := fld v 0 2 }),
    fun _ => regAt off 0x010 (rwW [(15, 9)] (fun s => s.pwr.setting 2) fun v s =>
      s.pwrPend fun p => { p with stagger := fld v 16 16, slew := fld v 0 9 }),
    fun _ => regAt off 0x014 (rwW [(30, 16), (11, 0)] (fun s => s.pwr.setting 3) fun v s =>
      s.pwrPend fun p => { p with balEn := bit v 31, balFmt := fld v 12 4 }),
    fun _ => regAt off 0x018 (rwW [(30, 13), (7, 5)] (fun s => s.pwr.setting 4) fun v s =>
      s.pwrPend fun p => { p with vmode := bit v 31 }),
    fun _ => regAt off 0x020 (roW [] fun s => s.pwrWord 0x020 4),
    fun _ => regAt off 0x024 (roW [] fun s => s.pwrWord 0x024 4),
    fun _ => regAt off 0x028 (roW [] fun s => s.pwrWord 0x028 4),
    fun _ => regAt off 0x02C (roW [(31, 21), (15, 13), (7, 5)] fun s => s.pwrWord 0x02C 4),
    fun _ => regAt off 0x030 (roD [(63, 48)] fun s => s.pwrWord 0x030 8),
    fun _ => regAt off 0x038 (roD [] fun s => s.pwrWord 0x038 8),
    fun _ => regAt off 0x040 (roW [] fun s => s.pwrWord 0x040 4)]

/-! ### ROT, CRY, EVT, LOG (R527, R528, R551 to R554, R565, R566, R573) -/

/-- Bit n of each key slot that `f` holds of (R528). -/
def State.slotBits (s : State) (f : KeySlot → Bool) : DWord :=
  (List.range 64).foldl (fun a k => a ||| putB 64 k (f (s.keySlot k))) 0
/-- ROT_STATUS (R528): ROOT is 0b111 under the test root; SITE reads 0 where no SITE slot is valid. -/
def State.rotStatus (s : State) : DWord :=
  let r := s.rot
  put 64 30 r.lcNow ||| putB 64 29 r.torn ||| putB 64 28 r.testroot |||
  put 64 25 (BitVec.ofNat 3 (if r.testroot then 7 else s.activeRoot.getD 0)) ||| putB 64 24 s.activeSite.isSome |||
  put 64 21 (BitVec.ofNat 3 (s.activeSite.getD 0)) ||| putB 64 20 r.signReady ||| putB 64 19 r.pending |||
  putB 64 18 r.exhausted

def rotRegs (off : Nat) : RegAt :=
  regFirst [
    fun _ => regAt off 0x000 (errW fun s => s.rot.err),
    fun _ => regAt off 0x004 (roW [(17, 0)] State.rotStatus),
    fun _ => regAt off 0x008 (roW [(31, 16)] fun s => put 64 0 s.rot.holdupMs),
    fun _ => regAt off 0x010 (roD [] fun s => s.slotBits KeySlot.valid),
    fun _ => regAt off 0x018 (roD [] fun s => s.slotBits KeySlot.bad),
    fun _ => regAt off 0x020 (roW [] fun s =>
      put 64 24 (BitVec.ofNat 8 s.rot.otp.svnRtp) ||| put 64 16 (BitVec.ofNat 8 s.rot.otp.svnItl) |||
      put 64 8 (s.rot.runRtp.setWidth 8) ||| put 64 0 (s.rot.runItl.setWidth 8)),
    fun _ => regAt off 0x024 (roW [] fun s => put 64 20 s.rot.tree ||| put 64 0 s.rot.leaf),
    fun _ => regAt off 0x028 (roW [(25, 16)] fun s =>
      putB 64 31 s.rot.debugOpen ||| put 64 28 s.rot.debugRights ||| put 64 26 s.rot.debugScope ||| put 64 0 s.rot.debugLeft)]

def cryRegs (off : Nat) : RegAt :=
  regFirst [
    fun _ => regAt off 0x000 (errW fun s => s.cry.err),
    fun _ => regAt off 0x004 (roW [(18, 0)] fun s =>
      put 64 26 s.cry.curMem ||| put 64 20 s.cry.curLink ||| putB 64 19 s.cry.starved),
    fun _ => regAt off 0x008 (roD [] fun s =>
      put 64 48 s.cry.noKey ||| put 64 32 s.cry.rmacFail ||| put 64 16 s.cry.exhaust ||| put 64 0 s.cry.waits),
    fun _ => regEach off 0x100 8 64 fun k => roD [(31, 0)] fun s =>
      put 64 61 (s.kid k).st ||| put 64 57 (s.kid k).usage ||| put 64 32 (s.kid k).users,
    fun _ => regEach off 0x400 8 48 fun n => roD [] fun s =>
      let p := s.port n
      put 64 60 p.keySt ||| put 64 54 p.kidTx ||| put 64 48 p.kidRx ||| put 64 32 p.authFail ||| put 64 0 p.sessions]

/-- EVT_GRP (R566); a wider mask may make a group deliver (R561). -/
def State.grpWrite (s : State) (g : Nat) (v : DWord) : State :=
  (s.modGrp g fun x => { x with cmask := fld v 56 8, prio := fld v 53 3, log := bit v 52, holdoff := fld v 16 16 }).deliver g

/-- The RW fields of EVT_GRP (R566). -/
def Grp.word (x : Grp) : DWord := put 64 56 x.cmask ||| put 64 53 x.prio ||| putB 64 52 x.log ||| put 64 16 x.holdoff
/-- The RW fields of EVT_SRC, and all of it (R566). -/
def Src.rw (x : Src) : DWord := put 64 16 x.mode ||| putB 64 15 x.en
def Src.word (x : Src) : DWord :=
  put 64 32 x.seq ||| putB 64 31 x.pend ||| putB 64 30 x.inServ ||| putB 64 29 x.raw ||| putB 64 28 x.alatch |||
  put 64 18 x.claimer ||| x.rw ||| put 64 0 x.merged

/-- What a claim read of a target answers (R559). -/
def State.claimWord (s : State) (t : Nat) : DWord := BitVec.ofNat 64 ((s.bestSrc t).getD 0x3FF)
/-- A claim register: its read is a claim (R566). -/
def claimW (t : Nat) (f : State → State) : RegW := { rsvd := bitsOf [(31, 10)], read := fun s => s.claimWord t, after := f }

def State.evtRegs (s : State) (off : Nat) : RegAt :=
  regFirst [
    fun _ => regAt off 0x0000 (errW fun s => s.evt.err),
    fun _ => regAt off 0x0004 (cntW fun s => s.evt.seq),
    fun _ => regEach off 0x0100 4 8 fun t => claimW t fun s => s.coreClaim t,
    fun _ => regEach off 0x0120 4 8 fun t => rwW [] (fun _ => 0) fun v s => s.doneSrc t v,
    fun _ => regEach off 0x0400 8 64 fun g =>
      rwD [(51, 32)] (s.grp g).word (fun s => (s.grp g).word ||| put 64 0 (s.grp g).delivered) fun v s => s.grpWrite g v,
    fun _ => regEach off 0x1000 8 1024 fun k =>
      rwD [] (s.src k).rw (fun s => if assigned k then (s.src k).word else 0) fun v s => s.srcWrite k v,
    fun _ => regEach off 0x3000 8 16 fun w => roD [] fun s =>
      (List.range 64).foldl (fun a i => a ||| putB 64 i (s.src (64 * w + i)).pend) 0]

/-- LOG_STATUS.SHORT (R571): fewer than 11 circulating sectors are usable. -/
def State.logShort (s : State) : Bool := decide (((List.range 15).filter fun i => !(s.sector (i + 1)).failed).length < 11)
/-- LOG_FIRST: the oldest circulating record that LOG_READ returns, LOG_NEXT where it returns none (R572, R573). -/
def State.logFirst (s : State) : Nat := match (s.logRecords true).head? with
  | some b => hdF b 0 4
  | none => s.flog.next.toNat

def logRegs (off : Nat) : RegAt :=
  regFirst [
    fun _ => regAt off 0x000 (errW fun s => s.flog.err),
    fun _ => regAt off 0x004 (roW [(29, 12)] fun s =>
      putB 64 31 (decide (1024 ≤ (s.sector 0).slots.length)) ||| putB 64 30 s.logShort |||
      put 64 8 (BitVec.ofNat 4 s.erasedSectors) ||| put 64 0 (BitVec.ofNat 8 (min 0xFF s.flog.buffer.length))),
    fun _ => regAt off 0x008 (cntW fun s => s.flog.next),
    fun _ => regAt off 0x00C (cntW fun s => BitVec.ofNat 32 s.logFirst),
    fun _ => regAt off 0x010 (cntW fun s => s.flog.dropped),
    fun _ => regAt off 0x014 (cntW fun s => s.flog.pcycle),
    fun _ => regAt off 0x018 (roD [(63, 40)] fun s => put 64 0 s.flog.opsec)]

/-! ### BAR0 (R332, R348 to R350, R387 to R389, R566) -/

/-- HST_PORT_CTRL (R349). -/
def State.portCtrl (s : State) (h : Nat) (v : Word) : State :=
  let n : BitVec 7 := fld v 0 7
  if n = 0 ∨ 64 < n.toNat then s.modFunc h 0 fun x => { x with err := x.err.refuse } else s.modHPort h fun p => { p with hold := n }

/-- EVT_HMASK (R566). -/
def State.hmaskWrite (s : State) (h : Nat) (v : DWord) : State :=
  (s.modFunc h 0 fun x => { x with hmask := fld v 52 12 }).each ((List.range 12).map (· + 52)) fun s g => s.deliver g

/-- HST_DLOG_BASE (R347, R350). -/
def State.dlogBase (s : State) (h f : Nat) (v : DWord) : State :=
  if (s.func h f).dlog.en then s.modFunc h 0 fun x => { x with err := x.err.refuse }
  else s.modFunc h f fun x => { x with dlog := { x.dlog with base := v &&& 0xFFFFFFFFFFFFF000 } }

/-- ITL_VEC (R388, R389). -/
def State.vecWrite (s : State) (h f : Nat) (v : Word) : State :=
  let one := fun (m : Mailbox) =>
    if msixSize f ≤ fldN v 0 10 then { m with err := m.err.refuse }
    else { m with ven := bit v 31, nven := bit v 30, vector := fld v 0 10 }
  s.modFunc h f fun x => { x with mail := one x.mail }

/-- ITL_STATUS: W1C of DONE and NLOST (R388). -/
def State.mailAck (s : State) (h f : Nat) (v : Word) : State :=
  s.modFunc h f fun x => { x with mail := { x.mail with done := x.mail.done && !bit v 29, nlost := x.mail.nlost && !bit v 27 } }

/-- ITL_CTRL (R388): the staged parts are discarded before a request of the same write is submitted. -/
def State.mailCtrl (s : State) (h : HPortIx) (f : FuncIx) (v : Word) : State :=
  (s.when (bit v 1) fun s => s.mailDiscard h f).when (bit v 0) fun s => s.mailGo h f

/-- `n` bytes of `v` into ITL_REQ at offset `o`, refused while BUSY (R387, R389). -/
def State.mailReq (s : State) (h f o n : Nat) (v : DWord) : State :=
  let put1 := fun (t : Tab Byte) (e : Nat × Byte) => Tab.insert t (o + e.1) e.2
  let one := fun (m : Mailbox) =>
    if m.busy then { m with err := m.err.refuse }
    else { m with req := ((List.range n).zip (toBytes n v.toNat)).foldl put1 m.req }
  s.modFunc h f fun x => { x with mail := one x.mail }

def State.mail (s : State) (h : HPortIx) (f : FuncIx) : Mailbox := (s.func h.val f.val).mail
/-- ITL_STATUS (R388). -/
def State.mailStatus (s : State) (h : HPortIx) (f : FuncIx) : DWord :=
  let m := s.mail h f
  putB 64 31 s.itl.avail ||| putB 64 30 m.busy ||| putB 64 29 m.done ||| putB 64 28 (decide (m.prod ≠ m.cons)) |||
  putB 64 27 m.nlost ||| put 64 0 m.last

def mailRegs (h : HPortIx) (f : FuncIx) (off : Nat) : RegAt :=
  regFirst [
    fun _ => regAt off 0x0000 (errW fun s => (s.mail h f).err),
    fun _ => regAt off 0x0004 (rwW [(31, 2)] (fun _ => 0) fun v s => s.mailCtrl h f v),
    fun _ => regAt off 0x0008 (rwW [(26, 16)] (fun s => s.mailStatus h f) fun v s => s.mailAck h.val f.val v),
    fun _ => regAt off 0x000C (rwW [(29, 10)]
      (fun s => putB 64 31 (s.mail h f).ven ||| putB 64 30 (s.mail h f).nven ||| put 64 0 (s.mail h f).vector)
      fun v s => s.vecWrite h.val f.val v),
    fun _ => regAt off 0x0010 (cntW fun s => (s.mail h f).prod),
    fun _ => regAt off 0x0014 (rwW [] (fun s => put 64 0 (s.mail h f).cons) fun v s => s.mailCons h f v),
    fun _ => regAt off 0x0018 (cntW fun s => (s.mail h f).drop),
    fun _ => regEach off 0x1000 4 1024 fun i => rwW []
      (fun s => BitVec.ofNat 64 (leNat ((List.range 4).map fun j => Tab.get (fun _ => (0 : Byte)) (s.mail h f).req (4 * i + j))))
      fun v s => s.mailReq h.val f.val (4 * i) 4 (v.setWidth 64),
    fun _ => regEach off 0x2000 4 1024 fun i => roW [] fun s => BitVec.ofNat 64 (bytesAt (s.mail h f).rsp (4 * i) 4),
    fun _ => regEach off 0x4000 4 4096 fun i => roW [] fun s =>
      BitVec.ofNat 64 (bytesAt (Tab.get (fun _ => []) (s.mail h f).notes (i / 64)) (4 * (i % 64)) 4)]

/-- HST_TDI.STATE (R348). -/
def tdiCode : TdiSt → BitVec 4
  | .unlocked => 0
  | .locked => 1
  | .run => 2
  | .error => 3
/-- HST_PORT_STATUS.STATE (R349). -/
def hportCode : HPortSt → BitVec 4
  | .down => 0
  | .training => 1
  | .up => 2
  | .recovery => 3
  | .hold => 4
/-- HST_BAR2_WIN (R348). -/
def Func.winWord (x : Func) : DWord := putB 64 63 x.winEn ||| put 64 48 x.winCtx ||| put 64 16 x.winBase

def State.funcRegs (s : State) (h f off : Nat) (tbit : Bool) : RegAt :=
  regFirst [
    fun _ => regAt off 0x000 (errW fun s => (s.func h f).err),
    fun _ => regAt off 0x004 (roW [(30, 25)] fun s =>
      let x := s.func h f
      putB 64 31 x.bound ||| put 64 16 x.slot ||| put 64 0 x.cid),
    fun _ => regAt off 0x008 (rwD [] (s.func h f).winWord (fun s => (s.func h f).winWord) fun v s => s.bar2WinWrite h f v tbit),
    fun _ => regAt off 0x010 (roW [(23, 7)] fun s =>
      let x := s.func h f
      put 64 28 (tdiCode x.tdi) ||| put 64 24 x.tdiCause ||| putB 64 6 x.tdiSValid ||| put 64 0 x.tdiStream),
    fun _ => regAt off 0x014 (cntW fun s => (s.func h f).refused)]

/-- HST_DLOG_CTRL (R350). -/
def Dlog.ctrlWord (d : Dlog) : DWord :=
  putB 64 31 d.en ||| putB 64 30 d.ovf ||| putB 64 28 d.hostEn ||| putB 64 27 d.devEn ||| put 64 0 d.sizeLog2

def State.pfRegs (s : State) (h off : Nat) : RegAt :=
  regFirst [
    fun _ => regAt off 0x1000 (roW [(20, 8)] fun s =>
      let p := s.hport h
      put 64 28 (hportCode p.st) ||| put 64 24 p.rate ||| put 64 21 p.width ||| put 64 0 p.holdLeft),
    fun _ => regAt off 0x1004 (rwW [(31, 7)] (fun s => put 64 0 (s.hport h).hold) fun v s => s.portCtrl h v),
    fun _ => regAt off 0x1008 (cntW fun s => (s.hport h).cntLost),
    fun _ => regAt off 0x1800 (rwW [] (fun s => putB 64 31 (s.func h 0).hcfgEn ||| put 64 0 (s.func h 0).hcfgVec)
      fun v s => s.hcfgWrite h v),
    fun _ => regAt off 0x1808 (rwD [(51, 0)] (put 64 52 (s.func h 0).hmask) (fun s => put 64 52 (s.func h 0).hmask)
      fun v s => s.hmaskWrite h v),
    fun _ => regAt off 0x1810 (claimW (8 + h) fun s => s.claimSrc (8 + h)),
    fun _ => regAt off 0x1814 (rwW [] (fun _ => 0) fun v s => s.doneSrc (8 + h) v),
    fun _ => regArr off 0x40000 0x40 257 fun f o => regFirst [
      fun _ => regAt o 0x00 (rwD [(11, 0)] (s.func h f).dlog.base (fun s => (s.func h f).dlog.base) fun v s => s.dlogBase h f v),
      fun _ => regAt o 0x08 (rwW [] (fun s => (s.func h f).dlog.ctrlWord) fun v s => s.dlogCtrl h f v),
      fun _ => regAt o 0x10 (cntW fun s => (s.func h f).dlog.prod),
      fun _ => regAt o 0x14 (rwW [] (fun s => put 64 0 (s.func h f).dlog.cons) fun v s => s.dlogCons h f v)]]

/-- A word of the MSI-X PBA (R332). -/
def Func.pba (x : Func) (w : Nat) : DWord :=
  (List.range 64).foldl (fun a i => a ||| putB 64 i (Tab.get (fun _ => ({} : Msix)) x.msix (64 * w + i)).pend) 0

/-! ### The address spaces -/

/-- The register at an address, with the register's own address. -/
def State.regFind (s : State) (sp : RegSpace) (a : Nat) : RegAt :=
  let sub := fun (base : Nat) (r : RegAt) => r.map fun x => (base + x.1, x.2)
  match sp with
  | .bar0 h f tbit =>
    if a < 0x1000 then s.funcRegs h.val f.val a tbit
    else if 0x10000 ≤ a ∧ a < 0x20000 then sub 0x10000 (mailRegs h f (a - 0x10000))
    else if 0x28000 ≤ a ∧ a < 0x28080 then regEach a 0x28000 8 16 fun w => roD [] fun s => (s.func h.val f.val).pba w
    else if f.val = 0 then s.pfRegs h.val a
    else none
  | .zesin _ =>
    let page := a / 0x1000 % 0x1000
    let top := a / 0x1000000
    let low := a % 0x1000000
    let at_ := a - a % 0x1000
    if top = 0x20 ∧ page < 544 then sub at_ (s.tilRegs page (a % 0x1000))
    else if top = 0x24 ∧ page < 544 then sub at_ (srmRegs page (a % 0x1000))
    else if top = 0x28 ∧ 0x400000 ≤ low then sub 0x28400000 (s.memRegs (low - 0x400000))
    else if top = 0x28 ∧ low / 0x10000 < 48 then sub (a - a % 0x10000) (s.mcRegs (low / 0x10000) (a % 0x10000))
    else if top = 0x29 then sub 0x29000000 (s.xltRegs low)
    else if top = 0x2A then sub 0x2A000000 (s.brdRegs low)
    else if top = 0x2B then sub 0x2B000000 (s.fabRegs low)
    else if top = 0x2C ∧ page < 48 then sub at_ (lnkRegs page (a % 0x1000))
    else if top = 0x2D then sub 0x2D000000 (s.queRegs low)
    else if top = 0x2E then sub 0x2E000000 (s.seqRegs low)
    else if top = 0x2F then sub 0x2F000000 (cadRegs low)
    else if top = 0x30 then sub 0x30000000 (pwrRegs low)
    else if top = 0x31 then sub 0x31000000 (rotRegs low)
    else if top = 0x32 then sub 0x32000000 (cryRegs low)
    else if top = 0x33 then sub 0x33000000 (s.evtRegs low)
    else if top = 0x34 then sub 0x34000000 (logRegs low)
    else none

/-- The reserved-write count of the block that holds an address (R9). -/
def State.reservedAt (s : State) (sp : RegSpace) (a : Nat) : State :=
  match sp with
  | .bar0 h f _ =>
    if 0x10000 ≤ a ∧ a < 0x20000 then
      s.modFunc h.val f.val fun x => { x with mail := { x.mail with err := x.mail.err.reserved } }
    else if f.val = 0 ∧ 0x1800 ≤ a ∧ a < 0x1820 then s.modEvt fun e => { e with err := e.err.reserved }
    else s.modFunc h.val f.val fun x => { x with err := x.err.reserved }
  | .zesin _ =>
    let page := a / 0x1000 % 0x1000
    let low := a % 0x1000000
    match a / 0x1000000 with
    | 0x20 => if page < 544 then s.modTile page fun x => { x with err := x.err.reserved } else s
    | 0x24 => if page < 544 then s.modSrm page fun x => { x with err := x.err.reserved } else s
    | 0x28 =>
      if 0x400000 ≤ low then s.modLp fun m => { m with err := m.err.reserved }
      else if low / 0x10000 < 48 then s.modLp fun m => { m with
        mcErr := Tab.insert m.mcErr (low / 0x10000) (Tab.get (fun _ => ({} : ErrReg)) m.mcErr (low / 0x10000)).reserved }
      else s
    | 0x29 => s.modXlt fun x => { x with err := x.err.reserved }
    | 0x2A => s.modBrd fun x => { x with err := x.err.reserved }
    | 0x2B => s.modFab fun x => { x with err := x.err.reserved }
    | 0x2C => if page < 48 then s.modPort page fun x => { x with err := x.err.reserved } else s
    | 0x2D => s.modQue fun x => { x with err := x.err.reserved }
    | 0x2E => s.modSched fun x => { x with err := x.err.reserved }
    | 0x2F => s.modCad fun x => { x with err := x.err.reserved }
    | 0x30 => s.modPwr fun x => { x with err := x.err.reserved }
    | 0x31 => s.modRot fun x => { x with err := x.err.reserved }
    | 0x32 => s.modCry fun x => { x with err := x.err.reserved }
    | 0x33 => s.modEvt fun x => { x with err := x.err.reserved }
    | 0x34 => s.modFlog fun x => { x with err := x.err.reserved }
    | _ => s

/-- The key of a register in `lowHeld` and `highLatch`. -/
def holdKey (sp : RegSpace) (a : Nat) : Nat :=
  match sp with
  | .zesin _ => a
  | .bar0 h f _ => 2 ^ 32 * (1 + funcKey h.val f.val) + a

/-- A whole register is written: reserved bits are counted once, the rest takes effect (R9). -/
def State.regTake (s : State) (sp : RegSpace) (a : Nat) (r : RegW) (v : DWord) : State :=
  let s := { s with lowHeld := Tab.erase s.lowHeld (holdKey sp a) }
  r.write (v &&& ~~~r.rsvd) (s.when (decide (v &&& r.rsvd ≠ 0)) fun s => s.reservedAt sp a)

/-- A 32-bit access (R9, R13). -/
def State.regWrite32 (s : State) (sp : RegSpace) (a : Nat) (v : Word) : State :=
  match s.regFind sp a with
  | none => s.when (decide (v ≠ 0)) fun s => s.reservedAt sp a
  | some (b, r) =>
    if !r.wide then s.regTake sp b r (v.setWidth 64)
    else if a = b then { s with lowHeld := Tab.insert s.lowHeld (holdKey sp b) v }
    else
      let low : DWord := match Tab.find s.lowHeld (holdKey sp b) with
        | some w => w.setWidth 64
        | none => r.cur &&& 0xFFFFFFFF
      s.regTake sp b r (put 64 32 v ||| low)

/-- A 64-bit access (R13). -/
def State.regWrite64 (s : State) (sp : RegSpace) (a : Nat) (v : DWord) : State :=
  match s.regFind sp a with
  | some (b, r) =>
    if r.wide then s.regTake sp b r v
    else (s.regWrite32 sp a (v.setWidth 32)).regWrite32 sp (a + 4) (fld v 32 32)
  | none => (s.regWrite32 sp a (v.setWidth 32)).regWrite32 sp (a + 4) (fld v 32 32)

/-- A write of `2 ^ log2` bytes under R13. -/
def State.regWrite (s : State) (sp : RegSpace) (a log2 : Nat) (v : DWord) : State :=
  if log2 < 2 ∨ a % 2 ^ log2 ≠ 0 then s.reservedAt sp a
  else if log2 = 2 then s.regWrite32 sp a (v.setWidth 32)
  else s.regWrite64 sp a v

/-- The MSI-X table takes 32-bit and 64-bit accesses (R332). -/
def State.msixAccess (s : State) (h : HPortIx) (f : FuncIx) (a log2 : Nat) (v : DWord) (tbit : Bool) : State :=
  let o := a - 0x20000
  if log2 < 2 ∨ a % 2 ^ log2 ≠ 0 then s.reservedAt (.bar0 h f tbit) a
  else if log2 = 2 then s.msixWrite h.val f.val o (v.setWidth 32) tbit
  else (s.msixWrite h.val f.val o (v.setWidth 32) tbit).msixWrite h.val f.val (o + 4) (fld v 32 32) tbit

/-- A 32-bit read (R9, R13): an offset that no map lists reads zero; the low word of a 64-bit register latches its high
word for the next read of the high word. -/
def State.regRead32 (s : State) (sp : RegSpace) (a : Nat) : Word × State :=
  match s.regFind sp a with
  | none => (0, s)
  | some (b, r) =>
    if !r.wide then ((r.read s).setWidth 32, r.after s)
    else if a = b then
      ((r.read s).setWidth 32, { s with highLatch := Tab.insert s.highLatch (holdKey sp b) (fld (r.read s) 32 32) })
    else match Tab.find s.highLatch (holdKey sp b) with
      | some w => (w, { s with highLatch := Tab.erase s.highLatch (holdKey sp b) })
      | none => (fld (r.read s) 32 32, s)

/-- A 64-bit read (R13): of a 64-bit register, or of the two words, the lower address first. -/
def State.regRead64 (s : State) (sp : RegSpace) (a : Nat) : DWord × State :=
  let two :=
    let lo := s.regRead32 sp a
    let hi := lo.2.regRead32 sp (a + 4)
    (put 64 32 hi.1 ||| lo.1.setWidth 64, hi.2)
  match s.regFind sp a with
  | some (_, r) => if r.wide then (r.read s, s) else two
  | none => two

/-- A read of `2 ^ log2` bytes (R13): a byte, a 16-bit or a misaligned access reads zero and is counted. -/
def State.regRead (s : State) (sp : RegSpace) (a log2 : Nat) : DWord × State :=
  if log2 < 2 ∨ a % 2 ^ log2 ≠ 0 then (0, s.reservedAt sp a)
  else if log2 = 2 then ((s.regRead32 sp a).1.setWidth 64, (s.regRead32 sp a).2)
  else s.regRead64 sp a

/-- A word of the MSI-X table (R332): entries beyond the Table Size read zero. -/
def Func.msixWord (x : Func) (f o : Nat) : Word :=
  let e := Tab.get (fun _ => ({} : Msix)) x.msix (o / 16)
  if msixSize f ≤ o / 16 then 0 else match o % 16 / 4 with
    | 0 => fld e.addr 0 32
    | 1 => fld e.addr 32 32
    | 2 => e.data
    | _ => putB 32 0 e.mask

/-- Whether a debug master may read, or write, registers (R513, R514). -/
def State.debugReads (s : State) : Bool := s.rot.debugOpen && bit s.rot.debugRights 0
def State.debugWrites (s : State) : Bool := s.rot.debugOpen && bit s.rot.debugRights 1

/-- A TEE range of BAR0 that R340 guards. -/
def teeRange (a : Nat) : Bool := 
  decide (a < 0x1000 ∨ (0x20000 ≤ a ∧ a < 0x24000) ∨ (0x28000 ≤ a ∧ a < 0x28100) ∨ (0x1000000 ≤ a ∧ a < 0x2000000))

/-- What a read of a register answers, none for Unsupported Request (R340), and what it changes. No row of the command
table reads a register (log entry 49); EVENT_CLAIM and HOST_EVENT_CLAIM are the two reads that act (R559). -/
def State.registerRead (s : State) (sp : RegSpace) (a log2 : Nat) : Option DWord × State :=
  match sp with
  | .zesin debug => if debug && !s.debugReads then (some 0, s) else
    let r := s.regRead sp a log2
    (some r.1, r.2)
  | .bar0 h f tbit =>
    let x := s.func h.val f.val
    if teeRange a && x.teeRefuses tbit then (none, s.hostRefused h.val f.val)
    else if 0x20000 ≤ a ∧ a < 0x24000 then
      if log2 < 2 ∨ a % 2 ^ log2 ≠ 0 then (some 0, s.reservedAt sp a)
      else
        let lo := (x.msixWord f.val (a - 0x20000)).setWidth 64
        (some (if log2 = 2 then lo else put 64 32 (x.msixWord f.val (a - 0x20000 + 4)) ||| lo), s)
    else if 0x1000000 ≤ a then
      -- a doorbell page answers with the last tail taken (R333)
      match s.queueOn h.val f.val (a / 0x1000 % 0x1000) with
      | some e => (some (if a % 0x1000 = 0 ∧ log2 = 2 ∧ a < 0x2000000 then (s.qRo e).tail.setWidth 64 else 0), s)
      | none => (some 0, s)
    else
      let r := s.regRead sp a log2
      (some r.1, r.2)

/-- REGISTER_WRITE. The TEE ranges of BAR0 refuse what R340 refuses. -/
def execRegisterWrite (sp : RegSpace) (addr : Word) (log2 : Fin 4) (value : DWord) (s : State) : Out :=
  let a := addr.toNat
  match sp with
  | .zesin debug => if debug && !s.debugWrites then .next s else .next (s.regWrite sp a log2.val value)
  | .bar0 h f tbit =>
    if 0x1000000 ≤ a then
      if a < 0x2000000 then .next (s.doorbellWrite h.val f.val (a / 0x1000 % 0x1000) (a % 0x1000) log2.val (value.setWidth 32) tbit)
      else .next (s.reservedAt sp a)
    else if 0x20000 ≤ a ∧ a < 0x24000 then .next (s.msixAccess h f a log2.val value tbit)
    else if teeRange a && (s.func h.val f.val).teeRefuses tbit then .next (s.hostRefused h.val f.val)
    else .next (s.regWrite sp a log2.val value)

end Sys2Proof.Machine
end

