-- ==== Sys2Proof/Machine/Dispatch.lean ====
section
/-! DEFINITION. What each command does: one arm per row of the table, each one call of its meaning. -/

namespace Sys2Proof.Machine

def exec (i : Instr) (s : State) : Host.Outcome State Fault Refusal :=
  match i with
  | .registerWrite space addr log2 value => Sys2Proof.Machine.execRegisterWrite space addr log2 value s
  | .cadenceTick cycles => Sys2Proof.Machine.execCadenceTick cycles s
  | .cadencePeriodWrap cycles => Sys2Proof.Machine.execCadencePeriodWrap cycles s
  | .tetherMarker highNs intervalNs => Sys2Proof.Machine.execTetherMarker highNs intervalNs s
  | .epochFrame frame => Sys2Proof.Machine.execEpochFrame frame s
  | .markerTimeout => Sys2Proof.Machine.execMarkerTimeout s
  | .tetherReversal => Sys2Proof.Machine.execTetherReversal s
  | .commitBoundary => Sys2Proof.Machine.execCommitBoundary s
  | .srmCommitGo t => Sys2Proof.Machine.execSrmCommitGo t s
  | .memCommitGo => Sys2Proof.Machine.execMemCommitGo s
  | .xltCommitGo => Sys2Proof.Machine.execXltCommitGo s
  | .brdCommitGo => Sys2Proof.Machine.execBrdCommitGo s
  | .lnkCommitGo p => Sys2Proof.Machine.execLnkCommitGo p s
  | .fabCommitGo => Sys2Proof.Machine.execFabCommitGo s
  | .queCommitGo => Sys2Proof.Machine.execQueCommitGo s
  | .seqCommitGo => Sys2Proof.Machine.execSeqCommitGo s
  | .cadCommitGo => Sys2Proof.Machine.execCadCommitGo s
  | .pwrCommitGo => Sys2Proof.Machine.execPwrCommitGo s
  | .coreClamp t v => Sys2Proof.Machine.execCoreClamp t v s
  | .coreGate t v => Sys2Proof.Machine.execCoreGate t v s
  | .coreUnpowered t => Sys2Proof.Machine.execCoreUnpowered t s
  | .narrowEn t v => Sys2Proof.Machine.execNarrowEn t v s
  | .issueHold t v => Sys2Proof.Machine.execIssueHold t v s
  | .issueHeld t => Sys2Proof.Machine.execIssueHeld t s
  | .tilCycleWrap h => Sys2Proof.Machine.execTilCycleWrap h s
  | .bankHold t b v => Sys2Proof.Machine.execBankHold t b v s
  | .bankPurge t b v => Sys2Proof.Machine.execBankPurge t b v s
  | .purgeComplete t b => Sys2Proof.Machine.execPurgeComplete t b s
  | .purgeTimeout t b => Sys2Proof.Machine.execPurgeTimeout t b s
  | .isolationDrainDone t => Sys2Proof.Machine.execIsolationDrainDone t s
  | .isolationDrainTimeout t => Sys2Proof.Machine.execIsolationDrainTimeout t s
  | .shiftCopyStart h row => Sys2Proof.Machine.execShiftCopyStart h row s
  | .shiftCopyDone h row => Sys2Proof.Machine.execShiftCopyDone h row s
  | .shellFailure t element => Sys2Proof.Machine.execShellFailure t element s
  | .scalarOp t b op => Sys2Proof.Machine.execScalarOp t b op s
  | .scalarMemory t b op ecc => Sys2Proof.Machine.execScalarMemory t b op ecc s
  | .vectorOp t b op => Sys2Proof.Machine.execVectorOp t b op s
  | .vectorMemory t b op ecc => Sys2Proof.Machine.execVectorMemory t b op ecc s
  | .conversion t b op => Sys2Proof.Machine.execConversion t b op s
  | .blockQuantize t b op => Sys2Proof.Machine.execBlockQuantize t b op s
  | .mmaB t b op found => Sys2Proof.Machine.execMmaB t b op found s
  | .mmaV t b op found => Sys2Proof.Machine.execMmaV t b op found s
  | .accMov t b acc row dst upper => Sys2Proof.Machine.execAccMov t b acc row dst upper s
  | .accZero t b acc => Sys2Proof.Machine.execAccZero t b acc s
  | .streamStart t b ch sd ecc => Sys2Proof.Machine.execStreamStart t b ch sd ecc s
  | .streamArm t b ch sn => Sys2Proof.Machine.execStreamArm t b ch sn s
  | .streamWait t b ch => Sys2Proof.Machine.execStreamWait t b ch s
  | .streamStop t b ch => Sys2Proof.Machine.execStreamStop t b ch s
  | .fenceSignal t b op => Sys2Proof.Machine.execFenceSignal t b op s
  | .fenceWait t b op => Sys2Proof.Machine.execFenceWait t b op s
  | .semAcq t b op => Sys2Proof.Machine.execSemAcq t b op s
  | .semRel t b op => Sys2Proof.Machine.execSemRel t b op s
  | .barArrive t b sg sb => Sys2Proof.Machine.execBarArrive t b sg sb s
  | .barWait t b sd sb sg hook timeout => Sys2Proof.Machine.execBarWait t b sd sb sg hook timeout s
  | .flagsOp t b sd clear => Sys2Proof.Machine.execFlagsOp t b sd clear s
  | .endOp t b => Sys2Proof.Machine.execEndOp t b s
  | .nopOp t b => Sys2Proof.Machine.execNopOp t b s
  | .walkComplete t b ecc => Sys2Proof.Machine.execWalkComplete t b ecc s
  | .fillDelayExpiry t => Sys2Proof.Machine.execFillDelayExpiry t s
  | .linkSlot t ch => Sys2Proof.Machine.execLinkSlot t ch s
  | .linkBeat t port dch data => Sys2Proof.Machine.execLinkBeat t port dch data s
  | .pairingWord t port dch cid ctx credits => Sys2Proof.Machine.execPairingWord t port dch cid ctx credits s
  | .linkCreditReturn t cch n => Sys2Proof.Machine.execLinkCreditReturn t cch n s
  | .meshRead p ecc => Sys2Proof.Machine.execMeshRead p ecc s
  | .meshWrite p ecc => Sys2Proof.Machine.execMeshWrite p ecc s
  | .meshAtomic p op ecc => Sys2Proof.Machine.execMeshAtomic p op ecc s
  | .meshUnknownType p => Sys2Proof.Machine.execMeshUnknownType p s
  | .readResponse p => Sys2Proof.Machine.execReadResponse p s
  | .writeAcknowledgement p => Sys2Proof.Machine.execWriteAcknowledgement p s
  | .atomicResponse p => Sys2Proof.Machine.execAtomicResponse p s
  | .barrierArrival p fact => Sys2Proof.Machine.execBarrierArrival p fact s
  | .barrierRelease obj gen members toHome => Sys2Proof.Machine.execBarrierRelease obj gen members toHome s
  | .barWaitTimeout t b => Sys2Proof.Machine.execBarWaitTimeout t b s
  | .sramCorrectedRewrite t line => Sys2Proof.Machine.execSramCorrectedRewrite t line s
  | .sramClear t v => Sys2Proof.Machine.execSramClear t v s
  | .sramClearDone t => Sys2Proof.Machine.execSramClearDone t s
  | .srmUeValidClear t v => Sys2Proof.Machine.execSrmUeValidClear t v s
  | .sramScrub t found => Sys2Proof.Machine.execSramScrub t found s
  | .lpddrPatrolScrub p ecc rmac => Sys2Proof.Machine.execLpddrPatrolScrub p ecc rmac s
  | .refresh ch => Sys2Proof.Machine.execRefresh ch s
  | .calibrationWindow ch odecc driftPs => Sys2Proof.Machine.execCalibrationWindow ch odecc driftPs s
  | .writeDqRetrain ch => Sys2Proof.Machine.execWriteDqRetrain ch s
  | .backgroundDeadline item unit => Sys2Proof.Machine.execBackgroundDeadline item unit s
  | .checkDelta h => Sys2Proof.Machine.execCheckDelta h s
  | .checkLineWriteback p line => Sys2Proof.Machine.execCheckLineWriteback p line s
  | .pairRebuildDone p => Sys2Proof.Machine.execPairRebuildDone p s
  | .mr4RateChange p rate => Sys2Proof.Machine.execMr4RateChange p rate s
  | .coderJobDone mc ecc far => Sys2Proof.Machine.execCoderJobDone mc ecc far s
  | .reencryptDone p region => Sys2Proof.Machine.execReencryptDone p region s
  | .kidRetired k => Sys2Proof.Machine.execKidRetired k s
  | .xltInv e index => Sys2Proof.Machine.execXltInv e index s
  | .xltSync e index => Sys2Proof.Machine.execXltSync e index s
  | .xltSyncDone e index => Sys2Proof.Machine.execXltSyncDone e index s
  | .prgResponse h f prgi code => Sys2Proof.Machine.execPrgResponse h f prgi code s
  | .pageRequestTimeout h f prgi => Sys2Proof.Machine.execPageRequestTimeout h f prgi s
  | .pageRequestDequeue h f => Sys2Proof.Machine.execPageRequestDequeue h f s
  | .epochFenceClose k => Sys2Proof.Machine.execEpochFenceClose k s
  | .fenceStallTimeout k => Sys2Proof.Machine.execFenceStallTimeout k s
  | .moveCopyDone h => Sys2Proof.Machine.execMoveCopyDone h s
  | .unitClearDone r => Sys2Proof.Machine.execUnitClearDone r s
  | .leaseExpiry cid => Sys2Proof.Machine.execLeaseExpiry cid s
  | .graceExpiry cid => Sys2Proof.Machine.execGraceExpiry cid s
  | .linkFrameReceive p f => Sys2Proof.Machine.execLinkFrameReceive p f s
  | .linkFrameTransmit p => Sys2Proof.Machine.execLinkFrameTransmit p s
  | .signalDetect p positions => Sys2Proof.Machine.execSignalDetect p positions s
  | .lossOfSignal p positions => Sys2Proof.Machine.execLossOfSignal p positions s
  | .trainingStepComplete p fact => Sys2Proof.Machine.execTrainingStepComplete p fact s
  | .trainingStepTimeout p fact => Sys2Proof.Machine.execTrainingStepTimeout p fact s
  | .failedPortRetrain p => Sys2Proof.Machine.execFailedPortRetrain p s
  | .retrainPort p v => Sys2Proof.Machine.execRetrainPort p v s
  | .fastRetrain p v => Sys2Proof.Machine.execFastRetrain p v s
  | .disablePort p v => Sys2Proof.Machine.execDisablePort p v s
  | .clrCnt p v => Sys2Proof.Machine.execClrCnt p v s
  | .maxWidth p v => Sys2Proof.Machine.execMaxWidth p v s
  | .substEn p v => Sys2Proof.Machine.execSubstEn p v s
  | .discovery p m => Sys2Proof.Machine.execDiscovery p m s
  | .substReq p m => Sys2Proof.Machine.execSubstReq p m s
  | .substAck p m => Sys2Proof.Machine.execSubstAck p m s
  | .substNak p m => Sys2Proof.Machine.execSubstNak p m s
  | .eyeMeasurement p pos height width => Sys2Proof.Machine.execEyeMeasurement p pos height width s
  | .keyx p m => Sys2Proof.Machine.execKeyx p m s
  | .fabricIngress port p ecc => Sys2Proof.Machine.execFabricIngress port p ecc s
  | .fabricRoute p => Sys2Proof.Machine.execFabricRoute p s
  | .fabricEgressRelease p => Sys2Proof.Machine.execFabricEgressRelease p s
  | .fabricResponse p => Sys2Proof.Machine.execFabricResponse p s
  | .fabricRequestTimeout ftag => Sys2Proof.Machine.execFabricRequestTimeout ftag s
  | .collectiveLocalWrite p => Sys2Proof.Machine.execCollectiveLocalWrite p s
  | .collectiveContribution port p => Sys2Proof.Machine.execCollectiveContribution port p s
  | .collectiveResult port p => Sys2Proof.Machine.execCollectiveResult port p s
  | .collectiveTimeout c => Sys2Proof.Machine.execCollectiveTimeout c s
  | .doorbell h f q offset log2 value tbit => Sys2Proof.Machine.execDoorbell h f q offset log2 value tbit s
  | .bar2Read h f offset bytes tbit tag => Sys2Proof.Machine.execBar2Read h f offset bytes tbit tag s
  | .bar2Write h f offset data tbit => Sys2Proof.Machine.execBar2Write h f offset data tbit s
  | .dlogRearm h f v => Sys2Proof.Machine.execDlogRearm h f v s
  | .dlogConsWrite h f v => Sys2Proof.Machine.execDlogConsWrite h f v s
  | .flr h f => Sys2Proof.Machine.execFlr h f s
  | .vfEnableClear h => Sys2Proof.Machine.execVfEnableClear h s
  | .hstBar2WinWrite h f v tbit => Sys2Proof.Machine.execHstBar2WinWrite h f v tbit s
  | .msixTableWrite h f offset v tbit => Sys2Proof.Machine.execMsixTableWrite h f offset v tbit s
  | .lockInterface h f => Sys2Proof.Machine.execLockInterface h f s
  | .startInterface h f => Sys2Proof.Machine.execStartInterface h f s
  | .stopInterface h f => Sys2Proof.Machine.execStopInterface h f s
  | .ideKm h session stream subStream lo hi => Sys2Proof.Machine.execIdeKm h session stream subStream lo hi s
  | .ideIntegrityFailure h f => Sys2Proof.Machine.execIdeIntegrityFailure h f s
  | .hostDlDown h => Sys2Proof.Machine.execHostDlDown h s
  | .hostHoldExpiry h => Sys2Proof.Machine.execHostHoldExpiry h s
  | .hostLinkUp h => Sys2Proof.Machine.execHostLinkUp h s
  | .hostCompletion h tag c => Sys2Proof.Machine.execHostCompletion h tag c s
  | .hostCompletionTimeout h tag => Sys2Proof.Machine.execHostCompletionTimeout h tag s
  | .atsInvalidation h f itag pasid page pages => Sys2Proof.Machine.execAtsInvalidation h f itag pasid page pages s
  | .perstAssert h => Sys2Proof.Machine.execPerstAssert h s
  | .perstDeassert h => Sys2Proof.Machine.execPerstDeassert h s
  | .configRequest h f write reg value tag => Sys2Proof.Machine.execConfigRequest h f write reg value tag s
  | .ringFetch e packets ok => Sys2Proof.Machine.execRingFetch e packets ok s
  | .launch e index => Sys2Proof.Machine.execLaunch e index s
  | .launchTileStart e index t far => Sys2Proof.Machine.execLaunchTileStart e index t far s
  | .signalCmd e index => Sys2Proof.Machine.execSignalCmd e index s
  | .waitCmd e index => Sys2Proof.Machine.execWaitCmd e index s
  | .queueWaitTimeout e index => Sys2Proof.Machine.execQueueWaitTimeout e index s
  | .coder e index far => Sys2Proof.Machine.execCoder e index far s
  | .freeObj e index => Sys2Proof.Machine.execFreeObj e index s
  | .faultAck e index => Sys2Proof.Machine.execFaultAck e index s
  | .queueNop e index => Sys2Proof.Machine.execQueueNop e index s
  | .waitLimitExpiry t b => Sys2Proof.Machine.execWaitLimitExpiry t b s
  | .semaphoreBorrowStart t b => Sys2Proof.Machine.execSemaphoreBorrowStart t b s
  | .borrowBudgetExpiry t b => Sys2Proof.Machine.execBorrowBudgetExpiry t b s
  | .mailboxGo h f => Sys2Proof.Machine.execMailboxGo h f s
  | .mailboxDiscard h f => Sys2Proof.Machine.execMailboxDiscard h f s
  | .itlNtfConsWrite h f v => Sys2Proof.Machine.execItlNtfConsWrite h f v s
  | .mctpMessage eid m => Sys2Proof.Machine.execMctpMessage eid m s
  | .peerMessage module m => Sys2Proof.Machine.execPeerMessage module m s
  | .siteSessionMessage m => Sys2Proof.Machine.execSiteSessionMessage m s
  | .partStagingTimeout path => Sys2Proof.Machine.execPartStagingTimeout path s
  | .inventory path => Sys2Proof.Machine.execInventory path s
  | .telemetry path => Sys2Proof.Machine.execTelemetry path s
  | .bridleQuery path => Sys2Proof.Machine.execBridleQuery path s
  | .leaseAcquire path => Sys2Proof.Machine.execLeaseAcquire path s
  | .leaseRenew path => Sys2Proof.Machine.execLeaseRenew path s
  | .leaseTransfer path => Sys2Proof.Machine.execLeaseTransfer path s
  | .leaseRelease path => Sys2Proof.Machine.execLeaseRelease path s
  | .leaseBreak path => Sys2Proof.Machine.execLeaseBreak path s
  | .leaseQuery path => Sys2Proof.Machine.execLeaseQuery path s
  | .leaseGrace path => Sys2Proof.Machine.execLeaseGrace path s
  | .bridleImage path => Sys2Proof.Machine.execBridleImage path s
  | .meterRecord path => Sys2Proof.Machine.execMeterRecord path s
  | .unbind path => Sys2Proof.Machine.execUnbind path s
  | .spareHold path => Sys2Proof.Machine.execSpareHold path s
  | .spareFree path => Sys2Proof.Machine.execSpareFree path s
  | .pairMove path => Sys2Proof.Machine.execPairMove path s
  | .pairMoveDone h => Sys2Proof.Machine.execPairMoveDone h s
  | .ctxLoad path => Sys2Proof.Machine.execCtxLoad path s
  | .ctxEvict path => Sys2Proof.Machine.execCtxEvict path s
  | .ctxEvictDone cid ctx => Sys2Proof.Machine.execCtxEvictDone cid ctx s
  | .objTable path => Sys2Proof.Machine.execObjTable path s
  | .objTableDone cid => Sys2Proof.Machine.execObjTableDone cid s
  | .qRegister path => Sys2Proof.Machine.execQRegister path s
  | .qUnregister path => Sys2Proof.Machine.execQUnregister path s
  | .qResume path => Sys2Proof.Machine.execQResume path s
  | .fqSet path => Sys2Proof.Machine.execFqSet path s
  | .fqStatus path => Sys2Proof.Machine.execFqStatus path s
  | .moduleNumber path => Sys2Proof.Machine.execModuleNumber path s
  | .routeSet path => Sys2Proof.Machine.execRouteSet path s
  | .linkExpect path => Sys2Proof.Machine.execLinkExpect path s
  | .fabTimeout path => Sys2Proof.Machine.execFabTimeout path s
  | .winSet path => Sys2Proof.Machine.execWinSet path s
  | .winClear path => Sys2Proof.Machine.execWinClear path s
  | .winInval path => Sys2Proof.Machine.execWinInval path s
  | .windowDrainDone w => Sys2Proof.Machine.execWindowDrainDone w s
  | .collSet path => Sys2Proof.Machine.execCollSet path s
  | .collClear path => Sys2Proof.Machine.execCollClear path s
  | .memWrite path => Sys2Proof.Machine.execMemWrite path s
  | .memRead path ecc => Sys2Proof.Machine.execMemRead path ecc s
  | .pwrSet path => Sys2Proof.Machine.execPwrSet path s
  | .pwrQuery path => Sys2Proof.Machine.execPwrQuery path s
  | .cadSet path => Sys2Proof.Machine.execCadSet path s
  | .cadQuery path => Sys2Proof.Machine.execCadQuery path s
  | .keyWrite path => Sys2Proof.Machine.execKeyWrite path s
  | .keyErase path => Sys2Proof.Machine.execKeyErase path s
  | .keyStatus path bad => Sys2Proof.Machine.execKeyStatus path bad s
  | .lcTransition path auth holdup => Sys2Proof.Machine.execLcTransition path auth holdup s
  | .challengeCmd path => Sys2Proof.Machine.execChallengeCmd path s
  | .debugOpen path auth => Sys2Proof.Machine.execDebugOpen path auth s
  | .rootRevoke path auth => Sys2Proof.Machine.execRootRevoke path auth s
  | .siteRoot path => Sys2Proof.Machine.execSiteRoot path s
  | .recoverPurge path => Sys2Proof.Machine.execRecoverPurge path s
  | .recoverIsolate path => Sys2Proof.Machine.execRecoverIsolate path s
  | .recoverHalf path => Sys2Proof.Machine.execRecoverHalf path s
  | .recoverModule path => Sys2Proof.Machine.execRecoverModule path s
  | .recoverHangLimit path => Sys2Proof.Machine.execRecoverHangLimit path s
  | .recoveryQuery path => Sys2Proof.Machine.execRecoveryQuery path s
  | .fwBegin path => Sys2Proof.Machine.execFwBegin path s
  | .fwWrite path => Sys2Proof.Machine.execFwWrite path s
  | .fwVerify path => Sys2Proof.Machine.execFwVerify path s
  | .fwVerifyDone fact => Sys2Proof.Machine.execFwVerifyDone fact s
  | .fwActivate path => Sys2Proof.Machine.execFwActivate path s
  | .fwActivateDone => Sys2Proof.Machine.execFwActivateDone s
  | .fwActivateTimeout => Sys2Proof.Machine.execFwActivateTimeout s
  | .fwConfirm path => Sys2Proof.Machine.execFwConfirm path s
  | .fwRevert path => Sys2Proof.Machine.execFwRevert path s
  | .fwQuery path => Sys2Proof.Machine.execFwQuery path s
  | .trialConfirm => Sys2Proof.Machine.execTrialConfirm s
  | .logRead path => Sys2Proof.Machine.execLogRead path s
  | .seqReelEntryWrite table k v => Sys2Proof.Machine.execSeqReelEntryWrite table k v s
  | .regulatorRefill => Sys2Proof.Machine.execRegulatorRefill s
  | .residentSetStalled cid => Sys2Proof.Machine.execResidentSetStalled cid s
  | .powerLoop r => Sys2Proof.Machine.execPowerLoop r s
  | .protectionRelease currentAbsent peakAbsent => Sys2Proof.Machine.execProtectionRelease currentAbsent peakAbsent s
  | .drogueStepPoint avgWatts allBelow => Sys2Proof.Machine.execDrogueStepPoint avgWatts allBelow s
  | .voltageSettled h => Sys2Proof.Machine.execVoltageSettled h s
  | .sensorReading w eighths => Sys2Proof.Machine.execSensorReading w eighths s
  | .thermalThrottleStep w => Sys2Proof.Machine.execThermalThrottleStep w s
  | .thermalReleaseStep w => Sys2Proof.Machine.execThermalReleaseStep w s
  | .tripCooldown => Sys2Proof.Machine.execTripCooldown s
  | .voltageMarginAlarm h => Sys2Proof.Machine.execVoltageMarginAlarm h s
  | .voltageTrimDown h => Sys2Proof.Machine.execVoltageTrimDown h s
  | .hangSample => Sys2Proof.Machine.execHangSample s
  | .unresponsiveBlock h => Sys2Proof.Machine.execUnresponsiveBlock h s
  | .halfRecoveryStart h clean => Sys2Proof.Machine.execHalfRecoveryStart h clean s
  | .halfDrainTimeout h => Sys2Proof.Machine.execHalfDrainTimeout h s
  | .halfRecoveryEnd h ms => Sys2Proof.Machine.execHalfRecoveryEnd h ms s
  | .moduleRecoveryStart cleanWest cleanEast => Sys2Proof.Machine.execModuleRecoveryStart cleanWest cleanEast s
  | .recoveryTimeout => Sys2Proof.Machine.execRecoveryTimeout s
  | .debugGrantExpiry => Sys2Proof.Machine.execDebugGrantExpiry s
  | .nonceExpiry => Sys2Proof.Machine.execNonceExpiry s
  | .treeGenerationDone => Sys2Proof.Machine.execTreeGenerationDone s
  | .getVersion path => Sys2Proof.Machine.execGetVersion path s
  | .getCapabilities path => Sys2Proof.Machine.execGetCapabilities path s
  | .negotiateAlgorithms path => Sys2Proof.Machine.execNegotiateAlgorithms path s
  | .getDigests path => Sys2Proof.Machine.execGetDigests path s
  | .getCertificate path slot offset length => Sys2Proof.Machine.execGetCertificate path slot offset length s
  | .spdmChallenge path slot nonce => Sys2Proof.Machine.execSpdmChallenge path slot nonce s
  | .getMeasurements path index signed nonce => Sys2Proof.Machine.execGetMeasurements path index signed nonce s
  | .keyExchange path slot data => Sys2Proof.Machine.execKeyExchange path slot data s
  | .finishMsg path session ok key => Sys2Proof.Machine.execFinishMsg path session ok key s
  | .heartbeat path session => Sys2Proof.Machine.execHeartbeat path session s
  | .keyUpdate path session => Sys2Proof.Machine.execKeyUpdate path session s
  | .endSession path session => Sys2Proof.Machine.execEndSession path session s
  | .vendorDefinedRequest path sigId => Sys2Proof.Machine.execVendorDefinedRequest path sigId s
  | .eventSourceEdge k level => Sys2Proof.Machine.execEventSourceEdge k level s
  | .latchTransfer k => Sys2Proof.Machine.execLatchTransfer k s
  | .eventClaim core => Sys2Proof.Machine.execEventClaim core s
  | .eventDone core v => Sys2Proof.Machine.execEventDone core v s
  | .hostEventClaim h => Sys2Proof.Machine.execHostEventClaim h s
  | .hostEventDone h v => Sys2Proof.Machine.execHostEventDone h v s
  | .holdoffExpiry g => Sys2Proof.Machine.execHoldoffExpiry g s
  | .evtSrcWrite k v => Sys2Proof.Machine.execEvtSrcWrite k v s
  | .evtHcfgWrite h v => Sys2Proof.Machine.execEvtHcfgWrite h v s
  | .logFlashWrite ok => Sys2Proof.Machine.execLogFlashWrite ok s
  | .logIdleMark => Sys2Proof.Machine.execLogIdleMark s
  | .logSectorErase sector ok => Sys2Proof.Machine.execLogSectorErase sector ok s
  | .inputValid fact => Sys2Proof.Machine.execInputValid fact s
  | .earlyServiceEntry => Sys2Proof.Machine.execEarlyServiceEntry s
  | .narrowSelftestHold t => Sys2Proof.Machine.execNarrowSelftestHold t s
  | .fullServiceCommit => Sys2Proof.Machine.execFullServiceCommit s
  | .pairTrainingTimeout p => Sys2Proof.Machine.execPairTrainingTimeout p s
  | .bringupTimeout => Sys2Proof.Machine.execBringupTimeout s
  | .mrstRelease lowUs fact => Sys2Proof.Machine.execMrstRelease lowUs fact s
  | .inputFault mv => Sys2Proof.Machine.execInputFault mv s
  | .mateNOpen => Sys2Proof.Machine.execMateNOpen s
  | .smbusTimeout => Sys2Proof.Machine.execSmbusTimeout s
  | .pairTrainingDone p ok => Sys2Proof.Machine.execPairTrainingDone p ok s
  | .tileSelftestDone t kind pass => Sys2Proof.Machine.execTileSelftestDone t kind pass s
  | .hostLinkTrained h rate width => Sys2Proof.Machine.execHostLinkTrained h rate width s
  | .checkRecomputeDone h => Sys2Proof.Machine.execCheckRecomputeDone h s
  | .inputRestored => Sys2Proof.Machine.execInputRestored s
  | .smbusIdleResume => Sys2Proof.Machine.execSmbusIdleResume s
  | .secondHalfUngate => Sys2Proof.Machine.execSecondHalfUngate s

end Sys2Proof.Machine
end

