-- ==== Sys2Proof/Safety.lean ====
section
/-! DEFINITION. What claims are stated in: the blocks of State and what leaves one alone, the canonical memory, what a
command does, and which blocks each command may touch. -/

namespace Sys2Proof

open Sys2Proof.Machine

/-- The memory is in its canonical form. -/
def MemoryCanonical (s : State) : Prop := Memory.wf s.mem = true

/-- The blocks of State, one per field. -/
inductive Block
  | pending | out | mem | fresh | lowHeld | highLatch | tiles | cycles | mesh | lp | xlt | brd | lnk | fab | hst
  | que | itl | sched | cad | pwr | rcv | rot | cry | evt | flog | boot 
deriving DecidableEq, Repr

/-- Block `b` is the same in both states. -/
def Block.same (s t : State) : Block → Prop
  | .pending => t.pending = s.pending
  | .out => t.out = s.out
  | .mem => t.mem = s.mem
  | .fresh => t.fresh = s.fresh
  | .lowHeld => t.lowHeld = s.lowHeld
  | .highLatch => t.highLatch = s.highLatch
  | .tiles => t.tiles = s.tiles
  | .cycles => t.cycles = s.cycles
  | .mesh => t.mesh = s.mesh
  | .lp => t.lp = s.lp
  | .xlt => t.xlt = s.xlt
  | .brd => t.brd = s.brd
  | .lnk => t.lnk = s.lnk
  | .fab => t.fab = s.fab
  | .hst => t.hst = s.hst
  | .que => t.que = s.que
  | .itl => t.itl = s.itl
  | .sched => t.sched = s.sched
  | .cad => t.cad = s.cad
  | .pwr => t.pwr = s.pwr
  | .rcv => t.rcv = s.rcv
  | .rot => t.rot = s.rot
  | .cry => t.cry = s.cry
  | .evt => t.evt = s.evt
  | .flog => t.flog = s.flog
  | .boot => t.boot = s.boot

/-- `t` differs from `s` in blocks of `M` at most. -/
def ChangesOnly (M : List Block) (s t : State) : Prop := ∀ b : Block, M.contains b = false → b.same s t

/-- Command `i` completes in `s`, in a state that satisfies `P`. -/
def Does (i : Instr) (s : State) (P : State → Prop) : Prop := ∃ t, exec i s = .next t ∧ P t

/-- The blocks that a command may change, in any state. No command changes the queue of commands that wait. -/
def Instr.touches : Instr → List Block
  | .refresh _ =>
        []
  | .tetherReversal | .smbusTimeout | .smbusIdleResume =>
    [.boot]
  | .cadCommitGo =>
    [.cad]
  | .reencryptDone _ _ =>
    [.cry]
  | .fabCommitGo =>
    [.fab]
  | .dlogRearm _ _ _ | .dlogConsWrite _ _ _ | .itlNtfConsWrite _ _ _ | .hostLinkTrained _ _ _ =>
    [.hst]
  | .mailboxDiscard _ _ | .partStagingTimeout _ =>
    [.itl]
  | .lnkCommitGo _ | .substReq _ _ | .substAck _ _ =>
    [.lnk]
  | .memCommitGo | .calibrationWindow _ _ _ | .writeDqRetrain _ | .checkLineWriteback _ _ =>
    [.lp]
  | .meshUnknownType _ =>
    [.mesh]
  | .getDigests _ | .getCertificate _ _ _ _ | .vendorDefinedRequest _ _ =>
    [.out]
  | .pwrCommitGo | .voltageTrimDown _ =>
    [.pwr]
  | .queCommitGo | .xltSync _ _ | .semaphoreBorrowStart _ _ =>
    [.que]
  | .backgroundDeadline _ _ | .unresponsiveBlock _ | .bringupTimeout =>
    [.rcv]
  | .debugGrantExpiry | .nonceExpiry =>
    [.rot]
  | .seqCommitGo | .seqReelEntryWrite _ _ _ =>
    [.sched]
  | .srmCommitGo _ | .coreUnpowered _ | .issueHeld _ | .linkCreditReturn _ _ _ | .barWaitTimeout _ _
  | .sramCorrectedRewrite _ _ | .sramClear _ _ | .srmUeValidClear _ _ | .narrowSelftestHold _ | .secondHalfUngate =>
    [.tiles]
  | .xltCommitGo =>
    [.xlt]
  | .doorbell _ _ _ _ _ _ _ =>
    [.hst, .que]
  | .checkRecomputeDone _ =>
    [.mem, .lp]
  | .sramClearDone _ | .sramScrub _ _ =>
    [.mem, .tiles]
  | .fabricRequestTimeout _ =>
    [.out, .fab]
  | .lockInterface _ _ | .startInterface _ _ | .ideKm _ _ _ _ _ _ | .atsInvalidation _ _ _ _ _ _ =>
    [.out, .hst]
  | .getVersion _ | .getCapabilities _ | .negotiateAlgorithms _ | .finishMsg _ _ _ _ | .heartbeat _ _
  | .keyUpdate _ _ | .endSession _ _ =>
    [.out, .rot]
  | .tripCooldown | .inputRestored =>
    [.rcv, .boot]
  | .tilCycleWrap _ =>
    [.tiles, .cycles]
  | .shiftCopyStart _ _ =>
    [.tiles, .rcv]
  | .eventClaim _ | .hostEventClaim _ | .holdoffExpiry _ =>
    [.out, .hst, .evt]
  | .mailboxGo _ _ | .mctpMessage _ _ | .siteSessionMessage _ | .inventory _ | .telemetry _ | .bridleQuery _
  | .leaseQuery _ | .objTable _ | .fqStatus _ | .pwrQuery _ | .cadQuery _ | .recoveryQuery _ | .fwBegin _
  | .fwWrite _ | .fwVerify _ | .fwVerifyDone _ | .fwRevert _ | .fwQuery _ | .logRead _ =>
    [.out, .hst, .itl]
  | .fabricRoute _ | .fabricEgressRelease _ | .fabricResponse _ =>
    [.out, .lnk, .fab]
  | .shiftCopyDone _ _ =>
    [.tiles, .itl, .rcv]
  | .regulatorRefill =>
    [.tiles, .lp, .fab]
  | .leaseAcquire _ | .leaseRenew _ | .leaseTransfer _ | .pairMove _ =>
    [.out, .brd, .hst, .itl]
  | .moduleNumber _ | .routeSet _ | .fabTimeout _ | .winSet _ | .winClear _ | .winInval _ | .windowDrainDone _
  | .collSet _ | .collClear _ =>
    [.out, .fab, .hst, .itl]
  | .hstBar2WinWrite _ _ _ _ | .msixTableWrite _ _ _ _ _ | .ideIntegrityFailure _ _ | .hostDlDown _
  | .hostCompletion _ _ _ | .hostCompletionTimeout _ _ | .perstAssert _ | .eventSourceEdge _ _ | .latchTransfer _
  | .eventDone _ _ | .hostEventDone _ _ | .evtSrcWrite _ _ | .evtHcfgWrite _ _ | .logFlashWrite _ | .logIdleMark
  | .logSectorErase _ _ =>
    [.out, .hst, .evt, .flog]
  | .cadSet _ =>
    [.out, .hst, .itl, .cad]
  | .pwrSet _ =>
    [.out, .hst, .itl, .pwr]
  | .recoverHalf _ | .recoverModule _ | .recoverHangLimit _ =>
    [.out, .hst, .itl, .rcv]
  | .challengeCmd _ | .rootRevoke _ _ | .siteRoot _ =>
    [.out, .hst, .itl, .rot]
  | .qRegister _ | .qUnregister _ | .fqSet _ =>
    [.out, .hst, .que, .itl]
  | .peerMessage _ _ | .linkExpect _ =>
    [.out, .lnk, .hst, .itl]
  | .moveCopyDone _ =>
    [.mem, .lp, .brd, .itl, .cry]
  | .tetherMarker _ _ | .epochFrame _ | .markerTimeout =>
    [.out, .hst, .cad, .evt, .flog]
  | .kidRetired _ =>
    [.out, .hst, .cry, .evt, .flog]
  | .protectionRelease _ _ | .drogueStepPoint _ _ | .voltageSettled _ | .thermalThrottleStep _
  | .thermalReleaseStep _ | .voltageMarginAlarm _ =>
    [.out, .hst, .pwr, .evt, .flog]
  | .ctxEvictDone _ _ =>
    [.out, .hst, .que, .itl, .sched]
  | .spdmChallenge _ _ _ | .getMeasurements _ _ _ _ | .keyExchange _ _ _ =>
    [.out, .hst, .rot, .evt, .flog]
  | .spareHold _ =>
    [.out, .lp, .brd, .hst, .itl]
  | .bar2Read _ _ _ _ _ _ | .bar2Write _ _ _ _ _ =>
    [.out, .mesh, .hst, .evt, .flog]
  | .ctxLoad _ =>
    [.out, .tiles, .hst, .que, .itl]
  | .brdCommitGo =>
    [.tiles, .lp, .xlt, .brd, .fab]
  | .leaseExpiry _ | .leaseRelease _ =>
    [.out, .brd, .hst, .itl, .evt, .flog]
  | .treeGenerationDone =>
    [.out, .brd, .hst, .rot, .evt, .flog]
  | .keyStatus _ _ | .fwActivateDone | .fwActivateTimeout =>
    [.out, .hst, .itl, .rot, .evt, .flog]
  | .residentSetStalled _ =>
    [.out, .hst, .itl, .sched, .evt, .flog]
  | .signalDetect _ _ | .discovery _ _ | .substNak _ _ | .eyeMeasurement _ _ _ _ =>
    [.out, .lnk, .fab, .hst, .evt, .flog]
  | .keyx _ _ =>
    [.out, .lnk, .hst, .rot, .evt, .flog]
  | .purgeComplete _ _ =>
    [.out, .tiles, .hst, .itl, .evt, .flog]
  | .meterRecord _ =>
    [.out, .brd, .hst, .itl, .rot, .evt, .flog]
  | .fwConfirm _ | .trialConfirm =>
    [.out, .hst, .itl, .rot, .evt, .flog, .boot]
  | .isolationDrainTimeout _ =>
    [.out, .hst, .que, .itl, .rcv, .evt, .flog]
  | .linkFrameReceive _ _ =>
    [.out, .lnk, .fab, .hst, .cry, .evt, .flog]
  | .spareFree _ =>
    [.out, .lp, .hst, .que, .itl, .evt, .flog]
  | .powerLoop _ =>
    [.out, .tiles, .hst, .itl, .pwr, .evt, .flog]
  | .recoverIsolate _ =>
    [.out, .tiles, .hst, .que, .itl, .rcv, .evt, .flog]
  | .bridleImage _ | .unbind _ =>
    [.out, .tiles, .lp, .xlt, .brd, .fab, .hst, .itl]
  | .pairRebuildDone _ =>
    [.out, .mem, .lp, .hst, .que, .itl, .cry, .evt, .flog]
  | .mr4RateChange _ _ =>
    [.out, .tiles, .lp, .brd, .fab, .hst, .itl, .evt, .flog]
  | .pairMoveDone _ =>
    [.out, .mem, .lp, .brd, .hst, .que, .itl, .cry, .evt, .flog]
  | .halfRecoveryStart _ _ | .moduleRecoveryStart _ _ =>
    [.out, .mem, .tiles, .lp, .hst, .que, .itl, .rcv, .evt, .flog]
  | .earlyServiceEntry =>
    [.out, .tiles, .lp, .brd, .fab, .hst, .itl, .evt, .flog, .boot]
  | .lossOfSignal _ _ | .trainingStepTimeout _ _ | .failedPortRetrain _ | .retrainPort _ _ | .fastRetrain _ _
  | .disablePort _ _ | .clrCnt _ _ | .maxWidth _ _ | .substEn _ _ =>
    [.out, .tiles, .lp, .brd, .lnk, .fab, .hst, .itl, .evt, .flog]
  | .linkFrameTransmit _ =>
    [.out, .tiles, .lp, .lnk, .fab, .hst, .rot, .cry, .evt, .flog]
  | .fullServiceCommit =>
    [.out, .tiles, .lp, .brd, .fab, .hst, .itl, .pwr, .evt, .flog, .boot]
  | .trainingStepComplete _ _ =>
    [.out, .tiles, .lp, .brd, .lnk, .fab, .hst, .itl, .rot, .evt, .flog]
  | .lpddrPatrolScrub _ _ _ =>
    [.out, .mem, .tiles, .lp, .brd, .fab, .hst, .que, .itl, .cry, .evt, .flog]
  | .queueWaitTimeout _ _ | .queueNop _ _ | .waitLimitExpiry _ _ | .borrowBudgetExpiry _ _ | .objTableDone _
  | .qResume _ | .memWrite _ | .memRead _ _ =>
    [.out, .mem, .tiles, .mesh, .lp, .brd, .fab, .hst, .que, .itl, .cry, .evt, .flog]
  | .checkDelta _ | .launch _ _ | .pairTrainingTimeout _ | .pairTrainingDone _ _ =>
    [.out, .mem, .tiles, .mesh, .lp, .brd, .fab, .hst, .que, .itl, .sched, .cry, .evt, .flog]
  | .collectiveLocalWrite _ | .collectiveContribution _ _ | .collectiveResult _ _ | .collectiveTimeout _ =>
    [.out, .mem, .tiles, .mesh, .lp, .brd, .lnk, .fab, .hst, .que, .itl, .cry, .evt, .flog]
  | .bankHold _ _ _ | .bankPurge _ _ _ | .barrierArrival _ _ | .barrierRelease _ _ _ _ | .xltInv _ _
  | .xltSyncDone _ _ | .pageRequestTimeout _ _ _ | .pageRequestDequeue _ _ | .signalCmd _ _ | .waitCmd _ _
  | .freeObj _ _ | .faultAck _ _ | .ctxEvict _ =>
    [.out, .mem, .tiles, .mesh, .lp, .xlt, .brd, .fab, .hst, .que, .itl, .cry, .evt, .flog]
  | .meshRead _ _ | .meshWrite _ _ | .meshAtomic _ _ _ | .fabricIngress _ _ _ =>
    [.out, .mem, .tiles, .mesh, .lp, .brd, .lnk, .fab, .hst, .que, .itl, .sched, .cry, .evt, .flog]
  | .coreClamp _ _ | .coreGate _ _ | .narrowEn _ _ | .issueHold _ _ | .purgeTimeout _ _ | .isolationDrainDone _
  | .shellFailure _ _ | .scalarOp _ _ _ | .scalarMemory _ _ _ _ | .vectorOp _ _ _ | .vectorMemory _ _ _ _
  | .conversion _ _ _ | .blockQuantize _ _ _ | .mmaB _ _ _ _ | .mmaV _ _ _ _ | .accMov _ _ _ _ _ _ | .accZero _ _ _
  | .streamStart _ _ _ _ _ | .streamArm _ _ _ _ | .streamWait _ _ _ | .streamStop _ _ _ | .fenceSignal _ _ _
  | .fenceWait _ _ _ | .semAcq _ _ _ | .semRel _ _ _ | .barArrive _ _ _ _ | .barWait _ _ _ _ _ _ _ | .flagsOp _ _ _ _
  | .endOp _ _ | .nopOp _ _ | .walkComplete _ _ _ | .fillDelayExpiry _ | .linkSlot _ _ | .linkBeat _ _ _ _
  | .pairingWord _ _ _ _ _ _ | .prgResponse _ _ _ _ | .fenceStallTimeout _ | .launchTileStart _ _ _ _
  | .recoverPurge _ | .hangSample | .recoveryTimeout =>
    [.out, .mem, .tiles, .mesh, .lp, .xlt, .brd, .fab, .hst, .que, .itl, .rcv, .cry, .evt, .flog]
  | .flr _ _ | .vfEnableClear _ | .stopInterface _ _ | .hostHoldExpiry _ | .hostLinkUp _ | .perstDeassert _
  | .configRequest _ _ _ _ _ _ | .ringFetch _ _ _ =>
    [.out, .mem, .tiles, .mesh, .lp, .xlt, .brd, .fab, .hst, .que, .itl, .sched, .cry, .evt, .flog]
  | .keyWrite _ | .keyErase _ | .lcTransition _ _ _ | .debugOpen _ _ =>
    [.out, .mem, .tiles, .mesh, .lp, .brd, .lnk, .fab, .hst, .que, .itl, .sched, .rot, .cry, .evt, .flog]
  | .tileSelftestDone _ _ _ =>
    [.out, .mem, .tiles, .mesh, .lp, .xlt, .brd, .fab, .hst, .que, .itl, .rcv, .cry, .evt, .flog, .boot]
  | .coderJobDone _ _ _ | .graceExpiry _ | .coder _ _ _ | .leaseBreak _ | .leaseGrace _ | .halfRecoveryEnd _ _ =>
    [.out, .mem, .tiles, .mesh, .lp, .xlt, .brd, .fab, .hst, .que, .itl, .sched, .rcv, .cry, .evt, .flog]
  | .readResponse _ | .writeAcknowledgement _ | .atomicResponse _ | .halfDrainTimeout _ =>
    [.out, .mem, .tiles, .mesh, .lp, .xlt, .brd, .lnk, .fab, .hst, .que, .itl, .rcv, .cry, .evt, .flog]
  | .sensorReading _ _ =>
    [.out, .mem, .tiles, .mesh, .lp, .xlt, .brd, .fab, .hst, .que, .itl, .pwr, .rcv, .cry, .evt, .flog, .boot]
  | .epochFenceClose _ | .unitClearDone _ =>
    [.out, .mem, .tiles, .mesh, .lp, .xlt, .brd, .fab, .hst, .que, .itl, .sched, .rcv, .rot, .cry, .evt, .flog]
  | .cadenceTick _ =>
    [.out, .mem, .tiles, .cycles, .mesh, .lp, .xlt, .brd, .fab, .hst, .que, .itl, .sched, .cad, .pwr, .rcv, .cry,
    .evt, .flog, .boot]
  | .registerWrite _ _ _ _ =>
    [.out, .mem, .lowHeld, .tiles, .mesh, .lp, .xlt, .brd, .lnk, .fab, .hst, .que, .itl, .sched, .cad, .pwr, .rcv,
    .rot, .cry, .evt, .flog]
  | .commitBoundary =>
    [.out, .mem, .tiles, .mesh, .lp, .xlt, .brd, .lnk, .fab, .hst, .que, .itl, .sched, .cad, .pwr, .rcv, .rot, .cry,
    .evt, .flog, .boot]
  | .cadencePeriodWrap _ =>
    [.out, .mem, .fresh, .tiles, .cycles, .mesh, .lp, .xlt, .brd, .lnk, .fab, .hst, .que, .itl, .sched, .cad, .pwr,
    .rcv, .rot, .cry, .evt, .flog, .boot]
  | .fwActivate _ | .inputValid _ | .mrstRelease _ _ | .inputFault _ | .mateNOpen =>
    [.out, .mem, .fresh, .lowHeld, .highLatch, .tiles, .cycles, .mesh, .lp, .xlt, .brd, .lnk, .fab, .hst, .que, .itl,
    .sched, .cad, .pwr, .rcv, .rot, .cry, .evt, .flog, .boot]

end Sys2Proof
end

