-- ==== Sys2Proof/Certificates/Slice0/Obligations.lean ====
section
/-! DEFINITION. The statements for the provers, by family of commands. -/

open Sys2Proof Sys2Proof.Machine


/-! ### The machine as a whole -/

/-- A step takes the command at the front of the queue and runs it on the state with the queue's rest. -/
def Obligations.StepRunsTheFrontCommand : Prop :=
  ∀ (c : Instr) (rest : List Instr) (s : State), s.pending = c :: rest → step s = exec c { s with pending := rest }

/-- An empty queue idles (the model's choice, log entry 6). -/
def Stated.EmptyQueueIdles : Prop := ∀ s : State, s.pending = [] → step s = .next s

/-- No command stops the machine: each answers a next state, in every state, for all operands. -/
def Obligations.EveryCommandAnswers : Prop := ∀ (c : Instr) (s : State), ∃ t, exec c s = .next t

/-- Every block of State that a command is not listed with is the same after it, whatever the state and the operands. -/
def Obligations.CommandsChangeOnlyTheirBlocks : Prop :=
  ∀ (c : Instr) (s t : State), exec c s = .next t → ChangesOnly c.touches s t

/-- The queue is first in, first out: a step takes its front and leaves its rest as it stands. -/
def Stated.QueueLosesOnlyItsFront : Prop :=
  ∀ s t : State, step s = .next t → t.pending = s.pending.tail

/-- The queue is first in, first out: a step takes its front and leaves its rest as it stands. An empty queue idles (the
model's choice, log entry 6). -/
def Obligations.QueueIsFirstInFirstOut : Prop := Stated.QueueLosesOnlyItsFront ∧ Stated.EmptyQueueIdles

/-- Every step keeps the memory in its canonical form: addresses strictly rising, no byte listed that reads as one that
nothing has written. -/
def Obligations.StepKeepsMemoryCanonical : Prop :=
  ∀ s t : State, MemoryCanonical s → step s = .next t → MemoryCanonical t

/-- The memory is canonical after reset (its contents are the model's choice, log entry 1). -/
def Obligations.ResetMemoryCanonical : Prop := MemoryCanonical State.reset ∧ State.reset.mem = []

/-- R116 to R118, R120, R123: the command that a word of a tile program stands for. OPC is bits [63:56]; one that R117 does not
list is illegal, as is a word of the stream, object, barrier, FLAGS, END and NOP classes with a reserved bit set. In those
classes and in MMA every field is read from its bits. -/
def Obligations.InstructionWords : Prop :=
  ∀ (t : TileIx) (b : BankIx) (ecc : Ecc),
    let cmd := fun (opc rest : Nat) => wordCommand t b (BitVec.ofNat 64 (opc * 2 ^ 56 + rest)) ecc
    let bad := Instr.scalarOp t b .illegal
    (∀ opc rest, opc < 256 → rest < 2 ^ 56 → (0x13 < opc ∧ opc < 0x20 ∨ 0x35 < opc ∧ opc < 0x40 ∨ 0x43 < opc ∧ opc < 0x50 ∨
      0x53 < opc ∧ opc < 0x58 ∨ opc = 0x5E ∨ opc = 0x5F ∨ 0x62 < opc) → cmd opc rest = bad) ∧
    (∀ (ch : Fin 8) (r : Fin 32),
      cmd 0x50 (ch.val * 2 ^ 53 + r.val * 2 ^ 48) = .streamStart t b ch r ecc ∧
      cmd 0x51 (ch.val * 2 ^ 53 + r.val * 2 ^ 48) = .streamArm t b ch r ∧
      cmd 0x52 (ch.val * 2 ^ 53) = .streamWait t b ch ∧ cmd 0x53 (ch.val * 2 ^ 53) = .streamStop t b ch) ∧
    (∀ d x y : Fin 32,
      let f := d.val * 2 ^ 51 + x.val * 2 ^ 46 + y.val * 2 ^ 41
      cmd 0x58 f = .fenceSignal t b ⟨d, x, y⟩ ∧ cmd 0x59 f = .fenceWait t b ⟨d, x, y⟩ ∧
      cmd 0x5A f = .semAcq t b ⟨d, x, y⟩ ∧ cmd 0x5B f = .semRel t b ⟨d, x, y⟩ ∧
      cmd 0x5C (d.val * 2 ^ 51 + x.val * 2 ^ 46) = .barArrive t b d x ∧
      (∀ (fa : Bool) (n : BitVec 16), cmd 0x5D (f + (if fa then 2 ^ 40 else 0) + n.toNat * 2 ^ 24) = .barWait t b d x y fa n) ∧
      ∀ m : BitVec 5, cmd 0x60 (d.val * 2 ^ 51 + m.toNat) = .flagsOp t b d m) ∧
    cmd 0x61 0 = .endOp t b ∧ cmd 0x62 0 = .nopOp t b ∧
    (∀ (acc : Fin 4) (x y : Fin 32) (m : BitVec 3) (k : BitVec 18) (n : BitVec 7) (low : BitVec 16),
      let f := acc.val * 2 ^ 54 + m.toNat * 2 ^ 51 + x.val * 2 ^ 46 + y.val * 2 ^ 41 + k.toNat * 2 ^ 23 + n.toNat * 2 ^ 16 + low.toNat
      let o : Mma := { acc := acc, m := m, sa := x, sb := y, k := k, ncol := n, reserved := low }
      cmd 0x40 f = .mmaB t b o [] ∧ cmd 0x41 f = .mmaV t b o []) ∧
    ∀ rest, rest < 2 ^ 56 →
      (rest % 2 ^ 48 ≠ 0 → cmd 0x50 rest = bad ∧ cmd 0x51 rest = bad) ∧
      (rest % 2 ^ 53 ≠ 0 → cmd 0x52 rest = bad ∧ cmd 0x53 rest = bad) ∧
      (rest % 2 ^ 41 ≠ 0 → ∀ opc, 0x58 ≤ opc → opc ≤ 0x5B → cmd opc rest = bad) ∧
      (rest % 2 ^ 46 ≠ 0 → cmd 0x5C rest = bad) ∧ (rest % 2 ^ 24 ≠ 0 → cmd 0x5D rest = bad) ∧
      (rest / 32 % 2 ^ 46 ≠ 0 → cmd 0x60 rest = bad) ∧ (rest ≠ 0 → cmd 0x61 rest = bad ∧ cmd 0x62 rest = bad)

/-! ### Tiles: TIL_CTRL, the bank registers, isolation and shifts -/

/-- What R62 refuses of a write `v` to TIL_CTRL. -/
def tilRefused (s : State) (t : Nat) (v : Word) : Prop :=
  let x := s.tile t
  (bit v 6 = true ∧ x.gate = false ∧ x.clamp = false) ∨
    (bit v 7 = false ∧ x.clamp = true ∧ (x.gate = true ∨ ∃ a, x.gateAt = some a ∧ s.now < a + s.ticksOf 10000)) ∨
    (bit v 7 ≠ x.clamp ∧ bit v 6 ≠ x.gate)

/-- Nothing that a write of TIL_CTRL could let go on waits in a tile: no copy of a channel, and no end of one (R129). -/
def noCopyWaits (s : State) (t : Nat) : Prop :=
  ∀ c < 8, (s.chan t c).due = false ∧ ¬ ((s.chan t c).st = .active ∧ (s.chan t c).link = false)

/-- R61, R62: the four rows that write TIL_CTRL: a refused write changes no field and counts in ORDER_COUNT, any other sets
the four fields (the write's reserved bits zero) and lets the tile's waiting copies go on. Other tiles are as before, but for
what those copies do. -/
def Obligations.TileControlWrites : Prop :=
  ∀ (t : TileIx) (v : Word) (s : State), v &&& 0xFFFFFF0F = 0 →
    ∀ i ∈ [Instr.coreClamp t v, .coreGate t v, .narrowEn t v, .issueHold t v],
      (tilRefused s t.val v → Does i s fun u =>
        u.tile t.val = { s.tile t.val with
          err := { (s.tile t.val).err with order := satInc (s.tile t.val).err.order } } ∧
        ∀ j, j ≠ t.val → u.tile j = s.tile j) ∧
      (¬ tilRefused s t.val v → Does i s fun u =>
        ∃ w : State, u = w.pumpTile t.val ∧ (noCopyWaits w t.val → u = w) ∧
          (∀ j, j ≠ t.val → w.tile j = s.tile j) ∧
          (w.tile t.val).clamp = bit v 7 ∧ (w.tile t.val).gate = bit v 6 ∧ (w.tile t.val).narrow = bit v 5 ∧
          (w.tile t.val).issueHold = bit v 4 ∧ (w.tile t.val).clamped = bit v 7 ∧
          (w.tile t.val).banks = (s.tile t.val).banks ∧ (w.tile t.val).err = (s.tile t.val).err)

/-- R61, R63, R65: the core rail falls after CORE_GATE, ISSUE_HELD follows ISSUE_HOLD, and a wrap of TIL_CYCLE clears
COUNT and sets OVF in every tile of the half. -/
def Stated.TileStatusFollows : Prop :=
  (∀ (t : TileIx) (s : State), (s.tile t.val).gate = true →
    Does (.coreUnpowered t) s fun u => u.tile t.val = { s.tile t.val with powered := false } ∧
      ∀ j, j ≠ t.val → u.tile j = s.tile j) ∧
  (∀ (t : TileIx) (s : State), (s.tile t.val).issueHold = true →
    Does (.issueHeld t) s fun u => u.tile t.val = { s.tile t.val with issueHeld := true } ∧
      ∀ j, j ≠ t.val → u.tile j = s.tile j) ∧
  (∀ (h : Half) (s : State), Does (.tilCycleWrap h) s fun u =>
    Tab.get (fun _ => 0) u.cycles h.val = 0 ∧ (∀ j, j ≠ h.val → Tab.get (fun _ => 0) u.cycles j = Tab.get (fun _ => 0) s.cycles j) ∧
    ∀ t, u.tile t = if h.val * 272 ≤ t ∧ t < h.val * 272 + 272 then { s.tile t with ovf := true } else s.tile t)

/-! ### Commits: the GO writes -/

/-- R399, for one block's group of SH fields: a GO that finds an accepted commit waiting is kept for later; one that a
check refuses (`code`) returns every pending value to its active one; one that passes makes the pending values wait for the
boundary. The active values are as before. -/
def goFields {α : Type} (x y : Sh α) (code : Option Nat) : Prop :=
  y = if x.acc.isSome then { x with goLater := true }
    else match code with
      | some _ => { x with pend := x.act }
      | none => { x with acc := some x.pend }

/-- R399, for the block's registers: the refusal's code in LAST_REFUSAL, zero after a pass; ORDER_COUNT counts refusals. -/
def goRegisters (waiting : Bool) (code : Option Nat) (last last' : BitVec 8) (err err' : ErrReg) : Prop :=
  if waiting then last' = last ∧ err' = err
  else match code with
    | some c => last' = BitVec.ofNat 8 c ∧ err' = { err with order := satInc err.order }
    | none => last' = 0 ∧ err' = err

/-- The GO writes of SRM, MEM, XLT, FAB, QUE and SEQ: what R399 does with the code that the block's own refusal table gives
for the pending values (none where it refuses nothing). SRM_COMMIT.GO leaves every other tile as it is. -/
def Stated.BlockCommitsFollowTheCheck : Prop :=
  (∀ (t : TileIx) (s : State), Does (.srmCommitGo t) s fun u =>
    let x := (s.tile t.val).srm
    let y := (u.tile t.val).srm
    let c := srmCheck x.sh.pend fun b => (s.bank t.val b).cid
    goFields x.sh y.sh c ∧ goRegisters x.sh.acc.isSome c x.lastRefusal y.lastRefusal x.err y.err ∧
      ∀ j, j ≠ t.val → u.tile j = s.tile j) ∧
  (∀ s : State, Does .memCommitGo s fun u =>
    let c := s.memCheck s.lp.sh.pend s.brd.sh.act.bound
    goFields s.lp.sh u.lp.sh c ∧ goRegisters s.lp.sh.acc.isSome c s.lp.lastRefusal u.lp.lastRefusal s.lp.err u.lp.err) ∧
  (∀ s : State, Does .xltCommitGo s fun u =>
    let c := s.xltCheck s.xlt.sh.pend s.lp.sh.act
    goFields s.xlt.sh u.xlt.sh c ∧
      goRegisters s.xlt.sh.acc.isSome c s.xlt.lastRefusal u.xlt.lastRefusal s.xlt.err u.xlt.err) ∧
  (∀ s : State, Does .fabCommitGo s fun u =>
    let c := s.fabCheck s.fab.sh.pend s.slotNwin s.brd.sh.act.bound s.brd.sh.act.cidBound
    goFields s.fab.sh u.fab.sh c ∧
      goRegisters s.fab.sh.acc.isSome c s.fab.lastRefusal u.fab.lastRefusal s.fab.err u.fab.err) ∧
  (∀ s : State, Does .queCommitGo s fun u =>
    let c := queCheck s.que.sh.pend
    goFields s.que.sh u.que.sh c ∧
      goRegisters s.que.sh.acc.isSome c s.que.lastRefusal u.que.lastRefusal s.que.err u.que.err) ∧
  (∀ s : State, Does .seqCommitGo s fun u =>
    let c := s.seqCheck s.sched.sh.pend
    goFields s.sched.sh u.sched.sh c ∧
      goRegisters s.sched.sh.acc.isSome c s.sched.lastRefusal u.sched.lastRefusal s.sched.err u.sched.err)

/-- R467: CAD_COMMIT.GO refuses MODE 0b11 with code 0x01, then NOMINAL outside 1,000 to 1,000,000 with code 0x02, and
nothing else; R399 says what each outcome does. -/
def Obligations.CadenceCommitRefusals : Prop :=
  ∀ s : State, Does .cadCommitGo s fun u =>
    let p := s.cad.sh.pend
    let c := if p.mode = 3 then some 1
      else if p.nominal.toNat < 1000 ∨ 1000000 < p.nominal.toNat then some 2 else none
    goFields s.cad.sh u.cad.sh c ∧
      goRegisters s.cad.sh.acc.isSome c s.cad.lastRefusal u.cad.lastRefusal s.cad.err u.cad.err

/-- R470: PWR_COMMIT.GO refuses CAP_W outside 1,000 to 2,800 (0x01), FIRST, SECOND and THIRD that are no permutation of 0, 1
and 2 (0x02), SLEW 0 or above 400 (0x03) and FMT other than 0x2, 0x3 and 0x7 (0x04), the first of them in this order. -/
def Obligations.PowerCommitRefusals : Prop :=
  ∀ s : State, Does .pwrCommitGo s fun u =>
    let p := s.pwr.sh.pend
    let c := if p.cap.toNat < 1000 ∨ 2800 < p.cap.toNat then some 1
      else if ¬ ∀ d : Nat, d < 3 → p.first.toNat = d ∨ p.second.toNat = d ∨ p.third.toNat = d then some 2
      else if p.slew = 0 ∨ 400 < p.slew.toNat then some 3
      else if p.balFmt ≠ 2 ∧ p.balFmt ≠ 3 ∧ p.balFmt ≠ 7 then some 4 else none
    goFields s.pwr.sh u.pwr.sh c ∧
      goRegisters s.pwr.sh.acc.isSome c s.pwr.lastRefusal u.pwr.lastRefusal s.pwr.err u.pwr.err

/-- R283: LNK_COMMIT.GO refuses a pending PORT above 47, and a pending MODULE that is the module's own number (held against
it while FAB_ID is valid: the model's choice, log entry 41); else the pending LNK_EXPECT waits for the boundary. Other ports
are as before. -/
def Stated.LinkCommitRefusals : Prop :=
  ∀ (p : LPort) (s : State), Does (.lnkCommitGo p) s fun u =>
    let x := s.port p.val
    let y := u.port p.val
    let bad := 47 < x.expect.pend.port.toNat ∨ (s.fab.sh.act.id.valid = true ∧ x.expect.pend.module = s.fab.sh.act.id.module)
    (∀ q, q ≠ p.val → u.port q = s.port q) ∧
    (x.expect.acc.isSome = true → y = { x with expect := { x.expect with goLater := true } }) ∧
    (x.expect.acc = none ∧ bad → y.expect = { x.expect with pend := x.expect.act } ∧
      y.err = { x.err with order := satInc x.err.order }) ∧
    (x.expect.acc = none ∧ ¬ bad → y = { x with expect := { x.expect with acc := some x.expect.pend } })

/-- The GO writes of SRM, MEM, XLT, FAB, QUE and SEQ: what R399 does with the code that the block's own refusal table
gives for the pending values (none where it refuses nothing). SRM_COMMIT.GO leaves every other tile as it is. R283:
LNK_COMMIT.GO refuses a pending PORT above 47, and a pending MODULE that is the module's own number (held against it
while FAB_ID is valid: the model's choice, log entry 41); else the pending LNK_EXPECT waits for the boundary. Other
ports are as before. -/
def Obligations.BlockAndLinkCommits : Prop := Stated.BlockCommitsFollowTheCheck ∧ Stated.LinkCommitRefusals

/-- R230, R257: BRD_COMMIT.GO waits while a block that it commits has an accepted commit that waits for its boundary.
Otherwise, where no block refuses its part, the pending values of XLT, MEM, FAB, BRD, and of every tile's neighbours and
granule tags, wait for the boundary together; where one does, every pending value returns to its active one, BLOCK and
LAST_REFUSAL name the first refusal, and no epoch moves. -/
def Obligations.CompositionCommitIsOneCommit : Prop :=
  (∀ s : State, s.compWaits = true → exec .brdCommitGo s = .next { s with brd := { s.brd with goLater := true } }) ∧
  (∀ s : State, s.compWaits = false → (s.allCheck s.slotNwin fun t b => (s.bank t b).cid) = none →
    Does .brdCommitGo s fun u =>
      u.brd.epochs = s.brd.epochs ∧ u.brd.block = 0 ∧ u.brd.lastRefusal = 0 ∧ u.brd.waiting = true ∧
      u.xlt.sh = { s.xlt.sh with acc := some s.xlt.sh.pend } ∧ u.lp.sh = { s.lp.sh with acc := some s.lp.sh.pend } ∧
      u.fab.sh = { s.fab.sh with acc := some s.fab.sh.pend } ∧ u.brd.sh = { s.brd.sh with acc := some s.brd.sh.pend } ∧
      (∀ e ∈ u.tiles, e.2.nbr.acc = some e.2.nbr.pend ∧ e.2.srm.sh.acc = some e.2.srm.sh.pend) ∧
      u.tiles.map (·.1) = s.tiles.map (·.1)) ∧
  (∀ (s : State) (r : Nat × Nat × Nat), s.compWaits = false →
    (s.allCheck s.slotNwin fun t b => (s.bank t b).cid) = some r →
    Does .brdCommitGo s fun u =>
      u.brd.epochs = s.brd.epochs ∧ u.brd.block = BitVec.ofNat 4 r.1 ∧ u.brd.lastRefusal = BitVec.ofNat 8 r.2.1 ∧
      u.brd.err = { s.brd.err with order := satInc s.brd.err.order } ∧
      u.xlt.sh = { s.xlt.sh with pend := s.xlt.sh.act } ∧ u.lp.sh = { s.lp.sh with pend := s.lp.sh.act } ∧
      u.fab.sh = { s.fab.sh with pend := s.fab.sh.act } ∧ u.brd.sh = { s.brd.sh with pend := s.brd.sh.act })

/-- R69, R73: a write of SEQ_BANK_CTRL with its reserved bits zero. HOLD takes bit 0; a purge of an EMPTY or PURGING bank is
ignored and counted; any other puts the bank in PURGING, waiting for nothing, drops its page requests and has the responses
to what it has outstanding discarded. BANK_HOLD leaves every other bank and tile as it is. -/
def Stated.BankControlWrites : Prop :=
  (∀ (t : TileIx) (b : BankIx) (v : Word) (s : State), v &&& 0xFFFFFFFE = 0 → Does (.bankHold t b v) s fun u =>
    u.bank t.val b.val = { s.bank t.val b.val with hold := bit v 0 } ∧
    (∀ x y, (x, y) ≠ (t.val, b.val) → u.bank x y = s.bank x y) ∧ ∀ j, j ≠ t.val → u.tile j = s.tile j) ∧
  (∀ (t : TileIx) (b : BankIx) (v : Word) (s : State), v &&& 0xFFFFFFFC = 0 → bit v 1 = true →
    Does (.bankPurge t b v) s fun u =>
      let k := s.bank t.val b.val
      ((k.st = .empty ∨ k.st = .purging) →
        u.bank t.val b.val = { k with hold := bit v 0 } ∧
        (u.tile t.val).err = { (s.tile t.val).err with order := satInc (s.tile t.val).err.order }) ∧
      (¬ (k.st = .empty ∨ k.st = .purging) →
        (u.bank t.val b.val).st = .purging ∧ (u.bank t.val b.val).wait = none ∧ (u.bank t.val b.val).hold = bit v 0 ∧
        (u.bank t.val b.val).ctx = k.ctx ∧ (u.bank t.val b.val).cid = k.cid ∧
        (∀ m ∈ u.xlt.mig, ¬ (m.tile = t.val ∧ m.bank = b.val)) ∧
        ∀ e ∈ s.mesh.reqs, s.issuerBank e.2.who = some (t.val, b.val) →
          (e.1, { e.2 with discard := true }) ∈ u.mesh.reqs))

/-- R45, R73 step 3: a PURGING bank with nothing outstanding becomes EMPTY with its registers, accumulators, flags and
PROGRESS zero, its context, fault and HOLD clear; its channels become idle. Every other bank is as before. -/
def Stated.PurgeEndsInAnEmptyBank : Prop :=
  ∀ (t : TileIx) (b : BankIx) (s : State),
    (s.bank t.val b.val).st = .purging → s.outstanding t.val b.val = false →
    Does (.purgeComplete t b) s fun u =>
      let k := s.bank t.val b.val
      u.bank t.val b.val = { run := k.run, lent := k.lent } ∧
      (∀ x y, (x, y) ≠ (t.val, b.val) → u.bank x y = s.bank x y) ∧
      ∀ c < 8, (s.chan t.val c).bank.toNat = b.val →
        (u.chan t.val c).st = .idle ∧
        ((s.chan t.val c).st ≠ .idle → (u.chan t.val c).fenceRef = none ∧ (u.chan t.val c).starting = false)

/-- R61, R63, R65: the core rail falls after CORE_GATE, ISSUE_HELD follows ISSUE_HOLD, and a wrap of TIL_CYCLE clears
COUNT and sets OVF in every tile of the half. R69, R73: a write of SEQ_BANK_CTRL with its reserved bits zero. HOLD
takes bit 0; a purge of an EMPTY or PURGING bank is ignored and counted; any other puts the bank in PURGING, waiting
for nothing, drops its page requests and has the responses to what it has outstanding discarded. BANK_HOLD leaves
every other bank and tile as it is. R45, R73 step 3: a PURGING bank with nothing outstanding becomes EMPTY with its
registers, accumulators, flags and PROGRESS zero, its context, fault and HOLD clear; its channels become idle. Every
other bank is as before. -/
def Obligations.TileStatusAndBanks : Prop := Stated.TileStatusFollows ∧ Stated.BankControlWrites ∧ Stated.PurgeEndsInAnEmptyBank

/-- R71, R73, R74, R473: a bank still PURGING at its timeout, in a half that is not under recovery: it is FAULTED with code
0x08 and its tile, where it serves and is not isolated yet, is clamped and its isolation begins. -/
def Stated.PurgeTimeoutIsolates : Prop :=
  ∀ (t : TileIx) (b : BankIx) (s : State),
    (s.bank t.val b.val).st = .purging → s.recovering (t.val / 272) = false → (s.tile t.val).role = .grid →
    (∀ i ∈ s.rcv.isolations, i.tile ≠ t.val) →
    Does (.purgeTimeout t b) s fun u =>
      (u.bank t.val b.val).fault = ⟨true, 8, 0⟩ ∧ (u.bank t.val b.val).st = .faulted ∧ (u.tile t.val).clamp = true ∧
      (u.tile t.val).clamped = true ∧ (∃ i ∈ u.rcv.isolations, i.tile = t.val ∧ i.byRecover = false) ∧
      u.rcv.seq = s.rcv.seq + 1

/-- R74: an isolated tile whose core has nothing outstanding is gated; where its row has a healthy skipped tile, a row shift
toward it is recorded; where it has none, the tile leaves the grid and its isolation ends. A drain still unfinished at its
timeout ends the isolation, and a recovery of the half falls due. -/
def Stated.IsolationDrains : Prop :=
  (∀ (t : TileIx) (k : Nat) (s : State),
    (∃ i ∈ s.rcv.isolations, i.tile = t.val) → (s.tile t.val).gate = false → s.coreOutstanding t.val = false →
    s.rowSpare (t.val / 272) (t.val % 272 / 17) = some k →
    Does (.isolationDrainDone t) s fun u =>
      (u.tile t.val).gate = true ∧
      ∃ x, u.rcv.shifts = s.rcv.shifts ++ [x] ∧ x.half = t.val / 272 ∧ x.row = t.val % 272 / 17 ∧ x.failed = t.val ∧
        x.skip = k ∧ x.shellFailed = false ∧ x.copying = false) ∧
  (∀ (t : TileIx) (s : State),
    (∃ i ∈ s.rcv.isolations, i.tile = t.val) → (s.tile t.val).gate = false → s.coreOutstanding t.val = false →
    s.rowSpare (t.val / 272) (t.val % 272 / 17) = none →
    Does (.isolationDrainDone t) s fun u =>
      (u.tile t.val).gate = true ∧ (u.tile t.val).role = .retired ∧ (u.tile t.val).lcol = 0x1F ∧
      ∀ i ∈ u.rcv.isolations, i.tile ≠ t.val) ∧
  (∀ (t : TileIx) (s : State),
    (∃ i ∈ s.rcv.isolations, i.tile = t.val) → (s.tile t.val).gate = false → s.rcv.st = .normal →
    s.rcv.pendingHalf = none → s.rcv.pendingModule = none →
    Does (.isolationDrainTimeout t) s fun u =>
      (∀ i ∈ u.rcv.isolations, i.tile ≠ t.val) ∧ ∃ by_, u.rcv.pendingHalf = some (t.val / 272, by_))

/-- R71, R73, R74, R473: a bank still PURGING at its timeout, in a half that is not under recovery: it is FAULTED with
code 0x08 and its tile, where it serves and is not isolated yet, is clamped and its isolation begins. R74: an isolated
tile whose core has nothing outstanding is gated; where its row has a healthy skipped tile, a row shift toward it is
recorded; where it has none, the tile leaves the grid and its isolation ends. A drain still unfinished at its timeout
ends the isolation, and a recovery of the half falls due. -/
def Obligations.IsolationAndDrain : Prop := Stated.PurgeTimeoutIsolates ∧ Stated.IsolationDrains

/-- R75, R76, R78: once the fences of its bridle change have nothing left to count, the tiles that a row shift moves hold
issue and copy, the new neighbours standing as pending values; when the copy ends, the moving tiles are busy no more and the
neighbours' commit waits for the tick boundary, as soon as Itlum holds no other change. A failed shell of a serving tile is
clamped and gated; a skipped tile whose shell fails is no spare any more. -/
def Obligations.RowShifts : Prop :=
  (∀ (h : Half) (row : Fin 16) (x : RowShift) (s : State),
    (s.rcv.shifts.find? fun y => decide (y.half = h.val ∧ y.row = row.val)) = some x →
    x.opened = true → x.copying = false →
    (∀ c ∈ x.cids, ∀ k, s.slotOf c = some k → (s.fence k).count = 0) →
    Does (.shiftCopyStart h row) s fun u =>
      { x with copying := true } ∈ u.rcv.shifts ∧
      ∀ t, (u.tile t).nbr.act = (s.tile t).nbr.act ∧
        { u.tile t with nbr := (s.tile t).nbr } = if t ∈ (shiftPairs x.failed x.skip).map (·.1)
          then { s.tile t with issueHold := true, shiftBusy := true } else s.tile t) ∧
  (∀ (h : Half) (row : Fin 16) (x : RowShift) (s : State),
    (s.rcv.shifts.find? fun y => decide (y.half = h.val ∧ y.row = row.val)) = some x →
    x.copying = true → x.copied = false →
    Does (.shiftCopyDone h row) s fun u =>
      { x with copied := true } ∈ u.rcv.shifts ∧
      (∀ t, { u.tile t with nbr := (s.tile t).nbr } = if t ∈ (shiftPairs x.failed x.skip).map (·.1)
        then { s.tile t with shiftBusy := false } else s.tile t) ∧
      (s.itl.held = none → s.compWaits = false →
        u.itl.held = some { change := .rowShift x.half x.row x.failed x.cids, block := 4 })) ∧
  (∀ (t : TileIx) (e : Fin 3) (s : State), (s.tile t.val).role = .grid →
    Does (.shellFailure t e) s fun u =>
      (u.tile t.val).clamp = true ∧ (u.tile t.val).clamped = true ∧ (u.tile t.val).gate = true ∧
      (e = 0 → (u.tile t.val).stopDead = true)) ∧
  (∀ (t : TileIx) (e : Fin 3) (s : State), (s.tile t.val).role = .spare → (∀ y ∈ s.rcv.shifts, y.skip ≠ t.val) →
    Does (.shellFailure t e) s fun u =>
      (u.tile t.val).role = .retired ∧ (e = 0 → (u.tile t.val).stopDead = true))

/-! ### The recovery ladder above the tile -/

/-- R471: at a tick that is a multiple of 65,536, every bank that is not EMPTY in a half not under recovery, of a
composition that does not stall for one (R32), has its PROGRESS kept; STILL becomes 0 where PROGRESS has moved since the last sample, and otherwise grows by the growth of RUN while the bank
qualifies. The cadence and the module's recovery state stay as they are. -/
def Obligations.HangSampling : Prop :=
  ∀ s : State, s.cad.tick.toNat % 65536 = 0 → s.itl.avail = true → Does .hangSample s fun u =>
    u.rcv.st = s.rcv.st ∧ u.rcv.hangLimit = s.rcv.hangLimit ∧
    ∀ t b, b < 4 → (s.bank t b).st ≠ .empty → s.recovering (t / 272) = false →
      s.cidStalled (s.bank t b).cid = false →
      let k := s.bank t b
      let key := t * 4 + b
      Tab.find u.rcv.lastProgress key = some k.progress ∧
      Tab.get (fun _ => 0) u.rcv.still key =
        if Tab.find s.rcv.lastProgress key = some k.progress then
          Tab.get (fun _ => 0) s.rcv.still key +
            if s.hangQualifies t b then (k.run - Tab.get (fun _ => 0) s.rcv.lastRun key).toNat else 0
        else 0

/-- R476, R477: a block that does not answer makes a half recovery due; it starts when nothing else recovers: ISSUE_HOLD on
every tile of the half that serves, every trained pair of the half in self-refresh, no isolation left there, the step counted.
The drain's end takes tiles that still wait as failed shells and goes to step 2; the end, once no pair is in self-refresh,
clears ISSUE_HOLD, counts the recovery and keeps its duration and epoch. -/
def Stated.HalfRecovery : Prop :=
  (∀ (h : Half) (s : State), s.rcv.st = .normal → s.rcv.pendingHalf = none → s.rcv.pendingModule = none →
    Does (.unresponsiveBlock h) s fun u => u = { s with rcv := { s.rcv with pendingHalf := some (h.val, false) } }) ∧
  (∀ (h : Half) (clean by_ : Bool) (s : State), s.rcv.pendingHalf = some (h.val, by_) → s.rcv.st = .normal →
    s.itl.avail = true →
    Does (.halfRecoveryStart h clean) s fun u =>
      u.rcv.st = .half ∧ u.rcv.half = h.val ∧ u.rcv.step = 1 ∧ u.rcv.pendingHalf = none ∧ u.rcv.byRecover = by_ ∧
      u.rcv.seq = s.rcv.seq + 1 ∧ u.rcv.stepSeq = s.rcv.seq + 1 ∧ (∀ i ∈ u.rcv.isolations, i.tile / 272 ≠ h.val) ∧
      (∀ t, t / 272 = h.val → (s.tile t).role = .grid → (u.tile t).issueHold = true) ∧
      ∀ p, p / 96 = h.val → (s.pair p).st ≠ .untrained → (s.pair p).st ≠ .training → (s.pair p).st ≠ .retired →
        (u.pair p).st = .selfRefresh) ∧
  (∀ (h : Half) (s : State), s.rcv.st = .half → s.rcv.half = h.val → s.rcv.step = 1 →
    Does (.halfDrainTimeout h) s fun u =>
      u.rcv.st = .half ∧ u.rcv.step = 2 ∧
      ∀ t, t / 272 = h.val → s.coreOutstanding t = true → (s.tile t).role = .grid →
        (u.tile t).clamp = true ∧ (u.tile t).gate = true) ∧
  (∀ (h : Half) (ms : Nat) (s : State), s.rcv.st = .half → s.rcv.half = h.val → s.rcv.step = 2 →
    (∀ p, p / 96 = h.val → (s.pair p).st ≠ .selfRefresh) →
    Does (.halfRecoveryEnd h ms) s fun u =>
      u.rcv.st = .normal ∧ u.rcv.step = 0 ∧ u.rcv.halfCount = satInc s.rcv.halfCount ∧
      u.rcv.lastMs = BitVec.ofNat 32 ms ∧ u.rcv.lastEpoch = s.cad.epoch ∧
      ∀ t, t / 272 = h.val → (u.tile t).issueHold = false)

/-- R473, R475, R479, R480: a half recovery's timeout makes a module recovery due; it starts with every serving tile's issue
held and every locked or running TDI in ERROR with cause 0x5; a second failed module recovery halts the module, whose cores
lose power. -/
def Stated.ModuleRecovery : Prop :=
  (∀ s : State, s.rcv.st = .half → s.rcv.pendingModule = none → Does .recoveryTimeout s fun u =>
    u.rcv.pendingModule = some s.rcv.byRecover ∧ u.rcv.pendingHalf = none ∧ u.rcv.st = .half) ∧
  (∀ (w e by_ : Bool) (s : State), s.rcv.pendingModule = some by_ → s.rcv.st ≠ .module → s.itl.avail = true →
    Does (.moduleRecoveryStart w e) s fun u =>
      u.rcv.st = .module ∧ u.rcv.step = 1 ∧ u.rcv.pendingHalf = none ∧ u.rcv.pendingModule = none ∧
      u.rcv.byRecover = by_ ∧ (∀ t < 544, (s.tile t).role = .grid → (u.tile t).issueHold = true) ∧
      ∀ h f, f < 257 → (s.func h f).tdi = .locked ∨ (s.func h f).tdi = .run →
        (u.func h f).tdi = .error ∧ (u.func h f).tdiCause = 5) ∧
  (∀ s : State, s.rcv.st = .module → 1 ≤ s.rcv.failedModule → Does .recoveryTimeout s fun u =>
    u.rcv.st = .halted ∧ u.rcv.failedModule = 2 ∧ ∀ t, (u.tile t).powered = false)

/-- R476, R477: a block that does not answer makes a half recovery due; it starts when nothing else recovers: ISSUE_HOLD
on every tile of the half that serves, every trained pair of the half in self-refresh, no isolation left there, the
step counted. The drain's end takes tiles that still wait as failed shells and goes to step 2; the end, once no pair
is in self-refresh, clears ISSUE_HOLD, counts the recovery and keeps its duration and epoch. R473, R475, R479, R480: a
half recovery's timeout makes a module recovery due; it starts with every serving tile's issue held and every locked
or running TDI in ERROR with cause 0x5; a second failed module recovery halts the module, whose cores lose power. -/
def Obligations.HalfAndModuleRecovery : Prop := Stated.HalfRecovery ∧ Stated.ModuleRecovery


/-! ### Scalar instructions -/

/-- Bank `b` of tile `t` runs its next instruction: it issues (R45), and the instruction lies in its share (R114). -/
def runsNext (s : State) (t b : Nat) : Prop :=
  s.issues t b = true ∧ (s.bank t b).pc.toNat * 8 + 8 ≤ s.shareBytes t b

/-- The bank after an instruction that changed it to `k` (R70, R119): the PC at the next one, PROGRESS counted. -/
def retired (k : Bank) : Bank := { k with pc := k.pc + 1, progress := k.progress + 1 }

/-- The state with bank `b` of tile `t` replaced by `k`, everything else as it was. -/
def withBank (s : State) (t b : Nat) (k : Bank) : State :=
  { s with tiles := Tab.insert s.tiles t { s.tile t with banks := Tab.insert (s.tile t).banks b k } }

/-- The integer operations of R97 and R117 on 64-bit registers, in whole numbers: sums, differences and products modulo
2^64, logical shifts by 64 or more give 0, arithmetic ones divide toward minus infinity, comparisons give 1 or 0. -/
def aluRule (op : ScalarAlu) (a b : DWord) : Nat :=
  match op with
  | .add => (a.toNat + b.toNat) % 2 ^ 64
  | .sub => (a.toNat + (2 ^ 64 - b.toNat)) % 2 ^ 64
  | .mul => a.toNat * b.toNat % 2 ^ 64
  | .and => Nat.land a.toNat b.toNat
  | .or => Nat.lor a.toNat b.toNat
  | .xor => Nat.xor a.toNat b.toNat
  | .shl => if 64 ≤ b.toNat then 0 else a.toNat * 2 ^ b.toNat % 2 ^ 64
  | .shrl => if 64 ≤ b.toNat then 0 else a.toNat / 2 ^ b.toNat
  | .shra => ((a.toInt / 2 ^ b.toNat) % 2 ^ 64).toNat
  | .eq => if a.toNat = b.toNat then 1 else 0
  | .ne => if a.toNat = b.toNat then 0 else 1
  | .ltS => if a.toInt < b.toInt then 1 else 0
  | .ltU => if a.toNat < b.toNat then 1 else 0
  | .leS => if a.toInt ≤ b.toInt then 1 else 0
  | .leU => if a.toNat ≤ b.toNat then 1 else 0

/-- R97, R117: a scalar arithmetic, logic, compare or move instruction writes its destination and retires; nothing else of
the machine changes. Immediates are sign-extended (the model's choice, log entry 23). -/
def Obligations.ScalarArithmetic : Prop :=
  ∀ (t : TileIx) (b : BankIx) (s : State), runsNext s t.val b.val →
    let k := s.bank t.val b.val
    let res := fun (d : SReg) (v : Nat) =>
      withBank s t.val b.val (retired { k with sReg := Tab.insert k.sReg d.val (BitVec.ofNat 64 v) })
    (∀ op d x y, exec (.scalarOp t b (.alu op d x y)) s = .next (res d (aluRule op (k.s x.val) (k.s y.val)))) ∧
    (∀ op d x imm, exec (.scalarOp t b (.aluImm op d x imm)) s =
      .next (res d (aluRule op (k.s x.val) (BitVec.ofInt 64 imm.toInt)))) ∧
    ∀ d imm, exec (.scalarOp t b (.movImm d imm)) s = .next (res d (imm.toInt % 2 ^ 64).toNat)

/-- R114, R117: a branch not taken retires; a branch taken, a jump, a call and a return put the PC at the instruction at the
target's byte offset, the call with the offset of the next instruction in its link register; nothing else changes. A target
that is no multiple of 8 faults with code 0x01, as an illegal word does (R118). -/
def Stated.ScalarControlFlow : Prop :=
  ∀ (t : TileIx) (b : BankIx) (s : State), runsNext s t.val b.val →
    let k := s.bank t.val b.val
    let at_ := fun (k : Bank) (target : Nat) =>
      withBank s t.val b.val { k with pc := BitVec.ofNat 22 (target / 8), progress := k.progress + 1 }
    (∀ c z target, (k.s c.val = 0 ↔ z = false) →
      exec (.scalarOp t b (.branch c z target)) s = .next (withBank s t.val b.val (retired k))) ∧
    (∀ target : BitVec 25, target.toNat % 8 = 0 →
      (∀ c z, (k.s c.val = 0 ↔ z = true) →
        exec (.scalarOp t b (.branch c z target)) s = .next (at_ k target.toNat)) ∧
      exec (.scalarOp t b (.jump target)) s = .next (at_ k target.toNat) ∧
      ∀ l : SReg, exec (.scalarOp t b (.call l target)) s = .next
        (at_ { k with sReg := Tab.insert k.sReg l.val (BitVec.ofNat 64 (k.pc.toNat * 8 + 8)) } target.toNat)) ∧
    (∀ l : SReg, (k.s l.val).toNat % 8 = 0 → (k.s l.val).toNat < 2 ^ 25 →
      exec (.scalarOp t b (.ret l)) s = .next (at_ k (k.s l.val).toNat)) ∧
    (∀ op, op = ScalarOp.illegal ∨ (∃ target, op = .jump target ∧ target.toNat % 8 ≠ 0) →
      Does (.scalarOp t b op) s fun u => (u.bank t.val b.val).st = .faulted ∧
        (u.bank t.val b.val).fault = ⟨true, 1, BitVec.ofNat 16 (k.pc.toNat % 65536)⟩ ∧
        (u.bank t.val b.val).sReg = k.sReg ∧ (u.bank t.val b.val).pc = k.pc)

/-- The `len` bytes at DVA `dva` of a bank's context lie at SRAM offset `off` of its own tile, in its own share, on a page
that the look-aside holds, in granules that admit it, on lines with no error mark. -/
def ownSpan (s : State) (t b dva off len : Nat) : Prop :=
  let k := s.bank t b
  dva < 2 ^ 57 ∧ off % 64 = dva % 64 ∧
  ∃ e, s.lookup t k.cid k.ctx dva = some e ∧ dva + len ≤ e.base + 2 ^ e.log2 ∧ entryKind e.leaf = 0 ∧
    ∀ i < len, s.place (entryOa e.leaf + (dva - e.base) + i) = .sram t (off + i) ∧
      s.inShare t b (.sram t (off + i)) = true ∧ (s.gran t ((off + i) / 65536)).admits k.cid k.ctx = true ∧
      Tab.find (s.tile t).srm.poison ((off + i) / 64) = none ∧ Tab.find (s.tile t).srm.staleIcv ((off + i) / 64) = none

/-- The bank after an access of its own share that ended at once: as it was but for `k`'s registers, retired, running where
its tile has chosen it. -/
def ended (s : State) (t b : Nat) (k : Bank) : Bank :=
  retired { k with wait := none, st := if (s.tile t).run = b then .running else .loaded }

/-- The bytes [off, off + len) of tile `t`'s SRAM are those that `v` gives, every other byte of memory is as before. -/
def onlyStored (s u : State) (t off len : Nat) (v : Nat → Byte) : Prop :=
  (∀ i < len, u.byte (sramKey t (off + i)) = v i) ∧
  ∀ a, (∀ i < len, a ≠ sramKey t (off + i)) → u.byte a = s.byte a

/-- R117, R119: a load, store or atomic of the scalar class in the bank's own share ends at once. A load of 1, 2, 4 or 8
bytes writes the destination, sign-extended or not; a store writes those bytes of the source; an atomic acts on the aligned
8-byte word (the model's choice, log entry 42) and returns its old value. No other register and no other byte of memory
changes. -/
def Stated.ScalarMemoryInTheShare : Prop :=
  ∀ (t : TileIx) (b : BankIx) (base : SReg) (imm : BitVec 41) (off : Nat) (s : State), runsNext s t.val b.val →
    MemoryCanonical s →
    let k := s.bank t.val b.val
    let dva := (k.s base.val + BitVec.ofInt 64 imm.toInt).toNat
    let set := fun (d : SReg) (v : DWord) => { k with sReg := Tab.insert k.sReg d.val v }
    (∀ (l : Fin 4) (signed : Bool) (d : SReg), ownSpan s t.val b.val dva off (2 ^ l.val) →
      Does (.scalarMemory t b (.load l signed d base imm) .clean) s fun u =>
        let v := s.wordAt (sramKey t.val off) (2 ^ l.val)
        u.mem = s.mem ∧ u.bank t.val b.val = ended s t.val b.val (set d
          (if signed then (BitVec.ofNat (8 * 2 ^ l.val) v).signExtend 64 else BitVec.ofNat 64 v))) ∧
    (∀ (l : Fin 4) (src : SReg), ownSpan s t.val b.val dva off (2 ^ l.val) →
      Does (.scalarMemory t b (.store l src base imm) .clean) s fun u =>
        u.bank t.val b.val = ended s t.val b.val k ∧
        onlyStored s u t.val off (2 ^ l.val) fun i => BitVec.ofNat 8 ((k.s src.val).toNat / 256 ^ i)) ∧
    (∀ (op : AtomicOp) (d src cmp : SReg), ownSpan s t.val b.val (dva / 8 * 8) off 8 →
      Does (.scalarMemory t b (.atomic op d src cmp base imm) .clean) s fun u =>
        let old := s.wordAt (sramKey t.val off) 8
        let new := match op with
          | .add => (old + (k.s src.val).toNat) % 2 ^ 64
          | .exchange => (k.s src.val).toNat
          | .compareExchange => if old = (k.s cmp.val).toNat then (k.s src.val).toNat else old
        u.bank t.val b.val = ended s t.val b.val (set d (BitVec.ofNat 64 old)) ∧
        onlyStored s u t.val off 8 fun i => BitVec.ofNat 8 (new / 256 ^ i))

/-- R117, R119: the same of the vector class, a V register of 512 bytes or a P register of 16. -/
def Stated.VectorMemoryInTheShare : Prop :=
  ∀ (t : TileIx) (b : BankIx) (base : SReg) (imm : BitVec 41) (off : Nat) (s : State), runsNext s t.val b.val →
    MemoryCanonical s →
    let k := s.bank t.val b.val
    let dva := (k.s base.val + BitVec.ofInt 64 imm.toInt).toNat
    (ownSpan s t.val b.val dva off 512 →
      (∀ d : VReg, Does (.vectorMemory t b (.load d base imm) .clean) s fun u =>
        let x := u.bank t.val b.val
        u.mem = s.mem ∧ (∀ i < 128, x.v32 d.val i = s.wordAt (sramKey t.val (off + 4 * i)) 4) ∧
        (∀ r : VReg, r ≠ d → ∀ i < 128, x.v32 r.val i = k.v32 r.val i) ∧
        { x with vReg := k.vReg } = ended s t.val b.val k) ∧
      ∀ src : VReg, Does (.vectorMemory t b (.store src base imm) .clean) s fun u =>
        u.bank t.val b.val = ended s t.val b.val k ∧
        onlyStored s u t.val off 512 fun i => BitVec.ofNat 8 (k.vByte src.val i)) ∧
    (ownSpan s t.val b.val dva off 16 →
      (∀ d : PReg, Does (.vectorMemory t b (.loadP d base imm) .clean) s fun u =>
        u.mem = s.mem ∧ u.bank t.val b.val = ended s t.val b.val
          { k with pReg := Tab.insert k.pReg d.val (BitVec.ofNat 128 (s.wordAt (sramKey t.val off) 16)) }) ∧
      ∀ src : PReg, Does (.vectorMemory t b (.storeP src base imm) .clean) s fun u =>
        u.bank t.val b.val = ended s t.val b.val k ∧
        onlyStored s u t.val off 16 fun i => BitVec.ofNat 8 ((k.p src.val).toNat / 256 ^ i))

/-- R117, R119: a load, store or atomic of the scalar class in the bank's own share ends at once. A load of 1, 2, 4 or 8
bytes writes the destination, sign-extended or not; a store writes those bytes of the source; an atomic acts on the
aligned 8-byte word (the model's choice, log entry 42) and returns its old value. No other register and no other byte
of memory changes. R117, R119: the same of the vector class, a V register of 512 bytes or a P register of 16. -/
def Obligations.MemoryInstructions : Prop := Stated.ScalarMemoryInTheShare ∧ Stated.VectorMemoryInTheShare

/-- R114, R115, R117, R124: FLAGS reads the arithmetic flags and clears the masked ones, NOP only retires, END puts the bank
back in LOADED with its program ended. -/
def Stated.FlagsEndAndNop : Prop :=
  ∀ (t : TileIx) (b : BankIx) (s : State), runsNext s t.val b.val →
    let k := s.bank t.val b.val
    (∀ (d : SReg) (clear : BitVec 5), exec (.flagsOp t b d clear) s = .next (withBank s t.val b.val (retired
      { k with sReg := Tab.insert k.sReg d.val (BitVec.ofNat 64 k.flags.toNat), flags := k.flags &&& ~~~clear }))) ∧
    exec (.nopOp t b) s = .next (withBank s t.val b.val (retired k)) ∧
    Does (.endOp t b) s fun u =>
      (u.bank t.val b.val).st = .loaded ∧ (u.bank t.val b.val).inProg = false ∧ (u.bank t.val b.val).pc = k.pc + 1 ∧
      (u.bank t.val b.val).progress = k.progress + 1 ∧ (u.bank t.val b.val).sReg = k.sReg

/-- R114, R117: a branch not taken retires; a branch taken, a jump, a call and a return put the PC at the instruction at
the target's byte offset, the call with the offset of the next instruction in its link register; nothing else changes.
A target that is no multiple of 8 faults with code 0x01, as an illegal word does (R118). R114, R115, R117, R124: FLAGS
reads the arithmetic flags and clears the masked ones, NOP only retires, END puts the bank back in LOADED with its
program ended. -/
def Obligations.ControlFlowFlagsAndEnd : Prop := Stated.ScalarControlFlow ∧ Stated.FlagsEndAndNop


/-! ### Vector and matrix instructions -/

/-- The format code that a vector instruction names, if it names one. -/
def vecFmt : VectorOp → Option Nat
  | .float _ f _ _ _ | .fma f _ _ _ _ | .abs f _ _ | .neg f _ _ | .cmp _ f _ _ _ | .special _ _ f _ _
  | .reduceSum f _ _ | .reduceMax f _ _ => some f.toNat
  | _ => none

/-- The vector register that it writes, none where it writes a predicate register. -/
def vecDst : VectorOp → Option VReg
  | .float _ _ d _ _ | .fma _ d _ _ _ | .abs _ d _ | .neg _ d _ | .special _ _ _ d _ | .reduceSum _ d _
  | .reduceMax _ d _ | .select _ _ d _ _ | .int _ _ d _ _ | .permute _ d _ _ => some d
  | .cmp _ _ _ _ _ => none

/-- R40, R41, R96 to R100: every vector arithmetic instruction whose format has lanes (FP32, FP16 or BF16; the integer,
select and permute forms name none; a special function on a format it has) completes: it retires, it adds arithmetic flags
and takes none away, it writes its one destination register, and every other register, the accumulators, memory, every other
bank and every other tile stay as they are. -/
def Stated.VectorArithmeticCompletes : Prop :=
  ∀ (t : TileIx) (b : BankIx) (op : VectorOp) (s : State), runsNext s t.val b.val →
    (∀ f, vecFmt op = some f → f ≤ 2) → (∀ fn f d x, op = .special fn false f d x → f = 0) →
    Does (.vectorOp t b op) s fun u =>
      let k := s.bank t.val b.val
      let x := u.bank t.val b.val
      x.pc = k.pc + 1 ∧ x.progress = k.progress + 1 ∧ x.st = k.st ∧ x.sReg = k.sReg ∧ x.acc = k.acc ∧
      k.flags &&& ~~~x.flags = 0 ∧ (∀ r : VReg, vecDst op ≠ some r → ∀ i < 128, x.v32 r.val i = k.v32 r.val i) ∧
      (∀ r : PReg, (∀ c f a y, op ≠ .cmp c f r a y) → x.p r.val = k.p r.val) ∧ u.mem = s.mem ∧
      (∀ c, c ≠ b.val → u.bank t.val c = s.bank t.val c) ∧ ∀ j, j ≠ t.val → u.tile j = s.tile j

/-- R97: the integer operations on lanes of `w` bits. -/
def laneRule (op : VInt) (w : Nat) (a b : BitVec w) : BitVec w :=
  match op with
  | .add => a + b
  | .sub => a - b
  | .mul => a * b
  | .and => a &&& b
  | .or => a ||| b
  | .xor => a ^^^ b
  | .shl => if w ≤ b.toNat then 0 else a <<< b.toNat
  | .shrl => if w ≤ b.toNat then 0 else a >>> b.toNat
  | .shra => a.sshiftRight b.toNat

/-- R96, R97, R40: what the lane by lane forms leave in each lane of the destination: an integer operation at 128 lanes of
32 bits or 256 of 16; an FP32 float operation its rounded result; a comparison of FP32 lanes one bit each; a select the lane
that its predicate bit names. -/
def Stated.VectorLaneResults : Prop :=
  ∀ (t : TileIx) (b : BankIx) (s : State), runsNext s t.val b.val →
    let k := s.bank t.val b.val
    (∀ (op : VInt) (d x y : VReg), Does (.vectorOp t b (.int op true d x y)) s fun u => ∀ i < 128,
      (u.bank t.val b.val).v32 d.val i =
        (laneRule op 32 (BitVec.ofNat 32 (k.v32 x.val i)) (BitVec.ofNat 32 (k.v32 y.val i))).toNat) ∧
    (∀ (op : VInt) (d x y : VReg), Does (.vectorOp t b (.int op false d x y)) s fun u => ∀ i < 256,
      (u.bank t.val b.val).v16 d.val i =
        (laneRule op 16 (BitVec.ofNat 16 (k.v16 x.val i)) (BitVec.ofNat 16 (k.v16 y.val i))).toNat) ∧
    (∀ (op : VFloat) (d x y : VReg), Does (.vectorOp t b (.float op 0 d x y)) s fun u => ∀ i < 128,
      (u.bank t.val b.val).v32 d.val i = (vfloat op .fp32 (k.v32 x.val i) (k.v32 y.val i)).1 % 2 ^ 32) ∧
    (∀ (op : VCmp) (d : PReg) (x y : VReg), Does (.vectorOp t b (.cmp op 0 d x y)) s fun u => ∀ i < 128,
      ((u.bank t.val b.val).p d.val).getLsbD i = vcmp op .fp32 (k.v32 x.val i) (k.v32 y.val i)) ∧
    ∀ (p : PReg) (d x y : VReg), Does (.vectorOp t b (.select true p d x y)) s fun u => ∀ i < 128,
      (u.bank t.val b.val).v32 d.val i = if (k.p p.val).getLsbD i then k.v32 x.val i else k.v32 y.val i

/-- R40, R41, R96 to R100: every vector arithmetic instruction whose format has lanes (FP32, FP16 or BF16; the integer,
select and permute forms name none; a special function on a format it has) completes: it retires, it adds arithmetic
flags and takes none away, it writes its one destination register, and every other register, the accumulators, memory,
every other bank and every other tile stay as they are. R96, R97, R40: what the lane by lane forms leave in each lane
of the destination: an integer operation at 128 lanes of 32 bits or 256 of 16; an FP32 float operation its rounded
result; a comparison of FP32 lanes one bit each; a select the lane that its predicate bit names. -/
def Obligations.VectorArithmetic : Prop := Stated.VectorArithmeticCompletes ∧ Stated.VectorLaneResults

/-- R89 to R95: a conversion writes its 128 rounded elements packed from byte 0 of its destination, a block quantize its
elements, zeros in a partial block's rest, and, in a scalar register, the block's scale; both retire, and no other register changes. -/
def Obligations.ConversionsAndQuantize : Prop :=
  ∀ (t : TileIx) (b : BankIx) (s : State), runsNext s t.val b.val →
    let k := s.bank t.val b.val
    (∀ (c : Conversion) (f g : Fmt) (scaled scaled' : Bool), s.optype t.val 1 c.srcType = .ok (f, scaled) →
      s.optype t.val 1 c.dstFmt = .ok (g, scaled') →
      Does (.conversion t b c) s fun u =>
        let x := u.bank t.val b.val
        let es := (List.range 128).map fun i =>
          (convert g c.rm c.sat (readElem f scaled (k.vByte c.src.val) (k.vByte c.scale.val) i).1).1
        x.pc = k.pc + 1 ∧ x.progress = k.progress + 1 ∧ x.sReg = k.sReg ∧ x.pReg = k.pReg ∧ x.acc = k.acc ∧
        (∀ i y, (packElems g es)[i]? = some y → i < 512 → x.vByte c.dst.val i = y.toNat) ∧
        ∀ r : VReg, r ≠ c.dst → ∀ i < 128, x.v32 r.val i = k.v32 r.val i) ∧
    (∀ (q : Quantize) (f g : Fmt) (scaled : Bool), s.optype t.val 1 q.srcFmt = .ok (f, false) →
      s.optype t.val 1 q.dstFmt = .ok (g, scaled) → isLane g = false → 1 ≤ q.count.val → q.count.val ≤ g.block →
      Does (.blockQuantize t b q) s fun u =>
        let x := u.bank t.val b.val
        let get := fun i => if i < 512 then k.vByte q.src.val i else k.vByte q.src2.val (i - 512)
        let vs := (List.range q.count.val).map fun i => f.read (elemBits f get i).1
        let r := if g = .tq2 then quantizeTq2 vs else quantizeMx g q.rm vs
        x.pc = k.pc + 1 ∧ x.progress = k.progress + 1 ∧
        x.sReg = Tab.insert k.sReg q.scale.val (BitVec.ofNat 64 r.1) ∧ x.pReg = k.pReg ∧ x.acc = k.acc ∧
        (∀ i y, (packElems g (r.2.1 ++ List.replicate (g.block - q.count.val) 0))[i]? = some y → i < 512 →
          x.vByte q.dst.val i = y.toNat) ∧
        ∀ v : VReg, v ≠ q.dst → ∀ i < 128, x.v32 v.val i = k.v32 v.val i)

/-- R36, R37, R101 to R105, R120: a matrix instruction whose descriptors read, fit and pair and whose operands' lines are
readable adds its products to every
element of its rows and columns of the accumulator, in groups of G in ascending K, 32 rows for MMA.B and M rows for MMA.V;
other elements, registers and memory stay, and the unit counts as issuing. -/
def Stated.MatrixInstructions : Prop :=
  ∀ (t : TileIx) (b : BankIx) (op : Mma) (oa ob : Opnd) (rows : Nat)
    (found : List (Fin 393216 × Ecc)) (i : Instr) (s : State), runsNext s t.val b.val → op.reserved = 0 → op.k ≠ 0 → op.ncol ≠ 0 → op.ncol.toNat ≤ 64 →
    (i = .mmaB t b op found ∧ op.m = 0 ∧ rows = 32 ∨ i = .mmaV t b op found ∧ 1 ≤ op.m ∧ op.m ≤ 4 ∧ rows = op.m.toNat) →
    let k := s.bank t.val b.val
    s.opnd t.val b.val (k.s op.sa.val).toNat rows op.k.toNat = .ok oa →
    s.opnd t.val b.val (k.s op.sb.val).toNat op.ncol.toNat op.k.toNat = .ok ob → pairOk oa.fmt ob.fmt = true →
    (s.linesCheck t.val b.val (((k.s op.sa.val).toNat, 16) :: ((k.s op.sb.val).toNat, 16) ::
      oa.ranges rows op.k.toNat ++ ob.ranges op.ncol.toNat op.k.toNat) found).1 = none →
    Does i s fun u =>
      let x := u.bank t.val b.val
      let G := groupSize oa.fmt ob.fmt
      let n := op.k.toNat
      u.mem = s.mem ∧ (u.tile t.val).matrix = true ∧ x.pc = k.pc + 1 ∧ x.progress = k.progress + 1 ∧ x.sReg = k.sReg ∧
      x.vReg = k.vReg ∧ x.pReg = k.pReg ∧ k.flags &&& ~~~x.flags = 0 ∧
      ∀ a : Fin 4, ∀ r < 32, ∀ c < 64, x.accAt a.val r c =
        if a = op.acc ∧ r < rows ∧ c < op.ncol.toNat then
          (s.mmaElem t.val b.val oa ob G n r c ((n + G - 1) / G) 0 (k.accAt op.acc.val r c, 0)).1 % 2 ^ 32
        else k.accAt a.val r c

/-- R106, R117: ACC.MOV copies the 64 elements of an accumulator row, exactly, to lanes 0 to 63 or 64 to 127 of a vector
register (which half: the model's choice, log entry 25); ACC.ZERO makes every element of its accumulator +0. Nothing else
of the bank changes. -/
def Stated.AccumulatorMoves : Prop :=
  ∀ (t : TileIx) (b : BankIx) (a : Fin 4) (s : State), runsNext s t.val b.val →
    let k := s.bank t.val b.val
    (∀ (row : Fin 32) (d : VReg) (upper : Bool), Does (.accMov t b a row d upper) s fun u =>
      let x := u.bank t.val b.val
      { x with vReg := k.vReg } = retired k ∧
      ∀ r : VReg, ∀ i < 128, x.v32 r.val i =
        if r = d ∧ (64 ≤ i ↔ upper = true) then k.accAt a.val row.val (i % 64) else k.v32 r.val i) ∧
    Does (.accZero t b a) s fun u =>
      let x := u.bank t.val b.val
      { x with acc := k.acc } = retired k ∧
      ∀ c : Fin 4, ∀ r < 32, ∀ j < 64, x.accAt c.val r j = if c = a then 0 else k.accAt c.val r j

/-- R36, R37, R101 to R105, R120: a matrix instruction whose descriptors read, fit and pair and whose operands' lines are
readable adds its products to every element of its rows and columns of the accumulator, in groups of G in ascending K,
32 rows for MMA.B and M rows for MMA.V; other elements, registers and memory stay, and the unit counts as issuing.
R106, R117: ACC.MOV copies the 64 elements of an accumulator row, exactly, to lanes 0 to 63 or 64 to 127 of a vector
register (which half: the model's choice, log entry 25); ACC.ZERO makes every element of its accumulator +0. Nothing
else of the bank changes. -/
def Obligations.MatrixAndAccumulators : Prop := Stated.MatrixInstructions ∧ Stated.AccumulatorMoves


/-! ### Stream channels and neighbour links -/

/-- The `len` bytes at DVA `a` lie at offset `off` of the tile's own share through the page `e`, which the tile's look-aside
holds as its newest, readable and writable, in granules that admit the bank, on lines with no error mark. -/
def onNewestPage (s : State) (t b : Nat) (e : XEntry) (a off len : Nat) : Prop :=
  let k := s.bank t b
  (s.tile t).look.head? = some e ∧ e.cid = k.cid ∧ e.ctx = k.ctx ∧ entryKind e.leaf = 0 ∧ bit e.leaf 4 = true ∧
  bit e.leaf 5 = true ∧ e.base % 2 ^ e.log2 = 0 ∧ e.base ≤ a ∧ a + len ≤ e.base + 2 ^ e.log2 ∧ a + len ≤ 2 ^ 57 ∧
  off % 64 = a % 64 ∧
  ∀ i < len, s.place (entryOa e.leaf + (a - e.base) + i) = .sram t (off + i) ∧
    s.inShare t b (.sram t (off + i)) = true ∧ (s.gran t ((off + i) / 65536)).admits k.cid k.ctx = true ∧
    Tab.find (s.tile t).srm.poison ((off + i) / 64) = none ∧ Tab.find (s.tile t).srm.staleIcv ((off + i) / 64) = none

/-- R126, R127, R133: STREAM.START on a free channel reads its descriptor `d`. A receive channel whose ring lies in the share
becomes active on it, shows its peer a pairing word with the beats that the ring and the count admit, and the instruction
retires; a copy becomes a channel of the bank with that descriptor. (SIGNAL 0: the channel holds no fence.) -/
def Stated.StreamChannelsStart : Prop :=
  ∀ (t : TileIx) (b : BankIx) (ch : ChIx) (sd : SReg) (off : Nat) (d : Line) (e : XEntry) (s : State),
    runsNext s t.val b.val →
    let k := s.bank t.val b.val
    let dva := (k.s sd.val).toNat
    ((s.chan t.val ch.val).st = .idle ∨ ((s.chan t.val ch.val).st = .done ∧ (s.chan t.val ch.val).bank.toNat = b.val)) →
    dva % 64 = 0 → onNewestPage s t.val b.val e dva off 64 → s.line (sramKey t.val off) = d → dBad d = false →
    dSignal d = false →
    (∀ roff, dKind d = 2 → (s.neighbour t.val (dPort d)).isSome = true → dDst d % dRing d = 0 →
      onNewestPage s t.val b.val e (dDst d) roff (dRing d) →
      Does (.streamStart t b ch sd .clean) s fun u =>
        let c := u.chan t.val ch.val
        c.st = .active ∧ c.bank = BitVec.ofNat 2 b.val ∧ c.link = true ∧ c.d = d ∧ c.desc = BitVec.ofNat 51 (dva / 64) ∧
        c.ring = roff ∧ c.beats = 0 ∧ c.released = 0 ∧ c.fenceRef = none ∧ u.mem = s.mem ∧
        u.out = s.out ++ [.sideband t.val (dPort d) (.pairing ch k.cid k.ctx (min (dRing d / 128) (dCount d)))] ∧
        (u.bank t.val b.val).pc = k.pc + 1 ∧ (u.bank t.val b.val).progress = k.progress + 1) ∧
    (dKind d = 0 → (∀ sp ∈ dSpans d, ∃ o, onNewestPage s t.val b.val e sp.at_ o sp.len) →
      Does (.streamStart t b ch sd .clean) s fun u =>
        let c := u.chan t.val ch.val
        c.bank = BitVec.ofNat 2 b.val ∧ c.link = false ∧ c.d = d ∧ c.desc = BitVec.ofNat 51 (dva / 64) ∧
        (u.bank t.val b.val).pc = k.pc + 1)

/-- The write-back of a channel's descriptor ends in the bank's own share (R126): a readable line of a page that its bank may
write, in a granule that admits it. -/
def writesBack (s : State) (t ch : Nat) : Prop :=
  let c := s.chan t ch
  let b := c.bank.toNat
  let w := s.chanWho t b c.pages (c.desc.toNat * 64)
  ∃ m off, s.chanOwn t b c.pages (c.desc.toNat * 64) = some m ∧ s.place m = .sram t off ∧ w.lacks .wr = false ∧
    (s.gran t (off / 65536)).admits w.cid w.ctx = true ∧
    Tab.find (s.tile t).srm.poison (off / 64) = none ∧ Tab.find (s.tile t).srm.staleIcv (off / 64) = none

/-- A STREAM.STOP or STREAM.ARM names a live link channel of its bank. -/
def liveLink (c : Chan) (b : Nat) : Prop :=
  c.link = true ∧ c.bank.toNat = b ∧ (c.st = .active ∨ c.st = .stalled)

/-- R130, R131, R134: STREAM.ARM adds armed beats to a live send channel of the bank, which is stalled while it has no credit
or no armed beat, or releases beats of a live receive channel, whose credits return to the sending channel it is paired with
in words of at most 8, together with those that waited for the pairing (the model's choice, log entry 45); more beats than
COUNT admits make an illegal instruction; on any other channel it only retires (the model's choice, log entry 27).
STREAM.WAIT retires on an idle or done channel and otherwise waits for it. STREAM.STOP makes a channel with nothing
outstanding done, with no signal. -/
def Stated.StreamArmWaitStop : Prop :=
  ∀ (t : TileIx) (b : BankIx) (ch : ChIx) (s : State), runsNext s t.val b.val →
    let k := s.bank t.val b.val
    let c := s.chan t.val ch.val
    (∀ sn : SReg, let n := (k.s sn.val).toNat
      (liveLink c b.val → dKind c.d = 1 → c.armed + c.beats + n ≤ dCount c.d → Does (.streamArm t b ch sn) s fun u =>
        u.chan t.val ch.val = { c with
          armed := c.armed + n, st := if c.credits = 0 ∨ c.armed + n = 0 then .stalled else .active } ∧
        u.bank t.val b.val = retired k ∧ u.out = s.out) ∧
      (liveLink c b.val → dKind c.d ≠ 1 → c.released + n ≤ dCount c.d →
        (∀ j, s.sender t.val (dPort c.d) ch.val = some j → Does (.streamArm t b ch sn) s fun u =>
          u.chan t.val ch.val = { c with released := c.released + n, owed := 0 } ∧ u.bank t.val b.val = retired k ∧
          u.out = s.out ++ List.replicate ((c.owed + n) / 8) (.sideband t.val (dPort c.d) (.credits (Fin.ofNat 8 j) 8)) ++
            if (c.owed + n) % 8 = 0 then []
            else [.sideband t.val (dPort c.d) (.credits (Fin.ofNat 8 j) ((c.owed + n) % 8))]) ∧
        (s.sender t.val (dPort c.d) ch.val = none → Does (.streamArm t b ch sn) s fun u =>
          u.chan t.val ch.val = { c with released := c.released + n, owed := c.owed + n } ∧
          u.bank t.val b.val = retired k ∧ u.out = s.out)) ∧
      (¬ liveLink c b.val → exec (.streamArm t b ch sn) s = .next (withBank s t.val b.val (retired k)))) ∧
    ((c.st = .idle ∨ c.st = .done) → exec (.streamWait t b ch) s = .next (withBank s t.val b.val (retired k))) ∧
    (¬ (c.st = .idle ∨ c.st = .done) →
      exec (.streamWait t b ch) s = .next (withBank s t.val b.val { k with wait := some (.chan ch.val) })) ∧
    (c.bank.toNat = b.val → c.st = .active → (c.link = true ∨ c.acked = c.issued) → writesBack s t.val ch.val →
      Does (.streamStop t b ch) s fun u => (u.chan t.val ch.val).st = .done ∧ (u.chan t.val ch.val).fenceRef = none) ∧
    (c.bank.toNat ≠ b.val → exec (.streamStop t b ch) s = .next (withBank s t.val b.val (retired k)))

/-- R126, R127, R133: STREAM.START on a free channel reads its descriptor `d`. A receive channel whose ring lies in the
share becomes active on it, shows its peer a pairing word with the beats that the ring and the count admit, and the
instruction retires; a copy becomes a channel of the bank with that descriptor. (SIGNAL 0: the channel holds no
fence.) R130, R131, R134: STREAM.ARM adds armed beats to a live send channel of the bank, which is stalled while it
has no credit or no armed beat, or releases beats of a live receive channel, whose credits return to the sending
channel it is paired with in words of at most 8, together with those that waited for the pairing (the model's choice,
log entry 45); more beats than COUNT admits make an illegal instruction; on any other channel it only retires (the
model's choice, log entry 27). STREAM.WAIT retires on an idle or done channel and otherwise waits for it. STREAM.STOP
makes a channel with nothing outstanding done, with no signal. -/
def Obligations.StreamInstructions : Prop := Stated.StreamChannelsStart ∧ Stated.StreamArmWaitStop

/-- R132, R134 to R136, R138: a slot of a live send channel: the next one of its descriptor on the slot clock of its bank's
run. One that a lower channel of the bank takes on the same port counts a collision; one without a credit or an armed beat is
empty; any other sends the next 128 bytes of the ring (here: not the last beat), for one credit and one armed beat, and the
channel is stalled where either has run out. -/
def Stated.LinkSlotsSend : Prop :=
  ∀ (t : TileIx) (ch : ChIx) (s : State),
    let c := s.chan t.val ch.val
    let b := c.bank.toNat
    let cyc := slotFrom c.d (dPeriod c.d) (max (dOffset c.d) (max (s.bank t.val b).slotClock (match c.decided with
      | some x => x + 1
      | none => 0)))
    c.link = true → (c.st = .active ∨ c.st = .stalled) → c.stopping = false → dKind c.d = 1 →
    (s.tile t.val).run = b → s.coreOn t.val b = true →
    (s.slotTaken t.val ch.val cyc = true → Does (.linkSlot t ch) s fun u =>
      u.chan t.val ch.val = { c with decided := some cyc, collisions := satInc c.collisions } ∧
      (u.bank t.val b).slotClock = cyc ∧ u.out = s.out) ∧
    (s.slotTaken t.val ch.val cyc = false → (c.credits = 0 ∨ c.armed = 0) → Does (.linkSlot t ch) s fun u =>
      u.chan t.val ch.val = { c with decided := some cyc, emptySlots := satInc c.emptySlots } ∧
      (u.bank t.val b).slotClock = cyc ∧ u.out = s.out) ∧
    (s.slotTaken t.val ch.val cyc = false → c.credits ≠ 0 → c.armed ≠ 0 → c.beats + 1 ≠ dCount c.d →
      let off := c.ring + c.beats * 128 % dRing c.d
      s.ringChecks t.val b off .rd = true →
      (∀ l, (l = off / 64 ∨ l = (off + 64) / 64) → Tab.find (s.tile t.val).srm.poison l = none ∧
        Tab.find (s.tile t.val).srm.staleIcv l = none) →
      Does (.linkSlot t ch) s fun u =>
        let data : BitVec 1024 := BitVec.ofNat 1024 ((s.line (sramKey t.val (off / 64 * 64))).toNat +
          (s.line (sramKey t.val ((off + 64) / 64 * 64))).toNat * 2 ^ 512)
        u.out = s.out ++ [.sideband t.val (dPort c.d) (.beat (Fin.ofNat 8 (dPeer c.d)) data)] ∧ u.mem = s.mem ∧
        u.chan t.val ch.val = { c with
          decided := some cyc, beats := c.beats + 1, credits := c.credits - 1, armed := c.armed - 1,
          st := if c.credits = 1 ∨ c.armed = 1 then .stalled else .active, lines := c.lines + 2 } ∧
        (u.bank t.val b).progress = (s.bank t.val b).progress + 2)

/-- R49, R131, R133, R134, R137: an arriving beat is stored as two lines of the live receive channel's ring and counted
(here: not the last), or discarded and counted; a pairing word sets the port's pairing entry, its credits going to a send
channel of that context, or faulting it with code 0x06 if its context differs; returned credits are one more than their
count. -/
def Stated.LinkBeatsAndCredits : Prop :=
  (∀ (t : TileIx) (port : NPort) (ch : ChIx) (data : BitVec 1024) (s : State), MemoryCanonical s →
    let c := s.chan t.val ch.val
    let live := c.link = true ∧ (c.st = .active ∨ c.st = .stalled) ∧ c.stopping = false ∧ dKind c.d = 2 ∧
      dPort c.d = port.val
    let off := c.ring + c.beats * 128 % dRing c.d
    (live → off % 64 = 0 → c.beats + 1 ≠ dCount c.d → s.ringChecks t.val c.bank.toNat off .wr = true →
      Does (.linkBeat t port ch data) s fun u =>
        onlyStored s u t.val off 128 (fun i => data.extractLsb' (8 * i) 8) ∧
        u.chan t.val ch.val = { c with beats := c.beats + 1, lines := c.lines + 2 }) ∧
    (¬ live → exec (.linkBeat t port ch data) s =
      .next { s with mesh := { s.mesh with discardedBeats := s.mesh.discardedBeats + 1 } })) ∧
  (∀ (t : TileIx) (port : NPort) (d : ChIx) (cid : Cid) (ctx : Ctx) (n : Nat) (s : State),
    let sends := fun (ch : Nat) => let c := s.chan t.val ch
      c.link = true ∧ (c.st = .active ∨ c.st = .stalled) ∧ dKind c.d = 1 ∧ dPort c.d = port.val ∧ dPeer c.d = d.val
    ((∀ ch < 8, ¬ sends ch) → Does (.pairingWord t port d cid ctx n) s fun u =>
      u.tile t.val = { s.tile t.val with
        pairings := Tab.insert (s.tile t.val).pairings (port.val * 8 + d.val) ⟨cid, ctx, n⟩ }) ∧
    ∀ ch < 8, sends ch → (∀ j < ch, ¬ sends j) →
      let c := s.chan t.val ch
      let k := s.bank t.val c.bank.toNat
      Does (.pairingWord t port d cid ctx n) s fun u =>
        Tab.find (u.tile t.val).pairings (port.val * 8 + d.val) = some ⟨cid, ctx, 0⟩ ∧
        (k.cid = cid ∧ k.ctx = ctx → u.chan t.val ch = { c with
          credits := c.credits + n, st := if c.credits + n = 0 ∨ c.armed = 0 then .stalled else .active }) ∧
        (¬ (k.cid = cid ∧ k.ctx = ctx) → k.st = .running →
          (u.bank t.val c.bank.toNat).fault = ⟨true, 6, 4⟩)) ∧
  ∀ (t : TileIx) (ch : ChIx) (n : Fin 8) (s : State),
    let c := s.chan t.val ch.val
    c.link = true → dKind c.d = 1 → (c.st = .active ∨ c.st = .stalled) →
    Does (.linkCreditReturn t ch n) s fun u => u.chan t.val ch.val = { c with
      credits := c.credits + n.val + 1, st := if c.armed = 0 then .stalled else .active }

/-- R132, R134 to R136, R138: a slot of a live send channel: the next one of its descriptor on the slot clock of its
bank's run. One that a lower channel of the bank takes on the same port counts a collision; one without a credit or an
armed beat is empty; any other sends the next 128 bytes of the ring (here: not the last beat), for one credit and one
armed beat, and the channel is stalled where either has run out. R49, R131, R133, R134, R137: an arriving beat is
stored as two lines of the live receive channel's ring and counted (here: not the last), or discarded and counted; a
pairing word sets the port's pairing entry, its credits going to a send channel of that context, or faulting it with
code 0x06 if its context differs; returned credits are one more than their count. -/
def Obligations.LinkChannels : Prop := Stated.LinkSlotsSend ∧ Stated.LinkBeatsAndCredits


/-! ### Fences, semaphores, barriers, walks and page requests -/

/-- The bank after an instruction that retired with the value `v` in scalar register `d`. -/
def withStatus (k : Bank) (d : SReg) (v : Nat) : Bank :=
  retired { k with sReg := Tab.insert k.sReg d.val (BitVec.ofNat 64 v) }

/-- R125, R371, R372: through a handle that resolves to a fence whose line `l` reads. A signal below VALUE is refused, counted
and retires with status 2; any other retires with status 0, leaves no wait of the line for that value or less, and, where no
wait of the line stands and the line lies in bonded SRAM, stores the value. A wait retires with status 0 where VALUE has been
reached, and otherwise the bank waits, with one more entry in the sync unit. -/
def Stated.FencesSignalAndWait : Prop :=
  ∀ (t : TileIx) (b : BankIx) (op : HandleOp) (i : Nat) (e : ObjEntry) (m : Nat) (l : Line) (s : State),
    runsNext s t.val b.val → MemoryCanonical s →
    let k := s.bank t.val b.val
    let v := (k.s op.sv.val).toNat
    let value := lineGet l 0 8
    s.resolve k.cid ((k.s op.so.val).setWidth 32) 2 = .ok i e → s.syncLine k.cid e = some (m, l) →
    (v < value → Does (.fenceSignal t b op) s fun u =>
      u.bank t.val b.val = withStatus k op.sd 2 ∧ u.que.waits = s.que.waits) ∧
    (value ≤ v → Does (.fenceSignal t b op) s fun u =>
      u.bank t.val b.val = withStatus k op.sd 0 ∧
      (∀ w ∈ u.que.waits, ¬ (w.key = m / 64 * 64 ∧ w.isSem = false ∧ w.target.toNat ≤ v)) ∧
      ∀ x off, s.place m = .sram x off → (∀ w ∈ s.que.waits, w.key ≠ m / 64 * 64) →
        ∀ j < 8, u.byte (sramKey x (off + j)) = BitVec.ofNat 8 (v / 256 ^ j)) ∧
    (v ≤ value → exec (.fenceWait t b op) s = .next (withBank s t.val b.val (withStatus k op.sd 0))) ∧
    (value < v → s.refFits k.cid i = true → Does (.fenceWait t b op) s fun u =>
      let x := u.bank t.val b.val
      x.st = .waiting ∧ x.wait = some (.fence (m / 64 * 64) (BitVec.ofNat 64 v) op.sd.val) ∧ x.since = s.now ∧
      x.pc = k.pc ∧ x.sReg = k.sReg ∧ ∃ h, u.que.waits = s.que.waits ++
        [{ half := h, who := .bank t.val b.val, cid := k.cid, ctx := k.ctx, key := m / 64 * 64,
           target := BitVec.ofNat 64 v, obj := i, startedAt := s.now }])

/-- R125, R373: through a handle that resolves to a semaphore whose line `l` reads. An acquire of no unit, or of units that
COUNT holds while nobody waits, retires with status 0; any other waits, in the order of arrival. A release retires with
status 0, and where nobody waits and the line lies in bonded SRAM, COUNT is the sum, held at 2^32 − 1. -/
def Stated.SemaphoresAcquireAndRelease : Prop :=
  ∀ (t : TileIx) (b : BankIx) (op : HandleOp) (i : Nat) (e : ObjEntry) (m : Nat) (l : Line) (s : State),
    runsNext s t.val b.val → MemoryCanonical s →
    let k := s.bank t.val b.val
    let n := (k.s op.sv.val).toNat
    let free := ∀ w ∈ s.que.waits, ¬ (w.key = m / 64 * 64 ∧ w.isSem = true)
    s.resolve k.cid ((k.s op.so.val).setWidth 32) 3 = .ok i e → s.syncLine k.cid e = some (m, l) →
    (n = 0 → exec (.semAcq t b op) s = .next (withBank s t.val b.val (withStatus k op.sd 0)) ∧
      exec (.semRel t b op) s = .next (withBank s t.val b.val (withStatus k op.sd 0))) ∧
    (n ≠ 0 → n ≤ lineGet l 0 4 → free → Does (.semAcq t b op) s fun u =>
      u.bank t.val b.val = withStatus k op.sd 0 ∧ u.que.waits = s.que.waits ∧
      ∀ x off, s.place m = .sram x off → ∀ j < 4, u.byte (sramKey x (off + j)) = BitVec.ofNat 8 ((lineGet l 0 4 - n) / 256 ^ j)) ∧
    (n ≠ 0 → ¬ (n ≤ lineGet l 0 4 ∧ free) → s.refFits k.cid i = true → Does (.semAcq t b op) s fun u =>
      let x := u.bank t.val b.val
      x.st = .waiting ∧ x.wait = some (.sem (m / 64 * 64) (BitVec.ofNat 32 n) op.sd.val) ∧ x.pc = k.pc ∧
      ∃ h, u.que.waits = s.que.waits ++
        [{ half := h, who := .bank t.val b.val, cid := k.cid, ctx := k.ctx, key := m / 64 * 64,
           isSem := true, target := BitVec.ofNat 64 n, obj := i, startedAt := s.now }]) ∧
    (n ≠ 0 → Does (.semRel t b op) s fun u =>
      u.bank t.val b.val = withStatus k op.sd 0 ∧
      (free → ∀ x off, s.place m = .sram x off →
        ∀ j < 4, u.byte (sramKey x (off + j)) = BitVec.ofNat 8 (min (lineGet l 0 4 + n) (2 ^ 32 - 1) / 256 ^ j)))

/-- R125, R371, R372: through a handle that resolves to a fence whose line `l` reads. A signal below VALUE is refused,
counted and retires with status 2; any other retires with status 0, leaves no wait of the line for that value or less,
and, where no wait of the line stands and the line lies in bonded SRAM, stores the value. A wait retires with status 0
where VALUE has been reached, and otherwise the bank waits, with one more entry in the sync unit. R125, R373: through
a handle that resolves to a semaphore whose line `l` reads. An acquire of no unit, or of units that COUNT holds while
nobody waits, retires with status 0; any other waits, in the order of arrival. A release retires with status 0, and
where nobody waits and the line lies in bonded SRAM, COUNT is the sum, held at 2^32 − 1. -/
def Obligations.FencesAndSemaphores : Prop := Stated.FencesSignalAndWait ∧ Stated.SemaphoresAcquireAndRelease

/-- R144, R145, R147: where the object's DVA leads through a page of the look-aside into bonded SRAM the stop has a tag
and no fence holds the object's lines: BAR.ARRIVE sends one arrival to the home, in the name of the tile's logical number, and awaits its answer; BAR.WAIT reads GEN
at the home and waits, its TIMEOUT in units of 1,024 ticks (0: 1,024 units). When that passes, it retires with status 1. -/
def Stated.BarrierInstructions : Prop :=
  (∀ (t : TileIx) (b : BankIx) (sg sb sd : SReg) (hook : Bool) (timeout : BitVec 16) (x : XEntry) (m g : Nat) (s : State),
    runsNext s t.val b.val →
    let k := s.bank t.val b.val
    let dva := (k.s sb.val).toNat
    dva < 2 ^ 57 → s.lookup t.val k.cid k.ctx dva = some x → dva + 256 ≤ x.base + 2 ^ x.log2 →
    x.target dva = .localMpa m → 0x3F0000000000 ≤ m → m % 64 = 0 → s.freeTag t.val = some g →
    s.fenceHolds k.cid (s.place m) = false → s.fenceHolds k.cid (s.place (m + 64)) = false →
    (Does (.barArrive t b sg sb) s fun u =>
      (u.bank t.val b.val).wait = some (.arrive sg.val) ∧ (u.bank t.val b.val).pc = k.pc ∧
      ∃ r, Tab.find u.mesh.reqs (reqKey t.val g) = some r ∧ r.who = .barArrive t.val b.val ∧ r.pkt.type = 7 ∧
        r.pkt.cid = k.cid ∧ r.pkt.ctx = k.ctx ∧ r.pkt.addr = BitVec.ofNat 60 m ∧
        r.pkt.operand = BitVec.ofNat 128 ((s.logTile t.val).getD 0)) ∧
    Does (.barWait t b sd sb sg hook timeout) s fun u =>
      (u.bank t.val b.val).st = .waiting ∧ (u.bank t.val b.val).since = s.now ∧
      (u.bank t.val b.val).wait = some (.bar m ((k.s sg.val).setWidth 32) sd.val hook
        ((if timeout = 0 then 1024 else timeout.toNat) * 1024)) ∧
      ∃ r, Tab.find u.mesh.reqs (reqKey t.val g) = some r ∧ r.who = .barRead t.val b.val ∧ r.pkt.type = 1 ∧
        r.pkt.addr = BitVec.ofNat 60 (m + 64)) ∧
  ∀ (t : TileIx) (b : BankIx) (key sd limit : Nat) (sg : Word) (hook : Bool) (s : State),
    let k := s.bank t.val b.val
    k.wait = some (.bar key sg sd hook limit) → k.since + limit ≤ s.now →
    Does (.barWaitTimeout t b) s fun u =>
      u.bank t.val b.val = ended s t.val b.val { k with sReg := Tab.insert k.sReg sd (BitVec.ofNat 64 1) } ∧
      (∀ x y, (x, y) ≠ (t.val, b.val) → u.bank x y = s.bank x y) ∧ ∀ j, j ≠ t.val → u.tile j = s.tile j

/-- A barrier object whose first three lines lie at offset `off` of tile `x`'s SRAM, admit the requester and read. -/
def barrierAt (s : State) (cid : Cid) (ctx : Ctx) (obj x off : Nat) : Prop :=
  off % 64 = 0 ∧ obj % 64 = 0 ∧ ∀ i < 192, s.place (obj + i) = .sram x (off + i) ∧
    (s.gran x ((off + i) / 65536)).admits cid ctx = true ∧ Tab.find (s.tile x).srm.poison ((off + i) / 64) = none ∧
    Tab.find (s.tile x).srm.staleIcv ((off + i) / 64) = none

/-- R144 to R147: an arrival of a tile that is no member is answered with STATUS 0x01 and counts nowhere; a member's first
arrival of a generation sets its bit and is answered with GEN; the last one, of a barrier with no parent and no children,
moves GEN on by one, clears the bits and releases the members. A release ends the waits that GEN has passed. -/
def Stated.BarrierHome : Prop :=
  (∀ (p : Packet) (x off : Nat) (s : State), MemoryCanonical s → barrierAt s p.cid p.ctx p.addr.toNat x off →
    let i := p.operand.toNat % 512
    let members := s.line (sramKey x off)
    let l1 := s.line (sramKey x (off + 64))
    let l2 := s.line (sramKey x (off + 128))
    let gen := lineGet l1 0 4
    (bit members i = false → Does (.barrierArrival p (false, .clean)) s fun u =>
      u.out = s.out ++ [.mesh (reply p 1 0 0)] ∧ u.mem = s.mem) ∧
    (bit members i = true → lineGet l1 6 1 % 2 = 0 → bit l2 i = false →
      (setBit l2 i true ≠ members → Does (.barrierArrival p (false, .clean)) s fun u =>
        u.out = s.out ++ [.mesh (reply p 0 0 (BitVec.ofNat 128 gen))] ∧
        u.line (sramKey x off) = members ∧ u.line (sramKey x (off + 64)) = l1 ∧
        u.line (sramKey x (off + 128)) = setBit l2 i true) ∧
      (setBit l2 i true = members → lineGet l1 4 1 = 0 → lineGet l1 5 1 = 0 → lineGet l1 8 8 = 0 →
        Does (.barrierArrival p (false, .clean)) s fun u =>
          u.line (sramKey x (off + 128)) = 0 ∧ u.wordAt (sramKey x (off + 64)) 4 = (gen + 1) % 2 ^ 32 ∧
          .mesh (reply p 0 0 (BitVec.ofNat 128 gen)) ∈ u.out ∧
          .release x p.addr.toNat (BitVec.ofNat 32 gen + 1) members ∈ u.out))) ∧
  ∀ (obj : Mpa) (gen : Word) (members : Line) (t l key sd limit : Nat) (b : BankIx) (sg : Word) (hook : Bool) (s : State),
    s.logTile t = some l → bit members l = true → (s.bank t b.val).wait = some (.bar key sg sd hook limit) →
    key = obj.toNat / 64 * 64 → barPassed gen sg = true →
    Does (.barrierRelease obj gen members false) s fun u =>
      u.bank t b.val = ended s t b.val { s.bank t b.val with
        sReg := Tab.insert (s.bank t b.val).sReg sd (BitVec.ofNat 64 0) }

/-- R144, R145, R147: where the object's DVA leads through a page of the look-aside into bonded SRAM the stop has a tag
and no fence holds the object's lines: BAR.ARRIVE sends one arrival to the home, in the name of the tile's logical
number, and awaits its answer; BAR.WAIT reads GEN at the home and waits, its TIMEOUT in units of 1,024 ticks (0: 1,024
units). When that passes, it retires with status 1. R144 to R147: an arrival of a tile that is no member is answered
with STATUS 0x01 and counts nowhere; a member's first arrival of a generation sets its bit and is answered with GEN;
the last one, of a barrier with no parent and no children, moves GEN on by one, clears the bits and releases the
members. A release ends the waits that GEN has passed. -/
def Obligations.Barriers : Prop := Stated.BarrierInstructions ∧ Stated.BarrierHome

/-- R199, R217: the end of a load's walk, one of the 32 that its half runs at once, installs the translation found in the look-aside of the tile and of its half; table reads
beyond repair fault the bank with code 0x07. -/
def Stated.WalksEnd : Prop :=
  ∀ (t : TileIx) (b : BankIx) (l : Fin 4) (signed : Bool) (d base : SReg) (imm : BitVec 41) (x : XEntry) (s : State),
    let k := s.bank t.val b.val
    let dva := (k.s base.val + BitVec.ofInt 64 imm.toInt).toNat
    k.wait = some (.walk (.scalarMem (.load l signed d base imm))) → s.walking t.val b.val = true →
    (s.lookup t.val k.cid k.ctx dva = none → s.walkHalf (t.val / 272) k.cid k.ctx dva = .hit x → dva + 2 ^ l.val ≤ x.base + 2 ^ x.log2 →
      Does (.walkComplete t b .clean) s fun u => x ∈ (u.tile t.val).look ∧ x ∈ u.halfLook (t.val / 272)) ∧
    (k.st = .running ∨ k.st = .loaded → Does (.walkComplete t b .uncorrectable) s fun u =>
      (u.bank t.val b.val).st = .faulted ∧ (u.bank t.val b.val).fault = ⟨true, 7, 0⟩ ∧ (u.bank t.val b.val).wait = none ∧
      ∀ w ∈ u.xlt.walks, ¬ (w.tile = t.val ∧ w.bank = b.val))

/-- R205 to R207: a PRG Response of Success tries a load's access again, installs the translation now found and counts it in
XLT_MIG_CNT; a code other than 0 and 1 stops page requests on the function and ends every one that waits there; a request with
no response within the timeout faults its bank with code 0x07 and keeps its index in use; a pending one is sent under an index
that none uses once the allocation admits it. -/
def Stated.PageRequests : Prop :=
  (∀ (h : HPortIx) (f : FuncIx) (g : BitVec 9) (m : MigReq) (l : Fin 4) (signed : Bool) (d base : SReg) (imm : BitVec 41)
    (page slot : Nat) (rd wr : Bool) (x : XEntry) (s : State),
    (s.xlt.mig.find? fun m => decide (m.hport = h.val ∧ m.func = f.val ∧ m.sent = some g.toNat)) = some m →
    m.cmd = none →
    let k := s.bank m.tile m.bank
    let dva := (k.s base.val + BitVec.ofInt 64 imm.toInt).toNat
    k.wait = some (.migrate (.scalarMem (.load l signed d base imm)) page rd wr) →
    s.lookup m.tile k.cid k.ctx dva = none → s.walkHalf (m.tile / 272) k.cid k.ctx dva = .hit x → dva + 2 ^ l.val ≤ x.base + 2 ^ x.log2 →
    s.slotOf k.cid = some slot →
    Does (.prgResponse h f g 0) s fun u => x ∈ (u.tile m.tile).look ∧
      Tab.get (fun _ => 0) u.xlt.migCnt slot = Tab.get (fun _ => 0) s.xlt.migCnt slot + 1) ∧
  (∀ (h : HPortIx) (f : FuncIx) (g : BitVec 9) (code : BitVec 4) (m : MigReq) (s : State),
    (s.xlt.mig.find? fun m => decide (m.hport = h.val ∧ m.func = f.val ∧ m.sent = some g.toNat)) = some m →
    code ≠ 0 → code ≠ 1 →
    Does (.prgResponse h f g code) s fun u => (∀ n ∈ u.xlt.mig, ¬ (n.hport = h.val ∧ n.func = f.val)) ∧
      Tab.get (fun _ => false) u.xlt.priStopped (funcKey h.val f.val) = true) ∧
  (∀ (h : HPortIx) (f : FuncIx) (g : BitVec 9) (m : MigReq) (s : State),
    (s.xlt.mig.find? fun m => decide (m.hport = h.val ∧ m.func = f.val ∧ m.sent = some g.toNat)) = some m →
    m.cmd = none → m.sentAt + s.xlt.priTimeout.toNat * period ≤ s.now → (s.bank m.tile m.bank).st = .waiting →
    Does (.pageRequestTimeout h f g) s fun u =>
      (h.val, f.val, g.toNat) ∈ u.xlt.retired ∧ (u.bank m.tile m.bank).st = .faulted ∧
      (u.bank m.tile m.bank).fault = ⟨true, 7, 0⟩) ∧
  ∀ (h : HPortIx) (f : FuncIx) (m : MigReq) (s : State),
    (∀ n ∈ s.xlt.mig, n.hport = h.val → n.func = f.val → n.sent = none → (s.migWay n.cid n.ctx).isSome = true) →
    (s.prgInUse h.val f.val).length < min 256 (s.func h.val f.val).priAlloc →
    (s.xlt.mig.find? fun m => decide (m.hport = h.val ∧ m.func = f.val ∧ m.sent = none)) = some m →
    (∀ n ∈ s.xlt.mig, n.sent = none ∨ n.cid ≠ m.cid ∨ n.ctx ≠ m.ctx) →
    Does (.pageRequestDequeue h f) s fun u => ∃ g, g ∉ s.prgInUse h.val f.val ∧ g < 512 ∧
      u.out = s.out ++ [.pageRequest h.val f.val (s.pasidOf m.cid m.ctx) m.page m.rd m.wr g] ∧
      { m with sent := some g, sentAt := s.now } ∈ u.xlt.mig

/-- R199, R217: the end of a load's walk, one of the 32 that its half runs at once, installs the translation found in the
look-aside of the tile and of its half; table reads beyond repair fault the bank with code 0x07. R205 to R207: a PRG
Response of Success tries a load's access again, installs the translation now found and counts it in XLT_MIG_CNT; a
code other than 0 and 1 stops page requests on the function and ends every one that waits there; a request with no
response within the timeout faults its bank with code 0x07 and keeps its index in use; a pending one is sent under an
index that none uses once the allocation admits it. -/
def Obligations.WalksAndPageRequests : Prop := Stated.WalksEnd ∧ Stated.PageRequests


/-! ### Composition over time -/

/-- R173, R238, R240: a rebuild that has covered its pair, and a move whose copy has reached C0, prepare the switch of the two
pairs in MEM_PAIR_MAP, held by Itlum until the next boundary, the failed die's lines below C0 reading zero; the end of the
source's clear makes it SPARE_READY and ends the move. -/
def Stated.PairsChangePlaces : Prop :=
  (∀ (p : PairIx) (d : Nat) (found : List (Nat × Ecc)) (s : State), (s.pair p.val).st = .rebuilding → (s.pair p.val).rebuildTo = some d →
    s.canChange (s.pairCids p.val) = true → (s.pair p.val).rebuildPct ≠ 100 →
    Does (.pairRebuildDone (p, found)) s fun u =>
      u.itl.held = some { change := .rebuilt p.val d (s.pairCids p.val) } ∧
      u.lp.sh.acc = some (s.lp.sh.pend.swapPairs p.val d) ∧ u.lp.sh.act = s.lp.sh.act ∧
      (u.pair p.val).rebuildPct = 100 ∧ (u.pair p.val).cursor = s.c0 ∧
      ∀ o < s.c0 * 64, u.byte (pairKey p.val o) = 0) ∧
  (∀ (h : Half) (found : List (Nat × Ecc)) (s : State), (s.moveH h.val).st = .copying →
    s.canChange (s.pairCids (s.moveH h.val).src.toNat) = true →
    Does (.moveCopyDone (h, found)) s fun u =>
      let a := (s.moveH h.val).src.toNat
      let b := (s.moveH h.val).dst.toNat
      u.itl.held = some { change := .pairSwitch h.val a b (s.pairCids a) } ∧
      u.lp.sh.acc = some (s.lp.sh.pend.swapPairs a b) ∧ u.lp.sh.act = s.lp.sh.act ∧ (u.moveH h.val).st = .switching ∧
      (u.moveH h.val).cursor = BitVec.ofNat 27 s.c0) ∧
  (∀ (h : Half) (s : State), (s.moveH h.val).st = .clearing →
    (s.pair (s.moveH h.val).src.toNat).failed = false → Does (.pairMoveDone h) s fun u =>
      let a := (s.moveH h.val).src.toNat
      (u.moveH h.val).st = .done ∧ (u.pair a).st = .spareReady ∧ (u.pair a).clearing = false ∧ (u.pair a).poison = [])

/-- R250, R251: the clear of a resource that has left its composition ends: it is FREE; a granule's bytes read zero (where its
composition still holds something, so that its slot stays). -/
def Stated.ClearedResourcesAreFree : Prop :=
  ∀ (r : Resource) (e : Resource × Cid × ResSt) (s : State),
    (s.brd.res.find? fun x => decide (x.1 = r) && decide (x.2.2 = .clearing)) = some e → s.clearable r = true →
    Does (.unitClearDone r) s fun u =>
      (∀ x ∈ u.brd.res, x.1 ≠ r) ∧
      ∀ t g, r = .granule t g → (s.image e.2.1).entries.isEmpty = false → ∀ i < 65536, u.byte (sramKey t (g * 65536 + i)) = 0

/-- R173, R238, R240: a rebuild that has covered its pair, and a move whose copy has reached C0, prepare the switch of the
two pairs in MEM_PAIR_MAP, held by Itlum until the next boundary, the failed die's lines below C0 reading zero; the
end of the source's clear makes it SPARE_READY and ends the move. R250, R251: the clear of a resource that has left
its composition ends: it is FREE; a granule's bytes read zero (where its composition still holds something, so that
its slot stays). -/
def Obligations.PairsAndClearedResources : Prop := Stated.PairsChangePlaces ∧ Stated.ClearedResourcesAreFree

/-- R233, R234, R235, R250: a fence that counts nothing more closes, the ports that wait on it are FREE and its other
resources start their clear (a slot whose composition still holds something); one open past 16 periods and 500 ms is reported once, and the contexts whose
requests it still counts are lost. -/
def Stated.EpochFences : Prop :=
  (∀ (k : SlotIx) (s : State), (s.fence k.val).isOpen = true → (s.fence k.val).count = 0 →
    s.shiftOf (s.slotE k.val).2 = false → (s.image (s.slotE k.val).2).entries.isEmpty = false →
    Does (.epochFenceClose k) s fun u =>
      u.fence k.val = {} ∧ (∀ j, j ≠ k.val → u.fence j = s.fence j) ∧
      (∀ p, Resource.port p ∈ (s.fence k.val).atClose → ∀ e ∈ u.brd.res, e.1 ≠ .port p) ∧
      ((∀ p, Resource.port p ∉ (s.fence k.val).atClose) → u.brd.res = s.brd.res.map fun e =>
        if (s.fence k.val).atClose.contains e.1 then (e.1, e.2.1, .clearing) else e)) ∧
  (∀ (k : SlotIx) (s : State), (s.fence k.val).isOpen = true → (s.fence k.val).reported = false →
    (s.fence k.val).openedAt + max (16 * period) (s.ticksOf 500000000) ≤ s.now →
    Does (.fenceStallTimeout k) s fun u =>
      u.fence k.val = { s.fence k.val with reported := true } ∧
      ∀ c ∈ s.fenceCtxs (s.slotE k.val).2, ∀ r, s.resOf (s.slotE k.val).2 c = some r → (u.resRo r).lost = true)

/-- R249: a HELD lease whose EXPIRY has come is ORPHANED; an ORPHANED lease whose grace has ended is NONE, its epoch and owner
as before, and the composition's bridle epoch steps (at once where no change of Itlum's own and no fence of
the composition is open). -/
def Stated.LeasesExpire : Prop :=
  (∀ (cid : Cid) (s : State), (s.lease cid).st = .held → (s.lease cid).expiry ≤ s.now → s.itl.avail = true →
    Does (.leaseExpiry cid) s fun u =>
      u.lease cid = { s.lease cid with st := .orphaned, orphanedAt := (s.lease cid).expiry } ∧
      ∀ c, c ≠ cid → u.lease c = s.lease c) ∧
  (∀ (cid : Cid) (k : Nat) (s : State), (s.lease cid).st = .orphaned → s.itl.avail = true → s.slotOf cid = some k →
    (s.lease cid).orphanedAt + s.brd.grace.toNat * period ≤ s.now → s.rcv.expired = [] →
    s.itl.held = none → s.compWaits = false → (s.fence k).isOpen = false →
    Does (.graceExpiry cid) s fun u =>
      u.lease cid = { s.lease cid with st := .none } ∧ (∀ c, c ≠ cid → u.lease c = s.lease c) ∧
      u.epochOf k = nextEpoch (s.epochOf k))

/-- R233, R234, R235, R250: a fence that counts nothing more closes, the ports that wait on it are FREE and its other
resources start their clear (a slot whose composition still holds something); one open past 16 periods and 500 ms is
reported once, and the contexts whose requests it still counts are lost. R249: a HELD lease whose EXPIRY has come is
ORPHANED; an ORPHANED lease whose grace has ended is NONE, its epoch and owner as before, and the composition's bridle
epoch steps (at once where no change of Itlum's own and no fence of the composition is open). -/
def Obligations.FencesCloseAndLeasesExpire : Prop := Stated.EpochFences ∧ Stated.LeasesExpire


/-! ### The queue parser -/

/-- No accepted command of queue `e` has ring index `index`: the command has ended. -/
def gone (u : State) (e : Nat) (index : Word) : Prop := ∀ d ∈ (u.qRo e).cmds, d.index ≠ index

/-- Entry `i` of a composition's object table lies at offset `off` of tile `x`'s SRAM, on a line with no error mark. -/
def objectIn (s : State) (cid : Cid) (i x off : Nat) : Prop :=
  off % 32 = 0 ∧ Tab.find (s.tile x).srm.poison (off / 64) = none ∧ Tab.find (s.tile x).srm.staleIcv (off / 64) = none ∧
  ∃ tab, s.objTab cid = some tab ∧ i < 2 ^ tab.log2 ∧ ∀ j < 32, s.place (objAt tab i + j) = .sram x (off + j)

/-- R363, R367 to R371: a packet of a ring in host memory is accepted while its lease is held, its form, context and
references pass, and is ended without being accepted under another lease. A LAUNCH names the banks of its context on its
tiles, and starts on a free one with its entry and no argument words. A SIGNAL that its fence takes, a FAULT.ACK and a NOP end;
the ACK of records that stand consumes them. -/
def Stated.QueueCommandsRun : Prop :=
  (∀ (e : QEntry) (p : BitVec 256) (x : XEntry) (a : Nat) (s : State),
    let r := s.qRo e.val
    let q := s.qSh e.val
    let cid := s.qCid e.val
    let dva := q.ring.toNat + 32 * (r.head.toNat % 2 ^ q.sizeLog2.toNat)
    r.st = .running → r.tail ≠ r.head → s.recovering (e.val / 16 / 272) = false →
    s.cidStalled cid = false → s.walk cid q.qctx dva = .hit x →
    x.target dva = .host a → (s.hostWay cid).isSome = true →
    (¬ ((s.lease cid).st = .held ∧ (s.lease cid).epoch = q.lease) → Does (.ringFetch e [p] true) s fun u =>
      (u.qRo e.val).head = r.head + 1 ∧ (u.qRo e.val).cmds = r.cmds) ∧
    (∀ k, (s.lease cid).st = .held → (s.lease cid).epoch = q.lease → pktBad p = false → pktHandles p = [] → pktOpc p ≠ 5 →
      s.resOf cid (pktCtx p) = some k → (s.resRo k).lost = false → Does (.ringFetch e [p] true) s fun u =>
        (u.qRo e.val).head = r.head + 1 ∧
        (u.qRo e.val).cmds = r.cmds ++ [{ index := r.head, pkt := p, refs := [], st := .waiting }])) ∧
  (∀ (e : QEntry) (index : Word) (c : QCmd) (s : State),
    let cid := s.qCid e.val
    let started := { c with st := .started, startedAt := s.now }
    (s.startDue e.val index 1 = some c →
      let n := pktF c.pkt 0x12 0 10
      let bank := fun i => (s.physTile (pktF c.pkt 0x10 0 9 + i)).bind fun t =>
        (s.bankOf t cid (pktCtx c.pkt)).map fun b => (t, b)
      ((∀ i < n, (bank i).isSome = true) → Does (.launch e index) s fun u =>
        u.cmd e.val index = some { started with toStart := (List.range n).filterMap bank }) ∧
      ((∃ i < n, bank i = none) → Does (.launch e index) s fun u => gone u e.val index)) ∧
    (s.startDue e.val index 2 = some c → (∀ d ∈ (s.qRo e.val).cmds, d.index = index) →
      ∀ x m l, s.objEntry cid (pktF c.pkt 8 0 24) = some x → s.syncLine cid x = some (m, l) →
        lineGet l 0 8 ≤ pktF c.pkt 0x10 0 64 → Does (.signalCmd e index) s fun u => gone u e.val index ∧
          ∀ w ∈ u.que.waits, ¬ (w.key = m / 64 * 64 ∧ w.isSem = false ∧ w.target.toNat ≤ pktF c.pkt 0x10 0 64)) ∧
    (s.startDue e.val index 6 = some c →
      let f := s.fqRo (s.qSh e.val).slot.toNat
      let seq := BitVec.ofNat 32 (pktF c.pkt 8 0 32)
      Does (.faultAck e index) s fun u => gone u e.val index ∧
        (u.fqRo (s.qSh e.val).slot.toNat).acked = if (seq - f.acked).toNat ≤ (f.next - f.acked).toNat then seq else f.acked) ∧
    (s.startDue e.val index 7 = some c → c.refs = [] → (∀ w ∈ s.que.waits, w.who ≠ .queue e.val index) → pktCpl c.pkt = false →
      Does (.queueNop e index) s fun u => gone u e.val index ∧ u.out = s.out ∧ u.mem = s.mem)) ∧
  ∀ (e : QEntry) (index : Word) (t : TileIx) (b : Nat) (c : QCmd) (s : State),
    s.cmd e.val index = some c → (c.toStart.find? fun x => decide (x.1 = t.val)) = some (t.val, b) →
    (s.bank t.val b).st = .loaded → (s.bank t.val b).inProg = false → s.recovering (t.val / 272) = false →
    s.cidStalled (s.bank t.val b).cid = false → s.stalledCtx (s.bank t.val b).cid (s.bank t.val b).ctx = false →
    (∀ d ∈ (s.qRo e.val).cmds, d.index ≠ index → (t.val, b) ∉ d.toStart ∧ (t.val, b) ∉ d.running) →
    pktF c.pkt 0x18 0 4 = 0 → Does (.launchTileStart e index t .refused) s fun u =>
      let k := u.bank t.val b
      k.pc = BitVec.ofNat 22 (pktF c.pkt 0x14 0 32 / 8) ∧ k.inProg = true ∧ (∀ i < 8, k.s i = 0) ∧
      (∀ i, 8 ≤ i → k.s i = (s.bank t.val b).s i) ∧ k.vReg = (s.bank t.val b).vReg ∧
      u.cmd e.val index = some { c with toStart := c.toStart.filter fun y => decide (y ≠ (t.val, b)),
                                        running := c.running ++ [(t.val, b)] }

/-- R361, R369, R370, R372, R374: a WAIT whose value is reached ends, any other starts and takes a place in the sync unit; at
its TIMEOUT it ends and stops its queue. FREE of an object that is referenced leaves it FREEING until REFS is zero, and ends at
once where nothing refers to it. A bank's wait that reaches its limit, or that has spent what it may borrow, retires with
status 1; one that reaches HOLDOFF borrows. -/
def Stated.WaitsAndFrees : Prop :=
  (∀ (e : QEntry) (index : Word) (c : QCmd) (s : State),
    let cid := s.qCid e.val
    let i := pktF c.pkt 8 0 24
    let target := pktF c.pkt 0x10 0 64
    (∀ x m l, s.startDue e.val index 3 = some c → s.objEntry cid i = some x → s.syncLine cid x = some (m, l) →
      (target ≤ lineGet l 0 8 → Does (.waitCmd e index) s fun u => gone u e.val index) ∧
      (lineGet l 0 8 < target → s.refFits cid i = true → Does (.waitCmd e index) s fun u =>
        u.cmd e.val index = some { c with st := .started, startedAt := s.now } ∧
        ∃ h, u.que.waits = s.que.waits ++ [{
          half := h, who := .queue e.val index, cid := cid, ctx := pktCtx c.pkt, key := m / 64 * 64,
          target := BitVec.ofNat 64 target, obj := i, startedAt := s.now }])) ∧
    (s.cmd e.val index = some c → pktOpc c.pkt = 3 → c.st = .started → pktF c.pkt 0x0C 0 16 ≠ 0 →
      c.startedAt + pktF c.pkt 0x0C 0 16 * period ≤ s.now → Does (.queueWaitTimeout e index) s fun u =>
        gone u e.val index ∧ ((u.qRo e.val).st = .stopped ∨ (u.qRo e.val).st = .broken)) ∧
    (∀ x y off, s.startDue e.val index 5 = some c → MemoryCanonical s → objectIn s cid i y off →
      s.resolve cid (BitVec.ofNat 32 (pktF c.pkt 8 0 32)) 0 = .ok i x →
      (∀ q ∈ s.que.q, ∀ d ∈ q.2.cmds, d.st ≠ .freeing) →
      (x.refs ≠ 0 → Does (.freeObj e index) s fun u => u.cmd e.val index = some { c with st := .freeing } ∧
        u.byte (sramKey y off) = 2 ∧ ∀ a, a ≠ sramKey y off → a ≠ sramKey y (off + 1) → u.byte a = s.byte a) ∧
      (x.refs = 0 → Does (.freeObj e index) s fun u => gone u e.val index))) ∧
  ∀ (t : TileIx) (b : BankIx) (w : SyncEntry) (s : State), s.bankWait t.val b.val = some w →
    let k := s.bank t.val b.val
    let late := fun (c : Instr) => Does c s fun u => (∀ x ∈ u.que.waits, x.who ≠ .bank t.val b.val) ∧
      ∀ sd, ((∃ key v, k.wait = some (.fence key v sd)) ∨ ∃ key v, k.wait = some (.sem key v sd)) →
        u.bank t.val b.val = ended s t.val b.val { k with sReg := Tab.insert k.sReg sd (BitVec.ofNat 64 1) }
    (∀ r, s.resOf w.cid w.ctx = some r → w.startedAt + (s.resSh r).waitLimit.toNat * period ≤ s.now →
      late (.waitLimitExpiry t b)) ∧
    ∀ x m l, s.objEntry w.cid w.obj = some x → s.syncLine w.cid x = some (m, l) → lineGet l 4 2 / 2 ^ 15 = 1 →
      (w.isSem = true → lineGet l 6 2 ≠ 0 → lineGet l 8 2 ≠ 0 → lineGet l 6 2 ≤ w.granted → w.borrowing = false →
        Does (.semaphoreBorrowStart t b) s fun u => { w with borrowing := true } ∈ u.que.waits ∧
          u.que.waits.length = s.que.waits.length ∧ u.tiles = s.tiles) ∧
      (w.borrowing = true → lineGet l 8 2 ≤ w.borrowed → late (.borrowBudgetExpiry t b))

/-- R363, R367 to R371: a packet of a ring in host memory is accepted while its lease is held, its form, context and
references pass, and is ended without being accepted under another lease. A LAUNCH names the banks of its context on
its tiles, and starts on a free one with its entry and no argument words. A SIGNAL that its fence takes, a FAULT.ACK
and a NOP end; the ACK of records that stand consumes them. R361, R369, R370, R372, R374: a WAIT whose value is
reached ends, any other starts and takes a place in the sync unit; at its TIMEOUT it ends and stops its queue. FREE of
an object that is referenced leaves it FREEING until REFS is zero, and ends at once where nothing refers to it. A
bank's wait that reaches its limit, or that has spent what it may borrow, retires with status 1; one that reaches
HOLDOFF borrows. -/
def Obligations.QueueCommands : Prop := Stated.QueueCommandsRun ∧ Stated.WaitsAndFrees

/-! ### Translation commands, coder jobs, regulators -/

/-- R200 to R202, R211: XLT.INV leaves no look-aside entry in its range in either half or on any tile, and ends; XLT.SYNC
starts, and once nothing that an earlier invalidation marked is under way its fence is signalled and it ends. -/
def Stated.TranslationCommands : Prop :=
  ∀ (e : QEntry) (index : Word) (c : QCmd) (s : State),
    let cid := s.qCid e.val
    (s.startDue e.val index 0x10 = some c →
      let ctx : Ctx := BitVec.ofNat 12 (pktF c.pkt 0x14 16 12)
      let scope := pktF c.pkt 0x14 2 2
      let lo := pktF c.pkt 8 0 57
      let hi := lo + pktF c.pkt 0x10 0 32 * 4096
      let kept := fun (x : XEntry) => x.cid ≠ cid ∨ scope ≠ 2 ∧ (x.ctx ≠ ctx ∨ scope ≠ 1 ∧ (hi ≤ x.base ∨ x.base + 2 ^ x.log2 ≤ lo))
      Does (.xltInv e index) s fun u => gone u e.val index ∧
        (∀ t, ∀ x, x ∈ (u.tile t).look ↔ x ∈ (s.tile t).look ∧ kept x) ∧
        ∀ h, ∀ x, x ∈ u.halfLook h ↔ x ∈ s.halfLook h ∧ kept x) ∧
    (s.startDue e.val index 0x11 = some c → Does (.xltSync e index) s fun u =>
      u.cmd e.val index = some { c with st := .started, startedAt := s.now } ∧ u.xlt = s.xlt ∧ u.mesh = s.mesh) ∧
    ∀ x m l, s.cmd e.val index = some c → pktOpc c.pkt = 0x11 → c.st = .started → s.syncHeld e.val index = false →
      s.objEntry cid (pktF c.pkt 8 0 24) = some x → s.syncLine cid x = some (m, l) → Does (.xltSyncDone e index) s fun u =>
        gone u e.val index ∧ (lineGet l 0 8 ≤ pktF c.pkt 0x10 0 64 →
          ∀ w ∈ u.que.waits, ¬ (w.key = m / 64 * 64 ∧ w.isSem = false ∧ w.target.toNat ≤ pktF c.pkt 0x10 0 64))

/-- R179, R180: a coder command whose descriptor reads and whose pages and fence resolve becomes a job of its controller. -/
def Stated.CoderJobsStart : Prop :=
  ∀ (e : QEntry) (index : Word) (far rest : List Completion) (c : QCmd) (d : Line) (es0 es : List XEntry) (i : Nat)
    (x : ObjEntry) (s s1 s2 : State),
    let cid := s.qCid e.val
    let ctx := pktCtx c.pkt
    let at_ := pktF c.pkt 8 0 64
    let mc := pktF c.pkt 0x10 0 6
    s.startDue e.val index 4 = some c → jBad d = false →
    s.cmdAccess e.val c 3 [{ at_ := at_, len := 64, acc := .rd, priv := false, row := 0 }] = (some es0, s) →
    s.jobLine mc cid ctx es0 far .clean at_ = (0, d, s1, rest) → s1.cmd e.val index = some c →
    s1.cmdAccess e.val c 3 (s1.jobSpans mc cid ctx d rest) = (some es, s2) →
    s2.resolve cid (BitVec.ofNat 32 (dF d 0x24 0 32)) 2 = .ok i x → s2.refFits cid i = true → s2.cmd e.val index = some c →
    Does (.coder e index far) s fun u =>
      u.cmd e.val index = some { c with st := .started, startedAt := s2.now } ∧
      u.lp.jobs = s2.lp.jobs ++ [{
        mc := mc, cid := cid, ctx := ctx, desc := d, descAt := at_, fenceRef := i, entry := e.val, index := index,
        pages := es0 ++ es }]

/-- The state without job `j` of its controller. -/
def withoutJob (s : State) (j : Job) : State := { s with lp := { s.lp with jobs := s.lp.jobs.filter fun k => decide (k ≠ j) } }

/-- R179 to R183, R360, R369: a job ends. It reads its source, writes what its operation makes of it (an encode: its region's
index and frames), writes its STATUS behind its descriptor, signals its fence and ends its command; it leaves its controller.
A malformed descriptor ends it with STATUS 1, counted in MC_ERR, with no byte moved. -/
def Stated.CoderJobsEnd : Prop :=
  ∀ (mc : Fin 48) (ecc : Ecc) (far : List Completion) (j : Job) (s : State),
    (s.lp.jobs.find? fun j => decide (j.mc = mc.val)) = some j → (s.cmd j.entry j.index).isSome = true → s.early = false →
    let s0 := withoutJob s j
    let d := j.desc
    let ends := fun (status : Nat) (s2 : State) => ∀ s3 s4 : State, ∀ n,
      s2.jobWrite j.mc j.cid j.ctx j.pages (j.descAt + 4) (toBytes 4 status) = (0, s3) →
      s3.signalRef j.cid j.fenceRef (dF d 0x28 0 64) = some (n, s4) →
      Does (.coderJobDone mc ecc far) s fun u =>
        u = (s4.dropRef j.cid j.fenceRef).complete j.entry j.index 0 0 true ∧ gone u j.entry j.index
    (∀ src rest s1 s2, jBad d = false → jOp d = 1 →
      s0.jobLines j.mc j.cid j.ctx j.pages far ecc (ceilDiv (jLen d) 64) (jSrc d) = (src, 0, s1, rest) →
      s1.jobOut j 0 (encodeRegion (jFmt d) (src.take (jLen d))) = ((0, 0), s2) → ends 0 s2) ∧
    (∀ status, status ≠ 4 → ∀ w s2, jBad d = false → s0.jobRun j ecc far = (status, w, s2) → ends status s2) ∧
    (jBad d = true →
      let e := Tab.get (fun _ => ({} : ErrReg)) s.lp.mcErr j.mc
      ends 1 { s0 with lp := { s0.lp with
        mcErr := Tab.insert s0.lp.mcErr j.mc { e with order := satInc e.order } } })

/-- R179, R180: a coder command whose descriptor reads and whose pages and fence resolve becomes a job of its controller.
R179 to R183, R360, R369: a job ends. It reads its source, writes what its operation makes of it (an encode: its
region's index and frames), writes its STATUS behind its descriptor, signals its fence and ends its command; it leaves
its controller. A malformed descriptor ends it with STATUS 1, counted in MC_ERR, with no byte moved. -/
def Obligations.CoderJobs : Prop := Stated.CoderJobsStart ∧ Stated.CoderJobsEnd

/-- R421, R422: each µs a regulator's level grows by its guarantee, up to its DEPTH. -/
def Stated.RegulatorsRefill : Prop :=
  ∀ s : State, Does .regulatorRefill s fun u =>
    (∀ t k, k ∈ (s.tile t).nbr.act.regs.map (·.1) →
      let e := Tab.get (fun _ => ({} : RegSh)) (s.tile t).nbr.act.regs k
      let old := (Tab.get (fun _ => (0 : Word)) (s.tile t).levels k).toInt
      Tab.get (fun _ => (0 : Word)) (u.tile t).levels k = if e.valid = true ∧ t ∈ s.tiles.map (·.1)
        then BitVec.ofInt 32 (min (old + e.guar.toNat * 100) (max (4 * (e.guar.toNat * 100)) 256 : Nat))
        else Tab.get (fun _ => (0 : Word)) (s.tile t).levels k) ∧
    ∀ k, k ∈ s.lp.sh.act.regs.map (·.1) →
      let e := Tab.get (fun _ => ({} : RegSh)) s.lp.sh.act.regs k
      let old := (Tab.get (fun _ => (0 : Word)) s.lp.levels k).toInt
      e.valid = true → Tab.get (fun _ => (0 : Word)) u.lp.levels k =
        BitVec.ofInt 32 (min (old + e.guar.toNat * 10) (max (4 * (e.guar.toNat * 10)) 256 : Nat))

/-- R200 to R202, R211: XLT.INV leaves no look-aside entry in its range in either half or on any tile, and ends; XLT.SYNC
starts, and once nothing that an earlier invalidation marked is under way its fence is signalled and it ends. R421,
R422: each µs a regulator's level grows by its guarantee, up to its DEPTH. -/
def Obligations.TranslationAndRegulators : Prop := Stated.TranslationCommands ∧ Stated.RegulatorsRefill


/-! ### Memory upkeep -/

/-- The keys of a table rise strictly. -/
def rising {α : Type} (t : Tab α) : Prop := (t.map (·.1)).Pairwise (· < ·)

/-- R153, R154, R158, R161, R177: the rewrite of a corrected line takes its mark away; a write of SRM_CLEAR starts the clear of
granules that no composition owns, and is else refused and counted; the end of the clear leaves them reading zero and sound;
VALID of SRM_UE clears by a one; the scrub reads line POS of each bank (a corrected line counts and is marked), moves POS on
by one, and counts a pass at its end. -/
def Stated.BondedSramUpkeep : Prop :=
  ∀ (t : TileIx) (s : State),
    let x := (s.tile t.val).srm
    (∀ line : Fin 393216, rising x.rewrite → Does (.sramCorrectedRewrite t line) s fun u =>
      Tab.find (u.tile t.val).srm.rewrite line.val = none ∧ u.mem = s.mem ∧
      ∀ k, k ≠ line.val → Tab.find (u.tile t.val).srm.rewrite k = Tab.find x.rewrite k) ∧
    (∀ (base n : Nat), base < 512 → n < 512 →
      let bad := n = 0 ∨ 384 < base + n ∨ x.clearBusy = true ∨ (s.tile t.val).shiftBusy = true ∨
        ∃ i < n, (s.gran t.val (base + i)).valid = true
      Does (.sramClear t (BitVec.ofNat 32 (base + n * 2 ^ 9 + 2 ^ 30))) s fun u =>
        let y := (u.tile t.val).srm
        y.clearBase = BitVec.ofNat 9 base ∧ y.clearCount = BitVec.ofNat 9 n ∧ u.mem = s.mem ∧
        (¬ bad → y.clearBusy = true ∧ y.clearRun = (base, n) ∧ y.err = x.err) ∧
        (bad → y.clearBusy = x.clearBusy ∧ y.clearRun = x.clearRun ∧ y.err = { x.err with order := satInc x.err.order })) ∧
    (x.clearBusy = true → MemoryCanonical s → Does (.sramClearDone t) s fun u =>
      let y := (u.tile t.val).srm
      let a := sramKey t.val (x.clearRun.1 * 65536)
      y.clearBusy = false ∧ (∀ i, a ≤ i → i < a + x.clearRun.2 * 65536 → u.byte i = 0) ∧
      (∀ i, i < a ∨ a + x.clearRun.2 * 65536 ≤ i → u.byte i = s.byte i) ∧
      ∀ k, x.clearRun.1 * 1024 ≤ k → k < (x.clearRun.1 + x.clearRun.2) * 1024 →
        Tab.find y.poison k = none ∧ Tab.find y.rewrite k = none ∧ Tab.find y.staleIcv k = none) ∧
    (∀ v : Word, v &&& 0x3FF80000 = 0 → v.getLsbD 31 = true → v.getLsbD 30 = false → Does (.srmUeValidClear t v) s fun u =>
      (u.tile t.val).srm.ue = { x.ue with valid := false } ∧ u.mem = s.mem ∧ (u.tile t.val).srm.poison = x.poison) ∧
    (∀ found, Does (.sramScrub t found) s fun u =>
      let y := (u.tile t.val).srm
      y.pos = (if x.pos = 12287 then 0 else x.pos + 1) ∧
      y.passes = if x.pos = 12287 then x.passes + 1 else x.passes) ∧
    ∀ (b : Fin 32) (n : Nat), Tab.find x.poison (x.pos.toNat * 32 + b.val) = none →
      Tab.find x.staleIcv (x.pos.toNat * 32 + b.val) = none → Does (.sramScrub t [(b, .corrected n)]) s fun u =>
        (u.tile t.val).srm.ce = satAdd x.ce n ∧
        Tab.find (u.tile t.val).srm.rewrite (x.pos.toNat * 32 + b.val) = some true ∧ u.mem = s.mem

/-- R169, R171, R177, R178, R189, R488, R490, R538, R541: patrol scrub moves on by one line of a serving pair, and poisons a
data line it finds beyond repair; a calibration window latches ZQ and reads drift and the on-die count, a drift above 5 ps
makes retraining due; retraining clears it; a refresh leaves State as it is; MR4 sets the refresh rate; a background item's
deadline counts once a period. The oldest delta of a half reaches its check line; a written-back line is dirty no more; the
recomputation makes every check line of the half the exclusive or of its stripe's lines on dies that have not failed. A region that has been re-encrypted leaves RE;
a retiring key that nothing uses is retired. -/
def Stated.PairUpkeep : Prop :=
  (∀ (p : PairIx) (ecc : Ecc) (rmac : RmacFact) (s : State), (s.pair p.val).serves = true →
    let line := (s.pair p.val).scrubPos
    Does (.lpddrPatrolScrub p ecc rmac) s fun u =>
      (u.pair p.val).scrubPos = (line + 1) % (if s.big then 2 ^ 27 else 2 ^ 26) ∧
      (ecc = .uncorrectable → (s.pair p.val).failed = false → (line < s.dataLines → s.keyless (p.val * 2 ^ 17 + line / 1024) = false) →
        (Tab.find (u.pair p.val).poison line).isSome = true)) ∧
  (∀ (ch : Fin 384) (odecc drift : Nat) (s : State),
    let p := s.pair (ch.val / 2)
    exec (.refresh ch) s = .next s ∧
    (Does (.calibrationWindow ch odecc drift) s fun u => u.pair (ch.val / 2) = { p with
      zqLatched := setBit p.zqLatched (ch.val % 2) true, drift := Tab.insert p.drift (ch.val % 2) drift,
      odecc := satAdd p.odecc odecc,
      retrainDue := if 5 < drift then setBit p.retrainDue (ch.val % 2) true else p.retrainDue } ∧ ∀ q, q ≠ ch.val / 2 → u.pair q = s.pair q) ∧
    (p.retrainDue.getLsbD (ch.val % 2) = true → Does (.writeDqRetrain ch) s fun u =>
      u.pair (ch.val / 2) = { p with
        retrainDue := setBit p.retrainDue (ch.val % 2) false, drift := Tab.insert p.drift (ch.val % 2) 0 } ∧ u.mem = s.mem)) ∧
  (∀ (p : PairIx) (rate : BitVec 2) (s : State), rate ≠ 3 → Does (.mr4RateChange p rate) s fun u =>
    u.pair p.val = { s.pair p.val with refRate := rate } ∧ ∀ q, q ≠ p.val → u.pair q = s.pair q) ∧
  (∀ (item : BgItem) (unit : Nat) (s : State), bgIndex item ∉ s.rcv.bgHit → Does (.backgroundDeadline item unit) s fun u =>
    bgIndex item ∈ u.rcv.bgHit ∧
    ∀ k, Tab.get (fun _ => 0) u.rcv.bgDeadlines k =
      Tab.get (fun _ => 0) s.rcv.bgDeadlines k + if k = bgIndex item then 1 else 0) ∧
  (∀ (h : Half) (d : Delta) (s : State), MemoryCanonical s → (s.lp.deltas.find? fun d => decide (d.half = h.val)) = some d →
    let c := s.checkPlace (d.half * 96 + d.slot) d.line
    (s.pair c.1).failed = false → s.sched.waits = [] → Does (.checkDelta h) s fun u =>
      u.line (pairKey c.1 (c.2 * 64)) = s.line (pairKey c.1 (c.2 * 64)) ^^^ d.xor ∧
      u.lp.deltas.length + 1 = s.lp.deltas.length ∧
      ∀ a, a < pairKey c.1 (c.2 * 64) ∨ pairKey c.1 (c.2 * 64) + 64 ≤ a → u.byte a = s.byte a) ∧
  (∀ (p : PairIx) (line : Nat) (s : State), Does (.checkLineWriteback p line) s fun u =>
    (∀ d ∈ u.lp.dirty, ¬ (d.pair = p.val ∧ d.line = line)) ∧ u.mem = s.mem) ∧
  (∀ (h : Half) (s : State), MemoryCanonical s → Tab.get (fun _ => false) s.lp.stale h.val = true → rising s.lp.stale →
    Does (.checkRecomputeDone h) s fun u =>
      Tab.get (fun _ => false) u.lp.stale h.val = false ∧
      ∀ slot < 4, ∀ line < s.c0,
        let c := s.checkPlace (h.val * 96 + slot) line
        u.line (pairKey c.1 (c.2 * 64)) =
          xorLines ((((List.range 24).map fun k => h.val * 96 + k * 4 + slot).filter fun p => !(s.pair p).failed).map
            fun p => s.line (pairKey p (line * 64)))) ∧
  (∀ (p : PairIx) (region : Fin 122880) (s : State),
    let r := s.region (p.val * 2 ^ 17 + region.val)
    r.re = true → r.kid = s.cry.curMem → r.wc.toNat < r.base.toNat + 2 ^ 20 → Does (.reencryptDone p region) s fun u =>
      let x := u.region (p.val * 2 ^ 17 + region.val)
      x.re = false ∧ x.cursor = 1024 ∧ x.kid = r.kid ∧ x.wc = r.wc ∧
      (r.okid ≠ r.kid → (u.kid r.okid.toNat).users = (s.kid r.okid.toNat).users - 1)) ∧
  ∀ (k : Fin 64) (s : State), (s.kid k.val).st = 2 → (s.kid k.val).users = 0 → Does (.kidRetired k) s fun u =>
    u.kid k.val = { s.kid k.val with st := 3 } ∧ ∀ j, j ≠ k.val → u.kid j = s.kid j

/-- R153, R154, R158, R161, R177: the rewrite of a corrected line takes its mark away; a write of SRM_CLEAR starts the
clear of granules that no composition owns, and is else refused and counted; the end of the clear leaves them reading
zero and sound; VALID of SRM_UE clears by a one; the scrub reads line POS of each bank (a corrected line counts and is
marked), moves POS on by one, and counts a pass at its end. R169, R171, R177, R178, R189, R488, R490, R538, R541:
patrol scrub moves on by one line of a serving pair, and poisons a data line it finds beyond repair; a calibration
window latches ZQ and reads drift and the on-die count, a drift above 5 ps makes retraining due; retraining clears it;
a refresh leaves State as it is; MR4 sets the refresh rate; a background item's deadline counts once a period. The
oldest delta of a half reaches its check line; a written-back line is dirty no more; the recomputation makes every
check line of the half the exclusive or of its stripe's lines on dies that have not failed. A region that has been
re-encrypted leaves RE; a retiring key that nothing uses is retired. -/
def Obligations.MemoryUpkeep : Prop := Stated.BondedSramUpkeep ∧ Stated.PairUpkeep


/-! ### The fabric router and links -/

/-- R297 to R302: a packet in transit with a valid route goes on the transmit queue of the candidate that is ACTIVE, holds a
credit for its channel and has the fewest flits queued, its HOPS one higher; an answer with no valid route is discarded and counted, and a
request of this module with none ends with STATUS 0x04, counted. A request that may leave egress takes a return-table entry of its own and waits no more; its
response, or its timeout (0x05), frees the entry and goes to the issuer; a response that no entry awaits is counted late. -/
def Obligations.FabricRouting : Prop :=
  (∀ (port : LPort) (p : FabPacket) (c : BitVec 7) (s : State),
    let r := s.route p.destMod.toNat
    let fits := fun (d : BitVec 7) => d ∈ r.cand ∧ (p.down = true → d.getLsbD 6 = true) ∧
      (s.port (d.toNat % 64)).st = .active ∧ (s.port (d.toNat % 64)).heldPort = false ∧
      (s.port (d.toNat % 64)).credit (vcOf p) = true
    p.hops ≠ 31 → p.destMod ≠ s.module → s.fab.sh.act.id.valid = true → r.valid = true → vcOf p ≠ 3 → fits c →
    Does (.fabricRoute (port, p)) s fun u => ∃ d, fits d ∧
      (∀ e, fits e → (s.port (d.toNat % 64)).queued ≤ (s.port (e.toNat % 64)).queued) ∧
      ∃ q, u.out = s.out ++ [.fabric (d.toNat % 64) q] ∧
        q = { p with hops := p.hops + 1, down := p.down || d.getLsbD 6 } ∧
        (u.port (d.toNat % 64)).txQueue = (s.port (d.toNat % 64)).txQueue ++
          [{ vc := vcOf p, pkt := q, left := fabHeader q :: dataFlits q, since := s.now }]) ∧
  (∀ (port : LPort) (p : FabPacket) (s : State), p.hops ≠ 31 → p.destMod ≠ s.module → isRequest p = false →
    (s.route p.destMod.toNat).valid = false → Does (.fabricRoute (port, p)) s fun u =>
      u.fab.cntUnreach = satInc s.fab.cntUnreach ∧ u.out = s.out) ∧
  (∀ (p : Packet) (w : FabWait) (s : State), (s.fab.waiting.find? fun w => decide (w.pkt = p)) = some w → s.fabReady p = true →
    isRequest (s.fabPacketOf p 0 0) = true → p.addr.toNat / 2 ^ 46 ≠ s.module.toNat →
    (s.route (p.addr.toNat / 2 ^ 46)).valid = false → Does (.fabricEgressRelease p) s fun u =>
      u.fab.cntUnreach = satInc s.fab.cntUnreach ∧ u.out = s.out ++ [.mesh (reply p 4 0 0)] ∧
      ∀ v ∈ u.fab.waiting, v.pkt ≠ p) ∧
  (∀ (p : Packet) (w : FabWait) (s : State), (s.fab.waiting.find? fun w => decide (w.pkt = p)) = some w →
    s.fabReady p = true → s.fab.sh.act.id.valid = true → p.addr.toNat / 2 ^ 46 = s.module.toNat →
    Does (.fabricEgressRelease p) s fun u => (∀ v ∈ u.fab.waiting, v.pkt ≠ p) ∧
      ∃ r, u.fab.returns = s.fab.returns ++ [r] ∧ r.pkt = p ∧ r.sentAt = s.now ∧ (∀ x ∈ s.fab.returns, x.ftag ≠ r.ftag) ∧
        ∃ f, u.out = s.out ++ [.fabric 48 f] ∧ f.ftag = r.ftag ∧ f.type = p.type ∧ f.cid = p.cid ∧ f.ctx = p.ctx ∧
          f.rights = p.rights ∧ f.data = p.data ∧ f.byteEn = p.byteEn ∧ f.operand = p.operand ∧
          f.addr.toNat = p.addr.toNat % 2 ^ 46) ∧
  (∀ (port : Option LPort) (p : FabPacket) (s : State), p.reserved = false →
    (∀ r, s.fabReq p.ftag = some r → r.dstModule = p.srcMod → Does (.fabricResponse (port, p)) s fun u =>
      u.out = s.out ++ [.mesh (reply r.pkt p.status.toNat p.data p.operand)] ∧ ∀ x ∈ u.fab.returns, x.ftag ≠ p.ftag) ∧
    (s.fabReq p.ftag = none → Does (.fabricResponse (port, p)) s fun u =>
      u.fab = { s.fab with cntLate := satInc s.fab.cntLate } ∧ u.out = s.out)) ∧
  ∀ (g : BitVec 14) (r : FabReq) (s : State), s.fabReq g = some r →
    r.sentAt + s.fab.timeout.toNat * 16384 ≤ s.now → Does (.fabricRequestTimeout g) s fun u =>
      u.out = s.out ++ [.mesh (reply r.pkt 5 0 0)] ∧ u.fab.cntTimeout = satInc s.fab.cntTimeout ∧
      ∀ x ∈ u.fab.returns, x.ftag ≠ g

/-- A full training of port `p` has started: step 2 where signal stands on four positions, else step 1 in OPEN_CIRCUIT. -/
def trains (s u : State) (p : Nat) : Prop :=
  let x := s.port p
  let y := u.port p
  let up := 4 ≤ (maskBits y.signal).length
  y.cntRetrain = satInc x.cntRetrain ∧ y.step = (if up then 2 else 1) ∧ y.st = (if up then .training else .openCircuit) ∧
  y.fast = false ∧ y.mapRx.failed = 0 ∧ y.mapTx.failed = 0

/-- R269, R272, R273, R282: signal on four positions starts training; each step's condition leads to the next, the last to
ACTIVE with credits for what the peer does not hold; a step's timeout leads where R272 says, the third failed full training to
FAILED. Loss of four positions, a FAILED port's retrain and LNK_CTRL start a training; LNK_CTRL sets DISABLE, MAXW and
SUBST_EN, clears the counts, and a MAXW of 3 changes nothing and counts. -/
def Obligations.LinkTraining : Prop :=
  (∀ (p : LPort) (s : State), let x := s.port p.val
    (∀ positions, x.st = .openCircuit → x.disable = false → 4 ≤ (maskBits (x.signal ||| positions)).length →
      Does (.signalDetect p positions) s fun u =>
        let y := u.port p.val
        y.st = .training ∧ y.step = 2 ∧ y.fast = false ∧ y.signal = x.signal ||| positions) ∧
    (∀ positions, x.disable = false → x.st = .active → 4 ≤ (maskBits (x.signal &&& positions)).length →
      Does (.lossOfSignal p positions) s fun u =>
        trains s u p.val ∧ (u.port p.val).signal = x.signal &&& ~~~positions ∧ (u.port p.val).peerValid = false) ∧
    (x.st = .failed → x.disable = false → x.failedAt + 256 ≤ s.cad.elapsed → Does (.failedPortRetrain p) s fun u =>
      trains s u p.val ∧ (u.port p.val).signal = x.signal)) ∧
  (∀ (p : LPort) (fact : TrainFact) (s : State), let x := s.port p.val
    let failed := { x with
      mapRx := { x.mapRx with failed := x.mapRx.failed ||| fact.failed },
      mapTx := { x.mapTx with failed := x.mapTx.failed ||| fact.peerFailed } }
    (x.step = 2 → ∀ c, c = Instr.trainingStepComplete p fact ∨ c = .trainingStepTimeout p fact → Does c s fun u =>
      u.port p.val = { failed with step := 3, polarity := fact.polarity }) ∧
    (x.step = 3 → Does (.trainingStepComplete p fact) s fun u =>
      u.port p.val = { x with step := if x.fast then 6 else 4, st := if x.fast then .retraining else .training }) ∧
    (x.step = 4 → Does (.trainingStepComplete p fact) s fun u =>
      u.port p.val = { x with step := 5, reversed := fact.reversed }) ∧
    (x.step = 5 → ∀ c, c = Instr.trainingStepComplete p fact ∨ c = .trainingStepTimeout p fact → Does c s fun u =>
      u.port p.val = { failed with step := 6 }) ∧
    (∀ l : Fin 16, x.step = 6 → x.maxw = 0 → x.reversed = false → x.mapTx.failed ||| fact.peerFailed = 0 →
      x.mapRx.failed ||| fact.failed = BitVec.ofNat 18 (2 ^ l.val) → Does (.trainingStepComplete p fact) s fun u =>
        let y := u.port p.val
        y.step = 7 ∧ y.rxw = 0 ∧ y.txw = 0 ∧ y.mapRx.subA.toNat = l.val ∧ y.mapRx.subB = 0x3F ∧ y.mapTx.subA = 0x3F ∧
        y.sparesLeft = 1) ∧
    (x.step = 7 → x.fast = false → Does (.trainingStepComplete p fact) s fun u =>
      (u.port p.val).step = 8 ∧ ∃ cyc echo, (u.port p.val).ctrlQueue = x.ctrlQueue ++
        [.discovery s.module (BitVec.ofNat 6 p.val) s.rot.otp.serial s.cad.epoch cyc echo]) ∧
    (x.step = 8 → x.peerValid = true → x.peerModule ≠ s.module → x.expect.act.en = false →
      Does (.trainingStepComplete p fact) s fun u =>
        let y := u.port p.val
        y.st = .active ∧ y.step = 0 ∧ y.failedTrainings = 0 ∧
        ∀ v < 4, Tab.get (fun _ => 0) y.dedicated v = 64 - fact.peerHeld.getD v 0) ∧
    (x.step = 3 → x.fast = false → Does (.trainingStepTimeout p fact) s fun u => (u.port p.val).st = .oneWay) ∧
    (x.step = 4 → Does (.trainingStepTimeout p fact) s fun u => (u.port p.val).st = .laneOrder ∧ (u.port p.val).step = 0) ∧
    ((x.step = 7 ∨ x.step = 8) → x.fast = false → Does (.trainingStepTimeout p fact) s fun u =>
      let y := u.port p.val
      if 2 ≤ x.failedTrainings then y.st = .failed ∧ y.rxw = 3 ∧ y.txw = 3 ∧ y.txQueue = []
      else y.st = .training ∧ y.step = 2 ∧ y.failedTrainings = x.failedTrainings + 1)) ∧
  ∀ (p : LPort) (v : Word) (c : Instr) (s : State),
    c = .retrainPort p v ∨ c = .fastRetrain p v ∨ c = .disablePort p v ∨ c = .clrCnt p v ∨ c = .maxWidth p v ∨ c = .substEn p v →
    v &&& 0xFFFFFF10 = 0 →
    let x := s.port p.val
    (v &&& 0xC = 0xC → Does c s fun u => u.port p.val = { x with err := { x.err with order := satInc x.err.order } }) ∧
    (v &&& 0xC ≠ 0xC → Does c s fun u =>
      let y := u.port p.val
      y.disable = v.getLsbD 5 ∧ y.maxw = v.extractLsb' 2 2 ∧ y.substEn = v.getLsbD 1 ∧ y.err = x.err ∧
      (v.getLsbD 5 = true → x.disable = false → y.st = .disabled ∧ y.step = 0 ∧ y.rxw = 3 ∧ y.peerValid = false) ∧
      (v.getLsbD 5 = false → x.disable = true ∨ (v.getLsbD 7 = true ∧ x.st ≠ .laneOrder) → v.getLsbD 0 = false → trains s u p.val) ∧
      (v.getLsbD 5 = false → x.disable = false → v.getLsbD 7 = false → v.getLsbD 6 = true → x.st = .active →
        y.st = .retraining ∧ y.fast = true ∧ y.step = 2) ∧
      (v.getLsbD 0 = true → v &&& 0xE0 = 0 → x.disable = false →
        y.cntCorr = 0 ∧ y.cntUncorr = 0 ∧ y.cntReplay = 0 ∧ y.cntRetrain = 0 ∧ y.cntLost = 0))

/-- R263 to R266, R275, R278 to R280, R547, R549: what the control messages and frames of a port do. A discovery message
leaves the peer's record; a request for a healthy unused spare of an ACTIVE port is answered with SUBST_ACK; the answers settle
the receiver's substitution; an eye is recorded; a KEYX whose USE the module holds makes the next receive session wait for
START_SEQ, one of a key it does not hold leaves the port KEYLESS. A frame in sequence is accepted and counted; one that does
not decode is discarded and asks for a replay. An idle port sends an idle frame and keeps it; a replay is sent again. -/
def Obligations.LinkMessagesAndFrames : Prop :=
  (∀ (p : LPort) (s : State), let x := s.port p.val
    (∀ module port serial cadence stamp echo, Does (.discovery p (.discovery module port serial cadence stamp echo)) s fun u =>
      let y := u.port p.val
      y.peerValid = true ∧ y.peerModule = module ∧ y.peerPort = port ∧ y.peerFull = serial ∧
      (x.st = .active → module = s.module → serial = s.rot.otp.serial → y.st = .looped)) ∧
    (∀ (l : Fin 16) (i : Fin 2),
      let used := if i.val = 0 then x.mapTx.subA else x.mapTx.subB
      let nak := fun (c : BitVec 8) => { x with ctrlQueue := x.ctrlQueue ++ [.substNak l i c] }
      Does (.substReq p (.substReq l i)) s fun u =>
        u.port p.val = if x.st ≠ .active then nak 3
          else if used ≠ 0x3F ∨ x.substTx.any (fun b => decide (b.spare = i.val)) = true then nak 1
          else if x.mapTx.failed.getLsbD (16 + i.val) = true then nak 2
          else { x with substTx := some { llane := l.val, spare := i.val }, ctrlQueue := x.ctrlQueue ++ [.substAck l i 0] }) ∧
    (∀ l i seq, Does (.substAck p (.substAck l i seq)) s fun u =>
      u.port p.val = { x with substRx := x.substRx.map fun b => { b with switchSeq := some seq.toNat } }) ∧
    (∀ l i, Does (.substNak p (.substNak l i 3)) s fun u => u.port p.val = { x with substRx := none }) ∧
    (∀ (pos : Fin 18) (height width : BitVec 8), Does (.eyeMeasurement p pos height width) s fun u =>
      Tab.get (fun _ => ({} : Eye)) (u.port p.val).eyes pos.val =
        { valid := true, height := height, width := width, age := 0, lowRun := if height < 12
          then (Tab.get (fun _ => ({} : Eye)) x.eyes pos.val).lowRun + 1 else 0 }) ∧
    (∀ b : Bytes, let use : DWord := BitVec.ofNat 64 (bytesAt b 0x18 8)
      (use ≠ 0 → s.cry.curLink ≠ 0 → s.kidPrint s.cry.curLink = use → Does (.keyx p (.keyx b)) s fun u =>
        let y := u.port p.val
        y.peerNew = BitVec.ofNat 64 (bytesAt b 8 8) ∧ y.peerOld = BitVec.ofNat 64 (bytesAt b 0x10 8) ∧
        y.pendRx = some (s.cry.curLink.toNat, payF b 2 2 0 16) ∧ y.keySt = 2) ∧
      (use ≠ 0 → s.kidPrint s.cry.curLink ≠ use → s.kidPrint s.oldLink ≠ use → Does (.keyx p (.keyx b)) s fun u =>
        (u.port p.val).keySt = 3))) ∧
  (∀ (p : LPort) (f : Frame) (s : State), let x := s.port p.val
    x.st = .active →
    (Frame.whole f = true → f.ftype = 1 ∨ f.ftype = 2 → f.seq = x.rxFrames.setWidth 16 → x.awaiting = false →
      x.substRx = none → x.pendRx = none → x.kidRx = 0 → Does (.linkFrameReceive p f) s fun u =>
        let y := u.port p.val
        y.rxFrames = x.rxFrames + 1 ∧ y.badRun = 0 ∧ y.cntUncorr = x.cntUncorr ∧
        y.cntCorr = satAdd x.cntCorr (f.corrected.map (·.2)).sum ∧
        y.replay = x.replay.dropWhile fun g => decide ((f.ack.toNat + 2 ^ 16 - g.seq) % 2 ^ 16 < 2 ^ 15)) ∧
    (Frame.whole f = false → Does (.linkFrameReceive p f) s fun u =>
      let y := u.port p.val
      y.rxFrames = x.rxFrames ∧ y.awaiting = true ∧ y.nakDue = true ∧ y.cntUncorr = satInc x.cntUncorr)) ∧
  ∀ (p : LPort) (s : State), let x := s.port p.val
    x.st = .active →
    (x.replayFrom = none → x.replay.length < 256 → x.txQueue = [] → x.ctrlQueue = [] → x.substTx = none → x.pendTx = none →
      x.kidTx = 0 → Does (.linkFrameTransmit p) s fun u =>
        let y := u.port p.val
        let seq := x.frameCount.toNat % 2 ^ 16
        let ack := (x.rxFrames.toNat + 2 ^ 16 - 1) % 2 ^ 16
        (∃ bytes, u.out = s.out ++ [.frame p.val false x.nakDue seq ack x.creditField [] [] bytes]) ∧ y.frameCount = x.frameCount + 1 ∧
        y.nakDue = false ∧ ∃ g, y.replay = x.replay ++ [g] ∧ g.seq = seq ∧ g.slots = [] ∧ g.ctrl = []) ∧
    ∀ (seq : Nat) (g : SentFrame), x.replayFrom = some seq → (x.replay.find? fun g => decide (g.seq = seq)) = some g →
      g.replays < 7 → Does (.linkFrameTransmit p) s fun u =>
        (∃ bytes, u.out = s.out ++ [.frame p.val true g.nak g.seq g.ack g.credits g.slots g.ctrl bytes]) ∧
        (u.port p.val).cntReplay = satInc x.cntReplay ∧ (u.port p.val).frameCount = x.frameCount

/-! ### Ingress, collectives, mesh requests -/

/-- R288, R291 to R293, R296, R311 to R315: a read whose window resolves becomes a mesh request with the packet's tags and
rights; one that its window refuses, or of a reserved form, is counted and nothing is read or written. A contribution that
completes nothing is summed into its chunk's accumulator, a local one answered; the last one of a chunk of an entry with a
parent goes up. A result goes down to every child whose port stands; one that its destination window refuses, or a timeout,
fails the generation. -/
def Obligations.FabricIngressAndCollectives : Prop :=
  (∀ (port : Option LPort) (p : FabPacket) (s : State),
    let n := match port with
      | some q => q.val
      | none => 48
    let w := fldN p.addr 36 8
    s.fab.sh.act.id.valid = true → p.reserved = false → 0x200000000000 ≤ p.addr.toNat → p.addr.toNat < 0x300000000000 →
    p.type = 1 →
    (∀ i mpa x g, s.winResolve p.cid (some p.ctx) w (fldN p.addr 0 36) .rd true = .ok i mpa x →
      sameRack p.srcMod s.module = true → s.freeTag (portStop n) = some g → s.fenceHolds p.cid (s.place mpa) = false →
      Does (.fabricIngress port p .clean) s fun u =>
        u.fab.winReqs = s.fab.winReqs ++ [{ window := i, key := fabKey p, port := n, via := (x.base, x.log2) }] ∧
        ∃ q, u.out = s.out ++ [.mesh q] ∧ q.type = 1 ∧ q.cid = p.cid ∧ q.ctx = p.ctx ∧ q.rights = p.rights ∧
          q.addr = BitVec.ofNat 60 mpa ∧ q.src = BitVec.ofNat 10 (portStop n) ∧ q.tag = BitVec.ofNat 8 g ∧ u.mem = s.mem) ∧
    (∀ st, s.winResolve p.cid (some p.ctx) w (fldN p.addr 0 36) .rd true = .bad st →
      Does (.fabricIngress port p .clean) s fun u =>
        u.fab.cntRefused = satInc s.fab.cntRefused ∧ u.mesh.reqs = s.mesh.reqs ∧ u.mem = s.mem)) ∧
  (∀ (port : Option LPort) (p : FabPacket) (ecc : Ecc) (s : State), p.reserved = true →
    Does (.fabricIngress port p ecc) s fun u => u.fab.cntRefused = satInc s.fab.cntRefused ∧ u.mem = s.mem) ∧
  (∀ (c : Nat) (p : FabPacket) (s : State),
    let e := s.collSh c
    let r := s.collRun c
    let off := fldN p.addr 0 32
    let chunk := off / 64
    let acc := s.fab.accs.find? fun a => decide (a.coll = c) && decide (a.chunk = chunk)
    e.valid = true → e.cid = p.cid → (r.st = 1 ∨ r.st = 2) → off < e.len.toNat → chunk ∉ r.sent → s.fab.collWaits = [] →
    (p.type = 2 → p.srcMod = s.module → s.fab.sh.act.id.valid = true → fldN p.addr 32 8 = c → 2 ≤ e.nlocal.toNat →
      (acc = none → s.fab.accs.length < 4096 → Does (.collectiveLocalWrite p) s fun u =>
        { coll := c, chunk := chunk, lanes := chunkIn e.op p.data, count := 1 } ∈ u.fab.accs ∧ (u.collRun c).st = 2 ∧
        u.out = s.out ++ [.fabric 48 (fabReply s.module p 0 0 0)]) ∧
      (∀ a, acc = some a → a.count + 1 < e.nlocal.toNat → Does (.collectiveLocalWrite p) s fun u =>
        { a with lanes := addLanes a.lanes (chunkIn e.op p.data), count := a.count + 1 } ∈ u.fab.accs ∧
        (u.collRun c).st = 2 ∧ u.out = s.out ++ [.fabric 48 (fabReply s.module p 0 0 0)])) ∧
    (∀ (port : LPort) (a : ChunkAcc), s.fab.sh.act.id.valid = true → p.reserved = false → s.collOf p.cid p.collId = some c → e.childMask.getLsbD port.val = true → p.gen = r.gen →
      acc = some a → port.val ∉ a.children →
      let b := { a with lanes := addLanes a.lanes (chunkSums e.op p), children := port.val :: a.children }
      (a.count < e.nlocal.toNat → Does (.collectiveContribution port p) s fun u => b ∈ u.fab.accs ∧ (u.collRun c).st = 2) ∧
      (a.count = e.nlocal.toNat → (∀ i < 48, e.childMask.getLsbD i = true → i = port.val ∨ i ∈ a.children) → e.pvalid = true →
        (s.port e.parent.toNat).gone = false → e.parent.toNat < 48 → Does (.collectiveContribution port p) s fun u =>
          (∀ x ∈ u.fab.accs, ¬ (x.coll = c ∧ x.chunk = chunk)) ∧ chunk ∈ (u.collRun c).sent ∧
          ∃ q, u.out = s.out ++ [.fabric e.parent.toNat q] ∧ q.type = 9 ∧ q.collId = e.collId ∧ q.gen = r.gen ∧
            q.data = Line.ofBytes (sumBytes b.lanes)))) ∧
  (∀ (port : LPort) (p : FabPacket) (c : Nat) (s : State), s.collOf p.cid p.collId = some c →
    s.fab.sh.act.id.valid = true → p.reserved = false →
    let e := s.collSh c
    let chunk := fldN p.addr 0 32 / 64
    e.pvalid = true → e.parent.toNat = port.val → (s.collRun c).gen = p.gen → (s.collRun c).st = 2 → chunk * 64 < e.len.toNat →
    Does (.collectiveResult port p) s fun u =>
      (∀ n < 48, e.childMask.getLsbD n = true → (s.port n).gone = false →
        ∃ q, .fabric n q ∈ u.out ∧ q.type = 0x0A ∧ q.collId = e.collId ∧ q.gen = p.gen) ∧
      (∀ st, s.winResolve e.cid none e.destWin.toNat (e.destOff.toNat + chunk * opLanes e.op * (if opOutBf e.op then 2 else 4))
        .wr true = .bad st → Tab.find s.fab.collLater c = none → s.fab.collWaits = [] → (u.collRun c).st = 3 ∧ u.mem = s.mem)) ∧
  ∀ (c : Fin 64) (s : State), (s.collRun c.val).st = 2 →
    (s.collRun c.val).since + s.fab.timeout.toNat * 16384 ≤ s.now → Tab.find s.fab.collLater c.val = none →
    Does (.collectiveTimeout c) s fun u => (u.collRun c.val).st = 3 ∧ (u.collRun c.val).gen = (s.collRun c.val).gen ∧
      (∀ a ∈ u.fab.accs, a.coll ≠ c.val) ∧ ∀ w ∈ u.fab.collWaits, w.coll ≠ c.val

/-- R129, R141, R155, R156, R213, R214, R233: where nothing waits, a request whose tags the granule admits is served at
bonded SRAM: a read answers its line, a write stores the bytes it enables, an atomic acts on its word and answers the old one;
one that the granule does not admit is answered with STATUS 0x01 and touches nothing. An unknown type is discarded. A response
ends its request: a load's last line writes its register, a purged bank's is discarded, one that nothing awaits is counted. -/
def Obligations.MeshRequestsAndResponses : Prop :=
  (∀ (p : Packet) (x off : Nat) (s : State), MemoryCanonical s → p.dest.toNat < 0x250 → p.src.toNat ≠ 0x282 → s.sched.waits = [] →
    s.place p.addr.toNat = .sram x off → s.recovering (x / 272) = false → s.oldTag p.cid p.epoch (.sram x off) = none →
    let o := s.gran x (off / 65536)
    let base := off / 64 * 64
    let may := fun (a : Acc) => o.admits p.cid p.ctx = true ∧ (p.rights = 0 ∨ p.rights.getLsbD a.bit = true) ∧
      Tab.find (s.tile x).srm.poison (off / 64) = none ∧ Tab.find (s.tile x).srm.staleIcv (off / 64) = none
    (may .rd → Does (.meshRead p .clean) s fun u =>
      u.out = s.out ++ [.mesh (reply { p with type := 1 } 0 (s.line (sramKey x base)) 0)] ∧ u.mem = s.mem) ∧
    (may .wr → Does (.meshWrite p .clean) s fun u =>
      u.out = s.out ++ [.mesh (reply { p with type := 2 } 0 0 0)] ∧
      onlyStored s u x base 64 fun i => if p.byteEn.getLsbD i then p.data.extractLsb' (8 * i) 8 else s.byte (sramKey x (base + i))) ∧
    (∀ op, may .atomic → Does (.meshAtomic p op .clean) s fun u =>
      let at_ := base + off % 64 / 8 * 8
      let old := s.wordAt (sramKey x at_) 8
      let new := match op with
        | .add => (old + p.operand.toNat % 2 ^ 64) % 2 ^ 64
        | .exchange => p.operand.toNat % 2 ^ 64
        | .compareExchange => if old = p.operand.toNat / 2 ^ 64 then p.operand.toNat % 2 ^ 64 else old
      u.out = s.out ++ [.mesh (reply { p with type := 3 } 0 0 (BitVec.ofNat 128 old))] ∧
      onlyStored s u x at_ 8 fun i => BitVec.ofNat 8 (new / 256 ^ i)) ∧
    (o.admits p.cid p.ctx = false → ∀ op ecc,
      (Does (.meshRead p ecc) s fun u => u.out = s.out ++ [.mesh (reply { p with type := 1 } 1 0 0)] ∧ u.mem = s.mem) ∧
      (Does (.meshWrite p ecc) s fun u => u.out = s.out ++ [.mesh (reply { p with type := 2 } 1 0 0)] ∧ u.mem = s.mem) ∧
      Does (.meshAtomic p op ecc) s fun u => u.out = s.out ++ [.mesh (reply { p with type := 3 } 1 0 0)] ∧ u.mem = s.mem)) ∧
  (∀ (p : Packet) (s : State), exec (.meshUnknownType p) s =
    .next { s with mesh := { s.mesh with unknownTypes := s.mesh.unknownTypes + 1 } }) ∧
  ∀ (p : Packet) (i : Instr) (ty : BitVec 8) (s : State),
    (i = .readResponse p ∧ ty = 4 ∨ i = .writeAcknowledgement p ∧ ty = 5 ∨ i = .atomicResponse p ∧ ty = 6) →
    let key := reqKey p.dest.toNat p.tag.toNat
    (Tab.find s.mesh.reqs key = none → Does i s fun u =>
      u = { s with mesh := { s.mesh with discardedResponses := s.mesh.discardedResponses + 1 } }) ∧
    ∀ r, Tab.find s.mesh.reqs key = some r → r.pkt.type + 3 = ty → r.pkt.type ≠ 7 → r.fence = false →
      (r.discard = true → Does i s fun u => u.mesh.reqs = Tab.erase s.mesh.reqs key ∧
        u.mesh.discardedResponses = s.mesh.discardedResponses + 1 ∧ u.tiles = s.tiles) ∧
      (r.discard = false → p.status = 0 → ∀ t b, let k := s.bank t b
        (∀ l d base imm buf off size, ty = 4 → r.who = .load t b 0 size off →
          k.wait = some (.access (.scalarMem (.load l false d base imm)) 1 buf) → Does i s fun u =>
            u.mesh.reqs = Tab.erase s.mesh.reqs key ∧ u.bank t b = ended s t b { k with
              sReg := Tab.insert k.sReg d.val (BitVec.ofNat 64
                ((buf + p.data.toNat / 2 ^ (8 * off) % 2 ^ (8 * size)) % 2 ^ (8 * 2 ^ l.val))) }) ∧
        (∀ l src base imm buf, ty = 5 → r.who = .store t b →
          k.wait = some (.access (.scalarMem (.store l src base imm)) 1 buf) → Does i s fun u =>
            u.mesh.reqs = Tab.erase s.mesh.reqs key ∧ u.bank t b = ended s t b k) ∧
        (∀ op d src cmp base imm, ty = 6 → r.who = .atomic t b →
          k.wait = some (.access (.scalarMem (.atomic op d src cmp base imm)) 1 0) → Does i s fun u =>
            u.mesh.reqs = Tab.erase s.mesh.reqs key ∧ u.bank t b = ended s t b { k with
              sReg := Tab.insert k.sReg d.val (BitVec.ofNat 64 (p.operand.toNat % 2 ^ 64)) }))

/-! ### Host functions and ports -/

/-- R333 to R340, R347, R350: a doorbell of a bound function moves its queue's tail, one too far ahead is refused; a BAR2
access within one line becomes a mesh request with the function's tags, one that BAR2 does not take reads all ones and counts.
HST_BAR2_WIN and MSI-X table writes take effect and put a locked TDI in ERROR; the dirty log's registers; LOCK, START and STOP
move the TDI; IDE keys name a stream's functions; an integrity failure counts; an FLR resets the function and leaves it bound. -/
def Stated.HostFunctions : Prop :=
  ∀ (h : HPortIx) (f : FuncIx) (s : State), let x := s.func h.val f.val
    (∀ (q : BitVec 12) (v : Word) (tbit : Bool) (e : Nat), x.presents f.val = true → x.teeRefuses tbit = false →
      s.queueOn h.val f.val q.toNat = some e → s.bar2Pending h.val f.val = false → Does (.doorbell h f q 0 2 v tbit) s fun u =>
        ((v - (s.qRo e).head).toNat ≤ 2 ^ (s.qSh e).sizeLog2.toNat → (u.qRo e).tail = v) ∧
        (2 ^ (s.qSh e).sizeLog2.toNat < (v - (s.qRo e).head).toNat → (s.qSh e).hport = decide (h.val = 1) →
          (s.qSh e).func.toNat = f.val → (u.qRo e).tail = (s.qRo e).tail ∧ (u.func h.val f.val).refused = satInc x.refused)) ∧
    (∀ (offset bytes tag g : Nat) (tbit : Bool), x.teeRefuses tbit = false → 0 < bytes → (x.winBase.toNat * 2 ^ 30 + offset) % 64 + bytes ≤ 64 →
      let mpa := x.winBase.toNat * 2 ^ 30 + offset
      (s.bar2Takes h.val f.val offset bytes = true → s.hst.waiting = [] → s.freeTag (0x280 + h.val) = some g →
        s.fenceHolds x.cid (s.place (mpa / 64 * 64)) = false → Does (.bar2Read h f offset bytes tbit tag) s fun u =>
          ∃ r, Tab.find u.mesh.reqs (reqKey (0x280 + h.val) g) = some r ∧ r.who = .host h.val f.val tag 0 bytes (mpa % 64) ∧
            r.pkt.type = 1 ∧ r.pkt.cid = x.cid ∧ r.pkt.ctx = x.winCtx ∧ r.pkt.addr = BitVec.ofNat 60 (mpa / 64 * 64) ∧
            u.out = s.out ++ [.mesh r.pkt] ∧ u.mem = s.mem) ∧
      (s.bar2Takes h.val f.val offset bytes = false → Does (.bar2Read h f offset bytes tbit tag) s fun u =>
        .hostCompletion h.val f.val tag 0 (List.replicate bytes 0xFF) ∈ u.out ∧
        (u.func h.val f.val).refused = satInc x.refused ∧ u.mesh.reqs = s.mesh.reqs)) ∧
    (∀ (offset g : Nat) (data : Bytes) (tbit : Bool), x.teeRefuses tbit = false → data ≠ [] →
      let mpa := x.winBase.toNat * 2 ^ 30 + offset
      mpa % 64 + data.length ≤ 64 → s.bar2Takes h.val f.val offset data.length = true → s.hst.waiting = [] →
      s.freeTag (0x280 + h.val) = some g → s.fenceHolds x.cid (s.place (mpa / 64 * 64)) = false →
      Does (.bar2Write h f offset data tbit) s fun u =>
        ∃ r, Tab.find u.mesh.reqs (reqKey (0x280 + h.val) g) = some r ∧ r.pkt.type = 2 ∧ r.pkt.cid = x.cid ∧
          r.pkt.ctx = x.winCtx ∧ r.pkt.addr = BitVec.ofNat 60 (mpa / 64 * 64) ∧
          (∀ i < 64, r.pkt.byteEn.getLsbD i = decide (mpa % 64 ≤ i ∧ i < mpa % 64 + data.length)) ∧
          (∀ i < data.length, some (r.pkt.data.extractLsb' (8 * (mpa % 64 + i)) 8) = data[i]?) ∧
          u.out = s.out ++ [.mesh r.pkt]) ∧
    (∀ v : DWord, ∀ tbit, x.teeRefuses tbit = false → v &&& 0x7000FFFF0000FFFF = 0 → Does (.hstBar2WinWrite h f v tbit) s fun u =>
      let y := u.func h.val f.val
      let locked := x.tdi = .locked ∨ x.tdi = .run
      y.winEn = v.getLsbD 63 ∧ y.winCtx = v.extractLsb' 48 12 ∧ y.winBase = v.extractLsb' 16 16 ∧
      y.tdi = (if locked then .error else x.tdi) ∧ y.tdiCause = if locked then 2 else x.tdiCause) ∧
    (∀ (offset : BitVec 14) (v : Word) (tbit : Bool), x.teeRefuses tbit = false → offset.toNat / 16 < msixSize f.val →
      offset.toNat % 16 = 12 → x.tdi ≠ .locked → x.tdi ≠ .run → Does (.msixTableWrite h f offset v tbit) s fun u =>
        let e := Tab.get (fun _ => ({} : Msix)) x.msix (offset.toNat / 16)
        let fire := e.pend = true ∧ v.getLsbD 0 = false ∧ x.msixEn = true
        Tab.get (fun _ => ({} : Msix)) (u.func h.val f.val).msix (offset.toNat / 16) =
          { e with mask := v.getLsbD 0, pend := if fire then false else e.pend } ∧
        u.out = s.out ++ if fire then [.msix h.val f.val (offset.toNat / 16)] else []) ∧
    (∀ v : Word, v &&& 0x47FFFFE0 = 0 → 8 ≤ v.toNat % 32 → v.toNat % 32 ≤ 20 →
      (x.dlog.en = true → x.dlog.sizeLog2.toNat = v.toNat % 32) → Does (.dlogRearm h f v) s fun u =>
        (u.func h.val f.val).dlog = { x.dlog with
          en := v.getLsbD 31, hostEn := v.getLsbD 28, devEn := v.getLsbD 27, sizeLog2 := v.setWidth 5,
          ovf := if v.getLsbD 29 then false else x.dlog.ovf, devSeen := if v.getLsbD 29 then [] else x.dlog.devSeen }) ∧
    (∀ v : Word, (x.dlog.prod - v).toNat ≤ 2 ^ x.dlog.sizeLog2.toNat → Does (.dlogConsWrite h f v) s fun u =>
      u.func h.val f.val = { x with dlog := { x.dlog with cons := v } }) ∧
    (Does (.lockInterface h f) s fun u =>
      let ok := x.tdi = .unlocked ∧ x.bound = true ∧ x.winEn = true ∧ ((s.hport h.val).streamOf f.val).isSome = true
      u.func h.val f.val = (if ok then { x with tdi := .locked } else x) ∧
      u.out = s.out ++ [.tdisp h.val f.val (decide ok)]) ∧
    (Does (.startInterface h f) s fun u =>
      u.func h.val f.val = (if x.tdi = .locked then { x with tdi := .run } else x) ∧
      u.out = s.out ++ [.tdisp h.val f.val (decide (x.tdi = .locked))]) ∧
    (∀ c, s.hst.queued = [] → c = Instr.stopInterface h f ∨ c = .flr h f → Does c s fun u =>
      let y := u.func h.val f.val
      y.tdi = .unlocked ∧ y.winEn = false ∧ y.msixEn = false ∧ y.msix = [] ∧ y.bound = x.bound ∧ y.cid = x.cid ∧
      ∀ r ∈ u.hst.reqs, ¬ (r.hport = h.val ∧ r.func = f.val)) ∧
    (Does (.vfEnableClear h) s fun u => (u.hport h.val).vfEnable = false ∧
      ∀ g, 0 < g → g < 257 → (u.func h.val g).enabled = false ∧ (u.func h.val g).bound = (s.func h.val g).bound) ∧
    (∀ (session sub : Nat) (stream : Fin 65) (hi : FuncIx),
      (∃ y ∈ s.rot.sessions, y.id = session ∧ y.finished = true ∧ y.path = .mailbox h 0) → stream.val = 64 ∨ (s.hport h.val).ideKeys = [] →
      Does (.ideKm h session stream sub f hi) s fun u =>
        (stream.val, sub, f.val, hi.val) ∈ (u.hport h.val).ideKeys ∧ u.out = s.out ++ [.ideKm h.val stream.val] ∧
        (stream.val < 64 → ∀ g, f.val ≤ g → g ≤ hi.val →
          (u.func h.val g).tdiSValid = true ∧ (u.func h.val g).tdiStream = BitVec.ofNat 6 stream.val)) ∧
    (Does (.ideIntegrityFailure h f) s fun u =>
      let y := u.func h.val f.val
      let locked := x.tdi = .locked ∨ x.tdi = .run
      y.err = { x.err with order := satInc x.err.order } ∧ y.tdi = (if locked then .error else x.tdi) ∧
      y.tdiCause = if locked then 3 else x.tdiCause)

/-- R325, R328, R330, R331, R341, R589: DL_Down holds a port, ends its host requests and puts its locked TDIs in ERROR; the
end of HOLD and the link's return start training; training ends in UP; PERST# resets configuration space and trains when it
is let go. A completion ends its request and answers its issuer, a timeout with STATUS 0x06; an invalidation drops the entries of
its range and is answered. Configuration requests are answered with retry status before step 5. -/
def Stated.HostPorts : Prop :=
  ∀ (h : HPortIx) (s : State), let p := s.hport h.val
    (p.st = .up ∨ p.st = .recovery → s.hst.queued = [] → Does (.hostDlDown h) s fun u =>
      let q := u.hport h.val
      q.st = .hold ∧ q.rate = 0 ∧ q.width = 0 ∧ q.holdLeft = p.hold.setWidth 8 ∧ (∀ r ∈ u.hst.reqs, r.hport ≠ h.val) ∧
      ∀ f < 257, (s.func h.val f).tdi = .locked ∨ (s.func h.val f).tdi = .run →
        (u.func h.val f).tdi = .error ∧ (u.func h.val f).tdiCause = 4) ∧
    (p.st = .hold → s.hst.queued = [] → ∀ c, c = Instr.hostLinkUp h ∨ (c = .hostHoldExpiry h ∧ p.holdLeft = 0) → Does c s fun u =>
      (u.hport h.val).st = (if p.perst then .down else .training) ∧ (u.hport h.val).holdLeft = 0 ∧
      ∀ e ∈ s.hst.funcs, e.1 / 257 = h.val → e.2.bound = true → ∀ r ∈ u.hst.reqs, ¬ (r.hport = h.val ∧ r.func = e.1 % 257)) ∧
    (∀ rate width, p.st = .training ∨ p.st = .recovery ∨ p.st = .up → Does (.hostLinkTrained h rate width) s fun u =>
      u.hport h.val = { p with st := .up, rate := rate, width := width } ∧ u.mem = s.mem) ∧
    (Does (.perstAssert h) s fun u =>
      let q := u.hport h.val
      q.perst = true ∧ q.vfEnable = false ∧ q.numVfs = 0 ∧ q.st = (if p.st = .up ∨ p.st = .recovery then .hold else p.st) ∧
      ∀ f < 257, (u.func h.val f).msixEn = false ∧ (u.func h.val f).busMaster = false ∧
        (u.func h.val f).bound = (s.func h.val f).bound) ∧
    (Does (.perstDeassert h) s fun u => (u.hport h.val).perst = false ∧ (u.hport h.val).st = .training) ∧
    (∀ (tag : BitVec 14) (r : HostReq) (m : MeshReq), s.hostReq h.val tag.toNat = some r →
      Tab.find s.mesh.reqs (reqKey r.stop r.mtag) = some m → s.hst.queued = [] →
      (∀ l, Does (.hostCompletion h tag (.ok l)) s fun u => r ∉ u.hst.reqs ∧ .mesh (reply m.pkt 0 l 0) ∈ u.out ∧
        (u.hport h.val).cntLost = p.cntLost) ∧
      (Does (.hostCompletion h tag .refused) s fun u => r ∉ u.hst.reqs ∧ .mesh (reply m.pkt 7 0 0) ∈ u.out ∧
        (u.hport h.val).cntLost = satInc p.cntLost) ∧
      (Does (.hostCompletion h tag .poisoned) s fun u => r ∉ u.hst.reqs ∧ .mesh (reply m.pkt 3 0 0) ∈ u.out) ∧
      Does (.hostCompletionTimeout h tag) s fun u => r ∉ u.hst.reqs ∧ .mesh (reply m.pkt 6 0 0) ∈ u.out ∧
        (u.hport h.val).cntLost = satInc p.cntLost) ∧
    (∀ (tag : BitVec 14) (c : Completion), s.hostReq h.val tag.toNat = none →
      (∀ t ∈ s.hst.transl, ¬ (t.hport = h.val ∧ t.tag = tag.toNat)) → Does (.hostCompletion h tag c) s fun u =>
      u = { s with hst := { s.hst with late := s.hst.late + 1 } }) ∧
    (∀ (f : FuncIx) (itag : Fin 32) (pasid : BitVec 20) (page pages : Nat),
      Does (.atsInvalidation h f itag pasid page pages) s fun u =>
        (∀ e ∈ u.hst.atc, ¬ (e.hport = h.val ∧ e.func = f.val ∧ e.pasid = pasid ∧
          e.page < page + pages ∧ page < e.page + 2 ^ e.log2)) ∧
        ((∀ r ∈ s.hst.reqs, r.hport = h.val → r.func = f.val → r.translated = false) →
          u.out = s.out ++ [.atsCompletion h.val f.val itag.val])) ∧
    ∀ (f : FuncIx) (reg : ConfigReg) (v : Word) (tag : Nat), let x := s.func h.val f.val
      let late := f.val = 0 ∨ x.enabled = true
      (s.boot.step < 5 → ∀ w, Does (.configRequest h f w reg v tag) s fun u =>
        u = { s with out := s.out ++ [.hostCompletion h.val f.val tag 2 []] }) ∧
      (5 ≤ s.boot.step → ¬ late → ∀ w, Does (.configRequest h f w reg v tag) s fun u =>
        u = { s with out := s.out ++ [.hostCompletion h.val f.val tag 1 []] }) ∧
      (5 ≤ s.boot.step → late → (Does (.configRequest h f true .busMaster v tag) s fun u =>
          u.func h.val f.val = { x with busMaster := v.getLsbD 0 } ∧ u.out = s.out ++ [.hostCompletion h.val f.val tag 0 []]) ∧
        (Does (.configRequest h f true .msixEnable v tag) s fun u => u.func h.val f.val = { x with msixEn := v.getLsbD 0 }) ∧
        (Does (.configRequest h f true .numVfs v tag) s fun u =>
          (u.hport h.val).numVfs = if p.vfEnable then p.numVfs else min v.toNat 256) ∧
        Does (.configRequest h f false .bar2Size v tag) s fun u =>
          u = { s with out := s.out ++ [.hostCompletion h.val f.val tag 0 (toBytes 4 x.bar2Log2)] })

/-- R333 to R340, R347, R350: a doorbell of a bound function moves its queue's tail, one too far ahead is refused; a BAR2
access within one line becomes a mesh request with the function's tags, one that BAR2 does not take reads all ones and
counts. HST_BAR2_WIN and MSI-X table writes take effect and put a locked TDI in ERROR; the dirty log's registers;
LOCK, START and STOP move the TDI; IDE keys name a stream's functions; an integrity failure counts; an FLR resets the
function and leaves it bound. R325, R328, R330, R331, R341, R589: DL_Down holds a port, ends its host requests and
puts its locked TDIs in ERROR; the end of HOLD and the link's return start training; training ends in UP; PERST#
resets configuration space and trains when it is let go. A completion ends its request and answers its issuer, a
timeout with STATUS 0x06; an invalidation drops the entries of its range and is answered. Configuration requests are
answered with retry status before step 5. -/
def Obligations.HostFunctionsAndPorts : Prop := Stated.HostFunctions ∧ Stated.HostPorts


/-! ### Itlum messages and its commands -/

/-- Checks 7 and 8 of R391 (`ok`: the payload's checks; the lease where the class asks for one), R480 and R392, for the
request that a command runs: the earliest of its line; in HALTED a query or RECOVER only; no second long command. -/
def passes (s : State) (p : Path) (op : Nat) (ok : Bool) (r : ItlReq) : Prop :=
  s.due p op = some r ∧ r.path = p ∧ ok = true ∧
  (s.rcv.st = .halted → op = 0x0901 ∨ ((opInfo op).any fun i => decide (i.cls = .q)) = true) ∧
  ((opInfo op).all fun i => (decide (i.cls ≠ .w ∧ i.cls ≠ .f) || !s.leaseBad r) &&
    (!i.long || (s.requester p).longOp.isNone)) = true

/-- As `passes`, for a command that commits: no change is held and no accepted commit waits (R399, R400). -/
def passesCommit (s : State) (p : Path) (op : Nat) (ok : Bool) (r : ItlReq) : Prop :=
  passes s p op ok r ∧ s.itl.held = none ∧ s.commitWaits = false

/-- A message came back on a path: in its mailbox, no longer busy and done, or among the outputs. -/
def received (s u : State) (p : Path) (m : Bytes) : Prop :=
  match p with
  | .mailbox h f => (s.func h.val f.val).mail.flrWhileBusy = false →
      (u.func h.val f.val).mail.rsp = m ∧ (u.func h.val f.val).mail.busy = false ∧ (u.func h.val f.val).mail.done = true
  | _ => Msg.itlum p m ∈ u.out

/-- The response (R390, R392) to a request: its opcode, REQ_ID and CID, a STATUS, and a payload or its first part (R619);
the requester may send its next request. -/
def responds (s u : State) (r : ItlReq) (status : Nat) (b : Bytes) : Prop :=
  (u.requester r.path).busy = none ∧ (u.requester r.path).rspRest = (cutParts 4032 b).drop 1 ∧
  ∃ m, received s u r.path m ∧ hdF m 2 2 = r.op.toNat ∧ hdF m 4 4 = r.reqId.toNat ∧ hdF m 0x0A 2 = status ∧
    hdF m 0x0C 2 = r.cid.toNat ∧ m.drop 64 = b.take 4032

/-- A long command was accepted (R392): STATUS IT_ACCEPTED and the operation under way. -/
def isUnderWay (s u : State) (r : ItlReq) (key : Nat) : Prop :=
  responds s u r 1 [] ∧ (u.requester r.path).longOp =
    some ⟨r.op.toNat, r.reqId, if noComposition r.op.toNat r.cid r.payload then 0 else r.cid, key⟩

/-- Itlum holds a change for the boundary, after which the response follows (R400). -/
def awaits (u : State) (r : ItlReq) (c : Change) (block : Nat) : Prop :=
  u.itl.held = some { path := some r.path, req := some r, change := c, block := block }

/-- A whole request of one message that passes checks 1 to 6 of R391. -/
def soundRequest (s : State) (p : Path) (m : Bytes) : Prop :=
  crcBad m = false ∧ headerBad m (opInfo (hdF m 2 2)) = false ∧ lengthBad m (opInfo (hdF m 2 2)) = false ∧
  ((opInfo (hdF m 2 2)).any fun i => decide (i.multi = .one) &&
    (s.originBad p (hdF m 2 2) i (BitVec.ofNat 16 (hdF m 0x0C 2)) ((m.drop 64).take (hdF m 8 2))).isNone) = true ∧
  (s.requester p).keptId ≠ some (BitVec.ofNat 32 (hdF m 4 4))

/-- The message is its path's request now, the last in the order of arrival. -/
def takenIn (s u : State) (p : Path) (m : Bytes) : Prop :=
  u.itl.order = s.itl.order ++ [p] ∧ ∃ r, (u.requester p).busy = some r ∧ r.path = p ∧ r.op.toNat = hdF m 2 2 ∧
    r.reqId.toNat = hdF m 4 4 ∧ r.cid.toNat = hdF m 0x0C 2 ∧ r.part = hdF m 0x0F 1 ∧ r.owner.toNat = hdF m 0x10 8 ∧
    r.lease.toNat = hdF m 0x18 4 ∧ r.payload = (m.drop 64).take (hdF m 8 2)

/-- A message answered with a STATUS, its path's request and order of arrival as before. -/
def turnedAway (s u : State) (p : Path) (m : Bytes) (status : Nat) : Prop :=
  u.itl = s.itl ∧ ∃ a, received s u p a ∧ hdF a 2 2 = hdF m 2 2 ∧ hdF a 4 4 = hdF m 4 4 ∧ hdF a 0x0A 2 = status ∧ a.drop 64 = []

/-- R384, R386, R388, R389, R391, R394: a sound request is taken in: at ITL_CTRL.GO from a mailbox that is not busy; from
one of at most four MCTP requesters that are served at once; from a peer; from the site within a secured session of its own.
A message whose CRC is wrong is answered 0x0101, one on a path that waits for a response 0x0202. A GO while busy or without
Itlum is counted and nothing more. ITL_NTF_CONS takes a value at most 64 behind PROD. DISCARD and 1 s without a part drop
what is staged. -/
def Obligations.MessagesAreTakenIn : Prop :=
  ∀ s : State,
    (∀ (h : HPortIx) (f : FuncIx), let x := (s.func h.val f.val).mail
      Does (.mailboxGo h f) s fun u =>
        (x.busy = true ∨ s.itl.avail = false → u.itl = s.itl ∧
          (u.func h.val f.val).mail = { x with err := { x.err with order := satInc x.err.order } }) ∧
        (x.busy = false ∧ s.itl.avail = true ∧ soundRequest s (.mailbox h f) x.request →
          takenIn s u (.mailbox h f) x.request ∧ (u.func h.val f.val).mail = { x with busy := true, done := false }) ∧
        (x.busy = false ∧ s.itl.avail = true ∧ crcBad x.request = true →
          turnedAway s u (.mailbox h f) x.request 0x0101)) ∧
    (∀ (h : HPortIx) (f : FuncIx), let x := s.requester (.mailbox h f)
      Does (.mailboxDiscard h f) s fun u =>
        u.requester (.mailbox h f) = { x with staging := false, staged := [], nextPart := 0, rspRest := [] }) ∧
    (∀ (h : HPortIx) (f : FuncIx) (v : Word), let x := (s.func h.val f.val).mail
      Does (.itlNtfConsWrite h f v) s fun u => (u.func h.val f.val).mail =
        if 64 < (x.prod - v).toNat then { x with err := { x.err with order := satInc x.err.order } } else { x with cons := v }) ∧
    (∀ (e : BitVec 8) (m : Bytes), s.serves (.mctp e) (hdF m 2 2) = true →
      (s.mctpActive.filter fun p => decide (p ≠ .mctp e)).length < 4 → Does (.mctpMessage e m) s fun u =>
        ((s.requester (.mctp e)).busy = none ∧ soundRequest s (.mctp e) m → takenIn s u (.mctp e) m) ∧
        ((s.requester (.mctp e)).busy ≠ none → turnedAway s u (.mctp e) m 0x0202) ∧
        ((s.requester (.mctp e)).busy = none ∧ crcBad m = true → turnedAway s u (.mctp e) m 0x0101)) ∧
    (∀ (port : LPort) (k : BitVec 14) (m : Bytes), s.itl.avail = true → (s.requester (.peer k)).busy = none → soundRequest s (.peer k) m →
      Does (.peerMessage (port, k) m) s fun u => takenIn s u (.peer k) m) ∧
    (∀ m : Bytes, s.itl.avail = true → (s.requester .site).busy = none → soundRequest s .site m →
      Does (.siteSessionMessage m) s fun u =>
        if s.liveSessions.any fun x => x.finished && x.site then takenIn s u .site m else u = s) ∧
    (∀ p : Path, Does (.partStagingTimeout p) s fun u => (u.requester p).staging = false ∧ (u.requester p).staged = [] ∧
      (u.requester p).rspRest = [] ∧ (u.requester p).busy = (s.requester p).busy)

/-- R246 to R249, R403: ACQUIRE takes a lease that nobody holds, under the next LEASE_EPOCH of the CID (1 after all ones), to
expire DURATION epochs from now; RENEW moves the expiry; TRANSFER gives it to OWNER under the next epoch; RELEASE ends it
where no context is resident, else it is ORPHANED from now, as by BREAK; BREAK of an orphaned one is the end of its grace.
GRACE sets the grace period. All but GRACE answer with the record as it then is. -/
def Obligations.LeasesChangeHands : Prop :=
  ∀ (p : Path) (s : State) (r : ItlReq),
    let l := s.lease r.cid
    let e := Tab.get (fun _ => (0 : Word)) s.brd.lastEpoch r.cid.toNat
    let next : Word := if e = BitVec.allOnes 32 then 1 else e + 1
    let d := hdF r.payload 0 2
    let room := (Tab.find s.brd.leases r.cid.toNat).isSome = true ∨ s.brd.leases.length < 512
    (passes s p 0x0201 (reservedOk r.payload [(0, 0, 16), (2, 0, 2), (4, 0, 16)] && durationOk r.payload &&
        s.destOk r.payload 2 false) r → s.composeOff = false → l.st ≠ .held → room → Does (.leaseAcquire p) s fun u =>
      u.lease r.cid = { l with
        st := .held, owner := r.owner, epoch := next, expiry := s.now + d * period, duration := d,
        dest := destOf r.payload 2 .boundFunction } ∧ responds s u r 0 (u.leaseBytes r.cid)) ∧
    (passes s p 0x0202 (reservedOk r.payload [(0, 0, 16)] && durationOk r.payload) r → Does (.leaseRenew p) s fun u =>
      u.lease r.cid = { l with expiry := s.now + d * period, duration := d } ∧ responds s u r 0 (u.leaseBytes r.cid)) ∧
    (passes s p 0x0203 (reservedOk r.payload [(0, 0, 64), (8, 0, 2), (10, 0, 16)] && s.destOk r.payload 8 true) r →
      Does (.leaseTransfer p) s fun u =>
        u.lease r.cid = { l with
          owner := BitVec.ofNat 64 (hdF r.payload 0 8), epoch := next, dest := destOf r.payload 8 l.dest } ∧
        responds s u r 0 (u.leaseBytes r.cid)) ∧
    (passes s p 0x0204 (reservedOk r.payload []) r → rising s.brd.leases → Does (.leaseRelease p) s fun u =>
      (u.lease r.cid).st = (if (s.residents r.cid).isEmpty then .none else .orphaned) ∧
      ((s.residents r.cid).isEmpty = false → (u.lease r.cid).orphanedAt = s.now) ∧ responds s u r 0 (u.leaseBytes r.cid)) ∧
    (passes s p 0x0205 (reservedOk r.payload []) r → rising s.brd.leases → Does (.leaseBreak p) s fun u =>
      (u.lease r.cid).st = (if l.st = .held then .orphaned else .none) ∧
      (l.st = .held → (u.lease r.cid).orphanedAt = s.now) ∧ responds s u r 0 (u.leaseBytes r.cid)) ∧
    (passes s p 0x0207 (reservedOk r.payload [(0, 0, 10)] &&
        decide (1 ≤ payF r.payload 0 2 0 10 ∧ payF r.payload 0 2 0 10 ≤ 1000)) r → Does (.leaseGrace p) s fun u =>
      u.brd.grace.toNat = payF r.payload 0 2 0 10 ∧ responds s u r 0 [])

/-- R228, R254, R378, R402, R404, R464, R485, R523: LEASE_QUERY, INVENTORY, BRIDLE_QUERY, TELEMETRY, RECOVERY_QUERY,
CAD_QUERY and FQ_STATUS answer with what they ask for, as the sender may see it, and the queried block stays as it
is; PWR_QUERY without an episode from FROM on answers the figures; METER_RECORD answers the next record of the
composition's slot with both signatures and counts it, where the RTP can sign. -/
def Obligations.QueriesAnswer : Prop :=
  ∀ (p : Path) (s : State) (r : ItlReq), let tenant := decide (originOf r.path = 0)
    (passes s p 0x0206 (reservedOk r.payload []) r → Does (.leaseQuery p) s fun u =>
      u.brd = s.brd ∧ responds s u r 0 (s.leaseBytes r.cid)) ∧
    (passes s p 0x0101 (reservedOk r.payload []) r → Does (.inventory p) s fun u => responds s u r 0 s.inventory) ∧
    (passes s p 0x0103 (reservedOk r.payload []) r → Does (.bridleQuery p) s fun u =>
      u.brd = s.brd ∧ responds s u r 0 (s.imageBytes r.cid)) ∧
    (passes s p 0x0102 (reservedOk r.payload []) r → Does (.telemetry p) s fun u =>
      responds s u r 0 (s.telemetry tenant r.cid)) ∧
    (passes s p 0x0902 (reservedOk r.payload []) r → Does (.recoveryQuery p) s fun u =>
      u.rcv = s.rcv ∧ responds s u r 0 (s.recoveryBytes tenant r.cid)) ∧
    (passes s p 0x0702 (reservedOk r.payload []) r → Does (.cadQuery p) s fun u =>
      u.cad = s.cad ∧ responds s u r 0 (s.cadBytes tenant)) ∧
    (∀ k, passes s p 0x0408 (reservedOk r.payload []) r → s.slotOf r.cid = some k → Does (.fqStatus p) s fun u =>
      let f := s.fqRo k
      let cs := s.ovfCtxs r.cid
      u.que = s.que ∧ responds s u r 0 (toBytes 4 f.next.toNat ++ toBytes 4 f.acked.toNat ++ toBytes 4 f.dropped.toNat ++
        toBytes 2 (if f.movf then 1 else 0) ++ toBytes 2 cs.length ++ cs.flatMap fun c => toBytes 2 c.toNat)) ∧
    (passes s p 0x0602 (reservedOk r.payload [(0, 0, 32)]) r → s.pwr.episodes = [] → Does (.pwrQuery p) s fun u =>
      u.pwr = s.pwr ∧ responds s u r 0 (s.pwrFigures tenant)) ∧
    (∀ k b t, passes s p 0x0302 (reservedOk r.payload []) r → s.slotOf r.cid = some k → s.takeMeter k 0 = some (b, t) →
      Does (.meterRecord p) s fun u => responds s u r 0 b ∧ (u.meter k).seq = (s.meter k).seq + 1)

/-! ### Compositions, contexts and queues by command -/

/-- R229, R230, R400, R402: an image whose sender holds the lease, whose EXPECT is the epoch, whose bytes decode, that no
refusal of R229 meets and whose values every block's check passes, is committed as one: it waits for the boundary with the
slot bound in the pending values, and every active value stays until then. UNBIND does so with an image of no entries, and
answers at once where no slot is bound. -/
def Obligations.ImagesCommitAsOne : Prop :=
  ∀ (p : Path) (s : State) (r : ItlReq),
    let o := s.image r.cid
    let k := ((s.slotOf r.cid).orElse fun _ => s.freeSlotNo).getD 0
    let stands := fun (n : Image) (g : Tab Igrp) (b : Nat) =>
      let gone := s.removed (s.slotOf r.cid) o n
      s.recoveringFor n = false ∧ s.recoveringFor o = false ∧ n.entries.any s.untrained = false ∧
      s.imageRefusal r.cid (s.slotOf r.cid) s.freeSlotNo o n gone = none ∧ s.newGroups o n gone = some g ∧
      s.findRun k n.nwin = some b ∧
      ((s.preparePending k r.cid o n g b).allCheck (fun j => if j = k then n.nwin else s.slotNwin j)
        fun t b => (s.bank t b).cid) = none
    let holds := fun (u : State) (n : Image) =>
      awaits u r (.image r.cid n k (s.removed (s.slotOf r.cid) o n) (s.slotOf r.cid).isNone) 5 ∧ u.brd.waiting = true ∧
      u.brd.sh.acc = some { s.brd.sh.pend with slots := Tab.insert s.brd.sh.pend.slots k (true, r.cid) } ∧
      u.brd.sh.act = s.brd.sh.act ∧ u.xlt.sh.act = s.xlt.sh.act ∧ u.lp.sh.act = s.lp.sh.act ∧ u.fab.sh.act = s.fab.sh.act
    (∀ n g b, passesCommit s p 0x0301 ((r.payload.drop (64 + 32 * hdF r.payload 2 2)).all fun b => decide (b = 0)) r →
      s.composeOff = false → hdF r.payload 8 8 = r.owner.toNat → hdF r.payload 0x10 4 = r.lease.toNat →
      hdF r.payload 4 4 = (s.epochOfCid r.cid).toNat → decodeImage r.payload r.cid = .ok n → stands n g b →
        Does (.bridleImage p) s fun u => holds u n) ∧
    (passesCommit s p 0x0303 (reservedOk r.payload []) r → s.slotOf r.cid = none →
      Does (.unbind p) s fun u => u.brd = s.brd ∧ responds s u r 0 []) ∧
    (∀ g b, let n := { o with ctabV := false, ctab := 0, entries := [] }
      passesCommit s p 0x0303 (reservedOk r.payload []) r → s.slotOf r.cid ≠ none → stands n g b →
        Does (.unbind p) s fun u => holds u n)

/-- R238, R243, R403: SPARE_HOLD of an ACTIVE pair in no group marks it a spare that is being cleared; SPARE_FREE gives back a
ready spare that nothing uses; PAIR_MOVE starts the copy from an ACTIVE or DEGRADED pair to a ready spare of its half that
nothing uses, at RATE, from its first line, as a long command. (A command's one-byte pair numbers: log entry 34.) -/
def Obligations.SparesAndMoves : Prop :=
  ∀ (p : Path) (s : State) (r : ItlReq),
    let a := hdF r.payload 0 1
    let b := hdF r.payload 1 1
    let x := s.pair a
    (passes s p 0x0304 (reservedOk r.payload [(0, 0, 8)] && pairByte r.payload 0) r → s.recovering (a / 96) = false →
      x.st = .active → x.siteSpare = false → s.pairBusy a = false → s.pairBound a = false → s.notFree (.pair a) = false →
        Does (.spareHold p) s fun u => u.pair a = { x with siteSpare := true } ∧
          u.brd = { s.brd with res := s.brd.res ++ [(.pair a, 0, .clearing)] } ∧ responds s u r 0 []) ∧
    (passes s p 0x0305 (reservedOk r.payload [(0, 0, 8)] && pairByte r.payload 0) r → s.recovering (a / 96) = false →
      x.st = .spareReady → x.siteSpare = true → s.pairBusy a = false → s.pairBound a = false → s.taken a = false →
        Does (.spareFree p) s fun u => u.pair a = { x with siteSpare := false, st := .active } ∧ responds s u r 0 []) ∧
    (passes s p 0x0306 (reservedOk r.payload [(0, 0, 8), (1, 0, 8), (2, 0, 4)] && pairByte r.payload 0 &&
        pairByte r.payload 1 && decide (1 ≤ hdF r.payload 2 1 ∧ hdF r.payload 2 1 ≤ 8)) r →
      s.recovering (a / 96) = false → a / 96 = b / 96 → (x.st = .active ∨ x.st = .degraded) → s.notFree (.pair a) = false →
      (s.pair b).st = .spareReady → s.taken b = false → s.pairBusy a = false → s.pairBusy b = false →
      ((s.moveH (a / 96)).st ≠ .copying ∧ (s.moveH (a / 96)).st ≠ .switching ∧ (s.moveH (a / 96)).st ≠ .clearing) →
        Does (.pairMove p) s fun u => u.moveH (a / 96) = { s.moveH (a / 96) with
          regSrc := BitVec.ofNat 8 a, regDst := BitVec.ofNat 8 b, regRate := BitVec.ofNat 4 (hdF r.payload 2 1),
          src := BitVec.ofNat 8 a, dst := BitVec.ofNat 8 b, rate := BitVec.ofNat 4 (hdF r.payload 2 1), st := .copying,
          cursor := 0 } ∧ isUnderWay s u r (a / 96))

/-- R351 to R354, R356: a CTX_LOAD that no refusal of R353 meets commits the lowest free resident entry with its CTX, CID and
LIMIT, and (of one bank entry) the bank's share, and waits for the boundary; CTX_EVICT of a resident context (by FORCE, or not
busy) purges its banks as a long command; once none is left, its residency and the command end. OBJ_TABLE of a composition
whose present table has no reference, at MPA that fit it, is a long command, at whose end the table is in place. -/
def Stated.ContextsAndTables : Prop :=
  ∀ (p : Path) (s : State) (r : ItlReq),
    let ctx : Ctx := BitVec.ofNat 12 (payF r.payload 0 2 0 12)
    let es := loadEntries r.payload
    let n := { s.que.sh.pend with
      res := Tab.insert s.que.sh.pend.res s.freeRes ⟨true, ctx, r.cid, BitVec.ofNat 10 (payF r.payload 2 2 0 10)⟩ }
    (passesCommit s p 0x0401 (reservedOk r.payload [(0, 0, 12), (2, 0, 10), (4, 0, 10), (8, 0, 32 * payF r.payload 4 2 0 10)] &&
        decide (1 ≤ payF r.payload 4 2 0 10 ∧ payF r.payload 4 2 0 10 ≤ 512)) r → s.composeOff = false →
      (es.any fun e => s.recovering (e.ltile / 256)) = false → s.ctxBusy r.cid ctx = false →
      s.loadRefusal r.cid ctx (payF r.payload 2 2 0 10) es = none → queCheck n = none → Does (.ctxLoad p) s fun u =>
        u.itl.held.isSome = true ∧ u.que.sh.act = s.que.sh.act ∧
        u.que.sh.acc = some n ∧
        ∀ e t, es = [e] → s.physTile e.ltile = some t → awaits u r (.ctxLoad r.cid ctx s.freeRes [(t, e.bank)]) 7 ∧
          (u.tile t).srm.sh.acc = some ((s.tile t).srm.sh.pend.withShare e) ∧ (u.tile t).srm.sh.act = (s.tile t).srm.sh.act) ∧
    (passes s p 0x0402 (reservedOk r.payload [(0, 0, 12), (2, 0, 1)]) r →
      ((s.ctxBanks r.cid ctx).any fun x => s.recovering (x.1 / 272)) = false → s.ctxBusy r.cid ctx = false →
      s.resOf r.cid ctx ≠ none → (payF r.payload 2 1 0 1 = 1 ∨ s.ctxActive r.cid ctx = false) →
        Does (.ctxEvict p) s fun u => isUnderWay s u r ctx.toNat ∧ ∀ t b, b < 4 → (s.bank t b).st ≠ .empty →
          (s.bank t b).cid = r.cid → (s.bank t b).ctx = ctx → (u.bank t b).st = .purging) ∧
    (∀ (cid : Cid) (c : Ctx) (e : Nat), s.longOn (fun o => decide (o.op = 0x0402 ∧ o.cid = cid ∧ o.key = c.toNat)) = true →
      s.ctxBanks cid c = [] → s.resOf cid c = some e → Does (.ctxEvictDone cid c) s fun u =>
        u.que.sh.act.res = Tab.erase s.que.sh.act.res e ∧
        u.longOn (fun o => decide (o.op = 0x0402 ∧ o.cid = cid ∧ o.key = c.toNat)) = false) ∧
    (passes s p 0x0403 (reservedOk r.payload [(0, 0, 46), (8, 0, 5)] &&
        decide (10 ≤ payF r.payload 8 1 0 5 ∧ payF r.payload 8 1 0 5 ≤ 24)) r → s.slotOf r.cid ≠ none →
      s.recovering 0 = false → s.recovering 1 = false → s.tableOp r.cid = none → s.tableHeld r.cid = false →
      s.tableFits r.cid (payF r.payload 0 8 0 46) (payF r.payload 8 1 0 5) = true → Does (.objTable p) s fun u =>
        u.que = s.que ∧ isUnderWay s u r (payF r.payload 0 8 0 46 + payF r.payload 8 1 0 5 * 2 ^ 46)) ∧
    (∀ (cid : Cid) (o : LongOp), s.tableOp cid = some o → s.slotOf cid ≠ none → s.tableHeld cid = false →
      Does (.objTableDone cid) s fun u => u.objTab cid = some ⟨BitVec.ofNat 46 (o.key % 2 ^ 46), o.key / 2 ^ 46⟩)

/-- R362 to R364, R376, R399, R400: Q_REGISTER from a mailbox, where no condition of R362 refuses it, commits its entry with
the lease epoch and the sender's function; Q_UNREGISTER commits its end, FQ_SET the fault queue of the composition's slot;
each waits for the boundary, every active value as before. Q_RESUME of a queue STOPPED or BROKEN moves HEAD to a place from
HEAD to TAIL and the queue is RUNNING where its status line can be written. -/
def Stated.QueuesAreSetUp : Prop :=
  ∀ (p : Path) (s : State) (r : ItlReq),
    let b := r.payload
    let que := fun (u : State) (n : QueSh) => u.que.sh.acc = some n ∧ u.que.sh.pend = n ∧ u.que.sh.act = s.que.sh.act
    (∀ h f e k, let q : QSh := {
        valid := true, qctx := BitVec.ofNat 12 (payF b 2 2 0 12), qnum := BitVec.ofNat 12 (payF b 0 2 0 12),
        slot := BitVec.ofNat 9 k, sizeLog2 := BitVec.ofNat 5 (payF b 6 1 0 5), ven := decide (payF b 6 1 5 1 = 1),
        vector := BitVec.ofNat 10 (payF b 8 2 0 10), hport := decide (h.val = 1), func := BitVec.ofNat 9 f.val,
        ring := BitVec.ofNat 64 (hdF b 0x10 8), cpl := BitVec.ofNat 64 (hdF b 0x18 8),
        stat := BitVec.ofNat 64 (hdF b 0x20 8), lease := (s.lease r.cid).epoch }
      let n := { s.que.sh.pend with q := Tab.insert s.que.sh.pend.q e q }
      p = .mailbox h f → passesCommit s p 0x0404 (reservedOk b
        [(0, 0, 12), (2, 0, 12), (4, 0, 9), (6, 0, 6), (8, 0, 10), (0x10, 0, 64), (0x18, 0, 64), (0x20, 0, 64)]) r →
      s.recovering (payF b 4 2 0 9 / 256) = false → s.ctxBusy r.cid (BitVec.ofNat 12 (payF b 2 2 0 12)) = false →
      s.registerEntry r.cid b = .inr e → s.slotOf r.cid = some k → queCheck n = none → Does (.qRegister p) s fun u =>
        awaits u r (.qRegister e) 7 ∧ que u n) ∧
    (∀ e, let n := { s.que.sh.pend with q := Tab.erase s.que.sh.pend.q e }
      passesCommit s p 0x0405 (reservedOk b [(0, 0, 12)]) r → s.queueNamed r.cid (payF b 0 2 0 12) = some e →
      s.recovering (e / 16 / 256) = false → queCheck n = none → Does (.qUnregister p) s fun u =>
        awaits u r (.qUnregister e) 7 ∧ que u n) ∧
    (∀ k, let n := { s.que.sh.pend with fq := Tab.insert s.que.sh.pend.fq k {
          base := BitVec.ofNat 52 (hdF b 0 8 / 4096), en := decide (payF b 8 1 0 1 = 1), ven := decide (payF b 8 1 1 1 = 1),
          vector := BitVec.ofNat 10 (payF b 0x0A 2 0 10) } }
      passesCommit s p 0x0407 (reservedOk b [(0, 12, 52), (8, 0, 2), (0x0A, 0, 10)]) r → s.slotOf r.cid = some k →
      queCheck n = none → Does (.fqSet p) s fun u => awaits u r (.fqSet k) 7 ∧ que u n) ∧
    (∀ e, let q := s.qRo e
      let head : Word := BitVec.ofNat 32 (hdF b 4 4)
      let t := (s.modQ e fun x => { x with head := head }).modQ e fun x => { x with st := .running }
      passes s p 0x0406 (reservedOk b [(0, 0, 12), (4, 0, 32)]) r → s.queueNamed r.cid (payF b 0 2 0 12) = some e →
      s.recovering (e / 16 / 256) = false → (q.st = .stopped ∨ q.st = .broken) →
      (head - q.head).toNat ≤ (q.tail - q.head).toNat → (t.statusWrite e).1 = true → Does (.qResume p) s fun u =>
        (u.qRo e).head = head ∧ (u.qRo e).st = .running ∧ responds s u r 0 [])

/-- R351 to R354, R356: a CTX_LOAD that no refusal of R353 meets commits the lowest free resident entry with its CTX, CID
and LIMIT, and (of one bank entry) the bank's share, and waits for the boundary; CTX_EVICT of a resident context (by
FORCE, or not busy) purges its banks as a long command; once none is left, its residency and the command end.
OBJ_TABLE of a composition whose present table has no reference, at MPA that fit it, is a long command, at whose end
the table is in place. R362 to R364, R376, R399, R400: Q_REGISTER from a mailbox, where no condition of R362 refuses
it, commits its entry with the lease epoch and the sender's function; Q_UNREGISTER commits its end, FQ_SET the fault
queue of the composition's slot; each waits for the boundary, every active value as before. Q_RESUME of a queue
STOPPED or BROKEN moves HEAD to a place from HEAD to TAIL and the queue is RUNNING where its status line can be
written. -/
def Obligations.ContextsTablesAndQueues : Prop := Stated.ContextsAndTables ∧ Stated.QueuesAreSetUp


/-! ### Fabric, memory, cadence, power and recovery by command -/

/-- R283, R287, R311, R320, R322 to R324, R399, R400: MODULE_NUMBER, ROUTE_SET, WIN_SET, WIN_CLEAR, COLL_SET and COLL_CLEAR,
whose FAB values the block's check passes, and LINK_EXPECT of a port below 48 to another module, wait for the boundary with
those values; the active values stay. (Payload layouts: log entry 34.) -/
def Stated.FabricChangesCommit : Prop :=
  ∀ (p : Path) (s : State) (r : ItlReq),
    let b := r.payload
    let a := s.fab.sh.pend
    let passed := fun (n : FabSh) => s.anyRecovering = false ∧
      s.fabCheck n s.slotNwin s.brd.sh.act.bound s.brd.sh.act.cidBound = none
    let waits := fun (u : State) (n : FabSh) (c : Change) =>
      awaits u r c 6 ∧ u.fab.sh.act = s.fab.sh.act ∧ u.fab.sh.pend = n ∧ u.fab.sh.acc = some n
    (let n := { a with id := ⟨decide (payF b 0 4 31 1 = 1), BitVec.ofNat 14 (payF b 0 4 0 14)⟩ };
      passesCommit s p 0x0501 (reservedOk b [(0, 0, 14), (0, 31, 1)]) r → passed n →
        Does (.moduleNumber p) s fun u => waits u n .commitOnly) ∧
    (let n := { a with
        route := (List.range (b.length / 16)).foldl (fun t i => Tab.insert t (routeEntry b (16 * i)).1 (routeEntry b (16 * i)).2)
          a.route };
      passesCommit s p 0x0502 (decide (b.length % 16 = 0) && reservedOk b (routeFields (b.length / 16))) r → passed n →
        Does (.routeSet p) s fun u => waits u n .commitOnly) ∧
    (∀ i, let n := { a with win := Tab.insert a.win i {
          valid := true, rights := BitVec.ofNat 3 (payF b 1 1 0 3), scope := decide (payF b 1 1 3 1 = 1),
          ctx := BitVec.ofNat 12 (payF b 2 2 0 12), cid := r.cid, size := BitVec.ofNat 16 (hdF b 4 4),
          root := BitVec.ofNat 34 (payF b 8 8 12 34) } }
      passesCommit s p 0x0505 (reservedOk b [(0, 0, 8), (1, 0, 4), (2, 0, 12), (4, 0, 32), (8, 12, 34)] &&
        decide (1 ≤ hdF b 4 4 ∧ hdF b 4 4 ≤ 32768)) r → s.winNamed r.cid (hdF b 0 1) = some i → s.winBusy i = false →
      passed n → Does (.winSet p) s fun u => waits u n (.winSet i)) ∧
    (∀ i, let n := { a with win := Tab.erase a.win i }
      passesCommit s p 0x0506 (reservedOk b [(0, 0, 8)]) r → s.winNamed r.cid (hdF b 0 1) = some i → s.winBusy i = false →
      passed n → Does (.winClear p) s fun u => waits u n (.winClear i)) ∧
    (∀ c, let e := collOfBytes r.cid b
      let n := { a with coll := Tab.insert a.coll c e }
      passesCommit s p 0x0508 (reservedOk b [(0, 0, 32), (0, 58, 2), (0, 63, 1), (8, 0, 58), (0x10, 0, 36), (0x10, 40, 14),
        (0x10, 55, 1), (0x18, 0, 64), (0x20, 0, 64)]) r → s.collSlot r.cid e.collId = some c →
      Tab.find s.fab.collLater c = none → s.collFenceFits e = true → passed n →
        Does (.collSet p) s fun u => waits u n (.collSet c)) ∧
    (∀ c, let n := { a with coll := Tab.erase a.coll c }
      passesCommit s p 0x0509 (reservedOk b [(0, 0, 16)]) r → s.collOf r.cid (BitVec.ofNat 16 (hdF b 0 2)) = some c →
      Tab.find s.fab.collLater c = none → passed n → Does (.collClear p) s fun u => waits u n (.collClear c)) ∧
    (let k := hdF b 0 1
      let e : LnkExpect := {
        en := decide (payF b 4 4 31 1 = 1), module := BitVec.ofNat 14 (payF b 4 4 6 14), port := BitVec.ofNat 6 (payF b 4 4 0 6) }
      passesCommit s p 0x0503 (reservedOk b [(0, 0, 8), (4, 0, 20), (4, 31, 1)] && decide (hdF b 0 1 < 48)) r →
      s.recovering (k / 24) = false → e.port.toNat < 48 → (s.fab.sh.act.id.valid = true → e.module ≠ s.module) →
        Does (.linkExpect p) s fun u => awaits u r .commitOnly 8 ∧ (u.port k).expect.acc = some e ∧
          (u.port k).expect.act = (s.port k).expect.act ∧ u.fab = s.fab)

/-- R295, R298, R403: FAB_TIMEOUT sets the timeout at once; WIN_INVAL drops the translations of its range under the window
and waits, as a long command, for the requests that used them; once no old request of a window is left, the commands that
waited for it end. MEM_WRITE writes its lines one by one, MEM_READ answers with them, where every target admits the context
(of one line in SRAM: these bytes and no others; the line's bytes as they stand). -/
def Stated.WindowDrainsAndMemory : Prop :=
  ∀ (p : Path) (s : State) (r : ItlReq),
    let b := r.payload
    let mpa := payF b 0 8 0 46
    let n := hdF b 0x0C 2 / 64
    let w := Who.of r.cid (BitVec.ofNat 12 (payF b 8 2 0 12))
    (passes s p 0x0504 (reservedOk b [(0, 0, 10)] && decide (1 ≤ payF b 0 2 0 10 ∧ payF b 0 2 0 10 ≤ 512)) r →
      s.anyRecovering = false → Does (.fabTimeout p) s fun u =>
        u.fab = { s.fab with timeout := BitVec.ofNat 10 (payF b 0 2 0 10) } ∧ responds s u r 0 []) ∧
    (∀ i, let lo := payF b 8 8 0 36
      let k := hdF b 0x10 8
      let hits := fun (base log2 : Nat) => decide (base < lo + k ∧ lo < base + 2 ^ log2)
      passes s p 0x0507 (reservedOk b [(0, 0, 8), (8, 0, 36), (0x10, 0, 64)] && decide (1 ≤ hdF b 0x10 8)) r →
      s.winNamed r.cid (hdF b 0 1) = some i → s.anyRecovering = false → s.winBusy i = false →
        Does (.winInval p) s fun u => isUnderWay s u r i ∧ u.fab.drains = s.fab.drains ++ [⟨i, r.cid, none⟩] ∧
          (∀ x ∈ s.fab.winLook, x.cid = r.cid → x.ctx = BitVec.ofNat 12 (hdF b 0 1) → hits x.base x.log2 = true →
            x ∉ u.fab.winLook) ∧
          ∀ q ∈ u.fab.winReqs, q.window = i → hits q.via.1 q.via.2 = true → q.old = true) ∧
    (∀ (v : Fin 16384) (d : WinDrain), (s.fab.drains.filter fun d => decide (d.window = v.val)) = [d] →
      (s.fab.winReqs.any fun q => decide (q.window = v.val) && q.old) = false → Does (.windowDrainDone v) s fun u =>
        u.fab = { s.fab with drains := s.fab.drains.filter fun d => decide (d.window ≠ v.val) } ∧
        (d.path = none → ∀ op, op = 0x0506 ∨ op = 0x0507 →
          u.longOn (fun o => decide (o.op = op ∧ o.cid = d.cid ∧ o.key = v.val)) = false) ∧
        ∀ q e, d.path = some q → (s.requester q).busy = some e → e.path = q → responds s u e 0 []) ∧
    (∀ t, passes s p 0x050A (reservedOk b [(0, 0, 46), (8, 0, 12), (0x0C, 0, 16), (0x40, 0, 8 * hdF b 0x0C 2)] && memOk 3968 b) r →
      s.linesRecover mpa n = false → s.firstRefused w .wr mpa n = none → s.writeLines w mpa (b.drop 0x40) 0 n = (none, t) →
        Does (.memWrite p) s fun u => u.mem = t.mem ∧ responds s u r 0 [] ∧
          ∀ x off, n = 1 → s.place mpa = .sram x off → MemoryCanonical s →
            onlyStored s u x off 64 fun i => b.getD (0x40 + i) 0) ∧
    (∀ ecc x t, passes s p 0x050B (reservedOk b [(0, 0, 46), (8, 0, 12), (0x0C, 0, 16)] && memOk 4032 b) r →
      s.linesRecover mpa n = false → s.firstRefused w .rd mpa n = none → s.readLines w mpa ecc 0 n = (none, x, t) →
        Does (.memRead p ecc) s fun u => responds s u r 0 x ∧
          ∀ t off, n = 1 → s.place mpa = .sram t off → ecc = .clean → x = s.bytesAt (sramKey t off) 64)

/-- R283, R287, R311, R320, R322 to R324, R399, R400: MODULE_NUMBER, ROUTE_SET, WIN_SET, WIN_CLEAR, COLL_SET and
COLL_CLEAR, whose FAB values the block's check passes, and LINK_EXPECT of a port below 48 to another module, wait for
the boundary with those values; the active values stay. (Payload layouts: log entry 34.) R295, R298, R403: FAB_TIMEOUT
sets the timeout at once; WIN_INVAL drops the translations of its range under the window and waits, as a long command,
for the requests that used them; once no old request of a window is left, the commands that waited for it end.
MEM_WRITE writes its lines one by one, MEM_READ answers with them, where every target admits the context (of one line
in SRAM: these bytes and no others; the line's bytes as they stand). -/
def Obligations.FabricAndMemoryCommands : Prop := Stated.FabricChangesCommit ∧ Stated.WindowDrainsAndMemory

/-- R464, R466, R469, R484: CAD_SET within R467 commits MODE and NOMINAL, with ADOPT_LOWER where CONFLICT holds and no slot is
bound; PWR_SET within R470 commits the words of its MASK; both wait for the boundary. RECOVER's five actions are long
commands: purge a context's banks, isolate a tile, recover a half or the module, set the hang limit (which ends at once). -/
def Obligations.CadencePowerAndRecoveryCommands : Prop :=
  ∀ (p : Path) (s : State) (r : ItlReq),
    let b := r.payload
    let adopt := decide (payF b 0 1 2 1 = 1)
    let ctx : Ctx := BitVec.ofNat 12 (payF b 2 2 0 12)
    let act := fun (a : Nat) => passes s p 0x0901 (recoverOk b) r ∧ hdF b 0 1 = a
    (let c : CadSh := ⟨BitVec.ofNat 2 (payF b 0 1 0 2), BitVec.ofNat 20 (payF b 4 3 0 20)⟩;
      passesCommit s p 0x0701 (reservedOk b [(0, 0, 3), (4, 0, 20)]) r → s.moduleRecovering = false → c.mode ≠ 3 →
      1000 ≤ c.nominal.toNat → c.nominal.toNat ≤ 1000000 →
      (adopt = true → s.cad.st = .conflict ∧ (s.brd.sh.act.slots.any fun e => e.2.1) = false) → Does (.cadSet p) s fun u =>
        awaits u r .cadence 9 ∧ u.cad = { s.cad with
          sh := { s.cad.sh with pend := c, acc := some c }, lastRefusal := 0, adoptLower := adopt || s.cad.adoptLower }) ∧
    (let n := pwrSetOf s.pwr.sh.pend b;
      passesCommit s p 0x0601 (reservedOk b pwrFields) r → s.moduleRecovering = false → pwrCheck n = none →
        Does (.pwrSet p) s fun u => awaits u r .power 0xA ∧ u.pwr.sh = { s.pwr.sh with pend := n, acc := some n }) ∧
    (act 1 → s.resOf r.cid ctx ≠ none → s.ctxBusy r.cid ctx = false →
      (∀ x ∈ s.ctxBanks r.cid ctx, s.covered (x.1 / 272) = false ∧ (s.rcv.isolations.any fun i => decide (i.tile = x.1)) = false ∧
        (s.bank x.1 x.2).st ≠ .purging) → Does (.recoverPurge p) s fun u => responds s u r 1 [] ∧
          ∀ t c, c < 4 → (s.bank t c).st ≠ .empty → (s.bank t c).cid = r.cid → (s.bank t c).ctx = ctx →
            (u.bank t c).st = .purging) ∧
    (let t := payF b 4 2 0 10;
      act 2 → (s.tile t).role = .grid → s.covered (t / 272) = false → (s.rcv.isolations.any fun i => decide (i.tile = t)) = false →
        Does (.recoverIsolate p) s fun u => isUnderWay s u r (0x20000 + t) ∧ (u.tile t).clamp = true ∧
          (u.rcv.isolations.any fun i => decide (i.tile = t) && i.byRecover) = true) ∧
    (let h := payF b 6 1 0 1;
      act 3 → s.covered h = false → Does (.recoverHalf p) s fun u => isUnderWay s u r (0x30000 + h) ∧
        (s.rcv.pendingHalf = none → u.rcv = { s.rcv with pendingHalf := some (h, true) }) ∧
        ∀ g c, s.rcv.pendingHalf = some (g, c) → u.rcv = { s.rcv with pendingHalf := none, pendingModule := some c }) ∧
    (act 4 → s.rcv.st ≠ .module → s.rcv.pendingModule = none → Does (.recoverModule p) s fun u =>
      isUnderWay s u r 0x40000 ∧ u.rcv = { s.rcv with pendingHalf := none, pendingModule := some true }) ∧
    (act 5 → Does (.recoverHangLimit p) s fun u => responds s u r 1 [] ∧
      u.rcv = { s.rcv with hangLimit := BitVec.ofNat 11 (payF b 8 2 0 11) } ∧ (u.requester r.path).longOp = none)

/-! ### The root of trust -/

/-- A SEC of subcommand `sub` passes its checks (R525), in a power-up without a transition (R503). -/
def secPasses (s : State) (p : Path) (r : ItlReq) (sub : Nat) : Prop :=
  passes s p 0x0801 (secOk r.payload) r ∧ hdF r.payload 0 1 = sub ∧ s.rot.transitioned = false

/-- The subcommand was accepted and is done (R392, R525). -/
def secDone (s u : State) (r : ItlReq) : Prop := responds s u r 1 [] ∧ (u.requester r.path).longOp = none

/-- R511, R512, R515, R525, R530: KEY_WRITE in DEV or PROD of a slot from 8 on, for usage 1 or 2, that no engine uses, without the
test root: the slot holds the key and the engine has it. KEY_ERASE of a slot, or of all from 8 on (63), that no engine uses
empties them. KEY_STATUS marks the slots from 8 on whose check failed BAD and answers the slots as they then are. -/
def Obligations.KeySlots : Prop :=
  ∀ (p : Path) (s : State) (r : ItlReq),
    let b := r.payload
    let k := payF b 4 1 0 6
    let live := s.rot.lcNow ≠ 0 ∧ s.rot.lcNow ≠ 3
    (let x : KeySlot := ⟨true, false, BitVec.ofNat 4 (payF b 5 1 0 4), BitVec.ofNat 256 (hdF b 8 32)⟩;
      secPasses s p r 1 → live → 8 ≤ k → (x.usage = 1 ∨ x.usage = 2) → s.rot.testroot = false → s.slotUsed k = false →
        Does (.keyWrite p) s fun u => u.keySlot k = x ∧ (∀ j, j ≠ k → u.keySlot j = s.keySlot j) ∧
          Tab.find u.cry.loaded k = some true ∧ secDone s u r) ∧
    (let ks := if k = 63 then (List.range 56).map (· + 8) else [k];
      secPasses s p r 2 → live → 8 ≤ k → (∀ j ∈ ks, s.slotUsed j = false) →
        Does (.keyErase p) s fun u => (∀ j ∈ ks, u.keySlot j = {}) ∧ (∀ j, j ∉ ks → u.keySlot j = s.keySlot j) ∧
          secDone s u r) ∧
    ∀ bad : BitVec 64, secPasses s p r 3 → Does (.keyStatus p bad) s fun u => responds s u r 0 u.slotBytes ∧
      ∀ j < 64, u.keySlot j =
        if 8 ≤ j ∧ bad.getLsbD j = true ∧ (s.keySlot j).valid = true then { s.keySlot j with bad := true } else s.keySlot j

/-- R495, R497, R501 to R503, R509, R522, R525: with a token that authorises it, LC_TRANSITION from BLANK to DEV blows DEV's
fuses; from DEV to PROD, with nothing bound and power to hold up, it burns COUNT root hashes and blows PROD's; from PROD to
EOL it kills the UDS and blows EOL's; each leaves no nonce and waits for the next power-up. ROOT_REVOKE revokes every root below
one that is valid, above the active one; SITE_ROOT burns the next SITE slot. -/
def Stated.LifeCycleAndRoots : Prop :=
  ∀ (p : Path) (s : State) (r : ItlReq),
    let b := r.payload
    let o := s.rot.otp
    (∀ auth (holdup : BitVec 16) n, payF b 0x38 1 0 2 = n → secPasses s p r 0x10 → s.tokenFails r 1 auth = none →
      (n = 1 ∧ s.rot.lcNow = 0 ∨ n = 2 ∧ s.rot.lcNow = 1 ∨ n = 3 ∧ s.rot.lcNow = 2) → (n = 1 ∨ s.anyBound = false) →
      40 ≤ holdup.toNat → 40000 ≤ s.pwr.vin.toNat → s.pwr.vin.toNat ≤ 60000 → Does (.lcTransition p auth holdup) s fun u =>
        secDone s u r ∧ u.rot.nonce = none ∧ u.rot.transitioned = true ∧ u.rot.lcNow = s.rot.lcNow ∧
        (n = 1 → u.rot.otp = { o with lc := o.lc ||| 0x03 }) ∧
        (n = 2 → u.rot.otp.lc = o.lc ||| 0x0C ∧ u.rot.otp.udsP = true ∧
          u.rot.otp.roots = (List.range (payF b 0x39 1 0 3)).map fun i =>
            (i, (BitVec.ofNat 384 (hdF b (0x48 + 48 * i) 48), false))) ∧
        (n = 3 → u.rot.otp = { o with lc := o.lc ||| 0x30, udsKill := true })) ∧
    (∀ auth n a e, payF b 0x38 1 0 2 = n → secPasses s p r 0x30 → s.tokenFails r 3 auth = none → s.activeRoot = some a →
      a < n → Tab.find o.roots n = some (e, false) → Does (.rootRevoke p auth) s fun u => secDone s u r ∧
        u.rot = { s.rot with
          nonce := none,
          otp := { o with roots := o.roots.map fun x => (x.1, (x.2.1, x.2.2 || decide (x.1 < n))) } }) ∧
    (secPasses s p r 0x31 → o.sites.length < 8 → Does (.siteRoot p) s fun u => secDone s u r ∧
      u.rot.otp = { o with sites := o.sites ++ [(o.sites.length, BitVec.ofNat 384 (hdF b 8 48))] })

/-- R509, R514, R515, R516: CHALLENGE draws a fresh nonce and answers it; an expired one is gone. DEBUG_OPEN in BLANK or EOL
grants everything without a token; with one that authorises it, in DEV its RIGHTS, SCOPE and time, in PROD the same once
nothing is bound, the keys from slot 8 on gone and the test root in force; a grant whose time has run out closes. A tree whose
generation ends makes the RTP sign again, or waits as the next one where it can sign. -/
def Stated.NoncesDebugAndTrees : Prop :=
  (∀ (p : Path) (s : State) (r : ItlReq),
    let b := r.payload
    let x := Config.random s.rot.draws
    let open_ := fun (u : State) (rights : BitVec 3) (scope : BitVec 2) (left : BitVec 16) =>
      secDone s u r ∧ u.rot.debugOpen = true ∧ u.rot.debugRights = rights ∧ u.rot.debugScope = scope ∧
      u.rot.debugLeft = left ∧ u.rot.nonce = none
    (secPasses s p r 0x20 → Does (.challengeCmd p) s fun u => responds s u r 0 (toBytes 32 x.toNat) ∧
      u.rot = { s.rot with nonce := some x, draws := s.rot.draws + 1 }) ∧
    (∀ auth, secPasses s p r 0x21 → (s.rot.lcNow = 0 ∨ s.rot.lcNow = 3) →
      Does (.debugOpen p auth) s fun u => open_ u 7 2 0xFFFF) ∧
    (∀ auth, secPasses s p r 0x21 → (s.rot.lcNow = 1 ∨ s.rot.lcNow = 2 ∧ s.anyBound = false) → hasToken b = true →
      s.tokenFails r 2 auth = none → Does (.debugOpen p auth) s fun u =>
        open_ u (BitVec.ofNat 3 (payF b 0x38 1 0 3)) (BitVec.ofNat 2 (payF b 0x38 1 3 2)) (BitVec.ofNat 16 (hdF b 0x3A 2)) ∧
        (s.rot.lcNow = 2 → u.rot.testroot = true ∧ ∀ j, 8 ≤ j → j < 64 → u.keySlot j = {}))) ∧
  ∀ s : State,
    exec .nonceExpiry s = .next { s with rot := { s.rot with nonce := none } } ∧
    (Does .debugGrantExpiry s fun u => u = if s.rot.debugOpen = true ∧ s.rot.debugLeft = 0 then
      { s with rot := { s.rot with debugOpen := false, debugRights := 0 } } else s) ∧
    (s.rot.generating = true → (∀ e ∈ s.brd.finals, e.2.length ≠ 64) → Does .treeGenerationDone s fun u =>
      if s.rot.signReady then u.rot = { s.rot with generating := false, nextTree := true }
      else if s.rot.aliasDue then u.rot.aliasDue = false ∧ u.rot.draws = s.rot.draws + 1
      else u.rot = { s.rot with generating := false, signReady := true })

/-- R495, R497, R501 to R503, R509, R522, R525: with a token that authorises it, LC_TRANSITION from BLANK to DEV blows
DEV's fuses; from DEV to PROD, with nothing bound and power to hold up, it burns COUNT root hashes and blows PROD's;
from PROD to EOL it kills the UDS and blows EOL's; each leaves no nonce and waits for the next power-up. ROOT_REVOKE
revokes every root below one that is valid, above the active one; SITE_ROOT burns the next SITE slot. R509, R514,
R515, R516: CHALLENGE draws a fresh nonce and answers it; an expired one is gone. DEBUG_OPEN in BLANK or EOL grants
everything without a token; with one that authorises it, in DEV its RIGHTS, SCOPE and time, in PROD the same once
nothing is bound, the keys from slot 8 on gone and the test root in force; a grant whose time has run out closes. A
tree whose generation ends makes the RTP sign again, or waits as the next one where it can sign. -/
def Obligations.LifeCycleRootsAndDebug : Prop := Stated.LifeCycleAndRoots ∧ Stated.NoncesDebugAndTrees


/-! ### SPDM -/

/-- The RTP answers a connection that has come to step `step` of its negotiation (R519). -/
def talks (s : State) (p : Path) (step : Nat) : Prop := s.rtpUp = true ∧ spdmPath p = true ∧ step ≤ (s.conn p).step

/-- R517 to R521: GET_VERSION starts the connection anew and its sessions go; GET_CAPABILITIES and NEGOTIATE_ALGORITHMS take
it on by a step each; GET_DIGESTS and GET_CERTIFICATE of slot 0 answer from the chain of an identity, measurements without a
signature as they are; a SIG_ID among the last 16 gives its HSS signature. A request before its step is answered
UnexpectedRequest (the order and the error codes: log entry 38). None changes anything else. -/
def Stated.SpdmNegotiationAndCertificates : Prop :=
  ∀ (p : Path) (s : State),
    let tells := fun (t : State) (m : SpdmRsp) => (Host.Outcome.next { t with out := s.out ++ [.spdm p m] } : Out)
    let c := s.conn p
    (talks s p 0 → Does (.getVersion p) s fun u => u.conn p = { path := p, step := 1 } ∧ u.out = s.out ++ [.spdm p .version] ∧
      u.rot.sessions = s.rot.sessions.filter fun x => decide (x.path ≠ p)) ∧
    (talks s p 1 → Does (.getCapabilities p) s fun u =>
      u.conn p = { c with step := max c.step 2 } ∧ u.out = s.out ++ [.spdm p .capabilities]) ∧
    (talks s p 2 → Does (.negotiateAlgorithms p) s fun u =>
      u.conn p = { c with step := max c.step 3 } ∧ u.out = s.out ++ [.spdm p .algorithms]) ∧
    (talks s p 3 → s.hasIdentity = true → exec (.getDigests p) s = tells s (.digests (Config.digest s.chain))) ∧
    (∀ off n, talks s p 3 → s.hasIdentity = true → off < s.chain.length → exec (.getCertificate p 0 off n) s =
      tells s (.certificate ((s.chain.drop off).take n) (s.chain.length - off - n))) ∧
    (∀ i nonce, talks s p 3 → 1 ≤ i → i ≤ 5 →
      exec (.getMeasurements p i false nonce) s = tells s (.measurements [(i, s.measurement i)] none [])) ∧
    (∀ nonce, talks s p 3 → exec (.getMeasurements p 0xFF false nonce) s =
      tells s (.measurements ([1, 2, 3, 4, 5].map fun i => (i, s.measurement i)) none [])) ∧
    (∀ (id : Word) x, talks s p 3 → (c.sigs.find? fun x => decide (x.1 = id.toNat)) = some x →
      exec (.vendorDefinedRequest p id) s = tells s (.hssSignature x.2)) ∧
    (s.rtpUp = true → spdmPath p = true →
      (c.step < 1 → exec (.getCapabilities p) s = tells s (.error .unexpectedRequest)) ∧
      (c.step < 2 → exec (.negotiateAlgorithms p) s = tells s (.error .unexpectedRequest)) ∧
      (c.step < 3 → exec (.getDigests p) s = tells s (.error .unexpectedRequest)))

/-- R517, R519 to R522: CHALLENGE, signed GET_MEASUREMENTS and KEY_EXCHANGE, while the RTP can sign, answer with an ECDSA
signature under the connection's next SIG_ID and keep its HSS signature among the last 16; KEY_EXCHANGE opens a session, not
yet finished, where fewer than eight live. FINISH ends the handshake, and the session is the site operator's where its key is
the active SITE root's; HEARTBEAT marks it alive, KEY_UPDATE counts, END_SESSION ends it. -/
def Stated.SpdmSignaturesAndSessions : Prop :=
  ∀ (p : Path) (s : State), talks s p 3 →
    let c := s.conn p
    let v := s.expireSessions
    let signed := fun (u : State) (m : Nat → Bytes → SpdmRsp) => ∃ sig hss, Msg.spdm p (m c.nextSig sig) ∈ u.out ∧
      u.conn p = { c with
        nextSig := (c.nextSig + 1) % 2 ^ 32,
        sigs := (c.sigs ++ [(c.nextSig, hss)]).drop ((c.sigs ++ [(c.nextSig, hss)]).length - 16) } ∧
      u.rot.draws = s.rot.draws + 1
    (s.rot.signReady = true →
      (∀ nonce, Does (.spdmChallenge p 0 nonce) s fun u => signed u .challengeAuth) ∧
      (∀ i nonce, 1 ≤ i → i ≤ 5 → Does (.getMeasurements p i true nonce) s fun u =>
        signed u fun id sig => .measurements [(i, s.measurement i)] (some id) sig) ∧
      ∀ data, v.rot.sessions.length < 8 → Does (.keyExchange p 0 data) s fun u =>
        ∃ n, 1 ≤ n ∧ n ≤ 8 ∧ (∀ x ∈ v.rot.sessions, x.id ≠ n) ∧ signed u (fun id sig => .keyExchange n id sig) ∧
          u.rot.sessions = v.rot.sessions ++ [{ id := n, path := p, lastAt := s.boot.refTime }]) ∧
    (∀ id x ok key, v.session p id = some x → x.finished = false → Does (.finishMsg p id ok key) s fun u =>
      if ok then u.session p id = some { x with
          finished := true, lastAt := s.boot.refTime,
          site := key.isSome && decide (key = s.activeSite.bind fun n => Tab.find s.rot.otp.sites n) } ∧
        Msg.spdm p (.finish id) ∈ u.out
      else u.session p id = none ∧ Msg.spdm p (.error .invalidRequest) ∈ u.out) ∧
    ∀ id x, v.session p id = some x → x.finished = true →
      (Does (.heartbeat p id) s fun u =>
        u.session p id = some { x with lastAt := s.boot.refTime } ∧ Msg.spdm p (.heartbeat id) ∈ u.out) ∧
      (Does (.keyUpdate p id) s fun u =>
        u.session p id = some { x with updates := x.updates + 1 } ∧ Msg.spdm p (.keyUpdate id) ∈ u.out) ∧
      Does (.endSession p id) s fun u => u.session p id = none ∧ Msg.spdm p (.endSession id) ∈ u.out

/-- R517 to R521: GET_VERSION starts the connection anew and its sessions go; GET_CAPABILITIES and NEGOTIATE_ALGORITHMS
take it on by a step each; GET_DIGESTS and GET_CERTIFICATE of slot 0 answer from the chain of an identity,
measurements without a signature as they are; a SIG_ID among the last 16 gives its HSS signature. A request before its
step is answered UnexpectedRequest (the order and the error codes: log entry 38). None changes anything else. R517,
R519 to R522: CHALLENGE, signed GET_MEASUREMENTS and KEY_EXCHANGE, while the RTP can sign, answer with an ECDSA
signature under the connection's next SIG_ID and keep its HSS signature among the last 16; KEY_EXCHANGE opens a
session, not yet finished, where fewer than eight live. FINISH ends the handshake, and the session is the site
operator's where its key is the active SITE root's; HEARTBEAT marks it alive, KEY_UPDATE counts, END_SESSION ends it. -/
def Obligations.Spdm : Prop := Stated.SpdmNegotiationAndCertificates ∧ Stated.SpdmSignaturesAndSessions


/-! ### Scheduling and power -/

/-- R411, R415, R426, R427, R431: a write of a reel entry goes into the table that is not in force, and is else refused and
counted; reserved bits are counted. Once the granted bank has not been ready for FILL_DELAY ticks and lends its slot to
nobody, its tile runs the first ready bank after it, or it itself where none is. A composition whose resident set has stalled
for RSS_HOLDOFF periods is told so once, on its lease's path. -/
def Obligations.ReelFillAndStalledSets : Prop :=
  ∀ s : State,
    (∀ (table : Bool) (k : Fin 128) (v : DWord), Does (.seqReelEntryWrite table k v) s fun u =>
      let x := s.sched
      let e : ReelEntry := ⟨v.getLsbD 63, BitVec.ofNat 2 (v.toNat / 2 ^ 20), BitVec.ofNat 20 v.toNat⟩
      let err := if v.toNat / 2 ^ 22 % 2 ^ 41 = 0 then x.err else { x.err with rsvd := satInc x.err.rsvd }
      u.sched = if x.sh.act.sel = table then { x with err := { x.err with order := satInc x.err.order } }
        else if table then { x with reelB := Tab.insert x.reelB k.val e, err := err }
        else { x with reelA := Tab.insert x.reelA k.val e, err := err }) ∧
    (∀ t : TileIx, let x := s.tile t.val
      let g := s.lane
      x.vacant g = false → x.ready g = false → s.sched.sh.act.fillDelay.toNat < (x.bank g).notReady →
      s.borrower t.val g = none → Does (.fillDelayExpiry t) s fun u =>
        (u.tile t.val).run = (([(g + 1) % 4, (g + 2) % 4, (g + 3) % 4].find? x.ready).getD g)) ∧
    ∀ cid : Cid, s.itl.avail = true → s.sched.rssHoldoff.toNat ≤ Tab.get (fun _ => 0) s.sched.rssHeld cid.toNat →
      s.rssStands cid = true → s.rssAbsent cid ≠ [] → cid ∉ s.sched.rssSent → Does (.residentSetStalled cid) s fun u =>
        u.sched = { s.sched with rssSent := s.sched.rssSent ++ [cid] } ∧
        ∀ e, (s.lease cid).dest = .mctp e → ∃ m, Msg.itlum (.mctp (BitVec.ofNat 8 e)) m ∈ u.out ∧ hdF m 2 2 = 0x8005 ∧
          hdF m 0x0C 2 = cid.toNat ∧ m.drop 64 = s.rssPayload cid

/-- What a limit of a reason at a place becomes: gone at the full setting. -/
def limitIs (s u : State) (a : Actuator) (reason loc n : Nat) : Prop :=
  u.limitAt a reason loc = if s.fullSetting a ≤ n then none else some n

/-- R447 to R450, R454: the 10 µs loop takes its readings, PIN the product of input voltage and current; above 3,300 W PEAK
puts the clock down by 2 settings, above 72 A CURRENT by 1, never below 4; above the limit, without ballast, the last domain
that may be lowered goes down by one. PEAK and CURRENT give back a setting each once absent. At a step point CAP_EFF comes
down to CAP by at most 7/16 of SLEW, FLOOR and CEIL lie that far around the average. -/
def Stated.PowerLoopAndDrogue : Prop :=
  ∀ s : State,
    (∀ r : PowerReading, Does (.powerLoop r) s fun u =>
      u.pwr.vin = sat16 r.inputMv ∧ u.pwr.pin = sat16 (r.inputMv * r.currentMa / 1000000) ∧ u.pwr.pLink = sat16 r.link ∧
      u.pwr.pMem = sat16 r.mem ∧ u.pwr.pComp = sat16 r.comp ∧ u.pwr.pBase = sat16 r.base ∧
      (3300 < r.watts → limitIs s u .clk 3 0xFFFF (max 4 (s.setting .clk - 2))) ∧
      (72000 < r.currentMa → r.watts ≤ 3300 → limitIs s u .clk 4 0xFFFF (max 4 (s.setting .clk - 1))) ∧
      ∀ a, r.watts ≤ 3300 → r.currentMa ≤ 72000 → min s.pwr.capEff s.pwr.ceil < 16 * r.watts → s.ballastNow.2 = 0 →
        (s.order.reverse.find? fun a => decide (4 < s.setting a) && (s.holding a).all loopReason) = some a →
          u.setting a = s.setting a - 1) ∧
    (∀ current peak : Bool, Does (.protectionRelease current peak) s fun u =>
      (∀ n, peak = true → s.limitAt .clk 3 0xFFFF = some n → limitIs s u .clk 3 0xFFFF (n + 1)) ∧
      (∀ n, current = true → s.limitAt .clk 4 0xFFFF = some n → limitIs s u .clk 4 0xFFFF (n + 1)) ∧
      (current = false ∧ peak = false → u = s)) ∧
    ∀ avg below, Does (.drogueStepPoint avg below) s fun u =>
      let n := 7 * s.pwr.sh.act.slew.toNat
      let cap := 16 * s.pwr.sh.act.cap.toNat
      if s.cad.tick.toNat % 65536 = s.pwr.sh.act.stagger.toNat then
        u.pwr.capEff = (if cap < s.pwr.capEff then max cap (s.pwr.capEff - n) else s.pwr.capEff) ∧
        u.pwr.ceil = min u.pwr.capEff (16 * avg + n) ∧ u.pwr.floor = 16 * avg - n ∧ u.pwr.unmet = false
      else u = s

/-- R445, R456 to R459: a settled voltage ends the alarm's limit; an alarm with VMODE takes 4 trim steps back (what is missing
lifts the voltage), bars trimming for 4,096 periods and lowers the clock by one; trimming takes a lift step back first, then
adds one up to 20. A reading is kept; from its warning limit a tile runs no ballast, from its critical limit the actuator is
held at 4, from its trip limit the module trips. Above the throttle limit the actuator steps down, 3 °C below it up, each by
one. Below 85 °C everywhere a trip ends in a module recovery. -/
def Stated.VoltageAndTemperature : Prop :=
  ∀ s : State,
    (∀ h : Half, let v := s.volt h.val
      let w := s.trim h.val
      (Does (.voltageSettled h) s fun u => u.volt h.val = { v with settled := true } ∧ u.limitAt .clk 7 (0x700 + h.val) = none) ∧
      (Does (.voltageMarginAlarm h) s fun u => if s.pwr.sh.act.vmode then
          u.trim h.val = w - 4 ∧ u.volt h.val = { v with lift := v.lift + (4 - w), noTrim := 4096, settled := false } ∧
          limitIs s u .clk 7 (0x700 + h.val) (max 4 (s.setting .clk - 1))
        else u = s) ∧
      Does (.voltageTrimDown h) s fun u =>
        if s.pwr.sh.act.vmode = true ∧ v.noTrim = 0 then
          u.volt h.val = { v with lift := v.lift - 1 } ∧ u.trim h.val = if v.lift = 0 ∧ w < 20 then w + 1 else w
        else u = s) ∧
    (∀ (x : Sensor) (n : Int), let l := sensorLimits x
      Does (.sensorReading x n) s fun u =>
        if l.2.2.2.any (fun k => decide (k ≤ n)) && decide (s.boot.power ≠ .tripped) then u.boot.power = .tripped
        else u.sensed x = n ∧ u.boot.power = s.boot.power ∧
          (l.2.2.1 ≤ n → u.limitAt (sensorAct x) 6 (sensorLoc x) = some 4) ∧
          ∀ t : TileIx, x = .tile t → (u.tile t.val).temp = BitVec.ofInt 12 n ∧ (l.1 ≤ n → (u.tile t.val).balEn = false)) ∧
    (∀ x : Sensor, let a := sensorAct x
      let loc := sensorLoc x
      let hot := (sensorLimits x).2.1
      (Does (.thermalThrottleStep x) s fun u =>
        if s.sensed x ≤ hot then u = s else u.limitAt a 5 loc = some (max 4 (s.sensorSetting x - 1))) ∧
      Does (.thermalReleaseStep x) s fun u => if hot - 24 < s.sensed x then u = s
        else (∀ n, s.limitAt a 5 loc = some n → limitIs s u a 5 loc (n + 1)) ∧
          ∀ n, s.limitAt a 6 loc = some n → limitIs s u a 6 loc (n + 1)) ∧
    Does .tripCooldown s fun u =>
      if s.boot.power = .tripped ∧ (s.pwr.sensors.all fun e => decide (e.2 < 680)) = true then
        u.boot.power = servicePower s.boot.service ∧
        (s.rcv.st = .normal → s.rcv.pendingModule = none → u.rcv.pendingModule = some false)
      else u = s

/-- R447 to R450, R454: the 10 µs loop takes its readings, PIN the product of input voltage and current; above 3,300 W
PEAK puts the clock down by 2 settings, above 72 A CURRENT by 1, never below 4; above the limit, without ballast, the
last domain that may be lowered goes down by one. PEAK and CURRENT give back a setting each once absent. At a step
point CAP_EFF comes down to CAP by at most 7/16 of SLEW, FLOOR and CEIL lie that far around the average. R445, R456 to
R459: a settled voltage ends the alarm's limit; an alarm with VMODE takes 4 trim steps back (what is missing lifts the
voltage), bars trimming for 4,096 periods and lowers the clock by one; trimming takes a lift step back first, then
adds one up to 20. A reading is kept; from its warning limit a tile runs no ballast, from its critical limit the
actuator is held at 4, from its trip limit the module trips. Above the throttle limit the actuator steps down, 3 °C
below it up, each by one. Below 85 °C everywhere a trip ends in a module recovery. -/
def Obligations.PowerAndThermalControl : Prop := Stated.PowerLoopAndDrogue ∧ Stated.VoltageAndTemperature


/-! ### The cadence and the commit boundary -/

/-- R12, R65, R438 to R442, R524: a tick boundary inside a period adds one to CAD_TICK, its cycles to both halves' counters and
the tick's length to reference time; the boundary that ends a period starts at tick 0 the next epoch, a pending step or an
adopted lower epoch further on. A reversed tether pair is inverted and counted. No marker for 2 intervals leads from ACQUIRING
or LOCKED to HOLDOVER. -/
def Stated.TicksAndPeriods : Prop :=
  ∀ s : State,
    (∀ cycles, s.boot.power ≠ .off → s.cad.tick ≠ 0xFFFFF → Does (.cadenceTick cycles) s fun u =>
      u.cad.tick = s.cad.tick + 1 ∧ u.cad.epoch = s.cad.epoch ∧ u.cad.st = s.cad.st ∧
      u.boot.refTime = s.boot.refTime + s.cad.periodNs.toNat ∧
      ∀ h : Half, Tab.get (fun _ => (0 : BitVec 48)) u.cycles h.val =
        Tab.get (fun _ => (0 : BitVec 48)) s.cycles h.val + BitVec.ofNat 48 cycles) ∧
    (∀ cycles, s.boot.power ≠ .off → s.cad.tick = 0xFFFFF → Does (.cadencePeriodWrap cycles) s fun u =>
      u.cad.tick = 0 ∧ u.cad.elapsed = s.cad.elapsed + 1 ∧ u.boot.refTime = s.boot.refTime + s.cad.periodNs.toNat ∧
      match s.cad.pendStep, s.cad.adoptLower, s.cad.lower with
      | some d, _, _ => u.cad.epoch = s.cad.epoch + 1 + BitVec.ofNat 64 d ∧ u.cad.pendStep = none ∧
          u.cad.steps = satInc s.cad.steps ∧ u.cad.step = BitVec.ofNat 64 d
      | none, true, some d => u.cad.epoch = s.cad.epoch + 1 - BitVec.ofNat 64 d ∧ u.cad.lower = none ∧
          u.cad.adoptLower = false ∧ u.cad.st = .acquiring
      | _, _, _ => u.cad.epoch = s.cad.epoch + 1 ∧ u.cad.st = s.cad.st) ∧
    (Does .markerTimeout s fun u =>
      u.cad.st = if s.cad.st = .acquiring ∨ s.cad.st = .locked then .holdover else s.cad.st) ∧
    exec .tetherReversal s = .next { s with boot := { s.boot with
      tetherInv := !s.boot.tetherInv, tetherReversals := satInc s.boot.tetherReversals } }

/-- R434, R435, R437 to R441: a marker of 3 to 5 µs in its mode's window takes its interval and the tick's phase; from FREE or
HOLDOVER it leads to ACQUIRING, and with no slot bound the period begins with it; eight in a row within 64 ticks lock, two in
a row beyond 1,024 unlock. One too long, too short for the window or outside it is counted; one below 1.5 µs is none. A good
epoch frame with no slot bound sets the epoch once; else a higher one waits as a step for the wrap, a lower one is a CONFLICT,
and an equal one ends it. A bad frame is counted. -/
def Stated.MarkersAndEpochFrames : Prop :=
  ∀ s : State, s.cad.sh.act.mode ≠ 0 →
    let c := s.cad
    let e := c.tick.toInt
    let m : DWord := if e < 0 then c.epoch + 1 else c.epoch
    (∀ high ns, Does (.tetherMarker high ns) s fun u =>
      (high < 1500 → u = s) ∧
      ((1500 ≤ high ∧ high < 3000 ∨ 5000 < high) → u.cad = { c with rejected := satInc c.rejected }) ∧
      (3000 ≤ high → high ≤ 5000 → c.accepts ns = false →
        u.cad = { c with markerEpoch := m, rejected := satInc c.rejected }) ∧
      (3000 ≤ high → high ≤ 5000 → c.accepts ns = true →
        u.cad.interval = ns ∧ u.cad.drift = 0 ∧ u.cad.phase = BitVec.ofInt 21 e ∧
        match c.st with
        | .free | .holdover => u.cad.st = .acquiring ∧ u.cad.relock = BitVec.ofInt 11 (e / 1024) ∧
            (s.anyBound = false → u.cad.tick = 0 ∧ u.cad.epoch = c.epoch + 1)
        | .acquiring => u.cad.st = if e.natAbs ≤ 64 ∧ 8 ≤ c.good + 1 then .locked else .acquiring
        | .locked => u.cad.st = if 1024 < e.natAbs ∧ 2 ≤ c.far + 1 then .acquiring else .locked
        | .conflict => u.cad.st = .conflict)) ∧
    ∀ f : Bytes, Does (.epochFrame f) s fun u =>
      let n := BitVec.ofNat 64 (hdF f 4 8)
      if frameGood f (decide (c.sh.act.mode = 1)) then
        u.cad.frameValid = true ∧ u.cad.srcMains = decide (hdF f 3 1 % 2 = 1) ∧ u.cad.srcHold = decide (hdF f 3 1 / 2 % 2 = 1) ∧
        if s.anyBound = false ∧ c.epochSet = false then
          u.cad.epoch = n + (c.epoch - c.markerEpoch) ∧ u.cad.markerEpoch = n ∧ u.cad.epochSet = true
        else if n = c.markerEpoch then
          u.cad.epoch = c.epoch ∧ u.cad.lower = none ∧ u.cad.st = if c.st = .conflict then .acquiring else c.st
        else if c.markerEpoch.toNat < n.toNat then
          u.cad.epoch = c.epoch ∧ u.cad.pendStep = some (n.toNat - c.markerEpoch.toNat) ∧ u.cad.st = c.st
        else u.cad.epoch = c.epoch ∧ u.cad.lower = some (c.markerEpoch.toNat - n.toNat) ∧ u.cad.st = .conflict
      else u.cad = { c with frameBad := satInc c.frameBad }

/-- R12, R65, R438 to R442, R524: a tick boundary inside a period adds one to CAD_TICK, its cycles to both halves'
counters and the tick's length to reference time; the boundary that ends a period starts at tick 0 the next epoch, a
pending step or an adopted lower epoch further on. A reversed tether pair is inverted and counted. No marker for 2
intervals leads from ACQUIRING or LOCKED to HOLDOVER. R434, R435, R437 to R441: a marker of 3 to 5 µs in its mode's
window takes its interval and the tick's phase; from FREE or HOLDOVER it leads to ACQUIRING, and with no slot bound
the period begins with it; eight in a row within 64 ticks lock, two in a row beyond 1,024 unlock. One too long, too
short for the window or outside it is counted; one below 1.5 µs is none. A good epoch frame with no slot bound sets
the epoch once; else a higher one waits as a step for the wrap, a lower one is a CONFLICT, and an equal one ends it. A
bad frame is counted. -/
def Obligations.CadenceAndMarkers : Prop := Stated.TicksAndPeriods ∧ Stated.MarkersAndEpochFrames

/-- R12, R399, R400: at the boundary every accepted value of the composition's blocks, of the queues, the reel and the cadence
is active and none waits but a GO that came meanwhile; while Itlum holds a change that only commits, its sender is then
answered IT_OK. (Row shifts, holes and ended grace periods whose own bridle changes wait open them at the same boundary:
RowShifts, LeasesExpire.) No commit takes effect while firmware is exchanged (R408). -/
def Obligations.CommitsTakeEffectTogether : Prop :=
  ∀ s : State, s.rcv.shifts = [] → s.rcv.holes = [] → s.rcv.expired = [] →
    (s.itl.fwActivating = true → exec .commitBoundary s = .next s) ∧
    (s.itl.fwActivating = false → s.itl.held = none → Does .commitBoundary s fun u =>
      u.brd.sh.act = s.brd.sh.acc.getD s.brd.sh.act ∧ u.xlt.sh.act = s.xlt.sh.acc.getD s.xlt.sh.act ∧
      u.lp.sh.act = s.lp.sh.acc.getD s.lp.sh.act ∧ u.que.sh.act = s.que.sh.acc.getD s.que.sh.act ∧
      u.sched.sh.act = s.sched.sh.acc.getD s.sched.sh.act ∧ u.cad.sh.act = s.cad.sh.acc.getD s.cad.sh.act ∧
      (∀ t, (u.tile t).srm.sh.act = (s.tile t).srm.sh.acc.getD (s.tile t).srm.sh.act ∧
        ((s.tile t).srm.sh.goLater = false → s.brd.goLater = false → (u.tile t).srm.sh.acc = none)) ∧
      (s.que.sh.goLater = false → u.que.sh.acc = none) ∧ (s.cad.sh.goLater = false → u.cad.sh.acc = none)) ∧
    ∀ r b, s.itl.fwActivating = false →
      s.itl.held = some { path := some r.path, req := some r, change := .commitOnly, block := b } → Does .commitBoundary s fun u =>
        responds s u r 0 [] ∧ u.sched.sh.act = s.sched.sh.acc.getD s.sched.sh.act ∧
        u.cad.sh.act = s.cad.sh.acc.getD s.cad.sh.act

/-! ### Power-up, self-test, training, service -/

/-- A command that names a half's recovery as due finds nothing else due (R480, R582, R591). -/
def moduleDue (s u : State) : Prop := s.rcv.st = .normal → s.rcv.pendingModule = none → u.rcv.pendingModule = some false

/-- What power loss keeps (R587): the fuses, the firmware banks, the settings, the records of the flight log. -/
def onlyFlashIsKept (s u : State) : Prop :=
  u.boot.power = .off ∧ u.mem = [] ∧ u.rot.otp = s.rot.otp ∧ u.itl.banks = s.itl.banks ∧ u.boot.settings = s.boot.settings ∧
  u.flog.sectors.map (fun e => (e.1, e.2.slots)) = s.flog.sectors.map (fun e => (e.1, e.2.slots)) ∧ u.flog.buffer = [] ∧
  u.rot.slots = [] ∧ u.brd.sh.act.slots = []

/-- R576 to R579: a module without power whose input is valid loads the bank that the newer settings record confirms where
it passes R506, else the other, else it waits in the loader state. With a bank, Itlum serves under the life cycle that the
fuses spell, cadence settings come from that record, all pairs train and the west half's cores are powered and ungated. A
release of MRST_N of 1 to 100 ms does the same from any state with power; a longer low counts as a short, a shorter is none. -/
def Stated.PowerUp : Prop :=
  ∀ (f : BootFact) (s : State),
    let v := ((s.dark.modBoot fun b => { b with strap := f.straps }).rtpBoot).modItl fun i => { i with fwSt := .idle }
    let up := fun (u : State) => match v.chooseBank f with
      | none => u.boot.power = .loader ∧ u.itl.avail = false
      | some c => u.boot.power = .sequencing ∧ u.boot.step = 8 ∧ u.boot.service = 0 ∧ u.itl.avail = true ∧
          u.itl.fwUse = c.1 ∧ u.itl.fwConfirmed = c.1 ∧ u.rot.lcNow = (lifeCycle s.rot.otp.lc).1 ∧
          u.rot.otp.lc = s.rot.otp.lc ∧ u.rot.otp.roots = s.rot.otp.roots ∧
          u.cad.sh = .of (match v.newerCopy with
            | some k => (v.settingsCopy k).cad
            | none => {}) ∧
          (∀ p : PairIx, (u.pair p.val).st = .training) ∧
          ∀ t : TileIx, t.val < 272 → (Tile.reset t.val).role = .grid →
            (u.tile t.val).gate = false ∧ (u.tile t.val).powered = true
    (Does (.inputValid f) s fun u => if s.boot.power = .off then up u else u = s) ∧
    ∀ us, Does (.mrstRelease us f) s fun u =>
      if s.boot.power = .off ∨ us < 1000 then u = s
      else if 100000 < us then u = { s with boot := { s.boot with mrstShorts := s.boot.mrstShorts + 1 } }
      else up u

/-- R587, R591, R592, R594: below 30 V, and with MATE_N open, the module is without power and keeps fuses and flash only; an
input out of 38 to 60 V stops it until it is restored, when its module recovery falls due. The SMBus is down after its
timeout, counted, and up again after an idle line. Without full service in time, a module recovery falls due (R582). -/
def Stated.InputAndPins : Prop :=
  ∀ s : State,
    (∀ mv, s.boot.power ≠ .off → Does (.inputFault mv) s fun u =>
      (mv < 30000 → onlyFlashIsKept s u) ∧
      (30000 ≤ mv → (mv < 38000 ∨ 60000 < mv) → s.boot.power ≠ .inputFault → s.boot.power ≠ .loader →
        u.boot.power = .inputFault) ∧
      (38000 ≤ mv → mv ≤ 60000 → u = s)) ∧
    (Does .inputRestored s fun u => if s.boot.power = .inputFault then
      u.boot = { s.boot with power := servicePower s.boot.service } ∧ moduleDue s u else u = s) ∧
    (Does .mateNOpen s fun u => onlyFlashIsKept s u ∧ u.boot.mateOpen = true) ∧
    (s.boot.power ≠ .off → exec .smbusTimeout s = .next { s with
      boot := { s.boot with smbusDown := true, smbusTimeouts := s.boot.smbusTimeouts + 1 } }) ∧
    exec .smbusIdleResume s = .next { s with boot := { s.boot with smbusDown := false } } ∧
    Does .bringupTimeout s fun u => if s.boot.power = .sequencing ∨ s.boot.power = .early then
      u.rcv.failedModule = 1 ∧ moduleDue s u else u = s

/-- R576 to R579: a module without power whose input is valid loads the bank that the newer settings record confirms where
it passes R506, else the other, else it waits in the loader state. With a bank, Itlum serves under the life cycle that
the fuses spell, cadence settings come from that record, all pairs train and the west half's cores are powered and
ungated. A release of MRST_N of 1 to 100 ms does the same from any state with power; a longer low counts as a short, a
shorter is none. R587, R591, R592, R594: below 30 V, and with MATE_N open, the module is without power and keeps fuses
and flash only; an input out of 38 to 60 V stops it until it is restored, when its module recovery falls due. The
SMBus is down after its timeout, counted, and up again after an idle line. Without full service in time, a module
recovery falls due (R582). -/
def Obligations.PowerUpAndPins : Prop := Stated.PowerUp ∧ Stated.InputAndPins

/-- R56, R57, R164, R477, R580 to R586: a self-test that is due is recorded when it ends; one that fails retires its tile at
bring-up, and isolates it in early service;
the narrow test holds issue on the serving half and releases it at its end. A pair in training that trains becomes what it was
before a self-refresh, else ACTIVE, and after its time DEGRADED, onto a spare that is held. The first half whose BF16 tests and boot pairs have passed
brings early service, and the other half's cores are ungated, as both are after 50 ms of waiting; once nothing is left to
test or train, full service: narrow formats everywhere, the clock unthrottled. -/
def Obligations.TestsTrainingAndService : Prop :=
  ∀ s : State,
    (∀ (t : TileIx) (k : TestKind) (pass : Bool), s.testDue t.val k = true → Does (.tileSelftestDone t k pass) s fun u =>
      u.selfTest t.val = (match k with
        | .shell => { s.selfTest t.val with shell := some pass }
        | .bf16 => { s.selfTest t.val with bf16 := some pass }
        | .narrow => { s.selfTest t.val with narrow := some pass }) ∧
      (pass = true → k = .narrow → (s.tile t.val).testHold = true → (u.tile t.val).issueHold = false ∧ (u.tile t.val).issueHeld = false) ∧
      (pass = false → s.boot.power = .sequencing → (u.tile t.val).role = .retired) ∧
      (pass = false → s.boot.power ≠ .sequencing → (s.tile t.val).role = .grid → (s.tile t.val).gate = false →
        s.recovering (t.val / 272) = false → (s.rcv.isolations.any fun i => decide (i.tile = t.val)) = false →
        (u.tile t.val).clamp = true)) ∧
    (∀ t : TileIx, Does (.narrowSelftestHold t) s fun u =>
      if s.early ∧ t.val / 272 = s.servingHalf ∧ s.testDue t.val .narrow then
        u.tile t.val = { s.tile t.val with issueHold := true, issueHeld := true, testHold := true } ∧ ∀ j, j ≠ t.val → u.tile j = s.tile j
      else u = s) ∧
    (∀ p : PairIx, (s.pair p.val).st = .training → s.sched.waits = [] →
      (Does (.pairTrainingDone p true) s fun u => u.pair p.val = { s.pair p.val with st := (s.pair p.val).trained }) ∧
      (Does (.pairTrainingDone p false) s fun u => u = s) ∧
      ((s.moveH (p.val / 96)).st ≠ .copying → (s.moveH (p.val / 96)).st ≠ .switching →
        Does (.pairTrainingTimeout p) s fun u =>
          (s.spareOf (p.val / 96) = none → u.pair p.val = { s.pair p.val with st := .degraded }) ∧
          ((u.pair p.val).st = .degraded ∨ (u.pair p.val).st = .rebuilding))) ∧
    (s.boot.power = .sequencing →
      (∀ h : Half, s.halfReady h.val = true → (h.val = 1 → s.halfReady 0 = false) → Does .earlyServiceEntry s fun u =>
        u.boot = { s.boot with power := .early, service := 1, earlyHalf := decide (h.val = 1) } ∧
        ∀ t ∈ s.gridTiles (1 - h.val), (u.tile t).gate = false ∧ ((s.tile t).gate = true → (u.tile t).powered = true)) ∧
      Does .secondHalfUngate s fun u => ∀ t ∈ s.gridTiles 0 ++ s.gridTiles 1, (u.tile t).gate = false) ∧
    (s.fullReady = true → Does .fullServiceCommit s fun u => u.boot = { s.boot with power := .full, service := 2 } ∧
      (∀ t ∈ s.gridTiles 0 ++ s.gridTiles 1, (u.tile t).narrow = true) ∧ u.pwr.clk = BitVec.ofNat 5 (u.setting .clk))

/-! ### Firmware, events, the flight log, registers -/

/-- R395, R407 to R409, R506, R577: FW_BEGIN empties the bank that is not confirmed, FW_WRITE puts bytes into it, FW_VERIFY
starts the RTP's verification, whose end says what it found; FW_ACTIVATE of a verified image, or FW_REVERT of a trial one,
takes Itlum out of service until the exchange ends, on trial or reverted; one that does not end in time leaves the confirmed
bank. FW_CONFIRM, or 3,000 periods, confirms a trial. In the loader state FW_ACTIVATE restarts the module. FW_QUERY tells. -/
def Obligations.FirmwareUpdate : Prop :=
  (∀ (p : Path) (s : State) (r : ItlReq),
    let n := hdF r.payload 0 4
    let b := !s.itl.fwConfirmed
    let data := r.payload.drop 4
    let free := s.itl.fwVerifying = false ∧ s.itl.fwActivating = false
    let leaves := fun (u : State) => isUnderWay s u r 0 ∧ u.itl.avail = false ∧ u.itl.fwActivating = true ∧ u.itl.fwSt = s.itl.fwSt
    (passes s p 0x0A01 (reservedOk r.payload [(0, 0, 32)] && decide (hdF r.payload 0 4 ≤ bankSize)) r → s.fwOpen = false →
      Does (.fwBegin p) s fun u => responds s u r 0 [] ∧ u.itl.fwSt = .receiving ∧ u.itl.fwSize = n ∧
        u.fwBank b = { size := n }) ∧
    (passes s p 0x0A02 (decide (hdF r.payload 0 4 % 4 = 0)) r → free → s.itl.fwSt = .receiving →
      n + data.length ≤ s.itl.fwSize → Does (.fwWrite p) s fun u => responds s u r 0 [] ∧
        ∀ i < data.length, Tab.find (u.fwBank b).bytes (n + i) = data[i]?) ∧
    (passes s p 0x0A03 (reservedOk r.payload []) r → free → s.itl.fwSt = .receiving →
      Does (.fwVerify p) s fun u => isUnderWay s u r 0 ∧ u.itl.fwVerifying = true) ∧
    (passes s p 0x0A04 (reservedOk r.payload []) r → s.itl.held = none → free → s.itl.fwSt = .verified →
      Does (.fwActivate p) s fun u =>
        if s.boot.power = .loader then u.boot.power = .sequencing ∨ u.boot.power = .loader else leaves u) ∧
    (passes s p 0x0A06 (reservedOk r.payload []) r → s.itl.held = none → free → s.itl.fwSt = .trial →
      Does (.fwRevert p) s leaves) ∧
    (passes s p 0x0A05 (reservedOk r.payload []) r → free → s.itl.fwSt = .trial → Does (.fwConfirm p) s fun u =>
      responds s u r 0 [] ∧ u.itl.fwConfirmed = s.itl.fwUse ∧ u.itl.fwSt = .idle) ∧
    (passes s p 0x0A07 (reservedOk r.payload []) r → Does (.fwQuery p) s fun u => responds s u r 0
      (toBytes 4 (fwCode s.itl.fwSt) ++ toBytes 4 (if s.itl.fwUse then 1 else 0) ++ toBytes 4 (s.fwVersion false) ++
        toBytes 4 (s.fwVersion true)))) ∧
  ∀ s : State,
    let opOver := fun (u : State) (op : Nat) => u.longOn (fun o => decide (o.op = op ∧ o.cid = 0 ∧ o.key = 0)) = false
    let rev := decide (s.itl.fwSt = .trial)
    (∀ f, s.itl.fwVerifying = true → Does (.fwVerifyDone f) s fun u => opOver u 0x0A03 ∧ u.itl.fwVerifying = false ∧
      u.itl.fwSt = (if (s.verifyBank (!s.itl.fwConfirmed) f).1 = 0 then .verified else .idle)) ∧
    (s.itl.fwActivating = true →
      (Does .fwActivateDone s fun u => opOver u (if rev then 0x0A06 else 0x0A04) ∧ u.itl.avail = true ∧
        u.itl.fwActivating = false ∧ u.itl.fwUse = (if rev then s.itl.fwConfirmed else !s.itl.fwConfirmed) ∧
        u.itl.fwSt = if rev then .reverted else .trial) ∧
      Does .fwActivateTimeout s fun u => opOver u (if rev then 0x0A06 else 0x0A04) ∧ u.itl.avail = true ∧
        u.itl.fwActivating = false ∧ u.itl.fwUse = s.itl.fwConfirmed ∧ u.itl.fwSt = .reverted) ∧
    Does .trialConfirm s fun u =>
      if s.itl.fwSt = .trial ∧ s.fwBusy = false ∧ 3000 ≤ s.itl.trialPeriods then
        u.itl.fwConfirmed = s.itl.fwUse ∧ u.itl.fwSt = .idle
      else u = s

/-- The source that target `c` claims (R559): the lowest PRIO first, then the lowest number. -/
def firstFor (s : State) (c k : Nat) : Prop :=
  s.claimable c k = true ∧ ∀ j, s.claimable c j = true → (s.grp (k / 16)).prio.toNat < (s.grp (j / 16)).prio.toNat ∨
    (s.grp (k / 16)).prio = (s.grp (j / 16)).prio ∧ k ≤ j

/-- R557 to R563, R566: with the controller's clock on, an active edge, or a high level, of an enabled source that is neither
pending nor in service pends it; an edge of one that is merges. A latched edge does so once the clock runs. A claim takes the
first claimable source into service and answers its number, 0x3FF where there is none; DONE by the claimer ends that, any
other is counted. The end of a hold-off lets a due group deliver. EVT_SRC sets MODE and EN and a change clears the source;
EVT_HCFG with EN 0 ends the service of the port's sources. -/
def Stated.EventSourcesAndClaims : Prop :=
  ∀ s : State,
    (∀ (k : Fin 1024) (level : Bool), let x := s.src k.val
      let edge := (x.mode = 1 ∧ x.raw = false ∧ level = true) ∨ (x.mode = 2 ∧ x.raw = true ∧ level = false) ∨
        (x.mode = 3 ∧ x.raw ≠ level)
      assigned k.val = true → s.evt.clockOn = true → Does (.eventSourceEdge k level) s fun u =>
        (x.en = false → u.src k.val = { x with raw := level }) ∧
        (x.en = true → x.pend = false → x.inServ = false → (edge ∨ x.mode = 0 ∧ level = true) →
          (k.val = 912 → s.flog.buffer.length < 255) → (u.src k.val).pend = true ∧ (u.src k.val).seq = s.evt.seq + 1) ∧
        (x.en = true → (x.pend = true ∨ x.inServ = true) → edge → x.mode ≠ 0 →
          u.src k.val = { x with raw := level, merged := satInc x.merged })) ∧
    (∀ k : Fin 1024, let x := s.src k.val
      s.evt.clockOn = true → x.alatch = true → x.en = true → x.mode ≠ 0 → Does (.latchTransfer k) s fun u =>
        (u.src k.val).alatch = false ∧ (u.src k.val).pend = (!x.inServ || x.pend)) ∧
    (∀ c : Nat, rising s.evt.srcs →
      (∀ e : Fin 8, c = e.val → (∀ k, s.claimable c k = false) → Does (.eventClaim e) s fun u =>
        u.out = s.out ++ [.claim c 0x3FF] ∧ u.evt.coreReq.getLsbD c = false) ∧
      (∀ k : Nat, firstFor s c k →
        let taken := fun (u : State) => u.src k = { s.src k with
          pend := false, inServ := true, claimer := BitVec.ofNat 4 c, merged := 0 } ∧ Msg.claim c (BitVec.ofNat 10 k) ∈ u.out
        (∀ e : Fin 8, c = e.val → Does (.eventClaim e) s taken) ∧
        ∀ h : HPortIx, c = 8 + h.val → Does (.hostEventClaim h) s taken)) ∧
    (∀ (c : Nat) (v : Word), let k := v.toNat % 1024
      let ends := fun (u : State) =>
        if (s.src k).inServ = true ∧ (s.src k).claimer.toNat = c then (u.src k).inServ = false
        else u.evt.err.order = satInc s.evt.err.order ∧ u.evt.srcs = s.evt.srcs
      (∀ e : Fin 8, c = e.val → Does (.eventDone e v) s ends) ∧
      ∀ h : HPortIx, c = 8 + h.val → Does (.hostEventDone h v) s ends) ∧
    (∀ g : Fin 64, let x := s.grp g.val
      Does (.holdoffExpiry g) s fun u =>
        if x.due = true ∧ s.grpClaimable g.val = true then
          u.grp g.val = { x with due := false, delivered := x.delivered + 1, running := decide (x.holdoff ≠ 0) }
        else u = s.modGrp g.val fun y => { y with running := false }) ∧
    (∀ (k : Fin 1024) (v : DWord), let mode := BitVec.ofNat 2 (v.toNat / 2 ^ 16)
      let en := v.getLsbD 15
      assigned k.val = true → (k.val = 912 → s.flog.buffer.length < 255) → Does (.evtSrcWrite k v) s fun u =>
        (u.src k.val).mode = mode ∧ (u.src k.val).en = en ∧
        (mode ≠ (s.src k.val).mode ∨ en ≠ (s.src k.val).en → (u.src k.val).alatch = false ∧
          (u.src k.val).pend = (decide (mode = 0) && en && (s.src k.val).raw && !(s.src k.val).inServ))) ∧
    ∀ (h : HPortIx) (v : Word), Does (.evtHcfgWrite h v) s fun u =>
      (u.func h.val 0).hcfgEn = v.getLsbD 31 ∧ (u.func h.val 0).hcfgVec = BitVec.ofNat 10 v.toNat ∧
      (v.getLsbD 31 = false → ∀ k, (s.src k).inServ = true → (s.src k).claimer.toNat = 8 + h.val → (u.src k).inServ = false)

/-- R491, R567, R568, R571, R572: the oldest buffered record goes to its sector, or the sector fails; the sector to erase next
is empty once erased, or failed; after 600 s without a record an IDLE record enters the buffer. LOG_READ answers up to 62
records from FROM on in one part, none to a tenant. -/
def Stated.FlightLogInFlash : Prop :=
  (∀ (s : State) (b : Bytes) (rest : List Bytes) (k : Nat), s.flog.buffer = b :: rest → s.logPlace (hdF b 0 4) = some k →
    (Does (.logFlashWrite true) s fun u => u.flog.buffer = rest ∧
      u.sector k = { s.sector k with erased := false, slots := (s.sector k).slots ++ [b] }) ∧
    Does (.logFlashWrite false) s fun u => u.sector k = { s.sector k with failed := true, erased := false }) ∧
  (∀ (s : State) (k : Fin 16), s.eraseNext = some k.val →
    (Does (.logSectorErase k true) s fun u => u.sector k.val = { s.sector k.val with erased := true, slots := [] }) ∧
    Does (.logSectorErase k false) s fun u => u.sector k.val = { s.sector k.val with failed := true }) ∧
  (∀ s : State, s.flog.buffer.length < 256 → s.flog.lossPending = 0 → Does .logIdleMark s fun u =>
    if 600 ≤ s.flog.sinceRecord then u = { s with
      flog := { s.flog with
        buffer := s.flog.buffer ++ [s.logRecord s.flog.next 2 0xFFFF 0 []], next := s.flog.next + 1, sinceRecord := 0 } }
    else u = s) ∧
  ∀ (p : Path) (s : State) (r : ItlReq),
    let all := s.logRecords (decide (payF r.payload 0 1 0 1 = 1))
    let first := match all.head? with
      | some b => hdF b 0 4
      | none => s.flog.next.toNat
    let rs := if originOf r.path = 0 then [] else
      all.filter fun b => decide ((BitVec.ofNat 32 (hdF b 0 4) - BitVec.ofNat 32 (hdF r.payload 4 4) : Word).toNat < 2 ^ 31)
    passes s p 0x0B01 (reservedOk r.payload [(0, 0, 1), (4, 0, 32)]) r →
      ((BitVec.ofNat 32 first - BitVec.ofNat 32 (hdF r.payload 4 4) : Word).toNat < 2 ^ 31 → rs = all ∨ originOf r.path = 0) →
      rs.length ≤ 62 → (s.logPart first rs).length ≤ 4032 →
      Does (.logRead p) s fun u => u.flog = s.flog ∧ responds s u r 0 (s.logPart first rs)

/-- R557 to R563, R566: with the controller's clock on, an active edge, or a high level, of an enabled source that is
neither pending nor in service pends it; an edge of one that is merges. A latched edge does so once the clock runs. A
claim takes the first claimable source into service and answers its number, 0x3FF where there is none; DONE by the
claimer ends that, any other is counted. The end of a hold-off lets a due group deliver. EVT_SRC sets MODE and EN and
a change clears the source; EVT_HCFG with EN 0 ends the service of the port's sources. R491, R567, R568, R571, R572:
the oldest buffered record goes to its sector, or the sector fails; the sector to erase next is empty once erased, or
failed; after 600 s without a record an IDLE record enters the buffer. LOG_READ answers up to 62 records from FROM on
in one part, none to a tenant. -/
def Obligations.EventsAndFlightLog : Prop := Stated.EventSourcesAndClaims ∧ Stated.FlightLogInFlash

/-- R9, R12, R13, R221, R222, R340, R514: a register write of fewer than 4 bytes, or not aligned to its size, is ignored and counted;
reserved bits are counted and the fields of the write take effect: at once where they are RW (XLT_PRI_CFG), as pending values
where they are SH (XLT_OWN, XLT_CTAB), as a GO in a COMMIT register. Of a 64-bit register the low word waits for the upper.
A debug master without the right to write changes nothing. -/
def Stated.RegisterWrites : Prop :=
  ∀ s : State,
    let write := fun (a : Nat) (log2 : Fin 4) (v : DWord) => Instr.registerWrite (.zesin false) (BitVec.ofNat 32 a) log2 v
    let counted := fun (u : State) (bad : Bool) =>
      u.xlt.err = if bad then { s.xlt.err with rsvd := satInc s.xlt.err.rsvd } else s.xlt.err
    (∀ a v, ∀ log2 : Fin 4, a / 0x1000000 = 0x29 → (log2.val < 2 ∨ a % 2 ^ log2.val ≠ 0) →
      exec (write a log2 v) s = .next { s with xlt := { s.xlt with err := { s.xlt.err with rsvd := satInc s.xlt.err.rsvd } } }) ∧
    (∀ v : Word, 1 ≤ v.toNat % 2048 → v.toNat % 2048 ≤ 1024 → Does (write 0x29000008 2 (v.setWidth 64)) s fun u =>
      u.xlt.priTimeout.toNat = v.toNat % 2048 ∧ counted u (decide (2048 ≤ v.toNat))) ∧
    (∀ k : Nat, ∀ v : Word, k < 5760 → Does (write (0x29004000 + 4 * k) 2 (v.setWidth 64)) s fun u =>
      u.xlt.sh.act = s.xlt.sh.act ∧ Tab.find u.xlt.sh.pend.own k = some
        ⟨v.getLsbD 31, v.getLsbD 30, BitVec.ofNat 12 (v.toNat / 2 ^ 16), BitVec.ofNat 16 v.toNat⟩ ∧
      counted u (v.getLsbD 28 || v.getLsbD 29)) ∧
    (∀ k : Nat, ∀ v : DWord, k < 512 → Does (write (0x29001000 + 8 * k) 3 v) s fun u =>
      u.xlt.sh.act = s.xlt.sh.act ∧ Tab.find u.xlt.sh.pend.ctab k = some
        ⟨v.getLsbD 63, BitVec.ofNat 16 (v.toNat / 2 ^ 47), BitVec.ofNat 30 (v.toNat / 2 ^ 16)⟩ ∧
      counted u (v.getLsbD 46 || decide (v.toNat % 65536 ≠ 0))) ∧
    (∀ k : Nat, ∀ v w : Word, k < 512 →
      exec (write (0x29001000 + 8 * k) 2 (v.setWidth 64)) s =
        .next { s with lowHeld := Tab.insert s.lowHeld (0x29001000 + 8 * k) v } ∧
      (Tab.find s.lowHeld (0x29001000 + 8 * k) = some v → Does (write (0x29001004 + 8 * k) 2 (w.setWidth 64)) s fun u =>
        Tab.find u.xlt.sh.pend.ctab k = some
          ⟨w.getLsbD 31, BitVec.ofNat 16 (w.toNat / 2 ^ 15), BitVec.ofNat 30 (v.toNat / 2 ^ 16 + w.toNat * 2 ^ 16)⟩)) ∧
    (Tab.find s.lowHeld 0x29000004 = none → exec (write 0x29000004 2 1) s = exec .xltCommitGo s) ∧
    ∀ a log2 v, s.debugWrites = false → exec (.registerWrite (.zesin true) a log2 v) s = .next s

/-- R9, R10, R13, R514: what a read of a register answers (the model's registerRead; no row of the command table reads, log
entry 49). A byte, a 16-bit or a misaligned read gives zero and is counted; an offset that is not listed gives zero; an SH
register gives its active value (XLT_OWN, XLT_CTAB). Of a 64-bit register the lower word's read keeps the upper one, which the
next read of the upper word gives. A debug master without the right to read gets zero and changes nothing. -/
def Stated.RegisterReads : Prop :=
  ∀ s : State,
    (∀ a, ∀ log2 : Fin 4, a / 0x1000000 = 0x29 → (log2.val < 2 ∨ a % 2 ^ log2.val ≠ 0) →
      s.registerRead (.zesin false) a log2.val =
        (some 0, { s with xlt := { s.xlt with err := { s.xlt.err with rsvd := satInc s.xlt.err.rsvd } } })) ∧
    (∀ k < 1024, s.registerRead (.zesin false) (0x29003000 + 4 * k) 2 = (some 0, s)) ∧
    (∀ k < 5760, s.registerRead (.zesin false) (0x29004000 + 4 * k) 2 = (some (((s.unitOwner k).word.setWidth 32).setWidth 64), s)) ∧
    (∀ k < 512, s.registerRead (.zesin false) (0x29001000 + 8 * k) 3 = (some (s.ctab k).word, s)) ∧
    (∀ k < 512,
      let a := 0x29001000 + 8 * k
      let t := (s.registerRead (.zesin false) a 2).2
      (s.registerRead (.zesin false) a 2).1 = some (((s.ctab k).word.setWidth 32).setWidth 64) ∧ t.xlt = s.xlt ∧
      ∀ u : State, u.highLatch = t.highLatch → (u.registerRead (.zesin false) (a + 4) 2).1 =
        some ((BitVec.ofNat 32 ((s.ctab k).word.toNat / 2 ^ 32)).setWidth 64)) ∧
    ∀ a log2, s.debugReads = false → s.registerRead (.zesin true) a log2 = (some 0, s)

/-- R9, R12, R13, R221, R222, R340, R514: a register write of fewer than 4 bytes, or not aligned to its size, is ignored
and counted; reserved bits are counted and the fields of the write take effect: at once where they are RW
(XLT_PRI_CFG), as pending values where they are SH (XLT_OWN, XLT_CTAB), as a GO in a COMMIT register. Of a 64-bit
register the low word waits for the upper. A debug master without the right to write changes nothing. R9, R10, R13,
R514: what a read of a register answers (the model's registerRead; no row of the command table reads, log entry 49). A
byte, a 16-bit or a misaligned read gives zero and is counted; an offset that is not listed gives zero; an SH register
gives its active value (XLT_OWN, XLT_CTAB). Of a 64-bit register the lower word's read keeps the upper one, which the
next read of the upper word gives. A debug master without the right to read gets zero and changes nothing. -/
def Obligations.RegisterAccess : Prop := Stated.RegisterWrites ∧ Stated.RegisterReads
end

