-- ==== Sys2Proof/Laws/Memory.lean ====
section
/-! SUPPORT. Sparse tables and the memory: a read after a write, writes that leave every other place alone, and the
canonical form that every memory operation keeps. -/

namespace Sys2Proof.Machine

/-! ### Tables -/

@[simp] theorem Tab.get_insert_same {α : Type} (d : Nat → α) (t : Tab α) (k : Nat) (v : α) :
    Tab.get d (Tab.insert t k v) k = v := by
  induction t with
  | nil => simp [Tab.insert, Tab.get]
  | cons e t ih =>
    obtain ⟨j, w⟩ := e
    simp only [Tab.insert]
    split
    · simp [Tab.get]
    · split
      · simp [Tab.get]
      · rename_i h; simp [Tab.get, Ne.symm h, ih]

theorem Tab.get_insert_other {α : Type} (d : Nat → α) (t : Tab α) (k j : Nat) (v : α) (h : j ≠ k) :
    Tab.get d (Tab.insert t k v) j = Tab.get d t j := by
  induction t with
  | nil => simp [Tab.insert, Tab.get, Ne.symm h]
  | cons e t ih =>
    obtain ⟨i, w⟩ := e
    simp only [Tab.insert]
    split
    · simp [Tab.get, Ne.symm h]
    · split
      · rename_i h'; subst h'; simp [Tab.get, Ne.symm h]
      · simp [Tab.get, ih]

/-- An entry after an update: the new value at its key, the old one elsewhere. -/
theorem Tab.get_insert {α : Type} (d : Nat → α) (t : Tab α) (k j : Nat) (v : α) :
    Tab.get d (Tab.insert t k v) j = if j = k then v else Tab.get d t j := by
  split
  · rename_i h; subst h; simp
  · rename_i h; exact Tab.get_insert_other d t k j v h

theorem Tab.wfFrom_mono {α : Type} [DecidableEq α] (d : Nat → α) {n m : Nat} (t : Tab α) (h : n ≤ m)
    (hw : Tab.wfFrom d m t = true) : Tab.wfFrom d n t = true := by
  cases t with
  | nil => rfl
  | cons e t => simp_all [Tab.wfFrom]; omega

/-- Below the first key of a canonical table every key reads as its default. -/
theorem Tab.get_below {α : Type} [DecidableEq α] (d : Nat → α) {n : Nat} (t : Tab α) (k : Nat)
    (hw : Tab.wfFrom d n t = true) (h : k < n) : Tab.get d t k = d k := by
  induction t generalizing n with
  | nil => rfl
  | cons e t ih =>
    obtain ⟨j, v⟩ := e
    simp [Tab.wfFrom] at hw
    have : j ≠ k := by omega
    simp [Tab.get, this, ih hw.2 (by omega)]

theorem Tab.wfFrom_insert {α : Type} [DecidableEq α] (d : Nat → α) {n : Nat} (t : Tab α) (k : Nat) (v : α)
    (hw : Tab.wfFrom d n t = true) (hk : n ≤ k) (hv : v ≠ d k) : Tab.wfFrom d n (Tab.insert t k v) = true := by
  induction t generalizing n with
  | nil => simp [Tab.insert, Tab.wfFrom, hk, hv]
  | cons e t ih =>
    obtain ⟨j, w⟩ := e
    simp [Tab.wfFrom] at hw
    simp only [Tab.insert]
    split
    · rename_i h; simp [Tab.wfFrom, hk, hv, hw]; omega
    · split
      · rename_i h; subst h; simp [Tab.wfFrom, hv, hw]
      · have : j + 1 ≤ k := by omega
        simp [Tab.wfFrom, hw, ih hw.2 this]

theorem Tab.wfFrom_erase {α : Type} [DecidableEq α] (d : Nat → α) {n : Nat} (t : Tab α) (k : Nat)
    (hw : Tab.wfFrom d n t = true) : Tab.wfFrom d n (Tab.erase t k) = true := by
  induction t generalizing n with
  | nil => rfl
  | cons e t ih =>
    obtain ⟨j, w⟩ := e
    simp [Tab.wfFrom] at hw
    simp only [Tab.erase]
    split
    · exact Tab.wfFrom_mono d t (by omega) hw.2
    · split
      · simp [Tab.wfFrom, hw]
      · simp [Tab.wfFrom, hw, ih hw.2]

theorem Tab.wfFrom_filter {α : Type} [DecidableEq α] (d : Nat → α) {n : Nat} (t : Tab α) (p : Nat × α → Bool)
    (hw : Tab.wfFrom d n t = true) : Tab.wfFrom d n (t.filter p) = true := by
  induction t generalizing n with
  | nil => rfl
  | cons e t ih =>
    obtain ⟨j, w⟩ := e
    simp [Tab.wfFrom] at hw
    simp only [List.filter_cons]
    split
    · simp [Tab.wfFrom, hw, ih hw.2]
    · exact Tab.wfFrom_mono d _ (by omega) (ih hw.2)

/-- Writing a key keeps the canonical form. -/
theorem Tab.set_wf {α : Type} [DecidableEq α] (d : Nat → α) (t : Tab α) (k : Nat) (v : α) (h : Tab.wf d t = true) :
    Tab.wf d (Tab.set d t k v) = true := by
  unfold Tab.set
  split
  · exact Tab.wfFrom_erase d t k h
  · rename_i hv; exact Tab.wfFrom_insert d t k v h (by omega) hv

theorem Tab.get_erase_other {α : Type} (d : Nat → α) (t : Tab α) (k j : Nat) (h : j ≠ k) :
    Tab.get d (Tab.erase t k) j = Tab.get d t j := by
  induction t with
  | nil => rfl
  | cons e t ih =>
    obtain ⟨i, w⟩ := e
    simp only [Tab.erase]
    split
    · rename_i hi; subst hi; simp [Tab.get, Ne.symm h]
    · split
      · rfl
      · simp [Tab.get, ih]

theorem Tab.get_erase_same {α : Type} [DecidableEq α] (d : Nat → α) {n : Nat} (t : Tab α) (k : Nat)
    (hw : Tab.wfFrom d n t = true) : Tab.get d (Tab.erase t k) k = d k := by
  induction t generalizing n with
  | nil => rfl
  | cons e t ih =>
    obtain ⟨i, w⟩ := e
    simp [Tab.wfFrom] at hw
    simp only [Tab.erase]
    split
    · rename_i hi; subst hi; exact Tab.get_below d t i hw.2 (by omega)
    · rename_i hi
      split
      · rename_i hk; simp [Tab.get, hi, Tab.get_below d t k hw.2 (by omega)]
      · simp [Tab.get, hi, ih hw.2]

/-- What a key reads as after a write to a canonical table: the value at that key, nothing else changed. -/
theorem Tab.get_set {α : Type} [DecidableEq α] (d : Nat → α) (t : Tab α) (k j : Nat) (v : α) (h : Tab.wf d t = true) :
    Tab.get d (Tab.set d t k v) j = if j = k then v else Tab.get d t j := by
  unfold Tab.set
  split
  · rename_i hv
    split
    · rename_i hj; subst hj; rw [Tab.get_erase_same d t j h, hv]
    · rename_i hj; exact Tab.get_erase_other d t k j hj
  · exact Tab.get_insert d t k j v

/-! ### The memory -/

theorem Memory.write_wf (m : List Host.Cell) (a : Nat) (b : Byte) (h : Memory.wf m = true) :
    Memory.wf (Memory.write m a b) = true := Tab.set_wf memDefault m a b h

/-- A byte read after a write: the byte written at its address, every other byte as before. -/
theorem Memory.read_write (m : List Host.Cell) (a k : Nat) (b : Byte) (h : Memory.wf m = true) :
    Memory.read (Memory.write m a b) k = if k = a then b else Memory.read m k := Tab.get_set memDefault m a k b h

theorem Memory.writes_wf (bs : Bytes) (m : List Host.Cell) (a : Nat) (h : Memory.wf m = true) :
    Memory.wf (Memory.writes m a bs) = true := by
  induction bs generalizing m a with
  | nil => exact h
  | cons b t ih => exact ih _ _ (Memory.write_wf m a b h)

/-- Bytes outside those stored are as before. -/
theorem Memory.read_writes_outside (bs : Bytes) (m : List Host.Cell) (a k : Nat) (h : Memory.wf m = true)
    (hk : k < a ∨ a + bs.length ≤ k) : Memory.read (Memory.writes m a bs) k = Memory.read m k := by
  induction bs generalizing m a with
  | nil => rfl
  | cons b t ih =>
    simp only [List.length_cons] at hk
    rw [Memory.writes, ih _ _ (Memory.write_wf m a b h) (by omega), Memory.read_write m a k b h]
    have : k ≠ a := by omega
    simp [this]

/-- The byte stored at each address is what a read gives. -/
theorem Memory.read_writes_inside (bs : Bytes) (m : List Host.Cell) (a i : Nat) (h : Memory.wf m = true)
    (hi : i < bs.length) : Memory.read (Memory.writes m a bs) (a + i) = bs[i] := by
  induction bs generalizing m a i with
  | nil => simp at hi
  | cons b t ih =>
    rw [Memory.writes]
    cases i with
    | zero =>
      rw [Memory.read_writes_outside t _ _ _ (Memory.write_wf m a b h) (by omega), Memory.read_write m a _ b h]
      simp
    | succ i =>
      have := ih (Memory.write m a b) (a + 1) i (Memory.write_wf m a b h) (by simpa using hi)
      rw [show a + (i + 1) = a + 1 + i by omega, this]; simp

theorem Memory.clear_wf (m : List Host.Cell) (a n : Nat) (h : Memory.wf m = true) : Memory.wf (Memory.clear m a n) = true :=
  Tab.wfFrom_filter memDefault m _ h

theorem Memory.copy_wf (m : List Host.Cell) (a b n : Nat) (h : Memory.wf m = true) :
    Memory.wf (Memory.copy m a b n) = true := by
  unfold Memory.copy
  generalize Memory.window m a n = w
  have hc := Memory.clear_wf m b n h
  generalize Memory.clear m b n = c at hc
  induction w generalizing c with
  | nil => exact hc
  | cons e w ih => exact ih _ (Memory.write_wf c _ _ hc)

/-- After a clear every byte of the run reads as one that nothing has written, every other byte as before. -/
theorem Memory.read_clear (m : List Host.Cell) (a n k : Nat) :
    Memory.read (Memory.clear m a n) k = if a ≤ k ∧ k < a + n then memDefault k else Memory.read m k := by
  unfold Memory.read Memory.clear
  induction m with
  | nil => simp [Tab.get]
  | cons c m ih =>
    obtain ⟨j, v⟩ := c
    simp only [List.filter_cons]
    by_cases hj : j = k
    · subst hj
      by_cases hc : j < a ∨ a + n ≤ j
      · have : ¬ (a ≤ j ∧ j < a + n) := by omega
        simp [hc, Tab.get, this]
      · have h2 : a ≤ j ∧ j < a + n := by omega
        simp only [hc, decide_false, Bool.false_eq_true, if_false, ih, h2, and_self, if_true]
    · split <;> simp only [Tab.get, hj, if_false, ih]

end Sys2Proof.Machine
end

