-- ==== Sys2Proof/Laws/State.lean ====
section
/-! SUPPORT. One lemma per field per update of State, true by rfl, and what an entry of a table is after an update. -/

namespace Sys2Proof.Machine

/-! ### modLp -/

@[simp] theorem State.modLp_pending (s : State) (f : Mem → Mem) : (s.modLp f).pending = s.pending := rfl
@[simp] theorem State.modLp_out (s : State) (f : Mem → Mem) : (s.modLp f).out = s.out := rfl
@[simp] theorem State.modLp_mem (s : State) (f : Mem → Mem) : (s.modLp f).mem = s.mem := rfl
@[simp] theorem State.modLp_fresh (s : State) (f : Mem → Mem) : (s.modLp f).fresh = s.fresh := rfl
@[simp] theorem State.modLp_lowHeld (s : State) (f : Mem → Mem) : (s.modLp f).lowHeld = s.lowHeld := rfl
@[simp] theorem State.modLp_highLatch (s : State) (f : Mem → Mem) : (s.modLp f).highLatch = s.highLatch := rfl
@[simp] theorem State.modLp_tiles (s : State) (f : Mem → Mem) : (s.modLp f).tiles = s.tiles := rfl
@[simp] theorem State.modLp_cycles (s : State) (f : Mem → Mem) : (s.modLp f).cycles = s.cycles := rfl
@[simp] theorem State.modLp_mesh (s : State) (f : Mem → Mem) : (s.modLp f).mesh = s.mesh := rfl
@[simp] theorem State.modLp_lp (s : State) (f : Mem → Mem) : (s.modLp f).lp = f s.lp := rfl
@[simp] theorem State.modLp_xlt (s : State) (f : Mem → Mem) : (s.modLp f).xlt = s.xlt := rfl
@[simp] theorem State.modLp_brd (s : State) (f : Mem → Mem) : (s.modLp f).brd = s.brd := rfl
@[simp] theorem State.modLp_lnk (s : State) (f : Mem → Mem) : (s.modLp f).lnk = s.lnk := rfl
@[simp] theorem State.modLp_fab (s : State) (f : Mem → Mem) : (s.modLp f).fab = s.fab := rfl
@[simp] theorem State.modLp_hst (s : State) (f : Mem → Mem) : (s.modLp f).hst = s.hst := rfl
@[simp] theorem State.modLp_que (s : State) (f : Mem → Mem) : (s.modLp f).que = s.que := rfl
@[simp] theorem State.modLp_itl (s : State) (f : Mem → Mem) : (s.modLp f).itl = s.itl := rfl
@[simp] theorem State.modLp_sched (s : State) (f : Mem → Mem) : (s.modLp f).sched = s.sched := rfl
@[simp] theorem State.modLp_cad (s : State) (f : Mem → Mem) : (s.modLp f).cad = s.cad := rfl
@[simp] theorem State.modLp_pwr (s : State) (f : Mem → Mem) : (s.modLp f).pwr = s.pwr := rfl
@[simp] theorem State.modLp_rcv (s : State) (f : Mem → Mem) : (s.modLp f).rcv = s.rcv := rfl
@[simp] theorem State.modLp_rot (s : State) (f : Mem → Mem) : (s.modLp f).rot = s.rot := rfl
@[simp] theorem State.modLp_cry (s : State) (f : Mem → Mem) : (s.modLp f).cry = s.cry := rfl
@[simp] theorem State.modLp_evt (s : State) (f : Mem → Mem) : (s.modLp f).evt = s.evt := rfl
@[simp] theorem State.modLp_flog (s : State) (f : Mem → Mem) : (s.modLp f).flog = s.flog := rfl
@[simp] theorem State.modLp_boot (s : State) (f : Mem → Mem) : (s.modLp f).boot = s.boot := rfl

/-! ### modXlt -/

@[simp] theorem State.modXlt_pending (s : State) (f : Xlt → Xlt) : (s.modXlt f).pending = s.pending := rfl
@[simp] theorem State.modXlt_out (s : State) (f : Xlt → Xlt) : (s.modXlt f).out = s.out := rfl
@[simp] theorem State.modXlt_mem (s : State) (f : Xlt → Xlt) : (s.modXlt f).mem = s.mem := rfl
@[simp] theorem State.modXlt_fresh (s : State) (f : Xlt → Xlt) : (s.modXlt f).fresh = s.fresh := rfl
@[simp] theorem State.modXlt_lowHeld (s : State) (f : Xlt → Xlt) : (s.modXlt f).lowHeld = s.lowHeld := rfl
@[simp] theorem State.modXlt_highLatch (s : State) (f : Xlt → Xlt) : (s.modXlt f).highLatch = s.highLatch := rfl
@[simp] theorem State.modXlt_tiles (s : State) (f : Xlt → Xlt) : (s.modXlt f).tiles = s.tiles := rfl
@[simp] theorem State.modXlt_cycles (s : State) (f : Xlt → Xlt) : (s.modXlt f).cycles = s.cycles := rfl
@[simp] theorem State.modXlt_mesh (s : State) (f : Xlt → Xlt) : (s.modXlt f).mesh = s.mesh := rfl
@[simp] theorem State.modXlt_lp (s : State) (f : Xlt → Xlt) : (s.modXlt f).lp = s.lp := rfl
@[simp] theorem State.modXlt_xlt (s : State) (f : Xlt → Xlt) : (s.modXlt f).xlt = f s.xlt := rfl
@[simp] theorem State.modXlt_brd (s : State) (f : Xlt → Xlt) : (s.modXlt f).brd = s.brd := rfl
@[simp] theorem State.modXlt_lnk (s : State) (f : Xlt → Xlt) : (s.modXlt f).lnk = s.lnk := rfl
@[simp] theorem State.modXlt_fab (s : State) (f : Xlt → Xlt) : (s.modXlt f).fab = s.fab := rfl
@[simp] theorem State.modXlt_hst (s : State) (f : Xlt → Xlt) : (s.modXlt f).hst = s.hst := rfl
@[simp] theorem State.modXlt_que (s : State) (f : Xlt → Xlt) : (s.modXlt f).que = s.que := rfl
@[simp] theorem State.modXlt_itl (s : State) (f : Xlt → Xlt) : (s.modXlt f).itl = s.itl := rfl
@[simp] theorem State.modXlt_sched (s : State) (f : Xlt → Xlt) : (s.modXlt f).sched = s.sched := rfl
@[simp] theorem State.modXlt_cad (s : State) (f : Xlt → Xlt) : (s.modXlt f).cad = s.cad := rfl
@[simp] theorem State.modXlt_pwr (s : State) (f : Xlt → Xlt) : (s.modXlt f).pwr = s.pwr := rfl
@[simp] theorem State.modXlt_rcv (s : State) (f : Xlt → Xlt) : (s.modXlt f).rcv = s.rcv := rfl
@[simp] theorem State.modXlt_rot (s : State) (f : Xlt → Xlt) : (s.modXlt f).rot = s.rot := rfl
@[simp] theorem State.modXlt_cry (s : State) (f : Xlt → Xlt) : (s.modXlt f).cry = s.cry := rfl
@[simp] theorem State.modXlt_evt (s : State) (f : Xlt → Xlt) : (s.modXlt f).evt = s.evt := rfl
@[simp] theorem State.modXlt_flog (s : State) (f : Xlt → Xlt) : (s.modXlt f).flog = s.flog := rfl
@[simp] theorem State.modXlt_boot (s : State) (f : Xlt → Xlt) : (s.modXlt f).boot = s.boot := rfl

/-! ### modBrd -/

@[simp] theorem State.modBrd_pending (s : State) (f : Brd → Brd) : (s.modBrd f).pending = s.pending := rfl
@[simp] theorem State.modBrd_out (s : State) (f : Brd → Brd) : (s.modBrd f).out = s.out := rfl
@[simp] theorem State.modBrd_mem (s : State) (f : Brd → Brd) : (s.modBrd f).mem = s.mem := rfl
@[simp] theorem State.modBrd_fresh (s : State) (f : Brd → Brd) : (s.modBrd f).fresh = s.fresh := rfl
@[simp] theorem State.modBrd_lowHeld (s : State) (f : Brd → Brd) : (s.modBrd f).lowHeld = s.lowHeld := rfl
@[simp] theorem State.modBrd_highLatch (s : State) (f : Brd → Brd) : (s.modBrd f).highLatch = s.highLatch := rfl
@[simp] theorem State.modBrd_tiles (s : State) (f : Brd → Brd) : (s.modBrd f).tiles = s.tiles := rfl
@[simp] theorem State.modBrd_cycles (s : State) (f : Brd → Brd) : (s.modBrd f).cycles = s.cycles := rfl
@[simp] theorem State.modBrd_mesh (s : State) (f : Brd → Brd) : (s.modBrd f).mesh = s.mesh := rfl
@[simp] theorem State.modBrd_lp (s : State) (f : Brd → Brd) : (s.modBrd f).lp = s.lp := rfl
@[simp] theorem State.modBrd_xlt (s : State) (f : Brd → Brd) : (s.modBrd f).xlt = s.xlt := rfl
@[simp] theorem State.modBrd_brd (s : State) (f : Brd → Brd) : (s.modBrd f).brd = f s.brd := rfl
@[simp] theorem State.modBrd_lnk (s : State) (f : Brd → Brd) : (s.modBrd f).lnk = s.lnk := rfl
@[simp] theorem State.modBrd_fab (s : State) (f : Brd → Brd) : (s.modBrd f).fab = s.fab := rfl
@[simp] theorem State.modBrd_hst (s : State) (f : Brd → Brd) : (s.modBrd f).hst = s.hst := rfl
@[simp] theorem State.modBrd_que (s : State) (f : Brd → Brd) : (s.modBrd f).que = s.que := rfl
@[simp] theorem State.modBrd_itl (s : State) (f : Brd → Brd) : (s.modBrd f).itl = s.itl := rfl
@[simp] theorem State.modBrd_sched (s : State) (f : Brd → Brd) : (s.modBrd f).sched = s.sched := rfl
@[simp] theorem State.modBrd_cad (s : State) (f : Brd → Brd) : (s.modBrd f).cad = s.cad := rfl
@[simp] theorem State.modBrd_pwr (s : State) (f : Brd → Brd) : (s.modBrd f).pwr = s.pwr := rfl
@[simp] theorem State.modBrd_rcv (s : State) (f : Brd → Brd) : (s.modBrd f).rcv = s.rcv := rfl
@[simp] theorem State.modBrd_rot (s : State) (f : Brd → Brd) : (s.modBrd f).rot = s.rot := rfl
@[simp] theorem State.modBrd_cry (s : State) (f : Brd → Brd) : (s.modBrd f).cry = s.cry := rfl
@[simp] theorem State.modBrd_evt (s : State) (f : Brd → Brd) : (s.modBrd f).evt = s.evt := rfl
@[simp] theorem State.modBrd_flog (s : State) (f : Brd → Brd) : (s.modBrd f).flog = s.flog := rfl
@[simp] theorem State.modBrd_boot (s : State) (f : Brd → Brd) : (s.modBrd f).boot = s.boot := rfl

/-! ### modFab -/

@[simp] theorem State.modFab_pending (s : State) (f : Fab → Fab) : (s.modFab f).pending = s.pending := rfl
@[simp] theorem State.modFab_out (s : State) (f : Fab → Fab) : (s.modFab f).out = s.out := rfl
@[simp] theorem State.modFab_mem (s : State) (f : Fab → Fab) : (s.modFab f).mem = s.mem := rfl
@[simp] theorem State.modFab_fresh (s : State) (f : Fab → Fab) : (s.modFab f).fresh = s.fresh := rfl
@[simp] theorem State.modFab_lowHeld (s : State) (f : Fab → Fab) : (s.modFab f).lowHeld = s.lowHeld := rfl
@[simp] theorem State.modFab_highLatch (s : State) (f : Fab → Fab) : (s.modFab f).highLatch = s.highLatch := rfl
@[simp] theorem State.modFab_tiles (s : State) (f : Fab → Fab) : (s.modFab f).tiles = s.tiles := rfl
@[simp] theorem State.modFab_cycles (s : State) (f : Fab → Fab) : (s.modFab f).cycles = s.cycles := rfl
@[simp] theorem State.modFab_mesh (s : State) (f : Fab → Fab) : (s.modFab f).mesh = s.mesh := rfl
@[simp] theorem State.modFab_lp (s : State) (f : Fab → Fab) : (s.modFab f).lp = s.lp := rfl
@[simp] theorem State.modFab_xlt (s : State) (f : Fab → Fab) : (s.modFab f).xlt = s.xlt := rfl
@[simp] theorem State.modFab_brd (s : State) (f : Fab → Fab) : (s.modFab f).brd = s.brd := rfl
@[simp] theorem State.modFab_lnk (s : State) (f : Fab → Fab) : (s.modFab f).lnk = s.lnk := rfl
@[simp] theorem State.modFab_fab (s : State) (f : Fab → Fab) : (s.modFab f).fab = f s.fab := rfl
@[simp] theorem State.modFab_hst (s : State) (f : Fab → Fab) : (s.modFab f).hst = s.hst := rfl
@[simp] theorem State.modFab_que (s : State) (f : Fab → Fab) : (s.modFab f).que = s.que := rfl
@[simp] theorem State.modFab_itl (s : State) (f : Fab → Fab) : (s.modFab f).itl = s.itl := rfl
@[simp] theorem State.modFab_sched (s : State) (f : Fab → Fab) : (s.modFab f).sched = s.sched := rfl
@[simp] theorem State.modFab_cad (s : State) (f : Fab → Fab) : (s.modFab f).cad = s.cad := rfl
@[simp] theorem State.modFab_pwr (s : State) (f : Fab → Fab) : (s.modFab f).pwr = s.pwr := rfl
@[simp] theorem State.modFab_rcv (s : State) (f : Fab → Fab) : (s.modFab f).rcv = s.rcv := rfl
@[simp] theorem State.modFab_rot (s : State) (f : Fab → Fab) : (s.modFab f).rot = s.rot := rfl
@[simp] theorem State.modFab_cry (s : State) (f : Fab → Fab) : (s.modFab f).cry = s.cry := rfl
@[simp] theorem State.modFab_evt (s : State) (f : Fab → Fab) : (s.modFab f).evt = s.evt := rfl
@[simp] theorem State.modFab_flog (s : State) (f : Fab → Fab) : (s.modFab f).flog = s.flog := rfl
@[simp] theorem State.modFab_boot (s : State) (f : Fab → Fab) : (s.modFab f).boot = s.boot := rfl

/-! ### modHst -/

@[simp] theorem State.modHst_pending (s : State) (f : Hst → Hst) : (s.modHst f).pending = s.pending := rfl
@[simp] theorem State.modHst_out (s : State) (f : Hst → Hst) : (s.modHst f).out = s.out := rfl
@[simp] theorem State.modHst_mem (s : State) (f : Hst → Hst) : (s.modHst f).mem = s.mem := rfl
@[simp] theorem State.modHst_fresh (s : State) (f : Hst → Hst) : (s.modHst f).fresh = s.fresh := rfl
@[simp] theorem State.modHst_lowHeld (s : State) (f : Hst → Hst) : (s.modHst f).lowHeld = s.lowHeld := rfl
@[simp] theorem State.modHst_highLatch (s : State) (f : Hst → Hst) : (s.modHst f).highLatch = s.highLatch := rfl
@[simp] theorem State.modHst_tiles (s : State) (f : Hst → Hst) : (s.modHst f).tiles = s.tiles := rfl
@[simp] theorem State.modHst_cycles (s : State) (f : Hst → Hst) : (s.modHst f).cycles = s.cycles := rfl
@[simp] theorem State.modHst_mesh (s : State) (f : Hst → Hst) : (s.modHst f).mesh = s.mesh := rfl
@[simp] theorem State.modHst_lp (s : State) (f : Hst → Hst) : (s.modHst f).lp = s.lp := rfl
@[simp] theorem State.modHst_xlt (s : State) (f : Hst → Hst) : (s.modHst f).xlt = s.xlt := rfl
@[simp] theorem State.modHst_brd (s : State) (f : Hst → Hst) : (s.modHst f).brd = s.brd := rfl
@[simp] theorem State.modHst_lnk (s : State) (f : Hst → Hst) : (s.modHst f).lnk = s.lnk := rfl
@[simp] theorem State.modHst_fab (s : State) (f : Hst → Hst) : (s.modHst f).fab = s.fab := rfl
@[simp] theorem State.modHst_hst (s : State) (f : Hst → Hst) : (s.modHst f).hst = f s.hst := rfl
@[simp] theorem State.modHst_que (s : State) (f : Hst → Hst) : (s.modHst f).que = s.que := rfl
@[simp] theorem State.modHst_itl (s : State) (f : Hst → Hst) : (s.modHst f).itl = s.itl := rfl
@[simp] theorem State.modHst_sched (s : State) (f : Hst → Hst) : (s.modHst f).sched = s.sched := rfl
@[simp] theorem State.modHst_cad (s : State) (f : Hst → Hst) : (s.modHst f).cad = s.cad := rfl
@[simp] theorem State.modHst_pwr (s : State) (f : Hst → Hst) : (s.modHst f).pwr = s.pwr := rfl
@[simp] theorem State.modHst_rcv (s : State) (f : Hst → Hst) : (s.modHst f).rcv = s.rcv := rfl
@[simp] theorem State.modHst_rot (s : State) (f : Hst → Hst) : (s.modHst f).rot = s.rot := rfl
@[simp] theorem State.modHst_cry (s : State) (f : Hst → Hst) : (s.modHst f).cry = s.cry := rfl
@[simp] theorem State.modHst_evt (s : State) (f : Hst → Hst) : (s.modHst f).evt = s.evt := rfl
@[simp] theorem State.modHst_flog (s : State) (f : Hst → Hst) : (s.modHst f).flog = s.flog := rfl
@[simp] theorem State.modHst_boot (s : State) (f : Hst → Hst) : (s.modHst f).boot = s.boot := rfl

/-! ### modQue -/

@[simp] theorem State.modQue_pending (s : State) (f : Que → Que) : (s.modQue f).pending = s.pending := rfl
@[simp] theorem State.modQue_out (s : State) (f : Que → Que) : (s.modQue f).out = s.out := rfl
@[simp] theorem State.modQue_mem (s : State) (f : Que → Que) : (s.modQue f).mem = s.mem := rfl
@[simp] theorem State.modQue_fresh (s : State) (f : Que → Que) : (s.modQue f).fresh = s.fresh := rfl
@[simp] theorem State.modQue_lowHeld (s : State) (f : Que → Que) : (s.modQue f).lowHeld = s.lowHeld := rfl
@[simp] theorem State.modQue_highLatch (s : State) (f : Que → Que) : (s.modQue f).highLatch = s.highLatch := rfl
@[simp] theorem State.modQue_tiles (s : State) (f : Que → Que) : (s.modQue f).tiles = s.tiles := rfl
@[simp] theorem State.modQue_cycles (s : State) (f : Que → Que) : (s.modQue f).cycles = s.cycles := rfl
@[simp] theorem State.modQue_mesh (s : State) (f : Que → Que) : (s.modQue f).mesh = s.mesh := rfl
@[simp] theorem State.modQue_lp (s : State) (f : Que → Que) : (s.modQue f).lp = s.lp := rfl
@[simp] theorem State.modQue_xlt (s : State) (f : Que → Que) : (s.modQue f).xlt = s.xlt := rfl
@[simp] theorem State.modQue_brd (s : State) (f : Que → Que) : (s.modQue f).brd = s.brd := rfl
@[simp] theorem State.modQue_lnk (s : State) (f : Que → Que) : (s.modQue f).lnk = s.lnk := rfl
@[simp] theorem State.modQue_fab (s : State) (f : Que → Que) : (s.modQue f).fab = s.fab := rfl
@[simp] theorem State.modQue_hst (s : State) (f : Que → Que) : (s.modQue f).hst = s.hst := rfl
@[simp] theorem State.modQue_que (s : State) (f : Que → Que) : (s.modQue f).que = f s.que := rfl
@[simp] theorem State.modQue_itl (s : State) (f : Que → Que) : (s.modQue f).itl = s.itl := rfl
@[simp] theorem State.modQue_sched (s : State) (f : Que → Que) : (s.modQue f).sched = s.sched := rfl
@[simp] theorem State.modQue_cad (s : State) (f : Que → Que) : (s.modQue f).cad = s.cad := rfl
@[simp] theorem State.modQue_pwr (s : State) (f : Que → Que) : (s.modQue f).pwr = s.pwr := rfl
@[simp] theorem State.modQue_rcv (s : State) (f : Que → Que) : (s.modQue f).rcv = s.rcv := rfl
@[simp] theorem State.modQue_rot (s : State) (f : Que → Que) : (s.modQue f).rot = s.rot := rfl
@[simp] theorem State.modQue_cry (s : State) (f : Que → Que) : (s.modQue f).cry = s.cry := rfl
@[simp] theorem State.modQue_evt (s : State) (f : Que → Que) : (s.modQue f).evt = s.evt := rfl
@[simp] theorem State.modQue_flog (s : State) (f : Que → Que) : (s.modQue f).flog = s.flog := rfl
@[simp] theorem State.modQue_boot (s : State) (f : Que → Que) : (s.modQue f).boot = s.boot := rfl

/-! ### modItl -/

@[simp] theorem State.modItl_pending (s : State) (f : Itl → Itl) : (s.modItl f).pending = s.pending := rfl
@[simp] theorem State.modItl_out (s : State) (f : Itl → Itl) : (s.modItl f).out = s.out := rfl
@[simp] theorem State.modItl_mem (s : State) (f : Itl → Itl) : (s.modItl f).mem = s.mem := rfl
@[simp] theorem State.modItl_fresh (s : State) (f : Itl → Itl) : (s.modItl f).fresh = s.fresh := rfl
@[simp] theorem State.modItl_lowHeld (s : State) (f : Itl → Itl) : (s.modItl f).lowHeld = s.lowHeld := rfl
@[simp] theorem State.modItl_highLatch (s : State) (f : Itl → Itl) : (s.modItl f).highLatch = s.highLatch := rfl
@[simp] theorem State.modItl_tiles (s : State) (f : Itl → Itl) : (s.modItl f).tiles = s.tiles := rfl
@[simp] theorem State.modItl_cycles (s : State) (f : Itl → Itl) : (s.modItl f).cycles = s.cycles := rfl
@[simp] theorem State.modItl_mesh (s : State) (f : Itl → Itl) : (s.modItl f).mesh = s.mesh := rfl
@[simp] theorem State.modItl_lp (s : State) (f : Itl → Itl) : (s.modItl f).lp = s.lp := rfl
@[simp] theorem State.modItl_xlt (s : State) (f : Itl → Itl) : (s.modItl f).xlt = s.xlt := rfl
@[simp] theorem State.modItl_brd (s : State) (f : Itl → Itl) : (s.modItl f).brd = s.brd := rfl
@[simp] theorem State.modItl_lnk (s : State) (f : Itl → Itl) : (s.modItl f).lnk = s.lnk := rfl
@[simp] theorem State.modItl_fab (s : State) (f : Itl → Itl) : (s.modItl f).fab = s.fab := rfl
@[simp] theorem State.modItl_hst (s : State) (f : Itl → Itl) : (s.modItl f).hst = s.hst := rfl
@[simp] theorem State.modItl_que (s : State) (f : Itl → Itl) : (s.modItl f).que = s.que := rfl
@[simp] theorem State.modItl_itl (s : State) (f : Itl → Itl) : (s.modItl f).itl = f s.itl := rfl
@[simp] theorem State.modItl_sched (s : State) (f : Itl → Itl) : (s.modItl f).sched = s.sched := rfl
@[simp] theorem State.modItl_cad (s : State) (f : Itl → Itl) : (s.modItl f).cad = s.cad := rfl
@[simp] theorem State.modItl_pwr (s : State) (f : Itl → Itl) : (s.modItl f).pwr = s.pwr := rfl
@[simp] theorem State.modItl_rcv (s : State) (f : Itl → Itl) : (s.modItl f).rcv = s.rcv := rfl
@[simp] theorem State.modItl_rot (s : State) (f : Itl → Itl) : (s.modItl f).rot = s.rot := rfl
@[simp] theorem State.modItl_cry (s : State) (f : Itl → Itl) : (s.modItl f).cry = s.cry := rfl
@[simp] theorem State.modItl_evt (s : State) (f : Itl → Itl) : (s.modItl f).evt = s.evt := rfl
@[simp] theorem State.modItl_flog (s : State) (f : Itl → Itl) : (s.modItl f).flog = s.flog := rfl
@[simp] theorem State.modItl_boot (s : State) (f : Itl → Itl) : (s.modItl f).boot = s.boot := rfl

/-! ### modSched -/

@[simp] theorem State.modSched_pending (s : State) (f : Sched → Sched) : (s.modSched f).pending = s.pending := rfl
@[simp] theorem State.modSched_out (s : State) (f : Sched → Sched) : (s.modSched f).out = s.out := rfl
@[simp] theorem State.modSched_mem (s : State) (f : Sched → Sched) : (s.modSched f).mem = s.mem := rfl
@[simp] theorem State.modSched_fresh (s : State) (f : Sched → Sched) : (s.modSched f).fresh = s.fresh := rfl
@[simp] theorem State.modSched_lowHeld (s : State) (f : Sched → Sched) : (s.modSched f).lowHeld = s.lowHeld := rfl
@[simp] theorem State.modSched_highLatch (s : State) (f : Sched → Sched) : (s.modSched f).highLatch = s.highLatch := rfl
@[simp] theorem State.modSched_tiles (s : State) (f : Sched → Sched) : (s.modSched f).tiles = s.tiles := rfl
@[simp] theorem State.modSched_cycles (s : State) (f : Sched → Sched) : (s.modSched f).cycles = s.cycles := rfl
@[simp] theorem State.modSched_mesh (s : State) (f : Sched → Sched) : (s.modSched f).mesh = s.mesh := rfl
@[simp] theorem State.modSched_lp (s : State) (f : Sched → Sched) : (s.modSched f).lp = s.lp := rfl
@[simp] theorem State.modSched_xlt (s : State) (f : Sched → Sched) : (s.modSched f).xlt = s.xlt := rfl
@[simp] theorem State.modSched_brd (s : State) (f : Sched → Sched) : (s.modSched f).brd = s.brd := rfl
@[simp] theorem State.modSched_lnk (s : State) (f : Sched → Sched) : (s.modSched f).lnk = s.lnk := rfl
@[simp] theorem State.modSched_fab (s : State) (f : Sched → Sched) : (s.modSched f).fab = s.fab := rfl
@[simp] theorem State.modSched_hst (s : State) (f : Sched → Sched) : (s.modSched f).hst = s.hst := rfl
@[simp] theorem State.modSched_que (s : State) (f : Sched → Sched) : (s.modSched f).que = s.que := rfl
@[simp] theorem State.modSched_itl (s : State) (f : Sched → Sched) : (s.modSched f).itl = s.itl := rfl
@[simp] theorem State.modSched_sched (s : State) (f : Sched → Sched) : (s.modSched f).sched = f s.sched := rfl
@[simp] theorem State.modSched_cad (s : State) (f : Sched → Sched) : (s.modSched f).cad = s.cad := rfl
@[simp] theorem State.modSched_pwr (s : State) (f : Sched → Sched) : (s.modSched f).pwr = s.pwr := rfl
@[simp] theorem State.modSched_rcv (s : State) (f : Sched → Sched) : (s.modSched f).rcv = s.rcv := rfl
@[simp] theorem State.modSched_rot (s : State) (f : Sched → Sched) : (s.modSched f).rot = s.rot := rfl
@[simp] theorem State.modSched_cry (s : State) (f : Sched → Sched) : (s.modSched f).cry = s.cry := rfl
@[simp] theorem State.modSched_evt (s : State) (f : Sched → Sched) : (s.modSched f).evt = s.evt := rfl
@[simp] theorem State.modSched_flog (s : State) (f : Sched → Sched) : (s.modSched f).flog = s.flog := rfl
@[simp] theorem State.modSched_boot (s : State) (f : Sched → Sched) : (s.modSched f).boot = s.boot := rfl

/-! ### modCad -/

@[simp] theorem State.modCad_pending (s : State) (f : Cad → Cad) : (s.modCad f).pending = s.pending := rfl
@[simp] theorem State.modCad_out (s : State) (f : Cad → Cad) : (s.modCad f).out = s.out := rfl
@[simp] theorem State.modCad_mem (s : State) (f : Cad → Cad) : (s.modCad f).mem = s.mem := rfl
@[simp] theorem State.modCad_fresh (s : State) (f : Cad → Cad) : (s.modCad f).fresh = s.fresh := rfl
@[simp] theorem State.modCad_lowHeld (s : State) (f : Cad → Cad) : (s.modCad f).lowHeld = s.lowHeld := rfl
@[simp] theorem State.modCad_highLatch (s : State) (f : Cad → Cad) : (s.modCad f).highLatch = s.highLatch := rfl
@[simp] theorem State.modCad_tiles (s : State) (f : Cad → Cad) : (s.modCad f).tiles = s.tiles := rfl
@[simp] theorem State.modCad_cycles (s : State) (f : Cad → Cad) : (s.modCad f).cycles = s.cycles := rfl
@[simp] theorem State.modCad_mesh (s : State) (f : Cad → Cad) : (s.modCad f).mesh = s.mesh := rfl
@[simp] theorem State.modCad_lp (s : State) (f : Cad → Cad) : (s.modCad f).lp = s.lp := rfl
@[simp] theorem State.modCad_xlt (s : State) (f : Cad → Cad) : (s.modCad f).xlt = s.xlt := rfl
@[simp] theorem State.modCad_brd (s : State) (f : Cad → Cad) : (s.modCad f).brd = s.brd := rfl
@[simp] theorem State.modCad_lnk (s : State) (f : Cad → Cad) : (s.modCad f).lnk = s.lnk := rfl
@[simp] theorem State.modCad_fab (s : State) (f : Cad → Cad) : (s.modCad f).fab = s.fab := rfl
@[simp] theorem State.modCad_hst (s : State) (f : Cad → Cad) : (s.modCad f).hst = s.hst := rfl
@[simp] theorem State.modCad_que (s : State) (f : Cad → Cad) : (s.modCad f).que = s.que := rfl
@[simp] theorem State.modCad_itl (s : State) (f : Cad → Cad) : (s.modCad f).itl = s.itl := rfl
@[simp] theorem State.modCad_sched (s : State) (f : Cad → Cad) : (s.modCad f).sched = s.sched := rfl
@[simp] theorem State.modCad_cad (s : State) (f : Cad → Cad) : (s.modCad f).cad = f s.cad := rfl
@[simp] theorem State.modCad_pwr (s : State) (f : Cad → Cad) : (s.modCad f).pwr = s.pwr := rfl
@[simp] theorem State.modCad_rcv (s : State) (f : Cad → Cad) : (s.modCad f).rcv = s.rcv := rfl
@[simp] theorem State.modCad_rot (s : State) (f : Cad → Cad) : (s.modCad f).rot = s.rot := rfl
@[simp] theorem State.modCad_cry (s : State) (f : Cad → Cad) : (s.modCad f).cry = s.cry := rfl
@[simp] theorem State.modCad_evt (s : State) (f : Cad → Cad) : (s.modCad f).evt = s.evt := rfl
@[simp] theorem State.modCad_flog (s : State) (f : Cad → Cad) : (s.modCad f).flog = s.flog := rfl
@[simp] theorem State.modCad_boot (s : State) (f : Cad → Cad) : (s.modCad f).boot = s.boot := rfl

/-! ### modPwr -/

@[simp] theorem State.modPwr_pending (s : State) (f : Pwr → Pwr) : (s.modPwr f).pending = s.pending := rfl
@[simp] theorem State.modPwr_out (s : State) (f : Pwr → Pwr) : (s.modPwr f).out = s.out := rfl
@[simp] theorem State.modPwr_mem (s : State) (f : Pwr → Pwr) : (s.modPwr f).mem = s.mem := rfl
@[simp] theorem State.modPwr_fresh (s : State) (f : Pwr → Pwr) : (s.modPwr f).fresh = s.fresh := rfl
@[simp] theorem State.modPwr_lowHeld (s : State) (f : Pwr → Pwr) : (s.modPwr f).lowHeld = s.lowHeld := rfl
@[simp] theorem State.modPwr_highLatch (s : State) (f : Pwr → Pwr) : (s.modPwr f).highLatch = s.highLatch := rfl
@[simp] theorem State.modPwr_tiles (s : State) (f : Pwr → Pwr) : (s.modPwr f).tiles = s.tiles := rfl
@[simp] theorem State.modPwr_cycles (s : State) (f : Pwr → Pwr) : (s.modPwr f).cycles = s.cycles := rfl
@[simp] theorem State.modPwr_mesh (s : State) (f : Pwr → Pwr) : (s.modPwr f).mesh = s.mesh := rfl
@[simp] theorem State.modPwr_lp (s : State) (f : Pwr → Pwr) : (s.modPwr f).lp = s.lp := rfl
@[simp] theorem State.modPwr_xlt (s : State) (f : Pwr → Pwr) : (s.modPwr f).xlt = s.xlt := rfl
@[simp] theorem State.modPwr_brd (s : State) (f : Pwr → Pwr) : (s.modPwr f).brd = s.brd := rfl
@[simp] theorem State.modPwr_lnk (s : State) (f : Pwr → Pwr) : (s.modPwr f).lnk = s.lnk := rfl
@[simp] theorem State.modPwr_fab (s : State) (f : Pwr → Pwr) : (s.modPwr f).fab = s.fab := rfl
@[simp] theorem State.modPwr_hst (s : State) (f : Pwr → Pwr) : (s.modPwr f).hst = s.hst := rfl
@[simp] theorem State.modPwr_que (s : State) (f : Pwr → Pwr) : (s.modPwr f).que = s.que := rfl
@[simp] theorem State.modPwr_itl (s : State) (f : Pwr → Pwr) : (s.modPwr f).itl = s.itl := rfl
@[simp] theorem State.modPwr_sched (s : State) (f : Pwr → Pwr) : (s.modPwr f).sched = s.sched := rfl
@[simp] theorem State.modPwr_cad (s : State) (f : Pwr → Pwr) : (s.modPwr f).cad = s.cad := rfl
@[simp] theorem State.modPwr_pwr (s : State) (f : Pwr → Pwr) : (s.modPwr f).pwr = f s.pwr := rfl
@[simp] theorem State.modPwr_rcv (s : State) (f : Pwr → Pwr) : (s.modPwr f).rcv = s.rcv := rfl
@[simp] theorem State.modPwr_rot (s : State) (f : Pwr → Pwr) : (s.modPwr f).rot = s.rot := rfl
@[simp] theorem State.modPwr_cry (s : State) (f : Pwr → Pwr) : (s.modPwr f).cry = s.cry := rfl
@[simp] theorem State.modPwr_evt (s : State) (f : Pwr → Pwr) : (s.modPwr f).evt = s.evt := rfl
@[simp] theorem State.modPwr_flog (s : State) (f : Pwr → Pwr) : (s.modPwr f).flog = s.flog := rfl
@[simp] theorem State.modPwr_boot (s : State) (f : Pwr → Pwr) : (s.modPwr f).boot = s.boot := rfl

/-! ### modRcv -/

@[simp] theorem State.modRcv_pending (s : State) (f : Rec → Rec) : (s.modRcv f).pending = s.pending := rfl
@[simp] theorem State.modRcv_out (s : State) (f : Rec → Rec) : (s.modRcv f).out = s.out := rfl
@[simp] theorem State.modRcv_mem (s : State) (f : Rec → Rec) : (s.modRcv f).mem = s.mem := rfl
@[simp] theorem State.modRcv_fresh (s : State) (f : Rec → Rec) : (s.modRcv f).fresh = s.fresh := rfl
@[simp] theorem State.modRcv_lowHeld (s : State) (f : Rec → Rec) : (s.modRcv f).lowHeld = s.lowHeld := rfl
@[simp] theorem State.modRcv_highLatch (s : State) (f : Rec → Rec) : (s.modRcv f).highLatch = s.highLatch := rfl
@[simp] theorem State.modRcv_tiles (s : State) (f : Rec → Rec) : (s.modRcv f).tiles = s.tiles := rfl
@[simp] theorem State.modRcv_cycles (s : State) (f : Rec → Rec) : (s.modRcv f).cycles = s.cycles := rfl
@[simp] theorem State.modRcv_mesh (s : State) (f : Rec → Rec) : (s.modRcv f).mesh = s.mesh := rfl
@[simp] theorem State.modRcv_lp (s : State) (f : Rec → Rec) : (s.modRcv f).lp = s.lp := rfl
@[simp] theorem State.modRcv_xlt (s : State) (f : Rec → Rec) : (s.modRcv f).xlt = s.xlt := rfl
@[simp] theorem State.modRcv_brd (s : State) (f : Rec → Rec) : (s.modRcv f).brd = s.brd := rfl
@[simp] theorem State.modRcv_lnk (s : State) (f : Rec → Rec) : (s.modRcv f).lnk = s.lnk := rfl
@[simp] theorem State.modRcv_fab (s : State) (f : Rec → Rec) : (s.modRcv f).fab = s.fab := rfl
@[simp] theorem State.modRcv_hst (s : State) (f : Rec → Rec) : (s.modRcv f).hst = s.hst := rfl
@[simp] theorem State.modRcv_que (s : State) (f : Rec → Rec) : (s.modRcv f).que = s.que := rfl
@[simp] theorem State.modRcv_itl (s : State) (f : Rec → Rec) : (s.modRcv f).itl = s.itl := rfl
@[simp] theorem State.modRcv_sched (s : State) (f : Rec → Rec) : (s.modRcv f).sched = s.sched := rfl
@[simp] theorem State.modRcv_cad (s : State) (f : Rec → Rec) : (s.modRcv f).cad = s.cad := rfl
@[simp] theorem State.modRcv_pwr (s : State) (f : Rec → Rec) : (s.modRcv f).pwr = s.pwr := rfl
@[simp] theorem State.modRcv_rcv (s : State) (f : Rec → Rec) : (s.modRcv f).rcv = f s.rcv := rfl
@[simp] theorem State.modRcv_rot (s : State) (f : Rec → Rec) : (s.modRcv f).rot = s.rot := rfl
@[simp] theorem State.modRcv_cry (s : State) (f : Rec → Rec) : (s.modRcv f).cry = s.cry := rfl
@[simp] theorem State.modRcv_evt (s : State) (f : Rec → Rec) : (s.modRcv f).evt = s.evt := rfl
@[simp] theorem State.modRcv_flog (s : State) (f : Rec → Rec) : (s.modRcv f).flog = s.flog := rfl
@[simp] theorem State.modRcv_boot (s : State) (f : Rec → Rec) : (s.modRcv f).boot = s.boot := rfl

/-! ### modRot -/

@[simp] theorem State.modRot_pending (s : State) (f : Rot → Rot) : (s.modRot f).pending = s.pending := rfl
@[simp] theorem State.modRot_out (s : State) (f : Rot → Rot) : (s.modRot f).out = s.out := rfl
@[simp] theorem State.modRot_mem (s : State) (f : Rot → Rot) : (s.modRot f).mem = s.mem := rfl
@[simp] theorem State.modRot_fresh (s : State) (f : Rot → Rot) : (s.modRot f).fresh = s.fresh := rfl
@[simp] theorem State.modRot_lowHeld (s : State) (f : Rot → Rot) : (s.modRot f).lowHeld = s.lowHeld := rfl
@[simp] theorem State.modRot_highLatch (s : State) (f : Rot → Rot) : (s.modRot f).highLatch = s.highLatch := rfl
@[simp] theorem State.modRot_tiles (s : State) (f : Rot → Rot) : (s.modRot f).tiles = s.tiles := rfl
@[simp] theorem State.modRot_cycles (s : State) (f : Rot → Rot) : (s.modRot f).cycles = s.cycles := rfl
@[simp] theorem State.modRot_mesh (s : State) (f : Rot → Rot) : (s.modRot f).mesh = s.mesh := rfl
@[simp] theorem State.modRot_lp (s : State) (f : Rot → Rot) : (s.modRot f).lp = s.lp := rfl
@[simp] theorem State.modRot_xlt (s : State) (f : Rot → Rot) : (s.modRot f).xlt = s.xlt := rfl
@[simp] theorem State.modRot_brd (s : State) (f : Rot → Rot) : (s.modRot f).brd = s.brd := rfl
@[simp] theorem State.modRot_lnk (s : State) (f : Rot → Rot) : (s.modRot f).lnk = s.lnk := rfl
@[simp] theorem State.modRot_fab (s : State) (f : Rot → Rot) : (s.modRot f).fab = s.fab := rfl
@[simp] theorem State.modRot_hst (s : State) (f : Rot → Rot) : (s.modRot f).hst = s.hst := rfl
@[simp] theorem State.modRot_que (s : State) (f : Rot → Rot) : (s.modRot f).que = s.que := rfl
@[simp] theorem State.modRot_itl (s : State) (f : Rot → Rot) : (s.modRot f).itl = s.itl := rfl
@[simp] theorem State.modRot_sched (s : State) (f : Rot → Rot) : (s.modRot f).sched = s.sched := rfl
@[simp] theorem State.modRot_cad (s : State) (f : Rot → Rot) : (s.modRot f).cad = s.cad := rfl
@[simp] theorem State.modRot_pwr (s : State) (f : Rot → Rot) : (s.modRot f).pwr = s.pwr := rfl
@[simp] theorem State.modRot_rcv (s : State) (f : Rot → Rot) : (s.modRot f).rcv = s.rcv := rfl
@[simp] theorem State.modRot_rot (s : State) (f : Rot → Rot) : (s.modRot f).rot = f s.rot := rfl
@[simp] theorem State.modRot_cry (s : State) (f : Rot → Rot) : (s.modRot f).cry = s.cry := rfl
@[simp] theorem State.modRot_evt (s : State) (f : Rot → Rot) : (s.modRot f).evt = s.evt := rfl
@[simp] theorem State.modRot_flog (s : State) (f : Rot → Rot) : (s.modRot f).flog = s.flog := rfl
@[simp] theorem State.modRot_boot (s : State) (f : Rot → Rot) : (s.modRot f).boot = s.boot := rfl

/-! ### modCry -/

@[simp] theorem State.modCry_pending (s : State) (f : Cry → Cry) : (s.modCry f).pending = s.pending := rfl
@[simp] theorem State.modCry_out (s : State) (f : Cry → Cry) : (s.modCry f).out = s.out := rfl
@[simp] theorem State.modCry_mem (s : State) (f : Cry → Cry) : (s.modCry f).mem = s.mem := rfl
@[simp] theorem State.modCry_fresh (s : State) (f : Cry → Cry) : (s.modCry f).fresh = s.fresh := rfl
@[simp] theorem State.modCry_lowHeld (s : State) (f : Cry → Cry) : (s.modCry f).lowHeld = s.lowHeld := rfl
@[simp] theorem State.modCry_highLatch (s : State) (f : Cry → Cry) : (s.modCry f).highLatch = s.highLatch := rfl
@[simp] theorem State.modCry_tiles (s : State) (f : Cry → Cry) : (s.modCry f).tiles = s.tiles := rfl
@[simp] theorem State.modCry_cycles (s : State) (f : Cry → Cry) : (s.modCry f).cycles = s.cycles := rfl
@[simp] theorem State.modCry_mesh (s : State) (f : Cry → Cry) : (s.modCry f).mesh = s.mesh := rfl
@[simp] theorem State.modCry_lp (s : State) (f : Cry → Cry) : (s.modCry f).lp = s.lp := rfl
@[simp] theorem State.modCry_xlt (s : State) (f : Cry → Cry) : (s.modCry f).xlt = s.xlt := rfl
@[simp] theorem State.modCry_brd (s : State) (f : Cry → Cry) : (s.modCry f).brd = s.brd := rfl
@[simp] theorem State.modCry_lnk (s : State) (f : Cry → Cry) : (s.modCry f).lnk = s.lnk := rfl
@[simp] theorem State.modCry_fab (s : State) (f : Cry → Cry) : (s.modCry f).fab = s.fab := rfl
@[simp] theorem State.modCry_hst (s : State) (f : Cry → Cry) : (s.modCry f).hst = s.hst := rfl
@[simp] theorem State.modCry_que (s : State) (f : Cry → Cry) : (s.modCry f).que = s.que := rfl
@[simp] theorem State.modCry_itl (s : State) (f : Cry → Cry) : (s.modCry f).itl = s.itl := rfl
@[simp] theorem State.modCry_sched (s : State) (f : Cry → Cry) : (s.modCry f).sched = s.sched := rfl
@[simp] theorem State.modCry_cad (s : State) (f : Cry → Cry) : (s.modCry f).cad = s.cad := rfl
@[simp] theorem State.modCry_pwr (s : State) (f : Cry → Cry) : (s.modCry f).pwr = s.pwr := rfl
@[simp] theorem State.modCry_rcv (s : State) (f : Cry → Cry) : (s.modCry f).rcv = s.rcv := rfl
@[simp] theorem State.modCry_rot (s : State) (f : Cry → Cry) : (s.modCry f).rot = s.rot := rfl
@[simp] theorem State.modCry_cry (s : State) (f : Cry → Cry) : (s.modCry f).cry = f s.cry := rfl
@[simp] theorem State.modCry_evt (s : State) (f : Cry → Cry) : (s.modCry f).evt = s.evt := rfl
@[simp] theorem State.modCry_flog (s : State) (f : Cry → Cry) : (s.modCry f).flog = s.flog := rfl
@[simp] theorem State.modCry_boot (s : State) (f : Cry → Cry) : (s.modCry f).boot = s.boot := rfl

/-! ### modEvt -/

@[simp] theorem State.modEvt_pending (s : State) (f : Evt → Evt) : (s.modEvt f).pending = s.pending := rfl
@[simp] theorem State.modEvt_out (s : State) (f : Evt → Evt) : (s.modEvt f).out = s.out := rfl
@[simp] theorem State.modEvt_mem (s : State) (f : Evt → Evt) : (s.modEvt f).mem = s.mem := rfl
@[simp] theorem State.modEvt_fresh (s : State) (f : Evt → Evt) : (s.modEvt f).fresh = s.fresh := rfl
@[simp] theorem State.modEvt_lowHeld (s : State) (f : Evt → Evt) : (s.modEvt f).lowHeld = s.lowHeld := rfl
@[simp] theorem State.modEvt_highLatch (s : State) (f : Evt → Evt) : (s.modEvt f).highLatch = s.highLatch := rfl
@[simp] theorem State.modEvt_tiles (s : State) (f : Evt → Evt) : (s.modEvt f).tiles = s.tiles := rfl
@[simp] theorem State.modEvt_cycles (s : State) (f : Evt → Evt) : (s.modEvt f).cycles = s.cycles := rfl
@[simp] theorem State.modEvt_mesh (s : State) (f : Evt → Evt) : (s.modEvt f).mesh = s.mesh := rfl
@[simp] theorem State.modEvt_lp (s : State) (f : Evt → Evt) : (s.modEvt f).lp = s.lp := rfl
@[simp] theorem State.modEvt_xlt (s : State) (f : Evt → Evt) : (s.modEvt f).xlt = s.xlt := rfl
@[simp] theorem State.modEvt_brd (s : State) (f : Evt → Evt) : (s.modEvt f).brd = s.brd := rfl
@[simp] theorem State.modEvt_lnk (s : State) (f : Evt → Evt) : (s.modEvt f).lnk = s.lnk := rfl
@[simp] theorem State.modEvt_fab (s : State) (f : Evt → Evt) : (s.modEvt f).fab = s.fab := rfl
@[simp] theorem State.modEvt_hst (s : State) (f : Evt → Evt) : (s.modEvt f).hst = s.hst := rfl
@[simp] theorem State.modEvt_que (s : State) (f : Evt → Evt) : (s.modEvt f).que = s.que := rfl
@[simp] theorem State.modEvt_itl (s : State) (f : Evt → Evt) : (s.modEvt f).itl = s.itl := rfl
@[simp] theorem State.modEvt_sched (s : State) (f : Evt → Evt) : (s.modEvt f).sched = s.sched := rfl
@[simp] theorem State.modEvt_cad (s : State) (f : Evt → Evt) : (s.modEvt f).cad = s.cad := rfl
@[simp] theorem State.modEvt_pwr (s : State) (f : Evt → Evt) : (s.modEvt f).pwr = s.pwr := rfl
@[simp] theorem State.modEvt_rcv (s : State) (f : Evt → Evt) : (s.modEvt f).rcv = s.rcv := rfl
@[simp] theorem State.modEvt_rot (s : State) (f : Evt → Evt) : (s.modEvt f).rot = s.rot := rfl
@[simp] theorem State.modEvt_cry (s : State) (f : Evt → Evt) : (s.modEvt f).cry = s.cry := rfl
@[simp] theorem State.modEvt_evt (s : State) (f : Evt → Evt) : (s.modEvt f).evt = f s.evt := rfl
@[simp] theorem State.modEvt_flog (s : State) (f : Evt → Evt) : (s.modEvt f).flog = s.flog := rfl
@[simp] theorem State.modEvt_boot (s : State) (f : Evt → Evt) : (s.modEvt f).boot = s.boot := rfl

/-! ### modFlog -/

@[simp] theorem State.modFlog_pending (s : State) (f : Flog → Flog) : (s.modFlog f).pending = s.pending := rfl
@[simp] theorem State.modFlog_out (s : State) (f : Flog → Flog) : (s.modFlog f).out = s.out := rfl
@[simp] theorem State.modFlog_mem (s : State) (f : Flog → Flog) : (s.modFlog f).mem = s.mem := rfl
@[simp] theorem State.modFlog_fresh (s : State) (f : Flog → Flog) : (s.modFlog f).fresh = s.fresh := rfl
@[simp] theorem State.modFlog_lowHeld (s : State) (f : Flog → Flog) : (s.modFlog f).lowHeld = s.lowHeld := rfl
@[simp] theorem State.modFlog_highLatch (s : State) (f : Flog → Flog) : (s.modFlog f).highLatch = s.highLatch := rfl
@[simp] theorem State.modFlog_tiles (s : State) (f : Flog → Flog) : (s.modFlog f).tiles = s.tiles := rfl
@[simp] theorem State.modFlog_cycles (s : State) (f : Flog → Flog) : (s.modFlog f).cycles = s.cycles := rfl
@[simp] theorem State.modFlog_mesh (s : State) (f : Flog → Flog) : (s.modFlog f).mesh = s.mesh := rfl
@[simp] theorem State.modFlog_lp (s : State) (f : Flog → Flog) : (s.modFlog f).lp = s.lp := rfl
@[simp] theorem State.modFlog_xlt (s : State) (f : Flog → Flog) : (s.modFlog f).xlt = s.xlt := rfl
@[simp] theorem State.modFlog_brd (s : State) (f : Flog → Flog) : (s.modFlog f).brd = s.brd := rfl
@[simp] theorem State.modFlog_lnk (s : State) (f : Flog → Flog) : (s.modFlog f).lnk = s.lnk := rfl
@[simp] theorem State.modFlog_fab (s : State) (f : Flog → Flog) : (s.modFlog f).fab = s.fab := rfl
@[simp] theorem State.modFlog_hst (s : State) (f : Flog → Flog) : (s.modFlog f).hst = s.hst := rfl
@[simp] theorem State.modFlog_que (s : State) (f : Flog → Flog) : (s.modFlog f).que = s.que := rfl
@[simp] theorem State.modFlog_itl (s : State) (f : Flog → Flog) : (s.modFlog f).itl = s.itl := rfl
@[simp] theorem State.modFlog_sched (s : State) (f : Flog → Flog) : (s.modFlog f).sched = s.sched := rfl
@[simp] theorem State.modFlog_cad (s : State) (f : Flog → Flog) : (s.modFlog f).cad = s.cad := rfl
@[simp] theorem State.modFlog_pwr (s : State) (f : Flog → Flog) : (s.modFlog f).pwr = s.pwr := rfl
@[simp] theorem State.modFlog_rcv (s : State) (f : Flog → Flog) : (s.modFlog f).rcv = s.rcv := rfl
@[simp] theorem State.modFlog_rot (s : State) (f : Flog → Flog) : (s.modFlog f).rot = s.rot := rfl
@[simp] theorem State.modFlog_cry (s : State) (f : Flog → Flog) : (s.modFlog f).cry = s.cry := rfl
@[simp] theorem State.modFlog_evt (s : State) (f : Flog → Flog) : (s.modFlog f).evt = s.evt := rfl
@[simp] theorem State.modFlog_flog (s : State) (f : Flog → Flog) : (s.modFlog f).flog = f s.flog := rfl
@[simp] theorem State.modFlog_boot (s : State) (f : Flog → Flog) : (s.modFlog f).boot = s.boot := rfl

/-! ### modBoot -/

@[simp] theorem State.modBoot_pending (s : State) (f : Boot → Boot) : (s.modBoot f).pending = s.pending := rfl
@[simp] theorem State.modBoot_out (s : State) (f : Boot → Boot) : (s.modBoot f).out = s.out := rfl
@[simp] theorem State.modBoot_mem (s : State) (f : Boot → Boot) : (s.modBoot f).mem = s.mem := rfl
@[simp] theorem State.modBoot_fresh (s : State) (f : Boot → Boot) : (s.modBoot f).fresh = s.fresh := rfl
@[simp] theorem State.modBoot_lowHeld (s : State) (f : Boot → Boot) : (s.modBoot f).lowHeld = s.lowHeld := rfl
@[simp] theorem State.modBoot_highLatch (s : State) (f : Boot → Boot) : (s.modBoot f).highLatch = s.highLatch := rfl
@[simp] theorem State.modBoot_tiles (s : State) (f : Boot → Boot) : (s.modBoot f).tiles = s.tiles := rfl
@[simp] theorem State.modBoot_cycles (s : State) (f : Boot → Boot) : (s.modBoot f).cycles = s.cycles := rfl
@[simp] theorem State.modBoot_mesh (s : State) (f : Boot → Boot) : (s.modBoot f).mesh = s.mesh := rfl
@[simp] theorem State.modBoot_lp (s : State) (f : Boot → Boot) : (s.modBoot f).lp = s.lp := rfl
@[simp] theorem State.modBoot_xlt (s : State) (f : Boot → Boot) : (s.modBoot f).xlt = s.xlt := rfl
@[simp] theorem State.modBoot_brd (s : State) (f : Boot → Boot) : (s.modBoot f).brd = s.brd := rfl
@[simp] theorem State.modBoot_lnk (s : State) (f : Boot → Boot) : (s.modBoot f).lnk = s.lnk := rfl
@[simp] theorem State.modBoot_fab (s : State) (f : Boot → Boot) : (s.modBoot f).fab = s.fab := rfl
@[simp] theorem State.modBoot_hst (s : State) (f : Boot → Boot) : (s.modBoot f).hst = s.hst := rfl
@[simp] theorem State.modBoot_que (s : State) (f : Boot → Boot) : (s.modBoot f).que = s.que := rfl
@[simp] theorem State.modBoot_itl (s : State) (f : Boot → Boot) : (s.modBoot f).itl = s.itl := rfl
@[simp] theorem State.modBoot_sched (s : State) (f : Boot → Boot) : (s.modBoot f).sched = s.sched := rfl
@[simp] theorem State.modBoot_cad (s : State) (f : Boot → Boot) : (s.modBoot f).cad = s.cad := rfl
@[simp] theorem State.modBoot_pwr (s : State) (f : Boot → Boot) : (s.modBoot f).pwr = s.pwr := rfl
@[simp] theorem State.modBoot_rcv (s : State) (f : Boot → Boot) : (s.modBoot f).rcv = s.rcv := rfl
@[simp] theorem State.modBoot_rot (s : State) (f : Boot → Boot) : (s.modBoot f).rot = s.rot := rfl
@[simp] theorem State.modBoot_cry (s : State) (f : Boot → Boot) : (s.modBoot f).cry = s.cry := rfl
@[simp] theorem State.modBoot_evt (s : State) (f : Boot → Boot) : (s.modBoot f).evt = s.evt := rfl
@[simp] theorem State.modBoot_flog (s : State) (f : Boot → Boot) : (s.modBoot f).flog = s.flog := rfl
@[simp] theorem State.modBoot_boot (s : State) (f : Boot → Boot) : (s.modBoot f).boot = f s.boot := rfl

/-! ### modMesh -/

@[simp] theorem State.modMesh_pending (s : State) (f : Mesh → Mesh) : (s.modMesh f).pending = s.pending := rfl
@[simp] theorem State.modMesh_out (s : State) (f : Mesh → Mesh) : (s.modMesh f).out = s.out := rfl
@[simp] theorem State.modMesh_mem (s : State) (f : Mesh → Mesh) : (s.modMesh f).mem = s.mem := rfl
@[simp] theorem State.modMesh_fresh (s : State) (f : Mesh → Mesh) : (s.modMesh f).fresh = s.fresh := rfl
@[simp] theorem State.modMesh_lowHeld (s : State) (f : Mesh → Mesh) : (s.modMesh f).lowHeld = s.lowHeld := rfl
@[simp] theorem State.modMesh_highLatch (s : State) (f : Mesh → Mesh) : (s.modMesh f).highLatch = s.highLatch := rfl
@[simp] theorem State.modMesh_tiles (s : State) (f : Mesh → Mesh) : (s.modMesh f).tiles = s.tiles := rfl
@[simp] theorem State.modMesh_cycles (s : State) (f : Mesh → Mesh) : (s.modMesh f).cycles = s.cycles := rfl
@[simp] theorem State.modMesh_mesh (s : State) (f : Mesh → Mesh) : (s.modMesh f).mesh = f s.mesh := rfl
@[simp] theorem State.modMesh_lp (s : State) (f : Mesh → Mesh) : (s.modMesh f).lp = s.lp := rfl
@[simp] theorem State.modMesh_xlt (s : State) (f : Mesh → Mesh) : (s.modMesh f).xlt = s.xlt := rfl
@[simp] theorem State.modMesh_brd (s : State) (f : Mesh → Mesh) : (s.modMesh f).brd = s.brd := rfl
@[simp] theorem State.modMesh_lnk (s : State) (f : Mesh → Mesh) : (s.modMesh f).lnk = s.lnk := rfl
@[simp] theorem State.modMesh_fab (s : State) (f : Mesh → Mesh) : (s.modMesh f).fab = s.fab := rfl
@[simp] theorem State.modMesh_hst (s : State) (f : Mesh → Mesh) : (s.modMesh f).hst = s.hst := rfl
@[simp] theorem State.modMesh_que (s : State) (f : Mesh → Mesh) : (s.modMesh f).que = s.que := rfl
@[simp] theorem State.modMesh_itl (s : State) (f : Mesh → Mesh) : (s.modMesh f).itl = s.itl := rfl
@[simp] theorem State.modMesh_sched (s : State) (f : Mesh → Mesh) : (s.modMesh f).sched = s.sched := rfl
@[simp] theorem State.modMesh_cad (s : State) (f : Mesh → Mesh) : (s.modMesh f).cad = s.cad := rfl
@[simp] theorem State.modMesh_pwr (s : State) (f : Mesh → Mesh) : (s.modMesh f).pwr = s.pwr := rfl
@[simp] theorem State.modMesh_rcv (s : State) (f : Mesh → Mesh) : (s.modMesh f).rcv = s.rcv := rfl
@[simp] theorem State.modMesh_rot (s : State) (f : Mesh → Mesh) : (s.modMesh f).rot = s.rot := rfl
@[simp] theorem State.modMesh_cry (s : State) (f : Mesh → Mesh) : (s.modMesh f).cry = s.cry := rfl
@[simp] theorem State.modMesh_evt (s : State) (f : Mesh → Mesh) : (s.modMesh f).evt = s.evt := rfl
@[simp] theorem State.modMesh_flog (s : State) (f : Mesh → Mesh) : (s.modMesh f).flog = s.flog := rfl
@[simp] theorem State.modMesh_boot (s : State) (f : Mesh → Mesh) : (s.modMesh f).boot = s.boot := rfl

/-! ### emit -/

@[simp] theorem State.emit_pending (s : State) (m : Msg) : (s.emit m).pending = s.pending := rfl
@[simp] theorem State.emit_out (s : State) (m : Msg) : (s.emit m).out = s.out ++ [m] := rfl
@[simp] theorem State.emit_mem (s : State) (m : Msg) : (s.emit m).mem = s.mem := rfl
@[simp] theorem State.emit_fresh (s : State) (m : Msg) : (s.emit m).fresh = s.fresh := rfl
@[simp] theorem State.emit_lowHeld (s : State) (m : Msg) : (s.emit m).lowHeld = s.lowHeld := rfl
@[simp] theorem State.emit_highLatch (s : State) (m : Msg) : (s.emit m).highLatch = s.highLatch := rfl
@[simp] theorem State.emit_tiles (s : State) (m : Msg) : (s.emit m).tiles = s.tiles := rfl
@[simp] theorem State.emit_cycles (s : State) (m : Msg) : (s.emit m).cycles = s.cycles := rfl
@[simp] theorem State.emit_mesh (s : State) (m : Msg) : (s.emit m).mesh = s.mesh := rfl
@[simp] theorem State.emit_lp (s : State) (m : Msg) : (s.emit m).lp = s.lp := rfl
@[simp] theorem State.emit_xlt (s : State) (m : Msg) : (s.emit m).xlt = s.xlt := rfl
@[simp] theorem State.emit_brd (s : State) (m : Msg) : (s.emit m).brd = s.brd := rfl
@[simp] theorem State.emit_lnk (s : State) (m : Msg) : (s.emit m).lnk = s.lnk := rfl
@[simp] theorem State.emit_fab (s : State) (m : Msg) : (s.emit m).fab = s.fab := rfl
@[simp] theorem State.emit_hst (s : State) (m : Msg) : (s.emit m).hst = s.hst := rfl
@[simp] theorem State.emit_que (s : State) (m : Msg) : (s.emit m).que = s.que := rfl
@[simp] theorem State.emit_itl (s : State) (m : Msg) : (s.emit m).itl = s.itl := rfl
@[simp] theorem State.emit_sched (s : State) (m : Msg) : (s.emit m).sched = s.sched := rfl
@[simp] theorem State.emit_cad (s : State) (m : Msg) : (s.emit m).cad = s.cad := rfl
@[simp] theorem State.emit_pwr (s : State) (m : Msg) : (s.emit m).pwr = s.pwr := rfl
@[simp] theorem State.emit_rcv (s : State) (m : Msg) : (s.emit m).rcv = s.rcv := rfl
@[simp] theorem State.emit_rot (s : State) (m : Msg) : (s.emit m).rot = s.rot := rfl
@[simp] theorem State.emit_cry (s : State) (m : Msg) : (s.emit m).cry = s.cry := rfl
@[simp] theorem State.emit_evt (s : State) (m : Msg) : (s.emit m).evt = s.evt := rfl
@[simp] theorem State.emit_flog (s : State) (m : Msg) : (s.emit m).flog = s.flog := rfl
@[simp] theorem State.emit_boot (s : State) (m : Msg) : (s.emit m).boot = s.boot := rfl

/-! ### modTile -/

@[simp] theorem State.modTile_pending (s : State) (t : Nat) (f : Tile → Tile) : (s.modTile t f).pending = s.pending := rfl
@[simp] theorem State.modTile_out (s : State) (t : Nat) (f : Tile → Tile) : (s.modTile t f).out = s.out := rfl
@[simp] theorem State.modTile_mem (s : State) (t : Nat) (f : Tile → Tile) : (s.modTile t f).mem = s.mem := rfl
@[simp] theorem State.modTile_fresh (s : State) (t : Nat) (f : Tile → Tile) : (s.modTile t f).fresh = s.fresh := rfl
@[simp] theorem State.modTile_lowHeld (s : State) (t : Nat) (f : Tile → Tile) : (s.modTile t f).lowHeld = s.lowHeld := rfl
@[simp] theorem State.modTile_highLatch (s : State) (t : Nat) (f : Tile → Tile) : (s.modTile t f).highLatch = s.highLatch := rfl
@[simp] theorem State.modTile_tiles (s : State) (t : Nat) (f : Tile → Tile) : (s.modTile t f).tiles = Tab.insert s.tiles t (f (s.tile t)) := rfl
@[simp] theorem State.modTile_cycles (s : State) (t : Nat) (f : Tile → Tile) : (s.modTile t f).cycles = s.cycles := rfl
@[simp] theorem State.modTile_mesh (s : State) (t : Nat) (f : Tile → Tile) : (s.modTile t f).mesh = s.mesh := rfl
@[simp] theorem State.modTile_lp (s : State) (t : Nat) (f : Tile → Tile) : (s.modTile t f).lp = s.lp := rfl
@[simp] theorem State.modTile_xlt (s : State) (t : Nat) (f : Tile → Tile) : (s.modTile t f).xlt = s.xlt := rfl
@[simp] theorem State.modTile_brd (s : State) (t : Nat) (f : Tile → Tile) : (s.modTile t f).brd = s.brd := rfl
@[simp] theorem State.modTile_lnk (s : State) (t : Nat) (f : Tile → Tile) : (s.modTile t f).lnk = s.lnk := rfl
@[simp] theorem State.modTile_fab (s : State) (t : Nat) (f : Tile → Tile) : (s.modTile t f).fab = s.fab := rfl
@[simp] theorem State.modTile_hst (s : State) (t : Nat) (f : Tile → Tile) : (s.modTile t f).hst = s.hst := rfl
@[simp] theorem State.modTile_que (s : State) (t : Nat) (f : Tile → Tile) : (s.modTile t f).que = s.que := rfl
@[simp] theorem State.modTile_itl (s : State) (t : Nat) (f : Tile → Tile) : (s.modTile t f).itl = s.itl := rfl
@[simp] theorem State.modTile_sched (s : State) (t : Nat) (f : Tile → Tile) : (s.modTile t f).sched = s.sched := rfl
@[simp] theorem State.modTile_cad (s : State) (t : Nat) (f : Tile → Tile) : (s.modTile t f).cad = s.cad := rfl
@[simp] theorem State.modTile_pwr (s : State) (t : Nat) (f : Tile → Tile) : (s.modTile t f).pwr = s.pwr := rfl
@[simp] theorem State.modTile_rcv (s : State) (t : Nat) (f : Tile → Tile) : (s.modTile t f).rcv = s.rcv := rfl
@[simp] theorem State.modTile_rot (s : State) (t : Nat) (f : Tile → Tile) : (s.modTile t f).rot = s.rot := rfl
@[simp] theorem State.modTile_cry (s : State) (t : Nat) (f : Tile → Tile) : (s.modTile t f).cry = s.cry := rfl
@[simp] theorem State.modTile_evt (s : State) (t : Nat) (f : Tile → Tile) : (s.modTile t f).evt = s.evt := rfl
@[simp] theorem State.modTile_flog (s : State) (t : Nat) (f : Tile → Tile) : (s.modTile t f).flog = s.flog := rfl
@[simp] theorem State.modTile_boot (s : State) (t : Nat) (f : Tile → Tile) : (s.modTile t f).boot = s.boot := rfl

/-! ### modPort -/

@[simp] theorem State.modPort_pending (s : State) (p : Nat) (f : LinkPort → LinkPort) : (s.modPort p f).pending = s.pending := rfl
@[simp] theorem State.modPort_out (s : State) (p : Nat) (f : LinkPort → LinkPort) : (s.modPort p f).out = s.out := rfl
@[simp] theorem State.modPort_mem (s : State) (p : Nat) (f : LinkPort → LinkPort) : (s.modPort p f).mem = s.mem := rfl
@[simp] theorem State.modPort_fresh (s : State) (p : Nat) (f : LinkPort → LinkPort) : (s.modPort p f).fresh = s.fresh := rfl
@[simp] theorem State.modPort_lowHeld (s : State) (p : Nat) (f : LinkPort → LinkPort) : (s.modPort p f).lowHeld = s.lowHeld := rfl
@[simp] theorem State.modPort_highLatch (s : State) (p : Nat) (f : LinkPort → LinkPort) : (s.modPort p f).highLatch = s.highLatch := rfl
@[simp] theorem State.modPort_tiles (s : State) (p : Nat) (f : LinkPort → LinkPort) : (s.modPort p f).tiles = s.tiles := rfl
@[simp] theorem State.modPort_cycles (s : State) (p : Nat) (f : LinkPort → LinkPort) : (s.modPort p f).cycles = s.cycles := rfl
@[simp] theorem State.modPort_mesh (s : State) (p : Nat) (f : LinkPort → LinkPort) : (s.modPort p f).mesh = s.mesh := rfl
@[simp] theorem State.modPort_lp (s : State) (p : Nat) (f : LinkPort → LinkPort) : (s.modPort p f).lp = s.lp := rfl
@[simp] theorem State.modPort_xlt (s : State) (p : Nat) (f : LinkPort → LinkPort) : (s.modPort p f).xlt = s.xlt := rfl
@[simp] theorem State.modPort_brd (s : State) (p : Nat) (f : LinkPort → LinkPort) : (s.modPort p f).brd = s.brd := rfl
@[simp] theorem State.modPort_lnk (s : State) (p : Nat) (f : LinkPort → LinkPort) : (s.modPort p f).lnk = Tab.insert s.lnk p (f (s.port p)) := rfl
@[simp] theorem State.modPort_fab (s : State) (p : Nat) (f : LinkPort → LinkPort) : (s.modPort p f).fab = s.fab := rfl
@[simp] theorem State.modPort_hst (s : State) (p : Nat) (f : LinkPort → LinkPort) : (s.modPort p f).hst = s.hst := rfl
@[simp] theorem State.modPort_que (s : State) (p : Nat) (f : LinkPort → LinkPort) : (s.modPort p f).que = s.que := rfl
@[simp] theorem State.modPort_itl (s : State) (p : Nat) (f : LinkPort → LinkPort) : (s.modPort p f).itl = s.itl := rfl
@[simp] theorem State.modPort_sched (s : State) (p : Nat) (f : LinkPort → LinkPort) : (s.modPort p f).sched = s.sched := rfl
@[simp] theorem State.modPort_cad (s : State) (p : Nat) (f : LinkPort → LinkPort) : (s.modPort p f).cad = s.cad := rfl
@[simp] theorem State.modPort_pwr (s : State) (p : Nat) (f : LinkPort → LinkPort) : (s.modPort p f).pwr = s.pwr := rfl
@[simp] theorem State.modPort_rcv (s : State) (p : Nat) (f : LinkPort → LinkPort) : (s.modPort p f).rcv = s.rcv := rfl
@[simp] theorem State.modPort_rot (s : State) (p : Nat) (f : LinkPort → LinkPort) : (s.modPort p f).rot = s.rot := rfl
@[simp] theorem State.modPort_cry (s : State) (p : Nat) (f : LinkPort → LinkPort) : (s.modPort p f).cry = s.cry := rfl
@[simp] theorem State.modPort_evt (s : State) (p : Nat) (f : LinkPort → LinkPort) : (s.modPort p f).evt = s.evt := rfl
@[simp] theorem State.modPort_flog (s : State) (p : Nat) (f : LinkPort → LinkPort) : (s.modPort p f).flog = s.flog := rfl
@[simp] theorem State.modPort_boot (s : State) (p : Nat) (f : LinkPort → LinkPort) : (s.modPort p f).boot = s.boot := rfl

/-! ### store -/

@[simp] theorem State.store_pending (s : State) (a : Nat) (b : Bytes) : (s.store a b).pending = s.pending := rfl
@[simp] theorem State.store_out (s : State) (a : Nat) (b : Bytes) : (s.store a b).out = s.out := rfl
@[simp] theorem State.store_mem (s : State) (a : Nat) (b : Bytes) : (s.store a b).mem = Memory.writes s.mem a b := rfl
@[simp] theorem State.store_fresh (s : State) (a : Nat) (b : Bytes) : (s.store a b).fresh = s.fresh := rfl
@[simp] theorem State.store_lowHeld (s : State) (a : Nat) (b : Bytes) : (s.store a b).lowHeld = s.lowHeld := rfl
@[simp] theorem State.store_highLatch (s : State) (a : Nat) (b : Bytes) : (s.store a b).highLatch = s.highLatch := rfl
@[simp] theorem State.store_tiles (s : State) (a : Nat) (b : Bytes) : (s.store a b).tiles = s.tiles := rfl
@[simp] theorem State.store_cycles (s : State) (a : Nat) (b : Bytes) : (s.store a b).cycles = s.cycles := rfl
@[simp] theorem State.store_mesh (s : State) (a : Nat) (b : Bytes) : (s.store a b).mesh = s.mesh := rfl
@[simp] theorem State.store_lp (s : State) (a : Nat) (b : Bytes) : (s.store a b).lp = s.lp := rfl
@[simp] theorem State.store_xlt (s : State) (a : Nat) (b : Bytes) : (s.store a b).xlt = s.xlt := rfl
@[simp] theorem State.store_brd (s : State) (a : Nat) (b : Bytes) : (s.store a b).brd = s.brd := rfl
@[simp] theorem State.store_lnk (s : State) (a : Nat) (b : Bytes) : (s.store a b).lnk = s.lnk := rfl
@[simp] theorem State.store_fab (s : State) (a : Nat) (b : Bytes) : (s.store a b).fab = s.fab := rfl
@[simp] theorem State.store_hst (s : State) (a : Nat) (b : Bytes) : (s.store a b).hst = s.hst := rfl
@[simp] theorem State.store_que (s : State) (a : Nat) (b : Bytes) : (s.store a b).que = s.que := rfl
@[simp] theorem State.store_itl (s : State) (a : Nat) (b : Bytes) : (s.store a b).itl = s.itl := rfl
@[simp] theorem State.store_sched (s : State) (a : Nat) (b : Bytes) : (s.store a b).sched = s.sched := rfl
@[simp] theorem State.store_cad (s : State) (a : Nat) (b : Bytes) : (s.store a b).cad = s.cad := rfl
@[simp] theorem State.store_pwr (s : State) (a : Nat) (b : Bytes) : (s.store a b).pwr = s.pwr := rfl
@[simp] theorem State.store_rcv (s : State) (a : Nat) (b : Bytes) : (s.store a b).rcv = s.rcv := rfl
@[simp] theorem State.store_rot (s : State) (a : Nat) (b : Bytes) : (s.store a b).rot = s.rot := rfl
@[simp] theorem State.store_cry (s : State) (a : Nat) (b : Bytes) : (s.store a b).cry = s.cry := rfl
@[simp] theorem State.store_evt (s : State) (a : Nat) (b : Bytes) : (s.store a b).evt = s.evt := rfl
@[simp] theorem State.store_flog (s : State) (a : Nat) (b : Bytes) : (s.store a b).flog = s.flog := rfl
@[simp] theorem State.store_boot (s : State) (a : Nat) (b : Bytes) : (s.store a b).boot = s.boot := rfl

/-! ### clearMem -/

@[simp] theorem State.clearMem_pending (s : State) (a n : Nat) : (s.clearMem a n).pending = s.pending := rfl
@[simp] theorem State.clearMem_out (s : State) (a n : Nat) : (s.clearMem a n).out = s.out := rfl
@[simp] theorem State.clearMem_mem (s : State) (a n : Nat) : (s.clearMem a n).mem = Memory.clear s.mem a n := rfl
@[simp] theorem State.clearMem_fresh (s : State) (a n : Nat) : (s.clearMem a n).fresh = s.fresh := rfl
@[simp] theorem State.clearMem_lowHeld (s : State) (a n : Nat) : (s.clearMem a n).lowHeld = s.lowHeld := rfl
@[simp] theorem State.clearMem_highLatch (s : State) (a n : Nat) : (s.clearMem a n).highLatch = s.highLatch := rfl
@[simp] theorem State.clearMem_tiles (s : State) (a n : Nat) : (s.clearMem a n).tiles = s.tiles := rfl
@[simp] theorem State.clearMem_cycles (s : State) (a n : Nat) : (s.clearMem a n).cycles = s.cycles := rfl
@[simp] theorem State.clearMem_mesh (s : State) (a n : Nat) : (s.clearMem a n).mesh = s.mesh := rfl
@[simp] theorem State.clearMem_lp (s : State) (a n : Nat) : (s.clearMem a n).lp = s.lp := rfl
@[simp] theorem State.clearMem_xlt (s : State) (a n : Nat) : (s.clearMem a n).xlt = s.xlt := rfl
@[simp] theorem State.clearMem_brd (s : State) (a n : Nat) : (s.clearMem a n).brd = s.brd := rfl
@[simp] theorem State.clearMem_lnk (s : State) (a n : Nat) : (s.clearMem a n).lnk = s.lnk := rfl
@[simp] theorem State.clearMem_fab (s : State) (a n : Nat) : (s.clearMem a n).fab = s.fab := rfl
@[simp] theorem State.clearMem_hst (s : State) (a n : Nat) : (s.clearMem a n).hst = s.hst := rfl
@[simp] theorem State.clearMem_que (s : State) (a n : Nat) : (s.clearMem a n).que = s.que := rfl
@[simp] theorem State.clearMem_itl (s : State) (a n : Nat) : (s.clearMem a n).itl = s.itl := rfl
@[simp] theorem State.clearMem_sched (s : State) (a n : Nat) : (s.clearMem a n).sched = s.sched := rfl
@[simp] theorem State.clearMem_cad (s : State) (a n : Nat) : (s.clearMem a n).cad = s.cad := rfl
@[simp] theorem State.clearMem_pwr (s : State) (a n : Nat) : (s.clearMem a n).pwr = s.pwr := rfl
@[simp] theorem State.clearMem_rcv (s : State) (a n : Nat) : (s.clearMem a n).rcv = s.rcv := rfl
@[simp] theorem State.clearMem_rot (s : State) (a n : Nat) : (s.clearMem a n).rot = s.rot := rfl
@[simp] theorem State.clearMem_cry (s : State) (a n : Nat) : (s.clearMem a n).cry = s.cry := rfl
@[simp] theorem State.clearMem_evt (s : State) (a n : Nat) : (s.clearMem a n).evt = s.evt := rfl
@[simp] theorem State.clearMem_flog (s : State) (a n : Nat) : (s.clearMem a n).flog = s.flog := rfl
@[simp] theorem State.clearMem_boot (s : State) (a n : Nat) : (s.clearMem a n).boot = s.boot := rfl

/-! ### copyMem -/

@[simp] theorem State.copyMem_pending (s : State) (a b n : Nat) : (s.copyMem a b n).pending = s.pending := rfl
@[simp] theorem State.copyMem_out (s : State) (a b n : Nat) : (s.copyMem a b n).out = s.out := rfl
@[simp] theorem State.copyMem_mem (s : State) (a b n : Nat) : (s.copyMem a b n).mem = Memory.copy s.mem a b n := rfl
@[simp] theorem State.copyMem_fresh (s : State) (a b n : Nat) : (s.copyMem a b n).fresh = s.fresh := rfl
@[simp] theorem State.copyMem_lowHeld (s : State) (a b n : Nat) : (s.copyMem a b n).lowHeld = s.lowHeld := rfl
@[simp] theorem State.copyMem_highLatch (s : State) (a b n : Nat) : (s.copyMem a b n).highLatch = s.highLatch := rfl
@[simp] theorem State.copyMem_tiles (s : State) (a b n : Nat) : (s.copyMem a b n).tiles = s.tiles := rfl
@[simp] theorem State.copyMem_cycles (s : State) (a b n : Nat) : (s.copyMem a b n).cycles = s.cycles := rfl
@[simp] theorem State.copyMem_mesh (s : State) (a b n : Nat) : (s.copyMem a b n).mesh = s.mesh := rfl
@[simp] theorem State.copyMem_lp (s : State) (a b n : Nat) : (s.copyMem a b n).lp = s.lp := rfl
@[simp] theorem State.copyMem_xlt (s : State) (a b n : Nat) : (s.copyMem a b n).xlt = s.xlt := rfl
@[simp] theorem State.copyMem_brd (s : State) (a b n : Nat) : (s.copyMem a b n).brd = s.brd := rfl
@[simp] theorem State.copyMem_lnk (s : State) (a b n : Nat) : (s.copyMem a b n).lnk = s.lnk := rfl
@[simp] theorem State.copyMem_fab (s : State) (a b n : Nat) : (s.copyMem a b n).fab = s.fab := rfl
@[simp] theorem State.copyMem_hst (s : State) (a b n : Nat) : (s.copyMem a b n).hst = s.hst := rfl
@[simp] theorem State.copyMem_que (s : State) (a b n : Nat) : (s.copyMem a b n).que = s.que := rfl
@[simp] theorem State.copyMem_itl (s : State) (a b n : Nat) : (s.copyMem a b n).itl = s.itl := rfl
@[simp] theorem State.copyMem_sched (s : State) (a b n : Nat) : (s.copyMem a b n).sched = s.sched := rfl
@[simp] theorem State.copyMem_cad (s : State) (a b n : Nat) : (s.copyMem a b n).cad = s.cad := rfl
@[simp] theorem State.copyMem_pwr (s : State) (a b n : Nat) : (s.copyMem a b n).pwr = s.pwr := rfl
@[simp] theorem State.copyMem_rcv (s : State) (a b n : Nat) : (s.copyMem a b n).rcv = s.rcv := rfl
@[simp] theorem State.copyMem_rot (s : State) (a b n : Nat) : (s.copyMem a b n).rot = s.rot := rfl
@[simp] theorem State.copyMem_cry (s : State) (a b n : Nat) : (s.copyMem a b n).cry = s.cry := rfl
@[simp] theorem State.copyMem_evt (s : State) (a b n : Nat) : (s.copyMem a b n).evt = s.evt := rfl
@[simp] theorem State.copyMem_flog (s : State) (a b n : Nat) : (s.copyMem a b n).flog = s.flog := rfl
@[simp] theorem State.copyMem_boot (s : State) (a b n : Nat) : (s.copyMem a b n).boot = s.boot := rfl

/-! ### modBank -/

@[simp] theorem State.modBank_pending (s : State) (t b : Nat) (f : Bank → Bank) : (s.modBank t b f).pending = s.pending := rfl
@[simp] theorem State.modBank_out (s : State) (t b : Nat) (f : Bank → Bank) : (s.modBank t b f).out = s.out := rfl
@[simp] theorem State.modBank_mem (s : State) (t b : Nat) (f : Bank → Bank) : (s.modBank t b f).mem = s.mem := rfl
@[simp] theorem State.modBank_fresh (s : State) (t b : Nat) (f : Bank → Bank) : (s.modBank t b f).fresh = s.fresh := rfl
@[simp] theorem State.modBank_lowHeld (s : State) (t b : Nat) (f : Bank → Bank) : (s.modBank t b f).lowHeld = s.lowHeld := rfl
@[simp] theorem State.modBank_highLatch (s : State) (t b : Nat) (f : Bank → Bank) : (s.modBank t b f).highLatch = s.highLatch := rfl
@[simp] theorem State.modBank_cycles (s : State) (t b : Nat) (f : Bank → Bank) : (s.modBank t b f).cycles = s.cycles := rfl
@[simp] theorem State.modBank_mesh (s : State) (t b : Nat) (f : Bank → Bank) : (s.modBank t b f).mesh = s.mesh := rfl
@[simp] theorem State.modBank_lp (s : State) (t b : Nat) (f : Bank → Bank) : (s.modBank t b f).lp = s.lp := rfl
@[simp] theorem State.modBank_xlt (s : State) (t b : Nat) (f : Bank → Bank) : (s.modBank t b f).xlt = s.xlt := rfl
@[simp] theorem State.modBank_brd (s : State) (t b : Nat) (f : Bank → Bank) : (s.modBank t b f).brd = s.brd := rfl
@[simp] theorem State.modBank_lnk (s : State) (t b : Nat) (f : Bank → Bank) : (s.modBank t b f).lnk = s.lnk := rfl
@[simp] theorem State.modBank_fab (s : State) (t b : Nat) (f : Bank → Bank) : (s.modBank t b f).fab = s.fab := rfl
@[simp] theorem State.modBank_hst (s : State) (t b : Nat) (f : Bank → Bank) : (s.modBank t b f).hst = s.hst := rfl
@[simp] theorem State.modBank_que (s : State) (t b : Nat) (f : Bank → Bank) : (s.modBank t b f).que = s.que := rfl
@[simp] theorem State.modBank_itl (s : State) (t b : Nat) (f : Bank → Bank) : (s.modBank t b f).itl = s.itl := rfl
@[simp] theorem State.modBank_sched (s : State) (t b : Nat) (f : Bank → Bank) : (s.modBank t b f).sched = s.sched := rfl
@[simp] theorem State.modBank_cad (s : State) (t b : Nat) (f : Bank → Bank) : (s.modBank t b f).cad = s.cad := rfl
@[simp] theorem State.modBank_pwr (s : State) (t b : Nat) (f : Bank → Bank) : (s.modBank t b f).pwr = s.pwr := rfl
@[simp] theorem State.modBank_rcv (s : State) (t b : Nat) (f : Bank → Bank) : (s.modBank t b f).rcv = s.rcv := rfl
@[simp] theorem State.modBank_rot (s : State) (t b : Nat) (f : Bank → Bank) : (s.modBank t b f).rot = s.rot := rfl
@[simp] theorem State.modBank_cry (s : State) (t b : Nat) (f : Bank → Bank) : (s.modBank t b f).cry = s.cry := rfl
@[simp] theorem State.modBank_evt (s : State) (t b : Nat) (f : Bank → Bank) : (s.modBank t b f).evt = s.evt := rfl
@[simp] theorem State.modBank_flog (s : State) (t b : Nat) (f : Bank → Bank) : (s.modBank t b f).flog = s.flog := rfl
@[simp] theorem State.modBank_boot (s : State) (t b : Nat) (f : Bank → Bank) : (s.modBank t b f).boot = s.boot := rfl

/-! ### modChan -/

@[simp] theorem State.modChan_pending (s : State) (t c : Nat) (f : Chan → Chan) : (s.modChan t c f).pending = s.pending := rfl
@[simp] theorem State.modChan_out (s : State) (t c : Nat) (f : Chan → Chan) : (s.modChan t c f).out = s.out := rfl
@[simp] theorem State.modChan_mem (s : State) (t c : Nat) (f : Chan → Chan) : (s.modChan t c f).mem = s.mem := rfl
@[simp] theorem State.modChan_fresh (s : State) (t c : Nat) (f : Chan → Chan) : (s.modChan t c f).fresh = s.fresh := rfl
@[simp] theorem State.modChan_lowHeld (s : State) (t c : Nat) (f : Chan → Chan) : (s.modChan t c f).lowHeld = s.lowHeld := rfl
@[simp] theorem State.modChan_highLatch (s : State) (t c : Nat) (f : Chan → Chan) : (s.modChan t c f).highLatch = s.highLatch := rfl
@[simp] theorem State.modChan_cycles (s : State) (t c : Nat) (f : Chan → Chan) : (s.modChan t c f).cycles = s.cycles := rfl
@[simp] theorem State.modChan_mesh (s : State) (t c : Nat) (f : Chan → Chan) : (s.modChan t c f).mesh = s.mesh := rfl
@[simp] theorem State.modChan_lp (s : State) (t c : Nat) (f : Chan → Chan) : (s.modChan t c f).lp = s.lp := rfl
@[simp] theorem State.modChan_xlt (s : State) (t c : Nat) (f : Chan → Chan) : (s.modChan t c f).xlt = s.xlt := rfl
@[simp] theorem State.modChan_brd (s : State) (t c : Nat) (f : Chan → Chan) : (s.modChan t c f).brd = s.brd := rfl
@[simp] theorem State.modChan_lnk (s : State) (t c : Nat) (f : Chan → Chan) : (s.modChan t c f).lnk = s.lnk := rfl
@[simp] theorem State.modChan_fab (s : State) (t c : Nat) (f : Chan → Chan) : (s.modChan t c f).fab = s.fab := rfl
@[simp] theorem State.modChan_hst (s : State) (t c : Nat) (f : Chan → Chan) : (s.modChan t c f).hst = s.hst := rfl
@[simp] theorem State.modChan_que (s : State) (t c : Nat) (f : Chan → Chan) : (s.modChan t c f).que = s.que := rfl
@[simp] theorem State.modChan_itl (s : State) (t c : Nat) (f : Chan → Chan) : (s.modChan t c f).itl = s.itl := rfl
@[simp] theorem State.modChan_sched (s : State) (t c : Nat) (f : Chan → Chan) : (s.modChan t c f).sched = s.sched := rfl
@[simp] theorem State.modChan_cad (s : State) (t c : Nat) (f : Chan → Chan) : (s.modChan t c f).cad = s.cad := rfl
@[simp] theorem State.modChan_pwr (s : State) (t c : Nat) (f : Chan → Chan) : (s.modChan t c f).pwr = s.pwr := rfl
@[simp] theorem State.modChan_rcv (s : State) (t c : Nat) (f : Chan → Chan) : (s.modChan t c f).rcv = s.rcv := rfl
@[simp] theorem State.modChan_rot (s : State) (t c : Nat) (f : Chan → Chan) : (s.modChan t c f).rot = s.rot := rfl
@[simp] theorem State.modChan_cry (s : State) (t c : Nat) (f : Chan → Chan) : (s.modChan t c f).cry = s.cry := rfl
@[simp] theorem State.modChan_evt (s : State) (t c : Nat) (f : Chan → Chan) : (s.modChan t c f).evt = s.evt := rfl
@[simp] theorem State.modChan_flog (s : State) (t c : Nat) (f : Chan → Chan) : (s.modChan t c f).flog = s.flog := rfl
@[simp] theorem State.modChan_boot (s : State) (t c : Nat) (f : Chan → Chan) : (s.modChan t c f).boot = s.boot := rfl

/-! ### modSrm -/

@[simp] theorem State.modSrm_pending (s : State) (t : Nat) (f : Srm → Srm) : (s.modSrm t f).pending = s.pending := rfl
@[simp] theorem State.modSrm_out (s : State) (t : Nat) (f : Srm → Srm) : (s.modSrm t f).out = s.out := rfl
@[simp] theorem State.modSrm_mem (s : State) (t : Nat) (f : Srm → Srm) : (s.modSrm t f).mem = s.mem := rfl
@[simp] theorem State.modSrm_fresh (s : State) (t : Nat) (f : Srm → Srm) : (s.modSrm t f).fresh = s.fresh := rfl
@[simp] theorem State.modSrm_lowHeld (s : State) (t : Nat) (f : Srm → Srm) : (s.modSrm t f).lowHeld = s.lowHeld := rfl
@[simp] theorem State.modSrm_highLatch (s : State) (t : Nat) (f : Srm → Srm) : (s.modSrm t f).highLatch = s.highLatch := rfl
@[simp] theorem State.modSrm_cycles (s : State) (t : Nat) (f : Srm → Srm) : (s.modSrm t f).cycles = s.cycles := rfl
@[simp] theorem State.modSrm_mesh (s : State) (t : Nat) (f : Srm → Srm) : (s.modSrm t f).mesh = s.mesh := rfl
@[simp] theorem State.modSrm_lp (s : State) (t : Nat) (f : Srm → Srm) : (s.modSrm t f).lp = s.lp := rfl
@[simp] theorem State.modSrm_xlt (s : State) (t : Nat) (f : Srm → Srm) : (s.modSrm t f).xlt = s.xlt := rfl
@[simp] theorem State.modSrm_brd (s : State) (t : Nat) (f : Srm → Srm) : (s.modSrm t f).brd = s.brd := rfl
@[simp] theorem State.modSrm_lnk (s : State) (t : Nat) (f : Srm → Srm) : (s.modSrm t f).lnk = s.lnk := rfl
@[simp] theorem State.modSrm_fab (s : State) (t : Nat) (f : Srm → Srm) : (s.modSrm t f).fab = s.fab := rfl
@[simp] theorem State.modSrm_hst (s : State) (t : Nat) (f : Srm → Srm) : (s.modSrm t f).hst = s.hst := rfl
@[simp] theorem State.modSrm_que (s : State) (t : Nat) (f : Srm → Srm) : (s.modSrm t f).que = s.que := rfl
@[simp] theorem State.modSrm_itl (s : State) (t : Nat) (f : Srm → Srm) : (s.modSrm t f).itl = s.itl := rfl
@[simp] theorem State.modSrm_sched (s : State) (t : Nat) (f : Srm → Srm) : (s.modSrm t f).sched = s.sched := rfl
@[simp] theorem State.modSrm_cad (s : State) (t : Nat) (f : Srm → Srm) : (s.modSrm t f).cad = s.cad := rfl
@[simp] theorem State.modSrm_pwr (s : State) (t : Nat) (f : Srm → Srm) : (s.modSrm t f).pwr = s.pwr := rfl
@[simp] theorem State.modSrm_rcv (s : State) (t : Nat) (f : Srm → Srm) : (s.modSrm t f).rcv = s.rcv := rfl
@[simp] theorem State.modSrm_rot (s : State) (t : Nat) (f : Srm → Srm) : (s.modSrm t f).rot = s.rot := rfl
@[simp] theorem State.modSrm_cry (s : State) (t : Nat) (f : Srm → Srm) : (s.modSrm t f).cry = s.cry := rfl
@[simp] theorem State.modSrm_evt (s : State) (t : Nat) (f : Srm → Srm) : (s.modSrm t f).evt = s.evt := rfl
@[simp] theorem State.modSrm_flog (s : State) (t : Nat) (f : Srm → Srm) : (s.modSrm t f).flog = s.flog := rfl
@[simp] theorem State.modSrm_boot (s : State) (t : Nat) (f : Srm → Srm) : (s.modSrm t f).boot = s.boot := rfl

/-! ### modPair -/

@[simp] theorem State.modPair_pending (s : State) (p : Nat) (f : Pair → Pair) : (s.modPair p f).pending = s.pending := rfl
@[simp] theorem State.modPair_out (s : State) (p : Nat) (f : Pair → Pair) : (s.modPair p f).out = s.out := rfl
@[simp] theorem State.modPair_mem (s : State) (p : Nat) (f : Pair → Pair) : (s.modPair p f).mem = s.mem := rfl
@[simp] theorem State.modPair_fresh (s : State) (p : Nat) (f : Pair → Pair) : (s.modPair p f).fresh = s.fresh := rfl
@[simp] theorem State.modPair_lowHeld (s : State) (p : Nat) (f : Pair → Pair) : (s.modPair p f).lowHeld = s.lowHeld := rfl
@[simp] theorem State.modPair_highLatch (s : State) (p : Nat) (f : Pair → Pair) : (s.modPair p f).highLatch = s.highLatch := rfl
@[simp] theorem State.modPair_tiles (s : State) (p : Nat) (f : Pair → Pair) : (s.modPair p f).tiles = s.tiles := rfl
@[simp] theorem State.modPair_cycles (s : State) (p : Nat) (f : Pair → Pair) : (s.modPair p f).cycles = s.cycles := rfl
@[simp] theorem State.modPair_mesh (s : State) (p : Nat) (f : Pair → Pair) : (s.modPair p f).mesh = s.mesh := rfl
@[simp] theorem State.modPair_xlt (s : State) (p : Nat) (f : Pair → Pair) : (s.modPair p f).xlt = s.xlt := rfl
@[simp] theorem State.modPair_brd (s : State) (p : Nat) (f : Pair → Pair) : (s.modPair p f).brd = s.brd := rfl
@[simp] theorem State.modPair_lnk (s : State) (p : Nat) (f : Pair → Pair) : (s.modPair p f).lnk = s.lnk := rfl
@[simp] theorem State.modPair_fab (s : State) (p : Nat) (f : Pair → Pair) : (s.modPair p f).fab = s.fab := rfl
@[simp] theorem State.modPair_hst (s : State) (p : Nat) (f : Pair → Pair) : (s.modPair p f).hst = s.hst := rfl
@[simp] theorem State.modPair_que (s : State) (p : Nat) (f : Pair → Pair) : (s.modPair p f).que = s.que := rfl
@[simp] theorem State.modPair_itl (s : State) (p : Nat) (f : Pair → Pair) : (s.modPair p f).itl = s.itl := rfl
@[simp] theorem State.modPair_sched (s : State) (p : Nat) (f : Pair → Pair) : (s.modPair p f).sched = s.sched := rfl
@[simp] theorem State.modPair_cad (s : State) (p : Nat) (f : Pair → Pair) : (s.modPair p f).cad = s.cad := rfl
@[simp] theorem State.modPair_pwr (s : State) (p : Nat) (f : Pair → Pair) : (s.modPair p f).pwr = s.pwr := rfl
@[simp] theorem State.modPair_rcv (s : State) (p : Nat) (f : Pair → Pair) : (s.modPair p f).rcv = s.rcv := rfl
@[simp] theorem State.modPair_rot (s : State) (p : Nat) (f : Pair → Pair) : (s.modPair p f).rot = s.rot := rfl
@[simp] theorem State.modPair_cry (s : State) (p : Nat) (f : Pair → Pair) : (s.modPair p f).cry = s.cry := rfl
@[simp] theorem State.modPair_evt (s : State) (p : Nat) (f : Pair → Pair) : (s.modPair p f).evt = s.evt := rfl
@[simp] theorem State.modPair_flog (s : State) (p : Nat) (f : Pair → Pair) : (s.modPair p f).flog = s.flog := rfl
@[simp] theorem State.modPair_boot (s : State) (p : Nat) (f : Pair → Pair) : (s.modPair p f).boot = s.boot := rfl

/-! ### modFunc -/

@[simp] theorem State.modFunc_pending (s : State) (h i : Nat) (f : Func → Func) : (s.modFunc h i f).pending = s.pending := rfl
@[simp] theorem State.modFunc_out (s : State) (h i : Nat) (f : Func → Func) : (s.modFunc h i f).out = s.out := rfl
@[simp] theorem State.modFunc_mem (s : State) (h i : Nat) (f : Func → Func) : (s.modFunc h i f).mem = s.mem := rfl
@[simp] theorem State.modFunc_fresh (s : State) (h i : Nat) (f : Func → Func) : (s.modFunc h i f).fresh = s.fresh := rfl
@[simp] theorem State.modFunc_lowHeld (s : State) (h i : Nat) (f : Func → Func) : (s.modFunc h i f).lowHeld = s.lowHeld := rfl
@[simp] theorem State.modFunc_highLatch (s : State) (h i : Nat) (f : Func → Func) : (s.modFunc h i f).highLatch = s.highLatch := rfl
@[simp] theorem State.modFunc_tiles (s : State) (h i : Nat) (f : Func → Func) : (s.modFunc h i f).tiles = s.tiles := rfl
@[simp] theorem State.modFunc_cycles (s : State) (h i : Nat) (f : Func → Func) : (s.modFunc h i f).cycles = s.cycles := rfl
@[simp] theorem State.modFunc_mesh (s : State) (h i : Nat) (f : Func → Func) : (s.modFunc h i f).mesh = s.mesh := rfl
@[simp] theorem State.modFunc_lp (s : State) (h i : Nat) (f : Func → Func) : (s.modFunc h i f).lp = s.lp := rfl
@[simp] theorem State.modFunc_xlt (s : State) (h i : Nat) (f : Func → Func) : (s.modFunc h i f).xlt = s.xlt := rfl
@[simp] theorem State.modFunc_brd (s : State) (h i : Nat) (f : Func → Func) : (s.modFunc h i f).brd = s.brd := rfl
@[simp] theorem State.modFunc_lnk (s : State) (h i : Nat) (f : Func → Func) : (s.modFunc h i f).lnk = s.lnk := rfl
@[simp] theorem State.modFunc_fab (s : State) (h i : Nat) (f : Func → Func) : (s.modFunc h i f).fab = s.fab := rfl
@[simp] theorem State.modFunc_que (s : State) (h i : Nat) (f : Func → Func) : (s.modFunc h i f).que = s.que := rfl
@[simp] theorem State.modFunc_itl (s : State) (h i : Nat) (f : Func → Func) : (s.modFunc h i f).itl = s.itl := rfl
@[simp] theorem State.modFunc_sched (s : State) (h i : Nat) (f : Func → Func) : (s.modFunc h i f).sched = s.sched := rfl
@[simp] theorem State.modFunc_cad (s : State) (h i : Nat) (f : Func → Func) : (s.modFunc h i f).cad = s.cad := rfl
@[simp] theorem State.modFunc_pwr (s : State) (h i : Nat) (f : Func → Func) : (s.modFunc h i f).pwr = s.pwr := rfl
@[simp] theorem State.modFunc_rcv (s : State) (h i : Nat) (f : Func → Func) : (s.modFunc h i f).rcv = s.rcv := rfl
@[simp] theorem State.modFunc_rot (s : State) (h i : Nat) (f : Func → Func) : (s.modFunc h i f).rot = s.rot := rfl
@[simp] theorem State.modFunc_cry (s : State) (h i : Nat) (f : Func → Func) : (s.modFunc h i f).cry = s.cry := rfl
@[simp] theorem State.modFunc_evt (s : State) (h i : Nat) (f : Func → Func) : (s.modFunc h i f).evt = s.evt := rfl
@[simp] theorem State.modFunc_flog (s : State) (h i : Nat) (f : Func → Func) : (s.modFunc h i f).flog = s.flog := rfl
@[simp] theorem State.modFunc_boot (s : State) (h i : Nat) (f : Func → Func) : (s.modFunc h i f).boot = s.boot := rfl

/-! ### modHPort -/

@[simp] theorem State.modHPort_pending (s : State) (h : Nat) (f : HPort → HPort) : (s.modHPort h f).pending = s.pending := rfl
@[simp] theorem State.modHPort_out (s : State) (h : Nat) (f : HPort → HPort) : (s.modHPort h f).out = s.out := rfl
@[simp] theorem State.modHPort_mem (s : State) (h : Nat) (f : HPort → HPort) : (s.modHPort h f).mem = s.mem := rfl
@[simp] theorem State.modHPort_fresh (s : State) (h : Nat) (f : HPort → HPort) : (s.modHPort h f).fresh = s.fresh := rfl
@[simp] theorem State.modHPort_lowHeld (s : State) (h : Nat) (f : HPort → HPort) : (s.modHPort h f).lowHeld = s.lowHeld := rfl
@[simp] theorem State.modHPort_highLatch (s : State) (h : Nat) (f : HPort → HPort) : (s.modHPort h f).highLatch = s.highLatch := rfl
@[simp] theorem State.modHPort_tiles (s : State) (h : Nat) (f : HPort → HPort) : (s.modHPort h f).tiles = s.tiles := rfl
@[simp] theorem State.modHPort_cycles (s : State) (h : Nat) (f : HPort → HPort) : (s.modHPort h f).cycles = s.cycles := rfl
@[simp] theorem State.modHPort_mesh (s : State) (h : Nat) (f : HPort → HPort) : (s.modHPort h f).mesh = s.mesh := rfl
@[simp] theorem State.modHPort_lp (s : State) (h : Nat) (f : HPort → HPort) : (s.modHPort h f).lp = s.lp := rfl
@[simp] theorem State.modHPort_xlt (s : State) (h : Nat) (f : HPort → HPort) : (s.modHPort h f).xlt = s.xlt := rfl
@[simp] theorem State.modHPort_brd (s : State) (h : Nat) (f : HPort → HPort) : (s.modHPort h f).brd = s.brd := rfl
@[simp] theorem State.modHPort_lnk (s : State) (h : Nat) (f : HPort → HPort) : (s.modHPort h f).lnk = s.lnk := rfl
@[simp] theorem State.modHPort_fab (s : State) (h : Nat) (f : HPort → HPort) : (s.modHPort h f).fab = s.fab := rfl
@[simp] theorem State.modHPort_que (s : State) (h : Nat) (f : HPort → HPort) : (s.modHPort h f).que = s.que := rfl
@[simp] theorem State.modHPort_itl (s : State) (h : Nat) (f : HPort → HPort) : (s.modHPort h f).itl = s.itl := rfl
@[simp] theorem State.modHPort_sched (s : State) (h : Nat) (f : HPort → HPort) : (s.modHPort h f).sched = s.sched := rfl
@[simp] theorem State.modHPort_cad (s : State) (h : Nat) (f : HPort → HPort) : (s.modHPort h f).cad = s.cad := rfl
@[simp] theorem State.modHPort_pwr (s : State) (h : Nat) (f : HPort → HPort) : (s.modHPort h f).pwr = s.pwr := rfl
@[simp] theorem State.modHPort_rcv (s : State) (h : Nat) (f : HPort → HPort) : (s.modHPort h f).rcv = s.rcv := rfl
@[simp] theorem State.modHPort_rot (s : State) (h : Nat) (f : HPort → HPort) : (s.modHPort h f).rot = s.rot := rfl
@[simp] theorem State.modHPort_cry (s : State) (h : Nat) (f : HPort → HPort) : (s.modHPort h f).cry = s.cry := rfl
@[simp] theorem State.modHPort_evt (s : State) (h : Nat) (f : HPort → HPort) : (s.modHPort h f).evt = s.evt := rfl
@[simp] theorem State.modHPort_flog (s : State) (h : Nat) (f : HPort → HPort) : (s.modHPort h f).flog = s.flog := rfl
@[simp] theorem State.modHPort_boot (s : State) (h : Nat) (f : HPort → HPort) : (s.modHPort h f).boot = s.boot := rfl

/-! ### modFence -/

@[simp] theorem State.modFence_pending (s : State) (k : Nat) (f : FenceSt → FenceSt) : (s.modFence k f).pending = s.pending := rfl
@[simp] theorem State.modFence_out (s : State) (k : Nat) (f : FenceSt → FenceSt) : (s.modFence k f).out = s.out := rfl
@[simp] theorem State.modFence_mem (s : State) (k : Nat) (f : FenceSt → FenceSt) : (s.modFence k f).mem = s.mem := rfl
@[simp] theorem State.modFence_fresh (s : State) (k : Nat) (f : FenceSt → FenceSt) : (s.modFence k f).fresh = s.fresh := rfl
@[simp] theorem State.modFence_lowHeld (s : State) (k : Nat) (f : FenceSt → FenceSt) : (s.modFence k f).lowHeld = s.lowHeld := rfl
@[simp] theorem State.modFence_highLatch (s : State) (k : Nat) (f : FenceSt → FenceSt) : (s.modFence k f).highLatch = s.highLatch := rfl
@[simp] theorem State.modFence_tiles (s : State) (k : Nat) (f : FenceSt → FenceSt) : (s.modFence k f).tiles = s.tiles := rfl
@[simp] theorem State.modFence_cycles (s : State) (k : Nat) (f : FenceSt → FenceSt) : (s.modFence k f).cycles = s.cycles := rfl
@[simp] theorem State.modFence_mesh (s : State) (k : Nat) (f : FenceSt → FenceSt) : (s.modFence k f).mesh = s.mesh := rfl
@[simp] theorem State.modFence_lp (s : State) (k : Nat) (f : FenceSt → FenceSt) : (s.modFence k f).lp = s.lp := rfl
@[simp] theorem State.modFence_xlt (s : State) (k : Nat) (f : FenceSt → FenceSt) : (s.modFence k f).xlt = s.xlt := rfl
@[simp] theorem State.modFence_lnk (s : State) (k : Nat) (f : FenceSt → FenceSt) : (s.modFence k f).lnk = s.lnk := rfl
@[simp] theorem State.modFence_fab (s : State) (k : Nat) (f : FenceSt → FenceSt) : (s.modFence k f).fab = s.fab := rfl
@[simp] theorem State.modFence_hst (s : State) (k : Nat) (f : FenceSt → FenceSt) : (s.modFence k f).hst = s.hst := rfl
@[simp] theorem State.modFence_que (s : State) (k : Nat) (f : FenceSt → FenceSt) : (s.modFence k f).que = s.que := rfl
@[simp] theorem State.modFence_itl (s : State) (k : Nat) (f : FenceSt → FenceSt) : (s.modFence k f).itl = s.itl := rfl
@[simp] theorem State.modFence_sched (s : State) (k : Nat) (f : FenceSt → FenceSt) : (s.modFence k f).sched = s.sched := rfl
@[simp] theorem State.modFence_cad (s : State) (k : Nat) (f : FenceSt → FenceSt) : (s.modFence k f).cad = s.cad := rfl
@[simp] theorem State.modFence_pwr (s : State) (k : Nat) (f : FenceSt → FenceSt) : (s.modFence k f).pwr = s.pwr := rfl
@[simp] theorem State.modFence_rcv (s : State) (k : Nat) (f : FenceSt → FenceSt) : (s.modFence k f).rcv = s.rcv := rfl
@[simp] theorem State.modFence_rot (s : State) (k : Nat) (f : FenceSt → FenceSt) : (s.modFence k f).rot = s.rot := rfl
@[simp] theorem State.modFence_cry (s : State) (k : Nat) (f : FenceSt → FenceSt) : (s.modFence k f).cry = s.cry := rfl
@[simp] theorem State.modFence_evt (s : State) (k : Nat) (f : FenceSt → FenceSt) : (s.modFence k f).evt = s.evt := rfl
@[simp] theorem State.modFence_flog (s : State) (k : Nat) (f : FenceSt → FenceSt) : (s.modFence k f).flog = s.flog := rfl
@[simp] theorem State.modFence_boot (s : State) (k : Nat) (f : FenceSt → FenceSt) : (s.modFence k f).boot = s.boot := rfl

/-! ### modLease -/

@[simp] theorem State.modLease_pending (s : State) (c : Cid) (f : Lease → Lease) : (s.modLease c f).pending = s.pending := rfl
@[simp] theorem State.modLease_out (s : State) (c : Cid) (f : Lease → Lease) : (s.modLease c f).out = s.out := rfl
@[simp] theorem State.modLease_mem (s : State) (c : Cid) (f : Lease → Lease) : (s.modLease c f).mem = s.mem := rfl
@[simp] theorem State.modLease_fresh (s : State) (c : Cid) (f : Lease → Lease) : (s.modLease c f).fresh = s.fresh := rfl
@[simp] theorem State.modLease_lowHeld (s : State) (c : Cid) (f : Lease → Lease) : (s.modLease c f).lowHeld = s.lowHeld := rfl
@[simp] theorem State.modLease_highLatch (s : State) (c : Cid) (f : Lease → Lease) : (s.modLease c f).highLatch = s.highLatch := rfl
@[simp] theorem State.modLease_tiles (s : State) (c : Cid) (f : Lease → Lease) : (s.modLease c f).tiles = s.tiles := rfl
@[simp] theorem State.modLease_cycles (s : State) (c : Cid) (f : Lease → Lease) : (s.modLease c f).cycles = s.cycles := rfl
@[simp] theorem State.modLease_mesh (s : State) (c : Cid) (f : Lease → Lease) : (s.modLease c f).mesh = s.mesh := rfl
@[simp] theorem State.modLease_lp (s : State) (c : Cid) (f : Lease → Lease) : (s.modLease c f).lp = s.lp := rfl
@[simp] theorem State.modLease_xlt (s : State) (c : Cid) (f : Lease → Lease) : (s.modLease c f).xlt = s.xlt := rfl
@[simp] theorem State.modLease_lnk (s : State) (c : Cid) (f : Lease → Lease) : (s.modLease c f).lnk = s.lnk := rfl
@[simp] theorem State.modLease_fab (s : State) (c : Cid) (f : Lease → Lease) : (s.modLease c f).fab = s.fab := rfl
@[simp] theorem State.modLease_hst (s : State) (c : Cid) (f : Lease → Lease) : (s.modLease c f).hst = s.hst := rfl
@[simp] theorem State.modLease_que (s : State) (c : Cid) (f : Lease → Lease) : (s.modLease c f).que = s.que := rfl
@[simp] theorem State.modLease_itl (s : State) (c : Cid) (f : Lease → Lease) : (s.modLease c f).itl = s.itl := rfl
@[simp] theorem State.modLease_sched (s : State) (c : Cid) (f : Lease → Lease) : (s.modLease c f).sched = s.sched := rfl
@[simp] theorem State.modLease_cad (s : State) (c : Cid) (f : Lease → Lease) : (s.modLease c f).cad = s.cad := rfl
@[simp] theorem State.modLease_pwr (s : State) (c : Cid) (f : Lease → Lease) : (s.modLease c f).pwr = s.pwr := rfl
@[simp] theorem State.modLease_rcv (s : State) (c : Cid) (f : Lease → Lease) : (s.modLease c f).rcv = s.rcv := rfl
@[simp] theorem State.modLease_rot (s : State) (c : Cid) (f : Lease → Lease) : (s.modLease c f).rot = s.rot := rfl
@[simp] theorem State.modLease_cry (s : State) (c : Cid) (f : Lease → Lease) : (s.modLease c f).cry = s.cry := rfl
@[simp] theorem State.modLease_evt (s : State) (c : Cid) (f : Lease → Lease) : (s.modLease c f).evt = s.evt := rfl
@[simp] theorem State.modLease_flog (s : State) (c : Cid) (f : Lease → Lease) : (s.modLease c f).flog = s.flog := rfl
@[simp] theorem State.modLease_boot (s : State) (c : Cid) (f : Lease → Lease) : (s.modLease c f).boot = s.boot := rfl

/-! ### modMove -/

@[simp] theorem State.modMove_pending (s : State) (h : Nat) (f : Move → Move) : (s.modMove h f).pending = s.pending := rfl
@[simp] theorem State.modMove_out (s : State) (h : Nat) (f : Move → Move) : (s.modMove h f).out = s.out := rfl
@[simp] theorem State.modMove_mem (s : State) (h : Nat) (f : Move → Move) : (s.modMove h f).mem = s.mem := rfl
@[simp] theorem State.modMove_fresh (s : State) (h : Nat) (f : Move → Move) : (s.modMove h f).fresh = s.fresh := rfl
@[simp] theorem State.modMove_lowHeld (s : State) (h : Nat) (f : Move → Move) : (s.modMove h f).lowHeld = s.lowHeld := rfl
@[simp] theorem State.modMove_highLatch (s : State) (h : Nat) (f : Move → Move) : (s.modMove h f).highLatch = s.highLatch := rfl
@[simp] theorem State.modMove_tiles (s : State) (h : Nat) (f : Move → Move) : (s.modMove h f).tiles = s.tiles := rfl
@[simp] theorem State.modMove_cycles (s : State) (h : Nat) (f : Move → Move) : (s.modMove h f).cycles = s.cycles := rfl
@[simp] theorem State.modMove_mesh (s : State) (h : Nat) (f : Move → Move) : (s.modMove h f).mesh = s.mesh := rfl
@[simp] theorem State.modMove_lp (s : State) (h : Nat) (f : Move → Move) : (s.modMove h f).lp = s.lp := rfl
@[simp] theorem State.modMove_xlt (s : State) (h : Nat) (f : Move → Move) : (s.modMove h f).xlt = s.xlt := rfl
@[simp] theorem State.modMove_lnk (s : State) (h : Nat) (f : Move → Move) : (s.modMove h f).lnk = s.lnk := rfl
@[simp] theorem State.modMove_fab (s : State) (h : Nat) (f : Move → Move) : (s.modMove h f).fab = s.fab := rfl
@[simp] theorem State.modMove_hst (s : State) (h : Nat) (f : Move → Move) : (s.modMove h f).hst = s.hst := rfl
@[simp] theorem State.modMove_que (s : State) (h : Nat) (f : Move → Move) : (s.modMove h f).que = s.que := rfl
@[simp] theorem State.modMove_itl (s : State) (h : Nat) (f : Move → Move) : (s.modMove h f).itl = s.itl := rfl
@[simp] theorem State.modMove_sched (s : State) (h : Nat) (f : Move → Move) : (s.modMove h f).sched = s.sched := rfl
@[simp] theorem State.modMove_cad (s : State) (h : Nat) (f : Move → Move) : (s.modMove h f).cad = s.cad := rfl
@[simp] theorem State.modMove_pwr (s : State) (h : Nat) (f : Move → Move) : (s.modMove h f).pwr = s.pwr := rfl
@[simp] theorem State.modMove_rcv (s : State) (h : Nat) (f : Move → Move) : (s.modMove h f).rcv = s.rcv := rfl
@[simp] theorem State.modMove_rot (s : State) (h : Nat) (f : Move → Move) : (s.modMove h f).rot = s.rot := rfl
@[simp] theorem State.modMove_cry (s : State) (h : Nat) (f : Move → Move) : (s.modMove h f).cry = s.cry := rfl
@[simp] theorem State.modMove_evt (s : State) (h : Nat) (f : Move → Move) : (s.modMove h f).evt = s.evt := rfl
@[simp] theorem State.modMove_flog (s : State) (h : Nat) (f : Move → Move) : (s.modMove h f).flog = s.flog := rfl
@[simp] theorem State.modMove_boot (s : State) (h : Nat) (f : Move → Move) : (s.modMove h f).boot = s.boot := rfl

/-! ### modMeter -/

@[simp] theorem State.modMeter_pending (s : State) (k : Nat) (f : Meter → Meter) : (s.modMeter k f).pending = s.pending := rfl
@[simp] theorem State.modMeter_out (s : State) (k : Nat) (f : Meter → Meter) : (s.modMeter k f).out = s.out := rfl
@[simp] theorem State.modMeter_mem (s : State) (k : Nat) (f : Meter → Meter) : (s.modMeter k f).mem = s.mem := rfl
@[simp] theorem State.modMeter_fresh (s : State) (k : Nat) (f : Meter → Meter) : (s.modMeter k f).fresh = s.fresh := rfl
@[simp] theorem State.modMeter_lowHeld (s : State) (k : Nat) (f : Meter → Meter) : (s.modMeter k f).lowHeld = s.lowHeld := rfl
@[simp] theorem State.modMeter_highLatch (s : State) (k : Nat) (f : Meter → Meter) : (s.modMeter k f).highLatch = s.highLatch := rfl
@[simp] theorem State.modMeter_tiles (s : State) (k : Nat) (f : Meter → Meter) : (s.modMeter k f).tiles = s.tiles := rfl
@[simp] theorem State.modMeter_cycles (s : State) (k : Nat) (f : Meter → Meter) : (s.modMeter k f).cycles = s.cycles := rfl
@[simp] theorem State.modMeter_mesh (s : State) (k : Nat) (f : Meter → Meter) : (s.modMeter k f).mesh = s.mesh := rfl
@[simp] theorem State.modMeter_lp (s : State) (k : Nat) (f : Meter → Meter) : (s.modMeter k f).lp = s.lp := rfl
@[simp] theorem State.modMeter_xlt (s : State) (k : Nat) (f : Meter → Meter) : (s.modMeter k f).xlt = s.xlt := rfl
@[simp] theorem State.modMeter_lnk (s : State) (k : Nat) (f : Meter → Meter) : (s.modMeter k f).lnk = s.lnk := rfl
@[simp] theorem State.modMeter_fab (s : State) (k : Nat) (f : Meter → Meter) : (s.modMeter k f).fab = s.fab := rfl
@[simp] theorem State.modMeter_hst (s : State) (k : Nat) (f : Meter → Meter) : (s.modMeter k f).hst = s.hst := rfl
@[simp] theorem State.modMeter_que (s : State) (k : Nat) (f : Meter → Meter) : (s.modMeter k f).que = s.que := rfl
@[simp] theorem State.modMeter_itl (s : State) (k : Nat) (f : Meter → Meter) : (s.modMeter k f).itl = s.itl := rfl
@[simp] theorem State.modMeter_sched (s : State) (k : Nat) (f : Meter → Meter) : (s.modMeter k f).sched = s.sched := rfl
@[simp] theorem State.modMeter_cad (s : State) (k : Nat) (f : Meter → Meter) : (s.modMeter k f).cad = s.cad := rfl
@[simp] theorem State.modMeter_pwr (s : State) (k : Nat) (f : Meter → Meter) : (s.modMeter k f).pwr = s.pwr := rfl
@[simp] theorem State.modMeter_rcv (s : State) (k : Nat) (f : Meter → Meter) : (s.modMeter k f).rcv = s.rcv := rfl
@[simp] theorem State.modMeter_rot (s : State) (k : Nat) (f : Meter → Meter) : (s.modMeter k f).rot = s.rot := rfl
@[simp] theorem State.modMeter_cry (s : State) (k : Nat) (f : Meter → Meter) : (s.modMeter k f).cry = s.cry := rfl
@[simp] theorem State.modMeter_evt (s : State) (k : Nat) (f : Meter → Meter) : (s.modMeter k f).evt = s.evt := rfl
@[simp] theorem State.modMeter_flog (s : State) (k : Nat) (f : Meter → Meter) : (s.modMeter k f).flog = s.flog := rfl
@[simp] theorem State.modMeter_boot (s : State) (k : Nat) (f : Meter → Meter) : (s.modMeter k f).boot = s.boot := rfl

/-! ### modRes -/

@[simp] theorem State.modRes_pending (s : State) (r : Nat) (f : ResRo → ResRo) : (s.modRes r f).pending = s.pending := rfl
@[simp] theorem State.modRes_out (s : State) (r : Nat) (f : ResRo → ResRo) : (s.modRes r f).out = s.out := rfl
@[simp] theorem State.modRes_mem (s : State) (r : Nat) (f : ResRo → ResRo) : (s.modRes r f).mem = s.mem := rfl
@[simp] theorem State.modRes_fresh (s : State) (r : Nat) (f : ResRo → ResRo) : (s.modRes r f).fresh = s.fresh := rfl
@[simp] theorem State.modRes_lowHeld (s : State) (r : Nat) (f : ResRo → ResRo) : (s.modRes r f).lowHeld = s.lowHeld := rfl
@[simp] theorem State.modRes_highLatch (s : State) (r : Nat) (f : ResRo → ResRo) : (s.modRes r f).highLatch = s.highLatch := rfl
@[simp] theorem State.modRes_tiles (s : State) (r : Nat) (f : ResRo → ResRo) : (s.modRes r f).tiles = s.tiles := rfl
@[simp] theorem State.modRes_cycles (s : State) (r : Nat) (f : ResRo → ResRo) : (s.modRes r f).cycles = s.cycles := rfl
@[simp] theorem State.modRes_mesh (s : State) (r : Nat) (f : ResRo → ResRo) : (s.modRes r f).mesh = s.mesh := rfl
@[simp] theorem State.modRes_lp (s : State) (r : Nat) (f : ResRo → ResRo) : (s.modRes r f).lp = s.lp := rfl
@[simp] theorem State.modRes_xlt (s : State) (r : Nat) (f : ResRo → ResRo) : (s.modRes r f).xlt = s.xlt := rfl
@[simp] theorem State.modRes_brd (s : State) (r : Nat) (f : ResRo → ResRo) : (s.modRes r f).brd = s.brd := rfl
@[simp] theorem State.modRes_lnk (s : State) (r : Nat) (f : ResRo → ResRo) : (s.modRes r f).lnk = s.lnk := rfl
@[simp] theorem State.modRes_fab (s : State) (r : Nat) (f : ResRo → ResRo) : (s.modRes r f).fab = s.fab := rfl
@[simp] theorem State.modRes_hst (s : State) (r : Nat) (f : ResRo → ResRo) : (s.modRes r f).hst = s.hst := rfl
@[simp] theorem State.modRes_itl (s : State) (r : Nat) (f : ResRo → ResRo) : (s.modRes r f).itl = s.itl := rfl
@[simp] theorem State.modRes_sched (s : State) (r : Nat) (f : ResRo → ResRo) : (s.modRes r f).sched = s.sched := rfl
@[simp] theorem State.modRes_cad (s : State) (r : Nat) (f : ResRo → ResRo) : (s.modRes r f).cad = s.cad := rfl
@[simp] theorem State.modRes_pwr (s : State) (r : Nat) (f : ResRo → ResRo) : (s.modRes r f).pwr = s.pwr := rfl
@[simp] theorem State.modRes_rcv (s : State) (r : Nat) (f : ResRo → ResRo) : (s.modRes r f).rcv = s.rcv := rfl
@[simp] theorem State.modRes_rot (s : State) (r : Nat) (f : ResRo → ResRo) : (s.modRes r f).rot = s.rot := rfl
@[simp] theorem State.modRes_cry (s : State) (r : Nat) (f : ResRo → ResRo) : (s.modRes r f).cry = s.cry := rfl
@[simp] theorem State.modRes_evt (s : State) (r : Nat) (f : ResRo → ResRo) : (s.modRes r f).evt = s.evt := rfl
@[simp] theorem State.modRes_flog (s : State) (r : Nat) (f : ResRo → ResRo) : (s.modRes r f).flog = s.flog := rfl
@[simp] theorem State.modRes_boot (s : State) (r : Nat) (f : ResRo → ResRo) : (s.modRes r f).boot = s.boot := rfl

/-! ### modFq -/

@[simp] theorem State.modFq_pending (s : State) (k : Nat) (f : FqRo → FqRo) : (s.modFq k f).pending = s.pending := rfl
@[simp] theorem State.modFq_out (s : State) (k : Nat) (f : FqRo → FqRo) : (s.modFq k f).out = s.out := rfl
@[simp] theorem State.modFq_mem (s : State) (k : Nat) (f : FqRo → FqRo) : (s.modFq k f).mem = s.mem := rfl
@[simp] theorem State.modFq_fresh (s : State) (k : Nat) (f : FqRo → FqRo) : (s.modFq k f).fresh = s.fresh := rfl
@[simp] theorem State.modFq_lowHeld (s : State) (k : Nat) (f : FqRo → FqRo) : (s.modFq k f).lowHeld = s.lowHeld := rfl
@[simp] theorem State.modFq_highLatch (s : State) (k : Nat) (f : FqRo → FqRo) : (s.modFq k f).highLatch = s.highLatch := rfl
@[simp] theorem State.modFq_tiles (s : State) (k : Nat) (f : FqRo → FqRo) : (s.modFq k f).tiles = s.tiles := rfl
@[simp] theorem State.modFq_cycles (s : State) (k : Nat) (f : FqRo → FqRo) : (s.modFq k f).cycles = s.cycles := rfl
@[simp] theorem State.modFq_mesh (s : State) (k : Nat) (f : FqRo → FqRo) : (s.modFq k f).mesh = s.mesh := rfl
@[simp] theorem State.modFq_lp (s : State) (k : Nat) (f : FqRo → FqRo) : (s.modFq k f).lp = s.lp := rfl
@[simp] theorem State.modFq_xlt (s : State) (k : Nat) (f : FqRo → FqRo) : (s.modFq k f).xlt = s.xlt := rfl
@[simp] theorem State.modFq_brd (s : State) (k : Nat) (f : FqRo → FqRo) : (s.modFq k f).brd = s.brd := rfl
@[simp] theorem State.modFq_lnk (s : State) (k : Nat) (f : FqRo → FqRo) : (s.modFq k f).lnk = s.lnk := rfl
@[simp] theorem State.modFq_fab (s : State) (k : Nat) (f : FqRo → FqRo) : (s.modFq k f).fab = s.fab := rfl
@[simp] theorem State.modFq_hst (s : State) (k : Nat) (f : FqRo → FqRo) : (s.modFq k f).hst = s.hst := rfl
@[simp] theorem State.modFq_itl (s : State) (k : Nat) (f : FqRo → FqRo) : (s.modFq k f).itl = s.itl := rfl
@[simp] theorem State.modFq_sched (s : State) (k : Nat) (f : FqRo → FqRo) : (s.modFq k f).sched = s.sched := rfl
@[simp] theorem State.modFq_cad (s : State) (k : Nat) (f : FqRo → FqRo) : (s.modFq k f).cad = s.cad := rfl
@[simp] theorem State.modFq_pwr (s : State) (k : Nat) (f : FqRo → FqRo) : (s.modFq k f).pwr = s.pwr := rfl
@[simp] theorem State.modFq_rcv (s : State) (k : Nat) (f : FqRo → FqRo) : (s.modFq k f).rcv = s.rcv := rfl
@[simp] theorem State.modFq_rot (s : State) (k : Nat) (f : FqRo → FqRo) : (s.modFq k f).rot = s.rot := rfl
@[simp] theorem State.modFq_cry (s : State) (k : Nat) (f : FqRo → FqRo) : (s.modFq k f).cry = s.cry := rfl
@[simp] theorem State.modFq_evt (s : State) (k : Nat) (f : FqRo → FqRo) : (s.modFq k f).evt = s.evt := rfl
@[simp] theorem State.modFq_flog (s : State) (k : Nat) (f : FqRo → FqRo) : (s.modFq k f).flog = s.flog := rfl
@[simp] theorem State.modFq_boot (s : State) (k : Nat) (f : FqRo → FqRo) : (s.modFq k f).boot = s.boot := rfl

/-! ### modQ -/

@[simp] theorem State.modQ_pending (s : State) (e : Nat) (f : QRo → QRo) : (s.modQ e f).pending = s.pending := rfl
@[simp] theorem State.modQ_out (s : State) (e : Nat) (f : QRo → QRo) : (s.modQ e f).out = s.out := rfl
@[simp] theorem State.modQ_mem (s : State) (e : Nat) (f : QRo → QRo) : (s.modQ e f).mem = s.mem := rfl
@[simp] theorem State.modQ_fresh (s : State) (e : Nat) (f : QRo → QRo) : (s.modQ e f).fresh = s.fresh := rfl
@[simp] theorem State.modQ_lowHeld (s : State) (e : Nat) (f : QRo → QRo) : (s.modQ e f).lowHeld = s.lowHeld := rfl
@[simp] theorem State.modQ_highLatch (s : State) (e : Nat) (f : QRo → QRo) : (s.modQ e f).highLatch = s.highLatch := rfl
@[simp] theorem State.modQ_tiles (s : State) (e : Nat) (f : QRo → QRo) : (s.modQ e f).tiles = s.tiles := rfl
@[simp] theorem State.modQ_cycles (s : State) (e : Nat) (f : QRo → QRo) : (s.modQ e f).cycles = s.cycles := rfl
@[simp] theorem State.modQ_mesh (s : State) (e : Nat) (f : QRo → QRo) : (s.modQ e f).mesh = s.mesh := rfl
@[simp] theorem State.modQ_lp (s : State) (e : Nat) (f : QRo → QRo) : (s.modQ e f).lp = s.lp := rfl
@[simp] theorem State.modQ_xlt (s : State) (e : Nat) (f : QRo → QRo) : (s.modQ e f).xlt = s.xlt := rfl
@[simp] theorem State.modQ_brd (s : State) (e : Nat) (f : QRo → QRo) : (s.modQ e f).brd = s.brd := rfl
@[simp] theorem State.modQ_lnk (s : State) (e : Nat) (f : QRo → QRo) : (s.modQ e f).lnk = s.lnk := rfl
@[simp] theorem State.modQ_fab (s : State) (e : Nat) (f : QRo → QRo) : (s.modQ e f).fab = s.fab := rfl
@[simp] theorem State.modQ_hst (s : State) (e : Nat) (f : QRo → QRo) : (s.modQ e f).hst = s.hst := rfl
@[simp] theorem State.modQ_itl (s : State) (e : Nat) (f : QRo → QRo) : (s.modQ e f).itl = s.itl := rfl
@[simp] theorem State.modQ_sched (s : State) (e : Nat) (f : QRo → QRo) : (s.modQ e f).sched = s.sched := rfl
@[simp] theorem State.modQ_cad (s : State) (e : Nat) (f : QRo → QRo) : (s.modQ e f).cad = s.cad := rfl
@[simp] theorem State.modQ_pwr (s : State) (e : Nat) (f : QRo → QRo) : (s.modQ e f).pwr = s.pwr := rfl
@[simp] theorem State.modQ_rcv (s : State) (e : Nat) (f : QRo → QRo) : (s.modQ e f).rcv = s.rcv := rfl
@[simp] theorem State.modQ_rot (s : State) (e : Nat) (f : QRo → QRo) : (s.modQ e f).rot = s.rot := rfl
@[simp] theorem State.modQ_cry (s : State) (e : Nat) (f : QRo → QRo) : (s.modQ e f).cry = s.cry := rfl
@[simp] theorem State.modQ_evt (s : State) (e : Nat) (f : QRo → QRo) : (s.modQ e f).evt = s.evt := rfl
@[simp] theorem State.modQ_flog (s : State) (e : Nat) (f : QRo → QRo) : (s.modQ e f).flog = s.flog := rfl
@[simp] theorem State.modQ_boot (s : State) (e : Nat) (f : QRo → QRo) : (s.modQ e f).boot = s.boot := rfl

/-! ### modColl -/

@[simp] theorem State.modColl_pending (s : State) (c : Nat) (f : CollRun → CollRun) : (s.modColl c f).pending = s.pending := rfl
@[simp] theorem State.modColl_out (s : State) (c : Nat) (f : CollRun → CollRun) : (s.modColl c f).out = s.out := rfl
@[simp] theorem State.modColl_mem (s : State) (c : Nat) (f : CollRun → CollRun) : (s.modColl c f).mem = s.mem := rfl
@[simp] theorem State.modColl_fresh (s : State) (c : Nat) (f : CollRun → CollRun) : (s.modColl c f).fresh = s.fresh := rfl
@[simp] theorem State.modColl_lowHeld (s : State) (c : Nat) (f : CollRun → CollRun) : (s.modColl c f).lowHeld = s.lowHeld := rfl
@[simp] theorem State.modColl_highLatch (s : State) (c : Nat) (f : CollRun → CollRun) : (s.modColl c f).highLatch = s.highLatch := rfl
@[simp] theorem State.modColl_tiles (s : State) (c : Nat) (f : CollRun → CollRun) : (s.modColl c f).tiles = s.tiles := rfl
@[simp] theorem State.modColl_cycles (s : State) (c : Nat) (f : CollRun → CollRun) : (s.modColl c f).cycles = s.cycles := rfl
@[simp] theorem State.modColl_mesh (s : State) (c : Nat) (f : CollRun → CollRun) : (s.modColl c f).mesh = s.mesh := rfl
@[simp] theorem State.modColl_lp (s : State) (c : Nat) (f : CollRun → CollRun) : (s.modColl c f).lp = s.lp := rfl
@[simp] theorem State.modColl_xlt (s : State) (c : Nat) (f : CollRun → CollRun) : (s.modColl c f).xlt = s.xlt := rfl
@[simp] theorem State.modColl_brd (s : State) (c : Nat) (f : CollRun → CollRun) : (s.modColl c f).brd = s.brd := rfl
@[simp] theorem State.modColl_lnk (s : State) (c : Nat) (f : CollRun → CollRun) : (s.modColl c f).lnk = s.lnk := rfl
@[simp] theorem State.modColl_hst (s : State) (c : Nat) (f : CollRun → CollRun) : (s.modColl c f).hst = s.hst := rfl
@[simp] theorem State.modColl_que (s : State) (c : Nat) (f : CollRun → CollRun) : (s.modColl c f).que = s.que := rfl
@[simp] theorem State.modColl_itl (s : State) (c : Nat) (f : CollRun → CollRun) : (s.modColl c f).itl = s.itl := rfl
@[simp] theorem State.modColl_sched (s : State) (c : Nat) (f : CollRun → CollRun) : (s.modColl c f).sched = s.sched := rfl
@[simp] theorem State.modColl_cad (s : State) (c : Nat) (f : CollRun → CollRun) : (s.modColl c f).cad = s.cad := rfl
@[simp] theorem State.modColl_pwr (s : State) (c : Nat) (f : CollRun → CollRun) : (s.modColl c f).pwr = s.pwr := rfl
@[simp] theorem State.modColl_rcv (s : State) (c : Nat) (f : CollRun → CollRun) : (s.modColl c f).rcv = s.rcv := rfl
@[simp] theorem State.modColl_rot (s : State) (c : Nat) (f : CollRun → CollRun) : (s.modColl c f).rot = s.rot := rfl
@[simp] theorem State.modColl_cry (s : State) (c : Nat) (f : CollRun → CollRun) : (s.modColl c f).cry = s.cry := rfl
@[simp] theorem State.modColl_evt (s : State) (c : Nat) (f : CollRun → CollRun) : (s.modColl c f).evt = s.evt := rfl
@[simp] theorem State.modColl_flog (s : State) (c : Nat) (f : CollRun → CollRun) : (s.modColl c f).flog = s.flog := rfl
@[simp] theorem State.modColl_boot (s : State) (c : Nat) (f : CollRun → CollRun) : (s.modColl c f).boot = s.boot := rfl

/-! ### modKid -/

@[simp] theorem State.modKid_pending (s : State) (k : Nat) (f : Kid → Kid) : (s.modKid k f).pending = s.pending := rfl
@[simp] theorem State.modKid_out (s : State) (k : Nat) (f : Kid → Kid) : (s.modKid k f).out = s.out := rfl
@[simp] theorem State.modKid_mem (s : State) (k : Nat) (f : Kid → Kid) : (s.modKid k f).mem = s.mem := rfl
@[simp] theorem State.modKid_fresh (s : State) (k : Nat) (f : Kid → Kid) : (s.modKid k f).fresh = s.fresh := rfl
@[simp] theorem State.modKid_lowHeld (s : State) (k : Nat) (f : Kid → Kid) : (s.modKid k f).lowHeld = s.lowHeld := rfl
@[simp] theorem State.modKid_highLatch (s : State) (k : Nat) (f : Kid → Kid) : (s.modKid k f).highLatch = s.highLatch := rfl
@[simp] theorem State.modKid_tiles (s : State) (k : Nat) (f : Kid → Kid) : (s.modKid k f).tiles = s.tiles := rfl
@[simp] theorem State.modKid_cycles (s : State) (k : Nat) (f : Kid → Kid) : (s.modKid k f).cycles = s.cycles := rfl
@[simp] theorem State.modKid_mesh (s : State) (k : Nat) (f : Kid → Kid) : (s.modKid k f).mesh = s.mesh := rfl
@[simp] theorem State.modKid_lp (s : State) (k : Nat) (f : Kid → Kid) : (s.modKid k f).lp = s.lp := rfl
@[simp] theorem State.modKid_xlt (s : State) (k : Nat) (f : Kid → Kid) : (s.modKid k f).xlt = s.xlt := rfl
@[simp] theorem State.modKid_brd (s : State) (k : Nat) (f : Kid → Kid) : (s.modKid k f).brd = s.brd := rfl
@[simp] theorem State.modKid_lnk (s : State) (k : Nat) (f : Kid → Kid) : (s.modKid k f).lnk = s.lnk := rfl
@[simp] theorem State.modKid_fab (s : State) (k : Nat) (f : Kid → Kid) : (s.modKid k f).fab = s.fab := rfl
@[simp] theorem State.modKid_hst (s : State) (k : Nat) (f : Kid → Kid) : (s.modKid k f).hst = s.hst := rfl
@[simp] theorem State.modKid_que (s : State) (k : Nat) (f : Kid → Kid) : (s.modKid k f).que = s.que := rfl
@[simp] theorem State.modKid_itl (s : State) (k : Nat) (f : Kid → Kid) : (s.modKid k f).itl = s.itl := rfl
@[simp] theorem State.modKid_sched (s : State) (k : Nat) (f : Kid → Kid) : (s.modKid k f).sched = s.sched := rfl
@[simp] theorem State.modKid_cad (s : State) (k : Nat) (f : Kid → Kid) : (s.modKid k f).cad = s.cad := rfl
@[simp] theorem State.modKid_pwr (s : State) (k : Nat) (f : Kid → Kid) : (s.modKid k f).pwr = s.pwr := rfl
@[simp] theorem State.modKid_rcv (s : State) (k : Nat) (f : Kid → Kid) : (s.modKid k f).rcv = s.rcv := rfl
@[simp] theorem State.modKid_rot (s : State) (k : Nat) (f : Kid → Kid) : (s.modKid k f).rot = s.rot := rfl
@[simp] theorem State.modKid_evt (s : State) (k : Nat) (f : Kid → Kid) : (s.modKid k f).evt = s.evt := rfl
@[simp] theorem State.modKid_flog (s : State) (k : Nat) (f : Kid → Kid) : (s.modKid k f).flog = s.flog := rfl
@[simp] theorem State.modKid_boot (s : State) (k : Nat) (f : Kid → Kid) : (s.modKid k f).boot = s.boot := rfl

/-! ### modSrc -/

@[simp] theorem State.modSrc_pending (s : State) (k : Nat) (f : Src → Src) : (s.modSrc k f).pending = s.pending := rfl
@[simp] theorem State.modSrc_out (s : State) (k : Nat) (f : Src → Src) : (s.modSrc k f).out = s.out := rfl
@[simp] theorem State.modSrc_mem (s : State) (k : Nat) (f : Src → Src) : (s.modSrc k f).mem = s.mem := rfl
@[simp] theorem State.modSrc_fresh (s : State) (k : Nat) (f : Src → Src) : (s.modSrc k f).fresh = s.fresh := rfl
@[simp] theorem State.modSrc_lowHeld (s : State) (k : Nat) (f : Src → Src) : (s.modSrc k f).lowHeld = s.lowHeld := rfl
@[simp] theorem State.modSrc_highLatch (s : State) (k : Nat) (f : Src → Src) : (s.modSrc k f).highLatch = s.highLatch := rfl
@[simp] theorem State.modSrc_tiles (s : State) (k : Nat) (f : Src → Src) : (s.modSrc k f).tiles = s.tiles := rfl
@[simp] theorem State.modSrc_cycles (s : State) (k : Nat) (f : Src → Src) : (s.modSrc k f).cycles = s.cycles := rfl
@[simp] theorem State.modSrc_mesh (s : State) (k : Nat) (f : Src → Src) : (s.modSrc k f).mesh = s.mesh := rfl
@[simp] theorem State.modSrc_lp (s : State) (k : Nat) (f : Src → Src) : (s.modSrc k f).lp = s.lp := rfl
@[simp] theorem State.modSrc_xlt (s : State) (k : Nat) (f : Src → Src) : (s.modSrc k f).xlt = s.xlt := rfl
@[simp] theorem State.modSrc_brd (s : State) (k : Nat) (f : Src → Src) : (s.modSrc k f).brd = s.brd := rfl
@[simp] theorem State.modSrc_lnk (s : State) (k : Nat) (f : Src → Src) : (s.modSrc k f).lnk = s.lnk := rfl
@[simp] theorem State.modSrc_fab (s : State) (k : Nat) (f : Src → Src) : (s.modSrc k f).fab = s.fab := rfl
@[simp] theorem State.modSrc_hst (s : State) (k : Nat) (f : Src → Src) : (s.modSrc k f).hst = s.hst := rfl
@[simp] theorem State.modSrc_que (s : State) (k : Nat) (f : Src → Src) : (s.modSrc k f).que = s.que := rfl
@[simp] theorem State.modSrc_itl (s : State) (k : Nat) (f : Src → Src) : (s.modSrc k f).itl = s.itl := rfl
@[simp] theorem State.modSrc_sched (s : State) (k : Nat) (f : Src → Src) : (s.modSrc k f).sched = s.sched := rfl
@[simp] theorem State.modSrc_cad (s : State) (k : Nat) (f : Src → Src) : (s.modSrc k f).cad = s.cad := rfl
@[simp] theorem State.modSrc_pwr (s : State) (k : Nat) (f : Src → Src) : (s.modSrc k f).pwr = s.pwr := rfl
@[simp] theorem State.modSrc_rcv (s : State) (k : Nat) (f : Src → Src) : (s.modSrc k f).rcv = s.rcv := rfl
@[simp] theorem State.modSrc_rot (s : State) (k : Nat) (f : Src → Src) : (s.modSrc k f).rot = s.rot := rfl
@[simp] theorem State.modSrc_cry (s : State) (k : Nat) (f : Src → Src) : (s.modSrc k f).cry = s.cry := rfl
@[simp] theorem State.modSrc_flog (s : State) (k : Nat) (f : Src → Src) : (s.modSrc k f).flog = s.flog := rfl
@[simp] theorem State.modSrc_boot (s : State) (k : Nat) (f : Src → Src) : (s.modSrc k f).boot = s.boot := rfl

/-! ### modGrp -/

@[simp] theorem State.modGrp_pending (s : State) (g : Nat) (f : Grp → Grp) : (s.modGrp g f).pending = s.pending := rfl
@[simp] theorem State.modGrp_out (s : State) (g : Nat) (f : Grp → Grp) : (s.modGrp g f).out = s.out := rfl
@[simp] theorem State.modGrp_mem (s : State) (g : Nat) (f : Grp → Grp) : (s.modGrp g f).mem = s.mem := rfl
@[simp] theorem State.modGrp_fresh (s : State) (g : Nat) (f : Grp → Grp) : (s.modGrp g f).fresh = s.fresh := rfl
@[simp] theorem State.modGrp_lowHeld (s : State) (g : Nat) (f : Grp → Grp) : (s.modGrp g f).lowHeld = s.lowHeld := rfl
@[simp] theorem State.modGrp_highLatch (s : State) (g : Nat) (f : Grp → Grp) : (s.modGrp g f).highLatch = s.highLatch := rfl
@[simp] theorem State.modGrp_tiles (s : State) (g : Nat) (f : Grp → Grp) : (s.modGrp g f).tiles = s.tiles := rfl
@[simp] theorem State.modGrp_cycles (s : State) (g : Nat) (f : Grp → Grp) : (s.modGrp g f).cycles = s.cycles := rfl
@[simp] theorem State.modGrp_mesh (s : State) (g : Nat) (f : Grp → Grp) : (s.modGrp g f).mesh = s.mesh := rfl
@[simp] theorem State.modGrp_lp (s : State) (g : Nat) (f : Grp → Grp) : (s.modGrp g f).lp = s.lp := rfl
@[simp] theorem State.modGrp_xlt (s : State) (g : Nat) (f : Grp → Grp) : (s.modGrp g f).xlt = s.xlt := rfl
@[simp] theorem State.modGrp_brd (s : State) (g : Nat) (f : Grp → Grp) : (s.modGrp g f).brd = s.brd := rfl
@[simp] theorem State.modGrp_lnk (s : State) (g : Nat) (f : Grp → Grp) : (s.modGrp g f).lnk = s.lnk := rfl
@[simp] theorem State.modGrp_fab (s : State) (g : Nat) (f : Grp → Grp) : (s.modGrp g f).fab = s.fab := rfl
@[simp] theorem State.modGrp_hst (s : State) (g : Nat) (f : Grp → Grp) : (s.modGrp g f).hst = s.hst := rfl
@[simp] theorem State.modGrp_que (s : State) (g : Nat) (f : Grp → Grp) : (s.modGrp g f).que = s.que := rfl
@[simp] theorem State.modGrp_itl (s : State) (g : Nat) (f : Grp → Grp) : (s.modGrp g f).itl = s.itl := rfl
@[simp] theorem State.modGrp_sched (s : State) (g : Nat) (f : Grp → Grp) : (s.modGrp g f).sched = s.sched := rfl
@[simp] theorem State.modGrp_cad (s : State) (g : Nat) (f : Grp → Grp) : (s.modGrp g f).cad = s.cad := rfl
@[simp] theorem State.modGrp_pwr (s : State) (g : Nat) (f : Grp → Grp) : (s.modGrp g f).pwr = s.pwr := rfl
@[simp] theorem State.modGrp_rcv (s : State) (g : Nat) (f : Grp → Grp) : (s.modGrp g f).rcv = s.rcv := rfl
@[simp] theorem State.modGrp_rot (s : State) (g : Nat) (f : Grp → Grp) : (s.modGrp g f).rot = s.rot := rfl
@[simp] theorem State.modGrp_cry (s : State) (g : Nat) (f : Grp → Grp) : (s.modGrp g f).cry = s.cry := rfl
@[simp] theorem State.modGrp_flog (s : State) (g : Nat) (f : Grp → Grp) : (s.modGrp g f).flog = s.flog := rfl
@[simp] theorem State.modGrp_boot (s : State) (g : Nat) (f : Grp → Grp) : (s.modGrp g f).boot = s.boot := rfl

/-! ### modVolt -/

@[simp] theorem State.modVolt_pending (s : State) (h : Nat) (f : VoltSt → VoltSt) : (s.modVolt h f).pending = s.pending := rfl
@[simp] theorem State.modVolt_out (s : State) (h : Nat) (f : VoltSt → VoltSt) : (s.modVolt h f).out = s.out := rfl
@[simp] theorem State.modVolt_mem (s : State) (h : Nat) (f : VoltSt → VoltSt) : (s.modVolt h f).mem = s.mem := rfl
@[simp] theorem State.modVolt_fresh (s : State) (h : Nat) (f : VoltSt → VoltSt) : (s.modVolt h f).fresh = s.fresh := rfl
@[simp] theorem State.modVolt_lowHeld (s : State) (h : Nat) (f : VoltSt → VoltSt) : (s.modVolt h f).lowHeld = s.lowHeld := rfl
@[simp] theorem State.modVolt_highLatch (s : State) (h : Nat) (f : VoltSt → VoltSt) : (s.modVolt h f).highLatch = s.highLatch := rfl
@[simp] theorem State.modVolt_tiles (s : State) (h : Nat) (f : VoltSt → VoltSt) : (s.modVolt h f).tiles = s.tiles := rfl
@[simp] theorem State.modVolt_cycles (s : State) (h : Nat) (f : VoltSt → VoltSt) : (s.modVolt h f).cycles = s.cycles := rfl
@[simp] theorem State.modVolt_mesh (s : State) (h : Nat) (f : VoltSt → VoltSt) : (s.modVolt h f).mesh = s.mesh := rfl
@[simp] theorem State.modVolt_lp (s : State) (h : Nat) (f : VoltSt → VoltSt) : (s.modVolt h f).lp = s.lp := rfl
@[simp] theorem State.modVolt_xlt (s : State) (h : Nat) (f : VoltSt → VoltSt) : (s.modVolt h f).xlt = s.xlt := rfl
@[simp] theorem State.modVolt_brd (s : State) (h : Nat) (f : VoltSt → VoltSt) : (s.modVolt h f).brd = s.brd := rfl
@[simp] theorem State.modVolt_lnk (s : State) (h : Nat) (f : VoltSt → VoltSt) : (s.modVolt h f).lnk = s.lnk := rfl
@[simp] theorem State.modVolt_fab (s : State) (h : Nat) (f : VoltSt → VoltSt) : (s.modVolt h f).fab = s.fab := rfl
@[simp] theorem State.modVolt_hst (s : State) (h : Nat) (f : VoltSt → VoltSt) : (s.modVolt h f).hst = s.hst := rfl
@[simp] theorem State.modVolt_que (s : State) (h : Nat) (f : VoltSt → VoltSt) : (s.modVolt h f).que = s.que := rfl
@[simp] theorem State.modVolt_itl (s : State) (h : Nat) (f : VoltSt → VoltSt) : (s.modVolt h f).itl = s.itl := rfl
@[simp] theorem State.modVolt_sched (s : State) (h : Nat) (f : VoltSt → VoltSt) : (s.modVolt h f).sched = s.sched := rfl
@[simp] theorem State.modVolt_cad (s : State) (h : Nat) (f : VoltSt → VoltSt) : (s.modVolt h f).cad = s.cad := rfl
@[simp] theorem State.modVolt_rcv (s : State) (h : Nat) (f : VoltSt → VoltSt) : (s.modVolt h f).rcv = s.rcv := rfl
@[simp] theorem State.modVolt_rot (s : State) (h : Nat) (f : VoltSt → VoltSt) : (s.modVolt h f).rot = s.rot := rfl
@[simp] theorem State.modVolt_cry (s : State) (h : Nat) (f : VoltSt → VoltSt) : (s.modVolt h f).cry = s.cry := rfl
@[simp] theorem State.modVolt_evt (s : State) (h : Nat) (f : VoltSt → VoltSt) : (s.modVolt h f).evt = s.evt := rfl
@[simp] theorem State.modVolt_flog (s : State) (h : Nat) (f : VoltSt → VoltSt) : (s.modVolt h f).flog = s.flog := rfl
@[simp] theorem State.modVolt_boot (s : State) (h : Nat) (f : VoltSt → VoltSt) : (s.modVolt h f).boot = s.boot := rfl

/-! ### modSector -/

@[simp] theorem State.modSector_pending (s : State) (k : Nat) (f : Sector → Sector) : (s.modSector k f).pending = s.pending := rfl
@[simp] theorem State.modSector_out (s : State) (k : Nat) (f : Sector → Sector) : (s.modSector k f).out = s.out := rfl
@[simp] theorem State.modSector_mem (s : State) (k : Nat) (f : Sector → Sector) : (s.modSector k f).mem = s.mem := rfl
@[simp] theorem State.modSector_fresh (s : State) (k : Nat) (f : Sector → Sector) : (s.modSector k f).fresh = s.fresh := rfl
@[simp] theorem State.modSector_lowHeld (s : State) (k : Nat) (f : Sector → Sector) : (s.modSector k f).lowHeld = s.lowHeld := rfl
@[simp] theorem State.modSector_highLatch (s : State) (k : Nat) (f : Sector → Sector) : (s.modSector k f).highLatch = s.highLatch := rfl
@[simp] theorem State.modSector_tiles (s : State) (k : Nat) (f : Sector → Sector) : (s.modSector k f).tiles = s.tiles := rfl
@[simp] theorem State.modSector_cycles (s : State) (k : Nat) (f : Sector → Sector) : (s.modSector k f).cycles = s.cycles := rfl
@[simp] theorem State.modSector_mesh (s : State) (k : Nat) (f : Sector → Sector) : (s.modSector k f).mesh = s.mesh := rfl
@[simp] theorem State.modSector_lp (s : State) (k : Nat) (f : Sector → Sector) : (s.modSector k f).lp = s.lp := rfl
@[simp] theorem State.modSector_xlt (s : State) (k : Nat) (f : Sector → Sector) : (s.modSector k f).xlt = s.xlt := rfl
@[simp] theorem State.modSector_brd (s : State) (k : Nat) (f : Sector → Sector) : (s.modSector k f).brd = s.brd := rfl
@[simp] theorem State.modSector_lnk (s : State) (k : Nat) (f : Sector → Sector) : (s.modSector k f).lnk = s.lnk := rfl
@[simp] theorem State.modSector_fab (s : State) (k : Nat) (f : Sector → Sector) : (s.modSector k f).fab = s.fab := rfl
@[simp] theorem State.modSector_hst (s : State) (k : Nat) (f : Sector → Sector) : (s.modSector k f).hst = s.hst := rfl
@[simp] theorem State.modSector_que (s : State) (k : Nat) (f : Sector → Sector) : (s.modSector k f).que = s.que := rfl
@[simp] theorem State.modSector_itl (s : State) (k : Nat) (f : Sector → Sector) : (s.modSector k f).itl = s.itl := rfl
@[simp] theorem State.modSector_sched (s : State) (k : Nat) (f : Sector → Sector) : (s.modSector k f).sched = s.sched := rfl
@[simp] theorem State.modSector_cad (s : State) (k : Nat) (f : Sector → Sector) : (s.modSector k f).cad = s.cad := rfl
@[simp] theorem State.modSector_pwr (s : State) (k : Nat) (f : Sector → Sector) : (s.modSector k f).pwr = s.pwr := rfl
@[simp] theorem State.modSector_rcv (s : State) (k : Nat) (f : Sector → Sector) : (s.modSector k f).rcv = s.rcv := rfl
@[simp] theorem State.modSector_rot (s : State) (k : Nat) (f : Sector → Sector) : (s.modSector k f).rot = s.rot := rfl
@[simp] theorem State.modSector_cry (s : State) (k : Nat) (f : Sector → Sector) : (s.modSector k f).cry = s.cry := rfl
@[simp] theorem State.modSector_evt (s : State) (k : Nat) (f : Sector → Sector) : (s.modSector k f).evt = s.evt := rfl
@[simp] theorem State.modSector_boot (s : State) (k : Nat) (f : Sector → Sector) : (s.modSector k f).boot = s.boot := rfl

/-! ### modRegion -/

@[simp] theorem State.modRegion_pending (s : State) (k : Nat) (f : Region → Region) : (s.modRegion k f).pending = s.pending := rfl
@[simp] theorem State.modRegion_out (s : State) (k : Nat) (f : Region → Region) : (s.modRegion k f).out = s.out := rfl
@[simp] theorem State.modRegion_mem (s : State) (k : Nat) (f : Region → Region) : (s.modRegion k f).mem = s.mem := rfl
@[simp] theorem State.modRegion_fresh (s : State) (k : Nat) (f : Region → Region) : (s.modRegion k f).fresh = s.fresh := rfl
@[simp] theorem State.modRegion_lowHeld (s : State) (k : Nat) (f : Region → Region) : (s.modRegion k f).lowHeld = s.lowHeld := rfl
@[simp] theorem State.modRegion_highLatch (s : State) (k : Nat) (f : Region → Region) : (s.modRegion k f).highLatch = s.highLatch := rfl
@[simp] theorem State.modRegion_tiles (s : State) (k : Nat) (f : Region → Region) : (s.modRegion k f).tiles = s.tiles := rfl
@[simp] theorem State.modRegion_cycles (s : State) (k : Nat) (f : Region → Region) : (s.modRegion k f).cycles = s.cycles := rfl
@[simp] theorem State.modRegion_mesh (s : State) (k : Nat) (f : Region → Region) : (s.modRegion k f).mesh = s.mesh := rfl
@[simp] theorem State.modRegion_lp (s : State) (k : Nat) (f : Region → Region) : (s.modRegion k f).lp = s.lp := rfl
@[simp] theorem State.modRegion_xlt (s : State) (k : Nat) (f : Region → Region) : (s.modRegion k f).xlt = s.xlt := rfl
@[simp] theorem State.modRegion_brd (s : State) (k : Nat) (f : Region → Region) : (s.modRegion k f).brd = s.brd := rfl
@[simp] theorem State.modRegion_lnk (s : State) (k : Nat) (f : Region → Region) : (s.modRegion k f).lnk = s.lnk := rfl
@[simp] theorem State.modRegion_fab (s : State) (k : Nat) (f : Region → Region) : (s.modRegion k f).fab = s.fab := rfl
@[simp] theorem State.modRegion_hst (s : State) (k : Nat) (f : Region → Region) : (s.modRegion k f).hst = s.hst := rfl
@[simp] theorem State.modRegion_que (s : State) (k : Nat) (f : Region → Region) : (s.modRegion k f).que = s.que := rfl
@[simp] theorem State.modRegion_itl (s : State) (k : Nat) (f : Region → Region) : (s.modRegion k f).itl = s.itl := rfl
@[simp] theorem State.modRegion_sched (s : State) (k : Nat) (f : Region → Region) : (s.modRegion k f).sched = s.sched := rfl
@[simp] theorem State.modRegion_cad (s : State) (k : Nat) (f : Region → Region) : (s.modRegion k f).cad = s.cad := rfl
@[simp] theorem State.modRegion_pwr (s : State) (k : Nat) (f : Region → Region) : (s.modRegion k f).pwr = s.pwr := rfl
@[simp] theorem State.modRegion_rcv (s : State) (k : Nat) (f : Region → Region) : (s.modRegion k f).rcv = s.rcv := rfl
@[simp] theorem State.modRegion_rot (s : State) (k : Nat) (f : Region → Region) : (s.modRegion k f).rot = s.rot := rfl
@[simp] theorem State.modRegion_evt (s : State) (k : Nat) (f : Region → Region) : (s.modRegion k f).evt = s.evt := rfl
@[simp] theorem State.modRegion_flog (s : State) (k : Nat) (f : Region → Region) : (s.modRegion k f).flog = s.flog := rfl
@[simp] theorem State.modRegion_boot (s : State) (k : Nat) (f : Region → Region) : (s.modRegion k f).boot = s.boot := rfl

/-! ### Entries after an update -/

@[simp] theorem State.tile_modTile (s : State) (t : Nat) (f : Tile → Tile) (j : Nat) :
    (s.modTile t f).tile j = if j = t then f (s.tile t) else s.tile j := Tab.get_insert _ _ _ _ _
@[simp] theorem State.port_modPort (s : State) (p : Nat) (f : LinkPort → LinkPort) (j : Nat) :
    (s.modPort p f).port j = if j = p then f (s.port p) else s.port j := Tab.get_insert _ _ _ _ _
@[simp] theorem State.pair_modPair (s : State) (p : Nat) (f : Pair → Pair) (j : Nat) :
    (s.modPair p f).pair j = if j = p then f (s.pair p) else s.pair j := Tab.get_insert _ _ _ _ _
@[simp] theorem State.hport_modHPort (s : State) (h : Nat) (f : HPort → HPort) (j : Nat) :
    (s.modHPort h f).hport j = if j = h then f (s.hport h) else s.hport j := Tab.get_insert _ _ _ _ _
@[simp] theorem State.fence_modFence (s : State) (k : Nat) (f : FenceSt → FenceSt) (j : Nat) :
    (s.modFence k f).fence j = if j = k then f (s.fence k) else s.fence j := Tab.get_insert _ _ _ _ _
@[simp] theorem State.moveH_modMove (s : State) (h : Nat) (f : Move → Move) (j : Nat) :
    (s.modMove h f).moveH j = if j = h then f (s.moveH h) else s.moveH j := Tab.get_insert _ _ _ _ _
@[simp] theorem State.meter_modMeter (s : State) (k : Nat) (f : Meter → Meter) (j : Nat) :
    (s.modMeter k f).meter j = if j = k then f (s.meter k) else s.meter j := Tab.get_insert _ _ _ _ _
@[simp] theorem State.resRo_modRes (s : State) (r : Nat) (f : ResRo → ResRo) (j : Nat) :
    (s.modRes r f).resRo j = if j = r then f (s.resRo r) else s.resRo j := Tab.get_insert _ _ _ _ _
@[simp] theorem State.fqRo_modFq (s : State) (k : Nat) (f : FqRo → FqRo) (j : Nat) :
    (s.modFq k f).fqRo j = if j = k then f (s.fqRo k) else s.fqRo j := Tab.get_insert _ _ _ _ _
@[simp] theorem State.qRo_modQ (s : State) (e : Nat) (f : QRo → QRo) (j : Nat) :
    (s.modQ e f).qRo j = if j = e then f (s.qRo e) else s.qRo j := Tab.get_insert _ _ _ _ _
@[simp] theorem State.collRun_modColl (s : State) (c : Nat) (f : CollRun → CollRun) (j : Nat) :
    (s.modColl c f).collRun j = if j = c then f (s.collRun c) else s.collRun j := Tab.get_insert _ _ _ _ _
@[simp] theorem State.kid_modKid (s : State) (k : Nat) (f : Kid → Kid) (j : Nat) :
    (s.modKid k f).kid j = if j = k then f (s.kid k) else s.kid j := Tab.get_insert _ _ _ _ _
@[simp] theorem State.src_modSrc (s : State) (k : Nat) (f : Src → Src) (j : Nat) :
    (s.modSrc k f).src j = if j = k then f (s.src k) else s.src j := Tab.get_insert _ _ _ _ _
@[simp] theorem State.grp_modGrp (s : State) (g : Nat) (f : Grp → Grp) (j : Nat) :
    (s.modGrp g f).grp j = if j = g then f (s.grp g) else s.grp j := Tab.get_insert _ _ _ _ _
@[simp] theorem State.volt_modVolt (s : State) (h : Nat) (f : VoltSt → VoltSt) (j : Nat) :
    (s.modVolt h f).volt j = if j = h then f (s.volt h) else s.volt j := Tab.get_insert _ _ _ _ _
@[simp] theorem State.sector_modSector (s : State) (k : Nat) (f : Sector → Sector) (j : Nat) :
    (s.modSector k f).sector j = if j = k then f (s.sector k) else s.sector j := Tab.get_insert _ _ _ _ _
@[simp] theorem State.region_modRegion (s : State) (k : Nat) (f : Region → Region) (j : Nat) :
    (s.modRegion k f).region j = if j = k then f (s.region k) else s.region j := Tab.get_insert _ _ _ _ _
@[simp] theorem Tile.bank_modBank (x : Tile) (b : Nat) (f : Bank → Bank) (j : Nat) :
    (x.modBank b f).bank j = if j = b then f (x.bank b) else x.bank j := Tab.get_insert _ _ _ _ _
@[simp] theorem Tile.chan_modChan (x : Tile) (c : Nat) (f : Chan → Chan) (j : Nat) :
    (x.modChan c f).chan j = if j = c then f (x.chan c) else x.chan j := Tab.get_insert _ _ _ _ _
@[simp] theorem Tile.chan_modBank (x : Tile) (b : Nat) (f : Bank → Bank) (j : Nat) : (x.modBank b f).chan j = x.chan j := rfl
@[simp] theorem Tile.bank_modChan (x : Tile) (c : Nat) (f : Chan → Chan) (j : Nat) : (x.modChan c f).bank j = x.bank j := rfl
@[simp] theorem State.tile_modBank (s : State) (t b : Nat) (f : Bank → Bank) (j : Nat) :
    (s.modBank t b f).tile j = if j = t then (s.tile t).modBank b f else s.tile j := State.tile_modTile s t _ j
@[simp] theorem State.tile_modChan (s : State) (t c : Nat) (f : Chan → Chan) (j : Nat) :
    (s.modChan t c f).tile j = if j = t then (s.tile t).modChan c f else s.tile j := State.tile_modTile s t _ j
@[simp] theorem State.tile_modSrm (s : State) (t : Nat) (f : Srm → Srm) (j : Nat) :
    (s.modSrm t f).tile j = if j = t then { s.tile t with srm := f (s.tile t).srm } else s.tile j := State.tile_modTile s t _ j
/-- Bank (i, j) after a change of bank (t, b). -/
theorem State.bank_modBank (s : State) (t b : Nat) (f : Bank → Bank) (i j : Nat) :
    (s.modBank t b f).bank i j = if i = t ∧ j = b then f (s.bank t b) else s.bank i j := by
  unfold State.bank
  rw [State.tile_modBank]
  by_cases hi : i = t
  · subst hi
    by_cases hj : j = b <;> simp [hj]
  · simp [hi]
/-- Channel (i, j) after a change of channel (t, c). -/
theorem State.chan_modChan (s : State) (t c : Nat) (f : Chan → Chan) (i j : Nat) :
    (s.modChan t c f).chan i j = if i = t ∧ j = c then f (s.chan t c) else s.chan i j := by
  unfold State.chan
  rw [State.tile_modChan]
  by_cases hi : i = t
  · subst hi
    by_cases hj : j = c <;> simp [hj]
  · simp [hi]
theorem State.func_modFunc_same (s : State) (h i : Nat) (f : Func → Func) : (s.modFunc h i f).func h i = f (s.func h i) :=
  Tab.get_insert_same _ _ _ _
theorem State.lease_modLease_same (s : State) (c : Cid) (f : Lease → Lease) : (s.modLease c f).lease c = f (s.lease c) :=
  Tab.get_insert_same _ _ _ _

/-- A change made only where a condition holds. -/
@[simp] theorem State.when_true (s : State) (f : State → State) : s.when true f = f s := rfl
@[simp] theorem State.when_false (s : State) (f : State → State) : s.when false f = s := rfl
@[simp] theorem State.each_nil {α : Type} (s : State) (f : State → α → State) : s.each [] f = s := rfl
@[simp] theorem State.each_cons {α : Type} (s : State) (x : α) (l : List α) (f : State → α → State) :
    s.each (x :: l) f = (f s x).each l f := rfl

end Sys2Proof.Machine
end

