-- ==== Sys2Proof/Laws/Within.lean ====
section
/-! SUPPORT. What an operation may touch. `Within M s t`: state `t` differs from `s` in the blocks of `M` only, and its
memory is in the canonical form where that of `s` is. Every operation of the machine has one lemma that says what it
stays within; the lemmas of a whole command chain them. -/

namespace Sys2Proof.Machine

/-- `t` differs from `s` in blocks of `M` only, and its memory is canonical where that of `s` is. -/
structure Within (M : List Block) (s t : State) : Prop where
  blocks : ∀ b : Block, M.contains b = false → b.same s t
  canonical : Memory.wf s.mem = true → Memory.wf t.mem = true

/-- Every block of `L` is one of `M`. -/
def Block.sub (L M : List Block) : Bool := L.all M.contains

theorem Block.sub_trans {K L M : List Block} (h : Block.sub K L = true) (k : Block.sub L M = true) : Block.sub K M = true := by
  simp only [Block.sub, List.all_eq_true, List.contains_iff_mem] at *
  exact fun b hb => k b (h b hb)

theorem Within.refl (M : List Block) (s : State) : Within M s s := ⟨fun b _ => by cases b <;> rfl, id⟩

theorem Within.trans {M : List Block} {s t u : State} (h : Within M s t) (k : Within M t u) : Within M s u := by
  refine ⟨fun b hb => ?_, fun hm => k.canonical (h.canonical hm)⟩
  have h1 := h.blocks b hb
  have h2 := k.blocks b hb
  cases b <;> exact Eq.trans h2 h1

/-- What stays within few blocks stays within more. -/
theorem Within.mono {L M : List Block} {s t : State} (h : Within L s t) (hM : Block.sub L M = true) : Within M s t := by
  refine ⟨fun b hb => h.blocks b ?_, h.canonical⟩
  by_contra hc
  have hc : L.contains b = true := by simpa using hc
  have := List.all_eq_true.mp hM b (by simpa using hc)
  rw [hb] at this
  cases this

/-- An operation after others. -/
theorem Within.step {L M : List Block} {s t u : State} (h : Within M s t) (hM : Block.sub L M = true) (k : Within L t u) :
    Within M s u := h.trans (k.mono hM)

theorem Within.step' {L M : List Block} {s t u : State} (k : Within L t u) (h : Within M s t) (hM : Block.sub L M = true) :
    Within M s u := h.step hM k

/-- A block outside `M` is unchanged: the fields, one by one. -/
theorem Within.pending_eq {M : List Block} {s t : State} (h : Within M s t) (hM : M.contains .pending = false) : t.pending = s.pending := h.blocks .pending hM
theorem Within.out_eq {M : List Block} {s t : State} (h : Within M s t) (hM : M.contains .out = false) : t.out = s.out := h.blocks .out hM
theorem Within.mem_eq {M : List Block} {s t : State} (h : Within M s t) (hM : M.contains .mem = false) : t.mem = s.mem := h.blocks .mem hM
theorem Within.fresh_eq {M : List Block} {s t : State} (h : Within M s t) (hM : M.contains .fresh = false) : t.fresh = s.fresh := h.blocks .fresh hM
theorem Within.lowHeld_eq {M : List Block} {s t : State} (h : Within M s t) (hM : M.contains .lowHeld = false) : t.lowHeld = s.lowHeld := h.blocks .lowHeld hM
theorem Within.highLatch_eq {M : List Block} {s t : State} (h : Within M s t) (hM : M.contains .highLatch = false) : t.highLatch = s.highLatch := h.blocks .highLatch hM
theorem Within.tiles_eq {M : List Block} {s t : State} (h : Within M s t) (hM : M.contains .tiles = false) : t.tiles = s.tiles := h.blocks .tiles hM
theorem Within.cycles_eq {M : List Block} {s t : State} (h : Within M s t) (hM : M.contains .cycles = false) : t.cycles = s.cycles := h.blocks .cycles hM
theorem Within.mesh_eq {M : List Block} {s t : State} (h : Within M s t) (hM : M.contains .mesh = false) : t.mesh = s.mesh := h.blocks .mesh hM
theorem Within.lp_eq {M : List Block} {s t : State} (h : Within M s t) (hM : M.contains .lp = false) : t.lp = s.lp := h.blocks .lp hM
theorem Within.xlt_eq {M : List Block} {s t : State} (h : Within M s t) (hM : M.contains .xlt = false) : t.xlt = s.xlt := h.blocks .xlt hM
theorem Within.brd_eq {M : List Block} {s t : State} (h : Within M s t) (hM : M.contains .brd = false) : t.brd = s.brd := h.blocks .brd hM
theorem Within.lnk_eq {M : List Block} {s t : State} (h : Within M s t) (hM : M.contains .lnk = false) : t.lnk = s.lnk := h.blocks .lnk hM
theorem Within.fab_eq {M : List Block} {s t : State} (h : Within M s t) (hM : M.contains .fab = false) : t.fab = s.fab := h.blocks .fab hM
theorem Within.hst_eq {M : List Block} {s t : State} (h : Within M s t) (hM : M.contains .hst = false) : t.hst = s.hst := h.blocks .hst hM
theorem Within.que_eq {M : List Block} {s t : State} (h : Within M s t) (hM : M.contains .que = false) : t.que = s.que := h.blocks .que hM
theorem Within.itl_eq {M : List Block} {s t : State} (h : Within M s t) (hM : M.contains .itl = false) : t.itl = s.itl := h.blocks .itl hM
theorem Within.sched_eq {M : List Block} {s t : State} (h : Within M s t) (hM : M.contains .sched = false) : t.sched = s.sched := h.blocks .sched hM
theorem Within.cad_eq {M : List Block} {s t : State} (h : Within M s t) (hM : M.contains .cad = false) : t.cad = s.cad := h.blocks .cad hM
theorem Within.pwr_eq {M : List Block} {s t : State} (h : Within M s t) (hM : M.contains .pwr = false) : t.pwr = s.pwr := h.blocks .pwr hM
theorem Within.rcv_eq {M : List Block} {s t : State} (h : Within M s t) (hM : M.contains .rcv = false) : t.rcv = s.rcv := h.blocks .rcv hM
theorem Within.rot_eq {M : List Block} {s t : State} (h : Within M s t) (hM : M.contains .rot = false) : t.rot = s.rot := h.blocks .rot hM
theorem Within.cry_eq {M : List Block} {s t : State} (h : Within M s t) (hM : M.contains .cry = false) : t.cry = s.cry := h.blocks .cry hM
theorem Within.evt_eq {M : List Block} {s t : State} (h : Within M s t) (hM : M.contains .evt = false) : t.evt = s.evt := h.blocks .evt hM
theorem Within.flog_eq {M : List Block} {s t : State} (h : Within M s t) (hM : M.contains .flog = false) : t.flog = s.flog := h.blocks .flog hM
theorem Within.boot_eq {M : List Block} {s t : State} (h : Within M s t) (hM : M.contains .boot = false) : t.boot = s.boot := h.blocks .boot hM

/-! ### The places of State -/

theorem State.emit_within (s : State) (m : Msg) : Within [.out] s (s.emit m) :=
  ⟨fun b hb => by cases b <;> first | rfl | (simp at hb), id⟩
theorem State.modTile_within (s : State) (t : Nat) (f : Tile → Tile) : Within [.tiles] s (s.modTile t f) :=
  ⟨fun b hb => by cases b <;> first | rfl | (simp at hb), id⟩
theorem State.modPort_within (s : State) (p : Nat) (f : LinkPort → LinkPort) : Within [.lnk] s (s.modPort p f) :=
  ⟨fun b hb => by cases b <;> first | rfl | (simp at hb), id⟩
theorem State.modPair_within (s : State) (p : Nat) (f : Pair → Pair) : Within [.lp] s (s.modPair p f) :=
  ⟨fun b hb => by cases b <;> first | rfl | (simp at hb), id⟩
theorem State.modLp_within (s : State) (f : Mem → Mem) : Within [.lp] s (s.modLp f) :=
  ⟨fun b hb => by cases b <;> first | rfl | (simp at hb), id⟩
theorem State.modXlt_within (s : State) (f : Xlt → Xlt) : Within [.xlt] s (s.modXlt f) :=
  ⟨fun b hb => by cases b <;> first | rfl | (simp at hb), id⟩
theorem State.modBrd_within (s : State) (f : Brd → Brd) : Within [.brd] s (s.modBrd f) :=
  ⟨fun b hb => by cases b <;> first | rfl | (simp at hb), id⟩
theorem State.modFab_within (s : State) (f : Fab → Fab) : Within [.fab] s (s.modFab f) :=
  ⟨fun b hb => by cases b <;> first | rfl | (simp at hb), id⟩
theorem State.modHst_within (s : State) (f : Hst → Hst) : Within [.hst] s (s.modHst f) :=
  ⟨fun b hb => by cases b <;> first | rfl | (simp at hb), id⟩
theorem State.modQue_within (s : State) (f : Que → Que) : Within [.que] s (s.modQue f) :=
  ⟨fun b hb => by cases b <;> first | rfl | (simp at hb), id⟩
theorem State.modItl_within (s : State) (f : Itl → Itl) : Within [.itl] s (s.modItl f) :=
  ⟨fun b hb => by cases b <;> first | rfl | (simp at hb), id⟩
theorem State.modSched_within (s : State) (f : Sched → Sched) : Within [.sched] s (s.modSched f) :=
  ⟨fun b hb => by cases b <;> first | rfl | (simp at hb), id⟩
theorem State.modCad_within (s : State) (f : Cad → Cad) : Within [.cad] s (s.modCad f) :=
  ⟨fun b hb => by cases b <;> first | rfl | (simp at hb), id⟩
theorem State.modPwr_within (s : State) (f : Pwr → Pwr) : Within [.pwr] s (s.modPwr f) :=
  ⟨fun b hb => by cases b <;> first | rfl | (simp at hb), id⟩
theorem State.modRcv_within (s : State) (f : Rec → Rec) : Within [.rcv] s (s.modRcv f) :=
  ⟨fun b hb => by cases b <;> first | rfl | (simp at hb), id⟩
theorem State.modRot_within (s : State) (f : Rot → Rot) : Within [.rot] s (s.modRot f) :=
  ⟨fun b hb => by cases b <;> first | rfl | (simp at hb), id⟩
theorem State.modCry_within (s : State) (f : Cry → Cry) : Within [.cry] s (s.modCry f) :=
  ⟨fun b hb => by cases b <;> first | rfl | (simp at hb), id⟩
theorem State.modEvt_within (s : State) (f : Evt → Evt) : Within [.evt] s (s.modEvt f) :=
  ⟨fun b hb => by cases b <;> first | rfl | (simp at hb), id⟩
theorem State.modFlog_within (s : State) (f : Flog → Flog) : Within [.flog] s (s.modFlog f) :=
  ⟨fun b hb => by cases b <;> first | rfl | (simp at hb), id⟩
theorem State.modBoot_within (s : State) (f : Boot → Boot) : Within [.boot] s (s.modBoot f) :=
  ⟨fun b hb => by cases b <;> first | rfl | (simp at hb), id⟩
theorem State.modMesh_within (s : State) (f : Mesh → Mesh) : Within [.mesh] s (s.modMesh f) :=
  ⟨fun b hb => by cases b <;> first | rfl | (simp at hb), id⟩
theorem State.store_within (s : State) (a : Nat) (b : Bytes) : Within [.mem] s (s.store a b) :=
  ⟨fun b hb => by cases b <;> first | rfl | (simp at hb), Memory.writes_wf b _ a⟩
theorem State.clearMem_within (s : State) (a n : Nat) : Within [.mem] s (s.clearMem a n) :=
  ⟨fun b hb => by cases b <;> first | rfl | (simp at hb), Memory.clear_wf _ a n⟩
theorem State.copyMem_within (s : State) (a b n : Nat) : Within [.mem] s (s.copyMem a b n) :=
  ⟨fun b hb => by cases b <;> first | rfl | (simp at hb), Memory.copy_wf _ a b n⟩
theorem State.freeWord_within (s : State) : Within [.fresh] s s.freeWord.2 :=
  ⟨fun b hb => by cases b <;> first | rfl | (simp at hb), id⟩

theorem State.tiles_set_within (s : State) (x : Tab Tile) : Within [.tiles] s { s with tiles := x } :=
  ⟨fun b hb => by cases b <;> first | rfl | (simp at hb), id⟩
theorem State.cycles_set_within (s : State) (x : Tab (BitVec 48)) : Within [.cycles] s { s with cycles := x } :=
  ⟨fun b hb => by cases b <;> first | rfl | (simp at hb), id⟩
theorem State.lowHeld_set_within (s : State) (x : Tab Word) : Within [.lowHeld] s { s with lowHeld := x } :=
  ⟨fun b hb => by cases b <;> first | rfl | (simp at hb), id⟩
theorem State.highLatch_set_within (s : State) (x : Tab Word) : Within [.highLatch] s { s with highLatch := x } :=
  ⟨fun b hb => by cases b <;> first | rfl | (simp at hb), id⟩
theorem State.fresh_set_within (s : State) (x : Nat) : Within [.fresh] s { s with fresh := x } :=
  ⟨fun b hb => by cases b <;> first | rfl | (simp at hb), id⟩
theorem State.lnk_set_within (s : State) (x : Tab LinkPort) : Within [.lnk] s { s with lnk := x } :=
  ⟨fun b hb => by cases b <;> first | rfl | (simp at hb), id⟩

/-- A change made for each element stays within what each one stays within. -/
theorem State.each_within {M : List Block} {s0 s : State} {α : Type} (l : List α) (f : State → α → State) (h : Within M s0 s)
    (hf : ∀ s x, Within M s0 s → Within M s0 (f s x)) : Within M s0 (s.each l f) := by
  unfold State.each
  induction l generalizing s with
  | nil => exact h
  | cons x l ih => exact ih (hf s x h)

theorem State.when_within {M : List Block} {s0 s : State} (c : Bool) (f : State → State) (h : Within M s0 s)
    (hf : ∀ s, Within M s0 s → Within M s0 (f s)) : Within M s0 (s.when c f) := by
  unfold State.when
  split
  · exact hf s h
  · exact h

/-- A fold whose accumulator carries the state beside other data. -/
theorem Within.foldl_snd {M : List Block} {s0 : State} {α β : Type} {l : List α} {f : β × State → α → β × State} {p : β × State}
    (h : Within M s0 p.2) (hf : ∀ p x, Within M s0 p.2 → Within M s0 (f p x).2) : Within M s0 (l.foldl f p).2 := by
  induction l generalizing p with
  | nil => exact h
  | cons x l ih => exact ih (hf p x h)

theorem Within.ite {M : List Block} {s0 a b : State} {c : Prop} [Decidable c] (h : c → Within M s0 a)
    (k : ¬c → Within M s0 b) : Within M s0 (if c then a else b) := by
  split
  · exact h ‹_›
  · exact k ‹_›

theorem Within.ite_snd {α : Type} {M : List Block} {s0 : State} {a b : α × State} {c : Prop} [Decidable c]
    (h : c → Within M s0 a.2) (k : ¬c → Within M s0 b.2) : Within M s0 (if c then a else b).2 := by
  split
  · exact h ‹_›
  · exact k ‹_›

/-- A record update of the fields of `M`. -/
theorem Within.update {L M : List Block} {s0 s t : State} (h : Within M s0 s) (hM : Block.sub L M = true)
    (hs : ∀ b : Block, L.contains b = false → b.same s t) (hm : t.mem = s.mem) : Within M s0 t :=
  h.step hM ⟨hs, fun w => by rw [hm]; exact w⟩

/-! ### Answers that hold a state -/

/-- Every state that an outcome goes on with is within `M`. -/
structure OutIn (M : List Block) (s0 : State) (o : Out) : Prop where
  within : ∀ t, o = .next t → Within M s0 t

/-- What an option holds satisfies `P`. -/
structure Holds {α : Type} (P : α → Prop) (o : Option α) : Prop where
  get' : ∀ x, o = some x → P x

theorem OutIn.step {L M : List Block} {s t : State} {o : Out} (h : Within M s t) (hM : Block.sub L M = true) (k : OutIn L t o) :
    OutIn M s o := ⟨fun u e => h.step hM (k.within u e)⟩
theorem OutIn.step' {L M : List Block} {s t : State} {o : Out} (k : OutIn L t o) (h : Within M s t)
    (hM : Block.sub L M = true) : OutIn M s o := OutIn.step h hM k
theorem OutIn.next {M : List Block} {s0 t : State} (h : Within M s0 t) : OutIn M s0 (.next t) :=
  ⟨fun u e => by cases e; exact h⟩
theorem Holds.none {α : Type} {P : α → Prop} : Holds P none := ⟨fun _ e => by cases e⟩
theorem Holds.some {α : Type} {P : α → Prop} {x : α} (h : P x) : Holds P (some x) := ⟨fun y e => by cases e; exact h⟩
theorem Holds.get {α : Type} {P : α → Prop} {o : Option α} {x : α} (h : Holds P o) (e : o = Option.some x) : P x :=
  h.get' x e
theorem Holds.step' {L M : List Block} {s t : State} {o : Option State} (k : Holds (Within L t) o) (h : Within M s t)
    (hM : Block.sub L M = true) : Holds (Within M s) o := ⟨fun x e => h.step hM (k.get' x e)⟩
theorem Holds.step2' {L M : List Block} {s t : State} {α : Type} {o : Option (α × State)}
    (k : Holds (fun x => Within L t x.2) o) (h : Within M s t) (hM : Block.sub L M = true) :
    Holds (fun x => Within M s x.2) o := ⟨fun x e => h.step hM (k.get' x e)⟩
theorem Holds.map {α β : Type} {P : β → Prop} {o : Option α} {f : α → β} (h : ∀ x, P (f x)) : Holds P (o.map f) :=
  ⟨fun y e => by cases o with
    | none => cases e
    | some x => cases e; exact h x⟩
theorem Holds.map_state {M : List Block} {s0 : State} {o : Option State} {f : State → State}
    (k : Holds (Within M s0) o) (h : ∀ x, Within M s0 x → Within M s0 (f x)) : Holds (Within M s0) (o.map f) :=
  ⟨fun y e => by cases o with
    | none => cases e
    | some x => cases e; exact h x (k.get rfl)⟩
theorem Holds.map2_state {L M : List Block} {s0 : State} {α β : Type} {o : Option (α × State)} {f : α × State → β × State}
    (k : Holds (fun x => Within L s0 x.2) o) (hM : Block.sub L M = true)
    (h : ∀ x, Within M s0 x.2 → Within M s0 (f x).2) : Holds (fun x => Within M s0 x.2) (o.map f) :=
  ⟨fun y e => by cases o with
    | none => cases e
    | some x => cases e; exact h x ((k.get rfl).mono hM)⟩
theorem Holds.get2 {L : List Block} {t : State} {α : Type} {o : Option (α × State)} {x : α × State}
    (h : Holds (fun x => Within L t x.2) o) (e : o = Option.some x) : Within L t x.2 := h.get e
theorem Holds.get4 {L : List Block} {t : State} {α β γ : Type} {o : Option (α × β × γ × State)} {x : α × β × γ × State}
    (h : Holds (fun x => Within L t x.2.2.2) o) (e : o = Option.some x) : Within L t x.2.2.2 := h.get e
theorem Holds.bind {α β : Type} {P : β → Prop} {o : Option α} {f : α → Option β} (h : ∀ x, Holds P (f x)) :
    Holds P (o.bind f) := by
  cases o with
  | none => exact Holds.none
  | some x => exact h x
theorem Within.getD {M : List Block} {s0 t : State} {o : Option State} (k : Holds (Within M s0) o) (h : Within M s0 t) :
    Within M s0 (o.getD t) := by
  cases o with
  | none => exact h
  | some x => exact k.get rfl
theorem Within.of_snd {M : List Block} {s0 t : State} {α : Type} {p : α × State} {a : α} (h : Within M s0 p.2)
    (e : p = (a, t)) : Within M s0 t := by subst e; exact h
theorem Within.of_snd2 {M : List Block} {s0 t : State} {α β : Type} {p : α × β × State} {a : α} {b : β}
    (h : Within M s0 p.2.2) (e : p = (a, b, t)) : Within M s0 t := by subst e; exact h
theorem Within.of_mid {M : List Block} {s0 t : State} {α β : Type} {p : α × State × β} {a : α} {b : β}
    (h : Within M s0 p.2.1) (e : p = (a, t, b)) : Within M s0 t := by subst e; exact h
theorem Within.of_mid2 {M : List Block} {s0 t : State} {α β γ : Type} {p : α × β × State × γ} {a : α} {b : β} {c : γ}
    (h : Within M s0 p.2.2.1) (e : p = (a, b, t, c)) : Within M s0 t := by subst e; exact h

end Sys2Proof.Machine
end

