-- ==== Sys2Proof/Laws/WithinOps.lean ====
section
/-! SUPPORT. What the operations may touch: the shared operations: reports, guarantees, lines, queues, contexts, commits and the recovery ladder. Each lemma
names the blocks an operation stays within, and says that it keeps the memory canonical. -/

set_option linter.unusedTactic false
set_option linter.unreachableTactic false
set_option linter.unusedVariables false

namespace Sys2Proof.Machine

/-! ### Ops -/

theorem State.modBank_within (s : State) (a2) (a3) (a4) :
    Within [.tiles] s (State.modBank s a2 a3 a4) := by
  unfold State.modBank
  repeat' first
    | with_reducible assumption
    | with_reducible exact Within.refl _ _
    | decide
    | with_reducible apply Within.step' (State.modTile_within _ _ _)
    | with_reducible intro _
    | split
    | dsimp only

theorem State.modChan_within (s : State) (a2) (a3) (a4) :
    Within [.tiles] s (State.modChan s a2 a3 a4) := by
  unfold State.modChan
  repeat' first
    | with_reducible assumption
    | with_reducible exact Within.refl _ _
    | decide
    | with_reducible apply Within.step' (State.modTile_within _ _ _)
    | with_reducible intro _
    | split
    | dsimp only

theorem State.modSrm_within (s : State) (a2) (a3) :
    Within [.tiles] s (State.modSrm s a2 a3) := by
  unfold State.modSrm
  repeat' first
    | with_reducible assumption
    | with_reducible exact Within.refl _ _
    | decide
    | with_reducible apply Within.step' (State.modTile_within _ _ _)
    | with_reducible intro _
    | split
    | dsimp only

theorem State.modFunc_within (s : State) (a2) (a3) (a4) :
    Within [.hst] s (State.modFunc s a2 a3 a4) := by
  unfold State.modFunc
  repeat' first
    | with_reducible assumption
    | with_reducible exact Within.refl _ _
    | decide
    | with_reducible apply Within.step' (State.modHst_within _ _)
    | with_reducible intro _
    | split
    | dsimp only

theorem State.modHPort_within (s : State) (a2) (a3) :
    Within [.hst] s (State.modHPort s a2 a3) := by
  unfold State.modHPort
  repeat' first
    | with_reducible assumption
    | with_reducible exact Within.refl _ _
    | decide
    | with_reducible apply Within.step' (State.modHst_within _ _)
    | with_reducible intro _
    | split
    | dsimp only

theorem State.modFence_within (s : State) (a2) (a3) :
    Within [.brd] s (State.modFence s a2 a3) := by
  unfold State.modFence
  repeat' first
    | with_reducible assumption
    | with_reducible exact Within.refl _ _
    | decide
    | with_reducible apply Within.step' (State.modBrd_within _ _)
    | with_reducible intro _
    | split
    | dsimp only

theorem State.modLease_within (s : State) (a2) (a3) :
    Within [.brd] s (State.modLease s a2 a3) := by
  unfold State.modLease
  repeat' first
    | with_reducible assumption
    | with_reducible exact Within.refl _ _
    | decide
    | with_reducible apply Within.step' (State.modBrd_within _ _)
    | with_reducible intro _
    | split
    | dsimp only

theorem State.modMove_within (s : State) (a2) (a3) :
    Within [.brd] s (State.modMove s a2 a3) := by
  unfold State.modMove
  repeat' first
    | with_reducible assumption
    | with_reducible exact Within.refl _ _
    | decide
    | with_reducible apply Within.step' (State.modBrd_within _ _)
    | with_reducible intro _
    | split
    | dsimp only

theorem State.modRes_within (s : State) (a2) (a3) :
    Within [.que] s (State.modRes s a2 a3) := by
  unfold State.modRes
  repeat' first
    | with_reducible assumption
    | with_reducible exact Within.refl _ _
    | decide
    | with_reducible apply Within.step' (State.modQue_within _ _)
    | with_reducible intro _
    | split
    | dsimp only

theorem State.modFq_within (s : State) (a2) (a3) :
    Within [.que] s (State.modFq s a2 a3) := by
  unfold State.modFq
  repeat' first
    | with_reducible assumption
    | with_reducible exact Within.refl _ _
    | decide
    | with_reducible apply Within.step' (State.modQue_within _ _)
    | with_reducible intro _
    | split
    | dsimp only

theorem State.modQ_within (s : State) (a2) (a3) :
    Within [.que] s (State.modQ s a2 a3) := by
  unfold State.modQ
  repeat' first
    | with_reducible assumption
    | with_reducible exact Within.refl _ _
    | decide
    | with_reducible apply Within.step' (State.modQue_within _ _)
    | with_reducible intro _
    | split
    | dsimp only

theorem State.modColl_within (s : State) (a2) (a3) :
    Within [.fab] s (State.modColl s a2 a3) := by
  unfold State.modColl
  repeat' first
    | with_reducible assumption
    | with_reducible exact Within.refl _ _
    | decide
    | with_reducible apply Within.step' (State.modFab_within _ _)
    | with_reducible intro _
    | split
    | dsimp only

theorem State.modKid_within (s : State) (a2) (a3) :
    Within [.cry] s (State.modKid s a2 a3) := by
  unfold State.modKid
  repeat' first
    | with_reducible assumption
    | with_reducible exact Within.refl _ _
    | decide
    | with_reducible apply Within.step' (State.modCry_within _ _)
    | with_reducible intro _
    | split
    | dsimp only

theorem State.storeLine_within (s : State) (a2) (a3) :
    Within [.mem] s (State.storeLine s a2 a3) := by
  unfold State.storeLine
  repeat' first
    | with_reducible assumption
    | with_reducible exact Within.refl _ _
    | decide
    | with_reducible apply Within.step' (State.store_within _ _ _)
    | split
    | dsimp only

/-! ### Report -/

theorem State.logAppend_within (s : State) (a2) (a3) (a4) (a5) :
    Within [.flog] s (State.logAppend s a2 a3 a4 a5) := by
  unfold State.logAppend
  repeat' first
    | with_reducible assumption
    | with_reducible exact Within.refl _ _
    | decide
    | with_reducible apply Within.step' (State.modFlog_within _ _)
    | with_reducible intro _
    | split
    | dsimp only

theorem State.logPush_within (s : State) (a2) (a3) (a4) (a5) :
    Within [.flog] s (State.logPush s a2 a3 a4 a5).1 := by
  unfold State.logPush
  repeat' first
    | with_reducible assumption
    | with_reducible exact Within.refl _ _
    | decide
    | with_reducible apply Within.step' (State.logAppend_within _ _ _ _ _)
    | with_reducible apply Within.step' (State.modFlog_within _ _)
    | with_reducible refine Within.ite ?_ ?_
    | with_reducible refine Within.ite_snd ?_ ?_
    | with_reducible intro _
    | extract_lets
    | split
    | dsimp only

theorem State.modSrc_within (s : State) (a2) (a3) :
    Within [.evt] s (State.modSrc s a2 a3) := by
  unfold State.modSrc
  repeat' first
    | with_reducible assumption
    | with_reducible exact Within.refl _ _
    | decide
    | with_reducible apply Within.step' (State.modEvt_within _ _)
    | with_reducible intro _
    | split
    | dsimp only

theorem State.modGrp_within (s : State) (a2) (a3) :
    Within [.evt] s (State.modGrp s a2 a3) := by
  unfold State.modGrp
  repeat' first
    | with_reducible assumption
    | with_reducible exact Within.refl _ _
    | decide
    | with_reducible apply Within.step' (State.modEvt_within _ _)
    | with_reducible intro _
    | split
    | dsimp only

theorem State.msix_within (s : State) (a2) (a3) (a4) :
    Within [.out, .hst] s (State.msix s a2 a3 a4) := by
  unfold State.msix
  repeat' first
    | with_reducible assumption
    | with_reducible exact Within.refl _ _
    | decide
    | with_reducible apply Within.step' (State.emit_within _ _)
    | with_reducible apply Within.step' (State.modFunc_within _ _ _ _)
    | with_reducible refine Within.ite ?_ ?_
    | with_reducible intro _
    | extract_lets
    | split
    | dsimp only

theorem State.deliver_within (s : State) (a2) :
    Within [.out, .hst, .evt] s (State.deliver s a2) := by
  unfold State.deliver
  repeat' first
    | with_reducible assumption
    | with_reducible exact Within.refl _ _
    | decide
    | with_reducible apply State.each_within
    | with_reducible apply Within.step' (State.msix_within _ _ _ _)
    | with_reducible apply Within.step' (State.emit_within _ _)
    | with_reducible apply Within.step' (State.modEvt_within _ _)
    | with_reducible apply Within.step' (State.modGrp_within _ _ _)
    | with_reducible refine Within.ite ?_ ?_
    | with_reducible intro _
    | extract_lets
    | split
    | dsimp only

theorem State.pendSet_within {M : List Block} {s0 s : State} (a2) (a3) (h : Within M s0 s)
    (hM : Block.sub [.out, .hst, .evt] M = true) (ha3 : ∀ x0, Within M s0 x0 → Within M s0 (a3 x0)) :
    Within M s0 (State.pendSet s a2 a3) := by
  unfold State.pendSet
  repeat' first
    | with_reducible assumption
    | exact Block.sub_trans (by decide) hM
    | with_reducible apply ha3
    | with_reducible apply State.when_within
    | with_reducible apply Within.step' (State.deliver_within _ _)
    | with_reducible apply Within.step' (State.modGrp_within _ _ _)
    | with_reducible apply Within.step' (State.modSrc_within _ _ _)
    | with_reducible apply Within.step' (State.modEvt_within _ _)
    | with_reducible refine OutIn.next ?_
    | with_reducible exact Holds.none
    | with_reducible refine Holds.some ?_
    | with_reducible refine Holds.map_state ?_ ?_
    | with_reducible refine Holds.map ?_
    | with_reducible refine Holds.bind ?_
    | with_reducible refine Within.getD ?_ ?_
    | with_reducible refine Within.ite ?_ ?_
    | with_reducible refine Within.ite_snd ?_ ?_
    | with_reducible intro _
    | extract_lets
    | split
    | dsimp only

theorem State.edgeWith_within {M : List Block} {s0 s : State} (a2) (a3) (a4) (h : Within M s0 s)
    (hM : Block.sub [.out, .hst, .evt] M = true) (ha4 : ∀ x0, Within M s0 x0 → Within M s0 (a4 x0)) :
    Within M s0 (State.edgeWith s a2 a3 a4) := by
  unfold State.edgeWith
  repeat' first
    | with_reducible assumption
    | exact Block.sub_trans (by decide) hM
    | with_reducible apply ha4
    | with_reducible apply State.pendSet_within
    | with_reducible apply Within.step' (State.modSrc_within _ _ _)
    | with_reducible refine OutIn.next ?_
    | with_reducible exact Holds.none
    | with_reducible refine Holds.some ?_
    | with_reducible refine Holds.map_state ?_ ?_
    | with_reducible refine Holds.map ?_
    | with_reducible refine Holds.bind ?_
    | with_reducible refine Within.getD ?_ ?_
    | with_reducible refine Within.ite ?_ ?_
    | with_reducible refine Within.ite_snd ?_ ?_
    | with_reducible intro _
    | extract_lets
    | split
    | dsimp only

theorem State.pulse912_within (s : State) :
    Within [.out, .hst, .evt, .flog] s (State.pulse912 s) := by
  unfold State.pulse912
  repeat' first
    | with_reducible assumption
    | with_reducible exact Within.refl _ _
    | decide
    | with_reducible apply State.edgeWith_within
    | with_reducible apply Within.step' (State.modSrc_within _ _ _)
    | with_reducible apply Within.step' (State.logPush_within _ _ _ _ _)
    | with_reducible refine Within.ite ?_ ?_
    | with_reducible intro _
    | extract_lets
    | split
    | dsimp only

theorem State.log_within (s : State) (a2) (a3) (a4) (a5) :
    Within [.out, .hst, .evt, .flog] s (State.log s a2 a3 a4 a5) := by
  unfold State.log
  repeat' first
    | with_reducible assumption
    | with_reducible exact Within.refl _ _
    | decide
    | with_reducible apply Within.step' (State.pulse912_within _)
    | with_reducible apply Within.step' (State.logPush_within _ _ _ _ _)
    | with_reducible refine Within.ite ?_ ?_
    | with_reducible intro _
    | extract_lets
    | split
    | dsimp only

theorem State.edge_within (s : State) (a2) (a3) :
    Within [.out, .hst, .evt, .flog] s (State.edge s a2 a3) := by
  unfold State.edge
  repeat' first
    | with_reducible assumption
    | with_reducible exact Within.refl _ _
    | decide
    | with_reducible apply State.edgeWith_within
    | with_reducible apply Within.step' (State.log_within _ _ _ _ _)
    | with_reducible intro _
    | split
    | dsimp only

theorem State.pulse_within (s : State) (a2) :
    Within [.out, .hst, .evt, .flog] s (State.pulse s a2) := by
  unfold State.pulse
  repeat' first
    | with_reducible assumption
    | with_reducible exact Within.refl _ _
    | decide
    | with_reducible apply Within.step' (State.edge_within _ _ _)
    | split
    | dsimp only

theorem State.endService_within (s : State) (a2) :
    Within [.out, .hst, .evt, .flog] s (State.endService s a2) := by
  unfold State.endService
  repeat' first
    | with_reducible assumption
    | with_reducible exact Within.refl _ _
    | decide
    | with_reducible apply State.pendSet_within
    | with_reducible apply Within.step' (State.deliver_within _ _)
    | with_reducible apply Within.step' (State.modGrp_within _ _ _)
    | with_reducible apply Within.step' (State.log_within _ _ _ _ _)
    | with_reducible apply Within.step' (State.modSrc_within _ _ _)
    | with_reducible refine Within.ite ?_ ?_
    | with_reducible refine Within.ite_snd ?_ ?_
    | with_reducible intro _
    | extract_lets
    | split
    | dsimp only

theorem State.dropService_within (s : State) (a2) :
    Within [.out, .hst, .evt, .flog] s (State.dropService s a2) := by
  unfold State.dropService
  repeat' first
    | with_reducible assumption
    | with_reducible exact Within.refl _ _
    | decide
    | with_reducible apply State.each_within
    | with_reducible apply Within.step' (State.endService_within _ _)
    | with_reducible intro _
    | split
    | dsimp only

theorem State.tileSignal_within (s : State) (a2) :
    Within [.out, .hst, .evt, .flog] s (State.tileSignal s a2) := by
  unfold State.tileSignal
  repeat' first
    | with_reducible assumption
    | with_reducible exact Within.refl _ _
    | decide
    | with_reducible apply Within.step' (State.edge_within _ _ _)
    | with_reducible refine Within.ite ?_ ?_
    | with_reducible intro _
    | extract_lets
    | split
    | dsimp only

theorem State.notifyMailbox_within (s : State) (a2) (a3) (a4) (a5) (a6) :
    Within [.out, .hst] s (State.notifyMailbox s a2 a3 a4 a5 a6) := by
  unfold State.notifyMailbox
  repeat' first
    | with_reducible assumption
    | with_reducible exact Within.refl _ _
    | decide
    | with_reducible apply State.when_within
    | with_reducible apply Within.step' (State.msix_within _ _ _ _)
    | with_reducible apply Within.step' (State.modFunc_within _ _ _ _)
    | with_reducible refine Within.ite ?_ ?_
    | with_reducible intro _
    | extract_lets
    | split
    | dsimp only

theorem State.notifyDropped_within (s : State) (a2) (a3) :
    Within [.out, .hst, .itl, .evt, .flog] s (State.notifyDropped s a2 a3) := by
  unfold State.notifyDropped
  repeat' first
    | with_reducible assumption
    | with_reducible exact Within.refl _ _
    | decide
    | with_reducible apply Within.step' (State.pulse_within _ _)
    | with_reducible apply Within.step' (State.log_within _ _ _ _ _)
    | with_reducible apply Within.step' (State.modItl_within _ _)
    | with_reducible intro _
    | extract_lets
    | split
    | dsimp only

theorem State.notifyPath_within (s : State) (a2) (a3) (a4) (a5) :
    Within [.out, .hst] s (State.notifyPath s a2 a3 a4 a5) := by
  unfold State.notifyPath
  repeat' first
    | with_reducible assumption
    | with_reducible exact Within.refl _ _
    | decide
    | with_reducible apply Within.step' (State.emit_within _ _)
    | with_reducible apply Within.step' (State.notifyMailbox_within _ _ _ _ _ _)
    | split
    | dsimp only

theorem State.opDone_within (s : State) (a2) (a3) (a4) (a5) (a6) (a7) :
    Within [.out, .hst, .itl] s (State.opDone s a2 a3 a4 a5 a6 a7) := by
  unfold State.opDone
  repeat' first
    | with_reducible assumption
    | with_reducible exact Within.refl _ _
    | decide
    | with_reducible apply State.each_within
    | with_reducible apply Within.step' (State.notifyPath_within _ _ _ _ _)
    | with_reducible apply Within.step' (State.modItl_within _ _)
    | with_reducible exact Holds.none
    | with_reducible refine Holds.some ?_
    | with_reducible refine Holds.map_state ?_ ?_
    | with_reducible refine Holds.map ?_
    | with_reducible refine Holds.bind ?_
    | with_reducible refine Within.getD ?_ ?_
    | with_reducible refine Within.ite ?_ ?_
    | with_reducible intro _
    | extract_lets
    | split
    | dsimp only

theorem State.notifyCid_within (s : State) (a2) (a3) (a4) :
    Within [.out, .hst, .itl, .evt, .flog] s (State.notifyCid s a2 a3 a4) := by
  unfold State.notifyCid
  repeat' first
    | with_reducible assumption
    | with_reducible exact Within.refl _ _
    | decide
    | with_reducible apply Within.step' (State.notifyDropped_within _ _ _)
    | with_reducible apply Within.step' (State.notifyPath_within _ _ _ _ _)
    | with_reducible apply Within.step' (State.notifyMailbox_within _ _ _ _ _ _)
    | with_reducible refine Within.ite ?_ ?_
    | with_reducible intro _
    | split
    | dsimp only

theorem State.notifyPfs_within (s : State) (a2) (a3) :
    Within [.out, .hst] s (State.notifyPfs s a2 a3) := by
  unfold State.notifyPfs
  repeat' first
    | with_reducible assumption
    | with_reducible exact Within.refl _ _
    | decide
    | with_reducible apply Within.step' (State.notifyMailbox_within _ _ _ _ _ _)
    | split
    | dsimp only

theorem State.atsAsk_within (s : State) (a2) (a3) (a4) (a5) :
    Within [.out, .hst] s (State.atsAsk s a2 a3 a4 a5) := by
  unfold State.atsAsk
  repeat' first
    | with_reducible assumption
    | with_reducible exact Within.refl _ _
    | decide
    | with_reducible apply Within.step' (State.emit_within _ _)
    | with_reducible apply Within.step' (State.modHst_within _ _)
    | with_reducible refine Within.ite ?_ ?_
    | with_reducible intro _
    | extract_lets
    | split
    | dsimp only

theorem State.dlogPut_within (s : State) (a2) (a3) (a4) (a5) :
    Within [.out, .hst, .evt, .flog] s (State.dlogPut s a2 a3 a4 a5) := by
  unfold State.dlogPut
  repeat' first
    | with_reducible assumption
    | with_reducible exact Within.refl _ _
    | decide
    | with_reducible apply Within.step' (State.modFunc_within _ _ _ _)
    | with_reducible apply Within.step' (State.emit_within _ _)
    | with_reducible apply Within.step' (State.pulse_within _ _)
    | with_reducible refine Within.ite ?_ ?_
    | with_reducible intro _
    | extract_lets
    | split
    | dsimp only

theorem State.dlogDevice_within (s : State) (a2) (a3) :
    Within [.out, .hst, .evt, .flog] s (State.dlogDevice s a2 a3) := by
  unfold State.dlogDevice
  repeat' first
    | with_reducible assumption
    | with_reducible exact Within.refl _ _
    | decide
    | with_reducible apply State.each_within
    | with_reducible apply Within.step' (State.dlogPut_within _ _ _ _ _)
    | with_reducible apply Within.step' (State.modFunc_within _ _ _ _)
    | with_reducible intro _
    | extract_lets
    | split
    | dsimp only

theorem State.hostWriteAs_within (s : State) (a2) (a3) (a4) (a5) (a6) (a7) :
    Within [.out, .hst, .evt, .flog] s (State.hostWriteAs s a2 a3 a4 a5 a6 a7) := by
  unfold State.hostWriteAs
  repeat' first
    | with_reducible assumption
    | with_reducible exact Within.refl _ _
    | decide
    | with_reducible apply Within.step' (State.emit_within _ _)
    | with_reducible apply Within.step' (State.dlogPut_within _ _ _ _ _)
    | with_reducible apply Within.step' (State.modHPort_within _ _ _)
    | with_reducible apply Within.step' (State.atsAsk_within _ _ _ _ _)
    | with_reducible exact Holds.none
    | with_reducible refine Holds.some ?_
    | with_reducible refine Holds.map_state ?_ ?_
    | with_reducible refine Holds.map ?_
    | with_reducible refine Holds.bind ?_
    | with_reducible refine Within.getD ?_ ?_
    | with_reducible refine Within.ite ?_ ?_
    | with_reducible refine Within.ite_snd ?_ ?_
    | with_reducible intro _
    | extract_lets
    | split
    | dsimp only

theorem State.hostWrite_within (s : State) (a2) (a3) (a4) (a5) (a6) :
    Within [.out, .hst, .evt, .flog] s (State.hostWrite s a2 a3 a4 a5 a6) := by
  unfold State.hostWrite
  repeat' first
    | with_reducible assumption
    | with_reducible exact Within.refl _ _
    | decide
    | with_reducible apply Within.step' (State.hostWriteAs_within _ _ _ _ _ _ _)
    | split
    | dsimp only

theorem State.fqDrop_within (s : State) (a2) :
    Within [.que] s (State.fqDrop s a2) := by
  unfold State.fqDrop
  repeat' first
    | with_reducible assumption
    | with_reducible exact Within.refl _ _
    | decide
    | with_reducible apply Within.step' (State.modFq_within _ _ _)
    | with_reducible intro _
    | split
    | dsimp only

theorem State.fqWrite_within (s : State) (a2) (a3) (a4) (a5) (a6) (a7) (a8) :
    Within [.out, .hst, .que, .evt, .flog] s (State.fqWrite s a2 a3 a4 a5 a6 a7 a8) := by
  unfold State.fqWrite
  repeat' first
    | with_reducible assumption
    | with_reducible exact Within.refl _ _
    | decide
    | with_reducible apply State.when_within
    | with_reducible apply Within.step' (State.msix_within _ _ _ _)
    | with_reducible apply Within.step' (State.modFq_within _ _ _)
    | with_reducible apply Within.step' (State.hostWrite_within _ _ _ _ _ _)
    | with_reducible intro _
    | extract_lets
    | split
    | dsimp only

theorem State.moduleRecord_within (s : State) (a2) (a3) (a4) :
    Within [.out, .hst, .que, .evt, .flog] s (State.moduleRecord s a2 a3 a4) := by
  unfold State.moduleRecord
  repeat' first
    | with_reducible assumption
    | with_reducible exact Within.refl _ _
    | decide
    | with_reducible apply Within.step' (State.fqWrite_within _ _ _ _ _ _ _ _)
    | with_reducible apply Within.step' (State.pulse_within _ _)
    | with_reducible apply Within.step' (State.modFq_within _ _ _)
    | with_reducible apply Within.step' (State.fqDrop_within _ _)
    | with_reducible refine Within.ite ?_ ?_
    | with_reducible intro _
    | extract_lets
    | split
    | dsimp only

theorem State.moduleRecords_within (s : State) (a2) (a3) (a4) :
    Within [.out, .hst, .que, .evt, .flog] s (State.moduleRecords s a2 a3 a4) := by
  unfold State.moduleRecords
  repeat' first
    | with_reducible assumption
    | with_reducible exact Within.refl _ _
    | decide
    | with_reducible apply State.each_within
    | with_reducible apply Within.step' (State.pulse_within _ _)
    | with_reducible apply Within.step' (State.moduleRecord_within _ _ _ _)
    | with_reducible intro _
    | split
    | dsimp only

/-! ### Guarantee -/

theorem State.setRegGuar_within (s : State) (a2) (a3) (a4) :
    Within [.tiles, .lp, .fab] s (State.setRegGuar s a2 a3 a4) := by
  unfold State.setRegGuar
  repeat' first
    | with_reducible assumption
    | with_reducible exact Within.refl _ _
    | decide
    | with_reducible apply Within.step' (State.modFab_within _ _)
    | with_reducible apply Within.step' (State.modLp_within _ _)
    | with_reducible apply Within.step' (State.modTile_within _ _ _)
    | with_reducible intro _
    | split
    | dsimp only

theorem State.setCurrent_within (s : State) (a2) (a3) (a4) (a5) :
    Within [.out, .tiles, .lp, .brd, .fab, .hst, .itl, .evt, .flog] s (State.setCurrent s a2 a3 a4 a5) := by
  unfold State.setCurrent
  repeat' first
    | with_reducible assumption
    | with_reducible exact Within.refl _ _
    | decide
    | with_reducible apply Within.step' (State.pulse_within _ _)
    | with_reducible apply Within.step' (State.notifyCid_within _ _ _ _)
    | with_reducible apply Within.step' (State.setRegGuar_within _ _ _ _)
    | with_reducible apply Within.step' (State.modBrd_within _ _)
    | with_reducible refine Within.ite ?_ ?_
    | with_reducible refine Within.ite_snd ?_ ?_
    | with_reducible intro _
    | extract_lets
    | split
    | dsimp only

theorem State.regauge_within (s : State) (a2) :
    Within [.out, .tiles, .lp, .brd, .fab, .hst, .itl, .evt, .flog] s (State.regauge s a2) := by
  unfold State.regauge
  repeat' first
    | with_reducible assumption
    | with_reducible exact Within.refl _ _
    | decide
    | with_reducible apply State.each_within
    | with_reducible apply Within.step' (State.setCurrent_within _ _ _ _ _)
    | with_reducible refine Within.ite ?_ ?_
    | with_reducible refine Within.ite_snd ?_ ?_
    | with_reducible intro _
    | extract_lets
    | split
    | dsimp only

theorem State.regaugeHalf_within (s : State) (a2) :
    Within [.out, .tiles, .lp, .brd, .fab, .hst, .itl, .evt, .flog] s (State.regaugeHalf s a2) := by
  unfold State.regaugeHalf
  repeat' first
    | with_reducible assumption
    | with_reducible exact Within.refl _ _
    | decide
    | with_reducible apply State.each_within
    | with_reducible apply Within.step' (State.regauge_within _ _)
    | with_reducible intro _
    | split
    | dsimp only

theorem State.regaugeTiles_within (s : State) :
    Within [.out, .tiles, .lp, .brd, .fab, .hst, .itl, .evt, .flog] s (State.regaugeTiles s) := by
  unfold State.regaugeTiles
  repeat' first
    | with_reducible assumption
    | with_reducible exact Within.refl _ _
    | decide
    | with_reducible apply State.each_within
    | with_reducible apply Within.step' (State.regauge_within _ _)
    | with_reducible intro _
    | extract_lets
    | split
    | dsimp only

/-! ### Lines -/

theorem State.sramPoison_within (s : State) (a2) (a3) (a4) :
    Within [.mem, .tiles] s (State.sramPoison s a2 a3 a4) := by
  unfold State.sramPoison
  repeat' first
    | with_reducible assumption
    | with_reducible exact Within.refl _ _
    | decide
    | with_reducible apply Within.step' (State.modSrm_within _ _ _)
    | with_reducible apply Within.step' (State.clearMem_within _ _ _)
    | with_reducible refine Within.ite ?_ ?_
    | with_reducible refine Within.ite_snd ?_ ?_
    | with_reducible intro _
    | extract_lets
    | split
    | dsimp only

theorem State.sramCheck_within (s : State) (a2) (a3) (a4) :
    Within [.mem, .tiles] s (State.sramCheck s a2 a3 a4).2 := by
  unfold State.sramCheck
  repeat' first
    | with_reducible assumption
    | with_reducible exact Within.refl _ _
    | decide
    | with_reducible apply Within.step' (State.sramPoison_within _ _ _ _)
    | with_reducible apply Within.step' (State.modSrm_within _ _ _)
    | with_reducible refine Within.ite ?_ ?_
    | with_reducible refine Within.ite_snd ?_ ?_
    | with_reducible intro _
    | extract_lets
    | split
    | dsimp only

theorem State.sramRead_within (s : State) (a2) (a3) (a4) :
    Within [.mem, .tiles] s (State.sramRead s a2 a3 a4).2.2 := by
  unfold State.sramRead
  repeat' first
    | with_reducible assumption
    | with_reducible exact Within.refl _ _
    | decide
    | with_reducible apply Within.step' (State.sramCheck_within _ _ _ _)
    | with_reducible refine Within.step' (Within.of_snd (State.sramCheck_within _ _ _ _) (by assumption)) ?_ ?_
    | with_reducible refine Within.ite ?_ ?_
    | with_reducible intro _
    | extract_lets
    | split
    | dsimp only

theorem State.sramWrite_within (s : State) (a2) (a3) (a4) (a5) (a6) :
    Within [.mem, .tiles] s (State.sramWrite s a2 a3 a4 a5 a6).2 := by
  unfold State.sramWrite
  repeat' first
    | with_reducible assumption
    | with_reducible exact Within.refl _ _
    | decide
    | with_reducible apply Within.step' (State.storeLine_within _ _ _)
    | with_reducible apply Within.step' (State.sramCheck_within _ _ _ _)
    | with_reducible refine Within.step' (Within.of_snd (State.sramCheck_within _ _ _ _) (by assumption)) ?_ ?_
    | with_reducible apply Within.step' (State.modSrm_within _ _ _)
    | with_reducible refine Within.ite ?_ ?_
    | with_reducible intro _
    | extract_lets
    | split
    | dsimp only

theorem State.settleStripe_within (s : State) (a2) (a3) :
    Within [.mem, .lp] s (State.settleStripe s a2 a3) := by
  unfold State.settleStripe
  repeat' first
    | with_reducible assumption
    | with_reducible exact Within.refl _ _
    | decide
    | with_reducible apply Within.step' (State.storeLine_within _ _ _)
    | with_reducible apply Within.step' (State.modLp_within _ _)
    | with_reducible refine Within.ite ?_ ?_
    | with_reducible intro _
    | extract_lets
    | split
    | dsimp only

theorem State.setPairSt_within (s : State) (a2) (a3) :
    Within [.out, .lp, .hst, .que, .evt, .flog] s (State.setPairSt s a2 a3) := by
  unfold State.setPairSt
  repeat' first
    | with_reducible assumption
    | with_reducible exact Within.refl _ _
    | decide
    | with_reducible apply Within.step' (State.moduleRecords_within _ _ _ _)
    | with_reducible apply Within.step' (State.pulse_within _ _)
    | with_reducible apply Within.step' (State.modPair_within _ _ _)
    | with_reducible refine Within.ite ?_ ?_
    | with_reducible refine Within.ite_snd ?_ ?_
    | with_reducible intro _
    | extract_lets
    | split
    | dsimp only

theorem State.xorCheck_within (s : State) (a2) (a3) (a4) :
    Within [.mem] s (State.xorCheck s a2 a3 a4) := by
  unfold State.xorCheck
  repeat' first
    | with_reducible assumption
    | with_reducible exact Within.refl _ _
    | decide
    | with_reducible apply Within.step' (State.storeLine_within _ _ _)
    | with_reducible refine Within.ite ?_ ?_
    | with_reducible intro _
    | extract_lets
    | split
    | dsimp only

theorem State.putLine_within (s : State) (a2) (a3) (a4) :
    Within [.mem] s (State.putLine s a2 a3 a4) := by
  unfold State.putLine
  repeat' first
    | with_reducible assumption
    | with_reducible exact Within.refl _ _
    | decide
    | with_reducible apply Within.step' (State.xorCheck_within _ _ _ _)
    | with_reducible apply Within.step' (State.storeLine_within _ _ _)
    | extract_lets
    | split
    | dsimp only

theorem State.swapRegions_within (s : State) (a2) (a3) (a4) (a5) :
    Within [.cry] s (State.swapRegions s a2 a3 a4 a5) := by
  unfold State.swapRegions
  repeat' first
    | with_reducible assumption
    | with_reducible exact Within.refl _ _
    | decide
    | with_reducible apply Within.step' (State.modCry_within _ _)
    | with_reducible refine Within.foldl_snd ?_ ?_
    | with_reducible refine Within.ite ?_ ?_
    | with_reducible intro _
    | extract_lets
    | split
    | dsimp only

theorem State.passMarks_within (s : State) (a2) (a3) (a4) (a5) (a6) :
    Within [.lp] s (State.passMarks s a2 a3 a4 a5 a6) := by
  unfold State.passMarks
  repeat' first
    | with_reducible assumption
    | with_reducible exact Within.refl _ _
    | decide
    | with_reducible apply Within.step' (State.modPair_within _ _ _)
    | with_reducible refine Within.foldl_snd ?_ ?_
    | with_reducible intro _
    | extract_lets
    | split
    | dsimp only

theorem State.copyRange_within (s : State) (a2) (a3) (a4) (a5) (a6) :
    Within [.mem, .lp, .cry] s (State.copyRange s a2 a3 a4 a5 a6) := by
  unfold State.copyRange
  repeat' first
    | with_reducible assumption
    | with_reducible exact Within.refl _ _
    | decide
    | with_reducible apply State.each_within
    | with_reducible apply Within.step' (State.swapRegions_within _ _ _ _ _)
    | with_reducible apply Within.step' (State.passMarks_within _ _ _ _ _ _)
    | with_reducible apply Within.step' (State.putLine_within _ _ _ _)
    | with_reducible exact Holds.none
    | with_reducible refine Holds.some ?_
    | with_reducible refine Holds.map_state ?_ ?_
    | with_reducible refine Holds.map ?_
    | with_reducible refine Holds.bind ?_
    | with_reducible refine Within.getD ?_ ?_
    | with_reducible intro _
    | extract_lets
    | split
    | dsimp only

theorem State.zeroShare_within (s : State) (a2) (a3) (a4) :
    Within [.mem, .lp] s (State.zeroShare s a2 a3 a4) := by
  unfold State.zeroShare
  repeat' first
    | with_reducible assumption
    | with_reducible exact Within.refl _ _
    | decide
    | with_reducible apply State.each_within
    | with_reducible apply Within.step' (State.xorCheck_within _ _ _ _)
    | with_reducible apply Within.step' (State.settleStripe_within _ _ _)
    | with_reducible refine Within.ite ?_ ?_
    | with_reducible intro _
    | extract_lets
    | split
    | dsimp only

theorem State.rebuildRange_within (s : State) (a2) (a3) (a4) (a5) (a6) :
    Within [.mem, .lp, .cry] s (State.rebuildRange s a2 a3 a4 a5 a6) := by
  unfold State.rebuildRange
  repeat' first
    | with_reducible assumption
    | with_reducible exact Within.refl _ _
    | decide
    | with_reducible apply Within.step' (State.zeroShare_within _ _ _ _)
    | with_reducible apply Within.step' (State.copyRange_within _ _ _ _ _ _)
    | split
    | dsimp only

theorem State.spareUp_within (s : State) (a2) :
    Within [.out, .lp, .hst, .que, .evt, .flog] s (State.spareUp s a2) := by
  unfold State.spareUp
  repeat' first
    | with_reducible assumption
    | with_reducible exact Within.refl _ _
    | decide
    | with_reducible apply Within.step' (State.modPair_within _ _ _)
    | with_reducible apply Within.step' (State.setPairSt_within _ _ _)
    | with_reducible refine Within.ite ?_ ?_
    | with_reducible refine Within.ite_snd ?_ ?_
    | with_reducible intro _
    | extract_lets
    | split
    | dsimp only

theorem State.moveAborts_within (s : State) (a2) :
    Within [.out, .mem, .lp, .brd, .hst, .itl, .cry] s (State.moveAborts s a2) := by
  unfold State.moveAborts
  repeat' first
    | with_reducible assumption
    | with_reducible exact Within.refl _ _
    | decide
    | with_reducible apply State.when_within
    | with_reducible apply Within.step' (State.opDone_within _ _ _ _ _ _ _)
    | with_reducible apply Within.step' (State.modMove_within _ _ _)
    | with_reducible apply Within.step' (State.modLp_within _ _)
    | with_reducible apply Within.step' (State.modItl_within _ _)
    | with_reducible apply Within.step' (State.copyRange_within _ _ _ _ _ _)
    | with_reducible intro _
    | extract_lets
    | split
    | dsimp only

theorem State.pairFailed_within (s : State) (a2) :
    Within [.out, .mem, .tiles, .lp, .brd, .fab, .hst, .que, .itl, .cry, .evt, .flog] s (State.pairFailed s a2) := by
  unfold State.pairFailed
  repeat' first
    | with_reducible assumption
    | with_reducible exact Within.refl _ _
    | decide
    | with_reducible apply Within.step' (State.regaugeHalf_within _ _)
    | with_reducible apply Within.step' (State.spareUp_within _ _)
    | with_reducible apply Within.step' (State.moveAborts_within _ _)
    | with_reducible apply Within.step' (State.zeroShare_within _ _ _ _)
    | with_reducible apply Within.step' (State.modPair_within _ _ _)
    | with_reducible apply Within.step' (State.setPairSt_within _ _ _)
    | with_reducible apply Within.step' (State.opDone_within _ _ _ _ _ _ _)
    | with_reducible apply Within.step' (State.modMove_within _ _ _)
    | with_reducible refine Within.ite ?_ ?_
    | with_reducible refine Within.ite_snd ?_ ?_
    | with_reducible intro _
    | extract_lets
    | split
    | dsimp only

theorem State.dramPoison_within (s : State) (a2) (a3) :
    Within [.out, .mem, .tiles, .lp, .brd, .fab, .hst, .que, .itl, .cry, .evt, .flog] s (State.dramPoison s a2 a3) := by
  unfold State.dramPoison
  repeat' first
    | with_reducible assumption
    | with_reducible exact Within.refl _ _
    | decide
    | with_reducible apply Within.step' (State.pairFailed_within _ _)
    | with_reducible apply Within.step' (State.pulse_within _ _)
    | with_reducible apply Within.step' (State.modPair_within _ _ _)
    | with_reducible refine Within.ite ?_ ?_
    | with_reducible intro _
    | extract_lets
    | split
    | dsimp only

theorem State.dramRebuilt_within (s : State) (a2) :
    Within [.out, .mem, .tiles, .lp, .brd, .fab, .hst, .que, .itl, .cry, .evt, .flog] s (State.dramRebuilt s a2) := by
  unfold State.dramRebuilt
  repeat' first
    | with_reducible assumption
    | with_reducible exact Within.refl _ _
    | decide
    | with_reducible apply Within.step' (State.pairFailed_within _ _)
    | with_reducible apply Within.step' (State.pulse_within _ _)
    | with_reducible apply Within.step' (State.modPair_within _ _ _)
    | with_reducible refine Within.ite ?_ ?_
    | with_reducible intro _
    | extract_lets
    | split
    | dsimp only

theorem State.linkRetried_within (s : State) (a2) (a3) :
    Within [.lp] s (State.linkRetried s a2 a3) := by
  unfold State.linkRetried
  repeat' first
    | with_reducible assumption
    | with_reducible exact Within.refl _ _
    | decide
    | with_reducible apply Within.step' (State.modPair_within _ _ _)
    | with_reducible refine Within.ite ?_ ?_
    | with_reducible refine Within.ite_snd ?_ ?_
    | with_reducible intro _
    | split
    | dsimp only

theorem State.dramFetch_within (s : State) (a2) (a3) (a4) :
    Within [.out, .mem, .tiles, .lp, .brd, .fab, .hst, .que, .itl, .cry, .evt, .flog] s (State.dramFetch s a2 a3 a4).2.2 := by
  unfold State.dramFetch
  repeat' first
    | with_reducible assumption
    | with_reducible exact Within.refl _ _
    | decide
    | with_reducible apply Within.step' (State.dramPoison_within _ _ _)
    | with_reducible apply Within.step' (State.dramRebuilt_within _ _)
    | with_reducible apply Within.step' (State.storeLine_within _ _ _)
    | with_reducible apply Within.step' (State.settleStripe_within _ _ _)
    | with_reducible apply Within.step' (State.linkRetried_within _ _ _)
    | with_reducible refine Within.ite ?_ ?_
    | with_reducible intro _
    | extract_lets
    | split
    | dsimp only

theorem State.pushDelta_within (s : State) (a2) (a3) (a4) :
    Within [.lp] s (State.pushDelta s a2 a3 a4) := by
  unfold State.pushDelta
  repeat' first
    | with_reducible assumption
    | with_reducible exact Within.refl _ _
    | decide
    | with_reducible apply Within.step' (State.modLp_within _ _)
    | with_reducible refine Within.ite ?_ ?_
    | with_reducible refine Within.ite_snd ?_ ?_
    | with_reducible intro _
    | split
    | dsimp only

theorem State.dramStore_within (s : State) (a2) (a3) (a4) (a5) :
    Within [.mem, .lp] s (State.dramStore s a2 a3 a4 a5) := by
  unfold State.dramStore
  repeat' first
    | with_reducible assumption
    | with_reducible exact Within.refl _ _
    | decide
    | with_reducible apply Within.step' (State.pushDelta_within _ _ _ _)
    | with_reducible apply Within.step' (State.storeLine_within _ _ _)
    | with_reducible refine Within.ite ?_ ?_
    | with_reducible refine Within.ite_snd ?_ ?_
    | with_reducible intro _
    | extract_lets
    | split
    | dsimp only

theorem State.oldLine_within (s : State) (a2) (a3) (a4) :
    Within [.out, .mem, .tiles, .lp, .brd, .fab, .hst, .que, .itl, .cry, .evt, .flog] s (State.oldLine s a2 a3 a4).2 := by
  unfold State.oldLine
  repeat' first
    | with_reducible assumption
    | with_reducible exact Within.refl _ _
    | decide
    | with_reducible apply Within.step' (State.dramRebuilt_within _ _)
    | with_reducible apply Within.step' (State.settleStripe_within _ _ _)
    | with_reducible apply Within.step' (State.linkRetried_within _ _ _)
    | with_reducible refine Within.ite ?_ ?_
    | with_reducible intro _
    | extract_lets
    | split
    | dsimp only

theorem State.modRegion_within (s : State) (a2) (a3) :
    Within [.cry] s (State.modRegion s a2 a3) := by
  unfold State.modRegion
  repeat' first
    | with_reducible assumption
    | with_reducible exact Within.refl _ _
    | decide
    | with_reducible apply Within.step' (State.modCry_within _ _)
    | with_reducible intro _
    | split
    | dsimp only

theorem State.kidUsers_within (s : State) (a2) (a3) :
    Within [.cry] s (State.kidUsers s a2 a3) := by
  unfold State.kidUsers
  repeat' first
    | with_reducible assumption
    | with_reducible exact Within.refl _ _
    | decide
    | with_reducible apply Within.step' (State.modKid_within _ _ _)
    | with_reducible refine Within.ite ?_ ?_
    | with_reducible refine Within.ite_snd ?_ ?_
    | with_reducible intro _
    | split
    | dsimp only

theorem State.regionMove_within (s : State) (a2) :
    Within [.cry] s (State.regionMove s a2) := by
  unfold State.regionMove
  repeat' first
    | with_reducible assumption
    | with_reducible exact Within.refl _ _
    | decide
    | with_reducible apply Within.step' (State.kidUsers_within _ _ _)
    | with_reducible apply Within.step' (State.modRegion_within _ _ _)
    | with_reducible intro _
    | extract_lets
    | split
    | dsimp only

theorem State.regionWrite_within (s : State) (a2) (a3) (a4) (a5) (a6) :
    Within [.out, .hst, .cry, .evt, .flog] s (State.regionWrite s a2 a3 a4 a5 a6) := by
  unfold State.regionWrite
  repeat' first
    | with_reducible assumption
    | with_reducible exact Within.refl _ _
    | decide
    | with_reducible apply Within.step' (State.modRegion_within _ _ _)
    | with_reducible apply Within.step' (State.modCry_within _ _)
    | with_reducible apply Within.step' (State.regionMove_within _ _)
    | with_reducible apply Within.step' (State.pulse_within _ _)
    | with_reducible refine Within.ite ?_ ?_
    | with_reducible refine Within.ite_snd ?_ ?_
    | with_reducible intro _
    | extract_lets
    | split
    | dsimp only

theorem State.noKey_within (s : State) :
    Within [.cry] s (State.noKey s) := by
  unfold State.noKey
  repeat' first
    | with_reducible assumption
    | with_reducible exact Within.refl _ _
    | decide
    | with_reducible apply Within.step' (State.modCry_within _ _)
    | with_reducible intro _
    | split
    | dsimp only

theorem State.keyUe_within (s : State) (a2) :
    Within [.lp, .cry] s (State.keyUe s a2) := by
  unfold State.keyUe
  repeat' first
    | with_reducible assumption
    | with_reducible exact Within.refl _ _
    | decide
    | with_reducible apply Within.step' (State.modPair_within _ _ _)
    | with_reducible apply Within.step' (State.noKey_within _)
    | with_reducible intro _
    | split
    | dsimp only

theorem State.dramRead_within (s : State) (a2) (a3) (a4) :
    Within [.out, .mem, .tiles, .lp, .brd, .fab, .hst, .que, .itl, .cry, .evt, .flog] s (State.dramRead s a2 a3 a4).2.2 := by
  unfold State.dramRead
  repeat' first
    | with_reducible assumption
    | with_reducible exact Within.refl _ _
    | decide
    | with_reducible apply Within.step' (State.dramFetch_within _ _ _ _)
    | with_reducible refine Within.step' (Within.of_snd2 (State.dramFetch_within _ _ _ _) (by assumption)) ?_ ?_
    | with_reducible apply Within.step' (State.keyUe_within _ _)
    | with_reducible refine Within.ite ?_ ?_
    | with_reducible refine Within.ite_snd ?_ ?_
    | with_reducible intro _
    | split
    | dsimp only

theorem State.dramWrite_within (s : State) (a2) (a3) (a4) (a5) (a6) (a7) :
    Within [.out, .mem, .tiles, .lp, .brd, .fab, .hst, .que, .itl, .cry, .evt, .flog] s (State.dramWrite s a2 a3 a4 a5 a6 a7).2 := by
  unfold State.dramWrite
  try dsimp only
  repeat' first
    | with_reducible assumption
    | with_reducible exact Within.refl _ _
    | decide
    | with_reducible apply Within.step' (State.regionWrite_within _ _ _ _ _ _)
    | with_reducible apply Within.step' (State.dramStore_within _ _ _ _ _)
    | with_reducible apply Within.step' (State.dramFetch_within _ _ _ _)
    | with_reducible refine Within.step' (Within.of_snd2 (State.dramFetch_within _ _ _ _) (by assumption)) ?_ ?_
    | with_reducible apply Within.step' (State.modPair_within _ _ _)
    | with_reducible apply Within.step' (State.oldLine_within _ _ _ _)
    | with_reducible refine Within.step' (Within.of_snd (State.oldLine_within _ _ _ _) (by assumption)) ?_ ?_
    | with_reducible apply Within.step' (State.keyUe_within _ _)
    | with_reducible refine Within.ite ?_ ?_
    | with_reducible refine Within.ite_snd ?_ ?_
    | with_reducible intro _
    | split
    | dsimp only

theorem State.placeRead_within (s : State) (a2) (a3) :
    Within [.out, .mem, .tiles, .lp, .brd, .fab, .hst, .que, .itl, .cry, .evt, .flog] s (State.placeRead s a2 a3).2.2 := by
  unfold State.placeRead
  repeat' first
    | with_reducible assumption
    | with_reducible exact Within.refl _ _
    | decide
    | with_reducible apply Within.step' (State.dramRead_within _ _ _ _)
    | with_reducible refine Within.step' (Within.of_snd2 (State.dramRead_within _ _ _ _) (by assumption)) ?_ ?_
    | with_reducible apply Within.step' (State.sramRead_within _ _ _ _)
    | with_reducible refine Within.step' (Within.of_snd2 (State.sramRead_within _ _ _ _) (by assumption)) ?_ ?_
    | split
    | dsimp only

theorem State.placeWrite_within (s : State) (a2) (a3) (a4) (a5) (a6) :
    Within [.out, .mem, .tiles, .lp, .brd, .fab, .hst, .que, .itl, .cry, .evt, .flog] s (State.placeWrite s a2 a3 a4 a5 a6).2 := by
  unfold State.placeWrite
  repeat' first
    | with_reducible assumption
    | with_reducible exact Within.refl _ _
    | decide
    | with_reducible apply Within.step' (State.dramWrite_within _ _ _ _ _ _ _)
    | with_reducible refine Within.step' (Within.of_snd (State.dramWrite_within _ _ _ _ _ _ _) (by assumption)) ?_ ?_
    | with_reducible apply Within.step' (State.sramWrite_within _ _ _ _ _ _)
    | with_reducible refine Within.step' (Within.of_snd (State.sramWrite_within _ _ _ _ _ _) (by assumption)) ?_ ?_
    | split
    | dsimp only

theorem State.countRefused_within (s : State) (a2) :
    Within [.mesh] s (State.countRefused s a2) := by
  unfold State.countRefused
  repeat' first
    | with_reducible assumption
    | with_reducible exact Within.refl _ _
    | decide
    | with_reducible apply Within.step' (State.modMesh_within _ _)
    | with_reducible intro _
    | extract_lets
    | split
    | dsimp only

theorem State.readMpa_within (s : State) (a2) (a3) (a4) (a5) :
    Within [.out, .mem, .tiles, .mesh, .lp, .brd, .fab, .hst, .que, .itl, .cry, .evt, .flog] s (State.readMpa s a2 a3 a4 a5).2.2 := by
  unfold State.readMpa
  repeat' first
    | with_reducible assumption
    | with_reducible exact Within.refl _ _
    | decide
    | with_reducible apply Within.step' (State.countRefused_within _ _)
    | with_reducible apply Within.step' (State.placeRead_within _ _ _)
    | with_reducible refine Within.step' (Within.of_snd2 (State.placeRead_within _ _ _) (by assumption)) ?_ ?_
    | with_reducible refine Within.ite ?_ ?_
    | with_reducible intro _
    | extract_lets
    | split
    | dsimp only

theorem State.writeMpa_within (s : State) (a2) (a3) (a4) (a5) (a6) :
    Within [.out, .mem, .tiles, .mesh, .lp, .brd, .fab, .hst, .que, .itl, .cry, .evt, .flog] s (State.writeMpa s a2 a3 a4 a5 a6).2 := by
  unfold State.writeMpa
  try dsimp only
  repeat' first
    | with_reducible assumption
    | with_reducible exact Within.refl _ _
    | decide
    | with_reducible apply Within.step' (State.placeWrite_within _ _ _ _ _ _)
    | with_reducible refine Within.step' (Within.of_snd (State.placeWrite_within _ _ _ _ _ _) (by assumption)) ?_ ?_
    | with_reducible apply Within.step' (State.dlogDevice_within _ _ _)
    | with_reducible apply Within.step' (State.countRefused_within _ _)
    | with_reducible refine Within.ite ?_ ?_
    | with_reducible intro _
    | split
    | dsimp only

/-! ### Xlat -/

theorem State.cacheWalk_within (s : State) (a2) (a3) (a4) (a5) :
    Within [.xlt] s (State.cacheWalk s a2 a3 a4 a5) := by
  unfold State.cacheWalk
  repeat' first
    | with_reducible assumption
    | with_reducible exact Within.refl _ _
    | decide
    | with_reducible apply Within.step' (State.modXlt_within _ _)
    | with_reducible intro _
    | extract_lets
    | split
    | dsimp only

theorem State.countWalk_within (s : State) (a2) (a3) (a4) (a5) (a6) (a7) :
    Within [.mesh] s (State.countWalk s a2 a3 a4 a5 a6 a7) := by
  unfold State.countWalk
  try dsimp only
  repeat' first
    | with_reducible assumption
    | with_reducible exact Within.refl _ _
    | decide
    | with_reducible apply Within.step' (State.countRefused_within _ _)
    | with_reducible refine Within.ite ?_ ?_
    | with_reducible refine Within.ite_snd ?_ ?_
    | with_reducible intro _
    | split
    | dsimp only

theorem State.install_within (s : State) (a2) (a3) :
    Within [.tiles, .xlt] s (State.install s a2 a3) := by
  unfold State.install
  repeat' first
    | with_reducible assumption
    | with_reducible exact Within.refl _ _
    | decide
    | with_reducible apply Within.step' (State.modTile_within _ _ _)
    | with_reducible apply Within.step' (State.modXlt_within _ _)
    | with_reducible intro _
    | extract_lets
    | split
    | dsimp only

theorem State.dropLook_within (s : State) (a2) :
    Within [.tiles, .xlt] s (State.dropLook s a2) := by
  unfold State.dropLook
  repeat' first
    | with_reducible assumption
    | with_reducible exact Within.refl _ _
    | decide
    | with_reducible apply Within.step' (State.modXlt_within _ _)
    | with_reducible intro _
    | extract_lets
    | split
    | dsimp only
    | with_reducible apply Within.step' (State.tiles_set_within _ _)

/-! ### Objects -/

theorem State.mpaStore_within (s : State) (a2) (a3) (a4) (a5) :
    Within [.out, .mem, .tiles, .mesh, .lp, .brd, .fab, .hst, .que, .itl, .cry, .evt, .flog] s (State.mpaStore s a2 a3 a4 a5).2 := by
  unfold State.mpaStore
  repeat' first
    | with_reducible assumption
    | with_reducible exact Within.refl _ _
    | decide
    | with_reducible apply Within.step' (State.writeMpa_within _ _ _ _ _ _)
    | with_reducible refine Within.step' (Within.of_snd (State.writeMpa_within _ _ _ _ _ _) (by assumption)) ?_ ?_
    | split
    | dsimp only

theorem State.objSetState_within (s : State) (a2) (a3) (a4) (a5) :
    Within [.out, .mem, .tiles, .mesh, .lp, .brd, .fab, .hst, .que, .itl, .cry, .evt, .flog] s (State.objSetState s a2 a3 a4 a5) := by
  unfold State.objSetState
  repeat' first
    | with_reducible assumption
    | with_reducible exact Within.refl _ _
    | decide
    | with_reducible apply Within.step' (State.mpaStore_within _ _ _ _ _)
    | with_reducible refine Within.step' (Within.of_snd (State.mpaStore_within _ _ _ _ _) (by assumption)) ?_ ?_
    | split
    | dsimp only

theorem State.objSetRefs_within (s : State) (a2) (a3) (a4) :
    Within [.out, .mem, .tiles, .mesh, .lp, .brd, .fab, .hst, .que, .itl, .cry, .evt, .flog] s (State.objSetRefs s a2 a3 a4) := by
  unfold State.objSetRefs
  repeat' first
    | with_reducible assumption
    | with_reducible exact Within.refl _ _
    | decide
    | with_reducible apply Within.step' (State.mpaStore_within _ _ _ _ _)
    | with_reducible refine Within.step' (Within.of_snd (State.mpaStore_within _ _ _ _ _) (by assumption)) ?_ ?_
    | split
    | dsimp only

theorem State.takeRef_within (s : State) (a2) (a3) :
    Within [.out, .mem, .tiles, .mesh, .lp, .brd, .fab, .hst, .que, .itl, .cry, .evt, .flog] s (State.takeRef s a2 a3) := by
  unfold State.takeRef
  repeat' first
    | with_reducible assumption
    | with_reducible exact Within.refl _ _
    | decide
    | with_reducible apply Within.step' (State.objSetRefs_within _ _ _ _)
    | split
    | dsimp only

theorem State.unitSend_within (s : State) (a2) (a3) (a4) :
    Within [.out, .mesh] s (State.unitSend s a2 a3 a4) := by
  unfold State.unitSend
  repeat' first
    | with_reducible assumption
    | with_reducible exact Within.refl _ _
    | decide
    | with_reducible apply Within.step' (State.emit_within _ _)
    | with_reducible apply Within.step' (State.modMesh_within _ _)
    | with_reducible intro _
    | extract_lets
    | split
    | dsimp only

theorem State.parserWrite_within (s : State) (a2) (a3) (a4) (a5) (a6) (a7) :
    Within [.out, .mem, .tiles, .mesh, .lp, .brd, .fab, .hst, .que, .itl, .cry, .evt, .flog] s (State.parserWrite s a2 a3 a4 a5 a6 a7).2 := by
  unfold State.parserWrite
  repeat' first
    | with_reducible assumption
    | with_reducible exact Within.refl _ _
    | decide
    | with_reducible apply Within.step' (State.unitSend_within _ _ _ _)
    | with_reducible apply Within.step' (State.hostWrite_within _ _ _ _ _ _)
    | with_reducible apply Within.step' (State.mpaStore_within _ _ _ _ _)
    | with_reducible refine Within.step' (Within.of_snd (State.mpaStore_within _ _ _ _ _) (by assumption)) ?_ ?_
    | extract_lets
    | split
    | dsimp only

/-! ### Queues -/

theorem State.queueRecord_within (s : State) (a2) (a3) (a4) (a5) (a6) (a7) (a8) :
    Within [.out, .hst, .que, .evt, .flog] s (State.queueRecord s a2 a3 a4 a5 a6 a7 a8) := by
  unfold State.queueRecord
  repeat' first
    | with_reducible assumption
    | with_reducible exact Within.refl _ _
    | decide
    | with_reducible apply Within.step' (State.fqDrop_within _ _)
    | with_reducible apply Within.step' (State.fqWrite_within _ _ _ _ _ _ _ _)
    | with_reducible refine Within.ite ?_ ?_
    | with_reducible intro _
    | extract_lets
    | split
    | dsimp only

theorem State.queueRecordOf_within (s : State) (a2) (a3) (a4) :
    Within [.out, .hst, .que, .evt, .flog] s (State.queueRecordOf s a2 a3 a4) := by
  unfold State.queueRecordOf
  repeat' first
    | with_reducible assumption
    | with_reducible exact Within.refl _ _
    | decide
    | with_reducible apply Within.step' (State.fqDrop_within _ _)
    | with_reducible apply Within.step' (State.fqWrite_within _ _ _ _ _ _ _ _)
    | with_reducible refine Within.ite ?_ ?_
    | with_reducible intro _
    | split
    | dsimp only

theorem State.statusWrite_within (s : State) (a2) :
    Within [.out, .mem, .tiles, .mesh, .lp, .brd, .fab, .hst, .que, .itl, .cry, .evt, .flog] s (State.statusWrite s a2).2 := by
  unfold State.statusWrite
  repeat' first
    | with_reducible assumption
    | with_reducible exact Within.refl _ _
    | decide
    | with_reducible apply Within.step' (State.parserWrite_within _ _ _ _ _ _ _)
    | with_reducible refine Within.step' (Within.of_snd (State.parserWrite_within _ _ _ _ _ _ _) (by assumption)) ?_ ?_
    | extract_lets
    | split
    | dsimp only

theorem State.breakQueue_within (s : State) (a2) (a3) :
    Within [.out, .mem, .tiles, .mesh, .lp, .brd, .fab, .hst, .que, .itl, .cry, .evt, .flog] s (State.breakQueue s a2 a3) := by
  unfold State.breakQueue
  repeat' first
    | with_reducible assumption
    | with_reducible exact Within.refl _ _
    | decide
    | with_reducible apply Within.step' (State.queueRecord_within _ _ _ _ _ _ _ _)
    | with_reducible apply Within.step' (State.statusWrite_within _ _)
    | with_reducible refine Within.step' (Within.of_snd (State.statusWrite_within _ _) (by assumption)) ?_ ?_
    | with_reducible apply Within.step' (State.modQ_within _ _ _)
    | with_reducible refine Within.ite ?_ ?_
    | with_reducible refine Within.ite_snd ?_ ?_
    | with_reducible intro _
    | extract_lets
    | split
    | dsimp only

theorem State.setQueue_within (s : State) (a2) (a3) :
    Within [.out, .mem, .tiles, .mesh, .lp, .brd, .fab, .hst, .que, .itl, .cry, .evt, .flog] s (State.setQueue s a2 a3) := by
  unfold State.setQueue
  repeat' first
    | with_reducible assumption
    | with_reducible exact Within.refl _ _
    | decide
    | with_reducible apply Within.step' (State.breakQueue_within _ _ _)
    | with_reducible apply Within.step' (State.statusWrite_within _ _)
    | with_reducible refine Within.step' (Within.of_snd (State.statusWrite_within _ _) (by assumption)) ?_ ?_
    | with_reducible apply Within.step' (State.modQ_within _ _ _)
    | with_reducible refine Within.ite ?_ ?_
    | with_reducible intro _
    | extract_lets
    | split
    | dsimp only

theorem State.completionWrite_within (s : State) (a2) (a3) (a4) (a5) (a6) (a7) :
    Within [.out, .mem, .tiles, .mesh, .lp, .brd, .fab, .hst, .que, .itl, .cry, .evt, .flog] s (State.completionWrite s a2 a3 a4 a5 a6 a7) := by
  unfold State.completionWrite
  repeat' first
    | with_reducible assumption
    | with_reducible exact Within.refl _ _
    | decide
    | with_reducible apply State.when_within
    | with_reducible apply Within.step' (State.msix_within _ _ _ _)
    | with_reducible apply Within.step' (State.breakQueue_within _ _ _)
    | with_reducible apply Within.step' (State.parserWrite_within _ _ _ _ _ _ _)
    | with_reducible refine Within.step' (Within.of_snd (State.parserWrite_within _ _ _ _ _ _ _) (by assumption)) ?_ ?_
    | with_reducible refine Within.ite ?_ ?_
    | with_reducible intro _
    | extract_lets
    | split
    | dsimp only

theorem State.modCmd_within (s : State) (a2) (a3) (a4) :
    Within [.que] s (State.modCmd s a2 a3 a4) := by
  unfold State.modCmd
  repeat' first
    | with_reducible assumption
    | with_reducible exact Within.refl _ _
    | decide
    | with_reducible apply Within.step' (State.modQ_within _ _ _)
    | with_reducible refine Within.ite ?_ ?_
    | with_reducible intro _
    | split
    | dsimp only

theorem State.endCmd_within (s : State) (a2) (a3) (a4) (a5) (a6) :
    Within [.out, .mem, .tiles, .mesh, .lp, .brd, .fab, .hst, .que, .itl, .cry, .evt, .flog] s (State.endCmd s a2 a3 a4 a5 a6) := by
  unfold State.endCmd
  repeat' first
    | with_reducible assumption
    | with_reducible exact Within.refl _ _
    | decide
    | with_reducible apply Within.step' (State.completionWrite_within _ _ _ _ _ _ _)
    | with_reducible apply Within.step' (State.modQue_within _ _)
    | with_reducible apply Within.step' (State.modQ_within _ _ _)
    | with_reducible refine Within.ite ?_ ?_
    | with_reducible intro _
    | extract_lets
    | split
    | dsimp only

theorem State.freeDone_within (s : State) (a2) (a3) :
    Within [.out, .mem, .tiles, .mesh, .lp, .brd, .fab, .hst, .que, .itl, .cry, .evt, .flog] s (State.freeDone s a2 a3) := by
  unfold State.freeDone
  repeat' first
    | with_reducible assumption
    | with_reducible exact Within.refl _ _
    | decide
    | with_reducible apply Within.step' (State.endCmd_within _ _ _ _ _ _)
    | with_reducible apply Within.step' (State.objSetState_within _ _ _ _ _)
    | with_reducible refine Within.ite ?_ ?_
    | with_reducible intro _
    | extract_lets
    | split
    | dsimp only

theorem State.wakeRefs_within (s : State) (a2) :
    Within [.tiles] s (State.wakeRefs s a2) := by
  unfold State.wakeRefs
  repeat' first
    | with_reducible assumption
    | with_reducible exact Within.refl _ _
    | decide
    | with_reducible apply State.each_within
    | with_reducible apply Within.step' (State.modBank_within _ _ _ _)
    | with_reducible refine Within.ite ?_ ?_
    | with_reducible refine Within.ite_snd ?_ ?_
    | with_reducible intro _
    | extract_lets
    | split
    | dsimp only

theorem State.dropRef_within (s : State) (a2) (a3) :
    Within [.out, .mem, .tiles, .mesh, .lp, .brd, .fab, .hst, .que, .itl, .cry, .evt, .flog] s (State.dropRef s a2 a3) := by
  unfold State.dropRef
  repeat' first
    | with_reducible assumption
    | with_reducible exact Within.refl _ _
    | decide
    | with_reducible apply Within.step' (State.wakeRefs_within _ _)
    | with_reducible apply Within.step' (State.freeDone_within _ _ _)
    | with_reducible apply Within.step' (State.objSetRefs_within _ _ _ _)
    | extract_lets
    | split
    | dsimp only

theorem State.complete_within (s : State) (a2) (a3) (a4) (a5) (a6) :
    Within [.out, .mem, .tiles, .mesh, .lp, .brd, .fab, .hst, .que, .itl, .cry, .evt, .flog] s (State.complete s a2 a3 a4 a5 a6) := by
  unfold State.complete
  repeat' first
    | with_reducible assumption
    | with_reducible exact Within.refl _ _
    | decide
    | with_reducible apply State.each_within
    | with_reducible apply Within.step' (State.dropRef_within _ _ _)
    | with_reducible apply Within.step' (State.endCmd_within _ _ _ _ _ _)
    | with_reducible intro _
    | extract_lets
    | split
    | dsimp only

/-! ### Operands -/

theorem State.endWait_within (s : State) (a2) (a3) (a4) (a5) :
    Within [.tiles] s (State.endWait s a2 a3 a4 a5) := by
  unfold State.endWait
  repeat' first
    | with_reducible assumption
    | with_reducible exact Within.refl _ _
    | decide
    | with_reducible apply Within.step' (State.modTile_within _ _ _)
    | with_reducible intro _
    | extract_lets
    | split
    | dsimp only

/-! ### Sync -/

theorem State.syncStore_within (s : State) (a2) (a3) (a4) (a5) :
    Within [.out, .mem, .tiles, .mesh, .lp, .brd, .fab, .hst, .que, .itl, .cry, .evt, .flog] s (State.syncStore s a2 a3 a4 a5) := by
  unfold State.syncStore
  repeat' first
    | with_reducible assumption
    | with_reducible exact Within.refl _ _
    | decide
    | with_reducible apply Within.step' (State.writeMpa_within _ _ _ _ _ _)
    | with_reducible refine Within.step' (Within.of_snd (State.writeMpa_within _ _ _ _ _ _) (by assumption)) ?_ ?_
    | split
    | dsimp only

theorem State.waitEnds_within (s : State) (a2) (a3) :
    Within [.out, .mem, .tiles, .mesh, .lp, .brd, .fab, .hst, .que, .itl, .cry, .evt, .flog] s (State.waitEnds s a2 a3) := by
  unfold State.waitEnds
  repeat' first
    | with_reducible assumption
    | with_reducible exact Within.refl _ _
    | decide
    | with_reducible apply Within.step' (State.complete_within _ _ _ _ _ _)
    | with_reducible apply Within.step' (State.dropRef_within _ _ _)
    | with_reducible apply Within.step' (State.endWait_within _ _ _ _ _)
    | with_reducible apply Within.step' (State.modQue_within _ _)
    | with_reducible intro _
    | extract_lets
    | split
    | dsimp only

theorem State.signalFence_within (s : State) (a2) (a3) (a4) :
    Holds (fun x => Within [.out, .mem, .tiles, .mesh, .lp, .brd, .fab, .hst, .que, .itl, .cry, .evt, .flog] s x.2) (State.signalFence s a2 a3 a4) := by
  unfold State.signalFence
  repeat' first
    | with_reducible assumption
    | with_reducible exact Within.refl _ _
    | decide
    | with_reducible apply State.each_within
    | with_reducible apply Within.step' (State.waitEnds_within _ _ _)
    | with_reducible apply Within.step' (State.msix_within _ _ _ _)
    | with_reducible apply Within.step' (State.syncStore_within _ _ _ _ _)
    | with_reducible exact Holds.none
    | with_reducible refine Holds.some ?_
    | with_reducible refine Holds.map_state ?_ ?_
    | with_reducible refine Holds.map ?_
    | with_reducible refine Holds.bind ?_
    | with_reducible refine Within.ite ?_ ?_
    | with_reducible refine Within.ite_snd ?_ ?_
    | with_reducible intro _
    | extract_lets
    | split
    | dsimp only

theorem State.signalHandle_within (s : State) (a2) (a3) (a4) :
    Holds (fun x => Within [.out, .mem, .tiles, .mesh, .lp, .brd, .fab, .hst, .que, .itl, .cry, .evt, .flog] s x.2) (State.signalHandle s a2 a3 a4) := by
  unfold State.signalHandle
  try dsimp only
  repeat' first
    | with_reducible assumption
    | with_reducible exact Within.refl _ _
    | decide
    | with_reducible apply Holds.step2' (State.signalFence_within _ _ _ _)
    | with_reducible refine Holds.map2_state (State.signalFence_within _ _ _ _) ?_ ?_
    | with_reducible refine Within.step' (Holds.get2 (State.signalFence_within _ _ _ _) (by assumption)) ?_ ?_
    | with_reducible exact Holds.none
    | with_reducible refine Holds.some ?_
    | with_reducible refine Holds.map_state ?_ ?_
    | with_reducible refine Holds.map ?_
    | with_reducible refine Holds.bind ?_
    | split
    | dsimp only

theorem State.signalRef_within (s : State) (a2) (a3) (a4) :
    Holds (fun x => Within [.out, .mem, .tiles, .mesh, .lp, .brd, .fab, .hst, .que, .itl, .cry, .evt, .flog] s x.2) (State.signalRef s a2 a3 a4) := by
  unfold State.signalRef
  try dsimp only
  repeat' first
    | with_reducible assumption
    | with_reducible exact Within.refl _ _
    | decide
    | with_reducible apply Holds.step2' (State.signalFence_within _ _ _ _)
    | with_reducible refine Holds.map2_state (State.signalFence_within _ _ _ _) ?_ ?_
    | with_reducible refine Within.step' (Holds.get2 (State.signalFence_within _ _ _ _) (by assumption)) ?_ ?_
    | with_reducible exact Holds.none
    | with_reducible refine Holds.some ?_
    | with_reducible refine Holds.map_state ?_ ?_
    | with_reducible refine Holds.map ?_
    | with_reducible refine Holds.bind ?_
    | split
    | dsimp only

theorem State.semGrant_within (s : State) (a2) (a3) (a4) (a5) :
    Within [.out, .mem, .tiles, .mesh, .lp, .brd, .fab, .hst, .que, .itl, .cry, .evt, .flog] s (State.semGrant s a2 a3 a4 a5) := by
  induction a5 generalizing s a2 a3 a4 with
  | zero =>
    unfold State.semGrant
    try dsimp only
    repeat' first
      | with_reducible assumption
      | with_reducible exact Within.refl _ _
      | decide
      | with_reducible apply Within.step' (State.waitEnds_within _ _ _)
      | with_reducible apply Within.step' (State.syncStore_within _ _ _ _ _)
      | with_reducible refine Within.ite ?_ ?_
      | with_reducible intro _
      | split
      | dsimp only
  | succ n ih =>
    unfold State.semGrant
    try dsimp only
    repeat' first
      | with_reducible assumption
      | with_reducible exact Within.refl _ _
      | decide
      | with_reducible apply Within.step' (ih _ _ _ _)
      | with_reducible apply Within.step' (State.waitEnds_within _ _ _)
      | with_reducible apply Within.step' (State.syncStore_within _ _ _ _ _)
      | with_reducible refine Within.ite ?_ ?_
      | with_reducible intro _
      | split
      | dsimp only

theorem State.semRelease_within (s : State) (a2) (a3) (a4) (a5) :
    Holds (Within [.out, .mem, .tiles, .mesh, .lp, .brd, .fab, .hst, .que, .itl, .cry, .evt, .flog] s) (State.semRelease s a2 a3 a4 a5) := by
  unfold State.semRelease
  repeat' first
    | with_reducible assumption
    | with_reducible exact Within.refl _ _
    | decide
    | with_reducible apply Within.step' (State.semGrant_within _ _ _ _ _)
    | with_reducible apply Within.step' (State.syncStore_within _ _ _ _ _)
    | with_reducible exact Holds.none
    | with_reducible refine Holds.some ?_
    | with_reducible refine Holds.map_state ?_ ?_
    | with_reducible refine Holds.map ?_
    | with_reducible refine Holds.bind ?_
    | with_reducible refine Within.ite ?_ ?_
    | with_reducible refine Within.ite_snd ?_ ?_
    | with_reducible intro _
    | extract_lets
    | split
    | dsimp only

theorem State.dropBankWaits_within (s : State) (a2) (a3) :
    Within [.out, .mem, .tiles, .mesh, .lp, .brd, .fab, .hst, .que, .itl, .cry, .evt, .flog] s (State.dropBankWaits s a2 a3) := by
  unfold State.dropBankWaits
  repeat' first
    | with_reducible assumption
    | with_reducible exact Within.refl _ _
    | decide
    | with_reducible apply State.each_within
    | with_reducible apply Within.step' (State.dropRef_within _ _ _)
    | with_reducible apply Within.step' (State.modQue_within _ _)
    | with_reducible intro _
    | extract_lets
    | split
    | dsimp only

/-! ### Context -/

theorem State.dropMigration_within (s : State) (a2) (a3) :
    Within [.xlt] s (State.dropMigration s a2 a3) := by
  unfold State.dropMigration
  repeat' first
    | with_reducible assumption
    | with_reducible exact Within.refl _ _
    | decide
    | with_reducible apply Within.step' (State.modXlt_within _ _)
    | with_reducible intro _
    | extract_lets
    | split
    | dsimp only

theorem State.haltChan_within (s : State) (a2) (a3) (a4) :
    Within [.out, .mem, .tiles, .mesh, .lp, .brd, .fab, .hst, .que, .itl, .cry, .evt, .flog] s (State.haltChan s a2 a3 a4) := by
  unfold State.haltChan
  try dsimp only
  repeat' first
    | with_reducible assumption
    | with_reducible exact Within.refl _ _
    | decide
    | with_reducible apply Within.step' (State.dropRef_within _ _ _)
    | with_reducible apply Within.step' (State.modChan_within _ _ _ _)
    | with_reducible intro _
    | split
    | dsimp only

theorem State.purgeBank_within (s : State) (a2) (a3) :
    Within [.out, .mem, .tiles, .mesh, .lp, .xlt, .brd, .fab, .hst, .que, .itl, .cry, .evt, .flog] s (State.purgeBank s a2 a3) := by
  unfold State.purgeBank
  repeat' first
    | with_reducible assumption
    | with_reducible exact Within.refl _ _
    | decide
    | with_reducible apply State.each_within
    | with_reducible apply Within.step' (State.tileSignal_within _ _)
    | with_reducible apply Within.step' (State.modMesh_within _ _)
    | with_reducible apply Within.step' (State.dropMigration_within _ _ _)
    | with_reducible apply Within.step' (State.dropBankWaits_within _ _ _)
    | with_reducible apply Within.step' (State.haltChan_within _ _ _ _)
    | with_reducible apply Within.step' (State.modBank_within _ _ _ _)
    | with_reducible refine Within.ite ?_ ?_
    | with_reducible intro _
    | extract_lets
    | split
    | dsimp only

theorem State.emptyBank_within (s : State) (a2) (a3) :
    Within [.out, .tiles, .hst, .evt, .flog] s (State.emptyBank s a2 a3) := by
  unfold State.emptyBank
  repeat' first
    | with_reducible assumption
    | with_reducible exact Within.refl _ _
    | decide
    | with_reducible apply State.each_within
    | with_reducible apply Within.step' (State.tileSignal_within _ _)
    | with_reducible apply Within.step' (State.modBank_within _ _ _ _)
    | with_reducible apply Within.step' (State.modChan_within _ _ _ _)
    | with_reducible intro _
    | extract_lets
    | split
    | dsimp only

theorem State.loseContext_within (s : State) (a2) (a3) (a4) (a5) :
    Within [.out, .mem, .tiles, .mesh, .lp, .xlt, .brd, .fab, .hst, .que, .itl, .cry, .evt, .flog] s (State.loseContext s a2 a3 a4 a5) := by
  unfold State.loseContext
  repeat' first
    | with_reducible assumption
    | with_reducible exact Within.refl _ _
    | decide
    | with_reducible apply State.each_within
    | with_reducible apply Within.step' (State.dropMigration_within _ _ _)
    | with_reducible apply Within.step' (State.dropBankWaits_within _ _ _)
    | with_reducible apply Within.step' (State.complete_within _ _ _ _ _ _)
    | with_reducible apply Within.step' (State.purgeBank_within _ _ _)
    | with_reducible apply Within.step' (State.modRes_within _ _ _)
    | with_reducible refine Within.ite ?_ ?_
    | with_reducible intro _
    | extract_lets
    | split
    | dsimp only

theorem State.ctxFault_within (s : State) (a2) (a3) (a4) (a5) (a6) (a7) :
    Within [.out, .mem, .tiles, .mesh, .lp, .xlt, .brd, .fab, .hst, .que, .itl, .cry, .evt, .flog] s (State.ctxFault s a2 a3 a4 a5 a6 a7) := by
  unfold State.ctxFault
  repeat' first
    | with_reducible assumption
    | with_reducible exact Within.refl _ _
    | decide
    | with_reducible apply Within.step' (State.pulse_within _ _)
    | with_reducible apply Within.step' (State.modRes_within _ _ _)
    | with_reducible apply Within.step' (State.modQue_within _ _)
    | with_reducible apply Within.step' (State.loseContext_within _ _ _ _ _)
    | with_reducible apply Within.step' (State.fqWrite_within _ _ _ _ _ _ _ _)
    | with_reducible apply Within.step' (State.fqDrop_within _ _)
    | with_reducible refine Within.ite ?_ ?_
    | with_reducible intro _
    | extract_lets
    | split
    | dsimp only

theorem State.countLost_within (s : State) (a2) :
    Within [.rcv] s (State.countLost s a2) := by
  unfold State.countLost
  repeat' first
    | with_reducible assumption
    | with_reducible exact Within.refl _ _
    | decide
    | with_reducible apply Within.step' (State.modRcv_within _ _)
    | with_reducible intro _
    | split
    | dsimp only

theorem State.faultBank_within (s : State) (a2) (a3) (a4) (a5) :
    Within [.out, .mem, .tiles, .mesh, .lp, .brd, .fab, .hst, .que, .itl, .cry, .evt, .flog] s (State.faultBank s a2 a3 a4 a5) := by
  unfold State.faultBank
  repeat' first
    | with_reducible assumption
    | with_reducible exact Within.refl _ _
    | decide
    | with_reducible apply State.each_within
    | with_reducible apply Within.step' (State.tileSignal_within _ _)
    | with_reducible apply Within.step' (State.modChan_within _ _ _ _)
    | with_reducible apply Within.step' (State.haltChan_within _ _ _ _)
    | with_reducible apply Within.step' (State.modBank_within _ _ _ _)
    | with_reducible refine Within.ite ?_ ?_
    | with_reducible refine Within.ite_snd ?_ ?_
    | with_reducible intro _
    | extract_lets
    | split
    | dsimp only

theorem State.tileFault_within (s : State) (a2) (a3) (a4) (a5) :
    Within [.out, .mem, .tiles, .mesh, .lp, .xlt, .brd, .fab, .hst, .que, .itl, .rcv, .cry, .evt, .flog] s (State.tileFault s a2 a3 a4 a5) := by
  unfold State.tileFault
  repeat' first
    | with_reducible assumption
    | with_reducible exact Within.refl _ _
    | decide
    | with_reducible apply Within.step' (State.ctxFault_within _ _ _ _ _ _ _)
    | with_reducible apply Within.step' (State.countLost_within _ _)
    | with_reducible apply Within.step' (State.faultBank_within _ _ _ _ _)
    | with_reducible refine Within.ite ?_ ?_
    | with_reducible refine Within.ite_snd ?_ ?_
    | with_reducible intro _
    | extract_lets
    | split
    | dsimp only

theorem State.bankLost_within (s : State) (a2) (a3) (a4) (a5) :
    Within [.out, .mem, .tiles, .mesh, .lp, .xlt, .brd, .fab, .hst, .que, .itl, .rcv, .cry, .evt, .flog] s (State.bankLost s a2 a3 a4 a5) := by
  unfold State.bankLost
  repeat' first
    | with_reducible assumption
    | with_reducible exact Within.refl _ _
    | decide
    | with_reducible apply Within.step' (State.ctxFault_within _ _ _ _ _ _ _)
    | with_reducible apply Within.step' (State.countLost_within _ _)
    | with_reducible apply Within.step' (State.faultBank_within _ _ _ _ _)
    | with_reducible refine Within.ite ?_ ?_
    | with_reducible intro _
    | extract_lets
    | split
    | dsimp only

theorem State.xlatFaultBody_within (s : State) (a2) (a3) (a4) :
    Within [.out, .mem, .tiles, .mesh, .lp, .xlt, .brd, .fab, .hst, .que, .itl, .cry, .evt, .flog] s (State.xlatFaultBody s a2 a3 a4) := by
  unfold State.xlatFaultBody
  repeat' first
    | with_reducible assumption
    | with_reducible exact Within.refl _ _
    | decide
    | with_reducible apply Within.step' (State.ctxFault_within _ _ _ _ _ _ _)
    | with_reducible apply Within.step' (State.faultBank_within _ _ _ _ _)
    | with_reducible refine Within.ite ?_ ?_
    | with_reducible intro _
    | extract_lets
    | split
    | dsimp only

theorem State.xlatFault_within (s : State) (a2) (a3) (a4) (a5) (a6) :
    Within [.out, .mem, .tiles, .mesh, .lp, .xlt, .brd, .fab, .hst, .que, .itl, .cry, .evt, .flog] s (State.xlatFault s a2 a3 a4 a5 a6) := by
  unfold State.xlatFault
  repeat' first
    | with_reducible assumption
    | with_reducible exact Within.refl _ _
    | decide
    | with_reducible apply Within.step' (State.xlatFaultBody_within _ _ _ _)
    | split
    | dsimp only

theorem State.xlatFaultUnit_within (s : State) (a2) (a3) (a4) (a5) :
    Within [.out, .mem, .tiles, .mesh, .lp, .xlt, .brd, .fab, .hst, .que, .itl, .cry, .evt, .flog] s (State.xlatFaultUnit s a2 a3 a4 a5) := by
  unfold State.xlatFaultUnit
  repeat' first
    | with_reducible assumption
    | with_reducible exact Within.refl _ _
    | decide
    | with_reducible apply Within.step' (State.ctxFault_within _ _ _ _ _ _ _)
    | split
    | dsimp only

theorem State.queueFault_within (s : State) (a2) (a3) (a4) (a5) :
    Within [.out, .mem, .tiles, .mesh, .lp, .xlt, .brd, .fab, .hst, .que, .itl, .cry, .evt, .flog] s (State.queueFault s a2 a3 a4 a5) := by
  unfold State.queueFault
  repeat' first
    | with_reducible assumption
    | with_reducible exact Within.refl _ _
    | decide
    | with_reducible apply Within.step' (State.ctxFault_within _ _ _ _ _ _ _)
    | extract_lets
    | split
    | dsimp only

theorem State.drainHeld_within (s : State) (a2) (a3) (a4) :
    Within [.out, .mem, .tiles, .mesh, .lp, .xlt, .brd, .fab, .hst, .que, .itl, .cry, .evt, .flog] s (State.drainHeld s a2 a3 a4) := by
  induction a4 generalizing s a2 a3 with
  | zero =>
    unfold State.drainHeld
    try dsimp only
    repeat' first
      | with_reducible assumption
      | with_reducible exact Within.refl _ _
      | decide
      | with_reducible apply Within.step' (State.loseContext_within _ _ _ _ _)
      | with_reducible apply Within.step' (State.modRes_within _ _ _)
      | with_reducible apply Within.step' (State.fqWrite_within _ _ _ _ _ _ _ _)
      | with_reducible exact Holds.none
      | with_reducible refine Holds.some ?_
      | with_reducible refine Holds.map_state ?_ ?_
      | with_reducible refine Holds.map ?_
      | with_reducible refine Holds.bind ?_
      | with_reducible refine Within.foldl_snd ?_ ?_
      | with_reducible refine Within.ite ?_ ?_
      | with_reducible intro _
      | extract_lets
      | split
      | dsimp only
  | succ n ih =>
    unfold State.drainHeld
    try dsimp only
    repeat' first
      | with_reducible assumption
      | with_reducible exact Within.refl _ _
      | decide
      | with_reducible apply Within.step' (ih _ _ _)
      | with_reducible apply Within.step' (State.loseContext_within _ _ _ _ _)
      | with_reducible apply Within.step' (State.modRes_within _ _ _)
      | with_reducible apply Within.step' (State.fqWrite_within _ _ _ _ _ _ _ _)
      | with_reducible exact Holds.none
      | with_reducible refine Holds.some ?_
      | with_reducible refine Holds.map_state ?_ ?_
      | with_reducible refine Holds.map ?_
      | with_reducible refine Holds.bind ?_
      | with_reducible refine Within.foldl_snd ?_ ?_
      | with_reducible refine Within.ite ?_ ?_
      | with_reducible intro _
      | extract_lets
      | split
      | dsimp only

theorem State.endQueue_within (s : State) (a2) (a3) :
    Within [.out, .mem, .tiles, .mesh, .lp, .brd, .fab, .hst, .que, .itl, .cry, .evt, .flog] s (State.endQueue s a2 a3) := by
  unfold State.endQueue
  repeat' first
    | with_reducible assumption
    | with_reducible exact Within.refl _ _
    | decide
    | with_reducible apply State.when_within
    | with_reducible apply State.each_within
    | with_reducible apply Within.step' (State.modQ_within _ _ _)
    | with_reducible apply Within.step' (State.modQue_within _ _)
    | with_reducible apply Within.step' (State.statusWrite_within _ _)
    | with_reducible refine Within.step' (Within.of_snd (State.statusWrite_within _ _) (by assumption)) ?_ ?_
    | with_reducible apply Within.step' (State.complete_within _ _ _ _ _ _)
    | with_reducible intro _
    | extract_lets
    | split
    | dsimp only

/-! ### Commit -/

theorem State.srmGo_within (s : State) (a2) :
    Within [.tiles] s (State.srmGo s a2) := by
  unfold State.srmGo
  repeat' first
    | with_reducible assumption
    | with_reducible exact Within.refl _ _
    | decide
    | with_reducible apply Within.step' (State.modSrm_within _ _ _)
    | with_reducible refine Within.ite ?_ ?_
    | with_reducible intro _
    | extract_lets
    | split
    | dsimp only

theorem State.memGo_within (s : State) :
    Within [.lp] s (State.memGo s) := by
  unfold State.memGo
  repeat' first
    | with_reducible assumption
    | with_reducible exact Within.refl _ _
    | decide
    | with_reducible apply Within.step' (State.modLp_within _ _)
    | with_reducible refine Within.ite ?_ ?_
    | with_reducible refine Within.ite_snd ?_ ?_
    | with_reducible intro _
    | split
    | dsimp only

theorem State.xltGo_within (s : State) :
    Within [.xlt] s (State.xltGo s) := by
  unfold State.xltGo
  repeat' first
    | with_reducible assumption
    | with_reducible exact Within.refl _ _
    | decide
    | with_reducible apply Within.step' (State.modXlt_within _ _)
    | with_reducible refine Within.ite ?_ ?_
    | with_reducible refine Within.ite_snd ?_ ?_
    | with_reducible intro _
    | split
    | dsimp only

theorem State.fabGo_within (s : State) :
    Within [.fab] s (State.fabGo s) := by
  unfold State.fabGo
  repeat' first
    | with_reducible assumption
    | with_reducible exact Within.refl _ _
    | decide
    | with_reducible apply Within.step' (State.modFab_within _ _)
    | with_reducible refine Within.ite ?_ ?_
    | with_reducible refine Within.ite_snd ?_ ?_
    | with_reducible intro _
    | split
    | dsimp only

theorem State.lnkGo_within (s : State) (a2) :
    Within [.lnk] s (State.lnkGo s a2) := by
  unfold State.lnkGo
  repeat' first
    | with_reducible assumption
    | with_reducible exact Within.refl _ _
    | decide
    | with_reducible apply Within.step' (State.modPort_within _ _ _)
    | with_reducible refine Within.ite ?_ ?_
    | with_reducible intro _
    | extract_lets
    | split
    | dsimp only

theorem State.queGo_within (s : State) :
    Within [.que] s (State.queGo s) := by
  unfold State.queGo
  repeat' first
    | with_reducible assumption
    | with_reducible exact Within.refl _ _
    | decide
    | with_reducible apply Within.step' (State.modQue_within _ _)
    | with_reducible refine Within.ite ?_ ?_
    | with_reducible refine Within.ite_snd ?_ ?_
    | with_reducible intro _
    | split
    | dsimp only

theorem State.seqGo_within (s : State) :
    Within [.sched] s (State.seqGo s) := by
  unfold State.seqGo
  repeat' first
    | with_reducible assumption
    | with_reducible exact Within.refl _ _
    | decide
    | with_reducible apply Within.step' (State.modSched_within _ _)
    | with_reducible refine Within.ite ?_ ?_
    | with_reducible refine Within.ite_snd ?_ ?_
    | with_reducible intro _
    | split
    | dsimp only

theorem State.cadGo_within (s : State) :
    Within [.cad] s (State.cadGo s) := by
  unfold State.cadGo
  repeat' first
    | with_reducible assumption
    | with_reducible exact Within.refl _ _
    | decide
    | with_reducible apply Within.step' (State.modCad_within _ _)
    | with_reducible refine Within.ite ?_ ?_
    | with_reducible refine Within.ite_snd ?_ ?_
    | with_reducible intro _
    | split
    | dsimp only

theorem State.pwrGo_within (s : State) :
    Within [.pwr] s (State.pwrGo s) := by
  unfold State.pwrGo
  repeat' first
    | with_reducible assumption
    | with_reducible exact Within.refl _ _
    | decide
    | with_reducible apply Within.step' (State.modPwr_within _ _)
    | with_reducible refine Within.ite ?_ ?_
    | with_reducible refine Within.ite_snd ?_ ?_
    | with_reducible intro _
    | split
    | dsimp only

theorem State.allRefuse_within (s : State) :
    Within [.tiles, .lp, .xlt, .brd, .fab] s (State.allRefuse s) := by
  unfold State.allRefuse
  try dsimp only
  repeat' first
    | with_reducible assumption
    | with_reducible exact Within.refl _ _
    | decide
    | with_reducible apply Within.step' (State.modBrd_within _ _)
    | with_reducible apply Within.step' (State.modFab_within _ _)
    | with_reducible apply Within.step' (State.modLp_within _ _)
    | with_reducible apply Within.step' (State.modXlt_within _ _)
    | with_reducible intro _
    | split
    | dsimp only
    | with_reducible apply Within.step' (State.tiles_set_within _ _)

theorem State.allAccept_within (s : State) :
    Within [.tiles, .lp, .xlt, .brd, .fab] s (State.allAccept s) := by
  unfold State.allAccept
  try dsimp only
  repeat' first
    | with_reducible assumption
    | with_reducible exact Within.refl _ _
    | decide
    | with_reducible apply Within.step' (State.modBrd_within _ _)
    | with_reducible apply Within.step' (State.modFab_within _ _)
    | with_reducible apply Within.step' (State.modLp_within _ _)
    | with_reducible apply Within.step' (State.modXlt_within _ _)
    | with_reducible intro _
    | split
    | dsimp only
    | with_reducible apply Within.step' (State.tiles_set_within _ _)

theorem State.brdRefused_within (s : State) (a2) :
    Within [.tiles, .lp, .xlt, .brd, .fab] s (State.brdRefused s a2) := by
  unfold State.brdRefused
  repeat' first
    | with_reducible assumption
    | with_reducible exact Within.refl _ _
    | decide
    | with_reducible apply Within.step' (State.modFab_within _ _)
    | with_reducible apply Within.step' (State.modTile_within _ _ _)
    | with_reducible apply Within.step' (State.modSrm_within _ _ _)
    | with_reducible apply Within.step' (State.modLp_within _ _)
    | with_reducible apply Within.step' (State.modXlt_within _ _)
    | with_reducible apply Within.step' (State.modBrd_within _ _)
    | with_reducible apply Within.step' (State.allRefuse_within _)
    | with_reducible refine Within.ite ?_ ?_
    | with_reducible intro _
    | extract_lets
    | split
    | dsimp only

theorem State.brdGo_within (s : State) :
    Within [.tiles, .lp, .xlt, .brd, .fab] s (State.brdGo s) := by
  unfold State.brdGo
  repeat' first
    | with_reducible assumption
    | with_reducible exact Within.refl _ _
    | decide
    | with_reducible apply Within.step' (State.allAccept_within _)
    | with_reducible apply Within.step' (State.brdRefused_within _ _)
    | with_reducible apply Within.step' (State.modBrd_within _ _)
    | with_reducible refine Within.ite ?_ ?_
    | with_reducible refine Within.ite_snd ?_ ?_
    | with_reducible intro _
    | split
    | dsimp only

/-! ### Change -/

theorem State.bridleChange_within (s : State) (a2) (a3) (a4) (a5) :
    Within [.tiles, .mesh, .xlt, .brd] s (State.bridleChange s a2 a3 a4 a5) := by
  unfold State.bridleChange
  repeat' first
    | with_reducible assumption
    | with_reducible exact Within.refl _ _
    | decide
    | with_reducible apply Within.step' (State.modFence_within _ _ _)
    | with_reducible apply Within.step' (State.modMesh_within _ _)
    | with_reducible apply Within.step' (State.dropLook_within _ _)
    | with_reducible apply Within.step' (State.modBrd_within _ _)
    | with_reducible refine Within.ite ?_ ?_
    | with_reducible intro _
    | extract_lets
    | split
    | dsimp only

theorem State.fenceDown_within (s : State) (a2) :
    Within [.brd] s (State.fenceDown s a2) := by
  unfold State.fenceDown
  repeat' first
    | with_reducible assumption
    | with_reducible exact Within.refl _ _
    | decide
    | with_reducible apply Within.step' (State.modFence_within _ _ _)
    | with_reducible refine Within.ite ?_ ?_
    | with_reducible refine Within.ite_snd ?_ ?_
    | with_reducible intro _
    | split
    | dsimp only

theorem State.bridleChanged_within (s : State) (a2) (a3) (a4) (a5) (a6) :
    Within [.out, .hst, .itl, .evt, .flog] s (State.bridleChanged s a2 a3 a4 a5 a6) := by
  unfold State.bridleChanged
  repeat' first
    | with_reducible assumption
    | with_reducible exact Within.refl _ _
    | decide
    | with_reducible apply Within.step' (State.notifyCid_within _ _ _ _)
    | with_reducible intro _
    | extract_lets
    | split
    | dsimp only

theorem State.itlumChange_within (s : State) (a2) (a3) (a4) (a5) :
    Within [.out, .tiles, .mesh, .xlt, .brd, .hst, .itl, .evt, .flog] s (State.itlumChange s a2 a3 a4 a5) := by
  unfold State.itlumChange
  repeat' first
    | with_reducible assumption
    | with_reducible exact Within.refl _ _
    | decide
    | with_reducible apply State.when_within
    | with_reducible apply Within.step' (State.bridleChange_within _ _ _ _ _)
    | with_reducible apply Within.step' (State.bridleChanged_within _ _ _ _ _ _)
    | with_reducible apply Within.step' (State.modFence_within _ _ _)
    | with_reducible intro _
    | extract_lets
    | split
    | dsimp only

theorem State.drain_within (s : State) (a2) (a3) :
    Within [.brd] s (State.drain s a2 a3) := by
  unfold State.drain
  repeat' first
    | with_reducible assumption
    | with_reducible exact Within.refl _ _
    | decide
    | with_reducible apply Within.step' (State.modBrd_within _ _)
    | with_reducible intro _
    | split
    | dsimp only

theorem State.startClear_within (s : State) (a2) :
    Within [.brd] s (State.startClear s a2) := by
  unfold State.startClear
  repeat' first
    | with_reducible assumption
    | with_reducible exact Within.refl _ _
    | decide
    | with_reducible apply Within.step' (State.modBrd_within _ _)
    | with_reducible refine Within.ite ?_ ?_
    | with_reducible intro _
    | split
    | dsimp only

theorem State.setFree_within (s : State) (a2) :
    Within [.brd] s (State.setFree s a2) := by
  unfold State.setFree
  repeat' first
    | with_reducible assumption
    | with_reducible exact Within.refl _ _
    | decide
    | with_reducible apply Within.step' (State.modBrd_within _ _)
    | with_reducible intro _
    | split
    | dsimp only

theorem State.hostLost_within (s : State) (a2) :
    Within [.hst] s (State.hostLost s a2) := by
  unfold State.hostLost
  repeat' first
    | with_reducible assumption
    | with_reducible exact Within.refl _ _
    | decide
    | with_reducible apply Within.step' (State.modHPort_within _ _ _)
    | with_reducible intro _
    | split
    | dsimp only

theorem State.hostIssue_within (s : State) (a2) :
    Within [.out, .hst, .evt, .flog] s (State.hostIssue s a2) := by
  unfold State.hostIssue
  repeat' first
    | with_reducible assumption
    | with_reducible exact Within.refl _ _
    | decide
    | with_reducible apply Within.step' (State.emit_within _ _)
    | with_reducible apply Within.step' (State.modHst_within _ _)
    | with_reducible apply Within.step' (State.atsAsk_within _ _ _ _ _)
    | with_reducible apply Within.step' (State.hostWriteAs_within _ _ _ _ _ _ _)
    | with_reducible apply Within.step' (State.hostLost_within _ _)
    | with_reducible exact Holds.none
    | with_reducible refine Holds.some ?_
    | with_reducible refine Holds.map_state ?_ ?_
    | with_reducible refine Holds.map ?_
    | with_reducible refine Holds.bind ?_
    | with_reducible refine Within.getD ?_ ?_
    | with_reducible refine Within.ite ?_ ?_
    | with_reducible intro _
    | extract_lets
    | split
    | dsimp only

theorem State.hostNext_within (s : State) :
    Within [.out, .hst, .evt, .flog] s (State.hostNext s) := by
  unfold State.hostNext
  repeat' first
    | with_reducible assumption
    | with_reducible exact Within.refl _ _
    | decide
    | with_reducible apply State.each_within
    | with_reducible apply Within.step' (State.hostIssue_within _ _)
    | with_reducible apply Within.step' (State.modHst_within _ _)
    | with_reducible intro _
    | extract_lets
    | split
    | dsimp only

theorem State.releaseHeld_within (s : State) (a2) :
    Within [.out, .mesh, .hst, .evt, .flog] s (State.releaseHeld s a2) := by
  unfold State.releaseHeld
  repeat' first
    | with_reducible assumption
    | with_reducible exact Within.refl _ _
    | decide
    | with_reducible apply State.each_within
    | with_reducible apply Within.step' (State.emit_within _ _)
    | with_reducible apply Within.step' (State.hostIssue_within _ _)
    | with_reducible apply Within.step' (State.modMesh_within _ _)
    | with_reducible refine Within.ite ?_ ?_
    | with_reducible intro _
    | extract_lets
    | split
    | dsimp only

theorem State.moveClears_within (s : State) (a2) :
    Within [.lp, .brd] s (State.moveClears s a2) := by
  unfold State.moveClears
  repeat' first
    | with_reducible assumption
    | with_reducible exact Within.refl _ _
    | decide
    | with_reducible apply Within.step' (State.modPair_within _ _ _)
    | with_reducible apply Within.step' (State.modMove_within _ _ _)
    | with_reducible refine Within.ite ?_ ?_
    | with_reducible intro _
    | extract_lets
    | split
    | dsimp only

theorem State.returnShares_within (s : State) (a2) (a3) :
    Within [.fab] s (State.returnShares s a2 a3) := by
  unfold State.returnShares
  repeat' first
    | with_reducible assumption
    | with_reducible exact Within.refl _ _
    | decide
    | with_reducible apply Within.step' (State.modFab_within _ _)
    | with_reducible intro _
    | extract_lets
    | split
    | dsimp only

theorem State.closePorts_within (s : State) (a2) (a3) :
    Within [.brd, .fab] s (State.closePorts s a2 a3) := by
  unfold State.closePorts
  repeat' first
    | with_reducible assumption
    | with_reducible exact Within.refl _ _
    | decide
    | with_reducible apply State.each_within
    | with_reducible apply Within.step' (State.setFree_within _ _)
    | with_reducible apply Within.step' (State.returnShares_within _ _ _)
    | with_reducible intro _
    | split
    | dsimp only

theorem State.fenceClose_within (s : State) (a2) :
    Within [.out, .mesh, .lp, .brd, .fab, .hst, .evt, .flog] s (State.fenceClose s a2) := by
  unfold State.fenceClose
  repeat' first
    | with_reducible assumption
    | with_reducible exact Within.refl _ _
    | decide
    | with_reducible apply Within.step' (State.moveClears_within _ _)
    | with_reducible apply Within.step' (State.releaseHeld_within _ _)
    | with_reducible apply Within.step' (State.modFence_within _ _ _)
    | with_reducible apply Within.step' (State.closePorts_within _ _ _)
    | with_reducible apply Within.step' (State.startClear_within _ _)
    | with_reducible intro _
    | extract_lets
    | split
    | dsimp only

/-! ### Ladder -/

theorem State.recBegin_within (s : State) (a2) (a3) (a4) (a5) :
    Within [.out, .hst, .que, .rcv, .evt, .flog] s (State.recBegin s a2 a3 a4 a5) := by
  unfold State.recBegin
  repeat' first
    | with_reducible assumption
    | with_reducible exact Within.refl _ _
    | decide
    | with_reducible apply Within.step' (State.moduleRecords_within _ _ _ _)
    | with_reducible apply Within.step' (State.log_within _ _ _ _ _)
    | with_reducible apply Within.step' (State.modRcv_within _ _)
    | with_reducible intro _
    | extract_lets
    | split
    | dsimp only

theorem State.recEnd_within (s : State) (a2) (a3) (a4) (a5) (a6) (a7) (a8) :
    Within [.out, .hst, .que, .evt, .flog] s (State.recEnd s a2 a3 a4 a5 a6 a7 a8) := by
  unfold State.recEnd
  repeat' first
    | with_reducible assumption
    | with_reducible exact Within.refl _ _
    | decide
    | with_reducible apply Within.step' (State.moduleRecords_within _ _ _ _)
    | with_reducible apply Within.step' (State.log_within _ _ _ _ _)
    | extract_lets
    | split
    | dsimp only

theorem State.isolate_within (s : State) (a2) (a3) :
    Within [.out, .tiles, .hst, .que, .rcv, .evt, .flog] s (State.isolate s a2 a3) := by
  unfold State.isolate
  repeat' first
    | with_reducible assumption
    | with_reducible exact Within.refl _ _
    | decide
    | with_reducible apply Within.step' (State.modRcv_within _ _)
    | with_reducible apply Within.step' (State.recBegin_within _ _ _ _ _)
    | with_reducible apply Within.step' (State.modTile_within _ _ _)
    | with_reducible refine Within.ite ?_ ?_
    | with_reducible refine Within.ite_snd ?_ ?_
    | with_reducible intro _
    | extract_lets
    | split
    | dsimp only

theorem State.rowNbr_within (s : State) (a2) (a3) :
    Within [.tiles] s (State.rowNbr s a2 a3) := by
  unfold State.rowNbr
  repeat' first
    | with_reducible assumption
    | with_reducible exact Within.refl _ _
    | decide
    | with_reducible apply State.each_within
    | with_reducible apply Within.step' (State.modTile_within _ _ _)
    | with_reducible intro _
    | split
    | dsimp only

theorem State.loseQueues_within (s : State) (a2) :
    Within [.out, .mem, .tiles, .mesh, .lp, .brd, .fab, .hst, .que, .itl, .cry, .evt, .flog] s (State.loseQueues s a2) := by
  unfold State.loseQueues
  repeat' first
    | with_reducible assumption
    | with_reducible exact Within.refl _ _
    | decide
    | with_reducible apply State.each_within
    | with_reducible apply Within.step' (State.queueRecordOf_within _ _ _ _)
    | with_reducible apply Within.step' (State.endQueue_within _ _ _)
    | with_reducible refine Within.ite ?_ ?_
    | with_reducible intro _
    | split
    | dsimp only

theorem State.renameTiles_within (s : State) (a2) :
    Within [.mesh, .lp, .xlt, .brd, .que, .rcv] s (State.renameTiles s a2) := by
  unfold State.renameTiles
  repeat' first
    | with_reducible assumption
    | with_reducible exact Within.refl _ _
    | decide
    | with_reducible apply Within.step' (State.modMesh_within _ _)
    | with_reducible apply Within.step' (State.modRcv_within _ _)
    | with_reducible apply Within.step' (State.modBrd_within _ _)
    | with_reducible apply Within.step' (State.modXlt_within _ _)
    | with_reducible apply Within.step' (State.modLp_within _ _)
    | with_reducible apply Within.step' (State.modQue_within _ _)
    | with_reducible intro _
    | extract_lets
    | split
    | dsimp only

theorem State.redirRow_within (s : State) (a2) (a3) (a4) :
    Within [.brd] s (State.redirRow s a2 a3 a4) := by
  unfold State.redirRow
  repeat' first
    | with_reducible assumption
    | with_reducible exact Within.refl _ _
    | decide
    | with_reducible apply Within.step' (State.modBrd_within _ _)
    | with_reducible refine Within.foldl_snd ?_ ?_
    | with_reducible intro _
    | extract_lets
    | split
    | dsimp only

theorem State.holeChanges_within (s : State) :
    Within [.out, .tiles, .mesh, .xlt, .brd, .hst, .itl, .rcv, .evt, .flog] s (State.holeChanges s) := by
  unfold State.holeChanges
  repeat' first
    | with_reducible assumption
    | with_reducible exact Within.refl _ _
    | decide
    | with_reducible apply State.each_within
    | with_reducible apply Within.step' (State.itlumChange_within _ _ _ _ _)
    | with_reducible apply Within.step' (State.modRcv_within _ _)
    | with_reducible refine Within.ite ?_ ?_
    | with_reducible intro _
    | split
    | dsimp only

theorem State.makeHole_within (s : State) (a2) :
    Within [.out, .mem, .tiles, .mesh, .lp, .xlt, .brd, .fab, .hst, .que, .itl, .rcv, .cry, .evt, .flog] s (State.makeHole s a2) := by
  unfold State.makeHole
  repeat' first
    | with_reducible assumption
    | with_reducible exact Within.refl _ _
    | decide
    | with_reducible apply State.each_within
    | with_reducible apply Within.step' (State.tileSignal_within _ _)
    | with_reducible apply Within.step' (State.modTile_within _ _ _)
    | with_reducible apply Within.step' (State.loseQueues_within _ _)
    | with_reducible apply Within.step' (State.dropBankWaits_within _ _ _)
    | with_reducible apply Within.step' (State.holeChanges_within _)
    | with_reducible apply Within.step' (State.modRcv_within _ _)
    | with_reducible apply Within.step' (State.bankLost_within _ _ _ _ _)
    | with_reducible intro _
    | extract_lets
    | split
    | dsimp only

theorem State.leaveRow_within (s : State) (a2) (a3) :
    Within [.out, .mem, .tiles, .mesh, .lp, .xlt, .brd, .fab, .hst, .que, .itl, .rcv, .cry, .evt, .flog] s (State.leaveRow s a2 a3) := by
  unfold State.leaveRow
  repeat' first
    | with_reducible assumption
    | with_reducible exact Within.refl _ _
    | decide
    | with_reducible apply Within.step' (State.makeHole_within _ _)
    | with_reducible apply Within.step' (State.modRcv_within _ _)
    | with_reducible refine Within.ite ?_ ?_
    | with_reducible refine Within.ite_snd ?_ ?_
    | with_reducible intro _
    | extract_lets
    | split
    | dsimp only

theorem State.openShift_within (s : State) (a2) :
    Within [.out, .tiles, .mesh, .xlt, .brd, .hst, .itl, .evt, .flog] s (State.openShift s a2) := by
  unfold State.openShift
  repeat' first
    | with_reducible assumption
    | with_reducible exact Within.refl _ _
    | decide
    | with_reducible apply State.each_within
    | with_reducible apply Within.step' (State.itlumChange_within _ _ _ _ _)
    | with_reducible intro _
    | extract_lets
    | split
    | dsimp only

theorem State.endIsolation_within (s : State) (a2) (a3) (a4) :
    Within [.out, .hst, .que, .itl, .rcv, .evt, .flog] s (State.endIsolation s a2 a3 a4) := by
  unfold State.endIsolation
  repeat' first
    | with_reducible assumption
    | with_reducible exact Within.refl _ _
    | decide
    | with_reducible apply State.when_within
    | with_reducible apply Within.step' (State.opDone_within _ _ _ _ _ _ _)
    | with_reducible apply Within.step' (State.recEnd_within _ _ _ _ _ _ _ _)
    | with_reducible apply Within.step' (State.modRcv_within _ _)
    | with_reducible intro _
    | extract_lets
    | split
    | dsimp only

theorem State.rolesAfter_within (s : State) (a2) :
    Within [.tiles] s (State.rolesAfter s a2) := by
  unfold State.rolesAfter
  try dsimp only
  repeat' first
    | with_reducible assumption
    | with_reducible exact Within.refl _ _
    | decide
    | with_reducible apply State.each_within
    | with_reducible apply Within.step' (State.modTile_within _ _ _)
    | with_reducible intro _
    | split
    | dsimp only

theorem State.shiftNbr_within (s : State) (a2) :
    Within [.tiles] s (State.shiftNbr s a2) := by
  unfold State.shiftNbr
  repeat' first
    | with_reducible assumption
    | with_reducible exact Within.refl _ _
    | decide
    | with_reducible apply State.each_within
    | with_reducible apply Within.step' (State.modTile_within _ _ _)
    | with_reducible apply Within.step' (State.rolesAfter_within _ _)
    | with_reducible intro _
    | split
    | dsimp only

theorem State.commitShift_within (s : State) (a2) :
    Within [.tiles, .itl] s (State.commitShift s a2) := by
  unfold State.commitShift
  repeat' first
    | with_reducible assumption
    | with_reducible exact Within.refl _ _
    | decide
    | with_reducible apply State.each_within
    | with_reducible apply Within.step' (State.modItl_within _ _)
    | with_reducible apply Within.step' (State.modTile_within _ _ _)
    | with_reducible apply Within.step' (State.rolesAfter_within _ _)
    | with_reducible refine Within.ite ?_ ?_
    | with_reducible refine Within.ite_snd ?_ ?_
    | with_reducible intro _
    | extract_lets
    | split
    | dsimp only

theorem State.rowHoles_within (s : State) (a2) (a3) :
    Within [.out, .mem, .tiles, .mesh, .lp, .xlt, .brd, .fab, .hst, .que, .itl, .rcv, .cry, .evt, .flog] s (State.rowHoles s a2 a3) := by
  unfold State.rowHoles
  repeat' first
    | with_reducible assumption
    | with_reducible exact Within.refl _ _
    | decide
    | with_reducible apply State.each_within
    | with_reducible apply Within.step' (State.endIsolation_within _ _ _ _)
    | with_reducible apply Within.step' (State.rowNbr_within _ _ _)
    | with_reducible apply Within.step' (State.makeHole_within _ _)
    | with_reducible apply Within.step' (State.modRcv_within _ _)
    | with_reducible intro _
    | extract_lets
    | split
    | dsimp only

theorem State.finishShift_within (s : State) (a2) :
    Within [.out, .mem, .tiles, .mesh, .lp, .xlt, .brd, .fab, .hst, .que, .itl, .rcv, .cry, .evt, .flog] s (State.finishShift s a2) := by
  unfold State.finishShift
  repeat' first
    | with_reducible assumption
    | with_reducible exact Within.refl _ _
    | decide
    | with_reducible apply State.each_within
    | with_reducible apply Within.step' (State.rowHoles_within _ _ _)
    | with_reducible apply Within.step' (State.endIsolation_within _ _ _ _)
    | with_reducible apply Within.step' (State.fenceClose_within _ _)
    | with_reducible apply Within.step' (State.tileSignal_within _ _)
    | with_reducible apply Within.step' (State.redirRow_within _ _ _ _)
    | with_reducible apply Within.step' (State.renameTiles_within _ _)
    | with_reducible apply Within.step' (State.modTile_within _ _ _)
    | with_reducible apply Within.step' (State.copyMem_within _ _ _ _)
    | with_reducible apply Within.step' (State.clearMem_within _ _ _)
    | with_reducible apply Within.step' (State.modRcv_within _ _)
    | with_reducible refine Within.ite ?_ ?_
    | with_reducible refine Within.ite_snd ?_ ?_
    | with_reducible intro _
    | extract_lets
    | split
    | dsimp only

theorem State.cancelShift_within (s : State) (a2) :
    Within [.out, .mem, .tiles, .mesh, .lp, .xlt, .brd, .fab, .hst, .que, .itl, .rcv, .cry, .evt, .flog] s (State.cancelShift s a2) := by
  unfold State.cancelShift
  repeat' first
    | with_reducible assumption
    | with_reducible exact Within.refl _ _
    | decide
    | with_reducible apply State.each_within
    | with_reducible apply State.when_within
    | with_reducible apply Within.step' (State.endIsolation_within _ _ _ _)
    | with_reducible apply Within.step' (State.rowNbr_within _ _ _)
    | with_reducible apply Within.step' (State.makeHole_within _ _)
    | with_reducible apply Within.step' (State.fenceClose_within _ _)
    | with_reducible apply Within.step' (State.modTile_within _ _ _)
    | with_reducible apply Within.step' (State.modRcv_within _ _)
    | with_reducible intro _
    | extract_lets
    | split
    | dsimp only

theorem State.markDead_within (s : State) (a2) :
    Within [.tiles] s (State.markDead s a2) := by
  unfold State.markDead
  repeat' first
    | with_reducible assumption
    | with_reducible exact Within.refl _ _
    | decide
    | with_reducible apply State.each_within
    | with_reducible apply Within.step' (State.modTile_within _ _ _)
    | with_reducible refine Within.ite ?_ ?_
    | with_reducible refine Within.ite_snd ?_ ?_
    | with_reducible intro _
    | extract_lets
    | split
    | dsimp only

theorem State.spareShellFail_within (s : State) (a2) (a3) :
    Within [.out, .mem, .tiles, .mesh, .lp, .xlt, .brd, .fab, .hst, .que, .itl, .rcv, .cry, .evt, .flog] s (State.spareShellFail s a2 a3) := by
  unfold State.spareShellFail
  repeat' first
    | with_reducible assumption
    | with_reducible exact Within.refl _ _
    | decide
    | with_reducible apply State.each_within
    | with_reducible apply State.when_within
    | with_reducible apply Within.step' (State.cancelShift_within _ _)
    | with_reducible apply Within.step' (State.markDead_within _ _)
    | with_reducible apply Within.step' (State.modTile_within _ _ _)
    | with_reducible refine Within.ite ?_ ?_
    | with_reducible refine Within.ite_snd ?_ ?_
    | with_reducible intro _
    | extract_lets
    | split
    | dsimp only

theorem State.shellFail_within (s : State) (a2) (a3) :
    Within [.out, .mem, .tiles, .mesh, .lp, .xlt, .brd, .fab, .hst, .que, .itl, .rcv, .cry, .evt, .flog] s (State.shellFail s a2 a3) := by
  unfold State.shellFail
  repeat' first
    | with_reducible assumption
    | with_reducible exact Within.refl _ _
    | decide
    | with_reducible apply State.when_within
    | with_reducible apply State.each_within
    | with_reducible apply Within.step' (State.leaveRow_within _ _ _)
    | with_reducible apply Within.step' (State.markDead_within _ _)
    | with_reducible apply Within.step' (State.modTile_within _ _ _)
    | with_reducible apply Within.step' (State.modMesh_within _ _)
    | with_reducible apply Within.step' (State.fenceDown_within _ _)
    | with_reducible apply Within.step' (State.loseQueues_within _ _)
    | with_reducible apply Within.step' (State.ctxFault_within _ _ _ _ _ _ _)
    | with_reducible apply Within.step' (State.countLost_within _ _)
    | with_reducible apply Within.step' (State.bankLost_within _ _ _ _ _)
    | with_reducible refine Within.ite ?_ ?_
    | with_reducible intro _
    | extract_lets
    | split
    | dsimp only

end Sys2Proof.Machine
end

