-- ==== Sys2Proof/Laws/WithinTile.lean ====
section
/-! SUPPORT. What the operations may touch: the tile: instructions, stream channels, handles, SRAM and LPDDR background work, the parser, the coder. Each lemma
names the blocks an operation stays within, and says that it keeps the memory canonical. -/

set_option linter.unusedTactic false
set_option linter.unreachableTactic false
set_option linter.unusedVariables false

namespace Sys2Proof.Machine

/-! ### Access -/

theorem State.issue_within (s : State) (a2) (a3) (a4) (a5) (a6) :
    Holds (Within [.out, .mesh, .hst, .evt, .flog] s) (State.issue s a2 a3 a4 a5 a6) := by
  unfold State.issue
  try dsimp only
  repeat' first
    | with_reducible assumption
    | with_reducible exact Within.refl _ _
    | decide
    | with_reducible apply Within.step' (State.hostIssue_within _ _)
    | with_reducible apply Within.step' (State.modMesh_within _ _)
    | with_reducible apply Within.step' (State.emit_within _ _)
    | with_reducible exact Holds.none
    | with_reducible refine Holds.some ?_
    | with_reducible refine Holds.map_state ?_ ?_
    | with_reducible refine Holds.map ?_
    | with_reducible refine Holds.bind ?_
    | with_reducible refine Within.ite ?_ ?_
    | with_reducible refine Within.ite_snd ?_ ?_
    | with_reducible intro _
    | split
    | dsimp only

theorem State.sendPage_within (s : State) (a2) (a3) :
    Within [.out, .xlt] s (State.sendPage s a2 a3) := by
  unfold State.sendPage
  repeat' first
    | with_reducible assumption
    | with_reducible exact Within.refl _ _
    | decide
    | with_reducible apply Within.step' (State.emit_within _ _)
    | with_reducible apply Within.step' (State.modXlt_within _ _)
    | with_reducible exact Holds.none
    | with_reducible refine Holds.some ?_
    | with_reducible refine Holds.map_state ?_ ?_
    | with_reducible refine Holds.map ?_
    | with_reducible refine Holds.bind ?_
    | with_reducible refine Within.getD ?_ ?_
    | with_reducible refine Within.ite ?_ ?_
    | with_reducible intro _
    | extract_lets
    | split
    | dsimp only

theorem State.migFault_within (s : State) (a2) (a3) (a4) (a5) (a6) (a7) (a8) (a9) (a10) (a11) :
    Within [.out, .mem, .tiles, .mesh, .lp, .xlt, .brd, .fab, .hst, .que, .itl, .cry, .evt, .flog] s (State.migFault s a2 a3 a4 a5 a6 a7 a8 a9 a10 a11) := by
  unfold State.migFault
  repeat' first
    | with_reducible assumption
    | with_reducible exact Within.refl _ _
    | decide
    | with_reducible apply Within.step' (State.sendPage_within _ _ _)
    | with_reducible apply Within.step' (State.modXlt_within _ _)
    | with_reducible apply Within.step' (State.modBank_within _ _ _ _)
    | with_reducible apply Within.step' (State.xlatFaultBody_within _ _ _ _)
    | with_reducible refine Within.ite ?_ ?_
    | with_reducible intro _
    | extract_lets
    | split
    | dsimp only

theorem State.tileAccess_within {M : List Block} {s0 s : State} (a2) (a3) (a4) (a5) (a6) (a7) (a8) (a9) (a10) (a11) (h : Within M s0 s)
    (hM : Block.sub [.out, .mem, .tiles, .mesh, .lp, .xlt, .brd, .fab, .hst, .que, .itl, .cry, .evt, .flog] M = true) (ha11 : ∀ x0 x1, Within M s0 x1 → Within M s0 (a11 x0 x1)) :
    Within M s0 (State.tileAccess s a2 a3 a4 a5 a6 a7 a8 a9 a10 a11) := by
  unfold State.tileAccess
  repeat' first
    | with_reducible assumption
    | exact Block.sub_trans (by decide) hM
    | with_reducible apply ha11
    | with_reducible apply State.each_within
    | with_reducible apply Within.step' (State.modXlt_within _ _)
    | with_reducible apply Within.step' (State.migFault_within _ _ _ _ _ _ _ _ _ _ _)
    | with_reducible apply Within.step' (State.xlatFault_within _ _ _ _ _ _)
    | with_reducible apply Within.step' (State.countWalk_within _ _ _ _ _ _ _)
    | with_reducible apply Within.step' (State.install_within _ _ _)
    | with_reducible apply Within.step' (State.cacheWalk_within _ _ _ _ _)
    | with_reducible apply Within.step' (State.modBank_within _ _ _ _)
    | with_reducible refine OutIn.next ?_
    | with_reducible exact Holds.none
    | with_reducible refine Holds.some ?_
    | with_reducible refine Holds.map_state ?_ ?_
    | with_reducible refine Holds.map ?_
    | with_reducible refine Holds.bind ?_
    | with_reducible refine Within.getD ?_ ?_
    | with_reducible refine Within.ite ?_ ?_
    | with_reducible refine Within.ite_snd ?_ ?_
    | with_reducible intro _
    | extract_lets
    | split
    | dsimp only

/-! ### Scalar -/

theorem State.run_within {M : List Block} {s0 s : State} (a2) (a3) (a4) (h : Within M s0 s)
    (hM : Block.sub [.out, .mem, .tiles, .mesh, .lp, .xlt, .brd, .fab, .hst, .que, .itl, .rcv, .cry, .evt, .flog] M = true) (ha4 : ∀ x0 x1, Within M s0 x1 → Within M s0 (a4 x0 x1)) :
    Within M s0 (State.run s a2 a3 a4) := by
  unfold State.run
  repeat' first
    | with_reducible assumption
    | exact Block.sub_trans (by decide) hM
    | with_reducible apply ha4
    | with_reducible apply Within.step' (State.tileFault_within _ _ _ _ _)
    | with_reducible refine OutIn.next ?_
    | with_reducible exact Holds.none
    | with_reducible refine Holds.some ?_
    | with_reducible refine Holds.map_state ?_ ?_
    | with_reducible refine Holds.map ?_
    | with_reducible refine Holds.bind ?_
    | with_reducible refine Within.getD ?_ ?_
    | with_reducible refine Within.ite ?_ ?_
    | with_reducible refine Within.ite_snd ?_ ?_
    | with_reducible intro _
    | extract_lets
    | split
    | dsimp only

theorem State.illegal_within (s : State) (a2) (a3) :
    Within [.out, .mem, .tiles, .mesh, .lp, .xlt, .brd, .fab, .hst, .que, .itl, .rcv, .cry, .evt, .flog] s (State.illegal s a2 a3) := by
  unfold State.illegal
  repeat' first
    | with_reducible assumption
    | with_reducible exact Within.refl _ _
    | decide
    | with_reducible apply Within.step' (State.tileFault_within _ _ _ _ _)
    | split
    | dsimp only

theorem State.done_within (s : State) (a2) (a3) (a4) :
    Within [.tiles] s (State.done s a2 a3 a4) := by
  unfold State.done
  repeat' first
    | with_reducible assumption
    | with_reducible exact Within.refl _ _
    | decide
    | with_reducible apply Within.step' (State.modBank_within _ _ _ _)
    | with_reducible intro _
    | split
    | dsimp only

theorem State.goto_within (s : State) (a2) (a3) (a4) (a5) :
    Within [.out, .mem, .tiles, .mesh, .lp, .xlt, .brd, .fab, .hst, .que, .itl, .rcv, .cry, .evt, .flog] s (State.goto s a2 a3 a4 a5) := by
  unfold State.goto
  repeat' first
    | with_reducible assumption
    | with_reducible exact Within.refl _ _
    | decide
    | with_reducible apply Within.step' (State.modBank_within _ _ _ _)
    | with_reducible apply Within.step' (State.illegal_within _ _ _)
    | with_reducible refine Within.ite ?_ ?_
    | with_reducible refine Within.ite_snd ?_ ?_
    | with_reducible intro _
    | split
    | dsimp only

theorem State.scalarRun_within (s : State) (a2) (a3) (a4) :
    Within [.out, .mem, .tiles, .mesh, .lp, .xlt, .brd, .fab, .hst, .que, .itl, .rcv, .cry, .evt, .flog] s (State.scalarRun s a2 a3 a4) := by
  unfold State.scalarRun
  repeat' first
    | with_reducible assumption
    | with_reducible exact Within.refl _ _
    | decide
    | with_reducible apply State.run_within
    | with_reducible apply Within.step' (State.illegal_within _ _ _)
    | with_reducible apply Within.step' (State.goto_within _ _ _ _ _)
    | with_reducible apply Within.step' (State.done_within _ _ _ _)
    | with_reducible refine Within.ite ?_ ?_
    | with_reducible intro _
    | split
    | dsimp only

theorem State.memEnd_within (s : State) (a2) (a3) (a4) (a5) :
    Within [.tiles] s (State.memEnd s a2 a3 a4 a5) := by
  unfold State.memEnd
  repeat' first
    | with_reducible assumption
    | with_reducible exact Within.refl _ _
    | decide
    | with_reducible apply Within.step' (State.modTile_within _ _ _)
    | with_reducible intro _
    | split
    | dsimp only

theorem State.ownLine_within (s : State) (a2) (a3) (a4) (a5) (a6) (a7) (a8) (a9) (a10) :
    Within [.mem, .tiles, .mesh] s (State.ownLine s a2 a3 a4 a5 a6 a7 a8 a9 a10).2 := by
  unfold State.ownLine
  repeat' first
    | with_reducible assumption
    | with_reducible exact Within.refl _ _
    | decide
    | with_reducible apply Within.step' (State.sramWrite_within _ _ _ _ _ _)
    | with_reducible refine Within.step' (Within.of_snd (State.sramWrite_within _ _ _ _ _ _) (by assumption)) ?_ ?_
    | with_reducible apply Within.step' (State.sramRead_within _ _ _ _)
    | with_reducible refine Within.step' (Within.of_snd2 (State.sramRead_within _ _ _ _) (by assumption)) ?_ ?_
    | with_reducible apply Within.step' (State.countRefused_within _ _)
    | with_reducible refine Within.ite ?_ ?_
    | with_reducible intro _
    | extract_lets
    | split
    | dsimp only

theorem State.farLine_within (s : State) (a2) (a3) (a4) (a5) (a6) (a7) (a8) (a9) (a10) :
    Holds (Within [.out, .mesh, .hst, .evt, .flog] s) (State.farLine s a2 a3 a4 a5 a6 a7 a8 a9 a10) := by
  unfold State.farLine
  repeat' first
    | with_reducible assumption
    | with_reducible exact Within.refl _ _
    | decide
    | with_reducible apply Holds.step' (State.issue_within _ _ _ _ _ _)
    | with_reducible refine Within.step' (Holds.get (State.issue_within _ _ _ _ _ _) (by assumption)) ?_ ?_
    | with_reducible exact Holds.none
    | with_reducible refine Holds.some ?_
    | with_reducible refine Holds.map_state ?_ ?_
    | with_reducible refine Holds.map ?_
    | with_reducible refine Holds.bind ?_
    | extract_lets
    | split
    | dsimp only

theorem Prog.line_within {M : List Block} {s0 : State} (a1 a2 a3 a4 a5 a6 a7) (p : Prog) (x : Nat × Nat × Nat)
    (h : Within M s0 p.s) (hM : Block.sub [.out, .mem, .tiles, .mesh, .hst, .evt, .flog] M = true) :
    Within M s0 (Prog.line a1 a2 a3 a4 a5 a6 a7 p x).s := by
  unfold Prog.line
  split
  · exact h
  · extract_lets own
    clear_value own
    split
    · exact Within.step' (State.ownLine_within _ _ _ _ _ _ _ _ _ _) h (Block.sub_trans (by decide) hM)
    · split
      · exact Within.step' (Holds.get (State.farLine_within _ _ _ _ _ _ _ _ _ _) (by assumption)) h (Block.sub_trans (by decide) hM)
      · exact h

theorem Prog.lines_within {M : List Block} {s0 : State} (a1 a2 a3 a4 a5 a6 a7) (l : List (Nat × Nat × Nat)) (p : Prog)
    (h : Within M s0 p.s) (hM : Block.sub [.out, .mem, .tiles, .mesh, .hst, .evt, .flog] M = true) :
    Within M s0 (l.foldl (Prog.line a1 a2 a3 a4 a5 a6 a7) p).s := by
  induction l generalizing p with
  | nil => exact h
  | cons x l ih => exact ih _ (Prog.line_within a1 a2 a3 a4 a5 a6 a7 p x h hM)

theorem State.lineGo_within (s : State) (a2 a3 a4 a5 a6 a7 a8 a9) :
    Within [.out, .mem, .tiles, .mesh, .lp, .xlt, .brd, .fab, .hst, .que, .itl, .rcv, .cry, .evt, .flog] s (State.lineGo s a2 a3 a4 a5 a6 a7 a8 a9) := by
  unfold State.lineGo
  repeat' first
    | with_reducible assumption
    | with_reducible exact Within.refl _ _
    | decide
    | with_reducible apply Within.step' (State.memEnd_within _ _ _ _ _)
    | with_reducible apply Within.step' (State.tileFault_within _ _ _ _ _)
    | with_reducible apply Within.step' (State.modBank_within _ _ _ _)
    | with_reducible apply Within.step' (State.modTile_within _ _ _)
    | with_reducible apply Prog.lines_within
    | with_reducible refine Within.ite ?_ ?_
    | with_reducible intro _
    | extract_lets
    | split
    | dsimp only

theorem State.memRun_within (s : State) (a2) (a3) (a4) (a5) (a6) (a7) :
    Within [.out, .mem, .tiles, .mesh, .lp, .xlt, .brd, .fab, .hst, .que, .itl, .rcv, .cry, .evt, .flog] s (State.memRun s a2 a3 a4 a5 a6 a7) := by
  unfold State.memRun
  repeat' first
    | with_reducible assumption
    | with_reducible exact Within.refl _ _
    | decide
    | with_reducible apply State.tileAccess_within
    | with_reducible apply Within.step' (State.lineGo_within _ _ _ _ _ _ _ _ _)
    | with_reducible intro _
    | split
    | dsimp only

theorem State.accessDone_within (s : State) (a2) (a3) (a4) :
    Within [.tiles] s (State.accessDone s a2 a3 a4) := by
  unfold State.accessDone
  repeat' first
    | with_reducible assumption
    | with_reducible exact Within.refl _ _
    | decide
    | with_reducible apply Within.step' (State.modBank_within _ _ _ _)
    | with_reducible apply Within.step' (State.memEnd_within _ _ _ _ _)
    | with_reducible refine Within.ite ?_ ?_
    | with_reducible intro _
    | split
    | dsimp only

theorem State.launchEnded_within (s : State) (a2) (a3) :
    Within [.out, .mem, .tiles, .mesh, .lp, .brd, .fab, .hst, .que, .itl, .cry, .evt, .flog] s (State.launchEnded s a2 a3) := by
  unfold State.launchEnded
  repeat' first
    | with_reducible assumption
    | with_reducible exact Within.refl _ _
    | decide
    | with_reducible apply State.each_within
    | with_reducible apply Within.step' (State.complete_within _ _ _ _ _ _)
    | with_reducible apply Within.step' (State.modCmd_within _ _ _ _)
    | with_reducible refine Within.ite ?_ ?_
    | with_reducible intro _
    | extract_lets
    | split
    | dsimp only

/-! ### Vector -/

theorem State.vecEnd_within (s : State) (a2) (a3) (a4) (a5) :
    Within [.tiles] s (State.vecEnd s a2 a3 a4 a5) := by
  unfold State.vecEnd
  repeat' first
    | with_reducible assumption
    | with_reducible exact Within.refl _ _
    | decide
    | with_reducible apply Within.step' (State.done_within _ _ _ _)
    | with_reducible intro _
    | extract_lets
    | split
    | dsimp only

theorem State.vecOp_within (s : State) (a2) (a3) (a4) (a5) :
    Within [.out, .mem, .tiles, .mesh, .lp, .xlt, .brd, .fab, .hst, .que, .itl, .rcv, .cry, .evt, .flog] s (State.vecOp s a2 a3 a4 a5) := by
  unfold State.vecOp
  try dsimp only
  repeat' first
    | with_reducible assumption
    | with_reducible exact Within.refl _ _
    | decide
    | with_reducible apply Within.step' (State.vecEnd_within _ _ _ _ _)
    | with_reducible apply Within.step' (State.tileFault_within _ _ _ _ _)
    | with_reducible exact Holds.none
    | with_reducible refine Holds.some ?_
    | with_reducible refine Holds.map_state ?_ ?_
    | with_reducible refine Holds.map ?_
    | with_reducible refine Holds.bind ?_
    | with_reducible refine Within.getD ?_ ?_
    | with_reducible refine Within.foldl_snd ?_ ?_
    | with_reducible refine Within.ite ?_ ?_
    | with_reducible intro _
    | split
    | dsimp only

theorem State.convRun_within (s : State) (a2) (a3) (a4) (a5) :
    Within [.out, .mem, .tiles, .mesh, .lp, .xlt, .brd, .fab, .hst, .que, .itl, .rcv, .cry, .evt, .flog] s (State.convRun s a2 a3 a4 a5) := by
  unfold State.convRun
  repeat' first
    | with_reducible assumption
    | with_reducible exact Within.refl _ _
    | decide
    | with_reducible apply Within.step' (State.vecEnd_within _ _ _ _ _)
    | with_reducible apply Within.step' (State.tileFault_within _ _ _ _ _)
    | with_reducible refine Within.ite ?_ ?_
    | with_reducible refine Within.ite_snd ?_ ?_
    | with_reducible intro _
    | extract_lets
    | split
    | dsimp only

theorem State.quantRun_within (s : State) (a2) (a3) (a4) (a5) :
    Within [.out, .mem, .tiles, .mesh, .lp, .xlt, .brd, .fab, .hst, .que, .itl, .rcv, .cry, .evt, .flog] s (State.quantRun s a2 a3 a4 a5) := by
  unfold State.quantRun
  repeat' first
    | with_reducible assumption
    | with_reducible exact Within.refl _ _
    | decide
    | with_reducible apply Within.step' (State.vecEnd_within _ _ _ _ _)
    | with_reducible apply Within.step' (State.tileFault_within _ _ _ _ _)
    | with_reducible refine Within.ite ?_ ?_
    | with_reducible refine Within.ite_snd ?_ ?_
    | with_reducible intro _
    | extract_lets
    | split
    | dsimp only

theorem State.linesCheck_within (s : State) (a2) (a3) (a4) (a5) :
    Within [.mem, .tiles] s (State.linesCheck s a2 a3 a4 a5).2 := by
  unfold State.linesCheck
  try dsimp only
  repeat' first
    | with_reducible assumption
    | with_reducible exact Within.refl _ _
    | decide
    | with_reducible apply Within.step' (State.sramCheck_within _ _ _ _)
    | with_reducible refine Within.step' (Within.of_snd (State.sramCheck_within _ _ _ _) (by assumption)) ?_ ?_
    | with_reducible exact Holds.none
    | with_reducible refine Holds.some ?_
    | with_reducible refine Holds.map_state ?_ ?_
    | with_reducible refine Holds.map ?_
    | with_reducible refine Holds.bind ?_
    | with_reducible refine Within.getD ?_ ?_
    | with_reducible refine Within.foldl_snd ?_ ?_
    | with_reducible refine Within.ite ?_ ?_
    | with_reducible intro _
    | split
    | dsimp only

theorem State.mmaRun_within (s : State) (a2) (a3) (a4) (a5) (a6) (a7) :
    Within [.out, .mem, .tiles, .mesh, .lp, .xlt, .brd, .fab, .hst, .que, .itl, .rcv, .cry, .evt, .flog] s (State.mmaRun s a2 a3 a4 a5 a6 a7) := by
  unfold State.mmaRun
  repeat' first
    | with_reducible assumption
    | with_reducible exact Within.refl _ _
    | decide
    | with_reducible apply Within.step' (State.vecEnd_within _ _ _ _ _)
    | with_reducible apply Within.step' (State.modTile_within _ _ _)
    | with_reducible apply Within.step' (State.tileFault_within _ _ _ _ _)
    | with_reducible apply Within.step' (State.linesCheck_within _ _ _ _ _)
    | with_reducible refine Within.step' (Within.of_snd (State.linesCheck_within _ _ _ _ _) (by assumption)) ?_ ?_
    | with_reducible refine Within.foldl_snd ?_ ?_
    | with_reducible refine Within.ite ?_ ?_
    | with_reducible intro _
    | extract_lets
    | split
    | dsimp only

/-! ### Stream -/

theorem State.countLines_within (s : State) (a2) (a3) (a4) :
    Within [.tiles] s (State.countLines s a2 a3 a4) := by
  unfold State.countLines
  repeat' first
    | with_reducible assumption
    | with_reducible exact Within.refl _ _
    | decide
    | with_reducible apply Within.step' (State.modBank_within _ _ _ _)
    | with_reducible apply Within.step' (State.modChan_within _ _ _ _)
    | with_reducible intro _
    | extract_lets
    | split
    | dsimp only

theorem State.writeBack_within (s : State) (a2) (a3) :
    Holds (Within [.out, .mem, .tiles, .mesh, .lp, .xlt, .brd, .fab, .hst, .que, .itl, .rcv, .cry, .evt, .flog] s) (State.writeBack s a2 a3) := by
  unfold State.writeBack
  repeat' first
    | with_reducible assumption
    | with_reducible exact Within.refl _ _
    | decide
    | with_reducible apply Holds.step' (State.issue_within _ _ _ _ _ _)
    | with_reducible refine Within.step' (Holds.get (State.issue_within _ _ _ _ _ _) (by assumption)) ?_ ?_
    | with_reducible apply Within.step' (State.tileFault_within _ _ _ _ _)
    | with_reducible apply Within.step' (State.writeMpa_within _ _ _ _ _ _)
    | with_reducible refine Within.step' (Within.of_snd (State.writeMpa_within _ _ _ _ _ _) (by assumption)) ?_ ?_
    | with_reducible exact Holds.none
    | with_reducible refine Holds.some ?_
    | with_reducible refine Holds.map_state ?_ ?_
    | with_reducible refine Holds.map ?_
    | with_reducible refine Holds.bind ?_
    | extract_lets
    | split
    | dsimp only

theorem State.wakeChan_within (s : State) (a2) (a3) :
    Within [.tiles] s (State.wakeChan s a2 a3) := by
  unfold State.wakeChan
  repeat' first
    | with_reducible assumption
    | with_reducible exact Within.refl _ _
    | decide
    | with_reducible apply State.each_within
    | with_reducible apply Within.step' (State.modTile_within _ _ _)
    | with_reducible refine Within.ite ?_ ?_
    | with_reducible intro _
    | split
    | dsimp only

theorem State.settleDone_within (s : State) (a2) (a3) :
    Within [.out, .mem, .tiles, .mesh, .lp, .xlt, .brd, .fab, .hst, .que, .itl, .rcv, .cry, .evt, .flog] s (State.settleDone s a2 a3) := by
  unfold State.settleDone
  repeat' first
    | with_reducible assumption
    | with_reducible exact Within.refl _ _
    | decide
    | with_reducible apply Within.step' (State.dropRef_within _ _ _)
    | with_reducible apply Within.step' (State.tileFault_within _ _ _ _ _)
    | with_reducible apply Holds.step2' (State.signalRef_within _ _ _ _)
    | with_reducible refine Holds.map2_state (State.signalRef_within _ _ _ _) ?_ ?_
    | with_reducible refine Within.step' (Holds.get2 (State.signalRef_within _ _ _ _) (by assumption)) ?_ ?_
    | with_reducible apply Within.step' (State.modChan_within _ _ _ _)
    | with_reducible apply Holds.step' (State.writeBack_within _ _ _)
    | with_reducible refine Within.step' (Holds.get (State.writeBack_within _ _ _) (by assumption)) ?_ ?_
    | with_reducible refine Within.ite ?_ ?_
    | with_reducible refine Within.ite_snd ?_ ?_
    | with_reducible intro _
    | extract_lets
    | split
    | dsimp only

theorem State.finishChan_within (s : State) (a2) (a3) :
    Within [.out, .mem, .tiles, .mesh, .lp, .xlt, .brd, .fab, .hst, .que, .itl, .rcv, .cry, .evt, .flog] s (State.finishChan s a2 a3) := by
  unfold State.finishChan
  try dsimp only
  repeat' first
    | with_reducible assumption
    | with_reducible exact Within.refl _ _
    | decide
    | with_reducible apply Within.step' (State.wakeChan_within _ _ _)
    | with_reducible apply Within.step' (State.settleDone_within _ _ _)
    | with_reducible apply Within.step' (State.modChan_within _ _ _ _)
    | with_reducible intro _
    | split
    | dsimp only

theorem State.copyPut_within (s : State) (a2) (a3) (a4) (a5) :
    Holds (Within [.out, .mem, .tiles, .mesh, .lp, .xlt, .brd, .fab, .hst, .que, .itl, .rcv, .cry, .evt, .flog] s) (State.copyPut s a2 a3 a4 a5) := by
  unfold State.copyPut
  try dsimp only
  repeat' first
    | with_reducible assumption
    | with_reducible exact Within.refl _ _
    | decide
    | with_reducible apply Holds.step' (State.issue_within _ _ _ _ _ _)
    | with_reducible refine Within.step' (Holds.get (State.issue_within _ _ _ _ _ _) (by assumption)) ?_ ?_
    | with_reducible apply Within.step' (State.countLines_within _ _ _ _)
    | with_reducible apply Within.step' (State.modChan_within _ _ _ _)
    | with_reducible apply Within.step' (State.tileFault_within _ _ _ _ _)
    | with_reducible apply Within.step' (State.writeMpa_within _ _ _ _ _ _)
    | with_reducible refine Within.step' (Within.of_snd (State.writeMpa_within _ _ _ _ _ _) (by assumption)) ?_ ?_
    | with_reducible exact Holds.none
    | with_reducible refine Holds.some ?_
    | with_reducible refine Holds.map_state ?_ ?_
    | with_reducible refine Holds.map ?_
    | with_reducible refine Holds.bind ?_
    | with_reducible refine Within.ite ?_ ?_
    | with_reducible intro _
    | split
    | dsimp only

theorem State.copyGet_within (s : State) (a2) (a3) (a4) :
    Holds (Within [.out, .mem, .tiles, .mesh, .lp, .xlt, .brd, .fab, .hst, .que, .itl, .rcv, .cry, .evt, .flog] s) (State.copyGet s a2 a3 a4) := by
  unfold State.copyGet
  try dsimp only
  repeat' first
    | with_reducible assumption
    | with_reducible exact Within.refl _ _
    | decide
    | with_reducible apply Holds.step' (State.issue_within _ _ _ _ _ _)
    | with_reducible refine Within.step' (Holds.get (State.issue_within _ _ _ _ _ _) (by assumption)) ?_ ?_
    | with_reducible apply Within.step' (State.tileFault_within _ _ _ _ _)
    | with_reducible apply Holds.step' (State.copyPut_within _ _ _ _ _)
    | with_reducible refine Within.step' (Holds.get (State.copyPut_within _ _ _ _ _) (by assumption)) ?_ ?_
    | with_reducible apply Within.step' (State.readMpa_within _ _ _ _ _)
    | with_reducible refine Within.step' (Within.of_snd2 (State.readMpa_within _ _ _ _ _) (by assumption)) ?_ ?_
    | with_reducible apply Within.step' (State.modChan_within _ _ _ _)
    | with_reducible exact Holds.none
    | with_reducible refine Holds.some ?_
    | with_reducible refine Holds.map_state ?_ ?_
    | with_reducible refine Holds.map ?_
    | with_reducible refine Holds.bind ?_
    | with_reducible refine Within.ite ?_ ?_
    | with_reducible intro _
    | split
    | dsimp only

theorem State.copyPump_within (s : State) (a2) (a3) (a4) (a5) :
    Within [.out, .mem, .tiles, .mesh, .lp, .xlt, .brd, .fab, .hst, .que, .itl, .rcv, .cry, .evt, .flog] s (State.copyPump s a2 a3 a4 a5) := by
  induction a5 generalizing s a2 a3 a4 with
  | zero =>
    unfold State.copyPump
    try dsimp only
    repeat' first
      | with_reducible assumption
      | with_reducible exact Within.refl _ _
      | decide
      | with_reducible apply Holds.step' (State.copyGet_within _ _ _ _)
      | with_reducible refine Within.step' (Holds.get (State.copyGet_within _ _ _ _) (by assumption)) ?_ ?_
      | with_reducible refine Within.ite ?_ ?_
      | with_reducible intro _
      | extract_lets
      | split
      | dsimp only
  | succ n ih =>
    unfold State.copyPump
    try dsimp only
    repeat' first
      | with_reducible assumption
      | with_reducible exact Within.refl _ _
      | decide
      | with_reducible apply Within.step' (ih _ _ _ _)
      | with_reducible apply Holds.step' (State.copyGet_within _ _ _ _)
      | with_reducible refine Within.step' (Holds.get (State.copyGet_within _ _ _ _) (by assumption)) ?_ ?_
      | with_reducible refine Within.ite ?_ ?_
      | with_reducible intro _
      | extract_lets
      | split
      | dsimp only

theorem State.copySettle_within (s : State) (a2) (a3) :
    Within [.out, .mem, .tiles, .mesh, .lp, .xlt, .brd, .fab, .hst, .que, .itl, .rcv, .cry, .evt, .flog] s (State.copySettle s a2 a3) := by
  unfold State.copySettle
  repeat' first
    | with_reducible assumption
    | with_reducible exact Within.refl _ _
    | decide
    | with_reducible apply Within.step' (State.finishChan_within _ _ _)
    | with_reducible refine Within.ite ?_ ?_
    | with_reducible intro _
    | extract_lets
    | split
    | dsimp only

theorem State.copyRun_within (s : State) (a2) (a3) (a4) :
    Within [.out, .mem, .tiles, .mesh, .lp, .xlt, .brd, .fab, .hst, .que, .itl, .rcv, .cry, .evt, .flog] s (State.copyRun s a2 a3 a4) := by
  unfold State.copyRun
  repeat' first
    | with_reducible assumption
    | with_reducible exact Within.refl _ _
    | decide
    | with_reducible apply Within.step' (State.copySettle_within _ _ _)
    | with_reducible apply Within.step' (State.copyPump_within _ _ _ _ _)
    | extract_lets
    | split
    | dsimp only

theorem State.pumpTile_within (s : State) (a2) :
    Within [.out, .mem, .tiles, .mesh, .lp, .xlt, .brd, .fab, .hst, .que, .itl, .rcv, .cry, .evt, .flog] s (State.pumpTile s a2) := by
  unfold State.pumpTile
  repeat' first
    | with_reducible assumption
    | with_reducible exact Within.refl _ _
    | decide
    | with_reducible apply State.each_within
    | with_reducible apply Within.step' (State.copyRun_within _ _ _ _)
    | with_reducible apply Within.step' (State.settleDone_within _ _ _)
    | with_reducible refine Within.ite ?_ ?_
    | with_reducible intro _
    | extract_lets
    | split
    | dsimp only

theorem State.pumpAll_within (s : State) :
    Within [.out, .mem, .tiles, .mesh, .lp, .xlt, .brd, .fab, .hst, .que, .itl, .rcv, .cry, .evt, .flog] s (State.pumpAll s) := by
  unfold State.pumpAll
  repeat' first
    | with_reducible assumption
    | with_reducible exact Within.refl _ _
    | decide
    | with_reducible apply State.each_within
    | with_reducible apply Within.step' (State.pumpTile_within _ _)
    | with_reducible intro _
    | split
    | dsimp only

theorem State.startChan_within (s : State) (a2) (a3) (a4) (a5) (a6) (a7) (a8) (a9) (a10) :
    Within [.out, .mem, .tiles, .mesh, .lp, .xlt, .brd, .fab, .hst, .que, .itl, .rcv, .cry, .evt, .flog] s (State.startChan s a2 a3 a4 a5 a6 a7 a8 a9 a10) := by
  unfold State.startChan
  repeat' first
    | with_reducible assumption
    | with_reducible exact Within.refl _ _
    | decide
    | with_reducible apply Within.step' (State.modTile_within _ _ _)
    | with_reducible apply Within.step' (State.tileFault_within _ _ _ _ _)
    | with_reducible apply Within.step' (State.emit_within _ _)
    | with_reducible apply Within.step' (State.copyRun_within _ _ _ _)
    | with_reducible apply Within.step' (State.modBank_within _ _ _ _)
    | with_reducible apply Within.step' (State.modChan_within _ _ _ _)
    | with_reducible apply Within.step' (State.takeRef_within _ _ _)
    | with_reducible exact Holds.none
    | with_reducible refine Holds.some ?_
    | with_reducible refine Holds.map_state ?_ ?_
    | with_reducible refine Holds.map ?_
    | with_reducible refine Holds.bind ?_
    | with_reducible refine Within.getD ?_ ?_
    | with_reducible refine Within.ite ?_ ?_
    | with_reducible refine Within.ite_snd ?_ ?_
    | with_reducible intro _
    | extract_lets
    | split
    | dsimp only

theorem State.startWith_within (s : State) (a2) (a3) (a4) (a5) (a6) (a7) (a8) (a9) (a10) (a11) :
    Within [.out, .mem, .tiles, .mesh, .lp, .xlt, .brd, .fab, .hst, .que, .itl, .rcv, .cry, .evt, .flog] s (State.startWith s a2 a3 a4 a5 a6 a7 a8 a9 a10 a11) := by
  unfold State.startWith
  repeat' first
    | with_reducible assumption
    | with_reducible exact Within.refl _ _
    | decide
    | with_reducible apply State.tileAccess_within
    | with_reducible apply Within.step' (State.illegal_within _ _ _)
    | with_reducible apply Within.step' (State.startChan_within _ _ _ _ _ _ _ _ _ _)
    | with_reducible apply Within.step' (State.tileFault_within _ _ _ _ _)
    | with_reducible refine Within.ite ?_ ?_
    | with_reducible refine Within.ite_snd ?_ ?_
    | with_reducible intro _
    | extract_lets
    | split
    | dsimp only

theorem State.startRun_within (s : State) (a2) (a3) (a4) (a5) (a6) (a7) (a8) (a9) :
    Within [.out, .mem, .tiles, .mesh, .lp, .xlt, .brd, .fab, .hst, .que, .itl, .rcv, .cry, .evt, .flog] s (State.startRun s a2 a3 a4 a5 a6 a7 a8 a9) := by
  unfold State.startRun
  try dsimp only
  repeat' first
    | with_reducible assumption
    | with_reducible exact Within.refl _ _
    | decide
    | with_reducible apply State.tileAccess_within
    | with_reducible apply Within.step' (State.modBank_within _ _ _ _)
    | with_reducible apply Within.step' (State.modChan_within _ _ _ _)
    | with_reducible apply Holds.step' (State.issue_within _ _ _ _ _ _)
    | with_reducible refine Within.step' (Holds.get (State.issue_within _ _ _ _ _ _) (by assumption)) ?_ ?_
    | with_reducible apply Within.step' (State.tileFault_within _ _ _ _ _)
    | with_reducible apply Within.step' (State.startWith_within _ _ _ _ _ _ _ _ _ _ _)
    | with_reducible apply Within.step' (State.readMpa_within _ _ _ _ _)
    | with_reducible refine Within.step' (Within.of_snd2 (State.readMpa_within _ _ _ _ _) (by assumption)) ?_ ?_
    | with_reducible apply Within.step' (State.illegal_within _ _ _)
    | with_reducible apply Within.step' (State.modTile_within _ _ _)
    | with_reducible refine Within.ite ?_ ?_
    | with_reducible intro _
    | split
    | dsimp only

theorem State.descArrives_within (s : State) (a2) (a3) (a4) (a5) (a6) (a7) :
    Within [.out, .mem, .tiles, .mesh, .lp, .xlt, .brd, .fab, .hst, .que, .itl, .rcv, .cry, .evt, .flog] s (State.descArrives s a2 a3 a4 a5 a6 a7) := by
  unfold State.descArrives
  repeat' first
    | with_reducible assumption
    | with_reducible exact Within.refl _ _
    | decide
    | with_reducible apply State.tileAccess_within
    | with_reducible apply Within.step' (State.startWith_within _ _ _ _ _ _ _ _ _ _ _)
    | with_reducible apply Within.step' (State.modTile_within _ _ _)
    | with_reducible apply Within.step' (State.modChan_within _ _ _ _)
    | with_reducible intro _
    | extract_lets
    | split
    | dsimp only

theorem State.creditWords_within (s : State) (a2) (a3) (a4) (a5) (a6) :
    Within [.out] s (State.creditWords s a2 a3 a4 a5 a6) := by
  induction a5 generalizing s a2 a3 a4 a6 with
  | zero =>
    unfold State.creditWords
    try dsimp only
    repeat' first
      | with_reducible assumption
      | with_reducible exact Within.refl _ _
      | decide
      | with_reducible apply Within.step' (State.emit_within _ _)
      | with_reducible refine Within.ite ?_ ?_
      | with_reducible intro _
      | extract_lets
      | split
      | dsimp only
  | succ n ih =>
    unfold State.creditWords
    try dsimp only
    repeat' first
      | with_reducible assumption
      | with_reducible exact Within.refl _ _
      | decide
      | with_reducible apply Within.step' (ih _ _ _ _ _)
      | with_reducible apply Within.step' (State.emit_within _ _)
      | with_reducible refine Within.ite ?_ ?_
      | with_reducible intro _
      | extract_lets
      | split
      | dsimp only

theorem State.returnCredits_within (s : State) (a2) (a3) (a4) (a5) :
    Within [.out, .tiles] s (State.returnCredits s a2 a3 a4 a5) := by
  unfold State.returnCredits
  repeat' first
    | with_reducible assumption
    | with_reducible exact Within.refl _ _
    | decide
    | with_reducible apply Within.step' (State.modChan_within _ _ _ _)
    | with_reducible apply Within.step' (State.creditWords_within _ _ _ _ _ _)
    | with_reducible intro _
    | extract_lets
    | split
    | dsimp only

theorem State.armRun_within (s : State) (a2) (a3) (a4) (a5) :
    Within [.out, .mem, .tiles, .mesh, .lp, .xlt, .brd, .fab, .hst, .que, .itl, .rcv, .cry, .evt, .flog] s (State.armRun s a2 a3 a4 a5) := by
  unfold State.armRun
  repeat' first
    | with_reducible assumption
    | with_reducible exact Within.refl _ _
    | decide
    | with_reducible apply Within.step' (State.done_within _ _ _ _)
    | with_reducible apply Within.step' (State.returnCredits_within _ _ _ _ _)
    | with_reducible apply Within.step' (State.modChan_within _ _ _ _)
    | with_reducible apply Within.step' (State.illegal_within _ _ _)
    | with_reducible refine Within.ite ?_ ?_
    | with_reducible intro _
    | extract_lets
    | split
    | dsimp only

theorem State.stopChan_within (s : State) (a2) (a3) :
    Within [.out, .mem, .tiles, .mesh, .lp, .xlt, .brd, .fab, .hst, .que, .itl, .rcv, .cry, .evt, .flog] s (State.stopChan s a2 a3) := by
  unfold State.stopChan
  repeat' first
    | with_reducible assumption
    | with_reducible exact Within.refl _ _
    | decide
    | with_reducible apply Within.step' (State.copySettle_within _ _ _)
    | with_reducible apply Within.step' (State.finishChan_within _ _ _)
    | with_reducible apply Within.step' (State.modChan_within _ _ _ _)
    | with_reducible refine Within.ite ?_ ?_
    | with_reducible intro _
    | extract_lets
    | split
    | dsimp only

theorem State.slotRun_within (s : State) (a2) (a3) :
    Within [.out, .mem, .tiles, .mesh, .lp, .xlt, .brd, .fab, .hst, .que, .itl, .rcv, .cry, .evt, .flog] s (State.slotRun s a2 a3) := by
  unfold State.slotRun
  repeat' first
    | with_reducible assumption
    | with_reducible exact Within.refl _ _
    | decide
    | with_reducible apply Within.step' (State.finishChan_within _ _ _)
    | with_reducible apply Within.step' (State.countLines_within _ _ _ _)
    | with_reducible apply Within.step' (State.modChan_within _ _ _ _)
    | with_reducible apply Within.step' (State.emit_within _ _)
    | with_reducible apply Within.step' (State.tileFault_within _ _ _ _ _)
    | with_reducible apply Within.step' (State.sramRead_within _ _ _ _)
    | with_reducible refine Within.step' (Within.of_snd2 (State.sramRead_within _ _ _ _) (by assumption)) ?_ ?_
    | with_reducible apply Within.step' (State.modBank_within _ _ _ _)
    | with_reducible refine Within.ite ?_ ?_
    | with_reducible intro _
    | extract_lets
    | split
    | dsimp only

theorem State.beatRun_within (s : State) (a2) (a3) (a4) (a5) :
    Within [.out, .mem, .tiles, .mesh, .lp, .xlt, .brd, .fab, .hst, .que, .itl, .rcv, .cry, .evt, .flog] s (State.beatRun s a2 a3 a4 a5) := by
  unfold State.beatRun
  repeat' first
    | with_reducible assumption
    | with_reducible exact Within.refl _ _
    | decide
    | with_reducible apply Within.step' (State.finishChan_within _ _ _)
    | with_reducible apply Within.step' (State.countLines_within _ _ _ _)
    | with_reducible apply Within.step' (State.modChan_within _ _ _ _)
    | with_reducible apply Within.step' (State.sramWrite_within _ _ _ _ _ _)
    | with_reducible refine Within.step' (Within.of_snd (State.sramWrite_within _ _ _ _ _ _) (by assumption)) ?_ ?_
    | with_reducible apply Within.step' (State.tileFault_within _ _ _ _ _)
    | with_reducible apply Within.step' (State.modMesh_within _ _)
    | with_reducible refine Within.ite ?_ ?_
    | with_reducible intro _
    | extract_lets
    | split
    | dsimp only

theorem State.pairRun_within (s : State) (a2) (a3) (a4) (a5) (a6) (a7) :
    Within [.out, .mem, .tiles, .mesh, .lp, .xlt, .brd, .fab, .hst, .que, .itl, .rcv, .cry, .evt, .flog] s (State.pairRun s a2 a3 a4 a5 a6 a7) := by
  unfold State.pairRun
  try dsimp only
  repeat' first
    | with_reducible assumption
    | with_reducible exact Within.refl _ _
    | decide
    | with_reducible apply Within.step' (State.tileFault_within _ _ _ _ _)
    | with_reducible apply Within.step' (State.modChan_within _ _ _ _)
    | with_reducible apply Within.step' (State.modTile_within _ _ _)
    | with_reducible refine Within.ite ?_ ?_
    | with_reducible intro _
    | split
    | dsimp only

theorem State.tileResponse_within (s : State) (a2) (a3) :
    Within [.out, .mem, .tiles, .mesh, .lp, .xlt, .brd, .fab, .hst, .que, .itl, .rcv, .cry, .evt, .flog] s (State.tileResponse s a2 a3) := by
  unfold State.tileResponse
  repeat' first
    | with_reducible assumption
    | with_reducible exact Within.refl _ _
    | decide
    | with_reducible apply Within.step' (State.descArrives_within _ _ _ _ _ _ _)
    | with_reducible apply Within.step' (State.copyRun_within _ _ _ _)
    | with_reducible apply Within.step' (State.countLines_within _ _ _ _)
    | with_reducible apply Within.step' (State.modChan_within _ _ _ _)
    | with_reducible apply Holds.step' (State.copyPut_within _ _ _ _ _)
    | with_reducible refine Within.step' (Holds.get (State.copyPut_within _ _ _ _ _) (by assumption)) ?_ ?_
    | with_reducible apply Within.step' (State.copySettle_within _ _ _)
    | with_reducible apply Within.step' (State.accessDone_within _ _ _ _)
    | with_reducible apply Within.step' (State.tileFault_within _ _ _ _ _)
    | with_reducible exact Holds.none
    | with_reducible refine Holds.some ?_
    | with_reducible refine Holds.map_state ?_ ?_
    | with_reducible refine Holds.map ?_
    | with_reducible refine Holds.bind ?_
    | with_reducible refine Within.getD ?_ ?_
    | with_reducible refine Within.ite ?_ ?_
    | with_reducible intro _
    | extract_lets
    | split
    | dsimp only

/-! ### Tile -/

theorem State.tilCtrl_within (s : State) (a2) (a3) :
    Within [.out, .mem, .tiles, .mesh, .lp, .xlt, .brd, .fab, .hst, .que, .itl, .rcv, .cry, .evt, .flog] s (State.tilCtrl s a2 a3) := by
  unfold State.tilCtrl
  repeat' first
    | with_reducible assumption
    | with_reducible exact Within.refl _ _
    | decide
    | with_reducible apply State.when_within
    | with_reducible apply Within.step' (State.pumpTile_within _ _)
    | with_reducible apply Within.step' (State.modTile_within _ _ _)
    | with_reducible refine Within.ite ?_ ?_
    | with_reducible refine Within.ite_snd ?_ ?_
    | with_reducible intro _
    | extract_lets
    | split
    | dsimp only

theorem State.bankCtrl_within (s : State) (a2) (a3) (a4) :
    Within [.out, .mem, .tiles, .mesh, .lp, .xlt, .brd, .fab, .hst, .que, .itl, .cry, .evt, .flog] s (State.bankCtrl s a2 a3 a4) := by
  unfold State.bankCtrl
  repeat' first
    | with_reducible assumption
    | with_reducible exact Within.refl _ _
    | decide
    | with_reducible apply State.when_within
    | with_reducible apply Within.step' (State.purgeBank_within _ _ _)
    | with_reducible apply Within.step' (State.modTile_within _ _ _)
    | with_reducible apply Within.step' (State.modBank_within _ _ _ _)
    | with_reducible refine Within.ite ?_ ?_
    | with_reducible intro _
    | extract_lets
    | split
    | dsimp only

theorem State.recoverPurged_within (s : State) (a2) (a3) :
    Within [.out, .hst, .itl] s (State.recoverPurged s a2 a3) := by
  unfold State.recoverPurged
  repeat' first
    | with_reducible assumption
    | with_reducible exact Within.refl _ _
    | decide
    | with_reducible apply Within.step' (State.opDone_within _ _ _ _ _ _ _)
    | with_reducible refine Within.ite ?_ ?_
    | with_reducible refine Within.ite_snd ?_ ?_
    | with_reducible intro _
    | split
    | dsimp only

/-! ### Handles -/

theorem State.handleFault_within (s : State) (a2) (a3) :
    Within [.out, .mem, .tiles, .mesh, .lp, .xlt, .brd, .fab, .hst, .que, .itl, .rcv, .cry, .evt, .flog] s (State.handleFault s a2 a3) := by
  unfold State.handleFault
  repeat' first
    | with_reducible assumption
    | with_reducible exact Within.refl _ _
    | decide
    | with_reducible apply Within.step' (State.tileFault_within _ _ _ _ _)
    | split
    | dsimp only

theorem State.status_within (s : State) (a2) (a3) (a4) (a5) :
    Within [.tiles] s (State.status s a2 a3 a4 a5) := by
  unfold State.status
  repeat' first
    | with_reducible assumption
    | with_reducible exact Within.refl _ _
    | decide
    | with_reducible apply Within.step' (State.done_within _ _ _ _)
    | with_reducible intro _
    | split
    | dsimp only

theorem State.waitOn_within (s : State) (a2) (a3) (a4) (a5) (a6) (a7) (a8) (a9) :
    Within [.out, .mem, .tiles, .mesh, .lp, .brd, .fab, .hst, .que, .itl, .cry, .evt, .flog] s (State.waitOn s a2 a3 a4 a5 a6 a7 a8 a9) := by
  unfold State.waitOn
  repeat' first
    | with_reducible assumption
    | with_reducible exact Within.refl _ _
    | decide
    | with_reducible apply Within.step' (State.modBank_within _ _ _ _)
    | with_reducible apply Within.step' (State.modQue_within _ _)
    | with_reducible apply Within.step' (State.takeRef_within _ _ _)
    | with_reducible refine Within.ite ?_ ?_
    | with_reducible intro _
    | extract_lets
    | split
    | dsimp only

theorem State.arriveRun_within (s : State) (a2) (a3) (a4) (a5) (a6) (a7) :
    Within [.out, .mem, .tiles, .mesh, .lp, .xlt, .brd, .fab, .hst, .que, .itl, .rcv, .cry, .evt, .flog] s (State.arriveRun s a2 a3 a4 a5 a6 a7) := by
  unfold State.arriveRun
  repeat' first
    | with_reducible assumption
    | with_reducible exact Within.refl _ _
    | decide
    | with_reducible apply State.tileAccess_within
    | with_reducible apply Within.step' (State.modBank_within _ _ _ _)
    | with_reducible apply Holds.step' (State.issue_within _ _ _ _ _ _)
    | with_reducible refine Within.step' (Holds.get (State.issue_within _ _ _ _ _ _) (by assumption)) ?_ ?_
    | with_reducible apply Within.step' (State.modTile_within _ _ _)
    | with_reducible apply Within.step' (State.illegal_within _ _ _)
    | with_reducible exact Holds.none
    | with_reducible refine Holds.some ?_
    | with_reducible refine Holds.map_state ?_ ?_
    | with_reducible refine Holds.map ?_
    | with_reducible refine Holds.bind ?_
    | with_reducible refine Within.getD ?_ ?_
    | with_reducible intro _
    | extract_lets
    | split
    | dsimp only

theorem State.barWaitRun_within (s : State) (a2) (a3) (a4) (a5) (a6) (a7) (a8) (a9) (a10) :
    Within [.out, .mem, .tiles, .mesh, .lp, .xlt, .brd, .fab, .hst, .que, .itl, .rcv, .cry, .evt, .flog] s (State.barWaitRun s a2 a3 a4 a5 a6 a7 a8 a9 a10) := by
  unfold State.barWaitRun
  repeat' first
    | with_reducible assumption
    | with_reducible exact Within.refl _ _
    | decide
    | with_reducible apply State.tileAccess_within
    | with_reducible apply Within.step' (State.modBank_within _ _ _ _)
    | with_reducible apply Within.step' (State.modTile_within _ _ _)
    | with_reducible apply Holds.step' (State.issue_within _ _ _ _ _ _)
    | with_reducible refine Within.step' (Holds.get (State.issue_within _ _ _ _ _ _) (by assumption)) ?_ ?_
    | with_reducible apply Within.step' (State.illegal_within _ _ _)
    | with_reducible refine Within.ite ?_ ?_
    | with_reducible refine Within.ite_snd ?_ ?_
    | with_reducible intro _
    | extract_lets
    | split
    | dsimp only

theorem State.barSees_within (s : State) (a2) (a3) (a4) (a5) :
    Within [.tiles] s (State.barSees s a2 a3 a4 a5) := by
  unfold State.barSees
  repeat' first
    | with_reducible assumption
    | with_reducible exact Within.refl _ _
    | decide
    | with_reducible apply Within.step' (State.endWait_within _ _ _ _ _)
    | with_reducible refine Within.ite ?_ ?_
    | with_reducible intro _
    | split
    | dsimp only

theorem State.barResponse_within (s : State) (a2) (a3) :
    Within [.out, .mem, .tiles, .mesh, .lp, .xlt, .brd, .fab, .hst, .que, .itl, .rcv, .cry, .evt, .flog] s (State.barResponse s a2 a3) := by
  unfold State.barResponse
  repeat' first
    | with_reducible assumption
    | with_reducible exact Within.refl _ _
    | decide
    | with_reducible apply Within.step' (State.barSees_within _ _ _ _ _)
    | with_reducible apply Within.step' (State.tileFault_within _ _ _ _ _)
    | with_reducible apply Within.step' (State.modTile_within _ _ _)
    | with_reducible refine Within.ite ?_ ?_
    | with_reducible intro _
    | extract_lets
    | split
    | dsimp only

theorem State.barLines_within (s : State) (a2) (a3) :
    Holds (fun x => Within [.out, .mem, .tiles, .mesh, .lp, .brd, .fab, .hst, .que, .itl, .cry, .evt, .flog] s x.2.2.2) (State.barLines s a2 a3) := by
  unfold State.barLines
  repeat' first
    | with_reducible assumption
    | with_reducible exact Within.refl _ _
    | decide
    | with_reducible apply Within.step' (State.readMpa_within _ _ _ _ _)
    | with_reducible refine Within.step' (Within.of_snd2 (State.readMpa_within _ _ _ _ _) (by assumption)) ?_ ?_
    | with_reducible exact Holds.none
    | with_reducible refine Holds.some ?_
    | with_reducible refine Holds.map_state ?_ ?_
    | with_reducible refine Holds.map ?_
    | with_reducible refine Holds.bind ?_
    | with_reducible refine Within.ite ?_ ?_
    | with_reducible intro _
    | extract_lets
    | split
    | dsimp only

theorem State.barStatus_within (s : State) (a2) (a3) (a4) :
    Within [.out, .mem, .tiles, .mesh, .lp, .brd, .fab, .hst, .que, .itl, .cry, .evt, .flog] s (State.barStatus s a2 a3 a4).2 := by
  unfold State.barStatus
  repeat' first
    | with_reducible assumption
    | with_reducible exact Within.refl _ _
    | decide
    | with_reducible apply Within.step' (State.readMpa_within _ _ _ _ _)
    | with_reducible refine Within.step' (Within.of_snd2 (State.readMpa_within _ _ _ _ _) (by assumption)) ?_ ?_
    | with_reducible refine Within.ite ?_ ?_
    | with_reducible intro _
    | extract_lets
    | split
    | dsimp only

theorem State.barStore_within (s : State) (a2) (a3) (a4) (a5) :
    Within [.out, .mem, .tiles, .mesh, .lp, .brd, .fab, .hst, .que, .itl, .cry, .evt, .flog] s (State.barStore s a2 a3 a4 a5) := by
  unfold State.barStore
  repeat' first
    | with_reducible assumption
    | with_reducible exact Within.refl _ _
    | decide
    | with_reducible apply Within.step' (State.writeMpa_within _ _ _ _ _ _)
    | with_reducible refine Within.step' (Within.of_snd (State.writeMpa_within _ _ _ _ _ _) (by assumption)) ?_ ?_
    | extract_lets
    | split
    | dsimp only

theorem State.barFar_within (s : State) (a2) (a3) (a4) (a5) (a6) (a7) :
    Within [.out, .mem, .tiles, .mesh, .lp, .xlt, .brd, .fab, .hst, .que, .itl, .cry, .evt, .flog] s (State.barFar s a2 a3 a4 a5 a6 a7) := by
  unfold State.barFar
  repeat' first
    | with_reducible assumption
    | with_reducible exact Within.refl _ _
    | decide
    | with_reducible apply Within.step' (State.xlatFaultUnit_within _ _ _ _ _)
    | with_reducible apply Within.step' (State.countWalk_within _ _ _ _ _ _ _)
    | with_reducible apply Within.step' (State.emit_within _ _)
    | with_reducible refine Within.ite ?_ ?_
    | with_reducible refine Within.ite_snd ?_ ?_
    | with_reducible intro _
    | extract_lets
    | split
    | dsimp only

theorem State.barRelease_within (s : State) (a2) (a3) (a4) (a5) :
    Within [.out, .mem, .tiles, .mesh, .lp, .xlt, .brd, .fab, .hst, .que, .itl, .cry, .evt, .flog] s (State.barRelease s a2 a3 a4 a5) := by
  unfold State.barRelease
  repeat' first
    | with_reducible assumption
    | with_reducible exact Within.refl _ _
    | decide
    | with_reducible apply State.each_within
    | with_reducible apply Within.step' (State.barFar_within _ _ _ _ _ _ _)
    | with_reducible apply Within.step' (State.readMpa_within _ _ _ _ _)
    | with_reducible refine Within.step' (Within.of_snd2 (State.readMpa_within _ _ _ _ _) (by assumption)) ?_ ?_
    | with_reducible apply Within.step' (State.emit_within _ _)
    | with_reducible apply Within.step' (State.barStore_within _ _ _ _ _)
    | with_reducible intro _
    | extract_lets
    | split
    | dsimp only

theorem State.barCheck_within (s : State) (a2) (a3) :
    Within [.out, .mem, .tiles, .mesh, .lp, .xlt, .brd, .fab, .hst, .que, .itl, .cry, .evt, .flog] s (State.barCheck s a2 a3) := by
  unfold State.barCheck
  repeat' first
    | with_reducible assumption
    | with_reducible exact Within.refl _ _
    | decide
    | with_reducible apply Within.step' (State.barRelease_within _ _ _ _ _)
    | with_reducible apply Within.step' (State.barFar_within _ _ _ _ _ _ _)
    | with_reducible apply Within.step' (State.barStore_within _ _ _ _ _)
    | with_reducible refine Within.step' (Holds.get4 (State.barLines_within _ _ _) (by assumption)) ?_ ?_
    | with_reducible refine Within.ite ?_ ?_
    | with_reducible intro _
    | extract_lets
    | split
    | dsimp only

theorem State.barCount_within (s : State) (a2) (a3) (a4) :
    Within [.out, .mem, .tiles, .mesh, .lp, .brd, .fab, .hst, .que, .itl, .cry, .evt, .flog] s (State.barCount s a2 a3 a4) := by
  unfold State.barCount
  repeat' first
    | with_reducible assumption
    | with_reducible exact Within.refl _ _
    | decide
    | with_reducible apply Within.step' (State.barStore_within _ _ _ _ _)
    | with_reducible apply Within.step' (State.modMesh_within _ _)
    | with_reducible refine Within.step' (Holds.get4 (State.barLines_within _ _ _) (by assumption)) ?_ ?_
    | with_reducible refine Within.ite ?_ ?_
    | with_reducible intro _
    | split
    | dsimp only

theorem State.barEarly_within (s : State) (a2) (a3) :
    Within [.out, .mem, .tiles, .mesh, .lp, .xlt, .brd, .fab, .hst, .que, .itl, .cry, .evt, .flog] s (State.barEarly s a2 a3) := by
  unfold State.barEarly
  repeat' first
    | with_reducible assumption
    | with_reducible exact Within.refl _ _
    | decide
    | with_reducible apply State.each_within
    | with_reducible apply Within.step' (State.barCheck_within _ _ _)
    | with_reducible apply Within.step' (State.barCount_within _ _ _ _)
    | with_reducible apply Within.step' (State.modMesh_within _ _)
    | with_reducible intro _
    | extract_lets
    | split
    | dsimp only

theorem State.rerun_within (s : State) (a2) (a3) (a4) (a5) (a6) :
    Within [.out, .mem, .tiles, .mesh, .lp, .xlt, .brd, .fab, .hst, .que, .itl, .rcv, .cry, .evt, .flog] s (State.rerun s a2 a3 a4 a5 a6) := by
  unfold State.rerun
  repeat' first
    | with_reducible assumption
    | with_reducible exact Within.refl _ _
    | decide
    | with_reducible apply Within.step' (State.barWaitRun_within _ _ _ _ _ _ _ _ _ _)
    | with_reducible apply Within.step' (State.arriveRun_within _ _ _ _ _ _ _)
    | with_reducible apply Within.step' (State.startRun_within _ _ _ _ _ _ _ _ _)
    | with_reducible apply Within.step' (State.memRun_within _ _ _ _ _ _ _)
    | split
    | dsimp only

theorem State.migLost_within (s : State) (a2) (a3) :
    Within [.out, .mem, .tiles, .mesh, .lp, .xlt, .brd, .fab, .hst, .que, .itl, .cry, .evt, .flog] s (State.migLost s a2 a3) := by
  unfold State.migLost
  repeat' first
    | with_reducible assumption
    | with_reducible exact Within.refl _ _
    | decide
    | with_reducible apply Within.step' (State.ctxFault_within _ _ _ _ _ _ _)
    | with_reducible apply Within.step' (State.modCmd_within _ _ _ _)
    | with_reducible apply Within.step' (State.xlatFaultBody_within _ _ _ _)
    | with_reducible apply Within.step' (State.modXlt_within _ _)
    | with_reducible intro _
    | extract_lets
    | split
    | dsimp only

theorem State.dequeuePages_within (s : State) (a2) (a3) :
    Within [.out, .mem, .tiles, .mesh, .lp, .xlt, .brd, .fab, .hst, .que, .itl, .cry, .evt, .flog] s (State.dequeuePages s a2 a3) := by
  unfold State.dequeuePages
  repeat' first
    | with_reducible assumption
    | with_reducible exact Within.refl _ _
    | decide
    | with_reducible apply State.each_within
    | with_reducible apply Within.step' (State.sendPage_within _ _ _)
    | with_reducible apply Within.step' (State.migLost_within _ _ _)
    | with_reducible intro _
    | extract_lets
    | split
    | dsimp only

/-! ### Regulate -/

theorem State.setLevel_within (s : State) (a2) (a3) (a4) :
    Within [.tiles, .lp, .fab] s (State.setLevel s a2 a3 a4) := by
  unfold State.setLevel
  repeat' first
    | with_reducible assumption
    | with_reducible exact Within.refl _ _
    | decide
    | with_reducible apply Within.step' (State.modFab_within _ _)
    | with_reducible apply Within.step' (State.modLp_within _ _)
    | with_reducible apply Within.step' (State.modTile_within _ _ _)
    | with_reducible intro _
    | extract_lets
    | split
    | dsimp only

theorem State.missed_within (s : State) (a2) :
    Within [.sched] s (State.missed s a2) := by
  unfold State.missed
  repeat' first
    | with_reducible assumption
    | with_reducible exact Within.refl _ _
    | decide
    | with_reducible apply Within.step' (State.modSched_within _ _)
    | with_reducible refine Within.ite ?_ ?_
    | with_reducible refine Within.ite_snd ?_ ?_
    | with_reducible intro _
    | split
    | dsimp only

theorem State.letIn_within (s : State) (a2) (a3) :
    Within [.tiles, .lp, .fab, .sched] s (State.letIn s a2 a3) := by
  unfold State.letIn
  repeat' first
    | with_reducible assumption
    | with_reducible exact Within.refl _ _
    | decide
    | with_reducible apply Within.step' (State.modSched_within _ _)
    | with_reducible apply Within.step' (State.setLevel_within _ _ _ _)
    | with_reducible apply Within.step' (State.missed_within _ _)
    | with_reducible refine Within.ite ?_ ?_
    | with_reducible intro _
    | extract_lets
    | split
    | dsimp only

theorem State.charge_within (s : State) (a2) (a3) (a4) (a5) :
    Within [.tiles, .lp, .fab, .sched] s (State.charge s a2 a3 a4 a5) := by
  unfold State.charge
  repeat' first
    | with_reducible assumption
    | with_reducible exact Within.refl _ _
    | decide
    | with_reducible apply Within.step' (State.letIn_within _ _ _)
    | extract_lets
    | split
    | dsimp only

theorem State.refillAll_within (s : State) :
    Within [.tiles, .lp, .fab] s (State.refillAll s) := by
  unfold State.refillAll
  repeat' first
    | with_reducible assumption
    | with_reducible exact Within.refl _ _
    | decide
    | with_reducible apply State.each_within
    | with_reducible apply Within.step' (State.setLevel_within _ _ _ _)
    | with_reducible refine Within.ite ?_ ?_
    | with_reducible intro _
    | extract_lets
    | split
    | dsimp only

/-! ### Memory -/

theorem State.sramClear_within (s : State) (a2) (a3) :
    Within [.tiles] s (State.sramClear s a2 a3) := by
  unfold State.sramClear
  repeat' first
    | with_reducible assumption
    | with_reducible exact Within.refl _ _
    | decide
    | with_reducible apply State.when_within
    | with_reducible apply Within.step' (State.modSrm_within _ _ _)
    | with_reducible refine Within.ite ?_ ?_
    | with_reducible intro _
    | extract_lets
    | split
    | dsimp only

theorem State.clearGranules_within (s : State) (a2) (a3) (a4) :
    Within [.mem, .tiles] s (State.clearGranules s a2 a3 a4) := by
  unfold State.clearGranules
  repeat' first
    | with_reducible assumption
    | with_reducible exact Within.refl _ _
    | decide
    | with_reducible apply Within.step' (State.modSrm_within _ _ _)
    | with_reducible apply Within.step' (State.clearMem_within _ _ _)
    | with_reducible intro _
    | extract_lets
    | split
    | dsimp only

theorem State.srmUeWrite_within (s : State) (a2) (a3) :
    Within [.tiles] s (State.srmUeWrite s a2 a3) := by
  unfold State.srmUeWrite
  repeat' first
    | with_reducible assumption
    | with_reducible exact Within.refl _ _
    | decide
    | with_reducible apply State.when_within
    | with_reducible apply Within.step' (State.modSrm_within _ _ _)
    | with_reducible intro _
    | extract_lets
    | split
    | dsimp only

theorem State.regionRefresh_within (s : State) (a2) :
    Within [.cry] s (State.regionRefresh s a2) := by
  unfold State.regionRefresh
  repeat' first
    | with_reducible assumption
    | with_reducible exact Within.refl _ _
    | decide
    | with_reducible apply Within.step' (State.modRegion_within _ _ _)
    | with_reducible intro _
    | split
    | dsimp only

theorem State.nextMove_within (s : State) (a2) :
    Within [.cry] s (State.nextMove s a2) := by
  unfold State.nextMove
  repeat' first
    | with_reducible assumption
    | with_reducible exact Within.refl _ _
    | decide
    | with_reducible apply Within.step' (State.regionMove_within _ _)
    | with_reducible refine Within.ite ?_ ?_
    | with_reducible intro _
    | extract_lets
    | split
    | dsimp only

theorem State.reencrypted_within (s : State) (a2) (a3) :
    Within [.cry] s (State.reencrypted s a2 a3) := by
  unfold State.reencrypted
  repeat' first
    | with_reducible assumption
    | with_reducible exact Within.refl _ _
    | decide
    | with_reducible apply State.when_within
    | with_reducible apply Within.step' (State.nextMove_within _ _)
    | with_reducible apply Within.step' (State.regionRefresh_within _ _)
    | with_reducible apply Within.step' (State.modCry_within _ _)
    | with_reducible apply Within.step' (State.regionMove_within _ _)
    | with_reducible apply Within.step' (State.kidUsers_within _ _ _)
    | with_reducible apply Within.step' (State.modRegion_within _ _ _)
    | with_reducible refine Within.ite ?_ ?_
    | with_reducible intro _
    | extract_lets
    | split
    | dsimp only

theorem State.linePoisoned_within (s : State) (a2) (a3) :
    Within [.out, .hst, .que, .evt, .flog] s (State.linePoisoned s a2 a3) := by
  unfold State.linePoisoned
  repeat' first
    | with_reducible assumption
    | with_reducible exact Within.refl _ _
    | decide
    | with_reducible apply Within.step' (State.moduleRecords_within _ _ _ _)
    | with_reducible refine Within.ite ?_ ?_
    | with_reducible intro _
    | extract_lets
    | split
    | dsimp only

theorem State.regionCheck_within (s : State) (a2) (a3) (a4) :
    Within [.out, .mem, .tiles, .lp, .brd, .fab, .hst, .que, .itl, .cry, .evt, .flog] s (State.regionCheck s a2 a3 a4) := by
  unfold State.regionCheck
  repeat' first
    | with_reducible assumption
    | with_reducible exact Within.refl _ _
    | decide
    | with_reducible apply State.each_within
    | with_reducible apply Within.step' (State.linePoisoned_within _ _ _)
    | with_reducible apply Within.step' (State.dramPoison_within _ _ _)
    | with_reducible apply Within.step' (State.pulse_within _ _)
    | with_reducible apply Within.step' (State.modCry_within _ _)
    | with_reducible apply Within.step' (State.storeLine_within _ _ _)
    | with_reducible refine Within.ite ?_ ?_
    | with_reducible intro _
    | extract_lets
    | split
    | dsimp only

theorem State.patrol_within (s : State) (a2) (a3) (a4) :
    Within [.out, .mem, .tiles, .lp, .brd, .fab, .hst, .que, .itl, .cry, .evt, .flog] s (State.patrol s a2 a3 a4) := by
  unfold State.patrol
  repeat' first
    | with_reducible assumption
    | with_reducible exact Within.refl _ _
    | decide
    | with_reducible apply State.when_within
    | with_reducible apply Within.step' (State.modPair_within _ _ _)
    | with_reducible apply Within.step' (State.regionCheck_within _ _ _ _)
    | with_reducible apply Within.step' (State.modCry_within _ _)
    | with_reducible apply Within.step' (State.linePoisoned_within _ _ _)
    | with_reducible apply Within.step' (State.dramRead_within _ _ _ _)
    | with_reducible refine Within.step' (Within.of_snd2 (State.dramRead_within _ _ _ _) (by assumption)) ?_ ?_
    | with_reducible refine Within.ite ?_ ?_
    | with_reducible refine Within.ite_snd ?_ ?_
    | with_reducible intro _
    | extract_lets
    | split
    | dsimp only

theorem State.checkDelta_within (s : State) (a2) :
    Within [.mem, .lp] s (State.checkDelta s a2) := by
  unfold State.checkDelta
  repeat' first
    | with_reducible assumption
    | with_reducible exact Within.refl _ _
    | decide
    | with_reducible apply Within.step' (State.modLp_within _ _)
    | with_reducible apply Within.step' (State.storeLine_within _ _ _)
    | with_reducible refine Within.ite ?_ ?_
    | with_reducible intro _
    | extract_lets
    | split
    | dsimp only

theorem State.recompute_within (s : State) (a2) :
    Within [.mem, .lp] s (State.recompute s a2) := by
  unfold State.recompute
  repeat' first
    | with_reducible assumption
    | with_reducible exact Within.refl _ _
    | decide
    | with_reducible apply State.each_within
    | with_reducible apply Within.step' (State.modLp_within _ _)
    | with_reducible apply Within.step' (State.modPair_within _ _ _)
    | with_reducible apply Within.step' (State.storeLine_within _ _ _)
    | with_reducible apply Within.step' (State.clearMem_within _ _ _)
    | with_reducible intro _
    | extract_lets
    | split
    | dsimp only

/-! ### Parser -/

theorem State.endPacket_within (s : State) (a2) (a3) (a4) (a5) (a6) :
    Within [.out, .mem, .tiles, .mesh, .lp, .brd, .fab, .hst, .que, .itl, .cry, .evt, .flog] s (State.endPacket s a2 a3 a4 a5 a6) := by
  unfold State.endPacket
  repeat' first
    | with_reducible assumption
    | with_reducible exact Within.refl _ _
    | decide
    | with_reducible apply Within.step' (State.completionWrite_within _ _ _ _ _ _ _)
    | split
    | dsimp only

theorem State.fetchOne_within (s : State) (a2) (a3) (a4) :
    Holds (Within [.out, .mem, .tiles, .mesh, .lp, .xlt, .brd, .fab, .hst, .que, .itl, .sched, .cry, .evt, .flog] s) (State.fetchOne s a2 a3 a4) := by
  unfold State.fetchOne
  repeat' first
    | with_reducible assumption
    | with_reducible exact Within.refl _ _
    | decide
    | with_reducible apply State.each_within
    | with_reducible apply Within.step' (State.modQ_within _ _ _)
    | with_reducible apply Within.step' (State.objSetState_within _ _ _ _ _)
    | with_reducible apply Within.step' (State.takeRef_within _ _ _)
    | with_reducible apply Within.step' (State.queueFault_within _ _ _ _ _)
    | with_reducible apply Within.step' (State.endPacket_within _ _ _ _ _ _)
    | with_reducible apply Within.step' (State.modSched_within _ _)
    | with_reducible exact Holds.none
    | with_reducible refine Holds.some ?_
    | with_reducible refine Holds.map_state ?_ ?_
    | with_reducible refine Holds.map ?_
    | with_reducible refine Holds.bind ?_
    | with_reducible refine Within.ite ?_ ?_
    | with_reducible refine Within.ite_snd ?_ ?_
    | with_reducible intro _
    | extract_lets
    | split
    | dsimp only

theorem State.fetchAll_within (s : State) (a2) (a3) (a4) :
    Within [.out, .mem, .tiles, .mesh, .lp, .xlt, .brd, .fab, .hst, .que, .itl, .sched, .cry, .evt, .flog] s (State.fetchAll s a2 a3 a4).2 := by
  induction a4 generalizing s a2 a3 with
  | nil =>
    unfold State.fetchAll
    try dsimp only
    repeat' first
      | with_reducible assumption
      | with_reducible exact Within.refl _ _
      | decide
      | with_reducible apply Holds.step' (State.fetchOne_within _ _ _ _)
      | with_reducible refine Within.step' (Holds.get (State.fetchOne_within _ _ _ _) (by assumption)) ?_ ?_
      | with_reducible refine Within.ite ?_ ?_
      | with_reducible intro _
      | extract_lets
      | split
      | dsimp only
  | cons p t ih =>
    unfold State.fetchAll
    try dsimp only
    repeat' first
      | with_reducible assumption
      | with_reducible exact Within.refl _ _
      | decide
      | with_reducible apply Within.step' (ih _ _ _)
      | with_reducible refine Within.step' (Within.of_snd (ih _ _ _) (by assumption)) ?_ ?_
      | with_reducible apply Holds.step' (State.fetchOne_within _ _ _ _)
      | with_reducible refine Within.step' (Holds.get (State.fetchOne_within _ _ _ _) (by assumption)) ?_ ?_
      | with_reducible refine Within.ite ?_ ?_
      | with_reducible intro _
      | extract_lets
      | split
      | dsimp only

theorem State.started_within (s : State) (a2) (a3) :
    Within [.que] s (State.started s a2 a3) := by
  unfold State.started
  repeat' first
    | with_reducible assumption
    | with_reducible exact Within.refl _ _
    | decide
    | with_reducible apply Within.step' (State.modCmd_within _ _ _ _)
    | with_reducible intro _
    | extract_lets
    | split
    | dsimp only

theorem State.cmdFault_within (s : State) (a2) (a3) (a4) (a5) :
    Within [.out, .mem, .tiles, .mesh, .lp, .xlt, .brd, .fab, .hst, .que, .itl, .cry, .evt, .flog] s (State.cmdFault s a2 a3 a4 a5) := by
  unfold State.cmdFault
  repeat' first
    | with_reducible assumption
    | with_reducible exact Within.refl _ _
    | decide
    | with_reducible apply Within.step' (State.xlatFaultUnit_within _ _ _ _ _)
    | with_reducible apply Within.step' (State.modCmd_within _ _ _ _)
    | with_reducible intro _
    | split
    | dsimp only

theorem State.cmdRefused_within (s : State) (a2) (a3) (a4) (a5) :
    Within [.out, .mem, .tiles, .mesh, .lp, .xlt, .brd, .fab, .hst, .que, .itl, .rcv, .cry, .evt, .flog] s (State.cmdRefused s a2 a3 a4 a5) := by
  unfold State.cmdRefused
  repeat' first
    | with_reducible assumption
    | with_reducible exact Within.refl _ _
    | decide
    | with_reducible apply Within.step' (State.ctxFault_within _ _ _ _ _ _ _)
    | with_reducible apply Within.step' (State.countLost_within _ _)
    | with_reducible apply Within.step' (State.modCmd_within _ _ _ _)
    | with_reducible refine Within.ite ?_ ?_
    | with_reducible refine Within.ite_snd ?_ ?_
    | with_reducible intro _
    | extract_lets
    | split
    | dsimp only

theorem State.cmdAccess_within (s : State) (a2) (a3) (a4) (a5) :
    Within [.out, .mem, .tiles, .mesh, .lp, .xlt, .brd, .fab, .hst, .que, .itl, .cry, .evt, .flog] s (State.cmdAccess s a2 a3 a4 a5).2 := by
  unfold State.cmdAccess
  repeat' first
    | with_reducible assumption
    | with_reducible exact Within.refl _ _
    | decide
    | with_reducible apply Within.step' (State.sendPage_within _ _ _)
    | with_reducible apply Within.step' (State.modXlt_within _ _)
    | with_reducible apply Within.step' (State.cmdFault_within _ _ _ _ _)
    | with_reducible apply Within.step' (State.modCmd_within _ _ _ _)
    | with_reducible apply Within.step' (State.countWalk_within _ _ _ _ _ _ _)
    | with_reducible refine Within.ite ?_ ?_
    | with_reducible refine Within.ite_snd ?_ ?_
    | with_reducible intro _
    | extract_lets
    | split
    | dsimp only

theorem State.unitHostRead_within (s : State) (a2) (a3) (a4) :
    Within [.out, .hst] s (State.unitHostRead s a2 a3 a4) := by
  unfold State.unitHostRead
  repeat' first
    | with_reducible assumption
    | with_reducible exact Within.refl _ _
    | decide
    | with_reducible apply Within.step' (State.emit_within _ _)
    | with_reducible apply Within.step' (State.atsAsk_within _ _ _ _ _)
    | extract_lets
    | split
    | dsimp only

theorem State.unitLine_within (s : State) (a2) (a3) (a4) (a5) (a6) (a7) :
    Within [.out, .mem, .tiles, .mesh, .lp, .brd, .fab, .hst, .que, .itl, .cry, .evt, .flog] s (State.unitLine s a2 a3 a4 a5 a6 a7).2.2 := by
  unfold State.unitLine
  repeat' first
    | with_reducible assumption
    | with_reducible exact Within.refl _ _
    | decide
    | with_reducible apply Within.step' (State.unitHostRead_within _ _ _ _)
    | with_reducible apply Within.step' (State.readMpa_within _ _ _ _ _)
    | with_reducible refine Within.step' (Within.of_snd2 (State.readMpa_within _ _ _ _ _) (by assumption)) ?_ ?_
    | with_reducible refine Within.ite ?_ ?_
    | with_reducible intro _
    | extract_lets
    | split
    | dsimp only

theorem State.launchStart_within (s : State) (a2) (a3) (a4) (a5) :
    Within [.out, .mem, .tiles, .mesh, .lp, .xlt, .brd, .fab, .hst, .que, .itl, .rcv, .cry, .evt, .flog] s (State.launchStart s a2 a3 a4 a5) := by
  unfold State.launchStart
  repeat' first
    | with_reducible assumption
    | with_reducible exact Within.refl _ _
    | decide
    | with_reducible apply Within.step' (State.cmdRefused_within _ _ _ _ _)
    | with_reducible apply Within.step' (State.unitLine_within _ _ _ _ _ _ _)
    | with_reducible refine Within.step' (Within.of_snd2 (State.unitLine_within _ _ _ _ _ _ _) (by assumption)) ?_ ?_
    | with_reducible apply Within.step' (State.cmdAccess_within _ _ _ _ _)
    | with_reducible refine Within.step' (Within.of_snd (State.cmdAccess_within _ _ _ _ _) (by assumption)) ?_ ?_
    | with_reducible apply Within.step' (State.modCmd_within _ _ _ _)
    | with_reducible apply Within.step' (State.modBank_within _ _ _ _)
    | with_reducible exact Holds.none
    | with_reducible refine Holds.some ?_
    | with_reducible refine Holds.map_state ?_ ?_
    | with_reducible refine Holds.map ?_
    | with_reducible refine Holds.bind ?_
    | with_reducible refine Within.getD ?_ ?_
    | with_reducible refine Within.ite ?_ ?_
    | with_reducible intro _
    | extract_lets
    | split
    | dsimp only

theorem State.cmdBadHandle_within (s : State) (a2) (a3) :
    Within [.out, .mem, .tiles, .mesh, .lp, .xlt, .brd, .fab, .hst, .que, .itl, .cry, .evt, .flog] s (State.cmdBadHandle s a2 a3) := by
  unfold State.cmdBadHandle
  repeat' first
    | with_reducible assumption
    | with_reducible exact Within.refl _ _
    | decide
    | with_reducible apply Within.step' (State.queueFault_within _ _ _ _ _)
    | with_reducible apply Within.step' (State.complete_within _ _ _ _ _ _)
    | split
    | dsimp only

theorem State.faultAck_within (s : State) (a2) (a3) :
    Within [.out, .mem, .tiles, .mesh, .lp, .xlt, .brd, .fab, .hst, .que, .itl, .cry, .evt, .flog] s (State.faultAck s a2 a3) := by
  unfold State.faultAck
  repeat' first
    | with_reducible assumption
    | with_reducible exact Within.refl _ _
    | decide
    | with_reducible apply State.when_within
    | with_reducible apply Within.step' (State.drainHeld_within _ _ _ _)
    | with_reducible apply Within.step' (State.complete_within _ _ _ _ _ _)
    | with_reducible apply Within.step' (State.modQue_within _ _)
    | with_reducible apply Within.step' (State.modFq_within _ _ _)
    | with_reducible apply Within.step' (State.started_within _ _ _)
    | with_reducible refine Within.ite ?_ ?_
    | with_reducible intro _
    | extract_lets
    | split
    | dsimp only

/-! ### Translate -/

theorem State.invalidate_within (s : State) (a2) (a3) :
    Within [.tiles, .mesh, .lp, .xlt] s (State.invalidate s a2 a3) := by
  unfold State.invalidate
  repeat' first
    | with_reducible assumption
    | with_reducible exact Within.refl _ _
    | decide
    | with_reducible apply Within.step' (State.modLp_within _ _)
    | with_reducible apply Within.step' (State.modMesh_within _ _)
    | with_reducible apply Within.step' (State.modXlt_within _ _)
    | with_reducible refine Within.ite ?_ ?_
    | with_reducible intro _
    | extract_lets
    | split
    | dsimp only
    | with_reducible apply Within.step' (State.tiles_set_within _ _)

/-! ### Coder -/

theorem State.jobLine_within (s : State) (a2) (a3) (a4) (a5) (a6) (a7) (a8) :
    Within [.out, .mem, .tiles, .mesh, .lp, .brd, .fab, .hst, .que, .itl, .sched, .cry, .evt, .flog] s (State.jobLine s a2 a3 a4 a5 a6 a7 a8).2.2.1 := by
  unfold State.jobLine
  repeat' first
    | with_reducible assumption
    | with_reducible exact Within.refl _ _
    | decide
    | with_reducible apply Within.step' (State.unitLine_within _ _ _ _ _ _ _)
    | with_reducible refine Within.step' (Within.of_snd2 (State.unitLine_within _ _ _ _ _ _ _) (by assumption)) ?_ ?_
    | with_reducible apply Within.step' (State.charge_within _ _ _ _ _)
    | extract_lets
    | split
    | dsimp only

theorem State.jobLines_within (s : State) (a2) (a3) (a4) (a5) (a6) (a7) (a8) (a9) :
    Within [.out, .mem, .tiles, .mesh, .lp, .brd, .fab, .hst, .que, .itl, .sched, .cry, .evt, .flog] s (State.jobLines s a2 a3 a4 a5 a6 a7 a8 a9).2.2.1 := by
  induction a8 generalizing s a2 a3 a4 a5 a6 a7 a9 with
  | zero =>
    unfold State.jobLines
    try dsimp only
    repeat' first
      | with_reducible assumption
      | with_reducible exact Within.refl _ _
      | decide
      | with_reducible apply Within.step' (State.jobLine_within _ _ _ _ _ _ _ _)
      | with_reducible refine Within.step' (Within.of_mid2 (State.jobLine_within _ _ _ _ _ _ _ _) (by assumption)) ?_ ?_
      | with_reducible refine Within.ite ?_ ?_
      | with_reducible intro _
      | extract_lets
      | split
      | dsimp only
  | succ n ih =>
    unfold State.jobLines
    try dsimp only
    repeat' first
      | with_reducible assumption
      | with_reducible exact Within.refl _ _
      | decide
      | with_reducible apply Within.step' (ih _ _ _ _ _ _ _ _)
      | with_reducible apply Within.step' (State.jobLine_within _ _ _ _ _ _ _ _)
      | with_reducible refine Within.step' (Within.of_mid2 (State.jobLine_within _ _ _ _ _ _ _ _) (by assumption)) ?_ ?_
      | with_reducible refine Within.ite ?_ ?_
      | with_reducible intro _
      | extract_lets
      | split
      | dsimp only

theorem State.jobWrite_within (s : State) (a2) (a3) (a4) (a5) (a6) (a7) :
    Within [.out, .mem, .tiles, .mesh, .lp, .brd, .fab, .hst, .que, .itl, .sched, .cry, .evt, .flog] s (State.jobWrite s a2 a3 a4 a5 a6 a7).2 := by
  unfold State.jobWrite
  repeat' first
    | with_reducible assumption
    | with_reducible exact Within.refl _ _
    | decide
    | with_reducible apply Within.step' (State.hostWrite_within _ _ _ _ _ _)
    | with_reducible apply Within.step' (State.unitSend_within _ _ _ _)
    | with_reducible apply Within.step' (State.writeMpa_within _ _ _ _ _ _)
    | with_reducible refine Within.step' (Within.of_snd (State.writeMpa_within _ _ _ _ _ _) (by assumption)) ?_ ?_
    | with_reducible apply Within.step' (State.charge_within _ _ _ _ _)
    | extract_lets
    | split
    | dsimp only

theorem State.jobPut_within (s : State) (a2) (a3) (a4) (a5) (a6) (a7) (a8) :
    Within [.out, .mem, .tiles, .mesh, .lp, .brd, .fab, .hst, .que, .itl, .sched, .cry, .evt, .flog] s (State.jobPut s a2 a3 a4 a5 a6 a7 a8).2 := by
  induction a6 generalizing s a2 a3 a4 a5 a7 a8 with
  | zero =>
    unfold State.jobPut
    try dsimp only
    repeat' first
      | with_reducible assumption
      | with_reducible exact Within.refl _ _
      | decide
      | with_reducible apply Within.step' (State.jobWrite_within _ _ _ _ _ _ _)
      | with_reducible refine Within.step' (Within.of_snd (State.jobWrite_within _ _ _ _ _ _ _) (by assumption)) ?_ ?_
      | with_reducible refine Within.ite ?_ ?_
      | with_reducible intro _
      | extract_lets
      | split
      | dsimp only
  | succ n ih =>
    unfold State.jobPut
    try dsimp only
    repeat' first
      | with_reducible assumption
      | with_reducible exact Within.refl _ _
      | decide
      | with_reducible apply Within.step' (ih _ _ _ _ _ _ _)
      | with_reducible refine Within.step' (Within.of_snd (ih _ _ _ _ _ _ _) (by assumption)) ?_ ?_
      | with_reducible apply Within.step' (State.jobWrite_within _ _ _ _ _ _ _)
      | with_reducible refine Within.step' (Within.of_snd (State.jobWrite_within _ _ _ _ _ _ _) (by assumption)) ?_ ?_
      | with_reducible refine Within.ite ?_ ?_
      | with_reducible intro _
      | extract_lets
      | split
      | dsimp only

theorem State.coderStart_within (s : State) (a2) (a3) (a4) :
    Within [.out, .mem, .tiles, .mesh, .lp, .xlt, .brd, .fab, .hst, .que, .itl, .sched, .rcv, .cry, .evt, .flog] s (State.coderStart s a2 a3 a4) := by
  unfold State.coderStart
  try dsimp only
  repeat' first
    | with_reducible assumption
    | with_reducible exact Within.refl _ _
    | decide
    | with_reducible apply Within.step' (State.ctxFault_within _ _ _ _ _ _ _)
    | with_reducible apply Within.step' (State.modCmd_within _ _ _ _)
    | with_reducible apply Within.step' (State.modLp_within _ _)
    | with_reducible apply Within.step' (State.takeRef_within _ _ _)
    | with_reducible apply Within.step' (State.started_within _ _ _)
    | with_reducible apply Within.step' (State.cmdAccess_within _ _ _ _ _)
    | with_reducible refine Within.step' (Within.of_snd (State.cmdAccess_within _ _ _ _ _) (by assumption)) ?_ ?_
    | with_reducible apply Within.step' (State.cmdRefused_within _ _ _ _ _)
    | with_reducible apply Within.step' (State.jobLine_within _ _ _ _ _ _ _ _)
    | with_reducible refine Within.step' (Within.of_mid2 (State.jobLine_within _ _ _ _ _ _ _ _) (by assumption)) ?_ ?_
    | with_reducible exact Holds.none
    | with_reducible refine Holds.some ?_
    | with_reducible refine Holds.map_state ?_ ?_
    | with_reducible refine Holds.map ?_
    | with_reducible refine Holds.bind ?_
    | with_reducible refine Within.getD ?_ ?_
    | with_reducible refine Within.ite ?_ ?_
    | with_reducible refine Within.ite_snd ?_ ?_
    | with_reducible intro _
    | split
    | dsimp only

theorem State.jobEnd_within {M : List Block} {s0 : State} (s : State) (j : Job) (rd dva : Nat) (w : (Nat × Nat) × State)
    (h : Within M s0 w.2) : Within M s0 (s.jobEnd j rd dva w).2.2 := by
  unfold State.jobEnd
  repeat' split
  all_goals exact h

theorem State.jobOut_within (s : State) (a2) (a3) (a4) :
    Within [.out, .mem, .tiles, .mesh, .lp, .brd, .fab, .hst, .que, .itl, .sched, .cry, .evt, .flog] s (State.jobOut s a2 a3 a4).2 := by
  unfold State.jobOut
  repeat' first
    | with_reducible assumption
    | with_reducible exact Within.refl _ _
    | decide
    | with_reducible apply Within.step' (State.jobPut_within _ _ _ _ _ _ _ _)
    | with_reducible refine Within.step' (Within.of_snd (State.jobPut_within _ _ _ _ _ _ _ _) (by assumption)) ?_ ?_
    | with_reducible refine Within.ite ?_ ?_
    | with_reducible refine Within.ite_snd ?_ ?_
    | with_reducible intro _
    | split
    | dsimp only

theorem State.encodeJob_within (s : State) (a2) (a3) (a4) :
    Within [.out, .mem, .tiles, .mesh, .lp, .brd, .fab, .hst, .que, .itl, .sched, .cry, .evt, .flog] s (State.encodeJob s a2 a3 a4).2.2 := by
  unfold State.encodeJob
  try dsimp only
  repeat' first
    | with_reducible assumption
    | with_reducible exact Within.refl _ _
    | decide
    | with_reducible apply Within.step' (State.jobOut_within _ _ _ _)
    | with_reducible refine Within.step' (Within.of_snd (State.jobOut_within _ _ _ _) (by assumption)) ?_ ?_
    | with_reducible apply State.jobEnd_within
    | with_reducible apply Within.step' (State.jobLines_within _ _ _ _ _ _ _ _ _)
    | with_reducible refine Within.step' (Within.of_mid2 (State.jobLines_within _ _ _ _ _ _ _ _ _) (by assumption)) ?_ ?_
    | with_reducible refine Within.ite ?_ ?_
    | with_reducible refine Within.ite_snd ?_ ?_
    | with_reducible intro _
    | split
    | dsimp only

theorem State.decodeFrames_within (s : State) (a2) (a3) (a4) (a5) (a6) (a7) :
    Within [.out, .mem, .tiles, .mesh, .lp, .brd, .fab, .hst, .que, .itl, .sched, .cry, .evt, .flog] s (State.decodeFrames s a2 a3 a4 a5 a6 a7).2.2.1 := by
  induction a5 generalizing s a2 a3 a4 a6 a7 with
  | zero =>
    unfold State.decodeFrames
    try dsimp only
    repeat' first
      | with_reducible assumption
      | with_reducible exact Within.refl _ _
      | decide
      | with_reducible apply Within.step' (State.jobLines_within _ _ _ _ _ _ _ _ _)
      | with_reducible refine Within.step' (Within.of_mid2 (State.jobLines_within _ _ _ _ _ _ _ _ _) (by assumption)) ?_ ?_
      | with_reducible refine Within.ite ?_ ?_
      | with_reducible intro _
      | extract_lets
      | split
      | dsimp only
  | succ n ih =>
    unfold State.decodeFrames
    try dsimp only
    repeat' first
      | with_reducible assumption
      | with_reducible exact Within.refl _ _
      | decide
      | with_reducible apply Within.step' (ih _ _ _ _ _ _)
      | with_reducible apply Within.step' (State.jobLines_within _ _ _ _ _ _ _ _ _)
      | with_reducible refine Within.step' (Within.of_mid2 (State.jobLines_within _ _ _ _ _ _ _ _ _) (by assumption)) ?_ ?_
      | with_reducible refine Within.ite ?_ ?_
      | with_reducible intro _
      | extract_lets
      | split
      | dsimp only

theorem State.decodeJob_within (s : State) (a2) (a3) (a4) :
    Within [.out, .mem, .tiles, .mesh, .lp, .brd, .fab, .hst, .que, .itl, .sched, .cry, .evt, .flog] s (State.decodeJob s a2 a3 a4).2.2 := by
  unfold State.decodeJob
  try dsimp only
  repeat' first
    | with_reducible assumption
    | with_reducible exact Within.refl _ _
    | decide
    | with_reducible apply Within.step' (State.jobPut_within _ _ _ _ _ _ _ _)
    | with_reducible refine Within.step' (Within.of_snd (State.jobPut_within _ _ _ _ _ _ _ _) (by assumption)) ?_ ?_
    | with_reducible apply Within.step' (State.decodeFrames_within _ _ _ _ _ _ _)
    | with_reducible refine Within.step' (Within.of_mid2 (State.decodeFrames_within _ _ _ _ _ _ _) (by assumption)) ?_ ?_
    | with_reducible apply Within.step' (State.jobLines_within _ _ _ _ _ _ _ _ _)
    | with_reducible refine Within.step' (Within.of_mid2 (State.jobLines_within _ _ _ _ _ _ _ _ _) (by assumption)) ?_ ?_
    | with_reducible refine Within.ite ?_ ?_
    | with_reducible intro _
    | split
    | dsimp only

theorem State.trimJob_within (s : State) (a2) (a3) (a4) :
    Within [.out, .mem, .tiles, .mesh, .lp, .brd, .fab, .hst, .que, .itl, .sched, .cry, .evt, .flog] s (State.trimJob s a2 a3 a4).2.2 := by
  unfold State.trimJob
  try dsimp only
  repeat' first
    | with_reducible assumption
    | with_reducible exact Within.refl _ _
    | decide
    | with_reducible apply Within.step' (State.jobOut_within _ _ _ _)
    | with_reducible refine Within.step' (Within.of_snd (State.jobOut_within _ _ _ _) (by assumption)) ?_ ?_
    | with_reducible apply State.jobEnd_within
    | with_reducible apply Within.step' (State.modLp_within _ _)
    | with_reducible apply Within.step' (State.jobLines_within _ _ _ _ _ _ _ _ _)
    | with_reducible refine Within.step' (Within.of_mid2 (State.jobLines_within _ _ _ _ _ _ _ _ _) (by assumption)) ?_ ?_
    | with_reducible refine Within.ite ?_ ?_
    | with_reducible refine Within.ite_snd ?_ ?_
    | with_reducible intro _
    | split
    | dsimp only

theorem State.expandJob_within (s : State) (a2) (a3) (a4) :
    Within [.out, .mem, .tiles, .mesh, .lp, .brd, .fab, .hst, .que, .itl, .sched, .cry, .evt, .flog] s (State.expandJob s a2 a3 a4).2.2 := by
  unfold State.expandJob
  try dsimp only
  repeat' first
    | with_reducible assumption
    | with_reducible exact Within.refl _ _
    | decide
    | with_reducible apply Within.step' (State.jobOut_within _ _ _ _)
    | with_reducible refine Within.step' (Within.of_snd (State.jobOut_within _ _ _ _) (by assumption)) ?_ ?_
    | with_reducible apply State.jobEnd_within
    | with_reducible apply Within.step' (State.jobLines_within _ _ _ _ _ _ _ _ _)
    | with_reducible refine Within.step' (Within.of_mid2 (State.jobLines_within _ _ _ _ _ _ _ _ _) (by assumption)) ?_ ?_
    | with_reducible refine Within.ite ?_ ?_
    | with_reducible refine Within.ite_snd ?_ ?_
    | with_reducible intro _
    | split
    | dsimp only

theorem State.jobRun_within (s : State) (a2) (a3) (a4) :
    Within [.out, .mem, .tiles, .mesh, .lp, .brd, .fab, .hst, .que, .itl, .sched, .cry, .evt, .flog] s (State.jobRun s a2 a3 a4).2.2 := by
  unfold State.jobRun
  try dsimp only
  repeat' first
    | with_reducible assumption
    | with_reducible exact Within.refl _ _
    | decide
    | with_reducible apply Within.step' (State.expandJob_within _ _ _ _)
    | with_reducible refine Within.step' (Within.of_snd2 (State.expandJob_within _ _ _ _) (by assumption)) ?_ ?_
    | with_reducible apply Within.step' (State.trimJob_within _ _ _ _)
    | with_reducible refine Within.step' (Within.of_snd2 (State.trimJob_within _ _ _ _) (by assumption)) ?_ ?_
    | with_reducible apply Within.step' (State.decodeJob_within _ _ _ _)
    | with_reducible refine Within.step' (Within.of_snd2 (State.decodeJob_within _ _ _ _) (by assumption)) ?_ ?_
    | with_reducible apply Within.step' (State.encodeJob_within _ _ _ _)
    | with_reducible refine Within.step' (Within.of_snd2 (State.encodeJob_within _ _ _ _) (by assumption)) ?_ ?_
    | with_reducible apply Within.step' (State.modLp_within _ _)
    | with_reducible refine Within.ite ?_ ?_
    | with_reducible refine Within.ite_snd ?_ ?_
    | with_reducible intro _
    | split
    | dsimp only

theorem State.jobDone_within (s : State) (a2) (a3) (a4) :
    Within [.out, .mem, .tiles, .mesh, .lp, .xlt, .brd, .fab, .hst, .que, .itl, .sched, .rcv, .cry, .evt, .flog] s (State.jobDone s a2 a3 a4) := by
  unfold State.jobDone
  try dsimp only
  repeat' first
    | with_reducible assumption
    | with_reducible exact Within.refl _ _
    | decide
    | with_reducible apply Within.step' (State.complete_within _ _ _ _ _ _)
    | with_reducible apply Within.step' (State.cmdRefused_within _ _ _ _ _)
    | with_reducible apply Within.step' (State.dropRef_within _ _ _)
    | with_reducible apply Within.step' (State.ctxFault_within _ _ _ _ _ _ _)
    | with_reducible apply Within.step' (State.modCmd_within _ _ _ _)
    | with_reducible apply Holds.step2' (State.signalRef_within _ _ _ _)
    | with_reducible refine Holds.map2_state (State.signalRef_within _ _ _ _) ?_ ?_
    | with_reducible refine Within.step' (Holds.get2 (State.signalRef_within _ _ _ _) (by assumption)) ?_ ?_
    | with_reducible apply Within.step' (State.jobWrite_within _ _ _ _ _ _ _)
    | with_reducible refine Within.step' (Within.of_snd (State.jobWrite_within _ _ _ _ _ _ _) (by assumption)) ?_ ?_
    | with_reducible apply Within.step' (State.jobRun_within _ _ _ _)
    | with_reducible refine Within.step' (Within.of_snd2 (State.jobRun_within _ _ _ _) (by assumption)) ?_ ?_
    | with_reducible apply Within.step' (State.modLp_within _ _)
    | with_reducible refine Within.ite ?_ ?_
    | with_reducible refine Within.ite_snd ?_ ?_
    | with_reducible intro _
    | split
    | dsimp only

end Sys2Proof.Machine
end

