-- ==== Sys2Proof/Laws/WithinFabric.lean ====
section
/-! SUPPORT. What the operations may touch: the fabric, the links, the host ports, the mesh. Each lemma
names the blocks an operation stays within, and says that it keeps the memory canonical. -/

set_option linter.unusedTactic false
set_option linter.unreachableTactic false
set_option linter.unusedVariables false

namespace Sys2Proof.Machine

/-! ### Route -/

theorem State.drainPacket_within (s : State) (a2) (a3) :
    Within [.lnk] s (State.drainPacket s a2 a3) := by
  unfold State.drainPacket
  repeat' first
    | with_reducible assumption
    | with_reducible exact Within.refl _ _
    | decide
    | with_reducible apply Within.step' (State.modPort_within _ _ _)
    | with_reducible refine Within.ite ?_ ?_
    | with_reducible refine Within.ite_snd ?_ ?_
    | with_reducible intro _
    | split
    | dsimp only

theorem State.fabFree_within (s : State) (a2) :
    Within [.fab] s (State.fabFree s a2) := by
  unfold State.fabFree
  repeat' first
    | with_reducible assumption
    | with_reducible exact Within.refl _ _
    | decide
    | with_reducible apply Within.step' (State.modFab_within _ _)
    | with_reducible refine Within.ite ?_ ?_
    | with_reducible intro _
    | extract_lets
    | split
    | dsimp only

theorem State.fabEnd_within (s : State) (a2) (a3) (a4) (a5) :
    Within [.out, .fab] s (State.fabEnd s a2 a3 a4 a5) := by
  unfold State.fabEnd
  repeat' first
    | with_reducible assumption
    | with_reducible exact Within.refl _ _
    | decide
    | with_reducible apply Within.step' (State.emit_within _ _)
    | with_reducible apply Within.step' (State.fabFree_within _ _)
    | split
    | dsimp only

theorem State.fabLost_within (s : State) (a2) :
    Within [.out, .fab] s (State.fabLost s a2) := by
  unfold State.fabLost
  repeat' first
    | with_reducible assumption
    | with_reducible exact Within.refl _ _
    | decide
    | with_reducible apply Within.step' (State.fabEnd_within _ _ _ _ _)
    | with_reducible refine Within.ite ?_ ?_
    | with_reducible refine Within.ite_snd ?_ ?_
    | with_reducible intro _
    | split
    | dsimp only

theorem State.sendOn_within (s : State) (a2) (a3) :
    Within [.out, .lnk] s (State.sendOn s a2 a3) := by
  unfold State.sendOn
  repeat' first
    | with_reducible assumption
    | with_reducible exact Within.refl _ _
    | decide
    | with_reducible apply Within.step' (State.emit_within _ _)
    | with_reducible apply Within.step' (State.modPort_within _ _ _)
    | with_reducible intro _
    | extract_lets
    | split
    | dsimp only

theorem State.routeOnce_within (s : State) (a2) (a3) :
    Holds (Within [.out, .lnk, .fab] s) (State.routeOnce s a2 a3) := by
  unfold State.routeOnce
  repeat' first
    | with_reducible assumption
    | with_reducible exact Within.refl _ _
    | decide
    | with_reducible apply Within.step' (State.modFab_within _ _)
    | with_reducible apply Within.step' (State.sendOn_within _ _ _)
    | with_reducible apply Within.step' (State.drainPacket_within _ _ _)
    | with_reducible apply Within.step' (State.emit_within _ _)
    | with_reducible exact Holds.none
    | with_reducible refine Holds.some ?_
    | with_reducible refine Holds.map_state ?_ ?_
    | with_reducible refine Holds.map ?_
    | with_reducible refine Holds.bind ?_
    | with_reducible refine Within.ite ?_ ?_
    | with_reducible refine Within.ite_snd ?_ ?_
    | with_reducible intro _
    | split
    | dsimp only

theorem State.unreachable_within (s : State) (a2) (a3) :
    Within [.out, .lnk, .fab] s (State.unreachable s a2 a3) := by
  unfold State.unreachable
  repeat' first
    | with_reducible assumption
    | with_reducible exact Within.refl _ _
    | decide
    | with_reducible apply Within.step' (State.modFab_within _ _)
    | with_reducible apply Holds.step' (State.routeOnce_within _ _ _)
    | with_reducible refine Within.step' (Holds.get (State.routeOnce_within _ _ _) (by assumption)) ?_ ?_
    | with_reducible apply Within.step' (State.fabEnd_within _ _ _ _ _)
    | with_reducible apply Within.step' (State.drainPacket_within _ _ _)
    | with_reducible refine Within.ite ?_ ?_
    | with_reducible intro _
    | extract_lets
    | split
    | dsimp only

theorem State.routeFrom_within (s : State) (a2) (a3) :
    Within [.out, .lnk, .fab] s (State.routeFrom s a2 a3) := by
  unfold State.routeFrom
  repeat' first
    | with_reducible assumption
    | with_reducible exact Within.refl _ _
    | decide
    | with_reducible apply Within.step' (State.unreachable_within _ _ _)
    | with_reducible apply Holds.step' (State.routeOnce_within _ _ _)
    | with_reducible refine Within.step' (Holds.get (State.routeOnce_within _ _ _) (by assumption)) ?_ ?_
    | split
    | dsimp only

theorem State.routePacket_within (s : State) (a2) :
    Within [.out, .lnk, .fab] s (State.routePacket s a2) := by
  unfold State.routePacket
  repeat' first
    | with_reducible assumption
    | with_reducible exact Within.refl _ _
    | decide
    | with_reducible apply Within.step' (State.routeFrom_within _ _ _)
    | split
    | dsimp only

theorem State.routeHeld_within (s : State) :
    Within [.out, .lnk, .fab] s (State.routeHeld s) := by
  unfold State.routeHeld
  repeat' first
    | with_reducible assumption
    | with_reducible exact Within.refl _ _
    | decide
    | with_reducible apply State.each_within
    | with_reducible apply Within.step' (State.routeFrom_within _ _ _)
    | with_reducible apply Within.step' (State.modFab_within _ _)
    | with_reducible intro _
    | extract_lets
    | split
    | dsimp only

theorem State.fabLeave_within (s : State) (a2) :
    Within [.out, .lnk, .fab] s (State.fabLeave s a2) := by
  unfold State.fabLeave
  repeat' first
    | with_reducible assumption
    | with_reducible exact Within.refl _ _
    | decide
    | with_reducible apply Within.step' (State.routePacket_within _ _)
    | with_reducible apply Within.step' (State.modFab_within _ _)
    | with_reducible refine Within.ite ?_ ?_
    | with_reducible refine Within.ite_snd ?_ ?_
    | with_reducible intro _
    | extract_lets
    | split
    | dsimp only

theorem State.fabEgress_within (s : State) (a2) :
    Within [.out, .lnk, .fab] s (State.fabEgress s a2) := by
  unfold State.fabEgress
  repeat' first
    | with_reducible assumption
    | with_reducible exact Within.refl _ _
    | decide
    | with_reducible apply Within.step' (State.modFab_within _ _)
    | with_reducible apply Within.step' (State.fabLeave_within _ _)
    | with_reducible apply Within.step' (State.routePacket_within _ _)
    | with_reducible apply Within.step' (State.emit_within _ _)
    | with_reducible refine Within.ite ?_ ?_
    | with_reducible refine Within.ite_snd ?_ ?_
    | with_reducible intro _
    | extract_lets
    | split
    | dsimp only

/-! ### Link -/

theorem State.linkLog_within (s : State) (a2) (a3) (a4) (a5) :
    Within [.out, .hst, .evt, .flog] s (State.linkLog s a2 a3 a4 a5) := by
  unfold State.linkLog
  repeat' first
    | with_reducible assumption
    | with_reducible exact Within.refl _ _
    | decide
    | with_reducible apply Within.step' (State.log_within _ _ _ _ _)
    | split
    | dsimp only

theorem State.portDrop_within (s : State) (a2) :
    Within [.out, .lnk, .fab] s (State.portDrop s a2) := by
  unfold State.portDrop
  repeat' first
    | with_reducible assumption
    | with_reducible exact Within.refl _ _
    | decide
    | with_reducible apply State.each_within
    | with_reducible apply Within.step' (State.fabLost_within _ _)
    | with_reducible apply Within.step' (State.modPort_within _ _ _)
    | with_reducible intro _
    | extract_lets
    | split
    | dsimp only

theorem State.setPortSt_within (s : State) (a2) (a3) :
    Within [.out, .lnk, .fab, .hst, .evt, .flog] s (State.setPortSt s a2 a3) := by
  unfold State.setPortSt
  repeat' first
    | with_reducible assumption
    | with_reducible exact Within.refl _ _
    | decide
    | with_reducible apply Within.step' (State.portDrop_within _ _)
    | with_reducible apply Within.step' (State.pulse_within _ _)
    | with_reducible apply Within.step' (State.modPort_within _ _ _)
    | with_reducible refine Within.ite ?_ ?_
    | with_reducible refine Within.ite_snd ?_ ?_
    | with_reducible intro _
    | extract_lets
    | split
    | dsimp only

theorem State.setWidths_within (s : State) (a2) (a3) (a4) :
    Within [.out, .tiles, .lp, .brd, .lnk, .fab, .hst, .itl, .evt, .flog] s (State.setWidths s a2 a3 a4) := by
  unfold State.setWidths
  repeat' first
    | with_reducible assumption
    | with_reducible exact Within.refl _ _
    | decide
    | with_reducible apply State.when_within
    | with_reducible apply Within.step' (State.regauge_within _ _)
    | with_reducible apply Within.step' (State.modPort_within _ _ _)
    | with_reducible intro _
    | extract_lets
    | split
    | dsimp only

theorem State.fullTraining_within (s : State) (a2) :
    Within [.out, .tiles, .lp, .brd, .lnk, .fab, .hst, .itl, .evt, .flog] s (State.fullTraining s a2) := by
  unfold State.fullTraining
  repeat' first
    | with_reducible assumption
    | with_reducible exact Within.refl _ _
    | decide
    | with_reducible apply Within.step' (State.linkLog_within _ _ _ _ _)
    | with_reducible apply Within.step' (State.setPortSt_within _ _ _)
    | with_reducible apply Within.step' (State.setWidths_within _ _ _ _)
    | with_reducible apply Within.step' (State.modPort_within _ _ _)
    | with_reducible refine Within.ite ?_ ?_
    | with_reducible refine Within.ite_snd ?_ ?_
    | with_reducible intro _
    | extract_lets
    | split
    | dsimp only

theorem State.fastTraining_within (s : State) (a2) :
    Within [.out, .lnk, .fab, .hst, .evt, .flog] s (State.fastTraining s a2) := by
  unfold State.fastTraining
  repeat' first
    | with_reducible assumption
    | with_reducible exact Within.refl _ _
    | decide
    | with_reducible apply Within.step' (State.linkLog_within _ _ _ _ _)
    | with_reducible apply Within.step' (State.setPortSt_within _ _ _)
    | with_reducible apply Within.step' (State.modPort_within _ _ _)
    | with_reducible refine Within.ite ?_ ?_
    | with_reducible intro _
    | extract_lets
    | split
    | dsimp only

theorem State.trainingFailed_within (s : State) (a2) :
    Within [.out, .tiles, .lp, .brd, .lnk, .fab, .hst, .itl, .evt, .flog] s (State.trainingFailed s a2) := by
  unfold State.trainingFailed
  repeat' first
    | with_reducible assumption
    | with_reducible exact Within.refl _ _
    | decide
    | with_reducible apply Within.step' (State.linkLog_within _ _ _ _ _)
    | with_reducible apply Within.step' (State.setPortSt_within _ _ _)
    | with_reducible apply Within.step' (State.modPort_within _ _ _)
    | with_reducible apply Within.step' (State.setWidths_within _ _ _ _)
    | with_reducible apply Within.step' (State.fullTraining_within _ _)
    | with_reducible refine Within.ite ?_ ?_
    | with_reducible refine Within.ite_snd ?_ ?_
    | with_reducible intro _
    | extract_lets
    | split
    | dsimp only

theorem State.sendKeyx_within (s : State) (a2) :
    Within [.lnk, .rot] s (State.sendKeyx s a2) := by
  unfold State.sendKeyx
  repeat' first
    | with_reducible assumption
    | with_reducible exact Within.refl _ _
    | decide
    | with_reducible apply Within.step' (State.modPort_within _ _ _)
    | with_reducible apply Within.step' (State.modRot_within _ _)
    | with_reducible refine Within.ite ?_ ?_
    | with_reducible refine Within.ite_snd ?_ ?_
    | with_reducible intro _
    | extract_lets
    | split
    | dsimp only

theorem State.keylessPort_within (s : State) (a2) :
    Within [.out, .lnk, .hst, .evt, .flog] s (State.keylessPort s a2) := by
  unfold State.keylessPort
  repeat' first
    | with_reducible assumption
    | with_reducible exact Within.refl _ _
    | decide
    | with_reducible apply Within.step' (State.pulse_within _ _)
    | with_reducible apply Within.step' (State.modPort_within _ _ _)
    | with_reducible refine Within.ite ?_ ?_
    | with_reducible refine Within.ite_snd ?_ ?_
    | with_reducible intro _
    | split
    | dsimp only

theorem State.linkUsers_within (s : State) (a2) (a3) :
    Within [.out, .hst, .cry, .evt, .flog] s (State.linkUsers s a2 a3) := by
  unfold State.linkUsers
  repeat' first
    | with_reducible assumption
    | with_reducible exact Within.refl _ _
    | decide
    | with_reducible apply Within.step' (State.log_within _ _ _ _ _)
    | with_reducible apply Within.step' (State.modKid_within _ _ _)
    | with_reducible apply Within.step' (State.kidUsers_within _ _ _)
    | with_reducible refine Within.ite ?_ ?_
    | with_reducible refine Within.ite_snd ?_ ?_
    | with_reducible intro _
    | extract_lets
    | split
    | dsimp only

theorem State.switchTx_within (s : State) (a2) (a3) :
    Within [.out, .lnk, .hst, .cry, .evt, .flog] s (State.switchTx s a2 a3) := by
  unfold State.switchTx
  repeat' first
    | with_reducible assumption
    | with_reducible exact Within.refl _ _
    | decide
    | with_reducible apply Within.step' (State.linkUsers_within _ _ _)
    | with_reducible apply Within.step' (State.modPort_within _ _ _)
    | with_reducible refine Within.ite ?_ ?_
    | with_reducible refine Within.ite_snd ?_ ?_
    | with_reducible intro _
    | extract_lets
    | split
    | dsimp only

theorem State.switchRx_within (s : State) (a2) (a3) :
    Within [.out, .lnk, .hst, .cry, .evt, .flog] s (State.switchRx s a2 a3) := by
  unfold State.switchRx
  repeat' first
    | with_reducible assumption
    | with_reducible exact Within.refl _ _
    | decide
    | with_reducible apply Within.step' (State.linkUsers_within _ _ _)
    | with_reducible apply Within.step' (State.modPort_within _ _ _)
    | with_reducible refine Within.ite ?_ ?_
    | with_reducible intro _
    | extract_lets
    | split
    | dsimp only

theorem State.enterActive_within (s : State) (a2) (a3) :
    Within [.out, .lnk, .fab, .hst, .rot, .evt, .flog] s (State.enterActive s a2 a3) := by
  unfold State.enterActive
  repeat' first
    | with_reducible assumption
    | with_reducible exact Within.refl _ _
    | decide
    | with_reducible apply Within.step' (State.routeHeld_within _)
    | with_reducible apply Within.step' (State.sendKeyx_within _ _)
    | with_reducible apply Within.step' (State.setPortSt_within _ _ _)
    | with_reducible apply Within.step' (State.modPort_within _ _ _)
    | with_reducible exact Holds.none
    | with_reducible refine Holds.some ?_
    | with_reducible refine Holds.map_state ?_ ?_
    | with_reducible refine Holds.map ?_
    | with_reducible refine Holds.bind ?_
    | with_reducible refine Within.getD ?_ ?_
    | with_reducible intro _
    | extract_lets
    | split
    | dsimp only

theorem State.admitPeer_within (s : State) (a2) :
    Within [.out, .lnk, .fab, .hst, .rot, .evt, .flog] s (State.admitPeer s a2) := by
  unfold State.admitPeer
  repeat' first
    | with_reducible assumption
    | with_reducible exact Within.refl _ _
    | decide
    | with_reducible apply Within.step' (State.modPort_within _ _ _)
    | with_reducible apply Within.step' (State.enterActive_within _ _ _)
    | with_reducible refine Within.ite ?_ ?_
    | with_reducible intro _
    | extract_lets
    | split
    | dsimp only

theorem State.settle_within (s : State) (a2) (a3) :
    Within [.out, .tiles, .lp, .brd, .lnk, .fab, .hst, .itl, .evt, .flog] s (State.settle s a2 a3) := by
  unfold State.settle
  repeat' first
    | with_reducible assumption
    | with_reducible exact Within.refl _ _
    | decide
    | with_reducible apply Within.step' (State.modPort_within _ _ _)
    | with_reducible apply Within.step' (State.setWidths_within _ _ _ _)
    | with_reducible apply Within.step' (State.linkLog_within _ _ _ _ _)
    | with_reducible apply Within.step' (State.setPortSt_within _ _ _)
    | with_reducible apply Within.step' (State.trainingFailed_within _ _)
    | with_reducible refine Within.ite ?_ ?_
    | with_reducible intro _
    | extract_lets
    | split
    | dsimp only

theorem State.lnkCtrl_within (s : State) (a2) (a3) :
    Within [.out, .tiles, .lp, .brd, .lnk, .fab, .hst, .itl, .evt, .flog] s (State.lnkCtrl s a2 a3) := by
  unfold State.lnkCtrl
  repeat' first
    | with_reducible assumption
    | with_reducible exact Within.refl _ _
    | decide
    | with_reducible apply State.when_within
    | with_reducible apply Within.step' (State.fastTraining_within _ _)
    | with_reducible apply Within.step' (State.fullTraining_within _ _)
    | with_reducible apply Within.step' (State.setPortSt_within _ _ _)
    | with_reducible apply Within.step' (State.setWidths_within _ _ _ _)
    | with_reducible apply Within.step' (State.modPort_within _ _ _)
    | with_reducible refine Within.ite ?_ ?_
    | with_reducible intro _
    | extract_lets
    | split
    | dsimp only

theorem State.laneFailing_within (s : State) (a2) (a3) (a4) :
    Within [.out, .lnk, .fab, .hst, .evt, .flog] s (State.laneFailing s a2 a3 a4) := by
  unfold State.laneFailing
  repeat' first
    | with_reducible assumption
    | with_reducible exact Within.refl _ _
    | decide
    | with_reducible apply Within.step' (State.modPort_within _ _ _)
    | with_reducible apply Within.step' (State.fastTraining_within _ _)
    | with_reducible refine Within.ite ?_ ?_
    | with_reducible intro _
    | extract_lets
    | split
    | dsimp only

theorem State.laneSwitchRx_within (s : State) (a2) (a3) :
    Within [.out, .lnk, .hst, .evt, .flog] s (State.laneSwitchRx s a2 a3) := by
  unfold State.laneSwitchRx
  repeat' first
    | with_reducible assumption
    | with_reducible exact Within.refl _ _
    | decide
    | with_reducible apply Within.step' (State.linkLog_within _ _ _ _ _)
    | with_reducible apply Within.step' (State.pulse_within _ _)
    | with_reducible apply Within.step' (State.modPort_within _ _ _)
    | with_reducible refine Within.ite ?_ ?_
    | with_reducible intro _
    | extract_lets
    | split
    | dsimp only

theorem State.laneSwitchTx_within (s : State) (a2) (a3) :
    Within [.out, .lnk, .hst, .evt, .flog] s (State.laneSwitchTx s a2 a3) := by
  unfold State.laneSwitchTx
  repeat' first
    | with_reducible assumption
    | with_reducible exact Within.refl _ _
    | decide
    | with_reducible apply Within.step' (State.linkLog_within _ _ _ _ _)
    | with_reducible apply Within.step' (State.pulse_within _ _)
    | with_reducible apply Within.step' (State.modPort_within _ _ _)
    | with_reducible refine Within.ite ?_ ?_
    | with_reducible intro _
    | split
    | dsimp only

theorem State.linkPeriod_within (s : State) (a2) :
    Within [.out, .lnk, .fab, .hst, .evt, .flog] s (State.linkPeriod s a2) := by
  unfold State.linkPeriod
  repeat' first
    | with_reducible assumption
    | with_reducible exact Within.refl _ _
    | decide
    | with_reducible apply State.each_within
    | with_reducible apply Within.step' (State.modPort_within _ _ _)
    | with_reducible apply Within.step' (State.laneFailing_within _ _ _ _)
    | with_reducible refine Within.ite ?_ ?_
    | with_reducible intro _
    | extract_lets
    | split
    | dsimp only

theorem State.discardFrame_within (s : State) (a2) (a3) (a4) :
    Within [.out, .lnk, .fab, .hst, .evt, .flog] s (State.discardFrame s a2 a3 a4) := by
  unfold State.discardFrame
  repeat' first
    | with_reducible assumption
    | with_reducible exact Within.refl _ _
    | decide
    | with_reducible apply Within.step' (State.fastTraining_within _ _)
    | with_reducible apply Within.step' (State.modPort_within _ _ _)
    | with_reducible refine Within.ite ?_ ?_
    | with_reducible intro _
    | extract_lets
    | split
    | dsimp only

theorem State.frameIn_within (s : State) (a2) (a3) :
    Within [.out, .lnk, .fab, .hst, .cry, .evt, .flog] s (State.frameIn s a2 a3) := by
  unfold State.frameIn
  repeat' first
    | with_reducible assumption
    | with_reducible exact Within.refl _ _
    | decide
    | with_reducible apply State.when_within
    | with_reducible apply Within.step' (State.routeHeld_within _)
    | with_reducible apply Within.step' (State.modPort_within _ _ _)
    | with_reducible apply Within.step' (State.keylessPort_within _ _)
    | with_reducible apply Within.step' (State.discardFrame_within _ _ _ _)
    | with_reducible apply Within.step' (State.switchRx_within _ _ _)
    | with_reducible apply Within.step' (State.laneSwitchRx_within _ _ _)
    | with_reducible refine Within.foldl_snd ?_ ?_
    | with_reducible refine Within.ite ?_ ?_
    | with_reducible intro _
    | extract_lets
    | split
    | dsimp only

theorem State.takeFlit_within (s : State) (a2) (a3) (a4) :
    Within [.tiles, .lp, .lnk, .fab] s (State.takeFlit s a2 a3 a4) := by
  unfold State.takeFlit
  repeat' first
    | with_reducible assumption
    | with_reducible exact Within.refl _ _
    | decide
    | with_reducible apply State.when_within
    | with_reducible apply Within.step' (State.modPort_within _ _ _)
    | with_reducible apply Within.step' (State.setLevel_within _ _ _ _)
    | with_reducible exact Holds.none
    | with_reducible refine Holds.some ?_
    | with_reducible refine Holds.map_state ?_ ?_
    | with_reducible refine Holds.map ?_
    | with_reducible refine Holds.bind ?_
    | with_reducible refine Within.ite ?_ ?_
    | with_reducible refine Within.ite_snd ?_ ?_
    | with_reducible intro _
    | extract_lets
    | split
    | dsimp only

theorem State.fillSlots_within (s : State) (a2) (a3) (a4) :
    Within [.tiles, .lp, .lnk, .fab] s (State.fillSlots s a2 a3 a4).2.2 := by
  induction a4 generalizing s a2 a3 with
  | zero =>
    unfold State.fillSlots
    try dsimp only
    repeat' first
      | with_reducible assumption
      | with_reducible exact Within.refl _ _
      | decide
      | with_reducible apply Within.step' (State.takeFlit_within _ _ _ _)
      | with_reducible refine Within.ite ?_ ?_
      | with_reducible intro _
      | extract_lets
      | split
      | dsimp only
  | succ n ih =>
    unfold State.fillSlots
    try dsimp only
    repeat' first
      | with_reducible assumption
      | with_reducible exact Within.refl _ _
      | decide
      | with_reducible apply Within.step' (ih _ _ _)
      | with_reducible refine Within.step' (Within.of_snd2 (ih _ _ _) (by assumption)) ?_ ?_
      | with_reducible apply Within.step' (State.takeFlit_within _ _ _ _)
      | with_reducible refine Within.ite ?_ ?_
      | with_reducible intro _
      | extract_lets
      | split
      | dsimp only

theorem State.ctrlSent_within (s : State) (a2) (a3) (a4) :
    Within [.lnk] s (State.ctrlSent s a2 a3 a4) := by
  unfold State.ctrlSent
  repeat' first
    | with_reducible assumption
    | with_reducible exact Within.refl _ _
    | decide
    | with_reducible apply Within.step' (State.modPort_within _ _ _)
    | with_reducible refine Within.ite ?_ ?_
    | with_reducible refine Within.ite_snd ?_ ?_
    | with_reducible intro _
    | extract_lets
    | split
    | dsimp only

theorem State.resend_within (s : State) (a2) (a3) :
    Within [.out, .lnk, .fab, .hst, .evt, .flog] s (State.resend s a2 a3) := by
  unfold State.resend
  repeat' first
    | with_reducible assumption
    | with_reducible exact Within.refl _ _
    | decide
    | with_reducible apply Within.step' (State.fastTraining_within _ _)
    | with_reducible apply Within.step' (State.emit_within _ _)
    | with_reducible apply Within.step' (State.modPort_within _ _ _)
    | with_reducible refine Within.ite ?_ ?_
    | with_reducible intro _
    | extract_lets
    | split
    | dsimp only

theorem State.frameOut_within (s : State) (a2) :
    Within [.out, .tiles, .lp, .lnk, .fab, .hst, .rot, .cry, .evt, .flog] s (State.frameOut s a2) := by
  unfold State.frameOut
  try dsimp only
  repeat' first
    | with_reducible assumption
    | with_reducible exact Within.refl _ _
    | decide
    | with_reducible apply State.each_within
    | with_reducible apply Within.step' (State.sendKeyx_within _ _)
    | with_reducible apply Within.step' (State.emit_within _ _)
    | with_reducible apply Within.step' (State.ctrlSent_within _ _ _ _)
    | with_reducible apply Within.step' (State.modPort_within _ _ _)
    | with_reducible apply Within.step' (State.fillSlots_within _ _ _ _)
    | with_reducible refine Within.step' (Within.of_snd2 (State.fillSlots_within _ _ _ _) (by assumption)) ?_ ?_
    | with_reducible apply Within.step' (State.switchTx_within _ _ _)
    | with_reducible apply Within.step' (State.laneSwitchTx_within _ _ _)
    | with_reducible apply Within.step' (State.resend_within _ _ _)
    | with_reducible refine Within.foldl_snd ?_ ?_
    | with_reducible refine Within.ite ?_ ?_
    | with_reducible refine Within.ite_snd ?_ ?_
    | with_reducible intro _
    | split
    | dsimp only

/-! ### Fabric -/

theorem State.fabRefuse_within (s : State) (a2) (a3) (a4) :
    Within [.out, .lnk, .fab] s (State.fabRefuse s a2 a3 a4) := by
  unfold State.fabRefuse
  repeat' first
    | with_reducible assumption
    | with_reducible exact Within.refl _ _
    | decide
    | with_reducible apply Within.step' (State.routePacket_within _ _)
    | with_reducible apply Within.step' (State.modFab_within _ _)
    | with_reducible apply Within.step' (State.drainPacket_within _ _ _)
    | with_reducible refine Within.ite ?_ ?_
    | with_reducible intro _
    | extract_lets
    | split
    | dsimp only

theorem State.ingressCount_within (s : State) (a2) (a3) :
    Within [.fab] s (State.ingressCount s a2 a3) := by
  unfold State.ingressCount
  repeat' first
    | with_reducible assumption
    | with_reducible exact Within.refl _ _
    | decide
    | with_reducible apply Within.step' (State.modFab_within _ _)
    | with_reducible refine Within.ite ?_ ?_
    | with_reducible refine Within.ite_snd ?_ ?_
    | with_reducible intro _
    | extract_lets
    | split
    | dsimp only

theorem State.winInstall_within (s : State) (a2) :
    Within [.fab] s (State.winInstall s a2) := by
  unfold State.winInstall
  repeat' first
    | with_reducible assumption
    | with_reducible exact Within.refl _ _
    | decide
    | with_reducible apply Within.step' (State.modFab_within _ _)
    | with_reducible intro _
    | split
    | dsimp only

theorem State.windowIn_within (s : State) (a2) (a3) (a4) :
    Within [.out, .tiles, .mesh, .lp, .lnk, .fab, .hst, .sched, .evt, .flog] s (State.windowIn s a2 a3 a4) := by
  unfold State.windowIn
  repeat' first
    | with_reducible assumption
    | with_reducible exact Within.refl _ _
    | decide
    | with_reducible apply Within.step' (State.ingressCount_within _ _ _)
    | with_reducible apply Within.step' (State.drainPacket_within _ _ _)
    | with_reducible apply Within.step' (State.modFab_within _ _)
    | with_reducible apply Within.step' (State.letIn_within _ _ _)
    | with_reducible apply Holds.step' (State.issue_within _ _ _ _ _ _)
    | with_reducible refine Within.step' (Holds.get (State.issue_within _ _ _ _ _ _) (by assumption)) ?_ ?_
    | with_reducible apply Within.step' (State.winInstall_within _ _)
    | with_reducible apply Within.step' (State.emit_within _ _)
    | with_reducible apply Within.step' (State.fabRefuse_within _ _ _ _)
    | with_reducible refine Within.ite ?_ ?_
    | with_reducible intro _
    | extract_lets
    | split
    | dsimp only

theorem State.fabricAnswer_within (s : State) (a2) (a3) (a4) (a5) :
    Within [.out, .lnk, .fab] s (State.fabricAnswer s a2 a3 a4 a5) := by
  unfold State.fabricAnswer
  repeat' first
    | with_reducible assumption
    | with_reducible exact Within.refl _ _
    | decide
    | with_reducible apply Within.step' (State.routePacket_within _ _)
    | with_reducible apply Within.step' (State.ingressCount_within _ _ _)
    | with_reducible apply Within.step' (State.modFab_within _ _)
    | with_reducible intro _
    | extract_lets
    | split
    | dsimp only

theorem State.collSend_within (s : State) (a2) (a3) :
    Within [.out, .lnk, .fab] s (State.collSend s a2 a3) := by
  unfold State.collSend
  repeat' first
    | with_reducible assumption
    | with_reducible exact Within.refl _ _
    | decide
    | with_reducible apply Within.step' (State.sendOn_within _ _ _)
    | with_reducible apply Within.step' (State.modFab_within _ _)
    | with_reducible refine Within.ite ?_ ?_
    | with_reducible intro _
    | extract_lets
    | split
    | dsimp only

theorem State.collStore_within (s : State) (a2) (a3) (a4) (a5) (a6) :
    Within [.out, .mem, .tiles, .mesh, .lp, .brd, .fab, .hst, .que, .itl, .cry, .evt, .flog] s (State.collStore s a2 a3 a4 a5 a6).2 := by
  induction a4 generalizing s a2 a3 a5 a6 with
  | zero =>
    unfold State.collStore
    try dsimp only
    repeat' first
      | with_reducible assumption
      | with_reducible exact Within.refl _ _
      | decide
      | with_reducible apply Within.step' (State.writeMpa_within _ _ _ _ _ _)
      | with_reducible refine Within.step' (Within.of_snd (State.writeMpa_within _ _ _ _ _ _) (by assumption)) ?_ ?_
      | with_reducible apply Within.step' (State.winInstall_within _ _)
      | with_reducible refine Within.ite ?_ ?_
      | with_reducible intro _
      | extract_lets
      | split
      | dsimp only
  | succ n ih =>
    unfold State.collStore
    try dsimp only
    repeat' first
      | with_reducible assumption
      | with_reducible exact Within.refl _ _
      | decide
      | with_reducible apply Within.step' (ih _ _ _ _ _)
      | with_reducible refine Within.step' (Within.of_snd (ih _ _ _ _ _) (by assumption)) ?_ ?_
      | with_reducible apply Within.step' (State.writeMpa_within _ _ _ _ _ _)
      | with_reducible refine Within.step' (Within.of_snd (State.writeMpa_within _ _ _ _ _ _) (by assumption)) ?_ ?_
      | with_reducible apply Within.step' (State.winInstall_within _ _)
      | with_reducible refine Within.ite ?_ ?_
      | with_reducible intro _
      | extract_lets
      | split
      | dsimp only

theorem State.collApply_within (s : State) (a2) (a3) :
    Within [.out, .mem, .tiles, .mesh, .lp, .brd, .fab, .hst, .que, .itl, .cry, .evt, .flog] s (State.collApply s a2 a3) := by
  unfold State.collApply
  repeat' first
    | with_reducible assumption
    | with_reducible exact Within.refl _ _
    | decide
    | with_reducible apply Within.step' (State.modColl_within _ _ _)
    | with_reducible apply Within.step' (State.modFab_within _ _)
    | with_reducible apply Within.step' (State.takeRef_within _ _ _)
    | with_reducible apply Within.step' (State.dropRef_within _ _ _)
    | with_reducible refine Within.ite ?_ ?_
    | with_reducible refine Within.ite_snd ?_ ?_
    | with_reducible intro _
    | extract_lets
    | split
    | dsimp only

theorem State.collSettle_within (s : State) (a2) :
    Within [.out, .mem, .tiles, .mesh, .lp, .brd, .fab, .hst, .que, .itl, .cry, .evt, .flog] s (State.collSettle s a2) := by
  unfold State.collSettle
  repeat' first
    | with_reducible assumption
    | with_reducible exact Within.refl _ _
    | decide
    | with_reducible apply Within.step' (State.collApply_within _ _ _)
    | split
    | dsimp only

theorem State.collAnswer_within (s : State) (a2) (a3) (a4) :
    Within [.out, .lnk, .fab] s (State.collAnswer s a2 a3 a4) := by
  unfold State.collAnswer
  repeat' first
    | with_reducible assumption
    | with_reducible exact Within.refl _ _
    | decide
    | with_reducible apply Within.step' (State.routePacket_within _ _)
    | with_reducible refine Within.ite ?_ ?_
    | with_reducible refine Within.ite_snd ?_ ?_
    | with_reducible intro _
    | split
    | dsimp only

theorem State.collRefuse_within (s : State) (a2) (a3) :
    Within [.out, .lnk, .fab] s (State.collRefuse s a2 a3) := by
  unfold State.collRefuse
  repeat' first
    | with_reducible assumption
    | with_reducible exact Within.refl _ _
    | decide
    | with_reducible apply Within.step' (State.collAnswer_within _ _ _ _)
    | with_reducible apply Within.step' (State.modFab_within _ _)
    | with_reducible intro _
    | split
    | dsimp only

theorem State.collFail_within (s : State) (a2) :
    Within [.out, .mem, .tiles, .mesh, .lp, .brd, .lnk, .fab, .hst, .que, .itl, .cry, .evt, .flog] s (State.collFail s a2) := by
  unfold State.collFail
  repeat' first
    | with_reducible assumption
    | with_reducible exact Within.refl _ _
    | decide
    | with_reducible apply State.each_within
    | with_reducible apply Within.step' (State.collSettle_within _ _)
    | with_reducible apply Within.step' (State.collRefuse_within _ _ _)
    | with_reducible apply Within.step' (State.emit_within _ _)
    | with_reducible apply Within.step' (State.pulse_within _ _)
    | with_reducible apply Within.step' (State.modColl_within _ _ _)
    | with_reducible apply Within.step' (State.modFab_within _ _)
    | with_reducible intro _
    | extract_lets
    | split
    | dsimp only

theorem State.collDone_within (s : State) (a2) :
    Within [.out, .mem, .tiles, .mesh, .lp, .brd, .fab, .hst, .que, .itl, .cry, .evt, .flog] s (State.collDone s a2) := by
  unfold State.collDone
  repeat' first
    | with_reducible assumption
    | with_reducible exact Within.refl _ _
    | decide
    | with_reducible apply Within.step' (State.collSettle_within _ _)
    | with_reducible apply Holds.step2' (State.signalRef_within _ _ _ _)
    | with_reducible refine Holds.map2_state (State.signalRef_within _ _ _ _) ?_ ?_
    | with_reducible refine Within.step' (Holds.get2 (State.signalRef_within _ _ _ _) (by assumption)) ?_ ?_
    | with_reducible apply Within.step' (State.modColl_within _ _ _)
    | with_reducible refine Within.ite ?_ ?_
    | with_reducible intro _
    | extract_lets
    | split
    | dsimp only

theorem State.collResult_within (s : State) (a2) (a3) (a4) :
    Within [.out, .mem, .tiles, .mesh, .lp, .brd, .lnk, .fab, .hst, .que, .itl, .cry, .evt, .flog] s (State.collResult s a2 a3 a4) := by
  unfold State.collResult
  repeat' first
    | with_reducible assumption
    | with_reducible exact Within.refl _ _
    | decide
    | with_reducible apply State.each_within
    | with_reducible apply Within.step' (State.collDone_within _ _)
    | with_reducible apply Within.step' (State.modColl_within _ _ _)
    | with_reducible apply Within.step' (State.collFail_within _ _)
    | with_reducible apply Within.step' (State.modFab_within _ _)
    | with_reducible apply Within.step' (State.collStore_within _ _ _ _ _ _)
    | with_reducible refine Within.step' (Within.of_snd (State.collStore_within _ _ _ _ _ _) (by assumption)) ?_ ?_
    | with_reducible apply Within.step' (State.collSend_within _ _ _)
    | with_reducible refine Within.ite ?_ ?_
    | with_reducible refine Within.ite_snd ?_ ?_
    | with_reducible intro _
    | extract_lets
    | split
    | dsimp only

theorem State.collComplete_within (s : State) (a2) (a3) :
    Within [.out, .mem, .tiles, .mesh, .lp, .brd, .lnk, .fab, .hst, .que, .itl, .cry, .evt, .flog] s (State.collComplete s a2 a3) := by
  unfold State.collComplete
  repeat' first
    | with_reducible assumption
    | with_reducible exact Within.refl _ _
    | decide
    | with_reducible apply Within.step' (State.collResult_within _ _ _ _)
    | with_reducible apply Within.step' (State.collSend_within _ _ _)
    | with_reducible apply Within.step' (State.modColl_within _ _ _)
    | with_reducible apply Within.step' (State.modFab_within _ _)
    | with_reducible refine Within.ite ?_ ?_
    | with_reducible intro _
    | extract_lets
    | split
    | dsimp only

theorem State.collSum_within (s : State) (a2) (a3) (a4) :
    Within [.out, .mem, .tiles, .mesh, .lp, .brd, .lnk, .fab, .hst, .que, .itl, .cry, .evt, .flog] s (State.collSum s a2 a3 a4) := by
  unfold State.collSum
  repeat' first
    | with_reducible assumption
    | with_reducible exact Within.refl _ _
    | decide
    | with_reducible apply Within.step' (State.collComplete_within _ _ _)
    | with_reducible apply Within.step' (State.collAnswer_within _ _ _ _)
    | with_reducible apply Within.step' (State.modColl_within _ _ _)
    | with_reducible apply Within.step' (State.modFab_within _ _)
    | with_reducible refine Within.ite ?_ ?_
    | with_reducible refine Within.ite_snd ?_ ?_
    | with_reducible intro _
    | extract_lets
    | split
    | dsimp only

theorem State.collTake_within (s : State) (a2) (a3) (a4) :
    Within [.out, .mem, .tiles, .mesh, .lp, .brd, .lnk, .fab, .hst, .que, .itl, .cry, .evt, .flog] s (State.collTake s a2 a3 a4) := by
  unfold State.collTake
  repeat' first
    | with_reducible assumption
    | with_reducible exact Within.refl _ _
    | decide
    | with_reducible apply Within.step' (State.collRefuse_within _ _ _)
    | with_reducible apply Within.step' (State.modFab_within _ _)
    | with_reducible apply Within.step' (State.collSum_within _ _ _ _)
    | with_reducible intro _
    | split
    | dsimp only

theorem State.collRetry_within (s : State) (a2) (a3) :
    Within [.out, .mem, .tiles, .mesh, .lp, .brd, .lnk, .fab, .hst, .que, .itl, .cry, .evt, .flog] s (State.collRetry s a2 a3) := by
  induction a3 generalizing s a2 with
  | zero =>
    unfold State.collRetry
    try dsimp only
    repeat' first
      | with_reducible assumption
      | with_reducible exact Within.refl _ _
      | decide
      | with_reducible apply Within.step' (State.collTake_within _ _ _ _)
      | with_reducible apply Within.step' (State.modFab_within _ _)
      | with_reducible intro _
      | extract_lets
      | split
      | dsimp only
  | succ n ih =>
    unfold State.collRetry
    try dsimp only
    repeat' first
      | with_reducible assumption
      | with_reducible exact Within.refl _ _
      | decide
      | with_reducible apply Within.step' (ih _ _)
      | with_reducible apply Within.step' (State.collTake_within _ _ _ _)
      | with_reducible apply Within.step' (State.modFab_within _ _)
      | with_reducible intro _
      | extract_lets
      | split
      | dsimp only

theorem State.collIn_within (s : State) (a2) (a3) (a4) :
    Within [.out, .mem, .tiles, .mesh, .lp, .brd, .lnk, .fab, .hst, .que, .itl, .cry, .evt, .flog] s (State.collIn s a2 a3 a4) := by
  unfold State.collIn
  repeat' first
    | with_reducible assumption
    | with_reducible exact Within.refl _ _
    | decide
    | with_reducible apply Within.step' (State.collRetry_within _ _ _)
    | with_reducible apply Within.step' (State.collTake_within _ _ _ _)
    | extract_lets
    | split
    | dsimp only

theorem State.collLocal_within (s : State) (a2) :
    Within [.out, .mem, .tiles, .mesh, .lp, .brd, .lnk, .fab, .hst, .que, .itl, .cry, .evt, .flog] s (State.collLocal s a2) := by
  unfold State.collLocal
  repeat' first
    | with_reducible assumption
    | with_reducible exact Within.refl _ _
    | decide
    | with_reducible apply Within.step' (State.collIn_within _ _ _ _)
    | with_reducible apply Within.step' (State.collRefuse_within _ _ _)
    | with_reducible refine Within.ite ?_ ?_
    | with_reducible refine Within.ite_snd ?_ ?_
    | with_reducible intro _
    | split
    | dsimp only

theorem State.ingress_within (s : State) (a2) (a3) (a4) :
    Within [.out, .mem, .tiles, .mesh, .lp, .brd, .lnk, .fab, .hst, .que, .itl, .sched, .cry, .evt, .flog] s (State.ingress s a2 a3 a4) := by
  unfold State.ingress
  repeat' first
    | with_reducible assumption
    | with_reducible exact Within.refl _ _
    | decide
    | with_reducible apply Within.step' (State.fabRefuse_within _ _ _ _)
    | with_reducible apply Within.step' (State.collLocal_within _ _)
    | with_reducible apply Within.step' (State.windowIn_within _ _ _ _)
    | with_reducible apply Within.step' (State.routePacket_within _ _)
    | with_reducible apply Within.step' (State.drainPacket_within _ _ _)
    | with_reducible refine Within.ite ?_ ?_
    | with_reducible intro _
    | extract_lets
    | split
    | dsimp only

/-! ### Residency -/

theorem State.shareOff0_within (s : State) (a2) (a3) :
    Within [.tiles] s (State.shareOff0 s a2 a3) := by
  unfold State.shareOff0
  repeat' first
    | with_reducible assumption
    | with_reducible exact Within.refl _ _
    | decide
    | with_reducible apply Within.step' (State.modSrm_within _ _ _)
    | with_reducible intro _
    | split
    | dsimp only

theorem State.purgeCtxWork_within (s : State) (a2) (a3) (a4) :
    Within [.out, .mem, .tiles, .mesh, .lp, .xlt, .brd, .fab, .hst, .que, .itl, .cry, .evt, .flog] s (State.purgeCtxWork s a2 a3 a4) := by
  unfold State.purgeCtxWork
  repeat' first
    | with_reducible assumption
    | with_reducible exact Within.refl _ _
    | decide
    | with_reducible apply State.each_within
    | with_reducible apply Within.step' (State.complete_within _ _ _ _ _ _)
    | with_reducible apply Within.step' (State.shareOff0_within _ _ _)
    | with_reducible apply Within.step' (State.purgeBank_within _ _ _)
    | with_reducible intro _
    | extract_lets
    | split
    | dsimp only

theorem State.rssEnds_within (s : State) (a2) (a3) :
    Within [.sched] s (State.rssEnds s a2 a3) := by
  unfold State.rssEnds
  repeat' first
    | with_reducible assumption
    | with_reducible exact Within.refl _ _
    | decide
    | with_reducible apply Within.step' (State.modSched_within _ _)
    | with_reducible intro _
    | split
    | dsimp only

theorem State.endResidency_within (s : State) (a2) (a3) :
    Within [.que, .sched] s (State.endResidency s a2 a3) := by
  unfold State.endResidency
  repeat' first
    | with_reducible assumption
    | with_reducible exact Within.refl _ _
    | decide
    | with_reducible apply Within.step' (State.rssEnds_within _ _ _)
    | with_reducible apply Within.step' (State.modQue_within _ _)
    | with_reducible apply Within.step' (State.fqDrop_within _ _)
    | with_reducible intro _
    | extract_lets
    | split
    | dsimp only

theorem State.purgeAll_within (s : State) (a2) :
    Within [.out, .mem, .tiles, .mesh, .lp, .xlt, .brd, .fab, .hst, .que, .itl, .sched, .cry, .evt, .flog] s (State.purgeAll s a2) := by
  unfold State.purgeAll
  repeat' first
    | with_reducible assumption
    | with_reducible exact Within.refl _ _
    | decide
    | with_reducible apply State.each_within
    | with_reducible apply Within.step' (State.endResidency_within _ _ _)
    | with_reducible apply Within.step' (State.purgeCtxWork_within _ _ _ _)
    | with_reducible intro _
    | split
    | dsimp only

theorem State.dropQueues_within (s : State) (a2) (a3) (a4) :
    Within [.out, .mem, .tiles, .mesh, .lp, .brd, .fab, .hst, .que, .itl, .cry, .evt, .flog] s (State.dropQueues s a2 a3 a4) := by
  unfold State.dropQueues
  repeat' first
    | with_reducible assumption
    | with_reducible exact Within.refl _ _
    | decide
    | with_reducible apply State.each_within
    | with_reducible apply Within.step' (State.endQueue_within _ _ _)
    | with_reducible intro _
    | extract_lets
    | split
    | dsimp only

theorem State.tdiError_within (s : State) (a2) (a3) (a4) :
    Within [.out, .hst, .evt, .flog] s (State.tdiError s a2 a3 a4) := by
  unfold State.tdiError
  repeat' first
    | with_reducible assumption
    | with_reducible exact Within.refl _ _
    | decide
    | with_reducible apply Within.step' (State.pulse_within _ _)
    | with_reducible apply Within.step' (State.modFunc_within _ _ _ _)
    | with_reducible refine Within.ite ?_ ?_
    | with_reducible intro _
    | extract_lets
    | split
    | dsimp only

theorem State.hostEnd_within (s : State) (a2) (a3) (a4) :
    Within [.out, .hst, .evt, .flog] s (State.hostEnd s a2 a3 a4) := by
  unfold State.hostEnd
  repeat' first
    | with_reducible assumption
    | with_reducible exact Within.refl _ _
    | decide
    | with_reducible apply State.each_within
    | with_reducible apply Within.step' (State.emit_within _ _)
    | with_reducible apply Within.step' (State.modHst_within _ _)
    | with_reducible apply Within.step' (State.hostLost_within _ _)
    | with_reducible apply Within.step' (State.hostNext_within _)
    | with_reducible refine Within.ite ?_ ?_
    | with_reducible refine Within.ite_snd ?_ ?_
    | with_reducible intro _
    | extract_lets
    | split
    | dsimp only

theorem State.hostEndAll_within (s : State) (a2) (a3) :
    Within [.out, .hst, .evt, .flog] s (State.hostEndAll s a2 a3) := by
  unfold State.hostEndAll
  repeat' first
    | with_reducible assumption
    | with_reducible exact Within.refl _ _
    | decide
    | with_reducible apply State.each_within
    | with_reducible apply Within.step' (State.hostEnd_within _ _ _ _)
    | with_reducible apply Within.step' (State.emit_within _ _)
    | with_reducible apply Within.step' (State.hostLost_within _ _)
    | with_reducible apply Within.step' (State.modHst_within _ _)
    | with_reducible intro _
    | extract_lets
    | split
    | dsimp only

theorem State.funcReset_within (s : State) (a2) (a3) :
    Within [.xlt, .hst] s (State.funcReset s a2 a3) := by
  unfold State.funcReset
  repeat' first
    | with_reducible assumption
    | with_reducible exact Within.refl _ _
    | decide
    | with_reducible apply State.when_within
    | with_reducible apply Within.step' (State.modFunc_within _ _ _ _)
    | with_reducible apply Within.step' (State.modXlt_within _ _)
    | with_reducible apply Within.step' (State.modHst_within _ _)
    | with_reducible refine Within.ite ?_ ?_
    | with_reducible intro _
    | extract_lets
    | split
    | dsimp only

theorem State.flrOne_within (s : State) (a2) (a3) :
    Within [.out, .mem, .tiles, .mesh, .lp, .xlt, .brd, .fab, .hst, .que, .itl, .sched, .cry, .evt, .flog] s (State.flrOne s a2 a3) := by
  unfold State.flrOne
  repeat' first
    | with_reducible assumption
    | with_reducible exact Within.refl _ _
    | decide
    | with_reducible apply State.when_within
    | with_reducible apply Within.step' (State.funcReset_within _ _ _)
    | with_reducible apply Within.step' (State.dropQueues_within _ _ _ _)
    | with_reducible apply Within.step' (State.purgeAll_within _ _)
    | with_reducible apply Within.step' (State.modHst_within _ _)
    | with_reducible apply Within.step' (State.hostEndAll_within _ _ _)
    | with_reducible apply Within.step' (State.dropService_within _ _)
    | with_reducible refine Within.ite ?_ ?_
    | with_reducible refine Within.ite_snd ?_ ?_
    | with_reducible intro _
    | extract_lets
    | split
    | dsimp only

theorem State.vfOff_within (s : State) (a2) :
    Within [.out, .mem, .tiles, .mesh, .lp, .xlt, .brd, .fab, .hst, .que, .itl, .sched, .cry, .evt, .flog] s (State.vfOff s a2) := by
  unfold State.vfOff
  repeat' first
    | with_reducible assumption
    | with_reducible exact Within.refl _ _
    | decide
    | with_reducible apply State.each_within
    | with_reducible apply Within.step' (State.modHst_within _ _)
    | with_reducible apply Within.step' (State.modHPort_within _ _ _)
    | with_reducible apply Within.step' (State.flrOne_within _ _ _)
    | with_reducible refine Within.ite ?_ ?_
    | with_reducible intro _
    | extract_lets
    | split
    | dsimp only

theorem State.flr_within (s : State) (a2) (a3) :
    Within [.out, .mem, .tiles, .mesh, .lp, .xlt, .brd, .fab, .hst, .que, .itl, .sched, .cry, .evt, .flog] s (State.flr s a2 a3) := by
  unfold State.flr
  repeat' first
    | with_reducible assumption
    | with_reducible exact Within.refl _ _
    | decide
    | with_reducible apply Within.step' (State.flrOne_within _ _ _)
    | with_reducible apply Within.step' (State.vfOff_within _ _)
    | with_reducible refine Within.ite ?_ ?_
    | with_reducible refine Within.ite_snd ?_ ?_
    | with_reducible intro _
    | split
    | dsimp only

/-! ### Host -/

theorem State.hostRefused_within (s : State) (a2) (a3) :
    Within [.hst] s (State.hostRefused s a2 a3) := by
  unfold State.hostRefused
  repeat' first
    | with_reducible assumption
    | with_reducible exact Within.refl _ _
    | decide
    | with_reducible apply Within.step' (State.modFunc_within _ _ _ _)
    | with_reducible intro _
    | split
    | dsimp only

theorem State.bar2Refused_within (s : State) (a2) (a3) (a4) :
    Within [.out, .hst, .evt, .flog] s (State.bar2Refused s a2 a3 a4) := by
  unfold State.bar2Refused
  repeat' first
    | with_reducible assumption
    | with_reducible exact Within.refl _ _
    | decide
    | with_reducible apply Within.step' (State.emit_within _ _)
    | with_reducible apply Within.step' (State.pulse_within _ _)
    | with_reducible apply Within.step' (State.hostRefused_within _ _ _)
    | split
    | dsimp only

theorem State.takeBell_within (s : State) (a2) (a3) :
    Within [.hst, .que] s (State.takeBell s a2 a3) := by
  unfold State.takeBell
  repeat' first
    | with_reducible assumption
    | with_reducible exact Within.refl _ _
    | decide
    | with_reducible apply Within.step' (State.modQ_within _ _ _)
    | with_reducible apply Within.step' (State.hostRefused_within _ _ _)
    | with_reducible refine Within.ite ?_ ?_
    | with_reducible intro _
    | extract_lets
    | split
    | dsimp only

theorem State.takeBells_within (s : State) (a2) (a3) :
    Within [.hst, .que] s (State.takeBells s a2 a3) := by
  unfold State.takeBells
  repeat' first
    | with_reducible assumption
    | with_reducible exact Within.refl _ _
    | decide
    | with_reducible apply State.each_within
    | with_reducible apply Within.step' (State.takeBell_within _ _ _)
    | with_reducible refine Within.ite ?_ ?_
    | with_reducible refine Within.ite_snd ?_ ?_
    | with_reducible intro _
    | extract_lets
    | split
    | dsimp only

theorem State.doorbellWrite_within (s : State) (a2) (a3) (a4) (a5) (a6) (a7) (a8) :
    Within [.hst, .que] s (State.doorbellWrite s a2 a3 a4 a5 a6 a7 a8) := by
  unfold State.doorbellWrite
  repeat' first
    | with_reducible assumption
    | with_reducible exact Within.refl _ _
    | decide
    | with_reducible apply Within.step' (State.takeBell_within _ _ _)
    | with_reducible apply Within.step' (State.modQ_within _ _ _)
    | with_reducible apply Within.step' (State.hostRefused_within _ _ _)
    | with_reducible refine Within.ite ?_ ?_
    | with_reducible intro _
    | extract_lets
    | split
    | dsimp only

theorem State.hostPump_within (s : State) (a2) :
    Within [.out, .mesh, .hst, .evt, .flog] s (State.hostPump s a2) := by
  induction a2 generalizing s with
  | zero =>
    unfold State.hostPump
    try dsimp only
    repeat' first
      | with_reducible assumption
      | with_reducible exact Within.refl _ _
      | decide
      | with_reducible apply Within.step' (State.modHst_within _ _)
      | with_reducible apply Holds.step' (State.issue_within _ _ _ _ _ _)
      | with_reducible refine Within.step' (Holds.get (State.issue_within _ _ _ _ _ _) (by assumption)) ?_ ?_
      | with_reducible intro _
      | split
      | dsimp only
  | succ n ih =>
    unfold State.hostPump
    try dsimp only
    repeat' first
      | with_reducible assumption
      | with_reducible exact Within.refl _ _
      | decide
      | with_reducible apply Within.step' (ih _)
      | with_reducible apply Within.step' (State.modHst_within _ _)
      | with_reducible apply Holds.step' (State.issue_within _ _ _ _ _ _)
      | with_reducible refine Within.step' (Holds.get (State.issue_within _ _ _ _ _ _) (by assumption)) ?_ ?_
      | with_reducible intro _
      | split
      | dsimp only

theorem State.bar2Response_within (s : State) (a2) (a3) :
    Within [.out, .mesh, .hst, .que, .evt, .flog] s (State.bar2Response s a2 a3) := by
  unfold State.bar2Response
  repeat' first
    | with_reducible assumption
    | with_reducible exact Within.refl _ _
    | decide
    | with_reducible apply Within.step' (State.hostPump_within _ _)
    | with_reducible apply Within.step' (State.emit_within _ _)
    | with_reducible apply Within.step' (State.bar2Refused_within _ _ _ _)
    | with_reducible apply Within.step' (State.modHst_within _ _)
    | with_reducible apply Within.step' (State.takeBells_within _ _ _)
    | with_reducible refine Within.ite ?_ ?_
    | with_reducible refine Within.ite_snd ?_ ?_
    | with_reducible intro _
    | extract_lets
    | split
    | dsimp only

theorem State.bar2WinWrite_within (s : State) (a2) (a3) (a4) (a5) :
    Within [.out, .hst, .evt, .flog] s (State.bar2WinWrite s a2 a3 a4 a5) := by
  unfold State.bar2WinWrite
  repeat' first
    | with_reducible assumption
    | with_reducible exact Within.refl _ _
    | decide
    | with_reducible apply State.when_within
    | with_reducible apply Within.step' (State.tdiError_within _ _ _ _)
    | with_reducible apply Within.step' (State.modFunc_within _ _ _ _)
    | with_reducible apply Within.step' (State.hostRefused_within _ _ _)
    | with_reducible refine Within.ite ?_ ?_
    | with_reducible refine Within.ite_snd ?_ ?_
    | with_reducible intro _
    | extract_lets
    | split
    | dsimp only

theorem State.msixWrite_within (s : State) (a2) (a3) (a4) (a5) (a6) :
    Within [.out, .hst, .evt, .flog] s (State.msixWrite s a2 a3 a4 a5 a6) := by
  unfold State.msixWrite
  repeat' first
    | with_reducible assumption
    | with_reducible exact Within.refl _ _
    | decide
    | with_reducible apply State.when_within
    | with_reducible apply Within.step' (State.emit_within _ _)
    | with_reducible apply Within.step' (State.tdiError_within _ _ _ _)
    | with_reducible apply Within.step' (State.modFunc_within _ _ _ _)
    | with_reducible apply Within.step' (State.hostRefused_within _ _ _)
    | with_reducible refine Within.ite ?_ ?_
    | with_reducible refine Within.ite_snd ?_ ?_
    | with_reducible intro _
    | extract_lets
    | split
    | dsimp only

theorem State.dlogCtrl_within (s : State) (a2) (a3) (a4) :
    Within [.hst] s (State.dlogCtrl s a2 a3 a4) := by
  unfold State.dlogCtrl
  repeat' first
    | with_reducible assumption
    | with_reducible exact Within.refl _ _
    | decide
    | with_reducible apply State.when_within
    | with_reducible apply Within.step' (State.modHPort_within _ _ _)
    | with_reducible apply Within.step' (State.modFunc_within _ _ _ _)
    | with_reducible refine Within.ite ?_ ?_
    | with_reducible intro _
    | extract_lets
    | split
    | dsimp only

theorem State.dlogCons_within (s : State) (a2) (a3) (a4) :
    Within [.hst] s (State.dlogCons s a2 a3 a4) := by
  unfold State.dlogCons
  repeat' first
    | with_reducible assumption
    | with_reducible exact Within.refl _ _
    | decide
    | with_reducible apply Within.step' (State.modFunc_within _ _ _ _)
    | with_reducible refine Within.ite ?_ ?_
    | with_reducible intro _
    | extract_lets
    | split
    | dsimp only

theorem State.translated_within (s : State) (a2) (a3) (a4) :
    Within [.out, .hst, .evt, .flog] s (State.translated s a2 a3 a4) := by
  unfold State.translated
  repeat' first
    | with_reducible assumption
    | with_reducible exact Within.refl _ _
    | decide
    | with_reducible apply Within.step' (State.hostNext_within _)
    | with_reducible apply Within.step' (State.modHst_within _ _)
    | with_reducible intro _
    | extract_lets
    | split
    | dsimp only

theorem State.dlDown_within (s : State) (a2) :
    Within [.out, .hst, .evt, .flog] s (State.dlDown s a2) := by
  unfold State.dlDown
  repeat' first
    | with_reducible assumption
    | with_reducible exact Within.refl _ _
    | decide
    | with_reducible apply State.each_within
    | with_reducible apply Within.step' (State.pulse_within _ _)
    | with_reducible apply Within.step' (State.dropService_within _ _)
    | with_reducible apply Within.step' (State.tdiError_within _ _ _ _)
    | with_reducible apply Within.step' (State.hostEnd_within _ _ _ _)
    | with_reducible apply Within.step' (State.modHPort_within _ _ _)
    | with_reducible refine Within.ite ?_ ?_
    | with_reducible refine Within.ite_snd ?_ ?_
    | with_reducible intro _
    | extract_lets
    | split
    | dsimp only

theorem State.holdEnds_within (s : State) (a2) :
    Within [.out, .mem, .tiles, .mesh, .lp, .xlt, .brd, .fab, .hst, .que, .itl, .sched, .cry, .evt, .flog] s (State.holdEnds s a2) := by
  unfold State.holdEnds
  repeat' first
    | with_reducible assumption
    | with_reducible exact Within.refl _ _
    | decide
    | with_reducible apply State.each_within
    | with_reducible apply Within.step' (State.modHPort_within _ _ _)
    | with_reducible apply Within.step' (State.flrOne_within _ _ _)
    | with_reducible refine Within.ite ?_ ?_
    | with_reducible refine Within.ite_snd ?_ ?_
    | with_reducible intro _
    | extract_lets
    | split
    | dsimp only

theorem State.configReset_within (s : State) (a2) :
    Within [.hst] s (State.configReset s a2) := by
  unfold State.configReset
  repeat' first
    | with_reducible assumption
    | with_reducible exact Within.refl _ _
    | decide
    | with_reducible apply Within.step' (State.modHPort_within _ _ _)
    | with_reducible apply Within.step' (State.modHst_within _ _)
    | with_reducible refine Within.ite ?_ ?_
    | with_reducible intro _
    | extract_lets
    | split
    | dsimp only

theorem State.configWrite_within (s : State) (a2) (a3) (a4) (a5) :
    Within [.out, .mem, .tiles, .mesh, .lp, .xlt, .brd, .fab, .hst, .que, .itl, .sched, .cry, .evt, .flog] s (State.configWrite s a2 a3 a4 a5) := by
  unfold State.configWrite
  repeat' first
    | with_reducible assumption
    | with_reducible exact Within.refl _ _
    | decide
    | with_reducible apply State.each_within
    | with_reducible apply State.when_within
    | with_reducible apply Within.step' (State.modFunc_within _ _ _ _)
    | with_reducible apply Within.step' (State.migLost_within _ _ _)
    | with_reducible apply Within.step' (State.modXlt_within _ _)
    | with_reducible apply Within.step' (State.modHst_within _ _)
    | with_reducible apply Within.step' (State.modHPort_within _ _ _)
    | with_reducible apply Within.step' (State.vfOff_within _ _)
    | with_reducible refine Within.ite ?_ ?_
    | with_reducible intro _
    | extract_lets
    | split
    | dsimp only

/-! ### Mesh -/

theorem State.act_within (s : State) (a2) :
    Within [.out, .mem, .tiles, .mesh, .lp, .brd, .fab, .hst, .que, .itl, .cry, .evt, .flog] s (State.act s a2) := by
  unfold State.act
  try dsimp only
  repeat' first
    | with_reducible assumption
    | with_reducible exact Within.refl _ _
    | decide
    | with_reducible apply Within.step' (State.emit_within _ _)
    | with_reducible apply Within.step' (State.placeWrite_within _ _ _ _ _ _)
    | with_reducible refine Within.step' (Within.of_snd (State.placeWrite_within _ _ _ _ _ _) (by assumption)) ?_ ?_
    | with_reducible apply Within.step' (State.placeRead_within _ _ _)
    | with_reducible refine Within.step' (Within.of_snd2 (State.placeRead_within _ _ _) (by assumption)) ?_ ?_
    | with_reducible apply Within.step' (State.dlogDevice_within _ _ _)
    | with_reducible apply Within.step' (State.modMesh_within _ _)
    | with_reducible refine Within.ite ?_ ?_
    | with_reducible intro _
    | split
    | dsimp only

theorem State.serve_within (s : State) (a2) :
    Within [.out, .mem, .tiles, .mesh, .lp, .brd, .fab, .hst, .que, .itl, .sched, .cry, .evt, .flog] s (State.serve s a2) := by
  unfold State.serve
  try dsimp only
  repeat' first
    | with_reducible assumption
    | with_reducible exact Within.refl _ _
    | decide
    | with_reducible apply Within.step' (State.act_within _ _)
    | with_reducible apply Within.step' (State.letIn_within _ _ _)
    | split
    | dsimp only

theorem State.arrive_within (s : State) (a2) (a3) (a4) :
    Within [.out, .mem, .tiles, .mesh, .lp, .brd, .lnk, .fab, .hst, .que, .itl, .sched, .cry, .evt, .flog] s (State.arrive s a2 a3 a4) := by
  unfold State.arrive
  repeat' first
    | with_reducible assumption
    | with_reducible exact Within.refl _ _
    | decide
    | with_reducible apply State.when_within
    | with_reducible apply Within.step' (State.serve_within _ _)
    | with_reducible apply Within.step' (State.modSched_within _ _)
    | with_reducible apply Within.step' (State.modCry_within _ _)
    | with_reducible apply Within.step' (State.fabEgress_within _ _)
    | with_reducible refine Within.ite ?_ ?_
    | with_reducible refine Within.ite_snd ?_ ?_
    | with_reducible intro _
    | extract_lets
    | split
    | dsimp only

theorem State.columns_within (s : State) (a2) (a3) :
    Within [.out, .mem, .tiles, .mesh, .lp, .brd, .fab, .hst, .que, .itl, .cry, .evt, .flog] s (State.columns s a2 a3) := by
  induction a3 generalizing s a2 with
  | zero =>
    unfold State.columns
    try dsimp only
    repeat' first
      | with_reducible assumption
      | with_reducible exact Within.refl _ _
      | decide
      | with_reducible apply Within.step' (State.act_within _ _)
      | split
      | dsimp only
  | succ n ih =>
    unfold State.columns
    try dsimp only
    repeat' first
      | with_reducible assumption
      | with_reducible exact Within.refl _ _
      | decide
      | with_reducible apply Within.step' (ih _ _)
      | with_reducible apply Within.step' (State.act_within _ _)
      | split
      | dsimp only

theorem State.admitUp_within (s : State) (a2) (a3) (a4) :
    Within [.tiles, .lp, .fab, .sched] s (State.admitUp s a2 a3 a4).2 := by
  induction a4 generalizing s a2 a3 with
  | zero =>
    unfold State.admitUp
    try dsimp only
    repeat' first
      | with_reducible assumption
      | with_reducible exact Within.refl _ _
      | decide
      | with_reducible apply Within.step' (State.letIn_within _ _ _)
      | with_reducible intro _
      | extract_lets
      | split
      | dsimp only
  | succ n ih =>
    unfold State.admitUp
    try dsimp only
    repeat' first
      | with_reducible assumption
      | with_reducible exact Within.refl _ _
      | decide
      | with_reducible apply Within.step' (ih _ _ _)
      | with_reducible refine Within.step' (Within.of_snd (ih _ _ _) (by assumption)) ?_ ?_
      | with_reducible apply Within.step' (State.letIn_within _ _ _)
      | with_reducible intro _
      | extract_lets
      | split
      | dsimp only

theorem State.servePair_within (s : State) (a2) (a3) :
    Within [.out, .mem, .tiles, .mesh, .lp, .brd, .fab, .hst, .que, .itl, .sched, .cry, .evt, .flog] s (State.servePair s a2 a3) := by
  unfold State.servePair
  repeat' first
    | with_reducible assumption
    | with_reducible exact Within.refl _ _
    | decide
    | with_reducible apply Within.step' (State.columns_within _ _ _)
    | with_reducible apply Within.step' (State.admitUp_within _ _ _ _)
    | with_reducible refine Within.step' (Within.of_snd (State.admitUp_within _ _ _ _) (by assumption)) ?_ ?_
    | with_reducible intro _
    | extract_lets
    | split
    | dsimp only

theorem State.serveWaits_within (s : State) (a2) :
    Within [.out, .mem, .tiles, .mesh, .lp, .brd, .fab, .hst, .que, .itl, .sched, .cry, .evt, .flog] s (State.serveWaits s a2) := by
  induction a2 generalizing s with
  | zero =>
    unfold State.serveWaits
    try dsimp only
    repeat' first
      | with_reducible assumption
      | with_reducible exact Within.refl _ _
      | decide
      | with_reducible apply Within.step' (State.serve_within _ _)
      | with_reducible apply Within.step' (State.servePair_within _ _ _)
      | with_reducible intro _
      | extract_lets
      | split
      | dsimp only
  | succ n ih =>
    unfold State.serveWaits
    try dsimp only
    repeat' first
      | with_reducible assumption
      | with_reducible exact Within.refl _ _
      | decide
      | with_reducible apply Within.step' (ih _)
      | with_reducible apply Within.step' (State.serve_within _ _)
      | with_reducible apply Within.step' (State.servePair_within _ _ _)
      | with_reducible intro _
      | extract_lets
      | split
      | dsimp only

theorem State.serveAll_within (s : State) :
    Within [.out, .mem, .tiles, .mesh, .lp, .brd, .fab, .hst, .que, .itl, .sched, .cry, .evt, .flog] s (State.serveAll s) := by
  unfold State.serveAll
  repeat' first
    | with_reducible assumption
    | with_reducible exact Within.refl _ _
    | decide
    | with_reducible apply Within.step' (State.serveWaits_within _ _)
    | split
    | dsimp only

theorem State.response_within (s : State) (a2) :
    Within [.out, .mem, .tiles, .mesh, .lp, .xlt, .brd, .lnk, .fab, .hst, .que, .itl, .rcv, .cry, .evt, .flog] s (State.response s a2) := by
  unfold State.response
  repeat' first
    | with_reducible assumption
    | with_reducible exact Within.refl _ _
    | decide
    | with_reducible apply Within.step' (State.tileResponse_within _ _ _)
    | with_reducible apply Within.step' (State.bar2Response_within _ _ _)
    | with_reducible apply Within.step' (State.fabricAnswer_within _ _ _ _ _)
    | with_reducible apply Within.step' (State.barResponse_within _ _ _)
    | with_reducible apply Within.step' (State.fenceDown_within _ _)
    | with_reducible apply Within.step' (State.modMesh_within _ _)
    | with_reducible refine Within.ite ?_ ?_
    | with_reducible intro _
    | extract_lets
    | split
    | dsimp only

end Sys2Proof.Machine
end

