-- ==== Sys2Proof/Laws/WithinModule.lean ====
section
/-! SUPPORT. What the operations may touch: composition, recovery, scheduling, power and Itlum. Each lemma
names the blocks an operation stays within, and says that it keeps the memory canonical. -/

set_option linter.unusedTactic false
set_option linter.unreachableTactic false
set_option linter.unusedVariables false

namespace Sys2Proof.Machine

/-! ### Sign -/

theorem State.takeLeaf_within (s : State) :
    Within [.out, .hst, .rot, .evt, .flog] s (State.takeLeaf s) := by
  unfold State.takeLeaf
  repeat' first
    | with_reducible assumption
    | with_reducible exact Within.refl _ _
    | decide
    | with_reducible apply State.when_within
    | with_reducible apply Within.step' (State.pulse_within _ _)
    | with_reducible apply Within.step' (State.modRot_within _ _)
    | with_reducible refine Within.ite ?_ ?_
    | with_reducible intro _
    | extract_lets
    | split
    | dsimp only

theorem State.signDual_within (s : State) (a2) :
    Holds (fun x => Within [.out, .hst, .rot, .evt, .flog] s x.2) (State.signDual s a2) := by
  unfold State.signDual
  repeat' first
    | with_reducible assumption
    | with_reducible exact Within.refl _ _
    | decide
    | with_reducible apply Within.step' (State.takeLeaf_within _)
    | with_reducible apply Within.step' (State.modRot_within _ _)
    | with_reducible exact Holds.none
    | with_reducible refine Holds.some ?_
    | with_reducible refine Holds.map_state ?_ ?_
    | with_reducible refine Holds.map ?_
    | with_reducible refine Holds.bind ?_
    | with_reducible refine Within.ite ?_ ?_
    | with_reducible refine Within.ite_snd ?_ ?_
    | with_reducible intro _
    | extract_lets
    | split
    | dsimp only

theorem State.signFinals_within (s : State) :
    Within [.out, .brd, .hst, .rot, .evt, .flog] s (State.signFinals s) := by
  unfold State.signFinals
  try dsimp only
  repeat' first
    | with_reducible assumption
    | with_reducible exact Within.refl _ _
    | decide
    | with_reducible apply Within.step' (State.modBrd_within _ _)
    | with_reducible apply Holds.step2' (State.signDual_within _ _)
    | with_reducible refine Holds.map2_state (State.signDual_within _ _) ?_ ?_
    | with_reducible refine Within.step' (Holds.get2 (State.signDual_within _ _) (by assumption)) ?_ ?_
    | with_reducible refine Within.foldl_snd ?_ ?_
    | with_reducible refine Within.ite ?_ ?_
    | with_reducible intro _
    | split
    | dsimp only

theorem State.modMeter_within (s : State) (a2) (a3) :
    Within [.brd] s (State.modMeter s a2 a3) := by
  unfold State.modMeter
  repeat' first
    | with_reducible assumption
    | with_reducible exact Within.refl _ _
    | decide
    | with_reducible apply Within.step' (State.modBrd_within _ _)
    | with_reducible intro _
    | split
    | dsimp only

theorem State.takeMeter_within (s : State) (a2) (a3) :
    Holds (fun x => Within [.out, .brd, .hst, .rot, .evt, .flog] s x.2) (State.takeMeter s a2 a3) := by
  unfold State.takeMeter
  try dsimp only
  repeat' first
    | with_reducible assumption
    | with_reducible exact Within.refl _ _
    | decide
    | with_reducible apply Within.step' (State.modMeter_within _ _ _)
    | with_reducible apply Holds.step2' (State.signDual_within _ _)
    | with_reducible refine Holds.map2_state (State.signDual_within _ _) ?_ ?_
    | with_reducible refine Within.step' (Holds.get2 (State.signDual_within _ _) (by assumption)) ?_ ?_
    | with_reducible exact Holds.none
    | with_reducible refine Holds.some ?_
    | with_reducible refine Holds.map_state ?_ ?_
    | with_reducible refine Holds.map ?_
    | with_reducible refine Holds.bind ?_
    | with_reducible intro _
    | split
    | dsimp only

/-! ### Compose -/

theorem State.purgeLost_within (s : State) (a2) (a3) (a4) (a5) (a6) :
    Within [.out, .mem, .tiles, .mesh, .lp, .xlt, .brd, .fab, .hst, .que, .itl, .rcv, .cry, .evt, .flog] s (State.purgeLost s a2 a3 a4 a5 a6) := by
  unfold State.purgeLost
  repeat' first
    | with_reducible assumption
    | with_reducible exact Within.refl _ _
    | decide
    | with_reducible apply State.when_within
    | with_reducible apply Within.step' (State.loseContext_within _ _ _ _ _)
    | with_reducible apply Within.step' (State.countLost_within _ _)
    | with_reducible apply Within.step' (State.moduleRecords_within _ _ _ _)
    | with_reducible refine Within.ite ?_ ?_
    | with_reducible intro _
    | extract_lets
    | split
    | dsimp only

theorem State.prepareSwitch_within (s : State) (a2) (a3) (a4) :
    Within [.lp, .itl] s (State.prepareSwitch s a2 a3 a4) := by
  unfold State.prepareSwitch
  repeat' first
    | with_reducible assumption
    | with_reducible exact Within.refl _ _
    | decide
    | with_reducible apply Within.step' (State.modItl_within _ _)
    | with_reducible apply Within.step' (State.modLp_within _ _)
    | with_reducible intro _
    | extract_lets
    | split
    | dsimp only

theorem State.rebuildTo_within (s : State) (a2) (a3) (a4) (a5) :
    Within [.out, .mem, .lp, .hst, .que, .cry, .evt, .flog] s (State.rebuildTo s a2 a3 a4 a5) := by
  unfold State.rebuildTo
  repeat' first
    | with_reducible assumption
    | with_reducible exact Within.refl _ _
    | decide
    | with_reducible apply State.each_within
    | with_reducible apply Within.step' (State.modPair_within _ _ _)
    | with_reducible apply Within.step' (State.linePoisoned_within _ _ _)
    | with_reducible apply Within.step' (State.rebuildRange_within _ _ _ _ _ _)
    | with_reducible intro _
    | extract_lets
    | split
    | dsimp only

theorem State.copyTo_within (s : State) (a2) (a3) (a4) :
    Within [.mem, .lp, .brd, .cry] s (State.copyTo s a2 a3 a4) := by
  unfold State.copyTo
  repeat' first
    | with_reducible assumption
    | with_reducible exact Within.refl _ _
    | decide
    | with_reducible apply Within.step' (State.modMove_within _ _ _)
    | with_reducible apply Within.step' (State.copyRange_within _ _ _ _ _ _)
    | with_reducible intro _
    | extract_lets
    | split
    | dsimp only

theorem State.memoryPeriod_within (s : State) :
    Within [.out, .mem, .lp, .brd, .hst, .que, .cry, .evt, .flog] s (State.memoryPeriod s) := by
  unfold State.memoryPeriod
  repeat' first
    | with_reducible assumption
    | with_reducible exact Within.refl _ _
    | decide
    | with_reducible apply State.each_within
    | with_reducible apply Within.step' (State.copyTo_within _ _ _ _)
    | with_reducible apply Within.step' (State.rebuildTo_within _ _ _ _ _)
    | with_reducible refine Within.ite ?_ ?_
    | with_reducible intro _
    | extract_lets
    | split
    | dsimp only

theorem State.rebuildEnds_within (s : State) (a2) (a3) (a4) :
    Within [.out, .mem, .lp, .hst, .que, .itl, .cry, .evt, .flog] s (State.rebuildEnds s a2 a3 a4) := by
  unfold State.rebuildEnds
  repeat' first
    | with_reducible assumption
    | with_reducible exact Within.refl _ _
    | decide
    | with_reducible apply Within.step' (State.prepareSwitch_within _ _ _ _)
    | with_reducible apply Within.step' (State.clearMem_within _ _ _)
    | with_reducible apply Within.step' (State.rebuildTo_within _ _ _ _ _)
    | extract_lets
    | split
    | dsimp only

theorem State.copyEnds_within (s : State) (a2) (a3) :
    Within [.mem, .lp, .brd, .itl, .cry] s (State.copyEnds s a2 a3) := by
  unfold State.copyEnds
  repeat' first
    | with_reducible assumption
    | with_reducible exact Within.refl _ _
    | decide
    | with_reducible apply Within.step' (State.prepareSwitch_within _ _ _ _)
    | with_reducible apply Within.step' (State.modMove_within _ _ _)
    | with_reducible apply Within.step' (State.copyTo_within _ _ _ _)
    | with_reducible intro _
    | extract_lets
    | split
    | dsimp only

theorem State.regionReset_within (s : State) (a2) :
    Within [.mem, .cry] s (State.regionReset s a2) := by
  unfold State.regionReset
  repeat' first
    | with_reducible assumption
    | with_reducible exact Within.refl _ _
    | decide
    | with_reducible apply State.when_within
    | with_reducible apply State.each_within
    | with_reducible apply Within.step' (State.modRegion_within _ _ _)
    | with_reducible apply Within.step' (State.kidUsers_within _ _ _)
    | with_reducible apply Within.step' (State.putLine_within _ _ _ _)
    | with_reducible intro _
    | extract_lets
    | split
    | dsimp only

theorem State.clearLine_within (s : State) (a2) (a3) (a4) :
    Within [.out, .mem, .lp, .hst, .cry, .evt, .flog] s (State.clearLine s a2 a3 a4) := by
  unfold State.clearLine
  repeat' first
    | with_reducible assumption
    | with_reducible exact Within.refl _ _
    | decide
    | with_reducible apply Within.step' (State.regionWrite_within _ _ _ _ _ _)
    | with_reducible apply Within.step' (State.xorCheck_within _ _ _ _)
    | with_reducible apply Within.step' (State.clearMem_within _ _ _)
    | with_reducible apply Within.step' (State.modPair_within _ _ _)
    | with_reducible apply Within.step' (State.regionReset_within _ _)
    | with_reducible refine Within.ite ?_ ?_
    | with_reducible refine Within.ite_snd ?_ ?_
    | with_reducible intro _
    | extract_lets
    | split
    | dsimp only

theorem State.blankWrites_within (s : State) (a2) (a3) (a4) :
    Within [.out, .hst, .cry, .evt, .flog] s (State.blankWrites s a2 a3 a4) := by
  unfold State.blankWrites
  repeat' first
    | with_reducible assumption
    | with_reducible exact Within.refl _ _
    | decide
    | with_reducible apply State.each_within
    | with_reducible apply Within.step' (State.regionWrite_within _ _ _ _ _ _)
    | with_reducible apply Within.step' (State.modRegion_within _ _ _)
    | with_reducible refine Within.ite ?_ ?_
    | with_reducible intro _
    | extract_lets
    | split
    | dsimp only

theorem State.clearRun_within (s : State) (a2) (a3) (a4) (a5) :
    Within [.out, .mem, .lp, .hst, .cry, .evt, .flog] s (State.clearRun s a2 a3 a4 a5) := by
  unfold State.clearRun
  repeat' first
    | with_reducible assumption
    | with_reducible exact Within.refl _ _
    | decide
    | with_reducible apply State.each_within
    | with_reducible apply Within.step' (State.blankWrites_within _ _ _ _)
    | with_reducible apply Within.step' (State.clearLine_within _ _ _ _)
    | with_reducible apply Within.step' (State.modPair_within _ _ _)
    | with_reducible refine Within.ite ?_ ?_
    | with_reducible refine Within.ite_snd ?_ ?_
    | with_reducible intro _
    | extract_lets
    | split
    | dsimp only

theorem State.clearUnit_within (s : State) (a2) :
    Within [.out, .mem, .lp, .hst, .cry, .evt, .flog] s (State.clearUnit s a2) := by
  unfold State.clearUnit
  repeat' first
    | with_reducible assumption
    | with_reducible exact Within.refl _ _
    | decide
    | with_reducible apply State.each_within
    | with_reducible apply Within.step' (State.clearRun_within _ _ _ _ _)
    | with_reducible exact Holds.none
    | with_reducible refine Holds.some ?_
    | with_reducible refine Holds.map_state ?_ ?_
    | with_reducible refine Holds.map ?_
    | with_reducible refine Holds.bind ?_
    | with_reducible refine Within.getD ?_ ?_
    | with_reducible intro _
    | extract_lets
    | split
    | dsimp only

theorem State.clearPair_within (s : State) (a2) :
    Within [.out, .mem, .lp, .hst, .cry, .evt, .flog] s (State.clearPair s a2) := by
  unfold State.clearPair
  repeat' first
    | with_reducible assumption
    | with_reducible exact Within.refl _ _
    | decide
    | with_reducible apply Within.step' (State.clearRun_within _ _ _ _ _)
    | with_reducible exact Holds.none
    | with_reducible refine Holds.some ?_
    | with_reducible refine Holds.map_state ?_ ?_
    | with_reducible refine Holds.map ?_
    | with_reducible refine Holds.bind ?_
    | with_reducible refine Within.getD ?_ ?_
    | with_reducible intro _
    | split
    | dsimp only

theorem State.freeGroups_within (s : State) (a2) :
    Within [.lp, .brd] s (State.freeGroups s a2) := by
  unfold State.freeGroups
  repeat' first
    | with_reducible assumption
    | with_reducible exact Within.refl _ _
    | decide
    | with_reducible apply Within.step' (State.modLp_within _ _)
    | with_reducible apply Within.step' (State.modBrd_within _ _)
    | with_reducible refine Within.ite ?_ ?_
    | with_reducible intro _
    | extract_lets
    | split
    | dsimp only

theorem State.clearRes_within (s : State) (a2) :
    Within [.out, .mem, .tiles, .mesh, .lp, .xlt, .brd, .fab, .hst, .que, .itl, .sched, .cry, .evt, .flog] s (State.clearRes s a2) := by
  unfold State.clearRes
  repeat' first
    | with_reducible assumption
    | with_reducible exact Within.refl _ _
    | decide
    | with_reducible apply Within.step' (State.flrOne_within _ _ _)
    | with_reducible apply Within.step' (State.modFab_within _ _)
    | with_reducible apply Within.step' (State.spareUp_within _ _)
    | with_reducible apply Within.step' (State.setPairSt_within _ _ _)
    | with_reducible apply Within.step' (State.clearPair_within _ _)
    | with_reducible apply Within.step' (State.freeGroups_within _ _)
    | with_reducible apply Within.step' (State.clearUnit_within _ _)
    | with_reducible apply Within.step' (State.clearGranules_within _ _ _ _)
    | with_reducible intro _
    | extract_lets
    | split
    | dsimp only

theorem State.freeSlot_within (s : State) (a2) :
    Within [.out, .mem, .tiles, .mesh, .lp, .xlt, .brd, .fab, .hst, .que, .itl, .sched, .rcv, .rot, .cry, .evt, .flog] s (State.freeSlot s a2) := by
  unfold State.freeSlot
  repeat' first
    | with_reducible assumption
    | with_reducible exact Within.refl _ _
    | decide
    | with_reducible apply State.each_within
    | with_reducible apply Within.step' (State.modRcv_within _ _)
    | with_reducible apply Within.step' (State.modSched_within _ _)
    | with_reducible apply Within.step' (State.modXlt_within _ _)
    | with_reducible apply Within.step' (State.modQue_within _ _)
    | with_reducible apply Within.step' (State.modFab_within _ _)
    | with_reducible apply Within.step' (State.modBrd_within _ _)
    | with_reducible apply Within.step' (State.collApply_within _ _ _)
    | with_reducible apply Holds.step2' (State.takeMeter_within _ _ _)
    | with_reducible refine Holds.map2_state (State.takeMeter_within _ _ _) ?_ ?_
    | with_reducible refine Within.step' (Holds.get2 (State.takeMeter_within _ _ _) (by assumption)) ?_ ?_
    | with_reducible refine Within.ite ?_ ?_
    | with_reducible refine Within.ite_snd ?_ ?_
    | with_reducible intro _
    | extract_lets
    | split
    | dsimp only

theorem State.settleSlot_within (s : State) (a2) :
    Within [.out, .mem, .tiles, .mesh, .lp, .xlt, .brd, .fab, .hst, .que, .itl, .sched, .rcv, .rot, .cry, .evt, .flog] s (State.settleSlot s a2) := by
  unfold State.settleSlot
  repeat' first
    | with_reducible assumption
    | with_reducible exact Within.refl _ _
    | decide
    | with_reducible apply Within.step' (State.freeSlot_within _ _)
    | with_reducible refine Within.ite ?_ ?_
    | with_reducible intro _
    | split
    | dsimp only

theorem State.setLease_within (s : State) (a2) (a3) :
    Within [.brd] s (State.setLease s a2 a3) := by
  unfold State.setLease
  repeat' first
    | with_reducible assumption
    | with_reducible exact Within.refl _ _
    | decide
    | with_reducible apply Within.step' (State.modBrd_within _ _)
    | with_reducible intro _
    | extract_lets
    | split
    | dsimp only

theorem State.orphan_within (s : State) (a2) (a3) :
    Within [.out, .brd, .hst, .itl, .evt, .flog] s (State.orphan s a2 a3) := by
  unfold State.orphan
  repeat' first
    | with_reducible assumption
    | with_reducible exact Within.refl _ _
    | decide
    | with_reducible apply Within.step' (State.pulse_within _ _)
    | with_reducible apply Within.step' (State.notifyCid_within _ _ _ _)
    | with_reducible apply Within.step' (State.setLease_within _ _ _)
    | extract_lets
    | split
    | dsimp only

theorem State.emptyQueues_within (s : State) (a2) :
    Within [.out, .mem, .tiles, .mesh, .lp, .brd, .fab, .hst, .que, .itl, .cry, .evt, .flog] s (State.emptyQueues s a2) := by
  unfold State.emptyQueues
  repeat' first
    | with_reducible assumption
    | with_reducible exact Within.refl _ _
    | decide
    | with_reducible apply State.each_within
    | with_reducible apply Within.step' (State.modQ_within _ _ _)
    | with_reducible apply Within.step' (State.complete_within _ _ _ _ _ _)
    | with_reducible intro _
    | extract_lets
    | split
    | dsimp only

theorem State.expiryChanges_within (s : State) :
    Within [.out, .tiles, .mesh, .xlt, .brd, .hst, .itl, .rcv, .evt, .flog] s (State.expiryChanges s) := by
  unfold State.expiryChanges
  repeat' first
    | with_reducible assumption
    | with_reducible exact Within.refl _ _
    | decide
    | with_reducible apply State.each_within
    | with_reducible apply Within.step' (State.itlumChange_within _ _ _ _ _)
    | with_reducible apply Within.step' (State.modRcv_within _ _)
    | with_reducible apply Within.step' (State.tdiError_within _ _ _ _)
    | with_reducible refine Within.ite ?_ ?_
    | with_reducible intro _
    | split
    | dsimp only

theorem State.graceEnds_within (s : State) (a2) :
    Within [.out, .mem, .tiles, .mesh, .lp, .xlt, .brd, .fab, .hst, .que, .itl, .sched, .rcv, .cry, .evt, .flog] s (State.graceEnds s a2) := by
  unfold State.graceEnds
  repeat' first
    | with_reducible assumption
    | with_reducible exact Within.refl _ _
    | decide
    | with_reducible apply Within.step' (State.expiryChanges_within _)
    | with_reducible apply Within.step' (State.modRcv_within _ _)
    | with_reducible apply Within.step' (State.setLease_within _ _ _)
    | with_reducible apply Within.step' (State.purgeAll_within _ _)
    | with_reducible apply Within.step' (State.emptyQueues_within _ _)
    | with_reducible apply Within.step' (State.modBrd_within _ _)
    | with_reducible intro _
    | extract_lets
    | split
    | dsimp only

/-! ### Recover -/

theorem State.hangBank_within (s : State) (a2) (a3) :
    Within [.rcv] s (State.hangBank s a2 a3) := by
  unfold State.hangBank
  repeat' first
    | with_reducible assumption
    | with_reducible exact Within.refl _ _
    | decide
    | with_reducible apply Within.step' (State.modRcv_within _ _)
    | with_reducible refine Within.ite ?_ ?_
    | with_reducible refine Within.ite_snd ?_ ?_
    | with_reducible intro _
    | extract_lets
    | split
    | dsimp only

theorem State.hangSample_within (s : State) :
    Within [.out, .mem, .tiles, .mesh, .lp, .xlt, .brd, .fab, .hst, .que, .itl, .rcv, .cry, .evt, .flog] s (State.hangSample s) := by
  unfold State.hangSample
  repeat' first
    | with_reducible assumption
    | with_reducible exact Within.refl _ _
    | decide
    | with_reducible apply State.each_within
    | with_reducible apply Within.step' (State.purgeLost_within _ _ _ _ _ _)
    | with_reducible apply Within.step' (State.hangBank_within _ _ _)
    | with_reducible apply Within.step' (State.modRcv_within _ _)
    | with_reducible intro _
    | extract_lets
    | split
    | dsimp only

theorem State.dueHalf_within (s : State) (a2) (a3) :
    Within [.rcv] s (State.dueHalf s a2 a3) := by
  unfold State.dueHalf
  repeat' first
    | with_reducible assumption
    | with_reducible exact Within.refl _ _
    | decide
    | with_reducible apply Within.step' (State.modRcv_within _ _)
    | with_reducible refine Within.ite ?_ ?_
    | with_reducible refine Within.ite_snd ?_ ?_
    | with_reducible intro _
    | split
    | dsimp only

theorem State.dueModule_within (s : State) (a2) :
    Within [.rcv] s (State.dueModule s a2) := by
  unfold State.dueModule
  repeat' first
    | with_reducible assumption
    | with_reducible exact Within.refl _ _
    | decide
    | with_reducible apply Within.step' (State.modRcv_within _ _)
    | with_reducible refine Within.ite ?_ ?_
    | with_reducible refine Within.ite_snd ?_ ?_
    | with_reducible intro _
    | split
    | dsimp only

theorem State.recoverOps_within (s : State) (a2) (a3) (a4) :
    Within [.out, .hst, .itl] s (State.recoverOps s a2 a3 a4) := by
  unfold State.recoverOps
  repeat' first
    | with_reducible assumption
    | with_reducible exact Within.refl _ _
    | decide
    | with_reducible apply State.each_within
    | with_reducible apply Within.step' (State.opDone_within _ _ _ _ _ _ _)
    | with_reducible refine Within.ite ?_ ?_
    | with_reducible intro _
    | extract_lets
    | split
    | dsimp only

theorem State.sleepHalf_within (s : State) (a2) (a3) :
    Within [.out, .mem, .lp, .hst, .que, .evt, .flog] s (State.sleepHalf s a2 a3) := by
  unfold State.sleepHalf
  repeat' first
    | with_reducible assumption
    | with_reducible exact Within.refl _ _
    | decide
    | with_reducible apply State.each_within
    | with_reducible apply Within.step' (State.setPairSt_within _ _ _)
    | with_reducible apply Within.step' (State.modPair_within _ _ _)
    | with_reducible apply Within.step' (State.modLp_within _ _)
    | with_reducible apply Within.step' (State.checkDelta_within _ _)
    | with_reducible refine Within.ite ?_ ?_
    | with_reducible refine Within.ite_snd ?_ ?_
    | with_reducible intro _
    | extract_lets
    | split
    | dsimp only

theorem State.holdHalf_within (s : State) (a2) :
    Within [.tiles] s (State.holdHalf s a2) := by
  unfold State.holdHalf
  repeat' first
    | with_reducible assumption
    | with_reducible exact Within.refl _ _
    | decide
    | with_reducible apply State.each_within
    | with_reducible apply Within.step' (State.modTile_within _ _ _)
    | with_reducible intro _
    | split
    | dsimp only

theorem State.dropIsolations_within (s : State) (a2) :
    Within [.out, .hst, .que, .itl, .rcv, .evt, .flog] s (State.dropIsolations s a2) := by
  unfold State.dropIsolations
  repeat' first
    | with_reducible assumption
    | with_reducible exact Within.refl _ _
    | decide
    | with_reducible apply State.each_within
    | with_reducible apply Within.step' (State.endIsolation_within _ _ _ _)
    | with_reducible intro _
    | split
    | dsimp only

theorem State.startHalf_within (s : State) (a2) (a3) (a4) :
    Within [.out, .mem, .tiles, .lp, .hst, .que, .itl, .rcv, .evt, .flog] s (State.startHalf s a2 a3 a4) := by
  unfold State.startHalf
  repeat' first
    | with_reducible assumption
    | with_reducible exact Within.refl _ _
    | decide
    | with_reducible apply Within.step' (State.sleepHalf_within _ _ _)
    | with_reducible apply Within.step' (State.holdHalf_within _ _)
    | with_reducible apply Within.step' (State.modRcv_within _ _)
    | with_reducible apply Within.step' (State.recBegin_within _ _ _ _ _)
    | with_reducible apply Within.step' (State.dropIsolations_within _ _)
    | with_reducible intro _
    | extract_lets
    | split
    | dsimp only

theorem State.dropIngress_within (s : State) (a2) :
    Within [.mesh, .brd, .fab] s (State.dropIngress s a2) := by
  unfold State.dropIngress
  repeat' first
    | with_reducible assumption
    | with_reducible exact Within.refl _ _
    | decide
    | with_reducible apply State.each_within
    | with_reducible apply Within.step' (State.modFab_within _ _)
    | with_reducible apply Within.step' (State.modMesh_within _ _)
    | with_reducible apply Within.step' (State.fenceDown_within _ _)
    | with_reducible intro _
    | extract_lets
    | split
    | dsimp only

theorem State.reloadKeys_within (s : State) (a2) :
    Within [.cry] s (State.reloadKeys s a2) := by
  unfold State.reloadKeys
  repeat' first
    | with_reducible assumption
    | with_reducible exact Within.refl _ _
    | decide
    | with_reducible apply Within.step' (State.modCry_within _ _)
    | with_reducible intro _
    | split
    | dsimp only

theorem State.drained_within (s : State) (a2) :
    Within [.out, .mem, .tiles, .mesh, .lp, .xlt, .brd, .lnk, .fab, .hst, .que, .itl, .rcv, .cry, .evt, .flog] s (State.drained s a2) := by
  unfold State.drained
  repeat' first
    | with_reducible assumption
    | with_reducible exact Within.refl _ _
    | decide
    | with_reducible apply State.each_within
    | with_reducible apply Within.step' (State.fullTraining_within _ _)
    | with_reducible apply Within.step' (State.reloadKeys_within _ _)
    | with_reducible apply Within.step' (State.dropIngress_within _ _)
    | with_reducible apply Within.step' (State.shellFail_within _ _ _)
    | with_reducible refine Within.ite ?_ ?_
    | with_reducible intro _
    | extract_lets
    | split
    | dsimp only

theorem State.freshHang_within (s : State) (a2) :
    Within [.rcv] s (State.freshHang s a2) := by
  unfold State.freshHang
  repeat' first
    | with_reducible assumption
    | with_reducible exact Within.refl _ _
    | decide
    | with_reducible apply Within.step' (State.modRcv_within _ _)
    | with_reducible intro _
    | extract_lets
    | split
    | dsimp only

theorem State.releaseHalf_within (s : State) (a2) :
    Within [.tiles, .rcv] s (State.releaseHalf s a2) := by
  unfold State.releaseHalf
  repeat' first
    | with_reducible assumption
    | with_reducible exact Within.refl _ _
    | decide
    | with_reducible apply State.each_within
    | with_reducible apply Within.step' (State.freshHang_within _ _)
    | with_reducible apply Within.step' (State.modTile_within _ _ _)
    | with_reducible intro _
    | split
    | dsimp only

theorem State.recoveryDone_within (s : State) (a2) :
    Within [.rcv] s (State.recoveryDone s a2) := by
  unfold State.recoveryDone
  repeat' first
    | with_reducible assumption
    | with_reducible exact Within.refl _ _
    | decide
    | with_reducible apply Within.step' (State.modRcv_within _ _)
    | with_reducible intro _
    | extract_lets
    | split
    | dsimp only

theorem State.tripLosses_within (s : State) :
    Within [.out, .mem, .tiles, .mesh, .lp, .xlt, .brd, .fab, .hst, .que, .itl, .rcv, .cry, .evt, .flog] s (State.tripLosses s) := by
  unfold State.tripLosses
  repeat' first
    | with_reducible assumption
    | with_reducible exact Within.refl _ _
    | decide
    | with_reducible apply State.each_within
    | with_reducible apply Within.step' (State.ctxFault_within _ _ _ _ _ _ _)
    | with_reducible apply Within.step' (State.countLost_within _ _)
    | with_reducible apply Within.step' (State.modRcv_within _ _)
    | with_reducible refine Within.ite ?_ ?_
    | with_reducible intro _
    | extract_lets
    | split
    | dsimp only

theorem State.endHalf_within (s : State) (a2) (a3) :
    Within [.out, .mem, .tiles, .mesh, .lp, .xlt, .brd, .fab, .hst, .que, .itl, .sched, .rcv, .cry, .evt, .flog] s (State.endHalf s a2 a3) := by
  unfold State.endHalf
  repeat' first
    | with_reducible assumption
    | with_reducible exact Within.refl _ _
    | decide
    | with_reducible apply Within.step' (State.pumpAll_within _)
    | with_reducible apply Within.step' (State.serveAll_within _)
    | with_reducible apply Within.step' (State.recoverOps_within _ _ _ _)
    | with_reducible apply Within.step' (State.recoveryDone_within _ _)
    | with_reducible apply Within.step' (State.modRcv_within _ _)
    | with_reducible apply Within.step' (State.recEnd_within _ _ _ _ _ _ _ _)
    | with_reducible apply Within.step' (State.releaseHalf_within _ _)
    | with_reducible intro _
    | extract_lets
    | split
    | dsimp only

theorem State.endModule_within (s : State) (a2) :
    Within [.out, .mem, .tiles, .mesh, .lp, .xlt, .brd, .fab, .hst, .que, .itl, .sched, .rcv, .cry, .evt, .flog] s (State.endModule s a2) := by
  unfold State.endModule
  repeat' first
    | with_reducible assumption
    | with_reducible exact Within.refl _ _
    | decide
    | with_reducible apply State.each_within
    | with_reducible apply State.when_within
    | with_reducible apply Within.step' (State.pumpAll_within _)
    | with_reducible apply Within.step' (State.serveAll_within _)
    | with_reducible apply Within.step' (State.recoverOps_within _ _ _ _)
    | with_reducible apply Within.step' (State.modItl_within _ _)
    | with_reducible apply Within.step' (State.recoveryDone_within _ _)
    | with_reducible apply Within.step' (State.modRcv_within _ _)
    | with_reducible apply Within.step' (State.recEnd_within _ _ _ _ _ _ _ _)
    | with_reducible apply Within.step' (State.releaseHalf_within _ _)
    | with_reducible apply Within.step' (State.tripLosses_within _)
    | with_reducible apply Within.step' (State.modTile_within _ _ _)
    | with_reducible intro _
    | extract_lets
    | split
    | dsimp only

theorem State.halfEscalates_within (s : State) :
    Within [.out, .hst, .que, .evt, .flog] s (State.halfEscalates s) := by
  unfold State.halfEscalates
  repeat' first
    | with_reducible assumption
    | with_reducible exact Within.refl _ _
    | decide
    | with_reducible apply Within.step' (State.recEnd_within _ _ _ _ _ _ _ _)
    | with_reducible refine Within.ite ?_ ?_
    | with_reducible refine Within.ite_snd ?_ ?_
    | with_reducible intro _
    | split
    | dsimp only

theorem State.startModule_within (s : State) (a2) (a3) (a4) :
    Within [.out, .mem, .tiles, .lp, .hst, .que, .itl, .rcv, .evt, .flog] s (State.startModule s a2 a3 a4) := by
  unfold State.startModule
  repeat' first
    | with_reducible assumption
    | with_reducible exact Within.refl _ _
    | decide
    | with_reducible apply State.each_within
    | with_reducible apply Within.step' (State.sleepHalf_within _ _ _)
    | with_reducible apply Within.step' (State.holdHalf_within _ _)
    | with_reducible apply Within.step' (State.emit_within _ _)
    | with_reducible apply Within.step' (State.tdiError_within _ _ _ _)
    | with_reducible apply Within.step' (State.modRcv_within _ _)
    | with_reducible apply Within.step' (State.recBegin_within _ _ _ _ _)
    | with_reducible apply Within.step' (State.halfEscalates_within _)
    | with_reducible apply Within.step' (State.dropIsolations_within _ _)
    | with_reducible intro _
    | extract_lets
    | split
    | dsimp only

theorem State.unpowerHalves_within (s : State) :
    Within [.out, .mem, .tiles, .mesh, .lp, .xlt, .brd, .fab, .hst, .que, .itl, .rcv, .cry, .evt, .flog] s (State.unpowerHalves s) := by
  unfold State.unpowerHalves
  repeat' first
    | with_reducible assumption
    | with_reducible exact Within.refl _ _
    | decide
    | with_reducible apply State.each_within
    | with_reducible apply Within.step' (State.modRcv_within _ _)
    | with_reducible apply Within.step' (State.dropIsolations_within _ _)
    | with_reducible apply Within.step' (State.sleepHalf_within _ _ _)
    | with_reducible apply Within.step' (State.modXlt_within _ _)
    | with_reducible apply Within.step' (State.modMesh_within _ _)
    | with_reducible apply Within.step' (State.fenceDown_within _ _)
    | with_reducible apply Within.step' (State.tileSignal_within _ _)
    | with_reducible apply Within.step' (State.modTile_within _ _ _)
    | with_reducible apply Within.step' (State.dropMigration_within _ _ _)
    | with_reducible apply Within.step' (State.dropBankWaits_within _ _ _)
    | with_reducible apply Within.step' (State.clearMem_within _ _ _)
    | with_reducible intro _
    | extract_lets
    | split
    | dsimp only

theorem State.halt_within (s : State) :
    Within [.out, .mem, .tiles, .mesh, .lp, .xlt, .brd, .fab, .hst, .que, .itl, .rcv, .cry, .evt, .flog] s (State.halt s) := by
  unfold State.halt
  repeat' first
    | with_reducible assumption
    | with_reducible exact Within.refl _ _
    | decide
    | with_reducible apply Within.step' (State.recoverOps_within _ _ _ _)
    | with_reducible apply Within.step' (State.moduleRecords_within _ _ _ _)
    | with_reducible apply Within.step' (State.modRcv_within _ _)
    | with_reducible apply Within.step' (State.unpowerHalves_within _)
    | with_reducible apply Within.step' (State.recEnd_within _ _ _ _ _ _ _ _)
    | with_reducible intro _
    | extract_lets
    | split
    | dsimp only

theorem State.loseHalves_within (s : State) :
    Within [.out, .mem, .tiles, .mesh, .lp, .xlt, .brd, .fab, .hst, .que, .itl, .rcv, .cry, .evt, .flog] s (State.loseHalves s) := by
  unfold State.loseHalves
  repeat' first
    | with_reducible assumption
    | with_reducible exact Within.refl _ _
    | decide
    | with_reducible apply Within.step' (State.modRcv_within _ _)
    | with_reducible apply Within.step' (State.halfEscalates_within _)
    | with_reducible apply Within.step' (State.unpowerHalves_within _)
    | with_reducible apply Within.step' (State.recEnd_within _ _ _ _ _ _ _ _)
    | with_reducible refine Within.ite ?_ ?_
    | with_reducible refine Within.ite_snd ?_ ?_
    | with_reducible intro _
    | extract_lets
    | split
    | dsimp only

/-! ### Sched -/

theorem State.reelRewrite_within (s : State) :
    Within [.itl, .sched] s (State.reelRewrite s) := by
  unfold State.reelRewrite
  repeat' first
    | with_reducible assumption
    | with_reducible exact Within.refl _ _
    | decide
    | with_reducible apply State.when_within
    | with_reducible apply Within.step' (State.modItl_within _ _)
    | with_reducible apply Within.step' (State.seqGo_within _)
    | with_reducible apply Within.step' (State.modSched_within _ _)
    | with_reducible refine Within.ite ?_ ?_
    | with_reducible refine Within.ite_snd ?_ ?_
    | with_reducible intro _
    | extract_lets
    | split
    | dsimp only

theorem State.reelWrite_within (s : State) (a2) (a3) (a4) :
    Within [.sched] s (State.reelWrite s a2 a3 a4) := by
  unfold State.reelWrite
  repeat' first
    | with_reducible assumption
    | with_reducible exact Within.refl _ _
    | decide
    | with_reducible apply State.when_within
    | with_reducible apply Within.step' (State.modSched_within _ _)
    | with_reducible refine Within.ite ?_ ?_
    | with_reducible refine Within.ite_snd ?_ ?_
    | with_reducible intro _
    | extract_lets
    | split
    | dsimp only

theorem State.stopBank_within (s : State) (a2) (a3) :
    Within [.tiles] s (State.stopBank s a2 a3) := by
  unfold State.stopBank
  repeat' first
    | with_reducible assumption
    | with_reducible exact Within.refl _ _
    | decide
    | with_reducible apply Within.step' (State.modTile_within _ _ _)
    | with_reducible refine Within.ite ?_ ?_
    | with_reducible refine Within.ite_snd ?_ ?_
    | with_reducible intro _
    | extract_lets
    | split
    | dsimp only

theorem State.startBank_within (s : State) (a2) (a3) :
    Within [.out, .mem, .tiles, .mesh, .lp, .xlt, .brd, .fab, .hst, .que, .itl, .rcv, .cry, .evt, .flog] s (State.startBank s a2 a3) := by
  unfold State.startBank
  repeat' first
    | with_reducible assumption
    | with_reducible exact Within.refl _ _
    | decide
    | with_reducible apply State.each_within
    | with_reducible apply Within.step' (State.copyRun_within _ _ _ _)
    | with_reducible apply Within.step' (State.modChan_within _ _ _ _)
    | with_reducible apply Within.step' (State.modBank_within _ _ _ _)
    | with_reducible apply Within.step' (State.modTile_within _ _ _)
    | with_reducible intro _
    | extract_lets
    | split
    | dsimp only

theorem State.runBank_within (s : State) (a2) (a3) :
    Within [.out, .mem, .tiles, .mesh, .lp, .xlt, .brd, .fab, .hst, .que, .itl, .rcv, .cry, .evt, .flog] s (State.runBank s a2 a3) := by
  unfold State.runBank
  repeat' first
    | with_reducible assumption
    | with_reducible exact Within.refl _ _
    | decide
    | with_reducible apply Within.step' (State.modBank_within _ _ _ _)
    | with_reducible apply Within.step' (State.startBank_within _ _ _)
    | with_reducible apply Within.step' (State.stopBank_within _ _ _)
    | with_reducible refine Within.ite ?_ ?_
    | with_reducible refine Within.ite_snd ?_ ?_
    | with_reducible intro _
    | extract_lets
    | split
    | dsimp only

theorem State.choose_within (s : State) (a2) :
    Within [.out, .mem, .tiles, .mesh, .lp, .xlt, .brd, .fab, .hst, .que, .itl, .rcv, .cry, .evt, .flog] s (State.choose s a2) := by
  unfold State.choose
  repeat' first
    | with_reducible assumption
    | with_reducible exact Within.refl _ _
    | decide
    | with_reducible apply Within.step' (State.runBank_within _ _ _)
    | split
    | dsimp only

theorem State.countTick_within (s : State) :
    Within [.que] s (State.countTick s) := by
  unfold State.countTick
  repeat' first
    | with_reducible assumption
    | with_reducible exact Within.refl _ _
    | decide
    | with_reducible apply Within.step' (State.modQue_within _ _)
    | with_reducible refine Within.ite ?_ ?_
    | with_reducible refine Within.ite_snd ?_ ?_
    | with_reducible intro _
    | extract_lets
    | split
    | dsimp only

theorem State.countRun_within (s : State) (a2) (a3) :
    Within [.tiles] s (State.countRun s a2 a3) := by
  unfold State.countRun
  repeat' first
    | with_reducible assumption
    | with_reducible exact Within.refl _ _
    | decide
    | with_reducible apply State.when_within
    | with_reducible apply Within.step' (State.modBank_within _ _ _ _)
    | with_reducible refine Within.ite ?_ ?_
    | with_reducible intro _
    | extract_lets
    | split
    | dsimp only

theorem State.chooseAll_within (s : State) :
    Within [.out, .mem, .tiles, .mesh, .lp, .xlt, .brd, .fab, .hst, .que, .itl, .rcv, .cry, .evt, .flog] s (State.chooseAll s) := by
  unfold State.chooseAll
  repeat' first
    | with_reducible assumption
    | with_reducible exact Within.refl _ _
    | decide
    | with_reducible apply State.each_within
    | with_reducible apply Within.step' (State.countRun_within _ _ _)
    | with_reducible apply Within.step' (State.choose_within _ _)
    | with_reducible apply Within.step' (State.modTile_within _ _ _)
    | with_reducible intro _
    | extract_lets
    | split
    | dsimp only

theorem State.rssSample_within (s : State) :
    Within [.sched] s (State.rssSample s) := by
  unfold State.rssSample
  repeat' first
    | with_reducible assumption
    | with_reducible exact Within.refl _ _
    | decide
    | with_reducible apply State.each_within
    | with_reducible apply Within.step' (State.modSched_within _ _)
    | with_reducible refine Within.foldl_snd ?_ ?_
    | with_reducible refine Within.ite ?_ ?_
    | with_reducible refine Within.ite_snd ?_ ?_
    | with_reducible intro _
    | extract_lets
    | split
    | dsimp only

/-! ### Power -/

theorem State.episodes_within (s : State) :
    Within [.out, .hst, .pwr, .evt, .flog] s (State.episodes s) := by
  unfold State.episodes
  repeat' first
    | with_reducible assumption
    | with_reducible exact Within.refl _ _
    | decide
    | with_reducible apply State.each_within
    | with_reducible apply State.when_within
    | with_reducible apply Within.step' (State.pulse_within _ _)
    | with_reducible apply Within.step' (State.modPwr_within _ _)
    | with_reducible apply Within.step' (State.log_within _ _ _ _ _)
    | with_reducible refine Within.ite ?_ ?_
    | with_reducible intro _
    | extract_lets
    | split
    | dsimp only

theorem State.setLimit_within (s : State) (a2) (a3) (a4) (a5) :
    Within [.out, .hst, .pwr, .evt, .flog] s (State.setLimit s a2 a3 a4 a5) := by
  unfold State.setLimit
  repeat' first
    | with_reducible assumption
    | with_reducible exact Within.refl _ _
    | decide
    | with_reducible apply Within.step' (State.episodes_within _)
    | with_reducible apply Within.step' (State.modPwr_within _ _)
    | with_reducible refine Within.ite ?_ ?_
    | with_reducible refine Within.ite_snd ?_ ?_
    | with_reducible intro _
    | extract_lets
    | split
    | dsimp only

theorem State.modVolt_within (s : State) (a2) (a3) :
    Within [.pwr] s (State.modVolt s a2 a3) := by
  unfold State.modVolt
  repeat' first
    | with_reducible assumption
    | with_reducible exact Within.refl _ _
    | decide
    | with_reducible apply Within.step' (State.modPwr_within _ _)
    | with_reducible intro _
    | split
    | dsimp only

theorem State.applyClock_within (s : State) :
    Within [.pwr] s (State.applyClock s) := by
  unfold State.applyClock
  repeat' first
    | with_reducible assumption
    | with_reducible exact Within.refl _ _
    | decide
    | with_reducible apply Within.step' (State.modVolt_within _ _ _)
    | with_reducible apply Within.step' (State.modPwr_within _ _)
    | with_reducible refine Within.ite ?_ ?_
    | with_reducible intro _
    | extract_lets
    | split
    | dsimp only

theorem State.applyPower_within (s : State) :
    Within [.pwr] s (State.applyPower s) := by
  unfold State.applyPower
  repeat' first
    | with_reducible assumption
    | with_reducible exact Within.refl _ _
    | decide
    | with_reducible apply Within.step' (State.modPwr_within _ _)
    | with_reducible apply Within.step' (State.applyClock_within _)
    | with_reducible exact Holds.none
    | with_reducible refine Holds.some ?_
    | with_reducible refine Holds.map_state ?_ ?_
    | with_reducible refine Holds.map ?_
    | with_reducible refine Holds.bind ?_
    | with_reducible refine Within.getD ?_ ?_
    | with_reducible refine Within.foldl_snd ?_ ?_
    | with_reducible refine Within.ite ?_ ?_
    | with_reducible intro _
    | extract_lets
    | split
    | dsimp only

theorem State.regaugeKey_within (s : State) (a2) :
    Within [.out, .tiles, .lp, .brd, .fab, .hst, .itl, .evt, .flog] s (State.regaugeKey s a2) := by
  unfold State.regaugeKey
  repeat' first
    | with_reducible assumption
    | with_reducible exact Within.refl _ _
    | decide
    | with_reducible apply State.each_within
    | with_reducible apply Within.step' (State.regauge_within _ _)
    | with_reducible apply Within.step' (State.regaugeTiles_within _)
    | with_reducible refine Within.ite ?_ ?_
    | with_reducible refine Within.ite_snd ?_ ?_
    | with_reducible intro _
    | split
    | dsimp only

theorem State.reckonPeriod_within (s : State) :
    Within [.out, .tiles, .lp, .brd, .fab, .hst, .itl, .pwr, .evt, .flog] s (State.reckonPeriod s) := by
  unfold State.reckonPeriod
  repeat' first
    | with_reducible assumption
    | with_reducible exact Within.refl _ _
    | decide
    | with_reducible apply State.each_within
    | with_reducible apply Within.step' (State.modPwr_within _ _)
    | with_reducible apply Within.step' (State.regaugeKey_within _ _)
    | with_reducible refine Within.foldl_snd ?_ ?_
    | with_reducible refine Within.ite ?_ ?_
    | with_reducible intro _
    | extract_lets
    | split
    | dsimp only

theorem State.spread_within (s : State) (a2) (a3) :
    Within [.tiles] s (State.spread s a2 a3) := by
  unfold State.spread
  repeat' first
    | with_reducible assumption
    | with_reducible exact Within.refl _ _
    | decide
    | with_reducible apply State.each_within
    | with_reducible apply Within.step' (State.modTile_within _ _ _)
    | with_reducible refine Within.ite ?_ ?_
    | with_reducible intro _
    | extract_lets
    | split
    | dsimp only

theorem State.setBallast_within (s : State) (a2) :
    Within [.tiles] s (State.setBallast s a2) := by
  unfold State.setBallast
  repeat' first
    | with_reducible assumption
    | with_reducible exact Within.refl _ _
    | decide
    | with_reducible apply Within.step' (State.spread_within _ _ _)
    | with_reducible intro _
    | extract_lets
    | split
    | dsimp only

theorem State.account_within (s : State) (a2) (a3) :
    Within [.brd, .pwr] s (State.account s a2 a3) := by
  unfold State.account
  repeat' first
    | with_reducible assumption
    | with_reducible exact Within.refl _ _
    | decide
    | with_reducible apply Within.step' (State.modMeter_within _ _ _)
    | with_reducible apply Within.step' (State.modPwr_within _ _)
    | with_reducible refine Within.ite ?_ ?_
    | with_reducible intro _
    | extract_lets
    | split
    | dsimp only

theorem State.ballastTick_within (s : State) (a2) (a3) :
    Within [.tiles, .brd, .pwr] s (State.ballastTick s a2 a3) := by
  unfold State.ballastTick
  repeat' first
    | with_reducible assumption
    | with_reducible exact Within.refl _ _
    | decide
    | with_reducible apply State.each_within
    | with_reducible apply Within.step' (State.account_within _ _ _)
    | with_reducible apply Within.step' (State.modTile_within _ _ _)
    | with_reducible refine Within.ite ?_ ?_
    | with_reducible intro _
    | extract_lets
    | split
    | dsimp only

theorem State.lowerOne_within (s : State) :
    Holds (Within [.out, .hst, .pwr, .evt, .flog] s) (State.lowerOne s) := by
  unfold State.lowerOne
  repeat' first
    | with_reducible assumption
    | with_reducible exact Within.refl _ _
    | decide
    | with_reducible apply Within.step' (State.setLimit_within _ _ _ _ _)
    | with_reducible exact Holds.none
    | with_reducible refine Holds.some ?_
    | with_reducible refine Holds.map_state ?_ ?_
    | with_reducible refine Holds.map ?_
    | with_reducible refine Holds.bind ?_
    | with_reducible intro _
    | extract_lets
    | split
    | dsimp only

theorem State.raiseOne_within (s : State) :
    Within [.out, .hst, .pwr, .evt, .flog] s (State.raiseOne s) := by
  unfold State.raiseOne
  repeat' first
    | with_reducible assumption
    | with_reducible exact Within.refl _ _
    | decide
    | with_reducible apply State.each_within
    | with_reducible apply Within.step' (State.setLimit_within _ _ _ _ _)
    | with_reducible intro _
    | extract_lets
    | split
    | dsimp only

theorem State.protect_within (s : State) (a2) :
    Within [.out, .hst, .pwr, .evt, .flog] s (State.protect s a2) := by
  unfold State.protect
  repeat' first
    | with_reducible assumption
    | with_reducible exact Within.refl _ _
    | decide
    | with_reducible apply Within.step' (State.pulse_within _ _)
    | with_reducible apply Within.step' (State.setLimit_within _ _ _ _ _)
    | with_reducible refine Within.ite ?_ ?_
    | with_reducible refine Within.ite_snd ?_ ?_
    | with_reducible intro _
    | extract_lets
    | split
    | dsimp only

theorem State.loopStep_within (s : State) (a2) :
    Within [.out, .tiles, .hst, .pwr, .evt, .flog] s (State.loopStep s a2) := by
  unfold State.loopStep
  repeat' first
    | with_reducible assumption
    | with_reducible exact Within.refl _ _
    | decide
    | with_reducible apply State.when_within
    | with_reducible apply Within.step' (State.raiseOne_within _)
    | with_reducible apply Within.step' (State.setBallast_within _ _)
    | with_reducible apply Within.step' (State.pulse_within _ _)
    | with_reducible apply Within.step' (State.modPwr_within _ _)
    | with_reducible apply Holds.step' (State.lowerOne_within _)
    | with_reducible refine Within.step' (Holds.get (State.lowerOne_within _) (by assumption)) ?_ ?_
    | with_reducible refine Within.ite ?_ ?_
    | with_reducible intro _
    | extract_lets
    | split
    | dsimp only

theorem State.giveBack_within (s : State) (a2) (a3) (a4) :
    Within [.out, .hst, .pwr, .evt, .flog] s (State.giveBack s a2 a3 a4) := by
  unfold State.giveBack
  repeat' first
    | with_reducible assumption
    | with_reducible exact Within.refl _ _
    | decide
    | with_reducible apply Within.step' (State.setLimit_within _ _ _ _ _)
    | split
    | dsimp only

theorem State.snapPower_within (s : State) :
    Within [.pwr] s (State.snapPower s) := by
  unfold State.snapPower
  repeat' first
    | with_reducible assumption
    | with_reducible exact Within.refl _ _
    | decide
    | with_reducible apply Within.step' (State.modPwr_within _ _)
    | with_reducible intro _
    | extract_lets
    | split
    | dsimp only

theorem State.powerCommitted_within (s : State) (a2) :
    Within [.tiles, .pwr] s (State.powerCommitted s a2) := by
  unfold State.powerCommitted
  repeat' first
    | with_reducible assumption
    | with_reducible exact Within.refl _ _
    | decide
    | with_reducible apply State.when_within
    | with_reducible apply Within.step' (State.setBallast_within _ _)
    | with_reducible apply Within.step' (State.modVolt_within _ _ _)
    | with_reducible apply Within.step' (State.modPwr_within _ _)
    | with_reducible refine Within.ite ?_ ?_
    | with_reducible refine Within.ite_snd ?_ ?_
    | with_reducible intro _
    | extract_lets
    | split
    | dsimp only

theorem State.setTrim_within (s : State) (a2) (a3) :
    Within [.pwr] s (State.setTrim s a2 a3) := by
  unfold State.setTrim
  repeat' first
    | with_reducible assumption
    | with_reducible exact Within.refl _ _
    | decide
    | with_reducible apply Within.step' (State.modPwr_within _ _)
    | with_reducible refine Within.ite ?_ ?_
    | with_reducible intro _
    | split
    | dsimp only

theorem State.voltPeriod_within (s : State) :
    Within [.pwr] s (State.voltPeriod s) := by
  unfold State.voltPeriod
  repeat' first
    | with_reducible assumption
    | with_reducible exact Within.refl _ _
    | decide
    | with_reducible apply Within.step' (State.modPwr_within _ _)
    | with_reducible intro _
    | split
    | dsimp only

theorem State.trip_within (s : State) (a2) (a3) :
    Within [.out, .mem, .tiles, .mesh, .lp, .xlt, .brd, .fab, .hst, .que, .itl, .rcv, .cry, .evt, .flog, .boot] s (State.trip s a2 a3) := by
  unfold State.trip
  repeat' first
    | with_reducible assumption
    | with_reducible exact Within.refl _ _
    | decide
    | with_reducible apply Within.step' (State.loseHalves_within _)
    | with_reducible apply Within.step' (State.modBoot_within _ _)
    | with_reducible apply Within.step' (State.pulse_within _ _)
    | with_reducible apply Within.step' (State.log_within _ _ _ _ _)
    | with_reducible intro _
    | extract_lets
    | split
    | dsimp only

/-! ### Msg -/

theorem State.modReq_within (s : State) (a2) (a3) :
    Within [.itl] s (State.modReq s a2 a3) := by
  unfold State.modReq
  repeat' first
    | with_reducible assumption
    | with_reducible exact Within.refl _ _
    | decide
    | with_reducible apply Within.step' (State.modItl_within _ _)
    | with_reducible refine Within.ite ?_ ?_
    | with_reducible refine Within.ite_snd ?_ ?_
    | with_reducible intro _
    | split
    | dsimp only

theorem State.deliverRsp_within (s : State) (a2) (a3) :
    Within [.out, .hst] s (State.deliverRsp s a2 a3) := by
  unfold State.deliverRsp
  repeat' first
    | with_reducible assumption
    | with_reducible exact Within.refl _ _
    | decide
    | with_reducible apply State.when_within
    | with_reducible apply Within.step' (State.emit_within _ _)
    | with_reducible apply Within.step' (State.msix_within _ _ _ _)
    | with_reducible apply Within.step' (State.modFunc_within _ _ _ _)
    | with_reducible refine Within.ite ?_ ?_
    | with_reducible intro _
    | extract_lets
    | split
    | dsimp only

theorem State.respondParts_within (s : State) (a2) (a3) (a4) (a5) (a6) :
    Within [.out, .hst, .itl] s (State.respondParts s a2 a3 a4 a5 a6) := by
  unfold State.respondParts
  repeat' first
    | with_reducible assumption
    | with_reducible exact Within.refl _ _
    | decide
    | with_reducible apply Within.step' (State.deliverRsp_within _ _ _)
    | with_reducible apply Within.step' (State.modItl_within _ _)
    | with_reducible apply Within.step' (State.modReq_within _ _ _)
    | with_reducible refine Within.ite ?_ ?_
    | with_reducible refine Within.ite_snd ?_ ?_
    | with_reducible intro _
    | extract_lets
    | split
    | dsimp only

theorem State.respond_within (s : State) (a2) (a3) (a4) (a5) (a6) :
    Within [.out, .hst, .itl] s (State.respond s a2 a3 a4 a5 a6) := by
  unfold State.respond
  repeat' first
    | with_reducible assumption
    | with_reducible exact Within.refl _ _
    | decide
    | with_reducible apply Within.step' (State.respondParts_within _ _ _ _ _ _)
    | split
    | dsimp only

theorem State.answer_within (s : State) (a2) (a3) :
    Within [.out, .hst, .itl] s (State.answer s a2 a3) := by
  unfold State.answer
  repeat' first
    | with_reducible assumption
    | with_reducible exact Within.refl _ _
    | decide
    | with_reducible apply Within.step' (State.respond_within _ _ _ _ _ _)
    | split
    | dsimp only

theorem State.fail_within (s : State) (a2) (a3) :
    Within [.out, .hst, .itl] s (State.fail s a2 a3) := by
  unfold State.fail
  repeat' first
    | with_reducible assumption
    | with_reducible exact Within.refl _ _
    | decide
    | with_reducible apply Within.step' (State.respond_within _ _ _ _ _ _)
    | split
    | dsimp only

theorem State.refuse_within (s : State) (a2) (a3) (a4) :
    Within [.out, .hst, .itl] s (State.refuse s a2 a3 a4) := by
  unfold State.refuse
  repeat' first
    | with_reducible assumption
    | with_reducible exact Within.refl _ _
    | decide
    | with_reducible apply Within.step' (State.respond_within _ _ _ _ _ _)
    | split
    | dsimp only

theorem State.refuseBlock_within (s : State) (a2) (a3) (a4) (a5) :
    Within [.out, .hst, .itl] s (State.refuseBlock s a2 a3 a4 a5) := by
  unfold State.refuseBlock
  repeat' first
    | with_reducible assumption
    | with_reducible exact Within.refl _ _
    | decide
    | with_reducible apply Within.step' (State.respond_within _ _ _ _ _ _)
    | split
    | dsimp only

theorem State.accepted_within (s : State) (a2) (a3) :
    Within [.out, .hst, .itl] s (State.accepted s a2 a3) := by
  unfold State.accepted
  repeat' first
    | with_reducible assumption
    | with_reducible exact Within.refl _ _
    | decide
    | with_reducible apply Within.step' (State.respond_within _ _ _ _ _ _)
    | with_reducible apply Within.step' (State.modReq_within _ _ _)
    | with_reducible refine Within.ite ?_ ?_
    | with_reducible refine Within.ite_snd ?_ ?_
    | with_reducible intro _
    | extract_lets
    | split
    | dsimp only

theorem State.reject_within (s : State) (a2) (a3) (a4) :
    Within [.out, .hst] s (State.reject s a2 a3 a4) := by
  unfold State.reject
  repeat' first
    | with_reducible assumption
    | with_reducible exact Within.refl _ _
    | decide
    | with_reducible apply Within.step' (State.deliverRsp_within _ _ _)
    | extract_lets
    | split
    | dsimp only

theorem State.nextRsp_within (s : State) (a2) (a3) (a4) (a5) (a6) (a7) :
    Within [.out, .hst, .itl] s (State.nextRsp s a2 a3 a4 a5 a6 a7) := by
  unfold State.nextRsp
  repeat' first
    | with_reducible assumption
    | with_reducible exact Within.refl _ _
    | decide
    | with_reducible apply Within.step' (State.deliverRsp_within _ _ _)
    | with_reducible apply Within.step' (State.modReq_within _ _ _)
    | with_reducible refine Within.ite ?_ ?_
    | with_reducible refine Within.ite_snd ?_ ?_
    | with_reducible intro _
    | extract_lets
    | split
    | dsimp only

theorem State.enqueue_within (s : State) (a2) (a3) (a4) :
    Within [.itl] s (State.enqueue s a2 a3 a4) := by
  unfold State.enqueue
  repeat' first
    | with_reducible assumption
    | with_reducible exact Within.refl _ _
    | decide
    | with_reducible apply Within.step' (State.modItl_within _ _)
    | with_reducible apply Within.step' (State.modReq_within _ _ _)
    | with_reducible intro _
    | extract_lets
    | split
    | dsimp only

theorem State.stage_within (s : State) (a2) (a3) (a4) (a5) (a6) (a7) :
    Within [.out, .hst, .itl] s (State.stage s a2 a3 a4 a5 a6 a7) := by
  unfold State.stage
  repeat' first
    | with_reducible assumption
    | with_reducible exact Within.refl _ _
    | decide
    | with_reducible apply Within.step' (State.deliverRsp_within _ _ _)
    | with_reducible apply Within.step' (State.modReq_within _ _ _)
    | with_reducible refine Within.ite ?_ ?_
    | with_reducible refine Within.ite_snd ?_ ?_
    | with_reducible intro _
    | extract_lets
    | split
    | dsimp only

theorem State.sequence_within (s : State) (a2) (a3) (a4) (a5) :
    Within [.out, .hst, .itl] s (State.sequence s a2 a3 a4 a5) := by
  unfold State.sequence
  repeat' first
    | with_reducible assumption
    | with_reducible exact Within.refl _ _
    | decide
    | with_reducible apply Within.step' (State.enqueue_within _ _ _ _)
    | with_reducible apply Within.step' (State.reject_within _ _ _ _)
    | with_reducible apply Within.step' (State.modReq_within _ _ _)
    | with_reducible apply Within.step' (State.stage_within _ _ _ _ _ _ _)
    | with_reducible apply Within.step' (State.nextRsp_within _ _ _ _ _ _ _)
    | with_reducible apply Within.step' (State.deliverRsp_within _ _ _)
    | with_reducible refine Within.ite ?_ ?_
    | with_reducible refine Within.ite_snd ?_ ?_
    | with_reducible intro _
    | extract_lets
    | split
    | dsimp only

theorem State.receive_within (s : State) (a2) (a3) :
    Within [.out, .hst, .itl] s (State.receive s a2 a3) := by
  unfold State.receive
  repeat' first
    | with_reducible assumption
    | with_reducible exact Within.refl _ _
    | decide
    | with_reducible apply Within.step' (State.sequence_within _ _ _ _ _)
    | with_reducible apply Within.step' (State.reject_within _ _ _ _)
    | with_reducible refine Within.ite ?_ ?_
    | with_reducible intro _
    | extract_lets
    | split
    | dsimp only

theorem State.mailGo_within (s : State) (a2) (a3) :
    Within [.out, .hst, .itl] s (State.mailGo s a2 a3) := by
  unfold State.mailGo
  repeat' first
    | with_reducible assumption
    | with_reducible exact Within.refl _ _
    | decide
    | with_reducible apply Within.step' (State.receive_within _ _ _)
    | with_reducible apply Within.step' (State.modFunc_within _ _ _ _)
    | with_reducible refine Within.ite ?_ ?_
    | with_reducible intro _
    | extract_lets
    | split
    | dsimp only

theorem State.mailDiscard_within (s : State) (a2) (a3) :
    Within [.itl] s (State.mailDiscard s a2 a3) := by
  unfold State.mailDiscard
  repeat' first
    | with_reducible assumption
    | with_reducible exact Within.refl _ _
    | decide
    | with_reducible apply Within.step' (State.modReq_within _ _ _)
    | split
    | dsimp only

theorem State.mailCons_within (s : State) (a2) (a3) (a4) :
    Within [.hst] s (State.mailCons s a2 a3 a4) := by
  unfold State.mailCons
  repeat' first
    | with_reducible assumption
    | with_reducible exact Within.refl _ _
    | decide
    | with_reducible apply Within.step' (State.modFunc_within _ _ _ _)
    | with_reducible refine Within.ite ?_ ?_
    | with_reducible intro _
    | split
    | dsimp only

theorem State.offMailbox_within (s : State) (a2) (a3) :
    Within [.out, .hst, .itl] s (State.offMailbox s a2 a3) := by
  unfold State.offMailbox
  repeat' first
    | with_reducible assumption
    | with_reducible exact Within.refl _ _
    | decide
    | with_reducible apply Within.step' (State.receive_within _ _ _)
    | with_reducible apply Within.step' (State.reject_within _ _ _ _)
    | with_reducible refine Within.ite ?_ ?_
    | with_reducible refine Within.ite_snd ?_ ?_
    | with_reducible intro _
    | split
    | dsimp only

theorem State.command_within {M : List Block} {s0 s : State} (a2) (a3) (a4) (a5) (h : Within M s0 s)
    (hM : Block.sub [.out, .hst, .itl] M = true) (ha5 : ∀ x0 x1, Within M s0 x1 → Within M s0 (a5 x0 x1)) :
    Within M s0 (State.command s a2 a3 a4 a5) := by
  unfold State.command
  repeat' first
    | with_reducible assumption
    | exact Block.sub_trans (by decide) hM
    | with_reducible apply ha5
    | with_reducible apply Within.step' (State.fail_within _ _ _)
    | with_reducible refine OutIn.next ?_
    | with_reducible exact Holds.none
    | with_reducible refine Holds.some ?_
    | with_reducible refine Holds.map_state ?_ ?_
    | with_reducible refine Holds.map ?_
    | with_reducible refine Holds.bind ?_
    | with_reducible refine Within.getD ?_ ?_
    | with_reducible refine Within.ite ?_ ?_
    | with_reducible refine Within.ite_snd ?_ ?_
    | with_reducible intro _
    | extract_lets
    | split
    | dsimp only

theorem State.commitCommand_within {M : List Block} {s0 s : State} (a2) (a3) (a4) (a5) (h : Within M s0 s)
    (hM : Block.sub [.out, .hst, .itl] M = true) (ha5 : ∀ x0 x1, Within M s0 x1 → Within M s0 (a5 x0 x1)) :
    Within M s0 (State.commitCommand s a2 a3 a4 a5) := by
  unfold State.commitCommand
  repeat' first
    | with_reducible assumption
    | exact Block.sub_trans (by decide) hM
    | with_reducible apply ha5
    | with_reducible apply State.command_within
    | with_reducible refine OutIn.next ?_
    | with_reducible exact Holds.none
    | with_reducible refine Holds.some ?_
    | with_reducible refine Holds.map_state ?_ ?_
    | with_reducible refine Holds.map ?_
    | with_reducible refine Holds.bind ?_
    | with_reducible refine Within.getD ?_ ?_
    | with_reducible refine Within.ite ?_ ?_
    | with_reducible refine Within.ite_snd ?_ ?_
    | with_reducible intro _
    | extract_lets
    | split
    | dsimp only

theorem State.hold_within (s : State) (a2) (a3) (a4) :
    Within [.itl] s (State.hold s a2 a3 a4) := by
  unfold State.hold
  repeat' first
    | with_reducible assumption
    | with_reducible exact Within.refl _ _
    | decide
    | with_reducible apply Within.step' (State.modItl_within _ _)
    | with_reducible intro _
    | split
    | dsimp only

/-! ### Lease -/

theorem State.leaseNone_within (s : State) (a2) :
    Within [.brd] s (State.leaseNone s a2) := by
  unfold State.leaseNone
  repeat' first
    | with_reducible assumption
    | with_reducible exact Within.refl _ _
    | decide
    | with_reducible apply Within.step' (State.modBrd_within _ _)
    | with_reducible apply Within.step' (State.setLease_within _ _ _)
    | with_reducible refine Within.ite ?_ ?_
    | with_reducible refine Within.ite_snd ?_ ?_
    | with_reducible intro _
    | split
    | dsimp only

/-! ### Bridle -/

theorem State.imageCommand_within {M : List Block} {s0 s : State} (a2) (a3) (a4) (a5) (h : Within M s0 s)
    (hM : Block.sub [.out, .hst, .itl] M = true) (ha5 : ∀ x0 x1, Within M s0 x1 → Within M s0 (a5 x0 x1)) :
    Within M s0 (State.imageCommand s a2 a3 a4 a5) := by
  unfold State.imageCommand
  repeat' first
    | with_reducible assumption
    | exact Block.sub_trans (by decide) hM
    | with_reducible apply ha5
    | with_reducible apply State.commitCommand_within
    | with_reducible apply State.command_within
    | with_reducible refine OutIn.next ?_
    | with_reducible exact Holds.none
    | with_reducible refine Holds.some ?_
    | with_reducible refine Holds.map_state ?_ ?_
    | with_reducible refine Holds.map ?_
    | with_reducible refine Holds.bind ?_
    | with_reducible refine Within.getD ?_ ?_
    | with_reducible refine Within.ite ?_ ?_
    | with_reducible refine Within.ite_snd ?_ ?_
    | with_reducible intro _
    | extract_lets
    | split
    | dsimp only

theorem State.preparePending_within (s : State) (a2) (a3) (a4) (a5) (a6) (a7) :
    Within [.tiles, .lp, .xlt, .brd, .fab] s (State.preparePending s a2 a3 a4 a5 a6 a7) := by
  unfold State.preparePending
  repeat' first
    | with_reducible assumption
    | with_reducible exact Within.refl _ _
    | decide
    | with_reducible apply State.each_within
    | with_reducible apply Within.step' (State.modBrd_within _ _)
    | with_reducible apply Within.step' (State.modFab_within _ _)
    | with_reducible apply Within.step' (State.modLp_within _ _)
    | with_reducible apply Within.step' (State.modXlt_within _ _)
    | with_reducible apply Within.step' (State.modTile_within _ _ _)
    | with_reducible exact Holds.none
    | with_reducible refine Holds.some ?_
    | with_reducible refine Holds.map_state ?_ ?_
    | with_reducible refine Holds.map ?_
    | with_reducible refine Holds.bind ?_
    | with_reducible refine Within.getD ?_ ?_
    | with_reducible refine Within.foldl_snd ?_ ?_
    | with_reducible intro _
    | extract_lets
    | split
    | dsimp only

theorem State.commitImage_within (s : State) (a2) (a3) (a4) (a5) (a6) (a7) (a8) :
    Within [.out, .tiles, .lp, .xlt, .brd, .fab, .hst, .itl] s (State.commitImage s a2 a3 a4 a5 a6 a7 a8) := by
  unfold State.commitImage
  repeat' first
    | with_reducible assumption
    | with_reducible exact Within.refl _ _
    | decide
    | with_reducible apply Within.step' (State.refuse_within _ _ _ _)
    | with_reducible apply Within.step' (State.hold_within _ _ _ _)
    | with_reducible apply Within.step' (State.allAccept_within _)
    | with_reducible apply Within.step' (State.refuseBlock_within _ _ _ _ _)
    | with_reducible apply Within.step' (State.brdRefused_within _ _)
    | with_reducible apply Within.step' (State.preparePending_within _ _ _ _ _ _ _)
    | with_reducible refine Within.ite ?_ ?_
    | with_reducible intro _
    | extract_lets
    | split
    | dsimp only

theorem State.tryImage_within (s : State) (a2) (a3) (a4) :
    Within [.out, .tiles, .lp, .xlt, .brd, .fab, .hst, .itl] s (State.tryImage s a2 a3 a4) := by
  unfold State.tryImage
  repeat' first
    | with_reducible assumption
    | with_reducible exact Within.refl _ _
    | decide
    | with_reducible apply Within.step' (State.commitImage_within _ _ _ _ _ _ _ _)
    | with_reducible apply Within.step' (State.refuse_within _ _ _ _)
    | with_reducible apply Within.step' (State.fail_within _ _ _)
    | with_reducible exact Holds.none
    | with_reducible refine Holds.some ?_
    | with_reducible refine Holds.map_state ?_ ?_
    | with_reducible refine Holds.map ?_
    | with_reducible refine Holds.bind ?_
    | with_reducible refine Within.getD ?_ ?_
    | with_reducible refine Within.ite ?_ ?_
    | with_reducible intro _
    | extract_lets
    | split
    | dsimp only

theorem State.imageCommitted_within (s : State) (a2) (a3) (a4) (a5) (a6) (a7) (a8) :
    Within [.out, .mem, .tiles, .mesh, .lp, .xlt, .brd, .fab, .hst, .que, .itl, .sched, .rcv, .rot, .cry, .evt, .flog] s (State.imageCommitted s a2 a3 a4 a5 a6 a7 a8) := by
  unfold State.imageCommitted
  repeat' first
    | with_reducible assumption
    | with_reducible exact Within.refl _ _
    | decide
    | with_reducible apply State.each_within
    | with_reducible apply Within.step' (State.settleSlot_within _ _)
    | with_reducible apply Within.step' (State.regauge_within _ _)
    | with_reducible apply Within.step' (State.setRegGuar_within _ _ _ _)
    | with_reducible apply Within.step' (State.modBrd_within _ _)
    | with_reducible apply Within.step' (State.modFence_within _ _ _)
    | with_reducible apply Within.step' (State.bridleChange_within _ _ _ _ _)
    | with_reducible apply Within.step' (State.drain_within _ _ _)
    | with_reducible apply Within.step' (State.modFunc_within _ _ _ _)
    | with_reducible apply Within.step' (State.tdiError_within _ _ _ _)
    | with_reducible refine Within.ite ?_ ?_
    | with_reducible intro _
    | extract_lets
    | split
    | dsimp only

/-! ### Spare -/

theorem State.moveGo_within (s : State) (a2) :
    Holds (Within [.brd] s) (State.moveGo s a2) := by
  unfold State.moveGo
  repeat' first
    | with_reducible assumption
    | with_reducible exact Within.refl _ _
    | decide
    | with_reducible apply Within.step' (State.modMove_within _ _ _)
    | with_reducible exact Holds.none
    | with_reducible refine Holds.some ?_
    | with_reducible refine Holds.map_state ?_ ?_
    | with_reducible refine Holds.map ?_
    | with_reducible refine Holds.bind ?_
    | with_reducible refine Within.ite ?_ ?_
    | with_reducible intro _
    | extract_lets
    | split
    | dsimp only

theorem State.moveStart_within (s : State) (a2) :
    Holds (Within [.brd] s) (State.moveStart s a2) := by
  unfold State.moveStart
  repeat' first
    | with_reducible assumption
    | with_reducible exact Within.refl _ _
    | decide
    | with_reducible apply Holds.step' (State.moveGo_within _ _)
    | with_reducible refine Within.step' (Holds.get (State.moveGo_within _ _) (by assumption)) ?_ ?_
    | with_reducible apply Within.step' (State.modMove_within _ _ _)
    | with_reducible exact Holds.none
    | with_reducible refine Holds.some ?_
    | with_reducible refine Holds.map_state ?_ ?_
    | with_reducible refine Holds.map ?_
    | with_reducible refine Holds.bind ?_
    | with_reducible refine Within.ite ?_ ?_
    | with_reducible intro _
    | extract_lets
    | split
    | dsimp only

theorem State.moveRefused_within (s : State) :
    Within [.brd] s (State.moveRefused s) := by
  unfold State.moveRefused
  repeat' first
    | with_reducible assumption
    | with_reducible exact Within.refl _ _
    | decide
    | with_reducible apply Within.step' (State.modBrd_within _ _)
    | with_reducible intro _
    | split
    | dsimp only

/-! ### Load -/

theorem State.commitQueWith_within {M : List Block} {s0 s : State} (a2) (a3) (a4) (a5) (h : Within M s0 s)
    (hM : Block.sub [.out, .hst, .que, .itl] M = true) (ha5 : ∀ x0, Within M s0 x0 → Within M s0 (a5 x0)) :
    Within M s0 (State.commitQueWith s a2 a3 a4 a5) := by
  unfold State.commitQueWith
  repeat' first
    | with_reducible assumption
    | exact Block.sub_trans (by decide) hM
    | with_reducible apply ha5
    | with_reducible apply Within.step' (State.hold_within _ _ _ _)
    | with_reducible apply Within.step' (State.modQue_within _ _)
    | with_reducible apply Within.step' (State.refuseBlock_within _ _ _ _ _)
    | with_reducible refine OutIn.next ?_
    | with_reducible exact Holds.none
    | with_reducible refine Holds.some ?_
    | with_reducible refine Holds.map_state ?_ ?_
    | with_reducible refine Holds.map ?_
    | with_reducible refine Holds.bind ?_
    | with_reducible refine Within.getD ?_ ?_
    | with_reducible refine Within.ite ?_ ?_
    | with_reducible refine Within.ite_snd ?_ ?_
    | with_reducible intro _
    | extract_lets
    | split
    | dsimp only

theorem State.commitQue_within (s : State) (a2) (a3) (a4) :
    Within [.out, .hst, .que, .itl] s (State.commitQue s a2 a3 a4) := by
  unfold State.commitQue
  try dsimp only
  repeat' first
    | with_reducible assumption
    | with_reducible exact Within.refl _ _
    | decide
    | with_reducible apply State.commitQueWith_within
    | with_reducible intro _
    | split
    | dsimp only

theorem State.commitLoad_within (s : State) (a2) (a3) (a4) (a5) :
    Within [.out, .tiles, .hst, .que, .itl] s (State.commitLoad s a2 a3 a4 a5) := by
  unfold State.commitLoad
  repeat' first
    | with_reducible assumption
    | with_reducible exact Within.refl _ _
    | decide
    | with_reducible apply State.each_within
    | with_reducible apply State.commitQueWith_within
    | with_reducible apply Within.step' (State.modSrm_within _ _ _)
    | with_reducible intro _
    | extract_lets
    | split
    | dsimp only

theorem State.loadCommitted_within (s : State) (a2) (a3) (a4) (a5) :
    Within [.tiles, .que, .sched] s (State.loadCommitted s a2 a3 a4 a5) := by
  unfold State.loadCommitted
  repeat' first
    | with_reducible assumption
    | with_reducible exact Within.refl _ _
    | decide
    | with_reducible apply State.each_within
    | with_reducible apply Within.step' (State.rssEnds_within _ _ _)
    | with_reducible apply Within.step' (State.modRes_within _ _ _)
    | with_reducible apply Within.step' (State.modBank_within _ _ _ _)
    | with_reducible intro _
    | extract_lets
    | split
    | dsimp only

theorem State.replaceQueue_within (s : State) (a2) :
    Within [.out, .mem, .tiles, .mesh, .lp, .brd, .fab, .hst, .que, .itl, .cry, .evt, .flog] s (State.replaceQueue s a2) := by
  unfold State.replaceQueue
  repeat' first
    | with_reducible assumption
    | with_reducible exact Within.refl _ _
    | decide
    | with_reducible apply Within.step' (State.modQue_within _ _)
    | with_reducible apply Within.step' (State.endQueue_within _ _ _)
    | with_reducible intro _
    | extract_lets
    | split
    | dsimp only

theorem State.registered_within (s : State) (a2) :
    Within [.out, .mem, .tiles, .mesh, .lp, .brd, .fab, .hst, .que, .itl, .cry, .evt, .flog] s (State.registered s a2) := by
  unfold State.registered
  repeat' first
    | with_reducible assumption
    | with_reducible exact Within.refl _ _
    | decide
    | with_reducible apply Within.step' (State.setQueue_within _ _ _)
    | with_reducible apply Within.step' (State.modQ_within _ _ _)
    | with_reducible intro _
    | split
    | dsimp only

/-! ### FabCmd -/

theorem State.commitFab_within (s : State) (a2) (a3) (a4) :
    Within [.out, .fab, .hst, .itl] s (State.commitFab s a2 a3 a4) := by
  unfold State.commitFab
  repeat' first
    | with_reducible assumption
    | with_reducible exact Within.refl _ _
    | decide
    | with_reducible apply Within.step' (State.hold_within _ _ _ _)
    | with_reducible apply Within.step' (State.modFab_within _ _)
    | with_reducible apply Within.step' (State.refuseBlock_within _ _ _ _ _)
    | with_reducible intro _
    | split
    | dsimp only

theorem State.winOld_within (s : State) (a2) (a3) :
    Within [.fab] s (State.winOld s a2 a3) := by
  unfold State.winOld
  repeat' first
    | with_reducible assumption
    | with_reducible exact Within.refl _ _
    | decide
    | with_reducible apply Within.step' (State.modFab_within _ _)
    | with_reducible refine Within.ite ?_ ?_
    | with_reducible intro _
    | split
    | dsimp only

theorem State.winCommitted_within (s : State) (a2) (a3) (a4) :
    Within [.out, .fab, .hst, .itl] s (State.winCommitted s a2 a3 a4) := by
  unfold State.winCommitted
  repeat' first
    | with_reducible assumption
    | with_reducible exact Within.refl _ _
    | decide
    | with_reducible apply Within.step' (State.answer_within _ _ _)
    | with_reducible apply Within.step' (State.modFab_within _ _)
    | with_reducible apply Within.step' (State.accepted_within _ _ _)
    | with_reducible apply Within.step' (State.winOld_within _ _ _)
    | with_reducible refine Within.ite ?_ ?_
    | with_reducible intro _
    | extract_lets
    | split
    | dsimp only

theorem State.collsCommitted_within (s : State) (a2) (a3) :
    Within [.out, .mem, .tiles, .mesh, .lp, .brd, .fab, .hst, .que, .itl, .cry, .evt, .flog] s (State.collsCommitted s a2 a3) := by
  unfold State.collsCommitted
  repeat' first
    | with_reducible assumption
    | with_reducible exact Within.refl _ _
    | decide
    | with_reducible apply State.each_within
    | with_reducible apply Within.step' (State.collApply_within _ _ _)
    | with_reducible apply Within.step' (State.modFab_within _ _)
    | with_reducible refine Within.ite ?_ ?_
    | with_reducible refine Within.ite_snd ?_ ?_
    | with_reducible intro _
    | extract_lets
    | split
    | dsimp only

theorem State.writeLines_within (s : State) (a2) (a3) (a4) (a5) (a6) :
    Within [.out, .mem, .tiles, .mesh, .lp, .brd, .fab, .hst, .que, .itl, .cry, .evt, .flog] s (State.writeLines s a2 a3 a4 a5 a6).2 := by
  induction a6 generalizing s a2 a3 a4 a5 with
  | zero =>
    unfold State.writeLines
    try dsimp only
    repeat' first
      | with_reducible assumption
      | with_reducible exact Within.refl _ _
      | decide
      | with_reducible apply Within.step' (State.writeMpa_within _ _ _ _ _ _)
      | with_reducible refine Within.step' (Within.of_snd (State.writeMpa_within _ _ _ _ _ _) (by assumption)) ?_ ?_
      | with_reducible refine Within.ite ?_ ?_
      | with_reducible intro _
      | split
      | dsimp only
  | succ n ih =>
    unfold State.writeLines
    try dsimp only
    repeat' first
      | with_reducible assumption
      | with_reducible exact Within.refl _ _
      | decide
      | with_reducible apply Within.step' (ih _ _ _ _ _)
      | with_reducible refine Within.step' (Within.of_snd (ih _ _ _ _ _) (by assumption)) ?_ ?_
      | with_reducible apply Within.step' (State.writeMpa_within _ _ _ _ _ _)
      | with_reducible refine Within.step' (Within.of_snd (State.writeMpa_within _ _ _ _ _ _) (by assumption)) ?_ ?_
      | with_reducible refine Within.ite ?_ ?_
      | with_reducible intro _
      | split
      | dsimp only

theorem State.readLines_within (s : State) (a2) (a3) (a4) (a5) (a6) :
    Within [.out, .mem, .tiles, .mesh, .lp, .brd, .fab, .hst, .que, .itl, .cry, .evt, .flog] s (State.readLines s a2 a3 a4 a5 a6).2.2 := by
  induction a6 generalizing s a2 a3 a4 a5 with
  | zero =>
    unfold State.readLines
    try dsimp only
    repeat' first
      | with_reducible assumption
      | with_reducible exact Within.refl _ _
      | decide
      | with_reducible apply Within.step' (State.readMpa_within _ _ _ _ _)
      | with_reducible refine Within.step' (Within.of_snd2 (State.readMpa_within _ _ _ _ _) (by assumption)) ?_ ?_
      | with_reducible refine Within.ite ?_ ?_
      | with_reducible intro _
      | split
      | dsimp only
  | succ n ih =>
    unfold State.readLines
    try dsimp only
    repeat' first
      | with_reducible assumption
      | with_reducible exact Within.refl _ _
      | decide
      | with_reducible apply Within.step' (ih _ _ _ _ _)
      | with_reducible refine Within.step' (Within.of_snd2 (ih _ _ _ _ _) (by assumption)) ?_ ?_
      | with_reducible apply Within.step' (State.readMpa_within _ _ _ _ _)
      | with_reducible refine Within.step' (Within.of_snd2 (State.readMpa_within _ _ _ _ _) (by assumption)) ?_ ?_
      | with_reducible refine Within.ite ?_ ?_
      | with_reducible intro _
      | split
      | dsimp only

theorem State.refusedAt_within (s : State) (a2) (a3) :
    Within [.mesh] s (State.refusedAt s a2 a3) := by
  unfold State.refusedAt
  repeat' first
    | with_reducible assumption
    | with_reducible exact Within.refl _ _
    | decide
    | with_reducible apply Within.step' (State.countRefused_within _ _)
    | split
    | dsimp only

/-! ### RecCmd -/

theorem State.recoverCmd_within {M : List Block} {s0 s : State} (a2) (a3) (a4) (h : Within M s0 s)
    (hM : Block.sub [.out, .hst, .itl] M = true) (ha4 : ∀ x0 x1, Within M s0 x1 → Within M s0 (a4 x0 x1)) :
    Within M s0 (State.recoverCmd s a2 a3 a4) := by
  unfold State.recoverCmd
  repeat' first
    | with_reducible assumption
    | exact Block.sub_trans (by decide) hM
    | with_reducible apply ha4
    | with_reducible apply State.command_within
    | with_reducible refine OutIn.next ?_
    | with_reducible exact Holds.none
    | with_reducible refine Holds.some ?_
    | with_reducible refine Holds.map_state ?_ ?_
    | with_reducible refine Holds.map ?_
    | with_reducible refine Holds.bind ?_
    | with_reducible refine Within.getD ?_ ?_
    | with_reducible refine Within.ite ?_ ?_
    | with_reducible refine Within.ite_snd ?_ ?_
    | with_reducible intro _
    | extract_lets
    | split
    | dsimp only

theorem State.recoverCtx_within (s : State) (a2) (a3) :
    Within [.out, .mem, .tiles, .mesh, .lp, .xlt, .brd, .fab, .hst, .que, .itl, .rcv, .cry, .evt, .flog] s (State.recoverCtx s a2 a3) := by
  unfold State.recoverCtx
  repeat' first
    | with_reducible assumption
    | with_reducible exact Within.refl _ _
    | decide
    | with_reducible apply State.each_within
    | with_reducible apply Within.step' (State.purgeBank_within _ _ _)
    | with_reducible apply Within.step' (State.purgeLost_within _ _ _ _ _ _)
    | with_reducible intro _
    | extract_lets
    | split
    | dsimp only

end Sys2Proof.Machine
end

