-- ==== Sys2Proof/Laws/WithinService.lean ====
section
/-! SUPPORT. What the operations may touch: the RTP, bring-up, firmware, events, boundaries, the cadence, register writes. Each lemma
names the blocks an operation stays within, and says that it keeps the memory canonical. -/

set_option linter.unusedTactic false
set_option linter.unreachableTactic false
set_option linter.unusedVariables false

namespace Sys2Proof.Machine

/-! ### Rtp -/

theorem State.modSlot_within (s : State) (a2) (a3) :
    Within [.rot] s (State.modSlot s a2 a3) := by
  unfold State.modSlot
  repeat' first
    | with_reducible assumption
    | with_reducible exact Within.refl _ _
    | decide
    | with_reducible apply Within.step' (State.modRot_within _ _)
    | with_reducible intro _
    | split
    | dsimp only

theorem State.movesStart_within (s : State) :
    Within [.cry] s (State.movesStart s) := by
  unfold State.movesStart
  repeat' first
    | with_reducible assumption
    | with_reducible exact Within.refl _ _
    | decide
    | with_reducible apply State.each_within
    | with_reducible apply Within.step' (State.modCry_within _ _)
    | with_reducible apply Within.step' (State.nextMove_within _ _)
    | with_reducible apply Within.step' (State.regionMove_within _ _)
    | with_reducible intro _
    | extract_lets
    | split
    | dsimp only

theorem State.reckonMem_within (s : State) :
    Within [.out, .mem, .tiles, .mesh, .lp, .brd, .fab, .hst, .que, .itl, .sched, .cry, .evt, .flog] s (State.reckonMem s) := by
  unfold State.reckonMem
  repeat' first
    | with_reducible assumption
    | with_reducible exact Within.refl _ _
    | decide
    | with_reducible apply State.each_within
    | with_reducible apply Within.step' (State.serveAll_within _)
    | with_reducible apply Within.step' (State.movesStart_within _)
    | with_reducible apply Within.step' (State.modKid_within _ _ _)
    | with_reducible apply Within.step' (State.modCry_within _ _)
    | with_reducible refine Within.ite ?_ ?_
    | with_reducible refine Within.ite_snd ?_ ?_
    | with_reducible intro _
    | extract_lets
    | split
    | dsimp only

theorem State.reckonLink_within (s : State) :
    Within [.lnk, .rot, .cry] s (State.reckonLink s) := by
  unfold State.reckonLink
  repeat' first
    | with_reducible assumption
    | with_reducible exact Within.refl _ _
    | decide
    | with_reducible apply State.each_within
    | with_reducible apply Within.step' (State.sendKeyx_within _ _)
    | with_reducible apply Within.step' (State.modKid_within _ _ _)
    | with_reducible apply Within.step' (State.modCry_within _ _)
    | with_reducible refine Within.ite ?_ ?_
    | with_reducible intro _
    | extract_lets
    | split
    | dsimp only

theorem State.eraseSlots_within (s : State) (a2) :
    Within [.out, .mem, .tiles, .mesh, .lp, .brd, .lnk, .fab, .hst, .que, .itl, .sched, .rot, .cry, .evt, .flog] s (State.eraseSlots s a2) := by
  unfold State.eraseSlots
  repeat' first
    | with_reducible assumption
    | with_reducible exact Within.refl _ _
    | decide
    | with_reducible apply State.each_within
    | with_reducible apply Within.step' (State.reckonLink_within _)
    | with_reducible apply Within.step' (State.reckonMem_within _)
    | with_reducible apply Within.step' (State.modKid_within _ _ _)
    | with_reducible apply Within.step' (State.modCry_within _ _)
    | with_reducible apply Within.step' (State.modRot_within _ _)
    | with_reducible intro _
    | extract_lets
    | split
    | dsimp only

theorem State.writeKey_within (s : State) (a2) (a3) (a4) :
    Within [.out, .mem, .tiles, .mesh, .lp, .brd, .lnk, .fab, .hst, .que, .itl, .sched, .rot, .cry, .evt, .flog] s (State.writeKey s a2 a3 a4) := by
  unfold State.writeKey
  repeat' first
    | with_reducible assumption
    | with_reducible exact Within.refl _ _
    | decide
    | with_reducible apply Within.step' (State.reckonLink_within _)
    | with_reducible apply Within.step' (State.serveAll_within _)
    | with_reducible apply Within.step' (State.reckonMem_within _)
    | with_reducible apply Within.step' (State.modKid_within _ _ _)
    | with_reducible apply Within.step' (State.modCry_within _ _)
    | with_reducible apply Within.step' (State.modSlot_within _ _ _)
    | with_reducible refine Within.ite ?_ ?_
    | with_reducible refine Within.ite_snd ?_ ?_
    | with_reducible intro _
    | extract_lets
    | split
    | dsimp only

theorem State.secCmd_within {M : List Block} {s0 s : State} (a2) (a3) (a4) (h : Within M s0 s)
    (hM : Block.sub [.out, .hst, .itl] M = true) (ha4 : ∀ x0 x1, Within M s0 x1 → Within M s0 (a4 x0 x1)) :
    Within M s0 (State.secCmd s a2 a3 a4) := by
  unfold State.secCmd
  repeat' first
    | with_reducible assumption
    | exact Block.sub_trans (by decide) hM
    | with_reducible apply ha4
    | with_reducible apply State.command_within
    | with_reducible apply Within.step' (State.fail_within _ _ _)
    | with_reducible refine OutIn.next ?_
    | with_reducible exact Holds.none
    | with_reducible refine Holds.some ?_
    | with_reducible refine Holds.map_state ?_ ?_
    | with_reducible refine Holds.map ?_
    | with_reducible refine Holds.bind ?_
    | with_reducible refine Within.getD ?_ ?_
    | with_reducible refine Within.ite ?_ ?_
    | with_reducible refine Within.ite_snd ?_ ?_
    | with_reducible intro _
    | extract_lets
    | split
    | dsimp only

theorem State.secRefuse_within (s : State) (a2) (a3) :
    Within [.out, .hst, .itl, .rot] s (State.secRefuse s a2 a3) := by
  unfold State.secRefuse
  repeat' first
    | with_reducible assumption
    | with_reducible exact Within.refl _ _
    | decide
    | with_reducible apply Within.step' (State.refuse_within _ _ _ _)
    | with_reducible apply Within.step' (State.modRot_within _ _)
    | with_reducible intro _
    | split
    | dsimp only

theorem State.secDone_within (s : State) (a2) :
    Within [.out, .hst, .itl] s (State.secDone s a2) := by
  unfold State.secDone
  repeat' first
    | with_reducible assumption
    | with_reducible exact Within.refl _ _
    | decide
    | with_reducible apply Within.step' (State.opDone_within _ _ _ _ _ _ _)
    | with_reducible apply Within.step' (State.accepted_within _ _ _)
    | split
    | dsimp only

theorem State.tokenFails_within (s : State) (a2) (a3) (a4) :
    Holds (Within [.out, .hst, .itl, .rot] s) (State.tokenFails s a2 a3 a4) := by
  unfold State.tokenFails
  repeat' first
    | with_reducible assumption
    | with_reducible exact Within.refl _ _
    | decide
    | with_reducible apply Within.step' (State.secRefuse_within _ _ _)
    | with_reducible apply Within.step' (State.fail_within _ _ _)
    | with_reducible exact Holds.none
    | with_reducible refine Holds.some ?_
    | with_reducible refine Holds.map_state ?_ ?_
    | with_reducible refine Holds.map ?_
    | with_reducible refine Holds.bind ?_
    | with_reducible refine Within.ite ?_ ?_
    | with_reducible intro _
    | extract_lets
    | split
    | dsimp only

theorem State.draw_within (s : State) :
    Within [.rot] s (State.draw s).2 := by
  unfold State.draw
  repeat' first
    | with_reducible assumption
    | with_reducible exact Within.refl _ _
    | decide
    | with_reducible apply Within.step' (State.modRot_within _ _)
    | with_reducible intro _
    | split
    | dsimp only

theorem State.badSlots_within (s : State) (a2) :
    Within [.out, .hst, .rot, .evt, .flog] s (State.badSlots s a2) := by
  unfold State.badSlots
  repeat' first
    | with_reducible assumption
    | with_reducible exact Within.refl _ _
    | decide
    | with_reducible apply State.each_within
    | with_reducible apply Within.step' (State.pulse_within _ _)
    | with_reducible apply Within.step' (State.log_within _ _ _ _ _)
    | with_reducible apply Within.step' (State.modSlot_within _ _ _)
    | with_reducible refine Within.ite ?_ ?_
    | with_reducible refine Within.ite_snd ?_ ?_
    | with_reducible intro _
    | extract_lets
    | split
    | dsimp only

theorem State.transit_within (s : State) (a2) (a3) :
    Within [.out, .hst, .rot, .evt, .flog] s (State.transit s a2 a3) := by
  unfold State.transit
  repeat' first
    | with_reducible assumption
    | with_reducible exact Within.refl _ _
    | decide
    | with_reducible apply Within.step' (State.pulse_within _ _)
    | with_reducible apply Within.step' (State.log_within _ _ _ _ _)
    | with_reducible apply Within.step' (State.modRot_within _ _)
    | with_reducible intro _
    | extract_lets
    | split
    | dsimp only

theorem State.deriveBuiltIn_within (s : State) (a2) :
    Within [.rot] s (State.deriveBuiltIn s a2) := by
  unfold State.deriveBuiltIn
  repeat' first
    | with_reducible assumption
    | with_reducible exact Within.refl _ _
    | decide
    | with_reducible apply Within.step' (State.modSlot_within _ _ _)
    | with_reducible intro _
    | extract_lets
    | split
    | dsimp only

theorem State.staleSram_within (s : State) :
    Within [.tiles] s (State.staleSram s) := by
  unfold State.staleSram
  repeat' first
    | with_reducible assumption
    | with_reducible exact Within.refl _ _
    | decide
    | with_reducible apply State.each_within
    | with_reducible apply Within.step' (State.modSrm_within _ _ _)
    | with_reducible intro _
    | extract_lets
    | split
    | dsimp only

theorem State.debugErase_within (s : State) :
    Within [.out, .mem, .tiles, .mesh, .lp, .brd, .lnk, .fab, .hst, .que, .itl, .sched, .rot, .cry, .evt, .flog] s (State.debugErase s) := by
  unfold State.debugErase
  repeat' first
    | with_reducible assumption
    | with_reducible exact Within.refl _ _
    | decide
    | with_reducible apply Within.step' (State.modRot_within _ _)
    | with_reducible apply Within.step' (State.deriveBuiltIn_within _ _)
    | with_reducible apply Within.step' (State.staleSram_within _)
    | with_reducible apply Within.step' (State.modCry_within _ _)
    | with_reducible apply Within.step' (State.eraseSlots_within _ _)
    | with_reducible intro _
    | extract_lets
    | split
    | dsimp only

theorem State.grant_within (s : State) (a2) (a3) (a4) :
    Within [.out, .hst, .rot, .evt, .flog] s (State.grant s a2 a3 a4) := by
  unfold State.grant
  repeat' first
    | with_reducible assumption
    | with_reducible exact Within.refl _ _
    | decide
    | with_reducible apply Within.step' (State.pulse_within _ _)
    | with_reducible apply Within.step' (State.log_within _ _ _ _ _)
    | with_reducible apply Within.step' (State.modRot_within _ _)
    | with_reducible intro _
    | extract_lets
    | split
    | dsimp only

/-! ### Spdm -/

theorem State.setConn_within (s : State) (a2) :
    Within [.rot] s (State.setConn s a2) := by
  unfold State.setConn
  repeat' first
    | with_reducible assumption
    | with_reducible exact Within.refl _ _
    | decide
    | with_reducible apply Within.step' (State.modRot_within _ _)
    | with_reducible intro _
    | split
    | dsimp only

theorem State.spdm_within {M : List Block} {s0 s : State} (a2) (a3) (a4) (h : Within M s0 s)
    (hM : Block.sub [.out] M = true) (ha4 : ∀ x0 x1, Within M s0 x1 → Within M s0 (a4 x0 x1).2) :
    Within M s0 (State.spdm s a2 a3 a4) := by
  unfold State.spdm
  repeat' first
    | with_reducible assumption
    | exact Block.sub_trans (by decide) hM
    | with_reducible apply ha4
    | with_reducible apply Within.step' (State.emit_within _ _)
    | with_reducible refine OutIn.next ?_
    | with_reducible exact Holds.none
    | with_reducible refine Holds.some ?_
    | with_reducible refine Holds.map_state ?_ ?_
    | with_reducible refine Holds.map ?_
    | with_reducible refine Holds.bind ?_
    | with_reducible refine Within.getD ?_ ?_
    | with_reducible refine Within.ite ?_ ?_
    | with_reducible refine Within.ite_snd ?_ ?_
    | with_reducible intro _
    | extract_lets
    | split
    | dsimp only

theorem State.negotiate_within (s : State) (a2) (a3) (a4) :
    Within [.out, .rot] s (State.negotiate s a2 a3 a4) := by
  unfold State.negotiate
  repeat' first
    | with_reducible assumption
    | with_reducible exact Within.refl _ _
    | decide
    | with_reducible apply State.spdm_within
    | with_reducible apply Within.step' (State.setConn_within _ _)
    | with_reducible intro _
    | split
    | dsimp only

theorem State.spdmSigned_within {M : List Block} {s0 s : State} (a2) (a3) (a4) (h : Within M s0 s)
    (hM : Block.sub [.out, .hst, .rot, .evt, .flog] M = true) (ha4 : ∀ x0 x1 x2, Within M s0 x2 → Within M s0 (a4 x0 x1 x2).2) :
    Within M s0 (State.spdmSigned s a2 a3 a4).2 := by
  unfold State.spdmSigned
  repeat' first
    | with_reducible assumption
    | exact Block.sub_trans (by decide) hM
    | with_reducible apply ha4
    | with_reducible apply Within.step' (State.setConn_within _ _)
    | with_reducible apply Holds.step2' (State.signDual_within _ _)
    | with_reducible refine Holds.map2_state (State.signDual_within _ _) ?_ ?_
    | with_reducible refine Within.step' (Holds.get2 (State.signDual_within _ _) (by assumption)) ?_ ?_
    | with_reducible refine OutIn.next ?_
    | with_reducible exact Holds.none
    | with_reducible refine Holds.some ?_
    | with_reducible refine Holds.map_state ?_ ?_
    | with_reducible refine Holds.map ?_
    | with_reducible refine Holds.bind ?_
    | with_reducible refine Within.getD ?_ ?_
    | with_reducible refine Within.ite ?_ ?_
    | with_reducible refine Within.ite_snd ?_ ?_
    | with_reducible intro _
    | extract_lets
    | split
    | dsimp only

theorem State.expireSessions_within (s : State) :
    Within [.rot] s (State.expireSessions s) := by
  unfold State.expireSessions
  repeat' first
    | with_reducible assumption
    | with_reducible exact Within.refl _ _
    | decide
    | with_reducible apply Within.step' (State.modRot_within _ _)
    | with_reducible intro _
    | extract_lets
    | split
    | dsimp only

theorem State.modSession_within (s : State) (a2) (a3) (a4) :
    Within [.rot] s (State.modSession s a2 a3 a4) := by
  unfold State.modSession
  repeat' first
    | with_reducible assumption
    | with_reducible exact Within.refl _ _
    | decide
    | with_reducible apply Within.step' (State.modRot_within _ _)
    | with_reducible refine Within.ite ?_ ?_
    | with_reducible intro _
    | split
    | dsimp only

theorem State.dropSession_within (s : State) (a2) (a3) :
    Within [.rot] s (State.dropSession s a2 a3) := by
  unfold State.dropSession
  repeat' first
    | with_reducible assumption
    | with_reducible exact Within.refl _ _
    | decide
    | with_reducible apply Within.step' (State.modRot_within _ _)
    | with_reducible intro _
    | split
    | dsimp only

theorem State.inSession_within {M : List Block} {s0 s : State} (a2) (a3) (a4) (h : Within M s0 s)
    (hM : Block.sub [.out, .rot] M = true) (ha4 : ∀ x0, Within M s0 x0 → Within M s0 (a4 x0).2) :
    Within M s0 (State.inSession s a2 a3 a4) := by
  unfold State.inSession
  repeat' first
    | with_reducible assumption
    | exact Block.sub_trans (by decide) hM
    | with_reducible apply ha4
    | with_reducible apply State.spdm_within
    | with_reducible apply Within.step' (State.expireSessions_within _)
    | with_reducible refine OutIn.next ?_
    | with_reducible exact Holds.none
    | with_reducible refine Holds.some ?_
    | with_reducible refine Holds.map_state ?_ ?_
    | with_reducible refine Holds.map ?_
    | with_reducible refine Holds.bind ?_
    | with_reducible refine Within.getD ?_ ?_
    | with_reducible refine Within.ite ?_ ?_
    | with_reducible refine Within.ite_snd ?_ ?_
    | with_reducible intro _
    | extract_lets
    | split
    | dsimp only

/-! ### Bringup -/

theorem State.modFwBank_within (s : State) (a2) (a3) :
    Within [.itl] s (State.modFwBank s a2 a3) := by
  unfold State.modFwBank
  repeat' first
    | with_reducible assumption
    | with_reducible exact Within.refl _ _
    | decide
    | with_reducible apply Within.step' (State.modItl_within _ _)
    | with_reducible intro _
    | split
    | dsimp only

theorem State.runItlum_within (s : State) (a2) :
    Within [.itl, .rot] s (State.runItlum s a2) := by
  unfold State.runItlum
  repeat' first
    | with_reducible assumption
    | with_reducible exact Within.refl _ _
    | decide
    | with_reducible apply Within.step' (State.modRot_within _ _)
    | with_reducible apply Within.step' (State.modItl_within _ _)
    | with_reducible intro _
    | extract_lets
    | split
    | dsimp only

theorem State.raiseFloors_within (s : State) :
    Within [.rot] s (State.raiseFloors s) := by
  unfold State.raiseFloors
  repeat' first
    | with_reducible assumption
    | with_reducible exact Within.refl _ _
    | decide
    | with_reducible apply Within.step' (State.modRot_within _ _)
    | with_reducible refine Within.ite ?_ ?_
    | with_reducible refine Within.ite_snd ?_ ?_
    | with_reducible intro _
    | extract_lets
    | split
    | dsimp only

theorem State.writeSettings_within (s : State) :
    Within [.rot, .boot] s (State.writeSettings s) := by
  unfold State.writeSettings
  repeat' first
    | with_reducible assumption
    | with_reducible exact Within.refl _ _
    | decide
    | with_reducible apply Within.step' (State.raiseFloors_within _)
    | with_reducible apply Within.step' (State.modBoot_within _ _)
    | with_reducible refine Within.ite ?_ ?_
    | with_reducible refine Within.ite_snd ?_ ?_
    | with_reducible intro _
    | extract_lets
    | split
    | dsimp only

theorem State.storeSettings_within (s : State) :
    Within [.rot, .boot] s (State.storeSettings s) := by
  unfold State.storeSettings
  repeat' first
    | with_reducible assumption
    | with_reducible exact Within.refl _ _
    | decide
    | with_reducible apply Within.step' (State.writeSettings_within _)
    | with_reducible apply Within.step' (State.modBoot_within _ _)
    | with_reducible refine Within.ite ?_ ?_
    | with_reducible refine Within.ite_snd ?_ ?_
    | with_reducible intro _
    | split
    | dsimp only

theorem State.settingsPeriod_within (s : State) :
    Within [.rot, .boot] s (State.settingsPeriod s) := by
  unfold State.settingsPeriod
  repeat' first
    | with_reducible assumption
    | with_reducible exact Within.refl _ _
    | decide
    | with_reducible apply State.when_within
    | with_reducible apply Within.step' (State.writeSettings_within _)
    | with_reducible apply Within.step' (State.modBoot_within _ _)
    | with_reducible intro _
    | extract_lets
    | split
    | dsimp only

theorem State.dark_within (s : State) :
    Within [.out, .mem, .fresh, .lowHeld, .highLatch, .tiles, .cycles, .mesh, .lp, .xlt, .brd, .lnk, .fab, .hst, .que, .itl, .sched, .cad, .pwr, .rcv, .rot, .cry, .evt, .flog, .boot] s (State.dark s) :=
  ⟨fun b hb => by cases b <;> first | rfl | (simp at hb), fun _ => rfl⟩

theorem State.rtpBoot_within (s : State) :
    Within [.rot, .cry] s (State.rtpBoot s) := by
  unfold State.rtpBoot
  repeat' first
    | with_reducible assumption
    | with_reducible exact Within.refl _ _
    | decide
    | with_reducible apply Within.step' (State.modCry_within _ _)
    | with_reducible apply Within.step' (State.deriveBuiltIn_within _ _)
    | with_reducible apply Within.step' (State.modRot_within _ _)
    | with_reducible refine Within.ite ?_ ?_
    | with_reducible refine Within.ite_snd ?_ ?_
    | with_reducible intro _
    | extract_lets
    | split
    | dsimp only

theorem State.scanLog_within (s : State) :
    Within [.flog] s (State.scanLog s).2 := by
  unfold State.scanLog
  repeat' first
    | with_reducible assumption
    | with_reducible exact Within.refl _ _
    | decide
    | with_reducible apply Within.step' (State.modFlog_within _ _)
    | with_reducible refine Within.foldl_snd ?_ ?_
    | with_reducible refine Within.ite ?_ ?_
    | with_reducible refine Within.ite_snd ?_ ?_
    | with_reducible intro _
    | extract_lets
    | split
    | dsimp only

theorem State.fwRecord_within (s : State) (a2) (a3) :
    Within [.out, .hst, .evt, .flog] s (State.fwRecord s a2 a3) := by
  unfold State.fwRecord
  repeat' first
    | with_reducible assumption
    | with_reducible exact Within.refl _ _
    | decide
    | with_reducible apply Within.step' (State.pulse_within _ _)
    | with_reducible apply Within.step' (State.log_within _ _ _ _ _)
    | split
    | dsimp only

theorem State.bootSettings_within (s : State) :
    Within [.cad, .pwr] s (State.bootSettings s) := by
  unfold State.bootSettings
  repeat' first
    | with_reducible assumption
    | with_reducible exact Within.refl _ _
    | decide
    | with_reducible apply Within.step' (State.modPwr_within _ _)
    | with_reducible apply Within.step' (State.modCad_within _ _)
    | with_reducible intro _
    | extract_lets
    | split
    | dsimp only

theorem State.bootHalves_within (s : State) :
    Within [.tiles, .lp, .lnk, .pwr, .boot] s (State.bootHalves s) := by
  unfold State.bootHalves
  repeat' first
    | with_reducible assumption
    | with_reducible exact Within.refl _ _
    | decide
    | with_reducible apply Within.step' (State.modBoot_within _ _)
    | with_reducible apply Within.step' (State.modPwr_within _ _)
    | with_reducible apply Within.step' (State.modLp_within _ _)
    | with_reducible intro _
    | extract_lets
    | split
    | dsimp only
    | with_reducible apply Within.step' (State.tiles_set_within _ _)
    | with_reducible apply Within.step' (State.lnk_set_within _ _)

theorem State.bootHost_within (s : State) :
    Within [.hst] s (State.bootHost s) := by
  unfold State.bootHost
  repeat' first
    | with_reducible assumption
    | with_reducible exact Within.refl _ _
    | decide
    | with_reducible apply State.each_within
    | with_reducible apply Within.step' (State.modHPort_within _ _ _)
    | with_reducible refine Within.ite ?_ ?_
    | with_reducible refine Within.ite_snd ?_ ?_
    | with_reducible intro _
    | split
    | dsimp only

theorem State.loaderState_within (s : State) :
    Within [.hst, .boot] s (State.loaderState s) := by
  unfold State.loaderState
  repeat' first
    | with_reducible assumption
    | with_reducible exact Within.refl _ _
    | decide
    | with_reducible apply Within.step' (State.modBoot_within _ _)
    | with_reducible apply Within.step' (State.bootHost_within _)
    | with_reducible intro _
    | split
    | dsimp only

theorem State.powerUpRecord_within (s : State) (a2) :
    Within [.out, .hst, .evt, .flog] s (State.powerUpRecord s a2) := by
  unfold State.powerUpRecord
  repeat' first
    | with_reducible assumption
    | with_reducible exact Within.refl _ _
    | decide
    | with_reducible apply Within.step' (State.log_within _ _ _ _ _)
    | extract_lets
    | split
    | dsimp only

theorem State.bootItlum_within (s : State) (a2) (a3) (a4) (a5) :
    Within [.out, .hst, .itl, .cad, .pwr, .rot, .evt, .flog, .boot] s (State.bootItlum s a2 a3 a4 a5) := by
  unfold State.bootItlum
  repeat' first
    | with_reducible assumption
    | with_reducible exact Within.refl _ _
    | decide
    | with_reducible apply State.when_within
    | with_reducible apply Within.step' (State.writeSettings_within _)
    | with_reducible apply Within.step' (State.fwRecord_within _ _ _)
    | with_reducible apply Within.step' (State.powerUpRecord_within _ _)
    | with_reducible apply Within.step' (State.bootSettings_within _)
    | with_reducible apply Within.step' (State.scanLog_within _)
    | with_reducible refine Within.step' (Within.of_snd (State.scanLog_within _) (by assumption)) ?_ ?_
    | with_reducible apply Within.step' (State.modEvt_within _ _)
    | with_reducible apply Within.step' (State.raiseFloors_within _)
    | with_reducible apply Within.step' (State.modRot_within _ _)
    | with_reducible apply Within.step' (State.runItlum_within _ _)
    | with_reducible apply Within.step' (State.modItl_within _ _)
    | with_reducible apply Within.step' (State.modFwBank_within _ _ _)
    | with_reducible refine Within.ite ?_ ?_
    | with_reducible refine Within.ite_snd ?_ ?_
    | with_reducible intro _
    | extract_lets
    | split
    | dsimp only

theorem State.powerUp_within (s : State) (a2) :
    Within [.out, .mem, .fresh, .lowHeld, .highLatch, .tiles, .cycles, .mesh, .lp, .xlt, .brd, .lnk, .fab, .hst, .que, .itl, .sched, .cad, .pwr, .rcv, .rot, .cry, .evt, .flog, .boot] s (State.powerUp s a2) := by
  unfold State.powerUp
  repeat' first
    | with_reducible assumption
    | with_reducible exact Within.refl _ _
    | decide
    | with_reducible apply Within.step' (State.bootHalves_within _)
    | with_reducible apply Within.step' (State.bootHost_within _)
    | with_reducible apply Within.step' (State.bootItlum_within _ _ _ _ _)
    | with_reducible apply Within.step' (State.loaderState_within _)
    | with_reducible apply Within.step' (State.modItl_within _ _)
    | with_reducible apply Within.step' (State.rtpBoot_within _)
    | with_reducible apply Within.step' (State.modBoot_within _ _)
    | with_reducible apply Within.step' (State.dark_within _)
    | with_reducible intro _
    | extract_lets
    | split
    | dsimp only

theorem State.modTest_within (s : State) (a2) (a3) :
    Within [.boot] s (State.modTest s a2 a3) := by
  unfold State.modTest
  repeat' first
    | with_reducible assumption
    | with_reducible exact Within.refl _ _
    | decide
    | with_reducible apply Within.step' (State.modBoot_within _ _)
    | with_reducible intro _
    | split
    | dsimp only

theorem State.moveSkip_within (s : State) (a2) (a3) :
    Within [.out, .tiles, .hst, .evt, .flog] s (State.moveSkip s a2 a3) := by
  unfold State.moveSkip
  repeat' first
    | with_reducible assumption
    | with_reducible exact Within.refl _ _
    | decide
    | with_reducible apply State.each_within
    | with_reducible apply Within.step' (State.tileSignal_within _ _)
    | with_reducible apply Within.step' (State.rowNbr_within _ _ _)
    | with_reducible apply Within.step' (State.modTile_within _ _ _)
    | with_reducible apply Within.step' (State.rolesAfter_within _ _)
    | with_reducible intro _
    | extract_lets
    | split
    | dsimp only

theorem State.testFail_within (s : State) (a2) :
    Within [.out, .mem, .tiles, .mesh, .lp, .xlt, .brd, .fab, .hst, .que, .itl, .rcv, .cry, .evt, .flog] s (State.testFail s a2) := by
  unfold State.testFail
  repeat' first
    | with_reducible assumption
    | with_reducible exact Within.refl _ _
    | decide
    | with_reducible apply Within.step' (State.moveSkip_within _ _ _)
    | with_reducible apply Within.step' (State.rowNbr_within _ _ _)
    | with_reducible apply Within.step' (State.makeHole_within _ _)
    | with_reducible apply Within.step' (State.isolate_within _ _ _)
    | with_reducible apply Within.step' (State.leaveRow_within _ _ _)
    | with_reducible apply Within.step' (State.modTile_within _ _ _)
    | with_reducible refine Within.ite ?_ ?_
    | with_reducible intro _
    | extract_lets
    | split
    | dsimp only

theorem State.ungateHalf_within (s : State) (a2) :
    Within [.tiles] s (State.ungateHalf s a2) := by
  unfold State.ungateHalf
  repeat' first
    | with_reducible assumption
    | with_reducible exact Within.refl _ _
    | decide
    | with_reducible apply State.each_within
    | with_reducible apply Within.step' (State.modTile_within _ _ _)
    | with_reducible intro _
    | split
    | dsimp only

/-! ### Firmware -/

theorem State.fwStart_within (s : State) (a2) :
    Within [.out, .hst, .itl] s (State.fwStart s a2) := by
  unfold State.fwStart
  repeat' first
    | with_reducible assumption
    | with_reducible exact Within.refl _ _
    | decide
    | with_reducible apply Within.step' (State.modItl_within _ _)
    | with_reducible apply Within.step' (State.accepted_within _ _ _)
    | with_reducible intro _
    | extract_lets
    | split
    | dsimp only

theorem State.loaderActivate_within (s : State) (a2) :
    Within [.out, .mem, .fresh, .lowHeld, .highLatch, .tiles, .cycles, .mesh, .lp, .xlt, .brd, .lnk, .fab, .hst, .que, .itl, .sched, .cad, .pwr, .rcv, .rot, .cry, .evt, .flog, .boot] s (State.loaderActivate s a2) := by
  unfold State.loaderActivate
  repeat' first
    | with_reducible assumption
    | with_reducible exact Within.refl _ _
    | decide
    | with_reducible apply Within.step' (State.powerUp_within _ _)
    | with_reducible apply Within.step' (State.writeSettings_within _)
    | with_reducible apply Within.step' (State.bootSettings_within _)
    | with_reducible apply Within.step' (State.modItl_within _ _)
    | with_reducible apply Within.step' (State.accepted_within _ _ _)
    | with_reducible intro _
    | extract_lets
    | split
    | dsimp only

theorem State.fwServe_within (s : State) (a2) (a3) :
    Within [.out, .hst, .itl, .rot, .evt, .flog] s (State.fwServe s a2 a3) := by
  unfold State.fwServe
  repeat' first
    | with_reducible assumption
    | with_reducible exact Within.refl _ _
    | decide
    | with_reducible apply Within.step' (State.dropService_within _ _)
    | with_reducible apply Within.step' (State.modItl_within _ _)
    | with_reducible apply Within.step' (State.runItlum_within _ _)
    | with_reducible intro _
    | extract_lets
    | split
    | dsimp only

theorem State.fwConfirm_within (s : State) :
    Within [.out, .hst, .itl, .rot, .evt, .flog, .boot] s (State.fwConfirm s) := by
  unfold State.fwConfirm
  repeat' first
    | with_reducible assumption
    | with_reducible exact Within.refl _ _
    | decide
    | with_reducible apply Within.step' (State.fwRecord_within _ _ _)
    | with_reducible apply Within.step' (State.storeSettings_within _)
    | with_reducible apply Within.step' (State.modItl_within _ _)
    | with_reducible intro _
    | extract_lets
    | split
    | dsimp only

/-! ### Events -/

theorem State.claimSrc_within (s : State) (a2) :
    Within [.out, .hst, .evt] s (State.claimSrc s a2) := by
  unfold State.claimSrc
  repeat' first
    | with_reducible assumption
    | with_reducible exact Within.refl _ _
    | decide
    | with_reducible apply Within.step' (State.emit_within _ _)
    | with_reducible apply Within.step' (State.deliver_within _ _)
    | with_reducible apply Within.step' (State.modGrp_within _ _ _)
    | with_reducible apply Within.step' (State.modSrc_within _ _ _)
    | with_reducible refine Within.ite ?_ ?_
    | with_reducible refine Within.ite_snd ?_ ?_
    | with_reducible intro _
    | extract_lets
    | split
    | dsimp only

theorem State.coreClaim_within (s : State) (a2) :
    Within [.out, .hst, .evt] s (State.coreClaim s a2) := by
  unfold State.coreClaim
  repeat' first
    | with_reducible assumption
    | with_reducible exact Within.refl _ _
    | decide
    | with_reducible apply Within.step' (State.claimSrc_within _ _)
    | with_reducible apply Within.step' (State.modEvt_within _ _)
    | with_reducible intro _
    | split
    | dsimp only

theorem State.doneSrc_within (s : State) (a2) (a3) :
    Within [.out, .hst, .evt, .flog] s (State.doneSrc s a2 a3) := by
  unfold State.doneSrc
  repeat' first
    | with_reducible assumption
    | with_reducible exact Within.refl _ _
    | decide
    | with_reducible apply State.when_within
    | with_reducible apply Within.step' (State.modEvt_within _ _)
    | with_reducible apply Within.step' (State.endService_within _ _)
    | with_reducible refine Within.ite ?_ ?_
    | with_reducible intro _
    | extract_lets
    | split
    | dsimp only

theorem State.srcWrite_within (s : State) (a2) (a3) :
    Within [.out, .hst, .evt, .flog] s (State.srcWrite s a2 a3) := by
  unfold State.srcWrite
  repeat' first
    | with_reducible assumption
    | with_reducible exact Within.refl _ _
    | decide
    | with_reducible apply State.pendSet_within
    | with_reducible apply State.when_within
    | with_reducible apply Within.step' (State.log_within _ _ _ _ _)
    | with_reducible apply Within.step' (State.modSrc_within _ _ _)
    | with_reducible apply Within.step' (State.modEvt_within _ _)
    | with_reducible refine Within.ite ?_ ?_
    | with_reducible intro _
    | extract_lets
    | split
    | dsimp only

theorem State.hcfgWrite_within (s : State) (a2) (a3) :
    Within [.out, .hst, .evt, .flog] s (State.hcfgWrite s a2 a3) := by
  unfold State.hcfgWrite
  repeat' first
    | with_reducible assumption
    | with_reducible exact Within.refl _ _
    | decide
    | with_reducible apply State.each_within
    | with_reducible apply State.when_within
    | with_reducible apply Within.step' (State.dropService_within _ _)
    | with_reducible apply Within.step' (State.deliver_within _ _)
    | with_reducible apply Within.step' (State.modFunc_within _ _ _ _)
    | with_reducible apply Within.step' (State.modEvt_within _ _)
    | with_reducible refine Within.ite ?_ ?_
    | with_reducible intro _
    | extract_lets
    | split
    | dsimp only

theorem State.modSector_within (s : State) (a2) (a3) :
    Within [.flog] s (State.modSector s a2 a3) := by
  unfold State.modSector
  repeat' first
    | with_reducible assumption
    | with_reducible exact Within.refl _ _
    | decide
    | with_reducible apply Within.step' (State.modFlog_within _ _)
    | with_reducible intro _
    | split
    | dsimp only

/-! ### Boundary -/

theorem State.compBoundary_within (s : State) :
    Within [.tiles, .lp, .xlt, .brd] s (State.compBoundary s) := by
  unfold State.compBoundary
  repeat' first
    | with_reducible assumption
    | with_reducible exact Within.refl _ _
    | decide
    | with_reducible apply Within.step' (State.modBrd_within _ _)
    | with_reducible apply Within.step' (State.modLp_within _ _)
    | with_reducible apply Within.step' (State.modXlt_within _ _)
    | with_reducible intro _
    | extract_lets
    | split
    | dsimp only
    | with_reducible apply Within.step' (State.tiles_set_within _ _)

theorem State.staggerPlan_within (s : State) :
    Within [.pwr] s (State.staggerPlan s) := by
  unfold State.staggerPlan
  repeat' first
    | with_reducible assumption
    | with_reducible exact Within.refl _ _
    | decide
    | with_reducible apply Within.step' (State.modPwr_within _ _)
    | with_reducible refine Within.ite ?_ ?_
    | with_reducible refine Within.ite_snd ?_ ?_
    | with_reducible intro _
    | extract_lets
    | split
    | dsimp only

theorem State.fabBoundary_within (s : State) (a2) :
    Within [.out, .mem, .tiles, .mesh, .lp, .brd, .fab, .hst, .que, .itl, .pwr, .cry, .evt, .flog] s (State.fabBoundary s a2) := by
  unfold State.fabBoundary
  repeat' first
    | with_reducible assumption
    | with_reducible exact Within.refl _ _
    | decide
    | with_reducible apply State.when_within
    | with_reducible apply Within.step' (State.collsCommitted_within _ _ _)
    | with_reducible apply Within.step' (State.staggerPlan_within _)
    | with_reducible apply Within.step' (State.modFab_within _ _)
    | with_reducible refine Within.ite ?_ ?_
    | with_reducible refine Within.ite_snd ?_ ?_
    | with_reducible intro _
    | extract_lets
    | split
    | dsimp only

theorem State.lnkBoundary_within (s : State) :
    Within [.out, .lnk, .fab, .hst, .rot, .evt, .flog] s (State.lnkBoundary s) := by
  unfold State.lnkBoundary
  repeat' first
    | with_reducible assumption
    | with_reducible exact Within.refl _ _
    | decide
    | with_reducible apply State.each_within
    | with_reducible apply Within.step' (State.admitPeer_within _ _)
    | with_reducible apply Within.step' (State.modPort_within _ _ _)
    | with_reducible intro _
    | extract_lets
    | split
    | dsimp only

theorem State.setCad_within (s : State) (a2) :
    Within [.out, .hst, .cad, .evt, .flog] s (State.setCad s a2) := by
  unfold State.setCad
  repeat' first
    | with_reducible assumption
    | with_reducible exact Within.refl _ _
    | decide
    | with_reducible apply Within.step' (State.pulse_within _ _)
    | with_reducible apply Within.step' (State.modCad_within _ _)
    | with_reducible refine Within.ite ?_ ?_
    | with_reducible refine Within.ite_snd ?_ ?_
    | with_reducible intro _
    | extract_lets
    | split
    | dsimp only

theorem State.cadBoundary_within (s : State) :
    Within [.out, .hst, .cad, .rot, .evt, .flog, .boot] s (State.cadBoundary s) := by
  unfold State.cadBoundary
  repeat' first
    | with_reducible assumption
    | with_reducible exact Within.refl _ _
    | decide
    | with_reducible apply Within.step' (State.storeSettings_within _)
    | with_reducible apply Within.step' (State.modCad_within _ _)
    | with_reducible apply Within.step' (State.setCad_within _ _)
    | with_reducible refine Within.ite ?_ ?_
    | with_reducible refine Within.ite_snd ?_ ?_
    | with_reducible intro _
    | extract_lets
    | split
    | dsimp only

theorem State.pwrBoundary_within (s : State) :
    Within [.tiles, .pwr, .rot, .boot] s (State.pwrBoundary s) := by
  unfold State.pwrBoundary
  repeat' first
    | with_reducible assumption
    | with_reducible exact Within.refl _ _
    | decide
    | with_reducible apply Within.step' (State.storeSettings_within _)
    | with_reducible apply Within.step' (State.powerCommitted_within _ _)
    | with_reducible apply Within.step' (State.modPwr_within _ _)
    | with_reducible refine Within.ite ?_ ?_
    | with_reducible refine Within.ite_snd ?_ ?_
    | with_reducible intro _
    | extract_lets
    | split
    | dsimp only

theorem State.blocksBoundary_within (s : State) (a2) :
    Within [.out, .mem, .tiles, .mesh, .lp, .xlt, .brd, .lnk, .fab, .hst, .que, .itl, .sched, .cad, .pwr, .rot, .cry, .evt, .flog, .boot] s (State.blocksBoundary s a2) := by
  unfold State.blocksBoundary
  repeat' first
    | with_reducible assumption
    | with_reducible exact Within.refl _ _
    | decide
    | with_reducible apply Within.step' (State.pwrBoundary_within _)
    | with_reducible apply Within.step' (State.cadBoundary_within _)
    | with_reducible apply Within.step' (State.lnkBoundary_within _)
    | with_reducible apply Within.step' (State.modSched_within _ _)
    | with_reducible apply Within.step' (State.modQue_within _ _)
    | with_reducible apply Within.step' (State.fabBoundary_within _ _)
    | with_reducible apply Within.step' (State.compBoundary_within _)
    | with_reducible intro _
    | extract_lets
    | split
    | dsimp only

theorem State.goTile_within (s : State) (a2) :
    Within [.tiles] s (State.goTile s a2) := by
  unfold State.goTile
  repeat' first
    | with_reducible assumption
    | with_reducible exact Within.refl _ _
    | decide
    | with_reducible apply Within.step' (State.srmGo_within _ _)
    | with_reducible apply Within.step' (State.modSrm_within _ _ _)
    | with_reducible refine Within.ite ?_ ?_
    | with_reducible refine Within.ite_snd ?_ ?_
    | with_reducible intro _
    | split
    | dsimp only

theorem State.goPort_within (s : State) (a2) :
    Within [.lnk] s (State.goPort s a2) := by
  unfold State.goPort
  repeat' first
    | with_reducible assumption
    | with_reducible exact Within.refl _ _
    | decide
    | with_reducible apply Within.step' (State.lnkGo_within _ _)
    | with_reducible apply Within.step' (State.modPort_within _ _ _)
    | with_reducible refine Within.ite ?_ ?_
    | with_reducible refine Within.ite_snd ?_ ?_
    | with_reducible intro _
    | split
    | dsimp only

theorem State.goMem_within (s : State) :
    Within [.lp] s (State.goMem s) := by
  unfold State.goMem
  repeat' first
    | with_reducible assumption
    | with_reducible exact Within.refl _ _
    | decide
    | with_reducible apply Within.step' (State.memGo_within _)
    | with_reducible apply Within.step' (State.modLp_within _ _)
    | with_reducible refine Within.ite ?_ ?_
    | with_reducible refine Within.ite_snd ?_ ?_
    | with_reducible intro _
    | split
    | dsimp only

theorem State.goXlt_within (s : State) :
    Within [.xlt] s (State.goXlt s) := by
  unfold State.goXlt
  repeat' first
    | with_reducible assumption
    | with_reducible exact Within.refl _ _
    | decide
    | with_reducible apply Within.step' (State.xltGo_within _)
    | with_reducible apply Within.step' (State.modXlt_within _ _)
    | with_reducible refine Within.ite ?_ ?_
    | with_reducible refine Within.ite_snd ?_ ?_
    | with_reducible intro _
    | split
    | dsimp only

theorem State.goFab_within (s : State) :
    Within [.fab] s (State.goFab s) := by
  unfold State.goFab
  repeat' first
    | with_reducible assumption
    | with_reducible exact Within.refl _ _
    | decide
    | with_reducible apply Within.step' (State.fabGo_within _)
    | with_reducible apply Within.step' (State.modFab_within _ _)
    | with_reducible refine Within.ite ?_ ?_
    | with_reducible refine Within.ite_snd ?_ ?_
    | with_reducible intro _
    | split
    | dsimp only

theorem State.goQue_within (s : State) :
    Within [.que] s (State.goQue s) := by
  unfold State.goQue
  repeat' first
    | with_reducible assumption
    | with_reducible exact Within.refl _ _
    | decide
    | with_reducible apply Within.step' (State.queGo_within _)
    | with_reducible apply Within.step' (State.modQue_within _ _)
    | with_reducible refine Within.ite ?_ ?_
    | with_reducible refine Within.ite_snd ?_ ?_
    | with_reducible intro _
    | split
    | dsimp only

theorem State.goSeq_within (s : State) :
    Within [.sched] s (State.goSeq s) := by
  unfold State.goSeq
  repeat' first
    | with_reducible assumption
    | with_reducible exact Within.refl _ _
    | decide
    | with_reducible apply Within.step' (State.seqGo_within _)
    | with_reducible apply Within.step' (State.modSched_within _ _)
    | with_reducible refine Within.ite ?_ ?_
    | with_reducible refine Within.ite_snd ?_ ?_
    | with_reducible intro _
    | split
    | dsimp only

theorem State.goCad_within (s : State) :
    Within [.cad] s (State.goCad s) := by
  unfold State.goCad
  repeat' first
    | with_reducible assumption
    | with_reducible exact Within.refl _ _
    | decide
    | with_reducible apply Within.step' (State.cadGo_within _)
    | with_reducible apply Within.step' (State.modCad_within _ _)
    | with_reducible refine Within.ite ?_ ?_
    | with_reducible refine Within.ite_snd ?_ ?_
    | with_reducible intro _
    | split
    | dsimp only

theorem State.goPwr_within (s : State) :
    Within [.pwr] s (State.goPwr s) := by
  unfold State.goPwr
  repeat' first
    | with_reducible assumption
    | with_reducible exact Within.refl _ _
    | decide
    | with_reducible apply Within.step' (State.pwrGo_within _)
    | with_reducible apply Within.step' (State.modPwr_within _ _)
    | with_reducible refine Within.ite ?_ ?_
    | with_reducible refine Within.ite_snd ?_ ?_
    | with_reducible intro _
    | split
    | dsimp only

theorem State.goBrd_within (s : State) :
    Within [.tiles, .lp, .xlt, .brd, .fab] s (State.goBrd s) := by
  unfold State.goBrd
  repeat' first
    | with_reducible assumption
    | with_reducible exact Within.refl _ _
    | decide
    | with_reducible apply Within.step' (State.brdGo_within _)
    | with_reducible apply Within.step' (State.modBrd_within _ _)
    | with_reducible refine Within.ite ?_ ?_
    | with_reducible refine Within.ite_snd ?_ ?_
    | with_reducible intro _
    | split
    | dsimp only

theorem State.laterGos_within (s : State) :
    Within [.tiles, .lp, .xlt, .brd, .lnk, .fab, .que, .sched, .cad, .pwr] s (State.laterGos s) := by
  unfold State.laterGos
  repeat' first
    | with_reducible assumption
    | with_reducible exact Within.refl _ _
    | decide
    | with_reducible apply State.each_within
    | with_reducible apply Within.step' (State.goBrd_within _)
    | with_reducible apply Within.step' (State.goPwr_within _)
    | with_reducible apply Within.step' (State.goCad_within _)
    | with_reducible apply Within.step' (State.goSeq_within _)
    | with_reducible apply Within.step' (State.goQue_within _)
    | with_reducible apply Within.step' (State.goFab_within _)
    | with_reducible apply Within.step' (State.goXlt_within _)
    | with_reducible apply Within.step' (State.goMem_within _)
    | with_reducible apply Within.step' (State.goPort_within _ _)
    | with_reducible apply Within.step' (State.goTile_within _ _)
    | with_reducible intro _
    | extract_lets
    | split
    | dsimp only

theorem State.heldAnswer_within (s : State) (a2) :
    Within [.out, .hst, .itl] s (State.heldAnswer s a2) := by
  unfold State.heldAnswer
  repeat' first
    | with_reducible assumption
    | with_reducible exact Within.refl _ _
    | decide
    | with_reducible apply Within.step' (State.answer_within _ _ _)
    | split
    | dsimp only

theorem State.switched_within (s : State) (a2) (a3) (a4) (a5) :
    Within [.out, .tiles, .mesh, .lp, .xlt, .brd, .fab, .hst, .itl, .evt, .flog] s (State.switched s a2 a3 a4 a5) := by
  unfold State.switched
  repeat' first
    | with_reducible assumption
    | with_reducible exact Within.refl _ _
    | decide
    | with_reducible apply State.each_within
    | with_reducible apply Within.step' (State.moveClears_within _ _)
    | with_reducible apply Within.step' (State.modPair_within _ _ _)
    | with_reducible apply Within.step' (State.regaugeHalf_within _ _)
    | with_reducible apply Within.step' (State.itlumChange_within _ _ _ _ _)
    | with_reducible intro _
    | extract_lets
    | split
    | dsimp only

theorem State.rebuiltSwitch_within (s : State) (a2) (a3) (a4) :
    Within [.out, .tiles, .mesh, .lp, .xlt, .brd, .fab, .hst, .que, .itl, .evt, .flog] s (State.rebuiltSwitch s a2 a3 a4) := by
  unfold State.rebuiltSwitch
  repeat' first
    | with_reducible assumption
    | with_reducible exact Within.refl _ _
    | decide
    | with_reducible apply State.each_within
    | with_reducible apply Within.step' (State.regaugeHalf_within _ _)
    | with_reducible apply Within.step' (State.spareUp_within _ _)
    | with_reducible apply Within.step' (State.modPair_within _ _ _)
    | with_reducible apply Within.step' (State.setPairSt_within _ _ _)
    | with_reducible apply Within.step' (State.itlumChange_within _ _ _ _ _)
    | with_reducible intro _
    | extract_lets
    | split
    | dsimp only

theorem State.heldBoundary_within (s : State) (a2) :
    Within [.out, .mem, .tiles, .mesh, .lp, .xlt, .brd, .lnk, .fab, .hst, .que, .itl, .sched, .cad, .pwr, .rcv, .rot, .cry, .evt, .flog, .boot] s (State.heldBoundary s a2) := by
  unfold State.heldBoundary
  repeat' first
    | with_reducible assumption
    | with_reducible exact Within.refl _ _
    | decide
    | with_reducible apply Within.step' (State.heldAnswer_within _ _)
    | with_reducible apply Within.step' (State.finishShift_within _ _)
    | with_reducible apply Within.step' (State.rebuiltSwitch_within _ _ _ _)
    | with_reducible apply Within.step' (State.switched_within _ _ _ _ _)
    | with_reducible apply Within.step' (State.respond_within _ _ _ _ _ _)
    | with_reducible apply Within.step' (State.winCommitted_within _ _ _ _)
    | with_reducible apply Within.step' (State.modFq_within _ _ _)
    | with_reducible apply Within.step' (State.loadCommitted_within _ _ _ _ _)
    | with_reducible apply Within.step' (State.blocksBoundary_within _ _)
    | with_reducible apply Within.step' (State.endQueue_within _ _ _)
    | with_reducible apply Within.step' (State.registered_within _ _)
    | with_reducible apply Within.step' (State.replaceQueue_within _ _)
    | with_reducible apply Within.step' (State.imageCommitted_within _ _ _ _ _ _ _ _)
    | with_reducible intro _
    | extract_lets
    | split
    | dsimp only

theorem State.openShifts_within (s : State) :
    Within [.out, .tiles, .mesh, .xlt, .brd, .hst, .itl, .rcv, .evt, .flog] s (State.openShifts s) := by
  unfold State.openShifts
  repeat' first
    | with_reducible assumption
    | with_reducible exact Within.refl _ _
    | decide
    | with_reducible apply State.each_within
    | with_reducible apply Within.step' (State.openShift_within _ _)
    | with_reducible apply Within.step' (State.modRcv_within _ _)
    | with_reducible refine Within.ite ?_ ?_
    | with_reducible intro _
    | extract_lets
    | split
    | dsimp only

theorem State.commitShifts_within (s : State) :
    Within [.tiles, .itl] s (State.commitShifts s) := by
  unfold State.commitShifts
  repeat' first
    | with_reducible assumption
    | with_reducible exact Within.refl _ _
    | decide
    | with_reducible apply State.each_within
    | with_reducible apply Within.step' (State.commitShift_within _ _)
    | with_reducible intro _
    | split
    | dsimp only

/-! ### Cadence -/

theorem State.countCycles_within (s : State) (a2) :
    Within [.tiles, .cycles] s (State.countCycles s a2) := by
  unfold State.countCycles
  repeat' first
    | with_reducible assumption
    | with_reducible exact Within.refl _ _
    | decide
    | with_reducible apply State.each_within
    | with_reducible apply State.when_within
    | with_reducible apply Within.step' (State.modTile_within _ _ _)
    | with_reducible intro _
    | extract_lets
    | split
    | dsimp only
    | with_reducible apply Within.step' (State.cycles_set_within _ _)

theorem State.metering_within (s : State) :
    Within [.brd] s (State.metering s) := by
  unfold State.metering
  repeat' first
    | with_reducible assumption
    | with_reducible exact Within.refl _ _
    | decide
    | with_reducible apply State.each_within
    | with_reducible apply Within.step' (State.modMeter_within _ _ _)
    | with_reducible refine Within.ite ?_ ?_
    | with_reducible refine Within.ite_snd ?_ ?_
    | with_reducible intro _
    | extract_lets
    | split
    | dsimp only

theorem State.countUnavailable_within (s : State) :
    Within [.rcv] s (State.countUnavailable s) := by
  unfold State.countUnavailable
  repeat' first
    | with_reducible assumption
    | with_reducible exact Within.refl _ _
    | decide
    | with_reducible apply State.each_within
    | with_reducible apply Within.step' (State.modRcv_within _ _)
    | with_reducible intro _
    | split
    | dsimp only

theorem State.ballastTicks_within (s : State) (a2) :
    Within [.tiles, .brd, .pwr] s (State.ballastTicks s a2) := by
  unfold State.ballastTicks
  repeat' first
    | with_reducible assumption
    | with_reducible exact Within.refl _ _
    | decide
    | with_reducible apply State.each_within
    | with_reducible apply Within.step' (State.ballastTick_within _ _ _)
    | with_reducible intro _
    | extract_lets
    | split
    | dsimp only
    | with_reducible apply Within.step' (State.tiles_set_within _ _)

theorem State.tenantSnapshot_within (s : State) :
    Within [.itl] s (State.tenantSnapshot s) := by
  unfold State.tenantSnapshot
  repeat' first
    | with_reducible assumption
    | with_reducible exact Within.refl _ _
    | decide
    | with_reducible apply Within.step' (State.modItl_within _ _)
    | with_reducible refine Within.foldl_snd ?_ ?_
    | with_reducible refine Within.ite ?_ ?_
    | with_reducible refine Within.ite_snd ?_ ?_
    | with_reducible intro _
    | extract_lets
    | split
    | dsimp only

theorem State.countTime_within (s : State) :
    Within [.itl, .cad, .flog, .boot] s (State.countTime s) := by
  unfold State.countTime
  repeat' first
    | with_reducible assumption
    | with_reducible exact Within.refl _ _
    | decide
    | with_reducible apply State.when_within
    | with_reducible apply Within.step' (State.tenantSnapshot_within _)
    | with_reducible apply Within.step' (State.modCad_within _ _)
    | with_reducible apply Within.step' (State.modFlog_within _ _)
    | with_reducible apply Within.step' (State.modBoot_within _ _)
    | with_reducible intro _
    | extract_lets
    | split
    | dsimp only

theorem State.tickElapsed_within (s : State) (a2) :
    Within [.tiles, .cycles, .brd, .que, .itl, .cad, .pwr, .rcv, .flog, .boot] s (State.tickElapsed s a2) := by
  unfold State.tickElapsed
  repeat' first
    | with_reducible assumption
    | with_reducible exact Within.refl _ _
    | decide
    | with_reducible apply Within.step' (State.countTime_within _)
    | with_reducible apply Within.step' (State.modPwr_within _ _)
    | with_reducible apply Within.step' (State.countUnavailable_within _)
    | with_reducible apply Within.step' (State.ballastTicks_within _ _)
    | with_reducible apply Within.step' (State.metering_within _)
    | with_reducible apply Within.step' (State.countCycles_within _ _)
    | with_reducible apply Within.step' (State.countTick_within _)
    | with_reducible refine Within.ite ?_ ?_
    | with_reducible intro _
    | extract_lets
    | split
    | dsimp only

theorem State.strobe_within (s : State) :
    Within [.out, .mem, .tiles, .mesh, .lp, .xlt, .brd, .fab, .hst, .que, .itl, .sched, .pwr, .rcv, .cry, .evt, .flog] s (State.strobe s) := by
  unfold State.strobe
  repeat' first
    | with_reducible assumption
    | with_reducible exact Within.refl _ _
    | decide
    | with_reducible apply Within.step' (State.reelRewrite_within _)
    | with_reducible apply Within.step' (State.serveAll_within _)
    | with_reducible apply Within.step' (State.chooseAll_within _)
    | with_reducible apply Within.step' (State.applyPower_within _)
    | split
    | dsimp only

theorem State.nextPeriod_within (s : State) :
    Within [.fresh, .cad] s (State.nextPeriod s) := by
  unfold State.nextPeriod
  repeat' first
    | with_reducible assumption
    | with_reducible exact Within.refl _ _
    | decide
    | with_reducible apply Within.step' (State.freeWord_within _)
    | with_reducible refine Within.step' (Within.of_snd (State.freeWord_within _) (by assumption)) ?_ ?_
    | with_reducible apply Within.step' (State.modCad_within _ _)
    | with_reducible intro _
    | extract_lets
    | split
    | dsimp only

theorem State.nextEpoch_within (s : State) :
    Within [.out, .hst, .cad, .evt, .flog] s (State.nextEpoch s) := by
  unfold State.nextEpoch
  repeat' first
    | with_reducible assumption
    | with_reducible exact Within.refl _ _
    | decide
    | with_reducible apply Within.step' (State.setCad_within _ _)
    | with_reducible apply Within.step' (State.modCad_within _ _)
    | with_reducible apply Within.step' (State.pulse_within _ _)
    | with_reducible intro _
    | extract_lets
    | split
    | dsimp only

theorem State.periodElapsed_within (s : State) :
    Within [.out, .mem, .tiles, .lp, .brd, .lnk, .fab, .hst, .que, .itl, .sched, .pwr, .rcv, .rot, .cry, .evt, .flog, .boot] s (State.periodElapsed s) := by
  unfold State.periodElapsed
  repeat' first
    | with_reducible assumption
    | with_reducible exact Within.refl _ _
    | decide
    | with_reducible apply State.when_within
    | with_reducible apply State.each_within
    | with_reducible apply Within.step' (State.settingsPeriod_within _)
    | with_reducible apply Within.step' (State.modRot_within _ _)
    | with_reducible apply Within.step' (State.modItl_within _ _)
    | with_reducible apply Within.step' (State.modHst_within _ _)
    | with_reducible apply Within.step' (State.linkPeriod_within _ _)
    | with_reducible apply Within.step' (State.modLp_within _ _)
    | with_reducible apply Within.step' (State.modRcv_within _ _)
    | with_reducible apply Within.step' (State.memoryPeriod_within _)
    | with_reducible apply Within.step' (State.voltPeriod_within _)
    | with_reducible apply Within.step' (State.rssSample_within _)
    | with_reducible apply Within.step' (State.reckonPeriod_within _)
    | with_reducible intro _
    | extract_lets
    | split
    | dsimp only

theorem State.snap_within (s : State) :
    Within [.cad] s (State.snap s) := by
  unfold State.snap
  repeat' first
    | with_reducible assumption
    | with_reducible exact Within.refl _ _
    | decide
    | with_reducible apply Within.step' (State.modCad_within _ _)
    | with_reducible intro _
    | split
    | dsimp only

theorem State.afterMarker_within (s : State) (a2) :
    Within [.out, .hst, .cad, .evt, .flog] s (State.afterMarker s a2) := by
  unfold State.afterMarker
  repeat' first
    | with_reducible assumption
    | with_reducible exact Within.refl _ _
    | decide
    | with_reducible apply Within.step' (State.setCad_within _ _)
    | with_reducible apply Within.step' (State.modCad_within _ _)
    | with_reducible refine Within.ite ?_ ?_
    | with_reducible refine Within.ite_snd ?_ ?_
    | with_reducible intro _
    | extract_lets
    | split
    | dsimp only

theorem State.acceptMarker_within (s : State) (a2) :
    Within [.out, .hst, .cad, .evt, .flog] s (State.acceptMarker s a2) := by
  unfold State.acceptMarker
  repeat' first
    | with_reducible assumption
    | with_reducible exact Within.refl _ _
    | decide
    | with_reducible apply Within.step' (State.afterMarker_within _ _)
    | with_reducible apply Within.step' (State.snap_within _)
    | with_reducible apply Within.step' (State.setCad_within _ _)
    | with_reducible apply Within.step' (State.modCad_within _ _)
    | with_reducible refine Within.ite ?_ ?_
    | with_reducible intro _
    | extract_lets
    | split
    | dsimp only

theorem State.compareEpoch_within (s : State) (a2) :
    Within [.out, .hst, .cad, .evt, .flog] s (State.compareEpoch s a2) := by
  unfold State.compareEpoch
  repeat' first
    | with_reducible assumption
    | with_reducible exact Within.refl _ _
    | decide
    | with_reducible apply Within.step' (State.pulse_within _ _)
    | with_reducible apply Within.step' (State.setCad_within _ _)
    | with_reducible apply Within.step' (State.modCad_within _ _)
    | with_reducible refine Within.ite ?_ ?_
    | with_reducible intro _
    | extract_lets
    | split
    | dsimp only

/-! ### Register -/

theorem State.ballastWrite_within (s : State) (a2) (a3) :
    Within [.tiles] s (State.ballastWrite s a2 a3) := by
  unfold State.ballastWrite
  repeat' first
    | with_reducible assumption
    | with_reducible exact Within.refl _ _
    | decide
    | with_reducible apply Within.step' (State.modTile_within _ _ _)
    | with_reducible refine Within.ite ?_ ?_
    | with_reducible intro _
    | extract_lets
    | split
    | dsimp only

theorem State.setIgrp_within (s : State) (a2) (a3) :
    Within [.lp] s (State.setIgrp s a2 a3) := by
  unfold State.setIgrp
  repeat' first
    | with_reducible assumption
    | with_reducible exact Within.refl _ _
    | decide
    | with_reducible apply Within.step' (State.modLp_within _ _)
    | with_reducible intro _
    | split
    | dsimp only

theorem State.priCfg_within (s : State) (a2) :
    Within [.xlt] s (State.priCfg s a2) := by
  unfold State.priCfg
  repeat' first
    | with_reducible assumption
    | with_reducible exact Within.refl _ _
    | decide
    | with_reducible apply Within.step' (State.modXlt_within _ _)
    | with_reducible refine Within.ite ?_ ?_
    | with_reducible intro _
    | extract_lets
    | split
    | dsimp only

theorem State.moveCtrl_within (s : State) (a2) (a3) :
    Within [.brd] s (State.moveCtrl s a2 a3) := by
  unfold State.moveCtrl
  repeat' first
    | with_reducible assumption
    | with_reducible exact Within.refl _ _
    | decide
    | with_reducible apply Within.step' (State.moveRefused_within _)
    | with_reducible apply Holds.step' (State.moveStart_within _ _)
    | with_reducible refine Within.step' (Holds.get (State.moveStart_within _ _) (by assumption)) ?_ ?_
    | with_reducible apply Within.step' (State.modMove_within _ _ _)
    | with_reducible exact Holds.none
    | with_reducible refine Holds.some ?_
    | with_reducible refine Holds.map_state ?_ ?_
    | with_reducible refine Holds.map ?_
    | with_reducible refine Holds.bind ?_
    | with_reducible refine Within.getD ?_ ?_
    | with_reducible refine Within.ite ?_ ?_
    | with_reducible refine Within.ite_snd ?_ ?_
    | with_reducible intro _
    | extract_lets
    | split
    | dsimp only

theorem State.fabTimeoutWrite_within (s : State) (a2) :
    Within [.fab] s (State.fabTimeoutWrite s a2) := by
  unfold State.fabTimeoutWrite
  repeat' first
    | with_reducible assumption
    | with_reducible exact Within.refl _ _
    | decide
    | with_reducible apply Within.step' (State.modFab_within _ _)
    | with_reducible refine Within.ite ?_ ?_
    | with_reducible intro _
    | extract_lets
    | split
    | dsimp only

theorem State.fabPend_within (s : State) (a2) :
    Within [.fab] s (State.fabPend s a2) := by
  unfold State.fabPend
  repeat' first
    | with_reducible assumption
    | with_reducible exact Within.refl _ _
    | decide
    | with_reducible apply Within.step' (State.modFab_within _ _)
    | with_reducible intro _
    | split
    | dsimp only

theorem State.quePend_within (s : State) (a2) :
    Within [.que] s (State.quePend s a2) := by
  unfold State.quePend
  repeat' first
    | with_reducible assumption
    | with_reducible exact Within.refl _ _
    | decide
    | with_reducible apply Within.step' (State.modQue_within _ _)
    | with_reducible intro _
    | split
    | dsimp only

theorem State.reelCfg_within (s : State) (a2) :
    Within [.sched] s (State.reelCfg s a2) := by
  unfold State.reelCfg
  repeat' first
    | with_reducible assumption
    | with_reducible exact Within.refl _ _
    | decide
    | with_reducible apply Within.step' (State.modSched_within _ _)
    | with_reducible refine Within.ite ?_ ?_
    | with_reducible refine Within.ite_snd ?_ ?_
    | with_reducible intro _
    | split
    | dsimp only

theorem State.cadCfg_within (s : State) (a2) :
    Within [.cad] s (State.cadCfg s a2) := by
  unfold State.cadCfg
  repeat' first
    | with_reducible assumption
    | with_reducible exact Within.refl _ _
    | decide
    | with_reducible apply Within.step' (State.modCad_within _ _)
    | with_reducible refine Within.ite ?_ ?_
    | with_reducible refine Within.ite_snd ?_ ?_
    | with_reducible intro _
    | split
    | dsimp only

theorem State.pwrPend_within (s : State) (a2) :
    Within [.pwr] s (State.pwrPend s a2) := by
  unfold State.pwrPend
  repeat' first
    | with_reducible assumption
    | with_reducible exact Within.refl _ _
    | decide
    | with_reducible apply Within.step' (State.modPwr_within _ _)
    | with_reducible intro _
    | split
    | dsimp only

theorem State.grpWrite_within (s : State) (a2) (a3) :
    Within [.out, .hst, .evt] s (State.grpWrite s a2 a3) := by
  unfold State.grpWrite
  repeat' first
    | with_reducible assumption
    | with_reducible exact Within.refl _ _
    | decide
    | with_reducible apply Within.step' (State.deliver_within _ _)
    | with_reducible apply Within.step' (State.modGrp_within _ _ _)
    | with_reducible intro _
    | split
    | dsimp only

theorem State.portCtrl_within (s : State) (a2) (a3) :
    Within [.hst] s (State.portCtrl s a2 a3) := by
  unfold State.portCtrl
  repeat' first
    | with_reducible assumption
    | with_reducible exact Within.refl _ _
    | decide
    | with_reducible apply Within.step' (State.modHPort_within _ _ _)
    | with_reducible apply Within.step' (State.modFunc_within _ _ _ _)
    | with_reducible refine Within.ite ?_ ?_
    | with_reducible intro _
    | extract_lets
    | split
    | dsimp only

theorem State.hmaskWrite_within (s : State) (a2) (a3) :
    Within [.out, .hst, .evt] s (State.hmaskWrite s a2 a3) := by
  unfold State.hmaskWrite
  repeat' first
    | with_reducible assumption
    | with_reducible exact Within.refl _ _
    | decide
    | with_reducible apply State.each_within
    | with_reducible apply Within.step' (State.deliver_within _ _)
    | with_reducible apply Within.step' (State.modFunc_within _ _ _ _)
    | with_reducible intro _
    | split
    | dsimp only

theorem State.dlogBase_within (s : State) (a2) (a3) (a4) :
    Within [.hst] s (State.dlogBase s a2 a3 a4) := by
  unfold State.dlogBase
  repeat' first
    | with_reducible assumption
    | with_reducible exact Within.refl _ _
    | decide
    | with_reducible apply Within.step' (State.modFunc_within _ _ _ _)
    | with_reducible refine Within.ite ?_ ?_
    | with_reducible refine Within.ite_snd ?_ ?_
    | with_reducible intro _
    | split
    | dsimp only

theorem State.vecWrite_within (s : State) (a2) (a3) (a4) :
    Within [.hst] s (State.vecWrite s a2 a3 a4) := by
  unfold State.vecWrite
  repeat' first
    | with_reducible assumption
    | with_reducible exact Within.refl _ _
    | decide
    | with_reducible apply Within.step' (State.modFunc_within _ _ _ _)
    | with_reducible refine Within.ite ?_ ?_
    | with_reducible intro _
    | extract_lets
    | split
    | dsimp only

theorem State.mailAck_within (s : State) (a2) (a3) (a4) :
    Within [.hst] s (State.mailAck s a2 a3 a4) := by
  unfold State.mailAck
  repeat' first
    | with_reducible assumption
    | with_reducible exact Within.refl _ _
    | decide
    | with_reducible apply Within.step' (State.modFunc_within _ _ _ _)
    | with_reducible intro _
    | split
    | dsimp only

theorem State.mailCtrl_within (s : State) (a2) (a3) (a4) :
    Within [.out, .hst, .itl] s (State.mailCtrl s a2 a3 a4) := by
  unfold State.mailCtrl
  repeat' first
    | with_reducible assumption
    | with_reducible exact Within.refl _ _
    | decide
    | with_reducible apply State.when_within
    | with_reducible apply Within.step' (State.mailGo_within _ _ _)
    | with_reducible apply Within.step' (State.mailDiscard_within _ _ _)
    | with_reducible intro _
    | split
    | dsimp only

theorem State.mailReq_within (s : State) (a2) (a3) (a4) (a5) (a6) :
    Within [.hst] s (State.mailReq s a2 a3 a4 a5 a6) := by
  unfold State.mailReq
  repeat' first
    | with_reducible assumption
    | with_reducible exact Within.refl _ _
    | decide
    | with_reducible apply Within.step' (State.modFunc_within _ _ _ _)
    | with_reducible refine Within.foldl_snd ?_ ?_
    | with_reducible refine Within.ite ?_ ?_
    | with_reducible intro _
    | extract_lets
    | split
    | dsimp only

theorem State.reservedAt_within (s : State) (a2) (a3) :
    Within [.tiles, .lp, .xlt, .brd, .lnk, .fab, .hst, .que, .sched, .cad, .pwr, .rot, .cry, .evt, .flog] s (State.reservedAt s a2 a3) := by
  unfold State.reservedAt
  repeat' first
    | with_reducible assumption
    | with_reducible exact Within.refl _ _
    | decide
    | with_reducible apply Within.step' (State.modFlog_within _ _)
    | with_reducible apply Within.step' (State.modEvt_within _ _)
    | with_reducible apply Within.step' (State.modCry_within _ _)
    | with_reducible apply Within.step' (State.modRot_within _ _)
    | with_reducible apply Within.step' (State.modPwr_within _ _)
    | with_reducible apply Within.step' (State.modCad_within _ _)
    | with_reducible apply Within.step' (State.modSched_within _ _)
    | with_reducible apply Within.step' (State.modQue_within _ _)
    | with_reducible apply Within.step' (State.modPort_within _ _ _)
    | with_reducible apply Within.step' (State.modFab_within _ _)
    | with_reducible apply Within.step' (State.modBrd_within _ _)
    | with_reducible apply Within.step' (State.modXlt_within _ _)
    | with_reducible apply Within.step' (State.modLp_within _ _)
    | with_reducible apply Within.step' (State.modSrm_within _ _ _)
    | with_reducible apply Within.step' (State.modTile_within _ _ _)
    | with_reducible apply Within.step' (State.modFunc_within _ _ _ _)
    | with_reducible refine Within.ite ?_ ?_
    | with_reducible intro _
    | extract_lets
    | split
    | dsimp only

/-- The blocks that a register write may touch. -/
def regBlocks : List Block := [.out, .mem, .tiles, .mesh, .lp, .xlt, .brd, .lnk, .fab, .hst, .que, .itl, .sched, .cad, .pwr, .rcv, .cry, .evt, .flog]

/-- What a write of register `r` does stays within `regBlocks`. -/
structure RegIn (r : RegW) : Prop where
  write : ∀ v s, Within regBlocks s (r.write v s)
  after : ∀ s, Within regBlocks s (r.after s)
/-- So does what a register found in a map does. -/
structure RegAtIn (o : RegAt) : Prop where
  found : ∀ x, o = some x → RegIn x.2

theorem roW_in (l r) : RegIn (roW l r) := ⟨fun _ _ => Within.refl _ _, fun _ => Within.refl _ _⟩
theorem roD_in (l r) : RegIn (roD l r) := ⟨fun _ _ => Within.refl _ _, fun _ => Within.refl _ _⟩
theorem cntW_in (r) : RegIn (cntW r) := roW_in _ _
theorem cntD_in (r) : RegIn (cntD r) := roD_in _ _
theorem errW_in (r) : RegIn (errW r) := roW_in _ _
theorem rwW_in (l r) {f : Word → State → State} (h : ∀ v s, Within regBlocks s (f v s)) : RegIn (rwW l r f) :=
  ⟨fun _ s => h _ s, fun _ => Within.refl _ _⟩
theorem rwD_in (l c r) {f : DWord → State → State} (h : ∀ v s, Within regBlocks s (f v s)) : RegIn (rwD l c r f) :=
  ⟨fun _ s => h _ s, fun _ => Within.refl _ _⟩
theorem goW_in (c) {f : State → State} (h : ∀ s, Within regBlocks s (f s)) : RegIn (goW c f) :=
  rwW_in _ _ fun _ s => State.when_within _ _ (Within.refl _ _) fun t ht => ht.trans (h t)
theorem claimW_in (t) {f : State → State} (h : ∀ s, Within regBlocks s (f s)) : RegIn (claimW t f) :=
  ⟨fun _ _ => Within.refl _ _, h⟩
theorem RegAtIn.none : RegAtIn none := ⟨fun _ e => by cases e⟩
theorem regAt_in {off a : Nat} {r : RegW} (h : RegIn r) : RegAtIn (regAt off a r) := by
  unfold regAt
  split
  · exact ⟨fun x e => by cases e; exact h⟩
  · exact RegAtIn.none
theorem RegAtIn.ite {c : Prop} [Decidable c] {a b : RegAt} (h : RegAtIn a) (k : RegAtIn b) : RegAtIn (if c then a else b) := by
  split
  · exact h
  · exact k
theorem RegAtIn.map {o : RegAt} {f : Nat × RegW → Nat} (h : RegAtIn o) : RegAtIn (o.map fun r => (f r, r.2)) := by
  cases o with
  | none => exact RegAtIn.none
  | some x => exact ⟨fun y e => by cases e; exact h.found x rfl⟩
theorem regArr_in {off base stride n : Nat} {f : Nat → Nat → RegAt} (h : ∀ i o, RegAtIn (f i o)) :
    RegAtIn (regArr off base stride n f) := by
  unfold regArr
  split
  · exact (h _ _).map
  · exact RegAtIn.none
theorem regEach_in {off base stride n : Nat} {f : Nat → RegW} (h : ∀ i, RegIn (f i)) : RegAtIn (regEach off base stride n f) :=
  regArr_in fun i _ => regAt_in (h i)
theorem regFirst_nil_in : RegAtIn (regFirst []) := RegAtIn.none
theorem regFirst_cons_in {f : Unit → RegAt} {t : List (Unit → RegAt)} (h : RegAtIn (f ())) (k : RegAtIn (regFirst t)) :
    RegAtIn (regFirst (f :: t)) := by
  unfold regFirst
  split
  · rename_i r e
    exact e ▸ h
  · exact k

theorem bankRegs_in (a0) (a1) (a2) : RegAtIn (bankRegs a0 a1 a2) := by
  unfold bankRegs
  try dsimp only
  repeat' first
    | with_reducible assumption
    | with_reducible exact Within.refl _ _
    | decide
    | with_reducible exact roW_in _ _
    | with_reducible exact roD_in _ _
    | with_reducible exact cntW_in _
    | with_reducible exact cntD_in _
    | with_reducible exact errW_in _
    | with_reducible refine rwW_in _ _ ?_
    | with_reducible refine rwD_in _ _ _ ?_
    | with_reducible refine goW_in _ ?_
    | with_reducible refine claimW_in _ ?_
    | with_reducible exact RegAtIn.none
    | with_reducible refine regFirst_cons_in ?_ ?_
    | with_reducible exact regFirst_nil_in
    | with_reducible refine regAt_in ?_
    | with_reducible refine regEach_in ?_
    | with_reducible refine regArr_in ?_
    | with_reducible refine RegAtIn.map ?_
    | with_reducible refine RegAtIn.ite ?_ ?_
    | with_reducible apply Within.step' (State.bankCtrl_within _ _ _ _)
    | with_reducible refine Within.ite ?_ ?_
    | with_reducible intro _
    | dsimp only
    | split

theorem State.tilRegs_in (s) (a1) (a2) : RegAtIn (State.tilRegs s a1 a2) := by
  unfold State.tilRegs
  try dsimp only
  repeat' first
    | with_reducible assumption
    | with_reducible exact Within.refl _ _
    | decide
    | with_reducible exact roW_in _ _
    | with_reducible exact roD_in _ _
    | with_reducible exact cntW_in _
    | with_reducible exact cntD_in _
    | with_reducible exact errW_in _
    | with_reducible refine rwW_in _ _ ?_
    | with_reducible refine rwD_in _ _ _ ?_
    | with_reducible refine goW_in _ ?_
    | with_reducible refine claimW_in _ ?_
    | with_reducible exact RegAtIn.none
    | with_reducible refine regFirst_cons_in ?_ ?_
    | with_reducible exact regFirst_nil_in
    | with_reducible refine regAt_in ?_
    | with_reducible refine regEach_in ?_
    | with_reducible refine regArr_in ?_
    | with_reducible refine RegAtIn.map ?_
    | with_reducible refine RegAtIn.ite ?_ ?_
    | with_reducible exact bankRegs_in _ _ _
    | with_reducible apply State.when_within
    | with_reducible apply Within.step' (State.ballastWrite_within _ _ _)
    | with_reducible apply Within.step' (State.modTile_within _ _ _)
    | with_reducible apply Within.step' (State.tilCtrl_within _ _ _)
    | with_reducible refine Within.ite ?_ ?_
    | with_reducible intro _
    | dsimp only
    | split

theorem srmRegs_in (a0) (a1) : RegAtIn (srmRegs a0 a1) := by
  unfold srmRegs
  try dsimp only
  repeat' first
    | with_reducible assumption
    | with_reducible exact Within.refl _ _
    | decide
    | with_reducible exact roW_in _ _
    | with_reducible exact roD_in _ _
    | with_reducible exact cntW_in _
    | with_reducible exact cntD_in _
    | with_reducible exact errW_in _
    | with_reducible refine rwW_in _ _ ?_
    | with_reducible refine rwD_in _ _ _ ?_
    | with_reducible refine goW_in _ ?_
    | with_reducible refine claimW_in _ ?_
    | with_reducible exact RegAtIn.none
    | with_reducible refine regFirst_cons_in ?_ ?_
    | with_reducible exact regFirst_nil_in
    | with_reducible refine regAt_in ?_
    | with_reducible refine regEach_in ?_
    | with_reducible refine regArr_in ?_
    | with_reducible refine RegAtIn.map ?_
    | with_reducible refine RegAtIn.ite ?_ ?_
    | with_reducible apply Within.step' (State.srmGo_within _ _)
    | with_reducible apply Within.step' (State.sramClear_within _ _ _)
    | with_reducible apply Within.step' (State.srmUeWrite_within _ _ _)
    | with_reducible apply Within.step' (State.modSrm_within _ _ _)
    | with_reducible refine Within.ite ?_ ?_
    | with_reducible intro _
    | dsimp only
    | split

theorem State.memRegs_in (s) (a1) : RegAtIn (State.memRegs s a1) := by
  unfold State.memRegs
  try dsimp only
  repeat' first
    | with_reducible assumption
    | with_reducible exact Within.refl _ _
    | decide
    | with_reducible exact roW_in _ _
    | with_reducible exact roD_in _ _
    | with_reducible exact cntW_in _
    | with_reducible exact cntD_in _
    | with_reducible exact errW_in _
    | with_reducible refine rwW_in _ _ ?_
    | with_reducible refine rwD_in _ _ _ ?_
    | with_reducible refine goW_in _ ?_
    | with_reducible refine claimW_in _ ?_
    | with_reducible exact RegAtIn.none
    | with_reducible refine regFirst_cons_in ?_ ?_
    | with_reducible exact regFirst_nil_in
    | with_reducible refine regAt_in ?_
    | with_reducible refine regEach_in ?_
    | with_reducible refine regArr_in ?_
    | with_reducible refine RegAtIn.map ?_
    | with_reducible refine RegAtIn.ite ?_ ?_
    | with_reducible apply Within.step' (State.memGo_within _)
    | with_reducible apply Within.step' (State.setIgrp_within _ _ _)
    | with_reducible apply Within.step' (State.modLp_within _ _)
    | with_reducible refine Within.ite ?_ ?_
    | with_reducible intro _
    | dsimp only
    | split

theorem State.mcRegs_in (s) (a1) (a2) : RegAtIn (State.mcRegs s a1 a2) := by
  unfold State.mcRegs
  try dsimp only
  repeat' first
    | with_reducible assumption
    | with_reducible exact Within.refl _ _
    | decide
    | with_reducible exact roW_in _ _
    | with_reducible exact roD_in _ _
    | with_reducible exact cntW_in _
    | with_reducible exact cntD_in _
    | with_reducible exact errW_in _
    | with_reducible refine rwW_in _ _ ?_
    | with_reducible refine rwD_in _ _ _ ?_
    | with_reducible refine goW_in _ ?_
    | with_reducible refine claimW_in _ ?_
    | with_reducible exact RegAtIn.none
    | with_reducible refine regFirst_cons_in ?_ ?_
    | with_reducible exact regFirst_nil_in
    | with_reducible refine regAt_in ?_
    | with_reducible refine regEach_in ?_
    | with_reducible refine regArr_in ?_
    | with_reducible refine RegAtIn.map ?_
    | with_reducible refine RegAtIn.ite ?_ ?_
    | with_reducible apply Within.step' (State.modLp_within _ _)
    | with_reducible refine Within.ite ?_ ?_
    | with_reducible intro _
    | dsimp only
    | split

theorem State.xltRegs_in (s) (a1) : RegAtIn (State.xltRegs s a1) := by
  unfold State.xltRegs
  try dsimp only
  repeat' first
    | with_reducible assumption
    | with_reducible exact Within.refl _ _
    | decide
    | with_reducible exact roW_in _ _
    | with_reducible exact roD_in _ _
    | with_reducible exact cntW_in _
    | with_reducible exact cntD_in _
    | with_reducible exact errW_in _
    | with_reducible refine rwW_in _ _ ?_
    | with_reducible refine rwD_in _ _ _ ?_
    | with_reducible refine goW_in _ ?_
    | with_reducible refine claimW_in _ ?_
    | with_reducible exact RegAtIn.none
    | with_reducible refine regFirst_cons_in ?_ ?_
    | with_reducible exact regFirst_nil_in
    | with_reducible refine regAt_in ?_
    | with_reducible refine regEach_in ?_
    | with_reducible refine regArr_in ?_
    | with_reducible refine RegAtIn.map ?_
    | with_reducible refine RegAtIn.ite ?_ ?_
    | with_reducible apply Within.step' (State.priCfg_within _ _)
    | with_reducible apply Within.step' (State.xltGo_within _)
    | with_reducible apply Within.step' (State.modXlt_within _ _)
    | with_reducible refine Within.ite ?_ ?_
    | with_reducible intro _
    | dsimp only
    | split

theorem State.brdRegs_in (s) (a1) : RegAtIn (State.brdRegs s a1) := by
  unfold State.brdRegs
  try dsimp only
  repeat' first
    | with_reducible assumption
    | with_reducible exact Within.refl _ _
    | decide
    | with_reducible exact roW_in _ _
    | with_reducible exact roD_in _ _
    | with_reducible exact cntW_in _
    | with_reducible exact cntD_in _
    | with_reducible exact errW_in _
    | with_reducible refine rwW_in _ _ ?_
    | with_reducible refine rwD_in _ _ _ ?_
    | with_reducible refine goW_in _ ?_
    | with_reducible refine claimW_in _ ?_
    | with_reducible exact RegAtIn.none
    | with_reducible refine regFirst_cons_in ?_ ?_
    | with_reducible exact regFirst_nil_in
    | with_reducible refine regAt_in ?_
    | with_reducible refine regEach_in ?_
    | with_reducible refine regArr_in ?_
    | with_reducible refine RegAtIn.map ?_
    | with_reducible refine RegAtIn.ite ?_ ?_
    | with_reducible apply State.when_within
    | with_reducible apply Within.step' (State.moveCtrl_within _ _ _)
    | with_reducible apply Within.step' (State.brdGo_within _)
    | with_reducible apply Within.step' (State.modBrd_within _ _)
    | with_reducible refine Within.ite ?_ ?_
    | with_reducible intro _
    | dsimp only
    | split

theorem State.fabRegs_in (s) (a1) : RegAtIn (State.fabRegs s a1) := by
  unfold State.fabRegs
  try dsimp only
  repeat' first
    | with_reducible assumption
    | with_reducible exact Within.refl _ _
    | decide
    | with_reducible exact roW_in _ _
    | with_reducible exact roD_in _ _
    | with_reducible exact cntW_in _
    | with_reducible exact cntD_in _
    | with_reducible exact errW_in _
    | with_reducible refine rwW_in _ _ ?_
    | with_reducible refine rwD_in _ _ _ ?_
    | with_reducible refine goW_in _ ?_
    | with_reducible refine claimW_in _ ?_
    | with_reducible exact RegAtIn.none
    | with_reducible refine regFirst_cons_in ?_ ?_
    | with_reducible exact regFirst_nil_in
    | with_reducible refine regAt_in ?_
    | with_reducible refine regEach_in ?_
    | with_reducible refine regArr_in ?_
    | with_reducible refine RegAtIn.map ?_
    | with_reducible refine RegAtIn.ite ?_ ?_
    | with_reducible apply Within.step' (State.fabPend_within _ _)
    | with_reducible apply Within.step' (State.fabTimeoutWrite_within _ _)
    | with_reducible apply Within.step' (State.fabGo_within _)
    | with_reducible refine Within.ite ?_ ?_
    | with_reducible intro _
    | dsimp only
    | split

theorem lnkRegs_in (a0) (a1) : RegAtIn (lnkRegs a0 a1) := by
  unfold lnkRegs
  try dsimp only
  repeat' first
    | with_reducible assumption
    | with_reducible exact Within.refl _ _
    | decide
    | with_reducible exact roW_in _ _
    | with_reducible exact roD_in _ _
    | with_reducible exact cntW_in _
    | with_reducible exact cntD_in _
    | with_reducible exact errW_in _
    | with_reducible refine rwW_in _ _ ?_
    | with_reducible refine rwD_in _ _ _ ?_
    | with_reducible refine goW_in _ ?_
    | with_reducible refine claimW_in _ ?_
    | with_reducible exact RegAtIn.none
    | with_reducible refine regFirst_cons_in ?_ ?_
    | with_reducible exact regFirst_nil_in
    | with_reducible refine regAt_in ?_
    | with_reducible refine regEach_in ?_
    | with_reducible refine regArr_in ?_
    | with_reducible refine RegAtIn.map ?_
    | with_reducible refine RegAtIn.ite ?_ ?_
    | with_reducible apply State.when_within
    | with_reducible apply Within.step' (State.lnkGo_within _ _)
    | with_reducible apply Within.step' (State.lnkCtrl_within _ _ _)
    | with_reducible apply Within.step' (State.modPort_within _ _ _)
    | with_reducible refine Within.ite ?_ ?_
    | with_reducible intro _
    | dsimp only
    | split

theorem State.queRegs_in (s) (a1) : RegAtIn (State.queRegs s a1) := by
  unfold State.queRegs
  try dsimp only
  repeat' first
    | with_reducible assumption
    | with_reducible exact Within.refl _ _
    | decide
    | with_reducible exact roW_in _ _
    | with_reducible exact roD_in _ _
    | with_reducible exact cntW_in _
    | with_reducible exact cntD_in _
    | with_reducible exact errW_in _
    | with_reducible refine rwW_in _ _ ?_
    | with_reducible refine rwD_in _ _ _ ?_
    | with_reducible refine goW_in _ ?_
    | with_reducible refine claimW_in _ ?_
    | with_reducible exact RegAtIn.none
    | with_reducible refine regFirst_cons_in ?_ ?_
    | with_reducible exact regFirst_nil_in
    | with_reducible refine regAt_in ?_
    | with_reducible refine regEach_in ?_
    | with_reducible refine regArr_in ?_
    | with_reducible refine RegAtIn.map ?_
    | with_reducible refine RegAtIn.ite ?_ ?_
    | with_reducible apply Within.step' (State.queGo_within _)
    | with_reducible apply Within.step' (State.quePend_within _ _)
    | with_reducible refine Within.ite ?_ ?_
    | with_reducible intro _
    | dsimp only
    | split

theorem State.seqRegs_in (s) (a1) : RegAtIn (State.seqRegs s a1) := by
  unfold State.seqRegs
  try dsimp only
  repeat' first
    | with_reducible assumption
    | with_reducible exact Within.refl _ _
    | decide
    | with_reducible exact roW_in _ _
    | with_reducible exact roD_in _ _
    | with_reducible exact cntW_in _
    | with_reducible exact cntD_in _
    | with_reducible exact errW_in _
    | with_reducible refine rwW_in _ _ ?_
    | with_reducible refine rwD_in _ _ _ ?_
    | with_reducible refine goW_in _ ?_
    | with_reducible refine claimW_in _ ?_
    | with_reducible exact RegAtIn.none
    | with_reducible refine regFirst_cons_in ?_ ?_
    | with_reducible exact regFirst_nil_in
    | with_reducible refine regAt_in ?_
    | with_reducible refine regEach_in ?_
    | with_reducible refine regArr_in ?_
    | with_reducible refine RegAtIn.map ?_
    | with_reducible refine RegAtIn.ite ?_ ?_
    | with_reducible apply Within.step' (State.reelWrite_within _ _ _ _)
    | with_reducible apply Within.step' (State.reelCfg_within _ _)
    | with_reducible apply Within.step' (State.seqGo_within _)
    | with_reducible refine Within.ite ?_ ?_
    | with_reducible intro _
    | dsimp only
    | split

theorem cadRegs_in (a0) : RegAtIn (cadRegs a0) := by
  unfold cadRegs
  try dsimp only
  repeat' first
    | with_reducible assumption
    | with_reducible exact Within.refl _ _
    | decide
    | with_reducible exact roW_in _ _
    | with_reducible exact roD_in _ _
    | with_reducible exact cntW_in _
    | with_reducible exact cntD_in _
    | with_reducible exact errW_in _
    | with_reducible refine rwW_in _ _ ?_
    | with_reducible refine rwD_in _ _ _ ?_
    | with_reducible refine goW_in _ ?_
    | with_reducible refine claimW_in _ ?_
    | with_reducible exact RegAtIn.none
    | with_reducible refine regFirst_cons_in ?_ ?_
    | with_reducible exact regFirst_nil_in
    | with_reducible refine regAt_in ?_
    | with_reducible refine regEach_in ?_
    | with_reducible refine regArr_in ?_
    | with_reducible refine RegAtIn.map ?_
    | with_reducible refine RegAtIn.ite ?_ ?_
    | with_reducible apply Within.step' (State.cadCfg_within _ _)
    | with_reducible apply Within.step' (State.cadGo_within _)
    | with_reducible refine Within.ite ?_ ?_
    | with_reducible intro _
    | dsimp only
    | split

theorem pwrRegs_in (a0) : RegAtIn (pwrRegs a0) := by
  unfold pwrRegs
  try dsimp only
  repeat' first
    | with_reducible assumption
    | with_reducible exact Within.refl _ _
    | decide
    | with_reducible exact roW_in _ _
    | with_reducible exact roD_in _ _
    | with_reducible exact cntW_in _
    | with_reducible exact cntD_in _
    | with_reducible exact errW_in _
    | with_reducible refine rwW_in _ _ ?_
    | with_reducible refine rwD_in _ _ _ ?_
    | with_reducible refine goW_in _ ?_
    | with_reducible refine claimW_in _ ?_
    | with_reducible exact RegAtIn.none
    | with_reducible refine regFirst_cons_in ?_ ?_
    | with_reducible exact regFirst_nil_in
    | with_reducible refine regAt_in ?_
    | with_reducible refine regEach_in ?_
    | with_reducible refine regArr_in ?_
    | with_reducible refine RegAtIn.map ?_
    | with_reducible refine RegAtIn.ite ?_ ?_
    | with_reducible apply Within.step' (State.pwrPend_within _ _)
    | with_reducible apply Within.step' (State.pwrGo_within _)
    | with_reducible refine Within.ite ?_ ?_
    | with_reducible intro _
    | dsimp only
    | split

theorem rotRegs_in (a0) : RegAtIn (rotRegs a0) := by
  unfold rotRegs
  try dsimp only
  repeat' first
    | with_reducible assumption
    | with_reducible exact Within.refl _ _
    | decide
    | with_reducible exact roW_in _ _
    | with_reducible exact roD_in _ _
    | with_reducible exact cntW_in _
    | with_reducible exact cntD_in _
    | with_reducible exact errW_in _
    | with_reducible refine rwW_in _ _ ?_
    | with_reducible refine rwD_in _ _ _ ?_
    | with_reducible refine goW_in _ ?_
    | with_reducible refine claimW_in _ ?_
    | with_reducible exact RegAtIn.none
    | with_reducible refine regFirst_cons_in ?_ ?_
    | with_reducible exact regFirst_nil_in
    | with_reducible refine regAt_in ?_
    | with_reducible refine regEach_in ?_
    | with_reducible refine regArr_in ?_
    | with_reducible refine RegAtIn.map ?_
    | with_reducible refine RegAtIn.ite ?_ ?_
    | with_reducible refine Within.ite ?_ ?_
    | with_reducible intro _
    | dsimp only
    | split

theorem cryRegs_in (a0) : RegAtIn (cryRegs a0) := by
  unfold cryRegs
  try dsimp only
  repeat' first
    | with_reducible assumption
    | with_reducible exact Within.refl _ _
    | decide
    | with_reducible exact roW_in _ _
    | with_reducible exact roD_in _ _
    | with_reducible exact cntW_in _
    | with_reducible exact cntD_in _
    | with_reducible exact errW_in _
    | with_reducible refine rwW_in _ _ ?_
    | with_reducible refine rwD_in _ _ _ ?_
    | with_reducible refine goW_in _ ?_
    | with_reducible refine claimW_in _ ?_
    | with_reducible exact RegAtIn.none
    | with_reducible refine regFirst_cons_in ?_ ?_
    | with_reducible exact regFirst_nil_in
    | with_reducible refine regAt_in ?_
    | with_reducible refine regEach_in ?_
    | with_reducible refine regArr_in ?_
    | with_reducible refine RegAtIn.map ?_
    | with_reducible refine RegAtIn.ite ?_ ?_
    | with_reducible refine Within.ite ?_ ?_
    | with_reducible intro _
    | dsimp only
    | split

theorem State.evtRegs_in (s) (a1) : RegAtIn (State.evtRegs s a1) := by
  unfold State.evtRegs
  try dsimp only
  repeat' first
    | with_reducible assumption
    | with_reducible exact Within.refl _ _
    | decide
    | with_reducible exact roW_in _ _
    | with_reducible exact roD_in _ _
    | with_reducible exact cntW_in _
    | with_reducible exact cntD_in _
    | with_reducible exact errW_in _
    | with_reducible refine rwW_in _ _ ?_
    | with_reducible refine rwD_in _ _ _ ?_
    | with_reducible refine goW_in _ ?_
    | with_reducible refine claimW_in _ ?_
    | with_reducible exact RegAtIn.none
    | with_reducible refine regFirst_cons_in ?_ ?_
    | with_reducible exact regFirst_nil_in
    | with_reducible refine regAt_in ?_
    | with_reducible refine regEach_in ?_
    | with_reducible refine regArr_in ?_
    | with_reducible refine RegAtIn.map ?_
    | with_reducible refine RegAtIn.ite ?_ ?_
    | with_reducible apply Within.step' (State.srcWrite_within _ _ _)
    | with_reducible apply Within.step' (State.grpWrite_within _ _ _)
    | with_reducible apply Within.step' (State.doneSrc_within _ _ _)
    | with_reducible apply Within.step' (State.coreClaim_within _ _)
    | with_reducible refine Within.ite ?_ ?_
    | with_reducible intro _
    | dsimp only
    | split

theorem logRegs_in (a0) : RegAtIn (logRegs a0) := by
  unfold logRegs
  try dsimp only
  repeat' first
    | with_reducible assumption
    | with_reducible exact Within.refl _ _
    | decide
    | with_reducible exact roW_in _ _
    | with_reducible exact roD_in _ _
    | with_reducible exact cntW_in _
    | with_reducible exact cntD_in _
    | with_reducible exact errW_in _
    | with_reducible refine rwW_in _ _ ?_
    | with_reducible refine rwD_in _ _ _ ?_
    | with_reducible refine goW_in _ ?_
    | with_reducible refine claimW_in _ ?_
    | with_reducible exact RegAtIn.none
    | with_reducible refine regFirst_cons_in ?_ ?_
    | with_reducible exact regFirst_nil_in
    | with_reducible refine regAt_in ?_
    | with_reducible refine regEach_in ?_
    | with_reducible refine regArr_in ?_
    | with_reducible refine RegAtIn.map ?_
    | with_reducible refine RegAtIn.ite ?_ ?_
    | with_reducible refine Within.ite ?_ ?_
    | with_reducible intro _
    | dsimp only
    | split

theorem mailRegs_in (a0) (a1) (a2) : RegAtIn (mailRegs a0 a1 a2) := by
  unfold mailRegs
  try dsimp only
  repeat' first
    | with_reducible assumption
    | with_reducible exact Within.refl _ _
    | decide
    | with_reducible exact roW_in _ _
    | with_reducible exact roD_in _ _
    | with_reducible exact cntW_in _
    | with_reducible exact cntD_in _
    | with_reducible exact errW_in _
    | with_reducible refine rwW_in _ _ ?_
    | with_reducible refine rwD_in _ _ _ ?_
    | with_reducible refine goW_in _ ?_
    | with_reducible refine claimW_in _ ?_
    | with_reducible exact RegAtIn.none
    | with_reducible refine regFirst_cons_in ?_ ?_
    | with_reducible exact regFirst_nil_in
    | with_reducible refine regAt_in ?_
    | with_reducible refine regEach_in ?_
    | with_reducible refine regArr_in ?_
    | with_reducible refine RegAtIn.map ?_
    | with_reducible refine RegAtIn.ite ?_ ?_
    | with_reducible apply Within.step' (State.mailReq_within _ _ _ _ _ _)
    | with_reducible apply Within.step' (State.mailCons_within _ _ _ _)
    | with_reducible apply Within.step' (State.vecWrite_within _ _ _ _)
    | with_reducible apply Within.step' (State.mailAck_within _ _ _ _)
    | with_reducible apply Within.step' (State.mailCtrl_within _ _ _ _)
    | with_reducible refine Within.ite ?_ ?_
    | with_reducible intro _
    | dsimp only
    | split

theorem State.funcRegs_in (s) (a1) (a2) (a3) (a4) : RegAtIn (State.funcRegs s a1 a2 a3 a4) := by
  unfold State.funcRegs
  try dsimp only
  repeat' first
    | with_reducible assumption
    | with_reducible exact Within.refl _ _
    | decide
    | with_reducible exact roW_in _ _
    | with_reducible exact roD_in _ _
    | with_reducible exact cntW_in _
    | with_reducible exact cntD_in _
    | with_reducible exact errW_in _
    | with_reducible refine rwW_in _ _ ?_
    | with_reducible refine rwD_in _ _ _ ?_
    | with_reducible refine goW_in _ ?_
    | with_reducible refine claimW_in _ ?_
    | with_reducible exact RegAtIn.none
    | with_reducible refine regFirst_cons_in ?_ ?_
    | with_reducible exact regFirst_nil_in
    | with_reducible refine regAt_in ?_
    | with_reducible refine regEach_in ?_
    | with_reducible refine regArr_in ?_
    | with_reducible refine RegAtIn.map ?_
    | with_reducible refine RegAtIn.ite ?_ ?_
    | with_reducible apply Within.step' (State.bar2WinWrite_within _ _ _ _ _)
    | with_reducible refine Within.ite ?_ ?_
    | with_reducible intro _
    | dsimp only
    | split

theorem State.pfRegs_in (s) (a1) (a2) : RegAtIn (State.pfRegs s a1 a2) := by
  unfold State.pfRegs
  try dsimp only
  repeat' first
    | with_reducible assumption
    | with_reducible exact Within.refl _ _
    | decide
    | with_reducible exact roW_in _ _
    | with_reducible exact roD_in _ _
    | with_reducible exact cntW_in _
    | with_reducible exact cntD_in _
    | with_reducible exact errW_in _
    | with_reducible refine rwW_in _ _ ?_
    | with_reducible refine rwD_in _ _ _ ?_
    | with_reducible refine goW_in _ ?_
    | with_reducible refine claimW_in _ ?_
    | with_reducible exact RegAtIn.none
    | with_reducible refine regFirst_cons_in ?_ ?_
    | with_reducible exact regFirst_nil_in
    | with_reducible refine regAt_in ?_
    | with_reducible refine regEach_in ?_
    | with_reducible refine regArr_in ?_
    | with_reducible refine RegAtIn.map ?_
    | with_reducible refine RegAtIn.ite ?_ ?_
    | with_reducible apply Within.step' (State.dlogCons_within _ _ _ _)
    | with_reducible apply Within.step' (State.dlogCtrl_within _ _ _ _)
    | with_reducible apply Within.step' (State.dlogBase_within _ _ _ _)
    | with_reducible apply Within.step' (State.doneSrc_within _ _ _)
    | with_reducible apply Within.step' (State.claimSrc_within _ _)
    | with_reducible apply Within.step' (State.hmaskWrite_within _ _ _)
    | with_reducible apply Within.step' (State.hcfgWrite_within _ _ _)
    | with_reducible apply Within.step' (State.portCtrl_within _ _ _)
    | with_reducible refine Within.ite ?_ ?_
    | with_reducible intro _
    | dsimp only
    | split

theorem State.regFind_in (s) (a1) (a2) : RegAtIn (State.regFind s a1 a2) := by
  unfold State.regFind
  try dsimp only
  repeat' first
    | with_reducible assumption
    | with_reducible exact Within.refl _ _
    | decide
    | with_reducible exact roW_in _ _
    | with_reducible exact roD_in _ _
    | with_reducible exact cntW_in _
    | with_reducible exact cntD_in _
    | with_reducible exact errW_in _
    | with_reducible refine rwW_in _ _ ?_
    | with_reducible refine rwD_in _ _ _ ?_
    | with_reducible refine goW_in _ ?_
    | with_reducible refine claimW_in _ ?_
    | with_reducible exact RegAtIn.none
    | with_reducible refine regFirst_cons_in ?_ ?_
    | with_reducible exact regFirst_nil_in
    | with_reducible refine regAt_in ?_
    | with_reducible refine regEach_in ?_
    | with_reducible refine regArr_in ?_
    | with_reducible refine RegAtIn.map ?_
    | with_reducible refine RegAtIn.ite ?_ ?_
    | with_reducible exact State.funcRegs_in _ _ _ _ _
    | with_reducible exact mailRegs_in _ _ _
    | with_reducible exact State.pfRegs_in _ _ _
    | with_reducible exact State.tilRegs_in _ _ _
    | with_reducible exact srmRegs_in _ _
    | with_reducible exact State.memRegs_in _ _
    | with_reducible exact State.mcRegs_in _ _ _
    | with_reducible exact State.xltRegs_in _ _
    | with_reducible exact State.brdRegs_in _ _
    | with_reducible exact State.fabRegs_in _ _
    | with_reducible exact lnkRegs_in _ _
    | with_reducible exact State.queRegs_in _ _
    | with_reducible exact State.seqRegs_in _ _
    | with_reducible exact cadRegs_in _
    | with_reducible exact pwrRegs_in _
    | with_reducible exact rotRegs_in _
    | with_reducible exact cryRegs_in _
    | with_reducible exact State.evtRegs_in _ _
    | with_reducible exact logRegs_in _
    | with_reducible refine Within.ite ?_ ?_
    | with_reducible intro _
    | dsimp only
    | split

theorem State.regTake_within (s : State) (sp : RegSpace) (a : Nat) (r : RegW) (v : DWord) (h : RegIn r) :
    Within [.out, .mem, .lowHeld, .tiles, .mesh, .lp, .xlt, .brd, .lnk, .fab, .hst, .que, .itl, .sched, .cad, .pwr, .rcv, .rot, .cry, .evt, .flog] s (State.regTake s sp a r v) := by
  unfold State.regTake
  refine Within.step' (h.write _ _) (State.when_within _ _ (State.lowHeld_set_within _ _ |>.mono (by decide)) fun t ht => ?_) (by decide)
  exact Within.step' (State.reservedAt_within _ _ _) ht (by decide)

theorem State.regWrite32_within (s : State) (sp : RegSpace) (a : Nat) (v : Word) :
    Within [.out, .mem, .lowHeld, .tiles, .mesh, .lp, .xlt, .brd, .lnk, .fab, .hst, .que, .itl, .sched, .cad, .pwr, .rcv, .rot, .cry, .evt, .flog] s (State.regWrite32 s sp a v) := by
  unfold State.regWrite32
  split
  · exact State.when_within _ _ (Within.refl _ _) fun t ht => Within.step' (State.reservedAt_within _ _ _) ht (by decide)
  · rename_i b r e
    have hr : RegIn r := (State.regFind_in s sp a).found _ e
    split
    · exact (State.regTake_within _ _ _ _ _ hr).mono (by decide)
    · split
      · exact (State.lowHeld_set_within _ _).mono (by decide)
      · exact (State.regTake_within _ _ _ _ _ hr).mono (by decide)

theorem State.regWrite64_within (s : State) (sp : RegSpace) (a : Nat) (v : DWord) :
    Within [.out, .mem, .lowHeld, .tiles, .mesh, .lp, .xlt, .brd, .lnk, .fab, .hst, .que, .itl, .sched, .cad, .pwr, .rcv, .rot, .cry, .evt, .flog] s (State.regWrite64 s sp a v) := by
  unfold State.regWrite64
  split
  · rename_i b r e
    split
    · exact (State.regTake_within _ _ _ _ _ ((State.regFind_in s sp a).found _ e)).mono (by decide)
    · exact Within.step' (State.regWrite32_within _ _ _ _) (State.regWrite32_within _ _ _ _) (by decide)
  · exact Within.step' (State.regWrite32_within _ _ _ _) (State.regWrite32_within _ _ _ _) (by decide)

theorem State.regWrite_within (s : State) (a2) (a3) (a4) (a5) :
    Within [.out, .mem, .lowHeld, .tiles, .mesh, .lp, .xlt, .brd, .lnk, .fab, .hst, .que, .itl, .sched, .cad, .pwr, .rcv, .rot, .cry, .evt, .flog] s (State.regWrite s a2 a3 a4 a5) := by
  unfold State.regWrite
  repeat' first
    | with_reducible assumption
    | with_reducible exact Within.refl _ _
    | decide
    | with_reducible apply Within.step' (State.regWrite64_within _ _ _ _)
    | with_reducible apply Within.step' (State.regWrite32_within _ _ _ _)
    | with_reducible apply Within.step' (State.reservedAt_within _ _ _)
    | with_reducible refine Within.ite ?_ ?_
    | with_reducible refine Within.ite_snd ?_ ?_
    | with_reducible intro _
    | split
    | dsimp only

theorem State.msixAccess_within (s : State) (a2) (a3) (a4) (a5) (a6) (a7) :
    Within [.out, .tiles, .lp, .xlt, .brd, .lnk, .fab, .hst, .que, .sched, .cad, .pwr, .rot, .cry, .evt, .flog] s (State.msixAccess s a2 a3 a4 a5 a6 a7) := by
  unfold State.msixAccess
  repeat' first
    | with_reducible assumption
    | with_reducible exact Within.refl _ _
    | decide
    | with_reducible apply Within.step' (State.msixWrite_within _ _ _ _ _ _)
    | with_reducible apply Within.step' (State.reservedAt_within _ _ _)
    | with_reducible refine Within.ite ?_ ?_
    | with_reducible intro _
    | extract_lets
    | split
    | dsimp only

theorem State.regRead32_within (s : State) (sp : RegSpace) (a : Nat) :
    Within [.out, .mem, .highLatch, .tiles, .mesh, .lp, .xlt, .brd, .lnk, .fab, .hst, .que, .itl, .sched, .cad, .pwr, .rcv, .rot, .cry, .evt, .flog] s (State.regRead32 s sp a).2 := by
  unfold State.regRead32
  split
  · exact Within.refl _ _
  · rename_i b r e
    split
    · exact (((State.regFind_in s sp a).found _ e).after s).mono (by decide)
    · split
      · exact (State.highLatch_set_within _ _).mono (by decide)
      · split
        · exact (State.highLatch_set_within _ _).mono (by decide)
        · exact Within.refl _ _

theorem State.regRead64_within (s : State) (sp : RegSpace) (a : Nat) :
    Within [.out, .mem, .highLatch, .tiles, .mesh, .lp, .xlt, .brd, .lnk, .fab, .hst, .que, .itl, .sched, .cad, .pwr, .rcv, .rot, .cry, .evt, .flog] s (State.regRead64 s sp a).2 := by
  have h : Within [.out, .mem, .highLatch, .tiles, .mesh, .lp, .xlt, .brd, .lnk, .fab, .hst, .que, .itl, .sched, .cad, .pwr, .rcv, .rot, .cry, .evt, .flog] s ((s.regRead32 sp a).2.regRead32 sp (a + 4)).2 :=
    Within.step' (State.regRead32_within _ _ _) ((State.regRead32_within _ _ _).mono (by decide)) (by decide)
  unfold State.regRead64
  dsimp only
  split
  · split
    · exact Within.refl _ _
    · exact h
  · exact h

theorem State.regRead_within (s : State) (sp : RegSpace) (a log2 : Nat) :
    Within [.out, .mem, .highLatch, .tiles, .mesh, .lp, .xlt, .brd, .lnk, .fab, .hst, .que, .itl, .sched, .cad, .pwr, .rcv, .rot, .cry, .evt, .flog] s (State.regRead s sp a log2).2 := by
  unfold State.regRead
  split
  · exact (State.reservedAt_within _ _ _).mono (by decide)
  · split
    · exact (State.regRead32_within _ _ _).mono (by decide)
    · exact (State.regRead64_within _ _ _).mono (by decide)

theorem State.registerRead_within (s : State) (sp : RegSpace) (a log2 : Nat) :
    Within [.out, .mem, .highLatch, .tiles, .mesh, .lp, .xlt, .brd, .lnk, .fab, .hst, .que, .itl, .sched, .cad, .pwr, .rcv, .rot, .cry, .evt, .flog] s (State.registerRead s sp a log2).2 := by
  unfold State.registerRead
  repeat' first
    | exact Within.refl _ _
    | exact (State.hostRefused_within _ _ _).mono (by decide)
    | exact (State.reservedAt_within _ _ _).mono (by decide)
    | exact (State.regRead_within _ _ _ _).mono (by decide)
    | split
    | dsimp only

end Sys2Proof.Machine
end

