-- ==== Sys2Proof/Laws/WithinExecFabric.lean ====
section
/-! SUPPORT. What the commands of the fabric, the links, the hosts and the mesh may touch. -/

set_option linter.unusedTactic false
set_option linter.unreachableTactic false
set_option linter.unusedVariables false

namespace Sys2Proof.Machine

theorem execFabricRoute_within (a1) (s : State) :
    OutIn [.out, .lnk, .fab] s (execFabricRoute a1 s) := by
  unfold execFabricRoute
  repeat' first
    | with_reducible assumption
    | with_reducible exact Within.refl _ _
    | decide
    | with_reducible apply Within.step' (State.routeFrom_within _ _ _)
    | with_reducible apply Within.step' (State.unreachable_within _ _ _)
    | with_reducible refine OutIn.next ?_
    | split
    | dsimp only

theorem execFabricEgressRelease_within (a1) (s : State) :
    OutIn [.out, .lnk, .fab] s (execFabricEgressRelease a1 s) := by
  unfold execFabricEgressRelease
  repeat' first
    | with_reducible assumption
    | with_reducible exact Within.refl _ _
    | decide
    | with_reducible apply Within.step' (State.fabLeave_within _ _)
    | with_reducible refine OutIn.next ?_
    | with_reducible intro _
    | split
    | dsimp only

theorem execFabricResponse_within (a1) (s : State) :
    OutIn [.out, .lnk, .fab] s (execFabricResponse a1 s) := by
  unfold execFabricResponse
  repeat' first
    | with_reducible assumption
    | with_reducible exact Within.refl _ _
    | decide
    | with_reducible apply State.when_within
    | with_reducible apply Within.step' (State.modFab_within _ _)
    | with_reducible apply Within.step' (State.fabEnd_within _ _ _ _ _)
    | with_reducible apply Within.step' (State.drainPacket_within _ _ _)
    | with_reducible refine OutIn.next ?_
    | with_reducible refine Within.ite ?_ ?_
    | with_reducible intro _
    | extract_lets
    | split
    | dsimp only

theorem execFabricRequestTimeout_within (a1) (s : State) :
    OutIn [.out, .fab] s (execFabricRequestTimeout a1 s) := by
  unfold execFabricRequestTimeout
  repeat' first
    | with_reducible assumption
    | with_reducible exact Within.refl _ _
    | decide
    | with_reducible apply Within.step' (State.modFab_within _ _)
    | with_reducible apply Within.step' (State.fabEnd_within _ _ _ _ _)
    | with_reducible refine OutIn.next ?_
    | with_reducible refine Within.ite ?_ ?_
    | with_reducible intro _
    | split
    | dsimp only

theorem execKeyx_within (a1) (a2) (s : State) :
    OutIn [.out, .lnk, .hst, .rot, .evt, .flog] s (execKeyx a1 a2 s) := by
  unfold execKeyx
  repeat' first
    | with_reducible assumption
    | with_reducible exact Within.refl _ _
    | decide
    | with_reducible apply Within.step' (State.sendKeyx_within _ _)
    | with_reducible apply Within.step' (State.modPort_within _ _ _)
    | with_reducible apply Within.step' (State.keylessPort_within _ _)
    | with_reducible refine OutIn.next ?_
    | with_reducible refine Within.ite ?_ ?_
    | with_reducible refine Within.ite_snd ?_ ?_
    | with_reducible intro _
    | extract_lets
    | split
    | dsimp only

theorem execDiscovery_within (a1) (a2) (s : State) :
    OutIn [.out, .lnk, .fab, .hst, .evt, .flog] s (execDiscovery a1 a2 s) := by
  unfold execDiscovery
  repeat' first
    | with_reducible assumption
    | with_reducible exact Within.refl _ _
    | decide
    | with_reducible apply State.when_within
    | with_reducible apply Within.step' (State.modPort_within _ _ _)
    | with_reducible apply Within.step' (State.setPortSt_within _ _ _)
    | with_reducible apply Within.step' (State.pulse_within _ _)
    | with_reducible refine OutIn.next ?_
    | with_reducible refine Within.ite ?_ ?_
    | with_reducible refine Within.ite_snd ?_ ?_
    | with_reducible intro _
    | extract_lets
    | split
    | dsimp only

theorem execTrainingStepComplete_within (a1) (a2) (s : State) :
    OutIn [.out, .tiles, .lp, .brd, .lnk, .fab, .hst, .itl, .rot, .evt, .flog] s (execTrainingStepComplete a1 a2 s) := by
  unfold execTrainingStepComplete
  repeat' first
    | with_reducible assumption
    | with_reducible exact Within.refl _ _
    | decide
    | with_reducible apply Within.step' (State.setPortSt_within _ _ _)
    | with_reducible apply Within.step' (State.modPort_within _ _ _)
    | with_reducible apply Within.step' (State.enterActive_within _ _ _)
    | with_reducible apply Within.step' (State.settle_within _ _ _)
    | with_reducible refine OutIn.next ?_
    | with_reducible refine Within.ite ?_ ?_
    | with_reducible refine Within.ite_snd ?_ ?_
    | with_reducible intro _
    | extract_lets
    | split
    | dsimp only

theorem execTrainingStepTimeout_within (a1) (a2) (s : State) :
    OutIn [.out, .tiles, .lp, .brd, .lnk, .fab, .hst, .itl, .evt, .flog] s (execTrainingStepTimeout a1 a2 s) := by
  unfold execTrainingStepTimeout
  repeat' first
    | with_reducible assumption
    | with_reducible exact Within.refl _ _
    | decide
    | with_reducible apply Within.step' (State.trainingFailed_within _ _)
    | with_reducible apply Within.step' (State.modPort_within _ _ _)
    | with_reducible apply Within.step' (State.setPortSt_within _ _ _)
    | with_reducible refine OutIn.next ?_
    | with_reducible refine Within.ite ?_ ?_
    | with_reducible intro _
    | extract_lets
    | split
    | dsimp only

theorem execSignalDetect_within (a1) (a2) (s : State) :
    OutIn [.out, .lnk, .fab, .hst, .evt, .flog] s (execSignalDetect a1 a2 s) := by
  unfold execSignalDetect
  repeat' first
    | with_reducible assumption
    | with_reducible exact Within.refl _ _
    | decide
    | with_reducible apply Within.step' (State.setPortSt_within _ _ _)
    | with_reducible apply Within.step' (State.modPort_within _ _ _)
    | with_reducible refine OutIn.next ?_
    | with_reducible refine Within.ite ?_ ?_
    | with_reducible intro _
    | extract_lets
    | split
    | dsimp only

theorem execLossOfSignal_within (a1) (a2) (s : State) :
    OutIn [.out, .tiles, .lp, .brd, .lnk, .fab, .hst, .itl, .evt, .flog] s (execLossOfSignal a1 a2 s) := by
  unfold execLossOfSignal
  repeat' first
    | with_reducible assumption
    | with_reducible exact Within.refl _ _
    | decide
    | with_reducible apply Within.step' (State.fullTraining_within _ _)
    | with_reducible apply Within.step' (State.modPort_within _ _ _)
    | with_reducible refine OutIn.next ?_
    | with_reducible refine Within.ite ?_ ?_
    | with_reducible refine Within.ite_snd ?_ ?_
    | with_reducible intro _
    | extract_lets
    | split
    | dsimp only

theorem execFailedPortRetrain_within (a1) (s : State) :
    OutIn [.out, .tiles, .lp, .brd, .lnk, .fab, .hst, .itl, .evt, .flog] s (execFailedPortRetrain a1 s) := by
  unfold execFailedPortRetrain
  repeat' first
    | with_reducible assumption
    | with_reducible exact Within.refl _ _
    | decide
    | with_reducible apply Within.step' (State.fullTraining_within _ _)
    | with_reducible refine OutIn.next ?_
    | with_reducible refine Within.ite ?_ ?_
    | with_reducible refine Within.ite_snd ?_ ?_
    | with_reducible intro _
    | split
    | dsimp only

theorem execRetrainPort_within (a1) (a2) (s : State) :
    OutIn [.out, .tiles, .lp, .brd, .lnk, .fab, .hst, .itl, .evt, .flog] s (execRetrainPort a1 a2 s) := by
  unfold execRetrainPort
  repeat' first
    | with_reducible assumption
    | with_reducible exact Within.refl _ _
    | decide
    | with_reducible apply Within.step' (State.lnkCtrl_within _ _ _)
    | with_reducible refine OutIn.next ?_
    | split
    | dsimp only

theorem execFastRetrain_within (a1) (a2) (s : State) :
    OutIn [.out, .tiles, .lp, .brd, .lnk, .fab, .hst, .itl, .evt, .flog] s (execFastRetrain a1 a2 s) := by
  unfold execFastRetrain
  repeat' first
    | with_reducible assumption
    | with_reducible exact Within.refl _ _
    | decide
    | with_reducible apply Within.step' (State.lnkCtrl_within _ _ _)
    | with_reducible refine OutIn.next ?_
    | split
    | dsimp only

theorem execDisablePort_within (a1) (a2) (s : State) :
    OutIn [.out, .tiles, .lp, .brd, .lnk, .fab, .hst, .itl, .evt, .flog] s (execDisablePort a1 a2 s) := by
  unfold execDisablePort
  repeat' first
    | with_reducible assumption
    | with_reducible exact Within.refl _ _
    | decide
    | with_reducible apply Within.step' (State.lnkCtrl_within _ _ _)
    | with_reducible refine OutIn.next ?_
    | split
    | dsimp only

theorem execClrCnt_within (a1) (a2) (s : State) :
    OutIn [.out, .tiles, .lp, .brd, .lnk, .fab, .hst, .itl, .evt, .flog] s (execClrCnt a1 a2 s) := by
  unfold execClrCnt
  repeat' first
    | with_reducible assumption
    | with_reducible exact Within.refl _ _
    | decide
    | with_reducible apply Within.step' (State.lnkCtrl_within _ _ _)
    | with_reducible refine OutIn.next ?_
    | split
    | dsimp only

theorem execMaxWidth_within (a1) (a2) (s : State) :
    OutIn [.out, .tiles, .lp, .brd, .lnk, .fab, .hst, .itl, .evt, .flog] s (execMaxWidth a1 a2 s) := by
  unfold execMaxWidth
  repeat' first
    | with_reducible assumption
    | with_reducible exact Within.refl _ _
    | decide
    | with_reducible apply Within.step' (State.lnkCtrl_within _ _ _)
    | with_reducible refine OutIn.next ?_
    | split
    | dsimp only

theorem execSubstEn_within (a1) (a2) (s : State) :
    OutIn [.out, .tiles, .lp, .brd, .lnk, .fab, .hst, .itl, .evt, .flog] s (execSubstEn a1 a2 s) := by
  unfold execSubstEn
  repeat' first
    | with_reducible assumption
    | with_reducible exact Within.refl _ _
    | decide
    | with_reducible apply Within.step' (State.lnkCtrl_within _ _ _)
    | with_reducible refine OutIn.next ?_
    | split
    | dsimp only

theorem execSubstReq_within (a1) (a2) (s : State) :
    OutIn [.lnk] s (execSubstReq a1 a2 s) := by
  unfold execSubstReq
  repeat' first
    | with_reducible assumption
    | with_reducible exact Within.refl _ _
    | decide
    | with_reducible apply Within.step' (State.modPort_within _ _ _)
    | with_reducible refine OutIn.next ?_
    | with_reducible refine Within.ite ?_ ?_
    | with_reducible refine Within.ite_snd ?_ ?_
    | with_reducible intro _
    | extract_lets
    | split
    | dsimp only

theorem execSubstAck_within (a1) (a2) (s : State) :
    OutIn [.lnk] s (execSubstAck a1 a2 s) := by
  unfold execSubstAck
  repeat' first
    | with_reducible assumption
    | with_reducible exact Within.refl _ _
    | decide
    | with_reducible apply Within.step' (State.modPort_within _ _ _)
    | with_reducible refine OutIn.next ?_
    | with_reducible intro _
    | split
    | dsimp only

theorem execSubstNak_within (a1) (a2) (s : State) :
    OutIn [.out, .lnk, .fab, .hst, .evt, .flog] s (execSubstNak a1 a2 s) := by
  unfold execSubstNak
  repeat' first
    | with_reducible assumption
    | with_reducible exact Within.refl _ _
    | decide
    | with_reducible apply Within.step' (State.laneFailing_within _ _ _ _)
    | with_reducible apply Within.step' (State.modPort_within _ _ _)
    | with_reducible refine OutIn.next ?_
    | with_reducible refine Within.ite ?_ ?_
    | with_reducible intro _
    | extract_lets
    | split
    | dsimp only

theorem execEyeMeasurement_within (a1) (a2) (a3) (a4) (s : State) :
    OutIn [.out, .lnk, .fab, .hst, .evt, .flog] s (execEyeMeasurement a1 a2 a3 a4 s) := by
  unfold execEyeMeasurement
  repeat' first
    | with_reducible assumption
    | with_reducible exact Within.refl _ _
    | decide
    | with_reducible apply State.when_within
    | with_reducible apply Within.step' (State.laneFailing_within _ _ _ _)
    | with_reducible apply Within.step' (State.pulse_within _ _)
    | with_reducible apply Within.step' (State.modPort_within _ _ _)
    | with_reducible refine OutIn.next ?_
    | with_reducible refine Within.ite ?_ ?_
    | with_reducible refine Within.ite_snd ?_ ?_
    | with_reducible intro _
    | extract_lets
    | split
    | dsimp only

theorem execLinkFrameReceive_within (a1) (a2) (s : State) :
    OutIn [.out, .lnk, .fab, .hst, .cry, .evt, .flog] s (execLinkFrameReceive a1 a2 s) := by
  unfold execLinkFrameReceive
  repeat' first
    | with_reducible assumption
    | with_reducible exact Within.refl _ _
    | decide
    | with_reducible apply Within.step' (State.frameIn_within _ _ _)
    | with_reducible refine OutIn.next ?_
    | split
    | dsimp only

theorem execLinkFrameTransmit_within (a1) (s : State) :
    OutIn [.out, .tiles, .lp, .lnk, .fab, .hst, .rot, .cry, .evt, .flog] s (execLinkFrameTransmit a1 s) := by
  unfold execLinkFrameTransmit
  repeat' first
    | with_reducible assumption
    | with_reducible exact Within.refl _ _
    | decide
    | with_reducible apply Within.step' (State.frameOut_within _ _)
    | with_reducible refine OutIn.next ?_
    | split
    | dsimp only

theorem execCollectiveLocalWrite_within (a1) (s : State) :
    OutIn [.out, .mem, .tiles, .mesh, .lp, .brd, .lnk, .fab, .hst, .que, .itl, .cry, .evt, .flog] s (execCollectiveLocalWrite a1 s) := by
  unfold execCollectiveLocalWrite
  repeat' first
    | with_reducible assumption
    | with_reducible exact Within.refl _ _
    | decide
    | with_reducible apply Within.step' (State.collLocal_within _ _)
    | with_reducible refine OutIn.next ?_
    | split
    | dsimp only

theorem execCollectiveContribution_within (a1) (a2) (s : State) :
    OutIn [.out, .mem, .tiles, .mesh, .lp, .brd, .lnk, .fab, .hst, .que, .itl, .cry, .evt, .flog] s (execCollectiveContribution a1 a2 s) := by
  unfold execCollectiveContribution
  repeat' first
    | with_reducible assumption
    | with_reducible exact Within.refl _ _
    | decide
    | with_reducible apply Within.step' (State.collRefuse_within _ _ _)
    | with_reducible apply Within.step' (State.collIn_within _ _ _ _)
    | with_reducible apply Within.step' (State.drainPacket_within _ _ _)
    | with_reducible refine OutIn.next ?_
    | with_reducible refine Within.ite ?_ ?_
    | with_reducible intro _
    | extract_lets
    | split
    | dsimp only

theorem execCollectiveResult_within (a1) (a2) (s : State) :
    OutIn [.out, .mem, .tiles, .mesh, .lp, .brd, .lnk, .fab, .hst, .que, .itl, .cry, .evt, .flog] s (execCollectiveResult a1 a2 s) := by
  unfold execCollectiveResult
  repeat' first
    | with_reducible assumption
    | with_reducible exact Within.refl _ _
    | decide
    | with_reducible apply Within.step' (State.collRetry_within _ _ _)
    | with_reducible apply Within.step' (State.collResult_within _ _ _ _)
    | with_reducible apply Within.step' (State.collRefuse_within _ _ _)
    | with_reducible apply Within.step' (State.drainPacket_within _ _ _)
    | with_reducible refine OutIn.next ?_
    | with_reducible exact Holds.none
    | with_reducible refine Holds.some ?_
    | with_reducible refine Holds.map_state ?_ ?_
    | with_reducible refine Holds.map ?_
    | with_reducible refine Holds.bind ?_
    | with_reducible refine Within.getD ?_ ?_
    | with_reducible refine Within.ite ?_ ?_
    | with_reducible intro _
    | extract_lets
    | split
    | dsimp only

theorem execCollectiveTimeout_within (a1) (s : State) :
    OutIn [.out, .mem, .tiles, .mesh, .lp, .brd, .lnk, .fab, .hst, .que, .itl, .cry, .evt, .flog] s (execCollectiveTimeout a1 s) := by
  unfold execCollectiveTimeout
  repeat' first
    | with_reducible assumption
    | with_reducible exact Within.refl _ _
    | decide
    | with_reducible apply Within.step' (State.collFail_within _ _)
    | with_reducible refine OutIn.next ?_
    | with_reducible refine Within.ite ?_ ?_
    | with_reducible refine Within.ite_snd ?_ ?_
    | with_reducible intro _
    | split
    | dsimp only

theorem execFabricIngress_within (a1) (a2) (a3) (s : State) :
    OutIn [.out, .mem, .tiles, .mesh, .lp, .brd, .lnk, .fab, .hst, .que, .itl, .sched, .cry, .evt, .flog] s (execFabricIngress a1 a2 a3 s) := by
  unfold execFabricIngress
  repeat' first
    | with_reducible assumption
    | with_reducible exact Within.refl _ _
    | decide
    | with_reducible apply Within.step' (State.ingress_within _ _ _ _)
    | with_reducible refine OutIn.next ?_
    | split
    | dsimp only

theorem execDoorbell_within (a1) (a2) (a3) (a4) (a5) (a6) (a7) (s : State) :
    OutIn [.hst, .que] s (execDoorbell a1 a2 a3 a4 a5 a6 a7 s) := by
  unfold execDoorbell
  repeat' first
    | with_reducible assumption
    | with_reducible exact Within.refl _ _
    | decide
    | with_reducible apply Within.step' (State.doorbellWrite_within _ _ _ _ _ _ _ _)
    | with_reducible refine OutIn.next ?_
    | split
    | dsimp only

theorem execBar2Read_within (a1) (a2) (a3) (a4) (a5) (a6) (s : State) :
    OutIn [.out, .mesh, .hst, .evt, .flog] s (execBar2Read a1 a2 a3 a4 a5 a6 s) := by
  unfold execBar2Read
  repeat' first
    | with_reducible assumption
    | with_reducible exact Within.refl _ _
    | decide
    | with_reducible apply Within.step' (State.hostPump_within _ _)
    | with_reducible apply Within.step' (State.modHst_within _ _)
    | with_reducible apply Within.step' (State.emit_within _ _)
    | with_reducible apply Within.step' (State.bar2Refused_within _ _ _ _)
    | with_reducible apply Within.step' (State.hostRefused_within _ _ _)
    | with_reducible refine OutIn.next ?_
    | with_reducible refine Within.ite ?_ ?_
    | with_reducible intro _
    | extract_lets
    | split
    | dsimp only

theorem execBar2Write_within (a1) (a2) (a3) (a4) (a5) (s : State) :
    OutIn [.out, .mesh, .hst, .evt, .flog] s (execBar2Write a1 a2 a3 a4 a5 s) := by
  unfold execBar2Write
  repeat' first
    | with_reducible assumption
    | with_reducible exact Within.refl _ _
    | decide
    | with_reducible apply Within.step' (State.hostPump_within _ _)
    | with_reducible apply Within.step' (State.modHst_within _ _)
    | with_reducible apply Within.step' (State.bar2Refused_within _ _ _ _)
    | with_reducible apply Within.step' (State.hostRefused_within _ _ _)
    | with_reducible refine OutIn.next ?_
    | with_reducible refine Within.ite ?_ ?_
    | with_reducible intro _
    | extract_lets
    | split
    | dsimp only

theorem execFlr_within (a1) (a2) (s : State) :
    OutIn [.out, .mem, .tiles, .mesh, .lp, .xlt, .brd, .fab, .hst, .que, .itl, .sched, .cry, .evt, .flog] s (execFlr a1 a2 s) := by
  unfold execFlr
  repeat' first
    | with_reducible assumption
    | with_reducible exact Within.refl _ _
    | decide
    | with_reducible apply Within.step' (State.flr_within _ _ _)
    | with_reducible refine OutIn.next ?_
    | split
    | dsimp only

theorem execVfEnableClear_within (a1) (s : State) :
    OutIn [.out, .mem, .tiles, .mesh, .lp, .xlt, .brd, .fab, .hst, .que, .itl, .sched, .cry, .evt, .flog] s (execVfEnableClear a1 s) := by
  unfold execVfEnableClear
  repeat' first
    | with_reducible assumption
    | with_reducible exact Within.refl _ _
    | decide
    | with_reducible apply Within.step' (State.vfOff_within _ _)
    | with_reducible refine OutIn.next ?_
    | split
    | dsimp only

theorem execHstBar2WinWrite_within (a1) (a2) (a3) (a4) (s : State) :
    OutIn [.out, .hst, .evt, .flog] s (execHstBar2WinWrite a1 a2 a3 a4 s) := by
  unfold execHstBar2WinWrite
  repeat' first
    | with_reducible assumption
    | with_reducible exact Within.refl _ _
    | decide
    | with_reducible apply Within.step' (State.bar2WinWrite_within _ _ _ _ _)
    | with_reducible refine OutIn.next ?_
    | split
    | dsimp only

theorem execMsixTableWrite_within (a1) (a2) (a3) (a4) (a5) (s : State) :
    OutIn [.out, .hst, .evt, .flog] s (execMsixTableWrite a1 a2 a3 a4 a5 s) := by
  unfold execMsixTableWrite
  repeat' first
    | with_reducible assumption
    | with_reducible exact Within.refl _ _
    | decide
    | with_reducible apply Within.step' (State.msixWrite_within _ _ _ _ _ _)
    | with_reducible refine OutIn.next ?_
    | split
    | dsimp only

theorem execDlogRearm_within (a1) (a2) (a3) (s : State) :
    OutIn [.hst] s (execDlogRearm a1 a2 a3 s) := by
  unfold execDlogRearm
  repeat' first
    | with_reducible assumption
    | with_reducible exact Within.refl _ _
    | decide
    | with_reducible apply Within.step' (State.dlogCtrl_within _ _ _ _)
    | with_reducible refine OutIn.next ?_
    | split
    | dsimp only

theorem execDlogConsWrite_within (a1) (a2) (a3) (s : State) :
    OutIn [.hst] s (execDlogConsWrite a1 a2 a3 s) := by
  unfold execDlogConsWrite
  repeat' first
    | with_reducible assumption
    | with_reducible exact Within.refl _ _
    | decide
    | with_reducible apply Within.step' (State.dlogCons_within _ _ _ _)
    | with_reducible refine OutIn.next ?_
    | split
    | dsimp only

theorem execIdeKm_within (a1) (a2) (a3) (a4) (a5) (a6) (s : State) :
    OutIn [.out, .hst] s (execIdeKm a1 a2 a3 a4 a5 a6 s) := by
  unfold execIdeKm
  repeat' first
    | with_reducible assumption
    | with_reducible exact Within.refl _ _
    | decide
    | with_reducible apply State.each_within
    | with_reducible apply Within.step' (State.emit_within _ _)
    | with_reducible apply Within.step' (State.modFunc_within _ _ _ _)
    | with_reducible apply Within.step' (State.modHPort_within _ _ _)
    | with_reducible refine OutIn.next ?_
    | with_reducible refine Within.ite ?_ ?_
    | with_reducible refine Within.ite_snd ?_ ?_
    | with_reducible intro _
    | extract_lets
    | split
    | dsimp only

theorem execIdeIntegrityFailure_within (a1) (a2) (s : State) :
    OutIn [.out, .hst, .evt, .flog] s (execIdeIntegrityFailure a1 a2 s) := by
  unfold execIdeIntegrityFailure
  repeat' first
    | with_reducible assumption
    | with_reducible exact Within.refl _ _
    | decide
    | with_reducible apply Within.step' (State.tdiError_within _ _ _ _)
    | with_reducible apply Within.step' (State.pulse_within _ _)
    | with_reducible apply Within.step' (State.modFunc_within _ _ _ _)
    | with_reducible refine OutIn.next ?_
    | with_reducible intro _
    | extract_lets
    | split
    | dsimp only

theorem execLockInterface_within (a1) (a2) (s : State) :
    OutIn [.out, .hst] s (execLockInterface a1 a2 s) := by
  unfold execLockInterface
  repeat' first
    | with_reducible assumption
    | with_reducible exact Within.refl _ _
    | decide
    | with_reducible apply Within.step' (State.emit_within _ _)
    | with_reducible apply Within.step' (State.modFunc_within _ _ _ _)
    | with_reducible refine OutIn.next ?_
    | with_reducible refine Within.ite ?_ ?_
    | with_reducible intro _
    | extract_lets
    | split
    | dsimp only

theorem execStartInterface_within (a1) (a2) (s : State) :
    OutIn [.out, .hst] s (execStartInterface a1 a2 s) := by
  unfold execStartInterface
  repeat' first
    | with_reducible assumption
    | with_reducible exact Within.refl _ _
    | decide
    | with_reducible apply Within.step' (State.emit_within _ _)
    | with_reducible apply Within.step' (State.modFunc_within _ _ _ _)
    | with_reducible refine OutIn.next ?_
    | with_reducible refine Within.ite ?_ ?_
    | with_reducible refine Within.ite_snd ?_ ?_
    | with_reducible intro _
    | split
    | dsimp only

theorem execStopInterface_within (a1) (a2) (s : State) :
    OutIn [.out, .mem, .tiles, .mesh, .lp, .xlt, .brd, .fab, .hst, .que, .itl, .sched, .cry, .evt, .flog] s (execStopInterface a1 a2 s) := by
  unfold execStopInterface
  repeat' first
    | with_reducible assumption
    | with_reducible exact Within.refl _ _
    | decide
    | with_reducible apply Within.step' (State.emit_within _ _)
    | with_reducible apply Within.step' (State.flrOne_within _ _ _)
    | with_reducible refine OutIn.next ?_
    | split
    | dsimp only

theorem execHostCompletion_within (a1) (a2) (a3) (s : State) :
    OutIn [.out, .hst, .evt, .flog] s (execHostCompletion a1 a2 a3 s) := by
  unfold execHostCompletion
  repeat' first
    | with_reducible assumption
    | with_reducible exact Within.refl _ _
    | decide
    | with_reducible apply Within.step' (State.hostEnd_within _ _ _ _)
    | with_reducible apply Within.step' (State.translated_within _ _ _ _)
    | with_reducible refine OutIn.next ?_
    | split
    | dsimp only

theorem execHostCompletionTimeout_within (a1) (a2) (s : State) :
    OutIn [.out, .hst, .evt, .flog] s (execHostCompletionTimeout a1 a2 s) := by
  unfold execHostCompletionTimeout
  repeat' first
    | with_reducible assumption
    | with_reducible exact Within.refl _ _
    | decide
    | with_reducible apply Within.step' (State.hostEnd_within _ _ _ _)
    | with_reducible apply Within.step' (State.hostNext_within _)
    | with_reducible apply Within.step' (State.modHst_within _ _)
    | with_reducible refine OutIn.next ?_
    | with_reducible intro _
    | split
    | dsimp only

theorem execAtsInvalidation_within (a1) (a2) (a3) (a4) (a5) (a6) (s : State) :
    OutIn [.out, .hst] s (execAtsInvalidation a1 a2 a3 a4 a5 a6 s) := by
  unfold execAtsInvalidation
  repeat' first
    | with_reducible assumption
    | with_reducible exact Within.refl _ _
    | decide
    | with_reducible apply Within.step' (State.emit_within _ _)
    | with_reducible apply Within.step' (State.modHst_within _ _)
    | with_reducible refine OutIn.next ?_
    | with_reducible refine Within.ite ?_ ?_
    | with_reducible intro _
    | extract_lets
    | split
    | dsimp only

theorem execHostDlDown_within (a1) (s : State) :
    OutIn [.out, .hst, .evt, .flog] s (execHostDlDown a1 s) := by
  unfold execHostDlDown
  repeat' first
    | with_reducible assumption
    | with_reducible exact Within.refl _ _
    | decide
    | with_reducible apply Within.step' (State.dlDown_within _ _)
    | with_reducible refine OutIn.next ?_
    | split
    | dsimp only

theorem execHostHoldExpiry_within (a1) (s : State) :
    OutIn [.out, .mem, .tiles, .mesh, .lp, .xlt, .brd, .fab, .hst, .que, .itl, .sched, .cry, .evt, .flog] s (execHostHoldExpiry a1 s) := by
  unfold execHostHoldExpiry
  repeat' first
    | with_reducible assumption
    | with_reducible exact Within.refl _ _
    | decide
    | with_reducible apply Within.step' (State.holdEnds_within _ _)
    | with_reducible refine OutIn.next ?_
    | with_reducible refine Within.ite ?_ ?_
    | with_reducible refine Within.ite_snd ?_ ?_
    | with_reducible intro _
    | split
    | dsimp only

theorem execHostLinkUp_within (a1) (s : State) :
    OutIn [.out, .mem, .tiles, .mesh, .lp, .xlt, .brd, .fab, .hst, .que, .itl, .sched, .cry, .evt, .flog] s (execHostLinkUp a1 s) := by
  unfold execHostLinkUp
  repeat' first
    | with_reducible assumption
    | with_reducible exact Within.refl _ _
    | decide
    | with_reducible apply Within.step' (State.holdEnds_within _ _)
    | with_reducible refine OutIn.next ?_
    | split
    | dsimp only

theorem execHostLinkTrained_within (a1) (a2) (a3) (s : State) :
    OutIn [.hst] s (execHostLinkTrained a1 a2 a3 s) := by
  unfold execHostLinkTrained
  repeat' first
    | with_reducible assumption
    | with_reducible exact Within.refl _ _
    | decide
    | with_reducible apply Within.step' (State.modHPort_within _ _ _)
    | with_reducible refine OutIn.next ?_
    | with_reducible refine Within.ite ?_ ?_
    | with_reducible intro _
    | extract_lets
    | split
    | dsimp only

theorem execPerstAssert_within (a1) (s : State) :
    OutIn [.out, .hst, .evt, .flog] s (execPerstAssert a1 s) := by
  unfold execPerstAssert
  repeat' first
    | with_reducible assumption
    | with_reducible exact Within.refl _ _
    | decide
    | with_reducible apply Within.step' (State.modHPort_within _ _ _)
    | with_reducible apply Within.step' (State.configReset_within _ _)
    | with_reducible apply Within.step' (State.dlDown_within _ _)
    | with_reducible refine OutIn.next ?_
    | with_reducible intro _
    | split
    | dsimp only

theorem execPerstDeassert_within (a1) (s : State) :
    OutIn [.out, .mem, .tiles, .mesh, .lp, .xlt, .brd, .fab, .hst, .que, .itl, .sched, .cry, .evt, .flog] s (execPerstDeassert a1 s) := by
  unfold execPerstDeassert
  repeat' first
    | with_reducible assumption
    | with_reducible exact Within.refl _ _
    | decide
    | with_reducible apply Within.step' (State.modHPort_within _ _ _)
    | with_reducible apply Within.step' (State.holdEnds_within _ _)
    | with_reducible refine OutIn.next ?_
    | with_reducible refine Within.ite ?_ ?_
    | with_reducible intro _
    | extract_lets
    | split
    | dsimp only

theorem execConfigRequest_within (a1) (a2) (a3) (a4) (a5) (a6) (s : State) :
    OutIn [.out, .mem, .tiles, .mesh, .lp, .xlt, .brd, .fab, .hst, .que, .itl, .sched, .cry, .evt, .flog] s (execConfigRequest a1 a2 a3 a4 a5 a6 s) := by
  unfold execConfigRequest
  repeat' first
    | with_reducible assumption
    | with_reducible exact Within.refl _ _
    | decide
    | with_reducible apply Within.step' (State.emit_within _ _)
    | with_reducible apply Within.step' (State.configWrite_within _ _ _ _ _)
    | with_reducible refine OutIn.next ?_
    | with_reducible refine Within.ite ?_ ?_
    | with_reducible refine Within.ite_snd ?_ ?_
    | with_reducible intro _
    | split
    | dsimp only

theorem execCheckDelta_within (a1) (s : State) :
    OutIn [.out, .mem, .tiles, .mesh, .lp, .brd, .fab, .hst, .que, .itl, .sched, .cry, .evt, .flog] s (execCheckDelta a1 s) := by
  unfold execCheckDelta
  repeat' first
    | with_reducible assumption
    | with_reducible exact Within.refl _ _
    | decide
    | with_reducible apply Within.step' (State.serveAll_within _)
    | with_reducible apply Within.step' (State.checkDelta_within _ _)
    | with_reducible refine OutIn.next ?_
    | split
    | dsimp only

theorem execMeshRead_within (a1) (a2) (s : State) :
    OutIn [.out, .mem, .tiles, .mesh, .lp, .brd, .lnk, .fab, .hst, .que, .itl, .sched, .cry, .evt, .flog] s (execMeshRead a1 a2 s) := by
  unfold execMeshRead
  repeat' first
    | with_reducible assumption
    | with_reducible exact Within.refl _ _
    | decide
    | with_reducible apply Within.step' (State.arrive_within _ _ _ _)
    | with_reducible refine OutIn.next ?_
    | split
    | dsimp only

theorem execMeshWrite_within (a1) (a2) (s : State) :
    OutIn [.out, .mem, .tiles, .mesh, .lp, .brd, .lnk, .fab, .hst, .que, .itl, .sched, .cry, .evt, .flog] s (execMeshWrite a1 a2 s) := by
  unfold execMeshWrite
  repeat' first
    | with_reducible assumption
    | with_reducible exact Within.refl _ _
    | decide
    | with_reducible apply Within.step' (State.arrive_within _ _ _ _)
    | with_reducible refine OutIn.next ?_
    | split
    | dsimp only

theorem execMeshAtomic_within (a1) (a2) (a3) (s : State) :
    OutIn [.out, .mem, .tiles, .mesh, .lp, .brd, .lnk, .fab, .hst, .que, .itl, .sched, .cry, .evt, .flog] s (execMeshAtomic a1 a2 a3 s) := by
  unfold execMeshAtomic
  repeat' first
    | with_reducible assumption
    | with_reducible exact Within.refl _ _
    | decide
    | with_reducible apply Within.step' (State.arrive_within _ _ _ _)
    | with_reducible refine OutIn.next ?_
    | split
    | dsimp only

theorem execMeshUnknownType_within (a1) (s : State) :
    OutIn [.mesh] s (execMeshUnknownType a1 s) := by
  unfold execMeshUnknownType
  repeat' first
    | with_reducible assumption
    | with_reducible exact Within.refl _ _
    | decide
    | with_reducible apply Within.step' (State.modMesh_within _ _)
    | with_reducible refine OutIn.next ?_
    | with_reducible intro _
    | split
    | dsimp only

theorem execReadResponse_within (a1) (s : State) :
    OutIn [.out, .mem, .tiles, .mesh, .lp, .xlt, .brd, .lnk, .fab, .hst, .que, .itl, .rcv, .cry, .evt, .flog] s (execReadResponse a1 s) := by
  unfold execReadResponse
  repeat' first
    | with_reducible assumption
    | with_reducible exact Within.refl _ _
    | decide
    | with_reducible apply Within.step' (State.response_within _ _)
    | with_reducible refine OutIn.next ?_
    | split
    | dsimp only

theorem execWriteAcknowledgement_within (a1) (s : State) :
    OutIn [.out, .mem, .tiles, .mesh, .lp, .xlt, .brd, .lnk, .fab, .hst, .que, .itl, .rcv, .cry, .evt, .flog] s (execWriteAcknowledgement a1 s) := by
  unfold execWriteAcknowledgement
  repeat' first
    | with_reducible assumption
    | with_reducible exact Within.refl _ _
    | decide
    | with_reducible apply Within.step' (State.response_within _ _)
    | with_reducible refine OutIn.next ?_
    | split
    | dsimp only

theorem execAtomicResponse_within (a1) (s : State) :
    OutIn [.out, .mem, .tiles, .mesh, .lp, .xlt, .brd, .lnk, .fab, .hst, .que, .itl, .rcv, .cry, .evt, .flog] s (execAtomicResponse a1 s) := by
  unfold execAtomicResponse
  repeat' first
    | with_reducible assumption
    | with_reducible exact Within.refl _ _
    | decide
    | with_reducible apply Within.step' (State.response_within _ _)
    | with_reducible refine OutIn.next ?_
    | split
    | dsimp only

end Sys2Proof.Machine
end

