-- ==== Sys2Proof/Laws/WithinExecModule.lean ====
section
/-! SUPPORT. What the commands of composition, recovery, power and Itlum may touch. -/

set_option linter.unusedTactic false
set_option linter.unreachableTactic false
set_option linter.unusedVariables false

namespace Sys2Proof.Machine

theorem execTreeGenerationDone_within (s : State) :
    OutIn [.out, .brd, .hst, .rot, .evt, .flog] s (execTreeGenerationDone s) := by
  unfold execTreeGenerationDone
  repeat' first
    | with_reducible assumption
    | with_reducible exact Within.refl _ _
    | decide
    | with_reducible apply State.when_within
    | with_reducible apply Within.step' (State.signFinals_within _)
    | with_reducible apply Within.step' (State.takeLeaf_within _)
    | with_reducible apply Within.step' (State.modRot_within _ _)
    | with_reducible refine OutIn.next ?_
    | with_reducible refine Within.ite ?_ ?_
    | with_reducible refine Within.ite_snd ?_ ?_
    | with_reducible intro _
    | extract_lets
    | split
    | dsimp only

theorem execPairRebuildDone_within (a1) (s : State) :
    OutIn [.out, .mem, .lp, .hst, .que, .itl, .cry, .evt, .flog] s (execPairRebuildDone a1 s) := by
  unfold execPairRebuildDone
  repeat' first
    | with_reducible assumption
    | with_reducible exact Within.refl _ _
    | decide
    | with_reducible apply Within.step' (State.rebuildEnds_within _ _ _ _)
    | with_reducible refine OutIn.next ?_
    | with_reducible refine Within.ite ?_ ?_
    | with_reducible intro _
    | split
    | dsimp only

theorem execMoveCopyDone_within (a1) (s : State) :
    OutIn [.mem, .lp, .brd, .itl, .cry] s (execMoveCopyDone a1 s) := by
  unfold execMoveCopyDone
  repeat' first
    | with_reducible assumption
    | with_reducible exact Within.refl _ _
    | decide
    | with_reducible apply Within.step' (State.copyEnds_within _ _ _)
    | with_reducible refine OutIn.next ?_
    | with_reducible refine Within.ite ?_ ?_
    | with_reducible intro _
    | extract_lets
    | split
    | dsimp only

theorem execUnitClearDone_within (a1) (s : State) :
    OutIn [.out, .mem, .tiles, .mesh, .lp, .xlt, .brd, .fab, .hst, .que, .itl, .sched, .rcv, .rot, .cry, .evt, .flog] s (execUnitClearDone a1 s) := by
  unfold execUnitClearDone
  repeat' first
    | with_reducible assumption
    | with_reducible exact Within.refl _ _
    | decide
    | with_reducible apply Within.step' (State.settleSlot_within _ _)
    | with_reducible apply Within.step' (State.setFree_within _ _)
    | with_reducible apply Within.step' (State.clearRes_within _ _)
    | with_reducible refine OutIn.next ?_
    | with_reducible refine Within.ite ?_ ?_
    | with_reducible intro _
    | split
    | dsimp only

theorem execEpochFenceClose_within (a1) (s : State) :
    OutIn [.out, .mem, .tiles, .mesh, .lp, .xlt, .brd, .fab, .hst, .que, .itl, .sched, .rcv, .rot, .cry, .evt, .flog] s (execEpochFenceClose a1 s) := by
  unfold execEpochFenceClose
  repeat' first
    | with_reducible assumption
    | with_reducible exact Within.refl _ _
    | decide
    | with_reducible apply Within.step' (State.settleSlot_within _ _)
    | with_reducible apply Within.step' (State.fenceClose_within _ _)
    | with_reducible refine OutIn.next ?_
    | with_reducible refine Within.ite ?_ ?_
    | with_reducible intro _
    | extract_lets
    | split
    | dsimp only

theorem execFenceStallTimeout_within (a1) (s : State) :
    OutIn [.out, .mem, .tiles, .mesh, .lp, .xlt, .brd, .fab, .hst, .que, .itl, .rcv, .cry, .evt, .flog] s (execFenceStallTimeout a1 s) := by
  unfold execFenceStallTimeout
  repeat' first
    | with_reducible assumption
    | with_reducible exact Within.refl _ _
    | decide
    | with_reducible apply State.each_within
    | with_reducible apply Within.step' (State.purgeLost_within _ _ _ _ _ _)
    | with_reducible apply Within.step' (State.moduleRecords_within _ _ _ _)
    | with_reducible apply Within.step' (State.modFence_within _ _ _)
    | with_reducible refine OutIn.next ?_
    | with_reducible refine Within.ite ?_ ?_
    | with_reducible intro _
    | extract_lets
    | split
    | dsimp only

theorem execPairMoveDone_within (a1) (s : State) :
    OutIn [.out, .mem, .lp, .brd, .hst, .que, .itl, .cry, .evt, .flog] s (execPairMoveDone a1 s) := by
  unfold execPairMoveDone
  repeat' first
    | with_reducible assumption
    | with_reducible exact Within.refl _ _
    | decide
    | with_reducible apply Within.step' (State.opDone_within _ _ _ _ _ _ _)
    | with_reducible apply Within.step' (State.modMove_within _ _ _)
    | with_reducible apply Within.step' (State.spareUp_within _ _)
    | with_reducible apply Within.step' (State.setPairSt_within _ _ _)
    | with_reducible apply Within.step' (State.modPair_within _ _ _)
    | with_reducible apply Within.step' (State.clearPair_within _ _)
    | with_reducible refine OutIn.next ?_
    | with_reducible refine Within.ite ?_ ?_
    | with_reducible refine Within.ite_snd ?_ ?_
    | with_reducible intro _
    | extract_lets
    | split
    | dsimp only

theorem execLeaseExpiry_within (a1) (s : State) :
    OutIn [.out, .brd, .hst, .itl, .evt, .flog] s (execLeaseExpiry a1 s) := by
  unfold execLeaseExpiry
  repeat' first
    | with_reducible assumption
    | with_reducible exact Within.refl _ _
    | decide
    | with_reducible apply Within.step' (State.orphan_within _ _ _)
    | with_reducible refine OutIn.next ?_
    | with_reducible refine Within.ite ?_ ?_
    | with_reducible intro _
    | extract_lets
    | split
    | dsimp only

theorem execGraceExpiry_within (a1) (s : State) :
    OutIn [.out, .mem, .tiles, .mesh, .lp, .xlt, .brd, .fab, .hst, .que, .itl, .sched, .rcv, .cry, .evt, .flog] s (execGraceExpiry a1 s) := by
  unfold execGraceExpiry
  repeat' first
    | with_reducible assumption
    | with_reducible exact Within.refl _ _
    | decide
    | with_reducible apply Within.step' (State.graceEnds_within _ _)
    | with_reducible refine OutIn.next ?_
    | with_reducible refine Within.ite ?_ ?_
    | with_reducible intro _
    | extract_lets
    | split
    | dsimp only

theorem execHangSample_within (s : State) :
    OutIn [.out, .mem, .tiles, .mesh, .lp, .xlt, .brd, .fab, .hst, .que, .itl, .rcv, .cry, .evt, .flog] s (execHangSample s) := by
  unfold execHangSample
  repeat' first
    | with_reducible assumption
    | with_reducible exact Within.refl _ _
    | decide
    | with_reducible apply Within.step' (State.hangSample_within _)
    | with_reducible refine OutIn.next ?_
    | with_reducible refine Within.ite ?_ ?_
    | with_reducible refine Within.ite_snd ?_ ?_
    | with_reducible intro _
    | split
    | dsimp only

theorem execIsolationDrainTimeout_within (a1) (s : State) :
    OutIn [.out, .hst, .que, .itl, .rcv, .evt, .flog] s (execIsolationDrainTimeout a1 s) := by
  unfold execIsolationDrainTimeout
  repeat' first
    | with_reducible assumption
    | with_reducible exact Within.refl _ _
    | decide
    | with_reducible apply Within.step' (State.dueHalf_within _ _ _)
    | with_reducible apply Within.step' (State.endIsolation_within _ _ _ _)
    | with_reducible refine OutIn.next ?_
    | with_reducible refine Within.ite ?_ ?_
    | with_reducible intro _
    | split
    | dsimp only

theorem execUnresponsiveBlock_within (a1) (s : State) :
    OutIn [.rcv] s (execUnresponsiveBlock a1 s) := by
  unfold execUnresponsiveBlock
  repeat' first
    | with_reducible assumption
    | with_reducible exact Within.refl _ _
    | decide
    | with_reducible apply Within.step' (State.dueHalf_within _ _ _)
    | with_reducible refine OutIn.next ?_
    | split
    | dsimp only

theorem execHalfRecoveryStart_within (a1) (a2) (s : State) :
    OutIn [.out, .mem, .tiles, .lp, .hst, .que, .itl, .rcv, .evt, .flog] s (execHalfRecoveryStart a1 a2 s) := by
  unfold execHalfRecoveryStart
  repeat' first
    | with_reducible assumption
    | with_reducible exact Within.refl _ _
    | decide
    | with_reducible apply Within.step' (State.startHalf_within _ _ _ _)
    | with_reducible refine OutIn.next ?_
    | with_reducible refine Within.ite ?_ ?_
    | with_reducible intro _
    | split
    | dsimp only

theorem execHalfDrainTimeout_within (a1) (s : State) :
    OutIn [.out, .mem, .tiles, .mesh, .lp, .xlt, .brd, .lnk, .fab, .hst, .que, .itl, .rcv, .cry, .evt, .flog] s (execHalfDrainTimeout a1 s) := by
  unfold execHalfDrainTimeout
  repeat' first
    | with_reducible assumption
    | with_reducible exact Within.refl _ _
    | decide
    | with_reducible apply Within.step' (State.modRcv_within _ _)
    | with_reducible apply Within.step' (State.drained_within _ _)
    | with_reducible refine OutIn.next ?_
    | with_reducible refine Within.ite ?_ ?_
    | with_reducible refine Within.ite_snd ?_ ?_
    | with_reducible intro _
    | split
    | dsimp only

theorem execHalfRecoveryEnd_within (a1) (a2) (s : State) :
    OutIn [.out, .mem, .tiles, .mesh, .lp, .xlt, .brd, .fab, .hst, .que, .itl, .sched, .rcv, .cry, .evt, .flog] s (execHalfRecoveryEnd a1 a2 s) := by
  unfold execHalfRecoveryEnd
  repeat' first
    | with_reducible assumption
    | with_reducible exact Within.refl _ _
    | decide
    | with_reducible apply Within.step' (State.endModule_within _ _)
    | with_reducible apply Within.step' (State.endHalf_within _ _ _)
    | with_reducible refine OutIn.next ?_
    | with_reducible refine Within.ite ?_ ?_
    | with_reducible refine Within.ite_snd ?_ ?_
    | with_reducible intro _
    | split
    | dsimp only

theorem execModuleRecoveryStart_within (a1) (a2) (s : State) :
    OutIn [.out, .mem, .tiles, .lp, .hst, .que, .itl, .rcv, .evt, .flog] s (execModuleRecoveryStart a1 a2 s) := by
  unfold execModuleRecoveryStart
  repeat' first
    | with_reducible assumption
    | with_reducible exact Within.refl _ _
    | decide
    | with_reducible apply Within.step' (State.startModule_within _ _ _ _)
    | with_reducible apply Within.step' (State.modRcv_within _ _)
    | with_reducible refine OutIn.next ?_
    | with_reducible refine Within.ite ?_ ?_
    | with_reducible intro _
    | split
    | dsimp only

theorem execRecoveryTimeout_within (s : State) :
    OutIn [.out, .mem, .tiles, .mesh, .lp, .xlt, .brd, .fab, .hst, .que, .itl, .rcv, .cry, .evt, .flog] s (execRecoveryTimeout s) := by
  unfold execRecoveryTimeout
  repeat' first
    | with_reducible assumption
    | with_reducible exact Within.refl _ _
    | decide
    | with_reducible apply Within.step' (State.startModule_within _ _ _ _)
    | with_reducible apply Within.step' (State.modRcv_within _ _)
    | with_reducible apply Within.step' (State.recEnd_within _ _ _ _ _ _ _ _)
    | with_reducible apply Within.step' (State.halt_within _)
    | with_reducible apply Within.step' (State.dueModule_within _ _)
    | with_reducible refine OutIn.next ?_
    | with_reducible refine Within.ite ?_ ?_
    | with_reducible intro _
    | extract_lets
    | split
    | dsimp only

theorem execSeqReelEntryWrite_within (a1) (a2) (a3) (s : State) :
    OutIn [.sched] s (execSeqReelEntryWrite a1 a2 a3 s) := by
  unfold execSeqReelEntryWrite
  repeat' first
    | with_reducible assumption
    | with_reducible exact Within.refl _ _
    | decide
    | with_reducible apply Within.step' (State.reelWrite_within _ _ _ _)
    | with_reducible refine OutIn.next ?_
    | split
    | dsimp only

theorem execFillDelayExpiry_within (a1) (s : State) :
    OutIn [.out, .mem, .tiles, .mesh, .lp, .xlt, .brd, .fab, .hst, .que, .itl, .rcv, .cry, .evt, .flog] s (execFillDelayExpiry a1 s) := by
  unfold execFillDelayExpiry
  repeat' first
    | with_reducible assumption
    | with_reducible exact Within.refl _ _
    | decide
    | with_reducible apply Within.step' (State.choose_within _ _)
    | with_reducible refine OutIn.next ?_
    | with_reducible refine Within.ite ?_ ?_
    | with_reducible intro _
    | extract_lets
    | split
    | dsimp only

theorem execResidentSetStalled_within (a1) (s : State) :
    OutIn [.out, .hst, .itl, .sched, .evt, .flog] s (execResidentSetStalled a1 s) := by
  unfold execResidentSetStalled
  repeat' first
    | with_reducible assumption
    | with_reducible exact Within.refl _ _
    | decide
    | with_reducible apply Within.step' (State.pulse_within _ _)
    | with_reducible apply Within.step' (State.notifyCid_within _ _ _ _)
    | with_reducible apply Within.step' (State.modSched_within _ _)
    | with_reducible refine OutIn.next ?_
    | with_reducible refine Within.ite ?_ ?_
    | with_reducible intro _
    | extract_lets
    | split
    | dsimp only

theorem execPowerLoop_within (a1) (s : State) :
    OutIn [.out, .tiles, .hst, .itl, .pwr, .evt, .flog] s (execPowerLoop a1 s) := by
  unfold execPowerLoop
  repeat' first
    | with_reducible assumption
    | with_reducible exact Within.refl _ _
    | decide
    | with_reducible apply Within.step' (State.loopStep_within _ _)
    | with_reducible apply Within.step' (State.protect_within _ _)
    | with_reducible apply Within.step' (State.modItl_within _ _)
    | with_reducible apply Within.step' (State.modPwr_within _ _)
    | with_reducible refine OutIn.next ?_
    | with_reducible exact Holds.none
    | with_reducible refine Holds.some ?_
    | with_reducible refine Holds.map_state ?_ ?_
    | with_reducible refine Holds.map ?_
    | with_reducible refine Holds.bind ?_
    | with_reducible refine Within.getD ?_ ?_
    | with_reducible intro _
    | extract_lets
    | split
    | dsimp only

theorem execProtectionRelease_within (a1) (a2) (s : State) :
    OutIn [.out, .hst, .pwr, .evt, .flog] s (execProtectionRelease a1 a2 s) := by
  unfold execProtectionRelease
  repeat' first
    | with_reducible assumption
    | with_reducible exact Within.refl _ _
    | decide
    | with_reducible apply State.when_within
    | with_reducible apply Within.step' (State.giveBack_within _ _ _ _)
    | with_reducible refine OutIn.next ?_
    | with_reducible intro _
    | extract_lets
    | split
    | dsimp only

theorem execDrogueStepPoint_within (a1) (a2) (s : State) :
    OutIn [.out, .hst, .pwr, .evt, .flog] s (execDrogueStepPoint a1 a2 s) := by
  unfold execDrogueStepPoint
  repeat' first
    | with_reducible assumption
    | with_reducible exact Within.refl _ _
    | decide
    | with_reducible apply State.when_within
    | with_reducible apply Within.step' (State.modPwr_within _ _)
    | with_reducible apply Within.step' (State.emit_within _ _)
    | with_reducible apply Within.step' (State.pulse_within _ _)
    | with_reducible apply Within.step' (State.snapPower_within _)
    | with_reducible refine OutIn.next ?_
    | with_reducible refine Within.ite ?_ ?_
    | with_reducible refine Within.ite_snd ?_ ?_
    | with_reducible intro _
    | extract_lets
    | split
    | dsimp only

theorem execVoltageSettled_within (a1) (s : State) :
    OutIn [.out, .hst, .pwr, .evt, .flog] s (execVoltageSettled a1 s) := by
  unfold execVoltageSettled
  repeat' first
    | with_reducible assumption
    | with_reducible exact Within.refl _ _
    | decide
    | with_reducible apply Within.step' (State.setLimit_within _ _ _ _ _)
    | with_reducible apply Within.step' (State.modVolt_within _ _ _)
    | with_reducible refine OutIn.next ?_
    | with_reducible intro _
    | extract_lets
    | split
    | dsimp only

theorem execVoltageMarginAlarm_within (a1) (s : State) :
    OutIn [.out, .hst, .pwr, .evt, .flog] s (execVoltageMarginAlarm a1 s) := by
  unfold execVoltageMarginAlarm
  repeat' first
    | with_reducible assumption
    | with_reducible exact Within.refl _ _
    | decide
    | with_reducible apply Within.step' (State.pulse_within _ _)
    | with_reducible apply Within.step' (State.setLimit_within _ _ _ _ _)
    | with_reducible apply Within.step' (State.modVolt_within _ _ _)
    | with_reducible apply Within.step' (State.setTrim_within _ _ _)
    | with_reducible refine OutIn.next ?_
    | with_reducible refine Within.ite ?_ ?_
    | with_reducible refine Within.ite_snd ?_ ?_
    | with_reducible intro _
    | extract_lets
    | split
    | dsimp only

theorem execVoltageTrimDown_within (a1) (s : State) :
    OutIn [.pwr] s (execVoltageTrimDown a1 s) := by
  unfold execVoltageTrimDown
  repeat' first
    | with_reducible assumption
    | with_reducible exact Within.refl _ _
    | decide
    | with_reducible apply Within.step' (State.setTrim_within _ _ _)
    | with_reducible apply Within.step' (State.modVolt_within _ _ _)
    | with_reducible refine OutIn.next ?_
    | with_reducible refine Within.ite ?_ ?_
    | with_reducible intro _
    | extract_lets
    | split
    | dsimp only

theorem execSensorReading_within (a1) (a2) (s : State) :
    OutIn [.out, .mem, .tiles, .mesh, .lp, .xlt, .brd, .fab, .hst, .que, .itl, .pwr, .rcv, .cry, .evt, .flog, .boot] s (execSensorReading a1 a2 s) := by
  unfold execSensorReading
  try dsimp only
  repeat' first
    | with_reducible assumption
    | with_reducible exact Within.refl _ _
    | decide
    | with_reducible apply State.when_within
    | with_reducible apply Within.step' (State.trip_within _ _ _)
    | with_reducible apply Within.step' (State.setLimit_within _ _ _ _ _)
    | with_reducible apply Within.step' (State.modTile_within _ _ _)
    | with_reducible apply Within.step' (State.modPwr_within _ _)
    | with_reducible apply Within.step' (State.pulse_within _ _)
    | with_reducible refine OutIn.next ?_
    | with_reducible refine Within.ite ?_ ?_
    | with_reducible intro _
    | split
    | dsimp only

theorem execThermalThrottleStep_within (a1) (s : State) :
    OutIn [.out, .hst, .pwr, .evt, .flog] s (execThermalThrottleStep a1 s) := by
  unfold execThermalThrottleStep
  repeat' first
    | with_reducible assumption
    | with_reducible exact Within.refl _ _
    | decide
    | with_reducible apply Within.step' (State.setLimit_within _ _ _ _ _)
    | with_reducible refine OutIn.next ?_
    | with_reducible refine Within.ite ?_ ?_
    | with_reducible refine Within.ite_snd ?_ ?_
    | with_reducible intro _
    | split
    | dsimp only

theorem execThermalReleaseStep_within (a1) (s : State) :
    OutIn [.out, .hst, .pwr, .evt, .flog] s (execThermalReleaseStep a1 s) := by
  unfold execThermalReleaseStep
  repeat' first
    | with_reducible assumption
    | with_reducible exact Within.refl _ _
    | decide
    | with_reducible apply Within.step' (State.giveBack_within _ _ _ _)
    | with_reducible refine OutIn.next ?_
    | with_reducible refine Within.ite ?_ ?_
    | with_reducible refine Within.ite_snd ?_ ?_
    | with_reducible intro _
    | split
    | dsimp only

theorem execTripCooldown_within (s : State) :
    OutIn [.rcv, .boot] s (execTripCooldown s) := by
  unfold execTripCooldown
  repeat' first
    | with_reducible assumption
    | with_reducible exact Within.refl _ _
    | decide
    | with_reducible apply Within.step' (State.dueModule_within _ _)
    | with_reducible apply Within.step' (State.modBoot_within _ _)
    | with_reducible refine OutIn.next ?_
    | with_reducible refine Within.ite ?_ ?_
    | with_reducible refine Within.ite_snd ?_ ?_
    | with_reducible intro _
    | split
    | dsimp only

theorem execMailboxGo_within (a1) (a2) (s : State) :
    OutIn [.out, .hst, .itl] s (execMailboxGo a1 a2 s) := by
  unfold execMailboxGo
  repeat' first
    | with_reducible assumption
    | with_reducible exact Within.refl _ _
    | decide
    | with_reducible apply Within.step' (State.mailGo_within _ _ _)
    | with_reducible refine OutIn.next ?_
    | split
    | dsimp only

theorem execMailboxDiscard_within (a1) (a2) (s : State) :
    OutIn [.itl] s (execMailboxDiscard a1 a2 s) := by
  unfold execMailboxDiscard
  repeat' first
    | with_reducible assumption
    | with_reducible exact Within.refl _ _
    | decide
    | with_reducible apply Within.step' (State.mailDiscard_within _ _ _)
    | with_reducible refine OutIn.next ?_
    | split
    | dsimp only

theorem execItlNtfConsWrite_within (a1) (a2) (a3) (s : State) :
    OutIn [.hst] s (execItlNtfConsWrite a1 a2 a3 s) := by
  unfold execItlNtfConsWrite
  repeat' first
    | with_reducible assumption
    | with_reducible exact Within.refl _ _
    | decide
    | with_reducible apply Within.step' (State.mailCons_within _ _ _ _)
    | with_reducible refine OutIn.next ?_
    | split
    | dsimp only

theorem execMctpMessage_within (a1) (a2) (s : State) :
    OutIn [.out, .hst, .itl] s (execMctpMessage a1 a2 s) := by
  unfold execMctpMessage
  repeat' first
    | with_reducible assumption
    | with_reducible exact Within.refl _ _
    | decide
    | with_reducible apply Within.step' (State.offMailbox_within _ _ _)
    | with_reducible apply Within.step' (State.reject_within _ _ _ _)
    | with_reducible refine OutIn.next ?_
    | with_reducible refine Within.ite ?_ ?_
    | with_reducible intro _
    | extract_lets
    | split
    | dsimp only

theorem execPeerMessage_within (a1) (a2) (s : State) :
    OutIn [.out, .lnk, .hst, .itl] s (execPeerMessage a1 a2 s) := by
  unfold execPeerMessage
  repeat' first
    | with_reducible assumption
    | with_reducible exact Within.refl _ _
    | decide
    | with_reducible apply Within.step' (State.offMailbox_within _ _ _)
    | with_reducible apply Within.step' (State.modPort_within _ _ _)
    | with_reducible refine OutIn.next ?_
    | with_reducible intro _
    | split
    | dsimp only

theorem execSiteSessionMessage_within (a1) (s : State) :
    OutIn [.out, .hst, .itl] s (execSiteSessionMessage a1 s) := by
  unfold execSiteSessionMessage
  repeat' first
    | with_reducible assumption
    | with_reducible exact Within.refl _ _
    | decide
    | with_reducible apply Within.step' (State.offMailbox_within _ _ _)
    | with_reducible refine OutIn.next ?_
    | with_reducible refine Within.ite ?_ ?_
    | with_reducible refine Within.ite_snd ?_ ?_
    | with_reducible intro _
    | split
    | dsimp only

theorem execPartStagingTimeout_within (a1) (s : State) :
    OutIn [.itl] s (execPartStagingTimeout a1 s) := by
  unfold execPartStagingTimeout
  repeat' first
    | with_reducible assumption
    | with_reducible exact Within.refl _ _
    | decide
    | with_reducible apply Within.step' (State.modReq_within _ _ _)
    | with_reducible refine OutIn.next ?_
    | split
    | dsimp only

theorem execLeaseAcquire_within (a1) (s : State) :
    OutIn [.out, .brd, .hst, .itl] s (execLeaseAcquire a1 s) := by
  unfold execLeaseAcquire
  repeat' first
    | with_reducible assumption
    | with_reducible exact Within.refl _ _
    | decide
    | with_reducible apply State.command_within
    | with_reducible apply Within.step' (State.answer_within _ _ _)
    | with_reducible apply Within.step' (State.setLease_within _ _ _)
    | with_reducible apply Within.step' (State.fail_within _ _ _)
    | with_reducible refine OutIn.next ?_
    | with_reducible refine Within.ite ?_ ?_
    | with_reducible intro _
    | extract_lets
    | split
    | dsimp only

theorem execLeaseRenew_within (a1) (s : State) :
    OutIn [.out, .brd, .hst, .itl] s (execLeaseRenew a1 s) := by
  unfold execLeaseRenew
  repeat' first
    | with_reducible assumption
    | with_reducible exact Within.refl _ _
    | decide
    | with_reducible apply State.command_within
    | with_reducible apply Within.step' (State.answer_within _ _ _)
    | with_reducible apply Within.step' (State.setLease_within _ _ _)
    | with_reducible refine OutIn.next ?_
    | with_reducible intro _
    | extract_lets
    | split
    | dsimp only

theorem execLeaseTransfer_within (a1) (s : State) :
    OutIn [.out, .brd, .hst, .itl] s (execLeaseTransfer a1 s) := by
  unfold execLeaseTransfer
  repeat' first
    | with_reducible assumption
    | with_reducible exact Within.refl _ _
    | decide
    | with_reducible apply State.command_within
    | with_reducible apply Within.step' (State.answer_within _ _ _)
    | with_reducible apply Within.step' (State.setLease_within _ _ _)
    | with_reducible refine OutIn.next ?_
    | with_reducible intro _
    | extract_lets
    | split
    | dsimp only

theorem execLeaseRelease_within (a1) (s : State) :
    OutIn [.out, .brd, .hst, .itl, .evt, .flog] s (execLeaseRelease a1 s) := by
  unfold execLeaseRelease
  repeat' first
    | with_reducible assumption
    | with_reducible exact Within.refl _ _
    | decide
    | with_reducible apply State.command_within
    | with_reducible apply Within.step' (State.answer_within _ _ _)
    | with_reducible apply Within.step' (State.orphan_within _ _ _)
    | with_reducible apply Within.step' (State.leaseNone_within _ _)
    | with_reducible refine OutIn.next ?_
    | with_reducible refine Within.ite ?_ ?_
    | with_reducible refine Within.ite_snd ?_ ?_
    | with_reducible intro _
    | extract_lets
    | split
    | dsimp only

theorem execLeaseBreak_within (a1) (s : State) :
    OutIn [.out, .mem, .tiles, .mesh, .lp, .xlt, .brd, .fab, .hst, .que, .itl, .sched, .rcv, .cry, .evt, .flog] s (execLeaseBreak a1 s) := by
  unfold execLeaseBreak
  repeat' first
    | with_reducible assumption
    | with_reducible exact Within.refl _ _
    | decide
    | with_reducible apply State.command_within
    | with_reducible apply Within.step' (State.answer_within _ _ _)
    | with_reducible apply Within.step' (State.graceEnds_within _ _)
    | with_reducible apply Within.step' (State.orphan_within _ _ _)
    | with_reducible refine OutIn.next ?_
    | with_reducible intro _
    | extract_lets
    | split
    | dsimp only

theorem execLeaseQuery_within (a1) (s : State) :
    OutIn [.out, .hst, .itl] s (execLeaseQuery a1 s) := by
  unfold execLeaseQuery
  repeat' first
    | with_reducible assumption
    | with_reducible exact Within.refl _ _
    | decide
    | with_reducible apply State.command_within
    | with_reducible apply Within.step' (State.answer_within _ _ _)
    | with_reducible refine OutIn.next ?_
    | with_reducible intro _
    | split
    | dsimp only

theorem execLeaseGrace_within (a1) (s : State) :
    OutIn [.out, .mem, .tiles, .mesh, .lp, .xlt, .brd, .fab, .hst, .que, .itl, .sched, .rcv, .cry, .evt, .flog] s (execLeaseGrace a1 s) := by
  unfold execLeaseGrace
  repeat' first
    | with_reducible assumption
    | with_reducible exact Within.refl _ _
    | decide
    | with_reducible apply State.each_within
    | with_reducible apply State.command_within
    | with_reducible apply Within.step' (State.answer_within _ _ _)
    | with_reducible apply Within.step' (State.graceEnds_within _ _)
    | with_reducible apply Within.step' (State.modBrd_within _ _)
    | with_reducible refine OutIn.next ?_
    | with_reducible intro _
    | extract_lets
    | split
    | dsimp only

theorem execMeterRecord_within (a1) (s : State) :
    OutIn [.out, .brd, .hst, .itl, .rot, .evt, .flog] s (execMeterRecord a1 s) := by
  unfold execMeterRecord
  repeat' first
    | with_reducible assumption
    | with_reducible exact Within.refl _ _
    | decide
    | with_reducible apply State.command_within
    | with_reducible apply Within.step' (State.answer_within _ _ _)
    | with_reducible apply Within.step' (State.fail_within _ _ _)
    | with_reducible apply Holds.step2' (State.takeMeter_within _ _ _)
    | with_reducible refine Holds.map2_state (State.takeMeter_within _ _ _) ?_ ?_
    | with_reducible refine Within.step' (Holds.get2 (State.takeMeter_within _ _ _) (by assumption)) ?_ ?_
    | with_reducible refine OutIn.next ?_
    | with_reducible intro _
    | split
    | dsimp only

theorem execInventory_within (a1) (s : State) :
    OutIn [.out, .hst, .itl] s (execInventory a1 s) := by
  unfold execInventory
  repeat' first
    | with_reducible assumption
    | with_reducible exact Within.refl _ _
    | decide
    | with_reducible apply State.command_within
    | with_reducible apply Within.step' (State.answer_within _ _ _)
    | with_reducible refine OutIn.next ?_
    | with_reducible intro _
    | split
    | dsimp only

theorem execBridleQuery_within (a1) (s : State) :
    OutIn [.out, .hst, .itl] s (execBridleQuery a1 s) := by
  unfold execBridleQuery
  repeat' first
    | with_reducible assumption
    | with_reducible exact Within.refl _ _
    | decide
    | with_reducible apply State.command_within
    | with_reducible apply Within.step' (State.answer_within _ _ _)
    | with_reducible refine OutIn.next ?_
    | with_reducible intro _
    | split
    | dsimp only

theorem execTelemetry_within (a1) (s : State) :
    OutIn [.out, .hst, .itl] s (execTelemetry a1 s) := by
  unfold execTelemetry
  repeat' first
    | with_reducible assumption
    | with_reducible exact Within.refl _ _
    | decide
    | with_reducible apply State.command_within
    | with_reducible apply Within.step' (State.answer_within _ _ _)
    | with_reducible refine OutIn.next ?_
    | with_reducible intro _
    | split
    | dsimp only

theorem execBridleImage_within (a1) (s : State) :
    OutIn [.out, .tiles, .lp, .xlt, .brd, .fab, .hst, .itl] s (execBridleImage a1 s) := by
  unfold execBridleImage
  repeat' first
    | with_reducible assumption
    | with_reducible exact Within.refl _ _
    | decide
    | with_reducible apply State.imageCommand_within
    | with_reducible apply Within.step' (State.tryImage_within _ _ _ _)
    | with_reducible apply Within.step' (State.refuse_within _ _ _ _)
    | with_reducible apply Within.step' (State.fail_within _ _ _)
    | with_reducible refine OutIn.next ?_
    | with_reducible refine Within.ite ?_ ?_
    | with_reducible intro _
    | extract_lets
    | split
    | dsimp only

theorem execUnbind_within (a1) (s : State) :
    OutIn [.out, .tiles, .lp, .xlt, .brd, .fab, .hst, .itl] s (execUnbind a1 s) := by
  unfold execUnbind
  repeat' first
    | with_reducible assumption
    | with_reducible exact Within.refl _ _
    | decide
    | with_reducible apply State.imageCommand_within
    | with_reducible apply Within.step' (State.tryImage_within _ _ _ _)
    | with_reducible apply Within.step' (State.answer_within _ _ _)
    | with_reducible refine OutIn.next ?_
    | with_reducible intro _
    | split
    | dsimp only

theorem execSpareHold_within (a1) (s : State) :
    OutIn [.out, .lp, .brd, .hst, .itl] s (execSpareHold a1 s) := by
  unfold execSpareHold
  repeat' first
    | with_reducible assumption
    | with_reducible exact Within.refl _ _
    | decide
    | with_reducible apply State.command_within
    | with_reducible apply Within.step' (State.answer_within _ _ _)
    | with_reducible apply Within.step' (State.modBrd_within _ _)
    | with_reducible apply Within.step' (State.modPair_within _ _ _)
    | with_reducible apply Within.step' (State.refuse_within _ _ _ _)
    | with_reducible apply Within.step' (State.fail_within _ _ _)
    | with_reducible refine OutIn.next ?_
    | with_reducible refine Within.ite ?_ ?_
    | with_reducible intro _
    | extract_lets
    | split
    | dsimp only

theorem execSpareFree_within (a1) (s : State) :
    OutIn [.out, .lp, .hst, .que, .itl, .evt, .flog] s (execSpareFree a1 s) := by
  unfold execSpareFree
  repeat' first
    | with_reducible assumption
    | with_reducible exact Within.refl _ _
    | decide
    | with_reducible apply State.command_within
    | with_reducible apply Within.step' (State.answer_within _ _ _)
    | with_reducible apply Within.step' (State.setPairSt_within _ _ _)
    | with_reducible apply Within.step' (State.modPair_within _ _ _)
    | with_reducible apply Within.step' (State.refuse_within _ _ _ _)
    | with_reducible apply Within.step' (State.fail_within _ _ _)
    | with_reducible refine OutIn.next ?_
    | with_reducible refine Within.ite ?_ ?_
    | with_reducible intro _
    | extract_lets
    | split
    | dsimp only

theorem execPairMove_within (a1) (s : State) :
    OutIn [.out, .brd, .hst, .itl] s (execPairMove a1 s) := by
  unfold execPairMove
  repeat' first
    | with_reducible assumption
    | with_reducible exact Within.refl _ _
    | decide
    | with_reducible apply State.command_within
    | with_reducible apply Within.step' (State.refuse_within _ _ _ _)
    | with_reducible apply Within.step' (State.moveRefused_within _)
    | with_reducible apply Within.step' (State.accepted_within _ _ _)
    | with_reducible apply Holds.step' (State.moveStart_within _ _)
    | with_reducible refine Within.step' (Holds.get (State.moveStart_within _ _) (by assumption)) ?_ ?_
    | with_reducible apply Within.step' (State.modMove_within _ _ _)
    | with_reducible apply Within.step' (State.fail_within _ _ _)
    | with_reducible refine OutIn.next ?_
    | with_reducible refine Within.ite ?_ ?_
    | with_reducible intro _
    | extract_lets
    | split
    | dsimp only

theorem execCtxLoad_within (a1) (s : State) :
    OutIn [.out, .tiles, .hst, .que, .itl] s (execCtxLoad a1 s) := by
  unfold execCtxLoad
  repeat' first
    | with_reducible assumption
    | with_reducible exact Within.refl _ _
    | decide
    | with_reducible apply State.commitCommand_within
    | with_reducible apply Within.step' (State.commitLoad_within _ _ _ _ _)
    | with_reducible apply Within.step' (State.refuse_within _ _ _ _)
    | with_reducible apply Within.step' (State.fail_within _ _ _)
    | with_reducible refine OutIn.next ?_
    | with_reducible refine Within.ite ?_ ?_
    | with_reducible intro _
    | extract_lets
    | split
    | dsimp only

theorem execCtxEvict_within (a1) (s : State) :
    OutIn [.out, .mem, .tiles, .mesh, .lp, .xlt, .brd, .fab, .hst, .que, .itl, .cry, .evt, .flog] s (execCtxEvict a1 s) := by
  unfold execCtxEvict
  repeat' first
    | with_reducible assumption
    | with_reducible exact Within.refl _ _
    | decide
    | with_reducible apply State.command_within
    | with_reducible apply Within.step' (State.accepted_within _ _ _)
    | with_reducible apply Within.step' (State.purgeCtxWork_within _ _ _ _)
    | with_reducible apply Within.step' (State.refuse_within _ _ _ _)
    | with_reducible apply Within.step' (State.fail_within _ _ _)
    | with_reducible refine OutIn.next ?_
    | with_reducible refine Within.ite ?_ ?_
    | with_reducible intro _
    | extract_lets
    | split
    | dsimp only

theorem execCtxEvictDone_within (a1) (a2) (s : State) :
    OutIn [.out, .hst, .que, .itl, .sched] s (execCtxEvictDone a1 a2 s) := by
  unfold execCtxEvictDone
  repeat' first
    | with_reducible assumption
    | with_reducible exact Within.refl _ _
    | decide
    | with_reducible apply Within.step' (State.opDone_within _ _ _ _ _ _ _)
    | with_reducible apply Within.step' (State.endResidency_within _ _ _)
    | with_reducible refine OutIn.next ?_
    | with_reducible refine Within.ite ?_ ?_
    | with_reducible intro _
    | extract_lets
    | split
    | dsimp only

theorem execObjTable_within (a1) (s : State) :
    OutIn [.out, .hst, .itl] s (execObjTable a1 s) := by
  unfold execObjTable
  repeat' first
    | with_reducible assumption
    | with_reducible exact Within.refl _ _
    | decide
    | with_reducible apply State.command_within
    | with_reducible apply Within.step' (State.accepted_within _ _ _)
    | with_reducible apply Within.step' (State.refuse_within _ _ _ _)
    | with_reducible apply Within.step' (State.fail_within _ _ _)
    | with_reducible refine OutIn.next ?_
    | with_reducible refine Within.ite ?_ ?_
    | with_reducible intro _
    | extract_lets
    | split
    | dsimp only

theorem execObjTableDone_within (a1) (s : State) :
    OutIn [.out, .mem, .tiles, .mesh, .lp, .brd, .fab, .hst, .que, .itl, .cry, .evt, .flog] s (execObjTableDone a1 s) := by
  unfold execObjTableDone
  repeat' first
    | with_reducible assumption
    | with_reducible exact Within.refl _ _
    | decide
    | with_reducible apply State.each_within
    | with_reducible apply Within.step' (State.opDone_within _ _ _ _ _ _ _)
    | with_reducible apply Within.step' (State.modQue_within _ _)
    | with_reducible apply Within.step' (State.writeMpa_within _ _ _ _ _ _)
    | with_reducible refine Within.step' (Within.of_snd (State.writeMpa_within _ _ _ _ _ _) (by assumption)) ?_ ?_
    | with_reducible refine OutIn.next ?_
    | with_reducible refine Within.ite ?_ ?_
    | with_reducible intro _
    | extract_lets
    | split
    | dsimp only

theorem execQRegister_within (a1) (s : State) :
    OutIn [.out, .hst, .que, .itl] s (execQRegister a1 s) := by
  unfold execQRegister
  repeat' first
    | with_reducible assumption
    | with_reducible exact Within.refl _ _
    | decide
    | with_reducible apply State.commitCommand_within
    | with_reducible apply Within.step' (State.fail_within _ _ _)
    | with_reducible apply Within.step' (State.commitQue_within _ _ _ _)
    | with_reducible apply Within.step' (State.refuse_within _ _ _ _)
    | with_reducible refine OutIn.next ?_
    | with_reducible refine Within.ite ?_ ?_
    | with_reducible intro _
    | extract_lets
    | split
    | dsimp only

theorem execQUnregister_within (a1) (s : State) :
    OutIn [.out, .hst, .que, .itl] s (execQUnregister a1 s) := by
  unfold execQUnregister
  repeat' first
    | with_reducible assumption
    | with_reducible exact Within.refl _ _
    | decide
    | with_reducible apply State.commitCommand_within
    | with_reducible apply Within.step' (State.commitQue_within _ _ _ _)
    | with_reducible apply Within.step' (State.fail_within _ _ _)
    | with_reducible apply Within.step' (State.refuse_within _ _ _ _)
    | with_reducible refine OutIn.next ?_
    | with_reducible refine Within.ite ?_ ?_
    | with_reducible intro _
    | split
    | dsimp only

theorem execQResume_within (a1) (s : State) :
    OutIn [.out, .mem, .tiles, .mesh, .lp, .brd, .fab, .hst, .que, .itl, .cry, .evt, .flog] s (execQResume a1 s) := by
  unfold execQResume
  repeat' first
    | with_reducible assumption
    | with_reducible exact Within.refl _ _
    | decide
    | with_reducible apply State.command_within
    | with_reducible apply Within.step' (State.answer_within _ _ _)
    | with_reducible apply Within.step' (State.setQueue_within _ _ _)
    | with_reducible apply Within.step' (State.modQ_within _ _ _)
    | with_reducible apply Within.step' (State.refuse_within _ _ _ _)
    | with_reducible apply Within.step' (State.fail_within _ _ _)
    | with_reducible refine OutIn.next ?_
    | with_reducible refine Within.ite ?_ ?_
    | with_reducible intro _
    | extract_lets
    | split
    | dsimp only

theorem execFqSet_within (a1) (s : State) :
    OutIn [.out, .hst, .que, .itl] s (execFqSet a1 s) := by
  unfold execFqSet
  repeat' first
    | with_reducible assumption
    | with_reducible exact Within.refl _ _
    | decide
    | with_reducible apply State.commitCommand_within
    | with_reducible apply Within.step' (State.commitQue_within _ _ _ _)
    | with_reducible apply Within.step' (State.fail_within _ _ _)
    | with_reducible refine OutIn.next ?_
    | with_reducible intro _
    | extract_lets
    | split
    | dsimp only

theorem execFqStatus_within (a1) (s : State) :
    OutIn [.out, .hst, .itl] s (execFqStatus a1 s) := by
  unfold execFqStatus
  repeat' first
    | with_reducible assumption
    | with_reducible exact Within.refl _ _
    | decide
    | with_reducible apply State.command_within
    | with_reducible apply Within.step' (State.answer_within _ _ _)
    | with_reducible apply Within.step' (State.fail_within _ _ _)
    | with_reducible refine OutIn.next ?_
    | with_reducible intro _
    | extract_lets
    | split
    | dsimp only

theorem execModuleNumber_within (a1) (s : State) :
    OutIn [.out, .fab, .hst, .itl] s (execModuleNumber a1 s) := by
  unfold execModuleNumber
  repeat' first
    | with_reducible assumption
    | with_reducible exact Within.refl _ _
    | decide
    | with_reducible apply State.commitCommand_within
    | with_reducible apply Within.step' (State.commitFab_within _ _ _ _)
    | with_reducible apply Within.step' (State.fail_within _ _ _)
    | with_reducible refine OutIn.next ?_
    | with_reducible refine Within.ite ?_ ?_
    | with_reducible intro _
    | extract_lets
    | split
    | dsimp only

theorem execRouteSet_within (a1) (s : State) :
    OutIn [.out, .fab, .hst, .itl] s (execRouteSet a1 s) := by
  unfold execRouteSet
  repeat' first
    | with_reducible assumption
    | with_reducible exact Within.refl _ _
    | decide
    | with_reducible apply State.commitCommand_within
    | with_reducible apply Within.step' (State.commitFab_within _ _ _ _)
    | with_reducible apply Within.step' (State.fail_within _ _ _)
    | with_reducible refine OutIn.next ?_
    | with_reducible refine Within.foldl_snd ?_ ?_
    | with_reducible refine Within.ite ?_ ?_
    | with_reducible intro _
    | extract_lets
    | split
    | dsimp only

theorem execLinkExpect_within (a1) (s : State) :
    OutIn [.out, .lnk, .hst, .itl] s (execLinkExpect a1 s) := by
  unfold execLinkExpect
  repeat' first
    | with_reducible assumption
    | with_reducible exact Within.refl _ _
    | decide
    | with_reducible apply State.commitCommand_within
    | with_reducible apply Within.step' (State.hold_within _ _ _ _)
    | with_reducible apply Within.step' (State.modPort_within _ _ _)
    | with_reducible apply Within.step' (State.refuseBlock_within _ _ _ _ _)
    | with_reducible apply Within.step' (State.fail_within _ _ _)
    | with_reducible refine OutIn.next ?_
    | with_reducible refine Within.ite ?_ ?_
    | with_reducible intro _
    | extract_lets
    | split
    | dsimp only

theorem execFabTimeout_within (a1) (s : State) :
    OutIn [.out, .fab, .hst, .itl] s (execFabTimeout a1 s) := by
  unfold execFabTimeout
  repeat' first
    | with_reducible assumption
    | with_reducible exact Within.refl _ _
    | decide
    | with_reducible apply State.command_within
    | with_reducible apply Within.step' (State.answer_within _ _ _)
    | with_reducible apply Within.step' (State.modFab_within _ _)
    | with_reducible apply Within.step' (State.fail_within _ _ _)
    | with_reducible refine OutIn.next ?_
    | with_reducible refine Within.ite ?_ ?_
    | with_reducible intro _
    | extract_lets
    | split
    | dsimp only

theorem execWinSet_within (a1) (s : State) :
    OutIn [.out, .fab, .hst, .itl] s (execWinSet a1 s) := by
  unfold execWinSet
  repeat' first
    | with_reducible assumption
    | with_reducible exact Within.refl _ _
    | decide
    | with_reducible apply State.commitCommand_within
    | with_reducible apply Within.step' (State.commitFab_within _ _ _ _)
    | with_reducible apply Within.step' (State.fail_within _ _ _)
    | with_reducible apply Within.step' (State.refuse_within _ _ _ _)
    | with_reducible refine OutIn.next ?_
    | with_reducible refine Within.ite ?_ ?_
    | with_reducible intro _
    | extract_lets
    | split
    | dsimp only

theorem execWinClear_within (a1) (s : State) :
    OutIn [.out, .fab, .hst, .itl] s (execWinClear a1 s) := by
  unfold execWinClear
  repeat' first
    | with_reducible assumption
    | with_reducible exact Within.refl _ _
    | decide
    | with_reducible apply State.commitCommand_within
    | with_reducible apply Within.step' (State.commitFab_within _ _ _ _)
    | with_reducible apply Within.step' (State.fail_within _ _ _)
    | with_reducible apply Within.step' (State.refuse_within _ _ _ _)
    | with_reducible refine OutIn.next ?_
    | with_reducible refine Within.ite ?_ ?_
    | with_reducible intro _
    | split
    | dsimp only

theorem execWinInval_within (a1) (s : State) :
    OutIn [.out, .fab, .hst, .itl] s (execWinInval a1 s) := by
  unfold execWinInval
  repeat' first
    | with_reducible assumption
    | with_reducible exact Within.refl _ _
    | decide
    | with_reducible apply State.command_within
    | with_reducible apply Within.step' (State.modFab_within _ _)
    | with_reducible apply Within.step' (State.accepted_within _ _ _)
    | with_reducible apply Within.step' (State.winOld_within _ _ _)
    | with_reducible apply Within.step' (State.fail_within _ _ _)
    | with_reducible apply Within.step' (State.refuse_within _ _ _ _)
    | with_reducible refine OutIn.next ?_
    | with_reducible refine Within.ite ?_ ?_
    | with_reducible intro _
    | extract_lets
    | split
    | dsimp only

theorem execWindowDrainDone_within (a1) (s : State) :
    OutIn [.out, .fab, .hst, .itl] s (execWindowDrainDone a1 s) := by
  unfold execWindowDrainDone
  repeat' first
    | with_reducible assumption
    | with_reducible exact Within.refl _ _
    | decide
    | with_reducible apply State.each_within
    | with_reducible apply Within.step' (State.opDone_within _ _ _ _ _ _ _)
    | with_reducible apply Within.step' (State.answer_within _ _ _)
    | with_reducible apply Within.step' (State.modFab_within _ _)
    | with_reducible refine OutIn.next ?_
    | with_reducible refine Within.ite ?_ ?_
    | with_reducible intro _
    | extract_lets
    | split
    | dsimp only

theorem execCollSet_within (a1) (s : State) :
    OutIn [.out, .fab, .hst, .itl] s (execCollSet a1 s) := by
  unfold execCollSet
  repeat' first
    | with_reducible assumption
    | with_reducible exact Within.refl _ _
    | decide
    | with_reducible apply State.commitCommand_within
    | with_reducible apply Within.step' (State.commitFab_within _ _ _ _)
    | with_reducible apply Within.step' (State.fail_within _ _ _)
    | with_reducible refine OutIn.next ?_
    | with_reducible refine Within.ite ?_ ?_
    | with_reducible intro _
    | extract_lets
    | split
    | dsimp only

theorem execCollClear_within (a1) (s : State) :
    OutIn [.out, .fab, .hst, .itl] s (execCollClear a1 s) := by
  unfold execCollClear
  repeat' first
    | with_reducible assumption
    | with_reducible exact Within.refl _ _
    | decide
    | with_reducible apply State.commitCommand_within
    | with_reducible apply Within.step' (State.commitFab_within _ _ _ _)
    | with_reducible apply Within.step' (State.fail_within _ _ _)
    | with_reducible apply Within.step' (State.refuse_within _ _ _ _)
    | with_reducible refine OutIn.next ?_
    | with_reducible refine Within.ite ?_ ?_
    | with_reducible intro _
    | split
    | dsimp only

theorem execMemWrite_within (a1) (s : State) :
    OutIn [.out, .mem, .tiles, .mesh, .lp, .brd, .fab, .hst, .que, .itl, .cry, .evt, .flog] s (execMemWrite a1 s) := by
  unfold execMemWrite
  repeat' first
    | with_reducible assumption
    | with_reducible exact Within.refl _ _
    | decide
    | with_reducible apply State.command_within
    | with_reducible apply Within.step' (State.answer_within _ _ _)
    | with_reducible apply Within.step' (State.refuse_within _ _ _ _)
    | with_reducible apply Within.step' (State.writeLines_within _ _ _ _ _ _)
    | with_reducible refine Within.step' (Within.of_snd (State.writeLines_within _ _ _ _ _ _) (by assumption)) ?_ ?_
    | with_reducible apply Within.step' (State.refusedAt_within _ _ _)
    | with_reducible apply Within.step' (State.fail_within _ _ _)
    | with_reducible refine OutIn.next ?_
    | with_reducible refine Within.ite ?_ ?_
    | with_reducible intro _
    | extract_lets
    | split
    | dsimp only

theorem execMemRead_within (a1) (a2) (s : State) :
    OutIn [.out, .mem, .tiles, .mesh, .lp, .brd, .fab, .hst, .que, .itl, .cry, .evt, .flog] s (execMemRead a1 a2 s) := by
  unfold execMemRead
  repeat' first
    | with_reducible assumption
    | with_reducible exact Within.refl _ _
    | decide
    | with_reducible apply State.command_within
    | with_reducible apply Within.step' (State.answer_within _ _ _)
    | with_reducible apply Within.step' (State.refuse_within _ _ _ _)
    | with_reducible apply Within.step' (State.readLines_within _ _ _ _ _ _)
    | with_reducible refine Within.step' (Within.of_snd2 (State.readLines_within _ _ _ _ _ _) (by assumption)) ?_ ?_
    | with_reducible apply Within.step' (State.refusedAt_within _ _ _)
    | with_reducible apply Within.step' (State.fail_within _ _ _)
    | with_reducible refine OutIn.next ?_
    | with_reducible refine Within.ite ?_ ?_
    | with_reducible intro _
    | extract_lets
    | split
    | dsimp only

theorem execCadSet_within (a1) (s : State) :
    OutIn [.out, .hst, .itl, .cad] s (execCadSet a1 s) := by
  unfold execCadSet
  repeat' first
    | with_reducible assumption
    | with_reducible exact Within.refl _ _
    | decide
    | with_reducible apply State.commitCommand_within
    | with_reducible apply Within.step' (State.hold_within _ _ _ _)
    | with_reducible apply Within.step' (State.modCad_within _ _)
    | with_reducible apply Within.step' (State.refuseBlock_within _ _ _ _ _)
    | with_reducible apply Within.step' (State.fail_within _ _ _)
    | with_reducible refine OutIn.next ?_
    | with_reducible refine Within.ite ?_ ?_
    | with_reducible intro _
    | extract_lets
    | split
    | dsimp only

theorem execCadQuery_within (a1) (s : State) :
    OutIn [.out, .hst, .itl] s (execCadQuery a1 s) := by
  unfold execCadQuery
  repeat' first
    | with_reducible assumption
    | with_reducible exact Within.refl _ _
    | decide
    | with_reducible apply State.command_within
    | with_reducible apply Within.step' (State.answer_within _ _ _)
    | with_reducible refine OutIn.next ?_
    | with_reducible intro _
    | split
    | dsimp only

theorem execPwrSet_within (a1) (s : State) :
    OutIn [.out, .hst, .itl, .pwr] s (execPwrSet a1 s) := by
  unfold execPwrSet
  repeat' first
    | with_reducible assumption
    | with_reducible exact Within.refl _ _
    | decide
    | with_reducible apply State.commitCommand_within
    | with_reducible apply Within.step' (State.hold_within _ _ _ _)
    | with_reducible apply Within.step' (State.modPwr_within _ _)
    | with_reducible apply Within.step' (State.refuseBlock_within _ _ _ _ _)
    | with_reducible apply Within.step' (State.fail_within _ _ _)
    | with_reducible refine OutIn.next ?_
    | with_reducible refine Within.ite ?_ ?_
    | with_reducible intro _
    | extract_lets
    | split
    | dsimp only

theorem execPwrQuery_within (a1) (s : State) :
    OutIn [.out, .hst, .itl] s (execPwrQuery a1 s) := by
  unfold execPwrQuery
  repeat' first
    | with_reducible assumption
    | with_reducible exact Within.refl _ _
    | decide
    | with_reducible apply State.command_within
    | with_reducible apply Within.step' (State.respondParts_within _ _ _ _ _ _)
    | with_reducible refine OutIn.next ?_
    | with_reducible refine Within.ite ?_ ?_
    | with_reducible refine Within.ite_snd ?_ ?_
    | with_reducible intro _
    | extract_lets
    | split
    | dsimp only

theorem execRecoverPurge_within (a1) (s : State) :
    OutIn [.out, .mem, .tiles, .mesh, .lp, .xlt, .brd, .fab, .hst, .que, .itl, .rcv, .cry, .evt, .flog] s (execRecoverPurge a1 s) := by
  unfold execRecoverPurge
  repeat' first
    | with_reducible assumption
    | with_reducible exact Within.refl _ _
    | decide
    | with_reducible apply State.recoverCmd_within
    | with_reducible apply Within.step' (State.opDone_within _ _ _ _ _ _ _)
    | with_reducible apply Within.step' (State.accepted_within _ _ _)
    | with_reducible apply Within.step' (State.recoverCtx_within _ _ _)
    | with_reducible apply Within.step' (State.refuse_within _ _ _ _)
    | with_reducible refine OutIn.next ?_
    | with_reducible refine Within.ite ?_ ?_
    | with_reducible intro _
    | extract_lets
    | split
    | dsimp only

theorem execRecoverIsolate_within (a1) (s : State) :
    OutIn [.out, .tiles, .hst, .que, .itl, .rcv, .evt, .flog] s (execRecoverIsolate a1 s) := by
  unfold execRecoverIsolate
  repeat' first
    | with_reducible assumption
    | with_reducible exact Within.refl _ _
    | decide
    | with_reducible apply State.recoverCmd_within
    | with_reducible apply Within.step' (State.accepted_within _ _ _)
    | with_reducible apply Within.step' (State.isolate_within _ _ _)
    | with_reducible apply Within.step' (State.refuse_within _ _ _ _)
    | with_reducible refine OutIn.next ?_
    | with_reducible refine Within.ite ?_ ?_
    | with_reducible intro _
    | extract_lets
    | split
    | dsimp only

theorem execRecoverHalf_within (a1) (s : State) :
    OutIn [.out, .hst, .itl, .rcv] s (execRecoverHalf a1 s) := by
  unfold execRecoverHalf
  repeat' first
    | with_reducible assumption
    | with_reducible exact Within.refl _ _
    | decide
    | with_reducible apply State.recoverCmd_within
    | with_reducible apply Within.step' (State.accepted_within _ _ _)
    | with_reducible apply Within.step' (State.dueHalf_within _ _ _)
    | with_reducible apply Within.step' (State.refuse_within _ _ _ _)
    | with_reducible refine OutIn.next ?_
    | with_reducible refine Within.ite ?_ ?_
    | with_reducible intro _
    | extract_lets
    | split
    | dsimp only

theorem execRecoverModule_within (a1) (s : State) :
    OutIn [.out, .hst, .itl, .rcv] s (execRecoverModule a1 s) := by
  unfold execRecoverModule
  repeat' first
    | with_reducible assumption
    | with_reducible exact Within.refl _ _
    | decide
    | with_reducible apply State.recoverCmd_within
    | with_reducible apply Within.step' (State.accepted_within _ _ _)
    | with_reducible apply Within.step' (State.dueModule_within _ _)
    | with_reducible apply Within.step' (State.refuse_within _ _ _ _)
    | with_reducible refine OutIn.next ?_
    | with_reducible refine Within.ite ?_ ?_
    | with_reducible intro _
    | split
    | dsimp only

theorem execRecoverHangLimit_within (a1) (s : State) :
    OutIn [.out, .hst, .itl, .rcv] s (execRecoverHangLimit a1 s) := by
  unfold execRecoverHangLimit
  repeat' first
    | with_reducible assumption
    | with_reducible exact Within.refl _ _
    | decide
    | with_reducible apply State.recoverCmd_within
    | with_reducible apply Within.step' (State.opDone_within _ _ _ _ _ _ _)
    | with_reducible apply Within.step' (State.accepted_within _ _ _)
    | with_reducible apply Within.step' (State.modRcv_within _ _)
    | with_reducible refine OutIn.next ?_
    | with_reducible intro _
    | extract_lets
    | split
    | dsimp only

theorem execRecoveryQuery_within (a1) (s : State) :
    OutIn [.out, .hst, .itl] s (execRecoveryQuery a1 s) := by
  unfold execRecoveryQuery
  repeat' first
    | with_reducible assumption
    | with_reducible exact Within.refl _ _
    | decide
    | with_reducible apply State.command_within
    | with_reducible apply Within.step' (State.answer_within _ _ _)
    | with_reducible refine OutIn.next ?_
    | with_reducible intro _
    | split
    | dsimp only

end Sys2Proof.Machine
end

