-- ==== Sys2Proof/Laws/WithinExecService.lean ====
section
/-! SUPPORT. What the commands of the RTP, bring-up, firmware, events, the cadence and register writes may touch. -/

set_option linter.unusedTactic false
set_option linter.unreachableTactic false
set_option linter.unusedVariables false

namespace Sys2Proof.Machine

theorem execKeyWrite_within (a1) (s : State) :
    OutIn [.out, .mem, .tiles, .mesh, .lp, .brd, .lnk, .fab, .hst, .que, .itl, .sched, .rot, .cry, .evt, .flog] s (execKeyWrite a1 s) := by
  unfold execKeyWrite
  repeat' first
    | with_reducible assumption
    | with_reducible exact Within.refl _ _
    | decide
    | with_reducible apply State.secCmd_within
    | with_reducible apply Within.step' (State.secDone_within _ _)
    | with_reducible apply Within.step' (State.writeKey_within _ _ _ _)
    | with_reducible apply Within.step' (State.secRefuse_within _ _ _)
    | with_reducible apply Within.step' (State.fail_within _ _ _)
    | with_reducible refine OutIn.next ?_
    | with_reducible refine Within.ite ?_ ?_
    | with_reducible intro _
    | extract_lets
    | split
    | dsimp only

theorem execKeyErase_within (a1) (s : State) :
    OutIn [.out, .mem, .tiles, .mesh, .lp, .brd, .lnk, .fab, .hst, .que, .itl, .sched, .rot, .cry, .evt, .flog] s (execKeyErase a1 s) := by
  unfold execKeyErase
  repeat' first
    | with_reducible assumption
    | with_reducible exact Within.refl _ _
    | decide
    | with_reducible apply State.secCmd_within
    | with_reducible apply Within.step' (State.secDone_within _ _)
    | with_reducible apply Within.step' (State.eraseSlots_within _ _)
    | with_reducible apply Within.step' (State.secRefuse_within _ _ _)
    | with_reducible apply Within.step' (State.fail_within _ _ _)
    | with_reducible refine OutIn.next ?_
    | with_reducible refine Within.ite ?_ ?_
    | with_reducible refine Within.ite_snd ?_ ?_
    | with_reducible intro _
    | extract_lets
    | split
    | dsimp only

theorem execKeyStatus_within (a1) (a2) (s : State) :
    OutIn [.out, .hst, .itl, .rot, .evt, .flog] s (execKeyStatus a1 a2 s) := by
  unfold execKeyStatus
  repeat' first
    | with_reducible assumption
    | with_reducible exact Within.refl _ _
    | decide
    | with_reducible apply State.secCmd_within
    | with_reducible apply Within.step' (State.answer_within _ _ _)
    | with_reducible apply Within.step' (State.badSlots_within _ _)
    | with_reducible refine OutIn.next ?_
    | with_reducible intro _
    | extract_lets
    | split
    | dsimp only

theorem execLcTransition_within (a1) (a2) (a3) (s : State) :
    OutIn [.out, .mem, .tiles, .mesh, .lp, .brd, .lnk, .fab, .hst, .que, .itl, .sched, .rot, .cry, .evt, .flog] s (execLcTransition a1 a2 a3 s) := by
  unfold execLcTransition
  repeat' first
    | with_reducible assumption
    | with_reducible exact Within.refl _ _
    | decide
    | with_reducible apply State.secCmd_within
    | with_reducible apply Within.step' (State.secDone_within _ _)
    | with_reducible apply Within.step' (State.transit_within _ _ _)
    | with_reducible apply Within.step' (State.modRot_within _ _)
    | with_reducible apply Within.step' (State.draw_within _)
    | with_reducible refine Within.step' (Within.of_snd (State.draw_within _) (by assumption)) ?_ ?_
    | with_reducible apply Within.step' (State.eraseSlots_within _ _)
    | with_reducible apply Within.step' (State.secRefuse_within _ _ _)
    | with_reducible apply Holds.step' (State.tokenFails_within _ _ _ _)
    | with_reducible refine Within.step' (Holds.get (State.tokenFails_within _ _ _ _) (by assumption)) ?_ ?_
    | with_reducible refine OutIn.next ?_
    | with_reducible refine Within.ite ?_ ?_
    | with_reducible intro _
    | extract_lets
    | split
    | dsimp only

theorem execChallengeCmd_within (a1) (s : State) :
    OutIn [.out, .hst, .itl, .rot] s (execChallengeCmd a1 s) := by
  unfold execChallengeCmd
  repeat' first
    | with_reducible assumption
    | with_reducible exact Within.refl _ _
    | decide
    | with_reducible apply State.secCmd_within
    | with_reducible apply Within.step' (State.answer_within _ _ _)
    | with_reducible apply Within.step' (State.modRot_within _ _)
    | with_reducible apply Within.step' (State.draw_within _)
    | with_reducible refine Within.step' (Within.of_snd (State.draw_within _) (by assumption)) ?_ ?_
    | with_reducible refine OutIn.next ?_
    | with_reducible intro _
    | extract_lets
    | split
    | dsimp only

theorem execNonceExpiry_within (s : State) :
    OutIn [.rot] s (execNonceExpiry s) := by
  unfold execNonceExpiry
  repeat' first
    | with_reducible assumption
    | with_reducible exact Within.refl _ _
    | decide
    | with_reducible apply Within.step' (State.modRot_within _ _)
    | with_reducible refine OutIn.next ?_
    | with_reducible intro _
    | split
    | dsimp only

theorem execDebugOpen_within (a1) (a2) (s : State) :
    OutIn [.out, .mem, .tiles, .mesh, .lp, .brd, .lnk, .fab, .hst, .que, .itl, .sched, .rot, .cry, .evt, .flog] s (execDebugOpen a1 a2 s) := by
  unfold execDebugOpen
  repeat' first
    | with_reducible assumption
    | with_reducible exact Within.refl _ _
    | decide
    | with_reducible apply State.secCmd_within
    | with_reducible apply Within.step' (State.debugErase_within _)
    | with_reducible apply Within.step' (State.secRefuse_within _ _ _)
    | with_reducible apply Within.step' (State.secDone_within _ _)
    | with_reducible apply Within.step' (State.grant_within _ _ _ _)
    | with_reducible apply Holds.step' (State.tokenFails_within _ _ _ _)
    | with_reducible refine Within.step' (Holds.get (State.tokenFails_within _ _ _ _) (by assumption)) ?_ ?_
    | with_reducible apply Within.step' (State.fail_within _ _ _)
    | with_reducible refine OutIn.next ?_
    | with_reducible refine Within.ite ?_ ?_
    | with_reducible intro _
    | extract_lets
    | split
    | dsimp only

theorem execDebugGrantExpiry_within (s : State) :
    OutIn [.rot] s (execDebugGrantExpiry s) := by
  unfold execDebugGrantExpiry
  repeat' first
    | with_reducible assumption
    | with_reducible exact Within.refl _ _
    | decide
    | with_reducible apply Within.step' (State.modRot_within _ _)
    | with_reducible refine OutIn.next ?_
    | with_reducible refine Within.ite ?_ ?_
    | with_reducible intro _
    | extract_lets
    | split
    | dsimp only

theorem execRootRevoke_within (a1) (a2) (s : State) :
    OutIn [.out, .hst, .itl, .rot] s (execRootRevoke a1 a2 s) := by
  unfold execRootRevoke
  repeat' first
    | with_reducible assumption
    | with_reducible exact Within.refl _ _
    | decide
    | with_reducible apply State.secCmd_within
    | with_reducible apply Within.step' (State.secDone_within _ _)
    | with_reducible apply Within.step' (State.modRot_within _ _)
    | with_reducible apply Within.step' (State.secRefuse_within _ _ _)
    | with_reducible apply Holds.step' (State.tokenFails_within _ _ _ _)
    | with_reducible refine Within.step' (Holds.get (State.tokenFails_within _ _ _ _) (by assumption)) ?_ ?_
    | with_reducible refine OutIn.next ?_
    | with_reducible refine Within.ite ?_ ?_
    | with_reducible intro _
    | extract_lets
    | split
    | dsimp only

theorem execSiteRoot_within (a1) (s : State) :
    OutIn [.out, .hst, .itl, .rot] s (execSiteRoot a1 s) := by
  unfold execSiteRoot
  repeat' first
    | with_reducible assumption
    | with_reducible exact Within.refl _ _
    | decide
    | with_reducible apply State.secCmd_within
    | with_reducible apply Within.step' (State.secDone_within _ _)
    | with_reducible apply Within.step' (State.modRot_within _ _)
    | with_reducible apply Within.step' (State.secRefuse_within _ _ _)
    | with_reducible refine OutIn.next ?_
    | with_reducible refine Within.ite ?_ ?_
    | with_reducible intro _
    | extract_lets
    | split
    | dsimp only

theorem execGetVersion_within (a1) (s : State) :
    OutIn [.out, .rot] s (execGetVersion a1 s) := by
  unfold execGetVersion
  repeat' first
    | with_reducible assumption
    | with_reducible exact Within.refl _ _
    | decide
    | with_reducible apply State.spdm_within
    | with_reducible apply Within.step' (State.modRot_within _ _)
    | with_reducible apply Within.step' (State.setConn_within _ _)
    | with_reducible refine OutIn.next ?_
    | with_reducible intro _
    | extract_lets
    | split
    | dsimp only

theorem execGetCapabilities_within (a1) (s : State) :
    OutIn [.out, .rot] s (execGetCapabilities a1 s) := by
  unfold execGetCapabilities
  repeat' first
    | with_reducible assumption
    | with_reducible exact Within.refl _ _
    | decide
    | with_reducible apply Within.step' (State.negotiate_within _ _ _ _)
    | with_reducible refine OutIn.next ?_
    | split
    | dsimp only

theorem execNegotiateAlgorithms_within (a1) (s : State) :
    OutIn [.out, .rot] s (execNegotiateAlgorithms a1 s) := by
  unfold execNegotiateAlgorithms
  repeat' first
    | with_reducible assumption
    | with_reducible exact Within.refl _ _
    | decide
    | with_reducible apply Within.step' (State.negotiate_within _ _ _ _)
    | with_reducible refine OutIn.next ?_
    | split
    | dsimp only

theorem execGetDigests_within (a1) (s : State) :
    OutIn [.out] s (execGetDigests a1 s) := by
  unfold execGetDigests
  repeat' first
    | with_reducible assumption
    | with_reducible exact Within.refl _ _
    | decide
    | with_reducible apply State.spdm_within
    | with_reducible refine OutIn.next ?_
    | with_reducible refine Within.ite ?_ ?_
    | with_reducible intro _
    | split
    | dsimp only

theorem execGetCertificate_within (a1) (a2) (a3) (a4) (s : State) :
    OutIn [.out] s (execGetCertificate a1 a2 a3 a4 s) := by
  unfold execGetCertificate
  repeat' first
    | with_reducible assumption
    | with_reducible exact Within.refl _ _
    | decide
    | with_reducible apply State.spdm_within
    | with_reducible refine OutIn.next ?_
    | with_reducible refine Within.ite ?_ ?_
    | with_reducible intro _
    | extract_lets
    | split
    | dsimp only

theorem execSpdmChallenge_within (a1) (a2) (a3) (s : State) :
    OutIn [.out, .hst, .rot, .evt, .flog] s (execSpdmChallenge a1 a2 a3 s) := by
  unfold execSpdmChallenge
  repeat' first
    | with_reducible assumption
    | with_reducible exact Within.refl _ _
    | decide
    | with_reducible apply State.spdmSigned_within
    | with_reducible apply State.spdm_within
    | with_reducible refine OutIn.next ?_
    | with_reducible refine Within.ite ?_ ?_
    | with_reducible intro _
    | split
    | dsimp only

theorem execGetMeasurements_within (a1) (a2) (a3) (a4) (s : State) :
    OutIn [.out, .hst, .rot, .evt, .flog] s (execGetMeasurements a1 a2 a3 a4 s) := by
  unfold execGetMeasurements
  try dsimp only
  repeat' first
    | with_reducible assumption
    | with_reducible exact Within.refl _ _
    | decide
    | with_reducible apply State.spdmSigned_within
    | with_reducible apply State.spdm_within
    | with_reducible refine OutIn.next ?_
    | with_reducible refine Within.ite ?_ ?_
    | with_reducible intro _
    | split
    | dsimp only

theorem execVendorDefinedRequest_within (a1) (a2) (s : State) :
    OutIn [.out] s (execVendorDefinedRequest a1 a2 s) := by
  unfold execVendorDefinedRequest
  repeat' first
    | with_reducible assumption
    | with_reducible exact Within.refl _ _
    | decide
    | with_reducible apply State.spdm_within
    | with_reducible refine OutIn.next ?_
    | with_reducible intro _
    | split
    | dsimp only

theorem execKeyExchange_within (a1) (a2) (a3) (s : State) :
    OutIn [.out, .hst, .rot, .evt, .flog] s (execKeyExchange a1 a2 a3 s) := by
  unfold execKeyExchange
  repeat' first
    | with_reducible assumption
    | with_reducible exact Within.refl _ _
    | decide
    | with_reducible apply State.spdmSigned_within
    | with_reducible apply State.spdm_within
    | with_reducible apply Within.step' (State.modRot_within _ _)
    | with_reducible apply Within.step' (State.expireSessions_within _)
    | with_reducible refine OutIn.next ?_
    | with_reducible exact Holds.none
    | with_reducible refine Holds.some ?_
    | with_reducible refine Holds.map_state ?_ ?_
    | with_reducible refine Holds.map ?_
    | with_reducible refine Holds.bind ?_
    | with_reducible refine Within.getD ?_ ?_
    | with_reducible refine Within.ite ?_ ?_
    | with_reducible intro _
    | extract_lets
    | split
    | dsimp only

theorem execFinishMsg_within (a1) (a2) (a3) (a4) (s : State) :
    OutIn [.out, .rot] s (execFinishMsg a1 a2 a3 a4 s) := by
  unfold execFinishMsg
  repeat' first
    | with_reducible assumption
    | with_reducible exact Within.refl _ _
    | decide
    | with_reducible apply State.spdm_within
    | with_reducible apply Within.step' (State.modSession_within _ _ _ _)
    | with_reducible apply Within.step' (State.dropSession_within _ _ _)
    | with_reducible apply Within.step' (State.expireSessions_within _)
    | with_reducible refine OutIn.next ?_
    | with_reducible refine Within.ite ?_ ?_
    | with_reducible intro _
    | extract_lets
    | split
    | dsimp only

theorem execHeartbeat_within (a1) (a2) (s : State) :
    OutIn [.out, .rot] s (execHeartbeat a1 a2 s) := by
  unfold execHeartbeat
  repeat' first
    | with_reducible assumption
    | with_reducible exact Within.refl _ _
    | decide
    | with_reducible apply State.inSession_within
    | with_reducible apply Within.step' (State.modSession_within _ _ _ _)
    | with_reducible refine OutIn.next ?_
    | with_reducible intro _
    | extract_lets
    | split
    | dsimp only

theorem execKeyUpdate_within (a1) (a2) (s : State) :
    OutIn [.out, .rot] s (execKeyUpdate a1 a2 s) := by
  unfold execKeyUpdate
  repeat' first
    | with_reducible assumption
    | with_reducible exact Within.refl _ _
    | decide
    | with_reducible apply State.inSession_within
    | with_reducible apply Within.step' (State.modSession_within _ _ _ _)
    | with_reducible refine OutIn.next ?_
    | with_reducible intro _
    | split
    | dsimp only

theorem execEndSession_within (a1) (a2) (s : State) :
    OutIn [.out, .rot] s (execEndSession a1 a2 s) := by
  unfold execEndSession
  repeat' first
    | with_reducible assumption
    | with_reducible exact Within.refl _ _
    | decide
    | with_reducible apply State.inSession_within
    | with_reducible apply Within.step' (State.dropSession_within _ _ _)
    | with_reducible refine OutIn.next ?_
    | with_reducible intro _
    | split
    | dsimp only

theorem execInputValid_within (a1) (s : State) :
    OutIn [.out, .mem, .fresh, .lowHeld, .highLatch, .tiles, .cycles, .mesh, .lp, .xlt, .brd, .lnk, .fab, .hst, .que, .itl, .sched, .cad, .pwr, .rcv, .rot, .cry, .evt, .flog, .boot] s (execInputValid a1 s) := by
  unfold execInputValid
  repeat' first
    | with_reducible assumption
    | with_reducible exact Within.refl _ _
    | decide
    | with_reducible apply Within.step' (State.powerUp_within _ _)
    | with_reducible refine OutIn.next ?_
    | with_reducible refine Within.ite ?_ ?_
    | with_reducible refine Within.ite_snd ?_ ?_
    | with_reducible intro _
    | split
    | dsimp only

theorem execMrstRelease_within (a1) (a2) (s : State) :
    OutIn [.out, .mem, .fresh, .lowHeld, .highLatch, .tiles, .cycles, .mesh, .lp, .xlt, .brd, .lnk, .fab, .hst, .que, .itl, .sched, .cad, .pwr, .rcv, .rot, .cry, .evt, .flog, .boot] s (execMrstRelease a1 a2 s) := by
  unfold execMrstRelease
  repeat' first
    | with_reducible assumption
    | with_reducible exact Within.refl _ _
    | decide
    | with_reducible apply Within.step' (State.powerUp_within _ _)
    | with_reducible apply Within.step' (State.modBoot_within _ _)
    | with_reducible refine OutIn.next ?_
    | with_reducible refine Within.ite ?_ ?_
    | with_reducible refine Within.ite_snd ?_ ?_
    | with_reducible intro _
    | split
    | dsimp only

theorem execTileSelftestDone_within (a1) (a2) (a3) (s : State) :
    OutIn [.out, .mem, .tiles, .mesh, .lp, .xlt, .brd, .fab, .hst, .que, .itl, .rcv, .cry, .evt, .flog, .boot] s (execTileSelftestDone a1 a2 a3 s) := by
  unfold execTileSelftestDone
  repeat' first
    | with_reducible assumption
    | with_reducible exact Within.refl _ _
    | decide
    | with_reducible apply State.when_within
    | with_reducible apply Within.step' (State.testFail_within _ _)
    | with_reducible apply Within.step' (State.pumpTile_within _ _)
    | with_reducible apply Within.step' (State.modTile_within _ _ _)
    | with_reducible apply Within.step' (State.modTest_within _ _ _)
    | with_reducible refine OutIn.next ?_
    | with_reducible refine Within.ite ?_ ?_
    | with_reducible refine Within.ite_snd ?_ ?_
    | with_reducible intro _
    | extract_lets
    | split
    | dsimp only

theorem execNarrowSelftestHold_within (a1) (s : State) :
    OutIn [.tiles] s (execNarrowSelftestHold a1 s) := by
  unfold execNarrowSelftestHold
  repeat' first
    | with_reducible assumption
    | with_reducible exact Within.refl _ _
    | decide
    | with_reducible apply Within.step' (State.modTile_within _ _ _)
    | with_reducible refine OutIn.next ?_
    | with_reducible refine Within.ite ?_ ?_
    | with_reducible refine Within.ite_snd ?_ ?_
    | with_reducible intro _
    | split
    | dsimp only

theorem execPairTrainingDone_within (a1) (a2) (s : State) :
    OutIn [.out, .mem, .tiles, .mesh, .lp, .brd, .fab, .hst, .que, .itl, .sched, .cry, .evt, .flog] s (execPairTrainingDone a1 a2 s) := by
  unfold execPairTrainingDone
  repeat' first
    | with_reducible assumption
    | with_reducible exact Within.refl _ _
    | decide
    | with_reducible apply Within.step' (State.serveAll_within _)
    | with_reducible apply Within.step' (State.setPairSt_within _ _ _)
    | with_reducible refine OutIn.next ?_
    | with_reducible refine Within.ite ?_ ?_
    | with_reducible refine Within.ite_snd ?_ ?_
    | with_reducible intro _
    | split
    | dsimp only

theorem execPairTrainingTimeout_within (a1) (s : State) :
    OutIn [.out, .mem, .tiles, .mesh, .lp, .brd, .fab, .hst, .que, .itl, .sched, .cry, .evt, .flog] s (execPairTrainingTimeout a1 s) := by
  unfold execPairTrainingTimeout
  repeat' first
    | with_reducible assumption
    | with_reducible exact Within.refl _ _
    | decide
    | with_reducible apply Within.step' (State.serveAll_within _)
    | with_reducible apply Within.step' (State.pairFailed_within _ _)
    | with_reducible refine OutIn.next ?_
    | with_reducible refine Within.ite ?_ ?_
    | with_reducible refine Within.ite_snd ?_ ?_
    | with_reducible intro _
    | split
    | dsimp only

theorem execEarlyServiceEntry_within (s : State) :
    OutIn [.out, .tiles, .lp, .brd, .fab, .hst, .itl, .evt, .flog, .boot] s (execEarlyServiceEntry s) := by
  unfold execEarlyServiceEntry
  repeat' first
    | with_reducible assumption
    | with_reducible exact Within.refl _ _
    | decide
    | with_reducible apply Within.step' (State.regaugeTiles_within _)
    | with_reducible apply Within.step' (State.ungateHalf_within _ _)
    | with_reducible apply Within.step' (State.modBoot_within _ _)
    | with_reducible refine OutIn.next ?_
    | with_reducible refine Within.ite ?_ ?_
    | with_reducible refine Within.ite_snd ?_ ?_
    | with_reducible intro _
    | extract_lets
    | split
    | dsimp only

theorem execSecondHalfUngate_within (s : State) :
    OutIn [.tiles] s (execSecondHalfUngate s) := by
  unfold execSecondHalfUngate
  repeat' first
    | with_reducible assumption
    | with_reducible exact Within.refl _ _
    | decide
    | with_reducible apply Within.step' (State.ungateHalf_within _ _)
    | with_reducible refine OutIn.next ?_
    | with_reducible refine Within.ite ?_ ?_
    | with_reducible refine Within.ite_snd ?_ ?_
    | with_reducible intro _
    | split
    | dsimp only

theorem execFullServiceCommit_within (s : State) :
    OutIn [.out, .tiles, .lp, .brd, .fab, .hst, .itl, .pwr, .evt, .flog, .boot] s (execFullServiceCommit s) := by
  unfold execFullServiceCommit
  repeat' first
    | with_reducible assumption
    | with_reducible exact Within.refl _ _
    | decide
    | with_reducible apply State.each_within
    | with_reducible apply Within.step' (State.regaugeTiles_within _)
    | with_reducible apply Within.step' (State.modPwr_within _ _)
    | with_reducible apply Within.step' (State.modTile_within _ _ _)
    | with_reducible apply Within.step' (State.modBoot_within _ _)
    | with_reducible refine OutIn.next ?_
    | with_reducible refine Within.ite ?_ ?_
    | with_reducible refine Within.ite_snd ?_ ?_
    | with_reducible intro _
    | extract_lets
    | split
    | dsimp only

theorem execBringupTimeout_within (s : State) :
    OutIn [.rcv] s (execBringupTimeout s) := by
  unfold execBringupTimeout
  repeat' first
    | with_reducible assumption
    | with_reducible exact Within.refl _ _
    | decide
    | with_reducible apply Within.step' (State.dueModule_within _ _)
    | with_reducible apply Within.step' (State.modRcv_within _ _)
    | with_reducible refine OutIn.next ?_
    | with_reducible refine Within.ite ?_ ?_
    | with_reducible refine Within.ite_snd ?_ ?_
    | with_reducible intro _
    | split
    | dsimp only

theorem execInputFault_within (a1) (s : State) :
    OutIn [.out, .mem, .fresh, .lowHeld, .highLatch, .tiles, .cycles, .mesh, .lp, .xlt, .brd, .lnk, .fab, .hst, .que, .itl, .sched, .cad, .pwr, .rcv, .rot, .cry, .evt, .flog, .boot] s (execInputFault a1 s) := by
  unfold execInputFault
  repeat' first
    | with_reducible assumption
    | with_reducible exact Within.refl _ _
    | decide
    | with_reducible apply Within.step' (State.modBoot_within _ _)
    | with_reducible apply Within.step' (State.trip_within _ _ _)
    | with_reducible apply Within.step' (State.dark_within _)
    | with_reducible refine OutIn.next ?_
    | with_reducible refine Within.ite ?_ ?_
    | with_reducible refine Within.ite_snd ?_ ?_
    | with_reducible intro _
    | split
    | dsimp only

theorem execInputRestored_within (s : State) :
    OutIn [.rcv, .boot] s (execInputRestored s) := by
  unfold execInputRestored
  repeat' first
    | with_reducible assumption
    | with_reducible exact Within.refl _ _
    | decide
    | with_reducible apply Within.step' (State.dueModule_within _ _)
    | with_reducible apply Within.step' (State.modBoot_within _ _)
    | with_reducible refine OutIn.next ?_
    | with_reducible refine Within.ite ?_ ?_
    | with_reducible refine Within.ite_snd ?_ ?_
    | with_reducible intro _
    | split
    | dsimp only

theorem execMateNOpen_within (s : State) :
    OutIn [.out, .mem, .fresh, .lowHeld, .highLatch, .tiles, .cycles, .mesh, .lp, .xlt, .brd, .lnk, .fab, .hst, .que, .itl, .sched, .cad, .pwr, .rcv, .rot, .cry, .evt, .flog, .boot] s (execMateNOpen s) := by
  unfold execMateNOpen
  repeat' first
    | with_reducible assumption
    | with_reducible exact Within.refl _ _
    | decide
    | with_reducible apply Within.step' (State.modBoot_within _ _)
    | with_reducible apply Within.step' (State.dark_within _)
    | with_reducible refine OutIn.next ?_
    | with_reducible intro _
    | split
    | dsimp only

theorem execSmbusTimeout_within (s : State) :
    OutIn [.boot] s (execSmbusTimeout s) := by
  unfold execSmbusTimeout
  repeat' first
    | with_reducible assumption
    | with_reducible exact Within.refl _ _
    | decide
    | with_reducible apply Within.step' (State.modBoot_within _ _)
    | with_reducible refine OutIn.next ?_
    | with_reducible refine Within.ite ?_ ?_
    | with_reducible refine Within.ite_snd ?_ ?_
    | with_reducible intro _
    | split
    | dsimp only

theorem execSmbusIdleResume_within (s : State) :
    OutIn [.boot] s (execSmbusIdleResume s) := by
  unfold execSmbusIdleResume
  repeat' first
    | with_reducible assumption
    | with_reducible exact Within.refl _ _
    | decide
    | with_reducible apply Within.step' (State.modBoot_within _ _)
    | with_reducible refine OutIn.next ?_
    | with_reducible intro _
    | split
    | dsimp only

theorem execFwBegin_within (a1) (s : State) :
    OutIn [.out, .hst, .itl] s (execFwBegin a1 s) := by
  unfold execFwBegin
  repeat' first
    | with_reducible assumption
    | with_reducible exact Within.refl _ _
    | decide
    | with_reducible apply State.command_within
    | with_reducible apply Within.step' (State.respond_within _ _ _ _ _ _)
    | with_reducible apply Within.step' (State.modItl_within _ _)
    | with_reducible apply Within.step' (State.modFwBank_within _ _ _)
    | with_reducible apply Within.step' (State.fail_within _ _ _)
    | with_reducible refine OutIn.next ?_
    | with_reducible refine Within.ite ?_ ?_
    | with_reducible intro _
    | extract_lets
    | split
    | dsimp only

theorem execFwWrite_within (a1) (s : State) :
    OutIn [.out, .hst, .itl] s (execFwWrite a1 s) := by
  unfold execFwWrite
  repeat' first
    | with_reducible assumption
    | with_reducible exact Within.refl _ _
    | decide
    | with_reducible apply State.command_within
    | with_reducible apply Within.step' (State.answer_within _ _ _)
    | with_reducible apply Within.step' (State.modFwBank_within _ _ _)
    | with_reducible apply Within.step' (State.fail_within _ _ _)
    | with_reducible apply Within.step' (State.refuse_within _ _ _ _)
    | with_reducible refine OutIn.next ?_
    | with_reducible refine Within.foldl_snd ?_ ?_
    | with_reducible refine Within.ite ?_ ?_
    | with_reducible intro _
    | extract_lets
    | split
    | dsimp only

theorem execFwVerify_within (a1) (s : State) :
    OutIn [.out, .hst, .itl] s (execFwVerify a1 s) := by
  unfold execFwVerify
  repeat' first
    | with_reducible assumption
    | with_reducible exact Within.refl _ _
    | decide
    | with_reducible apply State.command_within
    | with_reducible apply Within.step' (State.accepted_within _ _ _)
    | with_reducible apply Within.step' (State.modItl_within _ _)
    | with_reducible apply Within.step' (State.refuse_within _ _ _ _)
    | with_reducible apply Within.step' (State.fail_within _ _ _)
    | with_reducible refine OutIn.next ?_
    | with_reducible refine Within.ite ?_ ?_
    | with_reducible intro _
    | split
    | dsimp only

theorem execFwVerifyDone_within (a1) (s : State) :
    OutIn [.out, .hst, .itl] s (execFwVerifyDone a1 s) := by
  unfold execFwVerifyDone
  repeat' first
    | with_reducible assumption
    | with_reducible exact Within.refl _ _
    | decide
    | with_reducible apply Within.step' (State.opDone_within _ _ _ _ _ _ _)
    | with_reducible apply Within.step' (State.modItl_within _ _)
    | with_reducible apply Within.step' (State.modFwBank_within _ _ _)
    | with_reducible refine OutIn.next ?_
    | with_reducible refine Within.ite ?_ ?_
    | with_reducible refine Within.ite_snd ?_ ?_
    | with_reducible intro _
    | extract_lets
    | split
    | dsimp only

theorem execFwActivate_within (a1) (s : State) :
    OutIn [.out, .mem, .fresh, .lowHeld, .highLatch, .tiles, .cycles, .mesh, .lp, .xlt, .brd, .lnk, .fab, .hst, .que, .itl, .sched, .cad, .pwr, .rcv, .rot, .cry, .evt, .flog, .boot] s (execFwActivate a1 s) := by
  unfold execFwActivate
  repeat' first
    | with_reducible assumption
    | with_reducible exact Within.refl _ _
    | decide
    | with_reducible apply State.command_within
    | with_reducible apply Within.step' (State.fwStart_within _ _)
    | with_reducible apply Within.step' (State.loaderActivate_within _ _)
    | with_reducible apply Within.step' (State.refuse_within _ _ _ _)
    | with_reducible apply Within.step' (State.fail_within _ _ _)
    | with_reducible refine OutIn.next ?_
    | with_reducible refine Within.ite ?_ ?_
    | with_reducible refine Within.ite_snd ?_ ?_
    | with_reducible intro _
    | split
    | dsimp only

theorem execFwActivateDone_within (s : State) :
    OutIn [.out, .hst, .itl, .rot, .evt, .flog] s (execFwActivateDone s) := by
  unfold execFwActivateDone
  repeat' first
    | with_reducible assumption
    | with_reducible exact Within.refl _ _
    | decide
    | with_reducible apply Within.step' (State.opDone_within _ _ _ _ _ _ _)
    | with_reducible apply Within.step' (State.fwRecord_within _ _ _)
    | with_reducible apply Within.step' (State.fwServe_within _ _ _)
    | with_reducible refine OutIn.next ?_
    | with_reducible refine Within.ite ?_ ?_
    | with_reducible refine Within.ite_snd ?_ ?_
    | with_reducible intro _
    | extract_lets
    | split
    | dsimp only

theorem execFwActivateTimeout_within (s : State) :
    OutIn [.out, .hst, .itl, .rot, .evt, .flog] s (execFwActivateTimeout s) := by
  unfold execFwActivateTimeout
  repeat' first
    | with_reducible assumption
    | with_reducible exact Within.refl _ _
    | decide
    | with_reducible apply Within.step' (State.opDone_within _ _ _ _ _ _ _)
    | with_reducible apply Within.step' (State.fwRecord_within _ _ _)
    | with_reducible apply Within.step' (State.fwServe_within _ _ _)
    | with_reducible refine OutIn.next ?_
    | with_reducible refine Within.ite ?_ ?_
    | with_reducible refine Within.ite_snd ?_ ?_
    | with_reducible intro _
    | extract_lets
    | split
    | dsimp only

theorem execFwConfirm_within (a1) (s : State) :
    OutIn [.out, .hst, .itl, .rot, .evt, .flog, .boot] s (execFwConfirm a1 s) := by
  unfold execFwConfirm
  repeat' first
    | with_reducible assumption
    | with_reducible exact Within.refl _ _
    | decide
    | with_reducible apply State.command_within
    | with_reducible apply Within.step' (State.answer_within _ _ _)
    | with_reducible apply Within.step' (State.fwConfirm_within _)
    | with_reducible apply Within.step' (State.refuse_within _ _ _ _)
    | with_reducible apply Within.step' (State.fail_within _ _ _)
    | with_reducible refine OutIn.next ?_
    | with_reducible refine Within.ite ?_ ?_
    | with_reducible intro _
    | split
    | dsimp only

theorem execFwRevert_within (a1) (s : State) :
    OutIn [.out, .hst, .itl] s (execFwRevert a1 s) := by
  unfold execFwRevert
  repeat' first
    | with_reducible assumption
    | with_reducible exact Within.refl _ _
    | decide
    | with_reducible apply State.command_within
    | with_reducible apply Within.step' (State.fwStart_within _ _)
    | with_reducible apply Within.step' (State.refuse_within _ _ _ _)
    | with_reducible apply Within.step' (State.fail_within _ _ _)
    | with_reducible refine OutIn.next ?_
    | with_reducible refine Within.ite ?_ ?_
    | with_reducible refine Within.ite_snd ?_ ?_
    | with_reducible intro _
    | split
    | dsimp only

theorem execFwQuery_within (a1) (s : State) :
    OutIn [.out, .hst, .itl] s (execFwQuery a1 s) := by
  unfold execFwQuery
  repeat' first
    | with_reducible assumption
    | with_reducible exact Within.refl _ _
    | decide
    | with_reducible apply State.command_within
    | with_reducible apply Within.step' (State.answer_within _ _ _)
    | with_reducible refine OutIn.next ?_
    | with_reducible intro _
    | split
    | dsimp only

theorem execTrialConfirm_within (s : State) :
    OutIn [.out, .hst, .itl, .rot, .evt, .flog, .boot] s (execTrialConfirm s) := by
  unfold execTrialConfirm
  repeat' first
    | with_reducible assumption
    | with_reducible exact Within.refl _ _
    | decide
    | with_reducible apply Within.step' (State.fwConfirm_within _)
    | with_reducible refine OutIn.next ?_
    | with_reducible refine Within.ite ?_ ?_
    | with_reducible refine Within.ite_snd ?_ ?_
    | with_reducible intro _
    | split
    | dsimp only

theorem execEventSourceEdge_within (a1) (a2) (s : State) :
    OutIn [.out, .hst, .evt, .flog] s (execEventSourceEdge a1 a2 s) := by
  unfold execEventSourceEdge
  repeat' first
    | with_reducible assumption
    | with_reducible exact Within.refl _ _
    | decide
    | with_reducible apply Within.step' (State.edge_within _ _ _)
    | with_reducible refine OutIn.next ?_
    | split
    | dsimp only

theorem execLatchTransfer_within (a1) (s : State) :
    OutIn [.out, .hst, .evt, .flog] s (execLatchTransfer a1 s) := by
  unfold execLatchTransfer
  repeat' first
    | with_reducible assumption
    | with_reducible exact Within.refl _ _
    | decide
    | with_reducible apply State.pendSet_within
    | with_reducible apply Within.step' (State.log_within _ _ _ _ _)
    | with_reducible apply Within.step' (State.modSrc_within _ _ _)
    | with_reducible refine OutIn.next ?_
    | with_reducible refine Within.ite ?_ ?_
    | with_reducible intro _
    | extract_lets
    | split
    | dsimp only

theorem execEventClaim_within (a1) (s : State) :
    OutIn [.out, .hst, .evt] s (execEventClaim a1 s) := by
  unfold execEventClaim
  repeat' first
    | with_reducible assumption
    | with_reducible exact Within.refl _ _
    | decide
    | with_reducible apply Within.step' (State.coreClaim_within _ _)
    | with_reducible refine OutIn.next ?_
    | split
    | dsimp only

theorem execHostEventClaim_within (a1) (s : State) :
    OutIn [.out, .hst, .evt] s (execHostEventClaim a1 s) := by
  unfold execHostEventClaim
  repeat' first
    | with_reducible assumption
    | with_reducible exact Within.refl _ _
    | decide
    | with_reducible apply Within.step' (State.claimSrc_within _ _)
    | with_reducible refine OutIn.next ?_
    | split
    | dsimp only

theorem execEventDone_within (a1) (a2) (s : State) :
    OutIn [.out, .hst, .evt, .flog] s (execEventDone a1 a2 s) := by
  unfold execEventDone
  repeat' first
    | with_reducible assumption
    | with_reducible exact Within.refl _ _
    | decide
    | with_reducible apply Within.step' (State.doneSrc_within _ _ _)
    | with_reducible refine OutIn.next ?_
    | split
    | dsimp only

theorem execHostEventDone_within (a1) (a2) (s : State) :
    OutIn [.out, .hst, .evt, .flog] s (execHostEventDone a1 a2 s) := by
  unfold execHostEventDone
  repeat' first
    | with_reducible assumption
    | with_reducible exact Within.refl _ _
    | decide
    | with_reducible apply Within.step' (State.doneSrc_within _ _ _)
    | with_reducible refine OutIn.next ?_
    | split
    | dsimp only

theorem execHoldoffExpiry_within (a1) (s : State) :
    OutIn [.out, .hst, .evt] s (execHoldoffExpiry a1 s) := by
  unfold execHoldoffExpiry
  repeat' first
    | with_reducible assumption
    | with_reducible exact Within.refl _ _
    | decide
    | with_reducible apply Within.step' (State.deliver_within _ _)
    | with_reducible apply Within.step' (State.modGrp_within _ _ _)
    | with_reducible refine OutIn.next ?_
    | with_reducible intro _
    | split
    | dsimp only

theorem execEvtSrcWrite_within (a1) (a2) (s : State) :
    OutIn [.out, .hst, .evt, .flog] s (execEvtSrcWrite a1 a2 s) := by
  unfold execEvtSrcWrite
  repeat' first
    | with_reducible assumption
    | with_reducible exact Within.refl _ _
    | decide
    | with_reducible apply Within.step' (State.srcWrite_within _ _ _)
    | with_reducible refine OutIn.next ?_
    | split
    | dsimp only

theorem execEvtHcfgWrite_within (a1) (a2) (s : State) :
    OutIn [.out, .hst, .evt, .flog] s (execEvtHcfgWrite a1 a2 s) := by
  unfold execEvtHcfgWrite
  repeat' first
    | with_reducible assumption
    | with_reducible exact Within.refl _ _
    | decide
    | with_reducible apply Within.step' (State.hcfgWrite_within _ _ _)
    | with_reducible refine OutIn.next ?_
    | split
    | dsimp only

theorem execLogFlashWrite_within (a1) (s : State) :
    OutIn [.out, .hst, .evt, .flog] s (execLogFlashWrite a1 s) := by
  unfold execLogFlashWrite
  repeat' first
    | with_reducible assumption
    | with_reducible exact Within.refl _ _
    | decide
    | with_reducible apply State.when_within
    | with_reducible apply Within.step' (State.pulse_within _ _)
    | with_reducible apply Within.step' (State.modFlog_within _ _)
    | with_reducible apply Within.step' (State.modSector_within _ _ _)
    | with_reducible refine OutIn.next ?_
    | with_reducible refine Within.ite ?_ ?_
    | with_reducible intro _
    | extract_lets
    | split
    | dsimp only

theorem execLogSectorErase_within (a1) (a2) (s : State) :
    OutIn [.out, .hst, .evt, .flog] s (execLogSectorErase a1 a2 s) := by
  unfold execLogSectorErase
  repeat' first
    | with_reducible assumption
    | with_reducible exact Within.refl _ _
    | decide
    | with_reducible apply Within.step' (State.pulse_within _ _)
    | with_reducible apply Within.step' (State.modFlog_within _ _)
    | with_reducible apply Within.step' (State.modSector_within _ _ _)
    | with_reducible refine OutIn.next ?_
    | with_reducible refine Within.ite ?_ ?_
    | with_reducible refine Within.ite_snd ?_ ?_
    | with_reducible intro _
    | split
    | dsimp only

theorem execLogIdleMark_within (s : State) :
    OutIn [.out, .hst, .evt, .flog] s (execLogIdleMark s) := by
  unfold execLogIdleMark
  repeat' first
    | with_reducible assumption
    | with_reducible exact Within.refl _ _
    | decide
    | with_reducible apply Within.step' (State.log_within _ _ _ _ _)
    | with_reducible refine OutIn.next ?_
    | with_reducible refine Within.ite ?_ ?_
    | with_reducible refine Within.ite_snd ?_ ?_
    | with_reducible intro _
    | split
    | dsimp only

theorem execLogRead_within (a1) (s : State) :
    OutIn [.out, .hst, .itl] s (execLogRead a1 s) := by
  unfold execLogRead
  repeat' first
    | with_reducible assumption
    | with_reducible exact Within.refl _ _
    | decide
    | with_reducible apply State.command_within
    | with_reducible apply Within.step' (State.respondParts_within _ _ _ _ _ _)
    | with_reducible refine OutIn.next ?_
    | with_reducible refine Within.ite ?_ ?_
    | with_reducible refine Within.ite_snd ?_ ?_
    | with_reducible intro _
    | extract_lets
    | split
    | dsimp only

theorem execCommitBoundary_within (s : State) :
    OutIn [.out, .mem, .tiles, .mesh, .lp, .xlt, .brd, .lnk, .fab, .hst, .que, .itl, .sched, .cad, .pwr, .rcv, .rot, .cry, .evt, .flog, .boot] s (execCommitBoundary s) := by
  unfold execCommitBoundary
  try dsimp only
  repeat' first
    | with_reducible assumption
    | with_reducible exact Within.refl _ _
    | decide
    | with_reducible apply Within.step' (State.pumpAll_within _)
    | with_reducible apply Within.step' (State.commitShifts_within _)
    | with_reducible apply Within.step' (State.expiryChanges_within _)
    | with_reducible apply Within.step' (State.holeChanges_within _)
    | with_reducible apply Within.step' (State.openShifts_within _)
    | with_reducible apply Within.step' (State.laterGos_within _)
    | with_reducible apply Within.step' (State.blocksBoundary_within _ _)
    | with_reducible apply Within.step' (State.heldBoundary_within _ _)
    | with_reducible apply Within.step' (State.modItl_within _ _)
    | with_reducible refine OutIn.next ?_
    | with_reducible refine Within.ite ?_ ?_
    | with_reducible refine Within.ite_snd ?_ ?_
    | with_reducible intro _
    | split
    | dsimp only

theorem execCadenceTick_within (a1) (s : State) :
    OutIn [.out, .mem, .tiles, .cycles, .mesh, .lp, .xlt, .brd, .fab, .hst, .que, .itl, .sched, .cad, .pwr, .rcv, .cry, .evt, .flog, .boot] s (execCadenceTick a1 s) := by
  unfold execCadenceTick
  repeat' first
    | with_reducible assumption
    | with_reducible exact Within.refl _ _
    | decide
    | with_reducible apply Within.step' (State.strobe_within _)
    | with_reducible apply Within.step' (State.modCad_within _ _)
    | with_reducible apply Within.step' (State.tickElapsed_within _ _)
    | with_reducible refine OutIn.next ?_
    | with_reducible refine Within.ite ?_ ?_
    | with_reducible refine Within.ite_snd ?_ ?_
    | with_reducible intro _
    | split
    | dsimp only

theorem execCadencePeriodWrap_within (a1) (s : State) :
    OutIn [.out, .mem, .fresh, .tiles, .cycles, .mesh, .lp, .xlt, .brd, .lnk, .fab, .hst, .que, .itl, .sched, .cad, .pwr, .rcv, .rot, .cry, .evt, .flog, .boot] s (execCadencePeriodWrap a1 s) := by
  unfold execCadencePeriodWrap
  repeat' first
    | with_reducible assumption
    | with_reducible exact Within.refl _ _
    | decide
    | with_reducible apply Within.step' (State.periodElapsed_within _)
    | with_reducible apply Within.step' (State.strobe_within _)
    | with_reducible apply Within.step' (State.nextEpoch_within _)
    | with_reducible apply Within.step' (State.nextPeriod_within _)
    | with_reducible apply Within.step' (State.tickElapsed_within _ _)
    | with_reducible refine OutIn.next ?_
    | with_reducible refine Within.ite ?_ ?_
    | with_reducible refine Within.ite_snd ?_ ?_
    | with_reducible intro _
    | split
    | dsimp only

theorem execTetherMarker_within (a1) (a2) (s : State) :
    OutIn [.out, .hst, .cad, .evt, .flog] s (execTetherMarker a1 a2 s) := by
  unfold execTetherMarker
  repeat' first
    | with_reducible assumption
    | with_reducible exact Within.refl _ _
    | decide
    | with_reducible apply Within.step' (State.acceptMarker_within _ _)
    | with_reducible apply Within.step' (State.modCad_within _ _)
    | with_reducible refine OutIn.next ?_
    | with_reducible refine Within.ite ?_ ?_
    | with_reducible intro _
    | extract_lets
    | split
    | dsimp only

theorem execEpochFrame_within (a1) (s : State) :
    OutIn [.out, .hst, .cad, .evt, .flog] s (execEpochFrame a1 s) := by
  unfold execEpochFrame
  repeat' first
    | with_reducible assumption
    | with_reducible exact Within.refl _ _
    | decide
    | with_reducible apply Within.step' (State.compareEpoch_within _ _)
    | with_reducible apply Within.step' (State.modCad_within _ _)
    | with_reducible refine OutIn.next ?_
    | with_reducible refine Within.ite ?_ ?_
    | with_reducible refine Within.ite_snd ?_ ?_
    | with_reducible intro _
    | extract_lets
    | split
    | dsimp only

theorem execMarkerTimeout_within (s : State) :
    OutIn [.out, .hst, .cad, .evt, .flog] s (execMarkerTimeout s) := by
  unfold execMarkerTimeout
  repeat' first
    | with_reducible assumption
    | with_reducible exact Within.refl _ _
    | decide
    | with_reducible apply Within.step' (State.setCad_within _ _)
    | with_reducible refine OutIn.next ?_
    | with_reducible refine Within.ite ?_ ?_
    | with_reducible refine Within.ite_snd ?_ ?_
    | with_reducible intro _
    | split
    | dsimp only

theorem execTetherReversal_within (s : State) :
    OutIn [.boot] s (execTetherReversal s) := by
  unfold execTetherReversal
  repeat' first
    | with_reducible assumption
    | with_reducible exact Within.refl _ _
    | decide
    | with_reducible apply Within.step' (State.modBoot_within _ _)
    | with_reducible refine OutIn.next ?_
    | with_reducible intro _
    | split
    | dsimp only

theorem execRegisterWrite_within (a1) (a2) (a3) (a4) (s : State) :
    OutIn [.out, .mem, .lowHeld, .tiles, .mesh, .lp, .xlt, .brd, .lnk, .fab, .hst, .que, .itl, .sched, .cad, .pwr, .rcv, .rot, .cry, .evt, .flog] s (execRegisterWrite a1 a2 a3 a4 s) := by
  unfold execRegisterWrite
  repeat' first
    | with_reducible assumption
    | with_reducible exact Within.refl _ _
    | decide
    | with_reducible apply Within.step' (State.regWrite_within _ _ _ _ _)
    | with_reducible apply Within.step' (State.hostRefused_within _ _ _)
    | with_reducible apply Within.step' (State.msixAccess_within _ _ _ _ _ _ _)
    | with_reducible apply Within.step' (State.reservedAt_within _ _ _)
    | with_reducible apply Within.step' (State.doorbellWrite_within _ _ _ _ _ _ _ _)
    | with_reducible refine OutIn.next ?_
    | with_reducible refine Within.ite ?_ ?_
    | with_reducible intro _
    | extract_lets
    | split
    | dsimp only

end Sys2Proof.Machine
end

