-- ==== Sys2Proof/Laws/WithinExecTile.lean ====
section
/-! SUPPORT. What the commands of the tile and of the queues may touch. -/

set_option linter.unusedTactic false
set_option linter.unreachableTactic false
set_option linter.unusedVariables false

namespace Sys2Proof.Machine

theorem execSrmCommitGo_within (a1) (s : State) :
    OutIn [.tiles] s (execSrmCommitGo a1 s) := by
  unfold execSrmCommitGo
  repeat' first
    | with_reducible assumption
    | with_reducible exact Within.refl _ _
    | decide
    | with_reducible apply Within.step' (State.srmGo_within _ _)
    | with_reducible refine OutIn.next ?_
    | split
    | dsimp only

theorem execMemCommitGo_within (s : State) :
    OutIn [.lp] s (execMemCommitGo s) := by
  unfold execMemCommitGo
  repeat' first
    | with_reducible assumption
    | with_reducible exact Within.refl _ _
    | decide
    | with_reducible apply Within.step' (State.memGo_within _)
    | with_reducible refine OutIn.next ?_
    | split
    | dsimp only

theorem execXltCommitGo_within (s : State) :
    OutIn [.xlt] s (execXltCommitGo s) := by
  unfold execXltCommitGo
  repeat' first
    | with_reducible assumption
    | with_reducible exact Within.refl _ _
    | decide
    | with_reducible apply Within.step' (State.xltGo_within _)
    | with_reducible refine OutIn.next ?_
    | split
    | dsimp only

theorem execBrdCommitGo_within (s : State) :
    OutIn [.tiles, .lp, .xlt, .brd, .fab] s (execBrdCommitGo s) := by
  unfold execBrdCommitGo
  repeat' first
    | with_reducible assumption
    | with_reducible exact Within.refl _ _
    | decide
    | with_reducible apply Within.step' (State.brdGo_within _)
    | with_reducible refine OutIn.next ?_
    | split
    | dsimp only

theorem execLnkCommitGo_within (a1) (s : State) :
    OutIn [.lnk] s (execLnkCommitGo a1 s) := by
  unfold execLnkCommitGo
  repeat' first
    | with_reducible assumption
    | with_reducible exact Within.refl _ _
    | decide
    | with_reducible apply Within.step' (State.lnkGo_within _ _)
    | with_reducible refine OutIn.next ?_
    | split
    | dsimp only

theorem execFabCommitGo_within (s : State) :
    OutIn [.fab] s (execFabCommitGo s) := by
  unfold execFabCommitGo
  repeat' first
    | with_reducible assumption
    | with_reducible exact Within.refl _ _
    | decide
    | with_reducible apply Within.step' (State.fabGo_within _)
    | with_reducible refine OutIn.next ?_
    | split
    | dsimp only

theorem execQueCommitGo_within (s : State) :
    OutIn [.que] s (execQueCommitGo s) := by
  unfold execQueCommitGo
  repeat' first
    | with_reducible assumption
    | with_reducible exact Within.refl _ _
    | decide
    | with_reducible apply Within.step' (State.queGo_within _)
    | with_reducible refine OutIn.next ?_
    | split
    | dsimp only

theorem execSeqCommitGo_within (s : State) :
    OutIn [.sched] s (execSeqCommitGo s) := by
  unfold execSeqCommitGo
  repeat' first
    | with_reducible assumption
    | with_reducible exact Within.refl _ _
    | decide
    | with_reducible apply Within.step' (State.seqGo_within _)
    | with_reducible refine OutIn.next ?_
    | split
    | dsimp only

theorem execCadCommitGo_within (s : State) :
    OutIn [.cad] s (execCadCommitGo s) := by
  unfold execCadCommitGo
  repeat' first
    | with_reducible assumption
    | with_reducible exact Within.refl _ _
    | decide
    | with_reducible apply Within.step' (State.cadGo_within _)
    | with_reducible refine OutIn.next ?_
    | split
    | dsimp only

theorem execPwrCommitGo_within (s : State) :
    OutIn [.pwr] s (execPwrCommitGo s) := by
  unfold execPwrCommitGo
  repeat' first
    | with_reducible assumption
    | with_reducible exact Within.refl _ _
    | decide
    | with_reducible apply Within.step' (State.pwrGo_within _)
    | with_reducible refine OutIn.next ?_
    | split
    | dsimp only

theorem execCoreClamp_within (a1) (a2) (s : State) :
    OutIn [.out, .mem, .tiles, .mesh, .lp, .xlt, .brd, .fab, .hst, .que, .itl, .rcv, .cry, .evt, .flog] s (execCoreClamp a1 a2 s) := by
  unfold execCoreClamp
  repeat' first
    | with_reducible assumption
    | with_reducible exact Within.refl _ _
    | decide
    | with_reducible apply Within.step' (State.tilCtrl_within _ _ _)
    | with_reducible refine OutIn.next ?_
    | split
    | dsimp only

theorem execCoreGate_within (a1) (a2) (s : State) :
    OutIn [.out, .mem, .tiles, .mesh, .lp, .xlt, .brd, .fab, .hst, .que, .itl, .rcv, .cry, .evt, .flog] s (execCoreGate a1 a2 s) := by
  unfold execCoreGate
  repeat' first
    | with_reducible assumption
    | with_reducible exact Within.refl _ _
    | decide
    | with_reducible apply Within.step' (State.tilCtrl_within _ _ _)
    | with_reducible refine OutIn.next ?_
    | split
    | dsimp only

theorem execNarrowEn_within (a1) (a2) (s : State) :
    OutIn [.out, .mem, .tiles, .mesh, .lp, .xlt, .brd, .fab, .hst, .que, .itl, .rcv, .cry, .evt, .flog] s (execNarrowEn a1 a2 s) := by
  unfold execNarrowEn
  repeat' first
    | with_reducible assumption
    | with_reducible exact Within.refl _ _
    | decide
    | with_reducible apply Within.step' (State.tilCtrl_within _ _ _)
    | with_reducible refine OutIn.next ?_
    | split
    | dsimp only

theorem execIssueHold_within (a1) (a2) (s : State) :
    OutIn [.out, .mem, .tiles, .mesh, .lp, .xlt, .brd, .fab, .hst, .que, .itl, .rcv, .cry, .evt, .flog] s (execIssueHold a1 a2 s) := by
  unfold execIssueHold
  repeat' first
    | with_reducible assumption
    | with_reducible exact Within.refl _ _
    | decide
    | with_reducible apply Within.step' (State.tilCtrl_within _ _ _)
    | with_reducible refine OutIn.next ?_
    | split
    | dsimp only

theorem execCoreUnpowered_within (a1) (s : State) :
    OutIn [.tiles] s (execCoreUnpowered a1 s) := by
  unfold execCoreUnpowered
  repeat' first
    | with_reducible assumption
    | with_reducible exact Within.refl _ _
    | decide
    | with_reducible apply Within.step' (State.modTile_within _ _ _)
    | with_reducible refine OutIn.next ?_
    | with_reducible refine Within.ite ?_ ?_
    | with_reducible refine Within.ite_snd ?_ ?_
    | with_reducible intro _
    | split
    | dsimp only

theorem execIssueHeld_within (a1) (s : State) :
    OutIn [.tiles] s (execIssueHeld a1 s) := by
  unfold execIssueHeld
  repeat' first
    | with_reducible assumption
    | with_reducible exact Within.refl _ _
    | decide
    | with_reducible apply Within.step' (State.modTile_within _ _ _)
    | with_reducible refine OutIn.next ?_
    | with_reducible refine Within.ite ?_ ?_
    | with_reducible refine Within.ite_snd ?_ ?_
    | with_reducible intro _
    | split
    | dsimp only

theorem execTilCycleWrap_within (a1) (s : State) :
    OutIn [.tiles, .cycles] s (execTilCycleWrap a1 s) := by
  unfold execTilCycleWrap
  repeat' first
    | with_reducible assumption
    | with_reducible exact Within.refl _ _
    | decide
    | with_reducible apply State.each_within
    | with_reducible apply Within.step' (State.modTile_within _ _ _)
    | with_reducible refine OutIn.next ?_
    | with_reducible intro _
    | extract_lets
    | split
    | dsimp only
    | with_reducible apply Within.step' (State.cycles_set_within _ _)

theorem execBankHold_within (a1) (a2) (a3) (s : State) :
    OutIn [.out, .mem, .tiles, .mesh, .lp, .xlt, .brd, .fab, .hst, .que, .itl, .cry, .evt, .flog] s (execBankHold a1 a2 a3 s) := by
  unfold execBankHold
  repeat' first
    | with_reducible assumption
    | with_reducible exact Within.refl _ _
    | decide
    | with_reducible apply Within.step' (State.bankCtrl_within _ _ _ _)
    | with_reducible refine OutIn.next ?_
    | split
    | dsimp only

theorem execBankPurge_within (a1) (a2) (a3) (s : State) :
    OutIn [.out, .mem, .tiles, .mesh, .lp, .xlt, .brd, .fab, .hst, .que, .itl, .cry, .evt, .flog] s (execBankPurge a1 a2 a3 s) := by
  unfold execBankPurge
  repeat' first
    | with_reducible assumption
    | with_reducible exact Within.refl _ _
    | decide
    | with_reducible apply Within.step' (State.bankCtrl_within _ _ _ _)
    | with_reducible refine OutIn.next ?_
    | split
    | dsimp only

theorem execPurgeComplete_within (a1) (a2) (s : State) :
    OutIn [.out, .tiles, .hst, .itl, .evt, .flog] s (execPurgeComplete a1 a2 s) := by
  unfold execPurgeComplete
  repeat' first
    | with_reducible assumption
    | with_reducible exact Within.refl _ _
    | decide
    | with_reducible apply Within.step' (State.recoverPurged_within _ _ _)
    | with_reducible apply Within.step' (State.emptyBank_within _ _ _)
    | with_reducible refine OutIn.next ?_
    | with_reducible refine Within.ite ?_ ?_
    | with_reducible intro _
    | extract_lets
    | split
    | dsimp only

theorem execPurgeTimeout_within (a1) (a2) (s : State) :
    OutIn [.out, .mem, .tiles, .mesh, .lp, .xlt, .brd, .fab, .hst, .que, .itl, .rcv, .cry, .evt, .flog] s (execPurgeTimeout a1 a2 s) := by
  unfold execPurgeTimeout
  repeat' first
    | with_reducible assumption
    | with_reducible exact Within.refl _ _
    | decide
    | with_reducible apply Within.step' (State.isolate_within _ _ _)
    | with_reducible apply Within.step' (State.opDone_within _ _ _ _ _ _ _)
    | with_reducible apply Within.step' (State.bankLost_within _ _ _ _ _)
    | with_reducible refine OutIn.next ?_
    | with_reducible refine Within.ite ?_ ?_
    | with_reducible intro _
    | extract_lets
    | split
    | dsimp only

theorem execIsolationDrainDone_within (a1) (s : State) :
    OutIn [.out, .mem, .tiles, .mesh, .lp, .xlt, .brd, .fab, .hst, .que, .itl, .rcv, .cry, .evt, .flog] s (execIsolationDrainDone a1 s) := by
  unfold execIsolationDrainDone
  repeat' first
    | with_reducible assumption
    | with_reducible exact Within.refl _ _
    | decide
    | with_reducible apply Within.step' (State.endIsolation_within _ _ _ _)
    | with_reducible apply Within.step' (State.rowNbr_within _ _ _)
    | with_reducible apply Within.step' (State.makeHole_within _ _)
    | with_reducible apply Within.step' (State.leaveRow_within _ _ _)
    | with_reducible apply Within.step' (State.modTile_within _ _ _)
    | with_reducible refine OutIn.next ?_
    | with_reducible refine Within.ite ?_ ?_
    | with_reducible intro _
    | extract_lets
    | split
    | dsimp only

theorem execShiftCopyStart_within (a1) (a2) (s : State) :
    OutIn [.tiles, .rcv] s (execShiftCopyStart a1 a2 s) := by
  unfold execShiftCopyStart
  repeat' first
    | with_reducible assumption
    | with_reducible exact Within.refl _ _
    | decide
    | with_reducible apply State.each_within
    | with_reducible apply Within.step' (State.shiftNbr_within _ _)
    | with_reducible apply Within.step' (State.modTile_within _ _ _)
    | with_reducible apply Within.step' (State.modRcv_within _ _)
    | with_reducible refine OutIn.next ?_
    | with_reducible refine Within.ite ?_ ?_
    | with_reducible intro _
    | extract_lets
    | split
    | dsimp only

theorem execShiftCopyDone_within (a1) (a2) (s : State) :
    OutIn [.tiles, .itl, .rcv] s (execShiftCopyDone a1 a2 s) := by
  unfold execShiftCopyDone
  repeat' first
    | with_reducible assumption
    | with_reducible exact Within.refl _ _
    | decide
    | with_reducible apply State.each_within
    | with_reducible apply Within.step' (State.commitShift_within _ _)
    | with_reducible apply Within.step' (State.modTile_within _ _ _)
    | with_reducible apply Within.step' (State.modRcv_within _ _)
    | with_reducible refine OutIn.next ?_
    | with_reducible refine Within.ite ?_ ?_
    | with_reducible intro _
    | extract_lets
    | split
    | dsimp only

theorem execShellFailure_within (a1) (a2) (s : State) :
    OutIn [.out, .mem, .tiles, .mesh, .lp, .xlt, .brd, .fab, .hst, .que, .itl, .rcv, .cry, .evt, .flog] s (execShellFailure a1 a2 s) := by
  unfold execShellFailure
  repeat' first
    | with_reducible assumption
    | with_reducible exact Within.refl _ _
    | decide
    | with_reducible apply Within.step' (State.spareShellFail_within _ _ _)
    | with_reducible apply Within.step' (State.shellFail_within _ _ _)
    | with_reducible refine OutIn.next ?_
    | with_reducible refine Within.ite ?_ ?_
    | with_reducible refine Within.ite_snd ?_ ?_
    | with_reducible intro _
    | split
    | dsimp only

theorem execScalarOp_within (a1) (a2) (a3) (s : State) :
    OutIn [.out, .mem, .tiles, .mesh, .lp, .xlt, .brd, .fab, .hst, .que, .itl, .rcv, .cry, .evt, .flog] s (execScalarOp a1 a2 a3 s) := by
  unfold execScalarOp
  repeat' first
    | with_reducible assumption
    | with_reducible exact Within.refl _ _
    | decide
    | with_reducible apply Within.step' (State.scalarRun_within _ _ _ _)
    | with_reducible refine OutIn.next ?_
    | split
    | dsimp only

theorem execScalarMemory_within (a1) (a2) (a3) (a4) (s : State) :
    OutIn [.out, .mem, .tiles, .mesh, .lp, .xlt, .brd, .fab, .hst, .que, .itl, .rcv, .cry, .evt, .flog] s (execScalarMemory a1 a2 a3 a4 s) := by
  unfold execScalarMemory
  repeat' first
    | with_reducible assumption
    | with_reducible exact Within.refl _ _
    | decide
    | with_reducible apply State.run_within
    | with_reducible apply Within.step' (State.memRun_within _ _ _ _ _ _ _)
    | with_reducible refine OutIn.next ?_
    | with_reducible intro _
    | split
    | dsimp only

theorem execVectorMemory_within (a1) (a2) (a3) (a4) (s : State) :
    OutIn [.out, .mem, .tiles, .mesh, .lp, .xlt, .brd, .fab, .hst, .que, .itl, .rcv, .cry, .evt, .flog] s (execVectorMemory a1 a2 a3 a4 s) := by
  unfold execVectorMemory
  repeat' first
    | with_reducible assumption
    | with_reducible exact Within.refl _ _
    | decide
    | with_reducible apply State.run_within
    | with_reducible apply Within.step' (State.memRun_within _ _ _ _ _ _ _)
    | with_reducible refine OutIn.next ?_
    | with_reducible intro _
    | split
    | dsimp only

theorem execFlagsOp_within (a1) (a2) (a3) (a4) (s : State) :
    OutIn [.out, .mem, .tiles, .mesh, .lp, .xlt, .brd, .fab, .hst, .que, .itl, .rcv, .cry, .evt, .flog] s (execFlagsOp a1 a2 a3 a4 s) := by
  unfold execFlagsOp
  repeat' first
    | with_reducible assumption
    | with_reducible exact Within.refl _ _
    | decide
    | with_reducible apply State.run_within
    | with_reducible apply Within.step' (State.done_within _ _ _ _)
    | with_reducible refine OutIn.next ?_
    | with_reducible intro _
    | split
    | dsimp only

theorem execEndOp_within (a1) (a2) (s : State) :
    OutIn [.out, .mem, .tiles, .mesh, .lp, .xlt, .brd, .fab, .hst, .que, .itl, .rcv, .cry, .evt, .flog] s (execEndOp a1 a2 s) := by
  unfold execEndOp
  repeat' first
    | with_reducible assumption
    | with_reducible exact Within.refl _ _
    | decide
    | with_reducible apply State.run_within
    | with_reducible apply Within.step' (State.launchEnded_within _ _ _)
    | with_reducible apply Within.step' (State.done_within _ _ _ _)
    | with_reducible refine OutIn.next ?_
    | with_reducible intro _
    | split
    | dsimp only

theorem execNopOp_within (a1) (a2) (s : State) :
    OutIn [.out, .mem, .tiles, .mesh, .lp, .xlt, .brd, .fab, .hst, .que, .itl, .rcv, .cry, .evt, .flog] s (execNopOp a1 a2 s) := by
  unfold execNopOp
  repeat' first
    | with_reducible assumption
    | with_reducible exact Within.refl _ _
    | decide
    | with_reducible apply State.run_within
    | with_reducible apply Within.step' (State.done_within _ _ _ _)
    | with_reducible refine OutIn.next ?_
    | with_reducible intro _
    | split
    | dsimp only

theorem execVectorOp_within (a1) (a2) (a3) (s : State) :
    OutIn [.out, .mem, .tiles, .mesh, .lp, .xlt, .brd, .fab, .hst, .que, .itl, .rcv, .cry, .evt, .flog] s (execVectorOp a1 a2 a3 s) := by
  unfold execVectorOp
  repeat' first
    | with_reducible assumption
    | with_reducible exact Within.refl _ _
    | decide
    | with_reducible apply State.run_within
    | with_reducible apply Within.step' (State.vecOp_within _ _ _ _ _)
    | with_reducible refine OutIn.next ?_
    | with_reducible intro _
    | split
    | dsimp only

theorem execConversion_within (a1) (a2) (a3) (s : State) :
    OutIn [.out, .mem, .tiles, .mesh, .lp, .xlt, .brd, .fab, .hst, .que, .itl, .rcv, .cry, .evt, .flog] s (execConversion a1 a2 a3 s) := by
  unfold execConversion
  repeat' first
    | with_reducible assumption
    | with_reducible exact Within.refl _ _
    | decide
    | with_reducible apply State.run_within
    | with_reducible apply Within.step' (State.convRun_within _ _ _ _ _)
    | with_reducible refine OutIn.next ?_
    | with_reducible intro _
    | split
    | dsimp only

theorem execBlockQuantize_within (a1) (a2) (a3) (s : State) :
    OutIn [.out, .mem, .tiles, .mesh, .lp, .xlt, .brd, .fab, .hst, .que, .itl, .rcv, .cry, .evt, .flog] s (execBlockQuantize a1 a2 a3 s) := by
  unfold execBlockQuantize
  repeat' first
    | with_reducible assumption
    | with_reducible exact Within.refl _ _
    | decide
    | with_reducible apply State.run_within
    | with_reducible apply Within.step' (State.quantRun_within _ _ _ _ _)
    | with_reducible refine OutIn.next ?_
    | with_reducible intro _
    | split
    | dsimp only

theorem execMmaB_within (a1) (a2) (a3) (a4) (s : State) :
    OutIn [.out, .mem, .tiles, .mesh, .lp, .xlt, .brd, .fab, .hst, .que, .itl, .rcv, .cry, .evt, .flog] s (execMmaB a1 a2 a3 a4 s) := by
  unfold execMmaB
  repeat' first
    | with_reducible assumption
    | with_reducible exact Within.refl _ _
    | decide
    | with_reducible apply State.run_within
    | with_reducible apply Within.step' (State.mmaRun_within _ _ _ _ _ _ _)
    | with_reducible apply Within.step' (State.tileFault_within _ _ _ _ _)
    | with_reducible apply Within.step' (State.illegal_within _ _ _)
    | with_reducible refine OutIn.next ?_
    | with_reducible refine Within.ite ?_ ?_
    | with_reducible intro _
    | split
    | dsimp only

theorem execMmaV_within (a1) (a2) (a3) (a4) (s : State) :
    OutIn [.out, .mem, .tiles, .mesh, .lp, .xlt, .brd, .fab, .hst, .que, .itl, .rcv, .cry, .evt, .flog] s (execMmaV a1 a2 a3 a4 s) := by
  unfold execMmaV
  repeat' first
    | with_reducible assumption
    | with_reducible exact Within.refl _ _
    | decide
    | with_reducible apply State.run_within
    | with_reducible apply Within.step' (State.mmaRun_within _ _ _ _ _ _ _)
    | with_reducible apply Within.step' (State.tileFault_within _ _ _ _ _)
    | with_reducible apply Within.step' (State.illegal_within _ _ _)
    | with_reducible refine OutIn.next ?_
    | with_reducible refine Within.ite ?_ ?_
    | with_reducible intro _
    | split
    | dsimp only

theorem execAccMov_within (a1) (a2) (a3) (a4) (a5) (a6) (s : State) :
    OutIn [.out, .mem, .tiles, .mesh, .lp, .xlt, .brd, .fab, .hst, .que, .itl, .rcv, .cry, .evt, .flog] s (execAccMov a1 a2 a3 a4 a5 a6 s) := by
  unfold execAccMov
  repeat' first
    | with_reducible assumption
    | with_reducible exact Within.refl _ _
    | decide
    | with_reducible apply State.run_within
    | with_reducible apply Within.step' (State.done_within _ _ _ _)
    | with_reducible refine OutIn.next ?_
    | with_reducible refine Within.foldl_snd ?_ ?_
    | with_reducible refine Within.ite ?_ ?_
    | with_reducible intro _
    | split
    | dsimp only

theorem execAccZero_within (a1) (a2) (a3) (s : State) :
    OutIn [.out, .mem, .tiles, .mesh, .lp, .xlt, .brd, .fab, .hst, .que, .itl, .rcv, .cry, .evt, .flog] s (execAccZero a1 a2 a3 s) := by
  unfold execAccZero
  repeat' first
    | with_reducible assumption
    | with_reducible exact Within.refl _ _
    | decide
    | with_reducible apply State.run_within
    | with_reducible apply Within.step' (State.done_within _ _ _ _)
    | with_reducible refine OutIn.next ?_
    | with_reducible intro _
    | split
    | dsimp only

theorem execStreamStart_within (a1) (a2) (a3) (a4) (a5) (s : State) :
    OutIn [.out, .mem, .tiles, .mesh, .lp, .xlt, .brd, .fab, .hst, .que, .itl, .rcv, .cry, .evt, .flog] s (execStreamStart a1 a2 a3 a4 a5 s) := by
  unfold execStreamStart
  repeat' first
    | with_reducible assumption
    | with_reducible exact Within.refl _ _
    | decide
    | with_reducible apply State.run_within
    | with_reducible apply Within.step' (State.startRun_within _ _ _ _ _ _ _ _ _)
    | with_reducible refine OutIn.next ?_
    | with_reducible intro _
    | split
    | dsimp only

theorem execStreamArm_within (a1) (a2) (a3) (a4) (s : State) :
    OutIn [.out, .mem, .tiles, .mesh, .lp, .xlt, .brd, .fab, .hst, .que, .itl, .rcv, .cry, .evt, .flog] s (execStreamArm a1 a2 a3 a4 s) := by
  unfold execStreamArm
  repeat' first
    | with_reducible assumption
    | with_reducible exact Within.refl _ _
    | decide
    | with_reducible apply State.run_within
    | with_reducible apply Within.step' (State.armRun_within _ _ _ _ _)
    | with_reducible refine OutIn.next ?_
    | with_reducible intro _
    | split
    | dsimp only

theorem execStreamWait_within (a1) (a2) (a3) (s : State) :
    OutIn [.out, .mem, .tiles, .mesh, .lp, .xlt, .brd, .fab, .hst, .que, .itl, .rcv, .cry, .evt, .flog] s (execStreamWait a1 a2 a3 s) := by
  unfold execStreamWait
  repeat' first
    | with_reducible assumption
    | with_reducible exact Within.refl _ _
    | decide
    | with_reducible apply State.run_within
    | with_reducible apply Within.step' (State.modBank_within _ _ _ _)
    | with_reducible apply Within.step' (State.done_within _ _ _ _)
    | with_reducible refine OutIn.next ?_
    | with_reducible refine Within.ite ?_ ?_
    | with_reducible intro _
    | extract_lets
    | split
    | dsimp only

theorem execStreamStop_within (a1) (a2) (a3) (s : State) :
    OutIn [.out, .mem, .tiles, .mesh, .lp, .xlt, .brd, .fab, .hst, .que, .itl, .rcv, .cry, .evt, .flog] s (execStreamStop a1 a2 a3 s) := by
  unfold execStreamStop
  repeat' first
    | with_reducible assumption
    | with_reducible exact Within.refl _ _
    | decide
    | with_reducible apply State.run_within
    | with_reducible apply Within.step' (State.done_within _ _ _ _)
    | with_reducible apply Within.step' (State.stopChan_within _ _ _)
    | with_reducible refine OutIn.next ?_
    | with_reducible refine Within.ite ?_ ?_
    | with_reducible intro _
    | split
    | dsimp only

theorem execLinkSlot_within (a1) (a2) (s : State) :
    OutIn [.out, .mem, .tiles, .mesh, .lp, .xlt, .brd, .fab, .hst, .que, .itl, .rcv, .cry, .evt, .flog] s (execLinkSlot a1 a2 s) := by
  unfold execLinkSlot
  repeat' first
    | with_reducible assumption
    | with_reducible exact Within.refl _ _
    | decide
    | with_reducible apply Within.step' (State.slotRun_within _ _ _)
    | with_reducible refine OutIn.next ?_
    | split
    | dsimp only

theorem execLinkBeat_within (a1) (a2) (a3) (a4) (s : State) :
    OutIn [.out, .mem, .tiles, .mesh, .lp, .xlt, .brd, .fab, .hst, .que, .itl, .rcv, .cry, .evt, .flog] s (execLinkBeat a1 a2 a3 a4 s) := by
  unfold execLinkBeat
  repeat' first
    | with_reducible assumption
    | with_reducible exact Within.refl _ _
    | decide
    | with_reducible apply Within.step' (State.beatRun_within _ _ _ _ _)
    | with_reducible refine OutIn.next ?_
    | split
    | dsimp only

theorem execPairingWord_within (a1) (a2) (a3) (a4) (a5) (a6) (s : State) :
    OutIn [.out, .mem, .tiles, .mesh, .lp, .xlt, .brd, .fab, .hst, .que, .itl, .rcv, .cry, .evt, .flog] s (execPairingWord a1 a2 a3 a4 a5 a6 s) := by
  unfold execPairingWord
  repeat' first
    | with_reducible assumption
    | with_reducible exact Within.refl _ _
    | decide
    | with_reducible apply Within.step' (State.pairRun_within _ _ _ _ _ _ _)
    | with_reducible refine OutIn.next ?_
    | split
    | dsimp only

theorem execLinkCreditReturn_within (a1) (a2) (a3) (s : State) :
    OutIn [.tiles] s (execLinkCreditReturn a1 a2 a3 s) := by
  unfold execLinkCreditReturn
  repeat' first
    | with_reducible assumption
    | with_reducible exact Within.refl _ _
    | decide
    | with_reducible apply Within.step' (State.modChan_within _ _ _ _)
    | with_reducible refine OutIn.next ?_
    | with_reducible refine Within.ite ?_ ?_
    | with_reducible intro _
    | extract_lets
    | split
    | dsimp only

theorem execFenceSignal_within (a1) (a2) (a3) (s : State) :
    OutIn [.out, .mem, .tiles, .mesh, .lp, .xlt, .brd, .fab, .hst, .que, .itl, .rcv, .cry, .evt, .flog] s (execFenceSignal a1 a2 a3 s) := by
  unfold execFenceSignal
  repeat' first
    | with_reducible assumption
    | with_reducible exact Within.refl _ _
    | decide
    | with_reducible apply State.run_within
    | with_reducible apply Within.step' (State.handleFault_within _ _ _)
    | with_reducible apply Within.step' (State.status_within _ _ _ _ _)
    | with_reducible apply Holds.step2' (State.signalFence_within _ _ _ _)
    | with_reducible refine Holds.map2_state (State.signalFence_within _ _ _ _) ?_ ?_
    | with_reducible refine Within.step' (Holds.get2 (State.signalFence_within _ _ _ _) (by assumption)) ?_ ?_
    | with_reducible refine OutIn.next ?_
    | with_reducible intro _
    | split
    | dsimp only

theorem execFenceWait_within (a1) (a2) (a3) (s : State) :
    OutIn [.out, .mem, .tiles, .mesh, .lp, .xlt, .brd, .fab, .hst, .que, .itl, .rcv, .cry, .evt, .flog] s (execFenceWait a1 a2 a3 s) := by
  unfold execFenceWait
  repeat' first
    | with_reducible assumption
    | with_reducible exact Within.refl _ _
    | decide
    | with_reducible apply State.run_within
    | with_reducible apply Within.step' (State.handleFault_within _ _ _)
    | with_reducible apply Within.step' (State.waitOn_within _ _ _ _ _ _ _ _ _)
    | with_reducible apply Within.step' (State.status_within _ _ _ _ _)
    | with_reducible refine OutIn.next ?_
    | with_reducible refine Within.ite ?_ ?_
    | with_reducible intro _
    | extract_lets
    | split
    | dsimp only

theorem execSemAcq_within (a1) (a2) (a3) (s : State) :
    OutIn [.out, .mem, .tiles, .mesh, .lp, .xlt, .brd, .fab, .hst, .que, .itl, .rcv, .cry, .evt, .flog] s (execSemAcq a1 a2 a3 s) := by
  unfold execSemAcq
  repeat' first
    | with_reducible assumption
    | with_reducible exact Within.refl _ _
    | decide
    | with_reducible apply State.run_within
    | with_reducible apply Within.step' (State.handleFault_within _ _ _)
    | with_reducible apply Within.step' (State.waitOn_within _ _ _ _ _ _ _ _ _)
    | with_reducible apply Within.step' (State.status_within _ _ _ _ _)
    | with_reducible apply Within.step' (State.syncStore_within _ _ _ _ _)
    | with_reducible refine OutIn.next ?_
    | with_reducible refine Within.ite ?_ ?_
    | with_reducible intro _
    | extract_lets
    | split
    | dsimp only

theorem execSemRel_within (a1) (a2) (a3) (s : State) :
    OutIn [.out, .mem, .tiles, .mesh, .lp, .xlt, .brd, .fab, .hst, .que, .itl, .rcv, .cry, .evt, .flog] s (execSemRel a1 a2 a3 s) := by
  unfold execSemRel
  repeat' first
    | with_reducible assumption
    | with_reducible exact Within.refl _ _
    | decide
    | with_reducible apply State.run_within
    | with_reducible apply Within.step' (State.handleFault_within _ _ _)
    | with_reducible apply Within.step' (State.status_within _ _ _ _ _)
    | with_reducible apply Holds.step' (State.semRelease_within _ _ _ _ _)
    | with_reducible refine Within.step' (Holds.get (State.semRelease_within _ _ _ _ _) (by assumption)) ?_ ?_
    | with_reducible refine OutIn.next ?_
    | with_reducible refine Within.ite ?_ ?_
    | with_reducible intro _
    | extract_lets
    | split
    | dsimp only

theorem execBarArrive_within (a1) (a2) (a3) (a4) (s : State) :
    OutIn [.out, .mem, .tiles, .mesh, .lp, .xlt, .brd, .fab, .hst, .que, .itl, .rcv, .cry, .evt, .flog] s (execBarArrive a1 a2 a3 a4 s) := by
  unfold execBarArrive
  repeat' first
    | with_reducible assumption
    | with_reducible exact Within.refl _ _
    | decide
    | with_reducible apply State.run_within
    | with_reducible apply Within.step' (State.arriveRun_within _ _ _ _ _ _ _)
    | with_reducible refine OutIn.next ?_
    | with_reducible intro _
    | split
    | dsimp only

theorem execBarWait_within (a1) (a2) (a3) (a4) (a5) (a6) (a7) (s : State) :
    OutIn [.out, .mem, .tiles, .mesh, .lp, .xlt, .brd, .fab, .hst, .que, .itl, .rcv, .cry, .evt, .flog] s (execBarWait a1 a2 a3 a4 a5 a6 a7 s) := by
  unfold execBarWait
  repeat' first
    | with_reducible assumption
    | with_reducible exact Within.refl _ _
    | decide
    | with_reducible apply State.run_within
    | with_reducible apply Within.step' (State.barWaitRun_within _ _ _ _ _ _ _ _ _ _)
    | with_reducible refine OutIn.next ?_
    | with_reducible intro _
    | split
    | dsimp only

theorem execBarWaitTimeout_within (a1) (a2) (s : State) :
    OutIn [.tiles] s (execBarWaitTimeout a1 a2 s) := by
  unfold execBarWaitTimeout
  repeat' first
    | with_reducible assumption
    | with_reducible exact Within.refl _ _
    | decide
    | with_reducible apply Within.step' (State.endWait_within _ _ _ _ _)
    | with_reducible refine OutIn.next ?_
    | with_reducible refine Within.ite ?_ ?_
    | with_reducible intro _
    | split
    | dsimp only

theorem execBarrierArrival_within (a1) (a2) (s : State) :
    OutIn [.out, .mem, .tiles, .mesh, .lp, .xlt, .brd, .fab, .hst, .que, .itl, .cry, .evt, .flog] s (execBarrierArrival a1 a2 s) := by
  unfold execBarrierArrival
  repeat' first
    | with_reducible assumption
    | with_reducible exact Within.refl _ _
    | decide
    | with_reducible apply Within.step' (State.barCheck_within _ _ _)
    | with_reducible apply Within.step' (State.barCount_within _ _ _ _)
    | with_reducible apply Within.step' (State.modMesh_within _ _)
    | with_reducible refine Within.step' (Holds.get4 (State.barLines_within _ _ _) (by assumption)) ?_ ?_
    | with_reducible apply Within.step' (State.barStatus_within _ _ _ _)
    | with_reducible refine Within.step' (Within.of_snd (State.barStatus_within _ _ _ _) (by assumption)) ?_ ?_
    | with_reducible apply Within.step' (State.emit_within _ _)
    | with_reducible refine OutIn.next ?_
    | with_reducible refine Within.ite ?_ ?_
    | with_reducible refine Within.ite_snd ?_ ?_
    | with_reducible intro _
    | extract_lets
    | split
    | dsimp only

theorem execBarrierRelease_within (a1) (a2) (a3) (a4) (s : State) :
    OutIn [.out, .mem, .tiles, .mesh, .lp, .xlt, .brd, .fab, .hst, .que, .itl, .cry, .evt, .flog] s (execBarrierRelease a1 a2 a3 a4 s) := by
  unfold execBarrierRelease
  repeat' first
    | with_reducible assumption
    | with_reducible exact Within.refl _ _
    | decide
    | with_reducible apply State.each_within
    | with_reducible apply Within.step' (State.barSees_within _ _ _ _ _)
    | with_reducible apply Within.step' (State.barEarly_within _ _ _)
    | with_reducible apply Within.step' (State.barRelease_within _ _ _ _ _)
    | with_reducible refine Within.step' (Holds.get4 (State.barLines_within _ _ _) (by assumption)) ?_ ?_
    | with_reducible refine OutIn.next ?_
    | with_reducible refine Within.ite ?_ ?_
    | with_reducible refine Within.ite_snd ?_ ?_
    | with_reducible intro _
    | extract_lets
    | split
    | dsimp only

theorem execWalkComplete_within (a1) (a2) (a3) (s : State) :
    OutIn [.out, .mem, .tiles, .mesh, .lp, .xlt, .brd, .fab, .hst, .que, .itl, .rcv, .cry, .evt, .flog] s (execWalkComplete a1 a2 a3 s) := by
  unfold execWalkComplete
  repeat' first
    | with_reducible assumption
    | with_reducible exact Within.refl _ _
    | decide
    | with_reducible apply Within.step' (State.rerun_within _ _ _ _ _ _)
    | with_reducible apply Within.step' (State.xlatFault_within _ _ _ _ _ _)
    | with_reducible apply Within.step' (State.modTile_within _ _ _)
    | with_reducible apply Within.step' (State.modXlt_within _ _)
    | with_reducible refine OutIn.next ?_
    | with_reducible refine Within.ite ?_ ?_
    | with_reducible intro _
    | extract_lets
    | split
    | dsimp only

theorem execPrgResponse_within (a1) (a2) (a3) (a4) (s : State) :
    OutIn [.out, .mem, .tiles, .mesh, .lp, .xlt, .brd, .fab, .hst, .que, .itl, .rcv, .cry, .evt, .flog] s (execPrgResponse a1 a2 a3 a4 s) := by
  unfold execPrgResponse
  repeat' first
    | with_reducible assumption
    | with_reducible exact Within.refl _ _
    | decide
    | with_reducible apply State.each_within
    | with_reducible apply Within.step' (State.migLost_within _ _ _)
    | with_reducible apply Within.step' (State.modXlt_within _ _)
    | with_reducible apply Within.step' (State.sendPage_within _ _ _)
    | with_reducible apply Within.step' (State.rerun_within _ _ _ _ _ _)
    | with_reducible apply Within.step' (State.modTile_within _ _ _)
    | with_reducible apply Within.step' (State.modCmd_within _ _ _ _)
    | with_reducible refine OutIn.next ?_
    | with_reducible refine Within.ite ?_ ?_
    | with_reducible intro _
    | extract_lets
    | split
    | dsimp only

theorem execPageRequestTimeout_within (a1) (a2) (a3) (s : State) :
    OutIn [.out, .mem, .tiles, .mesh, .lp, .xlt, .brd, .fab, .hst, .que, .itl, .cry, .evt, .flog] s (execPageRequestTimeout a1 a2 a3 s) := by
  unfold execPageRequestTimeout
  repeat' first
    | with_reducible assumption
    | with_reducible exact Within.refl _ _
    | decide
    | with_reducible apply Within.step' (State.migLost_within _ _ _)
    | with_reducible apply Within.step' (State.modXlt_within _ _)
    | with_reducible refine OutIn.next ?_
    | with_reducible exact Holds.none
    | with_reducible refine Holds.some ?_
    | with_reducible refine Holds.map_state ?_ ?_
    | with_reducible refine Holds.map ?_
    | with_reducible refine Holds.bind ?_
    | with_reducible refine Within.getD ?_ ?_
    | with_reducible refine Within.ite ?_ ?_
    | with_reducible intro _
    | extract_lets
    | split
    | dsimp only

theorem execPageRequestDequeue_within (a1) (a2) (s : State) :
    OutIn [.out, .mem, .tiles, .mesh, .lp, .xlt, .brd, .fab, .hst, .que, .itl, .cry, .evt, .flog] s (execPageRequestDequeue a1 a2 s) := by
  unfold execPageRequestDequeue
  repeat' first
    | with_reducible assumption
    | with_reducible exact Within.refl _ _
    | decide
    | with_reducible apply Within.step' (State.dequeuePages_within _ _ _)
    | with_reducible refine OutIn.next ?_
    | split
    | dsimp only

theorem execRegulatorRefill_within (s : State) :
    OutIn [.tiles, .lp, .fab] s (execRegulatorRefill s) := by
  unfold execRegulatorRefill
  repeat' first
    | with_reducible assumption
    | with_reducible exact Within.refl _ _
    | decide
    | with_reducible apply Within.step' (State.refillAll_within _)
    | with_reducible refine OutIn.next ?_
    | split
    | dsimp only

theorem execSramCorrectedRewrite_within (a1) (a2) (s : State) :
    OutIn [.tiles] s (execSramCorrectedRewrite a1 a2 s) := by
  unfold execSramCorrectedRewrite
  repeat' first
    | with_reducible assumption
    | with_reducible exact Within.refl _ _
    | decide
    | with_reducible apply Within.step' (State.modSrm_within _ _ _)
    | with_reducible refine OutIn.next ?_
    | with_reducible intro _
    | split
    | dsimp only

theorem execSramClear_within (a1) (a2) (s : State) :
    OutIn [.tiles] s (execSramClear a1 a2 s) := by
  unfold execSramClear
  repeat' first
    | with_reducible assumption
    | with_reducible exact Within.refl _ _
    | decide
    | with_reducible apply Within.step' (State.sramClear_within _ _ _)
    | with_reducible refine OutIn.next ?_
    | split
    | dsimp only

theorem execSramClearDone_within (a1) (s : State) :
    OutIn [.mem, .tiles] s (execSramClearDone a1 s) := by
  unfold execSramClearDone
  repeat' first
    | with_reducible assumption
    | with_reducible exact Within.refl _ _
    | decide
    | with_reducible apply Within.step' (State.modSrm_within _ _ _)
    | with_reducible apply Within.step' (State.clearGranules_within _ _ _ _)
    | with_reducible refine OutIn.next ?_
    | with_reducible refine Within.ite ?_ ?_
    | with_reducible intro _
    | extract_lets
    | split
    | dsimp only

theorem execSrmUeValidClear_within (a1) (a2) (s : State) :
    OutIn [.tiles] s (execSrmUeValidClear a1 a2 s) := by
  unfold execSrmUeValidClear
  repeat' first
    | with_reducible assumption
    | with_reducible exact Within.refl _ _
    | decide
    | with_reducible apply Within.step' (State.srmUeWrite_within _ _ _)
    | with_reducible refine OutIn.next ?_
    | split
    | dsimp only

theorem execSramScrub_within (a1) (a2) (s : State) :
    OutIn [.mem, .tiles] s (execSramScrub a1 a2 s) := by
  unfold execSramScrub
  repeat' first
    | with_reducible assumption
    | with_reducible exact Within.refl _ _
    | decide
    | with_reducible apply State.each_within
    | with_reducible apply Within.step' (State.modSrm_within _ _ _)
    | with_reducible apply Within.step' (State.sramCheck_within _ _ _ _)
    | with_reducible refine Within.step' (Within.of_snd (State.sramCheck_within _ _ _ _) (by assumption)) ?_ ?_
    | with_reducible refine OutIn.next ?_
    | with_reducible refine Within.ite ?_ ?_
    | with_reducible intro _
    | extract_lets
    | split
    | dsimp only

theorem execReencryptDone_within (a1) (a2) (s : State) :
    OutIn [.cry] s (execReencryptDone a1 a2 s) := by
  unfold execReencryptDone
  repeat' first
    | with_reducible assumption
    | with_reducible exact Within.refl _ _
    | decide
    | with_reducible apply Within.step' (State.reencrypted_within _ _ _)
    | with_reducible refine OutIn.next ?_
    | split
    | dsimp only

theorem execKidRetired_within (a1) (s : State) :
    OutIn [.out, .hst, .cry, .evt, .flog] s (execKidRetired a1 s) := by
  unfold execKidRetired
  repeat' first
    | with_reducible assumption
    | with_reducible exact Within.refl _ _
    | decide
    | with_reducible apply Within.step' (State.log_within _ _ _ _ _)
    | with_reducible apply Within.step' (State.modKid_within _ _ _)
    | with_reducible refine OutIn.next ?_
    | with_reducible refine Within.ite ?_ ?_
    | with_reducible intro _
    | extract_lets
    | split
    | dsimp only

theorem execLpddrPatrolScrub_within (a1) (a2) (a3) (s : State) :
    OutIn [.out, .mem, .tiles, .lp, .brd, .fab, .hst, .que, .itl, .cry, .evt, .flog] s (execLpddrPatrolScrub a1 a2 a3 s) := by
  unfold execLpddrPatrolScrub
  repeat' first
    | with_reducible assumption
    | with_reducible exact Within.refl _ _
    | decide
    | with_reducible apply Within.step' (State.patrol_within _ _ _ _)
    | with_reducible refine OutIn.next ?_
    | split
    | dsimp only

theorem execRefresh_within (a1) (s : State) :
    OutIn [] s (execRefresh a1 s) := by
  unfold execRefresh
  repeat' first
    | with_reducible assumption
    | with_reducible exact Within.refl _ _
    | decide
    | with_reducible refine OutIn.next ?_
    | split
    | dsimp only

theorem execCalibrationWindow_within (a1) (a2) (a3) (s : State) :
    OutIn [.lp] s (execCalibrationWindow a1 a2 a3 s) := by
  unfold execCalibrationWindow
  repeat' first
    | with_reducible assumption
    | with_reducible exact Within.refl _ _
    | decide
    | with_reducible apply Within.step' (State.modPair_within _ _ _)
    | with_reducible refine OutIn.next ?_
    | with_reducible refine Within.ite ?_ ?_
    | with_reducible refine Within.ite_snd ?_ ?_
    | with_reducible intro _
    | split
    | dsimp only

theorem execWriteDqRetrain_within (a1) (s : State) :
    OutIn [.lp] s (execWriteDqRetrain a1 s) := by
  unfold execWriteDqRetrain
  repeat' first
    | with_reducible assumption
    | with_reducible exact Within.refl _ _
    | decide
    | with_reducible apply Within.step' (State.modPair_within _ _ _)
    | with_reducible refine OutIn.next ?_
    | with_reducible refine Within.ite ?_ ?_
    | with_reducible refine Within.ite_snd ?_ ?_
    | with_reducible intro _
    | split
    | dsimp only

theorem execBackgroundDeadline_within (a1) (a2) (s : State) :
    OutIn [.rcv] s (execBackgroundDeadline a1 a2 s) := by
  unfold execBackgroundDeadline
  repeat' first
    | with_reducible assumption
    | with_reducible exact Within.refl _ _
    | decide
    | with_reducible apply Within.step' (State.modRcv_within _ _)
    | with_reducible refine OutIn.next ?_
    | with_reducible refine Within.ite ?_ ?_
    | with_reducible intro _
    | extract_lets
    | split
    | dsimp only

theorem execCheckLineWriteback_within (a1) (a2) (s : State) :
    OutIn [.lp] s (execCheckLineWriteback a1 a2 s) := by
  unfold execCheckLineWriteback
  repeat' first
    | with_reducible assumption
    | with_reducible exact Within.refl _ _
    | decide
    | with_reducible apply Within.step' (State.modLp_within _ _)
    | with_reducible refine OutIn.next ?_
    | with_reducible intro _
    | split
    | dsimp only

theorem execCheckRecomputeDone_within (a1) (s : State) :
    OutIn [.mem, .lp] s (execCheckRecomputeDone a1 s) := by
  unfold execCheckRecomputeDone
  repeat' first
    | with_reducible assumption
    | with_reducible exact Within.refl _ _
    | decide
    | with_reducible apply Within.step' (State.recompute_within _ _)
    | with_reducible refine OutIn.next ?_
    | with_reducible refine Within.ite ?_ ?_
    | with_reducible refine Within.ite_snd ?_ ?_
    | with_reducible intro _
    | split
    | dsimp only

theorem execMr4RateChange_within (a1) (a2) (s : State) :
    OutIn [.out, .tiles, .lp, .brd, .fab, .hst, .itl, .evt, .flog] s (execMr4RateChange a1 a2 s) := by
  unfold execMr4RateChange
  repeat' first
    | with_reducible assumption
    | with_reducible exact Within.refl _ _
    | decide
    | with_reducible apply State.each_within
    | with_reducible apply Within.step' (State.regauge_within _ _)
    | with_reducible apply Within.step' (State.modPair_within _ _ _)
    | with_reducible refine OutIn.next ?_
    | with_reducible refine Within.ite ?_ ?_
    | with_reducible refine Within.ite_snd ?_ ?_
    | with_reducible intro _
    | extract_lets
    | split
    | dsimp only

theorem execRingFetch_within (a1) (a2) (a3) (s : State) :
    OutIn [.out, .mem, .tiles, .mesh, .lp, .xlt, .brd, .fab, .hst, .que, .itl, .sched, .cry, .evt, .flog] s (execRingFetch a1 a2 a3 s) := by
  unfold execRingFetch
  repeat' first
    | with_reducible assumption
    | with_reducible exact Within.refl _ _
    | decide
    | with_reducible apply Within.step' (State.breakQueue_within _ _ _)
    | with_reducible apply Within.step' (State.statusWrite_within _ _)
    | with_reducible refine Within.step' (Within.of_snd (State.statusWrite_within _ _) (by assumption)) ?_ ?_
    | with_reducible apply Within.step' (State.modQ_within _ _ _)
    | with_reducible apply Within.step' (State.fetchAll_within _ _ _ _)
    | with_reducible refine Within.step' (Within.of_snd (State.fetchAll_within _ _ _ _) (by assumption)) ?_ ?_
    | with_reducible refine OutIn.next ?_
    | with_reducible exact Holds.none
    | with_reducible refine Holds.some ?_
    | with_reducible refine Holds.map_state ?_ ?_
    | with_reducible refine Holds.map ?_
    | with_reducible refine Holds.bind ?_
    | with_reducible refine Within.ite ?_ ?_
    | with_reducible intro _
    | extract_lets
    | split
    | dsimp only

theorem execLaunch_within (a1) (a2) (s : State) :
    OutIn [.out, .mem, .tiles, .mesh, .lp, .brd, .fab, .hst, .que, .itl, .sched, .cry, .evt, .flog] s (execLaunch a1 a2 s) := by
  unfold execLaunch
  repeat' first
    | with_reducible assumption
    | with_reducible exact Within.refl _ _
    | decide
    | with_reducible apply Within.step' (State.modCmd_within _ _ _ _)
    | with_reducible apply Within.step' (State.started_within _ _ _)
    | with_reducible apply Within.step' (State.modSched_within _ _)
    | with_reducible apply Within.step' (State.complete_within _ _ _ _ _ _)
    | with_reducible refine OutIn.next ?_
    | with_reducible exact Holds.none
    | with_reducible refine Holds.some ?_
    | with_reducible refine Holds.map_state ?_ ?_
    | with_reducible refine Holds.map ?_
    | with_reducible refine Holds.bind ?_
    | with_reducible refine Within.ite ?_ ?_
    | with_reducible intro _
    | extract_lets
    | split
    | dsimp only

theorem execLaunchTileStart_within (a1) (a2) (a3) (a4) (s : State) :
    OutIn [.out, .mem, .tiles, .mesh, .lp, .xlt, .brd, .fab, .hst, .que, .itl, .rcv, .cry, .evt, .flog] s (execLaunchTileStart a1 a2 a3 a4 s) := by
  unfold execLaunchTileStart
  repeat' first
    | with_reducible assumption
    | with_reducible exact Within.refl _ _
    | decide
    | with_reducible apply Within.step' (State.launchStart_within _ _ _ _ _)
    | with_reducible refine OutIn.next ?_
    | split
    | dsimp only

theorem execSignalCmd_within (a1) (a2) (s : State) :
    OutIn [.out, .mem, .tiles, .mesh, .lp, .xlt, .brd, .fab, .hst, .que, .itl, .cry, .evt, .flog] s (execSignalCmd a1 a2 s) := by
  unfold execSignalCmd
  repeat' first
    | with_reducible assumption
    | with_reducible exact Within.refl _ _
    | decide
    | with_reducible apply Within.step' (State.cmdBadHandle_within _ _ _)
    | with_reducible apply Within.step' (State.complete_within _ _ _ _ _ _)
    | with_reducible apply Holds.step2' (State.signalRef_within _ _ _ _)
    | with_reducible refine Holds.map2_state (State.signalRef_within _ _ _ _) ?_ ?_
    | with_reducible refine Within.step' (Holds.get2 (State.signalRef_within _ _ _ _) (by assumption)) ?_ ?_
    | with_reducible refine OutIn.next ?_
    | with_reducible refine Within.ite ?_ ?_
    | with_reducible intro _
    | split
    | dsimp only

theorem execWaitCmd_within (a1) (a2) (s : State) :
    OutIn [.out, .mem, .tiles, .mesh, .lp, .xlt, .brd, .fab, .hst, .que, .itl, .cry, .evt, .flog] s (execWaitCmd a1 a2 s) := by
  unfold execWaitCmd
  repeat' first
    | with_reducible assumption
    | with_reducible exact Within.refl _ _
    | decide
    | with_reducible apply Within.step' (State.modQue_within _ _)
    | with_reducible apply Within.step' (State.started_within _ _ _)
    | with_reducible apply Within.step' (State.takeRef_within _ _ _)
    | with_reducible apply Within.step' (State.complete_within _ _ _ _ _ _)
    | with_reducible apply Within.step' (State.cmdBadHandle_within _ _ _)
    | with_reducible refine OutIn.next ?_
    | with_reducible refine Within.ite ?_ ?_
    | with_reducible intro _
    | extract_lets
    | split
    | dsimp only

theorem execQueueWaitTimeout_within (a1) (a2) (s : State) :
    OutIn [.out, .mem, .tiles, .mesh, .lp, .brd, .fab, .hst, .que, .itl, .cry, .evt, .flog] s (execQueueWaitTimeout a1 a2 s) := by
  unfold execQueueWaitTimeout
  repeat' first
    | with_reducible assumption
    | with_reducible exact Within.refl _ _
    | decide
    | with_reducible apply Within.step' (State.setQueue_within _ _ _)
    | with_reducible apply Within.step' (State.queueRecord_within _ _ _ _ _ _ _ _)
    | with_reducible apply Within.step' (State.complete_within _ _ _ _ _ _)
    | with_reducible refine OutIn.next ?_
    | with_reducible refine Within.ite ?_ ?_
    | with_reducible intro _
    | extract_lets
    | split
    | dsimp only

theorem execFreeObj_within (a1) (a2) (s : State) :
    OutIn [.out, .mem, .tiles, .mesh, .lp, .xlt, .brd, .fab, .hst, .que, .itl, .cry, .evt, .flog] s (execFreeObj a1 a2 s) := by
  unfold execFreeObj
  repeat' first
    | with_reducible assumption
    | with_reducible exact Within.refl _ _
    | decide
    | with_reducible apply Within.step' (State.freeDone_within _ _ _)
    | with_reducible apply Within.step' (State.cmdBadHandle_within _ _ _)
    | with_reducible apply Within.step' (State.queueFault_within _ _ _ _ _)
    | with_reducible apply Within.step' (State.complete_within _ _ _ _ _ _)
    | with_reducible apply Within.step' (State.objSetState_within _ _ _ _ _)
    | with_reducible apply Within.step' (State.modCmd_within _ _ _ _)
    | with_reducible refine OutIn.next ?_
    | with_reducible refine Within.ite ?_ ?_
    | with_reducible intro _
    | extract_lets
    | split
    | dsimp only

theorem execFaultAck_within (a1) (a2) (s : State) :
    OutIn [.out, .mem, .tiles, .mesh, .lp, .xlt, .brd, .fab, .hst, .que, .itl, .cry, .evt, .flog] s (execFaultAck a1 a2 s) := by
  unfold execFaultAck
  repeat' first
    | with_reducible assumption
    | with_reducible exact Within.refl _ _
    | decide
    | with_reducible apply Within.step' (State.faultAck_within _ _ _)
    | with_reducible refine OutIn.next ?_
    | split
    | dsimp only

theorem execQueueNop_within (a1) (a2) (s : State) :
    OutIn [.out, .mem, .tiles, .mesh, .lp, .brd, .fab, .hst, .que, .itl, .cry, .evt, .flog] s (execQueueNop a1 a2 s) := by
  unfold execQueueNop
  repeat' first
    | with_reducible assumption
    | with_reducible exact Within.refl _ _
    | decide
    | with_reducible apply Within.step' (State.complete_within _ _ _ _ _ _)
    | with_reducible apply Within.step' (State.started_within _ _ _)
    | with_reducible refine OutIn.next ?_
    | split
    | dsimp only

theorem execWaitLimitExpiry_within (a1) (a2) (s : State) :
    OutIn [.out, .mem, .tiles, .mesh, .lp, .brd, .fab, .hst, .que, .itl, .cry, .evt, .flog] s (execWaitLimitExpiry a1 a2 s) := by
  unfold execWaitLimitExpiry
  repeat' first
    | with_reducible assumption
    | with_reducible exact Within.refl _ _
    | decide
    | with_reducible apply Within.step' (State.waitEnds_within _ _ _)
    | with_reducible refine OutIn.next ?_
    | with_reducible refine Within.ite ?_ ?_
    | with_reducible intro _
    | extract_lets
    | split
    | dsimp only

theorem execSemaphoreBorrowStart_within (a1) (a2) (s : State) :
    OutIn [.que] s (execSemaphoreBorrowStart a1 a2 s) := by
  unfold execSemaphoreBorrowStart
  repeat' first
    | with_reducible assumption
    | with_reducible exact Within.refl _ _
    | decide
    | with_reducible apply Within.step' (State.modQue_within _ _)
    | with_reducible refine OutIn.next ?_
    | with_reducible refine Within.ite ?_ ?_
    | with_reducible intro _
    | split
    | dsimp only

theorem execBorrowBudgetExpiry_within (a1) (a2) (s : State) :
    OutIn [.out, .mem, .tiles, .mesh, .lp, .brd, .fab, .hst, .que, .itl, .cry, .evt, .flog] s (execBorrowBudgetExpiry a1 a2 s) := by
  unfold execBorrowBudgetExpiry
  repeat' first
    | with_reducible assumption
    | with_reducible exact Within.refl _ _
    | decide
    | with_reducible apply Within.step' (State.waitEnds_within _ _ _)
    | with_reducible refine OutIn.next ?_
    | with_reducible refine Within.ite ?_ ?_
    | with_reducible intro _
    | split
    | dsimp only

theorem execXltInv_within (a1) (a2) (s : State) :
    OutIn [.out, .mem, .tiles, .mesh, .lp, .xlt, .brd, .fab, .hst, .que, .itl, .cry, .evt, .flog] s (execXltInv a1 a2 s) := by
  unfold execXltInv
  repeat' first
    | with_reducible assumption
    | with_reducible exact Within.refl _ _
    | decide
    | with_reducible apply Within.step' (State.complete_within _ _ _ _ _ _)
    | with_reducible apply Within.step' (State.invalidate_within _ _ _)
    | with_reducible refine OutIn.next ?_
    | split
    | dsimp only

theorem execXltSync_within (a1) (a2) (s : State) :
    OutIn [.que] s (execXltSync a1 a2 s) := by
  unfold execXltSync
  repeat' first
    | with_reducible assumption
    | with_reducible exact Within.refl _ _
    | decide
    | with_reducible apply Within.step' (State.started_within _ _ _)
    | with_reducible refine OutIn.next ?_
    | split
    | dsimp only

theorem execXltSyncDone_within (a1) (a2) (s : State) :
    OutIn [.out, .mem, .tiles, .mesh, .lp, .xlt, .brd, .fab, .hst, .que, .itl, .cry, .evt, .flog] s (execXltSyncDone a1 a2 s) := by
  unfold execXltSyncDone
  repeat' first
    | with_reducible assumption
    | with_reducible exact Within.refl _ _
    | decide
    | with_reducible apply Within.step' (State.cmdBadHandle_within _ _ _)
    | with_reducible apply Within.step' (State.complete_within _ _ _ _ _ _)
    | with_reducible apply Holds.step2' (State.signalRef_within _ _ _ _)
    | with_reducible refine Holds.map2_state (State.signalRef_within _ _ _ _) ?_ ?_
    | with_reducible refine Within.step' (Holds.get2 (State.signalRef_within _ _ _ _) (by assumption)) ?_ ?_
    | with_reducible refine OutIn.next ?_
    | with_reducible refine Within.ite ?_ ?_
    | with_reducible intro _
    | split
    | dsimp only

theorem execCoder_within (a1) (a2) (a3) (s : State) :
    OutIn [.out, .mem, .tiles, .mesh, .lp, .xlt, .brd, .fab, .hst, .que, .itl, .sched, .rcv, .cry, .evt, .flog] s (execCoder a1 a2 a3 s) := by
  unfold execCoder
  repeat' first
    | with_reducible assumption
    | with_reducible exact Within.refl _ _
    | decide
    | with_reducible apply Within.step' (State.coderStart_within _ _ _ _)
    | with_reducible refine OutIn.next ?_
    | split
    | dsimp only

theorem execCoderJobDone_within (a1) (a2) (a3) (s : State) :
    OutIn [.out, .mem, .tiles, .mesh, .lp, .xlt, .brd, .fab, .hst, .que, .itl, .sched, .rcv, .cry, .evt, .flog] s (execCoderJobDone a1 a2 a3 s) := by
  unfold execCoderJobDone
  repeat' first
    | with_reducible assumption
    | with_reducible exact Within.refl _ _
    | decide
    | with_reducible apply Within.step' (State.jobDone_within _ _ _ _)
    | with_reducible refine OutIn.next ?_
    | with_reducible intro _
    | split
    | dsimp only

end Sys2Proof.Machine
end

