-- ==== Sys2Proof/Machine/Noc.lean ====
section
/-! DEFINITION. The packet mesh's ways (R26, R139, R142, R143): where endpoints attach, the routes of a packet and of a
multicast, detours around dead stops, the virtual channels, the queues of edge routers. Nothing here takes time: hops
are counted, not clocked. -/

namespace Sys2Proof.Machine

/-- A stop's place on the straight line across the die (R142): X, and Y the row. -/
structure Coord where
  x : Nat
  y : Nat
deriving DecidableEq, Repr

/-- The coordinates of tile stop `t` (R142): west columns run X 16 to 0, east columns 17 to 33. -/
def coordOf (t : Nat) : Coord :=
  let c := t % 17
  ⟨if t / 272 = 0 then 16 - c else 17 + c, t % 272 / 17⟩
/-- The tile stop at coordinates. -/
def stopAt (p : Coord) : Nat := if p.x ≤ 16 then p.y * 17 + (16 - p.x) else 272 + p.y * 17 + (p.x - 17)

/-- The tile stop that an endpoint attaches at (R139). -/
def attachesAt (stop : Nat) : Nat :=
  if stop < 0x220 then stop
  else if stop < 0x22C then 16 - (stop - 0x220)
  else if stop < 0x238 then 15 * 17 + (16 - (stop - 0x22C))
  else if stop < 0x244 then 272 + (16 - (stop - 0x238))
  else if stop < 0x250 then 272 + 15 * 17 + (16 - (stop - 0x244))
  else if stop < 0x268 then (4 + (stop - 0x250) / 3) * 17 + 16
  else if stop < 0x280 then 272 + (4 + (stop - 0x268) / 3) * 17 + 16
  else if stop = 0x280 then 13 * 17 + 16
  else if stop = 0x281 then 272 + 13 * 17 + 16
  else 8 * 17

/-- Whether an endpoint injects through an endpoint port of its own rather than its stop's queues (R139). -/
def edgePort (stop : Nat) : Bool := decide (0x220 ≤ stop ∧ stop < 0x282)

/-- The virtual channel of a packet within its plane (R142, R143). -/
inductive MeshVc
  | stop | edge | escape
deriving DecidableEq, Repr

/-- One step along an axis. -/
def toward (a b : Nat) : Nat := if a < b then a + 1 else a - 1

/-- The row next to `y` on the way to row 07 or row 08, whichever is nearer (R143). -/
def midRow (y : Nat) : Nat := if y ≤ 7 then y + 1 else y - 1
/-- The X next to `x` on the way to the seam, which lies between X 16 and X 17 (R143). -/
def seamX (x : Nat) : Nat := if x ≤ 16 then x + 1 else x - 1

/-- The stops of the next hop from `p`: one in X, or around a dead stop by a detour through the row toward the middle
(R143). -/
def hopX (dead : Coord → Coord → Bool) (p d : Coord) : List Coord × Bool :=
  let n : Coord := ⟨toward p.x d.x, p.y⟩
  if dead p n && decide (n ≠ d) then ([⟨p.x, midRow p.y⟩, ⟨n.x, midRow p.y⟩], true) else ([n], false)
/-- One in Y, or around a dead stop through the column toward the seam, which the packet leaves again. -/
def hopY (dead : Coord → Coord → Bool) (p d : Coord) : List Coord × Bool :=
  let n : Coord := ⟨p.x, toward p.y d.y⟩
  if dead p n && decide (n ≠ d) then
    let beyond := toward n.y d.y
    ([⟨seamX p.x, p.y⟩, ⟨seamX p.x, n.y⟩, ⟨seamX p.x, beyond⟩, ⟨p.x, beyond⟩], true)
  else ([n], false)

/-- The route from `p` to `d` (R142): X then Y, or Y then X for a packet of an endpoint port; each stop with whether the
packet reaches it in the escape channel. `dead` is what the table of a stop marks. Fuel bounds the hops. -/
def pathFrom (dead : Coord → Coord → Bool) (yFirst : Bool) (d : Coord) : Nat → Coord → List (Coord × Bool)
  | 0, _ => []
  | fuel + 1, p =>
    if p = d then [] else
    let r := if (!yFirst && decide (p.x ≠ d.x)) || (yFirst && decide (p.y = d.y)) then hopX dead p d else hopY dead p d
    r.1.map (fun c => (c, r.2)) ++ pathFrom dead yFirst d fuel (r.1.getLastD p)

/-- Whether the routing table of the stop at `p` marks the stop at `n` dead (R143). -/
def State.markedDead (s : State) (p n : Coord) : Bool := (s.tile (stopAt p)).deadMarks.contains (stopAt n)

/-- The route of a packet between two stops' places: the tile stops it passes after the first, each with its channel. -/
def State.meshRoute (s : State) (src dest : Nat) : List (Nat × MeshVc) :=
  let r := pathFrom s.markedDead (edgePort src) (coordOf (attachesAt dest)) 160 (coordOf (attachesAt src))
  r.map fun c => (stopAt c.1, if c.2 then .escape else if edgePort src then .edge else .stop)

/-- The hops of a request or response (R54, R143). -/
def State.meshHops (s : State) (src dest : Nat) : Nat := (s.meshRoute src dest).length

/-- The links of a multicast's tree (R142): the union of its members' routes; a stop copies the packet onto each link
that leaves it. -/
def State.meshTree (s : State) (src : Nat) (dests : List Nat) : List (Nat × Nat) :=
  (dests.flatMap fun d =>
    let r := attachesAt src :: (s.meshRoute src d).map (·.1)
    List.zip r r.tail).eraseDups
/-- The copies that one stop makes. -/
def State.treeCopies (s : State) (src : Nat) (dests : List Nat) (at_ : Nat) : List Nat :=
  ((s.meshTree src dests).filter fun l => decide (l.1 = at_)).map (·.2)

/-- The queue occupancy that the edge router of a stop counts (R26): flits that wait at the endpoints attached to it. -/
def State.edgeOccupancy (s : State) (stop : Nat) : Nat :=
  let at_ := fun (w : RegWait) => edgePort w.pkt.dest.toNat && decide (attachesAt w.pkt.dest.toNat = stop)
  ((s.sched.waits.filter at_).map fun w => flitsOf w.pkt).sum

end Sys2Proof.Machine
end

