-- ==== Sys2Proof/Machine/Pins.lean ====
section
/-! DEFINITION. The module's pins: what they do while it is unpowered or in reset (R590), its SMBus address (R600), the
contacts of its fabric ports (R606). -/

namespace Sys2Proof.Machine

/-- Groups of pins (R590); PCIe pins by host port. -/
inductive Pins
  | input48
  | pcieLanes (h : HPortIx)
  | pcieInputs (h : HPortIx)
  | fabricTransmit
  | fabricReceive
  | mrst
  | sideband
  | tether
deriving DecidableEq, Repr

/-- What pins do (R590); `working` for pins of a module that serves. -/
inductive PinState
  | blocksCurrent
  | highImpedance
  | failSafeInput
  | input
  | electricalIdle
  | passiveTermination
  | quietCommonMode
  | terminatedIgnored
  | working
deriving DecidableEq, Repr

/-- Whether pins are in reset (R590): before step 5 of R579, or under PERST# of their host port. -/
def State.pinsReset (s : State) (p : Pins) : Bool :=
  decide (s.boot.step < 5) || match p with
    | .pcieLanes h | .pcieInputs h => (s.hport h.val).perst
    | _ => false

/-- R590. -/
def State.pinState (s : State) (p : Pins) : PinState :=
  if s.boot.power = .off then
    match p with
    | .input48 => .blocksCurrent
    | .pcieLanes _ => .highImpedance
    | .pcieInputs _ => .failSafeInput
    | .fabricTransmit => .passiveTermination
    | .fabricReceive => .passiveTermination
    | .mrst => .highImpedance
    | .sideband => .highImpedance
    | .tether => .highImpedance
  else if s.pinsReset p then
    match p with
    | .input48 => .working
    | .pcieLanes _ => .electricalIdle
    | .pcieInputs _ => .input
    | .fabricTransmit => .quietCommonMode
    | .fabricReceive => .terminatedIgnored
    | .mrst => .input
    | .sideband => .highImpedance
    | .tether => .highImpedance
  else .working

/-- The 7-bit SMBus address (R600): the straps as power-up read them. -/
def State.smbusAddress (s : State) : Nat := 0x58 + s.boot.strap.toNat

/-- Connector, slot and differential pair of a lane position of a port (R606): `rx` for the receive direction. -/
def fabricContact (port : LPort) (rx : Bool) (pos : Nat) : Nat × Nat × Nat :=
  let j := port.val % 4
  (port.val / 4, j, 36 * j + (if rx then 18 else 0) + pos)

end Sys2Proof.Machine
end

