-- ==== Sys2Proof/WellFormed.lean ====
section
/-! DEFINITION. Well-formed commands: operands that their path can carry (R13, R262, R325, R363, R390). -/

namespace Sys2Proof

/-- A command whose operands fit the path it arrives on. -/
def WellFormed : Instr → Bool
  | .registerWrite _ _ log2 value => decide (value.toNat < 2 ^ (8 * 2 ^ log2.val))
  | .doorbell _ _ _ _ log2 value _ => decide (value.toNat < 2 ^ (8 * 2 ^ log2.val))
  | .linkFrameReceive _ f => decide (f.slots.length ≤ 23)
  | .ringFetch _ ps _ => decide (1 ≤ ps.length && ps.length ≤ 8)
  | .mctpMessage _ m => decide (64 ≤ m.length && m.length ≤ 4096)
  | .peerMessage _ m => decide (64 ≤ m.length && m.length ≤ 4096)
  | .siteSessionMessage m => decide (64 ≤ m.length && m.length ≤ 4096)
  | .bar2Write _ _ _ d _ => decide (d.length ≤ 512)
  | .bar2Read _ _ _ n _ _ => decide (n ≤ 4096)
  | .meshRead p _ => decide (p.type = 1)
  | .meshWrite p _ => decide (p.type = 2)
  | .meshAtomic p _ _ => decide (p.type = 3)
  | .meshUnknownType p => decide (p.type = 0 ∨ 8 < p.type.toNat)
  | .readResponse p => decide (p.type = 4)
  | .writeAcknowledgement p => decide (p.type = 5)
  | .atomicResponse p => decide (p.type = 6)
  | .epochFrame f => decide (f.length = 20)
  | _ => true

end Sys2Proof
end

