-- ==== Sys2Proof/Tests/Slice0.lean ====
section
/-! SUPPORT. The model's own tests: ill-formed commands are refused, instruction words decode as the spec encodes them, and
for each statement of Obligations.lean a small state that meets the hypotheses of its clauses. -/

namespace Sys2Proof.Tests

-- one theorem at a time: each takes a kernel evaluation of its own
set_option Elab.async false

open Sys2Proof.Machine

/-! ### Ill-formed commands, one for each check of WellFormed -/

/-- A packet with nothing set. -/
def noPacket : Packet :=
  { type := 0, dest := 0, src := 0, tag := 0, cid := 0, ctx := 0, epoch := 0, cls := 0, deadline := 0, rights := 0, addr := 0,
    byteEn := 0, status := 0, operand := 0, data := 0 }

/-- A whole data frame with no slots. -/
def noFrame : Frame :=
  { first := true, second := true, crcOk := true, ftype := 1, replay := false, nak := false, seq := 0, ack := 0,
    credits := 0, slots := [], ctrl := [], corrected := [], tagOk := true }

theorem test_wf_register_value : WellFormed (.registerWrite (.zesin false) 0 2 0x100000000) = false := by decide
theorem test_wf_register_fits : WellFormed (.registerWrite (.zesin false) 0 2 0xFFFFFFFF) = true := by decide
theorem test_wf_doorbell_value : WellFormed (.doorbell 0 0 0 0 1 0x10000 false) = false := by decide
theorem test_wf_frame_slots :
    WellFormed (.linkFrameReceive 0 { noFrame with slots := List.replicate 24 (0, 0) }) = false := by decide
theorem test_wf_ring_packets : WellFormed (.ringFetch 0 [] true) = false ∧
    WellFormed (.ringFetch 0 (List.replicate 9 0) true) = false := by decide
theorem test_wf_message_lengths : WellFormed (.mctpMessage 0 (List.replicate 63 0)) = false ∧
    WellFormed (.peerMessage (0, 0) (List.replicate 63 0)) = false ∧
    WellFormed (.siteSessionMessage (List.replicate 63 0)) = false := by decide
theorem test_wf_bar2_sizes : WellFormed (.bar2Write 0 0 0 (List.replicate 513 0) false) = false ∧
    WellFormed (.bar2Read 0 0 0 4097 false 0) = false := by decide +kernel
theorem test_wf_mesh_types : WellFormed (.meshRead noPacket .clean) = false ∧ WellFormed (.meshWrite noPacket .clean) = false ∧
    WellFormed (.meshAtomic noPacket .add .clean) = false ∧
    WellFormed (.meshUnknownType { noPacket with type := 8 }) = false ∧ WellFormed (.readResponse noPacket) = false ∧
    WellFormed (.writeAcknowledgement noPacket) = false ∧ WellFormed (.atomicResponse noPacket) = false := by decide
theorem test_wf_epoch_frame : WellFormed (.epochFrame (List.replicate 19 0)) = false := by decide

/-! ### Instruction words, written out from R116, R120 and R123 -/

/-- OPC 0x50, CH 3 in bits 55:53, SD 9 in bits 52:48. -/
theorem test_word_stream_start : wordCommand 1 2 0x5069000000000000 .clean = .streamStart 1 2 3 9 .clean := by decide
/-- OPC 0x58, DST 1, SRCA 2, SRCB 3. -/
theorem test_word_fence_signal : wordCommand 0 0 0x5808860000000000 .clean = .fenceSignal 0 0 ⟨1, 2, 3⟩ := by decide
/-- OPC 0x5D, DST 1, SRCA 2, SRCB 3, H in bit 40, TIMEOUT 5 in bits 39:24. -/
theorem test_word_bar_wait : wordCommand 0 0 0x5D08870005000000 .clean = .barWait 0 0 1 2 3 true 5 := by decide
/-- OPC 0x60, DST 4, the clear mask 0x1F in bits 4:0. -/
theorem test_word_flags : wordCommand 0 0 0x602000000000001F .clean = .flagsOp 0 0 4 0x1F := by decide
/-- OPC 0x40, ACC 1 in bits 55:54, SRCA 2, SRCB 3, K 64 in bits 40:23, NCOL 64 in bits 22:16. -/
theorem test_word_mma_b : wordCommand 0 0 0x4040860020400000 .clean =
    .mmaB 0 0 { acc := 1, m := 0, sa := 2, sb := 3, k := 64, ncol := 64, reserved := 0 } [] := by decide
/-- OPC 0x61 alone ends the program; with its bit 0 set it is illegal, as OPC 0x63 is. -/
theorem test_word_end_and_illegal : wordCommand 0 0 0x6100000000000000 .clean = .endOp 0 0 ∧
    wordCommand 0 0 0x6100000000000001 .clean = .scalarOp 0 0 .illegal ∧
    wordCommand 0 0 0x6300000000000000 .clean = .scalarOp 0 0 .illegal := by decide

/-! ### States the witnesses stand in -/

/-- The state that a command leaves (State.reset where it answers none). -/
def after (c : Instr) (s : State) : State := match exec c s with
  | .next t => t
  | _ => State.reset

/-- The page of DVA 0 to 64 KiB at the first bytes of tile 0's bonded SRAM, readable and writable, for context (1, 1). -/
def page : XEntry := { cid := 1, ctx := 1, base := 0, log2 := 16, leaf := 0x80003F0000000070 }

/-- Bank 0 of a tile, running a program of context (1, 1). -/
def bank0 : Bank := { st := .running, ctx := 1, cid := 1, inProg := true }

/-- Tile 0 with its core on, a share of one granule, that granule its context's, and the page in its look-aside. -/
def tile0 : Tile :=
  { clamp := false, gate := false, narrow := true, powered := true, clamped := false, look := [page], banks := [(0, bank0)],
    srm := { sh := .of { share := [(0, ⟨true, 1, 0⟩)], gran := [(0, ⟨true, false, 1, 1⟩)] } } }

/-- A module in full service whose slot 5 is bound to composition 1 and whose tile 0 is `t`. -/
def world (t : Tile) : State :=
  { State.reset with
    tiles := [(0, t)], boot := { State.reset.boot with power := .full, service := 2, step := 8 },
    itl := { State.reset.itl with avail := true },
    brd := { State.reset.brd with
      sh := .of { slots := [(5, (true, 1))] }
      leases := [(1, { st := .held, epoch := 7 })]
      images := [(1, { entries := [.tiles 0 0 0 0] })] } }

/-- As `world tile0`, its bank holding the scalar registers `r`. -/
def running (r : Tab DWord) : State := world { tile0 with banks := [(0, { bank0 with sReg := r })] }

/-! ### The machine as a whole, tiles -/

theorem witness_step : ({ State.reset with pending := [.coreClamp 5 0x80] } : State).pending = [.coreClamp 5 0x80] ∧
    State.reset.pending = [] := by decide
theorem witness_memory_canonical : MemoryCanonical { State.reset with mem := [(1, 7), (5, 1)] } ∧
    ¬ MemoryCanonical { State.reset with mem := [(1, 0)] } := by unfold MemoryCanonical; decide +kernel

/-- A clamped tile refuses to have CORE_GATE cleared with CORE_CLAMP; a serving one takes the clamp. -/
theorem witness_tile_control : tilRefused (world { tile0 with clamp := true, gate := true, clamped := true }) 0 0 ∧
    ¬ tilRefused (world tile0) 0 0x80 ∧ noCopyWaits (world tile0) 0 ∧ ((after (.coreClamp 0 0x80) (world tile0)).tile 0).clamp = true := by
  unfold tilRefused noCopyWaits
  refine ⟨?_, ?_, by decide +kernel, by decide +kernel⟩
  · exact .inr (.inl (by decide +kernel))
  · decide +kernel

/-- TIL_STATUS follows CORE_GATE and ISSUE_HOLD. -/
def gated : State := world { tile0 with gate := true, issueHold := true }
theorem witness_tile_status : (gated.tile 0).gate = true ∧ (gated.tile 0).issueHold = true ∧
    ((after (.coreUnpowered 0) gated).tile 0).powered = false ∧ ((after (.issueHeld 0) gated).tile 0).issueHeld = true := by
  decide +kernel

/-- HOLD, a purge that is ignored and one that is taken, a purge that can end. -/
def purging : State := world { tile0 with banks := [(0, { bank0 with st := .purging, progress := 9 })] }
theorem witness_bank_control : (1 : Word) &&& 0xFFFFFFFE = 0 ∧ ((after (.bankHold 0 0 1) (world tile0)).bank 0 0).hold = true ∧
    (2 : Word) &&& 0xFFFFFFFC = 0 ∧ bit (2 : Word) 1 = true ∧ ((world tile0).bank 0 1).st = .empty ∧
    ((after (.bankPurge 0 1 2) (world tile0)).tile 0).err.order = 1 ∧ ((world tile0).bank 0 0).st = .running ∧
    ((after (.bankPurge 0 0 2) (world tile0)).bank 0 0).st = .purging := by decide +kernel
theorem witness_purge_ends : (purging.bank 0 0).st = .purging ∧ purging.outstanding 0 0 = false ∧
    ((after (.purgeComplete 0 0) purging).bank 0 0).progress = 0 := by decide +kernel

/-- A commit of LNK_EXPECT that waits, one to port 48, and one that passes. -/
def expecting (e : Sh LnkExpect) : State := { State.reset with lnk := [(3, { expect := e })] }
def port48 : LnkExpect := { en := true, port := 48 }
def port47 : LnkExpect := { en := true, port := 47 }
theorem witness_link_commit : ((expecting ⟨{}, port47, some port47, false⟩).port 3).expect.acc.isSome = true ∧
    ((expecting ⟨{}, port48, none, false⟩).port 3).expect.acc = none ∧
    47 < ((expecting ⟨{}, port48, none, false⟩).port 3).expect.pend.port.toNat ∧
    ((after (.lnkCommitGo 3) (expecting ⟨{}, port48, none, false⟩)).port 3).expect.pend = {} ∧
    ((after (.lnkCommitGo 3) (expecting ⟨{}, port47, none, false⟩)).port 3).expect.acc = some port47 := by decide +kernel

/-- A GO of the composition's blocks that waits, one that passes, and one refused (two slots of one CID). -/
def twoSlots : State := { world tile0 with brd := { (world tile0).brd with
  sh := { (world tile0).brd.sh with pend := { slots := [(5, (true, 1)), (6, (true, 1))] } } } }
def xltWaits : State := { world tile0 with xlt := { sh := ⟨{}, {}, some {}, false⟩ } }
theorem witness_composition_commit : xltWaits.compWaits = true ∧ (world tile0).compWaits = false ∧
    ((world tile0).allCheck (world tile0).slotNwin fun t b => ((world tile0).bank t b).cid) = none ∧
    (after .brdCommitGo (world tile0)).brd.waiting = true ∧ twoSlots.compWaits = false ∧
    (twoSlots.allCheck twoSlots.slotNwin fun t b => (twoSlots.bank t b).cid).isSome = true ∧
    (after .brdCommitGo twoSlots).brd.sh.pend = twoSlots.brd.sh.act := by decide +kernel

/-- Out of the ranges of R467 and R470, and just inside them. -/
def cadPending (m : BitVec 2) (n : BitVec 20) : State :=
  { State.reset with cad := { State.reset.cad with sh := { State.reset.cad.sh with pend := ⟨m, n⟩ } } }
def pwrPending (p : PwrSh) : State :=
  { State.reset with pwr := { State.reset.pwr with sh := { State.reset.pwr.sh with pend := p } } }
theorem witness_cadence_commit : (after .cadCommitGo (cadPending 3 50000)).cad.lastRefusal = 1 ∧
    (after .cadCommitGo (cadPending 0 999)).cad.lastRefusal = 2 ∧
    (after .cadCommitGo (cadPending 0 1000)).cad.sh.acc = some ⟨0, 1000⟩ ∧
    (after .cadCommitGo (cadPending 0 1000000)).cad.lastRefusal = 0 := by decide +kernel
theorem witness_power_commit : (after .pwrCommitGo (pwrPending { cap := 2801 })).pwr.lastRefusal = 1 ∧
    (after .pwrCommitGo (pwrPending { first := 1 })).pwr.lastRefusal = 2 ∧
    (after .pwrCommitGo (pwrPending { slew := 401 })).pwr.lastRefusal = 3 ∧
    (after .pwrCommitGo (pwrPending { balFmt := 1 })).pwr.lastRefusal = 4 ∧
    (after .pwrCommitGo (pwrPending { cap := 1000 })).pwr.sh.acc = some { cap := 1000 } := by decide +kernel

/-- The drain of an isolated tile with a healthy spare in its row and without one, and its timeout. -/
def isolated : State :=
  { world { tile0 with clamp := true, clamped := true, banks := [] } with rcv := { isolations := [{ tile := 0 }] } }
def isolatedAlone : State := { isolated with tiles := isolated.tiles ++ [(16, { role := .retired })] }
theorem witness_purge_timeout : (purging.bank 0 0).st = .purging ∧ purging.recovering 0 = false ∧
    (purging.tile 0).role = .grid ∧ purging.rcv.isolations = [] ∧
    ((after (.purgeTimeout 0 0) purging).bank 0 0).fault = ⟨true, 8, 0⟩ := by decide +kernel
theorem witness_isolation_drains : (isolated.tile 0).gate = false ∧ isolated.coreOutstanding 0 = false ∧
    isolated.rowSpare 0 0 = some 16 ∧ (after (.isolationDrainDone 0) isolated).rcv.shifts.length = 1 ∧
    isolatedAlone.rowSpare 0 0 = none ∧ ((after (.isolationDrainDone 0) isolatedAlone).tile 0).role = .retired ∧
    isolated.rcv.st = .normal ∧ (after (.isolationDrainTimeout 0) isolated).rcv.pendingHalf.isSome = true := by
  decide +kernel

/-- A row shift whose fence counts nothing, one whose copy ends; a serving tile and a spare whose shell fails. -/
def shift0 : RowShift := { half := 0, row := 0, failed := 0, skip := 16, opened := true, cids := [1] }
def shifting (x : RowShift) : State := { world { tile0 with banks := [] } with rcv := { shifts := [x] } }
theorem witness_row_shift_copy : (shifting shift0).slotOf 1 = some 5 ∧ ((shifting shift0).fence 5).count = 0 ∧
    shift0.opened = true ∧ shift0.copying = false ∧
    ((after (.shiftCopyStart 0 0) (shifting shift0)).tile 1).shiftBusy = true := by decide +kernel
theorem witness_row_shift_ends : (shifting { shift0 with copying := true }).itl.held = none ∧
    (shifting { shift0 with copying := true }).compWaits = false ∧
    (after (.shiftCopyDone 0 0) (shifting { shift0 with copying := true })).itl.held.isSome = true := by decide +kernel
theorem witness_shell_failure : ((world tile0).tile 0).role = .grid ∧ ((world tile0).tile 16).role = .spare ∧
    ((after (.shellFailure 0 0) (world tile0)).tile 0).stopDead = true ∧
    ((after (.shellFailure 16 0) (world tile0)).tile 16).role = .retired := by decide +kernel

/-- A bank that has not moved since the last sample. -/
def still : State :=
  { world { tile0 with banks := [(0, { bank0 with run := 5 })] } with rcv := { lastProgress := [(0, 0)] } }
theorem witness_hang_sample : still.cad.tick.toNat % 65536 = 0 ∧ still.itl.avail = true ∧ (still.bank 0 0).st ≠ .empty ∧
    still.recovering 0 = false ∧ still.cidStalled 1 = false ∧ (after .hangSample still).rcv.st = .normal := by
  decide +kernel

/-- Half and module recoveries at each of their steps. -/
def laddered (r : Rec) : State := { world tile0 with rcv := r }
theorem witness_half_recovery_due : (after (.unresponsiveBlock 1) (laddered {})).rcv.pendingHalf = some (1, false) := by
  decide +kernel
theorem witness_half_recovery_start :
    (after (.halfRecoveryStart 0 true) (laddered { pendingHalf := some (0, true) })).rcv.st = .half := by decide +kernel
theorem witness_half_drain : (after (.halfDrainTimeout 0) (laddered { st := .half, step := 1 })).rcv.step = 2 := by
  decide +kernel
theorem witness_half_recovery_end : (laddered { st := .half, step := 2 }).rcv.half = (0 : Half).val ∧
    (laddered { st := .half, step := 2 }).rcv.step = 2 ∧
    ∀ p, p / 96 = 0 → ((laddered { st := .half, step := 2 }).pair p).st ≠ .selfRefresh :=
  ⟨rfl, rfl, fun p _ h => by simp [laddered, world, State.pair, Tab.get, State.reset] at h⟩
theorem witness_module_recovery : (after .recoveryTimeout (laddered { st := .half })).rcv.pendingModule = some false ∧
    (after (.moduleRecoveryStart true true) (laddered { pendingModule := some true })).rcv.st = .module ∧
    (after .recoveryTimeout (laddered { st := .module, failedModule := 1 })).rcv.st = .halted := by decide +kernel

/-! ### Tile instructions -/

theorem witness_runs_next : runsNext (running []) 0 0 := by unfold runsNext; decide +kernel

/-- An addition that wraps, a branch each way, a call, a return, an illegal target; FLAGS and END. -/
def scalars : State := running [(1, 0xFFFFFFFFFFFFFFFF), (2, 2), (3, 0x40)]
theorem witness_scalar : runsNext scalars 0 0 ∧ ((after (.scalarOp 0 0 (.alu .add 4 1 2)) scalars).bank 0 0).s 4 = 1 ∧
     ((after (.scalarOp 0 0 (.alu .shl 4 2 1)) scalars).bank 0 0).s 4 = 0 ∧
     ((after (.scalarOp 0 0 (.aluImm .ltS 4 1 0)) scalars).bank 0 0).s 4 = 1 ∧
     ((scalars.bank 0 0).s 0 = 0 ∧ ((after (.scalarOp 0 0 (.branch 0 true 0x20)) scalars).bank 0 0).pc = 4) ∧
     ((scalars.bank 0 0).s 1 ≠ 0 ∧ ((after (.scalarOp 0 0 (.branch 1 true 0x20)) scalars).bank 0 0).pc = 1) ∧
     ((after (.scalarOp 0 0 (.call 5 0x20)) scalars).bank 0 0).s 5 = 8 ∧
     (((scalars.bank 0 0).s 3).toNat % 8 = 0 ∧ ((after (.scalarOp 0 0 (.ret 3)) scalars).bank 0 0).pc = 8) ∧
     ((after (.scalarOp 0 0 (.jump 4)) scalars).bank 0 0).fault = ⟨true, 1, 0⟩ ∧
     ((after (.endOp 0 0) scalars).bank 0 0).st = .loaded := by unfold runsNext; decide +kernel

/-- DVA 64 of the page lies in the bank's own share, for the widths of a scalar, a P and a V register. -/
theorem witness_own_span : ownSpan (running [(1, 64)]) 0 0 64 64 8 ∧ ownSpan (running [(1, 64)]) 0 0 64 64 16 ∧
    ownSpan (running [(1, 64)]) 0 0 64 64 512 := by
  unfold ownSpan
  refine ⟨⟨by decide, by decide, page, ?_⟩, ⟨by decide, by decide, page, ?_⟩, ⟨by decide, by decide, page, ?_⟩⟩ <;>
    decide +kernel

/-- A store of two bytes, a load of them, and an atomic sum on their word. -/
def storing : State := running [(1, 64), (2, 0x1FF)]
def stored2 : State := after (.scalarMemory 0 0 (.store 1 2 1 0) .clean) storing
theorem witness_memory_instructions : MemoryCanonical storing ∧
    stored2.mem = [(sramKey 0 64, 0xFF), (sramKey 0 65, 1)] ∧
    ((after (.scalarMemory 0 0 (.load 0 true 3 1 0) .clean) stored2).bank 0 0).s 3 = 0xFFFFFFFFFFFFFFFF ∧
    ((after (.scalarMemory 0 0 (.atomic .add 3 2 0 1 0) .clean) stored2).bank 0 0).s 3 = 0x1FF ∧
    (after (.scalarMemory 0 0 (.atomic .add 3 2 0 1 0) .clean) stored2).mem =
      [(sramKey 0 64, 0xFE), (sramKey 0 65, 3)] := by
  unfold MemoryCanonical; decide +kernel

/-- A vector store and a load back; an integer sum on 16-bit lanes; an FP32 sum 1.5 + 2.5 and a comparison. -/
def vectors : State := world { tile0 with banks := [(0, { bank0 with
  sReg := [(1, 64)], vReg := [(0, 0x3FC00000), (1, 0xFFFF), (128, 0x40200000), (129, 0x10001)] })] }
theorem witness_vector_memory : runsNext vectors 0 0 ∧ ((after (.vectorMemory 0 0 (.load 3 1 0) .clean)
    (after (.vectorMemory 0 0 (.store 0 1 0) .clean) vectors)).bank 0 0).v32 3 0 = 0x3FC00000 := by
  unfold runsNext; decide +kernel
theorem witness_vector_lanes : vecFmt (.float .add 0 2 0 1) = some 0 ∧
    ((after (.vectorOp 0 0 (.int .add false 2 0 1)) vectors).bank 0 0).v32 2 1 = 0x10000 ∧
    ((after (.vectorOp 0 0 (.float .add 0 2 0 1)) vectors).bank 0 0).v32 2 0 = 0x40800000 ∧
    ((after (.vectorOp 0 0 (.cmp .lt 0 1 0 1)) vectors).bank 0 0).p 1 &&& 1 = 1 := by decide +kernel

/-- A conversion of 1.5 from FP32 to BF16, and a quantize of one element; the tile takes their operand types. -/
def convert0 : Conversion := { dst := 1, src := 0, scale := 2, srcType := 0, dstFmt := 2, rm := .rne, sat := false }
def quantize0 : Quantize := { dst := 1, src := 0, src2 := 0, scale := 3, srcFmt := 0, dstFmt := 0x13, count := 1, rm := .rne }
theorem witness_operand_types : vectors.optype 0 1 convert0.srcType = .ok (.fp32, false) ∧
    vectors.optype 0 1 convert0.dstFmt = .ok (.bf16, false) ∧ vectors.optype 0 1 quantize0.srcFmt = .ok (.fp32, false) ∧
    vectors.optype 0 1 quantize0.dstFmt = .ok (.e4m3, true) ∧ isLane .e4m3 = false ∧ 1 ≤ quantize0.count.val ∧
    quantize0.count.val ≤ Fmt.block .e4m3 := ⟨rfl, rfl, rfl, rfl, by decide +kernel⟩
theorem witness_conversion : ((after (.conversion 0 0 convert0) vectors).bank 0 0).v32 1 0 % 65536 = 0x3FC0 ∧
    ((after (.blockQuantize 0 0 quantize0) vectors).bank 0 0).pc = 1 := by decide +kernel

/-! ### Matrix instructions, streams and neighbour links -/

/-- A line with the values `v` of the fields (byte offset, value) added up. -/
def lineOf (fields : List (Nat × Nat)) : Line := BitVec.ofNat 512 ((fields.map fun f => f.2 * 2 ^ (8 * f.1)).sum)

/-- The cells of a line stored at a memory key. -/
def cells (key : Nat) (l : Line) : List Host.Cell :=
  (List.range 64).filterMap fun i =>
    let b : Byte := l.extractLsb' (8 * i) 8
    if b = 0 then none else some (key + i, b)

/-- As `running r`, with lines stored in tile 0's SRAM at rising offsets. -/
def runningWith (r : Tab DWord) (lines : List (Nat × Line)) : State :=
  { running r with mem := lines.flatMap fun x => cells (sramKey 0 x.1) x.2 }

/-- Descriptors of BF16 operands at bytes 64 (A) and 2112 (B) of the share, 64 bytes a row, 32 and 1 rows. -/
def mmaState : State :=
  runningWith [(1, 0), (2, 16)] [(0, lineOf [(0, 64 + 2 * 2 ^ 25), (8, 64), (16, 2112 + 2 * 2 ^ 25), (24, 64)]),
    (64, lineOf [(0, 0x3F80)]), (2112, lineOf [(0, 0x4000)])]

def mmaOp : Mma := { acc := 1, m := 0, sa := 1, sb := 2, k := 1, ncol := 1, reserved := 0 }

/-- Both operand descriptors read, the pair stands, and the product 1 × 2 is row 0, column 0 of the accumulator. -/
theorem witness_matrix : runsNext mmaState 0 0 ∧ (mmaState.opnd 0 0 0 32 1).toOption.isSome = true ∧
    (mmaState.opnd 0 0 16 1 1).toOption.isSome = true ∧ pairOk .bf16 .bf16 = true ∧
    ((after (.mmaB 0 0 mmaOp []) mmaState).bank 0 0).accAt 1 0 0 = 0x40000000 ∧
    ((after (.accZero 0 0 1) (after (.mmaB 0 0 mmaOp []) mmaState)).bank 0 0).accAt 1 0 0 = 0 ∧
    ((after (.accMov 0 0 1 0 3 true) (after (.mmaB 0 0 mmaOp []) mmaState)).bank 0 0).v32 3 64 = 0x40000000 := by
  unfold runsNext; decide +kernel

/-- A receive ring of 128 bytes at byte 128 of the page, on port E. -/
def recvDesc : Line := lineOf [(0, 0x12), (4, 4), (16, 128), (0x18, 7 * 2 ^ 24), (0x28, 8), (0x2C, 1)]
/-- A copy of a row of 64 bytes from byte 64 to byte 128. -/
def copyDesc : Line := lineOf [(4, 1), (8, 64), (16, 128), (0x18, 64)]
/-- A send ring like `recvDesc`, to channel 2 of the peer, one slot of 8 cycles. -/
def sendDesc : Line := lineOf [(0, 0x1011), (4, 4), (8, 128), (0x18, 7 * 2 ^ 24), (0x28, 8), (0x2C, 1)]

def recvAt : State := runningWith [] [(0, recvDesc)]
def copyAt : State := runningWith [] [(0, copyDesc)]
theorem witness_newest_page : onNewestPage recvAt 0 0 page 0 0 64 ∧ onNewestPage recvAt 0 0 page 128 128 128 ∧
    onNewestPage copyAt 0 0 page 64 64 64 ∧ onNewestPage copyAt 0 0 page 128 128 64 := by
  refine ⟨?_, ?_, ?_, ?_⟩ <;> (unfold onNewestPage; decide +kernel)

theorem witness_receive_start : runsNext recvAt 0 0 ∧ (recvAt.chan 0 3).st = .idle ∧
    recvAt.line (sramKey 0 0) = recvDesc ∧ dBad recvDesc = false ∧ dSignal recvDesc = false ∧ dKind recvDesc = 2 ∧
    (recvAt.neighbour 0 (dPort recvDesc)).isSome = true ∧ dDst recvDesc % dRing recvDesc = 0 ∧
    (after (.streamStart 0 0 3 1 .clean) recvAt).out = [.sideband 0 1 (.pairing 3 1 1 1)] := by
  unfold runsNext; decide +kernel
theorem witness_copy_start : dBad copyDesc = false ∧ dSignal copyDesc = false ∧ dKind copyDesc = 0 ∧
    copyAt.line (sramKey 0 0) = copyDesc ∧ (dSpans copyDesc).map (·.at_) = [64, 128] ∧
    ((after (.streamStart 0 0 3 1 .clean) copyAt).chan 0 3).d = copyDesc := by decide +kernel

/-- Tile 0 with the channel `c` as its channel 3. -/
def withChan (c : Chan) : State :=
  { world { tile0 with banks := [(0, { bank0 with sReg := [(1, 2)] })], chans := [(3, c)] } with
    mem := cells (sramKey 0 0) sendDesc }

def sending : Chan := { st := .active, link := true, d := sendDesc, ring := 128, armed := 1, credits := 1, pages := [page] }
def receiving : Chan := { st := .active, link := true, d := recvDesc, ring := 128, pages := [page] }
/-- The receive channel 3 of tile 0, with the send channel 6 of tile 272, across the seam, that it is paired with. -/
def paired : State := { withChan receiving with tiles := (withChan receiving).tiles ++ [(272, { chans := [(6,
  { sending with d := lineOf [(0, 0x1831), (4, 4), (8, 128), (0x18, 7 * 2 ^ 24), (0x28, 8), (0x2C, 1)] })] })] }

/-- ARM of two beats on a send channel, and on a receive channel paired and not paired. -/
theorem witness_stream_arm : liveLink sending 0 ∧ dKind sending.d = 1 ∧
    sending.armed + sending.beats + 2 ≤ dCount sending.d ∧
    ((after (.streamArm 0 0 3 1) (withChan sending)).chan 0 3).armed = 3 ∧ liveLink receiving 0 ∧ dKind receiving.d = 2 ∧
    receiving.released + 2 ≤ dCount receiving.d ∧ (withChan receiving).sender 0 1 3 = none ∧
    ((after (.streamArm 0 0 3 1) (withChan receiving)).chan 0 3).owed = 2 ∧ paired.sender 0 1 3 = some 6 ∧
    (after (.streamArm 0 0 3 1) paired).out = [.sideband 0 1 (.credits 6 2)] := by unfold liveLink; decide +kernel
/-- ARM of an idle channel; WAIT for an active one; STOP of one. -/
theorem witness_stream_wait_stop : ¬ liveLink ({} : Chan) 0 ∧ ((withChan sending).chan 0 0).st = .idle ∧
    ((after (.streamWait 0 0 3) (withChan sending)).bank 0 0).wait = some (.chan 3) ∧
    ((after (.streamStop 0 0 3) (withChan sending)).chan 0 3).st = .done := by unfold liveLink; decide +kernel
theorem witness_writes_back : writesBack (withChan sending) 0 3 := by
  unfold writesBack
  exact ⟨0x3F0000000000, 0, by decide +kernel⟩

/-- A slot that sends, one with no credit, one that a lower channel takes. -/
def contended : State := world { tile0 with chans := [(1, sending), (3, sending)] }
theorem witness_link_slots : (withChan sending).coreOn 0 0 = true ∧ (withChan sending).slotTaken 0 3 0 = false ∧
    sending.beats + 1 ≠ dCount sending.d ∧ (withChan sending).ringChecks 0 0 128 .rd = true ∧
    (after (.linkSlot 0 3) (withChan sending)).out = [.sideband 0 1 (.beat 2 0)] ∧
    ((after (.linkSlot 0 3) (withChan { sending with credits := 0 })).chan 0 3).emptySlots = 1 ∧
    contended.slotTaken 0 3 0 = true ∧ ((after (.linkSlot 0 3) contended).chan 0 3).collisions = 1 := by decide +kernel

/-- A beat that is stored, one that is discarded; a pairing word for no sender, for one, and of another context; a credit. -/
theorem witness_link_beats : receiving.stopping = false ∧ dPort receiving.d = 1 ∧
    (withChan receiving).ringChecks 0 0 128 .wr = true ∧
    ((after (.linkBeat 0 1 3 1) (withChan receiving)).chan 0 3).beats = 1 ∧
    (after (.linkBeat 0 0 3 1) (withChan receiving)).mesh.discardedBeats = 1 := by decide +kernel
theorem witness_pairing_and_credits :
    Tab.find ((after (.pairingWord 0 2 2 1 1 5) (withChan sending)).tile 0).pairings 18 = some ⟨1, 1, 5⟩ ∧
    ((after (.pairingWord 0 1 2 1 1 5) (withChan sending)).chan 0 3).credits = 6 ∧
    ((after (.pairingWord 0 1 2 1 2 5) (withChan sending)).bank 0 0).fault = ⟨true, 6, 4⟩ ∧
    ((after (.linkCreditReturn 0 3 7) (withChan sending)).chan 0 3).credits = 9 := by decide +kernel

/-! ### Handles, barriers, walks and page requests -/

/-- Tables at MPA 0: the entry of context 1 at 16, its root at 64 KiB, two levels, and leaves
of 1 GiB at tile 0's SRAM and at a host page. -/
def tables : List Host.Cell :=
  cells 0 (lineOf [(16, 2 ^ 63 + 2 ^ 61 + 0x10000)]) ++ cells 0x10000 (lineOf [(0, 2 ^ 63 + 0x11000)]) ++
  cells 0x11000 (lineOf [(0, 2 ^ 63 + 0x12000)]) ++ cells 0x12000 (lineOf [(0, 2 ^ 63 + 0x3F00000000F0), (8, 2 ^ 63 + 2 ^ 61 + 0x400000F0)])

/-- As `world t`, with the tables of composition 1 in pair 0, an object table at byte 0x1000 of tile 0's SRAM whose entries 3
and 4 are a fence with VALUE 5 and a semaphore with COUNT 2, and `more` beyond them. -/
def mapped (t : Tile) (more : List Host.Cell) : State :=
  { world t with
    mem := tables ++ cells (sramKey 0 0x1040) (lineOf [(0x20, 0x20101), (0x28, 0x2000), (0x30, 64), (0x38, 1)]) ++
      cells (sramKey 0 0x1080) (lineOf [(0, 0x30101), (8, 0x2040), (16, 64), (24, 1)]) ++
      cells (sramKey 0 0x2000) (lineOf [(0, 5)]) ++ cells (sramKey 0 0x2040) (lineOf [(0, 2)]) ++ more
    lp := { sh := .of { igrp := [(0, { valid := true, n := 1, len := 1, mask := 1 })] }, pairs := [(0, { st := .active })] }
    xlt := { sh := .of { ctab := [(5, { valid := true, cid := 1 })], own := [(0, ⟨true, true, 0, 1⟩)] } }
    que := { objs := [(1, ⟨0x3F0000001000, 10⟩)] } }

/-- Handles of the fence in S2 and the semaphore in S3, 5 in S4, 6 in S5, 2 in S6, 3 in S7. -/
def handles : State := mapped { tile0 with banks := [(0, { bank0 with
  sReg := [(2, 0x1000003), (3, 0x1000004), (4, 5), (5, 6), (6, 2), (7, 3)] })] } []

def fenceEntry : ObjEntry := { st := 1, gen := 1, kind := 2, refs := 0, dva := 0x2000, size := 64, xctx := 1 }
def semEntry : ObjEntry := { fenceEntry with kind := 3, dva := 0x2040 }

theorem witness_handles : runsNext handles 0 0 ∧ MemoryCanonical handles ∧ handles.objEntry 1 3 = some fenceEntry ∧
    handles.objEntry 1 4 = some semEntry ∧ handles.syncLine 1 fenceEntry = some (0x3F0000002000, 5) ∧
    handles.syncLine 1 semEntry = some (0x3F0000002040, 2) ∧ handles.refFits 1 3 = true ∧ handles.refFits 1 4 = true := by
  unfold runsNext MemoryCanonical; decide +kernel
theorem witness_resolve : handles.resolve 1 0x1000003 2 = .ok 3 fenceEntry ∧ handles.resolve 1 0x1000004 3 = .ok 4 semEntry :=
  by decide +kernel

/-- A signal at and above VALUE, one below (VALUE 5, value 2); a wait that has been reached and one that has not. -/
theorem witness_fences :
    ((after (.fenceSignal 0 0 ⟨1, 2, 5⟩) handles).bank 0 0).pc = 1 ∧
    (after (.fenceSignal 0 0 ⟨1, 2, 5⟩) handles).byte (sramKey 0 0x2000) = 6 ∧
    ((after (.fenceSignal 0 0 ⟨1, 2, 6⟩) handles).bank 0 0).s 1 = 2 ∧
    ((after (.fenceWait 0 0 ⟨1, 2, 4⟩) handles).bank 0 0).st = .running ∧
    ((after (.fenceWait 0 0 ⟨1, 2, 5⟩) handles).bank 0 0).st = .waiting := by decide +kernel
/-- Units that COUNT holds (2), units that it does not (3), a release of 5. -/
theorem witness_semaphores :
    (after (.semAcq 0 0 ⟨1, 3, 6⟩) handles).byte (sramKey 0 0x2040) = 0 ∧
    ((after (.semAcq 0 0 ⟨1, 3, 7⟩) handles).bank 0 0).st = .waiting ∧
    (after (.semRel 0 0 ⟨1, 3, 4⟩) handles).byte (sramKey 0 0x2040) = 7 := by decide +kernel

/-- A barrier object at byte 0x3000 of tile 0, its one member logical tile 0. -/
def barrier (members : Nat) : State :=
  { running [(1, 0x3000), (2, 4)] with
    mem := cells (sramKey 0 0x3000) (lineOf [(0, members)]) ++
      cells (sramKey 0 0x3040) (lineOf [(0, 4)]) }
theorem witness_barrier_instructions : (barrier 1).lookup 0 1 1 0x3000 = some page ∧
    0x3000 + 256 ≤ page.base + 2 ^ page.log2 ∧ page.target 0x3000 = .localMpa 0x3F0000003000 ∧
    (barrier 1).freeTag 0 = some 0 ∧ (barrier 1).fenceHolds 1 ((barrier 1).place 0x3F0000003000) = false ∧
    ((after (.barArrive 0 0 2 1) (barrier 1)).bank 0 0).wait = some (.arrive 2) ∧
    ((after (.barWait 0 0 3 1 2 false 1) (barrier 1)).bank 0 0).wait =
      some (.bar 0x3F0000003000 4 3 false 1024) := by decide +kernel

/-- An arrival at that barrier. -/
def arrival : Packet := { noPacket with type := 7, cid := 1, ctx := 1, addr := 0x3F0000003000 }
theorem witness_barrier_at : barrierAt (barrier 1) 1 1 0x3F0000003000 0 0x3000 := by unfold barrierAt; decide +kernel
/-- The last arrival, one of two members, one of no member. -/
theorem witness_barrier_home : Msg.release 0 0x3F0000003000 5 1 ∈ (after (.barrierArrival arrival (false, .clean)) (barrier 1)).out ∧
    (after (.barrierArrival arrival (false, .clean)) (barrier 3)).byte (sramKey 0 0x3080) = 1 ∧
    (after (.barrierArrival arrival (false, .clean)) (barrier 2)).out = [.mesh (reply arrival 1 0 0)] := by decide +kernel

/-- Bank 0 waits as `w` says. -/
def waitsFor (w : Wait) : State := mapped { tile0 with banks := [(0, { bank0 with st := .waiting, wait := some w })] } []
theorem witness_bar_wait_ends : (world tile0).logTile 0 = some 0 ∧ barPassed 5 4 = true ∧
    ((after (.barrierRelease 0x3F0000003000 5 1 false) (waitsFor (.bar 0x3F0000003000 4 3 false 1024))).bank 0 0).pc = 1 ∧
    ((after (.barWaitTimeout 0 0) (waitsFor (.bar 0x3F0000003000 4 3 false 0))).bank 0 0).s 3 = 1 := by decide +kernel

/-- A load of DVA 0x40 whose walk ends, with an empty look-aside. -/
def walked : State :=
  { mapped { tile0 with
      look := [], banks := [(0, { bank0 with wait := some (.walk (.scalarMem (.load 3 false 4 0 0x40))) })] } [] with
    xlt := { (mapped tile0 []).xlt with walks := [⟨0, 0⟩] } }
def gibPage : XEntry := { cid := 1, ctx := 1, base := 0, log2 := 30, leaf := 0x80003F00000000F0 }
theorem witness_walk : walked.walking 0 0 = true ∧ walked.lookup 0 1 1 0x40 = none ∧
    walked.walkHalf 0 1 1 0x40 = .hit gibPage ∧ gibPage ∈ ((after (.walkComplete 0 0 .clean) walked).tile 0).look ∧
    ((after (.walkComplete 0 0 .uncorrectable) walked).bank 0 0).fault = ⟨true, 7, 0⟩ := by decide +kernel

/-- A page request of that load, sent under index 9 on function 3 of port 0, which PRI may use. -/
def request9 : MigReq := { tile := 0, bank := 0, cid := 1, ctx := 1, page := 0, rd := true, hport := 0, func := 3, sent := some 9 }
def asking (m : MigReq) : State :=
  { walked with
    tiles := [(0, { tile0 with
      look := [], banks := [(0, { bank0 with st := .waiting, wait := some (.migrate (.scalarMem (.load 3 false 4 0 0x40)) 0 true false) })] })]
    xlt := { (mapped tile0 []).xlt with mig := [m], priTimeout := 0 }
    mem := cells 0 (lineOf [(16, 2 ^ 63 + 2 ^ 62 + 0x10000)]) ++ walked.mem.drop 2
    hst := { funcs := [(3, { enabled := true, bound := true, slot := 5, cid := 1, priEn := true, priAlloc := 1 })] } }
theorem witness_page_response :
    gibPage ∈ ((after (.prgResponse 0 3 9 0) (asking request9)).tile 0).look ∧
    Tab.find (after (.prgResponse 0 3 9 0) (asking request9)).xlt.migCnt 5 = some 1 ∧
    (after (.prgResponse 0 3 9 2) (asking request9)).xlt.mig = [] ∧
    ((after (.pageRequestTimeout 0 3 9) (asking request9)).bank 0 0).fault = ⟨true, 7, 0⟩ := by decide +kernel
theorem witness_page_dequeue : (asking { request9 with sent := none }).migWay 1 1 = some (0, 3) ∧
    (asking { request9 with sent := none }).prgInUse 0 3 = [] ∧
    (after (.pageRequestDequeue 0 3) (asking { request9 with sent := none })).out.length = 1 := by decide +kernel

/-! ### Composition over time -/

/-- Pair 2 in the state `x`, with a move of the west half from it to pair 3 in the state `m`. -/
def pairState (x : Pair) (m : MoveSt) : State :=
  { world tile0 with
    lp := { State.reset.lp with pairs := [(2, x)] }
    brd := { (world tile0).brd with moves := [(0, { st := m, src := 2, dst := 3 })] } }
theorem witness_pairs : (pairState { st := .rebuilding, rebuildTo := some 3 } .idle).canChange
      ((pairState { st := .rebuilding, rebuildTo := some 3 } .idle).pairCids 2) = true ∧
    (pairState { st := .active } .copying).canChange ((pairState { st := .active } .copying).pairCids 2) = true ∧
    ((pairState {} .clearing).pair 2).failed = false := by decide +kernel

/-- Granule 5 of tile 0, left by composition 1, is being cleared. -/
def clearing : State :=
  { world tile0 with
    brd := { (world tile0).brd with res := [(.granule 0 5, 1, .clearing)] }
    mem := [(sramKey 0 (5 * 65536 + 65535), 9)] }
theorem witness_clear_ends : (clearing.brd.res.find? fun x => decide (x.1 = .granule 0 5) && decide (x.2.2 = .clearing)) =
      some (.granule 0 5, 1, .clearing) ∧ clearing.clearable (.granule 0 5) = true ∧
    (clearing.image 1).entries.isEmpty = false ∧ (after (.unitClearDone (.granule 0 5)) clearing).mem = [] := by decide +kernel

/-- Composition 1's fence, opened at tick 0; `n` periods have passed. -/
def fenced (f : FenceSt) (n : Nat) : State :=
  { world tile0 with
    brd := { (world tile0).brd with fences := [(5, f)], res := [(.port 3, 1, .draining), (.granule 0 5, 1, .draining)] }
    cad := { State.reset.cad with elapsed := n } }
theorem witness_fence_close : ((fenced { isOpen := true } 0).fence 5).count = 0 ∧
    (fenced { isOpen := true } 0).shiftOf ((fenced { isOpen := true } 0).slotE 5).2 = false ∧
    (after (.epochFenceClose 5) (fenced { isOpen := true, atClose := [.port 3, .granule 0 5] } 0)).brd.res =
      [(.granule 0 5, 1, .clearing)] := by decide +kernel
theorem witness_fence_stall :
    (fenced { isOpen := true, count := 1 } 25).ticksOf 500000000 ≤ (fenced { isOpen := true, count := 1 } 25).now ∧
    16 * period ≤ (fenced { isOpen := true, count := 1 } 25).now ∧
    ((after (.fenceStallTimeout 5) (fenced { isOpen := true, count := 1 } 25)).fence 5).reported = true := by decide +kernel

/-- The lease of composition 1 as `l`, after `n` periods. -/
def leased (l : Lease) (n : Nat) : State :=
  { world tile0 with
    brd := { (world tile0).brd with leases := [(1, l)] }, cad := { State.reset.cad with elapsed := n } }
theorem witness_lease_expiry : (leased { st := .held, expiry := 2 ^ 20 } 1).now = 2 ^ 20 ∧
    ((after (.leaseExpiry 1) (leased { st := .held, expiry := 2 ^ 20 } 1)).lease 1).st = .orphaned ∧
    ((after (.leaseExpiry 1) (leased { st := .held, expiry := 2 ^ 20 + 1 } 1)).lease 1).st = .held := by decide +kernel
theorem witness_grace_expiry : (leased { st := .orphaned } 10).compWaits = false ∧
    ((leased { st := .orphaned } 10).fence 5).isOpen = false ∧
    ((after (.graceExpiry 1) (leased { st := .orphaned } 10)).lease 1).st = .none ∧
    ((after (.graceExpiry 1) (leased { st := .orphaned } 9)).lease 1).st = .orphaned := by decide +kernel

/-! ### The queue parser -/

/-- A packet with the values of the fields (byte offset, value). -/
def pktOf (fields : List (Nat × Nat)) : BitVec 256 := BitVec.ofNat 256 ((fields.map fun f => f.2 * 2 ^ (8 * f.1)).sum)

/-- Queue entry 0 of composition 1, its ring at a host page, with accepted commands `cs`; function 3 of port 0 is bound, and
bank 0 is LOADED with no program running. -/
def queued (cs : List QCmd) (more : List Host.Cell) : State :=
  { mapped { tile0 with banks := [(0, { bank0 with st := .loaded, inProg := false })] } more with
    que := { (mapped tile0 []).que with
      sh := .of {
        q := [(0, { valid := true, qctx := 1, slot := 5, sizeLog2 := 3, func := 3, ring := 0x40000000, lease := 7 })]
        res := [(9, { valid := true, ctx := 1, cid := 1, waitLimit := 1 })] }
      q := [(0, { st := .running, tail := 4, cmds := cs })] }
    hst := { ports := [(0, { st := .up })], funcs := [(3, { enabled := true, bound := true, slot := 5, cid := 1 })] } }

def leasedQueue (epoch : Word) : State :=
  { queued [] [] with brd := { (world tile0).brd with leases := [(1, { st := .held, epoch := epoch })] } }
/-- As `queued cs`, with a reference held on the fence. -/
def referenced (cs : List QCmd) : State := 
  { queued cs [] with
    mem := (queued cs []).mem.flatMap fun x => if x.1 = sramKey 0 0x1062 then [x, (sramKey 0 0x1064, 1)] else [x] }
def command (fields : List (Nat × Nat)) : QCmd := { pkt := pktOf ((2, 1) :: fields) }
def ringPage : XEntry := { cid := 1, ctx := 1, base := 0x40000000, log2 := 30, leaf := 0xA0000000400000F0 }

/-- A packet taken from the ring under the lease of its queue, and one skipped under another. -/
theorem witness_ring_fetch : (queued [] []).walk 1 1 0x40000000 = .hit ringPage ∧ ringPage.target 0x40000000 = .host 0x40000000 ∧
    (queued [] []).hostWay 1 = some (0, 3) ∧ pktBad (command [(0, 7)]).pkt = false ∧ pktHandles (command [(0, 7)]).pkt = [] ∧
    (queued [] []).resOf 1 1 = some 9 ∧
    ((after (.ringFetch 0 [(command [(0, 7)]).pkt] true) (queued [] [])).qRo 0).cmds = [command [(0, 7)]] ∧
    ((after (.ringFetch 0 [(command [(0, 7)]).pkt] true) (leasedQueue 8)).qRo 0).cmds = [] := by decide +kernel

/-- LAUNCH of one tile, which its context holds; it starts there. -/
theorem witness_launch : (queued [command [(0, 1), (0x12, 1)]] []).startDue 0 0 1 = some (command [(0, 1), (0x12, 1)]) ∧
    ((after (.launch 0 0) (queued [command [(0, 1), (0x12, 1)]] [])).cmd 0 0).map (·.toStart) = some [(0, 0)] ∧
    ((after (.launch 0 0) (queued [command [(0, 1), (0x10, 1), (0x12, 1)]] [])).cmd 0 0) = none ∧
    ((after (.launchTileStart 0 0 0 .refused) (after (.launch 0 0) (queued [command [(0, 1), (0x12, 1)]] []))).bank 0 0).inProg =
      true := by decide +kernel
/-- SIGNAL of 5, FAULT.ACK of nothing, NOP. -/
theorem witness_queue_commands : (queued [command [(0, 2), (8, 3), (0x10, 5)]] []).startDue 0 0 2 ≠ none ∧
    (queued [command [(0, 2), (8, 3), (0x10, 5)]] []).objEntry 1 3 = some fenceEntry ∧
    ((after (.signalCmd 0 0) (queued [command [(0, 2), (8, 3), (0x10, 5)]] [])).cmd 0 0) = none ∧
    ((after (.faultAck 0 0) (queued [command [(0, 6)]] [])).cmd 0 0) = none ∧
    ((after (.queueNop 0 0) (queued [command [(0, 7)]] [])).cmd 0 0) = none := by decide +kernel
/-- WAIT for 5, which VALUE has, and for 6, which times out after a period. -/
def waiting6 : QCmd := command [(0, 3), (8, 3), (0x0C, 1), (0x10, 6)]
theorem witness_queue_wait : ((after (.waitCmd 0 0) (queued [command [(0, 3), (8, 3), (0x10, 5)]] [])).cmd 0 0) = none ∧
    ((after (.waitCmd 0 0) (queued [waiting6] [])).cmd 0 0).map (·.st) = some .started ∧
    ((after (.queueWaitTimeout 0 0) { queued [{ waiting6 with st := .started }] [] with
      cad := { State.reset.cad with elapsed := 1 } }).qRo 0).st = .stopped := by decide +kernel
/-- FREE of an object that nothing refers to, and of one with a reference. -/
theorem witness_free : (queued [command [(0, 5), (8, 0x1000003)]] []).resolve 1 0x1000003 0 = .ok 3 fenceEntry ∧
    ((after (.freeObj 0 0) (queued [command [(0, 5), (8, 0x1000003)]] [])).cmd 0 0) = none ∧
    ((after (.freeObj 0 0) (referenced [command [(0, 5), (8, 0x1000003)]])).cmd 0 0).map (·.st) = some .freeing := by
  decide +kernel
theorem witness_object_in : objectIn (queued [] []) 1 3 0 0x1060 := by
  unfold objectIn
  exact ⟨by decide +kernel, by decide +kernel, by decide +kernel, ⟨0x3F0000001000, 10⟩, by decide +kernel⟩

/-- Bank 0 waits for a fence (semaphore) since tick 0. -/
def syncing (w : SyncEntry) (elapsed : Nat) (sem : Nat) : State :=
  { queued [] [] with
    tiles := [(0, { tile0 with banks := [(0, { bank0 with
      st := .waiting, wait := some (if w.isSem then .sem w.key 3 8 else .fence w.key 6 8) })] })]
    que := { (queued [] []).que with waits := [w] }
    cad := { State.reset.cad with elapsed := elapsed }
    mem := (queued [] []).mem.dropLast ++ cells (sramKey 0 0x2040) (lineOf [(0, 2), (4, sem)]) }
def fenceWaiter : SyncEntry := { half := 0, who := .bank 0 0, cid := 1, ctx := 1, key := sramKey 0 0x2000, obj := 3, target := 6 }
def semWaiter : SyncEntry := { fenceWaiter with isSem := true, key := sramKey 0 0x2040, obj := 4, target := 3, granted := 1 }
theorem witness_wait_limit : (syncing fenceWaiter 1 0).bankWait 0 0 = some fenceWaiter ∧
    (syncing fenceWaiter 1 0).resOf 1 1 = some 9 ∧
    ((after (.waitLimitExpiry 0 0) (syncing fenceWaiter 1 0)).bank 0 0).s 8 = 1 := by decide +kernel
theorem witness_borrow : (after (.semaphoreBorrowStart 0 0) (syncing semWaiter 0 0x100018000)).que.waits =
      [{ semWaiter with borrowing := true }] ∧
    ((after (.borrowBudgetExpiry 0 0) (syncing { semWaiter with borrowing := true, borrowed := 1 } 0 0x1000100008000)).bank 0 0).s 8 = 1 := by
  decide +kernel

/-! ### Translation commands, coder jobs, memory upkeep -/

/-- XLT.INV of the page at DVA 0, and XLT.SYNC with the fence's 5. -/
def invCommand : QCmd := command [(0, 0x10), (0x10, 1), (0x14, 0x10000)]
def syncCommand : QCmd := command [(0, 0x11), (8, 3), (0x10, 5)]
theorem witness_xlt_inv : (queued [invCommand] []).startDue 0 0 0x10 = some invCommand ∧
    ((queued [invCommand] []).tile 0).look = [page] ∧ ((after (.xltInv 0 0) (queued [invCommand] [])).tile 0).look = [] ∧
    (after (.xltInv 0 0) (queued [invCommand] [])).cmd 0 0 = none := by decide +kernel
theorem witness_xlt_sync : (queued [syncCommand] []).startDue 0 0 0x11 = some syncCommand ∧
    (queued [{ syncCommand with st := .started }] []).syncHeld 0 0 = false ∧
    (after (.xltSyncDone 0 0) (queued [{ syncCommand with st := .started }] [])).cmd 0 0 = none := by decide +kernel

/-- An encode of the 64 INT8 elements at DVA 0x2100 to DVA 0x4000, its descriptor at DVA 0x2080, then a signal of 6. -/
def jobDesc : Line := lineOf [(0, 0x801), (8, 0x2100), (0x10, 0x4000), (0x18, 64), (0x24, 0x1000003), (0x28, 6)]
def coderCommand : QCmd := command [(0, 4), (8, 0x2080)]
def coderState (cs : List QCmd) : State := queued cs (cells (sramKey 0 0x2080) jobDesc)
def descSpan : Span := { at_ := 0x2080, len := 64, acc := .rd, priv := false, row := 0 }
theorem witness_coder_starts : (coderState [coderCommand]).startDue 0 0 4 = some coderCommand ∧ jBad jobDesc = false ∧
    (coderState [coderCommand]).cmdAccess 0 coderCommand 3 [descSpan] = (some [gibPage], coderState [coderCommand]) ∧
    (let r := (coderState [coderCommand]).jobLine 0 1 1 [gibPage] [] .clean 0x2080
     r.1 = 0 ∧ r.2.1 = jobDesc ∧ r.2.2.1.cmd 0 0 = some coderCommand ∧
       (r.2.2.1.cmdAccess 0 coderCommand 3 (r.2.2.1.jobSpans 0 1 1 jobDesc r.2.2.2)).1.isSome = true) ∧
    (after (.coder 0 0 []) (coderState [coderCommand])).lp.jobs.map (·.fenceRef) = [3] := by decide +kernel

def job0 (d : Line) : Job :=
  { cid := 1, ctx := 1, desc := d, descAt := 0x2080, fenceRef := 3, pages := [gibPage] }
def jobState (d : Line) : State :=
  { coderState [{ coderCommand with st := .started }] with lp := { (mapped tile0 []).lp with jobs := [job0 d] } }
/-- The encode ends; so does one with a malformed descriptor, with STATUS 1 (OP 5). -/
theorem witness_job_ends : (jobState jobDesc).early = false ∧ (jobState jobDesc).cmd 0 0 ≠ none ∧ jOp jobDesc = 1 ∧
    (after (.coderJobDone 0 .clean []) (jobState jobDesc)).cmd 0 0 = none ∧
    (after (.coderJobDone 0 .clean []) (jobState jobDesc)).byte (sramKey 0 0x2000) = 6 := by decide +kernel
theorem witness_job_refused : jBad (lineOf [(0, 5), (0x24, 0x1000003), (0x28, 6)]) = true ∧
    (after (.coderJobDone 0 .clean []) (jobState (lineOf [(0, 5), (0x24, 0x1000003), (0x28, 6)]))).byte (sramKey 0 0x2084) = 1 := by
  decide +kernel

/-- A regulator entry of 100 bytes a microsecond on tile 0: its level grows, up to its DEPTH. -/
def regulated (level : Word) : State :=
  world { tile0 with nbr := .of { regs := [(2, { valid := true, guar := 1 })] }, levels := [(2, level)] }
theorem witness_refill : Tab.find ((after .regulatorRefill (regulated 0)).tile 0).levels 2 = some 100 ∧
    Tab.find ((after .regulatorRefill (regulated 350)).tile 0).levels 2 = some 400 := by decide +kernel

/-- Tile 0 with its SRM block as `x`. -/
def sram (x : Srm) : State := world { tile0 with srm := { x with sh := tile0.srm.sh } }
theorem witness_sram_upkeep : rising [(7, true)] ∧
    ((after (.sramCorrectedRewrite 0 7) (sram { rewrite := [(7, true)] })).tile 0).srm.rewrite = [] ∧
    ((after (.sramClear 0 0x40000201) (sram {})).tile 0).srm.clearRun = (1, 1) ∧
    ((after (.sramClear 0 0x40000200) (sram {})).tile 0).srm.err.order = 1 ∧
    ((after (.sramClearDone 0) (sram { clearBusy := true, clearRun := (383, 1) })).tile 0).srm.clearBusy = false ∧
    (0x80000000 : Word) &&& 0x3FF80000 = 0 ∧
    ((after (.srmUeValidClear 0 0x80000000) (sram { ue := { valid := true } })).tile 0).srm.ue.valid = false ∧
    ((after (.sramScrub 0 []) (sram { pos := 12287 })).tile 0).srm.passes = 1 ∧
    ((after (.sramScrub 0 [(31, .corrected 1)]) (sram {})).tile 0).srm.rewrite = [(31, true)] := by
  unfold rising; decide +kernel

/-- Pair 0 as `x`, ACTIVE. -/
def pairs (x : Pair) : State := { world tile0 with lp := { State.reset.lp with pairs := [(0, { x with st := .active })] } }
theorem witness_scrub : ((pairs { scrubPos := 2 ^ 27 - 1 }).pair 0).serves = true ∧
    ((after (.lpddrPatrolScrub 0 .clean .agrees) (pairs { scrubPos := 2 ^ 27 - 1 })).pair 0).scrubPos = 0 ∧
    (pairs {}).keyless 0 = false ∧
    Tab.find ((after (.lpddrPatrolScrub 0 .uncorrectable .agrees) (pairs {})).pair 0).poison 0 = some true := by decide +kernel
theorem witness_channels : ((after (.calibrationWindow 1 0 5) (pairs {})).pair 0).retrainDue = 0 ∧
    ((after (.calibrationWindow 1 0 6) (pairs {})).pair 0).retrainDue = 2 ∧
    ((pairs { retrainDue := 2 }).pair 0).retrainDue.getLsbD 1 = true ∧
    ((after (.writeDqRetrain 1) (pairs { retrainDue := 3 })).pair 0).retrainDue = 1 ∧
    ((after (.mr4RateChange 0 2) (pairs {})).pair 0).refRate = 2 ∧ bgIndex .refresh ∉ (pairs {}).rcv.bgHit := by
  decide +kernel

/-- A delta for the stripe of pair 0, line 0; its check line lies on pair 1. -/
def delta0 : Delta := { xor := 6 }
def deltas : State := { pairs {} with lp := { (pairs {}).lp with deltas := [delta0] } }
theorem witness_delta : (deltas.lp.deltas.find? fun d => decide (d.half = 0)) = some delta0 ∧
    deltas.checkPlace (delta0.half * 96 + delta0.slot) delta0.line = (1, deltas.c0) ∧ (deltas.pair 1).failed = false ∧
    deltas.sched.waits = [] ∧ (after (.checkDelta 0) deltas).byte (pairKey 1 (deltas.c0 * 64)) = 6 := by decide +kernel
theorem witness_stale : Tab.get (fun _ => false) [(0, true)] 0 = true ∧ rising [(0, true)] := by unfold rising; decide

/-- A region whose re-encryption stands under the current key; a retiring key that nothing uses. -/
def crypto : State := { State.reset with cry := { State.reset.cry with
  curMem := 9, regions := [(0, { re := true, kid := 9, wc := 2 ^ 20 - 1, okid := 1 })], kids := [(12, { st := 2 })] } }
theorem witness_region_and_key : (crypto.region 0).kid = crypto.cry.curMem ∧
    (crypto.region 0).wc.toNat < (crypto.region 0).base.toNat + 2 ^ 20 ∧
    ((after (.reencryptDone 0 0) crypto).region 0).re = false ∧ (crypto.kid 12).users = 0 ∧
    ((after (.kidRetired 12) crypto).kid 12).st = 3 := by decide +kernel

/-! ### The fabric and its links -/

/-- A fabric packet of composition 1 from module `src` to module `dest`. -/
def fpkt (type : BitVec 8) (src dest : BitVec 14) (addr : BitVec 46) : FabPacket :=
  { type := type, destMod := dest, srcMod := src, hops := 0, down := false, status := 0, ftag := 3, ctx := 1, cid := 1, cls := 0,
    rights := 0, deadline := 0, gen := 0, collId := 0, addr := addr, byteEn := 0, operand := 0, data := 0, data2 := none,
    reserved := false }

/-- Module 5 of the fabric: port 2 with fabric state `x`, window 0 of slot 5 on tile 0's SRAM, module 6 behind port 2. -/
def fabric (x : LinkPort) (f : Fab) : State :=
  { world tile0 with
    lnk := [(2, x)]
    fab := { f with
      sh := .of { f.sh.act with
        id := ⟨true, 5⟩
        wbase := [(5, (1, 0))]
        poolLimit := [(5, 64)]
        route := [(6, { valid := true, cand := [2] })]
        win := [(0, { valid := true, rights := 7, scope := true, cid := 1, size := 1 })] }
      winLook := [{ cid := 1, ctx := 0, base := 0, log2 := 16, leaf := page.leaf }] } }
def upPort : LinkPort := { st := .active, dedicated := [(0, 4), (1, 4)] }
def meshRequest (m : Nat) : Packet := { noPacket with type := 1, src := 0, cid := 1, ctx := 1, addr := BitVec.ofNat 60 (m * 2 ^ 46 + 64) }
def waitsToLeave (m : Nat) : State := fabric upPort { waiting := [{ pkt := meshRequest m }] }
def awaiting6 : State := fabric upPort { returns := [{ ftag := 3, dstModule := 6, slot := some 5, pkt := meshRequest 6 }] }

theorem witness_route : (fabric upPort {}).route 6 = { valid := true, cand := [2] } ∧ ((fabric upPort {}).port 2).credit 0 = true ∧
    ((after (.fabricRoute (0, fpkt 1 5 6 0)) (fabric upPort {})).port 2).txQueue.length = 1 ∧
    (after (.fabricRoute (0, fpkt 4 5 7 0)) (fabric upPort {})).fab.cntUnreach = 1 := by decide +kernel
theorem witness_egress : (waitsToLeave 5).fabReady (meshRequest 5) = true ∧ (waitsToLeave 7).fabReady (meshRequest 7) = true ∧
    isRequest ((waitsToLeave 7).fabPacketOf (meshRequest 7) 0 0) = true ∧
    (after (.fabricEgressRelease (meshRequest 7)) (waitsToLeave 7)).fab.cntUnreach = 1 ∧
    (after (.fabricEgressRelease (meshRequest 5)) (waitsToLeave 5)).fab.returns.length = 1 := by decide +kernel
theorem witness_return_table : (after (.fabricResponse (none, fpkt 4 6 5 0)) awaiting6).fab.returns = [] ∧
    (after (.fabricResponse (none, fpkt 4 6 5 0)) (fabric upPort {})).fab.cntLate = 1 ∧
    (after (.fabricRequestTimeout 3) { awaiting6 with cad := { State.reset.cad with elapsed := 1 } }).fab.cntTimeout = 1 := by
  decide +kernel

def fact0 : TrainFact := { failed := 0, reversed := false, polarity := 0, peerFailed := 0, peerHeld := [0, 0, 0, 0] }
def at_ (n : Nat) : LinkPort := { st := .training, step := n, signal := 0x3FFFF, peerValid := true, peerModule := 6 }

/-- Signal on four positions; its loss on one of 18 and on 15; a second passed in FAILED. -/
theorem witness_signal : ((after (.signalDetect 2 0xF) (fabric { st := .openCircuit } {})).port 2).step = 2 ∧
    ((after (.lossOfSignal 2 0x1F) (fabric { upPort with signal := 0x3FFFF } {})).port 2).st = .training ∧
    ((after (.lossOfSignal 2 0x7FFF) (fabric { upPort with signal := 0x7FFF } {})).port 2).st = .openCircuit ∧
    ((after (.failedPortRetrain 2) { fabric { st := .failed, signal := 0xF } {} with
      cad := { State.reset.cad with elapsed := 256 } }).port 2).st = .training := by decide +kernel
/-- Each step of a training, at its end and at its time's end; one failed lane takes the first spare. -/
theorem witness_training : (∀ n ∈ [2, 3, 4, 5, 7],
      ((after (.trainingStepComplete 2 fact0) (fabric (at_ n) {})).port 2).step = n + 1) ∧
    ((after (.trainingStepComplete 2 { fact0 with failed := 1 }) (fabric (at_ 6) {})).port 2).mapRx.subA = 0 ∧
    ((after (.trainingStepComplete 2 fact0) (fabric (at_ 8) {})).port 2).st = .active ∧
    ((after (.trainingStepTimeout 2 fact0) (fabric (at_ 3) {})).port 2).st = .oneWay ∧
    ((after (.trainingStepTimeout 2 fact0) (fabric (at_ 4) {})).port 2).st = .laneOrder ∧
    ((after (.trainingStepTimeout 2 fact0) (fabric (at_ 7) {})).port 2).failedTrainings = 1 ∧
    ((after (.trainingStepTimeout 2 fact0) (fabric { at_ 8 with failedTrainings := 2 } {})).port 2).st = .failed := by decide +kernel
/-- LNK_CTRL: a MAXW of 3, DISABLE, a retrain, a fast one, clear. -/
theorem witness_port_control : ((after (.maxWidth 2 0xC) (fabric upPort {})).port 2).err.order = 1 ∧
    ((after (.disablePort 2 0x20) (fabric upPort {})).port 2).st = .disabled ∧
    ((after (.retrainPort 2 0x80) (fabric { upPort with signal := 0xF } {})).port 2).st = .training ∧
    ((after (.fastRetrain 2 0x40) (fabric { upPort with signal := 0xF } {})).port 2).st = .retraining ∧
    ((after (.clrCnt 2 1) (fabric { upPort with cntLost := 9 } {})).port 2).cntLost = 0 := by decide +kernel

/-- A discovery of this module's own, a request of a used spare, a frame in sequence and one that is not whole. -/
theorem witness_messages :
    ((after (.discovery 2 (.discovery 5 1 State.reset.rot.otp.serial 0 0 0)) (fabric upPort {})).port 2).st = .looped ∧
    ((after (.substReq 2 (.substReq 4 1)) (fabric upPort {})).port 2).ctrlQueue = [.substAck 4 1 0] ∧
    ((after (.substReq 2 (.substReq 4 1)) (fabric { upPort with mapTx := { subB := 3 } } {})).port 2).ctrlQueue =
      [.substNak 4 1 1] := by decide +kernel
/-- Link key slot 9 holds key 7, fingerprint as given; a KEYX of that key and of another. -/
def linkKey : State :=
  { fabric upPort {} with
    cry := { State.reset.cry with curLink := 9, loaded := [(9, true)], kids := [(9, { usage := 2, st := 1 })] }
    rot := { State.reset.rot with slots := [(9, ⟨true, false, 2, 7⟩)] } }
theorem witness_keyx : keyPrint 7 ≠ 0 → keyPrint 7 ≠ 1 →
    linkKey.cry.curLink ≠ 0 ∧ linkKey.kidPrint linkKey.cry.curLink = keyPrint 7 ∧ linkKey.oldLink = 0 := by
  intro _ _; exact ⟨by decide +kernel, rfl, by decide +kernel⟩
theorem witness_frames : Frame.whole noFrame = true ∧ ((fabric upPort {}).port 2).kidRx = 0 ∧
    ((after (.linkFrameReceive 2 noFrame) (fabric upPort {})).port 2).rxFrames = 1 ∧
    ((after (.linkFrameReceive 2 { noFrame with crcOk := false }) (fabric upPort {})).port 2).nakDue = true ∧
    ((after (.linkFrameTransmit 2) (fabric upPort {})).port 2).frameCount = 1 ∧
    ((after (.linkFrameTransmit 2) (fabric { upPort with replay := [{ seq := 4 }], replayFrom := some 4, frameCount := 5 } {})).port
      2).cntReplay = 1 := by decide +kernel

def windowRead (off : Nat) : FabPacket := fpkt 1 6 5 (BitVec.ofNat 46 (0x200000000000 + off))
/-- A read inside window 0 and one beyond its SIZE. -/
theorem witness_ingress :
    (fabric upPort {}).winResolve 1 (some 1) 0 64 .rd true =
      .ok 0 0x3F0000000040 { cid := 1, ctx := 0, base := 0, log2 := 16, leaf := page.leaf } ∧
    (fabric upPort {}).winResolve 1 (some 1) 0 0x200000 .rd true = .bad 2 ∧
    (fabric upPort {}).freeTag (portStop 2) = some 0 ∧ (fabric upPort {}).fenceHolds 1 ((fabric upPort {}).place 0x3F0000000040) = false ∧
    (after (.fabricIngress (some 2) (windowRead 64) .clean) (fabric upPort {})).fab.winReqs.length = 1 ∧
    (after (.fabricIngress (some 2) (windowRead 0x200000) .clean) (fabric upPort {})).fab.cntRefused = 1 ∧
    (after (.fabricIngress none { windowRead 64 with reserved := true } .clean) (fabric upPort {})).fab.cntRefused = 1 := by
  decide +kernel

/-- Entry 3 of composition 1: sums of BF16 elements, two local contributions, child port 2, parent `up`, 128 bytes. -/
def coll3 (up : Option (BitVec 6)) : CollSh :=
  { valid := true, op := 0, collId := 9, cid := 1, nlocal := 2, childMask := 4, pvalid := up.isSome, parent := up.getD 0, len := 128,
    destOff := 0x200000 }
def collecting (up : Option (BitVec 6)) (accs : List ChunkAcc) : State :=
  let f := fabric upPort { sh := .of { coll := [(3, coll3 up)] }, colls := [(3, { st := 2, gen := 7 })], accs := accs }
  { f with lnk := [(2, upPort), (4, upPort)] }
def half0 : ChunkAcc := { coll := 3, chunk := 1, lanes := chunkIn 0 0, count := 1 }
def localWrite : FabPacket := { fpkt 2 5 5 (BitVec.ofNat 46 (3 * 2 ^ 32 + 64)) with byteEn := 0xFFFFFFFFFFFFFFFF }
def fromChild : FabPacket := { fpkt 9 6 5 64 with collId := 9, gen := 7, data2 := some 0 }
theorem witness_contributions : (collecting none []).collSh 3 = coll3 none ∧ fldN localWrite.addr 32 8 = 3 ∧
    fldN localWrite.addr 0 32 = 64 ∧ (collecting none []).module = 5 ∧
    (after (.collectiveLocalWrite localWrite) (collecting none [])).fab.accs.map (·.count) = [1] ∧
    (collecting none []).collOf 1 9 = some 3 ∧
    (after (.collectiveContribution 2 fromChild) (collecting none [half0])).fab.accs.map (·.children) = [[2]] ∧
    ((after (.collectiveContribution 2 fromChild) (collecting (some 4) [{ half0 with count := 2 }])).collRun 3).sent = [1] := by
  decide +kernel
theorem witness_results : (coll3 (some 4)).parent.toNat = 4 ∧
    (collecting (some 4) []).winResolve 1 none 0 0x200040 .wr true = .bad 2 ∧
    ((after (.collectiveResult 4 { fromChild with type := 0x0A }) (collecting (some 4) [])).collRun 3).st = 3 ∧
    ((after (.collectiveTimeout 3) { collecting none [] with cad := { State.reset.cad with elapsed := 1 } }).collRun 3).st = 3 := by
  decide +kernel

/-! ### Mesh requests and the host -/

/-- Tile 0 holds 5 at byte 64; a request to it, an atomic's word, a request whose CTX the granule does not admit. -/
def meshState : State := runningWith [] [(64, lineOf [(0, 5)])]
def toTile0 : Packet :=
  { noPacket with cid := 1, ctx := 1, addr := 0x3F0000000040, byteEn := 1, operand := 3, data := lineOf [(0, 9)] }
theorem witness_mesh_served : MemoryCanonical meshState ∧ meshState.place 0x3F0000000040 = .sram 0 64 ∧
    meshState.oldTag 1 0 (.sram 0 64) = none ∧ (meshState.gran 0 0).admits 1 1 = true ∧ (meshState.gran 0 0).admits 1 2 = false ∧
    (after (.meshWrite toTile0 .clean) meshState).byte (sramKey 0 64) = 9 ∧
    (after (.meshAtomic toTile0 .add .clean) meshState).byte (sramKey 0 64) = 8 ∧
    (after (.meshRead { toTile0 with ctx := 2 } .clean) meshState).out.length = 1 := by unfold MemoryCanonical; decide +kernel

/-- Bank 0 waits for the request of tag 0 that `r` names. -/
def pendingReq (r : MeshReq) (w : Wait) : State :=
  { world { tile0 with banks := [(0, { bank0 with st := .waiting, wait := some w })] } with
    mesh := { reqs := [(reqKey 0 0, r)] } }
def loads : State := pendingReq { who := .load 0 0 0 8 0, pkt := { noPacket with type := 1 } } (.access (.scalarMem (.load 3 false 4 1 0)) 1 0)
def stores : State := pendingReq { who := .store 0 0, pkt := { noPacket with type := 2 } } (.access (.scalarMem (.store 3 4 1 0)) 1 0)
def atomics : State :=
  pendingReq { who := .atomic 0 0, pkt := { noPacket with type := 3 } } (.access (.scalarMem (.atomic .add 4 5 6 1 0)) 1 0)
theorem witness_responses : ((after (.readResponse { noPacket with type := 4, data := lineOf [(0, 7)] }) loads).bank 0 0).s 4 = 7 ∧
    ((after (.writeAcknowledgement { noPacket with type := 5 }) stores).bank 0 0).st = .running ∧
    ((after (.atomicResponse { noPacket with type := 6, operand := 6 }) atomics).bank 0 0).s 4 = 6 ∧
    (after (.readResponse { noPacket with type := 4, tag := 1 }) loads).mesh.discardedResponses = 1 := by decide +kernel

/-- Function 3 of port 0, bound to composition 1, with a BAR2 window at tile 0's SRAM's MPA, as `x` has it. -/
def hosted (x : Func) : State :=
  { queued [] [] with hst := { ports := [(0, { st := .up, rate := 4, width := 5 })], funcs := [(3, x)] }, boot := { (world tile0).boot with step := 8 } }
def func3 : Func := { enabled := true, bound := true, slot := 5, cid := 1, winEn := true, winCtx := 1, winBase := 0xFC00, msixEn := true }
theorem witness_doorbell : func3.presents 3 = true ∧ func3.teeRefuses false = false ∧ (hosted func3).queueOn 0 3 0 = some 0 ∧
    (hosted func3).bar2Pending 0 3 = false ∧ ((after (.doorbell 0 3 0 0 2 8 false) (hosted func3)).qRo 0).tail = 8 ∧
    ((after (.doorbell 0 3 0 0 2 9 false) (hosted func3)).func 0 3).refused = 1 := by decide +kernel
theorem witness_bar2 : (hosted func3).bar2Takes 0 3 64 8 = true ∧ (hosted { func3 with winEn := false }).bar2Takes 0 3 64 8 = false ∧
    (hosted func3).hst.waiting = [] ∧ (hosted func3).freeTag 0x280 = some 0 ∧
    (hosted func3).fenceHolds 1 ((hosted func3).place (0xFC00 * 2 ^ 30 + 64)) = false ∧
    (after (.bar2Read 0 3 64 8 false 1) (hosted func3)).out.length = 1 ∧
    (after (.bar2Write 0 3 64 [1, 2] false) (hosted func3)).mesh.reqs.length = 1 ∧
    ((after (.bar2Read 0 3 64 8 false 1) (hosted { func3 with winEn := false })).func 0 3).refused = 1 := by decide +kernel
/-- HST_BAR2_WIN, the mask of an MSI-X entry that waits to fire, and the dirty log of function 3. -/
theorem witness_host_registers : func3.tdi = .unlocked ∧
    ((after (.hstBar2WinWrite 0 3 0x8001000000020000 false) (hosted func3)).func 0 3).winCtx = 1 ∧
    ((after (.hstBar2WinWrite 0 3 0 true) (hosted { func3 with tdi := .locked })).func 0 3).tdiCause = 2 ∧
    (after (.msixTableWrite 0 3 0x1C 0 false) (hosted { func3 with msix := [(1, { pend := true })] })).out = [.msix 0 3 1] ∧
    ((after (.dlogRearm 0 3 0x80000008) (hosted func3)).func 0 3).dlog.en = true ∧
    ((after (.dlogConsWrite 0 3 0) (hosted func3)).func 0 3).dlog.cons = 0 := by decide +kernel
def keyed (x : Func) : State :=
  { hosted x with
    hst := { (hosted x).hst with ports := [(0, { st := .up, ideKeys := [(1, 0, 3, 3)] })] }
    rot := { State.reset.rot with sessions := [{ id := 2, path := .mailbox 0 0, finished := true }] } }
theorem witness_tdisp : ((after (.lockInterface 0 3) (keyed func3)).func 0 3).tdi = .locked ∧
    ((after (.startInterface 0 3) (keyed { func3 with tdi := .locked })).func 0 3).tdi = .run ∧
    ((after (.stopInterface 0 3) (keyed { func3 with tdi := .run })).func 0 3).tdi = .unlocked ∧
    ((after (.ideIntegrityFailure 0 3) (keyed { func3 with tdi := .run })).func 0 3).tdiCause = 3 ∧
    ((after (.ideKm 0 2 5 0 3 3) { keyed func3 with hst := (hosted func3).hst }).func 0 3).tdiStream = 5 ∧
    ((after (.flr 0 3) (keyed func3)).func 0 3).bound = true := by decide +kernel

/-- Port 0 in the state `p`, a read of host memory of tag 4 outstanding for the mesh request of tag 0. -/
def hostReads (p : HPort) : State :=
  { hosted { func3 with tdi := .run } with
    hst := { (hosted { func3 with tdi := .run }).hst with
      ports := [(0, p)]
      reqs := [{ tag := 4, func := 3 }] }
    mesh := { reqs := [(reqKey 0 0, { who := .load 0 0 0 8 0, pkt := { noPacket with type := 1 } })] } }
theorem witness_port_down : (hostReads {}).hst.queued = [] ∧ ((after (.hostDlDown 0) (hostReads { st := .up })).hport 0).st = .hold ∧
    ((after (.hostDlDown 0) (hostReads { st := .up })).func 0 3).tdiCause = 4 ∧
    ((after (.hostLinkUp 0) (hostReads { st := .hold })).hport 0).st = .training ∧
    ((after (.hostHoldExpiry 0) (hostReads { st := .hold })).hport 0).st = .training := by decide +kernel
theorem witness_port_up : ((after (.hostLinkTrained 0 6 2) (hostReads { st := .training })).hport 0).st = .up ∧
    ((after (.perstAssert 0) (hostReads { st := .up })).hport 0).st = .hold ∧
    ((after (.perstDeassert 0) (hostReads { st := .down, perst := true })).hport 0).st = .training := by decide +kernel
theorem witness_completion : (hostReads {}).hostReq 0 4 = some { tag := 4, func := 3 } ∧ (hostReads {}).hostReq 0 5 = none ∧
    (after (.hostCompletion 0 4 (.ok 1)) (hostReads {})).hst.reqs = [] ∧
    ((after (.hostCompletion 0 4 .refused) (hostReads {})).hport 0).cntLost = 1 ∧
    ((after (.hostCompletionTimeout 0 4) (hostReads {})).hport 0).cntLost = 1 ∧
    (after (.hostCompletion 0 5 .poisoned) (hostReads {})).hst.late = 1 := by decide +kernel
theorem witness_ats_config : (after (.atsInvalidation 0 3 1 2 0 1) (hosted func3)).out = [.atsCompletion 0 3 1] ∧
    (after (.configRequest 0 3 true .busMaster 1 9) (hosted func3)).out = [.hostCompletion 0 3 9 0 []] ∧
    ((after (.configRequest 0 3 true .busMaster 1 9) (hosted func3)).func 0 3).busMaster = true ∧
    (after (.configRequest 0 4 true .busMaster 1 9) (hosted func3)).out = [.hostCompletion 0 4 9 1 []] ∧
    (after (.configRequest 0 3 true .busMaster 1 9) { hosted func3 with boot := { State.reset.boot with step := 4 } }).out =
      [.hostCompletion 0 3 9 2 []] := by decide +kernel

/-! ### Itlum: messages, leases, queries -/

/-- `n` bytes with the values of the fields (byte offset, value). -/
def bytesOf (n : Nat) (fields : List (Nat × Nat)) : Bytes := toBytes n (fields.map fun f => f.2 * 2 ^ (8 * f.1)).sum

/-- A message with its CRC: the request of an opcode with a REQ_ID of 1. -/
def request (op : Nat) : Bytes :=
  let m := bytesOf 64 [(0, 1), (2, op), (4, 1)]
  m.take 0x3C ++ toBytes 4 (crc32c m)
/-- Itlum serves, and the site operator's session lives. -/
def serving : State :=
  { world tile0 with rot := { State.reset.rot with sessions := [{ id := 2, path := .site, finished := true, site := true }] } }
def mailed (m : Mailbox) : State := { serving with hst := { funcs := [(0, { mail := m })] } }
def inMailbox (m : Bytes) : Mailbox := { req := (List.range m.length).map fun i => (i, m.getD i 0) }
theorem witness_sound : ∀ p ∈ [Path.mailbox 0 0, .mctp 9, .peer 6, .site], soundRequest serving p (request 0x0101) := by
  unfold soundRequest; decide +kernel
theorem witness_taken : (after (.mctpMessage 9 (request 0x0101)) serving).itl.order = [.mctp 9] ∧
    (after (.peerMessage (2, 6) (request 0x0101)) serving).itl.order = [.peer 6] ∧
    (after (.siteSessionMessage (request 0x0101)) serving).itl.order = [.site] ∧
    (after (.mctpMessage 9 (request 0x0101)) (after (.mctpMessage 9 (request 0x0101)) serving)).out.length = 1 := by decide +kernel
theorem witness_mailbox : (after (.mailboxGo 0 0) (mailed (inMailbox (request 0x0101)))).itl.order = [.mailbox 0 0] ∧
    ((after (.mailboxGo 0 0) (mailed { busy := true })).func 0 0).mail.err.order = 1 ∧ crcBad (Mailbox.request {}) = true ∧
    ((after (.mailboxGo 0 0) (mailed {})).func 0 0).mail.done = true ∧
    ((after (.itlNtfConsWrite 0 0 64) (mailed { prod := 64 })).func 0 0).mail.cons = 64 ∧
    ((after (.itlNtfConsWrite 0 0 1) (mailed {})).func 0 0).mail.err.order = 1 := by decide +kernel
def staging : State := { serving with itl := { serving.itl with reqs := [{ path := .mailbox 0 0, staging := true, staged := [1] }] } }
theorem witness_staging : ((after (.mailboxDiscard 0 0) staging).requester (.mailbox 0 0)).staged = [] ∧
    ((after (.partStagingTimeout (.mailbox 0 0)) staging).requester (.mailbox 0 0)).staging = false := by decide +kernel

/-- The site operator's request for composition 1, under the epoch of the lease that `world` has. -/
def reqOf (op : Nat) (payload : Bytes) : ItlReq :=
  { path := .site, op := BitVec.ofNat 16 op, reqId := 1, cid := 1, part := 0, owner := 0, lease := 7, payload := payload }
def sent (op : Nat) (payload : Bytes) (s : State) : State :=
  { s with itl := { s.itl with order := [.site], reqs := [{ path := .site, busy := some (reqOf op payload) }] } }
/-- The STATUS of each answer that a command leaves. -/
def statuses (u : State) : List Nat := u.out.filterMap fun
  | .itlum _ b => some (hdF b 0x0A 2)
  | _ => none

/-- The request stands before its command in `s`: it passes checks 7 and 8 (its payload's own check shows in its STATUS). -/
def due (op : Nat) (payload : Bytes) (s : State) : Prop := passes (sent op payload s) .site op true (reqOf op payload)
/-- What a command leaves, run on its request in `s`. -/
def done (c : Instr) (op : Nat) (payload : Bytes) (s : State) : State := after c (sent op payload s)

/-- The lease of composition 1 as `l`. -/
def lease0 : Lease := { st := .held, epoch := 7 }
def holding (l : Lease) : State := { world tile0 with brd := { (world tile0).brd with leases := [(1, l)] } }
theorem witness_leases_due : due 0x0201 (bytesOf 6 [(0, 3)]) (holding {}) ∧ due 0x0202 (bytesOf 2 [(0, 3)]) (holding lease0) ∧
    due 0x0203 (bytesOf 12 [(0, 9)]) (holding lease0) ∧ due 0x0204 [] (holding lease0) ∧ due 0x0205 [] (holding lease0) ∧
    due 0x0207 (bytesOf 2 [(0, 20)]) (holding lease0) ∧ rising (holding lease0).brd.leases ∧ (holding {}).composeOff = false := by
  unfold due passes rising; decide +kernel
theorem witness_leases : statuses (done (.leaseAcquire .site) 0x0201 (bytesOf 6 [(0, 3)]) (holding {})) = [0] ∧
    statuses (done (.leaseRenew .site) 0x0202 (bytesOf 2 [(0, 3)]) (holding lease0)) = [0] ∧
    statuses (done (.leaseTransfer .site) 0x0203 (bytesOf 12 [(0, 9)]) (holding lease0)) = [0] ∧
    statuses (done (.leaseRelease .site) 0x0204 [] (holding lease0)) = [0] ∧
    ((done (.leaseBreak .site) 0x0205 [] (holding lease0)).lease 1).st = .orphaned ∧
    (done (.leaseGrace .site) 0x0207 (bytesOf 2 [(0, 20)]) (holding lease0)).brd.grace = 20 := by decide +kernel

/-- The queries, of composition 1 in slot 5; METER_RECORD where the RTP signs. -/
def metered : State := { world tile0 with rot := { State.reset.rot with signReady := true } }
theorem witness_queries_due : (∀ op ∈ [0x0206, 0x0101, 0x0103, 0x0102, 0x0902, 0x0702, 0x0408, 0x0602],
      due op (if op = 0x0602 then [0, 0, 0, 0] else []) (world tile0)) ∧ (world tile0).slotOf 1 = some 5 ∧
    (world tile0).pwr.episodes = [] ∧ due 0x0302 [] metered := by unfold due passes; decide +kernel
theorem witness_queries : statuses (done (.leaseQuery .site) 0x0206 [] (world tile0)) = [0] ∧
    statuses (done (.bridleQuery .site) 0x0103 [] (world tile0)) = [0] ∧
    statuses (done (.recoveryQuery .site) 0x0902 [] (world tile0)) = [0] ∧
    statuses (done (.cadQuery .site) 0x0702 [] (world tile0)) = [0] ∧
    statuses (done (.fqStatus .site) 0x0408 [] (world tile0)) = [0] ∧
    statuses (done (.pwrQuery .site) 0x0602 [0, 0, 0, 0] (world tile0)) = [0] := by decide +kernel
theorem witness_meter_record : (metered.takeMeter 5 0).isSome = true ∧
    ((done (.meterRecord .site) 0x0302 [] metered).meter 5).seq = 1 := by decide +kernel

/-! ### Compositions, spares and moves -/

/-- An image of 2 windows, for composition 1, which no slot binds. -/
def imageBytes : Bytes := bytesOf 64 [(0, 1), (2, 1), (16, 7)] ++ bytesOf 32 [(0, 6), (2, 2)]
def image0 : Image := { entries := [.windows 2] }
def unbound : State := { holding lease0 with brd := { (holding lease0).brd with sh := .of {}, images := [] } }
/-- Composition 1 in slot 5 with those windows. -/
def bound : State := { holding lease0 with brd := { (holding lease0).brd with images := [(1, image0)] } }
theorem witness_image : due 0x0301 imageBytes unbound ∧ unbound.commitWaits = false ∧ unbound.composeOff = false ∧
    hdF imageBytes 4 4 = (unbound.epochOfCid 1).toNat ∧ decodeImage imageBytes 1 = .ok image0 ∧
    unbound.imageRefusal 1 none unbound.freeSlotNo {} image0 (unbound.removed none {} image0) = none ∧
    unbound.newGroups {} image0 (unbound.removed none {} image0) = some [] ∧ unbound.findRun 0 2 = some 0 ∧
    ((done (.bridleImage .site) 0x0301 imageBytes unbound).itl.held).isSome = true := by unfold due passes; decide +kernel
theorem witness_unbind : due 0x0303 [] unbound ∧ statuses (done (.unbind .site) 0x0303 [] unbound) = [0] ∧
    due 0x0303 [] bound ∧ bound.slotOf 1 = some 5 ∧
    bound.imageRefusal 1 (some 5) bound.freeSlotNo image0 {} (bound.removed (some 5) image0 {}) = none := by unfold due passes; decide +kernel

def pairsAs (a b : Pair) : State := { world tile0 with lp := { State.reset.lp with pairs := [(2, a), (3, b)] } }
theorem witness_spares : due 0x0304 [2] (pairsAs { st := .active } {}) ∧ (pairsAs { st := .active } {}).pairBound 2 = false ∧
    statuses (done (.spareHold .site) 0x0304 [2] (pairsAs { st := .active } {})) = [0] ∧
    due 0x0305 [3] (pairsAs {} { st := .spareReady, siteSpare := true }) ∧
    (pairsAs {} { st := .spareReady, siteSpare := true }).taken 3 = false ∧
    ((done (.spareFree .site) 0x0305 [3] (pairsAs {} { st := .spareReady, siteSpare := true })).pair 3).st = .active ∧
    due 0x0306 [2, 3, 8] (pairsAs { st := .active } { st := .spareReady, siteSpare := true }) ∧
    ((done (.pairMove .site) 0x0306 [2, 3, 8] (pairsAs { st := .active } { st := .spareReady, siteSpare := true })).moveH 0).st =
      .copying := by unfold due passes; decide +kernel

/-! ### Contexts, queues, fabric, memory, cadence, power and recovery by command -/

/-- Composition 1 binds banks 0 and 1 of tile 0 and its granules 0 and 1, bank 1 EMPTY. -/
def image1 : Image := { entries := [.tiles 0 3 0 1, .windows 1] }
def loadable (res : Tab ResSh) : State :=
  { mapped { tile0 with srm := { sh := .of {
      share := [(0, ⟨true, 1, 0⟩)]
      gran := [(0, ⟨true, false, 1, 1⟩), (1, ⟨true, false, 1, 1⟩)] } } } [] with
    brd := { (world tile0).brd with images := [(1, image1)] }
    que := { sh := .of { res := res } } }
def loadBytes : Bytes := bytesOf 12 [(0, 1), (2, 10), (4, 1), (8, 0x100A00)]
theorem witness_context_load : due 0x0401 loadBytes (loadable []) ∧ (loadable []).loadRefusal 1 1 10 (loadEntries loadBytes) = none ∧
    (loadable []).physTile 0 = some 0 ∧ loadEntries loadBytes = [⟨0, 1, 1, 1, 0⟩] ∧
    ((done (.ctxLoad .site) 0x0401 loadBytes (loadable [])).tile 0).srm.sh.acc.isSome = true := by unfold due passes; decide +kernel
def resident : Tab ResSh := [(9, { valid := true, ctx := 1, cid := 1, waitLimit := 1 })]
def evictDone : State :=
  { loadable resident with
    tiles := []
    itl := { (world tile0).itl with reqs := [{ path := .site, longOp := some ⟨0x0402, 1, 1, 1⟩ }] } }
theorem witness_context_evict : due 0x0402 [1, 0, 1] (loadable resident) ∧ (loadable resident).resOf 1 1 = some 9 ∧
    ((done (.ctxEvict .site) 0x0402 [1, 0, 1] (loadable resident)).bank 0 0).st = .purging ∧
    evictDone.ctxBanks 1 1 = [] ∧ (after (.ctxEvictDone 1 1) evictDone).que.sh.act.res = [] := by unfold due passes; decide +kernel
def tableBytes : Bytes := bytesOf 9 [(0, 0x100000), (8, 10)]
def tableDone : State := { loadable [] with
  itl := { (world tile0).itl with reqs := [{ path := .site, longOp := some ⟨0x0403, 1, 1, 0x100000 + 2 * 2 ^ 46⟩ }] } }
theorem witness_object_table : due 0x0403 tableBytes (loadable []) ∧ (loadable []).tableHeld 1 = false ∧
    (loadable []).tableFits 1 0x100000 10 = true ∧ statuses (done (.objTable .site) 0x0403 tableBytes (loadable [])) = [1] ∧
    (after (.objTableDone 1) tableDone).objTab 1 = some ⟨0x100000, 2⟩ := by unfold due passes; decide +kernel

/-- Queue 0 of composition 1 STOPPED at HEAD 0; queue 1 registered from function 3's mailbox. -/
def stopped : State :=
  { queued [] [] with
    brd := { (world tile0).brd with images := [(1, image1)] }
    que := { (queued [] []).que with q := [(0, { st := .stopped, tail := 4 })] } }
def registerBytes : Bytes := bytesOf 0x28 [(0, 1), (2, 1), (6, 6), (0x10, 0x40000000), (0x18, 0x800), (0x20, 0x40)]
def registering : State :=
  { stopped with itl := { stopped.itl with
      order := [.mailbox 0 3]
      reqs := [{ path := .mailbox 0 3, busy := some { reqOf 0x0404 registerBytes with path := .mailbox 0 3 } }] } }
theorem witness_register : passes registering (.mailbox 0 3) 0x0404 true { reqOf 0x0404 registerBytes with path := .mailbox 0 3 } ∧
    registering.registerEntry 1 registerBytes = .inr 1 ∧ (after (.qRegister (.mailbox 0 3)) registering).itl.held.isSome = true := by
  unfold passes; decide +kernel
theorem witness_queue_commands_by_itlum : due 0x0405 [0, 0] stopped ∧ stopped.queueNamed 1 0 = some 0 ∧
    (done (.qUnregister .site) 0x0405 [0, 0] stopped).itl.held.isSome = true ∧ due 0x0407 (bytesOf 12 [(8, 1)]) stopped ∧
    (done (.fqSet .site) 0x0407 (bytesOf 12 [(8, 1)]) stopped).itl.held.isSome = true ∧ due 0x0406 (bytesOf 8 [(4, 2)]) stopped ∧
    ((done (.qResume .site) 0x0406 (bytesOf 8 [(4, 2)]) stopped).qRo 0).head = 2 := by unfold due passes; decide +kernel

/-- The fabric of slot 5, whose image has one window, with collective 3. -/
def ruled (f : Fab) : State :=
  let s := fabric upPort f
  { s with brd := { s.brd with images := [(1, { entries := [.windows 1] })] } }
def coll9 : State := ruled { sh := .of { coll := [(3, coll3 none)] } }
def collBytes : Bytes := bytesOf 0x28 [(0, 2 ^ 63 + 9 * 2 ^ 16), (8, 2 * 2 ^ 48), (0x18, 128)]
theorem witness_fabric_due : due 0x0501 (toBytes 4 0x80000005) unbound ∧ due 0x0502 (toBytes 16 0) (ruled {}) ∧
    due 0x0505 (bytesOf 14 [(1, 9), (4, 1)]) (ruled {}) ∧ due 0x0506 [0] (ruled {}) ∧ due 0x0508 collBytes (ruled {}) ∧
    due 0x0509 [9, 0] coll9 ∧ due 0x0503 (bytesOf 8 [(0, 2), (4, 2 ^ 31 + 6 * 64 + 1)]) (ruled {}) := by
  unfold due passes; refine ⟨?_, ?_, ?_, ?_, ?_, ?_, ?_⟩ <;> decide +kernel
theorem witness_fabric_named : (ruled {}).winNamed 1 0 = some 0 ∧ (ruled {}).collSlot 1 9 = some 0 ∧ (ruled {}).collFenceFits (collOfBytes 1 collBytes) = true ∧
    coll9.collOf 1 9 = some 3 ∧ (ruled {}).module = 5 := by decide +kernel
theorem witness_fabric_changes :
    (done (.moduleNumber .site) 0x0501 (toBytes 4 0x80000005) unbound).itl.held.isSome = true ∧
    (done (.routeSet .site) 0x0502 (toBytes 16 0) (ruled {})).itl.held.isSome = true ∧
    (done (.winSet .site) 0x0505 (bytesOf 14 [(1, 9), (4, 1)]) (ruled {})).itl.held.isSome = true ∧
    (done (.winClear .site) 0x0506 [0] (ruled {})).itl.held.isSome = true ∧
    (done (.collSet .site) 0x0508 collBytes (ruled {})).itl.held.isSome = true ∧
    (done (.collClear .site) 0x0509 [9, 0] coll9).itl.held.isSome = true ∧
    (done (.linkExpect .site) 0x0503 (bytesOf 8 [(0, 2), (4, 2 ^ 31 + 6 * 64 + 1)]) (ruled {})).itl.held.isSome = true := by
  decide +kernel
def draining : State := { ruled { drains := [⟨0, 1, none⟩] } with
  itl := { (world tile0).itl with reqs := [{ path := .site, longOp := some ⟨0x0507, 1, 1, 0⟩ }] } }
theorem witness_fabric_rest : due 0x0504 [5, 0] (ruled {}) ∧
    (done (.fabTimeout .site) 0x0504 [5, 0] (ruled {})).fab.timeout = 5 ∧ due 0x0507 (bytesOf 0x18 [(0x10, 1)]) (ruled {}) ∧
    (done (.winInval .site) 0x0507 (bytesOf 0x18 [(0x10, 1)]) (ruled {})).fab.winLook = [] ∧
    (after (.windowDrainDone 0) draining).fab.drains = [] := by unfold due passes; decide +kernel
def memBytes (n : Nat) : Bytes := bytesOf n [(0, 0x3F0000000040), (8, 1), (0x0C, 64)]
theorem witness_memory_commands : due 0x050A (memBytes 128) meshState ∧ due 0x050B (memBytes 14) meshState ∧
    meshState.firstRefused (Who.of 1 1) .wr 0x3F0000000040 1 = none ∧ meshState.place 0x3F0000000040 = .sram 0 64 ∧
    (done (.memWrite .site) 0x050A (memBytes 128) meshState).mem = [] ∧
    statuses (done (.memRead .site .clean) 0x050B (memBytes 14) meshState) = [0] := by unfold due passes; decide +kernel

theorem witness_cadence_power_commands : due 0x0701 (bytesOf 7 [(0, 1), (4, 50000)]) (world tile0) ∧
    (done (.cadSet .site) 0x0701 (bytesOf 7 [(0, 1), (4, 50000)]) (world tile0)).itl.held.isSome = true ∧
    due 0x0601 (bytesOf 0x18 [(0, 1), (4, 2000)]) (world tile0) ∧ pwrCheck { (world tile0).pwr.sh.pend with cap := 2000 } = none ∧
    (done (.pwrSet .site) 0x0601 (bytesOf 0x18 [(0, 1), (4, 2000)]) (world tile0)).itl.held.isSome = true := by
  unfold due passes; decide +kernel
def act (fields : List (Nat × Nat)) : Bytes := bytesOf 10 fields
theorem witness_recover_due : due 0x0901 (act [(0, 1), (2, 1)]) (loadable resident) ∧ recoverOk (act [(0, 1), (2, 1)]) = true ∧
    (∀ b ∈ [act [(0, 2), (4, 0)], act [(0, 3), (6, 1)], act [(0, 4)], act [(0, 5), (8, 9)]], recoverOk b = true ∧ due 0x0901 b (world tile0)) ∧
    ((world tile0).tile 0).role = .grid ∧ (world tile0).covered 0 = false ∧ (world tile0).covered 1 = false := by
  unfold due passes; decide +kernel
theorem witness_recover : ((done (.recoverPurge .site) 0x0901 (act [(0, 1), (2, 1)]) (loadable resident)).bank 0 0).st = .purging ∧
    ((done (.recoverIsolate .site) 0x0901 (act [(0, 2), (4, 0)]) (world tile0)).tile 0).clamp = true ∧
    (done (.recoverHalf .site) 0x0901 (act [(0, 3), (6, 1)]) (world tile0)).rcv.pendingHalf = some (1, true) ∧
    (done (.recoverModule .site) 0x0901 (act [(0, 4)]) (world tile0)).rcv.pendingModule = some true ∧
    (done (.recoverHangLimit .site) 0x0901 (act [(0, 5), (8, 9)]) (world tile0)).rcv.hangLimit = 9 := by decide +kernel

/-! ### The root of trust and SPDM -/

/-- The root of trust as `r`, 48 V at the input. -/
def secured (r : Rot) : State := { world tile0 with rot := r, pwr := { State.reset.pwr with vin := 48000 } }
def keyBytes : Bytes := bytesOf 0x28 [(0, 1), (4, 9), (5, 1), (8, 7)]
def keyed9 : Rot := { slots := [(9, ⟨true, false, 1, 7⟩)] }
theorem witness_key_slots : due 0x0801 keyBytes (secured {}) ∧ secOk keyBytes = true ∧ (secured {}).slotUsed 9 = false ∧
    (secured {}).rot.lcNow = 2 ∧ (done (.keyWrite .site) 0x0801 keyBytes (secured {})).keySlot 9 = ⟨true, false, 1, 7⟩ ∧
    due 0x0801 [2, 0, 0, 0, 63] (secured keyed9) ∧
    (done (.keyErase .site) 0x0801 [2, 0, 0, 0, 63] (secured keyed9)).keySlot 9 = {} ∧
    ((done (.keyStatus .site 0x200) 0x0801 [3] (secured keyed9)).keySlot 9).bad = true := by unfold due passes; decide +kernel

/-- The fields of a token of a kind for the nonce 5 (its signature is the command's operand), with the fields (byte offset, value) of its subcommand. -/
def token (sub kind : Nat) (fields : List (Nat × Nat)) : Bytes := bytesOf 0x50 ([(0, sub), (8, kind), (0x18, 5)] ++ fields)
def challenged (lc : BitVec 2) : Rot := { lcNow := lc, nonce := some 5 }
theorem witness_transitions : ∀ n ∈ [1, 2, 3],
    let b := token 0x10 1 ((0x38, n) :: if n = 2 then [(0x39, 1)] else [])
    let s := { secured (challenged (BitVec.ofNat 2 (n - 1))) with brd := unbound.brd }
    due 0x0801 b s ∧ secOk b = true ∧ (s.tokenFails (reqOf 0x0801 b) 1 true).isNone = true ∧ s.anyBound = false ∧
    (done (.lcTransition .site true 40) 0x0801 b s).rot.transitioned = true := by unfold due passes; decide +kernel
def rooted : Rot := { challenged 2 with otp := { roots := [(0, (1, false)), (1, (2, false))] } }
theorem witness_roots : (secured rooted).activeRoot = some 0 ∧ due 0x0801 (token 0x30 3 [(0x38, 1)]) (secured rooted) ∧
    (done (.rootRevoke .site true) 0x0801 (token 0x30 3 [(0x38, 1)]) (secured rooted)).rot.otp.roots =
      [(0, (1, true)), (1, (2, false))] ∧
    due 0x0801 (bytesOf 0x38 [(0, 0x31), (8, 4)]) (secured {}) ∧
    (done (.siteRoot .site) 0x0801 (bytesOf 0x38 [(0, 0x31), (8, 4)]) (secured {})).rot.otp.sites = [(0, 4)] := by
  unfold due passes; decide +kernel
def grant : Bytes := token 0x21 2 [(0x38, 1), (0x3A, 9)]
def unboundWith (r : Rot) : State := { secured r with brd := unbound.brd }
theorem witness_debug : due 0x0801 [0x20] (secured {}) ∧ (done (.challengeCmd .site) 0x0801 [0x20] (secured {})).rot.draws = 1 ∧
    due 0x0801 [0x21] (secured (challenged 3)) ∧
    (done (.debugOpen .site false) 0x0801 [0x21] (secured (challenged 3))).rot.debugRights = 7 ∧
    due 0x0801 grant (unboundWith (challenged 2)) ∧ hasToken grant = true ∧
    (done (.debugOpen .site true) 0x0801 grant (unboundWith (challenged 2))).rot.testroot = true := by
  unfold due passes; decide +kernel
theorem witness_trees : (after .debugGrantExpiry (secured { debugOpen := true })).rot.debugOpen = false ∧
    (after .treeGenerationDone (secured { generating := true })).rot.signReady = true ∧
    (after .treeGenerationDone (secured { generating := true, aliasDue := true })).rot.aliasDue = false ∧
    (after .treeGenerationDone (secured { generating := true, signReady := true })).rot.nextTree = true := by decide +kernel

/-- A connection on an MCTP path that has negotiated, and can sign. -/
def talking (xs : List Session) : State :=
  secured { signReady := true, conns := [{ path := .mctp 9, step := 3, sigs := [(1, [2])] }], sessions := xs }
def session1 : Session := { id := 1, path := .mctp 9 }
theorem witness_spdm : talks (talking []) (.mctp 9) 3 ∧ (talking []).hasIdentity = true ∧
    ((after (.getVersion (.mctp 9)) (talking [session1])).conn (.mctp 9)).step = 1 ∧
    ((after (.getCapabilities (.mctp 9)) (after (.getVersion (.mctp 9)) (talking []))).conn (.mctp 9)).step = 2 ∧
    (after (.getDigests (.mctp 8)) (talking [])).out = [.spdm (.mctp 8) (.error .unexpectedRequest)] ∧
    (after (.vendorDefinedRequest (.mctp 9) 1) (talking [])).out = [.spdm (.mctp 9) (.hssSignature [2])] := by
  unfold talks; decide +kernel
theorem witness_spdm_sessions : (talking []).expireSessions.rot.sessions.length < 8 ∧
    (after (.keyExchange (.mctp 9) 0 []) (talking [])).rot.sessions.length = 1 ∧
    (after (.spdmChallenge (.mctp 9) 0 []) (talking [])).rot.draws = 1 ∧
    (talking [session1]).expireSessions.session (.mctp 9) 1 = some session1 ∧
    ((after (.finishMsg (.mctp 9) 1 true none) (talking [session1])).session (.mctp 9) 1).map (·.finished) = some true ∧
    (after (.endSession (.mctp 9) 1) (talking [{ session1 with finished := true }])).rot.sessions = [] := by decide +kernel

/-! ### Scheduling, power and temperature -/

/-- Bank 0 of tile 0 waits for longer than FILL_DELAY, bank 2 is ready. -/
def idling : State :=
  world { tile0 with banks := [(0, { bank0 with st := .waiting, wait := some (.arrive 2), notReady := 99999 }), (2, bank0)] }
theorem witness_reel : (after (.seqReelEntryWrite true 4 0x8000000000200007) State.reset).sched.reelB = [(4, ⟨true, 2, 7⟩)] ∧
    (after (.seqReelEntryWrite false 4 0) State.reset).sched.err.order = 1 ∧ idling.lane = 0 ∧
    (idling.tile 0).vacant 0 = false ∧ (idling.tile 0).ready 0 = false ∧ idling.borrower 0 0 = none ∧
    idling.sched.sh.act.fillDelay.toNat < ((idling.tile 0).bank 0).notReady ∧
    ((after (.fillDelayExpiry 0) idling).tile 0).run = 2 := by decide +kernel

def powered (f : Pwr → Pwr) : State := { world tile0 with pwr := f State.reset.pwr }
def reading (watts mA : Nat) : PowerReading :=
  { watts := watts, inputMv := 48000, currentMa := mA, link := 0, mem := 0, comp := 0, base := 0 }
/-- A reading above the peak limit, one above the current limit, one at both that is above CAP only; a settled one. -/
theorem witness_power_loop : (after (.powerLoop (reading 3301 0)) (powered id)).limitAt .clk 3 0xFFFF ≠ none ∧
    (after (.powerLoop (reading 3300 72001)) (powered id)).limitAt .clk 4 0xFFFF ≠ none ∧
    min (powered id).pwr.capEff (powered id).pwr.ceil < 16 * 3300 ∧ (powered id).ballastNow.2 = 0 ∧
    ((powered id).order.reverse.find? fun a => decide (4 < (powered id).setting a) && ((powered id).holding a).all loopReason) ≠ none ∧
    (after (.powerLoop (reading 3300 72000)) (powered id)).limitAt .clk 3 0xFFFF = none ∧
    (after (.protectionRelease true false) (after (.powerLoop (reading 3301 0)) (powered id))).limitAt .clk 3 0xFFFF ≠ none ∧
    (after (.drogueStepPoint 500 3) (powered fun p => { p with unmet := true })).pwr.ceil =
      (16 * 500 + 7 * (powered id).pwr.sh.act.slew.toNat) ⊓ (powered id).pwr.capEff := by decide +kernel
def trimming : State := powered fun p => { p with sh := .of { p.sh.act with vmode := true } }
theorem witness_voltage : ((after (.voltageSettled 1) (powered id)).volt 1).settled = true ∧ ((after (.voltageMarginAlarm 1) trimming).volt 1).lift = 4 ∧
    (after (.voltageMarginAlarm 1) trimming).limitAt .clk 7 0x701 = some 15 ∧
    (after (.voltageTrimDown 1) trimming).trim 1 = 1 := by
  decide +kernel
def tripped : State := { world tile0 with boot := { (world tile0).boot with power := .tripped } }
/-- Readings below and above the limits of a tile; its throttle step; a module that has cooled down. -/
theorem witness_temperature : ((after (.sensorReading (.tile 0) 400) (powered id)).tile 0).temp = 400 ∧
    (after (.sensorReading (.tile 0) 920) (powered id)).boot.power = .tripped ∧
    (after (.sensorReading (.tile 0) 840) (powered id)).limitAt .clk 6 (sensorLoc (.tile 0)) = some 4 ∧
    (after (.thermalThrottleStep (.tile 0)) (after (.sensorReading (.tile 0) 768) (powered id))).limitAt .clk 5
      (sensorLoc (.tile 0)) = some 15 ∧ (after .tripCooldown tripped).rcv.pendingModule = some false := by decide +kernel
/-- Composition 1's resident context has a command and is blocked; another command ended with Q_NOT_RESIDENT. -/
def starved : State :=
  { queued [command [(0, 7), (0x14, 0)]] [] with
    brd := { (world tile0).brd with leases := [(1, { st := .held, epoch := 7, dest := .mctp 9 })] }
    sched := { rss := [(9, ([], 4))], rssHeld := [(1, 4)], notRes := [(1, 2, 0)] } }
theorem witness_stalled_set : starved.rssStands 1 = true ∧ starved.rssAbsent 1 = [2] ∧
    (after (.residentSetStalled 1) starved).sched.rssSent = [1] ∧
    (after (.residentSetStalled 1) starved).out.length = 1 := by decide +kernel

/-! ### The cadence, commits, power-up and tests -/

def ticking (c : Cad) : State := { world tile0 with cad := c }
theorem witness_ticks : (after (.cadenceTick 1500) (ticking {})).cad.tick = 1 ∧
    (after (.cadencePeriodWrap 1500) (ticking { tick := 0xFFFFF })).cad.tick = 0 ∧
    (after (.cadencePeriodWrap 1500) (ticking { tick := 0xFFFFF, pendStep := some 5 })).cad.epoch = 6 ∧
    (after (.cadencePeriodWrap 1500) (ticking { tick := 0xFFFFF, epoch := 9, adoptLower := true, lower := some 4 })).cad.epoch = 6 ∧
    (after .markerTimeout (ticking { st := .locked })).cad.st = .holdover := by decide +kernel

/-- Mains mode, an interval of 20 ms; markers of each length, in its window and out of it. -/
def mains (st : CadSt) (tick : BitVec 20) (good : Nat) : Cad :=
  { sh := .of { mode := 1, nominal := 50000 }, st := st, tick := tick, good := good, interval := 20000000 }
theorem witness_markers : (mains .free 0 0).accepts 20000000 = true ∧ (mains .free 0 0).accepts 9 = false ∧
    (after (.tetherMarker 1499 20000000) (ticking (mains .free 0 0))).cad.rejected = 0 ∧
    (after (.tetherMarker 2999 20000000) (ticking (mains .free 0 0))).cad.rejected = 1 ∧
    (after (.tetherMarker 4000 9) (ticking (mains .free 0 0))).cad.rejected = 1 ∧
    (after (.tetherMarker 3000 20000000) (ticking (mains .free 0 0))).cad.st = .acquiring ∧
    (after (.tetherMarker 5000 20000000) (ticking (mains .acquiring 64 7))).cad.st = .locked ∧
    (after (.tetherMarker 4000 20000000) (ticking { mains .locked 1025 0 with far := 1 })).cad.st = .acquiring := by decide +kernel
/-- An epoch frame of the mains for epoch `n`. -/
def frameOf (n : Nat) : Bytes :=
  let b := bytesOf 20 [(2, 1), (3, 1), (4, n)]
  b.take 16 ++ toBytes 4 (crc32c ((b.drop 2).take 14))
theorem witness_epoch_frames : frameGood (frameOf 9) true = true ∧ frameGood (toBytes 20 0) true = false ∧
    (after (.epochFrame (frameOf 9)) (ticking { mains .acquiring 0 0 with epochSet := true })).cad.pendStep = some 9 ∧
    (after (.epochFrame (frameOf 3)) (ticking { mains .acquiring 0 0 with epochSet := true, markerEpoch := 5 })).cad.st = .conflict ∧
    (after (.epochFrame (frameOf 5)) (ticking { mains .conflict 0 0 with epochSet := true, markerEpoch := 5 })).cad.st = .acquiring ∧
    (after (.epochFrame (frameOf 9)) { unbound with cad := mains .acquiring 0 0 }).cad.epoch = 9 := by decide +kernel

/-- An accepted translation commit takes effect at the boundary, and not while firmware is exchanged. -/
def exchanging : State := { xltWaits with itl := { xltWaits.itl with fwActivating := true } }
theorem witness_boundary : xltWaits.rcv.shifts = [] ∧ xltWaits.rcv.holes = [] ∧ xltWaits.rcv.expired = [] ∧
    xltWaits.itl.fwActivating = false ∧ xltWaits.itl.held = none ∧ (after .commitBoundary xltWaits).xlt.sh.acc = none ∧
    (after .commitBoundary exchanging).xlt.sh.acc.isSome = true ∧
    (done (.routeSet .site) 0x0502 (toBytes 16 0) (ruled {})).itl.held =
      some { path := some .site, req := some (reqOf 0x0502 (toBytes 16 0)), change := .commitOnly, block := 6 } ∧
    statuses (after .commitBoundary (done (.routeSet .site) 0x0502 (toBytes 16 0) (ruled {}))) = [0] := by decide +kernel

def verdicts : VerifyFact := { rtpSig := true, itlSig := true }
def bootFact : BootFact := { bankA := verdicts, bankB := verdicts, straps := 0 }
/-- Firmware that passes, and that does not; the input's faults, MATE_N and a short reset. -/
theorem witness_power_up : (after (.inputValid bootFact) State.reset).boot.power = .sequencing ∧
    (after (.inputValid { bootFact with bankA := ⟨false, true⟩, bankB := ⟨true, false⟩ }) State.reset).boot.power = .loader ∧
    (after (.mrstRelease 999 bootFact) (world tile0)).boot.power = .full ∧
    (after (.mrstRelease 100001 bootFact) (world tile0)).boot.mrstShorts = 1 ∧
    (after (.inputFault 29999) (world tile0)).boot.power = .off ∧ (after (.inputFault 37999) (world tile0)).boot.power = .inputFault ∧
    (after (.inputFault 38000) (world tile0)).boot.power = .full ∧
    (after .inputRestored { world tile0 with boot := { (world tile0).boot with power := .inputFault } }).rcv.pendingModule =
      some false ∧
    (after .smbusTimeout (world tile0)).boot.smbusDown = true := by decide +kernel

/-- The west half in bring-up, all its BF16 tests passed but the shell test of tile `t` due; pairs as `st`. -/
def bringing (power : PowerSt) (service : BitVec 2) (r : SelfTest) (st : PairSt) : State :=
  { State.reset with
    tiles := [(0, { tile0 with banks := [] })]
    boot := { State.reset.boot with power := power, service := service, step := 8, tests := (List.range 544).map fun t => (t, r) }
    lp := { State.reset.lp with pairs := (List.range 192).map fun p => (p, { st := st }) } }
def passed : SelfTest := { shell := some true, bf16 := some true }
theorem witness_self_tests : (bringing .sequencing 0 {} .training).testDue 0 .shell = true ∧
    (bringing .sequencing 0 { shell := some true } .training).testDue 0 .bf16 = true ∧
    (bringing .early 1 passed .active).testDue 0 .narrow = true ∧
    ((after (.tileSelftestDone 0 .shell true) (bringing .sequencing 0 {} .training)).selfTest 0).shell = some true ∧
    ((after (.narrowSelftestHold 0) (bringing .early 1 passed .active)).tile 0).testHold = true := by decide +kernel
def training : State := { world tile0 with lp := { State.reset.lp with pairs := [(4, { st := .training, before := .active })] } }
theorem witness_pair_training : (training.pair 4).st = .training ∧ training.sched.waits = [] ∧
    ((after (.pairTrainingDone 4 true) training).pair 4).st = .active ∧
    training.spareOf 0 = none ∧ (training.moveH 0).st = .idle ∧
    ((after (.pairTrainingTimeout 4) training).pair 4).st = .degraded := by decide +kernel
theorem witness_service : (bringing .sequencing 0 passed .active).halfReady 0 = true ∧
    (bringing .early 1 { passed with narrow := some true } .active).fullReady = true := by decide +kernel

/-! ### Firmware, events, the flight log, registers -/

def firmware (i : Itl) : State := { world tile0 with itl := { i with avail := true } }
theorem witness_firmware_due : due 0x0A01 (toBytes 4 64) (firmware {}) ∧ due 0x0A02 [0, 0, 0, 0, 7] (firmware { fwSt := .receiving, fwSize := 64 }) ∧
    due 0x0A03 [] (firmware { fwSt := .receiving }) ∧ due 0x0A04 [] (firmware { fwSt := .verified }) ∧
    due 0x0A06 [] (firmware { fwSt := .trial }) ∧ due 0x0A05 [] (firmware { fwSt := .trial }) ∧ due 0x0A07 [] (firmware {}) ∧
    (firmware {}).fwOpen = false := by unfold due passes; decide +kernel
theorem witness_firmware : (done (.fwBegin .site) 0x0A01 (toBytes 4 64) (firmware {})).itl.fwSt = .receiving ∧
    Tab.find ((done (.fwWrite .site) 0x0A02 [0, 0, 0, 0, 7] (firmware { fwSt := .receiving, fwSize := 64 })).fwBank true).bytes 0 = some 7 ∧
    (done (.fwVerify .site) 0x0A03 [] (firmware { fwSt := .receiving })).itl.fwVerifying = true ∧
    (done (.fwActivate .site) 0x0A04 [] (firmware { fwSt := .verified })).itl.fwActivating = true ∧
    (done (.fwRevert .site) 0x0A06 [] (firmware { fwSt := .trial })).itl.fwActivating = true ∧
    (done (.fwConfirm .site) 0x0A05 [] (firmware { fwSt := .trial })).itl.fwSt = .idle ∧
    statuses (done (.fwQuery .site) 0x0A07 [] (firmware {})) = [0] := by decide +kernel
theorem witness_firmware_ends : (after (.fwVerifyDone verdicts) (firmware { fwSt := .receiving, fwVerifying := true })).itl.fwSt = .idle ∧
    (after .fwActivateDone (firmware { fwSt := .verified, fwActivating := true })).itl.fwSt = .trial ∧
    (after .fwActivateTimeout (firmware { fwSt := .verified, fwActivating := true })).itl.fwSt = .reverted ∧
    (after .trialConfirm (firmware { fwSt := .trial, trialPeriods := 3000 })).itl.fwSt = .idle := by decide +kernel

/-- Source 4 as `x`, core 1 takes its group. -/
def sourced (x : Src) : State :=
  { world tile0 with evt := { State.reset.evt with clockOn := true, srcs := [(4, x)], grps := [(0, { cmask := 2, due := true })] } }
theorem witness_sources : assigned 4 = true ∧ ((after (.eventSourceEdge 4 true) (sourced { mode := 1 })).src 4).pend = true ∧
    ((after (.eventSourceEdge 4 true) (sourced { mode := 1, pend := true })).src 4).merged = 1 ∧
    ((after (.eventSourceEdge 4 true) (sourced { en := false })).src 4).pend = false ∧
    ((after (.latchTransfer 4) (sourced { mode := 1, alatch := true })).src 4).pend = true ∧
    ((after (.evtSrcWrite 4 0x18000) (sourced {})).src 4).mode = 1 := by decide +kernel
theorem witness_claims : rising (sourced { pend := true }).evt.srcs ∧ (sourced { pend := true }).claimable 1 4 = true ∧
    (sourced { pend := true }).claimable 0 4 = false ∧ (after (.eventClaim 1) (sourced { pend := true })).out = [.claim 1 4] ∧
    (after (.eventClaim 0) (sourced { pend := true })).out = [.claim 0 0x3FF] ∧
    ((after (.eventDone 1 4) (sourced { inServ := true, claimer := 1 })).src 4).inServ = false ∧
    (after (.eventDone 2 4) (sourced { inServ := true, claimer := 1 })).evt.err.order = 1 ∧
    ((after (.holdoffExpiry 0) (sourced { pend := true })).grp 0).delivered = 1 := by unfold rising; decide +kernel
theorem witness_claims_only_pending (j : Nat) (h : (sourced { pend := true }).claimable 1 j = true) : j = 4 := by
  by_contra hj
  have : ((sourced { pend := true }).src j).pend = false := by
    simp [sourced, State.src, Tab.get, Ne.symm hj, Src.reset]
  unfold State.claimable at h
  rw [this] at h
  simp at h

/-- A buffered record; sector 0 takes it; sector 1 is written and 2 is to be erased. -/
def logged (f : Flog) : State := { world tile0 with flog := f }
def record0 : Bytes := toBytes 64 0
def unerased : Tab Sector := (List.range 16).map fun k => (k, { erased := false })
theorem witness_flight_log : (logged { buffer := [record0] }).logPlace (hdF record0 0 4) = some 0 ∧
    (after (.logFlashWrite true) (logged { buffer := [record0] })).flog.buffer = [] ∧
    ((after (.logFlashWrite false) (logged { buffer := [record0] })).sector 0).failed = true ∧
    (logged { sectors := unerased }).eraseNext = some 2 ∧
    ((after (.logSectorErase 2 true) (logged { sectors := unerased })).sector 2).erased = true ∧
    (after .logIdleMark (logged { sinceRecord := 600 })).flog.buffer.length = 1 ∧
    due 0x0B01 (toBytes 8 0) (logged {}) ∧ statuses (done (.logRead .site) 0x0B01 (toBytes 8 0) (logged {})) = [0] := by
  unfold due passes; decide +kernel

/-- Writes to XLT: of one byte, to PRI_CFG, to an owner, to a context-table entry whole and in halves, from a debug master. -/
theorem witness_register_writes : (after (.registerWrite (.zesin false) 0x29000008 0 1) (world tile0)).xlt.err.rsvd = 1 ∧
    (after (.registerWrite (.zesin false) 0x29000008 2 1024) (world tile0)).xlt.priTimeout = 1024 ∧
    (Tab.find (after (.registerWrite (.zesin false) 0x29004004 2 0xC0010002) (world tile0)).xlt.sh.pend.own 1).isSome = true ∧
    (Tab.find (after (.registerWrite (.zesin false) 0x29001008 3 0x8000000000010000) (world tile0)).xlt.sh.pend.ctab 1).isSome = true ∧
    (Tab.find (after (.registerWrite (.zesin false) 0x29001008 2 5) (world tile0)).lowHeld 0x29001008) = some 5 ∧
    (world tile0).debugWrites = false ∧ (world tile0).debugReads = false := by decide +kernel
theorem witness_register_reads : ((mapped tile0 []).registerRead (.zesin false) 0x29004000 2).1 = some 0xC0000001 ∧
    ((mapped tile0 []).registerRead (.zesin false) 0x29003000 2).1 = some 0 ∧ ((mapped tile0 []).registerRead (.zesin false) 0x29000009 2).1 = some 0 ∧
    ((mapped tile0 []).registerRead (.zesin false) 0x29001028 3).1 = some 0x8000800000000000 := by decide +kernel

end Sys2Proof.Tests
end

section
/-! SUPPORT. Every command completes: the meaning of a command is built from next states, conditions and lookups only, so
whatever branch a state and the operands take, a next state stands at its end. -/

namespace Sys2Proof.Machine

/-- An outcome that goes on with a next state. -/
def Completes (o : Out) : Prop := ∃ t, o = .next t

theorem Completes.next {t : State} : Completes (.next t) := ⟨t, rfl⟩

theorem Completes.ite {c : Prop} [Decidable c] {a b : Out} (ha : Completes a) (hb : Completes b) :
    Completes (if c then a else b) := by
  split
  · exact ha
  · exact hb

/-- The state that a reading leads to is built up before the one branch, on the sensor's trip limit. -/
theorem execSensorReading_completes (x : Sensor) (eighths : Int) (s : State) :
    Completes (execSensorReading x eighths s) := by
  unfold execSensorReading
  extract_lets
  split
  · exact .ite .next .next
  · exact .next

/-- The commands by the shape of their meanings: one outcome, conditions, lookups. -/
theorem exec_completes (c : Instr) (s : State) : Completes (exec c s) := by
  cases c
  -- one outcome, whatever the state
  case tetherReversal | srmCommitGo | memCommitGo | xltCommitGo | brdCommitGo | lnkCommitGo | fabCommitGo | queCommitGo
      | seqCommitGo | cadCommitGo | pwrCommitGo | coreClamp | coreGate | narrowEn | issueHold | tilCycleWrap | bankHold |
      bankPurge | scalarOp | scalarMemory | vectorOp | vectorMemory | conversion | blockQuantize | mmaB | mmaV | accMov |
      accZero | streamStart | streamArm | streamWait | streamStop | fenceSignal | fenceWait | semAcq | semRel | barArrive |
      barWait | flagsOp | endOp | nopOp | linkSlot | linkBeat | pairingWord | meshRead | meshWrite | meshAtomic |
      meshUnknownType | readResponse | writeAcknowledgement | atomicResponse | sramCorrectedRewrite | sramClear |
      srmUeValidClear | sramScrub | lpddrPatrolScrub | refresh | calibrationWindow | checkDelta | checkLineWriteback |
      reencryptDone | pageRequestDequeue | linkFrameReceive | linkFrameTransmit | retrainPort | fastRetrain | disablePort |
      clrCnt | maxWidth | substEn | eyeMeasurement | fabricIngress | fabricRoute | collectiveLocalWrite | doorbell |
      dlogRearm | dlogConsWrite | flr | vfEnableClear | hstBar2WinWrite | msixTableWrite | stopInterface |
      ideIntegrityFailure | hostDlDown | hostLinkUp | perstAssert | launchTileStart | mailboxGo | mailboxDiscard |
      itlNtfConsWrite | peerMessage | partStagingTimeout | inventory | telemetry | bridleQuery | leaseAcquire | leaseRenew |
      leaseTransfer | leaseRelease | leaseBreak | leaseQuery | leaseGrace | bridleImage | meterRecord | unbind | spareHold |
      spareFree | pairMove | ctxLoad | ctxEvict | objTable | qRegister | qUnregister | qResume | fqSet | fqStatus |
      moduleNumber | routeSet | linkExpect | fabTimeout | winSet | winClear | winInval | collSet | collClear | memWrite |
      memRead | pwrSet | pwrQuery | cadSet | cadQuery | keyWrite | keyErase | keyStatus | lcTransition | challengeCmd |
      debugOpen | rootRevoke | siteRoot | recoverPurge | recoverIsolate | recoverHalf | recoverModule | recoverHangLimit |
      recoveryQuery | fwBegin | fwWrite | fwVerify | fwConfirm | fwQuery | logRead | seqReelEntryWrite | regulatorRefill |
      powerLoop | protectionRelease | voltageSettled | unresponsiveBlock | nonceExpiry | getVersion | getCapabilities |
      negotiateAlgorithms | getDigests | getCertificate | spdmChallenge | getMeasurements | keyExchange | finishMsg |
      heartbeat | keyUpdate | endSession | vendorDefinedRequest | eventSourceEdge | eventClaim | eventDone | hostEventClaim
      | hostEventDone | holdoffExpiry | evtSrcWrite | evtHcfgWrite | mateNOpen | smbusIdleResume =>
    exact .next
  -- one condition
  case cadenceTick | cadencePeriodWrap | markerTimeout | commitBoundary | coreUnpowered | issueHeld | purgeComplete |
      purgeTimeout | shellFailure | fillDelayExpiry | linkCreditReturn | sramClearDone | writeDqRetrain | backgroundDeadline
      | mr4RateChange | kidRetired | epochFenceClose | fenceStallTimeout | moveCopyDone | leaseExpiry | graceExpiry |
      signalDetect | failedPortRetrain | collectiveTimeout | lockInterface | startInterface | hostHoldExpiry |
      atsInvalidation | perstDeassert | mctpMessage | siteSessionMessage | pairMoveDone | ctxEvictDone | windowDrainDone |
      fwVerifyDone | fwActivate | fwActivateTimeout | fwRevert | trialConfirm | residentSetStalled | drogueStepPoint |
      thermalThrottleStep | thermalReleaseStep | tripCooldown | voltageMarginAlarm | hangSample | debugGrantExpiry |
      logIdleMark | inputValid | narrowSelftestHold | fullServiceCommit | pairTrainingTimeout | bringupTimeout |
      smbusTimeout | pairTrainingDone | tileSelftestDone | hostLinkTrained | checkRecomputeDone | inputRestored |
      secondHalfUngate =>
    exact .ite .next .next
  -- conditions in a chain
  case epochFrame | ideKm | ringFetch | fwActivateDone | halfDrainTimeout | halfRecoveryEnd | treeGenerationDone |
      logSectorErase | mrstRelease =>
    exact .ite .next (.ite .next .next)
  case tetherMarker | bar2Read | bar2Write | configRequest | voltageTrimDown | latchTransfer =>
    exact .ite .next (.ite .next (.ite .next .next))
  -- lookups and conditions: each branch ends in a next state
  case registerWrite | isolationDrainDone | isolationDrainTimeout | shiftCopyStart | shiftCopyDone | walkComplete |
      barrierArrival | barrierRelease | barWaitTimeout | pairRebuildDone | coderJobDone | xltInv | xltSync | xltSyncDone |
      prgResponse | pageRequestTimeout | unitClearDone | lossOfSignal | trainingStepComplete | trainingStepTimeout |
      discovery | substReq | substAck | substNak | keyx | fabricEgressRelease | fabricResponse | fabricRequestTimeout |
      collectiveContribution | collectiveResult | hostCompletion | hostCompletionTimeout | launch | signalCmd | waitCmd |
      queueWaitTimeout | coder | freeObj | faultAck | queueNop | waitLimitExpiry | semaphoreBorrowStart | borrowBudgetExpiry
      | objTableDone | halfRecoveryStart | moduleRecoveryStart | recoveryTimeout | logFlashWrite | earlyServiceEntry |
      inputFault =>
    simp only [exec, execRegisterWrite, execIsolationDrainDone, execIsolationDrainTimeout, execShiftCopyStart,
      execShiftCopyDone, execWalkComplete, execBarrierArrival, execBarrierRelease, execBarWaitTimeout,
      execPairRebuildDone, execCoderJobDone, execXltInv, execXltSync, execXltSyncDone, execPrgResponse,
      execPageRequestTimeout, execUnitClearDone, execLossOfSignal, execTrainingStepComplete, execTrainingStepTimeout,
      execDiscovery, execSubstReq, execSubstAck, execSubstNak, execKeyx, execFabricEgressRelease, execFabricResponse,
      execFabricRequestTimeout, execCollectiveContribution, execCollectiveResult, execHostCompletion,
      execHostCompletionTimeout, execLaunch, execSignalCmd, execWaitCmd, execQueueWaitTimeout, execCoder, execFreeObj,
      execFaultAck, execQueueNop, execWaitLimitExpiry, execSemaphoreBorrowStart, execBorrowBudgetExpiry,
      execObjTableDone, execHalfRecoveryStart, execModuleRecoveryStart, execRecoveryTimeout, execLogFlashWrite,
      execEarlyServiceEntry, execInputFault]
    (repeat' split) <;> exact .next
  case sensorReading => exact execSensorReading_completes _ _ _

/-- Settles O2: each command's meaning, by the shape of its branches. -/
theorem everyCommandAnswers : Obligations.EveryCommandAnswers := exec_completes

end Sys2Proof.Machine
end

section
/-! SUPPORT. Tables of optional entries, and fields of a value: masked, narrowed, put together from two words. -/

namespace Sys2Proof.Machine

/-! ### Tables of optional entries -/

@[simp] theorem Tab.find_insert_same {α : Type} (t : Tab α) (k : Nat) (v : α) :
    Tab.find (Tab.insert t k v) k = some v := by
  induction t with
  | nil => simp [Tab.insert, Tab.find]
  | cons e t ih =>
    obtain ⟨j, w⟩ := e
    simp only [Tab.insert]
    split
    · simp [Tab.find]
    · split
      · simp [Tab.find]
      · rename_i h
        simp [Tab.find, Ne.symm h, ih]

theorem Tab.erase_eq_of_find_none {α : Type} {t : Tab α} {k : Nat} (h : Tab.find t k = none) : Tab.erase t k = t := by
  induction t with
  | nil => rfl
  | cons e t ih =>
    obtain ⟨j, w⟩ := e
    simp only [Tab.find] at h
    split at h
    · cases h
    · rename_i hj
      simp [Tab.erase, hj, ih h]

/-! ### Fields of a value -/

theorem fld_eq_ofNat {n : Nat} (v : BitVec n) (lo w : Nat) : fld v lo w = BitVec.ofNat w (v.toNat / 2 ^ lo) := by
  simp [fld, BitVec.extractLsb', Nat.shiftRight_eq_div_pow]

theorem fld_eq_zero_iff {n : Nat} (v : BitVec n) (lo w : Nat) : fld v lo w = 0 ↔ v.toNat / 2 ^ lo % 2 ^ w = 0 := by
  rw [fld_eq_ofNat, ← BitVec.toNat_inj]
  simp

theorem getLsbD_eq_decide {n : Nat} (v : BitVec n) (i : Nat) : v.getLsbD i = decide (v.toNat / 2 ^ i % 2 = 1) := by
  rw [← BitVec.testBit_toNat, Nat.testBit_eq_decide_div_mod_eq]

theorem getLsbD_fld {n : Nat} (v : BitVec n) (lo w i : Nat) :
    (fld v lo w).getLsbD i = (decide (i < w) && v.getLsbD (lo + i)) := BitVec.getLsbD_extractLsb' ..

theorem fld_eq_zero_iff_getLsbD {n : Nat} (v : BitVec n) (lo w : Nat) :
    fld v lo w = 0 ↔ ∀ i < w, v.getLsbD (lo + i) = false := by
  constructor
  · intro h i hi
    have hb := getLsbD_fld v lo w i
    rw [h] at hb
    simpa [hi] using hb.symm
  · intro h
    refine BitVec.eq_of_getLsbD_eq fun i hi => ?_
    rw [getLsbD_fld, h i hi]
    simp

/-- A field outside the masked bits is as it was. -/
theorem fld_and_not {n : Nat} (v m : BitVec n) (lo w : Nat) (h : fld m lo w = 0) :
    fld (v &&& ~~~m) lo w = fld v lo w := by
  refine BitVec.eq_of_getLsbD_eq fun i hi => ?_
  have hm := (fld_eq_zero_iff_getLsbD m lo w).mp h i hi
  rw [getLsbD_fld, getLsbD_fld, BitVec.getLsbD_and, BitVec.getLsbD_not, hm, Bool.not_false, Bool.and_true]
  cases hv : v.getLsbD (lo + i)
  · rfl
  · simp [BitVec.lt_of_getLsbD hv]

theorem bit_eq_fld {n : Nat} (v : BitVec n) (i : Nat) : bit v i = (fld v i 1).getLsbD 0 := by
  rw [getLsbD_fld]
  rfl

theorem bit_and_not {n : Nat} (v m : BitVec n) (i : Nat) (h : fld m i 1 = 0) : bit (v &&& ~~~m) i = bit v i := by
  rw [bit_eq_fld, bit_eq_fld, fld_and_not v m i 1 h]

/-- A field within the bits that a change of width keeps. -/
theorem fld_setWidth {n : Nat} (v : BitVec n) (m lo w : Nat) (h : n ≤ m ∨ lo + w ≤ m) :
    fld (v.setWidth m) lo w = fld v lo w := by
  refine BitVec.eq_of_getLsbD_eq fun i hi => ?_
  rw [getLsbD_fld, getLsbD_fld, BitVec.getLsbD_setWidth]
  cases hv : v.getLsbD (lo + i)
  · simp
  · have := BitVec.lt_of_getLsbD hv
    have hm : lo + i < m := by omega
    simp [hm]

theorem getLsbD_run (hi lo i : Nat) (h : lo ≤ hi) (hh : hi < 64) :
    ((BitVec.allOnes 64 >>> (63 - (hi - lo))) <<< lo).getLsbD i = decide (lo ≤ i ∧ i ≤ hi) := by
  rw [BitVec.getLsbD_shiftLeft, BitVec.getLsbD_ushiftRight, BitVec.getLsbD_allOnes, Bool.eq_iff_iff]
  simp
  omega

/-- A mask of one run of bits meets a value just where the field there is not zero. -/
theorem and_run_eq_zero_iff (v : DWord) (hi lo : Nat) (h : lo ≤ hi) (hh : hi < 64) :
    v &&& ((BitVec.allOnes 64 >>> (63 - (hi - lo))) <<< lo) = 0 ↔ fld v lo (hi + 1 - lo) = 0 := by
  rw [fld_eq_zero_iff_getLsbD]
  constructor
  · intro hv i hi'
    have hb := congrArg (BitVec.getLsbD · (lo + i)) hv
    rw [BitVec.getLsbD_and, getLsbD_run hi lo _ h hh] at hb
    have hr : lo ≤ lo + i ∧ lo + i ≤ hi := by omega
    simpa [hr] using hb
  · intro hv
    refine BitVec.eq_of_getLsbD_eq fun i hi' => ?_
    rw [BitVec.getLsbD_and, getLsbD_run hi lo _ h hh]
    by_cases hr : lo ≤ i ∧ i ≤ hi
    · have hb := hv (i - lo) (by omega)
      rw [show lo + (i - lo) = i by omega] at hb
      rw [hb]
      simp
    · simp [hr]

/-- The two words of a 64-bit register. -/
theorem toNat_words (hi lo : Word) : (put 64 32 hi ||| lo.setWidth 64).toNat = hi.toNat * 2 ^ 32 + lo.toNat := by
  have hb : hi.toNat <<< 32 < 2 ^ 64 := by rw [Nat.shiftLeft_eq]; omega
  rw [put, BitVec.toNat_or, BitVec.toNat_shiftLeft, BitVec.toNat_setWidth_of_le (by omega),
    BitVec.toNat_setWidth_of_le (by omega), Nat.mod_eq_of_lt hb, ← Nat.shiftLeft_add_eq_or_of_lt lo.isLt,
    Nat.shiftLeft_eq]

end Sys2Proof.Machine
end

section
/-! SUPPORT. Register accesses: where the registers of XLT lie, and what a write or a read of one of them does. -/

namespace Sys2Proof.Machine

/-! ### Where a register lies -/

@[simp] theorem regAt_self (a : Nat) (r : RegW) : regAt a a r = some (a, r) := by simp [regAt]

theorem regAt_high {r : RegW} (h : r.wide = true) (a : Nat) : regAt (a + 4) a r = some (a, r) := by simp [regAt, h]

theorem regAt_above {off a : Nat} (r : RegW) (h : a + 4 < off) : regAt off a r = none := by
  have h1 : off ≠ a := by omega
  have h2 : off ≠ a + 4 := by omega
  simp [regAt, h1, h2]

theorem regAt_narrow {off a : Nat} {r : RegW} (hr : r.wide = false) (h : off ≠ a) : regAt off a r = none := by
  simp [regAt, hr, h]

theorem regEach_below {off base : Nat} (stride n : Nat) (f : Nat → RegW) (h : off < base) :
    regEach off base stride n f = none := by
  have : ¬ base ≤ off := by omega
  simp [regEach, regArr, this]

theorem regEach_above {off base stride n : Nat} (f : Nat → RegW) (h : base + stride * n ≤ off) :
    regEach off base stride n f = none := by
  have : ¬ off < base + stride * n := by omega
  simp [regEach, regArr, this]

/-- Offset `o` of element `k` of an array of registers. -/
theorem regEach_element {base stride n k o : Nat} (f : Nat → RegW) (hk : k < n) (ho : o < stride) :
    regEach (base + stride * k + o) base stride n f = (regAt o 0 (f k)).map fun r => (base + stride * k + r.1, r.2) := by
  have hin : stride * k + o < stride * n := calc
    stride * k + o < stride * (k + 1) := by rw [Nat.mul_succ]; omega
    _ ≤ stride * n := Nat.mul_le_mul_left _ hk
  have hd : (stride * k + o) / stride = k := by rw [Nat.mul_add_div (by omega), Nat.div_eq_of_lt ho]; rfl
  have hm : (stride * k + o) % stride = o := by rw [Nat.mul_add_mod, Nat.mod_eq_of_lt ho]
  simp only [regEach, regArr]
  rw [if_pos ⟨by omega, by omega⟩]
  simp only [Nat.add_assoc, Nat.add_sub_cancel_left, hd, hm, Nat.mul_comm k]

/-! ### The block XLT -/

/-- XLT_CTAB of slot `k` (R222). -/
def State.ctabReg (s : State) (k : Nat) : RegW :=
  rwD [(46, 46), (15, 0)] (Tab.get (fun _ => ({} : Ctab)) s.xlt.sh.pend.ctab k).word (fun s => (s.ctab k).word) fun v s =>
    s.modXlt fun x => { x with
      sh := x.sh.setPend fun p => { p with ctab := Tab.insert p.ctab k ⟨bit v 63, fld v 47 16, fld v 16 30⟩ } }
/-- XLT_OWN of unit `u` (R222). -/
def ownReg (u : Nat) : RegW :=
  rwW [(29, 28)] (fun s => (s.unitOwner u).word) fun v s =>
    s.modXlt fun x => { x with sh := x.sh.setPend fun p => { p with own := Tab.insert p.own u (Owner.ofWord v) } }
/-- XLT_PRI_CFG (R221). -/
def priCfgReg : RegW := rwW [(31, 11)] (fun s => put 64 0 s.xlt.priTimeout) fun v s => s.priCfg v
/-- XLT_COMMIT (R221). -/
def xltCommitReg : RegW := goW (fun s => s.xlt.lastRefusal) State.xltGo

theorem State.xltRegs_eq (s : State) (off : Nat) : s.xltRegs off = regFirst [
    fun _ => regAt off 0x0000 (errW fun s => s.xlt.err), fun _ => regAt off 0x0004 xltCommitReg,
    fun _ => regAt off 0x0008 priCfgReg, fun _ => regEach off 0x1000 8 512 s.ctabReg,
    fun _ => regEach off 0x2000 8 512 fun k => cntD fun s => Tab.get (fun _ => 0) s.xlt.migCnt k,
    fun _ => regEach off 0x4000 4 5760 ownReg] := rfl

theorem State.xltRegs_commit (s : State) : s.xltRegs 4 = some (4, xltCommitReg) := by
  simp [State.xltRegs_eq, regFirst, regAt_narrow (r := errW _) rfl]

theorem State.xltRegs_priCfg (s : State) : s.xltRegs 8 = some (8, priCfgReg) := by
  simp [State.xltRegs_eq, regFirst, regAt_above, regAt_narrow (r := xltCommitReg) rfl]

/-- From 0x1000 on the block holds arrays only. -/
theorem State.xltRegs_arrays (s : State) {off : Nat} (h : 0x1000 ≤ off) : s.xltRegs off = regFirst [
    fun _ => regEach off 0x1000 8 512 s.ctabReg,
    fun _ => regEach off 0x2000 8 512 fun k => cntD fun s => Tab.get (fun _ => 0) s.xlt.migCnt k,
    fun _ => regEach off 0x4000 4 5760 ownReg] := by
  have h0 : 0x0000 + 4 < off := by omega
  have h4 : 0x0004 + 4 < off := by omega
  have h8 : 0x0008 + 4 < off := by omega
  rw [State.xltRegs_eq]
  simp only [regFirst, regAt_above _ h0, regAt_above _ h4, regAt_above _ h8]

theorem State.xltRegs_ctab (s : State) {k o : Nat} (hk : k < 512) (ho : o = 0 ∨ o = 4) :
    s.xltRegs (0x1000 + 8 * k + o) = some (0x1000 + 8 * k, s.ctabReg k) := by
  have hr : regAt o 0 (s.ctabReg k) = some (0, s.ctabReg k) := by
    obtain rfl | rfl := ho
    · exact regAt_self ..
    · exact regAt_high rfl 0
  have he := regEach_element (base := 0x1000) s.ctabReg hk (show o < 8 by omega)
  rw [hr] at he
  simp only [s.xltRegs_arrays (show 0x1000 ≤ 0x1000 + 8 * k + o by omega), regFirst, he, Option.map_some, Nat.add_zero]

theorem State.xltRegs_own (s : State) {k : Nat} (hk : k < 5760) :
    s.xltRegs (0x4000 + 4 * k) = some (0x4000 + 4 * k, ownReg k) := by
  have he := regEach_element (base := 0x4000) (stride := 4) ownReg hk (o := 0) (by omega)
  rw [Nat.add_zero, regAt_self] at he
  have h1 : 0x1000 + 8 * 512 ≤ 0x4000 + 4 * k := by omega
  have h2 : 0x2000 + 8 * 512 ≤ 0x4000 + 4 * k := by omega
  simp only [s.xltRegs_arrays (show 0x1000 ≤ 0x4000 + 4 * k by omega), regFirst, regEach_above _ h1, regEach_above _ h2,
    he, Option.map_some, Nat.add_zero]

theorem State.xltRegs_unlisted (s : State) {k : Nat} (hk : k < 1024) : s.xltRegs (0x3000 + 4 * k) = none := by
  have h1 : 0x1000 + 8 * 512 ≤ 0x3000 + 4 * k := by omega
  have h2 : 0x2000 + 8 * 512 ≤ 0x3000 + 4 * k := by omega
  have h4 : 0x3000 + 4 * k < 0x4000 := by omega
  rw [s.xltRegs_arrays (by omega)]
  simp only [regFirst, regEach_above _ h1, regEach_above _ h2, regEach_below _ _ _ h4]

theorem State.regFind_xlt (s : State) (debug : Bool) {a : Nat} (h : a / 0x1000000 = 0x29) :
    s.regFind (.zesin debug) a = (s.xltRegs (a % 0x1000000)).map fun x => (0x29000000 + x.1, x.2) := by
  simp [State.regFind, h]

theorem State.reservedAt_xlt (s : State) (debug : Bool) {a : Nat} (h : a / 0x1000000 = 0x29) :
    s.reservedAt (.zesin debug) a = s.modXlt fun x => { x with err := x.err.reserved } := by
  simp [State.reservedAt, h]

theorem State.regFind_commit (s : State) (debug : Bool) :
    s.regFind (.zesin debug) 0x29000004 = some (0x29000004, xltCommitReg) := by
  rw [s.regFind_xlt debug (by omega), show 0x29000004 % 0x1000000 = 4 from rfl, s.xltRegs_commit]
  rfl

theorem State.regFind_priCfg (s : State) (debug : Bool) :
    s.regFind (.zesin debug) 0x29000008 = some (0x29000008, priCfgReg) := by
  rw [s.regFind_xlt debug (by omega), show 0x29000008 % 0x1000000 = 8 from rfl, s.xltRegs_priCfg]
  rfl

theorem State.regFind_own (s : State) (debug : Bool) {k : Nat} (hk : k < 5760) :
    s.regFind (.zesin debug) (0x29004000 + 4 * k) = some (0x29004000 + 4 * k, ownReg k) := by
  rw [s.regFind_xlt debug (by omega), show (0x29004000 + 4 * k) % 0x1000000 = 0x4000 + 4 * k by omega, s.xltRegs_own hk]
  simp only [Option.map_some, Option.some.injEq, Prod.mk.injEq, and_true]
  omega

theorem State.regFind_ctab (s : State) (debug : Bool) {k : Nat} (hk : k < 512) :
    s.regFind (.zesin debug) (0x29001000 + 8 * k) = some (0x29001000 + 8 * k, s.ctabReg k) := by
  rw [s.regFind_xlt debug (by omega), show (0x29001000 + 8 * k) % 0x1000000 = 0x1000 + 8 * k + 0 by omega,
    s.xltRegs_ctab hk (.inl rfl)]
  simp only [Option.map_some, Option.some.injEq, Prod.mk.injEq, and_true]
  omega

theorem State.regFind_ctab_high (s : State) (debug : Bool) {k : Nat} (hk : k < 512) :
    s.regFind (.zesin debug) (0x29001000 + 8 * k + 4) = some (0x29001000 + 8 * k, s.ctabReg k) := by
  rw [s.regFind_xlt debug (by omega), show (0x29001000 + 8 * k + 4) % 0x1000000 = 0x1000 + 8 * k + 4 by omega,
    s.xltRegs_ctab hk (.inr rfl)]
  simp only [Option.map_some, Option.some.injEq, Prod.mk.injEq, and_true]
  omega

/-! ### The accesses -/

/-- A master other than a debug master writes `2 ^ n` bytes. -/
theorem exec_registerWrite_zesin (s : State) {a n : Nat} (ha : a < 2 ^ 32) {log2 : Fin 4} (hn : log2.val = n)
    (v : DWord) :
    exec (.registerWrite (.zesin false) (BitVec.ofNat 32 a) log2 v) s = .next (s.regWrite (.zesin false) a n v) := by
  subst hn
  have h : (BitVec.ofNat 32 a).toNat = a := by rw [BitVec.toNat_ofNat, Nat.mod_eq_of_lt ha]
  simp only [exec, execRegisterWrite, h, Bool.false_and, Bool.false_eq_true, if_false]

theorem State.registerRead_zesin (s : State) (a log2 : Nat) :
    s.registerRead (.zesin false) a log2 =
      (some (s.regRead (.zesin false) a log2).1, (s.regRead (.zesin false) a log2).2) := rfl

/-- R13: what an access of a wrong size or alignment does. -/
theorem State.regWrite_misaligned (s : State) (sp : RegSpace) {a log2 : Nat} (v : DWord)
    (h : log2 < 2 ∨ a % 2 ^ log2 ≠ 0) : s.regWrite sp a log2 v = s.reservedAt sp a := if_pos h

theorem State.regWrite_word (s : State) (sp : RegSpace) {a : Nat} (v : Word) (h : a % 4 = 0) :
    s.regWrite sp a 2 (v.setWidth 64) = s.regWrite32 sp a v := by
  simp [State.regWrite, h]

theorem State.regWrite_narrow (s : State) {sp : RegSpace} {a : Nat} {r : RegW} (v : Word) (h : a % 4 = 0)
    (hf : s.regFind sp a = some (a, r)) (hr : r.wide = false) :
    s.regWrite sp a 2 (v.setWidth 64) = s.regTake sp a r (v.setWidth 64) := by
  simp [s.regWrite_word sp v h, State.regWrite32, hf, hr]

theorem State.regWrite_wide (s : State) {sp : RegSpace} {a : Nat} {r : RegW} (v : DWord) (h : a % 8 = 0)
    (hf : s.regFind sp a = some (a, r)) (hr : r.wide = true) : s.regWrite sp a 3 v = s.regTake sp a r v := by
  simp [State.regWrite, State.regWrite64, h, hf, hr]

theorem State.regWrite_low (s : State) {sp : RegSpace} {a : Nat} {r : RegW} (v : Word) (h : a % 4 = 0)
    (hf : s.regFind sp a = some (a, r)) (hr : r.wide = true) :
    s.regWrite sp a 2 (v.setWidth 64) = { s with lowHeld := Tab.insert s.lowHeld (holdKey sp a) v } := by
  simp [s.regWrite_word sp v h, State.regWrite32, hf, hr]

/-- The upper word takes the low word that waits for it. -/
theorem State.regWrite_high (s : State) {sp : RegSpace} {a : Nat} {r : RegW} (v w : Word) (h : a % 4 = 0)
    (hf : s.regFind sp (a + 4) = some (a, r)) (hr : r.wide = true) (hl : Tab.find s.lowHeld (holdKey sp a) = some v) :
    s.regWrite sp (a + 4) 2 (w.setWidth 64) = s.regTake sp a r (put 64 32 w ||| v.setWidth 64) := by
  simp [s.regWrite_word sp w (show (a + 4) % 4 = 0 by omega), State.regWrite32, hf, hr, hl]

/-- A register of XLT takes a value: reserved bits are counted, the others take effect. -/
theorem State.regTake_xlt (s : State) (debug : Bool) {a : Nat} (r : RegW) (v : DWord) (h : a / 0x1000000 = 0x29) :
    s.regTake (.zesin debug) a r v = r.write (v &&& ~~~r.rsvd)
      (State.when { s with lowHeld := Tab.erase s.lowHeld a } (decide (v &&& r.rsvd ≠ 0)) fun s =>
        s.modXlt fun x => { x with err := x.err.reserved }) := by
  simp only [State.regTake, State.reservedAt_xlt _ debug h, holdKey]

/-- A field of a 32-bit write that no reserved bit lies in. -/
theorem fld_written (v : Word) (m : DWord) {lo w : Nat} (hw : lo + w ≤ 32) (hm : fld m lo w = 0) :
    fld ((v.setWidth 64 &&& ~~~m).setWidth 32) lo w = fld v lo w := by
  rw [fld_setWidth _ _ _ _ (.inr hw), fld_and_not _ _ _ _ hm, fld_setWidth _ _ _ _ (.inl (by omega))]

theorem bit_written (v : Word) (m : DWord) {i : Nat} (hi : i < 32) (hm : fld m i 1 = 0) :
    bit ((v.setWidth 64 &&& ~~~m).setWidth 32) i = bit v i := by
  rw [bit_eq_fld, bit_eq_fld, fld_written v m (by omega) hm]

theorem and_bitsOf_one_ne_zero_iff (v : DWord) (hi lo : Nat) (h : lo ≤ hi) (hh : hi < 64) :
    v &&& bitsOf [(hi, lo)] ≠ 0 ↔ fld v lo (hi + 1 - lo) ≠ 0 := by
  rw [Ne, Ne, ← and_run_eq_zero_iff v hi lo h hh]
  simp [bitsOf]

theorem and_bitsOf_two_ne_zero_iff (v : DWord) (p q : Nat × Nat) (hp : p.2 ≤ p.1 ∧ p.1 < 64)
    (hq : q.2 ≤ q.1 ∧ q.1 < 64) :
    v &&& bitsOf [p, q] ≠ 0 ↔ fld v p.2 (p.1 + 1 - p.2) ≠ 0 ∨ fld v q.2 (q.1 + 1 - q.2) ≠ 0 := by
  rw [Ne, Ne, Ne, ← and_run_eq_zero_iff v p.1 p.2 hp.1 hp.2, ← and_run_eq_zero_iff v q.1 q.2 hq.1 hq.2,
    ← not_and_or]
  simp [bitsOf, BitVec.and_or_distrib_left, BitVec.or_eq_zero_iff]

/-! ### What the registers of XLT take -/

/-- What the reserved bits of a write leave of XLT, before the register takes the rest. -/
theorem xlt_when_reserved (s : State) (l : Tab Word) (c : Bool) :
    (State.when { s with lowHeld := l } c fun s => s.modXlt fun x => { x with err := x.err.reserved }).xlt =
      { s.xlt with err := if c then s.xlt.err.reserved else s.xlt.err } := by
  cases c <;> rfl

theorem ownReg_write (u : Nat) (v : Word) (s : State) :
    (ownReg u).write (v.setWidth 64 &&& ~~~(ownReg u).rsvd) s = s.modXlt fun x => { x with
      sh := x.sh.setPend fun p => { p with
        own := Tab.insert p.own u
          ⟨v.getLsbD 31, v.getLsbD 30, BitVec.ofNat 12 (v.toNat / 2 ^ 16), BitVec.ofNat 16 v.toNat⟩ } } := by
  have h : Owner.ofWord ((v.setWidth 64 &&& ~~~bitsOf [(29, 28)]).setWidth 32) =
      ⟨v.getLsbD 31, v.getLsbD 30, BitVec.ofNat 12 (v.toNat / 2 ^ 16), BitVec.ofNat 16 v.toNat⟩ := by
    rw [Owner.ofWord, fld_written _ _ (by omega) (by decide), fld_written _ _ (by omega) (by decide),
      bit_written _ _ (by omega) (by decide), bit_written _ _ (by omega) (by decide)]
    simp [bit, fld_eq_ofNat]
  simp only [ownReg, rwW, h]

theorem ownReg_reserved (u : Nat) (v : Word) :
    decide (v.setWidth 64 &&& (ownReg u).rsvd ≠ 0) = (v.getLsbD 28 || v.getLsbD 29) := by
  have h : v.setWidth 64 &&& (ownReg u).rsvd ≠ 0 ↔ v.toNat / 2 ^ 28 % 2 ^ 2 ≠ 0 := by
    rw [show (ownReg u).rsvd = bitsOf [(29, 28)] from rfl, and_bitsOf_one_ne_zero_iff _ _ _ (by omega) (by omega),
      fld_setWidth _ _ _ _ (.inl (by omega)), Ne, fld_eq_zero_iff]
  rw [getLsbD_eq_decide, getLsbD_eq_decide, ← Bool.decide_or, decide_eq_decide, h]
  omega

theorem priCfgReg_write (v : Word) (s : State) (h1 : 1 ≤ v.toNat % 2048) (h2 : v.toNat % 2048 ≤ 1024) :
    priCfgReg.write (v.setWidth 64 &&& ~~~priCfgReg.rsvd) s = s.modXlt fun x => { x with priTimeout := fld v 0 11 } := by
  have hn : fld ((v.setWidth 64 &&& ~~~priCfgReg.rsvd).setWidth 32) 0 11 = fld v 0 11 :=
    fld_written _ _ (by omega) (by decide)
  have hv : (fld v 0 11).toNat = v.toNat % 2048 := by simp [fld_eq_ofNat]
  have hr : ¬ (fld v 0 11 = 0 ∨ 1024 < (fld v 0 11).toNat) := by
    rw [← BitVec.toNat_inj, hv]
    simp
    omega
  show State.priCfg s ((v.setWidth 64 &&& ~~~priCfgReg.rsvd).setWidth 32) = _
  simp only [State.priCfg, hn, if_neg hr]

theorem priCfgReg_reserved (v : Word) : decide (v.setWidth 64 &&& priCfgReg.rsvd ≠ 0) = decide (2048 ≤ v.toNat) := by
  rw [decide_eq_decide, show priCfgReg.rsvd = bitsOf [(31, 11)] from rfl,
    and_bitsOf_one_ne_zero_iff _ _ _ (by omega) (by omega), fld_setWidth _ _ _ _ (.inl (by omega)), Ne, fld_eq_zero_iff]
  omega

theorem ctabReg_write (r s : State) (k : Nat) (v : DWord) :
    (r.ctabReg k).write (v &&& ~~~(r.ctabReg k).rsvd) s = s.modXlt fun x => { x with
      sh := x.sh.setPend fun p => { p with
        ctab := Tab.insert p.ctab k
          ⟨v.getLsbD 63, BitVec.ofNat 16 (v.toNat / 2 ^ 47), BitVec.ofNat 30 (v.toNat / 2 ^ 16)⟩ } } := by
  have h (m : DWord) (hm : m = bitsOf [(46, 46), (15, 0)]) :
      (⟨bit (v &&& ~~~m) 63, fld (v &&& ~~~m) 47 16, fld (v &&& ~~~m) 16 30⟩ : Ctab) =
      ⟨v.getLsbD 63, BitVec.ofNat 16 (v.toNat / 2 ^ 47), BitVec.ofNat 30 (v.toNat / 2 ^ 16)⟩ := by
    subst hm
    rw [fld_and_not _ _ _ _ (by decide), fld_and_not _ _ _ _ (by decide), bit_and_not _ _ _ (by decide)]
    simp [bit, fld_eq_ofNat]
  simp only [State.ctabReg, rwD, h]

/-- The entry that two words spell. -/
theorem ctab_of_words (w v : Word) (x : DWord) (hx : x = put 64 32 w ||| v.setWidth 64) :
    (⟨x.getLsbD 63, BitVec.ofNat 16 (x.toNat / 2 ^ 47), BitVec.ofNat 30 (x.toNat / 2 ^ 16)⟩ : Ctab) =
      ⟨w.getLsbD 31, BitVec.ofNat 16 (w.toNat / 2 ^ 15), BitVec.ofNat 30 (v.toNat / 2 ^ 16 + w.toNat * 2 ^ 16)⟩ := by
  have hn : x.toNat = w.toNat * 2 ^ 32 + v.toNat := hx ▸ toNat_words w v
  have hv := v.isLt
  have h63 : x.getLsbD 63 = w.getLsbD 31 := by
    rw [getLsbD_eq_decide, getLsbD_eq_decide, hn, decide_eq_decide]
    omega
  rw [h63, hn, show (w.toNat * 2 ^ 32 + v.toNat) / 2 ^ 47 = w.toNat / 2 ^ 15 by omega,
    show (w.toNat * 2 ^ 32 + v.toNat) / 2 ^ 16 = v.toNat / 2 ^ 16 + w.toNat * 2 ^ 16 by omega]

theorem ctabReg_reserved (r : State) (k : Nat) (v : DWord) :
    decide (v &&& (r.ctabReg k).rsvd ≠ 0) = (v.getLsbD 46 || decide (v.toNat % 65536 ≠ 0)) := by
  rw [getLsbD_eq_decide, ← Bool.decide_or, decide_eq_decide,
    show (r.ctabReg k).rsvd = bitsOf [(46, 46), (15, 0)] from rfl,
    and_bitsOf_two_ne_zero_iff _ _ _ (by decide) (by decide), Ne, fld_eq_zero_iff, Ne, fld_eq_zero_iff]
  show ¬ v.toNat / 2 ^ 46 % 2 ^ 1 = 0 ∨ ¬ v.toNat / 2 ^ 0 % 2 ^ 16 = 0 ↔ _
  omega

/-! ### The statements -/

theorem registerWrites : Stated.RegisterWrites := by
  intro s
  refine ⟨?misaligned, ?priCfg, ?own, ?ctab, ?halves, ?commit, ?debug⟩
  case misaligned =>
    intro a v log2 ha h
    rw [exec_registerWrite_zesin s (by omega) rfl, s.regWrite_misaligned _ v h, s.reservedAt_xlt _ ha]
    rfl
  case priCfg =>
    intro v h1 h2
    refine ⟨_, exec_registerWrite_zesin s (n := 2) (by omega) rfl _, ?_⟩
    rw [s.regWrite_narrow v (by omega) (s.regFind_priCfg _) rfl, s.regTake_xlt _ _ _ (by omega),
      priCfgReg_write _ _ h1 h2]
    simp only [State.modXlt_xlt, xlt_when_reserved, priCfgReg_reserved]
    exact ⟨by simp [fld_eq_ofNat], rfl⟩
  case own =>
    intro k v hk
    refine ⟨_, exec_registerWrite_zesin s (n := 2) (by omega) rfl _, ?_⟩
    rw [s.regWrite_narrow v (by omega) (s.regFind_own _ hk) rfl, s.regTake_xlt _ _ _ (by omega), ownReg_write]
    simp only [State.modXlt_xlt, xlt_when_reserved, ownReg_reserved]
    exact ⟨rfl, Tab.find_insert_same .., rfl⟩
  case ctab =>
    intro k v hk
    refine ⟨_, exec_registerWrite_zesin s (n := 3) (by omega) rfl _, ?_⟩
    rw [s.regWrite_wide v (by omega) (s.regFind_ctab _ hk) rfl, s.regTake_xlt _ _ _ (by omega), ctabReg_write]
    simp only [State.modXlt_xlt, xlt_when_reserved, ctabReg_reserved]
    exact ⟨rfl, Tab.find_insert_same .., rfl⟩
  case halves =>
    intro k v w hk
    constructor
    · rw [exec_registerWrite_zesin s (n := 2) (by omega) rfl, s.regWrite_low v (by omega) (s.regFind_ctab _ hk) rfl]
      rfl
    · intro hl
      rw [show 0x29001004 + 8 * k = 0x29001000 + 8 * k + 4 by omega]
      refine ⟨_, exec_registerWrite_zesin s (n := 2) (by omega) rfl _, ?_⟩
      rw [s.regWrite_high v w (by omega) (s.regFind_ctab_high _ hk) rfl hl, s.regTake_xlt _ _ _ (by omega), ctabReg_write,
        ctab_of_words w v _ rfl]
      exact Tab.find_insert_same ..
  case commit =>
    intro hl
    rw [show (1 : DWord) = (1 : Word).setWidth 64 from rfl, exec_registerWrite_zesin s (n := 2) (by omega) rfl,
      s.regWrite_narrow 1 (by omega) (s.regFind_commit _) rfl,
      s.regTake_xlt _ _ _ (by omega), Tab.erase_eq_of_find_none hl]
    rfl
  case debug =>
    intro a log2 v h
    simp [exec, execRegisterWrite, h]

theorem State.regRead_misaligned (s : State) (sp : RegSpace) {a log2 : Nat} (h : log2 < 2 ∨ a % 2 ^ log2 ≠ 0) :
    s.regRead sp a log2 = (0, s.reservedAt sp a) := if_pos h

theorem State.regRead_word (s : State) (sp : RegSpace) {a : Nat} (h : a % 4 = 0) :
    s.regRead sp a 2 = ((s.regRead32 sp a).1.setWidth 64, (s.regRead32 sp a).2) := by
  simp [State.regRead, h]

theorem State.regRead32_unlisted (s : State) {sp : RegSpace} {a : Nat} (hf : s.regFind sp a = none) :
    s.regRead32 sp a = (0, s) := by
  simp [State.regRead32, hf]

theorem State.regRead32_narrow (s : State) {sp : RegSpace} {a : Nat} {r : RegW} (hf : s.regFind sp a = some (a, r))
    (hr : r.wide = false) : s.regRead32 sp a = ((r.read s).setWidth 32, r.after s) := by
  simp [State.regRead32, hf, hr]

/-- The low word's read keeps the upper word. -/
theorem State.regRead32_low (s : State) {sp : RegSpace} {a : Nat} {r : RegW} (hf : s.regFind sp a = some (a, r))
    (hr : r.wide = true) : s.regRead32 sp a = ((r.read s).setWidth 32,
      { s with highLatch := Tab.insert s.highLatch (holdKey sp a) (fld (r.read s) 32 32) }) := by
  simp [State.regRead32, hf, hr]

/-- The upper word's read gives the word that was kept. -/
theorem State.regRead32_high (s : State) {sp : RegSpace} {a : Nat} {r : RegW} {w : Word}
    (hf : s.regFind sp (a + 4) = some (a, r)) (hr : r.wide = true) (hl : Tab.find s.highLatch (holdKey sp a) = some w) :
    (s.regRead32 sp (a + 4)).1 = w := by
  simp [State.regRead32, hf, hr, hl]

theorem State.regRead_wide (s : State) {sp : RegSpace} {a : Nat} {r : RegW} (h : a % 8 = 0)
    (hf : s.regFind sp a = some (a, r)) (hr : r.wide = true) : s.regRead sp a 3 = (r.read s, s) := by
  simp [State.regRead, State.regRead64, h, hf, hr]

theorem State.regFind_unlisted (s : State) (debug : Bool) {k : Nat} (hk : k < 1024) :
    s.regFind (.zesin debug) (0x29003000 + 4 * k) = none := by
  rw [s.regFind_xlt debug (by omega), show (0x29003000 + 4 * k) % 0x1000000 = 0x3000 + 4 * k by omega,
    s.xltRegs_unlisted hk]
  rfl

theorem registerReads : Stated.RegisterReads := by
  intro s
  refine ⟨?misaligned, ?unlisted, ?own, ?ctab, ?halves, ?debug⟩
  case misaligned =>
    intro a log2 ha h
    rw [State.registerRead_zesin, s.regRead_misaligned _ h, s.reservedAt_xlt _ ha]
    rfl
  case unlisted =>
    intro k hk
    rw [State.registerRead_zesin, s.regRead_word _ (by omega), s.regRead32_unlisted (s.regFind_unlisted _ hk)]
    rfl
  case own =>
    intro k hk
    rw [State.registerRead_zesin, s.regRead_word _ (by omega), s.regRead32_narrow (s.regFind_own _ hk) rfl]
    rfl
  case ctab =>
    intro k hk
    rw [State.registerRead_zesin, s.regRead_wide (by omega) (s.regFind_ctab _ hk) rfl]
    rfl
  case halves =>
    intro k hk
    have hlow := s.regRead32_low (s.regFind_ctab false hk) rfl
    dsimp only
    rw [State.registerRead_zesin, s.regRead_word _ (by omega), hlow]
    refine ⟨rfl, rfl, fun u hu => ?_⟩
    have hl : Tab.find u.highLatch (0x29001000 + 8 * k) = some (fld (s.ctab k).word 32 32) := by
      rw [hu]
      exact Tab.find_insert_same ..
    rw [State.registerRead_zesin, u.regRead_word _ (by omega), u.regRead32_high (u.regFind_ctab_high _ hk) rfl hl,
      fld_eq_ofNat]
  case debug =>
    intro a log2 h
    simp [State.registerRead, h]

/-- Settles O60: what each register of XLT takes and reads as, by where it lies. -/
theorem registerAccess : Obligations.RegisterAccess := ⟨registerWrites, registerReads⟩

end Sys2Proof.Machine
end

section
/-! SUPPORT. The cadence: what a cadence state, a tick, a period's end and a marker leave of CAD, of reference time and of
the cycle counters. -/

namespace Sys2Proof.Machine

/-! ### A change of the cadence state -/

/-- CAD in state `st`: entering another one clears the marker counts and counts an exit from LOCKED (R439). -/
def Cad.enter (c : Cad) (st : CadSt) : Cad :=
  { c with
    st := st, good := if c.st = st then c.good else 0, far := if c.st = st then c.far else 0,
    lockLosses := if c.st = .locked ∧ st ≠ .locked then satInc c.lockLosses else c.lockLosses }

@[simp] theorem State.pulse_cad (s : State) (k : Nat) : (s.pulse k).cad = s.cad := (s.pulse_within k).cad_eq rfl

@[simp] theorem State.setCad_cad (s : State) (st : CadSt) : (s.setCad st).cad = s.cad.enter st := by
  unfold State.setCad
  split
  · rename_i h
    subst h
    simp [Cad.enter]
  · rename_i h
    have hl : (s.cad.st = .locked ∧ st ≠ .locked) ↔ s.cad.st = .locked := by grind
    simp only [State.pulse_cad, State.modCad_cad, Cad.enter, if_neg h, hl]

@[simp] theorem State.setCad_anyBound (s : State) (st : CadSt) : (s.setCad st).anyBound = s.anyBound := by
  unfold State.anyBound
  rw [(s.setCad_within st).brd_eq rfl]

@[simp] theorem State.modCad_anyBound (s : State) (f : Cad → Cad) : (s.modCad f).anyBound = s.anyBound := rfl

theorem State.modCad_congr {s : State} {f g : Cad → Cad} (h : f s.cad = g s.cad) : s.modCad f = s.modCad g := by
  unfold State.modCad
  rw [h]

/-! ### What a tick counts -/

/-- A carry of the counter marks the half's tiles and no more. -/
theorem State.countCarry_cycles (s : State) (c : Bool) (l : List Nat) :
    (s.when c fun s => s.each l fun s t => s.modTile t fun x => { x with ovf := true }).cycles = s.cycles := by
  have h : Within [.tiles] s (s.when c fun s => s.each l fun s t => s.modTile t fun x => { x with ovf := true }) :=
    State.when_within _ _ (Within.refl _ _) fun _ h =>
      State.each_within _ _ h fun _ _ h => h.trans (State.modTile_within _ _ _)
  exact h.cycles_eq rfl

theorem State.countCycles_cycles (s : State) (n : Nat) (h : Half) :
    Tab.get (fun _ => (0 : BitVec 48)) (s.countCycles n).cycles h.val =
      Tab.get (fun _ => (0 : BitVec 48)) s.cycles h.val + BitVec.ofNat 48 n := by
  have hn (x : BitVec 48) : BitVec.ofNat 48 (x.toNat + n) = x + BitVec.ofNat 48 n := by
    rw [BitVec.ofNat_add, BitVec.ofNat_toNat, BitVec.setWidth_eq]
  simp only [State.countCycles, State.each_cons, State.each_nil, State.countCarry_cycles, Tab.get_insert, hn]
  match h with
  | 0 => rfl
  | 1 => rfl

theorem State.tenantSnapshot_when_within (s : State) (c : Bool) : Within [.itl] s (s.when c State.tenantSnapshot) :=
  State.when_within _ _ (Within.refl _ _) fun t h => h.trans t.tenantSnapshot_within

theorem State.countTime_cad (s : State) : ∃ valid, s.countTime.cad = { s.cad with frameValid := valid } := by
  simp only [State.countTime, (State.tenantSnapshot_when_within _ _).cad_eq rfl]
  exact ⟨_, rfl⟩

theorem State.countTime_refTime (s : State) : s.countTime.boot.refTime = s.boot.refTime + s.cad.periodNs.toNat := by
  simp only [State.countTime, (State.tenantSnapshot_when_within _ _).boot_eq rfl]
  rfl

/-- All that a tick counts before reference time advances. -/
theorem State.tickElapsed_eq_countTime (s : State) (n : Nat) : ∃ t : State, s.tickElapsed n = t.countTime ∧
    Within [.tiles, .brd, .pwr, .rcv] (s.countTick.countCycles n) t :=
  ⟨_, rfl, ((((State.metering_within _).mono rfl).step rfl (State.ballastTicks_within _ n)).step rfl
    (State.countUnavailable_within _)).step rfl (State.modPwr_within _ _)⟩

theorem State.tickElapsed_cad (s : State) (n : Nat) :
    ∃ valid, (s.tickElapsed n).cad = { s.cad with frameValid := valid } := by
  obtain ⟨t, ht, hw⟩ := s.tickElapsed_eq_countTime n
  rw [ht, ← (s.countTick_within.cad_eq rfl), ← ((s.countTick.countCycles_within n).cad_eq rfl), ← hw.cad_eq rfl]
  exact t.countTime_cad

theorem State.tickElapsed_refTime (s : State) (n : Nat) :
    (s.tickElapsed n).boot.refTime = s.boot.refTime + s.cad.periodNs.toNat := by
  obtain ⟨t, ht, hw⟩ := s.tickElapsed_eq_countTime n
  rw [ht, t.countTime_refTime, hw.cad_eq rfl, hw.boot_eq rfl, (s.countTick.countCycles_within n).cad_eq rfl,
    (s.countTick.countCycles_within n).boot_eq rfl, s.countTick_within.cad_eq rfl, s.countTick_within.boot_eq rfl]

theorem State.tickElapsed_cycles (s : State) (n : Nat) (h : Half) :
    Tab.get (fun _ => (0 : BitVec 48)) (s.tickElapsed n).cycles h.val =
      Tab.get (fun _ => (0 : BitVec 48)) s.cycles h.val + BitVec.ofNat 48 n := by
  obtain ⟨t, ht, hw⟩ := s.tickElapsed_eq_countTime n
  rw [ht, t.countTime_within.cycles_eq rfl, hw.cycles_eq rfl, s.countTick.countCycles_cycles,
    s.countTick_within.cycles_eq rfl]

@[simp] theorem State.strobe_cad (s : State) : s.strobe.cad = s.cad := s.strobe_within.cad_eq rfl
@[simp] theorem State.strobe_boot (s : State) : s.strobe.boot = s.boot := s.strobe_within.boot_eq rfl
@[simp] theorem State.strobe_cycles (s : State) : s.strobe.cycles = s.cycles := s.strobe_within.cycles_eq rfl

/-! ### What a period's end counts -/

theorem State.nextPeriod_cad (s : State) : ∃ ns, s.nextPeriod.cad = { s.cad with periodNs := ns, error := none } := by
  unfold State.nextPeriod
  extract_lets
  split <;> exact ⟨_, rfl⟩

/-- A waiting step takes the epoch further on. -/
theorem State.nextEpoch_step (s : State) {d : Nat} (h : s.cad.pendStep = some d) : s.nextEpoch.cad = { s.cad with
    epoch := s.cad.epoch + 1 + BitVec.ofNat 64 d, elapsed := s.cad.elapsed + 1, tick := 0, drift := satInc s.cad.drift,
    pendStep := none, step := BitVec.ofNat 64 d, steps := satInc s.cad.steps } := by
  simp only [State.nextEpoch, h]
  simp

/-- An adopted lower epoch is taken. -/
theorem State.nextEpoch_lower (s : State) {d : Nat} (h : s.cad.pendStep = none) (ha : s.cad.adoptLower = true)
    (hl : s.cad.lower = some d) : s.nextEpoch.cad = Cad.enter { s.cad with
      epoch := s.cad.epoch + 1 - BitVec.ofNat 64 d, elapsed := s.cad.elapsed + 1, tick := 0,
      drift := satInc s.cad.drift, adoptLower := false, lower := none } .acquiring := by
  simp only [State.nextEpoch, h, ha, hl]
  simp [h]

/-- Otherwise the next epoch comes. -/
theorem State.nextEpoch_next (s : State) (h : s.cad.pendStep = none) (hl : s.cad.adoptLower = true → s.cad.lower = none) :
    s.nextEpoch.cad = { s.cad with
      epoch := s.cad.epoch + 1, elapsed := s.cad.elapsed + 1, tick := 0, drift := satInc s.cad.drift } := by
  dsimp only [State.nextEpoch]
  split
  · rename_i h'
    simp [h] at h'
  · rename_i ha h'
    simp [hl ha] at h'
  · rfl

theorem State.settingsPeriod_refTime (s : State) : s.settingsPeriod.boot.refTime = s.boot.refTime := by
  have h (t : State) : t.writeSettings.boot.refTime = t.boot.refTime := by
    simp only [State.writeSettings, (State.raiseFloors_within _).boot_eq rfl, State.modBoot_boot]
  unfold State.settingsPeriod State.when
  extract_lets
  split
  · rw [h]
    rfl
  · rfl

@[simp] theorem State.periodElapsed_cad (s : State) : s.periodElapsed.cad = s.cad := s.periodElapsed_within.cad_eq rfl

/-- The settings' write is all of a period's end that touches what power-up keeps, and it leaves reference time. -/
theorem State.periodElapsed_refTime (s : State) : s.periodElapsed.boot.refTime = s.boot.refTime := by
  have hl (t : State) (l : List Nat) : (t.each l State.linkPeriod).boot = t.boot :=
    (State.each_within l _ (Within.refl _ t) fun u p h => h.trans (u.linkPeriod_within p)).boot_eq rfl
  have hi (t : State) (c : Bool) (f : Itl → Itl) : (t.when c fun u => u.modItl f).boot = t.boot :=
    (State.when_within c _ (Within.refl _ t) fun u h => h.trans (u.modItl_within f)).boot_eq rfl
  have hr (t : State) (c : Bool) (f : Rot → Rot) : (t.when c fun u => u.modRot f).boot = t.boot :=
    (State.when_within c _ (Within.refl _ t) fun u h => h.trans (u.modRot_within f)).boot_eq rfl
  simp only [State.periodElapsed, State.settingsPeriod_refTime, hl, hi, hr, State.modHst_boot, State.modLp_boot,
    State.modRcv_boot, (State.memoryPeriod_within _).boot_eq rfl, (State.voltPeriod_within _).boot_eq rfl,
    (State.rssSample_within _).boot_eq rfl, (State.reckonPeriod_within _).boot_eq rfl]

theorem ticksAndPeriods : Stated.TicksAndPeriods := by
  intro s
  refine ⟨?tick, ?wrap, ?timeout, rfl⟩
  case tick =>
    intro n hp ht
    obtain ⟨valid, hc⟩ := s.tickElapsed_cad n
    refine ⟨_, if_neg (not_or.mpr ⟨hp, ht⟩), ?_⟩
    simp only [State.strobe_cad, State.strobe_boot, State.strobe_cycles, State.modCad_cad, State.modCad_boot,
      State.modCad_cycles, hc]
    exact ⟨trivial, trivial, trivial, s.tickElapsed_refTime n, s.tickElapsed_cycles n⟩
  case wrap =>
    intro n hp ht
    obtain ⟨valid, hv⟩ := s.tickElapsed_cad n
    obtain ⟨ns, hn⟩ := (s.tickElapsed n).nextPeriod_cad
    rw [hv] at hn
    have hb : (s.tickElapsed n).nextPeriod.nextEpoch.boot.refTime = s.boot.refTime + s.cad.periodNs.toNat := by
      rw [(State.nextEpoch_within _).boot_eq rfl, (State.nextPeriod_within _).boot_eq rfl, s.tickElapsed_refTime n]
    refine ⟨_, if_neg (not_or.mpr ⟨hp, not_not.mpr ht⟩), ?_⟩
    simp only [State.periodElapsed_cad, State.periodElapsed_refTime, State.strobe_cad, State.strobe_boot, hb]
    generalize (s.tickElapsed n).nextPeriod = t at hn
    split
    · rename_i d h
      rw [t.nextEpoch_step (d := d) (by rw [hn]; exact h), hn]
      exact ⟨rfl, rfl, trivial, rfl, rfl, rfl, rfl⟩
    · rename_i d h ha hl
      rw [t.nextEpoch_lower (d := d) (by rw [hn]; exact h) (by rw [hn]; exact ha) (by rw [hn]; exact hl), hn]
      exact ⟨rfl, rfl, trivial, rfl, rfl, rfl, rfl⟩
    · rename_i hs hl
      have hs : s.cad.pendStep = none := Option.eq_none_iff_forall_ne_some.mpr hs
      have hl (ha : s.cad.adoptLower = true) : s.cad.lower = none :=
        Option.eq_none_iff_forall_ne_some.mpr fun d => hl d hs ha
      rw [t.nextEpoch_next (by rw [hn]; exact hs) (by rw [hn]; exact hl), hn]
      exact ⟨rfl, rfl, trivial, rfl, rfl⟩
  case timeout =>
    by_cases h : s.cad.st = .acquiring ∨ s.cad.st = .locked
    · exact ⟨_, if_pos h, by simp [h, Cad.enter]⟩
    · exact ⟨_, if_neg h, by simp [h]⟩

/-! ### Markers -/

/-- CAD once a marker in its window has given its interval and its phase (R437, R438). -/
def Cad.marked (c : Cad) (ns : Nat) : Cad :=
  { c with interval := ns, drift := 0, phase := BitVec.ofInt 21 c.error20, error := some c.error20 }
/-- CAD once such a marker has ended FREE or HOLDOVER (R439, R440). -/
def Cad.relocked (c : Cad) (ns : Nat) : Cad :=
  { c.marked ns with relock := BitVec.ofInt 11 (c.error20 / 1024) }.enter .acquiring

/-- The first marker: ACQUIRING, and the period begins with it where no slot is bound. -/
theorem State.acceptMarker_relock (s : State) (ns : Nat) (h : s.cad.st = .free ∨ s.cad.st = .holdover) :
    ∃ t : State, t.cad = s.cad.relocked ns ∧ s.acceptMarker ns = if s.anyBound then t else t.snap := by
  let t := (s.modCad fun c => c.marked ns).modCad fun c => { c with relock := BitVec.ofInt 11 (s.cad.error20 / 1024) }
  refine ⟨t.setCad .acquiring, State.setCad_cad .., ?_⟩
  have hm : (s.modCad fun c => c.marked ns) = s.modCad fun c => { c with
      interval := ns, drift := 0, phase := BitVec.ofInt 21 s.cad.error20, error := some s.cad.error20 } :=
    State.modCad_congr rfl
  simp only [State.acceptMarker, h, decide_true, if_true, State.setCad_anyBound, State.modCad_anyBound, t, hm]

theorem State.acceptMarker_track (s : State) (ns : Nat) (h : ¬ (s.cad.st = .free ∨ s.cad.st = .holdover)) :
    s.acceptMarker ns = (s.modCad fun c => c.marked ns).afterMarker s.cad.error20 := by
  simp only [State.acceptMarker, h, decide_false, Bool.false_eq_true, if_false]
  exact congrArg (State.afterMarker · _) (State.modCad_congr rfl)

/-- A marker leaves all of CAD but its state and what leads to the next one. -/
theorem State.afterMarker_cad (s : State) (e : Int) : ∃ st good far losses,
    (s.afterMarker e).cad = { s.cad with st := st, good := good, far := far, lockLosses := losses } := by
  unfold State.afterMarker
  extract_lets
  split
  · split
    · exact ⟨_, _, _, _, State.setCad_cad ..⟩
    · exact ⟨_, _, _, _, rfl⟩
  · split
    · exact ⟨_, _, _, _, State.setCad_cad ..⟩
    · exact ⟨_, _, _, _, rfl⟩
  · exact ⟨_, _, _, _, rfl⟩

theorem State.afterMarker_acquiring (s : State) (e : Int) (h : s.cad.st = .acquiring) :
    (s.afterMarker e).cad.st = if e.natAbs ≤ 64 ∧ 8 ≤ s.cad.good + 1 then .locked else .acquiring := by
  simp only [State.afterMarker, h, decide_eq_true_eq, State.modCad_cad]
  by_cases hn : e.natAbs ≤ 64
  · by_cases hg : 8 ≤ s.cad.good + 1
    · simp only [hn, hg, if_true, and_self, State.setCad_cad]
      rfl
    · simp only [hn, hg, if_true, if_false, and_false]
      exact h
  · simp only [hn, if_false, false_and, show ¬ 8 ≤ 0 by omega]
    exact h

theorem State.afterMarker_locked (s : State) (e : Int) (h : s.cad.st = .locked) :
    (s.afterMarker e).cad.st = if 1024 < e.natAbs ∧ 2 ≤ s.cad.far + 1 then .acquiring else .locked := by
  simp only [State.afterMarker, h, decide_eq_true_eq, State.modCad_cad]
  by_cases hn : 1024 < e.natAbs
  · by_cases hg : 2 ≤ s.cad.far + 1
    · simp only [hn, hg, if_true, and_self, State.setCad_cad]
      rfl
    · simp only [hn, hg, if_true, if_false, and_false]
      exact h
  · simp only [hn, if_false, false_and, show ¬ 2 ≤ 0 by omega]
    exact h

theorem State.afterMarker_conflict (s : State) (e : Int) (h : s.cad.st = .conflict) :
    (s.afterMarker e).cad.st = .conflict := by
  simp only [State.afterMarker, h]

/-- The epoch of the period that a marker begins is noted (R441). -/
def State.noteMarked (s : State) : State := s.modCad fun c => { c with markerEpoch := c.markedEpoch }

/-- A marker of 3 to 5 µs while the tether has a mode: in its window or not. -/
theorem exec_tetherMarker_wide (s : State) {high : Nat} (ns : Nat) (hm : s.cad.sh.act.mode ≠ 0) (h1 : 3000 ≤ high)
    (h2 : high ≤ 5000) : exec (.tetherMarker high ns) s =
      if s.cad.accepts ns then .next (s.noteMarked.acceptMarker ns)
      else .next (s.noteMarked.modCad fun c => { c with rejected := satInc c.rejected }) := by
  show execTetherMarker high ns s = _
  unfold execTetherMarker
  rw [if_neg (not_or.mpr ⟨hm, by omega⟩), if_neg (by omega)]
  rfl

theorem exec_tetherMarker_odd (s : State) {high : Nat} (ns : Nat) (hm : s.cad.sh.act.mode ≠ 0)
    (h : 1500 ≤ high ∧ high < 3000 ∨ 5000 < high) :
    exec (.tetherMarker high ns) s = .next (s.modCad fun c => { c with rejected := satInc c.rejected }) := by
  show execTetherMarker high ns s = _
  unfold execTetherMarker
  rw [if_neg (not_or.mpr ⟨hm, by omega⟩), if_pos (by omega)]

theorem exec_tetherMarker_short (s : State) {high : Nat} (ns : Nat) (h : high < 1500) :
    exec (.tetherMarker high ns) s = .next s := if_pos (.inr h)

/-- Every marker in its window gives its interval and its phase. -/
theorem State.acceptMarker_marked (s : State) (ns : Nat) : (s.acceptMarker ns).cad.interval = ns ∧
    (s.acceptMarker ns).cad.drift = 0 ∧ (s.acceptMarker ns).cad.phase = BitVec.ofInt 21 s.cad.error20 := by
  by_cases h : s.cad.st = .free ∨ s.cad.st = .holdover
  · obtain ⟨t, ht, hu⟩ := s.acceptMarker_relock ns h
    rw [hu]
    split
    · rw [ht]
      exact ⟨rfl, rfl, rfl⟩
    · simp only [State.snap, State.modCad_cad, ht]
      exact ⟨rfl, rfl, rfl⟩
  · obtain ⟨_, _, _, _, hu⟩ := (s.modCad fun c => c.marked ns).afterMarker_cad s.cad.error20
    rw [s.acceptMarker_track ns h, hu]
    exact ⟨rfl, rfl, rfl⟩

/-- The marker that ends FREE or HOLDOVER. -/
theorem State.acceptMarker_relocked (s : State) (ns : Nat) (h : s.cad.st = .free ∨ s.cad.st = .holdover) :
    (s.acceptMarker ns).cad.st = .acquiring ∧
      (s.acceptMarker ns).cad.relock = BitVec.ofInt 11 (s.cad.error20 / 1024) ∧
      (s.anyBound = false → (s.acceptMarker ns).cad.tick = 0 ∧ (s.acceptMarker ns).cad.epoch = s.cad.epoch + 1) := by
  obtain ⟨t, ht, hu⟩ := s.acceptMarker_relock ns h
  rw [hu]
  split
  · rename_i hb
    rw [ht]
    exact ⟨rfl, rfl, fun h => by simp [h] at hb⟩
  · simp only [State.snap, State.modCad_cad, ht]
    exact ⟨rfl, rfl, fun _ => ⟨trivial, rfl⟩⟩

theorem tetherMarker_does (s : State) (hm : s.cad.sh.act.mode ≠ 0) (high ns : Nat) : Does (.tetherMarker high ns) s fun u =>
    (high < 1500 → u = s) ∧
    ((1500 ≤ high ∧ high < 3000 ∨ 5000 < high) → u.cad = { s.cad with rejected := satInc s.cad.rejected }) ∧
    (3000 ≤ high → high ≤ 5000 → s.cad.accepts ns = false →
      u.cad = { s.cad with markerEpoch := s.cad.markedEpoch, rejected := satInc s.cad.rejected }) ∧
    (3000 ≤ high → high ≤ 5000 → s.cad.accepts ns = true → u = s.noteMarked.acceptMarker ns) := by
  obtain h | h | ⟨h1, h2⟩ : high < 1500 ∨ (1500 ≤ high ∧ high < 3000 ∨ 5000 < high) ∨ 3000 ≤ high ∧ high ≤ 5000 := by
    omega
  · exact ⟨s, exec_tetherMarker_short s ns h, fun _ => rfl, fun _ => by omega, fun _ => by omega, fun _ => by omega⟩
  · exact ⟨_, exec_tetherMarker_odd s ns hm h, fun _ => by omega, fun _ => rfl, fun _ => by omega, fun _ => by omega⟩
  · refine ⟨_, (exec_tetherMarker_wide s ns hm h1 h2).trans (apply_ite Host.Outcome.next _ _ _).symm, fun _ => by omega,
      fun _ => by omega, fun _ _ ha => ?_, fun _ _ ha => if_pos ha⟩
    rw [if_neg (by simp [ha])]
    rfl

/-! ### Epoch frames -/

/-- CAD once a good frame has named its source (R435). -/
def State.framed (s : State) (f : Bytes) : State :=
  s.modCad fun c => { c with
    srcMains := decide (hdF f 3 1 % 2 = 1), srcHold := decide (hdF f 3 1 / 2 % 2 = 1), frameValid := true,
    frameAt := s.boot.refTime }

theorem exec_epochFrame_good (s : State) (f : Bytes) (hm : s.cad.sh.act.mode ≠ 0)
    (h : frameGood f (decide (s.cad.sh.act.mode = 1)) = true) :
    exec (.epochFrame f) s = .next ((s.framed f).compareEpoch (BitVec.ofNat 64 (hdF f 4 8))) := by
  show execEpochFrame f s = _
  unfold execEpochFrame
  rw [if_neg hm, if_neg (by rw [h]; decide)]
  rfl

theorem exec_epochFrame_bad (s : State) (f : Bytes) (hm : s.cad.sh.act.mode ≠ 0)
    (h : ¬ frameGood f (decide (s.cad.sh.act.mode = 1)) = true) :
    exec (.epochFrame f) s = .next (s.modCad fun c => { c with frameBad := satInc c.frameBad }) := by
  show execEpochFrame f s = _
  unfold execEpochFrame
  rw [if_neg hm, if_pos (by simpa only [Bool.not_eq_true', Bool.not_eq_true] using h)]

theorem State.compareEpoch_adopt (s : State) (n : DWord) (h : s.anyBound = false ∧ s.cad.epochSet = false) :
    (s.compareEpoch n).cad = { s.cad with
      epoch := n + (s.cad.epoch - s.cad.markerEpoch), markerEpoch := n, epochSet := true } := by
  simp only [State.compareEpoch, h, Bool.not_false, and_self, if_true, State.modCad_cad]

theorem State.compareEpoch_equal (s : State) (n : DWord) (h : ¬ (s.anyBound = false ∧ s.cad.epochSet = false))
    (hn : n = s.cad.markerEpoch) : (s.compareEpoch n).cad =
      if s.cad.st = .conflict then Cad.enter { s.cad with lower := none } .acquiring else { s.cad with lower := none } := by
  have h : ¬ ((!s.anyBound) = true ∧ (!s.cad.epochSet) = true) := by simpa using h
  simp only [State.compareEpoch, if_neg h, if_pos hn]
  split
  · rw [State.setCad_cad]
    rfl
  · rfl

theorem State.compareEpoch_above (s : State) (n : DWord) (h : ¬ (s.anyBound = false ∧ s.cad.epochSet = false))
    (hn : n ≠ s.cad.markerEpoch) (hl : s.cad.markerEpoch.toNat < n.toNat) :
    (s.compareEpoch n).cad = { s.cad with pendStep := some (n.toNat - s.cad.markerEpoch.toNat) } := by
  have h : ¬ ((!s.anyBound) = true ∧ (!s.cad.epochSet) = true) := by simpa using h
  simp only [State.compareEpoch, if_neg h, if_neg hn, if_pos hl, State.modCad_cad]

theorem State.compareEpoch_below (s : State) (n : DWord) (h : ¬ (s.anyBound = false ∧ s.cad.epochSet = false))
    (hn : n ≠ s.cad.markerEpoch) (hl : ¬ s.cad.markerEpoch.toNat < n.toNat) :
    (s.compareEpoch n).cad = Cad.enter { s.cad with lower := some (s.cad.markerEpoch.toNat - n.toNat) } .conflict := by
  have h : ¬ ((!s.anyBound) = true ∧ (!s.cad.epochSet) = true) := by simpa using h
  simp only [State.compareEpoch, if_neg h, if_neg hn, if_neg hl, State.pulse_cad, State.setCad_cad, State.modCad_cad]

theorem markersAndEpochFrames : Stated.MarkersAndEpochFrames := by
  intro s hm
  refine ⟨fun high ns => ?markers, fun f => ?frames⟩
  case markers =>
    obtain ⟨u, hx, hshort, hodd, hreject, haccept⟩ := tetherMarker_does s hm high ns
    refine ⟨u, hx, hshort, hodd, hreject, fun h1 h2 ha => ?_⟩
    rw [haccept h1 h2 ha]
    obtain ⟨hi, hd, hp⟩ := s.noteMarked.acceptMarker_marked ns
    refine ⟨hi, hd, hp, ?_⟩
    split
    · rename_i hst
      exact s.noteMarked.acceptMarker_relocked ns (.inl hst)
    · rename_i hst
      exact s.noteMarked.acceptMarker_relocked ns (.inr hst)
    · rename_i hst
      have hst' : s.noteMarked.cad.st = _ := hst
      rw [s.noteMarked.acceptMarker_track ns (by simp [hst'])]
      exact State.afterMarker_acquiring _ _ hst
    · rename_i hst
      have hst' : s.noteMarked.cad.st = _ := hst
      rw [s.noteMarked.acceptMarker_track ns (by simp [hst'])]
      exact State.afterMarker_locked _ _ hst
    · rename_i hst
      have hst' : s.noteMarked.cad.st = _ := hst
      rw [s.noteMarked.acceptMarker_track ns (by simp [hst'])]
      exact State.afterMarker_conflict _ _ hst
  case frames =>
    by_cases hg : frameGood f (decide (s.cad.sh.act.mode = 1)) = true
    · refine ⟨_, exec_epochFrame_good s f hm hg, ?_⟩
      dsimp only
      rw [if_pos hg]
      split
      · rename_i h
        rw [(s.framed f).compareEpoch_adopt _ h]
        exact ⟨rfl, rfl, rfl, rfl, rfl, rfl⟩
      · rename_i h
        split
        · rename_i hn
          rw [(s.framed f).compareEpoch_equal _ h hn]
          by_cases hc : s.cad.st = .conflict
          · rw [if_pos (show (s.framed f).cad.st = .conflict from hc), if_pos hc]
            exact ⟨rfl, rfl, rfl, rfl, rfl, rfl⟩
          · rw [if_neg (show ¬ (s.framed f).cad.st = .conflict from hc), if_neg hc]
            exact ⟨rfl, rfl, rfl, rfl, rfl, rfl⟩
        · rename_i hn
          split
          · rename_i hl
            rw [(s.framed f).compareEpoch_above _ h hn hl]
            exact ⟨rfl, rfl, rfl, rfl, rfl, rfl⟩
          · rename_i hl
            rw [(s.framed f).compareEpoch_below _ h hn hl]
            exact ⟨rfl, rfl, rfl, rfl, rfl, rfl⟩
    · refine ⟨_, exec_epochFrame_bad s f hm hg, ?_⟩
      dsimp only
      rw [if_neg hg]
      rfl

/-- Settles O54: what a tick, a period's end, a marker and a frame leave of CAD. -/
theorem cadenceAndMarkers : Obligations.CadenceAndMarkers := ⟨ticksAndPeriods, markersAndEpochFrames⟩

end Sys2Proof.Machine
end

section
/-! SUPPORT. TIL_CTRL: what a write does where it is refused and where it is taken (R62). -/

namespace Sys2Proof.Machine

/-! ### Changes made for each element -/

/-- A change that leaves the state alone at each element leaves it alone. -/
theorem State.each_id {α : Type} (s : State) (l : List α) (f : State → α → State) (h : ∀ x ∈ l, f s x = s) :
    s.each l f = s := by
  induction l with
  | nil => rfl
  | cons x l ih =>
    rw [State.each_cons, h x (by simp), ih fun y hy => h y (by simp [hy])]

/-! ### TIL_CTRL -/

/-- The fields of a tile once a write `v` of TIL_CTRL at time `at0` is taken. -/
def Tile.controlled (v : Word) (at0 : Nat) (x : Tile) : Tile :=
  { x with
    clamp := bit v 7, gate := bit v 6, narrow := bit v 5, issueHold := bit v 4,
    clamped := bit v 7, powered := x.powered || (x.gate && !bit v 6),
    gateAt := if x.gate && !bit v 6 then some at0 else x.gateAt,
    issueHeld := x.issueHeld && bit v 4, testHold := x.testHold && bit v 4 }

/-- Whether the core rail may still be rising after the last ungate. -/
def State.railSettles (s : State) (t : Nat) : Bool :=
  match (s.tile t).gateAt with
  | some a => decide (s.now < a + s.ticksOf 10000)
  | none => false

theorem State.railSettles_iff (s : State) (t : Nat) :
    s.railSettles t = true ↔ ∃ a, (s.tile t).gateAt = some a ∧ s.now < a + s.ticksOf 10000 := by
  unfold State.railSettles
  cases (s.tile t).gateAt <;> simp

/-- The test that the model makes of a write is what R62 refuses. -/
theorem tilRefused_iff (s : State) (t : Nat) (v : Word) :
    tilRefused s t v ↔
      ((bit v 6 && !(s.tile t).gate && !(s.tile t).clamp) ||
        (!bit v 7 && (s.tile t).clamp && ((s.tile t).gate || s.railSettles t)) ||
        (bit v 7 != (s.tile t).clamp && bit v 6 != (s.tile t).gate)) = true := by
  simp [tilRefused, s.railSettles_iff, and_assoc, or_assoc]

theorem State.tilCtrl_refused {s : State} {t : Nat} {v : Word} (hv : v &&& 0xFFFFFF0F = 0) (h : tilRefused s t v) :
    s.tilCtrl t v = s.modTile t fun x => { x with err := x.err.refuse } := by
  rw [tilRefused_iff] at h
  simp only [State.tilCtrl, hv, ne_eq, not_true, decide_false, State.when_false]
  exact if_pos h

theorem State.tilCtrl_taken {s : State} {t : Nat} {v : Word} (hv : v &&& 0xFFFFFF0F = 0) (h : ¬ tilRefused s t v) :
    s.tilCtrl t v = (s.modTile t (Tile.controlled v s.now)).pumpTile t := by
  rw [tilRefused_iff] at h
  simp only [State.tilCtrl, hv, ne_eq, not_true, decide_false, State.when_false]
  exact if_neg h

/-- Where no channel waits, nothing goes on. -/
theorem State.pumpTile_idle {s : State} {t : Nat} (h : noCopyWaits s t) : s.pumpTile t = s := by
  refine s.each_id _ _ fun c hc => ?_
  obtain ⟨hdue, hact⟩ := h c (List.mem_range.mp hc)
  have hst : ¬ ((s.chan t c).st = .active ∧ (!(s.chan t c).link) = true) := by simpa using hact
  simp only [hdue, Bool.false_eq_true, if_false]
  exact if_neg hst

/-- Each of the four rows is a write of TIL_CTRL. -/
theorem exec_tilCtrl {i : Instr} {t : TileIx} {v : Word} (s : State)
    (hi : i ∈ [Instr.coreClamp t v, .coreGate t v, .narrowEn t v, .issueHold t v]) :
    exec i s = .next (s.tilCtrl t.val v) := by
  simp only [List.mem_cons, List.not_mem_nil, or_false] at hi
  obtain rfl | rfl | rfl | rfl := hi <;> rfl

/-- Settles O8: a refused write changes the count alone, a taken one the fields. -/
theorem tileControlWrites : Obligations.TileControlWrites := by
  intro t v s hv i hi
  refine ⟨fun h => ⟨_, exec_tilCtrl s hi, ?_⟩, fun h => ⟨_, exec_tilCtrl s hi, ?_⟩⟩
  · rw [State.tilCtrl_refused hv h]
    exact ⟨by simp [ErrReg.refuse], fun j hj => by simp [hj]⟩
  · rw [State.tilCtrl_taken hv h]
    refine ⟨_, rfl, State.pumpTile_idle, fun j hj => by simp [hj], ?_⟩
    simp [Tile.controlled]

end Sys2Proof.Machine
end

section
/-! SUPPORT. What writes of lines, of queue entries and releases of references leave alone: the controls of every tile, its
channels, every bank that waits for nothing, and the requests that are out. -/

-- One proof after the other: those of this layer lean on each other, and side by side each holds a stack while it waits.
set_option Elab.async false

namespace Sys2Proof.Machine

/-- A tile but for what its instructions, its channels, its memory and its neighbours change. -/
def Tile.controls (x : Tile) : Tile :=
  { x with nbr := .of {}, banks := [], chans := [], pairings := [], look := [], srm := {}, barIdle := false, raised := [],
           deadMarks := [] }

/-- Tile `y` has the controls and channels of `x`, and its banks that wait for nothing. -/
structure Tile.Calm (x y : Tile) : Prop where
  controls : y.controls = x.controls
  chans : y.chans = x.chans
  bank : ∀ b, (x.bank b).wait = none → y.bank b = x.bank b

theorem Tile.Calm.refl (x : Tile) : Tile.Calm x x := ⟨rfl, rfl, fun _ _ => rfl⟩

theorem Tile.Calm.trans {x y z : Tile} (h : Tile.Calm x y) (k : Tile.Calm y z) : Tile.Calm x z where
  controls := k.controls.trans h.controls
  chans := k.chans.trans h.chans
  bank b hb := by rw [k.bank b (by rw [h.bank b hb]; exact hb), h.bank b hb]

/-- A change of a tile's memory or neighbours alone. -/
theorem Tile.Calm.of_banks {x y : Tile} (hc : y.controls = x.controls) (hb : y.banks = x.banks) (hch : y.chans = x.chans) :
    Tile.Calm x y := ⟨hc, hch, fun b _ => by unfold Tile.bank; rw [hb]⟩

/-- Every tile stays calm and every request that is out stays out. -/
structure Calm (s u : State) : Prop where
  tile : ∀ t, Tile.Calm (s.tile t) (u.tile t)
  reqs : ∀ e ∈ s.mesh.reqs, e ∈ u.mesh.reqs

namespace Calm

theorem refl (s : State) : Calm s s := ⟨fun _ => Tile.Calm.refl _, fun _ he => he⟩

theorem trans {s t u : State} (h : Calm s t) (k : Calm t u) : Calm s u :=
  ⟨fun j => (h.tile j).trans (k.tile j), fun e he => k.reqs e (h.reqs e he)⟩

/-- An operation after others. -/
theorem after {s t u : State} (k : Calm t u) (h : Calm s t) : Calm s u := h.trans k

theorem each {α : Type} (s : State) (l : List α) (f : State → α → State) (hf : ∀ s x, Calm s (f s x)) : Calm s (s.each l f) := by
  induction l generalizing s with
  | nil => exact refl s
  | cons x l ih => exact (hf s x).trans (ih (f s x))

theorem when (s : State) (c : Bool) (f : State → State) (hf : Calm s (f s)) : Calm s (s.when c f) := by
  cases c
  · exact refl s
  · exact hf

theorem ite {s a b : State} {c : Prop} [Decidable c] (ha : c → Calm s a) (hb : ¬c → Calm s b) :
    Calm s (if c then a else b) := by
  split
  · exact ha ‹_›
  · exact hb ‹_›

theorem modTile (s : State) (t : Nat) (f : Tile → Tile) (hf : Tile.Calm (s.tile t) (f (s.tile t))) : Calm s (s.modTile t f) where
  tile j := by
    rw [State.tile_modTile]
    split
    · rename_i h; subst h; exact hf
    · exact Tile.Calm.refl _
  reqs _ he := he

theorem modSrm (s : State) (t : Nat) (f : Srm → Srm) : Calm s (s.modSrm t f) :=
  modTile s t _ (.of_banks rfl rfl rfl)

end Calm

/-- What touches neither the tiles nor the mesh is calm. -/
theorem Within.calm {M : List Block} {s u : State} (h : Within M s u) (ht : M.contains .tiles = false := by decide)
    (hm : M.contains .mesh = false := by decide) : Calm s u :=
  ⟨fun _ => by unfold State.tile; rw [h.tiles_eq ht]; exact Tile.Calm.refl _, by rw [h.mesh_eq hm]; exact fun _ he => he⟩

/-! ### Lines of the bonded SRAM -/

theorem State.sramPoison_calm (s : State) (t off : Nat) (icv : Bool) : Calm s (s.sramPoison t off icv) := by
  unfold State.sramPoison
  exact (Calm.modSrm _ _ _).after (s.clearMem_within _ _).calm

theorem State.sramCheck_calm (s : State) (t off : Nat) (ecc : Ecc) : Calm s (s.sramCheck t off ecc).2 := by
  unfold State.sramCheck
  simp only [apply_ite Prod.snd]
  refine Calm.ite (fun _ => .refl s) fun _ => ?_
  refine Calm.ite (fun _ => (State.sramPoison_calm _ _ _ _).after ?_)
    fun _ => Calm.ite (fun _ => (State.sramPoison_calm _ _ _ _).after ?_) fun _ => ?_
  all_goals
    split
    · exact Calm.modSrm _ _ _
    · exact .refl s

theorem State.sramRead_calm (s : State) (t off : Nat) (ecc : Ecc) : Calm s (s.sramRead t off ecc).2.2 :=
  s.sramCheck_calm t off ecc

theorem State.sramWrite_calm (s : State) (t off : Nat) (data : Line) (be : DWord) (ecc : Ecc) :
    Calm s (s.sramWrite t off data be ecc).2 := by
  unfold State.sramWrite
  simp only [apply_ite Prod.snd]
  refine Calm.ite (fun _ => (Calm.modSrm _ _ _).after (s.storeLine_within _ _).calm) fun _ => ?_
  refine Calm.ite (fun _ => (State.storeLine_within _ _ _).calm.after ?_) fun _ => ?_ <;>
  exact s.sramCheck_calm t off ecc

/-! ### Guarantees and failed pairs -/

theorem State.setRegGuar_calm (s : State) (slot : Nat) (r : GuarRes) (g : Nat) : Calm s (s.setRegGuar slot r g) := by
  unfold State.setRegGuar
  split
  · split
    · exact Calm.modTile s _ _ (.of_banks rfl rfl rfl)
    · exact .refl s
  · exact (s.modLp_within _).calm
  · exact (s.modFab_within _).calm

theorem State.setCurrent_calm (s : State) (slot : Nat) (cid : Cid) (r : GuarRes) (g : Nat) :
    Calm s (s.setCurrent slot cid r g) := by
  unfold State.setCurrent
  refine Calm.ite (fun _ => .refl s) fun _ => ?_
  dsimp only
  refine Calm.ite (fun _ => ?_) fun _ => ?_
  all_goals
    refine (State.pulse_within _ _).calm.after ((State.notifyCid_within _ _ _ _).calm.after ?_)
    exact (State.setRegGuar_calm _ _ _ _).after (s.modBrd_within _).calm

theorem State.regauge_calm (s : State) (r : GuarRes) : Calm s (s.regauge r) :=
  Calm.each _ _ _ fun s g => by
    split
    · exact s.setCurrent_calm _ _ _ _
    · exact .refl s

theorem State.regaugeHalf_calm (s : State) (half : Nat) : Calm s (s.regaugeHalf half) :=
  Calm.each _ _ _ fun s _ => s.regauge_calm _

theorem State.regaugeTiles_calm (s : State) : Calm s s.regaugeTiles :=
  Calm.each _ _ _ fun s _ => s.regauge_calm _

theorem State.pairFailed_calm (s : State) (phys : Nat) : Calm s (s.pairFailed phys) := by
  unfold State.pairFailed
  refine Calm.ite (fun _ => .refl s) fun _ => ?_
  dsimp only
  refine (State.regaugeHalf_calm _ _).after ((State.spareUp_within _ _).calm.after ?_)
  have hd : Calm s (s.setPairSt phys .degraded) := (s.setPairSt_within _ _).calm
  refine Calm.ite (fun _ => ?_) fun _ => Calm.ite (fun _ => ?_) fun _ => hd
  · refine (State.zeroShare_within _ _ _ _).calm.after ((State.modPair_within _ _ _).calm.after ?_)
    refine (State.setPairSt_within _ _ _).calm.after ((State.opDone_within _ _ _ _ _ _ _).calm.after ?_)
    exact (State.modMove_within _ _ _).calm.after hd
  · exact (State.moveAborts_within _ _).calm.after hd

/-! ### Lines of LPDDR5X -/

theorem State.dramPoison_calm (s : State) (phys line : Nat) : Calm s (s.dramPoison phys line) := by
  unfold State.dramPoison
  dsimp only
  refine Calm.ite (fun _ => (State.pairFailed_calm _ _).after ?_) fun _ => ?_ <;>
  exact (State.pulse_within _ _).calm.after (s.modPair_within _ _).calm

theorem State.dramRebuilt_calm (s : State) (phys : Nat) : Calm s (s.dramRebuilt phys) := by
  unfold State.dramRebuilt
  dsimp only
  refine Calm.ite (fun _ => (State.pairFailed_calm _ _).after ?_) fun _ => ?_ <;>
  exact (State.pulse_within _ _).calm.after (s.modPair_within _ _).calm

theorem State.dramFetch_calm (s : State) (phys line : Nat) (ecc : Ecc) : Calm s (s.dramFetch phys line ecc).2.2 := by
  have h : Calm s (s.linkRetried phys ecc) := (s.linkRetried_within _ _).calm
  unfold State.dramFetch
  dsimp only
  split
  · exact .refl s
  split
  · exact (State.dramPoison_calm _ _ _).after h
  split
  · split
    · refine (State.dramRebuilt_calm _ _).after (Calm.ite (fun _ => ?_) fun _ => (State.storeLine_within _ _ _).calm.after ?_) <;>
      exact (State.settleStripe_within _ _ _).calm.after h
    · exact (State.dramPoison_calm _ _ _).after h
  · exact h

theorem State.oldLine_calm (s : State) (phys line : Nat) (ecc : Ecc) : Calm s (s.oldLine phys line ecc).2 := by
  have h : Calm s (s.linkRetried phys ecc) := (s.linkRetried_within _ _).calm
  unfold State.oldLine
  simp only [apply_ite Prod.snd]
  refine Calm.ite (fun _ => Calm.ite (fun _ => (State.dramRebuilt_calm _ _).after ?_) fun _ => ?_) fun _ => h <;>
  exact (State.settleStripe_within _ _ _).calm.after h

theorem State.dramRead_calm (s : State) (phys line : Nat) (ecc : Ecc) : Calm s (s.dramRead phys line ecc).2.2 := by
  unfold State.dramRead
  split
  · exact (s.keyUe_within _).calm
  · exact s.dramFetch_calm _ _ _

theorem State.dramWrite_calm (s : State) (phys line mpa : Nat) (data : Line) (be : DWord) (ecc : Ecc) :
    Calm s (s.dramWrite phys line mpa data be ecc).2 := by
  unfold State.dramWrite
  simp only [apply_ite Prod.snd]
  refine Calm.ite (fun _ => (s.keyUe_within _).calm) fun _ => Calm.ite (fun _ => ?_) fun _ => Calm.ite (fun _ => .refl s) fun _ => ?_
  · refine Calm.ite (fun _ => (State.regionWrite_within _ _ _ _ _ _).calm.after ?_) fun _ => ?_
    all_goals
      refine (State.dramStore_within _ _ _ _ _).calm.after ((State.modPair_within _ _ _).calm.after ?_)
      exact s.oldLine_calm _ _ _
  · refine Calm.ite (fun _ => s.dramFetch_calm _ _ _) fun _ => ?_
    refine Calm.ite (fun _ => (State.regionWrite_within _ _ _ _ _ _).calm.after ?_) fun _ => ?_
    all_goals exact (State.dramStore_within _ _ _ _ _).calm.after (s.dramFetch_calm _ _ _)

/-! ### Lines by MPA -/

theorem State.placeRead_calm (s : State) (pl : Place) (ecc : Ecc) : Calm s (s.placeRead pl ecc).2.2 := by
  cases pl with
  | sram t off => exact s.sramRead_calm t off ecc
  | dram _ p line _ => exact s.dramRead_calm p line ecc
  | unbacked => exact .refl s

theorem State.placeWrite_calm (s : State) (pl : Place) (mpa : Nat) (data : Line) (be : DWord) (ecc : Ecc) :
    Calm s (s.placeWrite pl mpa data be ecc).2 := by
  cases pl with
  | sram t off => exact s.sramWrite_calm t off data be ecc
  | dram _ p line _ => exact s.dramWrite_calm p line _ data be ecc
  | unbacked => exact .refl s

theorem State.countRefused_calm (s : State) (pl : Place) : Calm s (s.countRefused pl) := by
  cases pl <;> exact ⟨fun _ => Tile.Calm.refl _, fun _ he => he⟩

theorem State.readMpa_calm (s : State) (w : Who) (scopeAny : Bool) (mpa : Nat) (ecc : Ecc) :
    Calm s (s.readMpa w scopeAny mpa ecc).2.2 := by
  unfold State.readMpa
  dsimp only
  split
  · exact s.placeRead_calm _ _
  · exact s.countRefused_calm _

theorem State.writeMpa_calm (s : State) (w : Who) (mpa : Nat) (data : Line) (be : DWord) (ecc : Ecc) :
    Calm s (s.writeMpa w mpa data be ecc).2 := by
  unfold State.writeMpa
  simp only [apply_ite Prod.snd]
  refine Calm.ite (fun _ => s.countRefused_calm _) fun _ => (State.placeWrite_calm _ _ _ _ _ _).after ?_
  split
  · exact Calm.ite (fun _ => .refl s) fun _ => (s.dlogDevice_within _ _).calm
  · exact .refl s

theorem State.mpaStore_calm (s : State) (w : Who) (mpa n v : Nat) : Calm s (s.mpaStore w mpa n v).2 :=
  s.writeMpa_calm _ _ _ _ _

theorem State.objSetState_calm (s : State) (cid : Cid) (i st gen : Nat) : Calm s (s.objSetState cid i st gen) := by
  unfold State.objSetState
  split
  · exact .refl s
  · exact s.mpaStore_calm _ _ _ _

theorem State.objSetRefs_calm (s : State) (cid : Cid) (i refs : Nat) : Calm s (s.objSetRefs cid i refs) := by
  unfold State.objSetRefs
  split
  · exact .refl s
  · exact s.mpaStore_calm _ _ _ _

/-! ### The queue parser -/

theorem Tab.mem_insert_of_find_none {α : Type} {t : Tab α} {k : Nat} (v : α) (h : Tab.find t k = none) {e : Nat × α}
    (he : e ∈ t) : e ∈ Tab.insert t k v := by
  induction t with
  | nil => cases he
  | cons f t ih =>
    obtain ⟨j, w⟩ := f
    simp only [Tab.find] at h
    split at h
    · cases h
    · rename_i hj
      simp only [Tab.insert]
      split
      · exact List.mem_cons_of_mem _ he
      · rw [if_neg (Ne.symm hj)]
        cases List.mem_cons.mp he with
        | inl h' => simp [h']
        | inr h' => exact List.mem_cons_of_mem _ (ih h h')

/-- A unit's write leaves under a tag that no request holds. -/
theorem State.unitSend_calm (s : State) (stop : Nat) (p : Packet) (via : Nat × Nat) : Calm s (s.unitSend stop p via) := by
  unfold State.unitSend
  split
  · exact (s.emit_within _).calm
  · rename_i g hg
    have hfree : Tab.find s.mesh.reqs (reqKey stop g) = none := by simpa using List.find?_some hg
    exact ⟨fun t => Tile.Calm.refl _, fun e he => Tab.mem_insert_of_find_none _ hfree he⟩

theorem State.parserWrite_calm (s : State) (home : Nat) (cid : Cid) (ctx : Ctx) (dva n v : Nat) :
    Calm s (s.parserWrite home cid ctx dva n v).2 := by
  unfold State.parserWrite
  split
  · split
    · exact s.mpaStore_calm _ _ _ _
    · split
      · dsimp only
        exact (s.hostWrite_within _ _ _ _ _).calm
      · exact .refl s
    · exact s.unitSend_calm _ _ _
  · exact .refl s

theorem State.statusWrite_calm (s : State) (e : Nat) : Calm s (s.statusWrite e).2 := s.parserWrite_calm _ _ _ _ _ _

theorem State.breakQueue_calm (s : State) (e index : Nat) : Calm s (s.breakQueue e index) := by
  unfold State.breakQueue
  refine Calm.ite (fun _ => .refl s) fun _ => ?_
  dsimp only
  refine (State.queueRecord_within _ _ _ _ _ _ _ _).calm.after ((State.statusWrite_calm _ _).after ?_)
  exact (s.modQ_within _ _).calm

theorem State.completionWrite_calm (s : State) (e : Nat) (index : Word) (tag status info : Nat) (irq : Bool) :
    Calm s (s.completionWrite e index tag status info irq) := by
  unfold State.completionWrite
  dsimp only
  refine Calm.ite (fun _ => (State.breakQueue_calm _ _ _).after ?_)
    fun _ => (Calm.when _ _ _ (State.msix_within _ _ _ _).calm).after ?_
  all_goals exact s.parserWrite_calm _ _ _ _ _ _

theorem State.endCmd_calm (s : State) (e : Nat) (index : Word) (status info : Nat) (write : Bool) :
    Calm s (s.endCmd e index status info write) := by
  unfold State.endCmd
  split
  · exact .refl s
  · dsimp only
    refine Calm.ite (fun _ => (State.completionWrite_calm _ _ _ _ _ _ _).after ?_) fun _ => ?_
    all_goals exact (State.modQue_within _ _).calm.after (s.modQ_within _ _).calm

/-! ### References -/

theorem State.freeDone_calm (s : State) (cid : Cid) (i : Nat) : Calm s (s.freeDone cid i) := by
  unfold State.freeDone
  split
  · refine Calm.ite (fun _ => ?_) fun _ => .refl s
    dsimp only
    split
    · exact (State.endCmd_calm _ _ _ _ _ _).after (s.objSetState_calm _ _ _ _)
    · exact s.objSetState_calm _ _ _ _
  · exact .refl s

/-- A bank that goes on was waiting. -/
theorem Tile.calm_modBank {x : Tile} {b : Nat} {f : Bank → Bank} {w : Wait} (h : (x.bank b).wait = some w) :
    Tile.Calm x (x.modBank b f) := by
  refine ⟨rfl, rfl, fun c hc => ?_⟩
  rw [Tile.bank_modBank]
  split
  · rename_i hcb
    subst hcb
    rw [h] at hc
    cases hc
  · rfl

theorem State.wakeRefs_calm (s : State) (cid : Cid) : Calm s (s.wakeRefs cid) := by
  refine Calm.each _ _ _ fun s t => Calm.each _ _ _ fun s b => ?_
  dsimp only
  split
  · rename_i op hw
    exact Calm.ite (fun _ => Calm.modTile s t.1 _ (Tile.calm_modBank hw)) fun _ => .refl s
  · exact .refl s

theorem State.dropRef_calm (s : State) (cid : Cid) (i : Nat) : Calm s (s.dropRef cid i) := by
  unfold State.dropRef
  split
  · exact (State.wakeRefs_calm _ _).after ((State.freeDone_calm _ _ _).after (s.objSetRefs_calm _ _ _))
  · exact .refl s

theorem State.complete_calm (s : State) (e : Nat) (index : Word) (status info : Nat) (write : Bool) :
    Calm s (s.complete e index status info write) := by
  unfold State.complete
  split
  · exact .refl s
  · exact (s.endCmd_calm e index status info write).trans (Calm.each _ _ _ fun s i => s.dropRef_calm _ i)

theorem State.dropBankWaits_calm (s : State) (t b : Nat) : Calm s (s.dropBankWaits t b) := by
  unfold State.dropBankWaits
  exact (Calm.each _ _ _ fun s w => s.dropRef_calm _ _).after (s.modQue_within _).calm

theorem State.endQueue_calm (s : State) (e : Nat) (write : Bool) : Calm s (s.endQueue e write) := by
  unfold State.endQueue
  refine (State.modQue_within _ _).calm.after ((State.modQue_within _ _).calm.after ?_)
  refine (Calm.when _ _ _ ((State.statusWrite_calm _ _).after (State.modQ_within _ _ _).calm)).after ?_
  exact Calm.each _ _ _ fun s c => s.complete_calm _ _ _ _ _

theorem State.loseQueues_calm (s : State) (t : Nat) : Calm s (s.loseQueues t) :=
  Calm.each _ _ _ fun s e => Calm.ite (fun _ => .refl s) fun _ =>
    (State.queueRecordOf_within _ _ _ _).calm.after (s.endQueue_calm e true)

end Sys2Proof.Machine
end

section
/-! SUPPORT. The banks of a tile: SEQ_BANK_CTRL, a purge and its end (R69, R73), the status bits that follow a tile's
controls (R61, R63, R65). -/

-- One proof after the other: those of this layer lean on each other, and side by side each holds a stack while it waits.
set_option Elab.async false

namespace Sys2Proof.Machine

/-! ### Tiles after a change of other blocks, and after one change at each of several places -/

theorem Within.tile_eq {M : List Block} {s u : State} (h : Within M s u) (hM : M.contains .tiles = false := by decide)
    (t : Nat) : u.tile t = s.tile t := by unfold State.tile; rw [h.tiles_eq hM]

theorem Within.bank_eq {M : List Block} {s u : State} (h : Within M s u) (hM : M.contains .tiles = false := by decide)
    (t b : Nat) : u.bank t b = s.bank t b := by unfold State.bank; rw [h.tile_eq hM]

theorem Within.chan_eq {M : List Block} {s u : State} (h : Within M s u) (hM : M.contains .tiles = false := by decide)
    (t c : Nat) : u.chan t c = s.chan t c := by unfold State.chan; rw [h.tile_eq hM]

/-- One change, the same when made twice, at each tile of a list. -/
theorem State.tile_each_modTile (s : State) (l : List Nat) {f : Tile → Tile} (hf : ∀ x, f (f x) = f x) (j : Nat) :
    (s.each l fun s t => s.modTile t f).tile j = if j ∈ l then f (s.tile j) else s.tile j := by
  induction l generalizing s with
  | nil => rfl
  | cons t l ih =>
    rw [State.each_cons, ih, State.tile_modTile]
    by_cases hj : j = t
    · subst hj
      simp [hf]
    · simp [hj]

/-- One change, the same when made twice, at each channel of a list. -/
theorem State.chan_each_modChan (s : State) (t : Nat) (l : List Nat) {f : Chan → Chan} (hf : ∀ x, f (f x) = f x) (j : Nat) :
    (s.each l fun s c => s.modChan t c f).chan t j = if j ∈ l then f (s.chan t j) else s.chan t j := by
  induction l generalizing s with
  | nil => rfl
  | cons c l ih =>
    rw [State.each_cons, ih, State.chan_modChan]
    by_cases hj : j = c
    · subst hj
      simp [hf]
    · simp [hj]

@[simp] theorem State.bank_modChan (s : State) (t c : Nat) (f : Chan → Chan) (i j : Nat) :
    (s.modChan t c f).bank i j = s.bank i j := by
  unfold State.bank
  rw [State.tile_modChan]
  split
  · rename_i h
    rw [h, Tile.bank_modChan]
  · rfl

@[simp] theorem State.chan_modBank (s : State) (t b : Nat) (f : Bank → Bank) (i j : Nat) :
    (s.modBank t b f).chan i j = s.chan i j := by
  unfold State.chan
  rw [State.tile_modBank]
  split
  · rename_i h
    rw [h, Tile.chan_modBank]
  · rfl

theorem State.bank_each_modChan (s : State) (t : Nat) (l : List Nat) (f : Chan → Chan) (i j : Nat) :
    (s.each l fun s c => s.modChan t c f).bank i j = s.bank i j := by
  induction l generalizing s with
  | nil => rfl
  | cons c l ih => rw [State.each_cons, ih, State.bank_modChan]

/-! ### Status bits -/

theorem mem_halfTiles {h t : Nat} : t ∈ halfTiles h ↔ h * 272 ≤ t ∧ t < h * 272 + 272 := by
  unfold halfTiles
  simp only [List.mem_map, List.mem_range]
  constructor
  · rintro ⟨a, ha, rfl⟩
    omega
  · rintro ⟨h1, h2⟩
    exact ⟨t - h * 272, by omega, by omega⟩

/-- The core rail, ISSUE_HELD and OVF follow their causes. -/
theorem tileStatusFollows : Stated.TileStatusFollows := by
  refine ⟨fun t s hg => ⟨_, if_pos hg, ?_⟩, fun t s hh => ⟨_, if_pos hh, ?_⟩, fun h s => ⟨_, rfl, ?_⟩⟩
  · exact ⟨by simp, fun j hj => by simp [hj]⟩
  · exact ⟨by simp, fun j hj => by simp [hj]⟩
  · set s1 : State := { s with cycles := Tab.insert s.cycles h.val 0 } with hs1
    have hcy : (s1.each (halfTiles h.val) fun s t => s.modTile t fun x => { x with ovf := true }).cycles = s1.cycles :=
      (State.each_within _ _ (.refl [.tiles] s1) fun s t k => k.step rfl (s.modTile_within t _)).cycles_eq (by decide)
    refine ⟨?_, fun j hj => ?_, fun t => ?_⟩
    · rw [hcy]
      exact Tab.get_insert_same _ _ _ _
    · rw [hcy]
      exact Tab.get_insert_other _ _ _ _ _ hj
    · exact (State.tile_each_modTile s1 _ (f := fun x => { x with ovf := true }) (fun _ => rfl) t).trans
        (if_congr mem_halfTiles rfl rfl)

/-! ### A purge -/

/-- What halting channels leaves: the controls of every tile, every bank that waits for nothing, the bank that each
channel belongs to, the requests that are out. -/
structure Halting (s u : State) : Prop where
  controls : ∀ t, (u.tile t).controls = (s.tile t).controls
  bank : ∀ t b, (s.bank t b).wait = none → u.bank t b = s.bank t b
  holder : ∀ t c, (u.chan t c).bank = (s.chan t c).bank
  reqs : ∀ e ∈ s.mesh.reqs, e ∈ u.mesh.reqs

theorem Calm.halting {s u : State} (h : Calm s u) : Halting s u where
  controls t := (h.tile t).controls
  bank t b hb := (h.tile t).bank b hb
  holder t c := by unfold State.chan Tile.chan; rw [(h.tile t).chans]
  reqs := h.reqs

namespace Halting

theorem refl (s : State) : Halting s s := (Calm.refl s).halting

theorem trans {s t u : State} (h : Halting s t) (k : Halting t u) : Halting s u where
  controls j := (k.controls j).trans (h.controls j)
  bank j b hb := by rw [k.bank j b (by rw [h.bank j b hb]; exact hb), h.bank j b hb]
  holder j c := (k.holder j c).trans (h.holder j c)
  reqs e he := k.reqs e (h.reqs e he)

theorem each {α : Type} (s : State) (l : List α) (f : State → α → State) (hf : ∀ s x, Halting s (f s x)) :
    Halting s (s.each l f) := by
  induction l generalizing s with
  | nil => exact refl s
  | cons x l ih => exact (hf s x).trans (ih (f s x))

theorem modChan (s : State) (t c : Nat) (f : Chan → Chan) (hf : ∀ x, (f x).bank = x.bank) : Halting s (s.modChan t c f) where
  controls j := by
    rw [State.tile_modChan]
    split
    · rename_i h; subst h; rfl
    · rfl
  bank i j _ := s.bank_modChan t c f i j
  holder i j := by
    rw [State.chan_modChan]
    split
    · rename_i h; obtain ⟨rfl, rfl⟩ := h; exact hf _
    · rfl
  reqs _ he := he

end Halting

theorem State.haltChan_halting (s : State) (t c : Nat) (cid : Cid) : Halting s (s.haltChan t c cid) := by
  have h : Halting s (s.modChan t c fun x =>
    { x with stopping := true, starting := false, due := false, fenceRef := none, decided := none }) :=
    Halting.modChan s t c _ fun _ => rfl
  unfold State.haltChan
  dsimp only
  split
  · exact h.trans (State.dropRef_calm _ _ _).halting
  · exact h

/-- A bank as a purge leaves it (R73 step 1). -/
def Bank.purged (at0 : Nat) (k : Bank) : Bank := { k with st := .purging, wait := none, inProg := false, since := at0 }

/-- The state of a purge before what is outstanding is dropped and marked: the bank PURGING, its channels halted, its
waits gone. -/
def State.purgeHalted (s : State) (t b : Nat) : State :=
  let w := s.modBank t b (Bank.purged s.now)
  (w.each (w.chansOf t b) fun w c => w.haltChan t c (s.bank t b).cid).dropBankWaits t b

/-- The request `e` as a purge of bank (t, b) leaves it: what the bank has outstanding has its response discarded. -/
def State.discardOf (s : State) (t b : Nat) (e : Nat × MeshReq) : Nat × MeshReq :=
  if s.issuerBank e.2.who = some (t, b) then (e.1, { e.2 with discard := true }) else e

theorem State.purgeBank_ignored {s : State} {t b : Nat} (h : (s.bank t b).st = .empty ∨ (s.bank t b).st = .purging) :
    s.purgeBank t b = s := if_pos h

theorem State.purgeBank_eq {s : State} {t b : Nat} (h : ¬ ((s.bank t b).st = .empty ∨ (s.bank t b).st = .purging)) :
    s.purgeBank t b =
      (((s.purgeHalted t b).dropMigration t b).modMesh fun m => { m with
        reqs := m.reqs.map (((s.purgeHalted t b).dropMigration t b).discardOf t b) }).tileSignal t := if_neg h

theorem State.purgeHalted_halting (s : State) (t b : Nat) : Halting (s.modBank t b (Bank.purged s.now)) (s.purgeHalted t b) :=
  (Halting.each _ _ _ fun w c => w.haltChan_halting t c _).trans (State.dropBankWaits_calm _ t b).halting

/-- The purged bank: PURGING, waiting for nothing, else as it was. -/
theorem State.bank_purgeHalted (s : State) (t b : Nat) : (s.purgeHalted t b).bank t b = (s.bank t b).purged s.now := by
  have h : (s.modBank t b (Bank.purged s.now)).bank t b = (s.bank t b).purged s.now := by simp [State.bank_modBank]
  rw [(s.purgeHalted_halting t b).bank t b (by rw [h]; rfl), h]

/-- The bank on whose account a request runs depends on the banks of the channels alone. -/
theorem State.issuerBank_congr {s u : State} (h : ∀ t c, (u.chan t c).bank = (s.chan t c).bank) (i : Issuer) :
    u.issuerBank i = s.issuerBank i := by
  cases i <;> simp [State.issuerBank, h]

theorem State.bank_purgeBank {s : State} {t b : Nat} (h : ¬ ((s.bank t b).st = .empty ∨ (s.bank t b).st = .purging)) :
    (s.purgeBank t b).bank t b = (s.bank t b).purged s.now := by
  rw [State.purgeBank_eq h, (State.tileSignal_within _ t).bank_eq (by decide), (State.modMesh_within _ _).bank_eq (by decide),
    (State.dropMigration_within _ t b).bank_eq (by decide), s.bank_purgeHalted t b]

/-- No page request of a purged bank is left. -/
theorem State.mig_purgeBank {s : State} {t b : Nat} (h : ¬ ((s.bank t b).st = .empty ∨ (s.bank t b).st = .purging)) :
    ∀ m ∈ (s.purgeBank t b).xlt.mig, ¬ (m.tile = t ∧ m.bank = b) := by
  rw [State.purgeBank_eq h, (State.tileSignal_within _ t).xlt_eq (by decide)]
  intro m hm
  exact of_decide_eq_true (List.mem_filter.mp hm).2

/-- What a purged bank has outstanding is discarded when it is answered. -/
theorem State.reqs_purgeBank {s : State} {t b : Nat} (h : ¬ ((s.bank t b).st = .empty ∨ (s.bank t b).st = .purging)) :
    ∀ e ∈ s.mesh.reqs, s.issuerBank e.2.who = some (t, b) → (e.1, { e.2 with discard := true }) ∈ (s.purgeBank t b).mesh.reqs := by
  rw [State.purgeBank_eq h, (State.tileSignal_within _ t).mesh_eq (by decide)]
  intro e he hb
  have hh := s.purgeHalted_halting t b
  refine List.mem_map.mpr ⟨e, hh.reqs e he, ?_⟩
  have hi : ((s.purgeHalted t b).dropMigration t b).issuerBank e.2.who = some (t, b) := by
    rw [← hb]
    exact State.issuerBank_congr (fun i c => (hh.holder i c).trans (by rw [State.chan_modBank])) _
  exact if_pos hi

/-! ### SEQ_BANK_CTRL -/

/-- A mask within another meets no bit where that one meets none. -/
theorem and_eq_zero_of_sub {v m n : Word} (h : v &&& m = 0) (hn : n &&& m = n) : v &&& n = 0 := by
  rw [← hn, BitVec.and_comm n m, ← BitVec.and_assoc, h]
  exact BitVec.zero_and

theorem bit_eq_false_of_and {v m : Word} {i : Nat} (h : v &&& m = 0) (hm : bit m i = true) : bit v i = false := by
  have hb := congrArg (BitVec.getLsbD · i) h
  simp only [BitVec.getLsbD_and] at hb
  unfold bit at *
  rw [hm, Bool.and_true] at hb
  rw [hb]
  exact BitVec.getLsbD_zero

theorem State.bankCtrl_hold {s : State} {t b : Nat} {v : Word} (hv : v &&& 0xFFFFFFFC = 0) (h1 : bit v 1 = false) :
    s.bankCtrl t b v = s.modBank t b fun k => { k with hold := bit v 0 } := by
  simp only [State.bankCtrl, hv, ne_eq, not_true, decide_false, State.when_false, h1, Bool.not_false, if_true]

theorem State.bankCtrl_purge {s : State} {t b : Nat} {v : Word} (hv : v &&& 0xFFFFFFFC = 0) (h1 : bit v 1 = true) :
    s.bankCtrl t b v =
      let w := s.modBank t b fun k => { k with hold := bit v 0 }
      if (s.bank t b).st = .empty ∨ (s.bank t b).st = .purging then w.modTile t fun x => { x with err := x.err.refuse }
      else w.purgeBank t b := by
  have hst : ((s.modBank t b fun k => { k with hold := bit v 0 }).bank t b).st = (s.bank t b).st := by
    simp [State.bank_modBank]
  simp only [State.bankCtrl, hv, ne_eq, not_true, decide_false, State.when_false, h1, Bool.not_true, Bool.false_eq_true,
    if_false, hst]

/-- A write sets HOLD; its PURGE bit purges a bank that holds a context. -/
theorem bankControlWrites : Stated.BankControlWrites := by
  refine ⟨fun t b v s hv => ⟨_, rfl, ?_⟩, fun t b v s hv h1 => ⟨_, rfl, ?_⟩⟩
  · rw [State.bankCtrl_hold (and_eq_zero_of_sub hv (by decide)) (bit_eq_false_of_and hv (by decide))]
    refine ⟨by simp [State.bank_modBank], fun x y hxy => ?_, fun j hj => by simp [hj]⟩
    rw [State.bank_modBank, if_neg (by simpa using hxy)]
  · rw [State.bankCtrl_purge hv h1]
    refine ⟨fun h => ?_, fun h => ?_⟩
    · dsimp only
      rw [if_pos h]
      refine ⟨?_, by simp [ErrReg.refuse, Tile.modBank]⟩
      simp [State.bank, Tile.bank, Tile.modBank, Tab.get_insert_same]
    · dsimp only
      rw [if_neg h]
      have hb : (s.modBank t b fun k => { k with hold := bit v 0 }).bank t b = { s.bank t b with hold := bit v 0 } := by
        simp [State.bank_modBank]
      have hw : ¬ (((s.modBank t b fun k => { k with hold := bit v 0 }).bank t b).st = .empty ∨
          ((s.modBank t b fun k => { k with hold := bit v 0 }).bank t b).st = .purging) := by rw [hb]; exact h
      have hr := State.reqs_purgeBank hw
      rw [State.bank_purgeBank hw, hb]
      refine ⟨rfl, rfl, rfl, rfl, rfl, State.mig_purgeBank hw, fun e he hi => hr e he ?_⟩
      rw [← hi]
      exact State.issuerBank_congr (fun i c => by rw [State.chan_modBank]) _

/-! ### The end of a purge -/

/-- A channel as its bank's end leaves it. -/
def Chan.freed (x : Chan) : Chan := { st := .idle, desc := x.desc, lines := x.lines }

theorem mem_chansOf {s : State} {t b c : Nat} :
    c ∈ s.chansOf t b ↔ c < 8 ∧ (s.chan t c).bank.toNat = b ∧ ((s.chan t c).st ≠ .idle ∨ (s.chan t c).starting = true) := by
  simp [State.chansOf, List.mem_filter]

theorem State.bank_emptyBank (s : State) (t b i j : Nat) : (s.emptyBank t b).bank i j =
    if i = t ∧ j = b then { run := (s.bank t b).run, lent := (s.bank t b).lent } else s.bank i j := by
  unfold State.emptyBank
  rw [(State.tileSignal_within _ t).bank_eq (by decide), State.bank_modBank, State.bank_each_modChan,
    State.bank_each_modChan]

theorem State.chan_emptyBank (s : State) (t b c : Nat) :
    (s.emptyBank t b).chan t c = if c ∈ s.chansOf t b then (s.chan t c).freed else s.chan t c := by
  unfold State.emptyBank
  rw [(State.tileSignal_within _ t).chan_eq (by decide), State.chan_modBank]
  exact State.chan_each_modChan s t _ (f := Chan.freed) (fun _ => rfl) c

/-- With nothing outstanding the bank and its channels are as after reset. -/
theorem purgeEndsInAnEmptyBank : Stated.PurgeEndsInAnEmptyBank := by
  intro t b s hst hout
  refine ⟨_, if_pos ⟨hst, by rw [hout]; rfl⟩, ?_⟩
  have hw := (s.emptyBank t b).recoverPurged_within (s.bank t b).cid (s.bank t b).ctx
  refine ⟨?_, fun x y hxy => ?_, fun c hc hb => ?_⟩
  · rw [hw.bank_eq (by decide), State.bank_emptyBank, if_pos ⟨rfl, rfl⟩]
  · rw [hw.bank_eq (by decide), State.bank_emptyBank, if_neg (by simpa using hxy)]
  · rw [hw.chan_eq (by decide), State.chan_emptyBank]
    split
    · exact ⟨rfl, fun _ => ⟨rfl, rfl⟩⟩
    · rename_i hmem
      rw [mem_chansOf] at hmem
      have hidle : (s.chan t c).st = .idle := by
        by_contra h
        exact hmem ⟨hc, hb, .inl h⟩
      exact ⟨hidle, fun h => absurd hidle h⟩

/-- Settles O13: status bits, SEQ_BANK_CTRL and the end of a purge. -/
theorem tileStatusAndBanks : Obligations.TileStatusAndBanks :=
  ⟨tileStatusFollows, bankControlWrites, purgeEndsInAnEmptyBank⟩

end Sys2Proof.Machine
end

section
/-! SUPPORT. Registers of a bank: what a lane, a predicate register and an accumulator element read after a write, and a
vector instruction that completes (R40, R41, R96 to R100). -/

-- One proof after the other: those of this layer lean on each other, and side by side each holds a stack while it waits.
set_option Elab.async false

namespace Sys2Proof.Machine

/-! ### Lanes of a vector register -/

theorem Bank.v32_lt (k : Bank) (r i : Nat) : k.v32 r i < 2 ^ 32 := BitVec.isLt _

theorem Bank.v16_lt (k : Bank) (r i : Nat) : k.v16 r i < 2 ^ 16 := Nat.mod_lt _ (by decide)

theorem Bank.v32_setV32 (k : Bank) (d : Nat) {i : Nat} (hi : i < 128) (v r : Nat) {j : Nat} (hj : j < 128) :
    (k.setV32 d i v).v32 r j = if r = d ∧ j = i then v % 2 ^ 32 else k.v32 r j := by
  have hkey : r * 128 + j = d * 128 + i ↔ r = d ∧ j = i := by omega
  simp only [Bank.v32, Bank.setV32, Tab.get_insert, hkey]
  split <;> simp

/-- What a write of vector lanes does not touch. -/
def Bank.butV (k : Bank) : Bank := { k with vReg := [] }

theorem Bank.butV_setV32 (k : Bank) (r i v : Nat) : (k.setV32 r i v).butV = k.butV := rfl

/-- Lanes written one by one, from the lane `n` on. -/
theorem Bank.foldl_setV32 (d : Nat) (vs : List Nat) (n : Nat) (k : Bank) :
    let x := (vs.zipIdx n).foldl (fun b x => if x.2 < 128 then b.setV32 d x.2 x.1 else b) k
    x.butV = k.butV ∧ ∀ r, ∀ j < 128, x.v32 r j =
      if r = d ∧ n ≤ j ∧ j < n + vs.length then vs.getD (j - n) 0 % 2 ^ 32 else k.v32 r j := by
  induction vs generalizing n k with
  | nil => exact ⟨rfl, fun r j _ => by simp⟩
  | cons v vs ih =>
    simp only [List.zipIdx_cons, List.foldl_cons]
    obtain ⟨hb, hv⟩ := ih (n + 1) (if n < 128 then k.setV32 d n v else k)
    refine ⟨hb.trans (by split <;> rfl), fun r j hj => ?_⟩
    rw [hv r j hj]
    by_cases hn : n < 128
    · rw [if_pos hn, k.v32_setV32 d hn v r hj]
      by_cases hr : r = d
      · by_cases hjn : j = n
        · subst hjn
          simp [hr]
        · by_cases hlt : n < j
          · have h1 : j - n = (j - (n + 1)) + 1 := by omega
            simp only [hr, true_and, hjn, if_false, List.length_cons, h1, List.getD_cons_succ]
            refine if_congr (by omega) rfl rfl
          · have h1 : ¬ (n + 1 ≤ j) := by omega
            have h2 : ¬ (n ≤ j) := by omega
            simp [hjn, h1, h2]
      · simp [hr]
    · have h1 : ¬ (n + 1 ≤ j) := by omega
      have h2 : ¬ (n ≤ j) := by omega
      simp [hn, h1, h2]

theorem Bank.butV_setV (k : Bank) (d : Nat) (vs : List Nat) : (k.setV d vs).butV = k.butV :=
  (Bank.foldl_setV32 d vs 0 k).1

/-- A lane after a register is written: the new value in that register, as far as the values go. -/
theorem Bank.v32_setV (k : Bank) (d : Nat) (vs : List Nat) (r : Nat) {j : Nat} (hj : j < 128) :
    (k.setV d vs).v32 r j = if r = d ∧ j < vs.length then vs.getD j 0 % 2 ^ 32 else k.v32 r j := by
  have h := (Bank.foldl_setV32 d vs 0 k).2 r j hj
  simpa [Bank.setV] using h

theorem Bank.v32_setV_other (k : Bank) {d r : Nat} (vs : List Nat) (hr : r ≠ d) {j : Nat} (hj : j < 128) :
    (k.setV d vs).v32 r j = k.v32 r j := by simp [k.v32_setV d vs r hj, hr]

/-- Element `i` of paired 16-bit values. -/
theorem pairUp_length : ∀ vs : List Nat, (pairUp vs).length = (vs.length + 1) / 2
  | [] => rfl
  | [_] => by simp [pairUp]
  | a :: b :: t => by simp only [pairUp, List.length_cons, pairUp_length t]; omega

theorem pairUp_getD : ∀ (vs : List Nat) (i : Nat),
    (pairUp vs).getD i 0 = vs.getD (2 * i) 0 % 2 ^ 16 + vs.getD (2 * i + 1) 0 % 2 ^ 16 * 2 ^ 16
  | [], i => by simp [pairUp]
  | [a], 0 => by simp [pairUp]
  | [a], i + 1 => by simp [pairUp]
  | a :: b :: t, 0 => by simp [pairUp]
  | a :: b :: t, i + 1 => by
    simp only [pairUp, List.getD_cons_succ, pairUp_getD t i]
    rw [show 2 * (i + 1) = 2 * i + 1 + 1 by omega]
    simp only [List.getD_cons_succ]

/-- A 16-bit lane after a register is written with 256 of them. -/
theorem Bank.v16_setV_pairUp (k : Bank) (d : Nat) (vs : List Nat) (hvs : vs.length = 256) {j : Nat} (hj : j < 256) :
    (k.setV d (pairUp vs)).v16 d j = vs.getD j 0 % 2 ^ 16 := by
  have hl : j / 2 < (pairUp vs).length := by rw [pairUp_length]; omega
  have hw := pairUp_getD vs (j / 2)
  rw [Bank.v16, k.v32_setV d _ d (by omega), if_pos ⟨rfl, hl⟩, hw]
  have h0 := Nat.mod_lt (vs.getD (2 * (j / 2)) 0) (show 2 ^ 16 > 0 by decide)
  have h1 := Nat.mod_lt (vs.getD (2 * (j / 2) + 1) 0) (show 2 ^ 16 > 0 by decide)
  obtain hj2 | hj2 := Nat.mod_two_eq_zero_or_one j
  · rw [show 2 * (j / 2) = j by omega] at *
    rw [hj2]
    omega
  · rw [show 2 * (j / 2) + 1 = j by omega] at *
    rw [hj2]
    omega

/-! ### The end of an instruction -/

/-- A bank that issues runs its next instruction. -/
theorem State.run_eq {s : State} {t b : Nat} (h : runsNext s t b) (f : Bank → State → State) :
    s.run t b f = f (s.bank t b) s := by
  obtain ⟨hi, hpc⟩ := h
  simp only [State.run, hi, Bool.not_true, Bool.false_eq_true, if_false]
  exact if_neg (by omega)

/-- A command that runs an instruction of a bank that issues. -/
theorem exec_of_run {s : State} {t b : Nat} {i : Instr} {f : Bank → State → State} (h : runsNext s t b)
    (hi : exec i s = .next (s.run t b f)) : exec i s = .next (f (s.bank t b) s) := hi.trans (congrArg _ (State.run_eq h f))

/-- Bank `b` of tile `t` alone has changed, and is `k` now. -/
structure BankOnly (s u : State) (t b : Nat) (k : Bank) : Prop where
  bank : u.bank t b = k
  mem : u.mem = s.mem
  banks : ∀ c, c ≠ b → u.bank t c = s.bank t c
  tiles : ∀ j, j ≠ t → u.tile j = s.tile j

theorem State.modBank_bankOnly (s : State) (t b : Nat) (f : Bank → Bank) : BankOnly s (s.modBank t b f) t b (f (s.bank t b)) where
  bank := by simp [State.bank_modBank]
  mem := rfl
  banks c hc := by simp [State.bank_modBank, hc]
  tiles j hj := by simp [hj]

theorem State.done_bankOnly (s : State) (t b : Nat) (f : Bank → Bank) :
    BankOnly s (s.done t b f) t b (f (s.bank t b)).retire := s.modBank_bankOnly t b _

theorem State.vecEnd_bankOnly (s : State) (t b : Nat) (g : AFlags) (f : Bank → Bank) :
    BankOnly s (s.vecEnd t b g f) t b { f (s.bank t b) with flags := (f (s.bank t b)).flags ||| g }.retire :=
  s.done_bankOnly t b _

/-- Flags that are only added to lose none. -/
theorem flags_or_keeps (k g : BitVec 5) : k &&& ~~~(k ||| g) = 0 := by
  ext i
  simp
  exact fun h h' => absurd (h.symm.trans h') (by decide)

/-! ### Lane formats -/

/-- The formats that codes 0 to 2 name have lanes. -/
theorem State.optype_lane (s : State) (t d : Nat) {ty : BitVec 5} (h : ty.toNat ≤ 2) :
    ∃ f, s.optype t d ty = .ok (f, false) ∧ isLane f = true ∧ (ty = 0 → f = .fp32) := by
  have hty : ty = 0 ∨ ty = 1 ∨ ty = 2 := by
    simp only [← BitVec.toNat_inj]
    simp
    omega
  obtain rfl | rfl | rfl := hty
  · exact ⟨.fp32, rfl, rfl, fun _ => rfl⟩
  · exact ⟨.fp16, rfl, rfl, by decide⟩
  · exact ⟨.bf16, rfl, rfl, by decide⟩

/-- A vector instruction that names a lane format. -/
theorem State.optype_fp32 (s : State) (t d : Nat) : s.optype t d 0 = .ok (.fp32, false) := rfl

/-- Lanes of a float format and lanes of 32 or 16 bits are written as 32-bit lanes. -/
theorem Bank.setLanes_eq (k : Bank) (f : Fmt) (r : Nat) (vs : List Nat) :
    k.setLanes f r vs = k.setV r (if f = .fp32 then vs else pairUp vs) := by unfold Bank.setLanes; split <;> rfl

theorem Bank.setInts_eq (k : Bank) (wide : Bool) (r : Nat) (vs : List Nat) :
    k.setInts wide r vs = k.setV r (if wide then vs else pairUp vs) := by unfold Bank.setInts; split <;> rfl

/-- How a vector instruction ends that completes: lanes of its one destination register, or one predicate register. -/
inductive VectorEnd (s : State) (t b : Nat) (op : VectorOp) : State → Prop
  | lanes (g : AFlags) (d : VReg) (f : Bank → Bank) (vs : List Nat) (hd : vecDst op = some d)
      (hf : f (s.bank t b) = (s.bank t b).setV d vs) : VectorEnd s t b op (s.vecEnd t b g f)
  | mask (c : VCmp) (f : BitVec 5) (d : PReg) (x y : VReg) (v : BitVec 128) (hop : op = .cmp c f d x y) :
      VectorEnd s t b op (s.vecEnd t b 0 fun k => k.setP d v)

theorem VectorEnd.setLanes {s : State} {t b : Nat} {op : VectorOp} {d : VReg} (hd : vecDst op = some d) (g : AFlags) (f : Fmt)
    (vs : Bank → List Nat) : VectorEnd s t b op (s.vecEnd t b g fun k => k.setLanes f d (vs k)) :=
  .lanes g d _ _ hd (Bank.setLanes_eq _ _ _ _)

theorem VectorEnd.setInts {s : State} {t b : Nat} {op : VectorOp} {d : VReg} (hd : vecDst op = some d) (g : AFlags) (wide : Bool)
    (vs : Bank → List Nat) : VectorEnd s t b op (s.vecEnd t b g fun k => k.setInts wide d (vs k)) :=
  .lanes g d _ _ hd (Bank.setInts_eq _ _ _ _)

theorem VectorEnd.setV {s : State} {t b : Nat} {op : VectorOp} {d : VReg} (hd : vecDst op = some d) (g : AFlags)
    (vs : Bank → List Nat) : VectorEnd s t b op (s.vecEnd t b g fun k => k.setV d (vs k)) :=
  .lanes g d _ _ hd rfl

/-- An instruction whose format has lanes completes; a special function needs one of its precision. -/
theorem State.vecOp_completes (s : State) (t b : Nat) (op : VectorOp) (hf : ∀ f, vecFmt op = some f → f ≤ 2)
    (hs : ∀ fn f d x, op = .special fn false f d x → f = 0) : VectorEnd s t b op (s.vecOp t b (s.bank t b) op) := by
  cases op with
  | float op f d x y =>
    obtain ⟨fmt, ho, hl, -⟩ := s.optype_lane t 1 (hf _ rfl)
    simp only [State.vecOp, ho, hl, if_true]
    exact .setLanes rfl _ _ _
  | fma f d x y z =>
    obtain ⟨fmt, ho, hl, -⟩ := s.optype_lane t 1 (hf _ rfl)
    simp only [State.vecOp, ho, hl, if_true]
    exact .setLanes rfl _ _ _
  | abs f d x =>
    obtain ⟨fmt, ho, hl, -⟩ := s.optype_lane t 1 (hf _ rfl)
    simp only [State.vecOp, ho, hl, if_true]
    exact .setLanes rfl _ _ _
  | neg f d x =>
    obtain ⟨fmt, ho, hl, -⟩ := s.optype_lane t 1 (hf _ rfl)
    simp only [State.vecOp, ho, hl, if_true]
    exact .setLanes rfl _ _ _
  | cmp c f d x y =>
    obtain ⟨fmt, ho, hl, -⟩ := s.optype_lane t 1 (hf _ rfl)
    simp only [State.vecOp, ho, hl, if_true]
    split <;> exact .mask c f d x y _ rfl
  | select wide p d x y =>
    simp only [State.vecOp]
    split
    · exact .setV rfl _ _
    · exact .setInts rfl _ _ _
  | int op wide d x y => exact .setInts rfl _ _ _
  | special fn bf f d x =>
    obtain ⟨fmt, ho, hl, h0⟩ := s.optype_lane t 1 (hf _ rfl)
    simp only [State.vecOp, ho, hl, if_true]
    split
    · rename_i hbad
      cases bf with
      | true => simp at hbad
      | false => simp [h0 (hs fn f d x rfl)] at hbad
    · exact .setLanes rfl _ _ _
  | reduceSum f d x =>
    obtain ⟨fmt, ho, hl, -⟩ := s.optype_lane t 1 (hf _ rfl)
    simp only [State.vecOp, ho, hl, if_true]
    exact .setV rfl _ _
  | reduceMax f d x =>
    obtain ⟨fmt, ho, hl, -⟩ := s.optype_lane t 1 (hf _ rfl)
    simp only [State.vecOp, ho, hl, if_true]
    exact .setV rfl _ _
  | permute wide d x idx => exact .setInts rfl _ _ _

theorem Bank.p_setP (k : Bank) (d : Nat) (v : BitVec 128) (r : Nat) : (k.setP d v).p r = if r = d then v else k.p r :=
  Tab.get_insert _ _ _ _ _

/-- A vector instruction that writes lanes changes no other register, and adds flags. -/
theorem vectorArithmeticCompletes : Stated.VectorArithmeticCompletes := by
  intro t b op s hr hf hs
  have he := s.vecOp_completes t b op hf hs
  refine ⟨_, exec_of_run hr rfl, ?_⟩
  generalize s.vecOp t b (s.bank t b) op = u at he
  cases he with
  | lanes g d f vs hd hfk =>
    obtain ⟨hb, hm, hbs, hts⟩ := s.vecEnd_bankOnly t b g f
    rw [hfk] at hb
    have hk := Bank.butV_setV (s.bank t b) d vs
    rw [hb]
    refine ⟨congrArg (·.pc + 1) hk, congrArg (·.progress + 1) hk, congrArg (·.st) hk, congrArg (·.sReg) hk,
      congrArg (·.acc) hk, ?_, fun r hne i hi => ?_, fun r _ => congrArg (·.p r) hk, hm, hbs, hts⟩
    · have hfl : ((s.bank t b).setV d vs).flags = (s.bank t b).flags := congrArg (·.flags) hk
      simp only [Bank.retire, hfl]
      exact flags_or_keeps _ _
    · have hrd : r.val ≠ d.val := fun h => hne (by rw [hd, Fin.ext h])
      exact Bank.v32_setV_other _ vs hrd hi
  | mask c f d x y v hop =>
    obtain ⟨hb, hm, hbs, hts⟩ := s.vecEnd_bankOnly t b 0 fun k => k.setP d v
    rw [hb]
    refine ⟨rfl, rfl, rfl, rfl, rfl, flags_or_keeps _ _, fun r _ i _ => rfl, fun r hne => ?_, hm, hbs, hts⟩
    have hrd : r.val ≠ d.val := fun h => hne c f x y (by rw [hop, Fin.ext h])
    exact (Bank.p_setP _ _ _ _).trans (if_neg hrd)

end Sys2Proof.Machine
end

section
/-! SUPPORT. What the lane by lane forms of the vector unit leave in their destination (R40, R96, R97). -/

-- One proof after the other: those of this layer lean on each other, and side by side each holds a stack while it waits.
set_option Elab.async false

namespace Sys2Proof.Machine

/-! ### Registers after an instruction that sets flags -/

theorem State.v32_vecEnd (s : State) (t b : Nat) (g : AFlags) (f : Bank → Bank) (r i : Nat) :
    ((s.vecEnd t b g f).bank t b).v32 r i = (f (s.bank t b)).v32 r i := by
  rw [(s.vecEnd_bankOnly t b g f).bank]
  rfl

theorem State.v16_vecEnd (s : State) (t b : Nat) (g : AFlags) (f : Bank → Bank) (r i : Nat) :
    ((s.vecEnd t b g f).bank t b).v16 r i = (f (s.bank t b)).v16 r i := by
  rw [(s.vecEnd_bankOnly t b g f).bank]
  rfl

theorem State.p_vecEnd (s : State) (t b : Nat) (g : AFlags) (f : Bank → Bank) (r : Nat) :
    ((s.vecEnd t b g f).bank t b).p r = (f (s.bank t b)).p r := by
  rw [(s.vecEnd_bankOnly t b g f).bank]
  rfl

theorem isLane_fp32 : isLane .fp32 = true := rfl

/-! ### Lists of lanes -/

theorem getD_zipWith_range {α β : Type} (g : α → α → β) (f h : Nat → α) (e : β) {n i : Nat} (hi : i < n) :
    (List.zipWith g ((List.range n).map f) ((List.range n).map h)).getD i e = g (f i) (h i) := by
  simp [List.getD_eq_getElem?_getD, hi]

theorem getD_map_range {α : Type} (f : Nat → α) (e : α) {n i : Nat} (hi : i < n) : ((List.range n).map f).getD i e = f i := by
  simp [List.getD_eq_getElem?_getD, hi]

/-- Lane `i` of a register written with 128 values. -/
theorem Bank.v32_setV_lane (k : Bank) (d : Nat) (vs : List Nat) (hvs : vs.length = 128) {i : Nat} (hi : i < 128) :
    (k.setV d vs).v32 d i = vs.getD i 0 % 2 ^ 32 := by
  rw [k.v32_setV d vs d hi, if_pos ⟨rfl, by omega⟩]

/-! ### Integer lanes -/

/-- The model's integer operation is R97's on lanes of `w` bits. -/
theorem vint_eq_laneRule (op : VInt) (w a b : Nat) (ha : a < 2 ^ w) (hb : b < 2 ^ w) :
    vint op w a b % 2 ^ w = (laneRule op w (BitVec.ofNat w a) (BitVec.ofNat w b)).toNat := by
  have hpos : 0 < 2 ^ w := Nat.two_pow_pos w
  have hbn : (BitVec.ofNat w b).toNat = b := by rw [BitVec.toNat_ofNat, Nat.mod_eq_of_lt hb]
  have han : (BitVec.ofNat w a).toNat = a := by rw [BitVec.toNat_ofNat, Nat.mod_eq_of_lt ha]
  cases op with
  | add => simp [vint, laneRule, Nat.add_mod]
  | sub =>
    simp only [vint, laneRule, BitVec.toNat_sub, han, hbn, Nat.mod_mod]
    congr 1
    omega
  | mul => simp [vint, laneRule, Nat.mul_mod]
  | and => exact (Nat.mod_eq_of_lt (Nat.and_lt_two_pow _ hb)).trans (by rw [laneRule, BitVec.toNat_and, han, hbn])
  | or => exact (Nat.mod_eq_of_lt (Nat.or_lt_two_pow ha hb)).trans (by rw [laneRule, BitVec.toNat_or, han, hbn])
  | xor => exact (Nat.mod_eq_of_lt (Nat.xor_lt_two_pow ha hb)).trans (by rw [laneRule, BitVec.toNat_xor, han, hbn])
  | shl =>
    simp only [vint, laneRule, hbn]
    split
    · simp
    · rw [BitVec.toNat_shiftLeft, han, Nat.shiftLeft_eq, Nat.mod_mod]
  | shrl =>
    simp only [vint, laneRule, hbn]
    split
    · simp
    · rw [BitVec.toNat_ushiftRight, han, Nat.shiftRight_eq_div_pow]
      exact Nat.mod_eq_of_lt (lt_of_le_of_lt (Nat.div_le_self _ _) ha)
  | shra =>
    simp only [vint, laneRule, hbn]
    exact Nat.mod_eq_of_lt (BitVec.isLt _)

/-! ### Comparisons -/

/-- Bits gathered from the `n`-th on: each is the list's, those below are as they were. -/
theorem testBit_foldl_bools (bs : List Bool) (n acc i : Nat) (h : acc < 2 ^ n) :
    ((bs.zipIdx n).foldl (fun acc e => if e.1 then acc + 2 ^ e.2 else acc) acc).testBit i =
      if i < n then acc.testBit i else bs.getD (i - n) false := by
  induction bs generalizing n acc with
  | nil =>
    split
    · rfl
    · rename_i hi
      exact Nat.testBit_eq_false_of_lt (lt_of_lt_of_le h (Nat.pow_le_pow_right (by decide) (by omega)))
  | cons c bs ih =>
    have hn : acc.testBit n = false := Nat.testBit_eq_false_of_lt h
    have hlt : (if c then acc + 2 ^ n else acc) < 2 ^ (n + 1) := by
      rw [Nat.pow_succ]
      split <;> omega
    simp only [List.zipIdx_cons, List.foldl_cons]
    rw [ih (n + 1) _ hlt]
    obtain hi | hi | hi := Nat.lt_trichotomy i n
    · rw [if_pos (by omega : i < n + 1), if_pos hi]
      split
      · rw [Nat.add_comm, Nat.testBit_two_pow_add_gt hi]
      · rfl
    · subst hi
      rw [if_pos (by omega : i < i + 1), if_neg (by omega : ¬ i < i), Nat.sub_self, List.getD_cons_zero]
      cases c
      · exact hn
      · rw [if_pos rfl, Nat.add_comm, Nat.testBit_two_pow_add_eq, hn]
        rfl
    · rw [if_neg (by omega : ¬ i < n + 1), if_neg (by omega : ¬ i < n), show i - n = (i - (n + 1)) + 1 by omega, List.getD_cons_succ]

theorem getLsbD_boolsNat (bs : List Bool) {w i : Nat} (hi : i < w) :
    (BitVec.ofNat w (boolsNat bs)).getLsbD i = bs.getD i false := by
  rw [BitVec.getLsbD_ofNat, boolsNat, testBit_foldl_bools bs 0 0 i (by decide)]
  simp [hi]

/-! ### The lane by lane forms -/

theorem vectorLaneResults : Stated.VectorLaneResults := by
  intro t b s hr
  refine ⟨fun op d x y => ⟨_, exec_of_run hr rfl, fun i hi => ?_⟩,
    fun op d x y => ⟨_, exec_of_run hr rfl, fun i hi => ?_⟩,
    fun op d x y => ⟨_, exec_of_run hr rfl, fun i hi => ?_⟩,
    fun op d x y => ⟨_, exec_of_run hr rfl, fun i hi => ?_⟩,
    fun p d x y => ⟨_, exec_of_run hr rfl, fun i hi => ?_⟩⟩
  · simp only [State.vecOp, if_true]
    rw [State.v32_vecEnd, Bank.setInts_eq, if_pos rfl, Bank.v32_setV_lane _ _ _ (by simp [Bank.ints]) hi]
    refine (congrArg (· % 2 ^ 32) (getD_zipWith_range _ _ _ 0 hi)).trans ?_
    exact vint_eq_laneRule op 32 _ _ (Bank.v32_lt _ _ _) (Bank.v32_lt _ _ _)
  · simp only [State.vecOp, Bool.false_eq_true, if_false]
    rw [State.v16_vecEnd, Bank.setInts_eq, if_neg (by decide), Bank.v16_setV_pairUp _ _ _ (by simp [Bank.ints]) hi]
    refine (congrArg (· % 2 ^ 16) (getD_zipWith_range _ _ _ 0 hi)).trans ?_
    exact vint_eq_laneRule op 16 _ _ (Bank.v16_lt _ _ _) (Bank.v16_lt _ _ _)
  · simp only [State.vecOp, State.optype_fp32, isLane_fp32, if_true]
    rw [State.v32_vecEnd, Bank.setLanes_eq, if_pos rfl, Bank.v32_setV_lane _ _ _ (by simp [Bank.lanes]) hi]
    refine congrArg (· % 2 ^ 32) ?_
    simp [Bank.lanes, List.getD_eq_getElem?_getD, hi]
  · simp only [State.vecOp, State.optype_fp32, isLane_fp32, if_true]
    rw [State.p_vecEnd, Bank.p_setP, if_pos rfl, getLsbD_boolsNat _ hi]
    exact getD_zipWith_range _ _ _ false hi
  · simp only [State.vecOp, if_true]
    rw [State.v32_vecEnd, Bank.v32_setV_lane _ _ _ (by simp) hi, getD_map_range _ _ hi]
    refine Nat.mod_eq_of_lt ?_
    split <;> exact Bank.v32_lt _ _ _

/-- Settles O21: vector instructions complete, and what the lane by lane forms leave. -/
theorem vectorArithmetic : Obligations.VectorArithmetic := ⟨vectorArithmeticCompletes, vectorLaneResults⟩

end Sys2Proof.Machine
end

section
/-! SUPPORT. The accumulators and the matrix unit (R36, R37, R101 to R106, R120): what an element reads after writes, and
what the check of the operands' lines leaves. -/

-- One proof after the other: those of this layer lean on each other, and side by side each holds a stack while it waits.
set_option Elab.async false

namespace Sys2Proof.Machine

/-! ### ACC.MOV and ACC.ZERO -/

/-- One value per lane, from the offset `o` on. -/
theorem Bank.v32_foldl_setV32 (d o : Nat) (val : Nat → Nat) (js : List Nat) (hjs : ∀ j ∈ js, j + o < 128) (k : Bank) (r : Nat)
    {i : Nat} (hi : i < 128) :
    (js.foldl (fun x j => x.setV32 d (j + o) (val j)) k).v32 r i =
      if r = d ∧ o ≤ i ∧ i - o ∈ js then val (i - o) % 2 ^ 32 else k.v32 r i := by
  induction js generalizing k with
  | nil => simp
  | cons j js ih =>
    rw [List.foldl_cons, ih (fun x hx => hjs x (by simp [hx])), k.v32_setV32 d (hjs j (by simp)) _ r hi]
    by_cases hr : r = d
    · by_cases hij : i = j + o
      · subst hij
        simp [hr]
      · have hne : o ≤ i → i - o ≠ j := by omega
        by_cases ho : o ≤ i
        · simp [hr, hij, ho, hne ho]
        · simp [hr, hij, ho]
    · simp [hr]

theorem Bank.butV_foldl_setV32 (d o : Nat) (val : Nat → Nat) (js : List Nat) (k : Bank) :
    (js.foldl (fun x j => x.setV32 d (j + o) (val j)) k).butV = k.butV := by
  induction js generalizing k with
  | nil => rfl
  | cons j js ih => rw [List.foldl_cons, ih, Bank.butV_setV32]

/-- Entries kept by their key read as before, all others as unlisted ones. -/
theorem Tab.get_filter_key {α : Type} (d : Nat → α) (t : Tab α) (p : Nat → Bool) (k : Nat) :
    Tab.get d (t.filter fun e => p e.1) k = if p k then Tab.get d t k else d k := by
  induction t with
  | nil => simp [Tab.get]
  | cons e t ih =>
    obtain ⟨j, v⟩ := e
    by_cases hj : j = k
    · subst hj
      by_cases hp : p j
      · simp [hp, Tab.get]
      · simp [hp, ih]
    · by_cases hp : p j <;> simp [hp, Tab.get, hj, ih]

/-- A bank after ACC.MOV of a row into half of a vector register. -/
def Bank.rowMoved (a row d : Nat) (upper : Bool) (k : Bank) : Bank :=
  (List.range 64).foldl (fun x j => x.setV32 d (j + if upper then 64 else 0) (k.accAt a row j)) k

theorem Bank.butV_rowMoved (a row d : Nat) (upper : Bool) (k : Bank) : (k.rowMoved a row d upper).butV = k.butV :=
  Bank.butV_foldl_setV32 d _ _ _ k

theorem Bank.v32_retire (k : Bank) (r i : Nat) : k.retire.v32 r i = k.v32 r i := rfl

theorem Bank.v32_rowMoved (a row d : Nat) (upper : Bool) (k : Bank) (r : Nat) {i : Nat} (hi : i < 128) :
    (k.rowMoved a row d upper).v32 r i = if r = d ∧ (64 ≤ i ↔ upper = true) then k.accAt a row (i % 64) else k.v32 r i := by
  have hacc : ∀ j, k.accAt a row j % 2 ^ 32 = k.accAt a row j := fun j => Nat.mod_eq_of_lt (BitVec.isLt _)
  unfold Bank.rowMoved
  rw [Bank.v32_foldl_setV32 d _ _ _ (fun j hj => by have := List.mem_range.mp hj; split <;> omega) k r hi, hacc]
  cases upper with
  | true =>
    simp only [if_true, iff_true, List.mem_range]
    by_cases h : 64 ≤ i
    · rw [show i % 64 = i - 64 by omega]
      exact if_congr (and_congr_right fun _ => by omega) rfl rfl
    · simp [h]
  | false =>
    simp only [Bool.false_eq_true, if_false, iff_false, List.mem_range, Nat.sub_zero]
    by_cases h : 64 ≤ i
    · have h2 : ¬ i < 64 := by omega
      simp [h, h2]
    · rw [show i % 64 = i by omega]
      exact if_congr (and_congr_right fun _ => by omega) rfl rfl

theorem Bank.retire_of_butV {x k : Bank} (h : x.butV = k.butV) : { x.retire with vReg := k.vReg } = retired k :=
  congrArg (fun y : Bank => { y.retire with vReg := k.vReg }) h

/-- A bank after ACC.ZERO. -/
def Bank.accZeroed (a : Nat) (k : Bank) : Bank :=
  { k with acc := k.acc.filter fun e => decide (e.1 < a * 2048 ∨ a * 2048 + 2048 ≤ e.1) }

theorem Bank.accAt_accZeroed (a : Nat) (k : Bank) {c r j : Nat} (hr : r < 32) (hj : j < 64) :
    (k.accZeroed a).accAt c r j = if c = a then 0 else k.accAt c r j := by
  unfold Bank.accAt Bank.accZeroed
  rw [Tab.get_filter_key _ _ fun e => decide (e < a * 2048 ∨ a * 2048 + 2048 ≤ e)]
  by_cases h : c = a
  · have hin : ¬ (accKey c r j < a * 2048 ∨ a * 2048 + 2048 ≤ accKey c r j) := by unfold accKey; omega
    simp [h, h ▸ hin]
  · have hout : accKey c r j < a * 2048 ∨ a * 2048 + 2048 ≤ accKey c r j := by unfold accKey; omega
    simp [h, hout]

/-- ACC.MOV and ACC.ZERO: what each writes, nothing else of the bank. -/
theorem accumulatorMoves : Stated.AccumulatorMoves := by
  intro t b a s hr
  refine ⟨fun row d upper => ⟨s.done t b (Bank.rowMoved a row d upper),
      exec_of_run (f := fun _ s => s.done t b (Bank.rowMoved a row d upper)) hr rfl, ?_⟩,
    ⟨s.done t b (Bank.accZeroed a),
      exec_of_run (f := fun _ s => s.done t b (Bank.accZeroed a)) hr rfl, ?_⟩⟩
  · have hb := (s.done_bankOnly t b (Bank.rowMoved a row d upper)).bank
    dsimp only
    rw [hb]
    refine ⟨Bank.retire_of_butV (Bank.butV_rowMoved a row d upper (s.bank t b)), fun r i hi => ?_⟩
    rw [Bank.v32_retire]
    exact (Bank.v32_rowMoved a row d upper (s.bank t b) r hi).trans (if_congr (and_congr_left fun _ => Fin.ext_iff.symm) rfl rfl)
  · have hb := (s.done_bankOnly t b (Bank.accZeroed a)).bank
    dsimp only
    rw [hb]
    refine ⟨rfl, fun c r hr j hj => ?_⟩
    exact (Bank.accAt_accZeroed a (s.bank t b) hr hj).trans (if_congr Fin.ext_iff.symm rfl rfl)

/-! ### The check of the operands' lines -/

/-- The memory is as it was, and every tile but for the state of its SRAM. -/
structure SrmOnly (s u : State) : Prop where
  mem : u.mem = s.mem
  tile : ∀ j, { u.tile j with srm := (s.tile j).srm } = s.tile j

theorem SrmOnly.refl (s : State) : SrmOnly s s := ⟨rfl, fun _ => rfl⟩

theorem SrmOnly.trans {s t u : State} (h : SrmOnly s t) (k : SrmOnly t u) : SrmOnly s u where
  mem := k.mem.trans h.mem
  tile j := (congrArg (fun x : Tile => { x with srm := (s.tile j).srm }) (k.tile j)).trans (h.tile j)

theorem SrmOnly.modSrm (s : State) (t : Nat) (f : Srm → Srm) : SrmOnly s (s.modSrm t f) where
  mem := rfl
  tile j := by
    rw [State.tile_modSrm]
    split
    · rename_i h; subst h; rfl
    · rfl

theorem SrmOnly.bank_eq {s u : State} (h : SrmOnly s u) (t b : Nat) : u.bank t b = s.bank t b := by
  have hb := congrArg (fun x : Tile => x.bank b) (h.tile t)
  exact hb

/-- A line whose check comes out clean leaves its count at most. -/
theorem State.sramCheck_clean {s : State} {t off : Nat} {e : Ecc} (h : (s.sramCheck t off e).1 = 0) :
    SrmOnly s (s.sramCheck t off e).2 := by
  revert h
  unfold State.sramCheck
  split
  · exact nofun
  dsimp only
  split
  · exact nofun
  split
  · exact nofun
  · intro _
    dsimp only
    split
    · exact SrmOnly.modSrm s t _
    · exact .refl s

/-- Lines that are all read leave their counts at most. -/
theorem State.linesCheck_clean {s : State} {t b : Nat} {rs : List (Nat × Nat)} {found : List (Fin 393216 × Ecc)}
    (h : (s.linesCheck t b rs found).1 = none) : SrmOnly s (s.linesCheck t b rs found).2 := by
  unfold State.linesCheck at h ⊢
  dsimp only at h ⊢
  revert h
  refine List.foldlRecOn (motive := fun acc : Option Nat × State => acc.1 = none → SrmOnly s acc.2) _ _
    (fun _ => .refl s) fun acc hacc l _ => ?_
  split
  · exact hacc
  · rename_i hnone
    split
    · rename_i hz
      exact fun _ => (hacc (by simpa using hnone)).trans (State.sramCheck_clean hz)
    · exact fun h => absurd h (by simp)

/-! ### Accumulator elements -/

/-- What a write of accumulator elements does not touch. -/
def Bank.butAcc (k : Bank) : Bank := { k with acc := [] }

theorem Bank.accAt_setAcc (k : Bank) (a i j v c r l : Nat) (hi : i < 32) (hj : j < 64) (hr : r < 32) (hl : l < 64) :
    (k.setAcc a i j v).accAt c r l = if c = a ∧ (r, l) = (i, j) then v % 2 ^ 32 else k.accAt c r l := by
  have hkey : accKey c r l = accKey a i j ↔ c = a ∧ (r, l) = (i, j) := by
    simp only [accKey, Prod.mk.injEq]
    omega
  simp only [Bank.accAt, Bank.setAcc, Tab.get_insert, hkey]
  split <;> simp

/-- Elements of one accumulator written one by one, each with the value of its place. -/
theorem Bank.foldl_setAcc (a : Nat) (val : Nat × Nat → Nat × AFlags) (cells : List (Nat × Nat))
    (hc : ∀ x ∈ cells, x.1 < 32 ∧ x.2 < 64) (k : Bank) :
    let x := (cells.map fun c => (c, val c)).foldl (fun k o => k.setAcc a o.1.1 o.1.2 o.2.1) k
    x.butAcc = k.butAcc ∧ ∀ c, ∀ r < 32, ∀ l < 64, x.accAt c r l =
      if c = a ∧ (r, l) ∈ cells then (val (r, l)).1 % 2 ^ 32 else k.accAt c r l := by
  induction cells generalizing k with
  | nil => exact ⟨rfl, fun c r _ l _ => by simp⟩
  | cons y cells ih =>
    obtain ⟨hb, hv⟩ := ih (fun x hx => hc x (by simp [hx])) (k.setAcc a y.1 y.2 (val y).1)
    obtain ⟨hy1, hy2⟩ := hc y (by simp)
    refine ⟨hb, fun c r hr l hl => (hv c r hr l hl).trans ?_⟩
    rw [k.accAt_setAcc a y.1 y.2 _ c r l hy1 hy2 hr hl]
    by_cases hca : c = a
    · by_cases hm : (r, l) ∈ cells
      · simp [hca, hm]
      · by_cases hry : (r, l) = y
        · simp [hca, ← hry]
        · simp [hca, hm, hry]
    · simp [hca]

/-- The cells of the first rows and columns. -/
theorem mem_cells {rows cols : Nat} {r c : Nat} :
    (r, c) ∈ ((List.range rows).flatMap fun i => (List.range cols).map fun j => (i, j)) ↔ r < rows ∧ c < cols := by
  simp

/-! ### MMA.B and MMA.V -/

/-- The elements of the accumulator that a matrix instruction of `rows` rows and `cols` columns writes. -/
def mmaCells (rows cols : Nat) : List (Nat × Nat) :=
  (List.range rows).flatMap fun i => (List.range cols).map fun j => (i, j)

/-- What a matrix instruction leaves in element `c` of its accumulator. -/
def State.mmaCell (s : State) (t b : Nat) (k : Bank) (op : Mma) (oa ob : Opnd) (c : Nat × Nat) : Nat × AFlags :=
  s.mmaElem t b oa ob (groupSize oa.fmt ob.fmt) op.k.toNat c.1 c.2
    ((op.k.toNat + groupSize oa.fmt ob.fmt - 1) / groupSize oa.fmt ob.fmt) 0 (k.accAt op.acc c.1 c.2, 0)

/-- The elements written into a bank's accumulator. -/
def Bank.mmaWritten (a : Nat) (val : Nat × Nat → Nat × AFlags) (cells : List (Nat × Nat)) (k : Bank) : Bank :=
  (cells.map fun c => (c, val c)).foldl (fun k o => k.setAcc a o.1.1 o.1.2 o.2.1) k

/-- What the retired bank holds after a matrix instruction. -/
structure MmaEnd (s : State) (t b : Nat) (op : Mma) (oa ob : Opnd) (rows : Nat) (u : State) : Prop where
  mem : u.mem = s.mem
  matrix : (u.tile t).matrix = true
  frame : ∃ g, { (u.bank t b).butAcc with flags := 0 } = { (s.bank t b).retire.butAcc with flags := 0 } ∧
    (u.bank t b).flags = (s.bank t b).flags ||| g
  elem : ∀ a : Fin 4, ∀ r < 32, ∀ c < 64, (u.bank t b).accAt a r c =
    if a = op.acc ∧ r < rows ∧ c < op.ncol.toNat then (s.mmaCell t b (s.bank t b) op oa ob (r, c)).1 % 2 ^ 32
    else (s.bank t b).accAt a r c

/-- A matrix instruction whose operands are read, pair and are clean. -/
theorem State.mmaRun_end {s : State} {t b : Nat} {op : Mma} {rows : Nat} {oa ob : Opnd} {found : List (Fin 393216 × Ecc)}
    (hk : op.k ≠ 0) (hc : op.ncol ≠ 0) (hc64 : op.ncol.toNat ≤ 64) (hrows : rows ≤ 32)
    (ha : s.opnd t b ((s.bank t b).s op.sa).toNat rows op.k.toNat = .ok oa)
    (hb : s.opnd t b ((s.bank t b).s op.sb).toNat op.ncol.toNat op.k.toNat = .ok ob) (hp : pairOk oa.fmt ob.fmt = true)
    (hl : (s.linesCheck t b ((((s.bank t b).s op.sa).toNat, 16) :: (((s.bank t b).s op.sb).toNat, 16) ::
      oa.ranges rows op.k.toNat ++ ob.ranges op.ncol.toNat op.k.toNat) found).1 = none) :
    MmaEnd s t b op oa ob rows (s.mmaRun t b (s.bank t b) op rows found) := by
  have hn : ¬ (op.k.toNat = 0 ∨ op.ncol.toNat = 0 ∨ 64 < op.ncol.toNat) := by
    have h1 : op.k.toNat ≠ 0 := fun h => hk (BitVec.eq_of_toNat_eq h)
    have h2 : op.ncol.toNat ≠ 0 := fun h => hc (BitVec.eq_of_toNat_eq h)
    omega
  have hs := State.linesCheck_clean hl
  unfold State.mmaRun
  simp only [hn, if_false, ha, hb, hp, hl, Bool.not_true, Bool.false_eq_true]
  generalize (s.linesCheck t b _ found).2 = v at hs ⊢
  obtain ⟨hbut, hacc⟩ := Bank.foldl_setAcc op.acc (s.mmaCell t b (s.bank t b) op oa ob) (mmaCells rows op.ncol.toNat)
    (fun x hx => by have := mem_cells.mp (show (x.1, x.2) ∈ _ from hx); omega) (s.bank t b)
  generalize List.foldl _ (0 : AFlags) _ = g
  have hbank : (v.modTile t fun x => { x with matrix := true, barIdle := false }).bank t b = s.bank t b :=
    (by simp [State.bank, Tile.bank] : _ = v.bank t b).trans (hs.bank_eq t b)
  have hv := (v.modTile t fun x => { x with matrix := true, barIdle := false }).vecEnd_bankOnly t b g
    (Bank.mmaWritten op.acc (s.mmaCell t b (s.bank t b) op oa ob) (mmaCells rows op.ncol.toNat))
  rw [hbank] at hv
  have hfl := congrArg Bank.flags hbut
  refine ⟨hv.mem.trans hs.mem, ?_, ⟨g, ?_, ?_⟩, fun a r hr c hcc => ?_⟩
  · rw [State.vecEnd, State.done, State.tile_modBank, if_pos rfl, State.tile_modTile, if_pos rfl]
    rfl
  · exact (congrArg (fun x : Bank => { x.butAcc with flags := 0 }) hv.bank).trans
      (congrArg (fun x : Bank => { x.retire with flags := 0 }) hbut)
  · exact (congrArg Bank.flags hv.bank).trans (congrArg (· ||| g) hfl)
  · exact (congrArg (Bank.accAt · a r c) hv.bank).trans ((hacc a r hr c hcc).trans
      (if_congr (and_congr Fin.ext_iff.symm mem_cells) rfl rfl))

/-- MMA.B and MMA.V: the products go to the elements of their rows and columns. -/
theorem matrixInstructions : Stated.MatrixInstructions := by
  intro t b op oa ob rows found i s hr hres hk hc hc64 hi k ha hb hp hl
  have hrun : exec i s = .next (s.mmaRun t b k op rows found) ∧ rows ≤ 32 := by
    rcases hi with ⟨rfl, hm, rfl⟩ | ⟨rfl, hm1, hm4, rfl⟩
    · refine ⟨(exec_of_run hr rfl).trans ?_, le_rfl⟩
      simp only [hres, hm, ne_eq, not_true_eq_false, if_false]
      rfl
    · have hm : ¬ (op.m = 0 ∨ 4 < op.m) := by bv_omega
      refine ⟨(exec_of_run hr rfl).trans ?_, by bv_omega⟩
      simp only [hres, hm, ne_eq, not_true_eq_false, if_false]
      rfl
  obtain ⟨hmem, hmat, ⟨g, hframe, hflags⟩, helem⟩ := State.mmaRun_end hk hc hc64 hrun.2 ha hb hp hl
  refine ⟨_, hrun.1, hmem, hmat, (congrArg Bank.pc hframe :), (congrArg Bank.progress hframe :),
    (congrArg Bank.sReg hframe :), (congrArg Bank.vReg hframe :), (congrArg Bank.pReg hframe :), ?_, helem⟩
  rw [hflags]
  exact flags_or_keeps _ _

/-- Settles O23: every matrix and accumulator instruction writes the elements of its row and column range, each with the sum
over its K range, and leaves the rest of the bank. -/
theorem matrixAndAccumulators : Obligations.MatrixAndAccumulators := ⟨matrixInstructions, accumulatorMoves⟩

end Sys2Proof.Machine
end

section
/-! SUPPORT. What losing a context, halting channels and letting them go on leave alone: the controls of every tile, and
the recovery's state but for LOST_MODULE and the holes that wait. -/

-- One proof after the other: those of this layer lean on each other, and side by side each holds a stack while it waits.
set_option Elab.async false

namespace Sys2Proof.Machine

/-- The recovery's state but for LOST_MODULE and the holes whose change waits. -/
def Rec.besides (r : Rec) : Rec := { r with lostModule := [], holes := [] }

/-- Every tile keeps its controls, the recovery its state. -/
structure Steady (s u : State) : Prop where
  controls : ∀ t, (u.tile t).controls = (s.tile t).controls
  rcv : u.rcv.besides = s.rcv.besides

namespace Steady

theorem refl (s : State) : Steady s s := ⟨fun _ => rfl, rfl⟩

theorem trans {s t u : State} (h : Steady s t) (k : Steady t u) : Steady s u :=
  ⟨fun j => (k.controls j).trans (h.controls j), k.rcv.trans h.rcv⟩

/-- An operation after others. -/
theorem after {s t u : State} (k : Steady t u) (h : Steady s t) : Steady s u := h.trans k

theorem each {α : Type} (s : State) (l : List α) (f : State → α → State) (hf : ∀ s x, Steady s (f s x)) :
    Steady s (s.each l f) := by
  induction l generalizing s with
  | nil => exact refl s
  | cons x l ih => exact (hf s x).trans (ih (f s x))

theorem when (s : State) (c : Bool) (f : State → State) (hf : Steady s (f s)) : Steady s (s.when c f) := by
  cases c
  · exact refl s
  · exact hf

theorem ite {s a b : State} {c : Prop} [Decidable c] (ha : c → Steady s a) (hb : ¬c → Steady s b) :
    Steady s (if c then a else b) := by
  split
  · exact ha ‹_›
  · exact hb ‹_›

theorem modTile (s : State) (t : Nat) (f : Tile → Tile) (hf : ∀ x, (f x).controls = x.controls) : Steady s (s.modTile t f) where
  controls j := by
    rw [State.tile_modTile]
    split
    · rename_i h; subst h; exact hf _
    · rfl
  rcv := rfl

theorem modBank (s : State) (t b : Nat) (f : Bank → Bank) : Steady s (s.modBank t b f) := modTile s t _ fun _ => rfl
theorem modChan (s : State) (t c : Nat) (f : Chan → Chan) : Steady s (s.modChan t c f) := modTile s t _ fun _ => rfl

theorem role {s u : State} (h : Steady s u) (t : Nat) : (u.tile t).role = (s.tile t).role :=
  (congrArg Tile.role (h.controls t) :)
theorem stopDead {s u : State} (h : Steady s u) (t : Nat) : (u.tile t).stopDead = (s.tile t).stopDead :=
  (congrArg Tile.stopDead (h.controls t) :)
theorem isolations {s u : State} (h : Steady s u) : u.rcv.isolations = s.rcv.isolations := (congrArg Rec.isolations h.rcv :)
theorem shifts {s u : State} (h : Steady s u) : u.rcv.shifts = s.rcv.shifts := (congrArg Rec.shifts h.rcv :)
theorem seq {s u : State} (h : Steady s u) : u.rcv.seq = s.rcv.seq := (congrArg Rec.seq h.rcv :)

theorem recovering {s u : State} (h : Steady s u) (half : Nat) : u.recovering half = s.recovering half := by
  have hst : u.rcv.st = s.rcv.st := (congrArg Rec.st h.rcv :)
  have hhalf : u.rcv.half = s.rcv.half := (congrArg Rec.half h.rcv :)
  unfold State.recovering
  rw [hst, hhalf]

end Steady

/-- What touches neither the tiles nor the recovery is steady. -/
theorem Within.steady {M : List Block} {s u : State} (h : Within M s u) (ht : M.contains .tiles = false := by decide)
    (hr : M.contains .rcv = false := by decide) : Steady s u :=
  ⟨fun t => by rw [h.tile_eq ht t], by rw [h.rcv_eq hr]⟩

/-- A calm operation that does not touch the recovery is steady. -/
theorem Calm.steady {M : List Block} {s u : State} (h : Calm s u) (k : Within M s u)
    (hr : M.contains .rcv = false := by decide) : Steady s u :=
  ⟨fun t => (h.tile t).controls, by rw [k.rcv_eq hr]⟩

/-! ### Losing a context -/

theorem State.dropRef_steady (s : State) (cid : Cid) (i : Nat) : Steady s (s.dropRef cid i) :=
  (s.dropRef_calm cid i).steady (s.dropRef_within cid i)

theorem State.dropBankWaits_steady (s : State) (t b : Nat) : Steady s (s.dropBankWaits t b) :=
  (s.dropBankWaits_calm t b).steady (s.dropBankWaits_within t b)

theorem State.complete_steady (s : State) (e : Nat) (index : Word) (status info : Nat) (write : Bool) :
    Steady s (s.complete e index status info write) :=
  (s.complete_calm e index status info write).steady (s.complete_within e index status info write)

theorem State.haltChan_steady (s : State) (t c : Nat) (cid : Cid) : Steady s (s.haltChan t c cid) :=
  ⟨(s.haltChan_halting t c cid).controls, by rw [(s.haltChan_within t c cid).rcv_eq (by decide)]⟩

theorem State.purgeBank_steady (s : State) (t b : Nat) : Steady s (s.purgeBank t b) := by
  unfold State.purgeBank
  refine Steady.ite (fun _ => .refl s) fun _ => ?_
  refine (State.tileSignal_within _ _).steady.after ((State.modMesh_within _ _).steady.after ?_)
  refine (State.dropMigration_within _ _ _).steady.after ((State.dropBankWaits_steady _ _ _).after ?_)
  exact (Steady.each _ _ _ fun s c => s.haltChan_steady _ _ _).after (Steady.modBank s t b _)

theorem State.loseContext_steady (s : State) (cid : Cid) (ctx : Ctx) (at_ : Option (Nat × Nat)) (seq : Nat) :
    Steady s (s.loseContext cid ctx at_ seq) := by
  have hcore : ∀ r, Steady s ((((s.modRes r fun x => { x with lost := true, stalled := false, held := none }).each
      (((s.modRes r fun x => { x with lost := true, stalled := false, held := none }).ctxBanks cid ctx).filter
        fun x => decide (some x ≠ at_)) fun s x => s.purgeBank x.1 x.2))) := fun r =>
    (Steady.each _ _ _ fun s x => s.purgeBank_steady _ _).after (s.modRes_within _ _).steady
  unfold State.loseContext
  split
  · exact .refl s
  refine Steady.ite (fun _ => .refl s) fun _ => ?_
  dsimp only
  split
  · refine (State.dropMigration_within _ _ _).steady.after ((State.dropBankWaits_steady _ _ _).after ?_)
    refine (Steady.each _ _ _ fun s c => ?_).after (hcore _)
    exact Steady.ite (fun _ => .refl s) fun _ => s.complete_steady _ _ _ _ _
  · refine (Steady.each _ _ _ fun s c => ?_).after (hcore _)
    exact Steady.ite (fun _ => .refl s) fun _ => s.complete_steady _ _ _ _ _

theorem State.ctxFault_steady (s : State) (cid : Cid) (ctx : Ctx) (kind code : Nat) (body : Bytes) (at_ : Option (Nat × Nat)) :
    Steady s (s.ctxFault cid ctx kind code body at_) := by
  unfold State.ctxFault
  split
  · refine Steady.ite (fun _ => .refl s) fun _ => Steady.ite (fun _ => (s.fqDrop_within _).steady) fun _ => ?_
    split
    · exact (State.loseContext_steady _ _ _ _ _).after (s.fqDrop_within _).steady
    · refine Steady.ite (fun _ => ?_) fun _ => ?_
      · exact (State.loseContext_steady _ _ _ _ _).after (s.fqWrite_within _ _ _ _ _ _ _).steady
      · exact (State.pulse_within _ _).steady.after
          ((State.modRes_within _ _ _).steady.after (s.modQue_within _).steady)
  · exact .refl s

theorem State.countLost_steady (s : State) (cid : Cid) : Steady s (s.countLost cid) := by
  unfold State.countLost
  split
  · exact ⟨fun _ => rfl, rfl⟩
  · exact .refl s

theorem State.faultBank_steady (s : State) (t b code detail : Nat) : Steady s (s.faultBank t b code detail) := by
  unfold State.faultBank
  refine (State.tileSignal_within _ _).steady.after ((Steady.each _ _ _ fun s c => ?_).after (Steady.modBank s t b _))
  exact (Steady.modChan _ _ _ _).after (s.haltChan_steady _ _ _)

theorem State.tileFault_steady (s : State) (t b code detail : Nat) : Steady s (s.tileFault t b code detail) := by
  unfold State.tileFault
  refine Steady.ite (fun _ => .refl s) fun _ => (State.ctxFault_steady _ _ _ _ _ _ _).after ?_
  exact (Steady.ite (fun _ => State.countLost_steady _ _) fun _ => .refl _).after (s.faultBank_steady _ _ _ _)

theorem State.bankLost_steady (s : State) (t b code detail : Nat) : Steady s (s.bankLost t b code detail) := by
  unfold State.bankLost
  refine Steady.ite (fun _ => .refl s) fun _ => ?_
  refine Steady.ite (fun _ => s.faultBank_steady _ _ _ _) fun _ => (State.ctxFault_steady _ _ _ _ _ _ _).after ?_
  exact (State.countLost_steady _ _).after (s.faultBank_steady _ _ _ _)

/-! ### Channels go on -/

/-- An answer, where there is one, is steady. -/
def Steady.Opt (s : State) (o : Option State) : Prop := ∀ u ∈ o, Steady s u

theorem Steady.Opt.none {s : State} : Steady.Opt s none :=
  fun u hu => absurd hu (Option.not_mem_none u)

theorem Steady.Opt.some {s u : State} (h : Steady s u) : Steady.Opt s (some u) := by
  rintro _ ⟨⟩
  exact h

theorem State.issue_steady (s : State) (who : Issuer) (stop : Nat) (p : Packet) (tgt : Target) (via : Option (Nat × Nat)) :
    Steady.Opt s (s.issue who stop p tgt via) := by
  intro u hu
  exact (Holds.get (s.issue_within who stop p tgt via) hu).steady

theorem State.writeMpa_steady (s : State) (w : Who) (mpa : Nat) (data : Line) (be : DWord) (ecc : Ecc) :
    Steady s (s.writeMpa w mpa data be ecc).2 :=
  (s.writeMpa_calm w mpa data be ecc).steady (s.writeMpa_within w mpa data be ecc)

theorem State.readMpa_steady (s : State) (w : Who) (scopeAny : Bool) (mpa : Nat) (ecc : Ecc) :
    Steady s (s.readMpa w scopeAny mpa ecc).2.2 :=
  (s.readMpa_calm w scopeAny mpa ecc).steady (s.readMpa_within w scopeAny mpa ecc)

theorem State.endWait_steady (s : State) (t b sd status : Nat) : Steady s (s.endWait t b sd status) :=
  Steady.modTile s t _ fun _ => rfl

theorem State.waitEnds_steady (s : State) (w : SyncEntry) (status : Nat) : Steady s (s.waitEnds w status) := by
  have hq := (s.modQue_within fun q => { q with waits := q.waits.filter fun x => decide (x.who ≠ w.who) }).steady
  unfold State.waitEnds
  dsimp only
  split
  · refine (State.dropRef_steady _ _ _).after ?_
    split
    · exact (State.endWait_steady _ _ _ _ _).after hq
    · exact (State.endWait_steady _ _ _ _ _).after hq
    · exact hq
  · exact (State.complete_steady _ _ _ _ _ _).after ((State.dropRef_steady _ _ _).after hq)

theorem State.syncStore_steady (s : State) (cid : Cid) (e : ObjEntry) (mpa : Nat) (l : Line) :
    Steady s (s.syncStore cid e mpa l) := s.writeMpa_steady _ _ _ _ _

theorem State.signalFence_steady (s : State) (cid : Cid) (e : ObjEntry) (v : Nat) :
    ∀ r ∈ s.signalFence cid e v, Steady s r.2 := by
  unfold State.signalFence
  split
  · exact fun r hr => absurd hr (Option.not_mem_none r)
  dsimp only
  split
  · rintro _ ⟨⟩
    exact s.syncStore_steady _ _ _ _
  · rintro _ ⟨⟩
    refine (Steady.each _ _ _ fun s w => s.waitEnds_steady _ _).after ?_
    refine (Steady.ite (fun _ => ?_) fun _ => .refl _).after (s.syncStore_steady _ _ _ _)
    generalize State.boundFunc _ cid = hf
    cases hf with
    | none => exact .refl _
    | some hf => exact (State.msix_within _ _ _ _).steady

theorem State.signalRef_steady (s : State) (cid : Cid) (i v : Nat) : ∀ r ∈ s.signalRef cid i v, Steady s r.2 := by
  unfold State.signalRef
  split
  · exact s.signalFence_steady _ _ _
  · exact fun r hr => absurd hr (Option.not_mem_none r)

theorem State.writeBack_steady (s : State) (t ch : Nat) : Steady.Opt s (s.writeBack t ch) := by
  unfold State.writeBack
  dsimp only
  split
  · refine .some (Steady.ite (fun _ => s.writeMpa_steady _ _ _ _ _) fun _ => ?_)
    exact (State.tileFault_steady _ _ _ _ _).after (s.writeMpa_steady _ _ _ _ _)
  · exact s.issue_steady _ _ _ _ _
  · exact .some (.refl s)

theorem State.settleDone_steady (s : State) (t ch : Nat) : Steady s (s.settleDone t ch) := by
  unfold State.settleDone
  dsimp only
  split
  · exact .refl s
  rename_i w hw
  have h := (Steady.modChan w t ch fun c => { c with due := false, fenceRef := none, stopping := false }).after
    (s.writeBack_steady t ch w hw)
  split
  · exact h
  refine (State.dropRef_steady _ _ _).after (Steady.after (Steady.ite (fun _ => .refl _) fun _ => ?_) h)
  split
  · exact State.signalRef_steady _ _ _ _ _ ‹_›
  · exact State.tileFault_steady _ _ _ _ _

theorem State.wakeChan_steady (s : State) (t ch : Nat) : Steady s (s.wakeChan t ch) :=
  Steady.each _ _ _ fun s b => by
    split
    · exact Steady.ite (fun _ => Steady.modTile s t _ fun _ => rfl) fun _ => .refl s
    · exact .refl s

theorem State.finishChan_steady (s : State) (t ch : Nat) : Steady s (s.finishChan t ch) :=
  (State.wakeChan_steady _ t ch).after ((State.settleDone_steady _ t ch).after (Steady.modChan s t ch _))

theorem State.countLines_steady (s : State) (t ch n : Nat) : Steady s (s.countLines t ch n) :=
  (Steady.modBank _ _ _ _).after (Steady.modChan s t ch _)

theorem State.copyPut_steady (s : State) (t ch n : Nat) (data : Line) : Steady.Opt s (s.copyPut t ch n data) := by
  unfold State.copyPut
  dsimp only
  split
  · split
    · exact .some ((State.tileFault_steady _ _ _ _ _).after (s.writeMpa_steady _ _ _ _ _))
    · exact .some ((State.countLines_steady _ _ _ _).after ((Steady.modChan _ _ _ _).after (s.writeMpa_steady _ _ _ _ _)))
  · exact s.issue_steady _ _ _ _ _
  · exact .some (.refl s)

theorem State.copyGet_steady (s : State) (t ch : Nat) (ecc : Ecc) : Steady.Opt s (s.copyGet t ch ecc) := by
  unfold State.copyGet
  dsimp only
  split
  · exact .none
  split
  · split
    · intro u hu
      exact (State.copyPut_steady _ _ _ _ _ u hu).after ((Steady.modChan _ _ _ _).after (s.readMpa_steady _ _ _ _))
    · exact .some ((State.tileFault_steady _ _ _ _ _).after ((Steady.modChan _ _ _ _).after (s.readMpa_steady _ _ _ _)))
  · intro u hu
    obtain ⟨v, hv, rfl⟩ := Option.mem_map.mp hu
    exact (Steady.modChan _ _ _ _).after (s.issue_steady _ _ _ _ _ v hv)
  · exact .some (Steady.modChan s t ch _)

theorem State.copyPump_steady (s : State) (t ch : Nat) (ecc : Ecc) (fuel : Nat) : Steady s (s.copyPump t ch ecc fuel) := by
  induction fuel generalizing s ecc with
  | zero => exact .refl s
  | succ fuel ih =>
    unfold State.copyPump
    refine Steady.ite (fun _ => .refl s) fun _ => Steady.ite (fun _ => .refl s) fun _ => Steady.ite (fun _ => ?_) fun _ => .refl s
    split
    · exact (ih _ _).after (s.copyGet_steady t ch ecc _ ‹_›)
    · exact .refl s

theorem State.copySettle_steady (s : State) (t ch : Nat) : Steady s (s.copySettle t ch) := by
  unfold State.copySettle
  exact Steady.ite (fun _ => State.finishChan_steady _ _ _) fun _ => .refl _

theorem State.copyRun_steady (s : State) (t ch : Nat) (ecc : Ecc) : Steady s (s.copyRun t ch ecc) :=
  (State.copySettle_steady _ t ch).after (s.copyPump_steady t ch ecc _)

theorem State.pumpTile_steady (s : State) (t : Nat) : Steady s (s.pumpTile t) :=
  Steady.each _ _ _ fun s _ => Steady.ite (fun _ => s.settleDone_steady _ _) fun _ =>
    Steady.ite (fun _ => s.copyRun_steady _ _ _) fun _ => .refl s

/-! ### Holes -/

/-- What a change of every entry does not touch reads as before, at listed keys and at unlisted ones. -/
theorem Tab.get_map_congr {α β : Type} (d : Nat → α) {f : α → α} {g : α → β} (hf : ∀ x, g (f x) = g x) (t : Tab α) (k : Nat) :
    g (Tab.get d (t.map fun e => (e.1, f e.2)) k) = g (Tab.get d t k) := by
  induction t with
  | nil => rfl
  | cons e t ih =>
    obtain ⟨j, v⟩ := e
    by_cases hj : j = k
    · simp [Tab.get, hj, hf]
    · simpa [Tab.get, hj] using ih

theorem State.dropLook_steady (s : State) (cid : Cid) : Steady s (s.dropLook cid) where
  controls j := Tab.get_map_congr Tile.reset (f := fun x => { x with look := x.look.filter fun e => decide (e.cid ≠ cid) })
    (fun _ => rfl) s.tiles j
  rcv := rfl

theorem State.bridleChange_steady (s : State) (slot : Nat) (cid : Cid) (moved : List Resource) (old : List (Resource × Owner)) :
    Steady s (s.bridleChange slot cid moved old) := by
  unfold State.bridleChange
  have hb : ∀ f, Steady s (s.modBrd f) := fun f => (s.modBrd_within f).steady
  refine Steady.ite (fun _ => hb _) fun _ => ?_
  exact (State.modFence_within _ _ _).steady.after ((State.modMesh_within _ _).steady.after ((State.dropLook_steady _ _).after (hb _)))

theorem State.itlumChange_steady (s : State) (cid : Cid) (moved : List Resource) (cause : Nat) (recs : List (Nat × Nat × Nat)) :
    Steady s (s.itlumChange cid moved cause recs) := by
  unfold State.itlumChange
  split
  · exact .refl s
  · refine (State.bridleChanged_within _ _ _ _ _ _).steady.after (Steady.after (Steady.when _ _ _ ?_) (s.bridleChange_steady _ _ _ _))
    exact (State.modFence_within _ _ _).steady

theorem State.holeChanges_steady (s : State) : Steady s s.holeChanges :=
  Steady.each _ _ _ fun s _ => Steady.ite (fun _ => .refl s) fun _ =>
    (State.itlumChange_steady _ _ _ _ _).after ⟨fun _ => rfl, rfl⟩

theorem State.loseQueues_steady (s : State) (t : Nat) : Steady s (s.loseQueues t) :=
  (s.loseQueues_calm t).steady (s.loseQueues_within t)

/-- A tile as it becomes a hole: out of the grid, bypassed by its neighbours. -/
def Tile.holed (x : Tile) : Tile :=
  { x.leave with nbr := x.nbr.both fun n => { n with nbr := { n.nbr with bypass := true } } }

/-- What goes before a tile becomes a hole: its contexts are lost, its hole waits for its changes, its waits and queues end. -/
def State.holing (s : State) (t : Nat) : State :=
  let s := s.each [0, 1, 2, 3] fun s b => s.bankLost t b 9 0
  let s := (s.modRcv fun r => { r with holes := r.holes ++ (s.tileCids t).map fun c => (t, c) }).holeChanges
  (s.each [0, 1, 2, 3] fun s b => s.dropBankWaits t b).loseQueues t

theorem State.makeHole_eq (s : State) (t : Nat) : s.makeHole t = ((s.holing t).modTile t Tile.holed).tileSignal t := rfl

theorem State.holing_steady (s : State) (t : Nat) : Steady s (s.holing t) := by
  have h1 : Steady s (s.each [0, 1, 2, 3] fun s b => s.bankLost t b 9 0) :=
    Steady.each _ _ _ fun s b => s.bankLost_steady _ _ _ _
  have h2 : ∀ (v : State) (l : Rec → List (Nat × Cid)), Steady v (v.modRcv fun r => { r with holes := l r }) :=
    fun _ _ => ⟨fun _ => rfl, rfl⟩
  unfold State.holing
  dsimp only
  refine (State.loseQueues_steady _ _).after (Steady.after (Steady.each _ _ _ fun s b => s.dropBankWaits_steady _ _) ?_)
  exact (State.holeChanges_steady _).after ((h2 _ _).after h1)

theorem Tile.holed_controls {x y : Tile} (h : y.controls = x.controls) : y.holed.controls = x.leave.controls := by
  have hl := congrArg (fun x : Tile => x.leave.controls) h
  exact hl

/-- A tile that becomes a hole leaves the grid; every other tile keeps its controls. -/
theorem State.makeHole_controls (s : State) (t j : Nat) :
    ((s.makeHole t).tile j).controls = if j = t then (s.tile t).leave.controls else (s.tile j).controls := by
  have hv := s.holing_steady t
  rw [State.makeHole_eq, (State.tileSignal_within _ t).tile_eq (by decide), State.tile_modTile]
  split
  · exact Tile.holed_controls (hv.controls t)
  · exact hv.controls j

theorem State.makeHole_rcv (s : State) (t : Nat) : (s.makeHole t).rcv.besides = s.rcv.besides := by
  rw [State.makeHole_eq, (State.tileSignal_within _ t).rcv_eq (by decide), State.modTile_rcv]
  exact (s.holing_steady t).rcv

theorem State.rowNbr_steady (s : State) (half row : Nat) : Steady s (s.rowNbr half row) :=
  Steady.each _ _ _ fun s v => Steady.modTile s v.1 _ fun _ => rfl

end Sys2Proof.Machine
end

section
/-! SUPPORT. A bank that waits for nothing through the loss of a context at it; the isolation of a tile and its drain (R71,
R73, R74, R473). -/

-- One proof after the other: those of this layer lean on each other, and side by side each holds a stack while it waits.
set_option Elab.async false

namespace Sys2Proof.Machine

/-! ### A faulted bank while its context is lost -/

/-- A bank that waits for nothing is as it was. -/
def BankStays (t b : Nat) (s u : State) : Prop := (s.bank t b).wait = none → u.bank t b = s.bank t b

namespace BankStays

theorem refl (t b : Nat) (s : State) : BankStays t b s s := fun _ => rfl

/-- An operation after others. -/
theorem after {t b : Nat} {s v u : State} (k : BankStays t b v u) (h : BankStays t b s v) : BankStays t b s u := fun hw =>
  (k (by rw [h hw]; exact hw)).trans (h hw)

theorem each {α : Type} {t b : Nat} (s : State) (l : List α) (f : State → α → State)
    (hf : ∀ s, ∀ x ∈ l, BankStays t b s (f s x)) : BankStays t b s (s.each l f) := by
  induction l generalizing s with
  | nil => exact refl t b s
  | cons x l ih =>
    exact after (ih (f s x) fun s y hy => hf s y (List.mem_cons_of_mem _ hy)) (hf s x List.mem_cons_self)

theorem ite {t b : Nat} {s v w : State} {c : Prop} [Decidable c] (ha : c → BankStays t b s v) (hb : ¬c → BankStays t b s w) :
    BankStays t b s (if c then v else w) := by
  split
  · exact ha ‹_›
  · exact hb ‹_›

end BankStays

theorem Within.bankStays {M : List Block} {s u : State} (h : Within M s u) (ht : M.contains .tiles = false := by decide)
    {t b : Nat} : BankStays t b s u := fun _ => h.bank_eq ht t b

theorem Halting.bankStays {s u : State} (h : Halting s u) {t b : Nat} : BankStays t b s u := h.bank t b

theorem Calm.bankStays {s u : State} (h : Calm s u) {t b : Nat} : BankStays t b s u := h.halting.bankStays

/-- A purge leaves every other bank. -/
theorem State.purgeBank_bankStays (s : State) {i j t b : Nat} (h : (i, j) ≠ (t, b)) : BankStays t b s (s.purgeBank i j) := by
  by_cases hst : (s.bank i j).st = .empty ∨ (s.bank i j).st = .purging
  · rw [State.purgeBank_ignored hst]
    exact .refl t b s
  rw [State.purgeBank_eq hst]
  refine (State.tileSignal_within _ _).bankStays.after ((State.modMesh_within _ _).bankStays.after ?_)
  refine (State.dropMigration_within _ _ _).bankStays.after ((s.purgeHalted_halting i j).bankStays.after fun _ => ?_)
  rw [State.bank_modBank, if_neg fun he => h (Prod.ext he.1.symm he.2.symm)]

theorem State.loseContext_bankStays (s : State) (cid : Cid) (ctx : Ctx) (t b seq : Nat) :
    BankStays t b s (s.loseContext cid ctx (some (t, b)) seq) := by
  unfold State.loseContext
  split
  · exact .refl t b s
  refine BankStays.ite (fun _ => .refl t b s) fun _ => ?_
  dsimp only
  refine (State.dropMigration_within _ _ _).bankStays.after ((State.dropBankWaits_calm _ _ _).bankStays.after ?_)
  refine (BankStays.each _ _ _ fun s c _ => BankStays.ite (fun _ => .refl t b s) fun _ =>
    (s.complete_calm _ _ _ _ _).bankStays).after ?_
  refine (BankStays.each _ _ _ fun s x hx => s.purgeBank_bankStays ?_).after (State.modRes_within _ _ _).bankStays
  have hne := of_decide_eq_true (List.mem_filter.mp hx).2
  exact fun h => hne (congrArg some h)

theorem State.ctxFault_bankStays (s : State) (cid : Cid) (ctx : Ctx) (kind code : Nat) (body : Bytes) (t b : Nat) :
    BankStays t b s (s.ctxFault cid ctx kind code body (some (t, b))) := by
  unfold State.ctxFault
  split
  · refine BankStays.ite (fun _ => .refl t b s) fun _ => BankStays.ite (fun _ => (s.fqDrop_within _).bankStays) fun _ => ?_
    split
    · exact (State.loseContext_bankStays _ _ _ _ _ _).after (s.fqDrop_within _).bankStays
    · refine BankStays.ite (fun _ => ?_) fun _ => ?_
      · exact (State.loseContext_bankStays _ _ _ _ _ _).after (s.fqWrite_within _ _ _ _ _ _ _).bankStays
      · exact (State.pulse_within _ _).bankStays.after
          ((State.modRes_within _ _ _).bankStays.after (s.modQue_within _).bankStays)
  · exact .refl t b s

/-- A bank as a fault leaves it (R71). -/
def Bank.faulted (code detail : Nat) (k : Bank) : Bank :=
  { k with st := .faulted, wait := none, inProg := false, fault := ⟨true, BitVec.ofNat 8 code, BitVec.ofNat 16 detail⟩ }

theorem State.bank_faultBank (s : State) (t b code detail : Nat) :
    (s.faultBank t b code detail).bank t b = (s.bank t b).faulted code detail := by
  have h0 : (s.modBank t b (Bank.faulted code detail)).bank t b = (s.bank t b).faulted code detail := by
    rw [State.bank_modBank, if_pos ⟨rfl, rfl⟩]
  rw [← h0]
  refine BankStays.after (State.tileSignal_within _ t).bankStays (BankStays.each _ _ _ fun s c _ => ?_) (by rw [h0]; rfl)
  exact BankStays.after (fun _ => State.bank_modChan _ _ _ _ _ _) (s.haltChan_halting _ _ _).bankStays

/-- A bank whose context is lost with a code is FAULTED with it. -/
theorem State.bank_bankLost {s : State} {t b : Nat} (h : ¬ ((s.bank t b).st = .empty ∨ (s.bank t b).st = .faulted))
    (code detail : Nat) : (s.bankLost t b code detail).bank t b = (s.bank t b).faulted code detail := by
  have hb := s.bank_faultBank t b code detail
  unfold State.bankLost
  rw [if_neg h]
  dsimp only
  rw [← hb]
  refine BankStays.ite (fun _ => .refl t b _) (fun _ => ?_) (by rw [hb]; rfl)
  exact (State.ctxFault_bankStays _ _ _ _ _ _ _ _).after (State.countLost_within _ _).bankStays

/-! ### Isolation -/

/-- A step that begins counts in REC_SEQ, all else it does are records. -/
theorem State.recBegin_rcv (s : State) (level half tile : Nat) (cids : List Cid) :
    (s.recBegin level half tile cids).rcv = { s.rcv with seq := s.rcv.seq + 1 } := by
  unfold State.recBegin
  dsimp only
  rw [(State.moduleRecords_within _ _ _ _).rcv_eq (by decide), (State.log_within _ _ _ _ _).rcv_eq (by decide)]
  rfl

/-- A serving tile of a half that does not recover, isolated already by none, is clamped and its isolation begins. -/
theorem State.isolate_begins {s : State} {t : Nat} (hr : s.recovering (t / 272) = false) (hg : (s.tile t).role = .grid)
    (hi : ∀ i ∈ s.rcv.isolations, i.tile ≠ t) (by_ : Bool) :
    (s.isolate t by_).tile t = { s.tile t with clamp := true, clamped := true } ∧
      (s.isolate t by_).rcv =
        { s.rcv with seq := s.rcv.seq + 1, isolations := s.rcv.isolations ++ [⟨t, by_, s.rcv.seq + 1⟩] } := by
  have hguard : ¬ (s.recovering (t / 272) = true ∨ s.rcv.isolations.any (fun i => decide (i.tile = t)) = true ∨
      (s.tile t).role ≠ .grid) := by
    simpa [hr, hg] using hi
  unfold State.isolate
  rw [if_neg hguard]
  dsimp only
  constructor
  · rw [(State.modRcv_within _ _).tile_eq (by decide), (State.recBegin_within _ _ _ _ _).tile_eq (by decide),
      State.tile_modTile, if_pos rfl]
  · rw [State.modRcv_rcv, State.recBegin_rcv]
    rfl

/-- A purge past its time: its bank is FAULTED, its tile's isolation begins. -/
theorem purgeTimeoutIsolates : Stated.PurgeTimeoutIsolates := by
  intro t b s hst hr hg hi
  refine ⟨_, if_neg (by simp [hst, hr]), ?_⟩
  have hlost := s.bankLost_steady t b 8 0
  have hop : ∀ v : State, Within _ v (v.opDone 0x0901 (s.bank t b).cid (0x10000 + (s.bank t b).ctx.toNat) 0 1 0) :=
    fun v => v.opDone_within _ _ _ _ _ _
  have hs := (hop _).steady.after hlost
  have hbank := State.bank_bankLost (s := s) (t := t) (b := b) (by simp [hst]) 8 0
  rw [← (hop _).bank_eq (by decide)] at hbank
  generalize (s.bankLost t b 8 0).opDone 0x0901 (s.bank t b).cid (0x10000 + (s.bank t b).ctx.toNat) 0 1 0 = v at hs hbank ⊢
  obtain ⟨htile, hrcv⟩ := State.isolate_begins (s := v) (t := t) (by rw [hs.recovering, hr]) (by rw [hs.role, hg])
    (by rw [hs.isolations]; exact hi) false
  have hb : (v.isolate t false).bank t b = (s.bank t b).faulted 8 0 := by
    rw [← hbank]
    have hx := congrArg (fun x : Tile => x.bank b) htile
    exact hx
  refine ⟨by rw [hb]; rfl, by rw [hb]; rfl, by rw [htile], by rw [htile], ?_, by rw [hrcv, hs.seq]⟩
  rw [hrcv]
  exact ⟨_, List.mem_append_right _ List.mem_cons_self, rfl, rfl⟩

/-! ### The drain -/

/-- The spare of a row depends on the roles and the dead stops alone. -/
theorem State.rowSpare_congr {s u : State} (hr : ∀ t, (u.tile t).role = (s.tile t).role)
    (hd : ∀ t, (u.tile t).stopDead = (s.tile t).stopDead) (half row : Nat) : u.rowSpare half row = s.rowSpare half row := by
  unfold State.rowSpare
  simp only [hr, hd]

/-- A row with a spare gets a shift toward it, and nothing else changes. -/
theorem State.leaveRow_spare {s : State} {t k : Nat} (h : s.rowSpare (t / 272) (t % 272 / 17) = some k) (shell : Bool) :
    ∃ cids, s.leaveRow t shell = s.modRcv fun r => { r with shifts := r.shifts ++
      [{ half := t / 272, row := t % 272 / 17, failed := t, skip := k, shellFailed := shell, cids := cids }] } := by
  unfold State.leaveRow
  simp only [h]
  exact ⟨_, rfl⟩

theorem State.leaveRow_hole {s : State} {t : Nat} (h : s.rowSpare (t / 272) (t % 272 / 17) = none) (shell : Bool) :
    s.leaveRow t shell = s.makeHole t := by
  unfold State.leaveRow
  simp only [h]

/-- The end of a tile's isolation touches no tile, and the recovery's isolations alone. -/
theorem State.endIsolation_rcv (s : State) (t : Nat) (escalated : Bool) (cids : List Cid) :
    (s.endIsolation t escalated cids).rcv =
      { s.rcv with isolations := s.rcv.isolations.filter fun i => decide (i.tile ≠ t) } := by
  unfold State.endIsolation
  split
  · rename_i hnone
    have hself : s.rcv.isolations.filter (fun i => decide (i.tile ≠ t)) = s.rcv.isolations := by
      rw [List.filter_eq_self]
      simpa using hnone
    rw [hself]
  · dsimp only
    cases escalated
    · rw [Bool.not_false, State.when_true, (State.opDone_within _ _ _ _ _ _ _).rcv_eq (by decide),
        (State.recEnd_within _ _ _ _ _ _ _ _).rcv_eq (by decide)]
      rfl
    · rw [Bool.not_true, State.when_false, (State.recEnd_within _ _ _ _ _ _ _ _).rcv_eq (by decide)]
      rfl

theorem State.endIsolation_tile (s : State) (t : Nat) (escalated : Bool) (cids : List Cid) (j : Nat) :
    (s.endIsolation t escalated cids).tile j = s.tile j := (s.endIsolation_within t escalated cids).tile_eq (by decide) j

theorem State.endIsolation_none (s : State) (t : Nat) (escalated : Bool) (cids : List Cid) :
    ∀ i ∈ (s.endIsolation t escalated cids).rcv.isolations, i.tile ≠ t := by
  rw [State.endIsolation_rcv]
  intro i hi
  exact of_decide_eq_true (List.mem_filter.mp hi).2

/-- A tile that has left the grid: retired, its power and clamp bits as they were. -/
theorem Tile.left_of_controls {x y : Tile} (h : y.controls = x.leave.controls) :
    y.role = .retired ∧ y.lcol = 0x1F ∧ y.gate = x.gate ∧ y.clamp = x.clamp ∧ y.clamped = x.clamped ∧
      y.stopDead = x.stopDead :=
  ⟨(congrArg Tile.role h :), (congrArg Tile.lcol h :), (congrArg Tile.gate h :), (congrArg Tile.clamp h :),
    (congrArg Tile.clamped h :), (congrArg Tile.stopDead h :)⟩

/-- A tile whose core is gated. -/
def Tile.gated (x : Tile) : Tile := { x with gate := true }

/-- A drained tile is gated and leaves its row; one that does not drain takes its half to recovery. -/
theorem isolationDrains : Stated.IsolationDrains := by
  have hdue : ∀ (t : TileIx) (s : State), (∃ i ∈ s.rcv.isolations, i.tile = t.val) → (s.tile t.val).gate = false →
      s.coreOutstanding t.val = false → ¬ (!(s.rcv.isolations.any (fun i => decide (i.tile = t.val)) && !(s.tile t.val).gate &&
        !s.coreOutstanding t.val)) = true := by
    intro t s hi hg ho
    simpa [hg, ho] using hi
  have hspare : ∀ (t : TileIx) (s : State), (s.modTile t.val Tile.gated).rowSpare (t.val / 272)
      (t.val % 272 / 17) = s.rowSpare (t.val / 272) (t.val % 272 / 17) := by
    intro t s
    refine State.rowSpare_congr (fun j => ?_) (fun j => ?_) _ _ <;>
    · rw [State.tile_modTile]
      split
      · rename_i h; subst h; rfl
      · rfl
  refine ⟨fun t k s hi hg ho hk => ?_, fun t s hi hg ho hk => ?_, fun t s hi hg hst hh hm => ?_⟩
  · have hk' := (hspare t s).trans hk
    obtain ⟨cids, hl⟩ := State.leaveRow_spare hk' false
    have he : exec (.isolationDrainDone t) s = .next ((s.modTile t Tile.gated).leaveRow t false) := by
      refine (if_neg (hdue t s hi hg ho)).trans ?_
      split
      · rfl
      · exact absurd (hk'.symm.trans ‹_›) (by simp)
    refine ⟨_, he, ?_⟩
    rw [hl]
    refine ⟨?_, _, rfl, rfl, rfl, rfl, rfl, rfl, rfl⟩
    rw [(State.modRcv_within _ _).tile_eq (by decide), State.tile_modTile, if_pos rfl]
    rfl
  · have hk' := (hspare t s).trans hk
    have he : exec (.isolationDrainDone t) s = .next ((((s.modTile t Tile.gated).makeHole t).rowNbr
        (t.val / 272) (t.val % 272 / 17)).endIsolation t false ((s.modTile t Tile.gated).tileCids t)) := by
      refine (if_neg (hdue t s hi hg ho)).trans ?_
      split
      · exact absurd (hk'.symm.trans ‹_›) (by simp)
      · rfl
    refine ⟨_, he, ?_⟩
    have hc : (((((s.modTile t Tile.gated).makeHole t).rowNbr (t.val / 272)
        (t.val % 272 / 17)).endIsolation t false ((s.modTile t Tile.gated).tileCids t)).tile t).controls =
        (s.tile t).gated.leave.controls := by
      rw [State.endIsolation_tile, (State.rowNbr_steady _ _ _).controls, State.makeHole_controls, if_pos rfl,
        State.tile_modTile, if_pos rfl]
    obtain ⟨hrole, hlcol, hgate, -⟩ := Tile.left_of_controls hc
    exact ⟨hgate, hrole, hlcol, State.endIsolation_none _ _ _ _⟩
  · obtain ⟨i, hfind⟩ := Option.isSome_iff_exists.mp
      (show (s.rcv.isolations.find? fun i => decide (i.tile = t.val)).isSome by simpa using hi)
    have he : exec (.isolationDrainTimeout t) s =
        .next ((s.endIsolation t true (s.tileCids t)).dueHalf (t.val / 272) i.byRecover) := by
      show execIsolationDrainTimeout t s = _
      simp only [execIsolationDrainTimeout, hfind, hg, Bool.false_eq_true, if_false]
    refine ⟨_, he, ?_⟩
    have hr := s.endIsolation_rcv t true (s.tileCids t)
    have hd : ((s.endIsolation t true (s.tileCids t)).dueHalf (t.val / 272) i.byRecover).rcv =
        { (s.endIsolation t true (s.tileCids t)).rcv with pendingHalf := some (t.val / 272, i.byRecover) } := by
      unfold State.dueHalf
      simp [hr, hst, hh, hm]
    dsimp only
    rw [hd]
    exact ⟨State.endIsolation_none _ _ _ _, _, rfl⟩

/-- Settles O14: the fault of a purge that runs past its time, and the three ends of an isolated tile's drain. -/
theorem isolationAndDrain : Obligations.IsolationAndDrain := ⟨purgeTimeoutIsolates, isolationDrains⟩

end Sys2Proof.Machine
end

section
/-! SUPPORT. Row shifts and failed shells (R75, R76, R78): what a shift's copy changes of each tile, and what a tile whose
shell has failed keeps as it leaves its row. -/

-- One proof after the other, as in the layers before.
set_option Elab.async false

namespace Sys2Proof.Machine

/-! ### TIL_NBR values that wait -/

/-- Every tile is as it was but for the TIL_NBR values that are pending or accepted. -/
structure NbrWaits (s u : State) : Prop where
  act : ∀ t, (u.tile t).nbr.act = (s.tile t).nbr.act
  rest : ∀ t, { u.tile t with nbr := (s.tile t).nbr } = s.tile t

namespace NbrWaits

theorem refl (s : State) : NbrWaits s s := ⟨fun _ => rfl, fun _ => rfl⟩

theorem modTile (s : State) (t : Nat) {f : Tile → Tile} (hf : ∀ x, (f x).nbr.act = x.nbr.act)
    (hr : ∀ x, { f x with nbr := x.nbr } = x) : NbrWaits s (s.modTile t f) where
  act j := by
    rw [State.tile_modTile]
    split
    · rename_i h; subst h; exact hf _
    · rfl
  rest j := by
    rw [State.tile_modTile]
    split
    · rename_i h; subst h; exact hr _
    · rfl

theorem trans {s v u : State} (h : NbrWaits s v) (k : NbrWaits v u) : NbrWaits s u where
  act t := (k.act t).trans (h.act t)
  rest t := by
    have hk := congrArg (fun x : Tile => { x with nbr := (s.tile t).nbr }) (k.rest t)
    exact hk.trans (h.rest t)

theorem each {α : Type} (s : State) (l : List α) (f : State → α → State) (hf : ∀ s x, NbrWaits s (f s x)) :
    NbrWaits s (s.each l f) := by
  induction l generalizing s with
  | nil => exact refl s
  | cons x l ih => exact (hf s x).trans (ih (f s x))

end NbrWaits

theorem Within.nbrWaits {M : List Block} {s u : State} (h : Within M s u) (ht : M.contains .tiles = false := by decide) :
    NbrWaits s u := ⟨fun t => by rw [h.tile_eq ht], fun t => by rw [h.tile_eq ht]⟩

/-- The new neighbours stand as pending values. -/
theorem State.shiftNbr_waits (s : State) (x : RowShift) : NbrWaits s (s.shiftNbr x) :=
  NbrWaits.each _ _ _ fun s v => NbrWaits.modTile s v.1 (fun _ => rfl) fun _ => rfl

/-- A commit that goes on accepts TIL_NBR values of tiles and keeps its change until the boundary. -/
theorem State.commitShift_waits (s : State) (x : RowShift) : NbrWaits s (s.commitShift x) := by
  unfold State.commitShift
  split
  · exact .refl s
  · have h : NbrWaits s (s.each (((s.rolesAfter x).nbrVals x.half x.row).map (·.1)) fun s t =>
        s.modTile t fun d => { d with nbr := d.nbr.accept }) :=
      NbrWaits.each _ _ _ fun s t => NbrWaits.modTile s t (fun _ => rfl) fun _ => rfl
    exact h.trans (State.modItl_within _ _).nbrWaits

theorem State.commitShift_rcv (s : State) (x : RowShift) : (s.commitShift x).rcv = s.rcv :=
  (s.commitShift_within x).rcv_eq (by decide)

theorem State.commitShift_held {s : State} {x : RowShift} (hx : x.copied = true) (hi : s.itl.held = none)
    (hw : s.compWaits = false) :
    (s.commitShift x).itl.held = some { change := .rowShift x.half x.row x.failed x.cids, block := 4 } := by
  unfold State.commitShift
  rw [if_neg (by simp [hx, hi, hw])]
  rfl

/-! ### Commits that wait -/

theorem Tab.mem_insert {α : Type} {t : Tab α} {k : Nat} {v : α} {e : Nat × α} (he : e ∈ Tab.insert t k v) :
    e = (k, v) ∨ e ∈ t := by
  induction t with
  | nil => exact .inl (List.mem_singleton.mp he)
  | cons f t ih =>
    obtain ⟨j, w⟩ := f
    simp only [Tab.insert] at he
    split at he
    · exact (List.mem_cons.mp he)
    split at he
    · exact (List.mem_cons.mp he).imp_right (List.mem_cons_of_mem _)
    · cases List.mem_cons.mp he with
      | inl h => exact .inr (h ▸ List.mem_cons_self)
      | inr h => exact (ih h).imp_right (List.mem_cons_of_mem _)

theorem Tab.get_mem {α : Type} (d : Nat → α) (t : Tab α) (k : Nat) : Tab.get d t k = d k ∨ ∃ j, (j, Tab.get d t k) ∈ t := by
  induction t with
  | nil => exact .inl rfl
  | cons e t ih =>
    obtain ⟨j, v⟩ := e
    simp only [Tab.get]
    split
    · exact .inr ⟨j, List.mem_cons_self⟩
    · exact ih.imp_right fun ⟨i, hi⟩ => ⟨i, List.mem_cons_of_mem _ hi⟩

/-- A tile has an accepted commit that waits. -/
def Tile.waits (x : Tile) : Bool := x.srm.sh.acc.isSome || x.nbr.acc.isSome

theorem Tile.reset_waits (k : Nat) : (Tile.reset k).waits = false := by
  unfold Tile.reset
  split <;> rfl

/-- No tile has a commit that waits. -/
theorem State.tile_waits {s : State} (h : s.tiles.any (fun e => e.2.waits) = false) (t : Nat) : (s.tile t).waits = false := by
  rcases Tab.get_mem Tile.reset s.tiles t with he | ⟨j, hj⟩
  · exact (congrArg Tile.waits he).trans (Tile.reset_waits t)
  · exact Bool.eq_false_iff.mpr (List.any_eq_false.mp h _ hj)

/-- A change that accepts nothing starts no wait. -/
theorem State.compWaits_modTile {s : State} (h : s.compWaits = false) (t : Nat) {f : Tile → Tile} (hf : ∀ x, (f x).waits = x.waits) :
    (s.modTile t f).compWaits = false := by
  have hsplit : ∀ v : State, v.compWaits = (v.brd.waiting || v.lp.sh.acc.isSome || v.xlt.sh.acc.isSome || v.fab.sh.acc.isSome ||
    v.tiles.any fun e => e.2.waits) := fun _ => rfl
  rw [hsplit, Bool.or_eq_false_iff] at h ⊢
  refine ⟨h.1, List.any_eq_false.mpr fun e he => ?_⟩
  rcases Tab.mem_insert he with rfl | he
  · simp [hf, State.tile_waits h.2]
  · exact List.any_eq_false.mp h.2 e he

theorem State.compWaits_each_modTile {s : State} (h : s.compWaits = false) (l : List Nat) {f : Tile → Tile}
    (hf : ∀ x, (f x).waits = x.waits) : (s.each l fun s t => s.modTile t f).compWaits = false := by
  induction l generalizing s with
  | nil => exact h
  | cons t l ih => exact ih (State.compWaits_modTile h t hf)

/-! ### The two ends of a copy -/

/-- A shift that is found stands among the shifts as it is marked. -/
theorem mem_shifts_marked {l : List RowShift} {p : RowShift → Bool} {x : RowShift} (h : l.find? p = some x)
    (g : RowShift → RowShift) : g x ∈ l.map fun z => if z = x then g z else z :=
  List.mem_map.mpr ⟨x, List.mem_of_find?_eq_some h, if_pos rfl⟩

/-- A shift's tiles, each with one change. -/
def State.onShift (s : State) (x : RowShift) (f : Tile → Tile) : State :=
  s.each ((shiftPairs x.failed x.skip).map (·.1)) fun s t => s.modTile t f

/-- The shift `x` is marked. -/
def State.markShift (s : State) (x : RowShift) (g : RowShift → RowShift) : State :=
  s.modRcv fun r => { r with shifts := r.shifts.map fun z => if z = x then g z else z }

/-- A tile that a shift moves, while it copies. -/
def Tile.copying (x : Tile) : Tile := { x with issueHold := true, shiftBusy := true }
/-- A tile that a shift moves, once it has copied. -/
def Tile.copied (x : Tile) : Tile := { x with shiftBusy := false }

theorem State.onShift_rcv (s : State) (x : RowShift) (f : Tile → Tile) : (s.onShift x f).rcv = s.rcv :=
  (State.each_within _ _ (.refl [.tiles] s) fun s t k => k.step rfl (s.modTile_within t _)).rcv_eq (by decide)

theorem State.onShift_itl (s : State) (x : RowShift) (f : Tile → Tile) : (s.onShift x f).itl = s.itl :=
  (State.each_within _ _ (.refl [.tiles] s) fun s t k => k.step rfl (s.modTile_within t _)).itl_eq (by decide)

theorem State.compWaits_onShift {s : State} (h : s.compWaits = false) (x : RowShift) (f : Tile → Tile)
    (hf : ∀ y, (f y).waits = y.waits) : (s.onShift x f).compWaits = false := State.compWaits_each_modTile h _ hf

/-- The tiles of a shift that is marked, each with one change, then only TIL_NBR values that wait. -/
theorem State.tile_onShift {s u : State} {x : RowShift} {g : RowShift → RowShift} (f : Tile → Tile) (hf : ∀ y, f (f y) = f y)
    (hn : ∀ y, (f y).nbr = y.nbr) (hu : NbrWaits ((s.markShift x g).onShift x f) u) (t : Nat) :
    (u.tile t).nbr.act = (s.tile t).nbr.act ∧ { u.tile t with nbr := (s.tile t).nbr } =
      if t ∈ (shiftPairs x.failed x.skip).map (·.1) then f (s.tile t) else s.tile t := by
  have ht : ((s.markShift x g).onShift x f).tile t =
      if t ∈ (shiftPairs x.failed x.skip).map (·.1) then f (s.tile t) else s.tile t :=
    State.tile_each_modTile (s.markShift x g) _ hf t
  have hnbr : (((s.markShift x g).onShift x f).tile t).nbr = (s.tile t).nbr := by
    rw [ht]
    split
    · exact hn _
    · rfl
  refine ⟨by rw [hu.act, hnbr], ?_⟩
  rw [← ht, ← hu.rest t, hnbr]

theorem exec_shiftCopyStart {h : Half} {row : Fin 16} {x : RowShift} {s : State}
    (hx : (s.rcv.shifts.find? fun y => decide (y.half = h.val ∧ y.row = row.val)) = some x)
    (ho : x.opened = true) (hc : x.copying = false)
    (hq : ∀ c ∈ x.cids, ∀ k, s.slotOf c = some k → (s.fence k).count = 0) :
    exec (.shiftCopyStart h row) s =
      .next (((s.markShift x fun y => { y with copying := true }).onShift x Tile.copying).shiftNbr x) := by
  have hquiet : ((x.cids.filterMap s.slotOf).all fun k => decide ((s.fence k).count = 0)) = true := by
    rw [List.all_eq_true]
    intro k hk
    obtain ⟨c, hc, hk⟩ := List.mem_filterMap.mp hk
    exact decide_eq_true (hq c hc k hk)
  show execShiftCopyStart h row s = _
  simp only [execShiftCopyStart, hx, ho, hc, hquiet]
  rfl

theorem exec_shiftCopyDone {h : Half} {row : Fin 16} {x : RowShift} {s : State}
    (hx : (s.rcv.shifts.find? fun y => decide (y.half = h.val ∧ y.row = row.val)) = some x)
    (hc : x.copying = true) (hd : x.copied = false) :
    exec (.shiftCopyDone h row) s =
      .next (((s.markShift x fun _ => { x with copied := true }).onShift x Tile.copied).commitShift { x with copied := true }) := by
  show execShiftCopyDone h row s = _
  simp only [execShiftCopyDone, hx, hc, hd]
  rfl

/-! ### A failed shell -/

theorem State.markDead_steady (s : State) (t : Nat) : Steady s (s.markDead t) :=
  Steady.each _ _ _ fun s u => Steady.modTile s u _ fun _ => rfl

/-- A tile that leaves its row keeps its clamp and its gate. -/
theorem State.leaveRow_keeps (s : State) (t : Nat) (shell : Bool) :
    let x := (s.leaveRow t shell).tile t
    x.clamp = (s.tile t).clamp ∧ x.clamped = (s.tile t).clamped ∧ x.gate = (s.tile t).gate ∧
      x.stopDead = (s.tile t).stopDead := by
  cases h : s.rowSpare (t / 272) (t % 272 / 17) with
  | some k =>
    obtain ⟨cids, hl⟩ := State.leaveRow_spare h shell
    rw [hl, (State.modRcv_within _ _).tile_eq (by decide)]
    exact ⟨rfl, rfl, rfl, rfl⟩
  | none =>
    have hc := (s.makeHole_controls t t).trans (if_pos rfl)
    rw [State.leaveRow_hole h]
    obtain ⟨-, -, hgate, hclamp, hclamped, hdead⟩ := Tile.left_of_controls hc
    exact ⟨hclamp, hclamped, hgate, hdead⟩

/-- A tile whose shell has failed: clamped, gated, a dead stop where the stop has failed. -/
def Tile.cutOff (element : Nat) (x : Tile) : Tile :=
  { x with clamp := true, clamped := true, gate := true, stopDead := x.stopDead || decide (element = 0) }

/-- A failed shell's tile is cut off and leaves its row at the end, whatever was lost before. -/
theorem State.shellFail_eq (s : State) (t element : Nat) : ∃ v : State, s.shellFail t element =
    ((v.modTile t (Tile.cutOff element)).when (decide (element = 0)) fun s => s.markDead t).leaveRow t true := by
  unfold State.shellFail
  exact ⟨_, rfl⟩

theorem Tile.cut_of_controls {x y : Tile} {element : Nat} (h : y.controls = (x.cutOff element).controls) :
    y.clamp = true ∧ y.clamped = true ∧ y.gate = true ∧ (element = 0 → y.stopDead = true) := by
  refine ⟨(congrArg Tile.clamp h :), (congrArg Tile.clamped h :), (congrArg Tile.gate h :), fun he => ?_⟩
  have hd : y.stopDead = (x.stopDead || decide (element = 0)) := (congrArg Tile.stopDead h :)
  simp [hd, he]

/-- The failed shell of a serving tile: cut off, whatever was lost before. -/
theorem State.shellFail_tile (s : State) (t element : Nat) :
    let x := (s.shellFail t element).tile t
    x.clamp = true ∧ x.clamped = true ∧ x.gate = true ∧ (element = 0 → x.stopDead = true) := by
  obtain ⟨v, hv⟩ := s.shellFail_eq t element
  rw [hv]
  have hm : Steady (v.modTile t (Tile.cutOff element))
      ((v.modTile t (Tile.cutOff element)).when (decide (element = 0)) fun s => s.markDead t) :=
    Steady.when _ _ _ (State.markDead_steady _ t)
  have hc := hm.controls t
  generalize (v.modTile t (Tile.cutOff element)).when (decide (element = 0)) (fun s => s.markDead t) = w at hc ⊢
  rw [State.tile_modTile, if_pos rfl] at hc
  obtain ⟨hclamp, hclamped, hgate, hdead⟩ := w.leaveRow_keeps t true
  obtain ⟨h1, h2, h3, h4⟩ := Tile.cut_of_controls hc
  exact ⟨hclamp.trans h1, hclamped.trans h2, hgate.trans h3, fun he => hdead.trans (h4 he)⟩

/-- A skipped tile whose shell has failed. -/
def Tile.spareDead (element : Nat) (x : Tile) : Tile :=
  { x with role := if x.role = .spare then .retired else x.role, stopDead := x.stopDead || decide (element = 0) }

theorem Tile.spareDead_of_controls {x y : Tile} {element : Nat} (hs : x.role = .spare)
    (h : y.controls = (x.spareDead element).controls) : y.role = .retired ∧ (element = 0 → y.stopDead = true) := by
  have hr : y.role = if x.role = .spare then .retired else x.role := (congrArg Tile.role h :)
  have hd : y.stopDead = (x.stopDead || decide (element = 0)) := (congrArg Tile.stopDead h :)
  exact ⟨hr.trans (if_pos hs), fun he => by simp [hd, he]⟩

/-- A skipped tile toward which no shift goes: nothing but the tile and the marks of its dead stop changes. -/
theorem State.spareShellFail_eq {s : State} {t : Nat} (h : ∀ y ∈ s.rcv.shifts, y.skip ≠ t) (element : Nat) :
    s.spareShellFail t element =
      (s.modTile t (Tile.spareDead element)).when (decide (element = 0)) fun s => s.markDead t := by
  have hr : ((s.modTile t (Tile.spareDead element)).when (decide (element = 0)) fun s => s.markDead t).rcv = s.rcv := by
    cases decide (element = 0)
    · rfl
    · exact (State.markDead_within _ t).rcv_eq (by decide)
  have hnone : (((s.modTile t (Tile.spareDead element)).when (decide (element = 0)) fun s => s.markDead t).rcv.shifts.filter
      fun y => decide (y.skip = t)) = [] := by
    rw [hr, List.filter_eq_nil_iff]
    exact fun y hy => by simpa using h y hy
  unfold State.spareShellFail
  exact (congrArg (fun l => State.each _ l fun s y => s.cancelShift y) hnone)

/-- Settles O15: the two ends of a shift's copy, a failed shell of a serving tile and of a skipped one. -/
theorem rowShifts : Obligations.RowShifts := by
  refine ⟨fun h row x s hx ho hc hq => ⟨_, exec_shiftCopyStart hx ho hc hq, ?_⟩,
    fun h row x s hx hc hd => ⟨_, exec_shiftCopyDone hx hc hd, ?_⟩, fun t e s hg => ?_, fun t e s hr hy => ?_⟩
  · refine ⟨?_, State.tile_onShift Tile.copying (fun _ => rfl) (fun _ => rfl) (State.shiftNbr_waits _ x)⟩
    rw [(State.shiftNbr_within _ x).rcv_eq (by decide), State.onShift_rcv]
    exact mem_shifts_marked hx fun y => { y with copying := true }
  · refine ⟨?_, fun t => ?_, fun hi hw => ?_⟩
    · rw [State.commitShift_rcv, State.onShift_rcv]
      exact mem_shifts_marked hx fun _ => { x with copied := true }
    · exact (State.tile_onShift Tile.copied (fun _ => rfl) (fun _ => rfl) (State.commitShift_waits _ _) t).2
    · exact State.commitShift_held rfl ((congrArg Itl.held (State.onShift_itl _ x _)).trans hi)
        (State.compWaits_onShift (s := s.markShift x fun _ => { x with copied := true }) hw x Tile.copied fun _ => rfl)
  · refine ⟨_, if_pos hg, ?_⟩
    obtain ⟨h1, h2, h3, h4⟩ := s.shellFail_tile t e
    exact ⟨h1, h2, h3, fun he => h4 (congrArg Fin.val he)⟩
  · refine ⟨_, if_neg (by simp [hr]), ?_⟩
    have hm : Steady (s.modTile t (Tile.spareDead e))
        ((s.modTile t (Tile.spareDead e)).when (decide (e.val = 0)) fun s => s.markDead t) :=
      Steady.when _ _ _ (State.markDead_steady _ t)
    have hc := hm.controls t
    rw [State.tile_modTile, if_pos rfl] at hc
    dsimp only
    rw [State.spareShellFail_eq hy]
    obtain ⟨h1, h2⟩ := Tile.spareDead_of_controls hr hc
    exact ⟨h1, fun he => h2 (congrArg Fin.val he)⟩

end Sys2Proof.Machine
end

section
/-! SUPPORT. The end of a self-test and of a pair's training, early and full service (R56, R57, R164, R580 to R586): what
each leaves of the tiles, the pairs and the service state. -/

-- One proof after the other, as in the layers before.
set_option Elab.async false

namespace Sys2Proof.Machine

/-! ### Self-tests -/

/-- The core's issue is no longer held for a test. -/
def Tile.testFreed (x : Tile) : Tile := { x with issueHold := false, issueHeld := false, testHold := false }

/-- What the end of a test's hold leaves. -/
structure TestFreed (s : State) (t : Nat) (u : State) : Prop where
  boot : u.boot = s.boot
  role : (u.tile t).role = (s.tile t).role
  gate : (u.tile t).gate = (s.tile t).gate
  recovering : ∀ h, u.recovering h = s.recovering h
  isolations : u.rcv.isolations = s.rcv.isolations

theorem TestFreed.of_steady {s u : State} {t : Nat} (h : Steady s u) (hb : u.boot = s.boot) : TestFreed s t u where
  boot := hb
  role := h.role t
  gate := (congrArg Tile.gate (h.controls t) :)
  recovering := h.recovering
  isolations := h.isolations

/-- A tile whose hold for a test ends: the core issues again and its channels go on. -/
def State.freeTest (s : State) (t : Nat) : State := (s.modTile t Tile.testFreed).pumpTile t

theorem State.freeTest_steady (s : State) (t : Nat) : Steady (s.modTile t Tile.testFreed) (s.freeTest t) :=
  (s.modTile t Tile.testFreed).pumpTile_steady t

theorem State.freeTest_controls (s : State) (t : Nat) : ((s.freeTest t).tile t).controls = (s.tile t).testFreed.controls := by
  rw [(s.freeTest_steady t).controls, State.tile_modTile, if_pos rfl]

theorem Tile.freed_of_controls {x y : Tile} (h : y.controls = x.testFreed.controls) :
    y.role = x.role ∧ y.gate = x.gate ∧ y.issueHold = false ∧ y.issueHeld = false :=
  ⟨(congrArg Tile.role h :), (congrArg Tile.gate h :), (congrArg Tile.issueHold h :), (congrArg Tile.issueHeld h :)⟩

theorem State.freeTest_freed (s : State) (t : Nat) : TestFreed s t (s.freeTest t) := by
  have hs := s.freeTest_steady t
  obtain ⟨hrole, hgate, -, -⟩ := Tile.freed_of_controls (s.freeTest_controls t)
  exact ⟨((s.modTile t Tile.testFreed).pumpTile_within t).boot_eq (by decide), hrole, hgate, hs.recovering, hs.isolations⟩

theorem State.when_freeTest_freed (s : State) (t : Nat) (c : Bool) : TestFreed s t (s.when c fun s => s.freeTest t) := by
  cases c
  · exact .of_steady (.refl s) rfl
  · exact s.freeTest_freed t

/-- The result of a test. -/
def SelfTest.ended (k : TestKind) (pass : Bool) (x : SelfTest) : SelfTest :=
  match k with
  | .shell => { x with shell := some pass }
  | .bf16 => { x with bf16 := some pass }
  | .narrow => { x with narrow := some pass }

/-- A test has ended and its hold with it. -/
def State.testEnded (s : State) (t : Nat) (k : TestKind) (pass : Bool) : State :=
  (s.modTest t (SelfTest.ended k pass)).when (decide (k = .narrow) && (s.tile t).testHold) fun s => s.freeTest t

theorem exec_tileSelftestDone {t : TileIx} {k : TestKind} {pass : Bool} {s : State} (h : s.testDue t.val k = true) :
    exec (.tileSelftestDone t k pass) s =
      .next (if pass then s.testEnded t k pass else (s.testEnded t k pass).testFail t) := by
  refine (if_neg (by rw [h]; decide)).trans ?_
  cases k <;> rfl

theorem State.testEnded_freed (s : State) (t : Nat) (k : TestKind) (pass : Bool) :
    TestFreed (s.modTest t (SelfTest.ended k pass)) t (s.testEnded t k pass) := State.when_freeTest_freed _ _ _

theorem State.selfTest_congr {s u : State} (h : u.boot = s.boot) (t : Nat) : u.selfTest t = s.selfTest t := by
  unfold State.selfTest
  rw [h]

theorem State.selfTest_testEnded (s : State) (t : Nat) (k : TestKind) (pass : Bool) :
    (s.testEnded t k pass).selfTest t = (s.selfTest t).ended k pass := by
  rw [State.selfTest_congr (s.testEnded_freed t k pass).boot]
  exact Tab.get_insert_same _ _ _ _

theorem Tile.role_of_controls {x y : Tile} (h : y.controls = x.controls) : y.role = x.role := (congrArg Tile.role h :)

theorem State.role_modTile (s : State) (k : Nat) {f : Tile → Tile} (hf : ∀ x, (f x).role = x.role) (t : Nat) :
    ((s.modTile k f).tile t).role = (s.tile t).role := by
  rw [State.tile_modTile]
  split
  · rename_i h; subst h; exact hf _
  · rfl

/-- The tile whose place the skip takes is retired. -/
theorem State.moveSkip_retires (s : State) (t k : Nat) : ((s.moveSkip t k).tile t).role = .retired := by
  unfold State.moveSkip
  dsimp only
  have hsig : ∀ (v : State) l, Steady v (v.each l fun s u => s.tileSignal u) := fun v l =>
    Steady.each v l _ fun s u => (s.tileSignal_within u).steady
  rw [Tile.role_of_controls ((hsig _ _).controls t), Tile.role_of_controls ((State.rowNbr_steady _ _ _).controls t),
    State.role_modTile, State.tile_modTile, if_pos rfl]
  · rfl
  · exact fun _ => rfl

/-- During bring-up a tile that fails its test is retired. -/
theorem State.testFail_retires {s : State} {t : Nat} (h : s.boot.power = .sequencing) : ((s.testFail t).tile t).role = .retired := by
  unfold State.testFail
  dsimp only
  split
  · rw [State.tile_modTile, if_pos rfl]
    rfl
  rw [if_neg (not_not_intro h)]
  split
  · have hc := (State.rowNbr_steady (s.makeHole t) (t / 272) (t % 272 / 17)).controls t
    rw [State.makeHole_controls, if_pos rfl] at hc
    exact (Tile.left_of_controls hc).1
  · exact State.moveSkip_retires _ _ _

/-- Once the module serves, a serving tile that fails its test is clamped and its isolation begins. -/
theorem State.testFail_clamps {s : State} {t : Nat} (hb : s.boot.power ≠ .sequencing) (hg : (s.tile t).role = .grid)
    (hgate : (s.tile t).gate = false) (hr : s.recovering (t / 272) = false)
    (hi : (s.rcv.isolations.any fun i => decide (i.tile = t)) = false) : ((s.testFail t).tile t).clamp = true := by
  have he : s.testFail t = s.isolate t false := by
    unfold State.testFail
    simp [hg, hb, hgate]
  rw [he, (State.isolate_begins hr hg (by simpa using hi) false).1]

/-! ### Pairs -/

/-- What no change of a list touches is as before. -/
theorem State.each_congr {α β : Type} (g : State → β) (s : State) (l : List α) (f : State → α → State)
    (hf : ∀ s x, g (f s x) = g s) : g (s.each l f) = g s := by
  induction l generalizing s with
  | nil => rfl
  | cons x l ih => exact (ih (f s x)).trans (hf s x)

theorem State.setRegGuar_pairs (s : State) (slot : Nat) (r : GuarRes) (g : Nat) : (s.setRegGuar slot r g).lp.pairs = s.lp.pairs := by
  unfold State.setRegGuar
  split
  · split <;> rfl
  · rfl
  · rfl

theorem State.setCurrent_pairs (s : State) (slot : Nat) (cid : Cid) (r : GuarRes) (g : Nat) :
    (s.setCurrent slot cid r g).lp.pairs = s.lp.pairs := by
  unfold State.setCurrent
  dsimp only
  split
  · rfl
  split <;>
  · rw [(State.pulse_within _ _).lp_eq (by decide), (State.notifyCid_within _ _ _ _).lp_eq (by decide), State.setRegGuar_pairs]
    rfl

theorem State.regaugeHalf_pairs (s : State) (half : Nat) : (s.regaugeHalf half).lp.pairs = s.lp.pairs := by
  refine State.each_congr (fun s => s.lp.pairs) _ _ _ fun s r => State.each_congr (fun s => s.lp.pairs) _ _ _ fun s g => ?_
  split
  · exact s.setCurrent_pairs _ _ _ _
  · rfl

theorem State.pair_congr {s u : State} (h : u.lp.pairs = s.lp.pairs) (p : Nat) : u.pair p = s.pair p := by
  unfold State.pair
  rw [h]

theorem State.ite_lp {c : Prop} [Decidable c] {v w : State} {m : Mem} (hv : v.lp = m) (hw : w.lp = m) :
    (if c then v else w).lp = m := by
  split
  · exact hv
  · exact hw

theorem State.setPairSt_same {s : State} {p : Nat} {st : PairSt} (h : (s.pair p).st = st) : s.setPairSt p st = s := if_pos h

/-- A pair's new state is the one change of the controllers; the rest are reports. -/
theorem State.setPairSt_lp {s : State} {p : Nat} {st : PairSt} (h : (s.pair p).st ≠ st) :
    (s.setPairSt p st).lp = (s.modPair p fun x => { x with st := st }).lp := by
  have hp : ((s.modPair p fun x => { x with st := st }).pulse (640 + p)).lp = (s.modPair p fun x => { x with st := st }).lp :=
    (State.pulse_within _ _).lp_eq (by decide)
  unfold State.setPairSt
  rw [if_neg h]
  exact State.ite_lp hp (((State.moduleRecords_within _ _ _ _).lp_eq (by decide)).trans hp)

theorem State.pair_setPairSt (s : State) (p : Nat) (st : PairSt) (j : Nat) :
    (s.setPairSt p st).pair j = if j = p then { s.pair p with st := st } else s.pair j := by
  by_cases h : (s.pair p).st = st
  · rw [State.setPairSt_same h, ← h]
    split
    · rename_i hj; subst hj; rfl
    · rfl
  · rw [State.pair_congr (congrArg Mem.pairs (State.setPairSt_lp h)), State.pair_modPair]

theorem Tab.mem_insert_self {α : Type} (t : Tab α) (k : Nat) (v : α) : (k, v) ∈ Tab.insert t k v := by
  induction t with
  | nil => exact List.mem_cons_self
  | cons e t ih =>
    obtain ⟨j, w⟩ := e
    simp only [Tab.insert]
    split
    · exact List.mem_cons_self
    split
    · exact List.mem_cons_self
    · exact List.mem_cons_of_mem _ ih

/-- An insertion replaces no entry but the one that is read at its key. -/
theorem Tab.mem_insert_or_get {α : Type} (d : Nat → α) {t : Tab α} (k : Nat) (v : α) {e : Nat × α} (he : e ∈ t) :
    e ∈ Tab.insert t k v ∨ e = (k, Tab.get d t k) := by
  induction t with
  | nil => cases he
  | cons f t ih =>
    obtain ⟨j, w⟩ := f
    simp only [Tab.insert]
    split
    · exact .inl (List.mem_cons_of_mem _ he)
    split
    · rename_i hk
      cases List.mem_cons.mp he with
      | inl h => exact .inr (by rw [h, hk, Tab.get, if_pos rfl])
      | inr h => exact .inl (List.mem_cons_of_mem _ h)
    · rename_i hk
      cases List.mem_cons.mp he with
      | inl h => exact .inl (h ▸ List.mem_cons_self)
      | inr h => exact (ih h).imp (List.mem_cons_of_mem _) fun h => by rw [h, Tab.get, if_neg (Ne.symm hk)]

/-- A pair that is a destination stays one through a change that keeps every pair's destination. -/
theorem State.taken_modPair {s : State} {p q : Nat} {f : Pair → Pair} (hf : (f (s.pair p)).rebuildTo = (s.pair p).rebuildTo)
    (h : s.taken q = true) : (s.modPair p f).taken q = true := by
  unfold State.taken at h ⊢
  rw [Bool.or_eq_true] at h ⊢
  refine h.imp id fun h => ?_
  obtain ⟨e, he, hq⟩ := List.any_eq_true.mp h
  rw [List.any_eq_true]
  rcases Tab.mem_insert_or_get (fun _ => ({} : Pair)) p (f (s.pair p)) he with hm | rfl
  · exact ⟨e, hm, hq⟩
  · exact ⟨_, Tab.mem_insert_self _ _ _, (congrArg (fun x => decide (x = some q)) hf).trans hq⟩

theorem State.taken_congr {s u : State} (h : u.lp = s.lp) (hb : u.brd = s.brd) (q : Nat) : u.taken q = s.taken q := by
  unfold State.taken State.moveH
  rw [h, hb]

/-- A half without a spare has none once a pair of it is set to a state that is not SPARE_READY. -/
theorem State.spareOf_setPairSt {s : State} {half p : Nat} {st : PairSt} (hst : st ≠ .spareReady) (h : s.spareOf half = none) :
    (s.setPairSt p st).spareOf half = none := by
  by_cases hs : (s.pair p).st = st
  · rw [State.setPairSt_same hs, h]
  unfold State.spareOf at h ⊢
  rw [List.find?_eq_none] at h ⊢
  intro q hq hfree
  rw [Bool.and_eq_true, decide_eq_true_iff, State.pair_setPairSt,
    State.taken_congr (State.setPairSt_lp hs) ((s.setPairSt_within p st).brd_eq (by decide))] at hfree
  obtain ⟨hready, hfree⟩ := hfree
  have hqp : q ≠ p := by
    rintro rfl
    rw [if_pos rfl] at hready
    exact hst hready
  rw [if_neg hqp] at hready
  refine h q hq ?_
  rw [Bool.and_eq_true, decide_eq_true_iff]
  refine ⟨hready, ?_⟩
  cases ht : s.taken q with
  | false => rfl
  | true => rw [State.taken_modPair rfl ht] at hfree; exact hfree

/-- A half's rebuild starts onto its spare, or nothing changes. -/
theorem State.spareUp_cases (s : State) (half : Nat) : s.spareUp half = s ∨
    ∃ p d, s.spareOf half = some d ∧ s.spareUp half =
      (s.setPairSt p .rebuilding).modPair p fun x => { x with rebuildTo := some d, cursor := 0, rebuildPct := 0 } := by
  unfold State.spareUp
  split
  · exact .inl rfl
  dsimp only
  split
  · rename_i hd
    exact .inr ⟨_, _, hd, rfl⟩
  · exact .inl rfl

/-- The one pair that a rebuild changes is REBUILDING. -/
theorem State.spareUp_st (s : State) (half p : Nat) :
    ((s.spareUp half).pair p).st = (s.pair p).st ∨ ((s.spareUp half).pair p).st = .rebuilding := by
  rcases s.spareUp_cases half with hu | ⟨q, d, -, hu⟩
  · rw [hu]
    exact .inl rfl
  · rw [hu, State.pair_modPair]
    by_cases hq : p = q
    · subst hq
      rw [if_pos rfl]
      have hst : ((s.setPairSt p .rebuilding).pair p).st = .rebuilding := by rw [State.pair_setPairSt, if_pos rfl]
      exact .inr hst
    · rw [if_neg hq, State.pair_setPairSt, if_neg hq]
      exact .inl rfl

/-- The pair of a half whose training has failed, where no move of the half is under way: DEGRADED, or REBUILDING onto a spare. -/
theorem State.pairFailed_training {s : State} {p : Nat} (hp : (s.pair p).st = .training) (hc : (s.moveH (p / 96)).st ≠ .copying)
    (hs : (s.moveH (p / 96)).st ≠ .switching) :
    (s.spareOf (p / 96) = none → (s.pairFailed p).pair p = { s.pair p with st := .degraded }) ∧
      (((s.pairFailed p).pair p).st = .degraded ∨ ((s.pairFailed p).pair p).st = .rebuilding) := by
  have he : s.pairFailed p = ((s.setPairSt p .degraded).spareUp (p / 96)).regaugeHalf (p / 96) := by
    unfold State.pairFailed
    simp [Pair.failed, hp, hc, hs]
  have hdeg : (s.setPairSt p .degraded).pair p = { s.pair p with st := .degraded } := by rw [State.pair_setPairSt, if_pos rfl]
  rw [he, State.pair_congr (State.regaugeHalf_pairs _ _)]
  refine ⟨fun hnone => ?_, ?_⟩
  · rcases (s.setPairSt p .degraded).spareUp_cases (p / 96) with hu | ⟨q, d, hd, -⟩
    · rw [hu, hdeg]
    · rw [State.spareOf_setPairSt (by decide) hnone] at hd
      cases hd
  · have hst := (s.setPairSt p .degraded).spareUp_st (p / 96) p
    rwa [show ((s.setPairSt p .degraded).pair p).st = .degraded by rw [hdeg]] at hst

/-- With nothing that waits for the regulators, serving what can go on serves nothing. -/
theorem State.serveAll_idle {s : State} (h : s.sched.waits = []) : s.serveAll = s := by
  unfold State.serveAll
  rw [h]
  rfl

end Sys2Proof.Machine
end

section
/-! SUPPORT. Early and full service (R57, R580, R583, R585), and the statement on self-tests, training and service. -/

-- One proof after the other, as in the layers before.
set_option Elab.async false

namespace Sys2Proof.Machine

/-! ### Cores that are ungated -/

/-- A core with power, ungated. -/
def Tile.ungated (x : Tile) : Tile := { x with gate := false, clamp := false, powered := true, clamped := false }

theorem State.ungateHalf_tile (s : State) (h t : Nat) :
    (s.ungateHalf h).tile t = if t ∈ s.gridTiles h ∧ (s.tile t).gate = true then (s.tile t).ungated else s.tile t :=
  (State.tile_each_modTile s _ (f := Tile.ungated) (fun _ => rfl) t).trans (if_congr List.mem_filter rfl rfl)

/-- Every core of the half's grid is ungated, those that were gated have power. -/
theorem State.ungateHalf_on {s : State} {h t : Nat} (ht : t ∈ s.gridTiles h) :
    ((s.ungateHalf h).tile t).gate = false ∧ ((s.tile t).gate = true → ((s.ungateHalf h).tile t).powered = true) := by
  rw [State.ungateHalf_tile]
  cases hg : (s.tile t).gate with
  | true => simp [ht, Tile.ungated]
  | false => simp [hg]

theorem State.ungateHalf_stays {s : State} {t : Nat} (h : Nat) (ht : (s.tile t).gate = false) :
    ((s.ungateHalf h).tile t).gate = false := by
  rw [State.ungateHalf_tile, if_neg (by simp [ht])]
  exact ht

theorem State.gridTiles_congr {s u : State} (h : ∀ t, (u.tile t).role = (s.tile t).role) (half : Nat) :
    u.gridTiles half = s.gridTiles half := by
  unfold State.gridTiles
  simp only [h]

theorem State.gridTiles_ungateHalf (s : State) (h half : Nat) : (s.ungateHalf h).gridTiles half = s.gridTiles half :=
  State.gridTiles_congr (fun t => by
    rw [State.ungateHalf_tile]
    split <;> rfl) half

theorem Tile.power_of_controls {x y : Tile} (h : y.controls = x.controls) :
    y.gate = x.gate ∧ y.powered = x.powered ∧ y.narrow = x.narrow :=
  ⟨(congrArg Tile.gate h :), (congrArg Tile.powered h :), (congrArg Tile.narrow h :)⟩

/-- The first half of two that is ready. -/
theorem find_first_half {p : Nat → Bool} {h : Half} (hp : p h.val = true) (h0 : h.val = 1 → p 0 = false) :
    [0, 1].find? p = some h.val := by
  have hh : h.val = 0 ∨ h.val = 1 := by have := h.isLt; omega
  rcases hh with hh | hh
  · rw [hh] at hp ⊢
    simp [hp]
  · have hz := h0 hh
    rw [hh] at hp ⊢
    simp [hp, hz]

/-- The module enters early service with half `h`. -/
def State.entersEarly (s : State) (h : Nat) : State :=
  s.modBoot fun b => { b with power := .early, service := 1, earlyHalf := decide (h = 1) }

/-- Early service: the state of service, and the other half's cores ungated. -/
theorem earlyService {s : State} (hs : s.boot.power = .sequencing) (h : Half) (hr : s.halfReady h.val = true)
    (h0 : h.val = 1 → s.halfReady 0 = false) : Does .earlyServiceEntry s fun u =>
      u.boot = { s.boot with power := .early, service := 1, earlyHalf := decide (h.val = 1) } ∧
        ∀ t ∈ s.gridTiles (1 - h.val), (u.tile t).gate = false ∧ ((s.tile t).gate = true → (u.tile t).powered = true) := by
  have hfind := find_first_half (p := s.halfReady) hr h0
  have he : exec .earlyServiceEntry s = .next (((s.entersEarly h).ungateHalf (1 - h.val)).regaugeTiles) := by
    show execEarlyServiceEntry s = _
    simp only [execEarlyServiceEntry, hs, hfind]
    rfl
  refine ⟨_, he, ?_, fun t ht => ?_⟩
  · rw [(State.regaugeTiles_within _).boot_eq (by decide), (State.ungateHalf_within _ _).boot_eq (by decide)]
    rfl
  · have hc := State.regaugeTiles_calm ((s.entersEarly h).ungateHalf (1 - h.val))
    obtain ⟨hgate, hpow, -⟩ := Tile.power_of_controls (hc.tile t).controls
    have hon := State.ungateHalf_on (s := s.entersEarly h) (h := 1 - h.val) (t := t) ht
    exact ⟨hgate.trans hon.1, fun hg => hpow.trans (hon.2 hg)⟩

/-- After the wait both halves' cores are ungated. -/
theorem secondHalfUngated {s : State} (hs : s.boot.power = .sequencing) :
    Does .secondHalfUngate s fun u => ∀ t ∈ s.gridTiles 0 ++ s.gridTiles 1, (u.tile t).gate = false := by
  refine ⟨_, if_pos hs, fun t ht => ?_⟩
  rcases List.mem_append.mp ht with h0 | h1
  · exact State.ungateHalf_stays 1 (State.ungateHalf_on h0).1
  · exact (State.ungateHalf_on (by rw [State.gridTiles_ungateHalf]; exact h1)).1

/-! ### Full service -/

theorem State.setting_congr {s u : State} (hb : u.boot.service = s.boot.service) (hl : u.pwr.limits = s.pwr.limits)
    (a : Actuator) : u.setting a = s.setting a := by
  unfold State.setting State.fullSetting
  rw [hb, hl]

/-- The module enters full service: every core of the grid takes narrow formats. -/
def State.entersFull (s : State) : State :=
  (s.modBoot fun b => { b with power := .full, service := 2 }).each (s.gridTiles 0 ++ s.gridTiles 1) fun s t =>
    s.modTile t fun x => { x with narrow := true }

/-- The clock at the setting that its limits leave. -/
def State.clockSet (s : State) : State :=
  s.modPwr fun p => { p with
    clk := BitVec.ofNat 5 (s.setting .clk), figs := Tab.erase p.figs 0,
    volts := [(0, { target := s.setting .clk }), (1, { target := s.setting .clk })] }

theorem State.entersFull_boot (s : State) : s.entersFull.boot = { s.boot with power := .full, service := 2 } :=
  (State.each_within _ _ (.refl [.tiles] _) fun s t k => k.step rfl (s.modTile_within t _)).boot_eq (by decide)

theorem State.entersFull_narrow {s : State} {t : Nat} (ht : t ∈ s.gridTiles 0 ++ s.gridTiles 1) :
    (s.entersFull.tile t).narrow = true := by
  have h : s.entersFull.tile t = { s.tile t with narrow := true } :=
    (State.tile_each_modTile _ _ (f := fun x => { x with narrow := true }) (fun _ => rfl) t).trans (if_pos ht)
  rw [h]

/-- Full service: narrow formats on every core of the grid, the clock at its setting. -/
theorem fullService {s : State} (hf : s.fullReady = true) :
    Does .fullServiceCommit s fun u => u.boot = { s.boot with power := .full, service := 2 } ∧
      (∀ t ∈ s.gridTiles 0 ++ s.gridTiles 1, (u.tile t).narrow = true) ∧ u.pwr.clk = BitVec.ofNat 5 (u.setting .clk) := by
  have he : exec .fullServiceCommit s = .next s.entersFull.clockSet.regaugeTiles := if_neg (by rw [hf]; decide)
  have hw := State.regaugeTiles_within s.entersFull.clockSet
  have hboot : s.entersFull.clockSet.regaugeTiles.boot = s.entersFull.boot := hw.boot_eq (by decide)
  have hpwr : s.entersFull.clockSet.regaugeTiles.pwr = s.entersFull.clockSet.pwr := hw.pwr_eq (by decide)
  refine ⟨_, he, hboot.trans s.entersFull_boot, fun t ht => ?_, ?_⟩
  · obtain ⟨-, -, hn⟩ := Tile.power_of_controls (((State.regaugeTiles_calm s.entersFull.clockSet).tile t).controls)
    exact hn.trans (State.entersFull_narrow ht)
  · have hset : s.entersFull.clockSet.regaugeTiles.setting .clk = s.entersFull.setting .clk :=
      State.setting_congr (congrArg Boot.service hboot) ((congrArg Pwr.limits hpwr).trans rfl) .clk
    rw [hset, hpwr]
    rfl

/-! ### The statement -/

/-- The end of a self-test: its result, the hold that it ends, and the tile that fails. -/
theorem selfTestEnds {s : State} {t : TileIx} {k : TestKind} {pass : Bool} (hd : s.testDue t.val k = true) :
    Does (.tileSelftestDone t k pass) s fun u =>
      u.selfTest t.val = (s.selfTest t.val).ended k pass ∧
      (pass = true → k = .narrow → (s.tile t.val).testHold = true →
        (u.tile t.val).issueHold = false ∧ (u.tile t.val).issueHeld = false) ∧
      (pass = false → s.boot.power = .sequencing → (u.tile t.val).role = .retired) ∧
      (pass = false → s.boot.power ≠ .sequencing → (s.tile t.val).role = .grid → (s.tile t.val).gate = false →
        s.recovering (t.val / 272) = false → (s.rcv.isolations.any fun i => decide (i.tile = t.val)) = false →
        (u.tile t.val).clamp = true) := by
  refine ⟨_, exec_tileSelftestDone hd, ?_⟩
  have hf := s.testEnded_freed t k pass
  have hpower : (s.testEnded t k pass).boot.power = s.boot.power := (congrArg Boot.power hf.boot :)
  cases pass with
  | true =>
    refine ⟨s.selfTest_testEnded t k true, fun _ hk hh => ?_, nofun, nofun⟩
    subst hk
    have he : s.testEnded t .narrow true = (s.modTest t (SelfTest.ended .narrow true)).freeTest t := by
      rw [State.testEnded, hh]
      rfl
    obtain ⟨-, -, h1, h2⟩ := Tile.freed_of_controls ((s.modTest t (SelfTest.ended .narrow true)).freeTest_controls t)
    rw [if_pos rfl, he]
    exact ⟨h1, h2⟩
  | false =>
    rw [if_neg Bool.false_ne_true]
    refine ⟨?_, nofun, fun _ hs => State.testFail_retires (hpower.trans hs), fun _ hs hg hgate hr hi => ?_⟩
    · rw [State.selfTest_congr ((State.testFail_within _ _).boot_eq (by decide)), s.selfTest_testEnded t k false]
    · exact State.testFail_clamps (by rw [hpower]; exact hs) (hf.role.trans hg) (hf.gate.trans hgate)
        ((hf.recovering _).trans hr) (by rw [hf.isolations]; exact hi)

/-- The end of a pair's training, or of its time. -/
theorem pairTrainingEnds {s : State} {p : PairIx} (hp : (s.pair p.val).st = .training) (hw : s.sched.waits = []) :
    (Does (.pairTrainingDone p true) s fun u => u.pair p.val = { s.pair p.val with st := (s.pair p.val).trained }) ∧
      (Does (.pairTrainingDone p false) s fun u => u = s) ∧
      ((s.moveH (p.val / 96)).st ≠ .copying → (s.moveH (p.val / 96)).st ≠ .switching →
        Does (.pairTrainingTimeout p) s fun u =>
          (s.spareOf (p.val / 96) = none → u.pair p.val = { s.pair p.val with st := .degraded }) ∧
          ((u.pair p.val).st = .degraded ∨ (u.pair p.val).st = .rebuilding)) := by
  have hserve : ∀ u : State, u.sched = s.sched → u.serveAll = u := fun u hu => State.serveAll_idle (by rw [hu]; exact hw)
  refine ⟨⟨_, if_pos ⟨hp, rfl⟩, ?_⟩, ⟨_, if_neg (by simp), rfl⟩, fun hc hs => ⟨_, if_pos hp, ?_⟩⟩
  · dsimp only
    rw [hserve _ ((s.setPairSt_within p _).sched_eq (by decide)), State.pair_setPairSt, if_pos rfl]
  · dsimp only
    rw [hserve _ ((s.pairFailed_within p).sched_eq (by decide))]
    exact State.pairFailed_training hp hc hs

/-- A narrow test on the serving half holds issue, nothing else holds it. -/
theorem narrowSelftestHolds (s : State) (t : TileIx) : Does (.narrowSelftestHold t) s fun u =>
    if s.early ∧ t.val / 272 = s.servingHalf ∧ s.testDue t.val .narrow then
      u.tile t.val = { s.tile t.val with issueHold := true, issueHeld := true, testHold := true } ∧
        ∀ j, j ≠ t.val → u.tile j = s.tile j
    else u = s := by
  by_cases h : s.early ∧ t.val / 272 = s.servingHalf ∧ s.testDue t.val .narrow
  · refine ⟨_, if_pos h, ?_⟩
    dsimp only
    rw [if_pos h]
    exact ⟨by rw [State.tile_modTile, if_pos rfl], fun j hj => by rw [State.tile_modTile, if_neg hj]⟩
  · refine ⟨_, if_neg h, ?_⟩
    dsimp only
    rw [if_neg h]

/-- Settles O57: the ends of self-tests and of training, the narrow test's hold, early and full service. -/
theorem testsTrainingAndService : Obligations.TestsTrainingAndService := by
  refine fun s => ⟨fun t k pass hd => ?_, narrowSelftestHolds s, fun p hp hw => pairTrainingEnds hp hw,
    fun hs => ⟨fun h hr h0 => earlyService hs h hr h0, secondHalfUngated hs⟩, fullService⟩
  have h := selfTestEnds (s := s) (t := t) (k := k) (pass := pass) hd
  cases k <;> exact h

end Sys2Proof.Machine
end

section
/-! SUPPORT. Scalar arithmetic, compare and move instructions (R97, R117): the model's operations on 64-bit registers give
the values of R97, and an instruction that retires changes its bank alone. -/

namespace Sys2Proof.Machine

theorem bool64_eq_ofNat (c : Prop) [Decidable c] : bool64 (decide c) = BitVec.ofNat 64 (if c then 1 else 0) := by
  by_cases h : c <;> simp [bool64, h]

/-- A signed value modulo 2^64 is the register with that value. -/
theorem ofNat_emod_eq_ofInt (i : Int) : BitVec.ofNat 64 (i % 2 ^ 64).toNat = BitVec.ofInt 64 i := by
  refine BitVec.eq_of_toNat_eq ?_
  rw [BitVec.toNat_ofNat, BitVec.toNat_ofInt]
  exact Nat.mod_eq_of_lt (by omega)

/-- An arithmetic shift divides the signed value toward minus infinity. -/
theorem sshiftRight_eq_ofInt_div (a : DWord) (n : Nat) : a.sshiftRight n = BitVec.ofInt 64 (a.toInt / 2 ^ n) := by
  rw [← BitVec.ofInt_toInt (x := a.sshiftRight n), BitVec.toInt_sshiftRight, Int.shiftRight_eq_div_pow]
  norm_cast

/-- The model's operation is R97's in whole numbers. -/
theorem aluEval_eq_aluRule (op : ScalarAlu) (a b : DWord) : aluEval op a b = BitVec.ofNat 64 (aluRule op a b) := by
  cases op with
  | add => exact BitVec.eq_of_toNat_eq (by simp [aluEval, aluRule])
  | sub => exact BitVec.eq_of_toNat_eq (by simp [aluEval, aluRule, BitVec.toNat_sub, Nat.add_comm])
  | mul => exact BitVec.eq_of_toNat_eq (by simp [aluEval, aluRule])
  | and => exact ((BitVec.ofNat_toNat 64 (a &&& b)).trans (BitVec.setWidth_eq _)).symm
  | or => exact ((BitVec.ofNat_toNat 64 (a ||| b)).trans (BitVec.setWidth_eq _)).symm
  | xor => exact ((BitVec.ofNat_toNat 64 (a ^^^ b)).trans (BitVec.setWidth_eq _)).symm
  | shl =>
    simp only [aluEval, aluRule]
    split
    · rfl
    · exact BitVec.eq_of_toNat_eq (by simp [Nat.shiftLeft_eq])
  | shrl =>
    simp only [aluEval, aluRule]
    split
    · rfl
    · refine BitVec.eq_of_toNat_eq ?_
      rw [BitVec.toNat_ushiftRight, Nat.shiftRight_eq_div_pow, BitVec.toNat_ofNat]
      exact (Nat.mod_eq_of_lt (lt_of_le_of_lt (Nat.div_le_self _ _) a.isLt)).symm
  | shra => exact (sshiftRight_eq_ofInt_div a b.toNat).trans (ofNat_emod_eq_ofInt _).symm
  | eq => exact (bool64_eq_ofNat _).trans (by simp [aluRule, BitVec.toNat_inj])
  | ne => exact (bool64_eq_ofNat _).trans (by simp [aluRule, BitVec.toNat_inj])
  | ltS => exact bool64_eq_ofNat _
  | ltU => exact bool64_eq_ofNat _
  | leS => exact bool64_eq_ofNat _
  | leU => exact bool64_eq_ofNat _

/-- An instruction that retires replaces its bank, and nothing else of the state. -/
theorem State.done_eq_withBank (s : State) (t b : Nat) (f : Bank → Bank) :
    s.done t b f = withBank s t b (retired (f (s.bank t b))) := rfl

/-- A scalar instruction that gives register `d` the value that `val` takes from its bank. -/
theorem exec_of_setS {t : TileIx} {b : BankIx} {s : State} (hr : runsNext s t.val b.val) {op : ScalarOp} {d : SReg}
    {val : Bank → DWord} {v : Nat}
    (hop : exec (.scalarOp t b op) s = .next (s.run t.val b.val fun _ s => s.done t.val b.val fun k => k.setS d.val (val k)))
    (hv : val (s.bank t.val b.val) = BitVec.ofNat 64 v) :
    exec (.scalarOp t b op) s = .next (withBank s t.val b.val (retired { s.bank t.val b.val with
      sReg := Tab.insert (s.bank t.val b.val).sReg d.val (BitVec.ofNat 64 v) })) := by
  rw [exec_of_run hr hop, State.done_eq_withBank, hv]
  rfl

/-- Settles O18: each operation's value is R97's, and the instruction writes it and retires. -/
theorem scalarArithmetic : Obligations.ScalarArithmetic := fun _ _ _ hr =>
  ⟨fun op _ _ _ => exec_of_setS hr rfl (aluEval_eq_aluRule op _ _),
    fun op _ _ _ => exec_of_setS hr rfl (aluEval_eq_aluRule op _ _),
    fun _ imm => exec_of_setS hr rfl (ofNat_emod_eq_ofInt imm.toInt).symm⟩

end Sys2Proof.Machine
end

section
/-! SUPPORT. Bytes of a vector register, conversions and block quantize (R89 to R95): what a byte reads after a register is
written with bytes, and what an instruction that writes packed elements leaves. -/

namespace Sys2Proof.Machine

/-! ### Bytes of a register -/

theorem leNat_lt (bs : Bytes) : leNat bs < 256 ^ bs.length := by
  induction bs with
  | nil => decide
  | cons b bs ih =>
    have hb := b.isLt
    rw [leNat, List.length_cons, Nat.pow_succ]
    omega

/-- Byte `i` of a value is the list's; bytes beyond the list are 0. -/
theorem leNat_byte (bs : Bytes) (i : Nat) : leNat bs / 256 ^ i % 256 = (bs.getD i 0).toNat := by
  induction bs generalizing i with
  | nil => simp [leNat]
  | cons b bs ih =>
    have hb := b.isLt
    cases i with
    | zero =>
      rw [leNat, List.getD_cons_zero]
      omega
    | succ i =>
      rw [List.getD_cons_succ, ← ih i, Nat.pow_succ', ← Nat.div_div_eq_div_mul, leNat,
        show (b.toNat + 256 * leNat bs) / 256 = leNat bs by omega]

theorem Bank.butV_setVBytes (k : Bank) (d : Nat) (bs : Bytes) : (k.setVBytes d bs).butV = k.butV := Bank.butV_setV k d _

theorem Bank.v32_setVBytes_other (k : Bank) {d r : Nat} (bs : Bytes) (hr : r ≠ d) {i : Nat} (hi : i < 128) :
    (k.setVBytes d bs).v32 r i = k.v32 r i := Bank.v32_setV_other k _ hr hi

/-- A lane of a register written with bytes: four of them, the first lowest. -/
theorem Bank.v32_setVBytes (k : Bank) (d : Nat) (bs : Bytes) {i : Nat} (hi : i < 128) :
    (k.setVBytes d bs).v32 d i = leNat ((bs.drop (4 * i)).take 4) := by
  have hlt : leNat ((bs.drop (4 * i)).take 4) < 2 ^ 32 := calc
    _ < 256 ^ ((bs.drop (4 * i)).take 4).length := leNat_lt _
    _ ≤ 256 ^ 4 := Nat.pow_le_pow_right (by decide) (List.length_take_le _ _)
  rw [Bank.setVBytes, Bank.v32_setV_lane _ _ _ (by simp) hi, getD_map_range _ _ hi, Nat.mod_eq_of_lt hlt]

/-- A byte of a register written with bytes. -/
theorem Bank.vByte_setVBytes (k : Bank) (d : Nat) (bs : Bytes) {i : Nat} (hi : i < 512) :
    (k.setVBytes d bs).vByte d i = (bs.getD i 0).toNat := by
  have hsub : ((bs.drop (4 * (i / 4))).take 4).getD (i % 4) 0 = bs.getD i 0 := by
    rw [List.getD_eq_getElem?_getD, List.getElem?_take_of_lt (Nat.mod_lt _ (by decide)), List.getElem?_drop, Nat.div_add_mod,
      List.getD_eq_getElem?_getD]
  rw [Bank.vByte, k.v32_setVBytes d bs (by omega), Nat.pow_mul, show 2 ^ 8 = 256 from rfl, leNat_byte, hsub]

/-- Result bytes stand in front of the free bytes that fill the register up. -/
theorem padFree_getD {bs : Bytes} {i : Nat} {y : Byte} (h : bs[i]? = some y) (key : List Nat) :
    (padFree key bs).getD i 0 = y := by
  obtain ⟨hi, -⟩ := List.getElem?_eq_some_iff.mp h
  rw [padFree, List.getD_eq_getElem?_getD, List.getElem?_append_left hi, h]
  rfl

/-! ### Instructions that write packed elements -/

/-- Bank `x` is bank `k` with the bytes `bs` in vector register `d`, from byte 0 on; every other register is as it was. -/
structure Packed (k x : Bank) (d : VReg) (bs : Bytes) : Prop where
  rest : x.butV = k.butV
  bytes : ∀ i y, bs[i]? = some y → i < 512 → x.vByte d.val i = y.toNat
  others : ∀ r : VReg, r ≠ d → ∀ i < 128, x.v32 r.val i = k.v32 r.val i

theorem Packed.setVBytes (k : Bank) (d : VReg) (key : List Nat) (bs : Bytes) :
    Packed k (k.setVBytes d.val (padFree key bs)) d bs where
  rest := k.butV_setVBytes d.val _
  bytes _ _ hy hi := (k.vByte_setVBytes d.val _ hi).trans (congrArg _ (padFree_getD hy key))
  others _ hr _ hi := k.v32_setVBytes_other _ (fun h => hr (Fin.ext h)) hi

/-- The 128 elements that a conversion makes of its source (R89 to R93). -/
def Bank.converted (k : Bank) (c : Conversion) (f g : Fmt) (scaled : Bool) : List Nat :=
  (List.range 128).map fun i =>
    (convert g c.rm c.sat (readElem f scaled (k.vByte c.src.val) (k.vByte c.scale.val) i).1).1

/-- The scale, the elements and the flags that a block quantize makes of its sources (R94, R95). -/
def Bank.quantized (k : Bank) (q : Quantize) (f g : Fmt) : Nat × List Nat × AFlags :=
  let get := fun i => if i < 512 then k.vByte q.src.val i else k.vByte q.src2.val (i - 512)
  let vs := (List.range q.count.val).map fun i => f.read (elemBits f get i).1
  if g = .tq2 then quantizeTq2 vs else quantizeMx g q.rm vs

/-- A conversion between formats packs its elements, adds flags and retires. -/
theorem State.convRun_packed {s : State} {t : Nat} {c : Conversion} {f g : Fmt} {scaled scaled' : Bool}
    (hs : s.optype t 1 c.srcType = .ok (f, scaled)) (hd : s.optype t 1 c.dstFmt = .ok (g, scaled')) (b : Nat) :
    ∃ (x : Bank) (fl : AFlags), Packed (s.bank t b) x c.dst (packElems g ((s.bank t b).converted c f g scaled)) ∧
      (s.convRun t b (s.bank t b) c).bank t b = { x with flags := x.flags ||| fl }.retire := by
  simp only [State.convRun, hs, hd, List.map_map]
  exact ⟨_, _, .setVBytes _ _ _ _, (s.vecEnd_bankOnly t b _ _).bank⟩

/-- A block quantize of a count within the block packs its elements and the zeros of the block's rest, writes the scale, adds
flags and retires. -/
theorem State.quantRun_packed {s : State} {t : Nat} {q : Quantize} {f g : Fmt} {scaled : Bool}
    (hs : s.optype t 1 q.srcFmt = .ok (f, false)) (hd : s.optype t 1 q.dstFmt = .ok (g, scaled)) (hl : isLane g = false)
    (h1 : 1 ≤ q.count.val) (hn : q.count.val ≤ g.block) (b : Nat) :
    let r := (s.bank t b).quantized q f g
    ∃ x : Bank, Packed (s.bank t b) x q.dst (packElems g (r.2.1 ++ List.replicate (g.block - q.count.val) 0)) ∧
      (s.quantRun t b (s.bank t b) q).bank t b =
        let y := x.setS q.scale.val (BitVec.ofNat 64 r.1)
        { y with flags := y.flags ||| r.2.2 }.retire := by
  have hgood : ¬ (isLane g = true ∨ false = true ∨ q.count.val = 0 ∨ g.block < q.count.val) := by
    simp only [hl, Bool.false_eq_true, false_or]
    omega
  simp only [State.quantRun, hs, hd]
  rw [if_neg hgood]
  exact ⟨_, .setVBytes _ _ _ _, (s.vecEnd_bankOnly t b _ _).bank⟩

/-- Settles O22: both instructions pack their elements in one vector register; a block quantize also writes its scale. -/
theorem conversionsAndQuantize : Obligations.ConversionsAndQuantize := by
  refine fun t b s hr => ⟨fun c f g scaled scaled' hs hd => ⟨_, exec_of_run hr rfl, ?_⟩,
    fun q f g scaled hs hd hl h1 hn => ⟨_, exec_of_run hr rfl, ?_⟩⟩
  · obtain ⟨x, fl, hp, hx⟩ := State.convRun_packed hs hd b.val
    dsimp only
    rw [hx]
    exact ⟨congrArg (·.pc + 1) hp.rest, congrArg (·.progress + 1) hp.rest, congrArg (·.sReg) hp.rest,
      congrArg (·.pReg) hp.rest, congrArg (·.acc) hp.rest, hp.bytes, hp.others⟩
  · obtain ⟨x, hp, hx⟩ := State.quantRun_packed hs hd hl h1 hn b.val
    dsimp only
    rw [hx]
    exact ⟨congrArg (·.pc + 1) hp.rest, congrArg (·.progress + 1) hp.rest,
      congrArg (Tab.insert · q.scale.val _) (congrArg (·.sReg) hp.rest :), congrArg (·.pReg) hp.rest, congrArg (·.acc) hp.rest,
      hp.bytes, hp.others⟩

end Sys2Proof.Machine
end

section
/-! SUPPORT. Instruction words (R116, R117, R120, R123): what a field of a word put together from OPC and its other bits
reads as, which of its bits are reserved, and the command it stands for. -/

set_option Elab.async false

namespace Sys2Proof.Machine

/-! ### A run of ones -/

/-- The number whose bits [o + n − 1 : o] alone are 1. -/
theorem testBit_ones (n o i : Nat) : ((2 ^ n - 1) * 2 ^ o).testBit i = decide (o ≤ i ∧ i < o + n) := by
  rw [← Nat.shiftLeft_eq, Nat.testBit_shiftLeft, Nat.testBit_two_pow_sub_one, Bool.eq_iff_iff]
  simp
  omega

theorem getLsbD_ones (w n o i : Nat) :
    (BitVec.ofNat w ((2 ^ n - 1) * 2 ^ o)).getLsbD i = decide (i < w ∧ o ≤ i ∧ i < o + n) := by
  rw [BitVec.getLsbD_ofNat, testBit_ones, Bool.eq_iff_iff]
  simp

/-- A run of ones meets a value just where the field there is not zero. -/
theorem and_ones_eq_zero_iff {w : Nat} (v : BitVec w) {n o : Nat} (h : o + n ≤ w) :
    v &&& BitVec.ofNat w ((2 ^ n - 1) * 2 ^ o) = 0 ↔ fld v o n = 0 := by
  rw [fld_eq_zero_iff_getLsbD]
  constructor
  · intro hv i hi
    have hb := congrArg (BitVec.getLsbD · (o + i)) hv
    rw [BitVec.getLsbD_and, getLsbD_ones] at hb
    have hr : o + i < w ∧ o ≤ o + i ∧ o + i < o + n := by omega
    simpa [hr] using hb
  · intro hv
    refine BitVec.eq_of_getLsbD_eq fun i _ => ?_
    rw [BitVec.getLsbD_and, getLsbD_ones]
    by_cases hr : i < w ∧ o ≤ i ∧ i < o + n
    · have hb := hv (i - o) (by omega)
      rw [show o + (i - o) = i by omega] at hb
      simp [hb]
    · simp [hr]

/-! ### Fields of a word -/

/-- The instruction word with OPC `opc` and bits [55:0] `rest`. -/
def word (opc rest : Nat) : DWord := BitVec.ofNat 64 (opc * 2 ^ 56 + rest)

section
variable {opc rest : Nat} (ho : opc < 256) (hr : rest < 2 ^ 56)
include ho hr

theorem word_toNat : (word opc rest).toNat = opc * 2 ^ 56 + rest := by
  rw [word, BitVec.toNat_ofNat]
  omega

theorem wOpc_word : wOpc (word opc rest) = opc := by
  rw [wOpc, wF, word_toNat ho hr]
  omega

/-- A field below OPC is that of the other bits. -/
theorem wF_word {lo n : Nat} (h : lo + n ≤ 56) : wF (word opc rest) lo n = rest / 2 ^ lo % 2 ^ n := by
  have hk : opc * 2 ^ 56 = 2 ^ lo * (2 ^ n * (2 ^ (56 - lo - n) * opc)) := by
    rw [← mul_assoc, ← mul_assoc, ← pow_add, ← pow_add, show lo + n + (56 - lo - n) = 56 by omega, mul_comm]
  rw [wF, word_toNat ho hr, hk, Nat.mul_add_div (Nat.two_pow_pos lo), Nat.mul_add_mod]

/-- A class that keeps the `n` bits from bit `lo` on at zero. -/
theorem reservedOk_word {c : OpClass} (lo n : Nat) (hc : 2 ^ 56 - 1 - namedBits c = (2 ^ n - 1) * 2 ^ lo) (h : lo + n ≤ 56) :
    Sys2Proof.reservedOk c (word opc rest) = decide (rest / 2 ^ lo % 2 ^ n = 0) := by
  rw [Sys2Proof.reservedOk, hc, ← wF_word ho hr h, decide_eq_decide, and_ones_eq_zero_iff _ (by omega), fld_eq_zero_iff, wF]

/-- A register or channel that a field of the other bits numbers. -/
theorem ofNat_wF_word {lo n m : Nat} [NeZero m] {d : Fin m} (h : lo + n ≤ 56) (hd : rest / 2 ^ lo % 2 ^ n = d.val) :
    Fin.ofNat m (wF (word opc rest) lo n) = d := by
  rw [wF_word ho hr h, hd]
  exact Fin.ext (Nat.mod_eq_of_lt d.isLt)

/-- A value that a field of the other bits holds. -/
theorem bv_wF_word {lo n : Nat} {v : BitVec n} (h : lo + n ≤ 56) (hv : rest / 2 ^ lo % 2 ^ n = v.toNat) :
    BitVec.ofNat n (wF (word opc rest) lo n) = v := by
  rw [wF_word ho hr h, hv, BitVec.ofNat_toNat, BitVec.setWidth_eq]

end

/-! ### The command of a word -/

/-- A word of class `c` whose reserved bits are zero. -/
structure Spells (c : OpClass) (w : DWord) : Prop where
  cls : opClass (wOpc w) = some c
  ok : Sys2Proof.reservedOk c w = true

section
variable (t : TileIx) (b : BankIx) (ecc : Ecc) {w : DWord}

theorem wordCommand_unlisted (h : opClass (wOpc w) = none) : wordCommand t b w ecc = .scalarOp t b .illegal := by
  simp only [wordCommand, h]

theorem wordCommand_reserved {c : OpClass} (h : opClass (wOpc w) = some c) (hz : Sys2Proof.reservedOk c w = false) :
    wordCommand t b w ecc = .scalarOp t b .illegal := by
  simp only [wordCommand, h, hz, Bool.not_false, if_true]

/-! A word of a class whose reserved bits are zero stands for the class's command, with the word's fields. -/

theorem wordCommand_streamStart (h : Spells .streamStart w) :
    wordCommand t b w ecc = .streamStart t b (wCh w) (wChReg w) ecc := by
  simp only [wordCommand, h.cls, h.ok, Bool.not_true, Bool.false_eq_true, if_false]

theorem wordCommand_streamArm (h : Spells .streamArm w) : wordCommand t b w ecc = .streamArm t b (wCh w) (wChReg w) := by
  simp only [wordCommand, h.cls, h.ok, Bool.not_true, Bool.false_eq_true, if_false]

theorem wordCommand_streamWait (h : Spells .streamWait w) : wordCommand t b w ecc = .streamWait t b (wCh w) := by
  simp only [wordCommand, h.cls, h.ok, Bool.not_true, Bool.false_eq_true, if_false]

theorem wordCommand_streamStop (h : Spells .streamStop w) : wordCommand t b w ecc = .streamStop t b (wCh w) := by
  simp only [wordCommand, h.cls, h.ok, Bool.not_true, Bool.false_eq_true, if_false]

theorem wordCommand_fenceSignal (h : Spells .fenceSignal w) : wordCommand t b w ecc = .fenceSignal t b (handleWord w) := by
  simp only [wordCommand, h.cls, h.ok, Bool.not_true, Bool.false_eq_true, if_false]

theorem wordCommand_fenceWait (h : Spells .fenceWait w) : wordCommand t b w ecc = .fenceWait t b (handleWord w) := by
  simp only [wordCommand, h.cls, h.ok, Bool.not_true, Bool.false_eq_true, if_false]

theorem wordCommand_semAcq (h : Spells .semAcq w) : wordCommand t b w ecc = .semAcq t b (handleWord w) := by
  simp only [wordCommand, h.cls, h.ok, Bool.not_true, Bool.false_eq_true, if_false]

theorem wordCommand_semRel (h : Spells .semRel w) : wordCommand t b w ecc = .semRel t b (handleWord w) := by
  simp only [wordCommand, h.cls, h.ok, Bool.not_true, Bool.false_eq_true, if_false]

theorem wordCommand_barArrive (h : Spells .barArrive w) : wordCommand t b w ecc = .barArrive t b (wDst w) (wSrcA w) := by
  simp only [wordCommand, h.cls, h.ok, Bool.not_true, Bool.false_eq_true, if_false]

theorem wordCommand_barWait (h : Spells .barWait w) :
    wordCommand t b w ecc = .barWait t b (wDst w) (wSrcA w) (wSrcB w) (decide (wF w 40 1 = 1)) (BitVec.ofNat 16 (wF w 24 16)) := by
  simp only [wordCommand, h.cls, h.ok, Bool.not_true, Bool.false_eq_true, if_false]

theorem wordCommand_flags (h : Spells .flags w) :
    wordCommand t b w ecc = .flagsOp t b (wDst w) (BitVec.ofNat 5 (wF w 0 5)) := by
  simp only [wordCommand, h.cls, h.ok, Bool.not_true, Bool.false_eq_true, if_false]

theorem wordCommand_endProg (h : Spells .endProg w) : wordCommand t b w ecc = .endOp t b := by
  simp only [wordCommand, h.cls, h.ok, Bool.not_true, Bool.false_eq_true, if_false]

theorem wordCommand_nop (h : Spells .nop w) : wordCommand t b w ecc = .nopOp t b := by
  simp only [wordCommand, h.cls, h.ok, Bool.not_true, Bool.false_eq_true, if_false]

theorem wordCommand_mmaB (h : Spells .mmaB w) : wordCommand t b w ecc = .mmaB t b (mmaWord w) [] := by
  simp only [wordCommand, h.cls, h.ok, Bool.not_true, Bool.false_eq_true, if_false]

theorem wordCommand_mmaV (h : Spells .mmaV w) : wordCommand t b w ecc = .mmaV t b (mmaWord w) [] := by
  simp only [wordCommand, h.cls, h.ok, Bool.not_true, Bool.false_eq_true, if_false]

end

section
variable {opc rest : Nat} (ho : opc < 256) (hr : rest < 2 ^ 56)
include ho hr

theorem spells_word {c : OpClass} (h : opClass opc = some c) (lo n : Nat) (hc : 2 ^ 56 - 1 - namedBits c = (2 ^ n - 1) * 2 ^ lo)
    (hn : lo + n ≤ 56) (hz : rest / 2 ^ lo % 2 ^ n = 0) : Spells c (word opc rest) where
  cls := by rw [wOpc_word ho hr, h]
  ok := by rw [reservedOk_word ho hr lo n hc hn, hz]; rfl

theorem wordCommand_reservedBits (t : TileIx) (b : BankIx) (ecc : Ecc) {c : OpClass} (h : opClass opc = some c) (lo n : Nat)
    (hc : 2 ^ 56 - 1 - namedBits c = (2 ^ n - 1) * 2 ^ lo) (hn : lo + n ≤ 56) (hz : rest / 2 ^ lo % 2 ^ n ≠ 0) :
    wordCommand t b (word opc rest) ecc = .scalarOp t b .illegal :=
  wordCommand_reserved t b ecc (by rw [wOpc_word ho hr, h]) (by rw [reservedOk_word ho hr lo n hc hn]; exact decide_eq_false hz)

end

/-! ### The classes of the statement -/

section
variable (t : TileIx) (b : BankIx) (ecc : Ecc)

/-- R117 lists no OPC of these ranges. -/
theorem opClass_unlisted {opc : Nat} (h : 0x13 < opc ∧ opc < 0x20 ∨ 0x35 < opc ∧ opc < 0x40 ∨ 0x43 < opc ∧ opc < 0x50 ∨
    0x53 < opc ∧ opc < 0x58 ∨ opc = 0x5E ∨ opc = 0x5F ∨ 0x62 < opc) : opClass opc = none := by
  unfold opClass
  rw [if_neg (by omega), if_neg (by omega), if_neg (by omega), if_neg (by omega)]
  split
  case h_20 => rfl
  all_goals omega

theorem streamWords (ch : Fin 8) (r : Fin 32) :
    wordCommand t b (word 0x50 (ch.val * 2 ^ 53 + r.val * 2 ^ 48)) ecc = .streamStart t b ch r ecc ∧
    wordCommand t b (word 0x51 (ch.val * 2 ^ 53 + r.val * 2 ^ 48)) ecc = .streamArm t b ch r ∧
    wordCommand t b (word 0x52 (ch.val * 2 ^ 53)) ecc = .streamWait t b ch ∧
    wordCommand t b (word 0x53 (ch.val * 2 ^ 53)) ecc = .streamStop t b ch := by
  have hc := ch.isLt
  have hr : ch.val * 2 ^ 53 + r.val * 2 ^ 48 < 2 ^ 56 := by omega
  have hr' : ch.val * 2 ^ 53 < 2 ^ 56 := Nat.lt_of_le_of_lt (Nat.le_add_right _ _) hr
  have hch {opc : Nat} (ho : opc < 256) : wCh (word opc (ch.val * 2 ^ 53 + r.val * 2 ^ 48)) = ch :=
    ofNat_wF_word ho hr (by decide) (by omega)
  have hreg {opc : Nat} (ho : opc < 256) : wChReg (word opc (ch.val * 2 ^ 53 + r.val * 2 ^ 48)) = r :=
    ofNat_wF_word ho hr (by decide) (by omega)
  have hch' {opc : Nat} (ho : opc < 256) : wCh (word opc (ch.val * 2 ^ 53)) = ch :=
    ofNat_wF_word ho hr' (by decide) (by omega)
  refine ⟨?_, ?_, ?_, ?_⟩
  · rw [wordCommand_streamStart t b ecc (spells_word (by decide) hr rfl 0 48 rfl (by decide) (by omega)),
      hch (by decide), hreg (by decide)]
  · rw [wordCommand_streamArm t b ecc (spells_word (by decide) hr rfl 0 48 rfl (by decide) (by omega)),
      hch (by decide), hreg (by decide)]
  · rw [wordCommand_streamWait t b ecc (spells_word (by decide) hr' rfl 0 53 rfl (by decide) (by omega)), hch' (by decide)]
  · rw [wordCommand_streamStop t b ecc (spells_word (by decide) hr' rfl 0 53 rfl (by decide) (by omega)), hch' (by decide)]

theorem handleWords (d x y : Fin 32) :
    let f := d.val * 2 ^ 51 + x.val * 2 ^ 46 + y.val * 2 ^ 41
    wordCommand t b (word 0x58 f) ecc = .fenceSignal t b ⟨d, x, y⟩ ∧
    wordCommand t b (word 0x59 f) ecc = .fenceWait t b ⟨d, x, y⟩ ∧
    wordCommand t b (word 0x5A f) ecc = .semAcq t b ⟨d, x, y⟩ ∧
    wordCommand t b (word 0x5B f) ecc = .semRel t b ⟨d, x, y⟩ := by
  intro f
  have hr : f < 2 ^ 56 := by omega
  have hop {opc : Nat} (ho : opc < 256) : handleWord (word opc f) = ⟨d, x, y⟩ := by
    rw [handleWord, wDst, wSrcA, wSrcB, ofNat_wF_word (d := d) ho hr (by decide) (by omega),
      ofNat_wF_word (d := x) ho hr (by decide) (by omega), ofNat_wF_word (d := y) ho hr (by decide) (by omega)]
  refine ⟨?_, ?_, ?_, ?_⟩
  · rw [wordCommand_fenceSignal t b ecc (spells_word (by decide) hr rfl 0 41 rfl (by decide) (by omega)), hop (by decide)]
  · rw [wordCommand_fenceWait t b ecc (spells_word (by decide) hr rfl 0 41 rfl (by decide) (by omega)), hop (by decide)]
  · rw [wordCommand_semAcq t b ecc (spells_word (by decide) hr rfl 0 41 rfl (by decide) (by omega)), hop (by decide)]
  · rw [wordCommand_semRel t b ecc (spells_word (by decide) hr rfl 0 41 rfl (by decide) (by omega)), hop (by decide)]

theorem barArriveWord (d x : Fin 32) :
    wordCommand t b (word 0x5C (d.val * 2 ^ 51 + x.val * 2 ^ 46)) ecc = .barArrive t b d x := by
  have hr : d.val * 2 ^ 51 + x.val * 2 ^ 46 < 2 ^ 56 := by omega
  rw [wordCommand_barArrive t b ecc (spells_word (by decide) hr rfl 0 46 rfl (by decide) (by omega)), wDst, wSrcA,
    ofNat_wF_word (d := d) (by decide) hr (by decide) (by omega), ofNat_wF_word (d := x) (by decide) hr (by decide) (by omega)]

theorem barWaitWord (d x y : Fin 32) (fa : Bool) (n : BitVec 16) :
    wordCommand t b (word 0x5D (d.val * 2 ^ 51 + x.val * 2 ^ 46 + y.val * 2 ^ 41 + (if fa then 2 ^ 40 else 0) + n.toNat * 2 ^ 24)) ecc =
      .barWait t b d x y fa n := by
  have hn := n.isLt
  obtain ⟨h, hh, hfa⟩ : ∃ h < 2, (if fa then 2 ^ 40 else 0) = h * 2 ^ 40 ∧ fa = decide (h = 1) := by
    cases fa
    · exact ⟨0, by decide, rfl, rfl⟩
    · exact ⟨1, by decide, rfl, rfl⟩
  rw [hfa.1]
  have hr : d.val * 2 ^ 51 + x.val * 2 ^ 46 + y.val * 2 ^ 41 + h * 2 ^ 40 + n.toNat * 2 ^ 24 < 2 ^ 56 := by omega
  rw [wordCommand_barWait t b ecc (spells_word (by decide) hr rfl 0 24 rfl (by decide) (by omega)), wDst, wSrcA, wSrcB,
    ofNat_wF_word (d := d) (by decide) hr (by decide) (by omega), ofNat_wF_word (d := x) (by decide) hr (by decide) (by omega),
    ofNat_wF_word (d := y) (by decide) hr (by decide) (by omega), bv_wF_word (v := n) (by decide) hr (by decide) (by omega),
    wF_word (by decide) hr (by decide), hfa.2]
  exact congrArg (Instr.barWait t b d x y · n) (decide_eq_decide.mpr (by omega))

theorem flagsWord (d : Fin 32) (m : BitVec 5) :
    wordCommand t b (word 0x60 (d.val * 2 ^ 51 + m.toNat)) ecc = .flagsOp t b d m := by
  have hm := m.isLt
  have hr : d.val * 2 ^ 51 + m.toNat < 2 ^ 56 := by omega
  rw [wordCommand_flags t b ecc (spells_word (by decide) hr rfl 5 46 rfl (by decide) (by omega)), wDst,
    ofNat_wF_word (d := d) (by decide) hr (by decide) (by omega), bv_wF_word (v := m) (by decide) hr (by decide) (by omega)]

theorem endWord : wordCommand t b (word 0x61 0) ecc = .endOp t b :=
  wordCommand_endProg t b ecc (spells_word (by decide) (by decide) rfl 0 56 rfl (by decide) (by decide))

theorem nopWord : wordCommand t b (word 0x62 0) ecc = .nopOp t b :=
  wordCommand_nop t b ecc (spells_word (by decide) (by decide) rfl 0 56 rfl (by decide) (by decide))

theorem mmaWords (acc : Fin 4) (x y : Fin 32) (m : BitVec 3) (k : BitVec 18) (n : BitVec 7) (low : BitVec 16) :
    let f := acc.val * 2 ^ 54 + m.toNat * 2 ^ 51 + x.val * 2 ^ 46 + y.val * 2 ^ 41 + k.toNat * 2 ^ 23 + n.toNat * 2 ^ 16 + low.toNat
    let o : Mma := { acc := acc, m := m, sa := x, sb := y, k := k, ncol := n, reserved := low }
    wordCommand t b (word 0x40 f) ecc = .mmaB t b o [] ∧ wordCommand t b (word 0x41 f) ecc = .mmaV t b o [] := by
  intro f o
  have hm := m.isLt
  have hk := k.isLt
  have hn := n.isLt
  have hl := low.isLt
  have hr : f < 2 ^ 56 := by omega
  have hop {opc : Nat} (ho : opc < 256) : mmaWord (word opc f) = o := by
    rw [mmaWord, wSrcA, wSrcB, ofNat_wF_word (d := acc) ho hr (by decide) (by omega),
      ofNat_wF_word (d := x) ho hr (by decide) (by omega), ofNat_wF_word (d := y) ho hr (by decide) (by omega),
      bv_wF_word (v := m) ho hr (by decide) (by omega), bv_wF_word (v := k) ho hr (by decide) (by omega),
      bv_wF_word (v := n) ho hr (by decide) (by omega), bv_wF_word (v := low) ho hr (by decide) (by omega)]
  refine ⟨?_, ?_⟩
  · rw [wordCommand_mmaB t b ecc (spells_word (by decide) hr rfl 0 0 rfl (by decide) (Nat.mod_one _)), hop (by decide)]
  · rw [wordCommand_mmaV t b ecc (spells_word (by decide) hr rfl 0 0 rfl (by decide) (Nat.mod_one _)), hop (by decide)]

theorem reservedWords {rest : Nat} (hr : rest < 2 ^ 56) :
    let bad := Instr.scalarOp t b .illegal
    let cmd := fun opc => wordCommand t b (word opc rest) ecc
    (rest % 2 ^ 48 ≠ 0 → cmd 0x50 = bad ∧ cmd 0x51 = bad) ∧
    (rest % 2 ^ 53 ≠ 0 → cmd 0x52 = bad ∧ cmd 0x53 = bad) ∧
    (rest % 2 ^ 41 ≠ 0 → ∀ opc, 0x58 ≤ opc → opc ≤ 0x5B → cmd opc = bad) ∧
    (rest % 2 ^ 46 ≠ 0 → cmd 0x5C = bad) ∧ (rest % 2 ^ 24 ≠ 0 → cmd 0x5D = bad) ∧
    (rest / 32 % 2 ^ 46 ≠ 0 → cmd 0x60 = bad) ∧ (rest ≠ 0 → cmd 0x61 = bad ∧ cmd 0x62 = bad) := by
  intro bad cmd
  have low {opc : Nat} (ho : opc < 256) {c : OpClass} (h : opClass opc = some c) (n : Nat)
      (hc : 2 ^ 56 - 1 - namedBits c = (2 ^ n - 1) * 2 ^ 0) (hn : n ≤ 56) (hz : rest % 2 ^ n ≠ 0) : cmd opc = bad :=
    wordCommand_reservedBits ho hr t b ecc h 0 n hc (by omega) (by rwa [pow_zero, Nat.div_one])
  refine ⟨fun h => ⟨low (by decide) rfl 48 rfl (by decide) h, low (by decide) rfl 48 rfl (by decide) h⟩,
    fun h => ⟨low (by decide) rfl 53 rfl (by decide) h, low (by decide) rfl 53 rfl (by decide) h⟩,
    fun h opc h1 h2 => ?_, low (by decide) rfl 46 rfl (by decide), low (by decide) rfl 24 rfl (by decide),
    wordCommand_reservedBits (by decide) hr t b ecc rfl 5 46 rfl (by decide), fun h => ?_⟩
  · obtain rfl | rfl | rfl | rfl : opc = 0x58 ∨ opc = 0x59 ∨ opc = 0x5A ∨ opc = 0x5B := by omega
    all_goals exact low (by decide) rfl 41 rfl (by decide) h
  · have hz : rest % 2 ^ 56 ≠ 0 := by rwa [Nat.mod_eq_of_lt hr]
    exact ⟨low (by decide) rfl 56 rfl (by decide) hz, low (by decide) rfl 56 rfl (by decide) hz⟩

end

/-- Settles O7: OPC tells the class, the class its reserved bits and its fields. -/
theorem instructionWords : Obligations.InstructionWords := by
  intro t b ecc
  refine ⟨fun opc rest ho hr h => wordCommand_unlisted t b ecc (by rw [← word, wOpc_word ho hr, opClass_unlisted h]),
    fun ch r => streamWords t b ecc ch r, fun d x y => ?_, endWord t b ecc, nopWord t b ecc,
    fun acc x y m k n low => mmaWords t b ecc acc x y m k n low, fun rest hr => reservedWords t b ecc hr⟩
  obtain ⟨hsig, hwait, hacq, hrel⟩ := handleWords t b ecc d x y
  exact ⟨hsig, hwait, hacq, hrel, barArriveWord t b ecc d x, fun fa n => barWaitWord t b ecc d x y fa n,
    fun m => flagsWord t b ecc d m⟩

end Sys2Proof.Machine
end

section
/-! SUPPORT. Branches, jumps, calls and returns, FLAGS, NOP and END (R114, R115, R117, R118, R124), and the bank that a tile
fault leaves (R71). -/

set_option Elab.async false

namespace Sys2Proof.Machine

/-! ### A tile fault -/

/-- A bank that holds a context and takes a tile fault is FAULTED with it. -/
theorem State.bank_tileFault {s : State} {t b : Nat}
    (h : ¬ ((s.bank t b).st = .empty ∨ (s.bank t b).st = .purging ∨ (s.bank t b).st = .faulted)) (code detail : Nat) :
    (s.tileFault t b code detail).bank t b = (s.bank t b).faulted code detail := by
  have hb := s.bank_faultBank t b code detail
  unfold State.tileFault
  rw [if_neg h]
  dsimp only
  rw [← hb]
  refine (State.ctxFault_bankStays _ _ _ _ _ _ _ _).after ?_ (by rw [hb]; rfl)
  exact BankStays.ite (fun _ => (State.countLost_within _ _).bankStays) fun _ => .refl t b _

/-! ### A bank that issues -/

/-- A bank that issues runs and waits for nothing. -/
theorem State.runs_of_issues {s : State} {t b : Nat} (h : s.issues t b = true) :
    (s.bank t b).st = .running ∧ (s.bank t b).wait = none := by
  unfold State.issues at h
  obtain ⟨hrest, -⟩ := (Bool.and_eq_true_iff.mp h)
  simp only [Bool.and_eq_true, decide_eq_true_eq, Option.isNone_iff_eq_none] at hrest
  obtain ⟨⟨⟨hrun, -⟩, -⟩, -⟩ := hrest
  exact hrun

theorem State.st_of_issues {s : State} {t b : Nat} (h : s.issues t b = true) : (s.bank t b).st = .running :=
  (State.runs_of_issues h).1

theorem State.wait_of_issues {s : State} {t b : Nat} (h : s.issues t b = true) : (s.bank t b).wait = none :=
  (State.runs_of_issues h).2

theorem State.bank_illegal {s : State} {t b : Nat} (h : s.issues t b = true) :
    (s.illegal t b).bank t b = (s.bank t b).faulted 1 ((s.bank t b).pc.toNat % 65536) :=
  State.bank_tileFault (by rw [State.st_of_issues h]; decide) _ _

/-! ### Control flow -/

/-- Control passes to a target that is an instruction's byte offset. -/
theorem State.goto_taken (s : State) (t b : Nat) {target : Nat} (h8 : target % 8 = 0) (hr : target < 2 ^ 25) (f : Bank → Bank) :
    s.goto t b target f = s.modBank t b fun k => { (f k).retire with pc := BitVec.ofNat 22 (target / 8) } :=
  if_neg (by omega)

theorem State.goto_illegal (s : State) (t b : Nat) {target : Nat} (h8 : target % 8 ≠ 0) (f : Bank → Bank) :
    s.goto t b target f = s.illegal t b := if_pos (Or.inl h8)

/-- Branches, jumps, calls and returns: where the PC goes, and what faults. -/
theorem scalarControlFlow : Stated.ScalarControlFlow := by
  intro t b s hr k at_
  refine ⟨fun c z target hc => ?_, fun target h8 => ⟨fun c z hc => ?_, ?_, fun l => ?_⟩, fun l h8 hlt => ?_, fun op hop => ?_⟩
  · refine (exec_of_run hr rfl).trans (congrArg _ (if_neg ?_))
    cases z <;> simpa using hc
  · refine (exec_of_run hr rfl).trans (congrArg _ ((if_pos ?_).trans (s.goto_taken _ _ h8 target.isLt id)))
    cases z <;> simpa using hc
  · exact (exec_of_run hr rfl).trans (congrArg _ (s.goto_taken _ _ h8 target.isLt id))
  · exact (exec_of_run hr rfl).trans (congrArg _ (s.goto_taken _ _ h8 target.isLt _))
  · exact (exec_of_run hr rfl).trans (congrArg _ (s.goto_taken _ _ h8 hlt id))
  · have hill : exec (.scalarOp t b op) s = .next (s.illegal t.val b.val) := by
      obtain rfl | ⟨target, rfl, h8⟩ := hop
      · exact (exec_of_run (f := fun _ s => s.illegal t.val b.val) hr rfl)
      · exact (exec_of_run hr rfl).trans (congrArg _ (s.goto_illegal _ _ h8 id))
    refine ⟨_, hill, ?_⟩
    dsimp only
    rw [State.bank_illegal hr.1]
    exact ⟨rfl, rfl, rfl, rfl⟩

/-! ### FLAGS, NOP, END -/

theorem State.modCmd_calm (s : State) (e : Nat) (index : Word) (f : QCmd → QCmd) : Calm s (s.modCmd e index f) :=
  (s.modCmd_within e index f).calm

/-- The end of a program completes commands of queues. -/
theorem State.launchEnded_calm (s : State) (t b : Nat) : Calm s (s.launchEnded t b) := by
  refine Calm.each _ _ _ fun s x => ?_
  dsimp only
  split
  · exact Calm.ite (fun _ => (State.complete_calm _ _ _ _ _ _).after (s.modCmd_calm _ _ _)) fun _ => s.modCmd_calm _ _ _
  · exact s.modCmd_calm _ _ _

theorem flagsEndAndNop : Stated.FlagsEndAndNop := by
  intro t b s hr k
  refine ⟨fun d clear => ?_, (exec_of_run hr rfl).trans rfl, ⟨_, exec_of_run hr rfl, ?_⟩⟩
  · rw [exec_of_run hr rfl, State.done_eq_withBank, BitVec.ofNat_toNat]
    rfl
  · have hd : (s.done t.val b.val fun k => { k with st := .loaded, inProg := false }).bank t.val b.val =
        retired { k with st := .loaded, inProg := false } := (s.done_bankOnly _ _ _).bank
    have hw : (s.bank t.val b.val).wait = none := State.wait_of_issues hr.1
    dsimp only
    rw [(State.launchEnded_calm _ _ _).bankStays (by rw [hd]; exact hw), hd]
    exact ⟨rfl, rfl, rfl, rfl, rfl⟩

/-- Settles O20: where each instruction leaves the PC, what faults, and the ends of FLAGS, NOP and END. -/
theorem controlFlowFlagsAndEnd : Obligations.ControlFlowFlagsAndEnd := ⟨scalarControlFlow, flagsEndAndNop⟩

end Sys2Proof.Machine
end

section
/-! SUPPORT. Bytes of a value, of a line and of the memory's lines (R8): each byte of what is written, and the part of a line
that a word within it is. -/

set_option Elab.async false

namespace Sys2Proof.Machine

/-! ### Bytes of a value -/

@[simp] theorem toBytes_length (n v : Nat) : (toBytes n v).length = n := by
  induction n generalizing v with
  | zero => rfl
  | succ n ih => rw [toBytes, List.length_cons, ih]

/-- Byte `i` of a value. -/
theorem toBytes_getElem (n v i : Nat) (h : i < (toBytes n v).length) : (toBytes n v)[i] = BitVec.ofNat 8 (v / 256 ^ i) := by
  induction n generalizing v i with
  | zero => simp at h
  | succ n ih =>
    cases i with
    | zero => simp [toBytes]
    | succ i =>
      simp only [toBytes, List.getElem_cons_succ, ih]
      rw [Nat.pow_succ', Nat.div_div_eq_div_mul]

theorem leNat_append (as bs : Bytes) : leNat (as ++ bs) = leNat as + 256 ^ as.length * leNat bs := by
  induction as with
  | nil => simp [leNat]
  | cons a as ih =>
    simp only [List.cons_append, leNat, ih, List.length_cons, Nat.pow_succ']
    ring

/-- The value of the first bytes of a list. -/
theorem leNat_take (bs : Bytes) {n : Nat} (h : n ≤ bs.length) : leNat (bs.take n) = leNat bs % 256 ^ n := by
  have hlt : leNat (bs.take n) < 256 ^ n := by simpa [h] using leNat_lt (bs.take n)
  conv_rhs => rw [← List.take_append_drop n bs, leNat_append, List.length_take_of_le h, Nat.add_mul_mod_self_left,
    Nat.mod_eq_of_lt hlt]

/-- The value of a list without its first bytes. -/
theorem leNat_drop (bs : Bytes) {n : Nat} (h : n ≤ bs.length) : leNat (bs.drop n) = leNat bs / 256 ^ n := by
  have hlt : leNat (bs.take n) < 256 ^ n := by simpa [h] using leNat_lt (bs.take n)
  conv_rhs => rw [← List.take_append_drop n bs, leNat_append, List.length_take_of_le h,
    Nat.add_mul_div_left _ _ (Nat.pow_pos (by decide)), Nat.div_eq_of_lt hlt, Nat.zero_add]

/-! ### Words of memory -/

theorem State.bytesAt_length (s : State) (a n : Nat) : (s.bytesAt a n).length = n := by simp [State.bytesAt]

theorem State.wordAt_lt (s : State) (a n : Nat) : s.wordAt a n < 256 ^ n :=
  lt_of_lt_of_eq (leNat_lt (s.bytesAt a n)) (by rw [State.bytesAt_length])

theorem State.bytesAt_append (s : State) (a m n : Nat) : s.bytesAt a (m + n) = s.bytesAt a m ++ s.bytesAt (a + m) n := by
  simp [State.bytesAt, List.range_add, Nat.add_assoc]

/-- A word of two parts. -/
theorem State.wordAt_add (s : State) (a m n : Nat) : s.wordAt a (m + n) = s.wordAt a m + 256 ^ m * s.wordAt (a + m) n := by
  simp only [State.wordAt, State.bytesAt_append, leNat_append, State.bytesAt_length]

/-- A word that lies within another. -/
theorem State.wordAt_within (s : State) (a : Nat) {o m n : Nat} (h : o + m ≤ n) :
    s.wordAt a n / 256 ^ o % 256 ^ m = s.wordAt (a + o) m := by
  obtain ⟨r, rfl⟩ := Nat.exists_eq_add_of_le h
  rw [Nat.add_assoc, State.wordAt_add, Nat.add_mul_div_left _ _ (Nat.pow_pos (by decide)),
    Nat.div_eq_of_lt (s.wordAt_lt a o), Nat.zero_add, State.wordAt_add, Nat.add_mul_mod_self_left,
    Nat.mod_eq_of_lt (s.wordAt_lt _ _)]

theorem State.wordAt_one (s : State) (a : Nat) : s.wordAt a 1 = (s.byte a).toNat := by
  simp [State.wordAt, State.bytesAt, leNat]

/-- Words of memories with the same bytes. -/
theorem State.wordAt_congr {s u : State} {a n : Nat} (h : ∀ i < n, u.byte (a + i) = s.byte (a + i)) :
    u.wordAt a n = s.wordAt a n := by
  have hb : u.bytesAt a n = s.bytesAt a n := List.map_congr_left fun i hi => h i (List.mem_range.mp hi)
  rw [State.wordAt, hb, State.wordAt]

theorem pow256 (n : Nat) : 256 ^ n = 2 ^ (8 * n) := by rw [Nat.pow_mul]

/-! ### Lines -/

set_option exponentiation.threshold 512 in
theorem State.toNat_line (s : State) (a : Nat) : (s.line a).toNat = s.wordAt a 64 := by
  have hlt : s.wordAt a 64 < 2 ^ 512 := lt_of_lt_of_eq (s.wordAt_lt a 64) (pow256 64)
  rw [State.line, Line.ofBytes, List.take_of_length_le (State.bytesAt_length s a 64).le, BitVec.toNat_ofNat]
  exact Nat.mod_eq_of_lt hlt

/-- The part of a line that a word within it is. -/
theorem State.line_part (s : State) (a : Nat) {o n : Nat} (h : o + n ≤ 64) :
    (s.line a).toNat / 2 ^ (8 * o) % 2 ^ (8 * n) = s.wordAt (a + o) n := by
  rw [State.toNat_line, ← pow256, ← pow256, State.wordAt_within _ _ h]

/-- Lines of memories with the same bytes. -/
theorem State.line_congr {s u : State} {a : Nat} (h : ∀ i < 64, u.byte (a + i) = s.byte (a + i)) : u.line a = s.line a :=
  BitVec.eq_of_toNat_eq (by rw [State.toNat_line, State.toNat_line, State.wordAt_congr h])

theorem Line.byte_eq (l : Line) (i : Nat) : Line.byte l i = BitVec.ofNat 8 (l.toNat / 256 ^ i) :=
  BitVec.eq_of_toNat_eq (by simp [Line.byte, BitVec.extractLsb'_toNat, Nat.shiftRight_eq_div_pow, pow256])

theorem Line.getLsbD_byte (l : Line) (i j : Nat) : (Line.byte l i).getLsbD j = (decide (j < 8) && l.getLsbD (8 * i + j)) :=
  BitVec.getLsbD_extractLsb' ..

theorem Line.bytes_length (l : Line) : (Line.bytes l).length = 64 := toBytes_length 64 _

theorem Line.bytes_getElem (l : Line) (i : Nat) (h : i < (Line.bytes l).length) : (Line.bytes l)[i] = Line.byte l i := by
  rw [Line.byte_eq]
  exact toBytes_getElem 64 _ _ h

/-- Byte `i` of the line at a key is the byte there. -/
theorem State.byte_line (s : State) (a : Nat) {i : Nat} (h : i < 64) : Line.byte (s.line a) i = s.byte (a + i) := by
  have hp := s.line_part a (o := i) (n := 1) (by omega)
  rw [State.wordAt_one, ← pow256, ← pow256] at hp
  exact BitVec.eq_of_toNat_eq (by rw [Line.byte_eq, BitVec.toNat_ofNat]; exact hp)

/-- A byte of memory after a line is stored. -/
theorem State.byte_storeLine {s : State} (hc : MemoryCanonical s) (a : Nat) (l : Line) (k : Nat) :
    (s.storeLine a l).byte k = if a ≤ k ∧ k < a + 64 then Line.byte l (k - a) else s.byte k := by
  split
  case isTrue h =>
    obtain ⟨i, rfl⟩ := Nat.exists_eq_add_of_le h.1
    have hi : i < (Line.bytes l).length := by rw [Line.bytes_length]; omega
    rw [Nat.add_sub_cancel_left, ← Line.bytes_getElem l i hi]
    exact Memory.read_writes_inside (Line.bytes l) s.mem a i hc hi
  case isFalse h =>
    exact Memory.read_writes_outside (Line.bytes l) s.mem a k hc (by rw [Line.bytes_length]; omega)

theorem State.storeLine_canonical {s : State} (hc : MemoryCanonical s) (a : Nat) (l : Line) :
    MemoryCanonical (s.storeLine a l) := Memory.writes_wf _ _ _ hc

/-! ### Merged lines -/

/-- Bit `j` of the byte mask that a merge puts at byte `i`. -/
theorem getLsbD_byteMask (i j : Nat) :
    ((255#512) <<< (8 * i)).getLsbD j = decide (j < 512 ∧ 8 * i ≤ j ∧ j < 8 * i + 8) := by
  have h255 : ∀ k, (255#512).getLsbD k = decide (k < 8) := fun k => by
    have hk := getLsbD_ones 512 8 0 k
    simp only [Nat.pow_zero, Nat.mul_one] at hk
    rw [show ((255#512) : BitVec 512) = BitVec.ofNat 512 (2 ^ 8 - 1) from rfl, hk]
    simp only [decide_eq_decide]
    omega
  rw [BitVec.getLsbD_shiftLeft, h255]
  by_cases h : 8 * i ≤ j
  · have hk : j - 8 * i < 8 ↔ j < 8 * i + 8 := by omega
    simp [h, hk, Nat.not_lt.mpr h]
  · simp [h, Nat.lt_of_not_le h]

/-- Bit `j` of a line of which byte `i` is taken from another. -/
theorem getLsbD_byteFrom (acc new : Line) (i j : Nat) (hj : j < 512) :
    ((acc &&& ~~~((255#512) <<< (8 * i))) ||| (new &&& ((255#512) <<< (8 * i)))).getLsbD j =
      if j / 8 = i then new.getLsbD j else acc.getLsbD j := by
  simp only [BitVec.getLsbD_or, BitVec.getLsbD_and, BitVec.getLsbD_not, getLsbD_byteMask, hj, decide_true, Bool.true_and]
  by_cases h : j / 8 = i
  · have hm : 8 * i ≤ j ∧ j < 8 * i + 8 := by omega
    simp [h, hm]
  · have hm : ¬ (8 * i ≤ j ∧ j < 8 * i + 8) := by omega
    simp [h, hm]

/-- A bit of a merge over the first `n` bytes. -/
theorem getLsbD_mergeTo (old new : Line) (be : DWord) (n j : Nat) (hj : j < 512) :
    ((List.range n).foldl (fun acc i => if be.getLsbD i then (acc &&& ~~~((255#512) <<< (8 * i))) |||
      (new &&& ((255#512) <<< (8 * i))) else acc) old).getLsbD j =
      if j / 8 < n ∧ be.getLsbD (j / 8) = true then new.getLsbD j else old.getLsbD j := by
  induction n with
  | zero => simp
  | succ n ih =>
    rw [List.range_succ, List.foldl_append, List.foldl_cons, List.foldl_nil]
    by_cases hb : be.getLsbD n = true
    · rw [if_pos hb, getLsbD_byteFrom _ _ _ _ hj, ih]
      by_cases hn : j / 8 = n
      · simp [hn, hb]
      · rw [if_neg hn]
        exact if_congr (and_congr_left fun _ => by omega) rfl rfl
    · rw [if_neg hb, ih]
      refine if_congr (and_congr_left fun h => ⟨fun _ => by omega, fun hlt => ?_⟩) rfl rfl
      exact lt_of_le_of_ne (by omega) fun hn => hb (hn ▸ h)

/-- Byte `i` of merged lines: the new one where it is enabled. -/
theorem Line.byte_merge (old new : Line) (be : DWord) {i : Nat} (hi : i < 64) :
    Line.byte (Line.merge old new be) i = if be.getLsbD i = true then Line.byte new i else Line.byte old i := by
  refine BitVec.eq_of_getLsbD_eq fun j hj => ?_
  have hd : (8 * i + j) / 8 = i := by omega
  rw [Line.getLsbD_byte, Line.merge, getLsbD_mergeTo _ _ _ _ _ (by omega), hd, decide_eq_true hj, Bool.true_and]
  by_cases hb : be.getLsbD i = true
  · rw [if_pos hb, if_pos ⟨hi, hb⟩, Line.getLsbD_byte, decide_eq_true hj, Bool.true_and]
  · rw [if_neg hb, if_neg fun h => hb h.2, Line.getLsbD_byte, decide_eq_true hj, Bool.true_and]

/-- The bytes that `enables` enables. -/
theorem getLsbD_enables {o n : Nat} (h : o + n ≤ 64) (i : Nat) : (enables o n).getLsbD i = decide (o ≤ i ∧ i < o + n) := by
  rw [enables, getLsbD_ones]
  simp only [decide_eq_decide]
  omega

/-- Byte `i` of a line that holds a value at a byte offset. -/
theorem byte_lineAt (v : Nat) {o i : Nat} (ho : o ≤ i) (hi : i < 64) : Line.byte (lineAt o v) i = BitVec.ofNat 8 (v / 256 ^ (i - o)) := by
  obtain ⟨k, rfl⟩ := Nat.exists_eq_add_of_le ho
  refine BitVec.eq_of_toNat_eq ?_
  rw [Line.byte_eq, lineAt, BitVec.toNat_ofNat, BitVec.toNat_ofNat, BitVec.toNat_ofNat, Nat.add_sub_cancel_left,
    show (512 : Nat) = 8 * (o + k) + (8 + (504 - 8 * (o + k))) by omega, Nat.pow_add, Nat.pow_add, ← pow256, ← pow256,
    Nat.mod_mul_right_div_self, Nat.mod_mul_right_mod, Nat.pow_add, ← Nat.div_div_eq_div_mul,
    Nat.mul_div_cancel _ (Nat.pow_pos (by decide))]

end Sys2Proof.Machine
end

section
/-! SUPPORT. Where addresses lead and which lines hold an error mark, and reads and writes of a line of bonded SRAM that holds
none (R46, R150, R153, R156). -/

set_option Elab.async false

namespace Sys2Proof.Machine

/-! ### States in which addresses lead to the same lines -/

/-- What a tile gives to the way of an address: its role and its stop, its SRAM's tags and shares and its lines' marks. -/
def Tile.ways (x : Tile) : Role × Bool × SrmSh × Tab Bool × Tab (BitVec 16) :=
  (x.role, x.stopDead, x.srm.sh.act, x.srm.poison, x.srm.staleIcv)

/-- Every address leads where it led, with the same tags, shares and marks. -/
structure SameWays (s u : State) : Prop where
  brd : u.brd = s.brd
  lp : u.lp = s.lp
  boot : u.boot = s.boot
  tile : ∀ j, (u.tile j).ways = (s.tile j).ways

/-- No error mark stands on the line that holds offset `off` of a tile's SRAM (R153). -/
def State.clean (s : State) (t off : Nat) : Prop :=
  Tab.find (s.tile t).srm.poison (off / 64) = none ∧ Tab.find (s.tile t).srm.staleIcv (off / 64) = none

namespace SameWays

variable {s u : State}

theorem refl (s : State) : SameWays s s := ⟨rfl, rfl, rfl, fun _ => rfl⟩

theorem trans {v : State} (h : SameWays s u) (k : SameWays u v) : SameWays s v :=
  ⟨k.brd.trans h.brd, k.lp.trans h.lp, k.boot.trans h.boot, fun j => (k.tile j).trans (h.tile j)⟩

/-- What changes neither the tags and maps of a composition nor the memory's pairs nor a tile's way. -/
theorem of_within {L : List Block} (h : Within L s u) (ht : ∀ j, (u.tile j).ways = (s.tile j).ways)
    (hb : L.contains .brd = false := by decide) (hl : L.contains .lp = false := by decide)
    (ho : L.contains .boot = false := by decide) : SameWays s u :=
  ⟨h.brd_eq hb, h.lp_eq hl, h.boot_eq ho, ht⟩

variable (h : SameWays s u)
include h

theorem role (j : Nat) : (u.tile j).role = (s.tile j).role := congrArg (·.1) (h.tile j)
theorem stopDead (j : Nat) : (u.tile j).stopDead = (s.tile j).stopDead := congrArg (·.2.1) (h.tile j)
theorem sh (j : Nat) : (u.tile j).srm.sh.act = (s.tile j).srm.sh.act := congrArg (·.2.2.1) (h.tile j)
theorem poison (j : Nat) : (u.tile j).srm.poison = (s.tile j).srm.poison := congrArg (·.2.2.2.1) (h.tile j)
theorem staleIcv (j : Nat) : (u.tile j).srm.staleIcv = (s.tile j).srm.staleIcv := congrArg (·.2.2.2.2) (h.tile j)

theorem slotTile (k : Nat) : u.slotTile k = s.slotTile k := by rw [State.slotTile, h.brd, State.slotTile]

theorem big : u.big = s.big := by rw [State.big, h.boot, State.big]

theorem pair (p : Nat) : u.pair p = s.pair p := by rw [State.pair, h.lp, State.pair]

theorem serving (p line : Nat) : u.serving p line = s.serving p line := by
  simp only [State.serving, State.moveH, h.brd, h.pair] <;> rfl

theorem place (mpa : Nat) : u.place mpa = s.place mpa := by
  simp only [State.place, State.dataEnd, State.phys, h.slotTile, h.role, h.stopDead, h.big, h.lp, h.serving] <;> rfl

theorem gran (t g : Nat) : u.gran t g = s.gran t g := by simp only [State.gran, h.sh]
theorem share (t b : Nat) : u.share t b = s.share t b := by simp only [State.share, h.sh]

theorem inShare (t b : Nat) (pl : Place) : u.inShare t b pl = s.inShare t b pl := by
  simp only [State.inShare, h.share]

theorem fenceHolds (cid : Cid) (pl : Place) : u.fenceHolds cid pl = s.fenceHolds cid pl := by
  simp only [State.fenceHolds, State.slotOf, State.fence, h.brd]

theorem oldTag (cid : Cid) (epoch : Word) (pl : Place) : u.oldTag cid epoch pl = s.oldTag cid epoch pl := by
  simp only [State.oldTag, State.slotOf, State.fence, State.epochOf, h.brd] <;> rfl

theorem clean {t off : Nat} (hc : s.clean t off) : u.clean t off :=
  ⟨(congrArg (Tab.find · _) (h.poison t)).trans hc.1, (congrArg (Tab.find · _) (h.staleIcv t)).trans hc.2⟩

end SameWays

/-! ### A line that holds no mark -/

section
variable {s : State} {t off : Nat}

theorem State.sramCheck_of_clean (h : s.clean t off) : s.sramCheck t off .clean = (0, s) := by
  obtain ⟨hp, hi⟩ := h
  simp [State.sramCheck, Srm.poisoned, hp, hi, Ecc.corrections, Ecc.icvFails]

/-- A read of a line that holds no mark gives the line and changes nothing. -/
theorem State.sramRead_of_clean (h : s.clean t off) :
    s.sramRead t off .clean = (0, s.line (sramKey t (off / 64 * 64)), s) := by
  rw [State.sramRead, State.sramCheck_of_clean h]
  rfl

/-- Only bytes of memory and the notes of lines to rewrite are different. -/
structure Stores (s u : State) : Prop where
  within : Within [.mem, .tiles] s u
  tile : ∀ j, { u.tile j with srm := { (u.tile j).srm with rewrite := (s.tile j).srm.rewrite } } = s.tile j

theorem Stores.refl (s : State) : Stores s s := ⟨.refl _ _, fun _ => rfl⟩

theorem Stores.trans {u v : State} (h : Stores s u) (k : Stores u v) : Stores s v where
  within := h.within.trans k.within
  tile j := (congrArg (fun x : Tile => { x with srm := { x.srm with rewrite := (s.tile j).srm.rewrite } }) (k.tile j)).trans
    (h.tile j)

theorem Stores.sameWays {u : State} (h : Stores s u) : SameWays s u :=
  .of_within h.within fun j => by have hj := congrArg Tile.ways (h.tile j); exact hj

theorem Stores.bank {u : State} (h : Stores s u) (t b : Nat) : u.bank t b = s.bank t b := by
  have hb := congrArg (fun x : Tile => x.bank b) (h.tile t)
  exact hb

theorem Stores.run {u : State} (h : Stores s u) (t : Nat) : (u.tile t).run = (s.tile t).run := by
  have hr := congrArg Tile.run (h.tile t)
  exact hr

theorem Stores.storeLine (s : State) (a : Nat) (l : Line) : Stores s (s.storeLine a l) :=
  ⟨(s.storeLine_within a l).mono (by decide), fun _ => rfl⟩

/-- The marks of a line that holds none stay when a whole line is written. -/
theorem Stores.marksErased (h : s.clean t off) : Stores s (s.modSrm t fun x =>
    { x with poison := Tab.erase x.poison (off / 64), rewrite := Tab.erase x.rewrite (off / 64),
             staleIcv := Tab.erase x.staleIcv (off / 64) }) where
  within := (s.modSrm_within _ _).mono (by decide)
  tile j := by
    rw [State.tile_modSrm]
    split
    · rename_i hj
      subst hj
      dsimp only
      rw [Tab.erase_eq_of_find_none h.1, Tab.erase_eq_of_find_none h.2]
    · rfl

/-- A write to a line that holds no mark is done. -/
theorem State.sramWrite_status (h : s.clean t off) (data : Line) (be : DWord) : (s.sramWrite t off data be .clean).1 = 0 := by
  unfold State.sramWrite
  dsimp only
  split
  · rfl
  · rw [State.sramCheck_of_clean h]
    rfl

theorem State.sramWrite_stores (h : s.clean t off) (data : Line) (be : DWord) :
    Stores s (s.sramWrite t off data be .clean).2 := by
  unfold State.sramWrite
  dsimp only
  split
  · exact (Stores.storeLine s _ _).trans (Stores.marksErased h)
  · rw [State.sramCheck_of_clean h]
    exact Stores.storeLine s _ _

/-- A byte of memory after a write to a line that holds no mark. -/
theorem State.byte_sramWrite (hc : MemoryCanonical s) (h : s.clean t off) (data : Line) (be : DWord) (k : Nat) :
    let base := sramKey t (off / 64 * 64)
    (s.sramWrite t off data be .clean).2.byte k =
      if (base ≤ k ∧ k < base + 64) ∧ be.getLsbD (k - base) = true then Line.byte data (k - base) else s.byte k := by
  intro base
  unfold State.sramWrite
  dsimp only
  split
  case isTrue hbe =>
    subst hbe
    refine (State.byte_storeLine hc base data k).trans (if_congr (iff_self_and.mpr fun hk => ?_) rfl rfl)
    rw [BitVec.getLsbD_allOnes]
    exact decide_eq_true (by omega)
  case isFalse =>
    rw [State.sramCheck_of_clean h]
    refine (State.byte_storeLine hc base _ k).trans ?_
    by_cases hk : base ≤ k ∧ k < base + 64
    · have hb : s.byte (base + (k - base)) = s.byte k := by rw [Nat.add_sub_cancel' hk.1]
      rw [if_pos hk, Line.byte_merge _ _ _ (by omega), State.byte_line _ _ (by omega), hb]
      exact if_congr (and_iff_right hk).symm rfl rfl
    · rw [if_neg hk, if_neg fun hn => hk hn.1]

/-- A write of `n` bytes of a value at their place in a line that holds no mark changes those bytes alone. -/
theorem State.sramWrite_onlyStored (hc : MemoryCanonical s) (h : s.clean t off) {o n : Nat} (hn : o + n ≤ 64) (v : Nat) :
    onlyStored s (s.sramWrite t off (lineAt o v) (enables o n) .clean).2 t (off / 64 * 64 + o) n
      fun i => BitVec.ofNat 8 (v / 256 ^ i) := by
  have hkey : ∀ i, sramKey t (off / 64 * 64 + o + i) = sramKey t (off / 64 * 64) + (o + i) := fun i => by
    simp only [sramKey]; omega
  refine ⟨fun i hi => ?_, fun a ha => ?_⟩
  · rw [State.byte_sramWrite hc h, hkey, Nat.add_sub_cancel_left, getLsbD_enables hn, byte_lineAt _ (by omega) (by omega),
      Nat.add_sub_cancel_left]
    exact if_pos ⟨by omega, decide_eq_true (by omega)⟩
  · rw [State.byte_sramWrite hc h]
    refine if_neg fun hk => ?_
    rw [getLsbD_enables hn, decide_eq_true_eq] at hk
    exact ha (a - sramKey t (off / 64 * 64) - o) (by omega) (by rw [hkey]; omega)

end

end Sys2Proof.Machine
end

section
/-! SUPPORT. Requests of the mesh at bonded SRAM and responses at tiles (R129, R141, R155, R156, R213, R214, R233). -/

set_option Elab.async false

namespace Sys2Proof.Machine

/-! ### A request takes its queue entry at a tile -/

/-- What a request's entry changes at a tile: the regulators' state and the levels of a tile's. -/
structure LetsIn (s u : State) : Prop where
  within : Within [.tiles, .sched] s u
  tile : ∀ j, { u.tile j with levels := (s.tile j).levels } = s.tile j

theorem LetsIn.of_within {L : List Block} {s u : State} (h : Within L s u) (hL : Block.sub L [.tiles, .sched] = true)
    (ht : L.contains .tiles = false) : LetsIn s u :=
  ⟨h.mono hL, fun j => by rw [h.tile_eq ht j]⟩

theorem LetsIn.trans {s u v : State} (h : LetsIn s u) (k : LetsIn u v) : LetsIn s v where
  within := h.within.trans k.within
  tile j := (congrArg (fun x : Tile => { x with levels := (s.tile j).levels }) (k.tile j)).trans (h.tile j)

theorem LetsIn.sameWays {s u : State} (h : LetsIn s u) : SameWays s u :=
  .of_within h.within fun j => by have hj := congrArg Tile.ways (h.tile j); exact hj

theorem LetsIn.setLevel (s : State) (t k : Nat) (v : Int) : LetsIn s (s.setLevel (.tile t) k v) where
  within := (s.modTile_within t fun x => { x with levels := Tab.insert x.levels k (BitVec.ofInt 32 v) }).mono (by decide)
  tile j := by
    rw [State.setLevel, State.tile_modTile]
    split
    · rename_i hj
      subst hj
      rfl
    · rfl

theorem State.letIn_letsIn (s : State) {w : RegWait} {t : Nat} (hq : w.queue = .tile t) (n : Nat) : LetsIn s (s.letIn w n) := by
  have hm : LetsIn s ((s.modSched fun x => { x with waits := x.waits.filter fun v => decide (v ≠ w) }).missed w) :=
    .of_within ((s.modSched_within _).trans (State.missed_within _ _)) (by decide) (by decide)
  unfold State.letIn
  dsimp only
  split
  · exact hm
  split
  · rw [hq]
    exact hm.trans (.setLevel _ _ _ _)
  · generalize State.slotOf _ _ = slot
    cases slot with
    | none => exact hm
    | some slot => exact hm.trans (.of_within (State.modSched_within _ _) (by decide) (by decide))

/-! ### A request at bonded SRAM -/

theorem flitsOf_le (p : Packet) : flitsOf p ≤ 2 := by
  unfold flitsOf
  split <;> omega

/-- The offset in a line that an address leads to is the address's. -/
theorem State.place_off {s : State} {a x off : Nat} (h : s.place a = .sram x off) : off % 64 = a % 64 := by
  unfold State.place at h
  dsimp only at h
  split at h
  · split at h
    · cases h
    · split at h
      · cases h
      · cases h
        omega
  · split at h
    · generalize List.findSome? _ _ = e at h
      cases e <;> cases h
    · cases h

/-- A request to bonded SRAM that nothing waits before is served at once. -/
theorem State.arrive_sram {s : State} {p : Packet} {x off : Nat} (op : Option AtomicOp) (ecc : Ecc) (hd : p.dest.toNat < 0x250)
    (hw : s.sched.waits = []) (hpl : s.place p.addr.toNat = .sram x off) (hr : s.recovering (x / 272) = false) :
    ∃ w u, s.arrive p op ecc = u.act w ∧ w.pkt = p ∧ w.op = op ∧ w.ecc = ecc ∧ LetsIn s u := by
  have hd' : ¬ (0x250 ≤ p.dest.toNat ∧ p.dest.toNat < 0x280) := by omega
  have hf := flitsOf_le p
  have hf' : flitsOf p ≤ 32 := by omega
  have hm : ∀ w : RegWait, w.pkt = p → s.mustWait w = false := fun w hp => by
    simp [State.mustWait, hp, hpl, State.halfWaits, Place.half, hr, State.keyWaits, State.deltaWaits, State.ejected, hw, hf']
  unfold State.arrive
  rw [if_neg hd']
  dsimp only
  rw [hpl, hm _ rfl, if_neg Bool.false_ne_true]
  exact ⟨_, _, rfl, rfl, rfl, rfl, s.letIn_letsIn rfl _⟩

/-- The check at bonded SRAM of a request that no fence holds to an old tag (R156, R213). -/
theorem State.requestCheck_sram {s : State} {p : Packet} {x off : Nat} (hsrc : p.src.toNat ≠ 0x282)
    (ho : s.oldTag p.cid p.epoch (.sram x off) = none) (a : Acc) :
    s.requestCheck p a (.sram x off) =
      if (s.gran x (off / 65536)).admits p.cid p.ctx && !(whoOf p).lacks a then 0 else 1 := by
  have hfree : noCid p = false := decide_eq_false hsrc
  simp [State.requestCheck, ho, State.targetCheck, whoOf, hfree]

theorem lacks_of_may {p : Packet} {a : Acc} (h : p.rights = 0 ∨ p.rights.getLsbD a.bit = true) : (whoOf p).lacks a = false := by
  unfold Who.lacks whoOf
  obtain h | h := h <;> simp [h]

section
variable {s : State} {w : RegWait} {x off : Nat} (hpl : s.place w.pkt.addr.toNat = .sram x off)
include hpl

/-- A request that its check refuses is answered with the STATUS and touches nothing. -/
theorem State.act_refused {c : Nat} (h0 : c ≠ 0) (hc : s.requestCheck w.pkt (waitAcc w) (.sram x off) = c) :
    (s.act w).out = s.out ++ [.mesh (reply w.pkt c 0 0)] ∧ (s.act w).mem = s.mem := by
  unfold State.act
  dsimp only
  rw [hpl, hc, if_pos h0]
  exact ⟨rfl, rfl⟩

variable (hc : s.requestCheck w.pkt (waitAcc w) (.sram x off) = 0) (hm : s.clean x off)
include hc hm

/-- A read that passes its check answers its line. -/
theorem State.act_read (ho : w.op = none) (he : w.ecc = .clean) (ht : w.pkt.type = 1) :
    s.act w = s.emit (.mesh (reply w.pkt 0 (s.line (sramKey x (off / 64 * 64))) 0)) := by
  unfold State.act
  dsimp only
  rw [hpl, hc, ho, he, if_neg (by decide)]
  dsimp only
  rw [if_pos ht, State.placeRead, State.sramRead_of_clean hm]

/-- A write that passes its check stores its bytes. -/
theorem State.act_write (ho : w.op = none) (he : w.ecc = .clean) (ht : w.pkt.type ≠ 1) :
    s.act w = (s.sramWrite x off w.pkt.data w.pkt.byteEn .clean).2.emit (.mesh (reply w.pkt 0 0 0)) := by
  unfold State.act
  dsimp only
  rw [hpl, hc, ho, he, if_neg (by decide)]
  dsimp only
  rw [if_neg ht, State.placeWrite, State.sramWrite_status hm]

/-- An atomic that passes its check acts on its word and answers the old one. -/
theorem State.act_atomic {op : AtomicOp} (ho : w.op = some op) (he : w.ecc = .clean) :
    let o := off % 64 / 8 * 8
    let old := s.wordAt (sramKey x (off / 64 * 64 + o)) 8
    let new := atomicNew op old (w.pkt.operand.toNat % 2 ^ 64) (w.pkt.operand.toNat / 2 ^ 64)
    s.act w = (s.sramWrite x off (lineAt o new) (enables o 8) .clean).2.emit
      (.mesh (reply w.pkt 0 0 (BitVec.ofNat 128 old))) := by
  intro o old new
  have hline : lineGet (s.line (sramKey x (off / 64 * 64))) o 8 = old := by
    rw [lineGet, State.line_part _ _ (by omega), show sramKey x (off / 64 * 64) + o = sramKey x (off / 64 * 64 + o) from
      (Nat.add_assoc _ _ _)]
  have ho' : atomicOff w.pkt.addr.toNat = o := by rw [atomicOff, ← State.place_off hpl]
  have hlow : fldN w.pkt.operand 0 64 = w.pkt.operand.toNat % 2 ^ 64 := by simp [fldN]
  have hhigh : fldN w.pkt.operand 64 64 = w.pkt.operand.toNat / 2 ^ 64 := by
    have hlt := w.pkt.operand.isLt
    simp only [fldN, BitVec.extractLsb'_toNat, Nat.shiftRight_eq_div_pow]
    exact Nat.mod_eq_of_lt (by omega)
  unfold State.act
  dsimp only
  rw [hpl, hc, ho, he, if_neg (by decide)]
  dsimp only
  rw [State.placeRead, State.sramRead_of_clean hm]
  dsimp only
  rw [if_neg (by decide), State.placeWrite, State.sramWrite_status hm, ho', hline, hlow, hhigh]

end

/-- A request at bonded SRAM in the state in which it is served: its check, and the line that it meets. -/
structure AtSram (s : State) (p : Packet) (x off : Nat) (u : State) (w : RegWait) : Prop where
  pkt : w.pkt = p
  place : u.place w.pkt.addr.toNat = .sram x off
  letsIn : LetsIn s u
  check : ∀ a, u.requestCheck w.pkt a (.sram x off) =
    if (s.gran x (off / 65536)).admits p.cid p.ctx && !(whoOf p).lacks a then 0 else 1

namespace AtSram

variable {s u : State} {p : Packet} {x off : Nat} {w : RegWait} (h : AtSram s p x off u w)
include h

theorem mem : u.mem = s.mem := h.letsIn.within.mem_eq (by decide)
theorem out : u.out = s.out := h.letsIn.within.out_eq (by decide)
theorem byte (a : Nat) : u.byte a = s.byte a := congrArg (Memory.read · a) h.mem

theorem refused (hadm : (s.gran x (off / 65536)).admits p.cid p.ctx = false) :
    (u.act w).out = s.out ++ [.mesh (reply p 1 0 0)] ∧ (u.act w).mem = s.mem := by
  have hc : u.requestCheck w.pkt (waitAcc w) (.sram x off) = 1 := by
    rw [h.check, hadm]
    rfl
  obtain ⟨hout, hmem⟩ := State.act_refused h.place (by decide) hc
  exact ⟨by rw [hout, h.out, h.pkt], hmem.trans h.mem⟩

section
variable (he : w.ecc = .clean) (hadm : (s.gran x (off / 65536)).admits p.cid p.ctx = true)
  (hr : p.rights = 0 ∨ p.rights.getLsbD (waitAcc w).bit = true) (hm : s.clean x off)
include hadm hr

theorem admitted : u.requestCheck w.pkt (waitAcc w) (.sram x off) = 0 := by
  rw [h.check, hadm, lacks_of_may hr]
  rfl

include he hm

theorem read (ho : w.op = none) (ht : p.type = 1) :
    (u.act w).out = s.out ++ [.mesh (reply p 0 (s.line (sramKey x (off / 64 * 64))) 0)] ∧ (u.act w).mem = s.mem := by
  have hl : u.line (sramKey x (off / 64 * 64)) = s.line (sramKey x (off / 64 * 64)) := State.line_congr fun _ _ => h.byte _
  rw [State.act_read h.place (h.admitted hadm hr) (h.letsIn.sameWays.clean hm) ho he (by rw [h.pkt, ht]), hl, h.pkt, ← h.out]
  exact ⟨rfl, h.mem⟩

theorem write (hcan : MemoryCanonical s) (ho : w.op = none) (ht : p.type ≠ 1) :
    (u.act w).out = s.out ++ [.mesh (reply p 0 0 0)] ∧
      onlyStored s (u.act w) x (off / 64 * 64) 64 fun i =>
        if p.byteEn.getLsbD i then Line.byte p.data i else s.byte (sramKey x (off / 64 * 64 + i)) := by
  have hcl := h.letsIn.sameWays.clean hm
  have hb := State.byte_sramWrite (h.letsIn.within.canonical hcan) hcl p.data p.byteEn
  rw [State.act_write h.place (h.admitted hadm hr) hcl ho he (by rw [h.pkt]; exact ht), h.pkt]
  refine ⟨congrArg (· ++ _) (((State.sramWrite_within _ _ _ _ _ _).out_eq (by decide)).trans h.out), fun i hi => ?_,
    fun a ha => ?_⟩
  · have hk : sramKey x (off / 64 * 64 + i) = sramKey x (off / 64 * 64) + i := (Nat.add_assoc _ _ _).symm
    refine (hb _).trans ?_
    rw [hk, Nat.add_sub_cancel_left, h.byte]
    exact if_congr (and_iff_right ⟨by omega, by omega⟩) rfl (congrArg s.byte hk.symm)
  · refine (hb a).trans ((if_neg fun hk => ?_).trans (h.byte a))
    exact ha (a - sramKey x (off / 64 * 64)) (by omega) (by simp only [sramKey] at hk ⊢; omega)

theorem atomic (hcan : MemoryCanonical s) {op : AtomicOp} (ho : w.op = some op) :
    let at_ := off / 64 * 64 + off % 64 / 8 * 8
    let old := s.wordAt (sramKey x at_) 8
    (u.act w).out = s.out ++ [.mesh (reply p 0 0 (BitVec.ofNat 128 old))] ∧
      onlyStored s (u.act w) x at_ 8 fun i =>
        BitVec.ofNat 8 (atomicNew op old (p.operand.toNat % 2 ^ 64) (p.operand.toNat / 2 ^ 64) / 256 ^ i) := by
  intro at_ old
  have hcl := h.letsIn.sameWays.clean hm
  have hold : u.wordAt (sramKey x at_) 8 = old := State.wordAt_congr fun _ _ => h.byte _
  obtain ⟨hin, hout⟩ := State.sramWrite_onlyStored (h.letsIn.within.canonical hcan) hcl (o := off % 64 / 8 * 8) (n := 8)
    (by omega) (atomicNew op old (p.operand.toNat % 2 ^ 64) (p.operand.toNat / 2 ^ 64))
  rw [State.act_atomic h.place (h.admitted hadm hr) hcl ho he, hold, h.pkt]
  exact ⟨congrArg (· ++ _) (((State.sramWrite_within _ _ _ _ _ _).out_eq (by decide)).trans h.out), hin,
    fun a ha => (hout a ha).trans (h.byte a)⟩

end

end AtSram

/-- A request that nothing waits before and no fence holds to an old tag is served where it arrives. -/
theorem State.arrive_atSram {s : State} {p : Packet} {x off : Nat} (op : Option AtomicOp) (ecc : Ecc) (hd : p.dest.toNat < 0x250)
    (hsrc : p.src.toNat ≠ 0x282) (hw : s.sched.waits = []) (hpl : s.place p.addr.toNat = .sram x off)
    (hr : s.recovering (x / 272) = false) (hold : s.oldTag p.cid p.epoch (.sram x off) = none) :
    ∃ w u, s.arrive p op ecc = u.act w ∧ w.op = op ∧ w.ecc = ecc ∧ AtSram s p x off u w := by
  obtain ⟨w, u, ha, rfl, ho, he, hl⟩ := State.arrive_sram op ecc hd hw hpl hr
  have hs := hl.sameWays
  refine ⟨w, u, ha, ho, he, rfl, (hs.place _).trans hpl, hl, fun a => ?_⟩
  rw [← hs.gran]
  exact State.requestCheck_sram hsrc ((hs.oldTag _ _ _).trans hold) a

/-! ### The end of an access -/

/-- A write of a vector register commutes with a change of what is no vector register. -/
theorem Bank.setV_comm {f : Bank → Bank} (hf : ∀ k r i v, (f k).setV32 r i v = f (k.setV32 r i v)) (k : Bank) (r : Nat)
    (vs : List Nat) : (f k).setV r vs = f (k.setV r vs) :=
  List.foldl_hom f fun k x => by
    split
    · exact hf k r x.2 x.1
    · rfl

/-- What an access writes to a bank's registers does not depend on its wait. -/
theorem memResult_wake (x : Tile) (b v : Nat) (k : Bank) (op : TileOp) :
    memResult v (x.wake b k) op = x.wake b (memResult v k op) := by
  unfold memResult
  split
  · rfl
  · rfl
  · exact Bank.setV_comm (f := x.wake b) (fun _ _ _ _ => rfl) k _ _
  · rfl
  · rfl

/-- The bank whose access ends with the value `v`: its registers are written and it retires. -/
theorem State.bank_memEnd (s : State) (t b : Nat) (op : TileOp) (v : Nat) :
    (s.memEnd t b op v).bank t b = ended s t b (memResult v (s.bank t b) op) := by
  refine (State.bank_modBank s t b (fun k => (memResult v ((s.tile t).wake b k) op).retire) t b).trans ?_
  rw [if_pos ⟨rfl, rfl⟩, memResult_wake]
  rfl

/-- The last line of an access comes back. -/
theorem State.accessDone_last {s : State} {t b : Nat} {op : TileOp} {buf : Nat}
    (hw : (s.bank t b).wait = some (.access op 1 buf)) (add : Nat) : s.accessDone t b add = s.memEnd t b op (buf + add) := by
  unfold State.accessDone
  rw [hw]
  exact if_pos (le_refl 1)

section
variable {s : State} {p : Packet} {r : MeshReq} (hr : Tab.find s.mesh.reqs (reqKey p.dest.toNat p.tag.toNat) = some r)
  (hty : (reply r.pkt 0 0 0).type = p.type) (hf : r.fence = false)
include hr hty hf

/-- The response of a purged bank's request ends it and is discarded. -/
theorem State.response_discarded (hd : r.discard = true) :
    s.response p = s.modMesh fun m => { m with
      reqs := Tab.erase m.reqs (reqKey p.dest.toNat p.tag.toNat), discardedResponses := m.discardedResponses + 1 } := by
  unfold State.response
  dsimp only
  rw [hr]
  dsimp only
  rw [if_neg (not_not.mpr hty), hd, if_pos rfl, State.fenceDown, hf]
  rfl

/-- The response to an access of a tile's bank ends the request and goes to the tile. -/
theorem State.response_access (hd : r.discard = false) {t b : Nat}
    (hwho : (∃ pos size off, r.who = .load t b pos size off) ∨ r.who = .store t b ∨ r.who = .atomic t b) :
    s.response p = (s.modMesh fun m => { m with reqs := Tab.erase m.reqs (reqKey p.dest.toNat p.tag.toNat) }).tileResponse r p := by
  unfold State.response
  dsimp only
  rw [hr]
  dsimp only
  rw [if_neg (not_not.mpr hty), hd, if_neg Bool.false_ne_true, State.fenceDown, hf]
  obtain ⟨pos, size, off, hw⟩ | hw | hw := hwho
  all_goals
    rw [hw]
    rfl

/-- The response to the last line of an access of a tile's bank ends the access. -/
theorem State.response_ends (hd : r.discard = false) (hst : p.status = 0) {t b add : Nat} {op : TileOp} {buf : Nat}
    (hwho : (∃ size off, r.who = .load t b 0 size off ∧ add = p.data.toNat / 2 ^ (8 * off) % 2 ^ (8 * size)) ∨
      (r.who = .store t b ∧ add = 0) ∨ (r.who = .atomic t b ∧ add = p.operand.toNat % 2 ^ 64))
    (hw : (s.bank t b).wait = some (.access op 1 buf)) :
    (s.response p).mesh.reqs = Tab.erase s.mesh.reqs (reqKey p.dest.toNat p.tag.toNat) ∧
      (s.response p).bank t b = ended s t b (memResult (buf + add) (s.bank t b) op) := by
  have hend : s.response p = (s.modMesh fun m => { m with
      reqs := Tab.erase m.reqs (reqKey p.dest.toNat p.tag.toNat) }).memEnd t b op (buf + add) := by
    rw [← State.accessDone_last (s := s.modMesh _) hw]
    obtain ⟨size, off, hwho, rfl⟩ | ⟨hwho, rfl⟩ | ⟨hwho, rfl⟩ := hwho
    · rw [State.response_access hr hty hf hd (.inl ⟨0, size, off, hwho⟩), State.tileResponse, hwho]
      dsimp only
      rw [if_neg (not_not.mpr hst), Nat.mul_zero, Nat.pow_zero, Nat.mul_one]
    · rw [State.response_access hr hty hf hd (.inr (.inl hwho)), State.tileResponse, hwho]
      exact if_neg (not_not.mpr hst)
    · rw [State.response_access hr hty hf hd (.inr (.inr hwho)), State.tileResponse, hwho]
      exact if_neg (not_not.mpr hst)
  rw [hend]
  exact ⟨(congrArg Mesh.reqs ((State.memEnd_within _ _ _ _ _).mesh_eq (by decide)) : _), State.bank_memEnd _ _ _ _ _⟩

end

theorem State.response_unawaited {s : State} {p : Packet} (hr : Tab.find s.mesh.reqs (reqKey p.dest.toNat p.tag.toNat) = none) :
    s.response p = { s with mesh := { s.mesh with discardedResponses := s.mesh.discardedResponses + 1 } } := by
  unfold State.response
  dsimp only
  rw [hr]
  rfl

/-! ### The obligation -/

/-- The three kinds of response, each with the type that its request expects. -/
theorem exec_response {p : Packet} {i : Instr} {ty : BitVec 8}
    (h : i = .readResponse p ∧ ty = 4 ∨ i = .writeAcknowledgement p ∧ ty = 5 ∨ i = .atomicResponse p ∧ ty = 6) (s : State) :
    exec i s = .next (s.response { p with type := ty }) := by
  obtain ⟨rfl, rfl⟩ | ⟨rfl, rfl⟩ | ⟨rfl, rfl⟩ := h <;> rfl

theorem reply_type {q : Packet} (h : q.type ≠ 7) (status : Nat) (data : Line) (operand : BitVec 128) :
    (reply q status data operand).type = q.type + 3 := if_neg h

/-- Settles O39: a request that its check admits is served at its line, one that it refuses is answered, and a response ends
the request that it answers. -/
theorem meshRequestsAndResponses : Obligations.MeshRequestsAndResponses := by
  refine ⟨fun p x off s hcan hd hsrc hw hpl hr hold => ?_, fun _ _ => rfl, fun p i ty s hi => ?_⟩
  · have harr := fun (type : BitVec 8) (op : Option AtomicOp) (ecc : Ecc) =>
      State.arrive_atSram (s := s) (p := { p with type := type }) op ecc hd hsrc hw hpl hr hold
    refine ⟨fun ⟨ha, hr, hm⟩ => ?_, fun ⟨ha, hr, hm⟩ => ?_, fun op ⟨ha, hr, hm⟩ => ?_, fun ha op ecc => ⟨?_, ?_, ?_⟩⟩
    · obtain ⟨w, u, hu, ho, he, h⟩ := harr 1 none .clean
      have hacc : waitAcc w = .rd := by simp [waitAcc, ho, h.pkt]
      exact ⟨_, congrArg Host.Outcome.next hu, h.read he ha (by rw [hacc]; exact hr) hm ho rfl⟩
    · obtain ⟨w, u, hu, ho, he, h⟩ := harr 2 none .clean
      have hacc : waitAcc w = .wr := by simp [waitAcc, ho, h.pkt]
      exact ⟨_, congrArg Host.Outcome.next hu, h.write he ha (by rw [hacc]; exact hr) hm hcan ho (show (2 : BitVec 8) ≠ 1 by decide)⟩
    · obtain ⟨w, u, hu, ho, he, h⟩ := harr 3 (some op) .clean
      have hacc : waitAcc w = .atomic := by simp [waitAcc, ho]
      exact ⟨_, congrArg Host.Outcome.next hu, h.atomic he ha (by rw [hacc]; exact hr) hm hcan ho⟩
    all_goals
      obtain ⟨w, u, hu, -, -, h⟩ := harr _ _ _
      exact ⟨_, congrArg Host.Outcome.next hu, h.refused ha⟩
  · have hx := exec_response hi s
    refine ⟨fun hn => ⟨_, hx, State.response_unawaited hn⟩, fun r hr hty h7 hf => ?_⟩
    have hrep : (reply r.pkt 0 0 0).type = ty := (reply_type h7 _ _ _).trans hty
    refine ⟨fun hd => ⟨_, hx, ?_⟩, fun hd hst t b => ⟨fun l d base imm buf off size h4 hwho hwait => ⟨_, hx, ?_⟩,
      fun l src base imm buf h5 hwho hwait => ⟨_, hx, ?_⟩, fun op d src cmp base imm h6 hwho hwait => ⟨_, hx, ?_⟩⟩⟩
    · rw [State.response_discarded (p := { p with type := ty }) hr hrep hf hd]
      exact ⟨rfl, rfl, rfl⟩
    · exact State.response_ends (p := { p with type := ty }) hr hrep hf hd hst (.inl ⟨size, off, hwho, rfl⟩) hwait
    · exact State.response_ends (p := { p with type := ty }) hr hrep hf hd hst (.inr (.inl ⟨hwho, rfl⟩)) hwait
    · have h := State.response_ends (p := { p with type := ty }) hr hrep hf hd hst (.inr (.inr ⟨hwho, rfl⟩)) hwait
      rw [Nat.zero_add] at h
      exact h

end Sys2Proof.Machine
end

section
/-! SUPPORT. Accesses whose page the look-aside holds (R199, R208, R209), and the state in which they are carried out. -/

set_option Elab.async false

namespace Sys2Proof.Machine

/-! ### The page of an access -/

/-- The page that holds a DVA holds the DVAs that follow it up to its end. -/
theorem page_of_within {l base a d : Nat} (h : a / 2 ^ l * 2 ^ l = base) (hle : a ≤ d) (hlt : d < base + 2 ^ l) :
    d / 2 ^ l * 2 ^ l = base := by
  have hd : d / 2 ^ l = a / 2 ^ l := by
    refine le_antisymm ?_ (Nat.div_le_div_right hle)
    refine Nat.lt_succ_iff.mp ((Nat.div_lt_iff_lt_mul (Nat.pow_pos (by decide))).mpr ?_)
    rw [Nat.succ_mul, h]
    exact hlt
  rw [hd, h]

/-- A translation that the look-aside holds for a DVA is one of its page. -/
theorem State.lookup_page {s : State} {t : Nat} {cid : Cid} {ctx : Ctx} {dva : Nat} {e : XEntry}
    (h : s.lookup t cid ctx dva = some e) : dva / 2 ^ e.log2 * 2 ^ e.log2 = e.base := by
  have hcov : e.covers cid ctx dva = true := by
    unfold State.lookup at h
    cases hf : (s.tile t).look.find? fun e => e.covers cid ctx dva with
    | none =>
      rw [hf] at h
      exact List.find?_some (p := fun e : XEntry => e.covers cid ctx dva) h
    | some x =>
      rw [hf] at h
      cases h
      exact List.find?_some (p := fun e : XEntry => e.covers cid ctx dva) hf
  simp only [XEntry.covers, Bool.and_eq_true, decide_eq_true_eq] at hcov
  exact hcov.2

theorem targetOf_one {e : XEntry} {d : Nat} (h : d / 2 ^ e.log2 * 2 ^ e.log2 = e.base) : targetOf [e] d = some (e.target d) := by
  simp [targetOf, h]

/-- The check of a span without rights that lies in one page. -/
theorem visitSpans_hit {tr : Nat → Option XRes} {sp : Span} {e : XEntry} (hp : sp.priv = false) (h0 : 0 < sp.len)
    (htr : tr sp.at_ = some (.hit e)) (hcov : sp.at_ + sp.len ≤ e.base + 2 ^ e.log2) :
    visitSpans tr [sp] = { entries := [e] } := by
  have hr : rightLacking sp e.leaf = false := by simp [rightLacking, hp]
  have hlt : sp.len ≠ 0 := by omega
  simp [visitSpans, visitSpan, htr, hr, hlt, hcov]

/-- An access in a page that the look-aside holds is carried out with it. -/
theorem State.tileAccess_hit {s : State} {t b unit ch : Nat} {op : TileOp} {sp : Span} {e : XEntry} {more : Bool}
    {go : List XEntry → State → State} (h57 : sp.at_ < 2 ^ 57) (hp : sp.priv = false) (h0 : 0 < sp.len)
    (hl : s.lookup t (s.bank t b).cid (s.bank t b).ctx sp.at_ = some e) (hcov : sp.at_ + sp.len ≤ e.base + 2 ^ e.log2) :
    s.tileAccess t b unit ch op [sp] false none more go = go [e] (s.install t e) := by
  have htr : s.tileTranslate t b false sp.at_ = some (.hit e) := by
    unfold State.tileTranslate
    dsimp only
    rw [if_neg Bool.false_ne_true, if_neg (Nat.not_le.mpr h57), hl]
    rfl
  have hc := visitSpans_hit hp h0 htr hcov
  unfold State.tileAccess
  dsimp only
  rw [hc]
  rfl

/-! ### The state in which it is carried out -/

/-- The translation installed and the bank awake: nothing but look-asides and the bank is different. -/
structure Begins (s : State) (t b : Nat) (u : State) : Prop where
  within : Within [.xlt, .tiles] s u
  tile : ∀ j, { u.tile j with look := (s.tile j).look, banks := (s.tile j).banks } = s.tile j
  bank : u.bank t b = (s.tile t).wake b (s.bank t b)

/-- The state in which a bank's access of the page of `e` is carried out. -/
def State.begun (s : State) (t b : Nat) (e : XEntry) : State :=
  (s.install t e).modTile t fun x => x.modBank b fun k => x.wake b k

theorem State.begun_begins (s : State) (t b : Nat) (e : XEntry) : Begins s t b (s.begun t b e) where
  within := ((s.install_within t e).mono (by decide)).step (by decide) (State.modTile_within _ _ _)
  tile j := by
    rw [State.begun, State.tile_modTile]
    by_cases hj : j = t
    · subst hj
      rw [if_pos rfl, State.install, State.tile_modTile, if_pos rfl]
      rfl
    · rw [if_neg hj, State.install, State.tile_modTile, if_neg hj]
      rfl
  bank := by
    have hi : (s.install t e).tile t = { s.tile t with look := keepNewest 64 (s.tile t).look e } := by
      rw [State.install, State.tile_modTile, if_pos rfl]
      rfl
    refine (State.bank_modBank (s.install t e) t b (fun k => ((s.install t e).tile t).wake b k) t b).trans ?_
    rw [if_pos ⟨rfl, rfl⟩, State.bank, hi]
    rfl

namespace Begins

variable {s u : State} {t b : Nat} (h : Begins s t b u)
include h

theorem sameWays : SameWays s u := .of_within h.within fun j => by have hj := congrArg Tile.ways (h.tile j); exact hj

theorem run (j : Nat) : (u.tile j).run = (s.tile j).run := by
  have hj := congrArg Tile.run (h.tile j)
  exact hj

theorem logTile (j : Nat) : u.logTile j = s.logTile j := by
  have hr := congrArg Tile.role (h.tile j)
  have hl := congrArg Tile.lcol (h.tile j)
  change (u.tile j).role = _ at hr
  change (u.tile j).lcol = _ at hl
  rw [State.logTile, hr, hl, State.logTile]

theorem cid : (u.bank t b).cid = (s.bank t b).cid := by rw [h.bank]; rfl
theorem ctx : (u.bank t b).ctx = (s.bank t b).ctx := by rw [h.bank]; rfl
theorem pc : (u.bank t b).pc = (s.bank t b).pc := by rw [h.bank]; rfl

theorem freeTag (stop : Nat) : u.freeTag stop = s.freeTag stop := by
  rw [State.freeTag, h.within.mesh_eq (by decide), State.freeTag]

theorem now : u.now = s.now := by rw [State.now, h.within.cad_eq (by decide), State.now]

end Begins

end Sys2Proof.Machine
end

section
/-! SUPPORT. Barriers: BAR.ARRIVE and BAR.WAIT at the tile, arrivals and releases at the home (R144 to R147). -/

set_option Elab.async false

namespace Sys2Proof.Machine

/-! ### BAR.ARRIVE and BAR.WAIT -/

/-- The packet that a request to a line of the module leaves as (R129, R140). -/
def State.sentTo (s : State) (stop m g : Nat) (p : Packet) : Packet :=
  { p with dest := BitVec.ofNat 10 (stopOf stop (s.place m)), src := BitVec.ofNat 10 stop, tag := BitVec.ofNat 8 g,
           epoch := s.epochOfCid p.cid, addr := BitVec.ofNat 60 m }

/-- The state after a request to a line of the module has left under tag `g`. -/
def State.issued (s : State) (who : Issuer) (stop m g : Nat) (p : Packet) (via : Option (Nat × Nat)) : State :=
  (s.modMesh fun x => { x with
    reqs := Tab.insert x.reqs (reqKey stop g) { who := who, pkt := s.sentTo stop m g p, via := via,
                                                cls := if p.type = 7 then 5 else (s.place m).cls } }).emit
    (.mesh (s.sentTo stop m g p))

/-- A request to a line of the module that no fence holds is sent under the stop's free tag. -/
theorem State.issue_local {s : State} {stop m g : Nat} {p : Packet} (who : Issuer) (via : Option (Nat × Nat))
    (hg : s.freeTag stop = some g) (hf : s.fenceHolds p.cid (s.place m) = false) :
    s.issue who stop p (.localMpa m) via = some (s.issued who stop m g p via) := by
  have hroom : s.injRoom stop p (.localMpa m) = true := by simp [State.injRoom, hf]
  unfold State.issue
  rw [if_pos hroom, hg]
  exact congrArg some (if_neg (ne_true_of_eq_false hf))

/-- The arrival that BAR.ARRIVE sends: it names the tile by its logical number (R145). -/
def State.arrival (s : State) (t b : Nat) : Packet :=
  { s.tilePacket t b 7 with operand := BitVec.ofNat 128 ((s.logTile t).getD 0) }

section
variable {s : State} {t b m g : Nat} {sb : SReg} {x : XEntry} (h57 : ((s.bank t b).s sb).toNat < 2 ^ 57)
  (hl : s.lookup t (s.bank t b).cid (s.bank t b).ctx ((s.bank t b).s sb).toNat = some x)
  (hcov : ((s.bank t b).s sb).toNat + 256 ≤ x.base + 2 ^ x.log2) (htgt : x.target ((s.bank t b).s sb).toNat = .localMpa m)
  (hm : 0x3F0000000000 ≤ m) (h64 : m % 64 = 0)
include hl htgt hm h64

theorem barObjOf_hit : barObjOf [x] ((s.bank t b).s sb).toNat = some m := by
  unfold barObjOf
  rw [targetOf_one (State.lookup_page hl), htgt]
  exact if_pos ⟨hm, h64⟩

variable (hg : s.freeTag t = some g)
include h57 hcov hg

/-- BAR.ARRIVE sends its arrival and awaits the answer. -/
theorem State.arriveRun_sends (sg : SReg) (hf : s.fenceHolds (s.bank t b).cid (s.place m) = false) :
    let u := s.arriveRun t b sg sb false none
    (u.bank t b).wait = some (.arrive sg) ∧ (u.bank t b).pc = (s.bank t b).pc ∧
      ∃ r, Tab.find u.mesh.reqs (reqKey t g) = some r ∧ r.who = .barArrive t b ∧ r.pkt.type = 7 ∧
        r.pkt.cid = (s.bank t b).cid ∧ r.pkt.ctx = (s.bank t b).ctx ∧ r.pkt.addr = BitVec.ofNat 60 m ∧
        r.pkt.operand = BitVec.ofNat 128 ((s.logTile t).getD 0) := by
  have hB := s.begun_begins t b x
  have hi := State.issue_local (s := s.begun t b x) (m := m) (g := g) (p := (s.begun t b x).arrival t b) (.barArrive t b)
    (viaOf [x] ((s.bank t b).s sb).toNat) ((hB.freeTag t).trans hg)
    (by rw [hB.sameWays.fenceHolds, hB.sameWays.place]; exact (congrArg (s.fenceHolds · _) hB.cid).trans hf)
  have hu : s.arriveRun t b sg sb false none = ((s.begun t b x).issued (.barArrive t b) t m g ((s.begun t b x).arrival t b)
      (viaOf [x] ((s.bank t b).s sb).toNat)).modBank t b fun k => { k with wait := some (.arrive sg) } := by
    unfold State.arriveRun
    dsimp only
    rw [State.tileAccess_hit h57 rfl (show 0 < 256 by decide) hl hcov]
    rw [barObjOf_hit hl htgt hm h64]
    exact congrArg (fun o : Option State => match o with
      | some s => s.modBank t b fun k => { k with wait := some (.arrive sg) }
      | none => s.begun t b x) hi
  dsimp only
  rw [hu, State.bank_modBank, if_pos ⟨rfl, rfl⟩]
  exact ⟨rfl, hB.pc, _, Tab.find_insert_same _ _ _, rfl, rfl, hB.cid, hB.ctx, rfl,
    congrArg (fun l : Option Nat => BitVec.ofNat 128 (l.getD 0)) (hB.logTile t)⟩

/-- BAR.WAIT sends its read of GEN and waits. -/
theorem State.barWaitRun_waits (sd sg : SReg) (hook : Bool) (timeout : BitVec 16)
    (hf : s.fenceHolds (s.bank t b).cid (s.place (m + 64)) = false) :
    let u := s.barWaitRun t b sd sb sg hook timeout false none
    (u.bank t b).st = .waiting ∧ (u.bank t b).since = s.now ∧
      (u.bank t b).wait = some (.bar m (((s.bank t b).s sg).setWidth 32) sd hook
        ((if timeout = 0 then 1024 else timeout.toNat) * 1024)) ∧
      ∃ r, Tab.find u.mesh.reqs (reqKey t g) = some r ∧ r.who = .barRead t b ∧ r.pkt.type = 1 ∧
        r.pkt.addr = BitVec.ofNat 60 (m + 64) := by
  have hB := s.begun_begins t b x
  have hkey : s.syncKey m = m := Nat.div_mul_cancel (Nat.dvd_of_mod_eq_zero h64)
  have hi := State.issue_local (s := s.begun t b x) (m := m + 64) (g := g) (p := (s.begun t b x).tilePacket t b 1)
    (.barRead t b) (viaOf [x] ((s.bank t b).s sb).toNat) ((hB.freeTag t).trans hg)
    (by rw [hB.sameWays.fenceHolds, hB.sameWays.place]; exact (congrArg (s.fenceHolds · _) hB.cid).trans hf)
  have hu : ∃ f : Tile → List Cid, s.barWaitRun t b sd sb sg hook timeout false none =
      (((s.begun t b x).issued (.barRead t b) t (m + 64) g ((s.begun t b x).tilePacket t b 1)
        (viaOf [x] ((s.bank t b).s sb).toNat)).modTile t fun y => { y with raised := f y }).modBank t b fun k =>
          { k with st := .waiting, since := (s.begun t b x).now, wait := some (.bar (s.syncKey m) (((s.bank t b).s sg).setWidth 32)
            sd hook ((if timeout = 0 then 1024 else timeout.toNat) * 1024)) } := by
    refine ⟨fun y => if hook && !y.matrix && !(y.raised.contains (s.bank t b).cid) then y.raised ++ [(s.bank t b).cid] else y.raised,
      ?_⟩
    unfold State.barWaitRun
    dsimp only
    rw [State.tileAccess_hit h57 rfl (show 0 < 256 by decide) hl hcov]
    rw [barObjOf_hit hl htgt hm h64]
    unfold State.begun at hi ⊢
    dsimp only
    rw [hi]
    rfl
  obtain ⟨f, hu⟩ := hu
  dsimp only
  rw [hu, State.bank_modBank, if_pos ⟨rfl, rfl⟩, hkey]
  exact ⟨rfl, hB.now, rfl, _, Tab.find_insert_same _ _ _, rfl, rfl, rfl⟩

end

end Sys2Proof.Machine
end

section
/-! SUPPORT. Barriers at their home (R144 to R147): the object's lines read and written, arrivals and releases. -/

set_option Elab.async false

namespace Sys2Proof.Machine

/-! ### Fields of a line -/

theorem lineGet_eq (l : Line) (o n : Nat) : lineGet l o n = (l.extractLsb' (8 * o) (8 * n)).toNat := by
  rw [lineGet, BitVec.extractLsb'_toNat, Nat.shiftRight_eq_div_pow]

/-- A bit of a line of which `n` bytes are set. -/
theorem getLsbD_lineSet (l : Line) {o n : Nat} (h : o + n ≤ 64) (v : Nat) {j : Nat} (hj : j < 512) :
    (lineSet l o n v).getLsbD j =
      if o ≤ j / 8 ∧ j / 8 < o + n then (v % 2 ^ (8 * n)).testBit (j - 8 * o) else l.getLsbD j := by
  rw [lineSet, Line.merge, getLsbD_mergeTo _ _ _ _ _ hj, getLsbD_enables h]
  by_cases hb : o ≤ j / 8 ∧ j / 8 < o + n
  · have hle : 8 * o ≤ j := by omega
    rw [if_pos ⟨by omega, decide_eq_true hb⟩, if_pos hb, lineAt, BitVec.getLsbD_ofNat, Nat.testBit_mul_two_pow]
    simp [hj, hle]
  · rw [if_neg fun hn => hb (of_decide_eq_true hn.2), if_neg hb]

theorem lineGet_lineSet_same (l : Line) {o n : Nat} (h : o + n ≤ 64) (v : Nat) :
    lineGet (lineSet l o n v) o n = v % 2 ^ (8 * n) := by
  have hx : (lineSet l o n v).extractLsb' (8 * o) (8 * n) = BitVec.ofNat (8 * n) v := by
    refine BitVec.eq_of_getLsbD_eq fun j hj => ?_
    rw [BitVec.getLsbD_extractLsb', decide_eq_true hj, Bool.true_and, getLsbD_lineSet l h v (by omega), if_pos (by omega),
      Nat.add_sub_cancel_left, Nat.testBit_mod_two_pow, BitVec.getLsbD_ofNat]
  rw [lineGet_eq, hx, BitVec.toNat_ofNat]

/-- Bytes below those that are set are as before. -/
theorem lineGet_lineSet_below (l : Line) {o n o' n' : Nat} (h : o + n ≤ 64) (hd : o' + n' ≤ o) (v : Nat) :
    lineGet (lineSet l o n v) o' n' = lineGet l o' n' := by
  have hx : (lineSet l o n v).extractLsb' (8 * o') (8 * n') = l.extractLsb' (8 * o') (8 * n') := by
    refine BitVec.eq_of_getLsbD_eq fun j hj => ?_
    rw [BitVec.getLsbD_extractLsb', BitVec.getLsbD_extractLsb', getLsbD_lineSet l h v (by omega), if_neg (by omega)]
  rw [lineGet_eq, hx, ← lineGet_eq]

/-! ### Checked reads and writes of a line -/

theorem Line.ext_byte {l m : Line} (h : ∀ i < 64, Line.byte l i = Line.byte m i) : l = m := by
  refine BitVec.eq_of_getLsbD_eq fun j hj => ?_
  have hb : (Line.byte l (j / 8)).getLsbD (j % 8) = (Line.byte m (j / 8)).getLsbD (j % 8) := by rw [h _ (by omega)]
  have hj8 : 8 * (j / 8) + j % 8 = j := Nat.div_add_mod j 8
  have hlt : j % 8 < 8 := Nat.mod_lt _ (by decide)
  rw [Line.getLsbD_byte, Line.getLsbD_byte, hj8, decide_eq_true hlt, Bool.true_and, Bool.true_and] at hb
  exact hb

/-- A composition's address leads to a line of bonded SRAM that admits it and holds no mark. -/
structure Reaches (s : State) (cid : Cid) (ctx : Ctx) (mpa x off : Nat) : Prop where
  place : s.place mpa = .sram x off
  admits : (s.gran x (off / 65536)).admits cid ctx = true
  clean : s.clean x off

theorem SameWays.reaches {s u : State} (h : SameWays s u) {cid : Cid} {ctx : Ctx} {mpa x off : Nat}
    (hr : Reaches s cid ctx mpa x off) : Reaches u cid ctx mpa x off :=
  ⟨(h.place _).trans hr.place, by rw [h.gran]; exact hr.admits, h.clean hr.clean⟩

section
variable {s : State} {cid : Cid} {ctx : Ctx} {mpa x off : Nat} (h : Reaches s cid ctx mpa x off)
include h

theorem Reaches.check (a : Acc) : s.targetCheck (Who.of cid ctx) a (s.place mpa) false = 0 := by
  rw [h.place]
  simp [State.targetCheck, Who.of, Who.lacks, h.admits]

theorem Reaches.read : s.readMpa (Who.of cid ctx) false mpa .clean = (0, s.line (sramKey x (off / 64 * 64)), s) := by
  unfold State.readMpa
  dsimp only
  rw [h.check, if_pos rfl, h.place]
  exact State.sramRead_of_clean h.clean

theorem Reaches.write (data : Line) (be : DWord) :
    s.writeMpa (Who.of cid ctx) mpa data be .clean = s.sramWrite x off data be .clean := by
  unfold State.writeMpa
  dsimp only
  rw [h.check, if_neg (by decide), h.place]
  rfl

end

/-- A line of memory after a whole line of bonded SRAM that holds no mark is written. -/
theorem State.line_sramWrite {s : State} {t off : Nat} (hc : MemoryCanonical s) (h : s.clean t off) (data : Line) (n : Nat) :
    (s.sramWrite t off data (BitVec.allOnes 64) .clean).2.line (sramKey t (n * 64)) =
      if n = off / 64 then data else s.line (sramKey t (n * 64)) := by
  have hb := State.byte_sramWrite hc h data (BitVec.allOnes 64)
  split
  case isTrue hn =>
    subst hn
    refine Line.ext_byte fun i hi => ?_
    rw [State.byte_line _ _ hi]
    refine (hb _).trans ?_
    rw [Nat.add_sub_cancel_left, BitVec.getLsbD_allOnes]
    exact if_pos ⟨by omega, decide_eq_true hi⟩
  case isFalse hn =>
    refine State.line_congr fun i hi => (hb _).trans (if_neg fun hk => hn ?_)
    have hk1 := hk.1
    simp only [sramKey] at hk1
    omega

/-! ### A barrier's lines -/

/-- A barrier whose home can read and write its first three lines, and what they hold. -/
structure HomeLines (s : State) (cid : Cid) (ctx : Ctx) (obj x n : Nat) (members l1 l2 : Line) : Prop where
  canonical : MemoryCanonical s
  reaches : ∀ j < 3, Reaches s cid ctx (obj + 64 * j) x ((n + j) * 64)
  members : s.line (sramKey x (n * 64)) = members
  line1 : s.line (sramKey x ((n + 1) * 64)) = l1
  line2 : s.line (sramKey x ((n + 2) * 64)) = l2

namespace HomeLines

variable {s : State} {cid : Cid} {ctx : Ctx} {obj x n : Nat} {members l1 l2 : Line}
  (h : HomeLines s cid ctx obj x n members l1 l2)
include h

theorem read0 : s.readMpa (Who.of cid ctx) false obj .clean = (0, members, s) := by
  have hr := (h.reaches 0 (by decide)).read
  rw [Nat.mul_div_cancel _ (by decide)] at hr
  rw [← h.members]
  exact hr

theorem read1 : s.readMpa (Who.of cid ctx) false (obj + 64) .clean = (0, l1, s) := by
  have hr := (h.reaches 1 (by decide)).read
  rw [Nat.mul_div_cancel _ (by decide)] at hr
  rw [← h.line1]
  exact hr

theorem read2 : s.readMpa (Who.of cid ctx) false (obj + 128) .clean = (0, l2, s) := by
  have hr := (h.reaches 2 (by decide)).read
  rw [Nat.mul_div_cancel _ (by decide)] at hr
  rw [← h.line2]
  exact hr

theorem barLines : s.barLines (Who.of cid ctx) obj = some (members, l1, l2, s) := by
  unfold State.barLines
  dsimp only
  rw [h.read0]
  dsimp only
  rw [h.read1]
  dsimp only
  rw [h.read2]
  exact if_pos ⟨rfl, rfl, rfl⟩

theorem barStatus : s.barStatus (Who.of cid ctx) obj .clean = (0, s) := by
  unfold State.barStatus
  dsimp only
  rw [h.read0]
  dsimp only
  rw [h.read1]
  dsimp only
  rw [h.read2]
  rfl

theorem barHome : s.barHome obj = x := by
  rw [State.barHome, show s.place (obj + 64) = .sram x ((n + 1) * 64) from (h.reaches 1 (by decide)).place]
  rfl

/-- The home stores lines 1 and 2. -/
theorem barStore (m1 m2 : Line) : HomeLines (s.barStore (Who.of cid ctx) obj m1 m2) cid ctx obj x n members m1 m2 ∧
    (s.barStore (Who.of cid ctx) obj m1 m2).out = s.out := by
  have h1 := h.reaches 1 (by decide)
  have hw1 := h1.write m1 (BitVec.allOnes 64)
  have hs1 := State.sramWrite_stores h1.clean m1 (BitVec.allOnes 64)
  have hl1 := State.line_sramWrite h.canonical h1.clean m1
  generalize hu : (s.sramWrite x ((n + 1) * 64) m1 (BitVec.allOnes 64) .clean).2 = u at hs1 hl1
  have hcu : MemoryCanonical u := hs1.within.canonical h.canonical
  have h2 := hs1.sameWays.reaches (h.reaches 2 (by decide))
  have hw2 := h2.write m2 (BitVec.allOnes 64)
  have hs2 := State.sramWrite_stores h2.clean m2 (BitVec.allOnes 64)
  have hl2 := State.line_sramWrite hcu h2.clean m2
  have hv : s.barStore (Who.of cid ctx) obj m1 m2 = (u.sramWrite x ((n + 2) * 64) m2 (BitVec.allOnes 64) .clean).2 := by
    unfold State.barStore
    dsimp only
    rw [show s.writeMpa (Who.of cid ctx) (obj + 64) m1 (BitVec.allOnes 64) .clean = _ from hw1, hu,
      show u.writeMpa (Who.of cid ctx) (obj + 128) m2 (BitVec.allOnes 64) .clean = _ from hw2]
  rw [hv]
  have hss := hs1.trans hs2
  refine ⟨⟨hss.within.canonical h.canonical, fun j hj => hss.sameWays.reaches (h.reaches j hj), ?_, ?_, ?_⟩,
    hss.within.out_eq (by decide)⟩
  · rw [hl2, if_neg (by omega), hl1, if_neg (by omega), h.members]
  · rw [hl2, if_neg (by omega), hl1, if_pos (by omega)]
  · rw [hl2, if_pos (by omega)]

theorem emit (m : Msg) : HomeLines (s.emit m) cid ctx obj x n members l1 l2 :=
  ⟨h.canonical, fun j hj => ⟨(h.reaches j hj).place, (h.reaches j hj).admits, (h.reaches j hj).clean⟩, h.members, h.line1, h.line2⟩

end HomeLines

/-! ### Arrivals -/

theorem barrierAt.homeLines {s : State} {cid : Cid} {ctx : Ctx} {obj x off : Nat} (hc : MemoryCanonical s)
    (h : barrierAt s cid ctx obj x off) :
    HomeLines s cid ctx obj x (off / 64) (s.line (sramKey x off)) (s.line (sramKey x (off + 64))) (s.line (sramKey x (off + 128))) := by
  obtain ⟨h64, -, hl⟩ := h
  have hk : ∀ j, (off / 64 + j) * 64 = off + 64 * j := fun j => by omega
  have hr : ∀ j < 3, Reaches s cid ctx (obj + 64 * j) x ((off / 64 + j) * 64) := fun j hj => by
    obtain ⟨hp, ha, hm⟩ := hl (64 * j) (by omega)
    rw [hk]
    exact ⟨hp, ha, hm⟩
  exact ⟨hc, hr, by rw [show off / 64 * 64 = off by omega], by rw [hk], by rw [hk]⟩

section
variable {s : State} {p : Packet} {x n : Nat} {members l1 l2 : Line}
  (h : HomeLines s p.cid p.ctx p.addr.toNat x n members l1 l2)
include h

/-- An arrival of a tile that is no member is answered and counts nowhere (R145). -/
theorem barrierArrival_stranger (hm : members.getLsbD (p.operand.toNat % 512) = false) :
    execBarrierArrival p (false, .clean) s = .next (s.emit (.mesh (reply p 1 0 0))) := by
  unfold execBarrierArrival
  dsimp only
  rw [h.barStatus, h.barLines]
  dsimp only
  rw [if_neg (not_not.mpr rfl), if_pos (by simp [hm])]
  rfl

/-- The arrival of a member whose bit is clear is answered with GEN and sets it, and the barrier is checked (R145, R146). -/
theorem barrierArrival_member (hm : members.getLsbD (p.operand.toNat % 512) = true) (hpend : lineGet l1 6 1 % 2 = 0)
    (hbit : l2.getLsbD (p.operand.toNat % 512) = false) :
    ∃ v, HomeLines v p.cid p.ctx p.addr.toNat x n members l1 (setBit l2 (p.operand.toNat % 512) true) ∧
      v.out = s.out ++ [.mesh (reply p 0 0 (BitVec.ofNat 128 (lineGet l1 0 4)))] ∧
      execBarrierArrival p (false, .clean) s = .next (v.barCheck (Who.of p.cid p.ctx) p.addr.toNat) := by
  obtain ⟨hs, hout⟩ := h.barStore l1 (setBit l2 (p.operand.toNat % 512) true)
  refine ⟨_, hs.emit (.mesh (reply p 0 0 (BitVec.ofNat 128 (lineGet l1 0 4)))), congrArg (· ++ _) hout, ?_⟩
  have hcount : s.barCount (Who.of p.cid p.ctx) p.addr.toNat (some (p.operand.toNat % 512)) =
      s.barStore (Who.of p.cid p.ctx) p.addr.toNat l1 (setBit l2 (p.operand.toNat % 512) true) := by
    unfold State.barCount
    rw [h.barLines]
    exact if_neg (ne_true_of_eq_false hbit)
  unfold execBarrierArrival
  dsimp only
  rw [h.barStatus, h.barLines]
  dsimp only
  rw [if_neg (not_not.mpr rfl), if_neg (by simp [hm]), if_neg (by omega), if_neg Bool.false_ne_true,
    if_neg Bool.false_ne_true, hcount]

/-- A barrier whose members have not all arrived goes on as it is. -/
theorem HomeLines.barCheck_open (hne : l2 ≠ members) : s.barCheck (Who.of p.cid p.ctx) p.addr.toNat = s := by
  unfold State.barCheck
  rw [h.barLines]
  exact if_pos (.inr (.inl hne))

/-- A barrier with no parent and no children whose members have all arrived: GEN goes on by one, the bits clear, the members
are released (R146). -/
theorem HomeLines.barCheck_last (hpend : lineGet l1 6 1 % 2 = 0) (hall : l2 = members) (hkids : lineGet l1 4 1 = 0)
    (hdone : lineGet l1 5 1 = 0) (hpar : lineGet l1 8 8 = 0) :
    ∃ m1, HomeLines (s.barCheck (Who.of p.cid p.ctx) p.addr.toNat) p.cid p.ctx p.addr.toNat x n members m1 0 ∧
      lineGet m1 0 4 = (lineGet l1 0 4 + 1) % 2 ^ 32 ∧
      (s.barCheck (Who.of p.cid p.ctx) p.addr.toNat).out =
        s.out ++ [.release x p.addr.toNat (BitVec.ofNat 32 (lineGet l1 0 4) + 1) members] := by
  obtain ⟨hs, hout⟩ := h.barStore (lineSet (lineSet (lineSet l1 0 4 (BitVec.ofNat 32 (lineGet l1 0 4) + 1).toNat) 5 1 0) 6 1
    (lineGet l1 6 1 / 2 * 2)) 0
  have hu : s.barCheck (Who.of p.cid p.ctx) p.addr.toNat = (s.barStore (Who.of p.cid p.ctx) p.addr.toNat
      (lineSet (lineSet (lineSet l1 0 4 (BitVec.ofNat 32 (lineGet l1 0 4) + 1).toNat) 5 1 0) 6 1 (lineGet l1 6 1 / 2 * 2)) 0).emit
      (.release x p.addr.toNat (BitVec.ofNat 32 (lineGet l1 0 4) + 1) members) := by
    unfold State.barCheck
    rw [h.barLines]
    dsimp only
    rw [if_neg (by simp [hpend, hall, hkids, hdone]), if_neg (not_not.mpr hpar)]
    unfold State.barRelease
    dsimp only
    rw [hkids, hs.barHome]
    rfl
  refine ⟨_, by rw [hu]; exact hs.emit _, ?_, by rw [hu]; exact congrArg (· ++ _) hout⟩
  rw [lineGet_lineSet_below _ (by decide) (by decide), lineGet_lineSet_below _ (by decide) (by decide),
    lineGet_lineSet_same _ (by decide)]
  have hlt : lineGet l1 0 4 < 2 ^ 32 := Nat.mod_lt _ (by decide)
  rw [BitVec.toNat_add, BitVec.toNat_ofNat, show (1 : Word).toNat = 1 from rfl]
  omega

end

/-! ### Releases -/

/-- The register that takes the status where a GEN value of the barrier `obj` ends a bank's wait (R147). -/
def Bank.passedBy (k : Bank) (obj : Nat) (gen : Word) : Option Nat :=
  match k.wait with
  | some (.bar key sg sd _ _) => if barPassed gen sg ∧ obj = key then some sd else none
  | _ => none

/-- The bank after a GEN value of the barrier `obj` has reached it, where its tile runs bank `r`. -/
def Bank.seen (r b obj : Nat) (gen : Word) (k : Bank) : Bank :=
  (k.passedBy obj gen).elim k fun sd => retired { k with
    wait := none, st := if r = b then .running else .loaded, sReg := Tab.insert k.sReg sd (BitVec.ofNat 64 0) }

theorem Bank.passedBy_of_wait {obj key sd limit : Nat} {gen sg : Word} {hook : Bool} {k : Bank}
    (hw : k.wait = some (.bar key sg sd hook limit)) (hp : barPassed gen sg = true) (hk : obj = key) :
    k.passedBy obj gen = some sd := by
  rw [Bank.passedBy, hw]
  exact if_pos ⟨hp, hk⟩

theorem State.barSees_eq (s : State) (t b obj : Nat) (gen : Word) :
    s.barSees t b obj gen = ((s.bank t b).passedBy obj gen).elim s fun sd => s.endWait t b sd 0 := by
  unfold State.barSees Bank.passedBy
  cases (s.bank t b).wait with
  | none => rfl
  | some w =>
    cases w
    case bar key sg sd hook limit =>
      dsimp only
      split <;> rfl
    all_goals rfl

/-- The end of a bank's wait changes that bank alone, and of its tile the mark that it idles at a barrier. -/
theorem State.bank_endWait (s : State) (t b sd status i j : Nat) :
    (s.endWait t b sd status).bank i j = if i = t ∧ j = b then
      ended s t b { s.bank t b with sReg := Tab.insert (s.bank t b).sReg sd (BitVec.ofNat 64 status) } else s.bank i j := by
  by_cases hi : i = t
  · subst hi
    rw [State.bank, State.endWait, State.tile_modTile, if_pos rfl]
    exact (Tab.get_insert _ _ _ _ _).trans (if_congr (and_iff_right rfl).symm rfl rfl)
  · rw [State.bank, State.endWait, State.tile_modTile, if_neg hi, if_neg fun hn => hi hn.1]
    rfl

theorem State.run_endWait (s : State) (t b sd status i : Nat) : ((s.endWait t b sd status).tile i).run = (s.tile i).run := by
  rw [State.endWait, State.tile_modTile]
  split
  · rename_i hi
    subst hi
    rfl
  · rfl

/-- A GEN value reaches a bank: that bank sees it, every other is as before. -/
theorem State.barSees_bank (s : State) (i j obj : Nat) (gen : Word) (t b : Nat) :
    (s.barSees i j obj gen).bank t b =
        (if t = i ∧ b = j then (s.bank t b).seen (s.tile t).run b obj gen else s.bank t b) ∧
      ((s.barSees i j obj gen).tile t).run = (s.tile t).run := by
  rw [State.barSees_eq]
  cases hp : (s.bank i j).passedBy obj gen with
  | none =>
    refine ⟨?_, rfl⟩
    split
    · rename_i he
      obtain ⟨rfl, rfl⟩ := he
      rw [Bank.seen, hp]
      rfl
    · rfl
  | some sd =>
    refine ⟨(s.bank_endWait i j sd 0 t b).trans ?_, s.run_endWait i j sd 0 t⟩
    split
    · rename_i he
      obtain ⟨rfl, rfl⟩ := he
      rw [Bank.seen, hp]
      rfl
    · rfl

theorem Bank.seen_seen (k : Bank) (r b obj : Nat) (gen : Word) : (k.seen r b obj gen).seen r b obj gen = k.seen r b obj gen := by
  cases hp : k.passedBy obj gen with
  | none =>
    have hk : k.seen r b obj gen = k := by rw [Bank.seen, hp]; rfl
    rw [hk, hk]
  | some sd =>
    have hw : (k.seen r b obj gen).passedBy obj gen = none := by rw [Bank.seen, hp]; rfl
    rw [Bank.seen, hw]
    rfl

/-- A bank after a GEN value has reached the banks of a list. -/
theorem State.bank_foldl_barSees (obj : Nat) (gen : Word) (t b : Nat) (l : List (Nat × Nat)) (s : State) :
    (l.foldl (fun s x => s.barSees x.1 x.2 obj gen) s).bank t b =
      if (t, b) ∈ l then (s.bank t b).seen (s.tile t).run b obj gen else s.bank t b := by
  induction l generalizing s with
  | nil => simp
  | cons x l ih =>
    obtain ⟨hb, hr⟩ := s.barSees_bank x.1 x.2 obj gen t b
    rw [List.foldl_cons, ih, hb, hr]
    by_cases he : t = x.1 ∧ b = x.2
    · have hx : x = (t, b) := Prod.ext he.1.symm he.2.symm
      rw [if_pos he, Bank.seen_seen, ite_self, if_pos (by simp [hx])]
    · have hx : (t, b) ≠ x := fun hn => he (Prod.mk.inj hn)
      rw [if_neg he]
      exact if_congr (by simp [hx]) rfl rfl

/-- A key that does not read as unlisted is listed. -/
theorem Tab.mem_of_get {α : Type} {d : Nat → α} {t : Tab α} {k : Nat} (h : Tab.get d t k ≠ d k) : ∃ v, (k, v) ∈ t := by
  induction t with
  | nil => exact absurd rfl h
  | cons e t ih =>
    rw [Tab.get] at h
    by_cases he : e.1 = k
    · exact ⟨e.2, by simp [← he]⟩
    · rw [if_neg he] at h
      obtain ⟨v, hv⟩ := ih h
      exact ⟨v, List.mem_cons_of_mem _ hv⟩

theorem State.tile_mem_of_wait {s : State} {t b : Nat} (h : (s.bank t b).wait ≠ none) : ∃ x, (t, x) ∈ s.tiles :=
  Tab.mem_of_get (d := Tile.reset) fun he => h (by
    rw [State.bank, State.tile, he, Tile.reset]
    split <;> rfl)

/-- The tiles whose logical number a release names (R147). -/
def State.released (s : State) (members : Line) : List (Nat × Tile) :=
  s.tiles.filter fun t => (s.logTile t.1).elim false members.getLsbD

theorem exec_barrierRelease (obj : Mpa) (gen : Word) (members : Line) (s : State) :
    exec (.barrierRelease obj gen members false) s = .next ((s.released members).foldl
      (fun s t => [0, 1, 2, 3].foldl (fun s b => s.barSees t.1 b (obj.toNat / 64 * 64) gen) s) s) := by
  have hf : s.released members = s.tiles.filter fun t => match s.logTile t.1 with
      | some l => members.getLsbD l
      | none => false :=
    List.filter_congr fun t _ => by cases s.logTile t.1 <;> rfl
  rw [hf]
  rfl

/-- A release reaches the banks of the members that it names. -/
theorem barrierRelease_bank {s : State} {obj : Mpa} {gen : Word} {members : Line} {t l : Nat} (b : BankIx)
    (hl : s.logTile t = some l) (hm : bit members l = true) (hw : (s.bank t b.val).wait ≠ none) :
    Does (.barrierRelease obj gen members false) s fun u =>
      u.bank t b.val = (s.bank t b.val).seen (s.tile t).run b.val (obj.toNat / 64 * 64) gen := by
  obtain ⟨x, hx⟩ := State.tile_mem_of_wait hw
  have hb : b.val ∈ [0, 1, 2, 3] := by
    have := b.isLt
    simp
    omega
  have hmem : (t, b.val) ∈ (s.released members).flatMap fun t => [0, 1, 2, 3].map fun b => (t.1, b) := by
    refine List.mem_flatMap.mpr ⟨(t, x), List.mem_filter.mpr ⟨hx, ?_⟩, List.mem_map.mpr ⟨b.val, hb, rfl⟩⟩
    rw [hl]
    exact hm
  refine ⟨_, exec_barrierRelease obj gen members s, ?_⟩
  have hflat := State.bank_foldl_barSees (obj.toNat / 64 * 64) gen t b.val
    ((s.released members).flatMap fun t => [0, 1, 2, 3].map fun b => (t.1, b)) s
  rw [if_pos hmem, List.foldl_flatMap] at hflat
  exact hflat

/-! ### The obligation -/

theorem barrierInstructions : Stated.BarrierInstructions := by
  refine ⟨fun t b sg sb sd hook timeout x m g s hr => ?_, fun t b key sd limit sg hook s => ?_⟩
  · intro k dva h57 hl hcov htgt hm h64 hg hf hf'
    exact ⟨⟨_, exec_of_run hr rfl, State.arriveRun_sends h57 hl hcov htgt hm h64 hg sg hf⟩,
      ⟨_, exec_of_run hr rfl, State.barWaitRun_waits h57 hl hcov htgt hm h64 hg sd sg hook timeout hf'⟩⟩
  · intro k hw hnow
    have hx : exec (.barWaitTimeout t b) s = .next (s.endWait t.val b.val sd 1) := by
      change execBarWaitTimeout t b s = _
      unfold execBarWaitTimeout
      rw [hw]
      exact if_neg (Nat.not_lt.mpr hnow)
    refine ⟨_, hx, ?_, fun i j hij => ?_, fun j hj => ?_⟩
    · rw [State.bank_endWait, if_pos ⟨rfl, rfl⟩]
    · rw [State.bank_endWait, if_neg fun he => hij (Prod.ext he.1 he.2)]
    · rw [State.endWait, State.tile_modTile, if_neg hj]

theorem barrierHome : Stated.BarrierHome := by
  refine ⟨fun p x off s hc hb => ?_, fun obj gen members t l key sd limit b sg hook s hl hm hw hkey hp => ?_⟩
  · have h := barrierAt.homeLines hc hb
    have hoff : ∀ j, (off / 64 + j) * 64 = off + 64 * j := fun j => by
      have := hb.1
      omega
    have hoff0 : off / 64 * 64 = off := hoff 0
    refine ⟨fun hm => ⟨_, barrierArrival_stranger h hm, rfl, rfl⟩, fun hm hpend hbit => ?_⟩
    obtain ⟨v, hv, hout, hx⟩ := barrierArrival_member h hm hpend hbit
    refine ⟨fun hne => ⟨_, hx, ?_⟩, fun hall hkids hdone hpar => ⟨_, hx, ?_⟩⟩
    · rw [hv.barCheck_open hne]
      refine ⟨hout, ?_, ?_, ?_⟩
      · rw [← hv.members, hoff0]
      · rw [← hv.line1, hoff]
      · rw [← hv.line2, hoff]
    · obtain ⟨m1, hu, hgen, hrel⟩ := hv.barCheck_last hpend hall hkids hdone hpar
      refine ⟨?_, ?_, ?_, ?_⟩
      · rw [← hu.line2, hoff]
      · rw [← hgen, ← hu.line1, hoff, lineGet, State.line_part _ _ (by decide)]
        rfl
      · rw [hrel, hout]
        simp
      · rw [hrel]
        simp
  · obtain ⟨u, hu, hbank⟩ := barrierRelease_bank (obj := obj) (gen := gen) b hl hm (by rw [hw]; exact nofun)
    refine ⟨u, hu, hbank.trans ?_⟩
    rw [Bank.seen, Bank.passedBy_of_wait hw hp hkey.symm]
    rfl

/-- Settles O27: what BAR.ARRIVE and BAR.WAIT send and await, what the home answers and stores, and which waits a release
ends. -/
theorem barriers : Obligations.Barriers := ⟨barrierInstructions, barrierHome⟩

end Sys2Proof.Machine
end

section
/-! SUPPORT. Loads, stores and atomics in a bank's own share (R117, R119): the access line by line, and the bytes that it
reads and writes. -/

set_option Elab.async false

namespace Sys2Proof.Machine

/-! ### The lines of an access -/

/-- What holds of the state of a fold over the lines of an access, up to the byte it has reached, holds at its end. -/
theorem foldl_linePieces {α : Type} {f : α → Nat × Nat × Nat → α} {I : Nat → α → Prop} {dva len : Nat}
    (step : ∀ pos n a, 0 < n → pos + n ≤ len → (dva + pos) % 64 + n ≤ 64 → I pos a → I (pos + n) (f a (dva + pos, n, pos)))
    (fuel : Nat) {pos : Nat} {a : α} (hpos : pos ≤ len)
    (hfuel : pos = len ∨ (dva + len + 63) / 64 ≤ (dva + pos) / 64 + fuel) (h : I pos a) :
    I len ((linePieces dva len fuel pos).foldl f a) := by
  induction fuel generalizing pos a with
  | zero =>
    obtain rfl : pos = len := by omega
    exact h
  | succ fuel ih =>
    unfold linePieces
    by_cases hlt : len ≤ pos
    · obtain rfl : pos = len := by omega
      rw [if_pos hlt]
      exact h
    · rw [if_neg hlt]
      exact ih (by omega) (by omega) (step _ _ _ (by omega) (by omega) (by omega) h)

/-- The addresses of an access lead to bytes of the bank's own share that its context may reach. -/
def OwnLines (s : State) (t b : Nat) (mpa off len : Nat) (cid : Cid) (ctx : Ctx) : Prop :=
  ∀ i < len, Reaches s cid ctx (mpa + i) t (off + i) ∧ s.inShare t b (.sram t (off + i)) = true

theorem SameWays.ownLines {s u : State} (h : SameWays s u) {t b mpa off len : Nat} {cid : Cid} {ctx : Ctx}
    (ho : OwnLines s t b mpa off len cid ctx) : OwnLines u t b mpa off len cid ctx :=
  fun i hi => ⟨h.reaches (ho i hi).1, by rw [h.inShare]; exact (ho i hi).2⟩

section
variable {s : State} {t b off mpa : Nat} {op : TileOp} (hr : Reaches s (s.bank t b).cid (s.bank t b).ctx mpa t off)
include hr

theorem Reaches.ownCheck (acc : Acc) :
    s.targetCheck (Who.of (s.bank t b).cid (s.bank t b).ctx) acc (.sram t off) false = 0 := by
  have h := hr.check acc
  rw [hr.place] at h
  exact h

omit hr in
/-- The word at an offset, as a part of its line. -/
theorem State.line_word {n : Nat} (hn : off % 64 + n ≤ 64) :
    (s.line (sramKey t (off / 64 * 64))).toNat / 2 ^ (8 * (off % 64)) % 2 ^ (8 * n) = s.wordAt (sramKey t off) n := by
  have hk : sramKey t (off / 64 * 64) + off % 64 = sramKey t off := by
    simp only [sramKey]
    omega
  rw [State.line_part _ _ hn, hk]

/-- A line of a load in the bank's own share. -/
theorem State.ownLine_rd {n : Nat} (hn : off % 64 + n ≤ 64) (pos val : Nat) :
    s.ownLine t b op .rd off n pos val .clean = ((s.wordAt (sramKey t off) n, none), s) := by
  unfold State.ownLine
  dsimp only
  rw [hr.ownCheck, if_neg (not_not.mpr rfl), State.sramRead_of_clean hr.clean]
  dsimp only
  rw [if_neg (not_not.mpr rfl), State.line_word hn]

/-- A line of a store in the bank's own share. -/
theorem State.ownLine_wr (n pos val : Nat) :
    s.ownLine t b op .wr off n pos val .clean = ((0, none),
      (s.sramWrite t off (lineAt (off % 64) (val / 2 ^ (8 * pos) % 2 ^ (8 * n))) (enables (off % 64) n) .clean).2) := by
  unfold State.ownLine
  dsimp only
  rw [hr.ownCheck, if_neg (not_not.mpr rfl), State.sramWrite_status hr.clean]
  rfl

/-- An atomic on a word of the bank's own share. -/
theorem State.ownLine_atomic {aop : AtomicOp} {d src cmp base : SReg} {imm : BitVec 41} (hn : off % 64 + 8 ≤ 64) (n pos val : Nat) :
    let old := s.wordAt (sramKey t off) 8
    s.ownLine t b (.scalarMem (.atomic aop d src cmp base imm)) .atomic off n pos val .clean = ((old, none),
      (s.sramWrite t off (lineAt (off % 64) (atomicNew aop old ((s.bank t b).s src).toNat ((s.bank t b).s cmp).toNat))
        (enables (off % 64) 8) .clean).2) := by
  intro old
  have hold : (s.line (sramKey t (off / 64 * 64))).toNat / 2 ^ (8 * (off % 64)) % 2 ^ 64 = old := State.line_word hn
  unfold State.ownLine
  dsimp only
  rw [hr.ownCheck, if_neg (not_not.mpr rfl), State.sramRead_of_clean hr.clean]
  dsimp only
  rw [if_neg (not_not.mpr rfl), hold]

end

/-! ### The bytes that an access writes -/

/-- A byte of a part of a value. -/
theorem byte_of_part (v p : Nat) {n i : Nat} (h : i < n) :
    BitVec.ofNat 8 (v / 2 ^ (8 * p) % 2 ^ (8 * n) / 256 ^ i) = BitVec.ofNat 8 (v / 256 ^ (p + i)) := by
  obtain ⟨r, rfl⟩ := Nat.exists_eq_add_of_lt h
  refine BitVec.eq_of_toNat_eq ?_
  rw [BitVec.toNat_ofNat, BitVec.toNat_ofNat, ← pow256, ← pow256, show i + r + 1 = i + (r + 1) from rfl, Nat.pow_add 256 i,
    Nat.mod_mul_right_div_self, Nat.pow_succ', Nat.mod_mul_right_mod, Nat.div_div_eq_div_mul, ← Nat.pow_add]

theorem onlyStored_none (s : State) (t off : Nat) (v : Nat → Byte) : onlyStored s s t off 0 v :=
  ⟨fun _ h => absurd h (Nat.not_lt_zero _), fun _ _ => rfl⟩

/-- A store of `m` bytes and one of the `n` bytes behind them. -/
theorem onlyStored_append {s u w : State} {t off m n : Nat} {v : Nat → Byte} (h : onlyStored s u t off m v)
    (k : onlyStored u w t (off + m) n fun i => v (m + i)) : onlyStored s w t off (m + n) v := by
  obtain ⟨hin, hout⟩ := h
  obtain ⟨kin, kout⟩ := k
  have hkey : ∀ i, sramKey t (off + m + i) = sramKey t off + m + i := fun i => by simp only [sramKey]; omega
  have hkey0 : ∀ i, sramKey t (off + i) = sramKey t off + i := fun i => by simp only [sramKey]; omega
  refine ⟨fun i hi => ?_, fun a ha => ?_⟩
  · by_cases hm : i < m
    · rw [kout _ fun j hj => by rw [hkey, hkey0]; omega]
      exact hin i hm
    · obtain ⟨j, rfl⟩ := Nat.exists_eq_add_of_le (Nat.le_of_not_lt hm)
      have hj := kin j (by omega)
      rw [show off + m + j = off + (m + j) by omega] at hj
      exact hj
  · rw [kout a fun j hj => ?_, hout a fun j hj => ha j (by omega)]
    have hne := ha (m + j) (by omega)
    rw [hkey0] at hne
    rw [hkey]
    omega

/-! ### An access line by line -/

section
variable {s : State} {t b off mpa len dva : Nat} {op : TileOp} {e : XEntry} {val : Nat}
  (ho : OwnLines s t b mpa off len (s.bank t b).cid (s.bank t b).ctx)
  (htgt : ∀ i < len, targetOf [e] (dva + i) = some (.localMpa (mpa + i))) (hoff : off % 64 = dva % 64)
include ho htgt

/-- A line of an access in the bank's own share is carried out at once. -/
theorem Prog.line_own {acc : Acc} {p : Prog} (hp : p.fault = none) (hfull : p.full = false)
    (hs : SameWays s p.s) {pos n : Nat} (hpos : pos < len) :
    p.line t b op acc [e] val .clean (dva + pos, n, pos) =
      let r := p.s.ownLine t b op acc (off + pos) n pos val .clean
      { p with s := r.2, buf := p.buf + r.1.1 * 2 ^ (8 * pos), fault := r.1.2 } := by
  obtain ⟨hr, hin⟩ := hs.ownLines ho pos hpos
  unfold Prog.line
  rw [hp, hfull, if_neg (by simp)]
  dsimp only
  rw [htgt pos hpos]
  dsimp only
  rw [hr.place, hin, ite_self]
  rfl

include hoff

/-- A load in the bank's own share reads its word. -/
theorem foldl_line_rd (hlen : 0 < len ∧ len ≤ 512) :
    (linePieces dva len 16 0).foldl (Prog.line t b op .rd [e] val .clean) ⟨s, 0, 0, none, false⟩ =
      ⟨s, s.wordAt (sramKey t off) len, 0, none, false⟩ := by
  refine foldl_linePieces (I := fun pos p => p = Prog.mk s (s.wordAt (sramKey t off) pos) 0 none false)
    (dva := dva) (len := len) (fun pos n p h0 hlt hn hp => ?_) 16 (Nat.zero_le _) (.inr (by omega)) rfl
  subst hp
  have hkey : sramKey t (off + pos) = sramKey t off + pos := by simp only [sramKey]; omega
  rw [Prog.line_own ho htgt rfl rfl (.refl s) (by omega)]
  dsimp only
  rw [State.ownLine_rd (ho pos (by omega)).1 (by omega), State.wordAt_add, ← pow256, hkey, Nat.mul_comm (256 ^ pos)]

/-- A store in the bank's own share writes the bytes of its value. -/
theorem foldl_line_wr (hc : MemoryCanonical s) (hlen : 0 < len ∧ len ≤ 512) :
    ∃ u, (linePieces dva len 16 0).foldl (Prog.line t b op .wr [e] val .clean) ⟨s, 0, 0, none, false⟩ = ⟨u, 0, 0, none, false⟩ ∧
      Stores s u ∧ onlyStored s u t off len fun i => BitVec.ofNat 8 (val / 256 ^ i) := by
  refine foldl_linePieces (I := fun pos p => ∃ u, p = Prog.mk u 0 0 none false ∧ Stores s u ∧
      onlyStored s u t off pos fun i => BitVec.ofNat 8 (val / 256 ^ i))
    (dva := dva) (len := len) (fun pos n p h0 hlt hn hp => ?_) 16 (Nat.zero_le _) (.inr (by omega))
    ⟨s, rfl, .refl s, onlyStored_none _ _ _ _⟩
  obtain ⟨u, rfl, hs, hst⟩ := hp
  have hcl := hs.sameWays.clean (ho pos (by omega)).1.clean
  have hw := State.sramWrite_onlyStored (hs.within.canonical hc) hcl (o := (off + pos) % 64) (n := n) (by omega)
    (val / 2 ^ (8 * pos) % 2 ^ (8 * n))
  rw [Nat.div_add_mod'] at hw
  have hr : Reaches u (u.bank t b).cid (u.bank t b).ctx (mpa + pos) t (off + pos) := by
    rw [hs.bank]
    exact hs.sameWays.reaches (ho pos (by omega)).1
  refine ⟨_, ?_, hs.trans (State.sramWrite_stores hcl _ _), onlyStored_append hst ⟨fun i hi => ?_, hw.2⟩⟩
  · rw [Prog.line_own ho htgt rfl rfl hs.sameWays (by omega)]
    dsimp only
    rw [State.ownLine_wr hr, Nat.zero_mul]
  · rw [hw.1 i hi]
    exact byte_of_part val pos hi

omit hoff in
/-- An atomic in the bank's own share acts on its word. -/
theorem foldl_line_atomic {aop : AtomicOp} {d src cmp base : SReg} {imm : BitVec 41} (hc : MemoryCanonical s) (hlen : len = 8)
    (h8 : off % 64 + 8 ≤ 64) (hd8 : dva % 64 + 8 ≤ 64) (hop : op = .scalarMem (.atomic aop d src cmp base imm)) :
    let old := s.wordAt (sramKey t off) 8
    let new := atomicNew aop old ((s.bank t b).s src).toNat ((s.bank t b).s cmp).toNat
    ∃ u, (linePieces dva len 16 0).foldl (Prog.line t b op .atomic [e] val .clean) ⟨s, 0, 0, none, false⟩ =
        ⟨u, old, 0, none, false⟩ ∧
      Stores s u ∧ onlyStored s u t off 8 fun i => BitVec.ofNat 8 (new / 256 ^ i) := by
  subst hlen hop
  intro old new
  have hpieces : linePieces dva 8 16 0 = [(dva + 0, 8, 0)] := by
    have hmin : min (64 - dva % 64) 8 = 8 := by omega
    simp [linePieces, hmin]
  have hcl := (ho 0 (by decide)).1.clean
  have hw := State.sramWrite_onlyStored hc hcl (o := off % 64) (n := 8) h8 new
  rw [Nat.add_zero, Nat.div_add_mod'] at hw
  refine ⟨_, ?_, State.sramWrite_stores hcl (lineAt (off % 64) new) (enables (off % 64) 8), hw⟩
  rw [hpieces, List.foldl_cons, List.foldl_nil, Prog.line_own ho htgt rfl rfl (.refl s) (by decide)]
  dsimp only
  rw [State.ownLine_atomic (ho 0 (by decide)).1 h8, Nat.zero_add, Nat.mul_zero, Nat.pow_zero, Nat.mul_one]
  rfl

end

/-! ### The whole access -/

/-- An access whose lines are all done at once ends. -/
theorem State.lineGo_done {s u : State} {t b dva len buf : Nat} {op : TileOp} {acc : Acc} {e : XEntry}
    (h : (linePieces dva len 16 0).foldl (Prog.line t b op acc [e] (memValue ((s.begun t b e).bank t b) op) .clean)
      ⟨s.begun t b e, 0, 0, none, false⟩ = ⟨u, buf, 0, none, false⟩) :
    (s.install t e).lineGo t b op dva len acc .clean [e] = u.memEnd t b op buf := by
  unfold State.lineGo
  dsimp only
  unfold State.begun at h
  rw [h]
  rfl

theorem memValue_wake (x : Tile) (b : Nat) (k : Bank) (op : TileOp) : memValue (x.wake b k) op = memValue k op := by
  unfold memValue
  split <;> rfl

/-- The bank after an access that began and ended at once, whatever it stored. -/
theorem Begins.bank_memEnd {s v u : State} {t b : Nat} (h : Begins s t b v) (hs : Stores v u) (op : TileOp) (x : Nat) :
    (u.memEnd t b op x).bank t b = ended s t b (memResult x (s.bank t b) op) := by
  rw [State.bank_memEnd, hs.bank, h.bank, memResult_wake, ended, hs.run, h.run]
  rfl

/-- What an access of a bank's own share meets once it has begun. -/
theorem ownSpan_begun {s : State} {t b dva off len : Nat} (h : ownSpan s t b dva off len) (hlen : 0 < len) (op : TileOp) :
    ∃ e mpa, (∀ acc go, s.tileAccess t b 0 0 op [{ at_ := dva, len := len, acc := acc, priv := false, row := 0 }] false none false
        go = go [e] (s.install t e)) ∧
      (∀ i < len, targetOf [e] (dva + i) = some (.localMpa (mpa + i))) ∧
      OwnLines (s.begun t b e) t b mpa off len ((s.begun t b e).bank t b).cid ((s.begun t b e).bank t b).ctx := by
  obtain ⟨h57, -, e, hl, hcov, hkind, hall⟩ := h
  have hpage := State.lookup_page hl
  have hbase : e.base ≤ dva := hpage ▸ Nat.div_mul_le_self _ _
  have hB := s.begun_begins t b e
  refine ⟨e, entryOa e.leaf + (dva - e.base), fun acc go => State.tileAccess_hit h57 rfl hlen hl hcov, fun i hi => ?_, ?_⟩
  · rw [targetOf_one (page_of_within hpage (by omega) (by omega)), XEntry.target, hkind]
    exact congrArg (some ∘ Target.localMpa) (by omega)
  · rw [hB.cid, hB.ctx]
    refine hB.sameWays.ownLines fun i hi => ?_
    obtain ⟨hp, hin, ha, hm⟩ := hall i hi
    exact ⟨⟨hp, ha, hm⟩, hin⟩

theorem State.begun_mem (s : State) (t b : Nat) (e : XEntry) : (s.begun t b e).mem = s.mem :=
  (s.begun_begins t b e).within.mem_eq (by decide)

/-- What is stored depends on the memory alone. -/
theorem onlyStored_of_mem {s s' u u' : State} (hs : s'.mem = s.mem) (hu : u'.mem = u.mem) {t off len : Nat} {v : Nat → Byte}
    (h : onlyStored s' u t off len v) : onlyStored s u' t off len v := by
  have hbs : ∀ a, s'.byte a = s.byte a := fun a => congrArg (Memory.read · a) hs
  have hbu : ∀ a, u'.byte a = u.byte a := fun a => congrArg (Memory.read · a) hu
  exact ⟨fun i hi => (hbu _).trans (h.1 i hi), fun a ha => (hbu a).trans ((h.2 a ha).trans (hbs a))⟩

section
variable {s : State} {t b dva off len : Nat} {op : TileOp} (hown : ownSpan s t b dva off len) (hlen : 0 < len ∧ len ≤ 512)
include hown hlen

/-- A load in the bank's own share ends at once with its word. -/
theorem State.memRun_rd (hspan : memSpan (s.bank t b) op = some (dva, len, .rd)) :
    (s.memRun t b op .clean false none).mem = s.mem ∧ (s.memRun t b op .clean false none).bank t b =
      ended s t b (memResult (s.wordAt (sramKey t off) len) (s.bank t b) op) := by
  obtain ⟨e, mpa, hgo, htgt, ho⟩ := ownSpan_begun hown hlen.1 op
  have hB := s.begun_begins t b e
  have hmem := s.begun_mem t b e
  have hw : (s.begun t b e).wordAt (sramKey t off) len = s.wordAt (sramKey t off) len :=
    State.wordAt_congr fun _ _ => congrArg (Memory.read · _) hmem
  have hu : s.memRun t b op .clean false none = (s.begun t b e).memEnd t b op (s.wordAt (sramKey t off) len) := by
    unfold State.memRun
    rw [hspan]
    dsimp only
    rw [hgo, State.lineGo_done (foldl_line_rd ho htgt hown.2.1 hlen), hw]
  rw [hu]
  exact ⟨((State.memEnd_within _ _ _ _ _).mem_eq (by decide)).trans hmem, hB.bank_memEnd (.refl _) _ _⟩

variable (hc : MemoryCanonical s)
include hc

/-- A store in the bank's own share ends at once; the bytes of its value are stored. -/
theorem State.memRun_wr (hspan : memSpan (s.bank t b) op = some (dva, len, .wr)) :
    (s.memRun t b op .clean false none).bank t b = ended s t b (memResult 0 (s.bank t b) op) ∧
      onlyStored s (s.memRun t b op .clean false none) t off len
        fun i => BitVec.ofNat 8 (memValue (s.bank t b) op / 256 ^ i) := by
  obtain ⟨e, mpa, hgo, htgt, ho⟩ := ownSpan_begun hown hlen.1 op
  have hB := s.begun_begins t b e
  obtain ⟨u, hfold, hs, hst⟩ := foldl_line_wr (op := op) (val := memValue ((s.begun t b e).bank t b) op) ho htgt hown.2.1
    (hB.within.canonical hc) hlen
  have hu : s.memRun t b op .clean false none = u.memEnd t b op 0 := by
    unfold State.memRun
    rw [hspan]
    dsimp only
    rw [hgo, State.lineGo_done hfold]
  rw [hu]
  refine ⟨hB.bank_memEnd hs _ _, onlyStored_of_mem (s.begun_mem t b e) ((State.memEnd_within _ _ _ _ _).mem_eq (by decide)) ?_⟩
  rw [hB.bank, memValue_wake] at hst
  exact hst

omit hlen in
/-- An atomic in the bank's own share ends at once with the old word. -/
theorem State.memRun_atomic {aop : AtomicOp} {d src cmp base : SReg} {imm : BitVec 41} (hlen : len = 8) (hd8 : dva % 8 = 0)
    (hop : op = .scalarMem (.atomic aop d src cmp base imm)) (hspan : memSpan (s.bank t b) op = some (dva, len, .atomic)) :
    let old := s.wordAt (sramKey t off) 8
    (s.memRun t b op .clean false none).bank t b = ended s t b (memResult old (s.bank t b) op) ∧
      onlyStored s (s.memRun t b op .clean false none) t off 8 fun i =>
        BitVec.ofNat 8 (atomicNew aop old ((s.bank t b).s src).toNat ((s.bank t b).s cmp).toNat / 256 ^ i) := by
  intro old
  obtain ⟨e, mpa, hgo, htgt, ho⟩ := ownSpan_begun hown (by omega) op
  have hB := s.begun_begins t b e
  have hoff := hown.2.1
  have hw : (s.begun t b e).wordAt (sramKey t off) 8 = old :=
    State.wordAt_congr fun _ _ => congrArg (Memory.read · _) (s.begun_mem t b e)
  obtain ⟨u, hfold, hs, hst⟩ := foldl_line_atomic (val := memValue ((s.begun t b e).bank t b) op) ho htgt
    (hB.within.canonical hc) hlen (by omega) (by omega) hop
  rw [hw] at hfold hst
  have hu : s.memRun t b op .clean false none = u.memEnd t b op old := by
    unfold State.memRun
    rw [hspan]
    dsimp only
    rw [hgo, State.lineGo_done hfold]
  rw [hu]
  refine ⟨hB.bank_memEnd hs _ _, onlyStored_of_mem (s.begun_mem t b e) ((State.memEnd_within _ _ _ _ _).mem_eq (by decide)) ?_⟩
  rw [hB.bank] at hst
  exact hst

end

/-! ### Registers read and written whole -/

/-- The value whose digits are given, each below 2^32. -/
theorem foldl_digits {d : Nat → Nat} (hd : ∀ i, d i < 2 ^ 32) (n : Nat) :
    (List.range n).foldl (fun acc i => acc + d i * 2 ^ (32 * i)) 0 < 2 ^ (32 * n) ∧
      ∀ i < n, (List.range n).foldl (fun acc i => acc + d i * 2 ^ (32 * i)) 0 / 2 ^ (32 * i) % 2 ^ 32 = d i := by
  induction n with
  | zero => simp
  | succ n ih =>
    obtain ⟨hlt, hdig⟩ := ih
    rw [List.range_succ, List.foldl_append, List.foldl_cons, List.foldl_nil]
    generalize (List.range n).foldl (fun acc i => acc + d i * 2 ^ (32 * i)) 0 = v at hlt hdig ⊢
    refine ⟨?_, fun i hi => ?_⟩
    · have hn := hd n
      calc v + d n * 2 ^ (32 * n) < (d n + 1) * 2 ^ (32 * n) := by
            rw [Nat.add_mul, Nat.one_mul, Nat.add_comm]
            exact Nat.add_lt_add_left hlt _
        _ ≤ 2 ^ 32 * 2 ^ (32 * n) := Nat.mul_le_mul_right _ hn
        _ = 2 ^ (32 * (n + 1)) := by rw [← Nat.pow_add, Nat.mul_succ, Nat.add_comm]
    · by_cases hin : i = n
      · subst hin
        rw [Nat.add_mul_div_right _ _ (Nat.pow_pos (by decide)), Nat.div_eq_of_lt hlt, Nat.zero_add, Nat.mod_eq_of_lt (hd i)]
      · obtain ⟨r, rfl⟩ := Nat.exists_eq_add_of_lt (show i < n by omega)
        rw [← hdig i (by omega), show 32 * (i + r + 1) = 32 * i + (32 + 32 * r) by omega, Nat.pow_add, Nat.mul_left_comm,
          Nat.add_mul_div_left _ _ (Nat.pow_pos (by decide)), Nat.pow_add, Nat.mul_left_comm, Nat.add_mul_mod_self_left]

/-- Byte `i` of a vector register's value is the register's. -/
theorem Bank.byte_vNat (k : Bank) (r : Nat) {i : Nat} (hi : i < 512) :
    BitVec.ofNat 8 (k.vNat r / 256 ^ i) = BitVec.ofNat 8 (k.vByte r i) := by
  have hdig := (foldl_digits (d := k.v32 r) (fun i => BitVec.isLt _) 128).2 (i / 4) (by omega)
  have hpow : 256 ^ i = 2 ^ (32 * (i / 4)) * 256 ^ (i % 4) := by
    rw [pow256, pow256, ← Nat.pow_add]
    congr 1
    omega
  have hlt : i % 4 < 4 := Nat.mod_lt _ (by decide)
  refine BitVec.eq_of_toNat_eq ?_
  rw [BitVec.toNat_ofNat, BitVec.toNat_ofNat, Bank.vByte, Bank.vNat, hpow, ← Nat.div_div_eq_div_mul, ← hdig]
  generalize (List.range 128).foldl (fun acc i => acc + k.v32 r i * 2 ^ (32 * i)) 0 / 2 ^ (32 * (i / 4)) = v
  generalize i % 4 = j at hlt
  interval_cases j <;> omega

/-- The value of the bytes of a value. -/
theorem leNat_toBytes (n v : Nat) : leNat (toBytes n v) = v % 256 ^ n := by
  induction n generalizing v with
  | zero => simp [toBytes, leNat, Nat.mod_one]
  | succ n ih =>
    rw [toBytes, leNat, ih, BitVec.toNat_ofNat, show 256 ^ (n + 1) = 256 * 256 ^ n from Nat.pow_succ']
    exact Nat.mod_mul.symm

/-! ### The obligation -/

theorem two_pow_le_512 (l : Fin 4) : 0 < 2 ^ l.val ∧ 2 ^ l.val ≤ 512 :=
  ⟨Nat.pow_pos (by decide), Nat.pow_le_pow_right (by decide) (show l.val ≤ 9 by omega)⟩

theorem scalarMemoryInTheShare : Stated.ScalarMemoryInTheShare := by
  intro t b base imm off s hr hc k dva set
  refine ⟨fun l signed d hown => ⟨_, exec_of_run hr rfl, ?_⟩, fun l src hown => ⟨_, exec_of_run hr rfl, ?_⟩,
    fun op d src cmp hown => ⟨_, exec_of_run hr rfl, ?_⟩⟩
  · obtain ⟨hmem, hbank⟩ := State.memRun_rd (op := .scalarMem (.load l signed d base imm)) hown (two_pow_le_512 l) rfl
    refine ⟨hmem, hbank.trans (congrArg (ended s t.val b.val) ?_)⟩
    have hlt := s.wordAt_lt (sramKey t.val off) (2 ^ l.val)
    rw [pow256] at hlt
    unfold memResult
    dsimp only
    rw [Nat.mod_eq_of_lt hlt]
    rfl
  · exact State.memRun_wr (op := .scalarMem (.store l src base imm)) hown (two_pow_le_512 l) hc rfl
  · have h := State.memRun_atomic (aop := op) (d := d) (src := src) (cmp := cmp) (base := base) (imm := imm) hown hc rfl
      (Nat.mul_mod_left _ _) rfl rfl
    cases op <;> exact h

/-- A bank whose vector registers alone were written. -/
theorem Bank.of_butV {k x : Bank} (h : x.butV = k.butV) : { x with vReg := k.vReg } = k :=
  congrArg (fun y : Bank => { y with vReg := k.vReg }) h

theorem ended_v32 (s : State) (t b : Nat) (k : Bank) (r i : Nat) : (ended s t b k).v32 r i = k.v32 r i := rfl

theorem ended_withV (s : State) (t b : Nat) (k : Bank) (v : Tab Word) :
    { ended s t b k with vReg := v } = ended s t b { k with vReg := v } := rfl

theorem memResult_load (v : Nat) (k : Bank) (d : VReg) (base : SReg) (imm : BitVec 41) :
    memResult v k (.vectorMem (.load d base imm)) = k.setVBytes d.val (toBytes 512 v) := rfl

theorem vectorMemoryInTheShare : Stated.VectorMemoryInTheShare := by
  intro t b base imm off s hr hc k dva
  refine ⟨fun hown => ⟨fun d => ⟨_, exec_of_run hr rfl, ?_⟩, fun src => ⟨_, exec_of_run hr rfl, ?_⟩⟩,
    fun hown => ⟨fun d => ⟨_, exec_of_run hr rfl, ?_⟩, fun src => ⟨_, exec_of_run hr rfl, ?_⟩⟩⟩
  · obtain ⟨hmem, hbank⟩ := State.memRun_rd (op := .vectorMem (.load d base imm)) hown (by decide) rfl
    have hword : ∀ i < 128, leNat (((toBytes 512 (s.wordAt (sramKey t.val off) 512)).drop (4 * i)).take 4) =
        s.wordAt (sramKey t.val (off + 4 * i)) 4 := fun i hi => by
      rw [leNat_take _ (by rw [List.length_drop, toBytes_length]; omega), leNat_drop _ (by rw [toBytes_length]; omega),
        leNat_toBytes, Nat.mod_eq_of_lt (s.wordAt_lt _ _), State.wordAt_within _ _ (by omega), sramKey, Nat.add_assoc, sramKey]
    rw [memResult_load] at hbank
    generalize toBytes 512 (s.wordAt (sramKey t.val off) 512) = bytes at hword hbank
    refine ⟨hmem, ?_⟩
    rw [hbank]
    refine ⟨fun i hi => ?_, fun r hrd i hi => ?_, ?_⟩
    · rw [ended_v32, Bank.v32_setVBytes _ _ _ hi, hword i hi]
    · rw [ended_v32, Bank.v32_setVBytes_other _ _ (fun he => hrd (Fin.ext he)) hi]
    · rw [ended_withV, Bank.of_butV (k.butV_setVBytes d.val bytes)]
  · obtain ⟨hbank, hst⟩ := State.memRun_wr (op := .vectorMem (.store src base imm)) hown (by decide) hc rfl
    refine ⟨hbank, fun i hi => (hst.1 i hi).trans (k.byte_vNat src.val hi), hst.2⟩
  · exact State.memRun_rd (op := .vectorMem (.loadP d base imm)) hown (by decide) rfl
  · exact State.memRun_wr (op := .vectorMem (.storeP src base imm)) hown (by decide) hc rfl

/-- Settles O19: each line of the access lies in the bank's own share, so that it is read or written at once, and the bytes
of the lines make up the value. -/
theorem memoryInstructions : Obligations.MemoryInstructions := ⟨scalarMemoryInTheShare, vectorMemoryInTheShare⟩

end Sys2Proof.Machine
end

section
/-! SUPPORT. What a fault of a tile leaves alone of every tile: all but its banks, channels, memory and neighbours, so its
pairing entries (R71, R133). -/

set_option Elab.async false

namespace Sys2Proof.Machine

/-- A tile but for its banks, channels, memory and neighbours. -/
def Tile.kept (x : Tile) : Tile := { x with nbr := .of {}, banks := [], chans := [], srm := {} }

/-- Every tile keeps all but its banks, channels, memory and neighbours. -/
def Keeps (s u : State) : Prop := ∀ t, (u.tile t).kept = (s.tile t).kept

namespace Keeps

theorem refl (s : State) : Keeps s s := fun _ => rfl

/-- An operation after others. -/
theorem after {s t u : State} (k : Keeps t u) (h : Keeps s t) : Keeps s u := fun j => (k j).trans (h j)

theorem each {α : Type} (s : State) (l : List α) (f : State → α → State) (hf : ∀ s x, Keeps s (f s x)) : Keeps s (s.each l f) := by
  induction l generalizing s with
  | nil => exact refl s
  | cons x l ih => exact (ih (f s x)).after (hf s x)

theorem when (s : State) (c : Bool) (f : State → State) (hf : Keeps s (f s)) : Keeps s (s.when c f) := by
  cases c
  · exact refl s
  · exact hf

theorem ite {s a b : State} {c : Prop} [Decidable c] (ha : c → Keeps s a) (hb : ¬c → Keeps s b) :
    Keeps s (if c then a else b) := by
  split
  · exact ha ‹_›
  · exact hb ‹_›

theorem ite_snd {α : Type} {s : State} {a b : α × State} {c : Prop} [Decidable c] (ha : c → Keeps s a.2)
    (hb : ¬c → Keeps s b.2) : Keeps s (if c then a else b).2 := by
  split
  · exact ha ‹_›
  · exact hb ‹_›

theorem modTile (s : State) (t : Nat) (f : Tile → Tile) (hf : ∀ x, (f x).kept = x.kept) : Keeps s (s.modTile t f) := by
  intro j
  rw [State.tile_modTile]
  split
  · rename_i h
    subst h
    exact hf _
  · rfl

theorem modBank (s : State) (t b : Nat) (f : Bank → Bank) : Keeps s (s.modBank t b f) := modTile s t _ fun _ => rfl
theorem modChan (s : State) (t c : Nat) (f : Chan → Chan) : Keeps s (s.modChan t c f) := modTile s t _ fun _ => rfl
theorem modSrm (s : State) (t : Nat) (f : Srm → Srm) : Keeps s (s.modSrm t f) := modTile s t _ fun _ => rfl

theorem pairings {s u : State} (h : Keeps s u) (t : Nat) : (u.tile t).pairings = (s.tile t).pairings :=
  (congrArg Tile.pairings (h t) :)

end Keeps

/-- What touches no tile keeps them. -/
theorem Within.keeps {M : List Block} {s u : State} (h : Within M s u) (ht : M.contains .tiles = false := by decide) :
    Keeps s u := fun t => by rw [h.tile_eq ht t]

/-! ### Lines of the bonded SRAM -/

theorem State.sramPoison_keeps (s : State) (t off : Nat) (icv : Bool) : Keeps s (s.sramPoison t off icv) := by
  unfold State.sramPoison
  exact (Keeps.modSrm _ _ _).after (s.clearMem_within _ _).keeps

theorem State.sramCheck_keeps (s : State) (t off : Nat) (ecc : Ecc) : Keeps s (s.sramCheck t off ecc).2 := by
  unfold State.sramCheck
  refine Keeps.ite_snd (fun _ => .refl s) fun _ => ?_
  refine Keeps.ite_snd (fun _ => (State.sramPoison_keeps _ _ _ _).after ?_)
    fun _ => Keeps.ite_snd (fun _ => (State.sramPoison_keeps _ _ _ _).after ?_) fun _ => ?_
  all_goals
    cases ecc.corrections with
    | some n => exact Keeps.modSrm _ _ _
    | none => exact .refl s

theorem State.sramWrite_keeps (s : State) (t off : Nat) (data : Line) (be : DWord) (ecc : Ecc) :
    Keeps s (s.sramWrite t off data be ecc).2 := by
  unfold State.sramWrite
  simp only [apply_ite Prod.snd]
  refine Keeps.ite (fun _ => (Keeps.modSrm _ _ _).after (s.storeLine_within _ _).keeps) fun _ => ?_
  refine Keeps.ite (fun _ => (State.storeLine_within _ _ _).keeps.after ?_) fun _ => ?_ <;>
  exact s.sramCheck_keeps t off ecc

/-! ### Guarantees and failed pairs -/

theorem State.setRegGuar_keeps (s : State) (slot : Nat) (r : GuarRes) (g : Nat) : Keeps s (s.setRegGuar slot r g) := by
  unfold State.setRegGuar
  cases r with
  | tile l =>
    dsimp only
    cases s.physTile l with
    | some t => exact Keeps.modTile s _ _ fun _ => rfl
    | none => exact .refl s
  | pair l => exact (s.modLp_within _).keeps
  | port p rx => exact (s.modFab_within _).keeps

theorem State.setCurrent_keeps (s : State) (slot : Nat) (cid : Cid) (r : GuarRes) (g : Nat) :
    Keeps s (s.setCurrent slot cid r g) := by
  unfold State.setCurrent
  refine Keeps.ite (fun _ => .refl s) fun _ => ?_
  dsimp only
  refine Keeps.ite (fun _ => ?_) fun _ => ?_
  all_goals
    refine (State.pulse_within _ _).keeps.after ((State.notifyCid_within _ _ _ _).keeps.after ?_)
    exact (State.setRegGuar_keeps _ _ _ _).after (s.modBrd_within _).keeps

theorem State.regauge_keeps (s : State) (r : GuarRes) : Keeps s (s.regauge r) :=
  Keeps.each _ _ _ fun s g => by
    cases s.slotOf g.1 with
    | some slot => exact s.setCurrent_keeps _ _ _ _
    | none => exact .refl s

theorem State.regaugeHalf_keeps (s : State) (half : Nat) : Keeps s (s.regaugeHalf half) :=
  Keeps.each _ _ _ fun s _ => s.regauge_keeps _

theorem State.pairFailed_keeps (s : State) (phys : Nat) : Keeps s (s.pairFailed phys) := by
  unfold State.pairFailed
  refine Keeps.ite (fun _ => .refl s) fun _ => ?_
  dsimp only
  refine (State.regaugeHalf_keeps _ _).after ((State.spareUp_within _ _).keeps.after ?_)
  have hd : Keeps s (s.setPairSt phys .degraded) := (s.setPairSt_within _ _).keeps
  refine Keeps.ite (fun _ => ?_) fun _ => Keeps.ite (fun _ => ?_) fun _ => hd
  · refine (State.zeroShare_within _ _ _ _).keeps.after ((State.modPair_within _ _ _).keeps.after ?_)
    refine (State.setPairSt_within _ _ _).keeps.after ((State.opDone_within _ _ _ _ _ _ _).keeps.after ?_)
    exact (State.modMove_within _ _ _).keeps.after hd
  · exact (State.moveAborts_within _ _).keeps.after hd

/-! ### Lines of LPDDR5X -/

theorem State.dramPoison_keeps (s : State) (phys line : Nat) : Keeps s (s.dramPoison phys line) := by
  unfold State.dramPoison
  dsimp only
  refine Keeps.ite (fun _ => (State.pairFailed_keeps _ _).after ?_) fun _ => ?_ <;>
  exact (State.pulse_within _ _).keeps.after (s.modPair_within _ _).keeps

theorem State.dramRebuilt_keeps (s : State) (phys : Nat) : Keeps s (s.dramRebuilt phys) := by
  unfold State.dramRebuilt
  dsimp only
  refine Keeps.ite (fun _ => (State.pairFailed_keeps _ _).after ?_) fun _ => ?_ <;>
  exact (State.pulse_within _ _).keeps.after (s.modPair_within _ _).keeps

theorem State.dramFetch_keeps (s : State) (phys line : Nat) (ecc : Ecc) : Keeps s (s.dramFetch phys line ecc).2.2 := by
  have h : Keeps s (s.linkRetried phys ecc) := (s.linkRetried_within _ _).keeps
  unfold State.dramFetch
  dsimp only
  split
  · exact .refl s
  split
  · exact (State.dramPoison_keeps _ _ _).after h
  split
  · split
    · refine (State.dramRebuilt_keeps _ _).after (Keeps.ite (fun _ => ?_) fun _ => (State.storeLine_within _ _ _).keeps.after ?_) <;>
      exact (State.settleStripe_within _ _ _).keeps.after h
    · exact (State.dramPoison_keeps _ _ _).after h
  · exact h

theorem State.oldLine_keeps (s : State) (phys line : Nat) (ecc : Ecc) : Keeps s (s.oldLine phys line ecc).2 := by
  have h : Keeps s (s.linkRetried phys ecc) := (s.linkRetried_within _ _).keeps
  unfold State.oldLine
  simp only [apply_ite Prod.snd]
  refine Keeps.ite (fun _ => Keeps.ite (fun _ => (State.dramRebuilt_keeps _ _).after ?_) fun _ => ?_) fun _ => h <;>
  exact (State.settleStripe_within _ _ _).keeps.after h

theorem State.dramWrite_keeps (s : State) (phys line mpa : Nat) (data : Line) (be : DWord) (ecc : Ecc) :
    Keeps s (s.dramWrite phys line mpa data be ecc).2 := by
  unfold State.dramWrite
  simp only [apply_ite Prod.snd]
  refine Keeps.ite (fun _ => (s.keyUe_within _).keeps) fun _ => Keeps.ite (fun _ => ?_) fun _ => Keeps.ite (fun _ => .refl s) fun _ => ?_
  · refine Keeps.ite (fun _ => (State.regionWrite_within _ _ _ _ _ _).keeps.after ?_) fun _ => ?_
    all_goals
      refine (State.dramStore_within _ _ _ _ _).keeps.after ((State.modPair_within _ _ _).keeps.after ?_)
      exact s.oldLine_keeps _ _ _
  · refine Keeps.ite (fun _ => s.dramFetch_keeps _ _ _) fun _ => ?_
    refine Keeps.ite (fun _ => (State.regionWrite_within _ _ _ _ _ _).keeps.after ?_) fun _ => ?_
    all_goals exact (State.dramStore_within _ _ _ _ _).keeps.after (s.dramFetch_keeps _ _ _)

/-! ### Lines by MPA -/

theorem State.placeWrite_keeps (s : State) (pl : Place) (mpa : Nat) (data : Line) (be : DWord) (ecc : Ecc) :
    Keeps s (s.placeWrite pl mpa data be ecc).2 := by
  cases pl with
  | sram t off => exact s.sramWrite_keeps t off data be ecc
  | dram _ p line _ => exact s.dramWrite_keeps p line _ data be ecc
  | unbacked => exact .refl s

theorem State.countRefused_keeps (s : State) (pl : Place) : Keeps s (s.countRefused pl) := by
  cases pl <;> exact fun _ => rfl

theorem State.writeMpa_keeps (s : State) (w : Who) (mpa : Nat) (data : Line) (be : DWord) (ecc : Ecc) :
    Keeps s (s.writeMpa w mpa data be ecc).2 := by
  unfold State.writeMpa
  refine Keeps.ite_snd (fun _ => s.countRefused_keeps _) fun _ => (State.placeWrite_keeps _ _ _ _ _ _).after ?_
  cases s.place mpa with
  | dram => exact Keeps.ite (fun _ => .refl s) fun _ => (s.dlogDevice_within _ _).keeps
  | sram => exact .refl s
  | unbacked => exact .refl s

theorem State.mpaStore_keeps (s : State) (w : Who) (mpa n v : Nat) : Keeps s (s.mpaStore w mpa n v).2 :=
  s.writeMpa_keeps _ _ _ _ _

theorem State.objSetState_keeps (s : State) (cid : Cid) (i st gen : Nat) : Keeps s (s.objSetState cid i st gen) := by
  unfold State.objSetState
  cases s.objTab cid with
  | none => exact .refl s
  | some t => exact s.mpaStore_keeps _ _ _ _

theorem State.objSetRefs_keeps (s : State) (cid : Cid) (i refs : Nat) : Keeps s (s.objSetRefs cid i refs) := by
  unfold State.objSetRefs
  cases s.objTab cid with
  | none => exact .refl s
  | some t => exact s.mpaStore_keeps _ _ _ _

/-! ### The queue parser -/

theorem State.unitSend_keeps (s : State) (stop : Nat) (p : Packet) (via : Nat × Nat) : Keeps s (s.unitSend stop p via) := by
  unfold State.unitSend
  cases s.freeTag stop with
  | none => exact (s.emit_within _).keeps
  | some g => exact fun _ => rfl

theorem State.parserWrite_keeps (s : State) (home : Nat) (cid : Cid) (ctx : Ctx) (dva n v : Nat) :
    Keeps s (s.parserWrite home cid ctx dva n v).2 := by
  unfold State.parserWrite
  generalize s.walk cid ctx dva = x
  cases x with
  | hit e =>
    dsimp only
    generalize e.target dva = m
    cases m with
    | localMpa m => exact s.mpaStore_keeps _ _ _ _
    | host a =>
      dsimp only
      cases s.hostWay cid with
      | some hf =>
        dsimp only
        exact (s.hostWrite_within _ _ _ _ _).keeps
      | none => exact .refl s
    | window fa =>
      dsimp only
      exact s.unitSend_keeps _ _ _
  | _ => exact .refl s

theorem State.statusWrite_keeps (s : State) (e : Nat) : Keeps s (s.statusWrite e).2 := s.parserWrite_keeps _ _ _ _ _ _

theorem State.breakQueue_keeps (s : State) (e index : Nat) : Keeps s (s.breakQueue e index) := by
  unfold State.breakQueue
  refine Keeps.ite (fun _ => .refl s) fun _ => ?_
  dsimp only
  refine (State.queueRecord_within _ _ _ _ _ _ _ _).keeps.after ((State.statusWrite_keeps _ _).after ?_)
  exact (s.modQ_within _ _).keeps

theorem State.completionWrite_keeps (s : State) (e : Nat) (index : Word) (tag status info : Nat) (irq : Bool) :
    Keeps s (s.completionWrite e index tag status info irq) := by
  unfold State.completionWrite
  dsimp only
  refine Keeps.ite (fun _ => (State.breakQueue_keeps _ _ _).after ?_)
    fun _ => (Keeps.when _ _ _ (State.msix_within _ _ _ _).keeps).after ?_
  all_goals exact s.parserWrite_keeps _ _ _ _ _ _

theorem State.endCmd_keeps (s : State) (e : Nat) (index : Word) (status info : Nat) (write : Bool) :
    Keeps s (s.endCmd e index status info write) := by
  unfold State.endCmd
  cases s.cmd e index with
  | none => exact .refl s
  | some c =>
    refine Keeps.ite (fun _ => (State.completionWrite_keeps _ _ _ _ _ _ _).after ?_) fun _ => ?_
    all_goals exact (State.modQue_within _ _).keeps.after (s.modQ_within _ _).keeps

/-! ### References -/

theorem State.freeDone_keeps (s : State) (cid : Cid) (i : Nat) : Keeps s (s.freeDone cid i) := by
  unfold State.freeDone
  cases s.objEntry cid i with
  | none => exact .refl s
  | some e =>
    refine Keeps.ite (fun _ => ?_) fun _ => .refl s
    generalize hu : s.objSetState cid i 0 _ = u
    have h : Keeps s u := hu ▸ s.objSetState_keeps _ _ _ _
    dsimp only
    cases u.freeOf cid i with
    | some c => exact (State.endCmd_keeps _ _ _ _ _ _).after h
    | none => exact h

theorem State.wakeRefs_keeps (s : State) (cid : Cid) : Keeps s (s.wakeRefs cid) := by
  refine Keeps.each _ _ _ fun s t => Keeps.each _ _ _ fun s b => ?_
  dsimp only
  generalize Bank.wait _ = w
  rcases w with _ | w
  · exact .refl s
  cases w with
  | reference op => exact Keeps.ite (fun _ => Keeps.modBank s t.1 b _) fun _ => .refl s
  | _ => exact .refl s

theorem State.dropRef_keeps (s : State) (cid : Cid) (i : Nat) : Keeps s (s.dropRef cid i) := by
  unfold State.dropRef
  cases s.objEntry cid i with
  | some e => exact (State.wakeRefs_keeps _ _).after ((State.freeDone_keeps _ _ _).after (s.objSetRefs_keeps _ _ _))
  | none => exact .refl s

theorem State.complete_keeps (s : State) (e : Nat) (index : Word) (status info : Nat) (write : Bool) :
    Keeps s (s.complete e index status info write) := by
  unfold State.complete
  cases s.cmd e index with
  | none => exact .refl s
  | some c => exact (Keeps.each _ _ _ fun s i => s.dropRef_keeps _ i).after (s.endCmd_keeps e index status info write)

theorem State.dropBankWaits_keeps (s : State) (t b : Nat) : Keeps s (s.dropBankWaits t b) := by
  unfold State.dropBankWaits
  exact (Keeps.each _ _ _ fun s w => s.dropRef_keeps _ _).after (s.modQue_within _).keeps

/-! ### Losing a context -/

theorem State.haltChan_keeps (s : State) (t c : Nat) (cid : Cid) : Keeps s (s.haltChan t c cid) := by
  unfold State.haltChan
  dsimp only
  cases (s.chan t c).fenceRef with
  | some i => exact (State.dropRef_keeps _ _ _).after (.modChan s t c _)
  | none => exact .modChan s t c _

theorem State.purgeBank_keeps (s : State) (t b : Nat) : Keeps s (s.purgeBank t b) := by
  unfold State.purgeBank
  refine Keeps.ite (fun _ => .refl s) fun _ => ?_
  refine (State.tileSignal_within _ _).keeps.after ((State.modMesh_within _ _).keeps.after ?_)
  refine (State.dropMigration_within _ _ _).keeps.after ((State.dropBankWaits_keeps _ _ _).after ?_)
  exact (Keeps.each _ _ _ fun s c => s.haltChan_keeps _ _ _).after (Keeps.modBank s t b _)

theorem State.loseContext_keeps (s : State) (cid : Cid) (ctx : Ctx) (at_ : Option (Nat × Nat)) (seq : Nat) :
    Keeps s (s.loseContext cid ctx at_ seq) := by
  unfold State.loseContext
  cases s.resOf cid ctx with
  | none => exact .refl s
  | some r =>
    refine Keeps.ite (fun _ => .refl s) fun _ => ?_
    have hlost := ((s.modRes_within r fun x => { x with lost := true, stalled := false, held := none }).keeps :
      Keeps s _)
    have hend : ∀ (f : Nat × QCmd → Nat) (v : State) l, Keeps v (v.each l fun s c =>
        if c.2.st = .freeing then s else s.complete c.1 c.2.index 2 (f c) true) := fun f v l =>
      Keeps.each _ _ _ fun s c => Keeps.ite (fun _ => .refl s) fun _ => s.complete_keeps _ _ _ _ _
    cases at_ with
    | none => exact (hend _ _ _).after ((Keeps.each _ _ _ fun s x => s.purgeBank_keeps _ _).after hlost)
    | some x =>
      refine (State.dropMigration_within _ _ _).keeps.after ((State.dropBankWaits_keeps _ _ _).after ?_)
      exact (hend _ _ _).after ((Keeps.each _ _ _ fun s x => s.purgeBank_keeps _ _).after hlost)

theorem State.ctxFault_keeps (s : State) (cid : Cid) (ctx : Ctx) (kind code : Nat) (body : Bytes) (at_ : Option (Nat × Nat)) :
    Keeps s (s.ctxFault cid ctx kind code body at_) := by
  unfold State.ctxFault
  cases s.resOf cid ctx with
  | none => exact .refl s
  | some r =>
    cases s.slotOf cid with
    | none => exact .refl s
    | some slot =>
      refine Keeps.ite (fun _ => .refl s) fun _ => Keeps.ite (fun _ => (s.fqDrop_within _).keeps) fun _ => ?_
      dsimp only
      cases s.fqTarget cid slot with
      | none => exact (State.loseContext_keeps _ _ _ _ _).after (s.fqDrop_within _).keeps
      | some hf =>
        refine Keeps.ite (fun _ => ?_) fun _ => ?_
        · exact (State.loseContext_keeps _ _ _ _ _).after (s.fqWrite_within _ _ _ _ _ _ _).keeps
        · exact (State.pulse_within _ _).keeps.after
            ((State.modRes_within _ _ _).keeps.after (s.modQue_within _).keeps)

theorem State.countLost_keeps (s : State) (cid : Cid) : Keeps s (s.countLost cid) := by
  unfold State.countLost
  cases s.slotOf cid with
  | some slot => exact fun _ => rfl
  | none => exact .refl s

theorem State.faultBank_keeps (s : State) (t b code detail : Nat) : Keeps s (s.faultBank t b code detail) := by
  unfold State.faultBank
  refine (State.tileSignal_within _ _).keeps.after ((Keeps.each _ _ _ fun s c => ?_).after (Keeps.modBank s t b _))
  exact (Keeps.modChan _ _ _ _).after (s.haltChan_keeps _ _ _)

theorem State.tileFault_keeps (s : State) (t b code detail : Nat) : Keeps s (s.tileFault t b code detail) := by
  unfold State.tileFault
  refine Keeps.ite (fun _ => .refl s) fun _ => (State.ctxFault_keeps _ _ _ _ _ _ _).after ?_
  exact (Keeps.ite (fun _ => State.countLost_keeps _ _) fun _ => .refl _).after (s.faultBank_keeps _ _ _ _)

/-- A tile's pairing entries stay through a fault (R71, R133). -/
theorem State.pairings_tileFault (s : State) (t b code detail j : Nat) :
    ((s.tileFault t b code detail).tile j).pairings = (s.tile j).pairings :=
  (s.tileFault_keeps t b code detail).pairings j

end Sys2Proof.Machine
end

section
/-! SUPPORT. Link channels: the slots of a send channel (R131, R132, R134 to R136, R138). -/

set_option Elab.async false

namespace Sys2Proof.Machine

/-! ### A slot of a send channel -/

/-- A channel that sends over a neighbour link (R131). -/
def Chan.sends (c : Chan) : Prop := c.link = true ∧ dKind c.d = 1 ∧ (c.st = .active ∨ c.st = .stalled)

/-- A send channel is stalled where it has no credit or no armed beat (R135). -/
theorem Chan.stall_of_sends {c : Chan} (h : c.sends) :
    c.stall = { c with st := if c.credits = 0 ∨ c.armed = 0 then .stalled else .active } := if_pos h

/-- The state in which slot `cyc` of a send channel has been decided (R132). -/
def State.decides (s : State) (t ch cyc : Nat) : State :=
  (s.modChan t ch fun c => { c with decided := some cyc }).modBank t (s.chan t ch).bank.toNat fun k => { k with slotClock := cyc }

section
variable (s : State) (t ch cyc : Nat)

theorem State.chan_decides (j : Nat) :
    (s.decides t ch cyc).chan t j = if j = ch then { s.chan t ch with decided := some cyc } else s.chan t j := by
  rw [State.decides, State.chan_modBank, State.chan_modChan]
  exact if_congr (and_iff_right rfl) rfl rfl

theorem State.bank_decides :
    (s.decides t ch cyc).bank t (s.chan t ch).bank.toNat = { s.bank t (s.chan t ch).bank.toNat with slotClock := cyc } := by
  rw [State.decides, State.bank_modBank, if_pos ⟨rfl, rfl⟩, State.bank_modChan]

/-- Whether a lower channel takes a slot does not depend on what has been decided. -/
theorem State.slotTaken_decides : (s.decides t ch cyc).slotTaken t ch cyc = s.slotTaken t ch cyc := by
  have hj : ∀ j, ∃ x, (s.decides t ch cyc).chan t j = { s.chan t j with decided := x } := fun j => by
    rw [State.chan_decides]
    split
    · rename_i he
      subst he
      exact ⟨_, rfl⟩
    · exact ⟨_, rfl⟩
  obtain ⟨x, hx⟩ := hj ch
  unfold State.slotTaken
  refine congrArg (List.any (List.range ch)) (funext fun j => ?_)
  obtain ⟨y, hy⟩ := hj j
  rw [hx, hy]

theorem State.decides_sameWays : SameWays s (s.decides t ch cyc) :=
  .of_within (L := [.tiles]) ((s.modChan_within t ch _).trans (State.modBank_within _ _ _ _)) fun j => by
    rw [State.decides, State.tile_modBank]
    split
    · rename_i hj
      subst hj
      rw [State.tile_modChan, if_pos rfl]
      rfl
    · rw [State.tile_modChan, if_neg (by assumption)]

end

/-- The next slot of a send channel: the first of its descriptor from its bank's slot clock on that is not decided (R132). -/
def State.nextSlot (s : State) (t ch : Nat) : Nat :=
  let c := s.chan t ch
  slotFrom c.d (dPeriod c.d) (max (dOffset c.d) (max (s.bank t c.bank.toNat).slotClock (match c.decided with
    | some x => x + 1
    | none => 0)))

/-- What a live send channel does in its next slot. -/
theorem State.slotRun_live {s : State} {t ch : Nat} (hs : (s.chan t ch).sends) (hstop : (s.chan t ch).stopping = false)
    (hrun : (s.tile t).run = (s.chan t ch).bank.toNat) (hon : s.coreOn t (s.chan t ch).bank.toNat = true) :
    let c := s.chan t ch
    let b := c.bank.toNat
    let cyc := s.nextSlot t ch
    let v := s.decides t ch cyc
    s.slotRun t ch = if s.slotTaken t ch cyc then v.modChan t ch fun c => { c with collisions := satInc c.collisions }
      else if c.credits = 0 ∨ c.armed = 0 then v.modChan t ch fun c => { c with emptySlots := satInc c.emptySlots }
      else
        let off := c.ring + c.beats * 128 % dRing c.d
        let r1 := v.sramRead t off .clean
        let r2 := r1.2.2.sramRead t (off + 64) .clean
        if !v.ringChecks t b off .rd then v.tileFault t b 6 0
        else if r1.1 ≠ 0 then r1.2.2.tileFault t b 5 (off / 64 % 32)
        else if r2.1 ≠ 0 then r2.2.2.tileFault t b 5 ((off + 64) / 64 % 32)
        else
          let w := ((v.emit (.sideband t (dPort c.d) (.beat (Fin.ofNat 8 (dPeer c.d))
            (BitVec.ofNat 1024 (r1.2.1.toNat + r2.2.1.toNat * 2 ^ 512))))).modChan t ch fun c => { c with
              beats := c.beats + 1, credits := c.credits - 1, armed := c.armed - 1 }.stall).countLines t ch 2
          if c.beats + 1 = dCount c.d then w.finishChan t ch else w := by
  obtain ⟨hlink, hkind, hst⟩ := hs
  intro c b cyc v
  rw [← State.slotTaken_decides]
  unfold State.slotRun
  dsimp only
  rw [if_neg (by simp [hlink, hkind, hst, hstop, hrun, hon])]
  rfl

/-- A link channel reaches an offset where the granule admits its context (R49). -/
theorem State.ringChecks_eq (s : State) (t b off : Nat) (a : Acc) :
    s.ringChecks t b off a = (s.gran t (off / 65536)).admits (s.bank t b).cid (s.bank t b).ctx := by
  simp [State.ringChecks, State.targetCheck, Who.of, Who.lacks]

theorem State.ringChecks_decides (s : State) (t ch cyc off : Nat) (a : Acc) :
    (s.decides t ch cyc).ringChecks t (s.chan t ch).bank.toNat off a = s.ringChecks t (s.chan t ch).bank.toNat off a := by
  rw [State.ringChecks_eq, State.ringChecks_eq, State.bank_decides, (s.decides_sameWays t ch cyc).gran]

/-- Lines that a channel has carried are counted in it and in its bank's PROGRESS (R70, R132). -/
theorem State.chan_countLines (s : State) (t ch n : Nat) :
    (s.countLines t ch n).chan t ch = { s.chan t ch with lines := (s.chan t ch).lines + BitVec.ofNat 24 n } := by
  rw [State.countLines, State.chan_modBank, State.chan_modChan, if_pos ⟨rfl, rfl⟩]

theorem State.bank_countLines (s : State) (t ch n : Nat) :
    (s.countLines t ch n).bank t (s.chan t ch).bank.toNat =
      { s.bank t (s.chan t ch).bank.toNat with
        progress := (s.bank t (s.chan t ch).bank.toNat).progress + BitVec.ofNat 32 n } := by
  rw [State.countLines, State.bank_modBank, if_pos ⟨rfl, rfl⟩, State.bank_modChan]

theorem Chan.bank_stall (c : Chan) : c.stall.bank = c.bank := by
  unfold Chan.stall
  split <;> rfl

/-- A channel that has sent a beat, for one credit and one armed beat (R134). -/
def Chan.sent (c : Chan) : Chan := { c with beats := c.beats + 1, credits := c.credits - 1, armed := c.armed - 1 }

/-- The state after a send channel has sent the two lines of a beat (R134, R138). -/
def State.sendsBeat (s : State) (t ch : Nat) (data : BitVec 1024) : State :=
  let c := s.chan t ch
  ((s.emit (.sideband t (dPort c.d) (.beat (Fin.ofNat 8 (dPeer c.d)) data))).modChan t ch fun c => c.sent.stall).countLines t ch 2

theorem State.chan_sendsBeat {s : State} {t ch : Nat} (hs : (s.chan t ch).sends) (data : BitVec 1024) :
    (s.sendsBeat t ch data).chan t ch = { (s.chan t ch).sent with
      st := if (s.chan t ch).credits - 1 = 0 ∨ (s.chan t ch).armed - 1 = 0 then .stalled else .active,
      lines := (s.chan t ch).lines + 2 } := by
  rw [State.sendsBeat, State.chan_countLines, State.chan_modChan, if_pos ⟨rfl, rfl⟩]
  change { (s.chan t ch).sent.stall with lines := (s.chan t ch).sent.stall.lines + 2 } = _
  rw [Chan.stall_of_sends (c := (s.chan t ch).sent) hs]
  rfl

theorem State.out_sendsBeat (s : State) (t ch : Nat) (data : BitVec 1024) :
    (s.sendsBeat t ch data).out = s.out ++
      [.sideband t (dPort (s.chan t ch).d) (.beat (Fin.ofNat 8 (dPeer (s.chan t ch).d)) data)] := rfl

theorem State.progress_sendsBeat (s : State) (t ch : Nat) (data : BitVec 1024) :
    ((s.sendsBeat t ch data).bank t (s.chan t ch).bank.toNat).progress = (s.bank t (s.chan t ch).bank.toNat).progress + 2 := by
  have h := State.bank_countLines ((s.emit (.sideband t (dPort (s.chan t ch).d)
    (.beat (Fin.ofNat 8 (dPeer (s.chan t ch).d)) data))).modChan t ch fun c => c.sent.stall) t ch 2
  rw [State.bank_modChan, State.chan_modChan, if_pos ⟨rfl, rfl⟩, Chan.bank_stall] at h
  exact congrArg Bank.progress h

theorem linkSlotsSend : Stated.LinkSlotsSend := by
  intro t ch s c b cyc' hlink hst hstop hkind hrun hon
  have hcyc : cyc' = s.nextSlot t.val ch.val := rfl
  clear_value cyc'
  subst hcyc
  have hrun' := State.slotRun_live (s := s) (t := t.val) (ch := ch.val) ⟨hlink, hkind, hst⟩ hstop hrun hon
  set cyc := s.nextSlot t.val ch.val
  have hchan : (s.decides t.val ch.val cyc).chan t.val ch.val = { c with decided := some cyc } := by
    rw [State.chan_decides, if_pos rfl]
  have hbank := s.bank_decides t.val ch.val cyc
  refine ⟨fun htaken => ?_, fun htaken h0 => ?_, fun htaken hcr harm hlast => ?_⟩
  · refine ⟨_, congrArg Host.Outcome.next (hrun'.trans (if_pos htaken)), ?_, ?_, rfl⟩
    · rw [State.chan_modChan, if_pos ⟨rfl, rfl⟩, hchan]
    · rw [State.bank_modChan, hbank]
  · refine ⟨_, congrArg Host.Outcome.next (hrun'.trans ((if_neg (ne_true_of_eq_false htaken)).trans (if_pos h0))), ?_, ?_, rfl⟩
    · rw [State.chan_modChan, if_pos ⟨rfl, rfl⟩, hchan]
    · rw [State.bank_modChan, hbank]
  · intro off hring hclean
    have hW := s.decides_sameWays t.val ch.val cyc
    have h1 := hW.clean (t := t.val) (off := off) (hclean _ (.inl rfl))
    have h2 := hW.clean (t := t.val) (off := off + 64) (hclean _ (.inr rfl))
    have hu : s.slotRun t.val ch.val = (s.decides t.val ch.val cyc).sendsBeat t.val ch.val
        (BitVec.ofNat 1024 ((s.line (sramKey t.val (off / 64 * 64))).toNat +
          (s.line (sramKey t.val ((off + 64) / 64 * 64))).toNat * 2 ^ 512)) := by
      rw [hrun', if_neg (ne_true_of_eq_false htaken), if_neg (by simp [c, hcr, harm])]
      dsimp only
      rw [State.sramRead_of_clean h1]
      dsimp only
      rw [State.sramRead_of_clean h2, State.ringChecks_decides, hring]
      dsimp only
      rw [if_neg (by simp), if_neg (by simp), if_neg (by simp), if_neg hlast, State.sendsBeat, hchan]
      rfl
    have hsends : ((s.decides t.val ch.val cyc).chan t.val ch.val).sends := by
      rw [hchan]
      exact ⟨hlink, hkind, hst⟩
    generalize BitVec.ofNat 1024 _ = data at hu ⊢
    have hmsg := State.out_sendsBeat (s.decides t.val ch.val cyc) t.val ch.val data
    have hprog := State.progress_sendsBeat (s.decides t.val ch.val cyc) t.val ch.val data
    rw [hchan] at hmsg hprog
    have hkept : ((s.decides t.val ch.val cyc).bank t.val b).progress = (s.bank t.val b).progress :=
      (congrArg Bank.progress hbank :)
    have hst' : (if c.credits - 1 = 0 ∨ c.armed - 1 = 0 then ChanSt.stalled else .active) =
        if c.credits = 1 ∨ c.armed = 1 then .stalled else .active := if_congr (by omega) rfl rfl
    refine ⟨_, congrArg Host.Outcome.next hu, hmsg, rfl, ?_, hprog.trans ?_⟩
    · rw [State.chan_sendsBeat hsends, hchan, ← hst']
      rfl
    · exact congrArg (fun p : Word => p + 2) hkept

end Sys2Proof.Machine
end

section
/-! SUPPORT. What arrives for link channels: beats, pairing words and returned credits (R131, R133, R134, R137). -/

set_option Elab.async false

namespace Sys2Proof.Machine

/-! ### Beats -/

/-- A whole line that is written has its bytes, and no other byte of memory changes. -/
theorem State.storeLine_onlyStored {s : State} (hc : MemoryCanonical s) (t off : Nat) (l : Line) :
    onlyStored s (s.storeLine (sramKey t off) l) t off 64 (Line.byte l) := by
  have hkey : ∀ i, sramKey t (off + i) = sramKey t off + i := fun i => by simp only [sramKey]; omega
  refine ⟨fun i hi => ?_, fun a ha => ?_⟩
  · rw [State.byte_storeLine hc, if_pos (by rw [hkey]; omega), hkey, Nat.add_sub_cancel_left]
  · rw [State.byte_storeLine hc, if_neg fun h => ha (a - sramKey t off) (by omega) (by rw [hkey]; omega)]

/-- The memory after a whole line has been written. -/
theorem State.mem_sramWrite_full (s : State) (t : Nat) {off : Nat} (h0 : off % 64 = 0) (l : Line) :
    (s.sramWrite t off l (BitVec.allOnes 64) .clean).2.mem = (s.storeLine (sramKey t off) l).mem := by
  rw [State.sramWrite, if_pos rfl, Nat.div_mul_cancel (Nat.dvd_of_mod_eq_zero h0)]
  rfl

/-- The state after a beat's two lines have been stored (R134). -/
def State.storesBeat (s : State) (t off : Nat) (data : BitVec 1024) : State :=
  ((s.sramWrite t off (data.extractLsb' 0 512) (BitVec.allOnes 64) .clean).2.sramWrite t (off + 64)
    (data.extractLsb' 512 512) (BitVec.allOnes 64) .clean).2

/-- A byte of a beat's line is the beat's byte there. -/
theorem byte_of_beat (data : BitVec 1024) (o : Nat) {i : Nat} (hi : i < 64) :
    Line.byte (data.extractLsb' (8 * o) 512) i = data.extractLsb' (8 * (o + i)) 8 := by
  refine BitVec.eq_of_getLsbD_eq fun j hj => ?_
  rw [Line.getLsbD_byte, BitVec.getLsbD_extractLsb', BitVec.getLsbD_extractLsb', decide_eq_true hj,
    decide_eq_true (show 8 * i + j < 512 by omega), Bool.true_and, Bool.true_and, Bool.true_and]
  congr 1
  omega

theorem onlyStored_congr {s u : State} {t off n : Nat} {v w : Nat → Byte} (h : onlyStored s u t off n v)
    (hv : ∀ i < n, v i = w i) : onlyStored s u t off n w :=
  ⟨fun i hi => (h.1 i hi).trans (hv i hi), h.2⟩

theorem State.storesBeat_onlyStored {s : State} (hc : MemoryCanonical s) (t : Nat) {off : Nat} (h0 : off % 64 = 0)
    (data : BitVec 1024) : onlyStored s (s.storesBeat t off data) t off 128 fun i => data.extractLsb' (8 * i) 8 := by
  set u := (s.sramWrite t off (data.extractLsb' 0 512) (BitVec.allOnes 64) .clean).2 with hu
  have hmem : u.mem = _ := s.mem_sramWrite_full t h0 (data.extractLsb' 0 512)
  have hcu : MemoryCanonical u := by
    have h := State.storeLine_canonical hc (sramKey t off) (data.extractLsb' 0 512)
    unfold MemoryCanonical at h ⊢
    rwa [hmem]
  have h1 := onlyStored_of_mem (s := s) rfl hmem (State.storeLine_onlyStored hc t off (data.extractLsb' 0 512))
  have h2 := onlyStored_of_mem (s := u) rfl (u.mem_sramWrite_full t (off := off + 64) (by omega) (data.extractLsb' 512 512))
    (State.storeLine_onlyStored hcu t (off + 64) (data.extractLsb' 512 512))
  exact onlyStored_append (onlyStored_congr h1 fun i hi => (byte_of_beat data 0 hi).trans (by rw [Nat.zero_add]))
    (onlyStored_congr h2 fun i hi => byte_of_beat data 64 hi)

/-- Stored lines leave a tile's channels alone. -/
theorem State.chan_storesBeat (s : State) (t off : Nat) (data : BitVec 1024) (j : Nat) :
    (s.storesBeat t off data).chan t j = s.chan t j := by
  have h : ((s.storesBeat t off data).tile t).chans = (s.tile t).chans :=
    (((State.sramWrite_calm _ _ _ _ _ _).after (s.sramWrite_calm _ _ _ _ _)).tile t).chans
  rw [State.chan, Tile.chan, h]
  rfl

/-- A beat's count changes no byte of memory. -/
theorem State.mem_countsBeat (s : State) (t ch n : Nat) (f : Chan → Chan) : ((s.modChan t ch f).countLines t ch n).mem = s.mem := rfl

/-- A live channel that receives from a port (R131). -/
def Chan.receives (c : Chan) (port : Nat) : Prop :=
  c.link = true ∧ (c.st = .active ∨ c.st = .stalled) ∧ c.stopping = false ∧ dKind c.d = 2 ∧ dPort c.d = port

/-- What a beat for a channel that receives it does, where its ring is reached and the beat is not its last. -/
theorem State.beatRun_stores {s : State} {t port ch : Nat} (data : BitVec 1024) (h : (s.chan t ch).receives port) :
    let c := s.chan t ch
    let off := c.ring + c.beats * 128 % dRing c.d
    c.beats + 1 ≠ dCount c.d → s.ringChecks t c.bank.toNat off .wr = true →
      s.beatRun t port ch data =
        ((s.storesBeat t off data).modChan t ch fun c => { c with beats := c.beats + 1 }).countLines t ch 2 := by
  obtain ⟨hlink, hst, hstop, hkind, hport⟩ := h
  intro c off hlast hring
  unfold State.beatRun
  dsimp only
  rw [hring, if_neg (by simp [hlink, hst, hstop, hkind, hport]), if_neg (by simp), if_neg hlast]
  rfl

theorem State.beatRun_discards {s : State} {t port ch : Nat} (data : BitVec 1024) (h : ¬ (s.chan t ch).receives port) :
    s.beatRun t port ch data = { s with mesh := { s.mesh with discardedBeats := s.mesh.discardedBeats + 1 } } := by
  refine if_pos ?_
  rw [Bool.not_eq_true', Bool.eq_false_iff]
  exact fun hl => h (by simpa [Chan.receives, and_assoc] using hl)

/-! ### Pairing words -/

/-- A send channel that a pairing word for channel `d` on a port is for (R133). -/
def State.pairSends (s : State) (t port d ch : Nat) : Prop :=
  let c := s.chan t ch
  c.link = true ∧ (c.st = .active ∨ c.st = .stalled) ∧ dKind c.d = 1 ∧ dPort c.d = port ∧ dPeer c.d = d

/-- The state with the pairing entry of channel `d` of a port (R133). -/
def State.paired (s : State) (t key : Nat) (e : Pairing) : State :=
  s.modTile t fun x => { x with pairings := Tab.insert x.pairings key e }

theorem State.tile_paired (s : State) (t key : Nat) (e : Pairing) :
    (s.paired t key e).tile t = { s.tile t with pairings := Tab.insert (s.tile t).pairings key e } := by
  rw [State.paired, State.tile_modTile, if_pos rfl]

theorem State.chan_paired (s : State) (t key : Nat) (e : Pairing) (j : Nat) : (s.paired t key e).chan t j = s.chan t j := by
  rw [State.chan, State.tile_paired]
  rfl

theorem State.bank_paired (s : State) (t key : Nat) (e : Pairing) (b : Nat) : (s.paired t key e).bank t b = s.bank t b := by
  rw [State.bank, State.tile_paired]
  rfl

/-- The test by which a pairing word finds its send channel. -/
def State.pairPicks (s : State) (t port d ch : Nat) : Bool :=
  let c := s.chan t ch
  c.link && decide (c.st = .active ∨ c.st = .stalled) && decide (dKind c.d = 1) && decide (dPort c.d = port) &&
    decide (dPeer c.d = d)

theorem State.pairPicks_iff (s : State) (t port d ch : Nat) : s.pairPicks t port d ch = true ↔ s.pairSends t port d ch := by
  simp [State.pairPicks, State.pairSends, and_assoc]

/-- A pairing word sets the port's entry and goes to the first channel that its test finds. -/
theorem State.pairRun_eq (s : State) (t port d : Nat) (cid : Cid) (ctx : Ctx) (n : Nat) {o : Option Nat}
    (ho : (List.range 8).find? (s.pairPicks t port d) = o) : s.pairRun t port d cid ctx n =
      let v := s.paired t (port * 8 + d) ⟨cid, ctx, if o.isSome then 0 else n⟩
      match (generalizing := false) o with
      | none => v
      | some ch =>
        let b := (v.chan t ch).bank.toNat
        if (v.bank t b).cid = cid ∧ (v.bank t b).ctx = ctx then v.modChan t ch fun c => { c with credits := c.credits + n }.stall
        else v.tileFault t b 6 4 := by
  subst ho
  rfl

/-- A pairing word that no send channel is for keeps its credits in the port's entry. -/
theorem State.pairRun_none {s : State} {t port d : Nat} (h : ∀ ch < 8, ¬ s.pairSends t port d ch) (cid : Cid) (ctx : Ctx)
    (n : Nat) : s.pairRun t port d cid ctx n = s.paired t (port * 8 + d) ⟨cid, ctx, n⟩ := by
  refine State.pairRun_eq s t port d cid ctx n (o := none) (List.find?_eq_none.mpr fun ch hch => ?_)
  exact mt (s.pairPicks_iff t port d ch).mp (h ch (List.mem_range.mp hch))

/-- A pairing word for a send channel gives it the credits, or faults its bank where the context differs. -/
theorem State.pairRun_some {s : State} {t port d ch : Nat} (h8 : ch < 8) (h : s.pairSends t port d ch)
    (hlow : ∀ j < ch, ¬ s.pairSends t port d j) (cid : Cid) (ctx : Ctx) (n : Nat) :
    let b := (s.chan t ch).bank.toNat
    let k := s.bank t b
    let v := s.paired t (port * 8 + d) ⟨cid, ctx, 0⟩
    s.pairRun t port d cid ctx n = if k.cid = cid ∧ k.ctx = ctx then v.modChan t ch fun c => { c with credits := c.credits + n }.stall
      else v.tileFault t b 6 4 := by
  intro b k v
  have hf : (List.range 8).find? (s.pairPicks t port d) = some ch := by
    refine List.find?_range_eq_some.mpr ⟨(s.pairPicks_iff t port d ch).mpr h, List.mem_range.mpr h8, fun j hj => ?_⟩
    rw [Bool.not_eq_true', Bool.eq_false_iff]
    exact mt (s.pairPicks_iff t port d j).mp (hlow j hj)
  have hc : v.chan t ch = s.chan t ch := s.chan_paired ..
  have hk : v.bank t b = k := s.bank_paired ..
  rw [State.pairRun_eq s t port d cid ctx n hf]
  change (if (v.bank t (v.chan t ch).bank.toNat).cid = cid ∧ (v.bank t (v.chan t ch).bank.toNat).ctx = ctx then _
    else v.tileFault t (v.chan t ch).bank.toNat 6 4) = _
  rw [hc, hk]
  rfl

theorem linkBeatsAndCredits : Stated.LinkBeatsAndCredits := by
  refine ⟨fun t port ch data s hc => ⟨fun hl h0 hlast hring => ?_, fun hl => ?_⟩,
    fun t port d cid ctx n s => ⟨fun h => ?_, fun ch h8 h hlow => ?_⟩, fun t ch n s hlink hkind hst => ?_⟩
  case refine_1 =>
    refine ⟨_, congrArg Host.Outcome.next (State.beatRun_stores data hl hlast hring), ?_, ?_⟩
    · exact onlyStored_of_mem rfl (State.mem_countsBeat ..) (State.storesBeat_onlyStored hc t.val h0 data)
    · rw [State.chan_countLines, State.chan_modChan, if_pos ⟨rfl, rfl⟩, State.chan_storesBeat]
      rfl
  case refine_2 => exact congrArg Host.Outcome.next (State.beatRun_discards data hl)
  case refine_3 => exact ⟨_, congrArg Host.Outcome.next (State.pairRun_none h cid ctx n), State.tile_paired ..⟩
  case refine_4 =>
    intro c k
    have hrun := State.pairRun_some h8 h hlow cid ctx n
    set v := s.paired t.val (port.val * 8 + d.val) ⟨cid, ctx, 0⟩
    have hpair : Tab.find (v.tile t.val).pairings (port.val * 8 + d.val) = some ⟨cid, ctx, 0⟩ := by
      rw [State.tile_paired]
      exact Tab.find_insert_same ..
    have hc : v.chan t.val ch = c := s.chan_paired ..
    have hk : v.bank t.val c.bank.toNat = k := s.bank_paired ..
    refine ⟨_, congrArg Host.Outcome.next hrun, ?_, fun hctx => ?_, fun hctx hst => ?_⟩
    · split
      · rw [← hpair, State.tile_modChan, if_pos rfl]
        rfl
      · rw [State.pairings_tileFault, hpair]
    · obtain ⟨hlink, hs, hkind, -⟩ := h
      rw [if_pos hctx, State.chan_modChan, if_pos ⟨rfl, rfl⟩, hc,
        Chan.stall_of_sends (c := { c with credits := c.credits + n }) ⟨hlink, hkind, hs⟩]
    · rw [if_neg hctx, State.bank_tileFault (by rw [hk, hst]; decide)]
      rfl
  case refine_5 =>
    refine ⟨_, if_pos ⟨hlink, hkind, hst⟩, ?_⟩
    dsimp only
    rw [State.chan_modChan, if_pos ⟨rfl, rfl⟩,
      Chan.stall_of_sends (c := { s.chan t.val ch.val with credits := (s.chan t.val ch.val).credits + n.val + 1 }) ⟨hlink, hkind, hst⟩]
    simp

/-- Settles O25: the slots of a send channel case by case, and what arrives for a channel. -/
theorem linkChannels : Obligations.LinkChannels := ⟨linkSlotsSend, linkBeatsAndCredits⟩

end Sys2Proof.Machine
end

section
/-! SUPPORT. Upkeep of the bonded SRAM (R153, R154, R158, R161, R177): what a clear, a scrub and the writes of SRM_CLEAR and
SRM_UE leave in a tile's SRAM. -/

set_option Elab.async false

namespace Sys2Proof.Machine

/-! ### Tables of optional entries -/

theorem Tab.find_insert_other {α : Type} (t : Tab α) {k j : Nat} (v : α) (h : j ≠ k) :
    Tab.find (Tab.insert t k v) j = Tab.find t j := by
  induction t with
  | nil => simp [Tab.insert, Tab.find, h.symm]
  | cons e t ih =>
    obtain ⟨i, w⟩ := e
    simp only [Tab.insert]
    split
    · simp [Tab.find, h.symm]
    split
    · rename_i hi
      simp [Tab.find, h.symm, ← hi]
    · simp only [Tab.find, ih]

theorem Tab.find_erase_other {α : Type} (t : Tab α) {k j : Nat} (h : j ≠ k) : Tab.find (Tab.erase t k) j = Tab.find t j := by
  induction t with
  | nil => rfl
  | cons e t ih =>
    obtain ⟨i, w⟩ := e
    simp only [Tab.erase]
    split
    · rename_i hi
      simp [Tab.find, hi, h.symm]
    split
    · rfl
    · simp only [Tab.find, ih]

/-- No entry is found at a key that none has. -/
theorem Tab.find_eq_none {α : Type} {t : Tab α} {k : Nat} (h : ∀ e ∈ t, e.1 ≠ k) : Tab.find t k = none := by
  induction t with
  | nil => rfl
  | cons e t ih =>
    obtain ⟨j, v⟩ := e
    rw [Tab.find, if_neg (h _ List.mem_cons_self)]
    exact ih fun e he => h e (List.mem_cons_of_mem _ he)

/-- Keys that rise strictly: the first lies below the rest. -/
theorem rising_cons {α : Type} {e : Nat × α} {t : Tab α} : rising (e :: t) ↔ (∀ f ∈ t, e.1 < f.1) ∧ rising t := by
  simp [rising]

/-- Of a table whose keys rise, erasing a key leaves no entry at it. -/
theorem Tab.key_ne_of_mem_erase {α : Type} {t : Tab α} (h : rising t) (k : Nat) : ∀ e ∈ Tab.erase t k, e.1 ≠ k := by
  induction t with
  | nil => exact fun e he => absurd he List.not_mem_nil
  | cons f t ih =>
    obtain ⟨hlt, ht⟩ := rising_cons.mp h
    intro e he
    simp only [Tab.erase] at he
    split at he
    · rename_i hk
      exact (hk ▸ hlt e he).ne'
    rename_i hk
    split at he
    · rename_i hkf
      cases List.mem_cons.mp he with
      | inl h => exact h ▸ hk
      | inr h => exact (hkf.trans (hlt e h)).ne'
    · cases List.mem_cons.mp he with
      | inl h => exact h ▸ hk
      | inr h => exact ih ht e h

theorem Tab.find_erase_same {α : Type} {t : Tab α} (h : rising t) (k : Nat) : Tab.find (Tab.erase t k) k = none :=
  Tab.find_eq_none (Tab.key_ne_of_mem_erase h k)

/-! ### The memory after a clear -/

/-- A byte of memory after a clear. -/
theorem State.byte_clearMem (s : State) (a n k : Nat) :
    (s.clearMem a n).byte k = if a ≤ k ∧ k < a + n then 0 else s.byte k := Memory.read_clear ..

/-! ### A tile's SRAM -/

/-- One change of a tile's SRAM after another. -/
theorem State.srm_modSrm (s : State) (t : Nat) (f : Srm → Srm) : ((s.modSrm t f).tile t).srm = f (s.tile t).srm := by
  rw [State.tile_modSrm, if_pos rfl]

theorem State.gran_modSrm (s : State) (t : Nat) {f : Srm → Srm} (hf : ∀ x, (f x).sh = x.sh) (j g : Nat) :
    (s.modSrm t f).gran j g = s.gran j g := by
  unfold State.gran
  rw [State.tile_modSrm]
  split
  · rename_i h
    rw [h, hf]
  · rfl

/-- The clear of granules leaves their bytes zero and their lines without marks (R155, R158). -/
theorem State.clearGranules_spec (s : State) (t base n : Nat) :
    (∀ k, (s.clearGranules t base n).byte k =
      if sramKey t (base * 65536) ≤ k ∧ k < sramKey t (base * 65536) + n * 65536 then 0 else s.byte k) ∧
    ∀ k, base * 1024 ≤ k → k < (base + n) * 1024 →
      Tab.find ((s.clearGranules t base n).tile t).srm.poison k = none ∧
      Tab.find ((s.clearGranules t base n).tile t).srm.rewrite k = none ∧
      Tab.find ((s.clearGranules t base n).tile t).srm.staleIcv k = none := by
  have hout : ∀ {α : Type} (x : Tab α) k, base * 1024 ≤ k → k < (base + n) * 1024 →
      Tab.find (x.filter fun e => !decide (base * 1024 ≤ e.1 ∧ e.1 < (base + n) * 1024)) k = none := fun x k hb hn =>
    Tab.find_eq_none fun e he hk => by
      have := (List.mem_filter.mp he).2
      simp [hk, hb, hn] at this
  refine ⟨fun k => s.byte_clearMem _ _ k, fun k hb hn => ?_⟩
  unfold State.clearGranules
  dsimp only
  rw [State.srm_modSrm]
  exact ⟨hout _ k hb hn, hout _ k hb hn, hout _ k hb hn⟩

/-- The place and the count of a tile's scrub (R177). -/
def Srm.scrubAt (x : Srm) : BitVec 14 × BitVec 16 := (x.pos, x.passes)

theorem State.scrubAt_modSrm (s : State) (t : Nat) {f : Srm → Srm} (hf : ∀ x, (f x).scrubAt = x.scrubAt) (j : Nat) :
    ((s.modSrm t f).tile j).srm.scrubAt = (s.tile j).srm.scrubAt := by
  rw [State.tile_modSrm]
  split
  · rename_i h
    exact h ▸ hf _
  · rfl

theorem Srm.recordUe_scrubAt (x : Srm) (icv : Bool) (off : Nat) : (x.recordUe icv off).scrubAt = x.scrubAt := by
  unfold Srm.recordUe
  split <;> rfl

theorem State.sramPoison_scrubAt (s : State) (t off : Nat) (icv : Bool) (j : Nat) :
    ((s.sramPoison t off icv).tile j).srm.scrubAt = (s.tile j).srm.scrubAt := by
  unfold State.sramPoison
  dsimp only
  refine State.scrubAt_modSrm (s.clearMem _ _) t (fun x => ?_) j
  exact Srm.recordUe_scrubAt _ icv off

/-- The check of a line leaves the place and the count of the scrub. -/
theorem State.sramCheck_scrubAt (s : State) (t off : Nat) (ecc : Ecc) (j : Nat) :
    ((s.sramCheck t off ecc).2.tile j).srm.scrubAt = (s.tile j).srm.scrubAt := by
  unfold State.sramCheck
  split
  · rfl
  cases ecc.corrections with
  | none =>
    dsimp only
    split_ifs
    · exact s.sramPoison_scrubAt t off false j
    · exact s.sramPoison_scrubAt t off true j
    · rfl
  | some n =>
    have h := s.scrubAt_modSrm t (f := fun x =>
      { x with ce := satAdd x.ce n, rewrite := Tab.insert x.rewrite (off / 64) true }) (fun _ => rfl) j
    dsimp only
    split_ifs
    · exact (State.sramPoison_scrubAt _ t off false j).trans h
    · exact (State.sramPoison_scrubAt _ t off true j).trans h
    · exact h

/-- The check of a line that holds no mark and reads with corrected codewords counts them and notes the line (R153). -/
theorem State.sramCheck_of_corrected {s : State} {t off : Nat} (h : s.clean t off) (n : Nat) :
    (s.sramCheck t off (.corrected n)).2 =
      s.modSrm t fun x => { x with ce := satAdd x.ce n, rewrite := Tab.insert x.rewrite (off / 64) true } := by
  obtain ⟨hp, hi⟩ := h
  simp [State.sramCheck, Srm.poisoned, hp, hi, Ecc.corrections, Ecc.icvFails]

/-! ### The statement -/

section
variable (t : TileIx) (s : State)

/-- R153: the rewrite of a corrected line takes its mark away. -/
theorem rewriteEndsMark (line : Fin 393216) (h : rising (s.tile t.val).srm.rewrite) :
    Does (.sramCorrectedRewrite t line) s fun u =>
      Tab.find (u.tile t.val).srm.rewrite line.val = none ∧ u.mem = s.mem ∧
      ∀ k, k ≠ line.val → Tab.find (u.tile t.val).srm.rewrite k = Tab.find (s.tile t.val).srm.rewrite k := by
  refine ⟨_, rfl, ?_⟩
  dsimp only
  rw [State.srm_modSrm]
  exact ⟨Tab.find_erase_same h _, rfl, fun k hk => Tab.find_erase_other _ hk⟩

/-- The fields of a write of SRM_CLEAR (R158). -/
theorem clearWord_fields {v : Word} {base n : Nat} (hv : v.toNat = base + n * 512 + 1073741824) (hb : base < 512) (hn : n < 512) :
    fldN v 0 9 = base ∧ fldN v 9 9 = n ∧ fldN v 18 12 = 0 ∧ bit v 30 = true := by
  simp only [fldN, bit, getLsbD_eq_decide, BitVec.extractLsb'_toNat, Nat.shiftRight_eq_div_pow, hv]
  refine ⟨by omega, by omega, by omega, decide_eq_true (by omega)⟩

theorem fld_eq_ofNat_fldN {n : Nat} (v : BitVec n) (lo w : Nat) : fld v lo w = BitVec.ofNat w (fldN v lo w) :=
  (BitVec.ofNat_toNat ..).symm ▸ (BitVec.setWidth_eq _).symm

/-- Why a clear of granules of a tile is refused (R158). -/
def State.clearBad (s : State) (t base n : Nat) : Bool :=
  decide (n = 0) || decide (384 < base + n) || (s.tile t).srm.clearBusy || (s.tile t).shiftBusy ||
    (List.range n).any fun i => (s.gran t (base + i)).valid

theorem State.clearBad_iff (s : State) (t base n : Nat) : s.clearBad t base n = true ↔
    n = 0 ∨ 384 < base + n ∨ (s.tile t).srm.clearBusy = true ∨ (s.tile t).shiftBusy = true ∨
      ∃ i < n, (s.gran t (base + i)).valid = true := by
  simp [State.clearBad, or_assoc]

/-- What a write of SRM_CLEAR with GO and no reserved bit leaves in the tile's SRAM (R158). -/
def Srm.clearSet (x : Srm) (base n : Nat) (bad : Bool) : Srm :=
  let y := { x with clearCount := BitVec.ofNat 9 n, clearBase := BitVec.ofNat 9 base }
  if bad then { y with err := y.err.refuse } else { y with clearBusy := true, clearRun := (base, n) }

theorem State.srm_sramClear {v : Word} {base n : Nat} (hv : v.toNat = base + n * 512 + 1073741824) (hb : base < 512)
    (hn : n < 512) (t : Nat) : ((s.sramClear t v).tile t).srm = (s.tile t).srm.clearSet base n (s.clearBad t base n) := by
  obtain ⟨hbase, hcount, hrsvd, hgo⟩ := clearWord_fields hv hb hn
  have hgran := fun g => s.gran_modSrm t
    (f := fun x => { x with clearCount := BitVec.ofNat 9 n, clearBase := BitVec.ofNat 9 base }) (fun _ => rfl) t g
  have hshift : ((s.modSrm t fun x => { x with clearCount := BitVec.ofNat 9 n, clearBase := BitVec.ofNat 9 base }).tile t).shiftBusy =
      (s.tile t).shiftBusy := by rw [State.tile_modSrm, if_pos rfl]
  simp only [State.sramClear, hrsvd, fld_eq_ofNat_fldN, hbase, hcount, hgo, ne_eq, not_true_eq_false, decide_false,
    State.when_false, Bool.not_true, Bool.false_eq_true, if_false, hgran, hshift, State.srm_modSrm]
  rw [Srm.clearSet, State.clearBad]
  split <;> rw [State.srm_modSrm, State.srm_modSrm]

theorem State.sramClear_mem (t : Nat) (v : Word) : (s.sramClear t v).mem = s.mem :=
  (s.sramClear_within t v).mem_eq (by decide)

/-- R158: a write of SRM_CLEAR starts the clear of granules that no composition owns, and is else refused and counted. -/
theorem clearStarts (base n : Nat) (hb : base < 512) (hn : n < 512) :
    let x := (s.tile t.val).srm
    let bad := n = 0 ∨ 384 < base + n ∨ x.clearBusy = true ∨ (s.tile t.val).shiftBusy = true ∨
      ∃ i < n, (s.gran t.val (base + i)).valid = true
    Does (.sramClear t (BitVec.ofNat 32 (base + n * 2 ^ 9 + 2 ^ 30))) s fun u =>
      let y := (u.tile t.val).srm
      y.clearBase = BitVec.ofNat 9 base ∧ y.clearCount = BitVec.ofNat 9 n ∧ u.mem = s.mem ∧
      (¬ bad → y.clearBusy = true ∧ y.clearRun = (base, n) ∧ y.err = x.err) ∧
      (bad → y.clearBusy = x.clearBusy ∧ y.clearRun = x.clearRun ∧ y.err = { x.err with order := satInc x.err.order }) := by
  intro x bad
  have hv : (BitVec.ofNat 32 (base + n * 2 ^ 9 + 2 ^ 30)).toNat = base + n * 512 + 1073741824 := by
    rw [BitVec.toNat_ofNat]; omega
  generalize BitVec.ofNat 32 (base + n * 2 ^ 9 + 2 ^ 30) = v at hv ⊢
  have hbad : bad ↔ s.clearBad t.val base n = true := (s.clearBad_iff _ _ _).symm
  refine ⟨_, rfl, ?_⟩
  dsimp only
  rw [State.srm_sramClear s hv hb hn, hbad]
  cases s.clearBad t.val base n <;> simp [Srm.clearSet, ErrReg.refuse, State.sramClear_mem, x]

/-- R158: the end of a clear leaves its granules reading zero and sound. -/
theorem clearEnds (h : (s.tile t.val).srm.clearBusy = true) :
    let x := (s.tile t.val).srm
    Does (.sramClearDone t) s fun u =>
      let y := (u.tile t.val).srm
      let a := sramKey t.val (x.clearRun.1 * 65536)
      y.clearBusy = false ∧ (∀ i, a ≤ i → i < a + x.clearRun.2 * 65536 → u.byte i = 0) ∧
      (∀ i, i < a ∨ a + x.clearRun.2 * 65536 ≤ i → u.byte i = s.byte i) ∧
      ∀ k, x.clearRun.1 * 1024 ≤ k → k < (x.clearRun.1 + x.clearRun.2) * 1024 →
        Tab.find y.poison k = none ∧ Tab.find y.rewrite k = none ∧ Tab.find y.staleIcv k = none := by
  intro x
  obtain ⟨hbytes, hmarks⟩ := s.clearGranules_spec t.val x.clearRun.1 x.clearRun.2
  refine ⟨_, if_pos h, ?_⟩
  dsimp only
  rw [State.srm_modSrm]
  refine ⟨rfl, fun i ha hi => (hbytes i).trans (if_pos ⟨ha, hi⟩), fun i hi => (hbytes i).trans (if_neg (by omega)), hmarks⟩

/-- R161: VALID of SRM_UE clears by a one. -/
theorem ueClears (v : Word) (hr : v &&& 0x3FF80000 = 0) (hv : v.getLsbD 31 = true) : Does (.srmUeValidClear t v) s fun u =>
    (u.tile t.val).srm.ue = { (s.tile t.val).srm.ue with valid := false } ∧ u.mem = s.mem ∧
    (u.tile t.val).srm.poison = (s.tile t.val).srm.poison := by
  have hmask : ∀ i < 11, (0x3FF80000 : Word).getLsbD (19 + i) = true := by decide
  have hrsvd : fldN v 19 11 = 0 := congrArg BitVec.toNat ((fld_eq_zero_iff_getLsbD v 19 11).mpr fun i hi => by
    have hb := congrArg (BitVec.getLsbD · (19 + i)) hr
    rw [BitVec.getLsbD_and, hmask i hi, Bool.and_true] at hb
    exact hb.trans BitVec.getLsbD_zero)
  refine ⟨_, rfl, ?_⟩
  simp only [State.srmUeWrite, hrsvd, bit, hv, ne_eq, not_true_eq_false, decide_false, State.when_false, State.when_true]
  rw [State.srm_modSrm]
  exact ⟨rfl, rfl, rfl⟩

/-- The state once the banks that `found` names have read their line. -/
theorem State.scrubAt_found (found : List (Fin 32 × Ecc)) (pos j : Nat) :
    ((s.each found fun s f => (s.sramCheck t.val (pos * 2048 + f.1.val * 64) f.2).2).tile j).srm.scrubAt = (s.tile j).srm.scrubAt :=
  State.each_congr (fun s => (s.tile j).srm.scrubAt) s found _ fun s _ => s.sramCheck_scrubAt _ _ _ j

/-- R177: the scrub moves POS on by one and counts a pass at its end. -/
theorem scrubMoves (found : List (Fin 32 × Ecc)) : Does (.sramScrub t found) s fun u =>
    let x := (s.tile t.val).srm
    let y := (u.tile t.val).srm
    y.pos = (if x.pos = 12287 then 0 else x.pos + 1) ∧
    y.passes = if x.pos = 12287 then x.passes + 1 else x.passes := by
  refine ⟨_, rfl, ?_⟩
  dsimp only
  have hend : (s.tile t.val).srm.pos.toNat + 1 = 12288 ↔ (s.tile t.val).srm.pos = 12287 := by
    rw [← BitVec.toNat_inj]; simp
  obtain ⟨hpos, hpasses⟩ := Prod.mk.inj (State.scrubAt_found t s found (s.tile t.val).srm.pos.toNat t.val)
  rw [State.srm_modSrm]
  simp only [hend]
  split <;> simp [hpos, hpasses]

/-- R177: a corrected line that the scrub reads counts and is marked. -/
theorem scrubMarks (b : Fin 32) (n : Nat) (h : s.clean t.val ((s.tile t.val).srm.pos.toNat * 2048 + b.val * 64)) :
    let x := (s.tile t.val).srm
    Does (.sramScrub t [(b, .corrected n)]) s fun u =>
      (u.tile t.val).srm.ce = satAdd x.ce n ∧
      Tab.find (u.tile t.val).srm.rewrite (x.pos.toNat * 32 + b.val) = some true ∧ u.mem = s.mem := by
  intro x
  refine ⟨_, rfl, ?_⟩
  dsimp only [State.each_cons, State.each_nil]
  rw [State.sramCheck_of_corrected h, State.srm_modSrm, State.srm_modSrm,
    show (x.pos.toNat * 2048 + b.val * 64) / 64 = x.pos.toNat * 32 + b.val by omega]
  split <;> exact ⟨rfl, Tab.find_insert_same _ _ _, rfl⟩
end

/-- R153, R154, R158, R161, R177. -/
theorem bondedSramUpkeep : Stated.BondedSramUpkeep := by
  intro t s
  refine ⟨fun line => rewriteEndsMark t s line, clearStarts t s, fun h _ => clearEnds t s h, fun v hr hv _ => ueClears t s v hr hv,
    scrubMoves t s, fun b n hp hi => scrubMarks t s b n ?_⟩
  rw [State.clean, show ((s.tile t.val).srm.pos.toNat * 2048 + b.val * 64) / 64 = (s.tile t.val).srm.pos.toNat * 32 + b.val by omega]
  exact ⟨hp, hi⟩

end Sys2Proof.Machine
end

section
/-! SUPPORT. Patrol scrub (R170, R177, R544): a line once poisoned stays so while its pair fails and its region is checked. -/

set_option Elab.async false

namespace Sys2Proof.Machine

/-! ### Pairs after a change of other blocks -/

theorem Within.pair_eq {M : List Block} {s u : State} (h : Within M s u) (hM : M.contains .lp = false := by decide) (p : Nat) :
    u.pair p = s.pair p := State.pair_congr (by rw [h.lp_eq hM]) p

theorem State.settleStripe_pairs (s : State) (p line : Nat) : (s.settleStripe p line).lp.pairs = s.lp.pairs := by
  unfold State.settleStripe
  dsimp only
  split <;> rfl

theorem State.zeroShare_pairs (s : State) (p lo hi : Nat) : (s.zeroShare p lo hi).lp.pairs = s.lp.pairs :=
  State.each_congr (fun s => s.lp.pairs) _ _ _ fun s l => by
    dsimp only
    split
    · rw [(State.xorCheck_within _ _ _ _).lp_eq (by decide), State.settleStripe_pairs]
    · exact s.settleStripe_pairs p l

theorem State.regauge_pairs (s : State) (r : GuarRes) : (s.regauge r).lp.pairs = s.lp.pairs :=
  State.each_congr (fun s => s.lp.pairs) _ _ _ fun s g => by
    split
    · exact s.setCurrent_pairs _ _ _ _
    · rfl

/-! ### Poison marks -/

theorem Tab.find_isSome_insert {α : Type} {t : Tab α} (k : Nat) (v : α) {l : Nat} (h : (Tab.find t l).isSome = true) :
    (Tab.find (Tab.insert t k v) l).isSome = true := by
  by_cases hl : l = k
  · rw [hl, Tab.find_insert_same]
    rfl
  · rwa [Tab.find_insert_other t v hl]

/-- Marks that are added leave those that stand. -/
theorem Tab.find_isSome_foldl_insert {α β : Type} (f : β → Nat × α) (l : Nat) (xs : List β) (t : Tab α)
    (h : (Tab.find t l).isSome = true) : (Tab.find (xs.foldl (fun t x => Tab.insert t (f x).1 (f x).2) t) l).isSome = true := by
  induction xs generalizing t with
  | nil => exact h
  | cons x xs ih => exact ih _ (Tab.find_isSome_insert _ _ h)

theorem Tab.find_isSome_of_mem {α : Type} {t : Tab α} {e : Nat × α} (h : e ∈ t) : (Tab.find t e.1).isSome = true := by
  rw [Option.isSome_iff_ne_none]
  induction t with
  | nil => cases h
  | cons f t ih =>
    obtain ⟨j, w⟩ := f
    rw [Tab.find]
    split
    · exact Option.some_ne_none _
    · rename_i hj
      cases List.mem_cons.mp h with
      | inl h => exact absurd (congrArg (·.1) h).symm hj
      | inr h => exact ih h

theorem Tab.mem_of_find_isSome {α : Type} {t : Tab α} {l : Nat} (h : (Tab.find t l).isSome = true) : ∃ v, (l, v) ∈ t := by
  by_contra hc
  have hn : Tab.find t l = none := Tab.find_eq_none fun e he hl => hc ⟨e.2, by rw [← hl]; exact he⟩
  rw [hn] at h
  cases h

/-- A mark among those that are added stands afterwards. -/
theorem Tab.find_isSome_foldl_insert_of_mem {α : Type} {e : Nat × α} {xs : List (Nat × α)} (h : e ∈ xs) (t : Tab α) :
    (Tab.find (xs.foldl (fun t x => Tab.insert t x.1 x.2) t) e.1).isSome = true := by
  induction xs generalizing t with
  | nil => cases h
  | cons x xs ih =>
    cases List.mem_cons.mp h with
    | inl h =>
      refine Tab.find_isSome_foldl_insert id _ xs _ ?_
      rw [h, Tab.find_insert_same]
      rfl
    | inr h => exact ih h _

/-- Line `l` of pair `p` stays poisoned where it was. -/
def PoisonStays (p l : Nat) (s u : State) : Prop :=
  (Tab.find (s.pair p).poison l).isSome = true → (Tab.find (u.pair p).poison l).isSome = true

namespace PoisonStays

variable {p l : Nat}

theorem refl (s : State) : PoisonStays p l s s := id

/-- An operation after others. -/
theorem after {s t u : State} (k : PoisonStays p l t u) (h : PoisonStays p l s t) : PoisonStays p l s u := fun hs => k (h hs)

theorem ite {s a b : State} {c : Prop} [Decidable c] (ha : c → PoisonStays p l s a) (hb : ¬c → PoisonStays p l s b) :
    PoisonStays p l s (if c then a else b) := by
  split
  · exact ha ‹_›
  · exact hb ‹_›

theorem when (s : State) (c : Bool) (f : State → State) (hf : PoisonStays p l s (f s)) : PoisonStays p l s (s.when c f) := by
  cases c
  · exact refl s
  · exact hf

theorem each {α : Type} (s : State) (xs : List α) (f : State → α → State) (hf : ∀ s x, PoisonStays p l s (f s x)) :
    PoisonStays p l s (s.each xs f) := by
  induction xs generalizing s with
  | nil => exact refl s
  | cons x xs ih => exact (ih (f s x)).after (hf s x)

theorem of_pairs {s u : State} (h : u.lp.pairs = s.lp.pairs) : PoisonStays p l s u := by
  unfold PoisonStays
  rw [State.pair_congr h]
  exact id

/-- A change of a pair that adds poison at most. -/
theorem modPair (s : State) (q : Nat) (f : Pair → Pair)
    (hf : ∀ x, (Tab.find x.poison l).isSome = true → (Tab.find (f x).poison l).isSome = true) :
    PoisonStays p l s (s.modPair q f) := by
  unfold PoisonStays
  rw [State.pair_modPair]
  split
  · rename_i h
    rw [h]
    exact hf _
  · exact id

theorem setPairSt (s : State) (q : Nat) (st : PairSt) : PoisonStays p l s (s.setPairSt q st) := by
  unfold PoisonStays
  rw [State.pair_setPairSt]
  split
  · rename_i h
    rw [h]
    exact id
  · exact id

end PoisonStays

/-- What does not touch the controllers poisons no line and heals none. -/
theorem Within.poisonStays {M : List Block} {s u : State} {p l : Nat} (h : Within M s u)
    (hM : M.contains .lp = false := by decide) : PoisonStays p l s u := .of_pairs (by rw [h.lp_eq hM])

/-! ### A pair fails -/

theorem State.spareUp_poison (s : State) (half p l : Nat) : PoisonStays p l s (s.spareUp half) := by
  unfold State.spareUp
  refine .ite (fun _ => .refl s) fun _ => ?_
  dsimp only
  split
  · exact PoisonStays.after (.modPair _ _ _ fun _ h => h) (.setPairSt s _ _)
  · exact .refl s

/-- The marks that pass from a pair to another stay on the first. -/
theorem State.passMarks_poison (s : State) (a b lo hi : Nat) (more : List Nat) (l : Nat) :
    PoisonStays a l s (s.passMarks a b lo hi more) := by
  intro hs
  unfold State.passMarks
  dsimp only
  rw [State.pair_modPair]
  split
  case isFalse => exact hs
  case isTrue hab =>
    subst hab
    obtain ⟨v, hv⟩ := Tab.mem_of_find_isSome hs
    dsimp only
    by_cases hin : lo ≤ l ∧ l < hi
    · refine Tab.find_isSome_foldl_insert id l _ _ (Tab.find_isSome_foldl_insert (fun k => (k, true)) l more _ ?_)
      exact Tab.find_isSome_of_mem (e := (l, v)) (List.mem_filter.mpr ⟨hv, decide_eq_true hin⟩)
    · exact Tab.find_isSome_foldl_insert_of_mem (e := (l, v)) (List.mem_filter.mpr ⟨hv, by simp [hin]⟩) _

/-- A copy leaves the marks of the pair that it copies. -/
theorem State.copyRange_poison (s : State) (a b lo hi : Nat) (found : List (Nat × Ecc)) (l : Nat) :
    PoisonStays a l s (s.copyRange a b lo hi found) := by
  unfold State.copyRange
  dsimp only
  refine (State.swapRegions_within _ _ _ _ _).poisonStays.after ((State.passMarks_poison _ a b lo hi _ l).after ?_)
  exact .each _ _ _ fun s x => (s.putLine_within _ _ _).poisonStays

/-- A move that aborts leaves the marks of its destination. -/
theorem State.moveAborts_poison (s : State) (half l : Nat) :
    PoisonStays (s.moveH half).dst.toNat l s (s.moveAborts half) := by
  unfold State.moveAborts
  dsimp only
  refine (State.opDone_within _ _ _ _ _ _ _).poisonStays.after ((State.modMove_within _ _ _).poisonStays.after ?_)
  refine (PoisonStays.when _ _ _ (.of_pairs rfl)).after (s.copyRange_poison _ _ _ _ _ l)

theorem State.pairFailed_poison (s : State) (p l : Nat) : PoisonStays p l s (s.pairFailed p) := by
  unfold State.pairFailed
  refine .ite (fun _ => .refl s) fun _ => ?_
  dsimp only
  refine (PoisonStays.of_pairs (State.regaugeHalf_pairs _ _)).after ((State.spareUp_poison _ _ p l).after ?_)
  have hd : PoisonStays p l s (s.setPairSt p .degraded) := .setPairSt s p _
  have hmove : (s.setPairSt p .degraded).moveH (p / 96) = s.moveH (p / 96) := by
    unfold State.moveH
    rw [(s.setPairSt_within p _).brd_eq (by decide)]
  refine .ite (fun _ => ?_) fun _ => .ite (fun h => ?_) fun _ => hd
  · refine (PoisonStays.of_pairs (State.zeroShare_pairs _ _ _ _)).after (PoisonStays.after (.modPair _ _ _ fun _ h => h) ?_)
    refine (PoisonStays.setPairSt _ _ _).after ((State.opDone_within _ _ _ _ _ _ _).poisonStays.after ?_)
    exact (State.modMove_within _ _ _).poisonStays.after hd
  · have ha := State.moveAborts_poison (s.setPairSt p .degraded) (p / 96) l
    rw [hmove, h.2] at ha
    exact ha.after hd

/-! ### A line found beyond repair -/

theorem State.dramPoison_poison (s : State) (p line l : Nat) : PoisonStays p l s (s.dramPoison p line) := by
  unfold State.dramPoison
  have h : PoisonStays p l s ((s.modPair p fun x => { x with poison := Tab.insert x.poison line true, ue := satInc x.ue }).pulse
      (544 + p / 4)) :=
    (State.pulse_within _ _).poisonStays.after (.modPair s p _ fun x hx => Tab.find_isSome_insert _ _ hx)
  exact .ite (fun _ => (State.pairFailed_poison _ p l).after h) fun _ => h

/-- A line that is poisoned holds its mark, though its pair fails for it (R170 step 5, R172). -/
theorem State.dramPoison_marks (s : State) (p line : Nat) : (Tab.find ((s.dramPoison p line).pair p).poison line).isSome = true := by
  have h : (Tab.find (((s.modPair p fun x => { x with poison := Tab.insert x.poison line true, ue := satInc x.ue }).pulse
      (544 + p / 4)).pair p).poison line).isSome = true := by
    rw [(State.pulse_within _ _).pair_eq, State.pair_modPair, if_pos rfl, Tab.find_insert_same]
    rfl
  unfold State.dramPoison
  dsimp only
  split
  · exact State.pairFailed_poison _ p line h
  · exact h

/-- A read of a data line of a sound pair under a key that finds it beyond repair leaves it poisoned (R170). -/
theorem State.dramRead_marks {s : State} {p line : Nat} (hk : line < s.dataLines → s.keyless (regionKey p line) = false) :
    (Tab.find ((s.dramRead p line .uncorrectable).2.2.pair p).poison line).isSome = true := by
  unfold State.dramRead
  rw [if_neg fun h => by simp [hk h.1] at h]
  unfold State.dramFetch
  dsimp only
  split
  · assumption
  split
  · exact State.dramPoison_marks _ _ _
  · simp only [Ecc.lost, Bool.or_true, if_true, Bool.not_true, Bool.and_false, Bool.false_eq_true, if_false]
    exact State.dramPoison_marks _ _ _

theorem State.regionCheck_poison (s : State) (p region : Nat) (rmac : RmacFact) (l : Nat) :
    PoisonStays p l s (s.regionCheck p region rmac) := by
  have h : ∀ f, PoisonStays p l s (s.modCry f) := fun f => (s.modCry_within f).poisonStays
  unfold State.regionCheck
  refine .ite (fun _ => h _) fun _ => ?_
  cases rmac with
  | agrees => exact h _
  | replaced k => exact .ite (fun _ => (State.storeLine_within _ _ _).poisonStays.after (h _)) fun _ => h _
  | lost =>
    refine (PoisonStays.each _ _ _ fun s k => ?_).after ((State.pulse_within _ _).poisonStays.after
      ((State.modCry_within _ _).poisonStays.after (h _)))
    exact (State.linePoisoned_within _ _ _).poisonStays.after (s.dramPoison_poison p k l)

/-- What follows the read of a patrolled line leaves its mark. -/
theorem State.patrol_poison {s : State} {p : Nat} (hs : (s.pair p).serves = true) (ecc : Ecc) (rmac : RmacFact) (l : Nat) :
    PoisonStays p l (s.dramRead p (s.pair p).scrubPos ecc).2.2 (s.patrol p ecc rmac) := by
  unfold State.patrol
  dsimp only
  rw [if_neg (by simp [hs])]
  refine PoisonStays.after (.modPair _ _ _ fun _ h => h) ((PoisonStays.when _ _ _ (State.regionCheck_poison _ _ _ _ l)).after ?_)
  refine (PoisonStays.when _ _ _ (State.modCry_within _ _).poisonStays).after ?_
  exact .when _ _ _ (State.linePoisoned_within _ _ _).poisonStays

theorem State.patrol_scrubPos {s : State} {p : Nat} (hs : (s.pair p).serves = true) (ecc : Ecc) (rmac : RmacFact) :
    ((s.patrol p ecc rmac).pair p).scrubPos = ((s.pair p).scrubPos + 1) % (if s.big then 2 ^ 27 else 2 ^ 26) := by
  unfold State.patrol
  dsimp only
  rw [if_neg (by simp [hs])]
  exact congrArg Pair.scrubPos ((State.pair_modPair _ _ _ _).trans (if_pos rfl))

end Sys2Proof.Machine
end

section
/-! SUPPORT. The background windows of the pairs, re-encrypted regions and retired keys (R177, R488, R490, R538 to R541). -/

set_option Elab.async false

namespace Sys2Proof.Machine

/-! ### Windows and deadlines -/

/-- R169, R177: patrol scrub moves on by one line of a serving pair and poisons a data line it finds beyond repair. -/
theorem patrolMoves (p : PairIx) (ecc : Ecc) (rmac : RmacFact) (s : State) (hs : (s.pair p.val).serves = true) :
    let line := (s.pair p.val).scrubPos
    Does (.lpddrPatrolScrub p ecc rmac) s fun u =>
      (u.pair p.val).scrubPos = (line + 1) % (if s.big then 2 ^ 27 else 2 ^ 26) ∧
      (ecc = .uncorrectable → (s.pair p.val).failed = false →
        (line < s.dataLines → s.keyless (p.val * 2 ^ 17 + line / 1024) = false) →
        (Tab.find (u.pair p.val).poison line).isSome = true) := by
  refine ⟨_, rfl, State.patrol_scrubPos hs ecc rmac, fun he _ hk => ?_⟩
  subst he
  exact State.patrol_poison hs .uncorrectable rmac _ (State.dramRead_marks hk)

/-- R177: a calibration window latches ZQ and reads drift and the on-die count; retraining clears what was due. -/
theorem channelWindows (ch : Fin 384) (odecc drift : Nat) (s : State) :
    let p := s.pair (ch.val / 2)
    exec (.refresh ch) s = .next s ∧
    (Does (.calibrationWindow ch odecc drift) s fun u => u.pair (ch.val / 2) = { p with
      zqLatched := setBit p.zqLatched (ch.val % 2) true, drift := Tab.insert p.drift (ch.val % 2) drift,
      odecc := satAdd p.odecc odecc,
      retrainDue := if 5 < drift then setBit p.retrainDue (ch.val % 2) true else p.retrainDue } ∧ ∀ q, q ≠ ch.val / 2 → u.pair q = s.pair q) ∧
    (p.retrainDue.getLsbD (ch.val % 2) = true → Does (.writeDqRetrain ch) s fun u =>
      u.pair (ch.val / 2) = { p with
        retrainDue := setBit p.retrainDue (ch.val % 2) false, drift := Tab.insert p.drift (ch.val % 2) 0 } ∧ u.mem = s.mem) := by
  refine ⟨rfl, ⟨_, rfl, ?_, fun q hq => ?_⟩, fun h => ⟨_, if_pos h, ?_, rfl⟩⟩
  · rw [State.pair_modPair, if_pos rfl]
  · rw [State.pair_modPair, if_neg hq]
  · rw [State.pair_modPair, if_pos rfl]

/-- R178, R189: MR4 sets the refresh rate of its pair. -/
theorem mr4SetsRate (p : PairIx) (rate : BitVec 2) (s : State) (hr : rate ≠ 3) : Does (.mr4RateChange p rate) s fun u =>
    u.pair p.val = { s.pair p.val with refRate := rate } ∧ ∀ q, q ≠ p.val → u.pair q = s.pair q := by
  by_cases h : (s.pair p.val).refRate = rate
  · exact ⟨s, if_pos (.inr h), by rw [← h], fun _ _ => rfl⟩
  refine ⟨_, if_neg (not_or.mpr ⟨hr, h⟩), ?_⟩
  have hpair : ∀ (v : State) (l : List Nat) q, (v.each l fun s l => s.regauge (.pair l)).pair q = v.pair q := fun v l =>
    State.pair_congr (State.each_congr (fun s => s.lp.pairs) v l _ fun s l => s.regauge_pairs _)
  simp only [hpair, State.pair_modPair, if_true]
  exact ⟨trivial, fun q hq => if_neg hq⟩

/-- R490: a background item's deadline counts once a period. -/
theorem deadlineCounts (item : BgItem) (unit : Nat) (s : State) (h : bgIndex item ∉ s.rcv.bgHit) :
    Does (.backgroundDeadline item unit) s fun u =>
      bgIndex item ∈ u.rcv.bgHit ∧
      ∀ k, Tab.get (fun _ => 0) u.rcv.bgDeadlines k =
        Tab.get (fun _ => 0) s.rcv.bgDeadlines k + if k = bgIndex item then 1 else 0 := by
  refine ⟨_, if_neg (by simpa using h), List.mem_append_right _ List.mem_cons_self, fun k => ?_⟩
  refine (Tab.get_insert _ _ _ _ _).trans ?_
  split
  · rename_i hk
    rw [hk]
  · exact (add_zero _).symm

/-- R171: a line written back is dirty no more. -/
theorem writebackCleans (p : PairIx) (line : Nat) (s : State) : Does (.checkLineWriteback p line) s fun u =>
    (∀ d ∈ u.lp.dirty, ¬ (d.pair = p.val ∧ d.line = line)) ∧ u.mem = s.mem :=
  ⟨_, rfl, fun _ hd => of_decide_eq_true (List.mem_filter.mp hd).2, rfl⟩

/-! ### Regions and keys -/

theorem State.region_kidUsers (s : State) (k : BitVec 6) (up : Bool) (j : Nat) : (s.kidUsers k up).region j = s.region j := rfl

theorem State.kid_kidUsers (s : State) (k : BitVec 6) (up : Bool) (j : Nat) : (s.kidUsers k up).kid j =
    if j = k.toNat then { s.kid j with users := if up then (s.kid j).users + 1 else (s.kid j).users - 1 } else s.kid j := by
  refine (State.kid_modKid _ _ _ _).trans ?_
  split
  · rename_i h
    rw [h]
  · rfl

/-- A region that is not the next one to move keeps its record, and every key but the one in force its count (R540, R541). -/
theorem State.nextMove_keeps (s : State) (p : Nat) {k : Nat} (hk : (s.region k).kid = s.cry.curMem) :
    (s.nextMove p).region k = s.region k ∧ ∀ j, j ≠ s.cry.curMem.toNat → (s.nextMove p).kid j = s.kid j := by
  unfold State.nextMove
  dsimp only
  split
  · exact ⟨rfl, fun _ _ => rfl⟩
  split
  · rename_i r hr
    have hne : k ≠ p * 2 ^ 17 + r := by
      rintro rfl
      have hr := List.find?_some hr
      simp only [Bool.and_eq_true, decide_eq_true_eq] at hr
      exact hr.1.1 hk
    refine ⟨?_, fun j hj => ?_⟩
    · exact (State.region_kidUsers _ _ _ _).trans ((State.region_modRegion _ _ _ _).trans (if_neg hne))
    · exact (State.kid_kidUsers _ _ _ _).trans (if_neg hj)
  · exact ⟨rfl, fun _ _ => rfl⟩

/-- The state once a region has been re-encrypted, before what fell due meanwhile starts (R538, R540). -/
def State.leavesRe (s : State) (p region : Nat) : State :=
  let k := p * 2 ^ 17 + region
  let r := s.region k
  let s1 := s.modRegion k fun r => { r with cursor := 1024, re := false }
  let mac := s1.regionMac p region
  let s2 := (s1.modRegion k fun r => { r with rmac := mac }).when (decide (r.okid ≠ r.kid)) fun s => s.kidUsers r.okid false
  s2.when (decide ((s2.pair p).scrubPos / 1024 = region ∧ (s2.pair p).scrubPos % 1024 ≠ 0)) fun s =>
    s.modCry fun c => { c with scrubSkip := Tab.insert c.scrubSkip p true }

section
variable (s : State) (p region : Nat)

theorem State.leavesRe_curMem : (s.leavesRe p region).cry.curMem = s.cry.curMem := by
  unfold State.leavesRe State.when
  dsimp only
  split_ifs <;> rfl

theorem State.region_leavesRe : ∃ mac, (s.leavesRe p region).region (p * 2 ^ 17 + region) =
    { s.region (p * 2 ^ 17 + region) with cursor := 1024, re := false, rmac := mac } := by
  have hskip : ∀ (v : State) c (x : Cry → Tab Bool) k,
      (v.when c fun s => s.modCry fun y => { y with scrubSkip := x y }).region k = v.region k := fun v c x k => by cases c <;> rfl
  have husers : ∀ (v : State) c o k, (v.when c fun s => s.kidUsers o false).region k = v.region k :=
    fun v c o k => by cases c <;> rfl
  unfold State.leavesRe
  dsimp only
  rw [hskip, husers, State.region_modRegion, if_pos rfl, State.region_modRegion, if_pos rfl]
  exact ⟨_, rfl⟩

/-- The key that a region leaves has one user less. -/
theorem State.kid_leavesRe (h : (s.region (p * 2 ^ 17 + region)).okid ≠ (s.region (p * 2 ^ 17 + region)).kid) :
    ((s.leavesRe p region).kid (s.region (p * 2 ^ 17 + region)).okid.toNat).users =
      (s.kid (s.region (p * 2 ^ 17 + region)).okid.toNat).users - 1 := by
  have hskip : ∀ (v : State) c (x : Cry → Tab Bool) k,
      (v.when c fun s => s.modCry fun y => { y with scrubSkip := x y }).kid k = v.kid k := fun v c x k => by cases c <;> rfl
  unfold State.leavesRe
  dsimp only
  rw [hskip, decide_eq_true h, State.when_true, State.kid_kidUsers, if_pos rfl]
  rfl

/-- A region under the key in force that wants no refresh lets its pair's next region move. -/
theorem State.reencrypted_eq (hre : (s.region (p * 2 ^ 17 + region)).re = true)
    (hkid : (s.region (p * 2 ^ 17 + region)).kid = s.cry.curMem)
    (hwc : (s.region (p * 2 ^ 17 + region)).wc.toNat < (s.region (p * 2 ^ 17 + region)).base.toNat + 2 ^ 20) :
    s.reencrypted p region = (s.leavesRe p region).nextMove p := by
  have hmove : ¬ ((s.region (p * 2 ^ 17 + region)).kid ≠ (s.leavesRe p region).cry.curMem ∧
      2 ^ 46 - 2 ^ 24 ≤ (s.region (p * 2 ^ 17 + region)).wc.toNat) := fun h =>
    h.1 (by rw [State.leavesRe_curMem, hkid])
  have hfresh : ¬ ((s.region (p * 2 ^ 17 + region)).wc.toNat < 2 ^ 46 - 2 ^ 24 ∧
      2 ^ 20 ≤ (s.region (p * 2 ^ 17 + region)).wc.toNat - (s.region (p * 2 ^ 17 + region)).base.toNat) := by omega
  exact (if_neg (by rw [hre]; decide)).trans ((if_neg hmove).trans (if_neg hfresh))

end

/-- R538, R540: a region that has been re-encrypted leaves RE, and the key it leaves has one user less. -/
theorem reencryptionEnds (p : PairIx) (region : Fin 122880) (s : State) :
    let r := s.region (p.val * 2 ^ 17 + region.val)
    r.re = true → r.kid = s.cry.curMem → r.wc.toNat < r.base.toNat + 2 ^ 20 → Does (.reencryptDone p region) s fun u =>
      let x := u.region (p.val * 2 ^ 17 + region.val)
      x.re = false ∧ x.cursor = 1024 ∧ x.kid = r.kid ∧ x.wc = r.wc ∧
      (r.okid ≠ r.kid → (u.kid r.okid.toNat).users = (s.kid r.okid.toNat).users - 1) := by
  intro r hre hkid hwc
  obtain ⟨mac, hregion⟩ := s.region_leavesRe p.val region.val
  have hcur := s.leavesRe_curMem p.val region.val
  obtain ⟨hstays, husers⟩ := (s.leavesRe p.val region.val).nextMove_keeps p.val (k := p.val * 2 ^ 17 + region.val)
    (by rw [hregion, hcur, ← hkid])
  refine ⟨_, congrArg Host.Outcome.next (s.reencrypted_eq p.val region.val hre hkid hwc), ?_⟩
  dsimp only
  rw [hstays, hregion]
  refine ⟨rfl, rfl, rfl, rfl, fun h => ?_⟩
  rw [husers _ fun hj => h (BitVec.eq_of_toNat_eq (by rw [hj, hcur, ← hkid])), State.kid_leavesRe _ _ _ h]

/-- R541: a retiring key that nothing uses is retired. -/
theorem keyRetires (k : Fin 64) (s : State) (hst : (s.kid k.val).st = 2) (hu : (s.kid k.val).users = 0) :
    Does (.kidRetired k) s fun u => u.kid k.val = { s.kid k.val with st := 3 } ∧ ∀ j, j ≠ k.val → u.kid j = s.kid j := by
  have hlog : ∀ (v : State) cls source cid data j, (v.log cls source cid data).kid j = v.kid j := fun v cls source cid data j => by
    unfold State.kid
    rw [(v.log_within cls source cid data).cry_eq (by decide)]
  refine ⟨_, if_pos ⟨hst, hu⟩, ?_⟩
  simp only [hlog, State.kid_modKid, if_true]
  exact ⟨trivial, fun j hj => if_neg hj⟩

end Sys2Proof.Machine
end

section
/-! SUPPORT. Check lines (R169, R171, R178): a delta that reaches its check line, and the recomputation of a half's. -/

set_option Elab.async false

namespace Sys2Proof.Machine

/-! ### Lines of pairs -/

/-- The line just stored. -/
theorem State.line_storeLine {s : State} (hc : MemoryCanonical s) (a : Nat) (l : Line) : (s.storeLine a l).line a = l :=
  Line.ext_byte fun i hi => by
    rw [State.byte_line _ _ hi, State.byte_storeLine hc, if_pos ⟨by omega, by omega⟩, Nat.add_sub_cancel_left]

/-- A line that does not meet the one stored. -/
theorem State.line_storeLine_apart {s : State} (hc : MemoryCanonical s) {a b : Nat} (h : b + 64 ≤ a ∨ a + 64 ≤ b) (l : Line) :
    (s.storeLine a l).line b = s.line b :=
  State.line_congr fun i hi => by rw [State.byte_storeLine hc, if_neg (by omega)]

/-- A line whose bytes are zero. -/
theorem State.line_eq_zero {s : State} {a : Nat} (h : ∀ i < 64, s.byte (a + i) = 0) : s.line a = 0 :=
  Line.ext_byte fun i hi => by
    rw [State.byte_line _ _ hi, h i hi]
    simp [Line.byte]

/-! ### A delta reaches its check line -/

/-- Taking the element that a search finds out of its list. -/
theorem List.length_eraseP_of_find {α : Type} {p : α → Bool} {l : List α} {x : α} (h : l.find? p = some x) :
    (l.eraseP p).length + 1 = l.length := by
  have hm := List.mem_of_find?_eq_some h
  rw [List.length_eraseP_of_mem hm (List.find?_some h)]
  exact Nat.sub_add_cancel (List.length_pos_of_mem hm)

/-- A half's oldest delta is taken out of the ring and counts in its check line (R171). -/
theorem State.checkDelta_eq {s : State} {h : Nat} {d : Delta} (hd : (s.lp.deltas.find? fun d => decide (d.half = h)) = some d)
    {c : Nat × Nat} (hc : s.checkPlace (d.half * 96 + d.slot) d.line = c) (hf : (s.pair c.1).failed = false) :
    ∃ g : Mem → List CheckDirty, s.checkDelta h = ((s.modLp fun m => { m with deltas := m.deltas.eraseP fun x => decide (x.half = h) }).storeLine
      (pairKey c.1 (c.2 * 64)) (s.line (pairKey c.1 (c.2 * 64)) ^^^ d.xor)).modLp fun m => { m with dirty := g m } := by
  subst hc
  unfold State.checkDelta
  rw [hd]
  refine ⟨_, if_neg ?_⟩
  rw [Bool.not_eq_true]
  exact hf

/-- R171: the oldest delta of a half reaches its check line. -/
theorem deltaReaches (h : Half) (d : Delta) (s : State) (hc : MemoryCanonical s)
    (hd : (s.lp.deltas.find? fun d => decide (d.half = h.val)) = some d) :
    let c := s.checkPlace (d.half * 96 + d.slot) d.line
    (s.pair c.1).failed = false → s.sched.waits = [] → Does (.checkDelta h) s fun u =>
      u.line (pairKey c.1 (c.2 * 64)) = s.line (pairKey c.1 (c.2 * 64)) ^^^ d.xor ∧
      u.lp.deltas.length + 1 = s.lp.deltas.length ∧
      ∀ a, a < pairKey c.1 (c.2 * 64) ∨ pairKey c.1 (c.2 * 64) + 64 ≤ a → u.byte a = s.byte a := by
  intro c hf hw
  have hrun : (s.checkDelta h.val).serveAll = s.checkDelta h.val := by
    have hw' : (s.checkDelta h.val).sched.waits = [] := by
      rw [(s.checkDelta_within h.val).sched_eq (by decide), hw]
    rw [State.serveAll, hw']
    rfl
  obtain ⟨g, hg⟩ := State.checkDelta_eq hd rfl hf
  refine ⟨_, congrArg Host.Outcome.next (hrun.trans hg), ?_⟩
  refine ⟨State.line_storeLine (s := s.modLp _) hc _ _, List.length_eraseP_of_find hd, fun a ha => ?_⟩
  exact (State.byte_storeLine (s := s.modLp _) hc _ _ a).trans (if_neg fun hk =>
    ha.elim (fun h => absurd hk.1 (Nat.not_le.mpr h)) fun h => absurd hk.2 (Nat.not_lt.mpr h))

/-! ### Where a half's lines lie -/

/-- Bytes of a pair (R166). -/
def State.pairBytes (s : State) : Nat := if s.big then 2 ^ 33 else 2 ^ 32

/-- The check area of a pair ends with the pair (R169). -/
theorem State.checkArea_fits (s : State) : s.pairBytes ≤ 8589934592 ∧ ∀ l < s.c0, (s.c0 + l / 24) * 64 + 64 ≤ s.pairBytes := by
  unfold State.pairBytes State.c0
  split
  · exact ⟨by omega, fun l hl => by omega⟩
  · exact ⟨by omega, fun l hl => by omega⟩

theorem State.c0_lt (s : State) : s.c0 < 134217728 := by
  unfold State.c0
  split <;> omega

/-- The lowest byte of the check line of stripe (`slot`, `line`) of a half (R169). -/
def State.checkKey (s : State) (h slot line : Nat) : Nat :=
  pairKey (s.checkPlace (h * 96 + slot) line).1 ((s.checkPlace (h * 96 + slot) line).2 * 64)

theorem State.checkKey_eq (s : State) (h : Nat) {slot : Nat} (hs : slot < 4) (line : Nat) :
    s.checkKey h slot line = (h * 96 + line % 24 * 4 + (slot + 1) % 4) * 2 ^ 33 + (s.c0 + line / 24) * 64 := by
  have h1 : (h * 96 + slot) / 96 * 96 = h * 96 := by omega
  have h2 : (h * 96 + slot) % 4 = slot := by omega
  simp only [State.checkKey, State.checkPlace, pairKey, h1, h2]

/-- Check lines of different stripes do not meet. -/
theorem State.checkKey_apart (s : State) (h : Nat) {a b l m : Nat} (ha : a < 4) (hb : b < 4) (hl : l < s.c0) (hm : m < s.c0)
    (hne : (a, l) ≠ (b, m)) : s.checkKey h a l + 64 ≤ s.checkKey h b m ∨ s.checkKey h b m + 64 ≤ s.checkKey h a l := by
  have hl' := (s.checkArea_fits).2 l hl
  have hm' := (s.checkArea_fits).2 m hm
  have hn := (s.checkArea_fits).1
  rw [s.checkKey_eq h ha, s.checkKey_eq h hb]
  by_contra hc
  refine hne ?_
  have hal : a = b ∧ l = m := by omega
  rw [hal.1, hal.2]

/-! ### The recomputation -/

/-- A data line's bytes: those of a pair below the check area. -/
def State.dataByte (s : State) (k : Nat) : Prop := k / 64 % 134217728 < s.c0

theorem State.dataByte_of_line (s : State) {l : Nat} (h : l < s.c0) (p : Nat) {i : Nat} (hi : i < 64) :
    s.dataByte (pairKey p (l * 64) + i) := by
  have hc := s.c0_lt
  simp only [State.dataByte, pairKey]
  omega

/-- The exclusive or of the data lines of a stripe on dies that have not failed (R178). -/
def State.stripeSum (s : State) (h slot line : Nat) : Line :=
  xorLines ((((List.range 24).map fun k => h * 96 + k * 4 + slot).filter fun p => !(s.pair p).failed).map
    fun p => s.line (pairKey p (line * 64)))

/-- States with the same pairs and data lines, whose check area lies at the same place. -/
structure SameData (s u : State) : Prop where
  boot : u.boot = s.boot
  pairs : u.lp.pairs = s.lp.pairs
  data : ∀ k, s.dataByte k → u.byte k = s.byte k

namespace SameData

variable {s u v : State}

theorem refl (s : State) : SameData s s := ⟨rfl, rfl, fun _ _ => rfl⟩

theorem modLp (s : State) (f : Mem → Mem) (hf : ∀ m, (f m).pairs = m.pairs) : SameData s (s.modLp f) :=
  ⟨rfl, hf _, fun _ _ => rfl⟩

variable (h : SameData s u)
include h

theorem c0 : u.c0 = s.c0 := by unfold State.c0 State.big; rw [h.boot]

theorem trans (k : SameData u v) : SameData s v :=
  ⟨k.boot.trans h.boot, k.pairs.trans h.pairs, fun a ha => (k.data a (by rw [State.dataByte, h.c0]; exact ha)).trans (h.data a ha)⟩

theorem checkKey (half slot line : Nat) : u.checkKey half slot line = s.checkKey half slot line := by
  unfold State.checkKey State.checkPlace
  rw [h.c0]

theorem stripeSum {line : Nat} (hl : line < s.c0) (half slot : Nat) : u.stripeSum half slot line = s.stripeSum half slot line := by
  have hp : (fun p => !(u.pair p).failed) = fun p => !(s.pair p).failed := funext fun p => by rw [State.pair_congr h.pairs]
  unfold State.stripeSum
  rw [hp]
  exact congrArg xorLines (List.map_congr_left fun p _ => State.line_congr fun i hi => h.data _ (s.dataByte_of_line hl p hi))

end SameData

/-- One check line is computed again (R178). -/
def State.recheck (s : State) (h : Nat) (x : Nat × Nat) : State :=
  s.storeLine (s.checkKey h x.1 x.2) (s.stripeSum h x.1 x.2)

theorem State.recheck_sameData {s : State} (hc : MemoryCanonical s) (h : Nat) {x : Nat × Nat} (hx : x.1 < 4 ∧ x.2 < s.c0) :
    SameData s (s.recheck h x) := by
  refine ⟨rfl, rfl, fun k hk => (State.byte_storeLine hc _ _ k).trans (if_neg fun hin => ?_)⟩
  have hfit := (s.checkArea_fits).2 x.2 hx.2
  have hn := (s.checkArea_fits).1
  rw [s.checkKey_eq h hx.1] at hin
  simp only [State.dataByte] at hk
  omega

/-- After the check lines of a list of stripes are computed again: each holds its stripe's sum, the others are as before. -/
theorem State.recheck_all {s : State} (hc : MemoryCanonical s) (h : Nat) (xs : List (Nat × Nat))
    (hxs : ∀ x ∈ xs, x.1 < 4 ∧ x.2 < s.c0) :
    SameData s (s.each xs fun s x => s.recheck h x) ∧
    ∀ slot < 4, ∀ line < s.c0, (s.each xs fun s x => s.recheck h x).line (s.checkKey h slot line) =
      if (slot, line) ∈ xs then s.stripeSum h slot line else s.line (s.checkKey h slot line) := by
  induction xs generalizing s with
  | nil => exact ⟨.refl s, fun slot _ line _ => rfl⟩
  | cons x xs ih =>
    have hx := hxs x List.mem_cons_self
    have hsame := State.recheck_sameData hc h hx
    obtain ⟨hdata, hlines⟩ := ih (s := s.recheck h x) (State.storeLine_canonical hc _ _)
      fun y hy => by rw [hsame.c0]; exact hxs y (List.mem_cons_of_mem _ hy)
    refine ⟨hsame.trans hdata, fun slot hslot line hline => ?_⟩
    have hl := hlines slot hslot line (by rw [hsame.c0]; exact hline)
    rw [hsame.checkKey, hsame.stripeSum hline] at hl
    rw [State.each_cons, hl]
    by_cases hin : (slot, line) ∈ xs
    · rw [if_pos hin, if_pos (List.mem_cons_of_mem _ hin)]
    rw [if_neg hin]
    by_cases hxe : (slot, line) = x
    · subst hxe
      rw [if_pos List.mem_cons_self]
      exact State.line_storeLine hc _ _
    · rw [if_neg fun hm => (List.mem_cons.mp hm).elim hxe hin]
      exact State.line_storeLine_apart hc (s.checkKey_apart h hslot hx.1 hline hx.2 hxe) _

/-- The check areas of the pairs of a half are cleared. -/
def State.clearChecks (s : State) (h : Nat) (l : List Nat) : State :=
  s.each l fun s i => s.clearMem (pairKey (h * 96 + i) (s.c0 * 64)) (s.pairBytes - s.c0 * 64)

/-- The check areas of pairs `l` of a half hold byte `k`. -/
def State.inChecks (s : State) (h : Nat) (l : List Nat) (k : Nat) : Prop :=
  ∃ i ∈ l, pairKey (h * 96 + i) (s.c0 * 64) ≤ k ∧ k < pairKey (h * 96 + i) (s.c0 * 64) + (s.pairBytes - s.c0 * 64)

open Classical in
theorem State.byte_clearChecks (s : State) (h : Nat) (l : List Nat) (k : Nat) :
    (s.clearChecks h l).byte k = if s.inChecks h l k then 0 else s.byte k := by
  induction l generalizing s with
  | nil => exact (if_neg fun ⟨_, hi, _⟩ => by cases hi).symm
  | cons i l ih =>
    have hcons : s.inChecks h (i :: l) k ↔ (pairKey (h * 96 + i) (s.c0 * 64) ≤ k ∧
        k < pairKey (h * 96 + i) (s.c0 * 64) + (s.pairBytes - s.c0 * 64)) ∨ s.inChecks h l k := by
      simp [State.inChecks]
    refine (ih _).trans ?_
    rw [State.byte_clearMem]
    by_cases hin : s.inChecks h l k
    · rw [if_pos (hcons.mpr (.inr hin))]
      exact if_pos hin
    · refine (if_neg hin).trans (if_congr ?_ rfl rfl)
      rw [hcons, or_iff_left hin]

theorem State.clearChecks_within (s : State) (h : Nat) (l : List Nat) : Within [.mem] s (s.clearChecks h l) :=
  State.each_within _ _ (.refl _ _) fun _ _ k => (State.clearMem_within _ _ _).step' k (by decide)

/-- The clear of the check areas leaves every data line. -/
theorem State.clearChecks_sameData (s : State) (h : Nat) : SameData s (s.clearChecks h (List.range 96)) := by
  have hw := s.clearChecks_within h (List.range 96)
  refine ⟨hw.boot_eq (by decide), by rw [hw.lp_eq (by decide)], fun k hk => (s.byte_clearChecks h _ k).trans (if_neg ?_)⟩
  rintro ⟨i, -, hlo, hhi⟩
  have hn := (s.checkArea_fits).1
  simp only [State.dataByte, pairKey] at hk hlo hhi
  omega

/-- The clear of the check areas leaves every check line of the half zero. -/
theorem State.clearChecks_line (s : State) (h : Nat) {slot line : Nat} (hs : slot < 4) (hl : line < s.c0) :
    (s.clearChecks h (List.range 96)).line (s.checkKey h slot line) = 0 := by
  have hfit := (s.checkArea_fits).2 line hl
  refine State.line_eq_zero fun j hj => (s.byte_clearChecks h _ _).trans (if_pos ?_)
  refine ⟨line % 24 * 4 + (slot + 1) % 4, List.mem_range.mpr (by omega), ?_⟩
  rw [s.checkKey_eq h hs]
  simp only [pairKey]
  omega

/-- The stripes of a half with a byte other than zero in a data line. -/
def State.stripesOf (s : State) (h : Nat) : List (Nat × Nat) :=
  let inHalf := fun (k : Nat) => decide (h * 96 * 2 ^ 33 ≤ k ∧ k < (h + 1) * 96 * 2 ^ 33)
  let listed := (s.mem.filter fun c => inHalf c.1 && decide (c.1 / 64 % 2 ^ 27 < s.c0)).map fun c => (c.1 / 2 ^ 33, c.1 / 64 % 2 ^ 27)
  (listed.map fun x => (x.1 % 4, x.2)).eraseDups

theorem State.stripesOf_bounds (s : State) (h : Nat) : ∀ x ∈ s.stripesOf h, x.1 < 4 ∧ x.2 < s.c0 := by
  intro x hx
  simp only [State.stripesOf, List.mem_eraseDups, List.map_map, List.mem_map, List.mem_filter, Bool.and_eq_true,
    decide_eq_true_eq] at hx
  obtain ⟨c, ⟨-, -, hc⟩, rfl⟩ := hx
  exact ⟨Nat.mod_lt _ (by decide), hc⟩

theorem xorLines_eq_zero {ls : List Line} (h : ∀ l ∈ ls, l = 0) : xorLines ls = 0 := by
  unfold xorLines
  induction ls with
  | nil => rfl
  | cons l ls ih =>
    rw [List.foldl_cons, h l List.mem_cons_self, BitVec.xor_self]
    exact ih fun m hm => h m (List.mem_cons_of_mem _ hm)

/-- A stripe with no byte other than zero sums to zero. -/
theorem State.stripeSum_eq_zero {s : State} {h slot line : Nat} (hs : slot < 4) (hl : line < s.c0)
    (hn : (slot, line) ∉ s.stripesOf h) : s.stripeSum h slot line = 0 := by
  refine xorLines_eq_zero fun l hmem => ?_
  obtain ⟨p, hp, rfl⟩ := List.mem_map.mp hmem
  obtain ⟨i, hi, rfl⟩ := List.mem_map.mp (List.mem_filter.mp hp).1
  have hi' := List.mem_range.mp hi
  have hc := s.c0_lt
  refine State.line_eq_zero fun j hj => by_contra fun hb => hn ?_
  obtain ⟨v, hv⟩ := Tab.mem_of_get (d := memDefault) hb
  simp only [State.stripesOf, List.mem_eraseDups, List.map_map, List.mem_map, List.mem_filter, Bool.and_eq_true,
    decide_eq_true_eq]
  refine ⟨_, ⟨hv, ?_, ?_⟩, ?_⟩
  · simp only [pairKey]
    omega
  · exact s.dataByte_of_line hl _ hj
  · simp only [Function.comp, pairKey, Prod.mk.injEq]
    omega

/-- A half's check areas are cleared, its deltas and dirty lines gone (R178). -/
def State.readied (s : State) (h : Nat) : State :=
  (s.clearChecks h (List.range 96)).modLp fun m => { m with
    deltas := m.deltas.filter fun d => decide (d.half ≠ h), dirty := m.dirty.filter fun d => decide (d.pair / 96 ≠ h) }

theorem State.readied_sameData (s : State) (h : Nat) : SameData s (s.readied h) :=
  (s.clearChecks_sameData h).trans (SameData.modLp _ _ fun _ => rfl)

theorem State.readied_mem (s : State) (h : Nat) : (s.readied h).mem = (s.clearChecks h (List.range 96)).mem :=
  State.modLp_mem _ _

theorem State.readied_canonical {s : State} (hc : MemoryCanonical s) (h : Nat) : MemoryCanonical (s.readied h) := by
  rw [MemoryCanonical, State.readied_mem]
  exact (s.clearChecks_within h _).canonical hc

theorem State.readied_line (s : State) (h : Nat) {slot line : Nat} (hs : slot < 4) (hl : line < s.c0) :
    (s.readied h).line (s.checkKey h slot line) = 0 :=
  (State.line_congr fun _ _ => congrArg (Memory.read · _) (s.readied_mem h)).trans (s.clearChecks_line h hs hl)

/-- Its check lines are computed again. -/
def State.rechecked (s : State) (h : Nat) : State := (s.readied h).each (s.stripesOf h) fun s x => s.recheck h x

/-- What follows the check lines' computation changes no byte: what failed dies held is lost, the half is stale no more. -/
theorem State.recompute_eq (s : State) (h : Nat) : ∃ l c, s.recompute h =
    ((s.rechecked h).each l fun s p => s.modPair p fun x => { x with gone := [(0, c)] }).modLp fun m =>
      { m with stale := Tab.erase m.stale h } := ⟨_, _, rfl⟩

theorem State.rechecked_stale (s : State) (h : Nat) : (s.rechecked h).lp.stale = s.lp.stale := by
  unfold State.rechecked
  refine (State.each_congr (fun s => s.lp.stale) _ _ _ fun v x => ?_).trans ?_
  · rw [State.recheck, (v.storeLine_within _ _).lp_eq (by decide)]
  · rw [State.readied, State.modLp_lp, (s.clearChecks_within h _).lp_eq (by decide)]

/-- Every check line of the half holds its stripe's sum (R178). -/
theorem State.rechecked_line {s : State} (hc : MemoryCanonical s) (h : Nat) {slot line : Nat} (hs : slot < 4) (hl : line < s.c0) :
    (s.rechecked h).line (s.checkKey h slot line) = s.stripeSum h slot line := by
  have hd := s.readied_sameData h
  obtain ⟨-, hlines⟩ := State.recheck_all (State.readied_canonical hc h) h (s.stripesOf h)
    (by rw [hd.c0]; exact s.stripesOf_bounds h)
  have hline := hlines slot hs line (by rw [hd.c0]; exact hl)
  rw [hd.checkKey, hd.stripeSum hl] at hline
  refine hline.trans ?_
  split
  · rfl
  · rename_i hn
    rw [State.stripeSum_eq_zero hs hl hn]
    exact s.readied_line h hs hl

theorem Tab.get_erase_of_rising {α : Type} (d : Nat → α) {t : Tab α} (h : rising t) (k : Nat) :
    Tab.get d (Tab.erase t k) k = d k :=
  by_contra fun hne => by
    obtain ⟨v, hv⟩ := Tab.mem_of_get hne
    exact Tab.key_ne_of_mem_erase h k _ hv rfl

/-- R178: the recomputation makes every check line of the half the sum of its stripe. -/
theorem recomputeEnds (h : Half) (s : State) (hc : MemoryCanonical s) (hst : Tab.get (fun _ => false) s.lp.stale h.val = true)
    (hr : rising s.lp.stale) : Does (.checkRecomputeDone h) s fun u =>
      Tab.get (fun _ => false) u.lp.stale h.val = false ∧
      ∀ slot < 4, ∀ line < s.c0,
        let c := s.checkPlace (h.val * 96 + slot) line
        u.line (pairKey c.1 (c.2 * 64)) =
          xorLines ((((List.range 24).map fun k => h.val * 96 + k * 4 + slot).filter fun p => !(s.pair p).failed).map
            fun p => s.line (pairKey p (line * 64))) := by
  obtain ⟨l, c, heq⟩ := s.recompute_eq h.val
  have hafter : ∀ v : State, (v.each l fun s p => s.modPair p fun x => { x with gone := [(0, c)] }).lp.stale = v.lp.stale :=
    fun v => State.each_congr (fun s => s.lp.stale) v l _ fun _ _ => rfl
  have hmem : ∀ v : State, (v.each l fun s p => s.modPair p fun x => { x with gone := [(0, c)] }).mem = v.mem :=
    fun v => State.each_congr (fun s => s.mem) v l _ fun _ _ => rfl
  refine ⟨_, if_pos hst, ?_, fun slot hs line hl => ?_⟩
  · rw [heq, State.modLp_lp, hafter, State.rechecked_stale]
    exact Tab.get_erase_of_rising _ hr _
  · refine Eq.trans (State.line_congr fun i _ => ?_) (State.rechecked_line hc h.val hs hl)
    rw [heq]
    exact congrArg (Memory.read · _) (hmem _)

/-- R169, R171, R177, R178, R189, R488, R490, R538, R541. -/
theorem pairUpkeep : Stated.PairUpkeep :=
  ⟨patrolMoves, channelWindows, mr4SetsRate, deadlineCounts, fun h d s hc => deltaReaches h d s hc, writebackCleans,
    fun h s hc => recomputeEnds h s hc, reencryptionEnds, keyRetires⟩

/-- Settles O34: each upkeep command's clause by the rule of the operation it runs; the recomputation by an induction over
the stripes that hold a byte other than zero, the others' check lines being cleared. -/
theorem memoryUpkeep : Obligations.MemoryUpkeep := ⟨bondedSramUpkeep, pairUpkeep⟩

end Sys2Proof.Machine
end

section
/-! SUPPORT. What writes of lines and releases of references leave alone: the jobs of the coders, the resources between two
bindings and the commands of the queues, of which a release may end some. -/

set_option Elab.async false

namespace Sys2Proof.Machine

/-- The coders' jobs, the resources between two bindings, the queues. -/
def State.standing (s : State) : List Job × List (Resource × Cid × ResSt) × Tab QRo := (s.lp.jobs, s.brd.res, s.que.q)

theorem Within.standing_eq {M : List Block} {s u : State} (h : Within M s u) (hl : M.contains .lp = false := by decide)
    (hb : M.contains .brd = false := by decide) (hq : M.contains .que = false := by decide) : u.standing = s.standing := by
  unfold State.standing
  rw [h.lp_eq hl, h.brd_eq hb, h.que_eq hq]

theorem State.ite_standing {c : Prop} [Decidable c] {s v w : State} (hv : c → v.standing = s.standing)
    (hw : ¬c → w.standing = s.standing) : (if c then v else w).standing = s.standing := by
  split
  · exact hv ‹_›
  · exact hw ‹_›

theorem State.each_standing {α : Type} (s : State) (l : List α) {f : State → α → State}
    (hf : ∀ s x, (f s x).standing = s.standing) : (s.each l f).standing = s.standing :=
  State.each_congr State.standing s l f hf

theorem State.when_standing (s : State) (c : Bool) {f : State → State} (hf : (f s).standing = s.standing) :
    (s.when c f).standing = s.standing := by
  cases c
  · rfl
  · exact hf

theorem State.modPair_standing (s : State) (p : Nat) (f : Pair → Pair) : (s.modPair p f).standing = s.standing := rfl

theorem State.modMove_standing (s : State) (h : Nat) (f : Move → Move) : (s.modMove h f).standing = s.standing := rfl

theorem State.modFq_standing (s : State) (slot : Nat) (f : FqRo → FqRo) : (s.modFq slot f).standing = s.standing := rfl

/-! ### Records -/

theorem State.fqWrite_standing (s : State) (slot : Nat) (hf : Nat × Nat) (kind code : Nat) (ctx : Ctx) (cid : Cid) (body : Bytes) :
    (s.fqWrite slot hf kind code ctx cid body).standing = s.standing := by
  unfold State.fqWrite
  dsimp only
  refine (State.when_standing _ _ (State.msix_within _ _ _ _).standing_eq).trans ((State.modFq_standing _ _ _).trans ?_)
  exact (s.hostWrite_within _ _ _ _ _).standing_eq

theorem State.moduleRecord_standing (s : State) (cid : Cid) (cls resource : Nat) :
    (s.moduleRecord cid cls resource).standing = s.standing := by
  have hdrop : ∀ slot, (((s.fqDrop slot).modFq slot fun x => { x with movf := true }).pulse 856).standing = s.standing :=
    fun slot => (State.pulse_within _ _).standing_eq
  unfold State.moduleRecord
  cases s.slotOf cid with
  | none => rfl
  | some slot =>
    dsimp only
    cases s.fqTarget cid slot with
    | none => exact hdrop slot
    | some hf => exact State.ite_standing (fun _ => hdrop slot) fun _ => s.fqWrite_standing _ _ _ _ _ _ _

theorem State.moduleRecords_standing (s : State) (cids : List Cid) (cls resource : Nat) :
    (s.moduleRecords cids cls resource).standing = s.standing :=
  (State.pulse_within _ _).standing_eq.trans (s.each_standing cids fun s _ => s.moduleRecord_standing _ _ _)

/-! ### Guarantees and failed pairs -/

theorem State.setPairSt_standing (s : State) (p : Nat) (st : PairSt) : (s.setPairSt p st).standing = s.standing := by
  have h : ((s.modPair p fun x => { x with st := st }).pulse (640 + p)).standing = s.standing :=
    (State.pulse_within _ _).standing_eq
  unfold State.setPairSt
  exact State.ite_standing (fun _ => rfl) fun _ => State.ite_standing (fun _ => h) fun _ =>
    (State.moduleRecords_standing _ _ _ _).trans h

theorem State.setRegGuar_standing (s : State) (slot : Nat) (r : GuarRes) (g : Nat) :
    (s.setRegGuar slot r g).standing = s.standing := by
  unfold State.setRegGuar
  cases r with
  | tile l =>
    dsimp only
    cases s.physTile l <;> rfl
  | pair l => rfl
  | port p rx => rfl

theorem State.setCurrent_standing (s : State) (slot : Nat) (cid : Cid) (r : GuarRes) (g : Nat) :
    (s.setCurrent slot cid r g).standing = s.standing := by
  unfold State.setCurrent
  refine State.ite_standing (fun _ => rfl) fun _ => ?_
  refine State.ite_standing (fun _ => ?_) fun _ => ?_
  all_goals
    refine (State.pulse_within _ _).standing_eq.trans ((State.notifyCid_within _ _ _ _).standing_eq.trans ?_)
    exact State.setRegGuar_standing _ _ _ _

theorem State.regauge_standing (s : State) (r : GuarRes) : (s.regauge r).standing = s.standing :=
  s.each_standing _ fun s g => by
    cases s.slotOf g.1 with
    | some slot => exact s.setCurrent_standing _ _ _ _
    | none => rfl

theorem State.regaugeHalf_standing (s : State) (half : Nat) : (s.regaugeHalf half).standing = s.standing :=
  s.each_standing _ fun s _ => s.regauge_standing _

theorem State.spareUp_standing (s : State) (half : Nat) : (s.spareUp half).standing = s.standing := by
  unfold State.spareUp
  refine State.ite_standing (fun _ => rfl) fun _ => ?_
  dsimp only
  split
  · exact s.setPairSt_standing _ _
  · rfl

theorem State.settleStripe_standing (s : State) (p line : Nat) : (s.settleStripe p line).standing = s.standing := by
  unfold State.settleStripe
  exact State.ite_standing (fun _ => rfl) fun _ => rfl

theorem State.zeroShare_standing (s : State) (p lo hi : Nat) : (s.zeroShare p lo hi).standing = s.standing :=
  s.each_standing _ fun s l => State.ite_standing
    (fun _ => (State.xorCheck_within _ _ _ _).standing_eq.trans (s.settleStripe_standing p l)) fun _ => s.settleStripe_standing p l

theorem State.copyRange_standing (s : State) (a b lo hi : Nat) (found : List (Nat × Ecc)) :
    (s.copyRange a b lo hi found).standing = s.standing :=
  (State.swapRegions_within _ _ _ _ _).standing_eq.trans
    (State.each_standing s _ fun s _ => (s.putLine_within _ _ _).standing_eq)

theorem State.moveAborts_standing (s : State) (half : Nat) : (s.moveAborts half).standing = s.standing := by
  unfold State.moveAborts
  refine (State.opDone_within _ _ _ _ _ _ _).standing_eq.trans ?_
  exact (State.when_standing _ _ rfl).trans (s.copyRange_standing _ _ _ _ _)

theorem State.pairFailed_standing (s : State) (p : Nat) : (s.pairFailed p).standing = s.standing := by
  unfold State.pairFailed
  refine State.ite_standing (fun _ => rfl) fun _ => ?_
  dsimp only
  refine (State.regaugeHalf_standing _ _).trans ((State.spareUp_standing _ _).trans ?_)
  have hd := s.setPairSt_standing p .degraded
  refine State.ite_standing (fun _ => ?_) fun _ => State.ite_standing (fun _ => ?_) fun _ => hd
  · refine (State.zeroShare_standing _ _ _ _).trans ((State.modPair_standing _ _ _).trans ((State.setPairSt_standing _ _ _).trans ?_))
    exact (State.opDone_within _ _ _ _ _ _ _).standing_eq.trans ((State.modMove_standing _ _ _).trans hd)
  · exact (State.moveAborts_standing _ _).trans hd

/-! ### Lines -/

theorem State.dramPoison_standing (s : State) (p line : Nat) : (s.dramPoison p line).standing = s.standing := by
  have h : ((s.modPair p fun x => { x with poison := Tab.insert x.poison line true, ue := satInc x.ue }).pulse
      (544 + p / 4)).standing = s.standing := (State.pulse_within _ _).standing_eq
  unfold State.dramPoison
  exact State.ite_standing (fun _ => (State.pairFailed_standing _ _).trans h) fun _ => h

theorem State.dramRebuilt_standing (s : State) (p : Nat) : (s.dramRebuilt p).standing = s.standing := by
  have h : ((s.modPair p fun x => { x with rebuilt := satInc x.rebuilt, rebuiltPeriod := x.rebuiltPeriod + 1 }).pulse
      (544 + p / 4)).standing = s.standing := (State.pulse_within _ _).standing_eq
  unfold State.dramRebuilt
  exact State.ite_standing (fun _ => (State.pairFailed_standing _ _).trans h) fun _ => h

theorem State.linkRetried_standing (s : State) (p : Nat) (ecc : Ecc) : (s.linkRetried p ecc).standing = s.standing :=
  State.ite_standing (fun _ => rfl) fun _ => rfl

theorem State.dramFetch_standing (s : State) (p line : Nat) (ecc : Ecc) : (s.dramFetch p line ecc).2.2.standing = s.standing := by
  have h := s.linkRetried_standing p ecc
  unfold State.dramFetch
  dsimp only
  split
  · rfl
  split
  · exact (State.dramPoison_standing _ _ _).trans h
  split
  · split
    · refine (State.dramRebuilt_standing _ _).trans (State.ite_standing (fun _ => ?_) fun _ =>
        (State.storeLine_within _ _ _).standing_eq.trans ?_) <;>
      exact (State.settleStripe_standing _ _ _).trans h
    · exact (State.dramPoison_standing _ _ _).trans h
  · exact h

theorem State.oldLine_standing (s : State) (p line : Nat) (ecc : Ecc) : (s.oldLine p line ecc).2.standing = s.standing := by
  have h := s.linkRetried_standing p ecc
  unfold State.oldLine
  simp only [apply_ite Prod.snd]
  refine State.ite_standing (fun _ => State.ite_standing (fun _ => (State.dramRebuilt_standing _ _).trans ?_) fun _ => ?_)
    fun _ => h <;>
  exact (State.settleStripe_standing _ _ _).trans h

theorem State.dramStore_standing (s : State) (p line : Nat) (old new : Line) : (s.dramStore p line old new).standing = s.standing := by
  unfold State.dramStore
  refine (State.ite_standing (fun _ => rfl) fun _ => rfl : (State.pushDelta _ _ _ _).standing = _).trans ?_
  exact State.ite_standing (fun _ => rfl) fun _ => (State.storeLine_within _ _ _).standing_eq

theorem State.dramWrite_standing (s : State) (p line mpa : Nat) (data : Line) (be : DWord) (ecc : Ecc) :
    (s.dramWrite p line mpa data be ecc).2.standing = s.standing := by
  have hregion : ∀ (v : State) old new (c : Prop) [Decidable c],
      (if c then v.regionWrite p line mpa old new else v).standing = v.standing := fun v old new c _ =>
    State.ite_standing (fun _ => (State.regionWrite_within _ _ _ _ _ _).standing_eq) fun _ => rfl
  unfold State.dramWrite
  simp only [apply_ite Prod.snd]
  refine State.ite_standing (fun _ => rfl) fun _ => State.ite_standing (fun _ => ?_) fun _ =>
    State.ite_standing (fun _ => rfl) fun _ => State.ite_standing (fun _ => s.dramFetch_standing _ _ _) fun _ => ?_
  · exact (hregion _ _ _ _).trans ((State.dramStore_standing _ _ _ _ _).trans (s.oldLine_standing _ _ _))
  · exact (hregion _ _ _ _).trans ((State.dramStore_standing _ _ _ _ _).trans (s.dramFetch_standing _ _ _))

theorem State.placeWrite_standing (s : State) (pl : Place) (mpa : Nat) (data : Line) (be : DWord) (ecc : Ecc) :
    (s.placeWrite pl mpa data be ecc).2.standing = s.standing := by
  cases pl with
  | sram t off => exact (s.sramWrite_within _ _ _ _ _).standing_eq
  | dram _ p line _ => exact s.dramWrite_standing p line _ data be ecc
  | unbacked => rfl

theorem State.writeMpa_standing (s : State) (w : Who) (mpa : Nat) (data : Line) (be : DWord) (ecc : Ecc) :
    (s.writeMpa w mpa data be ecc).2.standing = s.standing := by
  unfold State.writeMpa
  simp only [apply_ite Prod.snd]
  refine State.ite_standing (fun _ => (s.countRefused_within _).standing_eq) fun _ => (State.placeWrite_standing _ _ _ _ _ _).trans ?_
  cases s.place mpa with
  | dram => exact State.ite_standing (fun _ => rfl) fun _ => (s.dlogDevice_within _ _).standing_eq
  | sram => rfl
  | unbacked => rfl

/-! ### Entries of an object table -/

theorem State.mpaStore_standing (s : State) (w : Who) (mpa n v : Nat) : (s.mpaStore w mpa n v).2.standing = s.standing :=
  s.writeMpa_standing _ _ _ _ _

theorem State.objSetState_standing (s : State) (cid : Cid) (i st gen : Nat) : (s.objSetState cid i st gen).standing = s.standing := by
  unfold State.objSetState
  cases s.objTab cid with
  | none => rfl
  | some t => exact s.mpaStore_standing _ _ _ _

theorem State.objSetRefs_standing (s : State) (cid : Cid) (i refs : Nat) : (s.objSetRefs cid i refs).standing = s.standing := by
  unfold State.objSetRefs
  cases s.objTab cid with
  | none => rfl
  | some t => exact s.mpaStore_standing _ _ _ _

theorem State.takeRef_standing (s : State) (cid : Cid) (i : Nat) : (s.takeRef cid i).standing = s.standing := by
  unfold State.takeRef
  cases s.objEntry cid i with
  | some e => exact s.objSetRefs_standing _ _ _
  | none => rfl

/-! ### What ends commands -/

/-- No resource between two bindings changes, and no queue gains a command. -/
structure Drops (s u : State) : Prop where
  res : u.brd.res = s.brd.res
  cmds : ∀ e, (u.qRo e).cmds ⊆ (s.qRo e).cmds

namespace Drops

theorem refl (s : State) : Drops s s := ⟨rfl, fun _ => List.Subset.refl _⟩

/-- An operation after others. -/
theorem after {s t u : State} (k : Drops t u) (h : Drops s t) : Drops s u :=
  ⟨k.res.trans h.res, fun e => List.Subset.trans (k.cmds e) (h.cmds e)⟩

theorem of_standing {s u : State} (h : u.standing = s.standing) : Drops s u := by
  obtain ⟨-, hrest⟩ := Prod.mk.inj h
  obtain ⟨hres, hq⟩ := Prod.mk.inj hrest
  exact ⟨hres, fun e => by rw [State.qRo, hq]; exact List.Subset.refl _⟩

theorem each {α : Type} (s : State) (l : List α) (f : State → α → State) (hf : ∀ s x, Drops s (f s x)) : Drops s (s.each l f) := by
  induction l generalizing s with
  | nil => exact refl s
  | cons x l ih => exact (ih (f s x)).after (hf s x)

theorem ite {s a b : State} {c : Prop} [Decidable c] (ha : c → Drops s a) (hb : ¬c → Drops s b) :
    Drops s (if c then a else b) := by
  split
  · exact ha ‹_›
  · exact hb ‹_›

/-- A change of a queue that adds no command. -/
theorem modQ (s : State) (e : Nat) (f : QRo → QRo) (hf : ∀ r, (f r).cmds ⊆ r.cmds) : Drops s (s.modQ e f) := by
  refine ⟨rfl, fun j => ?_⟩
  rw [State.qRo_modQ]
  split
  · rename_i h
    rw [h]
    exact hf _
  · exact List.Subset.refl _

end Drops

theorem State.unitSend_standing (s : State) (stop : Nat) (p : Packet) (via : Nat × Nat) :
    (s.unitSend stop p via).standing = s.standing := by
  unfold State.unitSend
  cases s.freeTag stop <;> rfl

theorem State.parserWrite_standing (s : State) (home : Nat) (cid : Cid) (ctx : Ctx) (dva n v : Nat) :
    (s.parserWrite home cid ctx dva n v).2.standing = s.standing := by
  unfold State.parserWrite
  generalize s.walk cid ctx dva = x
  cases x with
  | hit e =>
    dsimp only
    generalize e.target dva = m
    cases m with
    | localMpa m => exact s.mpaStore_standing _ _ _ _
    | host a =>
      dsimp only
      cases s.hostWay cid with
      | some hf =>
        dsimp only
        exact (s.hostWrite_within _ _ _ _ _).standing_eq
      | none => rfl
    | window fa =>
      dsimp only
      exact s.unitSend_standing _ _ _
  | _ => rfl

theorem State.queueRecord_standing (s : State) (e code index tag info : Nat) (pkt : BitVec 256) (ctx : Ctx) :
    (s.queueRecord e code index tag info pkt ctx).standing = s.standing := by
  unfold State.queueRecord
  dsimp only
  cases s.fqTarget (s.qCid e) (s.qSh e).slot.toNat with
  | some hf => exact State.ite_standing (fun _ => s.fqWrite_standing _ _ _ _ _ _ _) fun _ => rfl
  | none => rfl

theorem State.breakQueue_drops (s : State) (e index : Nat) : Drops s (s.breakQueue e index) := by
  unfold State.breakQueue
  refine .ite (fun _ => .refl s) fun _ => ?_
  refine Drops.after (.of_standing ((State.queueRecord_standing _ _ _ _ _ _ _ _).trans (State.parserWrite_standing _ _ _ _ _ _ _))) ?_
  exact .modQ s e _ fun _ => List.Subset.refl _

theorem State.completionWrite_drops (s : State) (e : Nat) (index : Word) (tag status info : Nat) (irq : Bool) :
    Drops s (s.completionWrite e index tag status info irq) := by
  unfold State.completionWrite
  refine .ite (fun _ => (State.breakQueue_drops _ _ _).after (.of_standing (s.parserWrite_standing _ _ _ _ _ _))) fun _ => ?_
  exact .of_standing ((State.when_standing _ _ (State.msix_within _ _ _ _).standing_eq).trans (s.parserWrite_standing _ _ _ _ _ _))

/-- A queue without a command and its wait, as the command's end leaves it (R370). -/
def State.withoutCmd (s : State) (e : Nat) (index : Word) : State :=
  (s.modQ e fun r => { r with cmds := r.cmds.filter fun c => decide (c.index ≠ index) }).modQue fun q =>
    { q with waits := q.waits.filter fun w => decide (w.who ≠ .queue e index) }

theorem State.withoutCmd_drops (s : State) (e : Nat) (index : Word) :
    Drops s (s.withoutCmd e index) ∧ gone (s.withoutCmd e index) e index := by
  have hq : ∀ j, (s.withoutCmd e index).qRo j =
      (s.modQ e fun r => { r with cmds := r.cmds.filter fun c => decide (c.index ≠ index) }).qRo j := fun _ => rfl
  refine ⟨⟨rfl, fun j => ?_⟩, fun d hd => ?_⟩
  · rw [hq]
    exact (Drops.modQ s e (fun r => { r with cmds := r.cmds.filter fun c => decide (c.index ≠ index) })
      fun _ => List.filter_subset_self _).cmds j
  · rw [hq, State.qRo_modQ, if_pos rfl] at hd
    simpa using (List.mem_filter.mp hd).2

/-- The command that ends stands no more. -/
theorem State.endCmd_drops (s : State) (e : Nat) (index : Word) (status info : Nat) (write : Bool) :
    Drops s (s.endCmd e index status info write) ∧ gone (s.endCmd e index status info write) e index := by
  unfold State.endCmd
  cases hcmd : s.cmd e index with
  | none => exact ⟨.refl s, fun d hd => by simpa using List.find?_eq_none.mp hcmd d hd⟩
  | some c =>
    dsimp only
    have hends := State.withoutCmd_drops s e index
    split
    · have hwrite := State.completionWrite_drops (s.withoutCmd e index) e index (pktTag c.pkt) status info (pktIrq c.pkt)
      exact ⟨hwrite.after hends.1, fun d hd => hends.2 d (hwrite.cmds e hd)⟩
    · exact hends

end Sys2Proof.Machine
end

section
/-! SUPPORT. The start and the end of a coder job (R179 to R183): the command it stands for, and that command's end with the
references it held. -/

set_option Elab.async false

namespace Sys2Proof.Machine

/-! ### References that are released -/

theorem State.freeDone_drops (s : State) (cid : Cid) (i : Nat) : Drops s (s.freeDone cid i) := by
  unfold State.freeDone
  cases s.objEntry cid i with
  | none => exact .refl s
  | some x =>
    refine .ite (fun _ => ?_) fun _ => .refl s
    have hset : Drops s (s.objSetState cid i 0 (if x.gen = 255 then 1 else x.gen + 1)) := .of_standing (s.objSetState_standing _ _ _ _)
    dsimp only
    split
    · exact (State.endCmd_drops _ _ _ _ _ _).1.after hset
    · exact hset

theorem State.wakeRefs_standing (s : State) (cid : Cid) : (s.wakeRefs cid).standing = s.standing :=
  (s.wakeRefs_within cid).standing_eq

theorem State.dropRef_drops (s : State) (cid : Cid) (i : Nat) : Drops s (s.dropRef cid i) := by
  unfold State.dropRef
  cases s.objEntry cid i with
  | none => exact .refl s
  | some x =>
    refine (Drops.of_standing (State.wakeRefs_standing _ _)).after ((State.freeDone_drops _ _ _).after ?_)
    exact .of_standing (s.objSetRefs_standing _ _ _)

/-- A command that completes stands no more (R370). -/
theorem State.complete_gone (s : State) (e : Nat) (index : Word) (status info : Nat) (write : Bool) :
    gone (s.complete e index status info write) e index := by
  unfold State.complete
  cases hcmd : s.cmd e index with
  | none => exact fun d hd => by simpa using List.find?_eq_none.mp hcmd d hd
  | some c =>
    have hend := (s.endCmd_drops e index status info write).2
    have hdrop := fun l => Drops.each (s.endCmd e index status info write) l _ fun v i => v.dropRef_drops (s.qCid e) i
    exact fun d hd => hend d ((hdrop _).cmds e hd)

/-! ### The command of a job -/

theorem State.cmd_index {s : State} {e : Nat} {index : Word} {c : QCmd} (h : s.cmd e index = some c) : c.index = index := by
  simpa using List.find?_some h

theorem State.cmd_of_startDue {s : State} {e opc : Nat} {index : Word} {c : QCmd} (h : s.startDue e index opc = some c) :
    s.cmd e index = some c := by
  unfold State.startDue at h
  cases hcmd : s.cmd e index with
  | none => simp [hcmd] at h
  | some d =>
    simp only [hcmd, Option.ite_none_right_eq_some] at h
    exact h.2

/-- A command that is changed under its index stands changed. -/
theorem State.cmd_modCmd {s : State} {e : Nat} {index : Word} {f : QCmd → QCmd} {c : QCmd} (h : s.cmd e index = some c)
    (hf : ∀ d, (f d).index = d.index) : (s.modCmd e index f).cmd e index = some (f c) := by
  have hpred : (fun d => decide (d.index = index)) ∘ (fun d : QCmd => if d.index = index then f d else d)
      = fun d => decide (d.index = index) := by
    funext d
    simp only [Function.comp_apply]
    split
    · rw [hf]
    · rfl
  unfold State.cmd State.modCmd
  rw [State.qRo_modQ, if_pos rfl, List.find?_map, hpred]
  unfold State.cmd at h
  rw [h, Option.map_some, if_pos (State.cmd_index h)]

/-- A command that has started stands so, with its time. -/
theorem State.cmd_started {s : State} {e : Nat} {index : Word} {c : QCmd} (h : s.cmd e index = some c) :
    (s.started e index).cmd e index = some { c with st := .started, startedAt := s.now } :=
  State.cmd_modCmd h fun _ => rfl

theorem State.cmd_eq_of_standing {s u : State} (h : u.standing = s.standing) (e : Nat) (index : Word) :
    u.cmd e index = s.cmd e index := by
  have hq : u.que.q = s.que.q := congrArg (fun x => x.2.2) h
  unfold State.cmd State.qRo
  rw [hq]

theorem State.jobs_eq_of_standing {s u : State} (h : u.standing = s.standing) : u.lp.jobs = s.lp.jobs :=
  congrArg (fun x => x.1) h

/-! ### The job -/

theorem coderJobsStart : Stated.CoderJobsStart := by
  intro e index far rest c d es0 es i x s s1 s2 cid ctx at_ mc hdue hgood hdesc hline hcmd1 hspans hres hfits hcmd2
  have hindex : c.index = index := State.cmd_index (State.cmd_of_startDue hdue)
  have hstart : s.coderStart e.val c far = ((s2.started e.val index).takeRef cid i).modLp fun m =>
      { m with jobs := m.jobs ++ [{ mc := mc, cid := cid, ctx := ctx, desc := d, descAt := at_, fenceRef := i, entry := e.val,
                                    index := index, pages := es0 ++ es }] } := by
    unfold State.coderStart
    simp only [cid, ctx, at_, mc] at hdesc hline hspans hres hfits
    simp only [hdesc, hline, hindex, hcmd1, hgood, Option.getD_some, hspans, hres, hfits, ne_eq, not_true_eq_false, if_false,
      Bool.false_eq_true, Bool.not_true, cid, ctx, at_, mc]
  have hstand := (s2.started e.val index).takeRef_standing cid i
  refine ⟨_, by show execCoder e index far s = _; unfold execCoder; rw [hdue], ?_, ?_⟩
  · rw [hstart]
    exact (State.cmd_eq_of_standing hstand _ _).trans (State.cmd_started hcmd2)
  · rw [hstart]
    show ((s2.started e.val index).takeRef cid i).lp.jobs ++ _ = _
    rw [State.jobs_eq_of_standing hstand]
    rfl

/-- A job ends whose run leaves STATUS `status` in state `s2`, whose STATUS is written and whose fence takes its signal. -/
theorem State.jobDone_completes {s s2 s3 s4 : State} {j : Job} {ecc : Ecc} {far : List Completion} {status n : Nat} {w : Nat × Nat}
    (hcmd : (s.cmd j.entry j.index).isSome = true) (hrun : (withoutJob s j).jobRun j ecc far = (status, w, s2)) (hst : status ≠ 4)
    (hwrite : s2.jobWrite j.mc j.cid j.ctx j.pages (j.descAt + 4) (toBytes 4 status) = (0, s3))
    (hfence : s3.signalRef j.cid j.fenceRef (dF j.desc 0x28 0 64) = some (n, s4)) :
    s.jobDone j ecc far = (s4.dropRef j.cid j.fenceRef).complete j.entry j.index 0 0 true := by
  have hwithout : (s.modLp fun m => { m with jobs := m.jobs.filter fun k => decide (k ≠ j) }) = withoutJob s j := rfl
  have hstands : ((withoutJob s j).cmd j.entry j.index).isNone = false := by
    rw [← Option.not_isSome]
    exact congrArg not hcmd
  unfold State.jobDone
  rw [hwithout]
  simp only [hstands, hrun, hwrite, hfence, hst, Bool.false_eq_true, if_false, ne_eq, not_true_eq_false]

theorem State.jobDone_does {s s2 s3 s4 : State} {j : Job} {mc : Fin 48} {ecc : Ecc} {far : List Completion} {status n : Nat}
    {w : Nat × Nat} (hjob : (s.lp.jobs.find? fun j => decide (j.mc = mc.val)) = some j)
    (hcmd : (s.cmd j.entry j.index).isSome = true) (hrun : (withoutJob s j).jobRun j ecc far = (status, w, s2)) (hst : status ≠ 4)
    (hwrite : s2.jobWrite j.mc j.cid j.ctx j.pages (j.descAt + 4) (toBytes 4 status) = (0, s3))
    (hfence : s3.signalRef j.cid j.fenceRef (dF j.desc 0x28 0 64) = some (n, s4)) :
    Does (.coderJobDone mc ecc far) s fun u =>
      u = (s4.dropRef j.cid j.fenceRef).complete j.entry j.index 0 0 true ∧ gone u j.entry j.index := by
  refine ⟨_, ?_, rfl, State.complete_gone _ _ _ _ _ _⟩
  show execCoderJobDone mc ecc far s = _
  unfold execCoderJobDone
  rw [hjob]
  exact congrArg _ (State.jobDone_completes hcmd hrun hst hwrite hfence)

/-- An encode that reads its whole source and whose region is taken ends with STATUS 0 (R181, R182). -/
theorem State.encodeJob_whole {s s1 s2 : State} {j : Job} {ecc : Ecc} {far rest : List Completion} {src : Bytes}
    (hread : s.jobLines j.mc j.cid j.ctx j.pages far ecc (ceilDiv (jLen j.desc) 64) (jSrc j.desc) = (src, 0, s1, rest))
    (hout : s1.jobOut j 0 (encodeRegion (jFmt j.desc) (src.take (jLen j.desc))) = ((0, 0), s2)) :
    s.encodeJob j ecc far = (0, (0, 0), s2) := by
  unfold State.encodeJob State.jobEnd
  simp [hread, hout]

theorem coderJobsEnd : Stated.CoderJobsEnd := by
  intro mc ecc far j s hjob hcmd hsound
  dsimp only
  have hearly : (withoutJob s j).early = false := hsound
  refine ⟨fun src rest s1 s2 hgood hop hread hout s3 s4 n hwrite hfence => ?_,
    fun status hst w s2 hgood hrun s3 s4 n hwrite hfence => ?_, fun hbad s3 s4 n hwrite hfence => ?_⟩
  · have hrun : (withoutJob s j).jobRun j ecc far = (0, (0, 0), s2) := by
      unfold State.jobRun
      simp only [hearly, hgood, hop, Bool.false_eq_true, if_false]
      exact State.encodeJob_whole hread hout
    exact State.jobDone_does hjob hcmd hrun (by decide) hwrite hfence
  · exact State.jobDone_does hjob hcmd hrun hst hwrite hfence
  · have hrun : (withoutJob s j).jobRun j ecc far = (1, (0, 0), (withoutJob s j).modLp fun m =>
        { m with mcErr := Tab.insert m.mcErr j.mc (Tab.get (fun _ => ({} : ErrReg)) s.lp.mcErr j.mc).refuse }) := by
      unfold State.jobRun
      simp only [hearly, hbad, Bool.false_eq_true, if_false, if_true]
      rfl
    exact State.jobDone_does hjob hcmd hrun (by decide) hwrite hfence

/-- Settles O32: a command that starts keeps its place and its job joins its controller's; a job's end is what its run, its
STATUS write and its fence leave, and the completion takes the command away. -/
theorem coderJobs : Obligations.CoderJobs := ⟨coderJobsStart, coderJobsEnd⟩

end Sys2Proof.Machine
end

section
/-! SUPPORT. The end of a rebuild and of a move's copy (R173, R238): what they leave of the configuration of memory, and the
switch that is prepared. The end of the source's clear (R240). -/

set_option Elab.async false

namespace Sys2Proof.Machine

/-! ### Copies and rebuilds leave the configuration of memory -/

theorem State.modPair_sh (s : State) (p : Nat) (f : Pair → Pair) : (s.modPair p f).lp.sh = s.lp.sh := rfl

theorem State.passMarks_sh (s : State) (a b lo hi : Nat) (more : List Nat) : (s.passMarks a b lo hi more).lp.sh = s.lp.sh := rfl

theorem State.copyRange_sh (s : State) (a b lo hi : Nat) (found : List (Nat × Ecc)) :
    (s.copyRange a b lo hi found).lp.sh = s.lp.sh := by
  unfold State.copyRange
  dsimp only
  rw [(State.swapRegions_within _ _ _ _ _).lp_eq (by decide), State.passMarks_sh]
  exact State.each_congr (fun v => v.lp.sh) s _ _ fun v l => by rw [(v.putLine_within _ _ _).lp_eq (by decide)]

theorem State.settleStripe_sh (s : State) (p line : Nat) : (s.settleStripe p line).lp.sh = s.lp.sh := by
  unfold State.settleStripe
  dsimp only
  split
  · rfl
  · rfl

theorem State.zeroShare_sh (s : State) (p lo hi : Nat) : (s.zeroShare p lo hi).lp.sh = s.lp.sh := by
  refine State.each_congr (fun v => v.lp.sh) s _ _ fun v l => ?_
  dsimp only
  split
  · rw [(State.xorCheck_within _ _ _ _).lp_eq (by decide)]
    exact v.settleStripe_sh _ _
  · exact v.settleStripe_sh _ _

theorem State.rebuildTo_sh (s : State) (p d hi : Nat) (found : List (Nat × Ecc)) : (s.rebuildTo p d hi found).lp.sh = s.lp.sh := by
  have hrange : (s.rebuildRange p d (s.pair p).cursor hi found).lp.sh = s.lp.sh := by
    unfold State.rebuildRange
    exact (State.zeroShare_sh _ _ _ _).trans (s.copyRange_sh _ _ _ _ _)
  unfold State.rebuildTo
  dsimp only
  generalize s.rebuildRange p d (s.pair p).cursor hi found = v at *
  rw [State.modPair_sh]
  exact (State.each_congr (fun v => v.lp.sh) v _ _ fun v l => by rw [(v.linePoisoned_within _ _).lp_eq (by decide)]).trans hrange

theorem Within.c0_eq {M : List Block} {s u : State} (h : Within M s u) (hM : M.contains .boot = false := by decide) :
    u.c0 = s.c0 := by
  unfold State.c0 State.big
  rw [h.boot_eq hM]

theorem Within.moveH_eq {M : List Block} {s u : State} (h : Within M s u) (p : Nat) (hM : M.contains .brd = false := by decide) :
    u.moveH p = s.moveH p := by
  unfold State.moveH
  rw [h.brd_eq hM]

theorem Within.byte_eq {M : List Block} {s u : State} (h : Within M s u) (k : Nat) (hM : M.contains .mem = false := by decide) :
    u.byte k = s.byte k := by
  unfold State.byte
  rw [h.mem_eq hM]

theorem State.c0_pos (s : State) : 0 < s.c0 := by
  unfold State.c0
  split <;> omega

/-- REBUILD_PCT of a rebuild that has covered its pair (R189). -/
theorem State.rebuildShare_c0 (s : State) : s.rebuildShare s.c0 = 100 := by
  unfold State.rebuildShare
  rw [Nat.mul_div_cancel _ s.c0_pos]
  rfl

/-- A rebuild that goes on to line `hi` leaves its share and its cursor there (R173, R189). -/
theorem State.rebuildTo_pair (s : State) (p d hi : Nat) (found : List (Nat × Ecc)) :
    ((s.rebuildTo p d hi found).pair p).rebuildPct = s.rebuildShare hi ∧ ((s.rebuildTo p d hi found).pair p).cursor = hi := by
  have hshare : ∀ v : State, v.c0 = s.c0 → v.rebuildShare hi = s.rebuildShare hi := fun v hv => by
    unfold State.rebuildShare
    rw [hv]
  unfold State.rebuildTo
  dsimp only
  rw [State.pair_modPair, if_pos rfl]
  refine ⟨hshare _ ?_, rfl⟩
  exact (State.each_congr State.c0 _ _ _ fun v l => (v.linePoisoned_within _ _).c0_eq).trans
    (s.rebuildRange_within _ _ _ _ _).c0_eq

/-! ### The switch of two pairs -/

/-- The values that Itlum prepares for a switch are pending and held; those in force stay (R173, R238). -/
theorem State.prepareSwitch_spec (s : State) (c : Change) (a b : Nat) :
    (s.prepareSwitch c a b).itl.held = some { change := c } ∧
    (s.prepareSwitch c a b).lp.sh.acc = some (s.lp.sh.pend.swapPairs a b) ∧ (s.prepareSwitch c a b).lp.sh.act = s.lp.sh.act ∧
    (s.prepareSwitch c a b).lp.pairs = s.lp.pairs := ⟨rfl, rfl, rfl, rfl⟩

/-- What a rebuild leaves as it ends (R173). -/
theorem State.rebuildEnds_spec (s : State) (p d : Nat) (found : List (Nat × Ecc)) :
    (s.rebuildEnds p d found).itl.held = some { change := .rebuilt p d (s.pairCids p) } ∧
    (s.rebuildEnds p d found).lp.sh.acc = some (s.lp.sh.pend.swapPairs p d) ∧
    (s.rebuildEnds p d found).lp.sh.act = s.lp.sh.act ∧
    ((s.rebuildEnds p d found).pair p).rebuildPct = 100 ∧ ((s.rebuildEnds p d found).pair p).cursor = s.c0 ∧
    ∀ o < s.c0 * 64, (s.rebuildEnds p d found).byte (pairKey p o) = 0 := by
  unfold State.rebuildEnds
  dsimp only
  have hsh := s.rebuildTo_sh p d s.c0 found
  obtain ⟨hshare, hcursor⟩ := s.rebuildTo_pair p d s.c0 found
  have hc0 : (s.rebuildTo p d s.c0 found).c0 = s.c0 := (s.rebuildTo_within _ _ _ _).c0_eq
  generalize s.rebuildTo p d s.c0 found = v at *
  obtain ⟨hheld, hacc, hact, hpairs⟩ := (v.clearMem (pairKey p 0) (v.c0 * 64)).prepareSwitch_spec (.rebuilt p d (s.pairCids p)) p d
  have hclear : (v.clearMem (pairKey p 0) (v.c0 * 64)).lp = v.lp := (v.clearMem_within _ _).lp_eq (by decide)
  rw [hclear] at hacc hact hpairs
  have hpair := State.pair_congr hpairs p
  rw [hheld, hacc, hact, hpair, hsh, hshare, hcursor]
  refine ⟨rfl, rfl, rfl, s.rebuildShare_c0, rfl, fun o ho => ?_⟩
  rw [(State.prepareSwitch_within _ _ _ _).byte_eq, State.byte_clearMem, hc0, if_pos]
  simp only [pairKey]
  omega

theorem rebuildSwitch (p : PairIx) (d : Nat) (found : List (Nat × Ecc)) (s : State) (hst : (s.pair p.val).st = .rebuilding)
    (hto : (s.pair p.val).rebuildTo = some d) (hchange : s.canChange (s.pairCids p.val) = true)
    (hpct : (s.pair p.val).rebuildPct ≠ 100) :
    exec (.pairRebuildDone (p, found)) s = .next (s.rebuildEnds p.val d found) := by
  show execPairRebuildDone (p, found) s = _
  unfold execPairRebuildDone
  simp only [hst, hto]
  exact if_neg (not_or.mpr ⟨by simp [hchange], hpct⟩)

/-- What the copy of a move leaves as it ends (R238). -/
theorem State.copyEnds_spec (s : State) (h : Nat) (found : List (Nat × Ecc)) :
    (s.copyEnds h found).itl.held =
      some { change := .pairSwitch h (s.moveH h).src.toNat (s.moveH h).dst.toNat (s.pairCids (s.moveH h).src.toNat) } ∧
    (s.copyEnds h found).lp.sh.acc = some (s.lp.sh.pend.swapPairs (s.moveH h).src.toNat (s.moveH h).dst.toNat) ∧
    (s.copyEnds h found).lp.sh.act = s.lp.sh.act ∧ ((s.copyEnds h found).moveH h).st = .switching ∧
    ((s.copyEnds h found).moveH h).cursor = BitVec.ofNat 27 s.c0 := by
  unfold State.copyEnds State.copyTo
  dsimp only
  have hsh := s.copyRange_sh (s.moveH h).src.toNat (s.moveH h).dst.toNat (s.moveH h).cursor.toNat s.c0 found
  generalize s.copyRange (s.moveH h).src.toNat (s.moveH h).dst.toNat (s.moveH h).cursor.toNat s.c0 found = v at *
  set w := (v.modMove h fun m => { m with cursor := BitVec.ofNat 27 s.c0 }).modMove h fun m => { m with st := .switching }
  have hw : w.lp.sh = s.lp.sh := hsh
  have hmove : w.moveH h = { v.moveH h with cursor := BitVec.ofNat 27 s.c0, st := .switching } := by
    rw [State.moveH_modMove, if_pos rfl, State.moveH_modMove, if_pos rfl]
  clear_value w
  obtain ⟨hheld, hacc, hact, -⟩ := w.prepareSwitch_spec (.pairSwitch h (s.moveH h).src.toNat (s.moveH h).dst.toNat
    (s.pairCids (s.moveH h).src.toNat)) (s.moveH h).src.toNat (s.moveH h).dst.toNat
  have hkeeps := (w.prepareSwitch_within (.pairSwitch h (s.moveH h).src.toNat (s.moveH h).dst.toNat
    (s.pairCids (s.moveH h).src.toNat)) (s.moveH h).src.toNat (s.moveH h).dst.toNat).moveH_eq h
  rw [hheld, hacc, hact, hkeeps, hmove, hw]
  exact ⟨rfl, rfl, rfl, rfl, rfl⟩

theorem moveSwitch (h : Half) (found : List (Nat × Ecc)) (s : State) (hst : (s.moveH h.val).st = .copying)
    (hchange : s.canChange (s.pairCids (s.moveH h.val).src.toNat) = true) :
    exec (.moveCopyDone (h, found)) s = .next (s.copyEnds h.val found) := by
  show execMoveCopyDone (h, found) s = _
  unfold execMoveCopyDone
  exact if_pos ⟨hst, hchange⟩

/-! ### The clear of a pair -/

theorem State.ite_pair_st {c : Prop} [Decidable c] {v w : State} {j : Nat} {x : PairSt} (hv : (v.pair j).st = x)
    (hw : (w.pair j).st = x) : ((if c then v else w).pair j).st = x := by
  split
  · exact hv
  · exact hw

/-- The clear of a line changes no pair's state. -/
theorem State.clearLine_st (s : State) (p line mpa j : Nat) : ((s.clearLine p line mpa).pair j).st = (s.pair j).st := by
  have hfresh : ∀ v : State, ((v.modPair p fun x => x.fresh line).pair j).st = (v.pair j).st := fun v => by
    rw [State.pair_modPair]
    split
    · rename_i h
      rw [h]
      rfl
    · rfl
  unfold State.clearLine
  dsimp only
  generalize (if (s.pair p).failed then s.rebuildLine p line else s.line (pairKey p (line * 64))) = old
  have hcheck : ((((s.modPair p fun x => x.fresh line).clearMem (pairKey p (line * 64)) 64).xorCheck p line old).pair j).st
      = (s.pair j).st := by
    rw [(State.xorCheck_within _ _ _ _).pair_eq, (State.clearMem_within _ _ _).pair_eq, hfresh]
  refine State.ite_pair_st ?_ (State.ite_pair_st ?_ hcheck)
  · rw [hfresh, (s.regionReset_within _).pair_eq]
  · rw [(State.regionWrite_within _ _ _ _ _ _).pair_eq, hcheck]

/-- A clear of a run of lines changes no pair's state. -/
theorem State.clearRun_st (s : State) (p lo hi : Nat) (mpa : Nat → Nat) (j : Nat) :
    ((s.clearRun p lo hi mpa).pair j).st = (s.pair j).st := by
  have hblank : ∀ (v : State) a n, ((v.blankWrites p a n).pair j).st = (v.pair j).st := fun v a n => by
    rw [(v.blankWrites_within _ _ _).pair_eq]
  unfold State.clearRun
  dsimp only
  refine (State.each_congr (fun v => (v.pair j).st) _ _ _ fun v r => ?_).trans ?_
  · refine State.ite_pair_st rfl (State.ite_pair_st ?_ (hblank v _ _))
    rw [hblank, State.clearLine_st]
  · rw [State.pair_modPair]
    have hlines : ∀ ls : List Nat, ((s.each ls fun v l => v.clearLine p l (mpa l)).pair j).st = (s.pair j).st := fun ls =>
      State.each_congr (fun v => (v.pair j).st) s ls _ fun v l => v.clearLine_st _ _ _ _
    split
    · rename_i hj
      subst hj
      exact hlines _
    · exact hlines _

theorem State.clearPair_st (s : State) (p j : Nat) : ((s.clearPair p).pair j).st = (s.pair j).st := s.clearRun_st _ _ _ _ _

/-- A rebuild that starts leaves every pair that is not DEGRADED as it is (R173). -/
theorem State.spareUp_pair (s : State) (half j : Nat) (hj : (s.pair j).st ≠ .degraded) : (s.spareUp half).pair j = s.pair j := by
  unfold State.spareUp
  split
  · rfl
  dsimp only
  split
  · rename_i p d hp hd
    have hdeg : (s.pair p).st = .degraded := by
      have := List.find?_some hp
      simp only [Bool.and_eq_true, decide_eq_true_eq] at this
      exact this.1
    have hne : j ≠ p := fun h => hj (h ▸ hdeg)
    rw [State.pair_modPair, if_neg hne, State.pair_setPairSt, if_neg hne]
  · rfl

/-- What the end of the source's clear leaves of a move whose source is sound (R240). -/
def State.sourceCleared (s : State) (h : Nat) : State :=
  let a := (s.moveH h).src.toNat
  let v := (s.clearPair a).modPair a fun p => { p with clearing := false, poison := [] }
  (((v.setPairSt a .spareReady).spareUp (a / 96)).modMove h fun m => { m with st := .done }).opDone 0x0306 0 h 0 4 0

theorem State.sourceCleared_spec (s : State) (h : Nat) :
    ((s.sourceCleared h).moveH h).st = .done ∧ ((s.sourceCleared h).pair (s.moveH h).src.toNat).st = .spareReady ∧
    ((s.sourceCleared h).pair (s.moveH h).src.toNat).clearing = false ∧
    ((s.sourceCleared h).pair (s.moveH h).src.toNat).poison = [] := by
  unfold State.sourceCleared
  dsimp only
  generalize (s.moveH h).src.toNat = a
  have hv : ((s.clearPair a).modPair a fun p => { p with clearing := false, poison := [] }).pair a =
      { (s.clearPair a).pair a with clearing := false, poison := [] } := by
    rw [State.pair_modPair, if_pos rfl]
  generalize ((s.clearPair a).modPair a fun p => { p with clearing := false, poison := [] }) = v at *
  have hready : (v.setPairSt a .spareReady).pair a = { v.pair a with st := .spareReady } := by
    rw [State.pair_setPairSt, if_pos rfl]
  have hst : ((v.setPairSt a .spareReady).pair a).st ≠ .degraded := by
    rw [hready]
    exact PairSt.noConfusion
  have hspare := (State.spareUp_pair _ (a / 96) a hst).trans hready
  generalize (v.setPairSt a .spareReady).spareUp (a / 96) = w at *
  have hdone := State.opDone_within (w.modMove h fun m => { m with st := .done }) 0x0306 0 h 0 4 0
  rw [hdone.moveH_eq h, hdone.pair_eq, State.moveH_modMove, if_pos rfl, (State.modMove_within _ _ _).pair_eq, hspare, hv]
  exact ⟨rfl, rfl, rfl, rfl⟩

theorem moveEnds (h : Half) (s : State) (hst : (s.moveH h.val).st = .clearing)
    (hsound : (s.pair (s.moveH h.val).src.toNat).failed = false) :
    exec (.pairMoveDone h) s = .next (s.sourceCleared h.val) := by
  have hfailed : (((s.clearPair (s.moveH h.val).src.toNat).modPair (s.moveH h.val).src.toNat fun p =>
      { p with clearing := false, poison := [] }).pair (s.moveH h.val).src.toNat).failed = false := by
    rw [State.pair_modPair, if_pos rfl, ← hsound]
    show decide (((s.clearPair _).pair _).st = .degraded ∨ ((s.clearPair _).pair _).st = .rebuilding) = _
    rw [State.clearPair_st]
    rfl
  show execPairMoveDone h s = _
  unfold execPairMoveDone
  dsimp only
  rw [if_neg (not_not.mpr hst), if_neg (by rw [hfailed]; exact Bool.false_ne_true)]
  rfl

theorem pairsChangePlaces : Stated.PairsChangePlaces :=
  ⟨fun p d found s hst hto hchange hpct => ⟨_, rebuildSwitch p d found s hst hto hchange hpct, s.rebuildEnds_spec p.val d found⟩,
    fun h found s hst hchange => ⟨_, moveSwitch h found s hst hchange, s.copyEnds_spec h.val found⟩,
    fun h s hst hsound => ⟨_, moveEnds h s hst hsound, s.sourceCleared_spec h.val⟩⟩

end Sys2Proof.Machine
end

section
/-! SUPPORT. The end of a resource's clear (R250, R251): the resources between two bindings, and the slot of a composition that
has nothing left. -/

set_option Elab.async false

namespace Sys2Proof.Machine

/-- A change of a collective's entry leaves the resources between two bindings: it moves a reference, and no more. -/
theorem State.collApply_res (s : State) (c : Nat) (e : CollSh) : (s.collApply c e).brd.res = s.brd.res := by
  have htake : ∀ (v : State) i, (v.takeRef e.cid i).brd.res = v.brd.res := fun v i =>
    (Drops.of_standing (v.takeRef_standing _ _)).res
  have hmod : ∀ (v : State) (f : Fab → Fab) (g : CollRun → CollRun), ((v.modFab f).modColl c g).brd.res = v.brd.res :=
    fun _ _ _ => rfl
  unfold State.collApply
  dsimp only
  rw [hmod]
  cases (s.collRun c).fenceRef with
  | none =>
    dsimp only
    split
    · exact htake _ _
    · rfl
  | some i =>
    have hdrop := (s.dropRef_drops (s.collSh c).cid i).res
    dsimp only
    split
    · exact (htake _ _).trans hdrop
    · exact hdrop

/-- A meter record changes its own meter (R254). -/
theorem State.takeMeter_res {s : State} {slot kind : Nat} {r : Bytes × State} (h : s.takeMeter slot kind = some r) :
    r.2.brd.res = s.brd.res := by
  have hsign := s.signDual_within (s.meterBytes slot kind)
  unfold State.takeMeter at h
  dsimp only at h
  cases hd : s.signDual (s.meterBytes slot kind) with
  | none => simp [hd] at h
  | some d =>
    rw [hd, Option.map_some] at h
    obtain rfl := Option.some.inj h
    show d.2.brd.res = s.brd.res
    rw [(hsign.get hd).brd_eq (by decide)]

/-- The freeing of a slot leaves the resources between two bindings (R224). -/
theorem State.freeSlot_res (s : State) (slot : Nat) : (s.freeSlot slot).brd.res = s.brd.res := by
  have hcolls : ∀ (v : State) (l : List Nat), (v.each l fun v c => v.collApply c {}).brd.res = v.brd.res := fun v l =>
    State.each_congr (fun v => v.brd.res) v l _ fun v c => v.collApply_res c {}
  unfold State.freeSlot
  dsimp only
  simp only [State.modRcv_brd, State.modSched_brd, State.modXlt_brd, State.modQue_brd, State.modFab_brd, State.modBrd_brd, hcolls]
  cases hm : s.takeMeter slot 1 with
  | none => rfl
  | some r => exact State.takeMeter_res hm

theorem State.settleSlot_res (s : State) (cid : Cid) : (s.settleSlot cid).brd.res = s.brd.res := by
  unfold State.settleSlot
  cases s.slotOf cid with
  | none => rfl
  | some slot =>
    dsimp only
    split
    · exact s.freeSlot_res slot
    · rfl

/-- The slot of a composition that holds something stays as it is. -/
theorem State.settleSlot_of_image {s : State} {cid : Cid} (h : (s.image cid).entries.isEmpty = false) : s.settleSlot cid = s := by
  unfold State.settleSlot
  cases s.slotOf cid with
  | none => rfl
  | some slot => simp [h]

theorem Within.image_eq {M : List Block} {s u : State} (h : Within M s u) (cid : Cid) (hM : M.contains .brd = false := by decide) :
    u.image cid = s.image cid := by
  unfold State.image
  rw [h.brd_eq hM]

theorem State.setFree_image (s : State) (r : Resource) (cid : Cid) : (s.setFree r).image cid = s.image cid := rfl

theorem State.setFree_byte (s : State) (r : Resource) (k : Nat) : (s.setFree r).byte k = s.byte k := rfl

/-- A resource that is FREE stands no more between two bindings. -/
theorem State.setFree_res (s : State) (r : Resource) : ∀ x ∈ (s.setFree r).brd.res, x.1 ≠ r := fun _ hx =>
  of_decide_eq_true (List.mem_filter.mp hx).2

theorem clearedResourcesAreFree : Stated.ClearedResourcesAreFree := by
  intro r e s hfind hclear
  refine ⟨((s.clearRes r).setFree r).settleSlot e.2.1, ?_, ?_, ?_⟩
  · show execUnitClearDone r s = _
    unfold execUnitClearDone
    rw [hfind]
    exact if_pos hclear
  · rw [State.settleSlot_res]
    exact State.setFree_res _ r
  · rintro t g rfl himage i hi
    have hcleared : (s.clearRes (.granule t g)).image e.2.1 = s.image e.2.1 := (s.clearGranules_within t g 1).image_eq _
    rw [State.settleSlot_of_image (by rw [State.setFree_image, hcleared]; exact himage), State.setFree_byte]
    refine ((s.clearGranules_spec t g 1).1 _).trans (if_pos ?_)
    simp only [sramKey]
    omega

/-- Settles O29: a rebuild or a copy that ends leaves the switch prepared over the configuration as it stood; the source's clear
keeps each pair's state until it is a spare; a cleared resource leaves the list, and the end of a slot adds none to it. -/
theorem pairsAndClearedResources : Obligations.PairsAndClearedResources := ⟨pairsChangePlaces, clearedResourcesAreFree⟩

end Sys2Proof.Machine
end

section
/-! SUPPORT. What a fault leaves of the block XLT (R199, R205 to R207, R355): the look-asides, the counts and what a commit
takes as they were; of the walks and of the page requests some end, and none begins. -/

set_option Elab.async false

namespace Sys2Proof.Machine

/-- XLT but for its walks, its page requests and the indexes of lost ones. -/
def Xlt.besides (x : Xlt) : Xlt := { x with walks := [], mig := [], retired := [] }

/-- Walks and page requests may end, the index of a lost request stays in use, all else of XLT is as it was. -/
structure Sheds (s u : State) : Prop where
  besides : u.xlt.besides = s.xlt.besides
  walks : u.xlt.walks ⊆ s.xlt.walks
  mig : u.xlt.mig ⊆ s.xlt.mig
  retired : s.xlt.retired ⊆ u.xlt.retired

namespace Sheds

theorem of_eq {s u : State} (h : u.xlt = s.xlt) : Sheds s u := by
  constructor <;> rw [h]
  all_goals exact List.Subset.refl _

theorem refl (s : State) : Sheds s s := of_eq rfl

/-- An operation after others. -/
theorem after {s v u : State} (k : Sheds v u) (h : Sheds s v) : Sheds s u :=
  ⟨k.besides.trans h.besides, List.Subset.trans k.walks h.walks, List.Subset.trans k.mig h.mig,
    List.Subset.trans h.retired k.retired⟩

theorem each {α : Type} (s : State) (l : List α) (f : State → α → State) (hf : ∀ s x, Sheds s (f s x)) : Sheds s (s.each l f) := by
  induction l generalizing s with
  | nil => exact refl s
  | cons x l ih => exact (ih (f s x)).after (hf s x)

theorem ite {s a b : State} {c : Prop} [Decidable c] (ha : c → Sheds s a) (hb : ¬c → Sheds s b) :
    Sheds s (if c then a else b) := by
  split
  · exact ha ‹_›
  · exact hb ‹_›

theorem halfLook {s u : State} (h : Sheds s u) (half : Nat) : u.halfLook half = s.halfLook half :=
  congrArg (Tab.get (fun _ => []) · half) (congrArg Xlt.look h.besides :)
theorem migCnt {s u : State} (h : Sheds s u) : u.xlt.migCnt = s.xlt.migCnt := (congrArg Xlt.migCnt h.besides :)
theorem priStopped {s u : State} (h : Sheds s u) : u.xlt.priStopped = s.xlt.priStopped := (congrArg Xlt.priStopped h.besides :)

end Sheds

/-- What does not touch XLT. -/
theorem Within.sheds {M : List Block} {s u : State} (h : Within M s u) (hx : M.contains .xlt = false := by decide) :
    Sheds s u := .of_eq (h.xlt_eq hx)

theorem State.dropMigration_sheds (s : State) (t b : Nat) : Sheds s (s.dropMigration t b) :=
  ⟨rfl, List.filter_subset_self _, List.filter_subset_self _, List.subset_append_left _ _⟩

theorem State.purgeBank_sheds (s : State) (t b : Nat) : Sheds s (s.purgeBank t b) := by
  unfold State.purgeBank
  refine Sheds.ite (fun _ => .refl s) fun _ => ?_
  refine (State.tileSignal_within _ _).sheds.after ((State.modMesh_within _ _).sheds.after ?_)
  refine (State.dropMigration_sheds _ _ _).after ((State.dropBankWaits_within _ _ _).sheds.after ?_)
  exact (Sheds.each _ _ _ fun s c => (s.haltChan_within _ _ _).sheds).after (State.modBank_within s t b _).sheds

theorem State.loseContext_sheds (s : State) (cid : Cid) (ctx : Ctx) (at_ : Option (Nat × Nat)) (seq : Nat) :
    Sheds s (s.loseContext cid ctx at_ seq) := by
  unfold State.loseContext
  cases s.resOf cid ctx with
  | none => exact .refl s
  | some r =>
    refine Sheds.ite (fun _ => .refl s) fun _ => ?_
    have hlost : Sheds s (s.modRes r fun x => { x with lost := true, stalled := false, held := none }) :=
      (s.modRes_within r _).sheds
    have hend : ∀ (f : Nat × QCmd → Nat) (v : State) l, Sheds v (v.each l fun s c =>
        if c.2.st = .freeing then s else s.complete c.1 c.2.index 2 (f c) true) := fun f v l =>
      Sheds.each _ _ _ fun s c => Sheds.ite (fun _ => .refl s) fun _ => (s.complete_within _ _ _ _ _).sheds
    cases at_ with
    | none => exact (hend _ _ _).after ((Sheds.each _ _ _ fun s x => s.purgeBank_sheds _ _).after hlost)
    | some x =>
      refine (State.dropMigration_sheds _ _ _).after ((State.dropBankWaits_within _ _ _).sheds.after ?_)
      exact (hend _ _ _).after ((Sheds.each _ _ _ fun s x => s.purgeBank_sheds _ _).after hlost)

theorem State.ctxFault_sheds (s : State) (cid : Cid) (ctx : Ctx) (kind code : Nat) (body : Bytes) (at_ : Option (Nat × Nat)) :
    Sheds s (s.ctxFault cid ctx kind code body at_) := by
  unfold State.ctxFault
  cases s.resOf cid ctx with
  | none => exact .refl s
  | some r =>
    cases s.slotOf cid with
    | none => exact .refl s
    | some slot =>
      refine Sheds.ite (fun _ => .refl s) fun _ => Sheds.ite (fun _ => (s.fqDrop_within _).sheds) fun _ => ?_
      dsimp only
      cases s.fqTarget cid slot with
      | none => exact (State.loseContext_sheds _ _ _ _ _).after (s.fqDrop_within _).sheds
      | some hf =>
        refine Sheds.ite (fun _ => ?_) fun _ => ?_
        · exact (State.loseContext_sheds _ _ _ _ _).after (s.fqWrite_within _ _ _ _ _ _ _).sheds
        · exact (State.pulse_within _ _).sheds.after
            ((State.modRes_within _ _ _).sheds.after (s.modQue_within _).sheds)

theorem State.tileFault_sheds (s : State) (t b code detail : Nat) : Sheds s (s.tileFault t b code detail) := by
  unfold State.tileFault
  refine Sheds.ite (fun _ => .refl s) fun _ => (State.ctxFault_sheds _ _ _ _ _ _ _).after ?_
  exact (Sheds.ite (fun _ => (State.countLost_within _ _).sheds) fun _ => .refl _).after (s.faultBank_within _ _ _ _).sheds

/-! ### Translation faults of a bank -/

theorem State.xlatFaultBody_sheds (s : State) (t b : Nat) (body : Bytes) : Sheds s (s.xlatFaultBody t b body) := by
  unfold State.xlatFaultBody
  exact Sheds.ite (fun _ => .refl s) fun _ => (State.ctxFault_sheds _ _ _ _ _ _ _).after (s.faultBank_within _ _ _ _).sheds

/-- A bank that holds a context and has no fault yet is FAULTED with code 0x07 (R217). -/
theorem State.bank_xlatFaultBody {s : State} {t b : Nat}
    (h : ¬ ((s.bank t b).st = .empty ∨ (s.bank t b).st = .purging ∨ (s.bank t b).st = .faulted)) (body : Bytes) :
    (s.xlatFaultBody t b body).bank t b = (s.bank t b).faulted 7 0 := by
  have hb := s.bank_faultBank t b 7 0
  unfold State.xlatFaultBody
  rw [if_neg h]
  dsimp only
  rw [← hb]
  exact State.ctxFault_bankStays _ _ _ _ _ _ _ _ (by rw [hb]; rfl)

/-! ### Lost page requests -/

/-- Elements taken away one by one, none of them added again, are gone. -/
theorem State.each_takesAway {α : Type} (g : State → List α) {f : State → α → State} (hsub : ∀ s x, g (f s x) ⊆ g s)
    (hx : ∀ s x, x ∉ g (f s x)) (s : State) (l : List α) : ∀ y ∈ g (s.each l f), y ∈ g s ∧ y ∉ l := by
  induction l generalizing s with
  | nil => exact fun y hy => ⟨hy, List.not_mem_nil⟩
  | cons x l ih =>
    intro y hy
    obtain ⟨hfx, hl⟩ := ih (f s x) y hy
    refine ⟨hsub s x hfx, fun hm => ?_⟩
    obtain rfl | hm := List.mem_cons.mp hm
    · exact hx s y hfx
    · exact hl hm

/-- The state without a page request. -/
def State.requestEnded (s : State) (m : MigReq) : State := s.modXlt fun x => { x with mig := x.mig.filter fun n => decide (n ≠ m) }

/-- A lost request no longer waits; what its loss ends besides is no translation. -/
theorem State.migLost_sheds_rest (s : State) (m : MigReq) (reason : Nat) : Sheds (s.requestEnded m) (s.migLost m reason) := by
  unfold State.migLost
  dsimp only
  cases m.cmd with
  | none => exact State.xlatFaultBody_sheds _ _ _ _
  | some c => exact (State.ctxFault_sheds _ _ _ _ _ _ _).after (State.modCmd_within _ _ _ _).sheds

theorem State.migLost_sheds (s : State) (m : MigReq) (reason : Nat) : Sheds s (s.migLost m reason) :=
  (s.migLost_sheds_rest m reason).after ⟨rfl, List.Subset.refl _, List.filter_subset_self _, List.Subset.refl _⟩

theorem State.migLost_not_mem (s : State) (m : MigReq) (reason : Nat) : m ∉ (s.migLost m reason).xlt.mig := fun h => by
  have hm := (List.mem_filter.mp ((s.migLost_sheds_rest m reason).mig h)).2
  simp at hm

end Sys2Proof.Machine
end

section
/-! SUPPORT. Accesses whose walks have run (R198, R199, R205): states in which every walk ends alike, the translation that
such an access installs, and what its lines leave of it. -/

set_option Elab.async false

namespace Sys2Proof.Machine

/-! ### States in which every walk ends alike -/

/-- Addresses lead to the same lines with the same bytes and keys, and the tables, walk caches and look-asides are the same. -/
structure SameWalks (s u : State) : Prop where
  ways : SameWays s u
  mem : u.mem = s.mem
  cry : u.cry = s.cry
  sh : u.xlt.sh = s.xlt.sh
  wcache : u.xlt.wcache = s.xlt.wcache
  halves : u.xlt.look = s.xlt.look
  look : ∀ j, (u.tile j).look = (s.tile j).look

namespace SameWalks

variable {s u : State}

theorem trans {v : State} (h : SameWalks s u) (k : SameWalks u v) : SameWalks s v :=
  ⟨h.ways.trans k.ways, k.mem.trans h.mem, k.cry.trans h.cry, k.sh.trans h.sh, k.wcache.trans h.wcache,
    k.halves.trans h.halves, fun j => (k.look j).trans (h.look j)⟩

/-- A change of XLT but for its tables, walk caches and look-asides. -/
theorem modXlt (s : State) (f : Xlt → Xlt) (hs : (f s.xlt).sh = s.xlt.sh) (hw : (f s.xlt).wcache = s.xlt.wcache)
    (hl : (f s.xlt).look = s.xlt.look) : SameWalks s (s.modXlt f) :=
  ⟨⟨rfl, rfl, rfl, fun _ => rfl⟩, rfl, rfl, hs, hw, hl, fun _ => rfl⟩

/-- A change of a bank. -/
theorem modBank (s : State) (t b : Nat) (f : Bank → Bank) : SameWalks s (s.modBank t b f) where
  ways := .of_within (s.modBank_within t b f) fun j => by
    rw [State.tile_modBank]
    split
    · rename_i h; subst h; rfl
    · rfl
  mem := rfl
  cry := rfl
  sh := rfl
  wcache := rfl
  halves := rfl
  look j := by
    rw [State.tile_modBank]
    split
    · rename_i h; subst h; rfl
    · rfl

variable (h : SameWalks s u)
include h

theorem slotOf (cid : Cid) : u.slotOf cid = s.slotOf cid := by rw [State.slotOf, h.ways.brd, State.slotOf]

theorem dataEnd : u.dataEnd = s.dataEnd := by rw [State.dataEnd, h.ways.big, State.dataEnd]

theorem keyless (k : Nat) : u.keyless k = s.keyless k := by
  simp only [State.keyless, State.region, State.kidLoaded, h.cry] <;> rfl

theorem targetCheck_dram (w : Who) (a : Acc) (i p line b : Nat) (any : Bool) :
    u.targetCheck w a (.dram i p line b) any = s.targetCheck w a (.dram i p line b) any := by
  simp only [State.targetCheck, State.early, State.unitOwner, h.ways.boot, h.ways.pair, h.sh] <;> rfl

theorem byte (a : Nat) : u.byte a = s.byte a := congrArg (Memory.read · a) h.mem

theorem checkPlace (p line : Nat) : u.checkPlace p line = s.checkPlace p line := by
  simp only [State.checkPlace, State.c0, h.ways.big]

theorem line (a : Nat) : u.line a = s.line a := by
  simp only [State.line, State.bytesAt, h.byte]

theorem rebuildLine (p line : Nat) : u.rebuildLine p line = s.rebuildLine p line := by
  simp only [State.rebuildLine, State.queuedDelta, h.checkPlace, h.line, h.ways.lp]

theorem isProtected (p line : Nat) : u.protected p line = s.protected p line := by
  simp only [State.protected, State.packageLost, State.c0, h.checkPlace, h.ways.big, h.ways.pair, h.ways.lp] <;> rfl

theorem tableRead (cid : Cid) (mpa : Nat) : u.tableRead cid mpa = s.tableRead cid mpa := by
  unfold State.tableRead
  rw [h.ways.place]
  cases s.place mpa with
  | dram i p line b =>
    have hw : u.wordAt (pairKey p (line * 64) + b) 8 = s.wordAt (pairKey p (line * 64) + b) 8 :=
      State.wordAt_congr fun _ _ => h.byte _
    simp only [h.targetCheck_dram, h.ways.pair, h.keyless, h.isProtected, h.rebuildLine, hw]
  | _ => rfl

theorem malformed (l : Nat) (e : DWord) (dva : Nat) : u.malformed l e dva = s.malformed l e dva := by
  simp only [State.malformed, h.dataEnd]

theorem ctxMalformed (v w : DWord) : u.ctxMalformed v w = s.ctxMalformed v w := by
  simp only [State.ctxMalformed, h.dataEnd]

theorem walkBy (rd : TableRd) (cid : Cid) (ctx : Ctx) (dva : Nat) (hostEn : Bool) (l table : Nat) :
    u.walkBy rd cid ctx dva hostEn l table = s.walkBy rd cid ctx dva hostEn l table := by
  induction l generalizing table with
  | zero => rfl
  | succ l ih => simp only [State.walkBy, h.malformed, ih]

theorem cached (half : Nat) (cid : Cid) (ctx : Ctx) (dva l : Nat) :
    u.cached half cid ctx dva l = s.cached half cid ctx dva l := by
  rw [State.cached, State.walkCache, h.wcache, State.cached, State.walkCache]

theorem ctxEntry (cid : Cid) (ctx : Ctx) : u.ctxEntry cid ctx = s.ctxEntry cid ctx := by
  have hctab : ∀ slot, u.ctab slot = s.ctab slot := fun slot => by rw [State.ctab, h.sh, State.ctab]
  unfold State.ctxEntry
  rw [h.slotOf]
  cases s.slotOf cid with
  | none => rfl
  | some slot => simp only [hctab, h.tableRead]

theorem cachedRd (half : Nat) (cid : Cid) (ctx : Ctx) (dva : Nat) : u.cachedRd half cid ctx dva = s.cachedRd half cid ctx dva := by
  funext l a
  simp only [State.cachedRd, h.cached, h.tableRead]

theorem cachedCtx (half : Nat) (cid : Cid) (ctx : Ctx) : u.cachedCtx half cid ctx = s.cachedCtx half cid ctx := by
  simp only [State.cachedCtx, h.cached, h.ctxEntry]

/-- A half's walk ends as before. -/
theorem walkHalf (half : Nat) (cid : Cid) (ctx : Ctx) (dva : Nat) : u.walkHalf half cid ctx dva = s.walkHalf half cid ctx dva := by
  simp only [State.walkHalf, State.walkWith, h.ctxMalformed, h.cachedRd, h.cachedCtx, h.walkBy]

/-- The look-asides hold what they held. -/
theorem lookup (t : Nat) (cid : Cid) (ctx : Ctx) (dva : Nat) : u.lookup t cid ctx dva = s.lookup t cid ctx dva := by
  rw [State.lookup, State.halfLook, h.look, h.halves, State.lookup, State.halfLook]

end SameWalks

end Sys2Proof.Machine
end

section
/-! SUPPORT. Loads whose walks have run (R199, R205): the translation that is installed, and what the load's lines leave of
it. -/

set_option Elab.async false

namespace Sys2Proof.Machine

/-! ### A bank that goes on -/

/-- A bank that no longer waits, on its tile. -/
def State.woken (s : State) (t b : Nat) : State := s.modTile t fun x => x.modBank b fun k => x.wake b k

theorem State.bank_woken (s : State) (t b : Nat) : (s.woken t b).bank t b = (s.tile t).wake b (s.bank t b) := by
  refine (State.bank_modBank s t b (fun k => (s.tile t).wake b k) t b).trans ?_
  exact if_pos ⟨rfl, rfl⟩

theorem State.woken_sameWalks (s : State) (t b : Nat) : SameWalks s (s.woken t b) :=
  .modBank s t b fun k => (s.tile t).wake b k

theorem State.woken_keeps (s : State) (t b : Nat) : Keeps s (s.woken t b) := Keeps.modTile s t _ fun _ => rfl

/-! ### A translation that walks have found -/

/-- The state once a translation that a bank's access asked for is installed: its walk cached where no look-aside held it. -/
def State.learned (s : State) (t b : Nat) (e : XEntry) : State :=
  let k := s.bank t b
  (s.each ([e].filter fun e => (s.lookup t k.cid k.ctx e.base).isNone) fun s e =>
    s.cacheWalk (t / 272) k.cid k.ctx e.base).install t e

theorem State.install_tile (s : State) (t : Nat) (e : XEntry) : e ∈ ((s.install t e).tile t).look := by
  rw [State.install, State.tile_modTile, if_pos rfl]
  exact List.mem_cons_self

theorem State.install_half (s : State) (t : Nat) (e : XEntry) : e ∈ (s.install t e).halfLook (t / 272) := by
  unfold State.install State.halfLook
  dsimp only
  rw [State.modTile_xlt, State.modXlt_xlt, Tab.get_insert_same]
  exact List.mem_cons_self

theorem State.cacheWalk_migCnt (s : State) (h : Nat) (cid : Cid) (ctx : Ctx) (dva : Nat) :
    (s.cacheWalk h cid ctx dva).xlt.migCnt = s.xlt.migCnt := by
  unfold State.cacheWalk
  cases s.walkHalf h cid ctx dva <;> rfl

theorem State.learned_migCnt (s : State) (t b : Nat) (e : XEntry) : (s.learned t b e).xlt.migCnt = s.xlt.migCnt :=
  State.each_congr (fun s => s.xlt.migCnt) s _ _ fun s _ => s.cacheWalk_migCnt _ _ _ _

theorem State.learned_within (s : State) (t b : Nat) (e : XEntry) : Within [.tiles, .xlt] s (s.learned t b e) :=
  (State.each_within _ _ (.refl _ s) fun s _ k => k.step (by decide) (s.cacheWalk_within _ _ _ _)).step (by decide)
    (State.install_within _ _ _)

/-- XLT_MIG_CNT of a slot counts an access. -/
def State.migCounted (s : State) (slot : Nat) : State :=
  s.modXlt fun x => { x with migCnt := Tab.insert x.migCnt slot (Tab.get (fun _ => 0) x.migCnt slot + 1) }

section
variable {s : State} {t b unit ch : Nat} {op : TileOp} {sp : Span} {e : XEntry} {go : List XEntry → State → State}
  (hp : sp.priv = false) (h0 : 0 < sp.len) (hcov : sp.at_ + sp.len ≤ e.base + 2 ^ e.log2)
  (hl : s.lookup t (s.bank t b).cid (s.bank t b).ctx sp.at_ = none)
  (hw : s.walkHalf (t / 272) (s.bank t b).cid (s.bank t b).ctx sp.at_ = .hit e)
include hp h0 hcov hl hw

/-- An access in one page that the half's walk finds passes its check. -/
theorem State.visit_walked : visitSpans (s.tileTranslate t b true) [sp] = { entries := [e] } := by
  have h57 : ¬ 2 ^ 57 ≤ sp.at_ := fun h => by
    unfold State.walkHalf State.walkWith at hw
    rw [if_pos h] at hw
    exact XRes.noConfusion hw
  refine visitSpans_hit hp h0 ?_ hcov
  unfold State.tileTranslate State.translate
  dsimp only
  rw [if_pos rfl, if_neg h57, hl]
  exact congrArg some hw

/-- It is carried out with the page installed. -/
theorem State.tileAccess_walked : s.tileAccess t b unit ch op [sp] true none false go = go [e] (s.learned t b e) := by
  have hc := State.visit_walked hp h0 hcov hl hw
  unfold State.tileAccess
  dsimp only
  rw [hc]
  rfl

/-- One that a page request had waited for is counted. -/
theorem State.tileAccess_migrated {slot : Nat} (hs : s.slotOf (s.bank t b).cid = some slot) (last : Nat × Nat) :
    s.tileAccess t b unit ch op [sp] true (some last) false go = go [e] ((s.learned t b e).migCounted slot) := by
  have hc := State.visit_walked hp h0 hcov hl hw
  have hslot : (s.learned t b e).slotOf (s.bank t b).cid = some slot := by
    rw [← hs, State.slotOf, (s.learned_within t b e).brd_eq (by decide), State.slotOf]
  unfold State.tileAccess
  dsimp only
  rw [hc]
  show go [e] (match (s.learned t b e).slotOf (s.bank t b).cid with
    | some slot => (s.learned t b e).migCounted slot
    | none => s.learned t b e) = _
  rw [hslot]

end

/-! ### The lines of an access -/

theorem State.ownLine_keeps (s : State) (t b : Nat) (op : TileOp) (acc : Acc) (off n pos val : Nat) (ecc : Ecc) :
    Keeps s (s.ownLine t b op acc off n pos val ecc).2 := by
  unfold State.ownLine
  refine Keeps.ite_snd (fun _ => s.countRefused_keeps _) fun _ => ?_
  cases acc with
  | rd => exact Keeps.ite_snd (fun _ => s.sramCheck_keeps _ _ _) fun _ => s.sramCheck_keeps _ _ _
  | wr => exact s.sramWrite_keeps _ _ _ _ _
  | atomic =>
    exact Keeps.ite_snd (fun _ => s.sramCheck_keeps _ _ _) fun _ =>
      (State.sramWrite_keeps _ _ _ _ _ _).after (s.sramCheck_keeps _ _ _)

theorem Prog.line_keeps (t b : Nat) (op : TileOp) (acc : Acc) (es : List XEntry) (val : Nat) (ecc : Ecc) (p : Prog)
    (x : Nat × Nat × Nat) : Keeps p.s (p.line t b op acc es val ecc x).s := by
  unfold Prog.line
  split
  · exact .refl _
  extract_lets own
  clear_value own
  split
  · exact p.s.ownLine_keeps _ _ _ _ _ _ _ _ _
  split
  · exact (Holds.get (State.farLine_within _ _ _ _ _ _ _ _ _ _) ‹_›).keeps
  · exact .refl _

/-- The lines of an access leave every tile but for its banks, channels, memory and neighbours. -/
theorem Prog.lines_keeps (t b : Nat) (op : TileOp) (acc : Acc) (es : List XEntry) (val : Nat) (ecc : Ecc)
    (l : List (Nat × Nat × Nat)) (p : Prog) : Keeps p.s (l.foldl (Prog.line t b op acc es val ecc) p).s := by
  induction l generalizing p with
  | nil => exact .refl _
  | cons x l ih => exact (ih _).after (p.line_keeps t b op acc es val ecc x)

/-- An access that is carried out keeps look-asides and counts of XLT, and every tile but for its banks, channels and memory. -/
theorem State.lineGo_leaves (s : State) (t b : Nat) (op : TileOp) (dva len : Nat) (acc : Acc) (ecc : Ecc) (es : List XEntry) :
    Keeps s (s.lineGo t b op dva len acc ecc es) ∧ Sheds s (s.lineGo t b op dva len acc ecc es) := by
  have hk := s.woken_keeps t b
  have hx : Sheds s (s.woken t b) := (s.modTile_within t _).sheds
  unfold State.lineGo
  dsimp only
  have hw : (s.modTile t fun x => x.modBank b fun k => x.wake b k) = s.woken t b := rfl
  rw [hw]
  generalize hv : s.woken t b = v at hk hx ⊢
  have hpk := Prog.lines_keeps t b op acc es (memValue (v.bank t b) op) ecc (linePieces dva len 16 0) ⟨v, 0, 0, none, false⟩
  have hpx := (Prog.lines_within (M := [.out, .mem, .tiles, .mesh, .hst, .evt, .flog]) t b op acc es (memValue (v.bank t b) op)
    ecc (linePieces dva len 16 0) ⟨v, 0, 0, none, false⟩ (.refl _ v) (by decide)).sheds
  generalize (linePieces dva len 16 0).foldl _ _ = p at hpk hpx
  split
  · exact ⟨hk, hx⟩
  have hp : Keeps s p.s ∧ Sheds s p.s := ⟨hpk.after hk, hpx.after hx⟩
  split
  · exact ⟨(p.s.tileFault_keeps _ _ _ _).after hp.1, (p.s.tileFault_sheds _ _ _ _).after hp.2⟩
  split
  · exact ⟨Keeps.after (.modTile _ _ _ fun _ => rfl) hp.1, (p.s.memEnd_within _ _ _ _).sheds.after hp.2⟩
  · exact ⟨Keeps.after (.modBank _ _ _ _) hp.1, (p.s.modBank_within _ _ _).sheds.after hp.2⟩

/-! ### A load tried again -/

theorem Keeps.look {s u : State} (h : Keeps s u) (t : Nat) : (u.tile t).look = (s.tile t).look := (congrArg Tile.look (h t) :)

/-- A load that is tried again is one access of its bytes. -/
theorem State.rerun_load (s : State) (t b : Nat) (l : Fin 4) (signed : Bool) (d base : SReg) (imm : BitVec 41)
    (last : Option (Nat × Nat)) :
    let op := TileOp.scalarMem (.load l signed d base imm)
    let dva := ((s.bank t b).s base.val + BitVec.ofInt 64 imm.toInt).toNat
    s.rerun t b op last .clean = s.tileAccess t b 0 0 op [{ at_ := dva, len := 2 ^ l.val, acc := .rd, priv := false, row := 0 }]
      true last false fun es s => s.lineGo t b op dva (2 ^ l.val) .rd .clean es := rfl

section
variable {s : State} {t b : Nat} {l : Fin 4} {signed : Bool} {d base : SReg} {imm : BitVec 41} {x : XEntry}
  (hl : s.lookup t (s.bank t b).cid (s.bank t b).ctx ((s.bank t b).s base.val + BitVec.ofInt 64 imm.toInt).toNat = none)
  (hw : s.walkHalf (t / 272) (s.bank t b).cid (s.bank t b).ctx ((s.bank t b).s base.val + BitVec.ofInt 64 imm.toInt).toNat = .hit x)
  (hcov : ((s.bank t b).s base.val + BitVec.ofInt 64 imm.toInt).toNat + 2 ^ l.val ≤ x.base + 2 ^ x.log2)
include hl hw hcov

/-- A load whose walks have run installs the translation that its half's walk finds, in its tile and in its half. -/
theorem State.rerun_load_walked :
    let u := s.rerun t b (.scalarMem (.load l signed d base imm)) none .clean
    x ∈ (u.tile t).look ∧ x ∈ u.halfLook (t / 272) := by
  rw [State.rerun_load, State.tileAccess_walked rfl (two_pow_le_512 l).1 hcov hl hw]
  obtain ⟨hk, hx⟩ := State.lineGo_leaves (s.learned t b x) t b (.scalarMem (.load l signed d base imm))
    ((s.bank t b).s base.val + BitVec.ofInt 64 imm.toInt).toNat (2 ^ l.val) .rd .clean [x]
  refine ⟨?_, ?_⟩
  · rw [hk.look]
    exact State.install_tile _ t x
  · rw [hx.halfLook]
    exact State.install_half _ t x

/-- After a page request's Success it is counted as well. -/
theorem State.rerun_load_migrated {slot : Nat} (hs : s.slotOf (s.bank t b).cid = some slot) (last : Nat × Nat) :
    let u := s.rerun t b (.scalarMem (.load l signed d base imm)) (some last) .clean
    x ∈ (u.tile t).look ∧ Tab.get (fun _ => 0) u.xlt.migCnt slot = Tab.get (fun _ => 0) s.xlt.migCnt slot + 1 := by
  rw [State.rerun_load, State.tileAccess_migrated rfl (two_pow_le_512 l).1 hcov hl hw hs last]
  obtain ⟨hk, hx⟩ := State.lineGo_leaves ((s.learned t b x).migCounted slot) t b (.scalarMem (.load l signed d base imm))
    ((s.bank t b).s base.val + BitVec.ofInt 64 imm.toInt).toNat (2 ^ l.val) .rd .clean [x]
  refine ⟨?_, ?_⟩
  · rw [hk.look]
    exact State.install_tile _ t x
  · rw [hx.migCnt, State.migCounted, State.modXlt_xlt, Tab.get_insert_same, State.learned_migCnt]

end

end Sys2Proof.Machine
end

section
/-! SUPPORT. The end of a walk (R199, R217), page requests and their responses (R205 to R207). -/

set_option Elab.async false

namespace Sys2Proof.Machine

/-! ### The end of a walk -/

/-- The state without the walks of a bank. -/
def State.walksEnded (s : State) (t b : Nat) : State :=
  s.modXlt fun x => { x with walks := x.walks.filter fun w => decide (¬ (w.tile = t ∧ w.bank = b)) }

section
variable {t : TileIx} {b : BankIx} {l : Fin 4} {signed : Bool} {d base : SReg} {imm : BitVec 41} {s : State}
  (hwait : (s.bank t.val b.val).wait = some (.walk (.scalarMem (.load l signed d base imm))))
  (hwalks : s.walking t.val b.val = true)
include hwait hwalks

/-- A load whose walks were read is tried again. -/
theorem exec_walkComplete_clean : exec (.walkComplete t b .clean) s =
    .next (((s.walksEnded t b).woken t b).rerun t b (.scalarMem (.load l signed d base imm)) none .clean) := by
  show execWalkComplete t b .clean s = _
  unfold execWalkComplete
  simp only [hwait, hwalks]
  rfl

/-- A load whose walks met a read beyond repair ends in a translation fault (R217). -/
theorem exec_walkComplete_lost : ∃ f, exec (.walkComplete t b .uncorrectable) s =
    .next (((s.walksEnded t b).woken t b).xlatFault t b 0 0 f) := by
  show ∃ f, execWalkComplete t b .uncorrectable s = _
  unfold execWalkComplete
  simp only [hwait, hwalks]
  exact ⟨_, rfl⟩

end

/-- A bank that no longer waits holds a context and has no fault. -/
theorem Tile.wake_st (x : Tile) (b : Nat) (k : Bank) :
    ¬ ((x.wake b k).st = .empty ∨ (x.wake b k).st = .purging ∨ (x.wake b k).st = .faulted) := by
  unfold Tile.wake
  dsimp only
  split <;> simp

theorem walksEnd : Stated.WalksEnd := by
  intro t b l signed d base imm x s k dva hwait hwalks
  have hsame : SameWalks s ((s.walksEnded t b).woken t b) :=
    (SameWalks.modXlt s _ rfl rfl rfl).trans (State.woken_sameWalks _ t b)
  have hbank : ((s.walksEnded t b).woken t b).bank t b = (s.tile t).wake b k := State.bank_woken _ t b
  refine ⟨fun hl hw hcov => ⟨_, exec_walkComplete_clean hwait hwalks, ?_⟩, fun _ => ?_⟩
  · apply State.rerun_load_walked
    · rw [hbank, hsame.lookup]; exact hl
    · rw [hbank, hsame.walkHalf]; exact hw
    · rw [hbank]; exact hcov
  · obtain ⟨f, hf⟩ := exec_walkComplete_lost hwait hwalks
    refine ⟨_, hf, ?_⟩
    unfold State.xlatFault
    beta_reduce
    rw [State.bank_xlatFaultBody (by rw [hbank]; exact Tile.wake_st _ _ _)]
    exact ⟨rfl, rfl, rfl, fun w hw => of_decide_eq_true (List.mem_filter.mp ((State.xlatFaultBody_sheds _ _ _ _).walks hw)).2⟩

/-! ### Page requests that are sent -/

/-- Sending a page request changes the list of them alone. -/
theorem State.sendPage_mig (s : State) (h f : Nat) : ∃ mig, (s.sendPage h f).xlt = { s.xlt with mig := mig } := by
  unfold State.sendPage
  dsimp only
  split
  · exact ⟨_, rfl⟩
  split
  · exact ⟨_, rfl⟩
  · exact ⟨_, rfl⟩

theorem State.sendPage_tile (s : State) (h f j : Nat) : (s.sendPage h f).tile j = s.tile j :=
  (s.sendPage_within h f).tile_eq (by decide) j

/-- A list of fewer than 512 numbers leaves one below 512 out. -/
theorem exists_unused {l : List Nat} (h : l.length < 512) :
    ∃ g, (List.range 512).find? (fun i => !l.contains i) = some g ∧ g ∉ l ∧ g < 512 := by
  have hex : ∃ g ∈ List.range 512, g ∉ l := by
    by_contra hno
    push Not at hno
    have hle := (List.subperm_of_subset List.nodup_range hno).length_le
    rw [List.length_range] at hle
    omega
  obtain ⟨i, hi, hil⟩ := hex
  cases hf : (List.range 512).find? fun i => !l.contains i with
  | none => exact absurd (List.find?_eq_none.mp hf i hi) (by simpa using hil)
  | some g =>
    exact ⟨g, rfl, by simpa using List.find?_some hf, List.mem_range.mp (List.mem_of_find?_eq_some hf)⟩

/-- The first page request that waits is sent under an unused index once the allocation admits it (R206). -/
theorem State.sendPage_sends {s : State} {h f : Nat} {m : MigReq} (hroom : (s.prgInUse h f).length < min 256 (s.func h f).priAlloc)
    (hm : (s.xlt.mig.find? fun m => decide (m.hport = h ∧ m.func = f ∧ m.sent = none)) = some m)
    (hctx : ∀ n ∈ s.xlt.mig, n.sent = none ∨ n.cid ≠ m.cid ∨ n.ctx ≠ m.ctx) :
    ∃ g, g ∉ s.prgInUse h f ∧ g < 512 ∧
      (s.sendPage h f).out = s.out ++ [.pageRequest h f (s.pasidOf m.cid m.ctx) m.page m.rd m.wr g] ∧
      { m with sent := some g, sentAt := s.now } ∈ (s.sendPage h f).xlt.mig := by
  obtain ⟨g, hg, hfree, hlt⟩ := exists_unused (l := s.prgInUse h f) (by omega)
  have hfirst : ∃ rest, (s.xlt.mig.filter fun m => decide (m.hport = h ∧ m.func = f ∧ m.sent = none)).take 256 = m :: rest := by
    rw [← List.head?_filter] at hm
    obtain ⟨rest, hr⟩ := List.head?_eq_some_iff.mp hm
    exact ⟨_, by rw [hr]; rfl⟩
  obtain ⟨rest, hrest⟩ := hfirst
  have hnone : (s.xlt.mig.any fun n => decide (n.sent ≠ none ∧ n.cid = m.cid ∧ n.ctx = m.ctx)) = false := by
    rw [List.any_eq_false]
    intro n hn hsent
    obtain ⟨hn0, hcid, hc⟩ := of_decide_eq_true hsent
    obtain h | h | h := hctx n hn
    · exact hn0 h
    · exact h hcid
    · exact h hc
  have hsend : s.sendPage h f = (s.modXlt fun x => { x with
      mig := x.mig.map fun n => if n = m then { n with sent := some g, sentAt := s.now } else n }).emit
        (.pageRequest h f (s.pasidOf m.cid m.ctx) m.page m.rd m.wr g) := by
    unfold State.sendPage
    dsimp only
    rw [if_neg (by omega), hrest, List.find?_cons, hnone, hg]
    rfl
  refine ⟨g, hfree, hlt, by rw [hsend]; rfl, ?_⟩
  rw [hsend]
  exact List.mem_map.mpr ⟨m, List.mem_of_find?_eq_some hm, if_pos rfl⟩

/-! ### Responses -/

/-- The state in which a function sends no page requests any more. -/
def State.priStop (s : State) (h f : Nat) : State :=
  s.modXlt fun x => { x with priStopped := Tab.insert x.priStopped (funcKey h f) true }

/-- The page requests of a function. -/
def State.requestsOf (s : State) (h f : Nat) : List MigReq := s.xlt.mig.filter fun n => decide (n.hport = h ∧ n.func = f)

/-- The state in which the index of a page request stays in use. -/
def State.indexKept (s : State) (m : MigReq) : State :=
  s.modXlt fun x => { x with retired := x.retired ++ [(m.hport, m.func, m.sent.getD 0)] }

/-- A lost request of a bank is the bank's translation fault. -/
theorem State.migLost_bank (s : State) {m : MigReq} (hcmd : m.cmd = none) (reason : Nat) :
    s.migLost m reason = (s.requestEnded m).xlatFaultBody m.tile m.bank (withReason m.body reason) := by
  unfold State.migLost
  rw [hcmd]
  rfl

section
variable {h : HPortIx} {f : FuncIx} {g : BitVec 9} {m : MigReq} {s : State}
  (hm : (s.xlt.mig.find? fun m => decide (m.hport = h.val ∧ m.func = f.val ∧ m.sent = some g.toNat)) = some m)
include hm

/-- A Success tries the access again, then the next page request may be sent. -/
theorem exec_prgSuccess {op : TileOp} {page : Nat} {rd wr : Bool} (hcmd : m.cmd = none)
    (hwait : (s.bank m.tile m.bank).wait = some (.migrate op page rd wr)) :
    exec (.prgResponse h f g 0) s = .next ((((s.requestEnded m).woken m.tile m.bank).rerun m.tile m.bank op
      (some (m.page, m.tries + 1)) .clean).sendPage h.val f.val) := by
  have hwait' : ((s.requestEnded m).bank m.tile m.bank).wait = some (.migrate op page rd wr) := hwait
  show execPrgResponse h f g 0 s = _
  unfold execPrgResponse
  rw [hm]
  dsimp only
  rw [if_pos rfl, hcmd]
  dsimp only
  unfold State.requestEnded at hwait'
  rw [hwait']
  rfl

/-- A Success that leaves a load's page mapped installs the translation and counts it (R205). -/
theorem prgSuccess {l : Fin 4} {signed : Bool} {d base : SReg} {imm : BitVec 41} {page slot : Nat} {rd wr : Bool} {x : XEntry}
    (hcmd : m.cmd = none)
    (hwait : (s.bank m.tile m.bank).wait = some (.migrate (.scalarMem (.load l signed d base imm)) page rd wr))
    (hl : s.lookup m.tile (s.bank m.tile m.bank).cid (s.bank m.tile m.bank).ctx
      ((s.bank m.tile m.bank).s base.val + BitVec.ofInt 64 imm.toInt).toNat = none)
    (hw : s.walkHalf (m.tile / 272) (s.bank m.tile m.bank).cid (s.bank m.tile m.bank).ctx
      ((s.bank m.tile m.bank).s base.val + BitVec.ofInt 64 imm.toInt).toNat = .hit x)
    (hcov : ((s.bank m.tile m.bank).s base.val + BitVec.ofInt 64 imm.toInt).toNat + 2 ^ l.val ≤ x.base + 2 ^ x.log2)
    (hslot : s.slotOf (s.bank m.tile m.bank).cid = some slot) :
    Does (.prgResponse h f g 0) s fun u => x ∈ (u.tile m.tile).look ∧
      Tab.get (fun _ => 0) u.xlt.migCnt slot = Tab.get (fun _ => 0) s.xlt.migCnt slot + 1 := by
  refine ⟨_, exec_prgSuccess hm hcmd hwait, ?_⟩
  have hsame : SameWalks s ((s.requestEnded m).woken m.tile m.bank) :=
    (SameWalks.modXlt s _ rfl rfl rfl).trans (State.woken_sameWalks _ _ _)
  have hbank : ((s.requestEnded m).woken m.tile m.bank).bank m.tile m.bank =
      (s.tile m.tile).wake m.bank (s.bank m.tile m.bank) := State.bank_woken _ _ _
  obtain ⟨mig, hmig⟩ := State.sendPage_mig (((s.requestEnded m).woken m.tile m.bank).rerun m.tile m.bank
    (.scalarMem (.load l signed d base imm)) (some (m.page, m.tries + 1)) .clean) h.val f.val
  beta_reduce
  rw [State.sendPage_tile, hmig]
  apply State.rerun_load_migrated
  · rw [hbank, hsame.lookup]; exact hl
  · rw [hbank, hsame.walkHalf]; exact hw
  · rw [hbank]; exact hcov
  · rw [hbank, hsame.slotOf]; exact hslot

/-- A code other than Success and Invalid Request ends every request that waits on the function (R207). -/
theorem prgFailure {code : BitVec 4} (h0 : code ≠ 0) (h1 : code ≠ 1) :
    Does (.prgResponse h f g code) s fun u => (∀ n ∈ u.xlt.mig, ¬ (n.hport = h.val ∧ n.func = f.val)) ∧
      Tab.get (fun _ => false) u.xlt.priStopped (funcKey h.val f.val) = true := by
  refine ⟨(s.priStop h f).each (s.requestsOf h f) fun s n => s.migLost n 8, ?_, fun n hn hnf => ?_, ?_⟩
  · show execPrgResponse h f g code s = _
    unfold execPrgResponse
    rw [hm]
    dsimp only
    rw [if_neg h0, if_neg h1]
    rfl
  · obtain ⟨hmem, hl⟩ := State.each_takesAway (fun s => s.xlt.mig) (fun s n => (s.migLost_sheds n 8).mig)
      (fun s n => s.migLost_not_mem n 8) (s.priStop h f) (s.requestsOf h f) n hn
    exact hl (List.mem_filter.mpr ⟨hmem, decide_eq_true hnf⟩)
  · rw [(Sheds.each (s.priStop h f) (s.requestsOf h f) _ fun s n => s.migLost_sheds n 8).priStopped]
    exact Tab.get_insert_same _ _ _ _

/-- A request with no response in time faults its bank and keeps its index (R207). -/
theorem prgTimeout (hcmd : m.cmd = none) (hlate : m.sentAt + s.xlt.priTimeout.toNat * period ≤ s.now)
    (hst : (s.bank m.tile m.bank).st = .waiting) :
    Does (.pageRequestTimeout h f g) s fun u =>
      (h.val, f.val, g.toNat) ∈ u.xlt.retired ∧ (u.bank m.tile m.bank).st = .faulted ∧
      (u.bank m.tile m.bank).fault = ⟨true, 7, 0⟩ := by
  obtain ⟨hport, hfunc, hsent⟩ := of_decide_eq_true
    (List.find?_some (p := fun m : MigReq => decide (m.hport = h.val ∧ m.func = f.val ∧ m.sent = some g.toNat)) hm)
  have hbank : (((s.indexKept m).requestEnded m).bank m.tile m.bank).st = .waiting := hst
  refine ⟨(s.indexKept m).migLost m 7, ?_, ?_⟩
  · show execPageRequestTimeout h f g s = _
    unfold execPageRequestTimeout
    rw [hm]
    exact if_neg (Nat.not_lt.mpr hlate)
  · beta_reduce
    rw [State.migLost_bank _ hcmd, State.bank_xlatFaultBody (by rw [hbank]; simp)]
    refine ⟨(State.xlatFaultBody_sheds _ _ _ _).retired (List.mem_append_right _ ?_), rfl, rfl⟩
    rw [hport, hfunc, hsent]
    exact List.mem_cons_self

end

/-- What waits unsent where every context may ask is sent as the allocation admits (R206). -/
theorem State.dequeuePages_eq {s : State} {h f : Nat}
    (hway : ∀ n ∈ s.xlt.mig, n.hport = h → n.func = f → n.sent = none → (s.migWay n.cid n.ctx).isSome = true) :
    s.dequeuePages h f = s.sendPage h f := by
  have hoff : (s.xlt.mig.filter fun m => decide (m.hport = h ∧ m.func = f ∧ m.sent = none) && (s.migWay m.cid m.ctx).isNone) = [] := by
    rw [List.filter_eq_nil_iff]
    intro n hn hbad
    simp only [Bool.and_eq_true, decide_eq_true_eq] at hbad
    obtain ⟨⟨hp, hf, hs⟩, hno⟩ := hbad
    have hsome := hway n hn hp hf hs
    rw [Option.isNone_iff_eq_none.mp hno] at hsome
    exact Bool.noConfusion hsome
  unfold State.dequeuePages
  dsimp only
  rw [hoff]
  rfl

theorem pageRequests : Stated.PageRequests := by
  refine ⟨fun h f g m l signed d base imm page slot rd wr x s hm hcmd => prgSuccess hm hcmd,
    fun h f g code m s hm h0 h1 => prgFailure hm h0 h1, fun h f g m s hm hcmd hlate hst => prgTimeout hm hcmd hlate hst,
    fun h f m s hway hroom hm hctx => ⟨s.sendPage h f, ?_, State.sendPage_sends hroom hm hctx⟩⟩
  exact congrArg Host.Outcome.next (State.dequeuePages_eq hway)

/-- Settles O28: an access whose walks have run installs the translation that they found; lost requests leave the list, a late
one leaves its index; the first that waits is sent under an index that is free. -/
theorem walksAndPageRequests : Obligations.WalksAndPageRequests := ⟨walksEnd, pageRequests⟩

end Sys2Proof.Machine
end

section
/-! SUPPORT. The wait entries of the sync units (R372): what writes of lines, ends of commands and releases of references
leave, and those that a signal ends. -/

set_option Elab.async false

namespace Sys2Proof.Machine

/-- Of the wait entries some end, and none is added. -/
structure WaitsEnd (s u : State) : Prop where
  subset : u.que.waits ⊆ s.que.waits

namespace WaitsEnd

theorem refl (s : State) : WaitsEnd s s := ⟨List.Subset.refl _⟩

/-- An operation after others. -/
theorem after {s v u : State} (k : WaitsEnd v u) (h : WaitsEnd s v) : WaitsEnd s u := ⟨List.Subset.trans k.subset h.subset⟩

theorem of_eq {s u : State} (h : u.que.waits = s.que.waits) : WaitsEnd s u := ⟨by rw [h]; exact List.Subset.refl _⟩

theorem modFq (s : State) (slot : Nat) (f : FqRo → FqRo) : WaitsEnd s (s.modFq slot f) := of_eq rfl
theorem modPair (s : State) (p : Nat) (f : Pair → Pair) : WaitsEnd s (s.modPair p f) := of_eq rfl
theorem modQ (s : State) (e : Nat) (f : QRo → QRo) : WaitsEnd s (s.modQ e f) := of_eq rfl

theorem each {α : Type} (s : State) (l : List α) (f : State → α → State) (hf : ∀ s x, WaitsEnd s (f s x)) :
    WaitsEnd s (s.each l f) := by
  induction l generalizing s with
  | nil => exact refl s
  | cons x l ih => exact (ih (f s x)).after (hf s x)

theorem ite {s a b : State} {c : Prop} [Decidable c] (ha : c → WaitsEnd s a) (hb : ¬c → WaitsEnd s b) :
    WaitsEnd s (if c then a else b) := by
  split
  · exact ha ‹_›
  · exact hb ‹_›

theorem when (s : State) (c : Bool) (f : State → State) (hf : WaitsEnd s (f s)) : WaitsEnd s (s.when c f) := by
  cases c
  · exact refl s
  · exact hf

end WaitsEnd

/-- What does not touch the queues. -/
theorem Within.waitsEnd {M : List Block} {s u : State} (h : Within M s u) (hq : M.contains .que = false := by decide) :
    WaitsEnd s u := .of_eq (by rw [h.que_eq hq])

/-! ### Records and failed pairs -/

theorem State.fqWrite_waitsEnd (s : State) (slot : Nat) (hf : Nat × Nat) (kind code : Nat) (ctx : Ctx) (cid : Cid) (body : Bytes) :
    WaitsEnd s (s.fqWrite slot hf kind code ctx cid body) := by
  unfold State.fqWrite
  dsimp only
  refine (WaitsEnd.when _ _ _ (State.msix_within _ _ _ _).waitsEnd).after ((WaitsEnd.modFq _ _ _).after ?_)
  exact (s.hostWrite_within _ _ _ _ _).waitsEnd

theorem State.moduleRecord_waitsEnd (s : State) (cid : Cid) (cls resource : Nat) :
    WaitsEnd s (s.moduleRecord cid cls resource) := by
  have hdrop : ∀ slot, WaitsEnd s (((s.fqDrop slot).modFq slot fun x => { x with movf := true }).pulse 856) :=
    fun slot => (State.pulse_within _ _).waitsEnd.after ((WaitsEnd.modFq _ _ _).after (.modFq s _ _))
  unfold State.moduleRecord
  cases s.slotOf cid with
  | none => exact .refl s
  | some slot =>
    dsimp only
    cases s.fqTarget cid slot with
    | none => exact hdrop slot
    | some hf => exact .ite (fun _ => hdrop slot) fun _ => s.fqWrite_waitsEnd _ _ _ _ _ _ _

theorem State.setPairSt_waitsEnd (s : State) (p : Nat) (st : PairSt) : WaitsEnd s (s.setPairSt p st) := by
  have h : WaitsEnd s ((s.modPair p fun x => { x with st := st }).pulse (640 + p)) :=
    (State.pulse_within _ _).waitsEnd.after (.modPair s _ _)
  have hrecords : ∀ (v : State) cids cls r, WaitsEnd v (v.moduleRecords cids cls r) := fun v cids cls r =>
    (State.pulse_within _ _).waitsEnd.after (.each _ _ _ fun v _ => v.moduleRecord_waitsEnd _ _ _)
  unfold State.setPairSt
  exact .ite (fun _ => .refl s) fun _ => .ite (fun _ => h) fun _ => (hrecords _ _ _ _).after h

theorem State.spareUp_waitsEnd (s : State) (half : Nat) : WaitsEnd s (s.spareUp half) := by
  unfold State.spareUp
  refine .ite (fun _ => .refl s) fun _ => ?_
  dsimp only
  split
  · exact (State.modPair_within _ _ _).waitsEnd.after (s.setPairSt_waitsEnd _ _)
  · exact .refl s

theorem State.pairFailed_waitsEnd (s : State) (p : Nat) : WaitsEnd s (s.pairFailed p) := by
  unfold State.pairFailed
  refine .ite (fun _ => .refl s) fun _ => ?_
  dsimp only
  refine (State.regaugeHalf_within _ _).waitsEnd.after ((State.spareUp_waitsEnd _ _).after ?_)
  have hd := s.setPairSt_waitsEnd p .degraded
  refine .ite (fun _ => ?_) fun _ => .ite (fun _ => ?_) fun _ => hd
  · refine (State.zeroShare_within _ _ _ _).waitsEnd.after ((State.modPair_within _ _ _).waitsEnd.after ?_)
    refine (State.setPairSt_waitsEnd _ _ _).after ((State.opDone_within _ _ _ _ _ _ _).waitsEnd.after ?_)
    exact (State.modMove_within _ _ _).waitsEnd.after hd
  · exact (State.moveAborts_within _ _).waitsEnd.after hd

/-! ### Lines -/

theorem State.dramPoison_waitsEnd (s : State) (p line : Nat) : WaitsEnd s (s.dramPoison p line) := by
  have h : WaitsEnd s ((s.modPair p fun x => { x with poison := Tab.insert x.poison line true, ue := satInc x.ue }).pulse
      (544 + p / 4)) := (State.pulse_within _ _).waitsEnd.after (.modPair s _ _)
  unfold State.dramPoison
  exact .ite (fun _ => (State.pairFailed_waitsEnd _ _).after h) fun _ => h

theorem State.dramRebuilt_waitsEnd (s : State) (p : Nat) : WaitsEnd s (s.dramRebuilt p) := by
  have h : WaitsEnd s ((s.modPair p fun x => { x with rebuilt := satInc x.rebuilt, rebuiltPeriod := x.rebuiltPeriod + 1 }).pulse
      (544 + p / 4)) := (State.pulse_within _ _).waitsEnd.after (.modPair s _ _)
  unfold State.dramRebuilt
  exact .ite (fun _ => (State.pairFailed_waitsEnd _ _).after h) fun _ => h

theorem State.dramFetch_waitsEnd (s : State) (p line : Nat) (ecc : Ecc) : WaitsEnd s (s.dramFetch p line ecc).2.2 := by
  have h : WaitsEnd s (s.linkRetried p ecc) := (s.linkRetried_within _ _).waitsEnd
  unfold State.dramFetch
  dsimp only
  split
  · exact .refl s
  split
  · exact (State.dramPoison_waitsEnd _ _ _).after h
  split
  · split
    · refine (State.dramRebuilt_waitsEnd _ _).after (.ite (fun _ => ?_) fun _ => (State.storeLine_within _ _ _).waitsEnd.after ?_) <;>
      exact (State.settleStripe_within _ _ _).waitsEnd.after h
    · exact (State.dramPoison_waitsEnd _ _ _).after h
  · exact h

theorem State.oldLine_waitsEnd (s : State) (p line : Nat) (ecc : Ecc) : WaitsEnd s (s.oldLine p line ecc).2 := by
  have h : WaitsEnd s (s.linkRetried p ecc) := (s.linkRetried_within _ _).waitsEnd
  unfold State.oldLine
  simp only [apply_ite Prod.snd]
  refine .ite (fun _ => .ite (fun _ => (State.dramRebuilt_waitsEnd _ _).after ?_) fun _ => ?_) fun _ => h <;>
  exact (State.settleStripe_within _ _ _).waitsEnd.after h

theorem State.dramWrite_waitsEnd (s : State) (p line mpa : Nat) (data : Line) (be : DWord) (ecc : Ecc) :
    WaitsEnd s (s.dramWrite p line mpa data be ecc).2 := by
  have hstore : ∀ (v : State) old new (c : Prop) [Decidable c], WaitsEnd v
      (if c then (v.dramStore p line old new).regionWrite p line mpa old new else v.dramStore p line old new) :=
    fun v old new c _ => .ite (fun _ => (State.regionWrite_within _ _ _ _ _ _).waitsEnd.after (v.dramStore_within _ _ _ _).waitsEnd)
      fun _ => (v.dramStore_within _ _ _ _).waitsEnd
  unfold State.dramWrite
  simp only [apply_ite Prod.snd]
  refine .ite (fun _ => (s.keyUe_within _).waitsEnd) fun _ => .ite (fun _ => ?_) fun _ => .ite (fun _ => .refl s) fun _ =>
    .ite (fun _ => s.dramFetch_waitsEnd _ _ _) fun _ => ?_
  · exact (hstore _ _ _ _).after ((State.modPair_within _ _ _).waitsEnd.after (s.oldLine_waitsEnd _ _ _))
  · exact (hstore _ _ _ _).after (s.dramFetch_waitsEnd _ _ _)

theorem State.placeWrite_waitsEnd (s : State) (pl : Place) (mpa : Nat) (data : Line) (be : DWord) (ecc : Ecc) :
    WaitsEnd s (s.placeWrite pl mpa data be ecc).2 := by
  cases pl with
  | sram t off => exact (s.sramWrite_within _ _ _ _ _).waitsEnd
  | dram _ p line _ => exact s.dramWrite_waitsEnd p line _ data be ecc
  | unbacked => exact .refl s

theorem State.writeMpa_waitsEnd (s : State) (w : Who) (mpa : Nat) (data : Line) (be : DWord) (ecc : Ecc) :
    WaitsEnd s (s.writeMpa w mpa data be ecc).2 := by
  unfold State.writeMpa
  simp only [apply_ite Prod.snd]
  refine .ite (fun _ => (s.countRefused_within _).waitsEnd) fun _ => (State.placeWrite_waitsEnd _ _ _ _ _ _).after ?_
  cases s.place mpa with
  | dram => exact .ite (fun _ => .refl s) fun _ => (s.dlogDevice_within _ _).waitsEnd
  | sram => exact .refl s
  | unbacked => exact .refl s

theorem State.mpaStore_waitsEnd (s : State) (w : Who) (mpa n v : Nat) : WaitsEnd s (s.mpaStore w mpa n v).2 :=
  s.writeMpa_waitsEnd _ _ _ _ _

theorem State.objSetState_waitsEnd (s : State) (cid : Cid) (i st gen : Nat) : WaitsEnd s (s.objSetState cid i st gen) := by
  unfold State.objSetState
  cases s.objTab cid with
  | none => exact .refl s
  | some t => exact s.mpaStore_waitsEnd _ _ _ _

theorem State.objSetRefs_waitsEnd (s : State) (cid : Cid) (i refs : Nat) : WaitsEnd s (s.objSetRefs cid i refs) := by
  unfold State.objSetRefs
  cases s.objTab cid with
  | none => exact .refl s
  | some t => exact s.mpaStore_waitsEnd _ _ _ _

/-! ### Commands that end and references that are released -/

theorem State.parserWrite_waitsEnd (s : State) (home : Nat) (cid : Cid) (ctx : Ctx) (dva n v : Nat) :
    WaitsEnd s (s.parserWrite home cid ctx dva n v).2 := by
  unfold State.parserWrite
  generalize s.walk cid ctx dva = x
  cases x with
  | hit e =>
    dsimp only
    generalize e.target dva = m
    cases m with
    | localMpa m => exact s.mpaStore_waitsEnd _ _ _ _
    | host a =>
      dsimp only
      cases s.hostWay cid with
      | some hf =>
        dsimp only
        exact (s.hostWrite_within _ _ _ _ _).waitsEnd
      | none => exact .refl s
    | window fa =>
      dsimp only
      exact (s.unitSend_within _ _ _).waitsEnd
  | _ => exact .refl s

theorem State.queueRecord_waitsEnd (s : State) (e code index tag info : Nat) (pkt : BitVec 256) (ctx : Ctx) :
    WaitsEnd s (s.queueRecord e code index tag info pkt ctx) := by
  unfold State.queueRecord
  dsimp only
  cases s.fqTarget (s.qCid e) (s.qSh e).slot.toNat with
  | some hf => exact .ite (fun _ => s.fqWrite_waitsEnd _ _ _ _ _ _ _) fun _ => .modFq s _ _
  | none => exact .modFq s _ _

theorem State.breakQueue_waitsEnd (s : State) (e index : Nat) : WaitsEnd s (s.breakQueue e index) := by
  unfold State.breakQueue
  refine .ite (fun _ => .refl s) fun _ => ?_
  dsimp only
  refine (State.queueRecord_waitsEnd _ _ _ _ _ _ _ _).after ?_
  exact (State.parserWrite_waitsEnd _ _ _ _ _ _ _).after (.modQ s _ _)

theorem State.completionWrite_waitsEnd (s : State) (e : Nat) (index : Word) (tag status info : Nat) (irq : Bool) :
    WaitsEnd s (s.completionWrite e index tag status info irq) := by
  unfold State.completionWrite
  refine .ite (fun _ => (State.breakQueue_waitsEnd _ _ _).after (s.parserWrite_waitsEnd _ _ _ _ _ _)) fun _ => ?_
  exact (WaitsEnd.when _ _ _ (State.msix_within _ _ _ _).waitsEnd).after (s.parserWrite_waitsEnd _ _ _ _ _ _)

theorem State.endCmd_waitsEnd (s : State) (e : Nat) (index : Word) (status info : Nat) (write : Bool) :
    WaitsEnd s (s.endCmd e index status info write) := by
  have hends : WaitsEnd s (s.withoutCmd e index) := ⟨List.filter_subset_self _⟩
  unfold State.endCmd
  cases s.cmd e index with
  | none => exact .refl s
  | some c => exact .ite (fun _ => (State.completionWrite_waitsEnd _ _ _ _ _ _ _).after hends) fun _ => hends

theorem State.freeDone_waitsEnd (s : State) (cid : Cid) (i : Nat) : WaitsEnd s (s.freeDone cid i) := by
  unfold State.freeDone
  cases s.objEntry cid i with
  | none => exact .refl s
  | some x =>
    refine .ite (fun _ => ?_) fun _ => .refl s
    have hset := s.objSetState_waitsEnd cid i 0 (if x.gen = 255 then 1 else x.gen + 1)
    dsimp only
    split
    · exact (State.endCmd_waitsEnd _ _ _ _ _ _).after hset
    · exact hset

theorem State.dropRef_waitsEnd (s : State) (cid : Cid) (i : Nat) : WaitsEnd s (s.dropRef cid i) := by
  unfold State.dropRef
  cases s.objEntry cid i with
  | none => exact .refl s
  | some x =>
    exact (State.wakeRefs_within _ _).waitsEnd.after ((State.freeDone_waitsEnd _ _ _).after (s.objSetRefs_waitsEnd _ _ _))

theorem State.complete_waitsEnd (s : State) (e : Nat) (index : Word) (status info : Nat) (write : Bool) :
    WaitsEnd s (s.complete e index status info write) := by
  unfold State.complete
  cases s.cmd e index with
  | none => exact .refl s
  | some c => exact (WaitsEnd.each _ _ _ fun v i => v.dropRef_waitsEnd _ i).after (s.endCmd_waitsEnd _ _ _ _ _)

/-! ### Waits that a signal ends -/

/-- The queues without the wait entries of a waiter. -/
def State.unwaited (s : State) (w : SyncEntry) : State :=
  s.modQue fun q => { q with waits := q.waits.filter fun x => decide (x.who ≠ w.who) }

theorem State.waitEnds_unwaited (s : State) (w : SyncEntry) (status : Nat) : WaitsEnd (s.unwaited w) (s.waitEnds w status) := by
  unfold State.waitEnds
  have hw : (s.modQue fun q => { q with waits := q.waits.filter fun x => decide (x.who ≠ w.who) }) = s.unwaited w := rfl
  dsimp only
  rw [hw]
  have hend : ∀ t b sd, WaitsEnd (s.unwaited w) ((s.unwaited w).endWait t b sd status) := fun t b sd =>
    (State.modTile_within _ t _).waitsEnd
  cases w.who with
  | bank t b =>
    refine (State.dropRef_waitsEnd _ _ _).after ?_
    split
    · exact hend _ _ _
    · exact hend _ _ _
    · exact .refl _
  | queue e index => exact (State.complete_waitsEnd _ _ _ _ _ _).after (State.dropRef_waitsEnd _ _ _)

theorem State.waitEnds_waitsEnd (s : State) (w : SyncEntry) (status : Nat) : WaitsEnd s (s.waitEnds w status) :=
  (s.waitEnds_unwaited w status).after ⟨List.filter_subset_self _⟩

theorem State.waitEnds_not_mem (s : State) (w : SyncEntry) (status : Nat) : w ∉ (s.waitEnds w status).que.waits := fun h => by
  have hw := (List.mem_filter.mp ((s.waitEnds_unwaited w status).subset h)).2
  simp at hw

/-- A signal that its fence takes ends every wait of its line that it reaches (R371, R372). -/
theorem State.signalFence_reaches {s : State} {cid : Cid} {x : ObjEntry} {v m : Nat} {l : Line}
    (hline : s.syncLine cid x = some (m, l)) :
    ∃ n u, s.signalFence cid x v = some (n, u) ∧
      (lineGet l 0 8 ≤ v → ∀ w ∈ u.que.waits, ¬ (w.key = m / 64 * 64 ∧ w.isSem = false ∧ w.target.toNat ≤ v)) := by
  unfold State.signalFence
  rw [hline]
  dsimp only
  by_cases hlow : v < lineGet l 0 8
  · rw [if_pos hlow]
    exact ⟨_, _, rfl, fun h => absurd h (Nat.not_le.mpr hlow)⟩
  rw [if_neg hlow]
  refine ⟨_, _, rfl, fun _ w hw hreach => ?_⟩
  obtain ⟨hmem, hready⟩ := State.each_takesAway (fun s => s.que.waits) (fun s w => (s.waitEnds_waitsEnd w 0).subset)
    (fun s w => s.waitEnds_not_mem w 0) _ _ w hw
  obtain ⟨hkey, hsem, htarget⟩ := hreach
  exact hready (List.mem_filter.mpr ⟨hmem, by simp [State.syncKey, hkey, hsem, htarget]⟩)

end Sys2Proof.Machine
end

section
/-! SUPPORT. XLT.INV and XLT.SYNC (R200 to R202, R211). -/

set_option Elab.async false

namespace Sys2Proof.Machine

/-! ### Entries that an invalidation drops -/

/-- A part of every entry of a table that is changed alike, unlisted entries being as they would be if changed. -/
theorem Tab.get_map {α β : Type} (d : Nat → α) {f : α → α} {g : α → β} {p : β → β} (hf : ∀ x, g (f x) = p (g x)) (k : Nat)
    (hd : p (g (d k)) = g (d k)) (t : Tab α) : g (Tab.get d (t.map fun e => (e.1, f e.2)) k) = p (g (Tab.get d t k)) := by
  induction t with
  | nil => exact hd.symm
  | cons e t ih =>
    obtain ⟨j, v⟩ := e
    by_cases hj : j = k
    · simp [Tab.get, hj, hf]
    · simpa [Tab.get, hj] using ih

theorem Tile.reset_look (k : Nat) : (Tile.reset k).look = [] := by
  unfold Tile.reset
  split <;> rfl

/-- A tile after an invalidation: entries dropped, running copies over them marked (R201, R211). -/
def Tile.invalidated (r : InvRange) (mark : Nat × Word) (x : Tile) : Tile :=
  let chan := fun (c : Nat × Chan) =>
    if !c.2.link && decide (c.2.st = .active ∨ c.2.st = .paused) && c.2.pages.any r.drops
    then (c.1, { c.2 with dropped := c.2.dropped ++ [mark] }) else c
  { x with look := x.look.filter fun e => !r.drops e, chans := x.chans.map chan }

theorem State.tile_invalidate (s : State) (r : InvRange) (mark : Nat × Word) (t : Nat) :
    (s.invalidate r mark).tile t = Tab.get Tile.reset (s.tiles.map fun e => (e.1, e.2.invalidated r mark)) t := rfl

theorem State.look_invalidate (s : State) (r : InvRange) (mark : Nat × Word) (t : Nat) :
    ((s.invalidate r mark).tile t).look = (s.tile t).look.filter fun e => !r.drops e := by
  rw [State.tile_invalidate]
  exact Tab.get_map Tile.reset (f := Tile.invalidated r mark) (g := Tile.look) (p := List.filter fun e => !r.drops e)
    (fun _ => rfl) t (by rw [Tile.reset_look]; rfl) s.tiles

theorem State.halfLook_invalidate (s : State) (r : InvRange) (mark : Nat × Word) (h : Nat) :
    (s.invalidate r mark).halfLook h = (s.halfLook h).filter fun e => !r.drops e :=
  Tab.get_map (fun _ => ([] : List XEntry)) (g := id) (p := List.filter fun e => !r.drops e) (fun _ => rfl) h rfl s.xlt.look

/-- What an invalidation does not drop: another composition's, and in a narrower scope another context's or another range's. -/
theorem InvRange.keeps_iff (r : InvRange) (x : XEntry) : (!r.drops x) = true ↔
    (x.cid ≠ r.cid ∨ r.scope ≠ 2 ∧ (x.ctx ≠ r.ctx ∨ r.scope ≠ 1 ∧ (r.hi ≤ x.base ∨ x.base + 2 ^ x.log2 ≤ r.lo))) := by
  simp only [InvRange.drops, InvRange.hits, Bool.not_eq_true', Bool.and_eq_false_iff, Bool.or_eq_false_iff, decide_eq_false_iff_not,
    not_and_or, Nat.not_lt]

/-! ### The commands -/

theorem State.invalidates {e : QEntry} {index : Word} {c : QCmd} {s : State} (hdue : s.startDue e.val index 0x10 = some c) :
    let r := invRange (s.qCid e.val) c.pkt
    Does (.xltInv e index) s fun u => gone u e.val index ∧
      (∀ t, ∀ x, x ∈ (u.tile t).look ↔ x ∈ (s.tile t).look ∧ (!r.drops x) = true) ∧
      ∀ h, ∀ x, x ∈ u.halfLook h ↔ x ∈ s.halfLook h ∧ (!r.drops x) = true := by
  intro r
  refine ⟨(s.invalidate r (e.val, index)).complete e.val index 0 0 true, ?_, State.complete_gone _ _ _ _ _ _, fun t x => ?_,
    fun h x => ?_⟩
  · show execXltInv e index s = _
    unfold execXltInv
    rw [hdue]
  · rw [Keeps.look (State.complete_keeps _ _ _ _ _ _), State.look_invalidate, List.mem_filter]
  · rw [(State.complete_within _ _ _ _ _ _).sheds.halfLook, State.halfLook_invalidate, List.mem_filter]

theorem translationCommands : Stated.TranslationCommands := by
  intro e index c s cid
  refine ⟨fun hdue => ?_, fun hdue => ⟨s.started e.val index, ?_, ?_, rfl, rfl⟩, fun x m l hcmd hopc hst hheld hobj hline => ?_⟩
  · obtain ⟨u, hu, hgone, hlook, hhalf⟩ := State.invalidates hdue
    exact ⟨u, hu, hgone, fun t x => (hlook t x).trans (and_congr_right fun _ => InvRange.keeps_iff _ x),
      fun h x => (hhalf h x).trans (and_congr_right fun _ => InvRange.keeps_iff _ x)⟩
  · show execXltSync e index s = _
    unfold execXltSync
    rw [hdue]
  · exact State.cmd_started (State.cmd_of_startDue hdue)
  · obtain ⟨n, u, hsignal, hwaits⟩ := State.signalFence_reaches (v := pktF c.pkt 0x10 0 64) hline
    refine ⟨u.complete e.val index 0 0 true, ?_, State.complete_gone _ _ _ _ _ _,
      fun hv w hw => hwaits hv w ((u.complete_waitsEnd _ _ _ _ _).subset hw)⟩
    have href : s.signalRef cid (pktF c.pkt 8 0 24) (pktF c.pkt 0x10 0 64) = some (n, u) := by
      unfold State.signalRef
      rw [hobj]
      exact hsignal
    have hgo : ¬ (pktOpc c.pkt ≠ 0x11 ∨ c.st ≠ .started ∨ s.syncHeld e.val index = true) := by simp [hopc, hst, hheld]
    show execXltSyncDone e index s = _
    unfold execXltSyncDone
    rw [hcmd]
    dsimp only
    rw [if_neg hgo]
    simp only [cid] at href
    rw [href]

end Sys2Proof.Machine
end

section
/-! SUPPORT. The refill of the regulators (R421, R422), and the statement on translation commands and regulators. -/

set_option Elab.async false

namespace Sys2Proof.Machine

/-! ### One change for each key -/

/-- Where each step changes what `g` reads at its own key alone, from what stays as it is, each key of a list is changed once. -/
theorem State.each_once {β γ : Type} {g : State → Nat → β} {c : State → γ} {new : γ → Nat → β → β} {f : State → Nat → State}
    (hc : ∀ s k, c (f s k) = c s) (hg : ∀ s k j, g (f s k) j = if j = k then new (c s) k (g s k) else g s j) (s : State)
    {l : List Nat} (hl : l.Nodup) (j : Nat) : g (s.each l f) j = if j ∈ l then new (c s) j (g s j) else g s j := by
  induction l generalizing s with
  | nil => rfl
  | cons k l ih =>
    obtain ⟨hk, hl⟩ := List.nodup_cons.mp hl
    rw [State.each_cons, ih _ hl, hc, hg]
    by_cases hj : j = k
    · subst hj
      simp [hk]
    · simp [hj]

theorem nodup_eraseDups : ∀ l : List Nat, l.eraseDups.Nodup
  | [] => List.nodup_nil
  | a :: l => by
    rw [List.eraseDups_cons]
    exact List.nodup_cons.mpr ⟨by simp [List.mem_eraseDups], nodup_eraseDups _⟩
termination_by l => l.length
decreasing_by exact Nat.lt_succ_of_le (List.length_filter_le _ _)

theorem Tab.nodup_keys {α : Type} (t : Tab α) : (Tab.keys t).Nodup := nodup_eraseDups _

theorem Tab.mem_keys {α : Type} {t : Tab α} {k : Nat} : k ∈ Tab.keys t ↔ k ∈ t.map (·.1) := List.mem_eraseDups

/-! ### One µs of refill -/

theorem refillLevel_eq (level : Int) (guar refill : Nat) :
    refillLevel level guar refill = min (level + guar * refill) (max (4 * (guar * refill)) 256 : Nat) := by
  rw [refillLevel, regDepth, Nat.mul_assoc, Nat.cast_mul]

/-- A level after one µs, by the entries of its regulator. -/
def refilled (refill : Nat) (regs : Tab RegSh) (k : Nat) (w : Word) : Word :=
  let e := Tab.get (fun _ => ({} : RegSh)) regs k
  if e.valid then BitVec.ofInt 32 (refillLevel w.toInt e.guar.toNat refill) else w

/-- One µs of one entry of a queue's regulator. -/
def State.refillEntry (s : State) (q : RegQ) (refill k : Nat) (e : RegSh) : State :=
  if e.valid then s.setLevel q k (refillLevel (s.level q k) e.guar.toNat refill) else s

def State.refillTile (s : State) (t : Nat) : State :=
  s.each (Tab.keys (s.tile t).nbr.act.regs) fun s k =>
    s.refillEntry (.tile t) 100 k (Tab.get (fun _ => {}) (s.tile t).nbr.act.regs k)

def State.refillPairs (s : State) : State :=
  s.each (Tab.keys s.lp.sh.act.regs) fun s k => s.refillEntry (.pairRead 0) 10 k (Tab.get (fun _ => {}) s.lp.sh.act.regs k)

def State.refillPorts (s : State) : State :=
  s.each (Tab.keys s.fab.sh.act.regs) fun s k => s.refillEntry (.port 0) 100 k (Tab.get (fun _ => {}) s.fab.sh.act.regs k)

theorem State.refillAll_eq (s : State) :
    s.refillAll = ((s.each (Tab.keys s.tiles) fun s t => s.refillTile t).refillPairs).refillPorts := rfl

/-! ### The tiles' regulators -/

/-- The entries of a tile's regulator and their levels. -/
def State.tileLevels (s : State) (t : Nat) : Tab RegSh × (Nat → Word) :=
  ((s.tile t).nbr.act.regs, Tab.get (fun _ => (0 : Word)) (s.tile t).levels)

/-- A tile with one level changed. -/
def Tile.setLevel (x : Tile) (k : Nat) (w : Word) : Tile := { x with levels := Tab.insert x.levels k w }

theorem State.tile_refillEntry (s : State) (t k : Nat) (e : RegSh) (j : Nat) :
    (s.refillEntry (.tile t) 100 k e).tile j = if j = t ∧ e.valid = true
      then (s.tile t).setLevel k (BitVec.ofInt 32
        (refillLevel (Tab.get (fun _ => (0 : Word)) (s.tile t).levels k).toInt e.guar.toNat 100))
      else s.tile j := by
  unfold State.refillEntry
  by_cases he : e.valid = true
  · rw [if_pos he]
    refine (State.tile_modTile _ _ _ _).trans ?_
    simp [he, State.level, Tile.setLevel]
  · rw [if_neg he, if_neg fun h => he h.2]

theorem State.tileLevels_refillTile (s : State) (t j : Nat) : (s.refillTile t).tileLevels j =
    if j = t then ((s.tile t).nbr.act.regs, fun k => if k ∈ Tab.keys (s.tile t).nbr.act.regs
      then refilled 100 (s.tile t).nbr.act.regs k (Tab.get (fun _ => (0 : Word)) (s.tile t).levels k)
      else Tab.get (fun _ => (0 : Word)) (s.tile t).levels k) else s.tileLevels j := by
  have hregs : ∀ (s : State) (k : Nat), ((s.refillEntry (.tile t) 100 k
      (Tab.get (fun _ => {}) (s.tile t).nbr.act.regs k)).tile t).nbr.act.regs = (s.tile t).nbr.act.regs := fun s k => by
    rw [State.tile_refillEntry]
    split <;> rfl
  by_cases hj : j = t
  · subst hj
    rw [if_pos rfl]
    refine Prod.ext (State.each_congr (fun s => (s.tile j).nbr.act.regs) s _ _ hregs) (funext fun k => ?_)
    refine State.each_once (g := fun s => Tab.get (fun _ => (0 : Word)) (s.tile j).levels)
      (c := fun s => (s.tile j).nbr.act.regs) (new := refilled 100) hregs (fun s k i => ?_) s (Tab.nodup_keys _) k
    rw [State.tile_refillEntry, refilled]
    by_cases he : (Tab.get (fun _ => ({} : RegSh)) (s.tile j).nbr.act.regs k).valid = true
    · rw [if_pos ⟨rfl, he⟩, if_pos he]
      exact Tab.get_insert _ _ _ _ _
    · rw [if_neg fun h => he h.2, if_neg he]
      split
      · rename_i h; rw [h]
      · rfl
  · rw [if_neg hj]
    refine State.each_congr (fun s => s.tileLevels j) s _ _ fun s k => ?_
    rw [State.tileLevels, State.tile_refillEntry, if_neg fun h => hj h.1, State.tileLevels]

/-- What the pairs' and the ports' refills leave of the tiles. -/
theorem State.tiles_refillPairs (s : State) : s.refillPairs.tiles = s.tiles :=
  State.each_congr State.tiles s _ _ fun s k => by
    unfold State.refillEntry
    split <;> rfl

theorem State.tiles_refillPorts (s : State) : s.refillPorts.tiles = s.tiles :=
  State.each_congr State.tiles s _ _ fun s k => by
    unfold State.refillEntry
    split <;> rfl

/-- A tile's level after one µs. -/
theorem State.tile_refillAll (s : State) {t k : Nat} (hk : k ∈ (s.tile t).nbr.act.regs.map (·.1)) :
    Tab.get (fun _ => (0 : Word)) (s.refillAll.tile t).levels k = if t ∈ s.tiles.map (·.1)
      then refilled 100 (s.tile t).nbr.act.regs k (Tab.get (fun _ => (0 : Word)) (s.tile t).levels k)
      else Tab.get (fun _ => (0 : Word)) (s.tile t).levels k := by
  have hlast : s.refillAll.tile t = (s.each (Tab.keys s.tiles) fun s t => s.refillTile t).tile t := by
    rw [State.refillAll_eq, State.tile, State.tiles_refillPorts, State.tiles_refillPairs, State.tile]
  have heach := State.each_once (g := State.tileLevels) (c := fun _ => ()) (f := fun s t => s.refillTile t)
    (new := fun _ _ x => (x.1, fun k => if k ∈ Tab.keys x.1 then refilled 100 x.1 k (x.2 k) else x.2 k)) (fun _ _ => rfl)
    (fun s t j => s.tileLevels_refillTile t j) s (Tab.nodup_keys s.tiles) t
  have hlevels := congrFun (congrArg Prod.snd heach) k
  rw [hlast]
  refine hlevels.trans ?_
  by_cases ht : t ∈ s.tiles.map (·.1)
  · rw [if_pos (Tab.mem_keys.mpr ht), if_pos ht]
    exact if_pos (Tab.mem_keys.mpr hk)
  · rw [if_neg fun h => ht (Tab.mem_keys.mp h), if_neg ht]
    rfl

/-! ### The pairs' regulators -/

theorem State.lp_refillTiles (s : State) (l : List Nat) : (s.each l fun s t => s.refillTile t).lp = s.lp :=
  State.each_congr State.lp s _ _ fun s t => State.each_congr State.lp s _ _ fun s k => by
    unfold State.refillEntry
    split <;> rfl

theorem State.lp_refillPorts (s : State) : s.refillPorts.lp = s.lp :=
  State.each_congr State.lp s _ _ fun s k => by
    unfold State.refillEntry
    split <;> rfl

theorem State.level_refillPairs (s : State) (k : Nat) : Tab.get (fun _ => (0 : Word)) s.refillPairs.lp.levels k =
    if k ∈ Tab.keys s.lp.sh.act.regs then refilled 10 s.lp.sh.act.regs k (Tab.get (fun _ => (0 : Word)) s.lp.levels k)
    else Tab.get (fun _ => (0 : Word)) s.lp.levels k := by
  refine State.each_once (g := fun s => Tab.get (fun _ => (0 : Word)) s.lp.levels) (c := fun s => s.lp.sh.act.regs)
    (new := refilled 10) (fun s k => ?_) (fun s k i => ?_) s (Tab.nodup_keys _) k
  · unfold State.refillEntry
    split <;> rfl
  · unfold State.refillEntry
    rw [refilled]
    split
    · exact Tab.get_insert _ _ _ _ _
    · split
      · rename_i h; rw [h]
      · rfl

/-- A pair's level after one µs. -/
theorem State.pair_refillAll (s : State) {k : Nat} (hk : k ∈ s.lp.sh.act.regs.map (·.1)) :
    Tab.get (fun _ => (0 : Word)) s.refillAll.lp.levels k =
      refilled 10 s.lp.sh.act.regs k (Tab.get (fun _ => (0 : Word)) s.lp.levels k) := by
  rw [State.refillAll_eq, State.lp_refillPorts, State.level_refillPairs, State.lp_refillTiles]
  exact if_pos (Tab.mem_keys.mpr hk)

/-! ### The statements -/

theorem regulatorsRefill : Stated.RegulatorsRefill := by
  intro s
  refine ⟨s.refillAll, rfl, fun t k hk => ?_, fun k hk => ?_⟩
  · rw [State.tile_refillAll s hk, refilled]
    rw [refillLevel_eq]
    by_cases ht : t ∈ s.tiles.map (·.1)
    · simp only [ht, and_true, if_true]
      rfl
    · simp only [ht, and_false, if_false]
  · intro e old hvalid
    rw [State.pair_refillAll s hk, refilled]
    rw [if_pos hvalid, refillLevel_eq]
    rfl

/-- Settles O33: an invalidation filters every look-aside by its range, a signal ends the waits that it reaches, and a refill
visits each entry of a regulator once. -/
theorem translationAndRegulators : Obligations.TranslationAndRegulators := ⟨translationCommands, regulatorsRefill⟩

end Sys2Proof.Machine
end

section
/-! SUPPORT. Commands as Itlum runs them (R391, R392, R400): a request that passes its checks runs its command; what a response
carries to its requester; a function that an FLR has caught while its mailbox was busy. -/

set_option Elab.async false

namespace Sys2Proof.Machine

/-! ### The bytes of a message (R390) -/

theorem length_toBytes (n v : Nat) : (toBytes n v).length = n := by
  induction n generalizing v with
  | zero => rfl
  | succ n ih => simp [toBytes, ih]

theorem drop_toBytes_append {k o : Nat} (v : Nat) (rest : Bytes) (h : k ≤ o) :
    (toBytes k v ++ rest).drop o = rest.drop (o - k) := by
  rw [List.drop_append, List.drop_eq_nil_of_le (by rw [length_toBytes]; exact h), length_toBytes, List.nil_append]

/-- A field behind the first field of some bytes. -/
theorem hdF_skip {k o : Nat} (v : Nat) (rest : Bytes) (n : Nat) (h : k ≤ o) :
    hdF (toBytes k v ++ rest) o n = hdF rest (o - k) n := by
  unfold hdF bytesAt
  rw [drop_toBytes_append v rest h]

/-- The first field of some bytes. -/
theorem hdF_first (n v : Nat) (rest : Bytes) : hdF (toBytes n v ++ rest) 0 n = v % 256 ^ n := by
  unfold hdF bytesAt
  rw [List.drop_zero, List.take_append_of_le_length (by rw [length_toBytes]), List.take_of_length_le (by rw [length_toBytes]),
    leNat_toBytes]

/-- Opcode, REQ_ID, STATUS, CID and payload of a message are where R390 has them. -/
theorem itlMessage_fields (flags op reqId status cid origin part owner lease detail cadence tick block ref : Nat) (b : Bytes) :
    let m := itlMessage flags op reqId status cid origin part owner lease detail cadence tick block ref b
    hdF m 2 2 = op % 256 ^ 2 ∧ hdF m 4 4 = reqId % 256 ^ 4 ∧ hdF m 0x0A 2 = status % 256 ^ 2 ∧ hdF m 0x0C 2 = cid % 256 ^ 2 ∧
      m.drop 64 = b := by
  intro m
  unfold m itlMessage
  generalize crc32c _ = c
  simp [List.append_assoc, hdF_skip, hdF_first, drop_toBytes_append]

/-- The first part of a payload cut for responses. -/
theorem headD_cutParts (b : Bytes) : (cutParts 4032 b).headD [] = b.take 4032 := by
  cases b with
  | nil => rfl
  | cons x b =>
    unfold cutParts
    obtain ⟨n, hn⟩ : ∃ n, ((x :: b).length + 4032 - 1) / 4032 = n + 1 :=
      ⟨((x :: b).length + 4032 - 1) / 4032 - 1, by rw [List.length_cons]; omega⟩
    rw [hn, List.range_succ_eq_map]
    rfl

/-! ### Requesters (R386, R392) -/

/-- A requester after a change of its own that keeps its path. -/
theorem State.requester_modReq (s : State) (p : Path) (f : Requester → Requester) (hf : ∀ x, (f x).path = x.path) :
    (s.modReq p f).requester p = f (s.requester p) := by
  have hmap : ∀ l : List Requester, (l.any fun r => decide (r.path = p)) = true →
      ((l.map fun r => if r.path = p then f r else r).find? fun r => decide (r.path = p)).getD { path := p } =
        f ((l.find? fun r => decide (r.path = p)).getD { path := p }) := by
    intro l
    induction l with
    | nil => intro h; cases h
    | cons r l ih =>
      intro h
      by_cases hr : r.path = p
      · simp [hr, hf]
      · rw [List.any_cons, decide_eq_false hr, Bool.false_or] at h
        simpa [hr] using ih h
  unfold State.modReq
  by_cases h : (s.itl.reqs.any fun r => decide (r.path = p)) = true
  · rw [if_pos h]
    exact hmap _ h
  · rw [if_neg h]
    have hnone : s.itl.reqs.find? (fun r => decide (r.path = p)) = none := by
      simpa [List.find?_eq_none] using h
    simp [State.requester, List.find?_append, hnone, hf]

theorem Within.requester_eq {M : List Block} {s u : State} (h : Within M s u) (p : Path) (hM : M.contains .itl = false := by decide) :
    u.requester p = s.requester p := by
  unfold State.requester
  rw [h.itl_eq hM]

/-! ### Mailboxes whose function an FLR has caught (R337, R392) -/

/-- For each function, whether an FLR has come while its mailbox was busy. -/
def State.flrWaits (s : State) (k : Nat) : Bool := (Tab.get (fun _ => ({} : Func)) s.hst.funcs k).mail.flrWhileBusy

theorem Within.flrWaits_eq {M : List Block} {s u : State} (h : Within M s u) (hM : M.contains .hst = false := by decide) :
    u.flrWaits = s.flrWaits := by
  unfold State.flrWaits
  rw [h.hst_eq hM]

theorem State.modFunc_flrWaits (s : State) (h f : Nat) {g : Func → Func}
    (hg : ∀ x, (g x).mail.flrWhileBusy = x.mail.flrWhileBusy) : (s.modFunc h f g).flrWaits = s.flrWaits := by
  funext k
  show (Tab.get _ (Tab.insert s.hst.funcs (funcKey h f) (g (s.func h f))) k).mail.flrWhileBusy = _
  rw [Tab.get_insert]
  split
  · rename_i hk
    subst hk
    exact hg _
  · rfl

theorem State.msix_flrWaits (s : State) (h f v : Nat) : (s.msix h f v).flrWaits = s.flrWaits := by
  unfold State.msix
  dsimp only
  split
  · rfl
  split
  · exact s.modFunc_flrWaits h f fun _ => rfl
  · rfl

/-- A mailbox but for its interrupts after a message of its function. -/
theorem State.msix_mail (s : State) (h f v : Nat) : ((s.msix h f v).func h f).mail = (s.func h f).mail := by
  unfold State.msix
  dsimp only
  split
  · rfl
  split
  · rw [State.func_modFunc_same]
  · rfl

/-! ### Responses (R390, R392, R619) -/

/-- A response that comes back on its path is received, but where an FLR has caught its mailbox. -/
theorem State.deliverRsp_received {s v : State} (p : Path) (m : Bytes) (hflr : v.flrWaits = s.flrWaits) :
    received s (v.deliverRsp p m) p m := by
  cases p with
  | mailbox h f =>
    intro hs
    have hv : (v.func h.val f.val).mail.flrWhileBusy = false := (congrFun hflr (funcKey h.val f.val)).trans hs
    have hmail : ∀ (w : State) (c : Bool) n, ((w.when c fun s => s.msix h.val f.val n).func h.val f.val).mail =
        (w.func h.val f.val).mail := fun w c n => by
      cases c
      · rfl
      · exact w.msix_mail _ _ _
    unfold State.deliverRsp
    dsimp only
    rw [if_neg (by rw [hv]; exact Bool.false_ne_true), hmail, State.func_modFunc_same]
    exact ⟨rfl, rfl, rfl⟩
  | mctp e => exact List.mem_append_right _ (List.mem_singleton.mpr rfl)
  | peer k => exact List.mem_append_right _ (List.mem_singleton.mpr rfl)
  | site => exact List.mem_append_right _ (List.mem_singleton.mpr rfl)

/-- A response ends its path's request and leaves its long command. -/
theorem State.requester_respond (s : State) (r : ItlReq) (status detail block : Nat) (b : Bytes) :
    ((s.respond r status detail block b).requester r.path).busy = none ∧
    ((s.respond r status detail block b).requester r.path).rspRest = (cutParts 4032 b).drop 1 ∧
    ((s.respond r status detail block b).requester r.path).longOp = (s.requester r.path).longOp := by
  unfold State.respond State.respondParts
  dsimp only
  rw [(State.deliverRsp_within _ _ _).requester_eq]
  show (State.requester (s.modReq r.path _) r.path).busy = none ∧ (State.requester (s.modReq r.path _) r.path).rspRest = _ ∧
    (State.requester (s.modReq r.path _) r.path).longOp = _
  rw [State.requester_modReq]
  · exact ⟨rfl, rfl, rfl⟩
  · exact fun _ => rfl

theorem State.respond_responds {s : State} (v : State) (r : ItlReq) {status : Nat} (detail block : Nat) (b : Bytes) (hst : status < 65536)
    (hflr : v.flrWaits = s.flrWaits) : responds s (v.respond r status detail block b) r status b := by
  obtain ⟨hbusy, hrest, -⟩ := v.requester_respond r status detail block b
  refine ⟨hbusy, hrest, v.rspBytes r.path r.op.toNat r.reqId r.cid r.part status detail block
    (decide (1 < (cutParts 4032 b).length)) r.payload ((cutParts 4032 b).headD []), ?_, ?_⟩
  · unfold State.respond State.respondParts
    dsimp only
    refine State.deliverRsp_received _ _ (Eq.trans ?_ hflr)
    exact (State.modItl_within _ _).flrWaits_eq.trans (State.modReq_within _ _ _).flrWaits_eq
  · obtain ⟨hop, hid, hstatus, hcid, hpayload⟩ := itlMessage_fields (1 + (if decide (1 < (cutParts 4032 b).length) then 4 else 0))
      r.op.toNat r.reqId.toNat status r.cid.toNat (originOf r.path) r.part 0 0 detail v.cad.epoch.toNat v.cad.tick.toNat block
      (v.refOf r.op.toNat status r.cid r.payload) ((cutParts 4032 b).headD [])
    have h16 : ∀ x : BitVec 16, x.toNat % 256 ^ 2 = x.toNat := fun x => Nat.mod_eq_of_lt x.isLt
    unfold State.rspBytes
    exact ⟨hop.trans (h16 _), hid.trans (Nat.mod_eq_of_lt r.reqId.isLt), hstatus.trans (Nat.mod_eq_of_lt hst),
      hcid.trans (h16 _), hpayload.trans (headD_cutParts b)⟩

/-- IT_OK with a payload. -/
theorem State.answer_responds {s : State} (v : State) (r : ItlReq) (b : Bytes) (hflr : v.flrWaits = s.flrWaits) :
    responds s (v.answer r b) r 0 b :=
  State.respond_responds v r 0 0 b (by omega) hflr

/-- A long command that is accepted is under way (R392). -/
theorem State.accepted_isUnderWay {s : State} (v : State) (r : ItlReq) (key : Nat) (hflr : v.flrWaits = s.flrWaits) :
    isUnderWay s (v.accepted r key) r key := by
  unfold State.accepted
  dsimp only
  refine ⟨State.respond_responds _ r 0 0 [] (by omega) ((State.modReq_within _ _ _).flrWaits_eq.trans hflr), ?_⟩
  rw [(State.requester_respond _ r 1 0 0 []).2.2, State.requester_modReq]
  exact fun _ => rfl

/-! ### A request that passes runs its command (R391) -/

section
variable {s : State} {p : Path} {op : Nat} {ok : Bytes → Bool} {f : ItlReq → State → State} {r : ItlReq}

theorem State.command_of_passes (h : passes s p op (ok r.payload) r) (hop : (opInfo op).isSome = true) :
    s.command p op ok f = f r s := by
  obtain ⟨hdue, -, hok, hhalt, hall⟩ := h
  obtain ⟨i, hi⟩ := Option.isSome_iff_exists.mp hop
  rw [hi] at hhalt hall
  simp only [Option.any_some, decide_eq_true_eq] at hhalt
  simp only [Option.all_some, Bool.and_eq_true, Bool.or_eq_true, Bool.not_eq_true', decide_eq_true_eq] at hall
  obtain ⟨hlease, hlong⟩ := hall
  unfold State.command
  simp only [hdue, hi]
  rw [if_neg fun ⟨hst, hq, h901⟩ => (hhalt hst).elim h901 hq, if_neg (by simp [hok]), if_neg, if_neg]
  · rintro ⟨hl, hbusy⟩
    rw [hl] at hlong
    obtain hl | hn := hlong
    · cases hl
    · rw [Option.isNone_iff_eq_none] at hn
      rw [hn] at hbusy
      cases hbusy
  · rintro ⟨hcls, hbad⟩
    obtain ⟨hw, hf⟩ | hgood := hlease
    · exact hcls.elim hw hf
    · rw [hgood] at hbad
      cases hbad

theorem State.commitCommand_of_passes (h : passesCommit s p op (ok r.payload) r) (hop : (opInfo op).isSome = true) :
    s.commitCommand p op ok f = f r s := by
  obtain ⟨hpasses, hheld, hwaits⟩ := h
  unfold State.commitCommand
  rw [if_neg (by simp [hheld, hwaits]), State.command_of_passes hpasses hop]

theorem State.imageCommand_of_passes (h : passesCommit s p op (ok r.payload) r) (hop : (opInfo op).isSome = true) :
    s.imageCommand p op ok f = f r s := by
  have hholds : s.itlumHolds r.cid = false := by
    unfold State.itlumHolds
    rw [h.2.1]
  unfold State.imageCommand
  rw [h.1.1]
  dsimp only
  rw [if_neg (by rw [hholds]; exact Bool.false_ne_true), State.commitCommand_of_passes h hop]

end

end Sys2Proof.Machine
end

section
/-! SUPPORT. Events, notifications, records and writes to host memory leave each function's mailbox as an FLR has found it or
not (R337, R392). -/

set_option Elab.async false

namespace Sys2Proof.Machine

/-- A reading that a change made only where a condition holds leaves as it was. -/
theorem State.when_congr {β : Type} (g : State → β) (s : State) (c : Bool) {f : State → State} (hf : g (f s) = g s) :
    g (s.when c f) = g s := by
  cases c
  · rfl
  · exact hf

/-- A reading that both branches leave as it was. -/
theorem State.ite_congr {β : Type} (g : State → β) {s a b : State} {c : Prop} [Decidable c] (ha : c → g a = g s)
    (hb : ¬c → g b = g s) : g (if c then a else b) = g s := by
  split
  · exact ha ‹_›
  · exact hb ‹_›

/-! ### The event controller -/

theorem State.deliver_flrWaits (s : State) (g : Nat) : (s.deliver g).flrWaits = s.flrWaits := by
  unfold State.deliver
  dsimp only
  refine State.ite_congr State.flrWaits (fun _ => rfl) fun _ => ?_
  refine (State.each_congr State.flrWaits _ _ _ fun s h => s.msix_flrWaits _ _ _).trans ?_
  exact State.each_congr State.flrWaits _ _ _ fun s c => rfl

section
variable {log : State → State} (hlog : ∀ s, (log s).flrWaits = s.flrWaits)
include hlog

theorem State.pendSet_flrWaits (s : State) (k : Nat) : (s.pendSet k log).flrWaits = s.flrWaits := by
  unfold State.pendSet
  exact (State.deliver_flrWaits _ _).trans (State.when_congr State.flrWaits _ _ (hlog _))

theorem State.edgeWith_flrWaits (s : State) (k : Nat) (level : Bool) : (s.edgeWith k level log).flrWaits = s.flrWaits := by
  have hmod : ∀ (v : State) f, (v.modSrc k f).flrWaits = v.flrWaits := fun _ _ => rfl
  have hset := State.pendSet_flrWaits hlog
  unfold State.edgeWith
  dsimp only
  refine State.ite_congr State.flrWaits (fun _ => rfl) fun _ => State.ite_congr State.flrWaits (fun _ => ?_) fun _ => ?_
  · exact State.ite_congr State.flrWaits (fun _ => rfl) fun _ => State.ite_congr State.flrWaits (fun _ => rfl) fun _ => rfl
  · refine State.ite_congr State.flrWaits (fun _ => rfl) fun _ => State.ite_congr State.flrWaits (fun _ => ?_) fun _ => ?_
    · refine State.ite_congr State.flrWaits (fun _ => rfl) fun _ => State.ite_congr State.flrWaits (fun _ => hset _ _) fun _ => ?_
      exact State.ite_congr State.flrWaits (fun _ => rfl) fun _ => rfl
    · refine State.ite_congr State.flrWaits (fun _ => ?_) fun _ => rfl
      exact State.ite_congr State.flrWaits (fun _ => rfl) fun _ => hset _ _

end

theorem State.pulse912_flrWaits (s : State) : s.pulse912.flrWaits = s.flrWaits := by
  have hlog : ∀ v : State,
      (if (v.logPush 0x03 912 0 (v.eventData 912)).2 then
        (v.logPush 0x03 912 0 (v.eventData 912)).1.modSrc 912 fun x => { x with merged := satInc x.merged }
      else (v.logPush 0x03 912 0 (v.eventData 912)).1).flrWaits = v.flrWaits := fun v => by
    have hpush := (v.logPush_within 0x03 912 0 (v.eventData 912)).flrWaits_eq
    exact State.ite_congr State.flrWaits (fun _ => hpush) fun _ => hpush
  unfold State.pulse912
  exact (State.edgeWith_flrWaits hlog _ _ _).trans (State.edgeWith_flrWaits hlog _ _ _)

theorem State.log_flrWaits (s : State) (cls source : Nat) (cid : Cid) (data : Bytes) :
    (s.log cls source cid data).flrWaits = s.flrWaits := by
  have hpush := (s.logPush_within cls source cid data).flrWaits_eq
  unfold State.log
  exact State.ite_congr State.flrWaits (fun _ => (State.pulse912_flrWaits _).trans hpush) fun _ => hpush

theorem State.edge_flrWaits (s : State) (k : Nat) (level : Bool) : (s.edge k level).flrWaits = s.flrWaits :=
  State.edgeWith_flrWaits (fun v => v.log_flrWaits _ _ _ _) _ _ _

theorem State.pulse_flrWaits (s : State) (k : Nat) : (s.pulse k).flrWaits = s.flrWaits :=
  (State.edge_flrWaits _ _ _).trans (s.edge_flrWaits _ _)

theorem State.tileSignal_flrWaits (s : State) (t : Nat) : (s.tileSignal t).flrWaits = s.flrWaits := by
  unfold State.tileSignal
  exact State.ite_congr State.flrWaits (fun _ => rfl) fun _ => s.edge_flrWaits _ _

/-! ### Notifications -/

theorem State.notifyMailbox_flrWaits (s : State) (h f code cid : Nat) (payload : Bytes) :
    (s.notifyMailbox h f code cid payload).flrWaits = s.flrWaits := by
  unfold State.notifyMailbox
  dsimp only
  refine State.ite_congr State.flrWaits (fun _ => s.modFunc_flrWaits h f fun _ => rfl) fun _ => ?_
  refine (State.when_congr State.flrWaits _ _ (State.msix_flrWaits _ _ _ _)).trans ?_
  exact s.modFunc_flrWaits h f fun _ => rfl

theorem State.notifyDropped_flrWaits (s : State) (code : Nat) (cid : Cid) : (s.notifyDropped code cid).flrWaits = s.flrWaits :=
  (State.pulse_flrWaits _ _).trans (State.log_flrWaits _ _ _ _ _)

theorem State.notifyPath_flrWaits (s : State) (p : Path) (code : Nat) (cid : Cid) (payload : Bytes) :
    (s.notifyPath p code cid payload).flrWaits = s.flrWaits := by
  cases p with
  | mailbox h f => exact s.notifyMailbox_flrWaits _ _ _ _ _
  | mctp e => rfl
  | peer k => rfl
  | site => rfl

theorem State.opDone_flrWaits (s : State) (op : Nat) (cid : Cid) (key status detail block : Nat) :
    (s.opDone op cid key status detail block).flrWaits = s.flrWaits := by
  unfold State.opDone
  exact State.each_congr State.flrWaits _ _ _ fun v r => v.notifyPath_flrWaits _ _ _ _

theorem State.notifyCid_flrWaits (s : State) (cid : Cid) (code : Nat) (payload : Bytes) :
    (s.notifyCid cid code payload).flrWaits = s.flrWaits := by
  unfold State.notifyCid
  cases (s.lease cid).dest with
  | boundFunction =>
    dsimp only
    cases s.boundFunc cid with
    | some hf => exact s.notifyMailbox_flrWaits _ _ _ _ _
    | none => exact s.notifyDropped_flrWaits _ _
  | mctp e => rfl
  | peer m => exact State.ite_congr State.flrWaits (fun _ => rfl) fun _ => s.notifyDropped_flrWaits _ _

/-! ### Writes to host memory -/

theorem State.dlogPut_flrWaits (s : State) (h f w0 w1 : Nat) : (s.dlogPut h f w0 w1).flrWaits = s.flrWaits := by
  have hfunc : ∀ (v : State) (g : Dlog → Dlog), (v.modFunc h f fun x => { x with dlog := g x.dlog }).flrWaits = v.flrWaits :=
    fun v g => v.modFunc_flrWaits h f fun _ => rfl
  unfold State.dlogPut
  dsimp only
  refine State.ite_congr State.flrWaits (fun _ => rfl) fun _ => State.ite_congr State.flrWaits (fun _ => ?_) fun _ => ?_
  · exact (State.pulse_flrWaits _ _).trans (hfunc _ fun d => { d with ovf := true })
  · exact hfunc _ fun d => { d with prod := d.prod + 1 }

theorem State.dlogDevice_flrWaits (s : State) (cid : Cid) (mpa : Nat) : (s.dlogDevice cid mpa).flrWaits = s.flrWaits := by
  unfold State.dlogDevice
  refine State.each_congr State.flrWaits _ _ _ fun v e => (State.dlogPut_flrWaits _ _ _ _ _).trans ?_
  exact v.modFunc_flrWaits _ _ fun _ => rfl

theorem State.atsAsk_flrWaits (s : State) (h f : Nat) (pasid : BitVec 20) (page : Nat) :
    (s.atsAsk h f pasid page).flrWaits = s.flrWaits := by
  unfold State.atsAsk
  exact State.ite_congr State.flrWaits (fun _ => rfl) fun _ => rfl

theorem State.hostWrite_flrWaits (s : State) (h f : Nat) (pasid : Option (BitVec 20)) (a : DWord) (b : Bytes) :
    (s.hostWrite h f pasid a b).flrWaits = s.flrWaits := by
  have hlogged : ∀ (v : State) (c : Bool) g w0 w1 m,
      ((if c = true then (v.modHPort h g).dlogPut h f w0 w1 else v).emit m).flrWaits = v.flrWaits := fun v c g w0 w1 m => by
    rw [(State.emit_within _ m).flrWaits_eq]
    exact State.ite_congr State.flrWaits (fun _ => State.dlogPut_flrWaits _ _ _ _ _) fun _ => rfl
  unfold State.hostWrite State.hostWriteAs
  dsimp only
  cases pasid with
  | none => exact hlogged s _ _ _ _ _
  | some p => exact (hlogged (s.atsAsk h f p (a.toNat / 4096)) _ _ _ _ _).trans (s.atsAsk_flrWaits _ _ _ _)

/-! ### Records -/

theorem State.fqWrite_flrWaits (s : State) (slot : Nat) (hf : Nat × Nat) (kind code : Nat) (ctx : Ctx) (cid : Cid) (body : Bytes) :
    (s.fqWrite slot hf kind code ctx cid body).flrWaits = s.flrWaits := by
  unfold State.fqWrite
  dsimp only
  refine (State.when_congr State.flrWaits _ _ (State.msix_flrWaits _ _ _ _)).trans ?_
  exact (State.modFq_within _ _ _).flrWaits_eq.trans (s.hostWrite_flrWaits _ _ _ _ _)

theorem State.moduleRecord_flrWaits (s : State) (cid : Cid) (cls resource : Nat) :
    (s.moduleRecord cid cls resource).flrWaits = s.flrWaits := by
  have hdrop : ∀ slot, (((s.fqDrop slot).modFq slot fun x => { x with movf := true }).pulse 856).flrWaits = s.flrWaits :=
    fun slot => State.pulse_flrWaits _ _
  unfold State.moduleRecord
  cases s.slotOf cid with
  | none => rfl
  | some slot =>
    dsimp only
    cases s.fqTarget cid slot with
    | none => exact hdrop slot
    | some hf => exact State.ite_congr State.flrWaits (fun _ => hdrop slot) fun _ => s.fqWrite_flrWaits _ _ _ _ _ _ _

theorem State.moduleRecords_flrWaits (s : State) (cids : List Cid) (cls resource : Nat) :
    (s.moduleRecords cids cls resource).flrWaits = s.flrWaits :=
  (State.pulse_flrWaits _ _).trans (State.each_congr State.flrWaits s cids _ fun v _ => v.moduleRecord_flrWaits _ _ _)

theorem State.setPairSt_flrWaits (s : State) (p : Nat) (st : PairSt) : (s.setPairSt p st).flrWaits = s.flrWaits := by
  have h : ((s.modPair p fun x => { x with st := st }).pulse (640 + p)).flrWaits = s.flrWaits := State.pulse_flrWaits _ _
  unfold State.setPairSt
  exact State.ite_congr State.flrWaits (fun _ => rfl) fun _ => State.ite_congr State.flrWaits (fun _ => h) fun _ =>
    (State.moduleRecords_flrWaits _ _ _ _).trans h

/-- A TDI that enters ERROR keeps its mailbox (R340). -/
theorem State.tdiError_flrWaits (s : State) (h f cause : Nat) : (s.tdiError h f cause).flrWaits = s.flrWaits := by
  unfold State.tdiError
  refine State.ite_congr State.flrWaits (fun _ => (State.pulse_flrWaits _ _).trans ?_) fun _ => rfl
  exact s.modFunc_flrWaits h f fun _ => rfl

end Sys2Proof.Machine
end

section
/-! SUPPORT. Pairs held as spares and forwarded moves by command: SPARE_HOLD, SPARE_FREE, PAIR_MOVE (R238, R243, R403). -/

set_option Elab.async false

namespace Sys2Proof.Machine

section
variable {p : Path} {s : State} {r : ItlReq} {a b : Nat}

theorem spareHolds (hpass : passes s p 0x0304 (reservedOk r.payload [(0, 0, 8)] && pairByte r.payload 0) r)
    (ha : hdF r.payload 0 1 = a) (hrec : s.recovering (a / 96) = false) (hst : (s.pair a).st = .active)
    (hsite : (s.pair a).siteSpare = false) (hbusy : s.pairBusy a = false) (hbound : s.pairBound a = false)
    (hfree : s.notFree (.pair a) = false) :
    Does (.spareHold p) s fun u => u.pair a = { s.pair a with siteSpare := true } ∧
      u.brd = { s.brd with res := s.brd.res ++ [(.pair a, 0, .clearing)] } ∧ responds s u r 0 [] := by
  let v := (s.modPair a fun x => { x with siteSpare := true }).modBrd fun b =>
    { b with res := b.res ++ [(.pair a, 0, .clearing)] }
  have hans := v.answer_within r []
  refine ⟨v.answer r [], ?_, ?_, ?_, State.answer_responds v r [] rfl⟩
  · show Host.Outcome.next (s.command p 0x0304 _ _) = _
    rw [State.command_of_passes hpass rfl]
    simp [ha, hrec, hst, hsite, hbusy, hbound, hfree, v]
  · rw [hans.pair_eq]
    exact (s.pair_modPair a (fun x => { x with siteSpare := true }) a).trans (if_pos rfl)
  · exact hans.brd_eq rfl

theorem spareFrees (hpass : passes s p 0x0305 (reservedOk r.payload [(0, 0, 8)] && pairByte r.payload 0) r)
    (ha : hdF r.payload 0 1 = a) (hrec : s.recovering (a / 96) = false) (hst : (s.pair a).st = .spareReady)
    (hsite : (s.pair a).siteSpare = true) (hbusy : s.pairBusy a = false) (hbound : s.pairBound a = false)
    (htaken : s.taken a = false) :
    Does (.spareFree p) s fun u => u.pair a = { s.pair a with siteSpare := false, st := .active } ∧ responds s u r 0 [] := by
  let v := (s.modPair a fun x => { x with siteSpare := false }).setPairSt a .active
  refine ⟨v.answer r [], ?_, ?_, State.answer_responds v r [] (State.setPairSt_flrWaits _ _ _)⟩
  · show Host.Outcome.next (s.command p 0x0305 _ _) = _
    rw [State.command_of_passes hpass rfl]
    simp [ha, hrec, hst, hsite, hbusy, hbound, htaken, v]
  · rw [(v.answer_within r []).pair_eq, State.pair_setPairSt, if_pos rfl, State.pair_modPair, if_pos rfl]

/-- The registers of a half's move as PAIR_MOVE sets them (R257). -/
def State.moveAsked (s : State) (a b rate : Nat) : State := s.modMove (a / 96) fun m => { m with
  regSrc := BitVec.ofNat 8 a, regDst := BitVec.ofNat 8 b, regRate := BitVec.ofNat 4 rate }

/-- A half's move as PAIR_MOVE starts it (R238). -/
def Move.started (m : Move) (a b rate : Nat) : Move := { m with
  regSrc := BitVec.ofNat 8 a, regDst := BitVec.ofNat 8 b, regRate := BitVec.ofNat 4 rate,
  src := BitVec.ofNat 8 a, dst := BitVec.ofNat 8 b, rate := BitVec.ofNat 4 rate, st := .copying, cursor := 0 }

/-- No copy, switch or clear of a half's move is under way. -/
def Move.rests (m : Move) : Prop := ¬ (m.st = .copying ∨ m.st = .switching ∨ m.st = .clearing)

/-- A destination that nothing used stays so when the registers of a move that rests are set. -/
theorem State.taken_modMove {h : Nat} {f : Move → Move} (hm : (s.moveH h).rests) (hf : (f (s.moveH h)).st = (s.moveH h).st)
    (htaken : s.taken b = false) : (s.modMove h f).taken b = false := by
  unfold State.taken at htaken ⊢
  simp only [Bool.or_eq_false_iff, decide_eq_false_iff_not] at htaken ⊢
  refine ⟨?_, htaken.2⟩
  rw [State.moveH_modMove]
  split
  · rw [hf]
    exact fun ⟨hst, _⟩ => hm hst
  · exact htaken.1

theorem State.moveStart_of_ready {rate : Nat} (ha : a < 192) (hb : b < 192) (hhalf : a / 96 = b / 96)
    (hsrc : (s.pair a).st = .active ∨ (s.pair a).st = .degraded) (hfree : s.notFree (.pair a) = false)
    (hdst : (s.pair b).st = .spareReady) (htaken : s.taken b = false) (hm : (s.moveH (a / 96)).rests) :
    ∃ u, (s.moveAsked a b rate).moveStart (a / 96) = some u ∧ Within [.brd] s u ∧
      u.moveH (a / 96) = (s.moveH (a / 96)).started a b rate := by
  have hmove : (s.moveAsked a b rate).moveH (a / 96) = _ := (s.moveH_modMove _ _ _).trans (if_pos rfl)
  have ha8 : (BitVec.ofNat 8 a).toNat = a := Nat.mod_eq_of_lt (by omega)
  have hb8 : (BitVec.ofNat 8 b).toNat = b := Nat.mod_eq_of_lt (by omega)
  let v := (s.moveAsked a b rate).modMove (a / 96) fun m => { m with src := m.regSrc, dst := m.regDst, rate := m.regRate }
  have hv : v.moveH (a / 96) = { s.moveH (a / 96) with
      regSrc := BitVec.ofNat 8 a, regDst := BitVec.ofNat 8 b, regRate := BitVec.ofNat 4 rate,
      src := BitVec.ofNat 8 a, dst := BitVec.ofNat 8 b, rate := BitVec.ofNat 4 rate } := by
    rw [State.moveH_modMove, if_pos rfl, hmove]
  have hvtaken : v.taken b = false := by
    refine State.taken_modMove ?_ rfl (State.taken_modMove hm rfl htaken)
    show ((s.moveAsked a b rate).moveH (a / 96)).rests
    rw [hmove]
    exact hm
  have hgo : v.moveGo (a / 96) = some (v.modMove (a / 96) fun m => { m with st := .copying, cursor := 0 }) := by
    have hpair : ∀ j, v.pair j = s.pair j := fun _ => rfl
    have hnot : v.notFree (.pair a) = false := hfree
    unfold State.moveGo
    dsimp only
    rw [hv]
    dsimp only
    rw [ha8, hb8]
    refine if_neg ?_
    rw [hvtaken, hnot, hpair, hpair, decide_eq_true hsrc, decide_eq_false hm]
    simp [hdst, hhalf]
    omega
  refine ⟨v.modMove (a / 96) fun m => { m with st := .copying, cursor := 0 }, ?_, ?_, ?_⟩
  · unfold State.moveStart
    dsimp only
    rw [hmove, if_neg hm]
    exact hgo
  · exact ((s.modMove_within _ _).trans (State.modMove_within _ _ _)).trans (State.modMove_within _ _ _)
  · rw [State.moveH_modMove, if_pos rfl, hv]
    rfl

theorem pairMoves (hpass : passes s p 0x0306 (reservedOk r.payload [(0, 0, 8), (1, 0, 8), (2, 0, 4)] &&
      pairByte r.payload 0 && pairByte r.payload 1 && decide (1 ≤ hdF r.payload 2 1 ∧ hdF r.payload 2 1 ≤ 8)) r)
    (ha : hdF r.payload 0 1 = a) (hb : hdF r.payload 1 1 = b) (hrec : s.recovering (a / 96) = false) (hhalf : a / 96 = b / 96)
    (hsrc : (s.pair a).st = .active ∨ (s.pair a).st = .degraded) (hfree : s.notFree (.pair a) = false)
    (hdst : (s.pair b).st = .spareReady) (htaken : s.taken b = false) (hba : s.pairBusy a = false) (hbb : s.pairBusy b = false)
    (hm : (s.moveH (a / 96)).rests) :
    Does (.pairMove p) s fun u =>
      u.moveH (a / 96) = (s.moveH (a / 96)).started a b (hdF r.payload 2 1) ∧ isUnderWay s u r (a / 96) := by
  have hbytes : a < 192 ∧ b < 192 := by
    have hok := hpass.2.2.1
    simp only [Bool.and_eq_true, pairByte, decide_eq_true_eq, ha, hb] at hok
    exact ⟨hok.1.1.2, hok.1.2⟩
  obtain ⟨u, hstart, hwithin, hmove⟩ := State.moveStart_of_ready (rate := hdF r.payload 2 1) hbytes.1 hbytes.2 hhalf hsrc hfree
    hdst htaken hm
  refine ⟨u.accepted r (a / 96), ?_, ?_, State.accepted_isUnderWay u r _ hwithin.flrWaits_eq⟩
  · show Host.Outcome.next (s.command p 0x0306 _ _) = _
    rw [State.command_of_passes hpass rfl]
    dsimp only
    rw [ha, hb, if_neg (by simp [← hhalf, hrec]), if_neg (by simp [hba, hbb]), if_neg (by rw [decide_eq_false hm]; exact Bool.false_ne_true)]
    exact congrArg Host.Outcome.next (by simp only [State.moveAsked] at hstart; rw [hstart])
  · rw [(u.accepted_within r (a / 96)).moveH_eq, hmove]

end

/-- Settles O45: each command passes its checks and refusals in turn; the move's registers are set before it is started, and a
move that rests uses no destination. -/
theorem sparesAndMoves : Obligations.SparesAndMoves := fun _ _ _ =>
  ⟨fun hpass hrec hst hsite hbusy hbound hfree => spareHolds hpass rfl hrec hst hsite hbusy hbound hfree,
    fun hpass hrec hst hsite hbusy hbound htaken => spareFrees hpass rfl hrec hst hsite hbusy hbound htaken,
    fun hpass hrec hhalf hsrc hfree hdst htaken hba hbb ⟨hcopy, hswitch, hclear⟩ =>
      pairMoves hpass rfl rfl hrec hhalf hsrc hfree hdst htaken hba hbb fun h => h.elim hcopy fun h => h.elim hswitch hclear⟩

end Sys2Proof.Machine
end

section
/-! SUPPORT. BRIDLE_IMAGE and UNBIND (R229, R230, R400, R402): the pending values that a change prepares, and the commit that holds
them for the boundary. -/

set_option Elab.async false

namespace Sys2Proof.Machine

/-! ### Pending values (R230) -/

/-- BRD's pending values with a slot bound. -/
def BrdSh.withSlot (x : BrdSh) (k : Nat) (cid : Cid) : BrdSh := { x with slots := Tab.insert x.slots k (true, cid) }

/-- What a change prepares binds its slot in the pending values of BRD; no active value changes. -/
theorem State.preparePending_spec (s : State) (k : Nat) (cid : Cid) (o n : Image) (g : Tab Igrp) (b : Nat) :
    (s.preparePending k cid o n g b).brd = { s.brd with sh := s.brd.sh.setPend fun x => x.withSlot k cid } ∧
    (s.preparePending k cid o n g b).xlt.sh.act = s.xlt.sh.act ∧ (s.preparePending k cid o n g b).lp.sh.act = s.lp.sh.act ∧
    (s.preparePending k cid o n g b).fab.sh.act = s.fab.sh.act := by
  have hbind : ∀ l : List (Nat × Nat),
      Within [.tiles] s (s.each l fun s x => s.modTile x.2 fun t => t.bindImage x.1 k cid n) := fun l =>
    State.each_within l _ (Within.refl _ s) fun v x h => h.trans (v.modTile_within _ _)
  unfold State.preparePending
  dsimp only
  have hv := hbind ((o.ltiles ++ n.ltiles).eraseDups.filterMap fun l => (s.physTile l).map fun t => (l, t))
  rw [← hv.brd_eq rfl, ← hv.xlt_eq rfl, ← hv.lp_eq rfl, ← hv.fab_eq rfl]
  exact ⟨rfl, rfl, rfl, rfl⟩

/-- A commit of every block that is accepted leaves the active values (R12, R399). -/
theorem State.allAccept_spec (s : State) :
    s.allAccept.brd.waiting = true ∧ s.allAccept.brd.sh.acc = some s.brd.sh.pend ∧ s.allAccept.brd.sh.act = s.brd.sh.act ∧
    s.allAccept.xlt.sh.act = s.xlt.sh.act ∧ s.allAccept.lp.sh.act = s.lp.sh.act ∧ s.allAccept.fab.sh.act = s.fab.sh.act :=
  ⟨rfl, rfl, rfl, rfl, rfl, rfl⟩

/-! ### The commit -/

/-- The slot of a composition, or the one that a first image takes (R224). -/
def State.imageSlot (s : State) (cid : Cid) : Nat := ((s.slotOf cid).orElse fun _ => s.freeSlotNo).getD 0

/-- What an image takes away from its composition (R232). -/
def State.imageGone (s : State) (cid : Cid) (n : Image) : List Resource := s.removed (s.slotOf cid) (s.image cid) n

/-- An image that no refusal of R229 meets, with the groups and the window run that it takes and each block's check passed. -/
structure State.Stands (s : State) (cid : Cid) (n : Image) (g : Tab Igrp) (b : Nat) : Prop where
  recovering : s.recoveringFor n = false ∧ s.recoveringFor (s.image cid) = false
  trained : n.entries.any s.untrained = false
  refusal : s.imageRefusal cid (s.slotOf cid) s.freeSlotNo (s.image cid) n (s.imageGone cid n) = none
  groups : s.newGroups (s.image cid) n (s.imageGone cid n) = some g
  run : s.findRun (s.imageSlot cid) n.nwin = some b
  check : (s.preparePending (s.imageSlot cid) cid (s.image cid) n g b).allCheck
    (fun j => if j = s.imageSlot cid then n.nwin else s.slotNwin j) (fun t b => (s.bank t b).cid) = none

/-- An image committed as one change that Itlum holds for the boundary. -/
def State.imageHeld (s : State) (r : ItlReq) (n : Image) (g : Tab Igrp) (b : Nat) : State :=
  (s.preparePending (s.imageSlot r.cid) r.cid (s.image r.cid) n g b).allAccept.hold r
    (.image r.cid n (s.imageSlot r.cid) (s.imageGone r.cid n) (s.slotOf r.cid).isNone) 5

section
variable {s : State} {p : Path} {r : ItlReq} {n : Image} {g : Tab Igrp} {b : Nat}

/-- A change whose groups and windows there are, and which every block's check passes, is accepted and held. -/
theorem State.commitImage_of_check {cid : Cid} {k : Nat} {first : Bool} {o : Image} {gone : List Resource}
    (hgroups : s.newGroups o n gone = some g) (hrun : s.findRun k n.nwin = some b)
    (hcheck : (s.preparePending k cid o n g b).allCheck (fun j => if j = k then n.nwin else s.slotNwin j)
      (fun t b => (s.bank t b).cid) = none) :
    s.commitImage r cid k first o n gone =
      (s.preparePending k cid o n g b).allAccept.hold r (.image cid n k gone first) 5 := by
  unfold State.commitImage
  rw [hgroups, hrun]
  dsimp only
  rw [hcheck]

theorem State.tryImage_of_stands (h : s.Stands r.cid n g b) : s.tryImage r r.cid n = s.imageHeld r n g b := by
  obtain ⟨⟨hn, ho⟩, htrained, hrefusal, hgroups, hrun, hcheck⟩ := h
  unfold State.imageGone at hrefusal
  unfold State.tryImage
  dsimp only
  rw [if_neg (by simp [hn, ho]), if_neg (by simp [htrained]), hrefusal]
  exact State.commitImage_of_check hgroups hrun hcheck

/-- An image that is held waits for the boundary in the pending values; the active ones stay (R230, R400). -/
theorem State.imageHeld_spec (s : State) (r : ItlReq) (n : Image) (g : Tab Igrp) (b : Nat) :
    awaits (s.imageHeld r n g b) r
      (.image r.cid n (s.imageSlot r.cid) (s.imageGone r.cid n) (s.slotOf r.cid).isNone) 5 ∧
    (s.imageHeld r n g b).brd.waiting = true ∧
    (s.imageHeld r n g b).brd.sh.acc = some (s.brd.sh.pend.withSlot (s.imageSlot r.cid) r.cid) ∧
    (s.imageHeld r n g b).brd.sh.act = s.brd.sh.act ∧ (s.imageHeld r n g b).xlt.sh.act = s.xlt.sh.act ∧
    (s.imageHeld r n g b).lp.sh.act = s.lp.sh.act ∧ (s.imageHeld r n g b).fab.sh.act = s.fab.sh.act := by
  obtain ⟨hbrd, hxlt, hlp, hfab⟩ :=
    s.preparePending_spec (s.imageSlot r.cid) r.cid (s.image r.cid) n g b
  obtain ⟨hwaits, hacc, hact, hx, hl, hf⟩ :=
    (s.preparePending (s.imageSlot r.cid) r.cid (s.image r.cid) n g b).allAccept_spec
  rw [hbrd] at hacc hact
  exact ⟨rfl, hwaits, hacc, hact, hx.trans hxlt, hl.trans hlp, hf.trans hfab⟩

theorem bridleImageHolds (hpass : passesCommit s p 0x0301
      ((r.payload.drop (64 + 32 * hdF r.payload 2 2)).all fun b => decide (b = 0)) r) (hcompose : s.composeOff = false)
    (howner : hdF r.payload 8 8 = r.owner.toNat) (hlease : hdF r.payload 0x10 4 = r.lease.toNat)
    (hexpect : hdF r.payload 4 4 = (s.epochOfCid r.cid).toNat) (hdecode : decodeImage r.payload r.cid = .ok n)
    (h : s.Stands r.cid n g b) : exec (.bridleImage p) s = .next (s.imageHeld r n g b) := by
  show Host.Outcome.next (s.imageCommand p 0x0301 _ _) = _
  rw [State.imageCommand_of_passes (ok := fun p => (p.drop (64 + 32 * hdF p 2 2)).all fun b => decide (b = 0)) hpass rfl]
  dsimp only
  rw [if_neg (by simp [hcompose]), if_neg (by simp [howner, hlease]), if_neg (by simp [hexpect]), hdecode]
  exact congrArg Host.Outcome.next (State.tryImage_of_stands h)

theorem unbindHolds (hpass : passesCommit s p 0x0303 (reservedOk r.payload []) r) (hslot : s.slotOf r.cid ≠ none)
    (h : s.Stands r.cid { s.image r.cid with ctabV := false, ctab := 0, entries := [] } g b) :
    exec (.unbind p) s = .next (s.imageHeld r { s.image r.cid with ctabV := false, ctab := 0, entries := [] } g b) := by
  obtain ⟨k, hk⟩ := Option.ne_none_iff_exists'.mp hslot
  show Host.Outcome.next (s.imageCommand p 0x0303 _ _) = _
  rw [State.imageCommand_of_passes (ok := fun p => reservedOk p []) hpass rfl]
  dsimp only
  rw [hk]
  exact congrArg Host.Outcome.next (State.tryImage_of_stands h)

theorem unbindAnswers (hpass : passesCommit s p 0x0303 (reservedOk r.payload []) r) (hslot : s.slotOf r.cid = none) :
    Does (.unbind p) s fun u => u.brd = s.brd ∧ responds s u r 0 [] := by
  refine ⟨s.answer r [], ?_, (s.answer_within r []).brd_eq rfl, State.answer_responds s r [] rfl⟩
  show Host.Outcome.next (s.imageCommand p 0x0303 _ _) = _
  rw [State.imageCommand_of_passes (ok := fun p => reservedOk p []) hpass rfl]
  dsimp only
  rw [hslot]

end

/-- Settles O44: an image that stands goes through the refusals to its commit, whose pending values every block accepts; UNBIND
is such an image, or has nothing to do. -/
theorem imagesCommitAsOne : Obligations.ImagesCommitAsOne := fun _ s r =>
  ⟨fun n g b hpass hcompose howner hlease hexpect hdecode ⟨hn, ho, htrained, hrefusal, hgroups, hrun, hcheck⟩ =>
      ⟨_, bridleImageHolds hpass hcompose howner hlease hexpect hdecode
        ⟨⟨hn, ho⟩, htrained, hrefusal, hgroups, hrun, hcheck⟩, s.imageHeld_spec r n g b⟩,
    unbindAnswers,
    fun g b hpass hslot ⟨hn, ho, htrained, hrefusal, hgroups, hrun, hcheck⟩ =>
      ⟨_, unbindHolds hpass hslot ⟨⟨hn, ho⟩, htrained, hrefusal, hgroups, hrun, hcheck⟩, s.imageHeld_spec r _ g b⟩⟩

end Sys2Proof.Machine
end

section
/-! SUPPORT. What writes of lines, ends of commands and purges of banks leave alone: the compositions with their leases, epochs,
fences and images, the contexts that are resident, and no change is held nor any commit accepted where none was. -/

set_option Elab.async false

namespace Sys2Proof.Machine

/-! ### Compositions that stand -/

/-- BRD but for the forwarded moves and the guarantees in force. -/
def Brd.besides (b : Brd) : Brd := { b with moves := [], current := [] }

/-- No commit of a tile's blocks waits. -/
def Tile.unheld (x : Tile) : Prop := x.nbr.acc = none ∧ x.srm.sh.acc = none

/-- No accepted commit waits in the blocks that a commit of BRD takes along (R230). -/
def State.unheld (s : State) : Prop :=
  s.lp.sh.acc = none ∧ s.xlt.sh.acc = none ∧ s.fab.sh.acc = none ∧ ∀ e ∈ s.tiles, e.2.unheld

theorem State.compWaits_iff (s : State) : s.compWaits = false ↔ s.brd.waiting = false ∧ s.unheld := by
  have htiles : (s.tiles.any fun t => t.2.srm.sh.acc.isSome || t.2.nbr.acc.isSome) = false ↔ ∀ e ∈ s.tiles, e.2.unheld := by
    rw [List.any_eq_false]
    refine forall₂_congr fun e _ => ?_
    rw [Bool.or_eq_true, not_or, Bool.not_eq_true, Bool.not_eq_true, Option.isSome_eq_false_iff, Option.isSome_eq_false_iff,
      Option.isNone_iff_eq_none, Option.isNone_iff_eq_none]
    exact and_comm
  unfold State.compWaits State.unheld
  simp only [Bool.or_eq_false_iff, htiles, Option.isSome_eq_false_iff, Option.isNone_iff_eq_none, and_assoc]

/-- No composition changes, none of its changes is held and no commit accepted where none was, and no FLR comes. -/
structure Abides (s u : State) : Prop where
  brd : u.brd.besides = s.brd.besides
  flr : u.flrWaits = s.flrWaits
  held : s.itl.held = none → u.itl.held = none
  unheld : s.unheld → u.unheld

namespace Abides

theorem refl (s : State) : Abides s s := ⟨rfl, rfl, id, id⟩

/-- An operation after others. -/
theorem after {s v u : State} (k : Abides v u) (h : Abides s v) : Abides s u :=
  ⟨k.brd.trans h.brd, k.flr.trans h.flr, k.held ∘ h.held, k.unheld ∘ h.unheld⟩

theorem each {α : Type} (s : State) (l : List α) (f : State → α → State) (hf : ∀ s x, Abides s (f s x)) : Abides s (s.each l f) := by
  induction l generalizing s with
  | nil => exact refl s
  | cons x l ih => exact (ih (f s x)).after (hf s x)

variable {s u : State} (h : Abides s u)
include h

theorem leases : u.brd.leases = s.brd.leases := (congrArg Brd.leases h.brd :)
theorem grace : u.brd.grace = s.brd.grace := (congrArg Brd.grace h.brd :)
theorem fences : u.brd.fences = s.brd.fences := (congrArg Brd.fences h.brd :)
theorem epochs : u.brd.epochs = s.brd.epochs := (congrArg Brd.epochs h.brd :)

theorem slotOf (cid : Cid) : u.slotOf cid = s.slotOf cid := by
  have hsh : u.brd.sh = s.brd.sh := (congrArg Brd.sh h.brd :)
  unfold State.slotOf
  rw [hsh]

theorem compWaits (hs : s.compWaits = false) : u.compWaits = false := by
  have hwaiting : u.brd.waiting = s.brd.waiting := (congrArg Brd.waiting h.brd :)
  rw [State.compWaits_iff] at hs ⊢
  exact ⟨hwaiting.trans hs.1, h.unheld hs.2⟩

end Abides

/-- No composition changes, and its contexts stay resident; one that is lost stays lost. -/
structure Houses (s u : State) : Prop extends Abides s u where
  sh : u.que.sh = s.que.sh
  lost : ∀ r, (s.resRo r).lost = true → (u.resRo r).lost = true

namespace Houses

theorem refl (s : State) : Houses s s := ⟨.refl s, rfl, fun _ => id⟩

/-- An operation after others. -/
theorem after {s v u : State} (k : Houses v u) (h : Houses s v) : Houses s u :=
  ⟨k.toAbides.after h.toAbides, k.sh.trans h.sh, fun r hr => k.lost r (h.lost r hr)⟩

theorem each {α : Type} (s : State) (l : List α) (f : State → α → State) (hf : ∀ s x, Houses s (f s x)) : Houses s (s.each l f) := by
  induction l generalizing s with
  | nil => exact refl s
  | cons x l ih => exact (ih (f s x)).after (hf s x)

theorem when (s : State) (c : Bool) (f : State → State) (hf : c = true → Houses s (f s)) : Houses s (s.when c f) := by
  cases c
  · exact refl s
  · exact hf rfl

theorem ite {s a b : State} {c : Prop} [Decidable c] (ha : c → Houses s a) (hb : ¬c → Houses s b) :
    Houses s (if c then a else b) := by
  split
  · exact ha ‹_›
  · exact hb ‹_›

theorem modQ (s : State) (e : Nat) (f : QRo → QRo) : Houses s (s.modQ e f) := ⟨⟨rfl, rfl, id, id⟩, rfl, fun _ => id⟩
theorem modFq (s : State) (slot : Nat) (f : FqRo → FqRo) : Houses s (s.modFq slot f) := ⟨⟨rfl, rfl, id, id⟩, rfl, fun _ => id⟩
theorem modPair (s : State) (p : Nat) (f : Pair → Pair) : Houses s (s.modPair p f) := ⟨⟨rfl, rfl, id, id⟩, rfl, fun _ => id⟩
theorem modMove (s : State) (h : Nat) (f : Move → Move) : Houses s (s.modMove h f) := ⟨⟨rfl, rfl, id, id⟩, rfl, fun _ => id⟩

/-- The end of waits at the sync units. -/
theorem endWaits (s : State) (f : SyncEntry → Bool) : Houses s (s.modQue fun q => { q with waits := q.waits.filter f }) :=
  ⟨⟨rfl, rfl, id, id⟩, rfl, fun _ => id⟩

theorem modTile (s : State) (t : Nat) (f : Tile → Tile) (hf : ∀ x, x.unheld → (f x).unheld) : Houses s (s.modTile t f) := by
  refine ⟨⟨rfl, rfl, id, fun ⟨hlp, hxlt, hfab, htiles⟩ => ⟨hlp, hxlt, hfab, fun e he => ?_⟩⟩, rfl, fun _ => id⟩
  have ht : (s.tile t).unheld := by
    obtain hreset | ⟨j, hj⟩ := Tab.get_mem Tile.reset s.tiles t
    · rw [State.tile, hreset]
      unfold Tile.reset
      split <;> exact ⟨rfl, rfl⟩
    · exact htiles _ hj
  obtain rfl | he := Tab.mem_insert he
  · exact hf _ ht
  · exact htiles e he

theorem modBank (s : State) (t b : Nat) (f : Bank → Bank) : Houses s (s.modBank t b f) := modTile s t _ fun _ hx => hx
theorem modChan (s : State) (t c : Nat) (f : Chan → Chan) : Houses s (s.modChan t c f) := modTile s t _ fun _ hx => hx

theorem modSrm (s : State) (t : Nat) (f : Srm → Srm) (hf : ∀ x, x.sh.acc = none → (f x).sh.acc = none) : Houses s (s.modSrm t f) :=
  modTile s t _ fun _ hx => ⟨hx.1, hf _ hx.2⟩

end Houses

/-- What touches memory alone, or the events, or what no composition has. -/
theorem Within.houses {M : List Block} {s u : State} (h : Within M s u) (hflr : u.flrWaits = s.flrWaits)
    (hM : Block.sub M [.pending, .out, .mem, .fresh, .lowHeld, .highLatch, .cycles, .mesh, .hst, .sched, .rcv, .cry, .evt,
      .flog, .boot] = true := by decide) : Houses s u := by
  have hw := h.mono hM
  refine ⟨⟨by rw [hw.brd_eq rfl], hflr, by rw [hw.itl_eq rfl]; exact id, ?_⟩, by rw [hw.que_eq rfl], ?_⟩
  · unfold State.unheld
    rw [hw.lp_eq rfl, hw.xlt_eq rfl, hw.fab_eq rfl, hw.tiles_eq rfl]
    exact id
  · unfold State.resRo
    rw [hw.que_eq rfl]
    exact fun _ => id

/-- What changes pairs, and no configuration of them. -/
theorem Within.housesPairs {M : List Block} {s u : State} (h : Within M s u) (hsh : u.lp.sh = s.lp.sh)
    (hM : Block.sub M [.mem, .lp, .cry] = true := by decide) : Houses s u := by
  have hw := h.mono hM
  refine ⟨⟨by rw [hw.brd_eq rfl], hw.flrWaits_eq rfl, by rw [hw.itl_eq rfl]; exact id, ?_⟩, by rw [hw.que_eq rfl], ?_⟩
  · unfold State.unheld
    rw [hsh, hw.xlt_eq rfl, hw.fab_eq rfl, hw.tiles_eq rfl]
    exact id
  · unfold State.resRo
    rw [hw.que_eq rfl]
    exact fun _ => id

theorem Within.housesMem {s u : State} (h : Within [.mem] s u) : Houses s u := h.houses h.flrWaits_eq

/-! ### Events, records, notifications -/

theorem State.pulse_houses (s : State) (k : Nat) : Houses s (s.pulse k) := (s.pulse_within k).houses (s.pulse_flrWaits k)

theorem State.fqWrite_houses (s : State) (slot : Nat) (hf : Nat × Nat) (kind code : Nat) (ctx : Ctx) (cid : Cid) (body : Bytes) :
    Houses s (s.fqWrite slot hf kind code ctx cid body) := by
  unfold State.fqWrite
  dsimp only
  refine (Houses.when _ _ _ fun _ => (State.msix_within _ _ _ _).houses (State.msix_flrWaits _ _ _ _)).after ?_
  exact (Houses.modFq _ _ _).after ((s.hostWrite_within _ _ _ _ _).houses (s.hostWrite_flrWaits _ _ _ _ _))

theorem State.moduleRecord_houses (s : State) (cid : Cid) (cls resource : Nat) : Houses s (s.moduleRecord cid cls resource) := by
  have hdrop : ∀ slot, Houses s (((s.fqDrop slot).modFq slot fun x => { x with movf := true }).pulse 856) := fun slot =>
    (State.pulse_houses _ _).after ((Houses.modFq _ _ _).after (.modFq s _ _))
  unfold State.moduleRecord
  cases s.slotOf cid with
  | none => exact .refl s
  | some slot =>
    dsimp only
    cases s.fqTarget cid slot with
    | none => exact hdrop slot
    | some hf => exact Houses.ite (fun _ => hdrop slot) fun _ => s.fqWrite_houses _ _ _ _ _ _ _

theorem State.moduleRecords_houses (s : State) (cids : List Cid) (cls resource : Nat) :
    Houses s (s.moduleRecords cids cls resource) :=
  (State.pulse_houses _ _).after (Houses.each s cids _ fun v _ => v.moduleRecord_houses _ _ _)

/-- A notification counts as dropped at most. -/
theorem State.notifyCid_houses (s : State) (cid : Cid) (code : Nat) (payload : Bytes) : Houses s (s.notifyCid cid code payload) := by
  have hdropped : Houses s (s.notifyDropped code cid) := by
    refine (State.pulse_houses _ _).after (((State.log_within _ _ _ _ _).houses (State.log_flrWaits _ _ _ _ _)).after ?_)
    exact ⟨⟨rfl, rfl, id, id⟩, rfl, fun _ => id⟩
  unfold State.notifyCid
  cases (s.lease cid).dest with
  | boundFunction =>
    dsimp only
    cases s.boundFunc cid with
    | some hf => exact (s.notifyMailbox_within _ _ _ _ _).houses (s.notifyMailbox_flrWaits _ _ _ _ _)
    | none => exact hdropped
  | mctp e => exact (s.notifyPath_within _ _ _ _).houses (s.notifyPath_flrWaits _ _ _ _)
  | peer m => exact Houses.ite (fun _ => (s.notifyPath_within _ _ _ _).houses (s.notifyPath_flrWaits _ _ _ _)) fun _ => hdropped

theorem State.opDone_houses (s : State) (op : Nat) (cid : Cid) (key status detail block : Nat) :
    Houses s (s.opDone op cid key status detail block) := by
  unfold State.opDone
  refine (Houses.each _ _ _ fun v r => (v.notifyPath_within _ _ _ _).houses (v.notifyPath_flrWaits _ _ _ _)).after ?_
  exact ⟨⟨rfl, rfl, id, id⟩, rfl, fun _ => id⟩

/-! ### Guarantees and failed pairs -/

theorem State.setPairSt_houses (s : State) (p : Nat) (st : PairSt) : Houses s (s.setPairSt p st) := by
  have h : Houses s ((s.modPair p fun x => { x with st := st }).pulse (640 + p)) :=
    (State.pulse_houses _ _).after (Houses.modPair s p _)
  unfold State.setPairSt
  exact Houses.ite (fun _ => .refl s) fun _ => Houses.ite (fun _ => h) fun _ => (State.moduleRecords_houses _ _ _ _).after h

/-- A change of the active, the pending and the accepted values together accepts none. -/
theorem Sh.both_acc {α : Type} {x : Sh α} (f : α → α) (h : x.acc = none) : (x.both f).acc = none := by
  unfold Sh.both
  rw [h]
  rfl

theorem State.setRegGuar_houses (s : State) (slot : Nat) (r : GuarRes) (g : Nat) : Houses s (s.setRegGuar slot r g) := by
  unfold State.setRegGuar
  cases r with
  | tile l =>
    dsimp only
    cases s.physTile l with
    | some t => exact Houses.modTile s t _ fun _ hx => ⟨Sh.both_acc _ hx.1, hx.2⟩
    | none => exact .refl s
  | pair l => exact ⟨⟨rfl, rfl, id, fun ⟨hlp, hrest⟩ => ⟨Sh.both_acc _ hlp, hrest⟩⟩, rfl, fun _ => id⟩
  | port p rx => exact ⟨⟨rfl, rfl, id, fun ⟨hlp, hxlt, hfab, ht⟩ => ⟨hlp, hxlt, Sh.both_acc _ hfab, ht⟩⟩, rfl, fun _ => id⟩

theorem State.setCurrent_houses (s : State) (slot : Nat) (cid : Cid) (r : GuarRes) (g : Nat) :
    Houses s (s.setCurrent slot cid r g) := by
  have hreg : ∀ l : List (Cid × GuarRes × Nat), Houses s ((s.modBrd fun b => { b with current := l }).setRegGuar slot r g) := fun l =>
    (State.setRegGuar_houses _ _ _ _).after ⟨⟨rfl, rfl, id, id⟩, rfl, fun _ => id⟩
  unfold State.setCurrent
  refine Houses.ite (fun _ => .refl s) fun _ => Houses.ite (fun _ => ?_) fun _ => ?_
  all_goals exact (State.pulse_houses _ _).after ((State.notifyCid_houses _ _ _ _).after (hreg _))

theorem State.regauge_houses (s : State) (r : GuarRes) : Houses s (s.regauge r) :=
  Houses.each s _ _ fun v g => by
    cases v.slotOf g.1 with
    | some slot => exact v.setCurrent_houses _ _ _ _
    | none => exact .refl v

theorem State.regaugeHalf_houses (s : State) (half : Nat) : Houses s (s.regaugeHalf half) :=
  Houses.each s _ _ fun v _ => v.regauge_houses _

theorem State.spareUp_houses (s : State) (half : Nat) : Houses s (s.spareUp half) := by
  unfold State.spareUp
  refine Houses.ite (fun _ => .refl s) fun _ => ?_
  dsimp only
  split
  · exact (Houses.modPair _ _ _).after (s.setPairSt_houses _ _)
  · exact .refl s

/-- A move that aborts drops the change that Itlum holds for it, with its commit. -/
theorem State.moveAborts_houses (s : State) (half : Nat) : Houses s (s.moveAborts half) := by
  have h := fun a b n => (s.copyRange_within a b 0 n []).housesPairs (s.copyRange_sh a b 0 n [])
  specialize h (s.moveH half).dst.toNat (s.moveH half).src.toNat (s.moveH half).cursor.toNat
  unfold State.moveAborts
  dsimp only
  refine (State.opDone_houses _ _ _ _ _ _ _).after ((Houses.modMove _ _ _).after (Houses.after ?_ h))
  generalize s.copyRange _ _ _ _ _ = v
  exact Houses.when v _ _ fun _ => ⟨⟨rfl, rfl, fun _ => rfl, fun ⟨_, hrest⟩ => ⟨rfl, hrest⟩⟩, rfl, fun _ => id⟩

theorem State.pairFailed_houses (s : State) (p : Nat) : Houses s (s.pairFailed p) := by
  have hd := s.setPairSt_houses p .degraded
  unfold State.pairFailed
  refine Houses.ite (fun _ => .refl s) fun _ => ?_
  dsimp only
  refine (State.regaugeHalf_houses _ _).after ((State.spareUp_houses _ _).after ?_)
  refine Houses.ite (fun _ => ?_) fun _ => Houses.ite (fun _ => (State.moveAborts_houses _ _).after hd) fun _ => hd
  refine ((State.zeroShare_within _ _ _ _).housesPairs (State.zeroShare_sh _ _ _ _)).after ((Houses.modPair _ _ _).after ?_)
  refine (State.setPairSt_houses _ _ _).after ((State.opDone_houses _ _ _ _ _ _ _).after ?_)
  exact (Houses.modMove _ _ _).after hd

/-! ### Lines -/

theorem Srm.recordUe_sh (x : Srm) (icv : Bool) (off : Nat) : (x.recordUe icv off).sh = x.sh := by
  unfold Srm.recordUe
  split <;> rfl

theorem State.sramPoison_houses (s : State) (t off : Nat) (icv : Bool) : Houses s (s.sramPoison t off icv) := by
  unfold State.sramPoison
  refine (Houses.modSrm _ _ _ fun x hx => ?_).after (s.clearMem_within _ _).housesMem
  dsimp only
  rw [Srm.recordUe_sh]
  exact hx

theorem State.sramCheck_houses (s : State) (t off : Nat) (ecc : Ecc) : Houses s (s.sramCheck t off ecc).2 := by
  unfold State.sramCheck
  simp only [apply_ite Prod.snd]
  refine Houses.ite (fun _ => .refl s) fun _ => ?_
  cases ecc.corrections with
  | none =>
    exact Houses.ite (fun _ => s.sramPoison_houses _ _ _) fun _ => Houses.ite (fun _ => s.sramPoison_houses _ _ _) fun _ => .refl s
  | some n =>
    have h := Houses.modSrm s t (fun x => { x with ce := satAdd x.ce n, rewrite := Tab.insert x.rewrite (off / 64) true })
      fun _ hx => hx
    exact Houses.ite (fun _ => (State.sramPoison_houses _ _ _ _).after h) fun _ =>
      Houses.ite (fun _ => (State.sramPoison_houses _ _ _ _).after h) fun _ => h

theorem State.sramWrite_houses (s : State) (t off : Nat) (data : Line) (be : DWord) (ecc : Ecc) :
    Houses s (s.sramWrite t off data be ecc).2 := by
  unfold State.sramWrite
  simp only [apply_ite Prod.snd]
  refine Houses.ite (fun _ => (Houses.modSrm _ _ _ ?_).after (s.storeLine_within _ _).housesMem) fun _ => ?_
  · exact fun _ hx => hx
  · exact Houses.ite (fun _ => (State.storeLine_within _ _ _).housesMem.after (s.sramCheck_houses _ _ _)) fun _ =>
      s.sramCheck_houses _ _ _

theorem State.dramPoison_houses (s : State) (p line : Nat) : Houses s (s.dramPoison p line) := by
  have h : Houses s ((s.modPair p fun x => { x with poison := Tab.insert x.poison line true, ue := satInc x.ue }).pulse
      (544 + p / 4)) := (State.pulse_houses _ _).after (Houses.modPair s p _)
  unfold State.dramPoison
  exact Houses.ite (fun _ => (State.pairFailed_houses _ _).after h) fun _ => h

theorem State.dramRebuilt_houses (s : State) (p : Nat) : Houses s (s.dramRebuilt p) := by
  have h : Houses s ((s.modPair p fun x => { x with rebuilt := satInc x.rebuilt, rebuiltPeriod := x.rebuiltPeriod + 1 }).pulse
      (544 + p / 4)) := (State.pulse_houses _ _).after (Houses.modPair s p _)
  unfold State.dramRebuilt
  exact Houses.ite (fun _ => (State.pairFailed_houses _ _).after h) fun _ => h

theorem State.settleStripe_houses (s : State) (p line : Nat) : Houses s (s.settleStripe p line) :=
  (s.settleStripe_within p line).housesPairs (s.settleStripe_sh p line)

theorem State.linkRetried_houses (s : State) (p : Nat) (ecc : Ecc) : Houses s (s.linkRetried p ecc) :=
  Houses.ite (fun _ => Houses.modPair s p _) fun _ => .refl s

theorem State.dramFetch_houses (s : State) (p line : Nat) (ecc : Ecc) : Houses s (s.dramFetch p line ecc).2.2 := by
  have h := s.linkRetried_houses p ecc
  unfold State.dramFetch
  dsimp only
  split
  · exact .refl s
  split
  · exact (State.dramPoison_houses _ _ _).after h
  split
  · split
    · refine (State.dramRebuilt_houses _ _).after
        (Houses.ite (fun _ => ?_) fun _ => (State.storeLine_within _ _ _).housesMem.after ?_) <;>
      exact (State.settleStripe_houses _ _ _).after h
    · exact (State.dramPoison_houses _ _ _).after h
  · exact h

theorem State.oldLine_houses (s : State) (p line : Nat) (ecc : Ecc) : Houses s (s.oldLine p line ecc).2 := by
  have h := s.linkRetried_houses p ecc
  unfold State.oldLine
  simp only [apply_ite Prod.snd]
  refine Houses.ite (fun _ => Houses.ite (fun _ => (State.dramRebuilt_houses _ _).after ?_) fun _ => ?_) fun _ => h <;>
  exact (State.settleStripe_houses _ _ _).after h

theorem State.dramStore_houses (s : State) (p line : Nat) (old new : Line) : Houses s (s.dramStore p line old new) := by
  have hpush : ∀ (v : State) x, Houses v (v.pushDelta p line x) := fun v x =>
    Houses.ite (fun _ => .refl v) fun _ => ⟨⟨rfl, rfl, id, id⟩, rfl, fun _ => id⟩
  unfold State.dramStore
  exact (hpush _ _).after (Houses.ite (fun _ => .refl s) fun _ => (s.storeLine_within _ _).housesMem)

theorem State.regionWrite_houses (s : State) (p line mpa : Nat) (old new : Line) : Houses s (s.regionWrite p line mpa old new) := by
  refine (s.regionWrite_within _ _ _ _ _).houses ?_
  have hregion : ∀ (v : State) k f, (v.modRegion k f).flrWaits = v.flrWaits := fun _ _ _ => rfl
  have hcry : ∀ (v : State) f, (v.modCry f).flrWaits = v.flrWaits := fun _ _ => rfl
  have hmove : ∀ (v : State) k, (v.regionMove k).flrWaits = v.flrWaits := fun _ _ => rfl
  unfold State.regionWrite
  simp only [apply_ite State.flrWaits, State.pulse_flrWaits, hregion, hcry, hmove, ite_self]

theorem State.dramWrite_houses (s : State) (p line mpa : Nat) (data : Line) (be : DWord) (ecc : Ecc) :
    Houses s (s.dramWrite p line mpa data be ecc).2 := by
  have hregion : ∀ (v : State) old new (c : Prop) [Decidable c], Houses v (if c then v.regionWrite p line mpa old new else v) :=
    fun v old new c _ => Houses.ite (fun _ => v.regionWrite_houses _ _ _ _ _) fun _ => .refl v
  unfold State.dramWrite
  simp only [apply_ite Prod.snd]
  refine Houses.ite (fun _ => (s.keyUe_within _).housesPairs rfl) fun _ => Houses.ite (fun _ => ?_) fun _ =>
    Houses.ite (fun _ => .refl s) fun _ => Houses.ite (fun _ => s.dramFetch_houses _ _ _) fun _ => ?_
  · exact (hregion _ _ _ _).after ((State.dramStore_houses _ _ _ _ _).after ((Houses.modPair _ _ _).after (s.oldLine_houses _ _ _)))
  · exact (hregion _ _ _ _).after ((State.dramStore_houses _ _ _ _ _).after (s.dramFetch_houses _ _ _))

theorem State.placeWrite_houses (s : State) (pl : Place) (mpa : Nat) (data : Line) (be : DWord) (ecc : Ecc) :
    Houses s (s.placeWrite pl mpa data be ecc).2 := by
  cases pl with
  | sram t off => exact s.sramWrite_houses _ _ _ _ _
  | dram _ p line _ => exact s.dramWrite_houses p line _ data be ecc
  | unbacked => exact .refl s

theorem State.writeMpa_houses (s : State) (w : Who) (mpa : Nat) (data : Line) (be : DWord) (ecc : Ecc) :
    Houses s (s.writeMpa w mpa data be ecc).2 := by
  have hrefused := s.countRefused_within (s.place mpa)
  unfold State.writeMpa
  simp only [apply_ite Prod.snd]
  refine Houses.ite (fun _ => hrefused.houses hrefused.flrWaits_eq) fun _ => (State.placeWrite_houses _ _ _ _ _ _).after ?_
  cases s.place mpa with
  | dram => exact Houses.ite (fun _ => .refl s) fun _ => (s.dlogDevice_within _ _).houses (s.dlogDevice_flrWaits _ _)
  | sram => exact .refl s
  | unbacked => exact .refl s

/-! ### Entries of an object table, status lines, completion entries -/

theorem State.mpaStore_houses (s : State) (w : Who) (mpa n v : Nat) : Houses s (s.mpaStore w mpa n v).2 :=
  s.writeMpa_houses _ _ _ _ _

theorem State.objSetState_houses (s : State) (cid : Cid) (i st gen : Nat) : Houses s (s.objSetState cid i st gen) := by
  unfold State.objSetState
  cases s.objTab cid with
  | none => exact .refl s
  | some t => exact s.mpaStore_houses _ _ _ _

theorem State.objSetRefs_houses (s : State) (cid : Cid) (i refs : Nat) : Houses s (s.objSetRefs cid i refs) := by
  unfold State.objSetRefs
  cases s.objTab cid with
  | none => exact .refl s
  | some t => exact s.mpaStore_houses _ _ _ _

theorem State.parserWrite_houses (s : State) (home : Nat) (cid : Cid) (ctx : Ctx) (dva n v : Nat) :
    Houses s (s.parserWrite home cid ctx dva n v).2 := by
  unfold State.parserWrite
  generalize s.walk cid ctx dva = x
  cases x with
  | hit e =>
    dsimp only
    generalize e.target dva = m
    cases m with
    | localMpa m => exact s.mpaStore_houses _ _ _ _
    | host a =>
      dsimp only
      cases s.hostWay cid with
      | some hf =>
        dsimp only
        exact (s.hostWrite_within _ _ _ _ _).houses (s.hostWrite_flrWaits _ _ _ _ _)
      | none => exact .refl s
    | window fa =>
      dsimp only
      exact (s.unitSend_within _ _ _).houses ((s.unitSend_within _ _ _).flrWaits_eq)
  | _ => exact .refl s

theorem State.queueRecord_houses (s : State) (e code index tag info : Nat) (pkt : BitVec 256) (ctx : Ctx) :
    Houses s (s.queueRecord e code index tag info pkt ctx) := by
  unfold State.queueRecord
  dsimp only
  cases s.fqTarget (s.qCid e) (s.qSh e).slot.toNat with
  | some hf => exact Houses.ite (fun _ => s.fqWrite_houses _ _ _ _ _ _ _) fun _ => Houses.modFq s _ _
  | none => exact Houses.modFq s _ _

theorem State.breakQueue_houses (s : State) (e index : Nat) : Houses s (s.breakQueue e index) := by
  unfold State.breakQueue
  refine Houses.ite (fun _ => .refl s) fun _ => ?_
  exact (State.queueRecord_houses _ _ _ _ _ _ _ _).after ((State.parserWrite_houses _ _ _ _ _ _ _).after (Houses.modQ s e _))

theorem State.completionWrite_houses (s : State) (e : Nat) (index : Word) (tag status info : Nat) (irq : Bool) :
    Houses s (s.completionWrite e index tag status info irq) := by
  unfold State.completionWrite
  dsimp only
  refine Houses.ite (fun _ => (State.breakQueue_houses _ _ _).after (s.parserWrite_houses _ _ _ _ _ _)) fun _ => ?_
  refine (Houses.when _ _ _ fun _ => ?_).after (s.parserWrite_houses _ _ _ _ _ _)
  exact (State.msix_within _ _ _ _).houses (State.msix_flrWaits _ _ _ _)

theorem State.endCmd_houses (s : State) (e : Nat) (index : Word) (status info : Nat) (write : Bool) :
    Houses s (s.endCmd e index status info write) := by
  unfold State.endCmd
  cases s.cmd e index with
  | none => exact .refl s
  | some c =>
    have h := (Houses.endWaits (s.modQ e fun r => { r with cmds := r.cmds.filter fun c => decide (c.index ≠ index) })
      fun w => decide (w.who ≠ .queue e index)).after (Houses.modQ s e _)
    exact Houses.ite (fun _ => (State.completionWrite_houses _ _ _ _ _ _ _).after h) fun _ => h

/-! ### References, commands, banks, contexts -/

theorem State.freeDone_houses (s : State) (cid : Cid) (i : Nat) : Houses s (s.freeDone cid i) := by
  unfold State.freeDone
  cases s.objEntry cid i with
  | none => exact .refl s
  | some e =>
    refine Houses.ite (fun _ => ?_) fun _ => .refl s
    dsimp only
    have h := s.objSetState_houses cid i 0 (if e.gen = 255 then 1 else e.gen + 1)
    split
    · exact (State.endCmd_houses _ _ _ _ _ _).after h
    · exact h

theorem State.wakeRefs_houses (s : State) (cid : Cid) : Houses s (s.wakeRefs cid) :=
  Houses.each s _ _ fun v t => Houses.each v _ _ fun v b => by
    dsimp only
    split
    · exact Houses.ite (fun _ => Houses.modBank v _ _ _) fun _ => .refl v
    · exact .refl v

theorem State.dropRef_houses (s : State) (cid : Cid) (i : Nat) : Houses s (s.dropRef cid i) := by
  unfold State.dropRef
  cases s.objEntry cid i with
  | none => exact .refl s
  | some e => exact (State.wakeRefs_houses _ _).after ((State.freeDone_houses _ _ _).after (s.objSetRefs_houses _ _ _))

theorem State.complete_houses (s : State) (e : Nat) (index : Word) (status info : Nat) (write : Bool) :
    Houses s (s.complete e index status info write) := by
  unfold State.complete
  cases s.cmd e index with
  | none => exact .refl s
  | some c => exact (Houses.each _ _ _ fun v i => v.dropRef_houses _ _).after (s.endCmd_houses _ _ _ _ _)

theorem State.dropBankWaits_houses (s : State) (t b : Nat) : Houses s (s.dropBankWaits t b) :=
  (Houses.each _ _ _ fun v _ => v.dropRef_houses _ _).after (Houses.endWaits s _)

theorem State.dropMigration_houses (s : State) (t b : Nat) : Houses s (s.dropMigration t b) :=
  ⟨⟨rfl, rfl, id, id⟩, rfl, fun _ => id⟩

theorem State.haltChan_houses (s : State) (t c : Nat) (cid : Cid) : Houses s (s.haltChan t c cid) := by
  unfold State.haltChan
  dsimp only
  cases (s.chan t c).fenceRef with
  | some i => exact (State.dropRef_houses _ _ _).after (Houses.modChan s t c _)
  | none => exact Houses.modChan s t c _

theorem State.purgeBank_houses (s : State) (t b : Nat) : Houses s (s.purgeBank t b) := by
  have hmesh : ∀ (v : State) f, Houses v (v.modMesh f) := fun _ _ => ⟨⟨rfl, rfl, id, id⟩, rfl, fun _ => id⟩
  unfold State.purgeBank
  refine Houses.ite (fun _ => .refl s) fun _ => ?_
  refine ((State.tileSignal_within _ _).houses (State.tileSignal_flrWaits _ _)).after ((hmesh _ _).after ?_)
  refine (State.dropMigration_houses _ _ _).after ((State.dropBankWaits_houses _ _ _).after ?_)
  exact (Houses.each _ _ _ fun v c => v.haltChan_houses _ _ _).after (Houses.modBank s t b _)

/-- What follows a context's mark as lost: its banks are purged, its commands end (R355). -/
theorem State.loseContext_marked {s : State} {cid : Cid} {ctx : Ctx} {r : Nat} (hr : s.resOf cid ctx = some r)
    (hlost : (s.resRo r).lost = false) (at_ : Option (Nat × Nat)) (seq : Nat) :
    Houses (s.modRes r fun x => { x with lost := true, stalled := false, held := none }) (s.loseContext cid ctx at_ seq) := by
  have hend : ∀ (f : Nat × QCmd → Nat) (v : State) l, Houses v (v.each l fun s c =>
      if c.2.st = .freeing then s else s.complete c.1 c.2.index 2 (f c) true) := fun f v l =>
    Houses.each v _ _ fun v c => Houses.ite (fun _ => .refl v) fun _ => v.complete_houses _ _ _ _ _
  unfold State.loseContext
  rw [hr]
  dsimp only
  rw [if_neg (by rw [hlost]; exact Bool.false_ne_true)]
  cases at_ with
  | none => exact (hend _ _ _).after (Houses.each _ _ _ fun v x => v.purgeBank_houses _ _)
  | some x =>
    refine (State.dropMigration_houses _ _ _).after ((State.dropBankWaits_houses _ _ _).after ?_)
    exact (hend _ _ _).after (Houses.each _ _ _ fun v x => v.purgeBank_houses _ _)

theorem State.loseContext_of_lost {s : State} {cid : Cid} {ctx : Ctx} {r : Nat} (hr : s.resOf cid ctx = some r)
    (hlost : (s.resRo r).lost = true) (at_ : Option (Nat × Nat)) (seq : Nat) : s.loseContext cid ctx at_ seq = s := by
  unfold State.loseContext
  rw [hr]
  exact if_pos hlost

theorem Houses.modRes_lost (s : State) (r : Nat) : Houses s (s.modRes r fun x => { x with lost := true, stalled := false, held := none }) := by
  refine ⟨⟨rfl, rfl, id, id⟩, rfl, fun j hj => ?_⟩
  show (Tab.get _ (Tab.insert s.que.res r _) j).lost = true
  rw [Tab.get_insert]
  split
  · rfl
  · exact hj

theorem State.loseContext_houses (s : State) (cid : Cid) (ctx : Ctx) (at_ : Option (Nat × Nat)) (seq : Nat) :
    Houses s (s.loseContext cid ctx at_ seq) := by
  cases hr : s.resOf cid ctx with
  | none =>
    unfold State.loseContext
    rw [hr]
    exact .refl s
  | some r =>
    by_cases hlost : (s.resRo r).lost = true
    · rw [State.loseContext_of_lost hr hlost]
      exact .refl s
    · exact (State.loseContext_marked hr (Bool.eq_false_iff.mpr hlost) at_ seq).after (.modRes_lost s r)

/-- A resident context is lost (R355). -/
theorem State.loseContext_lost {s : State} {cid : Cid} {ctx : Ctx} {r : Nat} (hr : s.resOf cid ctx = some r)
    (at_ : Option (Nat × Nat)) (seq : Nat) : ((s.loseContext cid ctx at_ seq).resRo r).lost = true := by
  by_cases hlost : (s.resRo r).lost = true
  · rw [State.loseContext_of_lost hr hlost]
    exact hlost
  · refine (State.loseContext_marked hr (Bool.eq_false_iff.mpr hlost) at_ seq).lost r ?_
    show (Tab.get _ (Tab.insert s.que.res r _) r).lost = true
    rw [Tab.get_insert_same]

end Sys2Proof.Machine
end

section
/-! SUPPORT. Lease records (R246 to R249): their writes, the end of a lease, and the end of a grace period, which purges what the
composition runs and lets its bridle epoch step. -/

set_option Elab.async false

namespace Sys2Proof.Machine

/-! ### Records -/

theorem State.lease_congr {s u : State} (h : u.brd.leases = s.brd.leases) (c : Cid) : u.lease c = s.lease c := by
  unfold State.lease
  rw [h]

theorem State.lease_of_insert {s u : State} {cid : Cid} {l : Lease} (h : u.brd.leases = Tab.insert s.brd.leases cid.toNat l) :
    u.lease cid = l ∧ ∀ c, c ≠ cid → u.lease c = s.lease c := by
  unfold State.lease
  rw [h]
  exact ⟨Tab.get_insert_same _ _ _ _, fun c hc => Tab.get_insert_other _ _ _ _ _ fun hn => hc (BitVec.eq_of_toNat_eq hn)⟩

/-- A record that is written, and what stays of the compositions with it. -/
theorem State.setLease_spec (s : State) (cid : Cid) (l : Lease) :
    (s.setLease cid l).brd.leases = Tab.insert s.brd.leases cid.toNat l ∧ (s.setLease cid l).brd.grace = s.brd.grace ∧
    (s.setLease cid l).brd.epochs = s.brd.epochs ∧ (s.setLease cid l).brd.fences = s.brd.fences ∧
    (s.setLease cid l).brd.sh = s.brd.sh ∧ (s.setLease cid l).brd.waiting = s.brd.waiting := by
  unfold State.setLease
  dsimp only
  split <;> exact ⟨rfl, rfl, rfl, rfl, rfl, rfl⟩

theorem State.setLease_flrWaits (s : State) (cid : Cid) (l : Lease) : (s.setLease cid l).flrWaits = s.flrWaits :=
  (s.setLease_within cid l).flrWaits_eq

/-- A lease that becomes ORPHANED keeps all but its state and its time (R249). -/
theorem State.orphan_leases (s : State) (cid : Cid) (at_ : Nat) : (s.orphan cid at_).brd.leases =
    Tab.insert s.brd.leases cid.toNat { s.lease cid with st := .orphaned, orphanedAt := at_ } := by
  unfold State.orphan
  dsimp only
  rw [(State.pulse_within _ _).brd_eq rfl, (State.notifyCid_within _ _ _ _).brd_eq rfl]
  exact (s.setLease_spec cid _).1

theorem State.orphan_flrWaits (s : State) (cid : Cid) (at_ : Nat) : (s.orphan cid at_).flrWaits = s.flrWaits :=
  (State.pulse_flrWaits _ _).trans ((State.notifyCid_flrWaits _ _ _ _).trans (s.setLease_flrWaits _ _))

/-- A lease that ends is NONE, its record kept or not (R246). -/
theorem State.leaseNone_st {s : State} (h : rising s.brd.leases) (cid : Cid) : ((s.leaseNone cid).lease cid).st = .none := by
  unfold State.leaseNone
  split
  · rw [(State.lease_of_insert (s.setLease_spec cid _).1).1]
  · exact congrArg Lease.st (Tab.get_erase_of_rising _ h _)

/-! ### What a composition runs is purged (R249) -/

theorem State.purgeCtxWork_houses (s : State) (cid : Cid) (ctx : Ctx) (write : Bool) : Houses s (s.purgeCtxWork cid ctx write) := by
  have hshare : ∀ (v : State) t b, Houses v (v.shareOff0 t b) := fun v t b => Houses.modSrm v t _ fun _ hx => Sh.both_acc _ hx
  refine (Houses.each _ _ _ fun v _ => v.complete_houses _ _ _ _ _).after ?_
  exact Houses.each s _ _ fun v x => (hshare _ _ _).after (v.purgeBank_houses _ _)

theorem State.endResidency_abides (s : State) (cid : Cid) (ctx : Ctx) : Abides s (s.endResidency cid ctx) := by
  have hend : ∀ (v : State) (f : Que → Que) (g : Sched → Sched), Abides v ((v.modQue f).modSched g) := fun _ _ _ =>
    ⟨rfl, rfl, id, id⟩
  unfold State.endResidency
  cases s.resOf cid ctx with
  | none => exact .refl s
  | some r =>
    dsimp only
    refine (hend _ _ _).after ?_
    split
    · exact (Houses.modFq s _ _).toAbides
    · exact .refl s

theorem State.purgeAll_abides (s : State) (cid : Cid) : Abides s (s.purgeAll cid) :=
  Abides.each s _ _ fun v _ => (State.endResidency_abides _ _ _).after (v.purgeCtxWork_houses _ _ _).toAbides

theorem State.emptyQueues_houses (s : State) (cid : Cid) : Houses s (s.emptyQueues cid) :=
  Houses.each s _ _ fun v _ => (Houses.modQ _ _ _).after (Houses.each v _ _ fun v _ => v.complete_houses _ _ _ _ _)

/-- A composition without what its grace period ends: its queues empty, its contexts gone, its lease NONE. -/
@[irreducible] def State.graceless (s : State) (cid : Cid) : State :=
  ((s.emptyQueues cid).purgeAll cid).setLease cid { s.lease cid with st := .none }

theorem State.purged_abides (s : State) (cid : Cid) : Abides s ((s.emptyQueues cid).purgeAll cid) :=
  (State.purgeAll_abides _ cid).after (s.emptyQueues_houses cid).toAbides

theorem State.graceless_leases (s : State) (cid : Cid) :
    (s.graceless cid).brd.leases = Tab.insert s.brd.leases cid.toNat { s.lease cid with st := .none } := by
  have h := (State.setLease_spec ((s.emptyQueues cid).purgeAll cid) cid { s.lease cid with st := .none }).1
  rw [(s.purged_abides cid).leases] at h
  rw [State.graceless]
  exact h

theorem State.graceless_keeps (s : State) (cid : Cid) :
    (s.graceless cid).brd.grace = s.brd.grace ∧ (s.graceless cid).flrWaits = s.flrWaits := by
  have hset := State.setLease_spec ((s.emptyQueues cid).purgeAll cid) cid { s.lease cid with st := .none }
  have hflr := State.setLease_flrWaits ((s.emptyQueues cid).purgeAll cid) cid { s.lease cid with st := .none }
  rw [(s.purged_abides cid).grace] at hset
  rw [(s.purged_abides cid).flr] at hflr
  rw [State.graceless]
  exact ⟨hset.2.1, hflr⟩

/-- The bridle epochs, the slots and the fences stay as a composition loses its lease. -/
theorem State.graceless_change (s : State) (cid : Cid) :
    (∀ k, (s.graceless cid).epochOf k = s.epochOf k) ∧ (s.graceless cid).slotOf cid = s.slotOf cid ∧
    (∀ k, (s.graceless cid).fence k = s.fence k) ∧ (s.graceless cid).rcv.expired = s.rcv.expired := by
  have hpurged := s.purged_abides cid
  obtain ⟨-, -, hepochs, hfences, hsh, -⟩ :=
    State.setLease_spec ((s.emptyQueues cid).purgeAll cid) cid { s.lease cid with st := .none }
  have hset := State.setLease_within ((s.emptyQueues cid).purgeAll cid) cid { s.lease cid with st := .none }
  rw [State.graceless]
  refine ⟨fun k => ?_, ?_, fun k => ?_, ?_⟩
  · rw [State.epochOf, hepochs, hpurged.epochs, State.epochOf]
  · rw [State.slotOf, hsh]
    exact hpurged.slotOf cid
  · rw [State.fence, hfences, hpurged.fences, State.fence]
  · rw [hset.rcv_eq rfl, (State.purgeAll_within _ _).rcv_eq rfl, (State.emptyQueues_within _ _).rcv_eq rfl]

theorem State.graceless_held (s : State) (cid : Cid) (h : s.itl.held = none) : (s.graceless cid).itl.held = none := by
  have hset := State.setLease_within ((s.emptyQueues cid).purgeAll cid) cid { s.lease cid with st := .none }
  rw [State.graceless, hset.itl_eq rfl]
  exact (s.purged_abides cid).held h

theorem State.graceless_compWaits (s : State) (cid : Cid) (h : s.compWaits = false) : (s.graceless cid).compWaits = false := by
  have hset := State.setLease_within ((s.emptyQueues cid).purgeAll cid) cid { s.lease cid with st := .none }
  obtain ⟨-, -, -, -, -, hwaiting⟩ :=
    State.setLease_spec ((s.emptyQueues cid).purgeAll cid) cid { s.lease cid with st := .none }
  have hpurged := (s.purged_abides cid).compWaits h
  rw [State.compWaits_iff] at hpurged ⊢
  rw [State.graceless]
  refine ⟨hwaiting.trans hpurged.1, ?_⟩
  unfold State.unheld
  rw [hset.lp_eq rfl, hset.xlt_eq rfl, hset.fab_eq rfl, hset.tiles_eq rfl]
  exact hpurged.2

/-! ### Changes of Itlum's own that move nothing (R231, R237) -/

/-- The grace period, the leases, and the mailboxes that an FLR has caught. -/
def State.tenure (s : State) : BitVec 10 × Tab Lease × (Nat → Bool) := (s.brd.grace, s.brd.leases, s.flrWaits)

theorem Within.tenure_eq {M : List Block} {s u : State} (h : Within M s u) (hflr : u.flrWaits = s.flrWaits)
    (hM : M.contains .brd = false := by decide) : u.tenure = s.tenure := by
  unfold State.tenure
  rw [h.brd_eq hM, hflr]

theorem State.bridleChanged_flrWaits (s : State) (cid : Cid) (cause : Nat) (old new : Word) (recs : List (Nat × Nat × Nat)) :
    (s.bridleChanged cid cause old new recs).flrWaits = s.flrWaits := s.notifyCid_flrWaits _ _ _

/-- A change that moves nothing steps the bridle epoch and tells the owner (R231, R237). -/
theorem State.itlumChange_of_slot {s : State} {cid : Cid} {k : Nat} (hk : s.slotOf cid = some k) (cause : Nat) :
    s.itlumChange cid [] cause [] =
      (s.modBrd fun b => { b with epochs := Tab.insert b.epochs k (Machine.nextEpoch (s.epochOf k)) }).bridleChanged cid cause
        (s.epochOf k) (Machine.nextEpoch (s.epochOf k)) [] := by
  unfold State.itlumChange
  rw [hk]
  rfl

theorem State.itlumChange_tenure (s : State) (cid : Cid) (cause : Nat) : (s.itlumChange cid [] cause []).tenure = s.tenure := by
  cases hk : s.slotOf cid with
  | none =>
    unfold State.itlumChange
    rw [hk]
  | some k =>
    rw [State.itlumChange_of_slot hk]
    exact (State.bridleChanged_within _ _ _ _ _ _).tenure_eq (State.bridleChanged_flrWaits _ _ _ _ _ _)

/-- The step of an ended grace period, its functions' locked interfaces in ERROR. -/
def State.expiryStep (s : State) (c : Cid) : State :=
  ((s.each (s.cidFuncs c) fun s f => s.tdiError f.1 f.2 1).modRcv fun r => { r with
    expired := r.expired.filter fun x => decide (x ≠ c) }).itlumChange c [] 5 []

theorem State.expiryChanges_eq (s : State) :
    s.expiryChanges = s.each s.rcv.expired fun s c => if !s.canChange [c] then s else s.expiryStep c := rfl

theorem State.cidErrors_flrWaits (s : State) (l : List (Nat × Nat)) :
    (s.each l fun s f => s.tdiError f.1 f.2 1).flrWaits = s.flrWaits :=
  State.each_congr State.flrWaits s l _ fun v _ => v.tdiError_flrWaits _ _ _

theorem State.cidErrors_brd (s : State) (l : List (Nat × Nat)) : (s.each l fun s f => s.tdiError f.1 f.2 1).brd = s.brd :=
  State.each_congr State.brd s l _ fun v _ => (v.tdiError_within _ _ _).brd_eq rfl

theorem State.expiryStep_tenure (s : State) (c : Cid) : (s.expiryStep c).tenure = s.tenure := by
  have herr : (s.each (s.cidFuncs c) fun s f => s.tdiError f.1 f.2 1).tenure = s.tenure := by
    unfold State.tenure
    rw [s.cidErrors_brd, s.cidErrors_flrWaits]
  exact (State.itlumChange_tenure _ c 5).trans herr

theorem State.itlumChange_epochOf {s : State} {cid : Cid} {k : Nat} (hk : s.slotOf cid = some k) (cause : Nat) :
    (s.itlumChange cid [] cause []).epochOf k = Machine.nextEpoch (s.epochOf k) := by
  rw [State.itlumChange_of_slot hk, State.epochOf, (State.bridleChanged_within _ _ _ _ _ _).brd_eq rfl]
  exact Tab.get_insert_same _ _ _ _

theorem State.expiryStep_epochOf {s : State} {c : Cid} {k : Nat} (hk : s.slotOf c = some k) :
    (s.expiryStep c).epochOf k = Machine.nextEpoch (s.epochOf k) := by
  have hbrd := s.cidErrors_brd (s.cidFuncs c)
  unfold State.expiryStep
  generalize s.each (s.cidFuncs c) (fun s f => s.tdiError f.1 f.2 1) = v at hbrd ⊢
  have hslot : v.slotOf c = some k := by rw [State.slotOf, hbrd, ← hk, State.slotOf]
  have hepoch : v.epochOf k = s.epochOf k := by rw [State.epochOf, hbrd, State.epochOf]
  exact (State.itlumChange_epochOf (s := v.modRcv _) hslot 5).trans (congrArg Machine.nextEpoch hepoch)

theorem State.expiryChanges_tenure (s : State) : s.expiryChanges.tenure = s.tenure :=
  State.each_congr State.tenure s _ _ fun v c => State.ite_congr State.tenure (fun _ => rfl) fun _ => v.expiryStep_tenure c

/-! ### The end of a grace period (R249) -/

theorem State.graceEnds_of_slot {s : State} {cid : Cid} {k : Nat} (hk : s.slotOf cid = some k) :
    s.graceEnds cid = ((s.graceless cid).modRcv fun r => { r with expired := r.expired ++ [cid] }).expiryChanges := by
  unfold State.graceEnds
  rw [hk, State.graceless]

/-- A grace period that ends leaves the grace period and the mailboxes. -/
theorem State.graceEnds_keeps (s : State) (cid : Cid) :
    (s.graceEnds cid).brd.grace = s.brd.grace ∧ (s.graceEnds cid).flrWaits = s.flrWaits := by
  cases hk : s.slotOf cid with
  | none =>
    unfold State.graceEnds
    rw [hk]
    exact ⟨rfl, rfl⟩
  | some k =>
    rw [State.graceEnds_of_slot hk]
    have htenure := State.expiryChanges_tenure ((s.graceless cid).modRcv fun r => { r with expired := r.expired ++ [cid] })
    obtain ⟨hgrace, hrest⟩ := Prod.mk.inj htenure
    obtain ⟨-, hflr⟩ := Prod.mk.inj hrest
    exact ⟨hgrace.trans (s.graceless_keeps cid).1, hflr.trans (s.graceless_keeps cid).2⟩

/-- The lease of a composition that has a slot is NONE once its grace period has ended. -/
theorem State.graceEnds_leases {s : State} {cid : Cid} {k : Nat} (hk : s.slotOf cid = some k) :
    (s.graceEnds cid).brd.leases = Tab.insert s.brd.leases cid.toNat { s.lease cid with st := .none } := by
  rw [State.graceEnds_of_slot hk]
  have htenure := State.expiryChanges_tenure ((s.graceless cid).modRcv fun r => { r with expired := r.expired ++ [cid] })
  exact (congrArg (·.2.1) htenure : _ = (s.graceless cid).brd.leases).trans (s.graceless_leases cid)

theorem State.graceEnds_st {s : State} (h : rising s.brd.leases) (cid : Cid) : ((s.graceEnds cid).lease cid).st = .none := by
  cases hk : s.slotOf cid with
  | none =>
    unfold State.graceEnds
    rw [hk]
    exact congrArg Lease.st (Tab.get_erase_of_rising _ h _)
  | some k => rw [(State.lease_of_insert (State.graceEnds_leases hk)).1]

/-- Where nothing holds its change back, a composition's bridle epoch steps as its grace period ends (R249). -/
theorem State.graceEnds_epochOf {s : State} {cid : Cid} {k : Nat} (hk : s.slotOf cid = some k) (hexpired : s.rcv.expired = [])
    (hheld : s.itl.held = none) (hwaits : s.compWaits = false) (hfence : (s.fence k).isOpen = false) :
    (s.graceEnds cid).epochOf k = Machine.nextEpoch (s.epochOf k) := by
  obtain ⟨hepoch, hslot, hfenceOf, hexpiredOf⟩ := s.graceless_change cid
  rw [State.graceEnds_of_slot hk, State.expiryChanges_eq]
  set w := (s.graceless cid).modRcv fun r => { r with expired := r.expired ++ [cid] }
  have hwexpired : w.rcv.expired = [cid] := by
    show (s.graceless cid).rcv.expired ++ [cid] = [cid]
    rw [hexpiredOf, hexpired, List.nil_append]
  have hwslot : w.slotOf cid = some k := hslot.trans hk
  have hwepoch : w.epochOf k = s.epochOf k := hepoch k
  have hwfence : w.fence k = s.fence k := hfenceOf k
  have hwheld : w.itl.held = none := s.graceless_held cid hheld
  have hwwaits : w.compWaits = false := s.graceless_compWaits cid hwaits
  have hcan : w.canChange [cid] = true := by
    simp [State.canChange, hwheld, hwwaits, hwslot, hwfence, hfence]
  clear_value w
  rw [hwexpired, State.each_cons, State.each_nil, hcan]
  exact (w.expiryStep_epochOf hwslot).trans (congrArg Machine.nextEpoch hwepoch)

end Sys2Proof.Machine
end

section
/-! SUPPORT. The LEASE_ commands (R246 to R249, R403): each passes its checks, writes its record and answers with it. -/

set_option Elab.async false

namespace Sys2Proof.Machine

theorem State.leaseBytes_congr {u v : State} {cid : Cid} (hlease : u.lease cid = v.lease cid) (hcad : u.cad = v.cad) :
    u.leaseBytes cid = v.leaseBytes cid := by
  unfold State.leaseBytes State.epochAt
  rw [hlease, hcad]

/-- An answer with a lease record gives the record as it then is. -/
theorem State.answer_lease {s : State} (v : State) (r : ItlReq) (hflr : v.flrWaits = s.flrWaits) :
    (v.answer r (v.leaseBytes r.cid)).lease r.cid = v.lease r.cid ∧
      responds s (v.answer r (v.leaseBytes r.cid)) r 0 ((v.answer r (v.leaseBytes r.cid)).leaseBytes r.cid) := by
  have hans := v.answer_within r (v.leaseBytes r.cid)
  have hlease : (v.answer r (v.leaseBytes r.cid)).lease r.cid = v.lease r.cid := by
    unfold State.lease
    rw [hans.brd_eq rfl]
  refine ⟨hlease, ?_⟩
  rw [State.leaseBytes_congr hlease (hans.cad_eq rfl)]
  exact State.answer_responds v r _ hflr

/-- A record that is written and answered with. -/
theorem State.setLease_answers (s : State) (r : ItlReq) (l : Lease) :
    let u := (s.setLease r.cid l).answer r ((s.setLease r.cid l).leaseBytes r.cid)
    u.lease r.cid = l ∧ responds s u r 0 (u.leaseBytes r.cid) := by
  obtain ⟨hlease, hresponds⟩ := State.answer_lease (s.setLease r.cid l) r (s.setLease_flrWaits r.cid l)
  exact ⟨hlease.trans (State.lease_of_insert (s.setLease_spec r.cid l).1).1, hresponds⟩

section
variable {p : Path} {s : State} {r : ItlReq}

theorem leaseAcquired (hpass : passes s p 0x0201 (reservedOk r.payload [(0, 0, 16), (2, 0, 2), (4, 0, 16)] && durationOk r.payload &&
      s.destOk r.payload 2 false) r) (hoff : s.composeOff = false) (hst : (s.lease r.cid).st ≠ .held)
    (hroom : (Tab.find s.brd.leases r.cid.toNat).isSome = true ∨ s.brd.leases.length < 512) :
    Does (.leaseAcquire p) s fun u => u.lease r.cid = { s.lease r.cid with
      st := .held, owner := r.owner, epoch := s.nextLease r.cid, expiry := s.now + hdF r.payload 0 2 * period,
      duration := hdF r.payload 0 2, dest := destOf r.payload 2 .boundFunction } ∧ responds s u r 0 (u.leaseBytes r.cid) := by
  refine ⟨_, ?_, State.setLease_answers s r _⟩
  show Host.Outcome.next (s.command p 0x0201 _ _) = _
  rw [State.command_of_passes hpass rfl]
  dsimp only
  rw [hoff, if_neg Bool.false_ne_true, if_neg hst, if_neg]
  rintro ⟨hnone, hfull⟩
  rw [Option.isNone_iff_eq_none] at hnone
  rw [hnone] at hroom
  exact hroom.elim nofun fun h => by omega

theorem leaseRenewed (hpass : passes s p 0x0202 (reservedOk r.payload [(0, 0, 16)] && durationOk r.payload) r) :
    Does (.leaseRenew p) s fun u => u.lease r.cid = { s.lease r.cid with
      expiry := s.now + hdF r.payload 0 2 * period, duration := hdF r.payload 0 2 } ∧ responds s u r 0 (u.leaseBytes r.cid) := by
  refine ⟨_, ?_, State.setLease_answers s r _⟩
  show Host.Outcome.next (s.command p 0x0202 _ _) = _
  rw [State.command_of_passes hpass rfl]

theorem leaseTransferred (hpass : passes s p 0x0203 (reservedOk r.payload [(0, 0, 64), (8, 0, 2), (10, 0, 16)] &&
      s.destOk r.payload 8 true) r) :
    Does (.leaseTransfer p) s fun u => u.lease r.cid = { s.lease r.cid with
      owner := BitVec.ofNat 64 (hdF r.payload 0 8), epoch := s.nextLease r.cid,
      dest := destOf r.payload 8 (s.lease r.cid).dest } ∧ responds s u r 0 (u.leaseBytes r.cid) := by
  refine ⟨_, ?_, State.setLease_answers s r _⟩
  show Host.Outcome.next (s.command p 0x0203 _ _) = _
  rw [State.command_of_passes hpass rfl]

/-- A lease that becomes ORPHANED now, and is answered with. -/
theorem State.orphan_answers (s : State) (r : ItlReq) :
    let v := s.orphan r.cid s.now
    let u := v.answer r (v.leaseBytes r.cid)
    (u.lease r.cid).st = .orphaned ∧ (u.lease r.cid).orphanedAt = s.now ∧ responds s u r 0 (u.leaseBytes r.cid) := by
  obtain ⟨hlease, hresponds⟩ := State.answer_lease (s.orphan r.cid s.now) r (s.orphan_flrWaits _ _)
  have hrec := hlease.trans (State.lease_of_insert (s.orphan_leases r.cid s.now)).1
  exact ⟨congrArg Lease.st hrec, congrArg Lease.orphanedAt hrec, hresponds⟩

theorem State.leaseNone_flrWaits (s : State) (cid : Cid) : (s.leaseNone cid).flrWaits = s.flrWaits :=
  State.ite_congr State.flrWaits (fun _ => s.setLease_flrWaits _ _) fun _ => rfl

theorem leaseReleased (hpass : passes s p 0x0204 (reservedOk r.payload []) r) (hrising : rising s.brd.leases) :
    Does (.leaseRelease p) s fun u =>
      (u.lease r.cid).st = (if (s.residents r.cid).isEmpty then .none else .orphaned) ∧
      ((s.residents r.cid).isEmpty = false → (u.lease r.cid).orphanedAt = s.now) ∧
      responds s u r 0 (u.leaseBytes r.cid) := by
  let v := if (s.residents r.cid).isEmpty then s.leaseNone r.cid else s.orphan r.cid s.now
  refine ⟨v.answer r (v.leaseBytes r.cid), ?_, ?_⟩
  · show Host.Outcome.next (s.command p 0x0204 _ _) = _
    rw [State.command_of_passes hpass rfl]
  · cases hempty : (s.residents r.cid).isEmpty with
    | true =>
      have hv : v = s.leaseNone r.cid := if_pos hempty
      obtain ⟨hlease, hresponds⟩ := State.answer_lease (s.leaseNone r.cid) r (s.leaseNone_flrWaits _)
      rw [hv]
      exact ⟨(congrArg Lease.st hlease).trans (State.leaseNone_st hrising r.cid), nofun, hresponds⟩
    | false =>
      have hv : v = s.orphan r.cid s.now := if_neg (by rw [hempty]; exact Bool.false_ne_true)
      obtain ⟨hst, hat, hresponds⟩ := s.orphan_answers r
      rw [hv]
      exact ⟨hst, fun _ => hat, hresponds⟩

/-- What BREAK makes of a composition (R247). -/
def State.broken (s : State) (cid : Cid) : State :=
  match (s.lease cid).st with
  | .held => s.orphan cid s.now
  | .orphaned => s.graceEnds cid
  | .none => s

theorem leaseBroken (hpass : passes s p 0x0205 (reservedOk r.payload []) r) (hrising : rising s.brd.leases) :
    Does (.leaseBreak p) s fun u =>
      (u.lease r.cid).st = (if (s.lease r.cid).st = .held then .orphaned else .none) ∧
      ((s.lease r.cid).st = .held → (u.lease r.cid).orphanedAt = s.now) ∧ responds s u r 0 (u.leaseBytes r.cid) := by
  refine ⟨(s.broken r.cid).answer r ((s.broken r.cid).leaseBytes r.cid), ?_, ?_⟩
  · show Host.Outcome.next (s.command p 0x0205 _ _) = _
    rw [State.command_of_passes hpass rfl]
    rfl
  · unfold State.broken
    cases hst : (s.lease r.cid).st with
    | held =>
      obtain ⟨horphan, hat, hresponds⟩ := s.orphan_answers r
      exact ⟨horphan, fun _ => hat, hresponds⟩
    | orphaned =>
      obtain ⟨hlease, hresponds⟩ := State.answer_lease (s.graceEnds r.cid) r (s.graceEnds_keeps r.cid).2
      exact ⟨(congrArg Lease.st hlease).trans (State.graceEnds_st hrising r.cid), nofun, hresponds⟩
    | none =>
      obtain ⟨hlease, hresponds⟩ := State.answer_lease s r rfl
      exact ⟨(congrArg Lease.st hlease).trans hst, nofun, hresponds⟩

theorem graceSet (hpass : passes s p 0x0207 (reservedOk r.payload [(0, 0, 10)] &&
      decide (1 ≤ payF r.payload 0 2 0 10 ∧ payF r.payload 0 2 0 10 ≤ 1000)) r) :
    Does (.leaseGrace p) s fun u => u.brd.grace.toNat = payF r.payload 0 2 0 10 ∧ responds s u r 0 [] := by
  let g := payF r.payload 0 2 0 10
  let ended := s.brd.leases.filter fun e => decide (e.2.st = .orphaned ∧ e.2.orphanedAt + g * period ≤ s.now)
  let v := s.modBrd fun b => { b with grace := BitVec.ofNat 10 g }
  let w := v.each ended fun v e => v.graceEnds (BitVec.ofNat 16 e.1)
  have hgrace : w.brd.grace = BitVec.ofNat 10 g :=
    State.each_congr (fun v => v.brd.grace) v ended _ fun v e => (v.graceEnds_keeps (BitVec.ofNat 16 e.1)).1
  have hflr : w.flrWaits = s.flrWaits :=
    State.each_congr State.flrWaits v ended _ fun v e => (v.graceEnds_keeps (BitVec.ofNat 16 e.1)).2
  refine ⟨w.answer r [], ?_, ?_, State.answer_responds w r [] hflr⟩
  · show Host.Outcome.next (s.command p 0x0207 _ _) = _
    rw [State.command_of_passes hpass rfl]
    rfl
  · have hsmall : g < 2 ^ 10 := Nat.mod_lt _ (by decide)
    rw [(w.answer_within r []).brd_eq rfl, hgrace, BitVec.toNat_ofNat, Nat.mod_eq_of_lt hsmall]

end

/-- Settles O42: each command passes its checks and writes its record, which the answer reads back; what ends or purges a
composition keeps the mailboxes, and the grace periods that GRACE ends keep the grace period. -/
theorem leasesChangeHands : Obligations.LeasesChangeHands := fun _ _ _ =>
  ⟨leaseAcquired, leaseRenewed, leaseTransferred, leaseReleased, leaseBroken, graceSet⟩

end Sys2Proof.Machine
end

section
/-! SUPPORT. Epoch fences that close or are reported (R233 to R235, R250), leases that expire and grace periods that end (R249). -/

set_option Elab.async false

namespace Sys2Proof.Machine

/-! ### A fence closes -/

/-- A resource that is FREE as soon as a fence closes on `rs`: a port among them (R251). -/
def freedAtClose (rs : List Resource) : Resource → Bool
  | .port p => rs.contains (.port p)
  | _ => false

theorem freedAtClose_cons (r : Resource) (rs : List Resource) (x : Resource) :
    freedAtClose (r :: rs) x = (freedAtClose [r] x || freedAtClose rs x) := by
  cases x with
  | port p => simp only [freedAtClose, List.contains_cons, List.contains_nil, Bool.or_false]
  | _ => rfl

theorem State.returnShares_brd (s : State) (cid : Cid) (p : Nat) : (s.returnShares cid p).brd = s.brd :=
  (s.returnShares_within cid p).brd_eq rfl

/-- The compositions once the ports among `rs` are FREE. -/
def Brd.freed (b : Brd) (rs : List Resource) : Brd := { b with res := b.res.filter fun e => !freedAtClose rs e.1 }

theorem Brd.freed_of_no_port {rs : List Resource} (h : ∀ p, Resource.port p ∉ rs) (b : Brd) : b.freed rs = b := by
  have hkept : ∀ x, freedAtClose rs x = false := fun x => by
    cases x with
    | port p => simpa [freedAtClose] using h p
    | _ => rfl
  simp only [Brd.freed, hkept, Bool.not_false, List.filter_true]

theorem Brd.freed_cons (b : Brd) (r : Resource) (rs : List Resource) : b.freed (r :: rs) = (b.freed [r]).freed rs := by
  simp only [Brd.freed, List.filter_filter, freedAtClose_cons r rs, Bool.not_or, Bool.and_comm]

theorem State.setFree_port (s : State) (p : Nat) : (s.setFree (.port p)).brd = s.brd.freed [.port p] := by
  have hkept : ∀ x : Resource, (!freedAtClose [.port p] x) = decide (x ≠ .port p) := fun x => by
    cases x <;> simp [freedAtClose]
  simp only [Brd.freed, hkept]
  rfl

theorem State.closePorts_brd (s : State) (cid : Cid) (rs : List Resource) : (s.closePorts cid rs).brd = s.brd.freed rs := by
  induction rs generalizing s with
  | nil => exact (Brd.freed_of_no_port (fun _ => List.not_mem_nil) s.brd).symm
  | cons r rs ih =>
    rw [Brd.freed_cons]
    cases r with
    | port p =>
      refine (ih ((s.returnShares cid p).setFree (.port p))).trans (congrArg (Brd.freed · rs) ?_)
      rw [State.setFree_port, State.returnShares_brd]
    | _ => exact (ih s).trans (congrArg (Brd.freed · rs) (Brd.freed_of_no_port (by simp) s.brd).symm)

theorem State.moveClears_houses (s : State) (h : Nat) : Houses s (s.moveClears h) :=
  Houses.ite (fun _ => (Houses.modPair _ _ _).after (Houses.modMove s h _)) fun _ => .refl s

/-- The compositions once the fence of slot `k` has closed: it counts nothing, the ports that waited on it are FREE, its other
resources start their clear. -/
def State.fenceClosed (s : State) (k : Nat) : Brd :=
  { (s.startClear (s.fence k).atClose).brd.freed (s.fence k).atClose with fences := Tab.insert s.brd.fences k {} }

theorem State.endFence_brd {v : State} {b : Brd} (k : Nat) (h : v.brd = b) :
    (v.modFence k fun _ => {}).brd = { b with fences := Tab.insert b.fences k {} } := by
  subst h
  rfl

theorem State.fenceClose_besides (s : State) (k : Nat) : (s.fenceClose k).brd.besides = (s.fenceClosed k).besides := by
  unfold State.fenceClose
  dsimp only
  rw [(State.moveClears_houses _ 1).brd, (State.moveClears_houses _ 0).brd, (State.releaseHeld_within _ _).brd_eq rfl]
  exact congrArg Brd.besides (State.endFence_brd k (State.closePorts_brd _ _ _))

theorem Brd.of_besides {b c : Brd} (h : b.besides = c.besides) : b.fences = c.fences ∧ b.images = c.images ∧ b.res = c.res :=
  ⟨(congrArg Brd.fences h :), (congrArg Brd.images h :), (congrArg Brd.res h :)⟩

theorem epochFenceCloses (k : SlotIx) (s : State) (hopen : (s.fence k.val).isOpen = true) (hcount : (s.fence k.val).count = 0)
    (hshift : s.shiftOf (s.slotE k.val).2 = false) (hbound : (s.image (s.slotE k.val).2).entries.isEmpty = false) :
    Does (.epochFenceClose k) s fun u =>
      u.fence k.val = {} ∧ (∀ j, j ≠ k.val → u.fence j = s.fence j) ∧
      (∀ p, Resource.port p ∈ (s.fence k.val).atClose → ∀ e ∈ u.brd.res, e.1 ≠ .port p) ∧
      ((∀ p, Resource.port p ∉ (s.fence k.val).atClose) → u.brd.res = s.brd.res.map fun e =>
        if (s.fence k.val).atClose.contains e.1 then (e.1, e.2.1, .clearing) else e) := by
  obtain ⟨hfences, himages, hres⟩ := Brd.of_besides (s.fenceClose_besides k.val)
  have hsettle : (s.fenceClose k.val).settleSlot (s.slotE k.val).2 = s.fenceClose k.val := by
    refine State.settleSlot_of_image ?_
    rw [State.image, himages]
    exact hbound
  refine ⟨s.fenceClose k.val, ?_, ?_, fun j hj => ?_, fun p hp e he => ?_, fun hports => ?_⟩
  · show execEpochFenceClose k s = _
    unfold execEpochFenceClose
    dsimp only
    rw [if_pos ⟨hopen, hcount, by rw [hshift]; rfl⟩, hsettle]
  · rw [State.fence, hfences, State.fenceClosed, Tab.get_insert_same]
  · rw [State.fence, hfences, State.fenceClosed, Tab.get_insert_other _ _ _ _ _ hj, State.fence]
  · rw [hres] at he
    rintro hport
    have hkept := (List.mem_filter.mp he).2
    simp [hport, freedAtClose, hp] at hkept
  · rw [hres, State.fenceClosed, Brd.freed_of_no_port hports]
    rfl

/-! ### A fence that stalls is reported -/

theorem State.countLost_houses (s : State) (cid : Cid) : Houses s (s.countLost cid) := by
  unfold State.countLost
  cases s.slotOf cid with
  | none => exact .refl s
  | some slot => exact ⟨⟨rfl, rfl, id, id⟩, rfl, fun _ => id⟩

theorem Houses.resOf {s u : State} (h : Houses s u) (cid : Cid) (ctx : Ctx) : u.resOf cid ctx = s.resOf cid ctx := by
  unfold State.resOf
  rw [h.sh]

/-- What comes before a context's loss: the record, and the count of lost contexts. -/
theorem State.lossRecorded_houses (s : State) (cid : Cid) (resource cause : Nat) :
    Houses s ((s.moduleRecords [cid] 1 resource).when (decide (cause ≠ 2)) fun s => s.countLost cid) :=
  (Houses.when _ _ _ fun _ => State.countLost_houses _ _).after (s.moduleRecords_houses _ _ _)

theorem State.purgeLost_houses (s : State) (cid : Cid) (ctx : Ctx) (tile bank cause : Nat) :
    Houses s (s.purgeLost cid ctx tile bank cause) := by
  unfold State.purgeLost
  cases s.resOf cid ctx with
  | none => exact .refl s
  | some r => exact Houses.ite (fun _ => .refl s) fun _ => (State.loseContext_houses _ _ _ _ _).after (s.lossRecorded_houses _ _ _)

/-- A resident context is lost with its record (R475). -/
theorem State.purgeLost_lost {s : State} {cid : Cid} {ctx : Ctx} {r : Nat} (hr : s.resOf cid ctx = some r) (tile bank cause : Nat) :
    ((s.purgeLost cid ctx tile bank cause).resRo r).lost = true := by
  unfold State.purgeLost
  rw [hr]
  dsimp only
  split
  · assumption
  · exact State.loseContext_lost (((s.lossRecorded_houses cid _ cause).resOf cid ctx).trans hr) none 0

theorem State.purgeEach_lost {cid : Cid} (tile bank cause : Nat) {l : List Ctx} {c : Ctx} {r : Nat} {s : State} (hc : c ∈ l)
    (hr : s.resOf cid c = some r) : ((s.each l fun s c => s.purgeLost cid c tile bank cause).resRo r).lost = true := by
  have hrest : ∀ (v : State) l, Houses v (v.each l fun s c => s.purgeLost cid c tile bank cause) := fun v l =>
    Houses.each v l _ fun v c => v.purgeLost_houses _ _ _ _ _
  induction l generalizing s with
  | nil => cases hc
  | cons x l ih =>
    rw [State.each_cons]
    obtain rfl | hc := List.mem_cons.mp hc
    · exact (hrest _ l).lost r (State.purgeLost_lost hr _ _ _)
    · exact ih hc (((s.purgeLost_houses cid x _ _ _).resOf cid c).trans hr)

/-- Whose requests a fence counts is read from the requests and the tiles. -/
theorem Within.fenceCtxs_eq {M : List Block} {s u : State} (h : Within M s u) (cid : Cid) (hmesh : M.contains .mesh = false := by decide)
    (htiles : M.contains .tiles = false := by decide) : u.fenceCtxs cid = s.fenceCtxs cid := by
  have hissuer : ∀ w, u.issuerBank w = s.issuerBank w := fun w => by
    cases w <;> simp only [State.issuerBank, h.chan_eq htiles]
  simp only [State.fenceCtxs, h.mesh_eq hmesh, hissuer]

/-- The state of a stalled fence's slot once it is reported (R235). -/
def State.stallReported (s : State) (k : Nat) : State :=
  (s.modFence k fun f => { f with reported := true }).moduleRecords [(s.slotE k).2] 4
    ((s.fence k).count.toNat + (s.epochOf k).toNat * 2 ^ 32)

theorem fenceStallReported (k : SlotIx) (s : State) (hopen : (s.fence k.val).isOpen = true) (hnew : (s.fence k.val).reported = false)
    (hlate : (s.fence k.val).openedAt + max (16 * period) (s.ticksOf 500000000) ≤ s.now) :
    Does (.fenceStallTimeout k) s fun u =>
      u.fence k.val = { s.fence k.val with reported := true } ∧
      ∀ c ∈ s.fenceCtxs (s.slotE k.val).2, ∀ r, s.resOf (s.slotE k.val).2 c = some r → (u.resRo r).lost = true := by
  have hrecords := State.moduleRecords_within (s.modFence k.val fun f => { f with reported := true }) [(s.slotE k.val).2] 4
    ((s.fence k.val).count.toNat + (s.epochOf k.val).toNat * 2 ^ 32)
  have hhouses := State.moduleRecords_houses (s.modFence k.val fun f => { f with reported := true }) [(s.slotE k.val).2] 4
    ((s.fence k.val).count.toNat + (s.epochOf k.val).toNat * 2 ^ 32)
  have hctxs : (s.stallReported k.val).fenceCtxs (s.slotE k.val).2 = s.fenceCtxs (s.slotE k.val).2 :=
    hrecords.fenceCtxs_eq _
  refine ⟨(s.stallReported k.val).each (s.fenceCtxs (s.slotE k.val).2) fun v c => v.purgeLost (s.slotE k.val).2 c 0x3FF 0 1,
    ?_, ?_, fun c hc r hr => State.purgeEach_lost _ _ _ hc ((hhouses.resOf _ c).trans hr)⟩
  · show execFenceStallTimeout k s = _
    unfold execFenceStallTimeout
    dsimp only
    rw [if_neg (by simp [hopen, hnew]; omega), ← hctxs]
    rfl
  · have hpurged := Houses.each (s.stallReported k.val) (s.fenceCtxs (s.slotE k.val).2) _ fun v c =>
      v.purgeLost_houses (s.slotE k.val).2 c 0x3FF 0 1
    rw [State.fence, hpurged.fences, State.stallReported, hhouses.fences]
    exact Tab.get_insert_same _ _ _ _

theorem epochFences : Stated.EpochFences := ⟨epochFenceCloses, fenceStallReported⟩

/-! ### Leases expire, grace ends -/

theorem leaseExpires (cid : Cid) (s : State) (hst : (s.lease cid).st = .held) (hexpiry : (s.lease cid).expiry ≤ s.now)
    (havail : s.itl.avail = true) :
    Does (.leaseExpiry cid) s fun u =>
      u.lease cid = { s.lease cid with st := .orphaned, orphanedAt := (s.lease cid).expiry } ∧
      ∀ c, c ≠ cid → u.lease c = s.lease c := by
  refine ⟨s.orphan cid (s.lease cid).expiry, ?_, State.lease_of_insert (s.orphan_leases _ _)⟩
  show execLeaseExpiry cid s = _
  unfold execLeaseExpiry
  exact if_pos ⟨hst, hexpiry, havail⟩

theorem graceExpires (cid : Cid) (k : Nat) (s : State) (hst : (s.lease cid).st = .orphaned) (havail : s.itl.avail = true)
    (hslot : s.slotOf cid = some k) (hover : (s.lease cid).orphanedAt + s.brd.grace.toNat * period ≤ s.now)
    (hexpired : s.rcv.expired = []) (hheld : s.itl.held = none) (hwaits : s.compWaits = false)
    (hfence : (s.fence k).isOpen = false) :
    Does (.graceExpiry cid) s fun u =>
      u.lease cid = { s.lease cid with st := .none } ∧ (∀ c, c ≠ cid → u.lease c = s.lease c) ∧
      u.epochOf k = nextEpoch (s.epochOf k) := by
  obtain ⟨hlease, hothers⟩ := State.lease_of_insert (State.graceEnds_leases hslot)
  refine ⟨s.graceEnds cid, ?_, hlease, hothers, State.graceEnds_epochOf hslot hexpired hheld hwaits hfence⟩
  show execGraceExpiry cid s = _
  unfold execGraceExpiry
  exact if_pos ⟨hst, hover, havail⟩

/-- Settles O30: a fence's close is followed through the ports it frees; a stalled one is recorded before each of its contexts is
lost, which leaves the fences and the contexts that are resident; an ended grace period purges without touching what its
bridle epoch's step depends on. -/
theorem fencesCloseAndLeasesExpire : Obligations.FencesCloseAndLeasesExpire := ⟨epochFences, leaseExpires, graceExpires⟩

end Sys2Proof.Machine
end
